-- ==== Sys2Proof/Word.lean ====
section
/-!
DEFINITION. The word and byte types of the block (R7, R8) and the index types of its instances (R12).
-/
namespace Sys2Proof

/-- A 32-bit register word (R37). -/
abbrev Word := BitVec 32

/-- A byte of a memory (R8). -/
abbrev Byte := BitVec 8

/-- Master codes of the register bus (R34): 0 hardware, 1 host, 2 SMBus, 3 mate, 4 DMA, 5 to 12 SEQ0 to
SEQ7, 13 command engine, 14 Skim. -/
abbrev Master := Fin 15

/-- A fractional output divider, FOD0 to FOD127 (R125). -/
abbrev FodIx := Fin 128

/-- A synthesis core, SC0 to SC7 (R93). -/
abbrev ScIx := Fin 8

/-- A DPLL, DP0 to DP3 (R193). -/
abbrev DpIx := Fin 4

/-- A reference index of R186: 0 to 143. -/
abbrev RefIx := Fin 144

/-- A port, PORT0 to PORT127 (R31). -/
abbrev PortIx := Fin 128

/-- An event or correction lane, 0 to 15 (R219). -/
abbrev LaneIx := Fin 16

/-- A capture ring, RING0 to RING15 (R275). -/
abbrev RingIx := Fin 16

/-- A DMA channel, DMA0 to DMA15 (R373). -/
abbrev DmaIx := Fin 16

/-- An Oarva core, SEQ0 to SEQ7 (R292). -/
abbrev CoreIx := Fin 8

/-- A fault source (R415). -/
abbrev SrcIx := Fin 256

/-- Core cycles since the last AON boundary: the instant within an AON period (R70). -/
abbrev CycIx := Fin 100

end Sys2Proof
end

