-- ==== Sys2Proof/Syntax.lean ====
section
/-!
DEFINITION. The commands of the block: one constructor for each row of spec/opcode_table.json, with the
operands that the rule of the row names. A happening that the module measures or receives carries what was
measured or received; `k` is the instant within the present AON period (R70); `m` is the master of a write (R34).
-/
namespace Sys2Proof

/-- The blocks with posted registers and a BUSY bit of their own (R47). -/
inductive PBlock where
  | time | fcol | nvs | pwr | mate
  | sc (n : ScIx)
  deriving DecidableEq, Repr

/-- The instant of a write: its core cycle, and whether hardware updates of the written register that follow at the same
instant fall in the same core cycle (R56). -/
structure WriteAt where
  cycle : CycIx
  tie : Bool
  deriving DecidableEq, Repr

/-- The landing of the write in flight of a block (R48), and whether hardware updates that follow fall in its cycle (R56). -/
structure PostLand where
  block : PBlock
  tie : Bool
  deriving DecidableEq, Repr

/-- A DPLL's word in a WORDS message with its acting boundary (R472), as device time in ticks. -/
structure WordMsg where
  acts : Int
  word : Int
  deriving DecidableEq, Repr

/-- A WORDS message's sequence number, and the word of DP1 (R465, R472). -/
structure WordsMsg where
  q : BitVec 8
  word : Option WordMsg
  deriving DecidableEq, Repr

/-- A SNAP message (R443, R465): its sequence number, T in ticks. -/
structure SnapMsg where
  q : BitVec 8
  t : Nat
  deriving DecidableEq, Repr

/-- An EVENTS message (R465, R474): its sequence number, the event bits, the words of mirrored registers by offset. -/
structure EventsMsg where
  q : BitVec 8
  bits : BitVec 64
  regs : List (Nat × Word)
  deriving DecidableEq, Repr

/-- A read of BAR2 (R287, R543, R544): its offset, its length in bytes, the bytes of it that its byte enables leave out, the byte
of it that meets an uncorrectable error, whether it meets a single-bit error, which the memory corrects. -/
structure BarRead where
  addr : Nat
  len : Nat
  skip : List Nat
  bad : Option Nat
  fixed : Bool
  deriving DecidableEq, Repr

/-- What the reads of one side of a DMA transfer bring (R287, R370): the bytes that host memory gives from the address of the
next byte rounded down to 64 on, the single-bit errors that the capture RAM corrects in them. -/
structure DmaSide where
  bytes : List Byte
  fixed : Nat
  deriving DecidableEq, Repr

/-- What a channel's reads bring before one of them fails (R380): of the source and, for COMPARE, of the destination. -/
structure DmaData where
  src : DmaSide
  dst : DmaSide
  deriving DecidableEq, Repr

/-- A drain burst (R287, R376): the channel, the single-bit errors that the capture RAM corrects in its reads. -/
structure DrainMsg where
  chan : DmaIx
  fixed : Nat
  deriving DecidableEq, Repr

/-- What the supply monitor measures of the load (R495, R517): the ASIC's power and the draw from the store, both in 10 mW. -/
structure LoadMsg where
  asic : Nat
  draw : Nat
  deriving DecidableEq, Repr

/-- The four separately committed divide values of an FOD (R127). -/
inductive DivField where
  | n | f | m | o
  deriving DecidableEq, Repr

/-- A hop entry as the window writes it (R159, R160): the phase is a signed count of ticks. -/
structure HopFields where
  valid : Bool
  coherent : Bool
  n : Nat
  f : Nat
  m : Nat
  o : Nat
  phase : Int
  deriving DecidableEq, Repr

/-- The level and event monitors of a reference (R190). -/
inductive Monitor where
  | los | freq | pjump | width | tod
  deriving DecidableEq, Repr

/-- The fields of an EVENT message (R222). -/
structure EventMsg where
  pil : Fin 8
  tx : Bool
  cls : Fin 8
  tapf : Bool
  tag : BitVec 16
  gen : Bool
  reserve : Bool
  recirc : Bool
  last : Bool
  cal : Bool
  count : BitVec 32
  bitofs : Nat
  picode : Nat
  deriving DecidableEq, Repr

/-- The fields of a TAP message (R225): frame length and the LEN bytes of the frame. -/
structure TapMsg where
  pil : Fin 8
  tag : BitVec 16
  gen : Bool
  flen : Nat
  bytes : List Byte
  deriving DecidableEq, Repr

/-- The fields of a BEACON message (R226). -/
structure BeaconMsg where
  pil : Fin 8
  link : Bool
  pivalid : Bool
  count : BitVec 32
  picode : Nat
  rot : BitVec 16
  deriving DecidableEq, Repr

/-- An IRIG-B time code with the control functions of IEEE C37.118.1 (R528, R529): BCD time of the on-time
marker, local offset in seconds, leap bits, parity check. -/
structure IrigFrame where
  second : Nat
  minute : Nat
  hour : Nat
  day : Nat
  year : Nat
  offset : Int
  lsp : Bool
  ls : Bool
  parOk : Bool
  hasCtl : Bool
  deriving DecidableEq, Repr

/-- What the controller of a running command reports when it ends (R346): the outcome of the operation's
physical part, with the value that RESULT holds where the module itself does not form it. -/
inductive OpOutcome where
  | ok (result : Nat)
  | failed (result : Nat)
  deriving DecidableEq, Repr

/-- The kinds of internal calibration results (R390). -/
inductive CalUnit where
  | scBand (n : ScIx) (found : Bool) (lo hi band : Nat)
  | tdc (g : Fin 16) (ofs : Int) (gain : Nat)
  | dtc (f : FodIx) (twinB : Bool) (breaks : List Int)
  deriving DecidableEq, Repr

/-- The STATUS message of the mate (R465, R477), its sequence number first. -/
structure StatusMsg where
  q : BitVec 8
  node : Nat
  active : Bool
  ready : Bool
  nrWhy : Nat
  sealCur : Word
  sealHold : Bool
  ownMap : List Word
  ckptSeq : Nat
  deriving DecidableEq, Repr

/-- A mirrored Lath anchor of a checkpoint (R476): FOD, cycle number and device time in ticks. -/
structure CkptAnchor where
  fod : FodIx
  cycle : Int
  time : Int
  deriving DecidableEq, Repr

/-- A checkpoint (R465, R476): the message's sequence number, its content as the standby receives it. -/
structure CkptMsg where
  q : BitVec 8
  seqNo : Nat
  time : Nat
  sealCur : Word
  screedSamples : List (Nat × Int × Int × Nat)
  screedCoef : List Int
  screedAnchor : Int
  integrators : List Int
  hops : List (FodIx × List HopFields)
  anchors : List CkptAnchor
  mailbox : List (Nat × Byte)
  regs : List (Nat × Word)
  deriving DecidableEq, Repr

/-- An item of a FWD message (R473): a register write, or a submitted command of four words. -/
inductive FwdItem where
  | write (addr : Nat) (v : Word)
  | command (w0 w1 w2 w3 : Word)
  deriving DecidableEq, Repr

/-- A FWD message (R465, R473). -/
structure FwdMsg where
  q : BitVec 8
  item : FwdItem
  deriving DecidableEq, Repr

/-- A piece of a MATE_SYNC image (R485). -/
inductive ImageItem where
  | reg (off : Nat) (v : Word)
  | hop (f : FodIx) (entries : List HopFields)
  | memory (addr : Nat) (b : Byte)
  | screed (samples : List (Nat × Int × Int × Nat)) (coef : List Int) (tref : Int) (anchor : Int)
  | integrator (d : DpIx) (v : Int)
  | anchor (a : CkptAnchor)
  deriving DecidableEq, Repr

/-- An IMAGE message (R465, R485). -/
structure ImageMsg where
  q : BitVec 8
  item : ImageItem
  deriving DecidableEq, Repr

/-- A LEDGER message (R236, R465, R483): its sequence number; the pieces of a Lath change record, or, where `step` is given, a
witness anchor with its cycle, its time and that step. -/
structure LedgerRec where
  q : BitVec 8
  step : Option Rat
  kind : Nat
  info : Nat
  cycle : Int
  time : Rat
  period : Rat
  slope : Rat
  deriving DecidableEq, Repr

/-- The commands of the block, in the order of spec/opcode_table.json. -/
inductive Instr where
  -- Talking to the registers (R34 to R64)
  | registerWrite (m : Master) (addr : Nat) (width : Nat) (v : Nat) (k : WriteAt)
  | shadowLatchRead (m : Master) (addr : Nat) (width : Nat) (k : CycIx)
  | timeRead (m : Master) (k : CycIx)
  | postedWriteLand (b : PostLand)
  | lockWrite (m : Master) (bits : Word)
  | sealHold (m : Master)
  | holdExpired
  | msBoundary
  | sealPassEnd
  | sealCommit (m : Master) (irq : Bool)
  -- The time scale (R65 to R92)
  | aonBoundary (n : Nat) (slip : Bool)
  | timeSet (m : Master)
  | timeStep (m : Master)
  | timeSlew (m : Master)
  | timeSlewStop (m : Master)
  | timeEnq (m : Master)
  | queuedStep
  | queuedSlew
  | queuedRate
  | queuedSlewStop
  | slewEnd
  | leapArm (v : Fin 4)
  | leapApply
  | ppsEvent
  | ppsPulseEnd (n : Fin 8)
  -- Synthesis cores (R93 to R124)
  | retune (m : Master) (sc : ScIx) (slot : Fin 4) (comp : Bool) (k : CycIx)
  | bandcal (m : Master) (sc : ScIx)
  | queuedRetune (sc : ScIx)
  | scRampEnd (sc : ScIx) (k : CycIx)
  | bandCalDone (sc : ScIx) (found : Bool) (lo hi band : Nat)
  | lockFastSet (sc : ScIx)
  | lockFastClear (sc : ScIx)
  | lockSetRise (sc : ScIx) (k : CycIx)
  | lossOfLock (sc : ScIx)
  | lockDeadlineMiss (sc : ScIx)
  | trailEntry (sc : ScIx)
  | rehomeSwitch (sc : ScIx) (k : CycIx)
  -- Output dividers and phase (R125 to R158)
  | fodDivCommit (m : Master) (fod : FodIx) (fld : DivField) (v : Nat) (k : CycIx)
  | fodInselWrite (m : Master) (fod : FodIx) (sc : ScIx) (comp : Bool) (k : CycIx)
  | pstep (m : Master) (fod : FodIx) (k : CycIx)
  | pslew (m : Master) (fod : FodIx) (k : CycIx)
  | pstop (m : Master) (fod : FodIx) (k : CycIx)
  | fodSlewEnd (fod : FodIx)
  | witnessVisit (fod : FodIx) (selfOk : Bool) (err : Rat)
  | fodStart (fod : FodIx) (k : CycIx)
  | fodGroupWake (g : Fin 16)
  | outputDriverStart (fod : FodIx)
  | outputDisable (fod : FodIx)
  | queuedHop (fod : FodIx)
  | queuedPhaseMove (fod : FodIx)
  | queuedOen (fod : FodIx)
  -- Hopping (R159 to R185)
  | hopEntryCommit (m : Master) (fod : FodIx) (entry : Fin 16) (e : HopFields)
  | hopGo (m : Master) (fod : FodIx) (entry : Fin 16) (k : CycIx)
  | hopReloadDone (fod : FodIx) (k : CycIx)
  | hopRateRelease (fod : FodIx) (k : CycIx)
  -- References, DPLLs and holdover (R186 to R218)
  | refTimeEvent (i : RefIx) (tEdge : Int) (label : Option Nat) (width : Nat)
  | refFreqSample (i : RefIx) (phase : Int)
  | zdaSentence (i : Fin 4) (bytes : List Byte)
  | binaryTodFrame (i : Fin 4) (bytes : List Byte)
  | irigInFrame (i : Fin 2) (f : IrigFrame)
  | swrefSample (m : Master) (i : Fin 4) (tm : BitVec 64) (theta : Int) (k : CycIx)
  | refLos (i : RefIx)
  | refFreqGate (i : RefIx) (offset : Int)
  | refQualTimer (i : RefIx)
  | refDisqTimer (i : RefIx) (mon : Monitor)
  | requal (m : Master) (i : RefIx)
  | qnow (m : Master) (i : RefIx)
  | wtrExpiry (d : DpIx)
  | resel (m : Master) (d : DpIx)
  | clrhist (m : Master) (d : DpIx)
  | screedSample (theta : Int)
  | screedTeUpdate (theta : Int)
  | screedClear (m : Master)
  -- Port timestamping and corrections (R219 to R261, R547)
  | event (lane : LaneIx) (e : EventMsg) (k : CycIx)
  | tap (lane : LaneIx) (t : TapMsg) (k : CycIx)
  | beacon (lane : LaneIx) (b : BeaconMsg) (k : CycIx)
  | abort (lane : LaneIx) (pil : Fin 8) (tag : BitVec 16) (gen : Bool) (k : CycIx)
  | creditSyncEcho (lane : LaneIx) (n : BitVec 8) (fg : Nat) (fr : Nat)
  | badBlock (lane : LaneIx)
  | creditSyncMarker (lane : LaneIx)
  | creditAuditTimeout (lane : LaneIx)
  | slotFree (lane : LaneIx) (tag : BitVec 16) (gen : Bool)
  | creditLinkUp (lane : LaneIx)
  | laneDown (lane : LaneIx) (cl : Bool)
  | correction (lane : LaneIx) (tag : BitVec 16) (gen : Bool) (latency : Nat)
  | pairWaitExpiry (lane : LaneIx) (tag : BitVec 16) (gen : Bool)
  | ingressAgeRetire (tag : BitVec 16) (gen : Bool) (k : CycIx)
  | prevNumberingExpiry (fod : FodIx)
  | resync (m : Master) (port : PortIx) (k : CycIx)
  | portFodWrite (m : Master) (port : PortIx) (fod : FodIx) (k : CycIx)
  | calStopTimeout (port : PortIx) (k : CycIx)
  -- Classification and capture (R262 to R291)
  | ecamLookup (lane : LaneIx) (tag : BitVec 16) (gen : Bool) (k : CycIx)
  | ecamEntryWrite (m : Master) (e : Fin 512) (word : Fin 22) (v : Word)
  | genSwitch (m : Master)
  | drainComplete
  | ringCfgWrite (m : Master) (ring : RingIx) (v : Word)
  | flush (m : Master) (ring : RingIx)
  | ringRdWrite (m : Master) (ring : RingIx) (v : Word)
  | tokenRefill (ring : RingIx)
  | eccUncorr (slot : Fin 65536)
  | parity (e : Fin 512)
  | ecamSigUpdate
  -- Oarva instructions (R321 to R340): the core that issues the instruction at its PC
  | addi (core : CoreIx)
  | add (core : CoreIx)
  | addc (core : CoreIx)
  | sub (core : CoreIx)
  | subc (core : CoreIx)
  | and (core : CoreIx)
  | or (core : CoreIx)
  | xor (core : CoreIx)
  | andn (core : CoreIx)
  | shl (core : CoreIx)
  | shr (core : CoreIx)
  | sar (core : CoreIx)
  | mul (core : CoreIx)
  | mulhu (core : CoreIx)
  | mulhs (core : CoreIx)
  | cmp (core : CoreIx)
  | tst (core : CoreIx)
  | cmpi (core : CoreIx)
  | andi (core : CoreIx)
  | ori (core : CoreIx)
  | xori (core : CoreIx)
  | lui (core : CoreIx)
  | shli (core : CoreIx)
  | shri (core : CoreIx)
  | sari (core : CoreIx)
  | ldw (core : CoreIx) (ecc : Bool)
  | ldh (core : CoreIx) (ecc : Bool)
  | ldhu (core : CoreIx) (ecc : Bool)
  | ldb (core : CoreIx) (ecc : Bool)
  | ldbu (core : CoreIx) (ecc : Bool)
  | stw (core : CoreIx)
  | sth (core : CoreIx)
  | stb (core : CoreIx)
  | bcc (core : CoreIx)
  | bl (core : CoreIx)
  | jr (core : CoreIx)
  | jalr (core : CoreIx)
  | rdreg (core : CoreIx) (k : CycIx)
  | wrreg (core : CoreIx) (k : CycIx)
  | hopAt (core : CoreIx) (k : CycIx)
  | phsAt (core : CoreIx) (k : CycIx)
  | ratAt (core : CoreIx) (k : CycIx)
  | oenAt (core : CoreIx) (k : CycIx)
  | gangAt (core : CoreIx) (k : CycIx)
  | snapAt (core : CoreIx) (k : CycIx)
  | tnow (core : CoreIx) (k : CycIx)
  | waitT (core : CoreIx) (k : CycIx)
  | waitTResume (core : CoreIx) (k : CycIx)
  | waitE (core : CoreIx)
  | waitEResume (core : CoreIx)
  | post (core : CoreIx) (k : CycIx)
  | sig (core : CoreIx)
  | nop (core : CoreIx) (ecc : Bool)
  | halt (core : CoreIx)
  | trap (core : CoreIx)
  | fence (core : CoreIx)
  | coreid (core : CoreIx)
  | readTimeout (core : CoreIx)
  | breakpointHit (core : CoreIx)
  | seqStart (m : Master) (core : CoreIx)
  | seqHalt (m : Master) (core : CoreIx)
  | seqResume (m : Master) (core : CoreIx)
  | seqStep (m : Master) (core : CoreIx)
  | seqVerify (m : Master) (core : CoreIx)
  | imageVerifyDone (core : CoreIx)
  | seqDoorbell (m : Master) (core : CoreIx)
  | seqExcClr (m : Master) (core : CoreIx)
  -- Long operations and handles (R341 to R355)
  | nvsStore (m : Master) (region : Nat) (core : CoreIx) (irq : Bool)
  | nvsLoad (m : Master) (region : Nat) (core : CoreIx) (irq : Bool)
  | configStore (m : Master) (irq : Bool)
  | calRun (m : Master) (blocks : Nat) (irq : Bool)
  | portCal (m : Master) (port : PortIx) (irq : Bool)
  | refQualify (m : Master) (index : Nat) (requal : Bool) (limit : Nat) (irq : Bool)
  | scRetune (m : Master) (sc : ScIx) (slot : Fin 4) (due : BitVec 64) (irq : Bool)
  | phaseWalk (m : Master) (gang : Fin 16) (amount : Int) (delay : Word) (irq : Bool)
  | selftest (m : Master) (scope : Nat) (irq : Bool)
  | mateSync (m : Master) (irq : Bool)
  | screedSave (m : Master) (irq : Bool)
  | commandStart (slot : Fin 64) (k : CycIx)
  | commandComplete (slot : Fin 64) (r : OpOutcome) (k : CycIx)
  | commandTimeout (slot : Fin 64) (k : CycIx)
  -- DMA engine (R356 to R385)
  | dmaEnable (m : Master) (c : DmaIx) (v : Word)
  | dmaPause (m : Master) (c : DmaIx)
  | dmaPaused (c : DmaIx)
  | dmaDoorbell (m : Master) (c : DmaIx)
  | dmaResume (m : Master) (c : DmaIx)
  | dmaAbort (m : Master) (c : DmaIx)
  | descFetch (c : DmaIx) (bytes : List Byte)
  | descWriteBack (c : DmaIx) (src : DmaSide) (dst : DmaSide)
  | drainBurst (b : DrainMsg)
  | drainFlushTimer (c : DmaIx)
  | dmaPromotion (c : DmaIx)
  | dmaBusError (c : DmaIx) (addr : BitVec 64) (loc : Fin 4) (fetch : Bool) (data : DmaData)
  | dmaHrdWrite (m : Master) (c : DmaIx) (v : Word)
  -- Start, calibration and the non-volatile store (R386 to R414, R507)
  | aonReady
  | nvsLoadComplete
  | powerupCalStart
  | calApply (results : List CalUnit) (k : CycIx)
  | portCalDefer (port : PortIx)
  | skimMeasure (fod : FodIx) (breaks : List Int)
  | skimNaturalSwap (fod : FodIx)
  | softAge (fod : FodIx)
  | skimForcedSwap (fod : FodIx)
  -- Faults and reactions (R415 to R440, R546)
  | faultIntake
  | faultInject (m : Master) (src : SrcIx) (kind : Fin 64) (addr : BitVec 24)
  | unfenceRequest (m : Master) (src : SrcIx)
  | fenceClear (src : SrcIx)
  | pendClear (m : Master) (src : SrcIx)
  | firstErrorRearm (m : Master)
  | shadowWindowExpiry (src : SrcIx)
  | sevParityCheck (err : Option (Fin 4))
  -- Snapshots (R441 to R452)
  | snapNow (m : Master) (k : CycIx)
  | snapEnq (m : Master) (k : CycIx)
  | queuedSnap (k : CycIx)
  | snapInEdge (t : Int) (k : CycIx)
  | snapComplete (offsets : List (Nat × Nat))
  | snapHold (m : Master)
  -- The mirrored pair (R458 to R491)
  | mateLineChange (alive : Bool) (level : Bool)
  | claim
  | mateLaneUp (l : Fin 2)
  | mateLaneDown (l : Fin 2)
  | twtReqSend (l : Fin 2) (k : CycIx)
  | twtReq (l : Fin 2) (t1 t2 t3 : Int)
  | twtResp (l : Fin 2) (t1 t2 t3 t4 : Int)
  | ckpt (c : CkptMsg)
  | ckptMiss
  | statusSend
  | status (st : StatusMsg)
  | handover
  | events (e : EventsMsg)
  | fwd (i : FwdMsg)
  | words (d1 : WordsMsg) (d2 d3 : Option WordMsg)
  | ledger (fod : FodIx) (r : LedgerRec)
  | snap (t : SnapMsg) (id : BitVec 16) (k : CycIx)
  | image (i : ImageMsg) (last : Bool)
  | mateSyncApply
  | yield (m : Master)
  | ownRefresh (g : Fin 16)
  -- Power, supply and start-up (R492 to R518)
  | por
  | mrstNAssert
  | mrstNRelease
  | softReset (m : Master)
  | watchdogKick (m : Master)
  | watchdogExpiry (kick : Bool)
  | parkRelease (m : Master)
  | coreWake
  | coreSleep
  | supplyMeasure (dc : Bool) (value freq store load : Nat) (asic : LoadMsg) (k : CycIx)
  | zeroCrossing (t : Int)
  | rideExit
  | supplySummary (mean : Nat)
  | storeFull
  | chargeSlow
  | rideYield
  | rideStores (low : Bool)
  | orderedShutdown
  | ocxoReady
  | notWarm
  | ovenFail
  | baseLol
  | converter
  | thermalAlarm (asic iface : Int)
  | driver (fod : FodIx)
  -- External interfaces (R519 to R545)
  | ident
  | smbStatus
  | supply
  | temps
  | faults
  | fences
  | alertClr
  | alertResponse
  | perst
  | pcieLinkDown
  | bar2Write (m : Master) (addr : Nat) (bytes : List (Option Byte))
  | semaphoreRead (m : Master) (r : BarRead)
  | inputInRange (dc : Bool)
  | supplyCollapse
  | blockLock (lane : LaneIx) (cl : Bool)
  | mateStatusStale
  | pcieLinkUp
  | configurationRequest
  | uncorr
  deriving DecidableEq, Repr

end Sys2Proof
end

