-- ==== Sys2Proof/Config.lean ====
section
/-!
DEFINITION. The free values: what the spec leaves open and the module produces. They have no body, so nothing can
be proved of a value of them.
-/
namespace Sys2Proof

/-- The rounding of a computed word or coefficient to its unit of 2^-48, which the spec does not state (R196, R205, R208,
R209). -/
opaque Config.roundWord : Rat → Int

/-- Whether a Screed fit that is not singular counts as ill-conditioned (R208): the threshold is not in the spec.
Applied to the counter `State.free`. -/
opaque Config.screedIll : Nat → Bool

/-- Three times the standard deviations of the anchored C0, of C1 per second squared, and of C2 (R210) where no fit has given
a covariance, each applied to the counter `State.free`. -/
opaque Config.screedSigma : Nat → Rat

/-- Which of several reasons that hold together a correction carries, where the spec gives no order (R251). Applied to
the counter `State.free`; taken modulo the number of reasons that hold. -/
opaque Config.reasonPick : Nat → Nat

/-- The tag base that a CAL_REQ carries (R245): the module's own choice. Applied to the counter `State.free`. -/
opaque Config.calTagBase : Nat → Nat

/-- The seconds left to the shutdown at a draw of 0, from the store voltage in mV (R495): the quotient that the spec computes
does not exist there. -/
opaque Config.rideEst : Nat → Nat

/-- The 23-bit pseudo-random sequence of the ΔΣ dither, by its place (R96): its generator is not in the spec. -/
opaque Config.ditherBit : Nat → Bool

/-- Sequencer cycles of stalls and waits that an issue counts in SEQ_RUN_CNT beside its cycles of the instruction table
(R306). Applied to the counter `State.free`. -/
opaque Config.seqStall : Nat → Nat

/-- The word that holdover would apply to DP0 where the history does not reach back over the holdover average, by the AON
boundary (R205 states only the mean). -/
opaque Config.holdoverShort : Nat → Int

/-- A byte of the store that the spec does not state, by its offset and a number that changes with each write of it: of SCREED's
payload, whose placing R406 leaves open, and of what a store wrote whose read-back differed (R403). -/
opaque Config.nvsByte : Nat → Nat → BitVec 8

/-- Whether a byte of the store, by its offset and a number that changes with each choice, is the new one already, while a store
writes it or after one that was cut short (R403, R543). -/
opaque Config.nvsNew : Nat → Nat → Bool

/-- The bytes of a SCREED payload beside its samples (R406 gives no figure); taken modulo the room that R399 leaves. -/
opaque Config.screedHead : Nat

/-- The second of the newest sample of Screed that a load brings, which R406 does not store. Applied to `State.free`. -/
opaque Config.screedTime : Nat → Int

/-- FACTORY's SEQ (0) and WRITES (1), written at manufacture (R400, R401). -/
opaque Config.factoryHead : Nat → BitVec 32

/-- FACTORY's offset in ticks and gain in 2^-24 of witness TDC g (R400, R410): measured at manufacture. -/
opaque Config.factoryTdc : Nat → Int × Nat

/-- FACTORY's lowest and highest Q × 256 of band b of SC n, by 64 × n + b (R400, R410). -/
opaque Config.factoryBand : Nat → Nat × Nat

/-- FACTORY's delay in 1/64 ps at breakpoint i of twin w of FOD f, by 2 × f + w and i (R400, R410). -/
opaque Config.factoryBreak : Nat → Nat → Int

/-- Whether a write of the SMBus manager carries a right PEC, which no row says (R533). Applied to `State.free`. -/
opaque Config.smbPecOk : Nat → Bool

/-- The AON periods from the OCXO's power-up, as the store reaches 8 V, to AON ready, at most 2 s (R496, R507); taken modulo that
bound. Applied to `State.free`. -/
opaque Config.ocxoLead : Nat → Nat

/-- The AON periods from CAL_RUN's start to its DTC step where it runs the VCO or the witness step before it, within the limit that
R386 gives those steps; taken modulo that bound. Applied to `State.free`. -/
opaque Config.dtcAfter : Nat → Nat

/-- Whether the clock that a live mate gave a port had stopped for 200 ns or more before this module took the port (R483): no
message carries it. Applied to `State.free`. -/
opaque Config.mateStopped : Nat → Bool

/-- TQ of an IRIG-B frame while DP0 is FROZEN (R528 states it for the other states). Applied to the counter `State.free`;
taken modulo 16. -/
opaque Config.irigTq : Nat → Nat

end Sys2Proof
end

