-- ==== Sys2Proof/Machine/Bits.lean ====
section
/-!
DEFINITION. Bit fields, two's complement, floors, byte order, CRC-32C, and the sparse maps in which State holds
its sparse data (canonical form: keys strictly rising, no entry equal to what an unlisted key reads as).
-/
namespace Sys2Proof.Machine

open Sys2Proof

/-- Bits [lo + n - 1 : lo] of v (R7). -/
def bits (v lo n : Nat) : Nat := (v >>> lo) % 2 ^ n

/-- Bit n of v (R7). -/
def bitN (v n : Nat) : Bool := v.testBit n

/-- The number of a Bool. -/
def b2n (b : Bool) : Nat := if b then 1 else 0

/-- The word with value v. -/
def wd (v : Nat) : Word := BitVec.ofNat 32 v

/-- The signed value of the n-bit number v (R13). -/
def sx (n v : Nat) : Int := if v % 2 ^ n < 2 ^ (n - 1) then ↑(v % 2 ^ n) else ↑(v % 2 ^ n) - 2 ^ n

/-- The n-bit two's complement of i (R13). -/
def tw (n : Nat) (i : Int) : Nat := (i % 2 ^ n).toNat

/-- Low n bits set. -/
def ones (n : Nat) : Nat := 2 ^ n - 1

/-- v with the n bits at lo replaced by x. -/
def setBits (v lo n x : Nat) : Nat := (v - bits v lo n <<< lo) + (x % 2 ^ n) <<< lo

/-- Bits of a and not of m. -/
def clr (a m : Nat) : Nat := a - (a &&& m)

/-- Truncation: toward minus infinity (R13). -/
def rfloor (q : Rat) : Int := q.floor

/-- Toward plus infinity. -/
def rceil (q : Rat) : Int := -(-q).floor

/-- To the nearest integer, halves upward. -/
def rround (q : Rat) : Int := (q + 1 / 2).floor

/-- The integer square root of n by Newton's iteration from above, at most `fuel` steps. -/
def isqrtFrom : Nat → Nat → Nat → Nat
  | 0, _, x => x
  | fuel + 1, n, x => let y := (x + n / x) / 2; if x ≤ y then x else isqrtFrom fuel n y

/-- The integer square root. -/
def isqrt (n : Nat) : Nat := if n = 0 then 0 else isqrtFrom 600 n (2 ^ (Nat.log2 n / 2 + 1))

/-- The square root of a rational, truncated to a multiple of 2^-96. -/
def rsqrt (q : Rat) : Rat := (isqrt (q * 2 ^ 192).floor.toNat : Rat) / 2 ^ 96

/-- The circle's ratio to 40 places. -/
def piR : Rat := (31415926535897932384626433832795028841971 : Rat) / 10 ^ 40

/-- The Int in a range: clamp to [lo, hi]. -/
def clampI (lo hi x : Int) : Int := if x < lo then lo else if hi < x then hi else x

/-- Whether an Int fits n signed bits. -/
def fitsS (n : Nat) (i : Int) : Bool := decide (-(2 ^ (n - 1) : Int) ≤ i ∧ i < 2 ^ (n - 1))

/-- A value in 16-bit pieces, one in the low half of each 32-bit word (R40). -/
def spread : Nat → Nat → Nat
  | 0, _ => 0
  | k + 1, v => v % 65536 + spread k (v / 65536) * 2 ^ 32

/-- The value whose 16-bit pieces stand in the low halves of k words (R40). -/
def gather : Nat → Nat → Nat
  | 0, _ => 0
  | k + 1, v => v % 65536 + gather k (v / 2 ^ 32) * 65536

/-- The n bytes of v, lowest first (R8). -/
def leBytes : Nat → Nat → List Byte
  | 0, _ => []
  | n + 1, v => BitVec.ofNat 8 v :: leBytes n (v / 256)

/-- The number whose bytes are given, lowest first (R8). -/
def leNat : List Byte → Nat
  | [] => 0
  | b :: t => b.toNat + 256 * leNat t

/-- The number whose bytes are given, highest first. -/
def beNat (l : List Byte) : Nat := leNat l.reverse

/-- One bit of the reflected CRC-32C (R58). -/
def crcBit (c : Nat) : Nat := if c % 2 = 1 then (c / 2) ^^^ 0x82F63B78 else c / 2

/-- One byte of CRC-32C (R58). -/
def crcByte (c : Nat) (b : Byte) : Nat :=
  crcBit (crcBit (crcBit (crcBit (crcBit (crcBit (crcBit (crcBit (c ^^^ b.toNat))))))))

/-- CRC-32C of R58 (reflected, polynomial 0x1EDC_6F41) from a running value. -/
def crcRun (c : Nat) (l : List Byte) : Nat := l.foldl crcByte c

/-- CRC-32C of R58: initial value and final XOR 0xFFFF_FFFF. -/
def crc32c (l : List Byte) : Nat := crcRun 0xFFFFFFFF l ^^^ 0xFFFFFFFF

/-- Read of a sparse map with default d. -/
def mget {α : Type} (d : Nat → α) : List (Nat × α) → Nat → α
  | [], k => d k
  | (a, x) :: t, k => if a = k then x else mget d t k

/-- A sparse map without the key k. -/
def mdel {α : Type} : List (Nat × α) → Nat → List (Nat × α)
  | [], _ => []
  | (a, x) :: t, k => if a = k then mdel t k else (a, x) :: mdel t k

/-- Insertion at the key's place in rising order. -/
def mins {α : Type} : List (Nat × α) → Nat → α → List (Nat × α)
  | [], k, v => [(k, v)]
  | (a, x) :: t, k, v => if k < a then (k, v) :: (a, x) :: t else (a, x) :: mins t k v

/-- Write of a sparse map with default d: an entry equal to the default is not listed. -/
def mput {α : Type} [DecidableEq α] (d : Nat → α) (m : List (Nat × α)) (k : Nat) (v : α) : List (Nat × α) :=
  if v = d k then mdel m k else mins (mdel m k) k v

/-- The canonical form: keys strictly rising, no entry equal to the default. -/
def mwf {α : Type} [DecidableEq α] (d : Nat → α) : List (Nat × α) → Bool
  | [] => true
  | (a, x) :: t => decide (x ≠ d a) && t.all (fun p => decide (a < p.1)) && mwf d t

/-- The list with its n-th element replaced. -/
def lset {α : Type} : List α → Nat → α → List α
  | [], _, _ => []
  | _ :: t, 0, v => v :: t
  | x :: t, n + 1, v => x :: lset t n v

end Sys2Proof.Machine
end

