-- ==== Sys2Proof/Machine/RegMap.lean ====
section
/-!
DEFINITION. The address map (R538 to R541) and, for every register, what its table says: form, width, the masks of
its RW, W1C and SC fields, its seal, persistence, lock and hardware-override marks (R18 to R21, R545), and its
Reset value, or its factory value where the table's Reset is "NV" (R20).
-/
namespace Sys2Proof.Machine

open Sys2Proof

/-- A register of a block's table; masks and the reset value join the words of a multi-word value, 32 bits each. -/
structure RegRow where
  off : Nat
  words : Nat := 1
  rep : Nat := 1
  step : Nat := 0
  wm : Bool := false
  posted : Bool := false
  cnt : Bool := false
  rw : Nat := 0
  w1c : Nat := 0
  sc : Nat := 0
  slm : Nat := 0
  nv : Nat := 0
  hwr : Nat := 0
  lk : Nat := 0
  lkBit : Nat := 0
  reset : Nat := 0
  deriving DecidableEq, Repr

/-- The blocks of R538. -/
inductive Blk where
  | glb | cmd | time | fcol | snap | scrim | nvs | pwr | mate | sc | dp | screed | ref | refMap | fod | fodWide
  | port | corr | el | cl | lath | ecam | ecamEnt | ring | ringWide | dma | dmaWide | seq
  deriving DecidableEq, Repr

/-- A register of 32-bit form whose RW bits are rw. -/
def rF (off rw : Nat) (reset : Nat := 0) : RegRow := { off := off, rw := rw, reset := reset }

/-- A multi-word register of 32-bit form. -/
def rFn (off words rw : Nat) (reset : Nat := 0) : RegRow := { off := off, words := words, rw := rw, reset := reset }

/-- A WM value of `width` bits (R39, R40). -/
def rW (off words width : Nat) (reset : Nat := 0) : RegRow :=
  { off := off, words := words, wm := true, rw := spread words (ones width), reset := spread words reset }

/-- A read-only register in a WM block. -/
def rWro (off words : Nat) (reset : Nat := 0) : RegRow :=
  { off := off, words := words, wm := true, reset := spread words reset }

/-- A read-only register of 32-bit form. -/
def rRo (off words : Nat) (reset : Nat := 0) : RegRow := { off := off, words := words, reset := reset }

/-- A saturating diagnostic counter of 32-bit form (R453). -/
def rC (off : Nat) : RegRow := { off := off, rw := ones 32, cnt := true }

/-- A saturating diagnostic counter of two WM words (R453). -/
def rCW (off : Nat) : RegRow := { off := off, words := 2, wm := true, rw := spread 2 (ones 32), cnt := true }

/-- All RW bits sealed and persistent (S NV). -/
def RegRow.sn (r : RegRow) : RegRow := { r with slm := r.rw, nv := r.rw }

/-- All RW bits persistent, none sealed (NV). -/
def RegRow.n (r : RegRow) : RegRow := { r with nv := r.rw }

/-- All RW bits sealed, none persistent (S). -/
def RegRow.s (r : RegRow) : RegRow := { r with slm := r.rw }

/-- Posted (P). -/
def RegRow.p (r : RegRow) : RegRow := { r with posted := true }

/-- Repeated k times at a stride. -/
def RegRow.x (r : RegRow) (k step : Nat) : RegRow := { r with rep := k, step := step }

/-- "HW wins, rejected" on the bits m. -/
def RegRow.h (r : RegRow) (m : Nat) : RegRow := { r with hwr := m }

/-- The bits m are locked by bit b of GLB_LOCK (R53). -/
def RegRow.l (r : RegRow) (m b : Nat) : RegRow := { r with lk := m, lkBit := b }

/-- GLB registers (R53, R54, R412, R456, R517, R536). The serial number is 1, a value the model chose. -/
def glbRegs : List RegRow := [
  rRo 0x000 1 0x00012802, rRo 0x004 1 0x01281F6B, rRo 0x008 2 1,
  rF 0x040 0x1F, rC 0x044,
  { off := 0x050, sc := ones 32 },
  { off := 0x100, nv := ones 32 }, { off := 0x104, words := 4, nv := ones 128 },
  { off := 0x114, w1c := 0xC }, rC 0x118,
  (rF 0x120 0x00FFFF01 0x003C0A01).sn, rRo 0x124 1, rC 0x128, rC 0x12C, rF 0x130 0x7F, rRo 0x134 1, rRo 0x138 1,
  rRo 0x140 4,
  { off := 0x180, w1c := 1 }, rRo 0x184 1, rF 0x188 (ones 32),
  ((rF 0x200 0x7F07).sn.x 8 4).l 0x7F07 0,
  ((rF 0x220 0xFF1F 0x1E10).sn.x 2 4).l 0xFF1F 0,
  (rF 0x230 0x3 0x2).sn.x 2 4, (rF 0x240 0x7 0x1).sn.x 4 4, (rC 0x250).x 4 4,
  { off := 0x260, w1c := 0x3FFF }, (rF 0x270 0x3 0x2).sn ]

/-- Command registers (R354). -/
def cmdRegs : List RegRow := [
  rFn 0x000 4 (ones 128), rRo 0x010 1, rRo 0x014 1, (rF 0x018 0x3F 1).sn, rC 0x020, rC 0x024,
  (rRo 0x100 2).x 64 8 ]

/-- TIME registers (R91); every one is posted. -/
def timeRegs : List RegRow := [
  (rF 0x00 1 1).sn.p, { off := 0x04, w1c := 0x380, posted := true }, { off := 0x08, sc := 0x1F, posted := true },
  (rRo 0x10 4).p, (rRo 0x20 1).p, (rRo 0x30 2).p, (rFn 0x38 2 (ones 40)).s.p, (rFn 0x40 2 (ones 64)).p,
  (rFn 0x48 2 (ones 48)).p, (rF 0x50 0xFFFFF 42950).sn.p, (rRo 0x54 2).p, (rFn 0x60 4 (ones 128)).p,
  (rF 0x70 0xFFFF 37).n.p, (rF 0x74 0x3).p, (rFn 0x78 2 (ones 48)).p, (rFn 0x80 2 (ones 64)).p,
  (rFn 0x88 2 (ones 64)).p, (rF 0x90 0xF).p, { off := 0x94, w1c := 0x700, posted := true }, (rRo 0x98 1).p,
  (rC 0x9C).p, (rF 0xA0 0x8007FFFF 0x800186A0).sn.p, (rC 0xA4).p, (rRo 0xB0 3).p, (rC 0xBC).p,
  (rF 0xC0 (ones 32)).sn.p.x 8 4 ]

/-- FCOL registers (R437); every one is posted. -/
def fcolRegs : List RegRow := [
  (rF 0x00 0xFFFF3F77 0x000A0021).sn.p, { off := 0x04, w1c := 0x1F00, posted := true },
  { off := 0x08, rw := 0x3FFF, sc := 0x80000000, posted := true }, (rF 0x0C 0xFFFFFF).p,
  { off := 0x10, w1c := 0x80000000, posted := true }, (rRo 0x14 1).p, (rRo 0x18 4).p, (rC 0x28).p, (rC 0x30).p,
  (rC 0x34).p, (rC 0x38).p, (rRo 0x3C 1).p,
  { off := 0x40, w1c := ones 32, posted := true, rep := 8, step := 4 }, (rRo 0x60 1).p.x 8 4,
  (rF 0x80 (ones 32)).p.x 8 4, (rRo 0xA0 1).p.x 8 4,
  ((rF 0x1000 (ones 32)).sn.p.x 2040 4).l (ones 32) 3, (rRo 0x2FE0 1 0x44444444).p.x 8 4,
  (rRo 0x3000 1).p.x 256 4, (rC 0x4000).p.x 256 4 ]

/-- SNAP registers (R455). -/
def snapRegs : List RegRow := [
  { off := 0x00, rw := 0xFF103F3F, slm := 0xFF003F3F, nv := 0xFF003F3F, reset := 0x01000218 },
  { off := 0x04, w1c := 0x3F000000 }, { off := 0x08, sc := 3 }, rFn 0x10 2 (ones 64), rRo 0x20 4, rRo 0x30 1,
  rRo 0x34 1, (rF 0x38 (ones 32)).sn, rC 0x40, rC 0x44, rC 0x48,
  (rRo 0x100 1).x 26 8, (rRo 0x104 1).x 26 8,
  (rRo 0x200 2).x 128 0x20, (rRo 0x208 4).x 128 0x20, (rRo 0x218 1).x 128 0x20, (rRo 0x21C 1).x 128 0x20,
  (rRo 0x1200 2).x 8 0x10, (rRo 0x1208 1).x 8 0x10,
  (rRo 0x1300 2).x 4 0x20, (rRo 0x1308 2).x 4 0x20, (rRo 0x1310 1).x 4 0x20,
  (rRo 0x1400 1).x 8 4, (rRo 0x1420 1).x 8 4, rRo 0x1440 1 ]

/-- SEAL registers (R62 tables). SEAL_REF has no factory number in the spec: zero. -/
def sealRegs : List RegRow := [
  { off := 0x00, rw := 3, nv := 1, reset := 1 }, { off := 0x04, w1c := 0x1E },
  ((rF 0x08 (ones 32)).n).l (ones 32) 4, rRo 0x0C 1, (rF 0x10 0xFFFF 1000).n, rC 0x14, rC 0x18, rC 0x1C ]

/-- NVS registers (R413); every one is posted. -/
def nvsRegs : List RegRow := [
  ((rF 0x00 1 1).p).l 1 1, { off := 0x04, w1c := 0x38, posted := true }, (rRo 0x08 1).p, (rRo 0x0C 1 0xFFFFFFFF).p,
  (rRo 0x10 1).p.x 3 4, (rRo 0x1C 1).p, (rRo 0x20 1).p, (rC 0x24).p ]

/-- PWR registers (R517); every one is posted. -/
def pwrRegs : List RegRow := [
  (rF 0x00 0xF 0x6).sn.p, { off := 0x04, w1c := 0xF0000, posted := true, reset := 2 }, (rRo 0x08 1).p, (rRo 0x0C 1).p,
  (rRo 0x10 1).p, (rRo 0x14 1).p, (rF 0x18 0xFFFF 23000).sn.p, (rF 0x1C 0xFFFF 22000).sn.p,
  (rF 0x20 (ones 32) 0x020A6E5A).sn.p, (rF 0x24 0xFFFF 10).sn.p, (rRo 0x28 1).p, (rF 0x2C 0xFFFFFF 0x4B7869).sn.p,
  (rF 0x30 0x1FFFF 1000).sn.p, { off := 0x34, sc := ones 32, posted := true }, (rRo 0x40 1).p.x 4 4,
  (rRo 0x50 1).p, (rRo 0x54 1).p, (rC 0x60).p, (rC 0x64).p, (rC 0x68).p, (rC 0x6C).p, (rC 0x70).p ]

/-- MATE registers (R490). -/
def mateRegs : List RegRow := [
  ((rF 0x00 3 3).sn).l 3 2, { off := 0x04, w1c := 0x700 }, { off := 0x08, sc := 1 }, (rRo 0x0C 1).p,
  (rF 0x10 0xFFFF 0x0201).sn.p, ((rF 0x14 0xBFFF).sn).l 0xBFFF 2, ((rFn 0x18 2 (ones 64)).sn).l (ones 64) 2,
  (rF 0x20 (ones 32)).sn, (rF 0x24 (ones 32)).sn, (rF 0x28 (ones 32) 100000000).sn, rRo 0x30 2, rRo 0x38 2,
  rRo 0x40 1, rRo 0x44 1, rRo 0x48 1, rRo 0x4C 1, rC 0x50, rC 0x54, rC 0x58, rC 0x5C, (rRo 0x100 1).x 4 4 ]

/-- SC registers (R123). EN and the SPARE bit differ by instance, see `resetOf`. -/
def scRegs : List RegRow := [
  ((rW 0x000 1 8 0x70).sn).h 0xF, { off := 0x004, wm := true, w1c := 0x1C00 },
  { off := 0x008, wm := true, rw := 0xE, sc := 0x11 },
  { off := 0x010, words := 7, wm := true, reset := 125 + 1 * 2 ^ (32 * 4) },
  (rW 0x02C 1 11 500).sn, (rW 0x030 1 10 50).sn, (rW 0x034 1 16 1000).sn, (rW 0x038 1 8 4).sn, (rW 0x03C 1 5 12).sn,
  (({ off := 0x040, words := 7, wm := true, rw := 0x1FF + spread 3 (ones 40) * 2 ^ 32 + spread 3 (ones 40) * 2 ^ 128,
      reset := 125 + 1 * 2 ^ 128 } : RegRow).sn).x 4 0x20,
  (rW 0x0C0 3 40).s, rWro 0x0D0 3, { off := 0x0E0, wm := true, w1c := 0x700 }, rWro 0x0E4 2, rCW 0x0F0, rCW 0x0F8,
  { off := 0x100, wm := true, posted := true, rw := 0xFF7F, slm := 0xFF7F, nv := 0xFF7F, reset := 0x6800 },
  (rWro 0x104 1).p, (rWro 0x108 1).p, rWro 0x110 1 ]

/-- DPLL registers (R217). Several factory values differ for DP0, see `resetOf`. -/
def dpRegs : List RegRow := [
  { off := 0x000, wm := true, rw := 0xFF, slm := 0xFF, nv := 0xDF, hwr := 0x31, reset := 0x8E },
  { off := 0x004, wm := true, w1c := 0x300 }, { off := 0x008, wm := true, sc := 3 }, rWro 0x00C 1 0xFF,
  (rW 0x010 1 8 0xFF).sn.x 8 4, (rW 0x030 2 32 10000000).sn, (rW 0x038 2 32 100000000).sn,
  ((rW 0x040 1 8 0xFF).sn).h 0xFF, (rW 0x044 1 8 40).sn, (rW 0x048 1 16 7500).sn, (rW 0x04C 1 16 300).sn,
  (rW 0x050 1 16 10).sn, (rW 0x054 1 16 10).sn, (rW 0x058 1 16 1000).sn, (rW 0x05C 1 16 60).sn,
  (rW 0x060 1 16 1000).sn, rWro 0x064 3, ((rW 0x070 3 40).sn).h (spread 3 (ones 40)), rWro 0x07C 3, rWro 0x088 3,
  rCW 0x094, rCW 0x09C, rCW 0x0A4, rWro 0x0B0 4 ]

/-- Screed registers (R217). -/
def screedRegs : List RegRow := [
  { off := 0x00, rw := 0xFF07, sc := 0x8, slm := 0xFF07, nv := 0xFF07, reset := 0x3C07 }, { off := 0x04, w1c := 6 },
  rRo 0x08 1, rRo 0x0C 1, rRo 0x10 2, rRo 0x18 2, rRo 0x20 2, rRo 0x28 2, rRo 0x30 1, rRo 0x34 1, rRo 0x38 2,
  rRo 0x40 1, (rF 0x44 (ones 32) 1000).sn, (rF 0x48 0xFF 64).sn, rC 0x4C ]

/-- Reference registers by index (R216). Offsets from +0x100 exist for SWREF only. -/
def refRegs : List RegRow := [
  (rW 0x000 1 9 0x1E).sn, { off := 0x004, wm := true, w1c := 0x300 }, { off := 0x008, wm := true, sc := 3 },
  ({ off := 0x010, words := 4, wm := true, rw := spread 3 (ones 40) + 0xFFFF * 2 ^ 96,
     reset := spread 4 (10000000 + 1 * 2 ^ 48) } : RegRow).sn, (rW 0x020 1 16 20000).sn, (rW 0x024 1 16 1000).sn,
  (rW 0x028 1 16 250).sn, (rW 0x02C 1 16 1).sn, (rW 0x030 1 16 50000).sn, (rW 0x034 1 16 10).sn, (rW 0x038 1 16).sn,
  (rW 0x03C 1 16 1000).sn, (rW 0x040 1 16 1000).sn, (rW 0x044 1 16).sn, (rW 0x048 2 32).sn, rWro 0x050 3,
  rWro 0x05C 3, rWro 0x068 1, rCW 0x06C, rCW 0x074, rWro 0x080 3,
  { off := 0x100, words := 7, wm := true, rw := spread 7 (ones 112) }, (rW 0x11C 1 16 1000).sn, rCW 0x120 ]

/-- Reference maps (R216). -/
def refMapRegs : List RegRow := [(rRo 0x00 1).x 5 4, (rRo 0x20 1).x 5 4]

/-- FOD registers (R157, R184). -/
def fodRegs : List RegRow := [
  ((rW 0x000 1 8 0x06).sn).h 1, { off := 0x004, wm := true, w1c := 0x2600 }, { off := 0x008, wm := true, sc := 7 },
  (((rW 0x00C 1 4 2).sn).h 4).l 0xF 0, ((rW 0x010 1 4).n).h 0xF, ((rW 0x014 1 12 40).n).h 0xFFF,
  ((rW 0x018 3 40).n).h (spread 3 (ones 40)), ((rW 0x024 3 40 1).n).h (spread 3 (ones 40)),
  ((rW 0x030 2 32 1).n).h (spread 2 (ones 32)), rWro 0x040 3, rW 0x04C 3 48, (rW 0x058 1 16 2684).sn, rWro 0x05C 3,
  rWro 0x068 3, (rW 0x074 1 16).sn, { off := 0x078, wm := true, w1c := 0x700 }, rWro 0x07C 2, rCW 0x084, rCW 0x08C,
  rWro 0x094 2,
  rW 0x0A0 1 4,
  { off := 0x0A4, words := 13, wm := true, rw := 3 + 0xFFF * 2 ^ 32 + spread 3 (ones 40) * 2 ^ 64 +
      spread 3 (ones 40) * 2 ^ 160 + spread 2 (ones 32) * 2 ^ 256 + spread 3 (ones 48) * 2 ^ 320 },
  rWro 0x0D8 1,
  { off := 0x0DC, wm := true, w1c := 0x3F00 }, { off := 0x0E0, wm := true, rw := 0xF0, sc := 1 }, rCW 0x0E4,
  rWro 0x0EC 4 ]

/-- Block-wide FOD registers (R157). -/
def fodWideRegs : List RegRow := [
  (rF 0x00 0xFFFF).sn, rRo 0x04 1, (rF 0x08 0xFFFFF (50 + 1 * 256 + 8 * 4096)).sn, (rF 0x0C 0xFFFF 50).sn,
  (rRo 0x10 1).x 4 4, (rRo 0x20 1).x 4 4 ]

/-- Port registers (R259). -/
def portRegs : List RegRow := [
  (rW 0x000 1 4 0x9).sn, { off := 0x004, wm := true, w1c := 0x700 }, { off := 0x008, wm := true, sc := 1 },
  (rW 0x00C 1 7).sn, (rW 0x010 1 16 160).sn, (rW 0x014 1 8 1).sn, (rW 0x018 1 9 64).sn, (rW 0x01C 2 32).sn,
  (rW 0x024 2 32).sn, (rW 0x02C 1 9 128).sn, (rW 0x030 2 32).sn, (rW 0x038 2 32 0xFFFFFFFF).sn, rWro 0x040 2,
  rWro 0x048 2, rWro 0x050 2, rW 0x058 2 32, (rW 0x060 2 32).sn, rWro 0x068 3, (rW 0x074 1 16 1000).sn,
  (rW 0x078 1 16 2000).sn, rCW 0x07C, rCW 0x084, rCW 0x08C, rCW 0x094, rWro 0x0A0 6 ]

/-- Correction path registers (R259). -/
def corrRegs : List RegRow := [
  (rF 0x00 0xFFFF 2000).sn, rRo 0x04 1, rF 0x08 (ones 32), { off := 0x0C, w1c := 3 }, (rC 0x14).x 10 4 ]

/-- Event-lane registers (R259). -/
def elRegs : List RegRow := [
  (rF 0x00 0xFF01 0x0A01).sn, { off := 0x04, w1c := 8 }, rRo 0x08 1, (rC 0x0C).x 4 4 ]

/-- Correction-lane registers (R259). -/
def clRegs : List RegRow := [(rF 0x00 1 1).sn, rRo 0x04 1, (rC 0x08).x 2 4]

/-- The Lath window (R260). -/
def lathRegs : List RegRow := [
  rF 0x00 0x13F7F, rRo 0x04 1, rRo 0x10 1, rRo 0x14 2, rRo 0x1C 3, rRo 0x28 2 ]

/-- ECAM control registers (R290). -/
def ecamRegs : List RegRow := [
  (rF 0x00 1 1).sn, { off := 0x04, w1c := 0x100, sc := 4 }, rRo 0x08 1, rRo 0x0C 1,
  (rF 0x10 0x1FFF 0x17).sn, rRo 0x14 1, rRo 0x18 1, rC 0x20, rC 0x24, rC 0x28, rC 0x2C, rC 0x30, rC 0x34 ]

/-- ECAM entry registers (R290). -/
def ecamEntRegs : List RegRow := [
  rF 0x00 0x3FFFFFFF, rF 0x04 0x7FFFFFFF, rF 0x08 0xFFFF0FFF, rF 0x0C (ones 32), rF 0x10 0xFFFF3FFF, (rF 0x14 (ones 32)).x 4 4,
  rF 0x24 0xFF, rF 0x28 0x3FFFFFFF, rF 0x2C 0x7FFFFFFF, rF 0x30 0xFFFF0FFF, rF 0x34 (ones 32), rF 0x38 0xFFFF3FFF,
  (rF 0x3C (ones 32)).x 4 4, rF 0x4C 0xFF, rF 0x50 0x1FFF, { off := 0x54, rw := 3, w1c := 4 }, rC 0x58 ]

/-- Ring registers (R290). BASE and POL_EN differ by instance, see `resetOf`. -/
def ringRegs : List RegRow := [
  { off := 0x00, rw := 0xFFFF00F3, sc := 4, slm := 0xFFFF00F3, nv := 0xFFFF00F3, reset := 0xC1 },
  { off := 0x04, w1c := 0x700 }, rRo 0x08 1, rF 0x0C (ones 32), rRo 0x10 1, rRo 0x14 1, (rF 0x18 0x1FFFF 3072).sn,
  (rF 0x1C 0x1FFFF 2048).sn, (rF 0x20 (ones 32) 0x00010000).sn, (rF 0x24 0x1FFFF 64).sn, rRo 0x28 1,
  (rF 0x2C 0x1FFFF 2048).sn, (rRo 0x30 2).x 5 8, (rRo 0x60 2).x 5 8, rRo 0x88 1, rRo 0x90 1 ]

/-- Block-wide ring registers (R290). -/
def ringWideRegs : List RegRow := [
  (rF 0x00 0x3F).sn.x 16 4, (rF 0x40 0xFFFF 0xFEDC).sn, (rF 0x44 (ones 32) 0xFFFFFFFF).sn, rC 0x48, rC 0x4C ]

/-- DMA channel registers (R384). RING and VEC differ by instance, see `resetOf`. -/
def dmaRegs : List RegRow := [
  { off := 0x00, rw := 0x7FFFFF, slm := 0x7FFFBF, nv := 0x7FFFBF, hwr := 0x41, reset := 12 * 2 ^ 17 + 3 * 2 ^ 14 },
  { off := 0x04, w1c := 0xFF00 }, { off := 0x08, sc := 7 }, rFn 0x10 2 (ones 64), rF 0x18 0xFFFF, rRo 0x20 2,
  rRo 0x28 2, rRo 0x30 1, rRo 0x38 2, rRo 0x40 1, rRo 0x44 1 0xFFFFFFFF, (rF 0x50 0x1FFFF 4).sn, (rF 0x54 0x1FFFF).sn,
  (rF 0x58 0xFFFF 100).sn, (rFn 0x60 2 (ones 64)).s, (rF 0x68 0x1F).s, rRo 0x6C 1, rF 0x70 (ones 32),
  (rFn 0x78 2 (ones 64)).s, (rF 0x80 0xFFFF 10).sn, (rC 0x90).x 5 4 ]

/-- Block-wide DMA registers (R384). -/
def dmaWideRegs : List RegRow := [rRo 0x00 1, rRo 0x04 1, rC 0x08]

/-- Sequencer registers (R319). -/
def seqRegs : List RegRow := [
  (rF 0x000 0xF 0x9).sn, { off := 0x004, w1c := 0x30000 }, { off := 0x008, sc := 0x3F }, rF 0x00C 0xFFF, rF 0x010 0xF,
  rRo 0x014 1, rRo 0x018 1, rRo 0x01C 1, rRo 0x020 1, { off := 0x024, sc := 1 }, rF 0x028 0xFFF, rF 0x02C 0xFFF,
  { off := 0x030, w1c := ones 32 }, { off := 0x034, w1c := ones 32 }, rC 0x038, (rF 0x040 0x80000FFF).x 4 4, rC 0x050,
  rC 0x054, rC 0x058, (rF 0x060 (ones 32)).x 8 4, (rF 0x100 (ones 32)).x 32 4 ]

/-- A row of R538: base, stride, instances, the table. -/
structure BlkRow where
  blk : Blk
  base : Nat
  stride : Nat
  count : Nat
  rows : List RegRow

/-- The blocks of R538, the reference maps and PRF44's moved registers first (R541). -/
def blocks : List BlkRow := [
  ⟨.glb, 0x000000, 0x10000, 1, glbRegs⟩, ⟨.cmd, 0x010000, 0x10000, 1, cmdRegs⟩,
  ⟨.time, 0x020000, 0x10000, 1, timeRegs⟩, ⟨.fcol, 0x030000, 0x10000, 1, fcolRegs⟩,
  ⟨.snap, 0x040000, 0x10000, 1, snapRegs⟩, ⟨.scrim, 0x050000, 0x10000, 1, sealRegs⟩,
  ⟨.nvs, 0x060000, 0x10000, 1, nvsRegs⟩, ⟨.pwr, 0x070000, 0x10000, 1, pwrRegs⟩,
  ⟨.mate, 0x080000, 0x10000, 1, mateRegs⟩, ⟨.sc, 0x100000, 0x1000, 8, scRegs⟩,
  ⟨.dp, 0x200000, 0x1000, 4, dpRegs⟩, ⟨.screed, 0x208000, 0x1000, 1, screedRegs⟩,
  ⟨.refMap, 0x30F000, 0x40, 1, refMapRegs⟩, ⟨.ref, 0x300000, 0x400, 144, refRegs⟩,
  ⟨.fodWide, 0x408000, 0x1000, 1, fodWideRegs⟩, ⟨.fod, 0x400000, 0x100, 128, fodRegs⟩,
  ⟨.port, 0x500000, 0x100, 128, portRegs⟩, ⟨.corr, 0x508000, 0x1000, 1, corrRegs⟩,
  ⟨.el, 0x509000, 0x40, 16, elRegs⟩, ⟨.cl, 0x50A000, 0x40, 16, clRegs⟩, ⟨.lath, 0x50B000, 0x1000, 1, lathRegs⟩,
  ⟨.ecam, 0x600000, 0x10000, 1, ecamRegs⟩, ⟨.ecamEnt, 0x610000, 0x80, 512, ecamEntRegs⟩,
  ⟨.ring, 0x700000, 0x100, 16, ringRegs⟩, ⟨.ringWide, 0x708000, 0x1000, 1, ringWideRegs⟩,
  ⟨.dma, 0x800000, 0x100, 16, dmaRegs⟩, ⟨.dmaWide, 0x808000, 0x1000, 1, dmaWideRegs⟩,
  ⟨.seq, 0x900000, 0x10000, 8, seqRegs⟩ ]

/-- What the map says of a register word: its block, instance, row, which repetition and which word of the value. -/
structure RegInfo where
  blk : Blk
  inst : Nat
  row : RegRow
  rep : Nat
  word : Nat
  base : Nat
  deriving DecidableEq, Repr

/-- The repetition and the word of a row that an offset within the instance falls on. -/
def rowHit (r : RegRow) (o : Nat) : Option (Nat × Nat) :=
  if o < r.off then none
  else
    let d := o - r.off
    let k := if r.rep = 1 then 0 else d / r.step
    let w := (d - k * r.step) / 4
    if k < r.rep ∧ w < r.words then some (k, w) else none

/-- The first row of a table that an offset falls on. -/
def findRow : List RegRow → Nat → Option (RegRow × Nat × Nat)
  | [], _ => none
  | r :: t, o => match rowHit r o with
    | some (k, w) => some (r, k, w)
    | none => findRow t o

/-- The block row and instance that an offset falls in. -/
def findBlk : List BlkRow → Nat → Option (BlkRow × Nat)
  | [], _ => none
  | b :: t, o => if b.base ≤ o ∧ o < b.base + b.stride * b.count then some (b, (o - b.base) / b.stride) else findBlk t o

/-- A frequency reference (R186). -/
def isFreqRef (i : Nat) : Bool := (4 ≤ i && i < 8) || 16 ≤ i

/-- The bits of a reference's register that apply to its kind; the others are reserved (R186, R190, R216). -/
def refMask (i off : Nat) : Nat :=
  if off = 0x000 then
    0x7 + (if i < 4 then 0x8 + 0x1C0 else 0) + (if i < 4 ∨ i = 8 ∨ i = 9 then 0x10 else 0) + (if i < 8 then 0x20 else 0)
  else if off = 0x010 then (if isFreqRef i then ones 128 else 0)
  else if off = 0x02C ∨ off = 0x030 then (if i < 4 then ones 32 else 0)
  else if off = 0x03C then (if isFreqRef i ∨ 12 ≤ i then ones 32 else 0)
  else if off = 0x040 then (if i < 4 ∨ i = 8 ∨ i = 9 then ones 32 else 0)
  else if 0x100 ≤ off then (if 12 ≤ i ∧ i < 16 then ones 256 else 0)
  else ones 256

/-- A reference's row with the bits that apply to its kind. -/
def RegRow.only (r : RegRow) (m : Nat) : RegRow :=
  { r with rw := r.rw &&& m, slm := r.slm &&& m, nv := r.nv &&& m, reset := r.reset &&& m }

/-- The register word at a normal-view offset (a multiple of 4), or none where the offset is reserved (R539). PRF44's
first 0x40 bytes lie at 0x33_0000 (R541). -/
def regInfo (off : Nat) : Option RegInfo :=
  if 0x330000 ≤ off ∧ off < 0x330040 then
    match findRow refRegs (off - 0x330000) with
    | some (r, k, w) => some ⟨.ref, 60, r.only (refMask 60 r.off), k, w, off - 4 * w⟩
    | none => none
  else match findBlk blocks off with
    | some (b, i) =>
      match findRow b.rows (off - b.base - b.stride * i) with
      | some (r, k, w) =>
        some ⟨b.blk, i, if b.blk = .ref then r.only (refMask i r.off) else r, k, w, off - 4 * w⟩
      | none => none
    | none => none

/-- The default severity nibbles of a source's eight words where they are not LOG (the chapters' fault tables): the
words of a source, as one number. -/
def sevNibbles (s : Nat) : List (Nat × Nat) :=
  if s < 0x80 then [(0x01, 2), (0x02, 2), (0x09, 2)]
  else if s < 0x88 then [(0x01, 2), (0x02, 2), (0x09, 2)]
  else if 0x98 ≤ s ∧ s < 0xA8 then [(0x01, 2), (0x02, 2), (0x03, 2)]
  else if 0xA8 ≤ s ∧ s < 0xB8 then [(0x01, 2), (0x02, 2)]
  else if 0xCA ≤ s ∧ s < 0xD2 then [(0x0A, 2)]
  else if s = 0xD3 then [(0x01, 2)]
  else if s = 0xD6 then [(0x07, 2)]
  else if s = 0xD8 then [(0x05, 3)]
  else if s = 0xD9 then [(0x02, 3), (0x03, 3)]
  else if s = 0xDA then [(0x02, 3)]
  else []

/-- Factory word w of a source's severities: LOG in every nibble but those of `sevNibbles` (R437). -/
def sevReset (s w : Nat) : Nat :=
  (sevNibbles s).foldl (fun a p => if p.1 / 8 = w then setBits a (4 * (p.1 % 8)) 4 p.2 else a) 0x11111111

/-- The Reset or factory value of a register, its instances told apart where the tables do (R123, R157, R216, R217,
R259, R290, R384, R437), as the joined words of the value. -/
def resetOf (i : RegInfo) : Nat :=
  match i.blk with
  | .glb => if i.row.off = 0x200 then (if i.rep = 0 then 1 else 0) else i.row.reset
  | .sc => if i.row.off = 0x000 then i.row.reset + (if i.inst = 0 ∨ i.inst = 7 then 1 else 0) +
      (if i.inst = 7 then 0x80 else 0) else i.row.reset
  | .dp =>
    if i.inst = 0 then
      if i.row.off = 0x000 then i.row.reset + 1
      else if i.row.off = 0x010 then (if i.rep < 4 then i.rep else i.rep + 4)
      else if i.row.off = 0x030 then spread 2 10000
      else if i.row.off = 0x038 then spread 2 100000
      else if i.row.off = 0x050 then 200
      else i.row.reset
    else i.row.reset
  | .ref =>
    if i.row.off = 0x020 then (if isTimeRefIx i.inst then 1000 else 20000)
    else if i.row.off = 0x03C then
      (if 4 ≤ i.inst ∧ i.inst < 8 then 1000 else if 16 ≤ i.inst then 10 else if 12 ≤ i.inst then 2000 else 0)
    else i.row.reset
  | .fod => if i.row.off = 0x010 then i.inst / 16 else i.row.reset
  | .port => if i.row.off = 0x00C then i.inst else i.row.reset
  | .ring => if i.row.off = 0x00 then i.row.reset + (if i.inst < 12 then 2 else 0) + i.inst * 4096 * 65536
      else i.row.reset
  | .ringWide => if i.row.off = 0x00 ∧ i.rep < 3 then 4 * i.rep + 0x20 else i.row.reset
  | .dma => if i.row.off = 0x00 then i.row.reset + i.inst * 4 + (32 + i.inst) * 256 else i.row.reset
  | .fcol => if i.row.off = 0x1000 then sevReset (i.rep / 8) (i.rep % 8) else i.row.reset
  | _ => i.row.reset
where
  isTimeRefIx (i : Nat) : Bool := i < 4 || (8 ≤ i && i < 16)

/-- What a register word holds at reset (R20). -/
def regReset (off : Nat) : Word :=
  match regInfo off with
  | some i => wd (resetOf i >>> (32 * i.word))
  | none => 0

/-- The word's piece of a mask of the whole value. -/
def RegInfo.piece (i : RegInfo) (m : Nat) : Nat := bits m (32 * i.word) 32

/-- The offset of a register of SC n. -/
def rSC (n o : Nat) : Nat := 0x100000 + 0x1000 * n + o
/-- The offset of a register of DP d. -/
def rDP (d o : Nat) : Nat := 0x200000 + 0x1000 * d + o
/-- The offset of a Screed register. -/
def rSCR (o : Nat) : Nat := 0x208000 + o
/-- The offset of a register of reference index i; PRF44's first 0x40 bytes are moved (R541). -/
def rREF (i o : Nat) : Nat := if i = 60 ∧ o < 0x40 then 0x330000 + o else 0x300000 + 0x400 * i + o
/-- The offset of a register of FOD n. -/
def rFOD (n o : Nat) : Nat := 0x400000 + 0x100 * n + o
/-- The offset of a register of PORT p. -/
def rPORT (p o : Nat) : Nat := 0x500000 + 0x100 * p + o
/-- The offset of a register of event lane l. -/
def rEL (l o : Nat) : Nat := 0x509000 + 0x40 * l + o
/-- The offset of a register of correction lane l. -/
def rCL (l o : Nat) : Nat := 0x50A000 + 0x40 * l + o
/-- The offset of a register of ECAM entry e. -/
def rENT (e o : Nat) : Nat := 0x610000 + 0x80 * e + o
/-- The offset of a register of RING n. -/
def rRING (n o : Nat) : Nat := 0x700000 + 0x100 * n + o
/-- The offset of a register of DMA c. -/
def rDMA (c o : Nat) : Nat := 0x800000 + 0x100 * c + o
/-- The offset of a register of SEQ n. -/
def rSEQ (n o : Nat) : Nat := 0x900000 + 0x10000 * n + o
/-- The offset of a TIME register. -/
def rTIME (o : Nat) : Nat := 0x020000 + o
/-- The offset of an FCOL register. -/
def rFCOL (o : Nat) : Nat := 0x030000 + o
/-- The offset of a SNAP register. -/
def rSNAP (o : Nat) : Nat := 0x040000 + o
/-- The offset of a SEAL register. -/
def rSEAL (o : Nat) : Nat := 0x050000 + o
/-- The offset of an NVS register. -/
def rNVS (o : Nat) : Nat := 0x060000 + o
/-- The offset of a PWR register. -/
def rPWR (o : Nat) : Nat := 0x070000 + o
/-- The offset of a MATE register. -/
def rMATE (o : Nat) : Nat := 0x080000 + o
/-- The offset of a command-engine register. -/
def rCMD (o : Nat) : Nat := 0x010000 + o

end Sys2Proof.Machine
end

