-- ==== Sys2Proof/Machine/FaultIds.lean ====
section
/-!
DEFINITION. The fault sources (R421) and the fault kinds of every source, by the names of the chapters' tables
(R57, R62, R92, R124, R158, R185, R218, R261, R291, R320, R355, R385, R414, R440, R457, R488, R518, R532).
-/
namespace Sys2Proof.Machine

def srcFod (n : Nat) : Nat := n
def srcSc (n : Nat) : Nat := 0x80 + n
def srcDp (d : Nat) : Nat := 0x88 + d
def srcEl (l : Nat) : Nat := 0x98 + l
def srcCl (l : Nat) : Nat := 0xA8 + l
def srcEcam : Nat := 0xB8
def srcCap : Nat := 0xB9
def srcDma (c : Nat) : Nat := 0xBA + c
def srcSeq (n : Nat) : Nat := 0xCA + n
def srcBus : Nat := 0xD2
def srcSeal : Nat := 0xD3
def srcNvs : Nat := 0xD4
def srcSkim : Nat := 0xD5
def srcTime : Nat := 0xD6
def srcMate : Nat := 0xD7
def srcPsu : Nat := 0xD8
def srcOcxo : Nat := 0xD9
def srcTherm : Nat := 0xDA
def srcPcie : Nat := 0xDB
def srcCnt : Nat := 0xDC
def srcCmd : Nat := 0xDD
def srcCol : Nat := 0xFF

-- register bus, 0xD2 (R57)
def kAccessWidth : Nat := 1
def kAlias : Nat := 2
def kPostOverrun : Nat := 3
def kLocked : Nat := 4
def kReadTimeout : Nat := 5
-- Scrim, 0xD3
def kMismatch : Nat := 1
def kHoldExpired : Nat := 2
def kNoPass : Nat := 3
-- time scale, 0xD6 (R92)
def kStepRange : Nat := 1
def kSetRange : Nat := 2
def kTimeQueueFull : Nat := 3
def kQueueFlush : Nat := 4
def kLeapInvalid : Nat := 5
def kRateClamp : Nat := 6
def kInterpSlip : Nat := 7
def kBadAction : Nat := 8
-- synthesis cores (R124)
def kLossOfLock : Nat := 1
def kBandCalFail : Nat := 2
def kRatioInvalid : Nat := 3
def kRetuneRefused : Nat := 4
def kDcoLimit : Nat := 5
def kScQueueFull : Nat := 6
def kRehomeNone : Nat := 7
def kBadMaster : Nat := 8
def kWakeTimeout : Nat := 9
-- fractional output dividers (R158, R185, R261)
def kInputLost : Nat := 1
def kAlignLost : Nat := 2
def kWitnessFail : Nat := 3
def kFodQueueFull : Nat := 4
def kInselRefused : Nat := 5
def kPhaseRange : Nat := 6
def kFormatRange : Nat := 7
def kStale : Nat := 8
def kDriver : Nat := 9
def kGangRefused : Nat := 10
def kHopInvalid : Nat := 0x0B
def kHopDemoted : Nat := 0x0C
def kHopScale : Nat := 0x0D
def kHopRate : Nat := 0x0E
def kLathShort : Nat := 0x0F
-- DPLLs (R218)
def kHoldoverEntry : Nat := 1
def kLockLost : Nat := 2
def kRefSwitch : Nat := 3
def kWordClamp : Nat := 4
def kBadRef : Nat := 5
def kHoldoverLimit : Nat := 6
def kScreedUntrained : Nat := 7
def kScreedSingular : Nat := 8
-- event and correction lanes (R261)
def kLaneDown : Nat := 1
def kCreditAudit : Nat := 2
def kCreditOverrun : Nat := 3
def kBadBlock : Nat := 4
def kStaleCount : Nat := 5
def kCountLost : Nat := 6
def kCalImplausible : Nat := 7
def kLeadMiss : Nat := 8
def kTagReuse : Nat := 9
def kCorrLate : Nat := 2
-- ECAM and capture RAM (R291)
def kRuleLive : Nat := 1
def kGenBusy : Nat := 2
def kParity : Nat := 3
def kEccUncorr : Nat := 1
def kRingConfig : Nat := 2
def kRingPtr : Nat := 3
-- sequencers (R310, R320)
def kIllegal : Nat := 1
def kDmemBounds : Nat := 2
def kRegBus : Nat := 3
def kSeqQueueFull : Nat := 4
def kLate : Nat := 5
def kTrap : Nat := 6
def kDouble : Nat := 7
def kImgCrc : Nat := 8
def kImemWrite : Nat := 9
def kEcc : Nat := 10
-- command engine (R355)
def kRefused : Nat := 1
def kTimeout : Nat := 2
def kFailed : Nat := 3
-- DMA (R385)
def kBusError : Nat := 1
def kDescError : Nat := 2
def kConfig : Nat := 3
def kHostPtr : Nat := 4
-- NVS and calibration (R414)
def kNoValidBank : Nat := 1
def kBankCorrupt : Nat := 2
def kVerifyFail : Nat := 3
def kWear : Nat := 4
def kImplausible : Nat := 1
def kSoftAge : Nat := 2
def kTwinFail : Nat := 3
-- the collector (R440)
def kSevParity : Nat := 2
-- counters and snapshots (R457)
def kSaturated : Nat := 1
def kSnapRefused : Nat := 2
def kSnapQFull : Nat := 3
-- mate (R488)
def kMateLinkDown : Nat := 1
def kMateLaneDown : Nat := 2
def kCkptMiss : Nat := 3
def kDiverged : Nat := 4
def kAlign : Nat := 5
def kSplit : Nat := 6
def kNodeClash : Nat := 7
def kSyncFail : Nat := 8
-- PSU, OCXO, thermal (R518)
def kRideEntry : Nat := 1
def kStoreLow : Nat := 2
def kOvervoltage : Nat := 3
def kChargeSlow : Nat := 4
def kConverter : Nat := 5
def kNotWarm : Nat := 1
def kOvenFail : Nat := 2
def kBaseLol : Nat := 3
def kAsicHigh : Nat := 1
def kAsicCrit : Nat := 2
def kBaseHigh : Nat := 3
-- PCIe (R532)
def kPcieLinkDown : Nat := 1
def kUncorr : Nat := 2
def kPerst : Nat := 3

end Sys2Proof.Machine
end

