-- ==== Sys2Proof/Machine/State.lean ====
section
/-!
DEFINITION. The state of the block as plain data: the registers by their normal-view offset, what the hardware keeps
beside them, the memories of BAR2, the waiting commands, and what has left the module. Sparse maps are in the
canonical form of `mwf`. Times are device times: sub-ticks of 2^-32 tick where Plain counts, ticks elsewhere.
-/
namespace Sys2Proof.Machine

open Sys2Proof

/-- Why a command would stop the model: no command of this block does; the type has no constructor beyond one that
nothing raises, so a run of this model never stops by a fault. -/
inductive Fault where
  /-- Raised by nothing; safe. -/
  | none
  deriving DecidableEq, Repr

/-- Why the model gives a command no meaning. -/
inductive Refusal where
  /-- Raised by a dispatch arm whose command has no meaning yet; safe: the model stops. -/
  | notModelled (mnemonic : String)
  deriving DecidableEq, Repr

/-- A fault report as it waits in its source's intake queue (R415, R416): `time` and `tflags` are the device time and
the R74 flags at the crossing; `forced` marks an injection. -/
structure Report where
  src : Nat
  kind : Nat
  addr : Nat
  master : Nat
  access : Nat
  forced : Bool
  time : Nat
  tflags : Nat
  deriving DecidableEq, Repr

/-- What a timed action does (R83, R134, R147, R164, R107, R441). -/
inductive ActKind where
  | timeStep (amt : Int)
  | timeSlew (amt : Int) (rate : Nat)
  | timeRate (w : Int)
  | timeSlewStop
  | hop (entry : Nat)
  | phStep (amt : Int)
  | phSlew (amt : Int)
  | oen (v : Bool)
  | retune (slot : Nat) (comp : Bool) (handle : Option Nat)
  | snap
  deriving DecidableEq, Repr

/-- A queued action: its resolved due time in ticks (R80), its lateness in ticks where it was LATE at entry, its
order of entry, the core that issued it, whether it is held past its due time (R107, R173, R175, R178) and whether a
step skipped it before (R81, R174). -/
structure QAct where
  due : Int
  late : Option Int
  seqNo : Nat
  core : Option Nat
  kind : ActKind
  held : Bool
  stepped : Bool
  deriving DecidableEq, Repr

/-- A Lath change record (R236): kind, INFO, sequence number, first cycle, its edge's exact device time in ticks, the
period, the slope per cycle, the accumulated trail offset; the instant of the change that is not the edge's (t_h of a hop,
R183; the PFD edge of a retune, R112); the SC that the output then runs on. -/
structure ChRec where
  kind : Nat
  info : Nat
  seqNo : Nat
  cycle : Int
  time : Rat
  period : Rat
  slope : Rat
  trail : Rat
  inst : Rat
  on : Nat
  deriving DecidableEq, Repr

/-- A witness anchor (R139, R236): the cycle of its correction step, the step in ticks, the visit's device time, the
accumulated trail offset. -/
structure Anchor where
  cycle : Int
  step : Rat
  time : Rat
  trail : Rat
  seqNo : Nat
  deriving DecidableEq, Repr

/-- A numbering of an output's edges (R223): change records and anchors, newest first, and the time of the last edge
that the driver drove under it. -/
structure Numbering where
  recs : List ChRec
  anchors : List Anchor
  last : Rat
  deriving DecidableEq, Repr

/-- A hop entry (R159). -/
structure HopEnt where
  valid : Bool
  coherent : Bool
  n : Nat
  f : Nat
  m : Nat
  o : Nat
  phase : Int
  deriving DecidableEq, Repr

/-- The entry of POR (R163). -/
def hopZero : HopEnt := ⟨false, false, 0, 0, 0, 0, 0⟩

/-- One DTC twin of an FOD (R391 to R397): failed, ready, the device time in ticks of its last accepted calibration,
consecutive rejections. -/
structure Twin where
  failed : Bool
  ready : Bool
  born : Int
  rejects : Nat
  deriving DecidableEq, Repr

/-- What an FOD holds beside its registers (chapters 5, 6, 8 and 14). `n f m o` is the combination in force, `sc` the
input in force, `insel` the input a COMP = 0 write waits for (R129). `phi` is the exact phase, `pRem`/`tRem` the
remaining phase and tracking slews as of `pFrom`/`tFrom` at rates `pRate`/`tRate`, `grown` what has grown since no slew
was in progress (R136), `pSince`/`tSince` the orders of entry at which the slews were queued, none for one that was not
(R235). `divFrom` is the
divider edge from which the divide in force counts, `odly` the launch advance in force (R133). The first 32 of `anchors`
are held; what follows are those no longer held, by their governing record: the first of them, and the sum of the later
ones. `hopHeld` lists the hops that wait, in order of arrival: the entry, the order of entry of a queued one, whether
HOP_RATE was raised for it (R173, R175). `trans` is the transitional period of the last hop: E_prev, E1 and its falling
edge (R168). `dark` lists, newest first, the spans of device time in which the output's counts are DEGRADED by a fence or a
re-homing gap (R240). `leads` lists converted transmit counts that lie ahead: port, time, order of entry at the
conversion (R235). `swapDue`: Skim exchanges the twins at the coming E1 (R181); `slowDue` is the output edge
at which SLOW of its ports is judged again (R224). `was` lists, newest first, the latest changes of RUNNING and ALIGNED: the
instant, and the two before it (R446). `hw` lists what hardware writes in a core cycle: its number from POR and the register's
offset (R21); `hopWas` is what the latest commit of an entry replaced (R162). `halting`: the FOD stops at its falling edge
(R142). `tdcAt` is the instant at which its witness TDC failed (R141). `dtcRes` is the rounding residue that its DTC carries
(R130). -/
structure Fod where
  running : Bool
  driving : Bool
  aligned : Bool
  fenced : Bool
  frozen : Bool
  twinB : Bool
  divInvalid : Bool
  degraded : Bool
  n : Nat
  f : Nat
  m : Nat
  o : Nat
  sc : Nat
  insel : Option Nat
  phi : Rat
  pRem : Rat
  pFrom : Rat
  pRate : Rat
  tRem : Rat
  tFrom : Rat
  tRate : Rat
  grown : Rat
  pSince : Option Nat
  tSince : Option Nat
  divFrom : Rat
  cycleDrv : Bool
  queue : List QAct
  recs : List ChRec
  anchors : List Anchor
  prev : Option Numbering
  recSeq : Nat
  anchorT : Option Rat
  offAt : Option Rat
  startDue : Option Rat
  okVisits : Nat
  badVisits : Nat
  lostVisits : Nat
  hops : List (Nat × HopEnt)
  hopBusy : Bool
  hopHeld : List (Nat × Option Nat × Bool)
  trans : Option (Rat × Rat × Rat)
  swapDue : Bool
  slowDue : Option Rat
  rehomeGap : Bool
  dark : List (Rat × Option Rat)
  holdUntil : Option Rat
  twinA : Twin
  twinBee : Twin
  odly : Int
  leads : List (Nat × Rat × Nat)
  was : List (Rat × Bool × Bool)
  hw : List (Nat × Nat)
  hopWas : Option (Nat × HopEnt)
  halting : Bool
  tdcAt : Option Rat
  dtcRes : Rat
  mateNum : Bool
  deriving DecidableEq, Repr

/-- The rounds of a witness TDC (R139, R393): the FOD of its group that it visited last, the AON boundary at which that visit
ended, the FODs that Skim has visited in its present round. -/
structure WitSt where
  last : Nat
  end_ : Option Nat
  skim : Nat
  deriving DecidableEq, Repr

/-- A witness TDC after POR: its first visit is that of the lowest running FOD. -/
def witInit : WitSt := ⟨7, none, 0⟩

/-- Why a band calibration runs (R103, R104). -/
inductive BandWhy where
  | wake | command | change
  deriving DecidableEq, Repr

/-- A retune under way (R109, R110): the slot and ratio taken at its start, whether compensated, whether it is
a band change; for a ramp the PFD edge at which it starts, its J and the ratio before it, and the PFD cycles that the
modulator has run in it; the order of entry at which it was queued, none for a command's (R235). -/
structure Retune where
  slot : Nat
  q : Rat
  ni : Nat
  nf : Nat
  nm : Nat
  comp : Bool
  band : Bool
  from_ : Rat
  j : Nat
  q0 : Rat
  ran : Nat
  since : Option Nat
  deriving DecidableEq, Repr

/-- What an SC holds beside its registers (chapter 4): `deadline` is a lock deadline that runs (R103), `master` the
MASTER in force (R97), `cmdRes` the outcomes of SC_RETUNE commands by their handles and `lockFor` the handles that wait
for LOCK_SET (R107), `w` the steering word applied, the steering trail newest first as (device microsecond, sum), the sum
that the next entry takes; the re-homing target with the FODs that move there (R119), the band that the VCO runs in (R104,
R105), the residues of the ΔΣ modulator, newest first, the divide that it gave last and its place in the dither sequence
(R95, R96). -/
structure Sc where
  awake : Bool
  lockFast : Bool
  lockSet : Bool
  retune : Option Retune
  bandcal : Option BandWhy
  deadline : Option BandWhy
  master : Nat
  cmdRes : List (Nat × Nat)
  lockFor : List Nat
  fenced : Bool
  frozen : Bool
  slot : Nat
  refuse : Nat
  w : Int
  clamped : Bool
  trailOn : Bool
  trail : List (Nat × Int)
  trailAcc : Int
  trailZeros : Nat
  trailTotal : Int
  queue : List QAct
  rehome : Option (Nat × List Nat)
  band : Nat
  ds : List Rat
  divide : Nat
  dith : Nat
  deriving DecidableEq, Repr

/-- A posted write in flight (R48, R49): its master, the highest word's offset, the view, and the words of the value
as they land, lowest first. -/
structure Posted where
  master : Nat
  off : Nat
  view : Nat
  words : List Nat
  deriving DecidableEq, Repr

/-- A posted write of an AON target that has landed and acts at the next AON boundary (R48): the register, its words
before and after, the W1C and SC bits written as 1, the master. -/
structure Landed where
  off : Nat
  old : Nat
  new : Nat
  hit : Nat
  master : Nat
  deriving DecidableEq, Repr

/-- The registers that software writes in the present core cycle and that a hardware update of the same cycle meets (R56):
whether the write under way is noted, the AON boundary and core cycle, the offsets. -/
structure CycLog where
  on : Bool
  aon : Nat
  cyc : Nat
  offs : List Nat
  deriving DecidableEq, Repr

/-- The time scale (chapter 3): `plain` counts sub-ticks, `aon` AON boundaries since POR, `y` the effective rate word,
`ybase` and `yslew` its parts, `slewRem` the remaining slew in sub-ticks, `landed` the TIME_CMD bits that act at the
next boundary, `slewSince` the order of entry at which the slew was queued, none for one that was not (R235), `flags` the changes of the R74 flags of the last 2 ms newest first as (core cycle since POR, device time in ticks, flags),
`ppsOwed` the seconds whose boundaries Plain has passed by advancing and that await their PPS event, `ppsMax` the latest second whose boundary gave an event, `ppsPulse` the outputs whose pulse
is high, `ppsFrom` the AON boundary and core cycle, as a count of core cycles since POR, at which each output's pulse began, `ppsInv` the outputs
whose latest pulse is active low, `outHigh` those that rest high, `copyAt` the device time from which each output carries
what its FP_OUT_CFG names (R526). -/
structure TimeSt where
  started : Bool
  plain : Nat
  aon : Nat
  y : Int
  ybase : Int
  dpWord : Int
  clamped : Bool
  yslew : Int
  slewRem : Int
  interp : Bool
  notSet : Bool
  holdover : Bool
  leapPend : Bool
  landed : Nat
  slewSince : Option Nat
  queue : List QAct
  flags : List (Nat × Nat × Nat)
  ppsOwed : List Nat
  ppsMax : Nat
  ppsPulse : Nat
  ppsFrom : List (Nat × Int)
  ppsInv : Nat
  outHigh : Nat
  copyAt : List (Nat × Rat)
  deriving DecidableEq, Repr

/-- Scrim (R58 to R62): the pass under way, whether it is void, the run of void passes, the match and whether it held
before, whether a pass has been compared, the
order of entry at its start, before which the SEAL_COMMITs that it serves were accepted, the AON boundary at which the hold
began. -/
structure SealSt where
  passOn : Bool
  passVoid : Bool
  voidRun : Nat
  match_ : Bool
  matched : Bool
  passValid : Bool
  passOrder : Nat
  loaded : Bool
  holdFrom : Nat
  deriving DecidableEq, Repr

/-- A shadow of a fence or of a fence-grade reaction (R421, R425): the source that opened it, the AON boundary at which its
window ends, and the units that depend on it as they stood when it opened. -/
structure Window where
  src : Nat
  until_ : Nat
  insts : List Nat
  deriving DecidableEq, Repr

/-- Watershed (chapter 15): intake queues by source, fenced sources with the sources that their fences hold shadowed,
pending severities by source, open windows, the intake sequence, SAFE, the records that wait in the buffer of 1 024
while the core domain sleeps. -/
structure FcolSt where
  queues : List (Nat × List Report)
  fenced : List Nat
  pend : List (Nat × Nat)
  lastKind : List (Nat × Nat)
  windows : List Window
  scFods : List (Nat × List Nat)
  intake : Nat
  safe : Bool
  buffer : List (List Byte)
  deriving DecidableEq, Repr

/-- The snapshot trigger (chapter 16): SNAP_ID, a snapshot in progress with its T and the core cycle of its trigger, the
queue, the last accepted SNAP_IN edge, PPS events since the last PPS trigger, the triggers whose T lies ahead, as (T, source)
(R444). -/
structure SnapSt where
  id : Nat
  busy : Bool
  t : Nat
  inst : Nat
  queue : List QAct
  lastIn : Option Int
  ppsCount : Nat
  later : List (Int × Nat)
  deriving DecidableEq, Repr

/-- What a reference holds beside its registers (R187 to R191): whether an event has come since it was enabled, the
last labelled event's device time and phase, the last label, the fence, the last SWREF T_m, the times of the last samples,
an edge that awaits its label, a label that awaits its edge, the AON boundary at which the qualification timer started, the
leap that an IRIG-B frame announced: 1 insertion or 2 deletion, the UTC second behind it, TIME_UTC_OFF then (R529), whether it
has been disqualified since its timer was last restarted by command (R348). -/
structure Ref where
  seen : Bool
  lastT : Option Int
  lastE : Option Int
  label : Option Nat
  fenced : Bool
  swT : Option Int
  times : List Int
  edge : Option Int
  next : Option Nat
  qualFrom : Option Nat
  leap : Option (Nat × Int × Int)
  dropped : Bool
  deriving DecidableEq, Repr

/-- What a DPLL holds beside its registers (chapter 7): the state of R199, the selected reference and its slot, the
wait to restore and whether it is over, the build-out b in force and their sum, the loop's word, its integrator in 2^-48
and the phase accumulator in sub-ticks, which for DP0 is Plain (R196), the word published and those that wait for their boundary (R472), words as (from, word) newest first for the holdover averages, errors
as (time, error) newest first, since when |e| has stayed in the window, the error to set or step Plain by, the word or
offset that HOLDOVER or FREERUN holds, the magnitudes of the last 16 errors, the words received (R472), since when the
holdover averages have history (R217), DP0's own steps as (device time, ticks), newest first (R189). -/
structure Dp where
  st : Nat
  sel : Option (Nat × Nat)
  wait : Option Nat
  waitOver : Bool
  b : Int
  pbo : Int
  pboFresh : Bool
  firstDue : Bool
  fallAcq : Bool
  loop : Int
  integ : Rat
  acc : Nat
  word : Int
  pipe : List (Nat × Int)
  words : List (Int × Int)
  errs : List (Int × Int)
  inFrom : Option Int
  phLock : Bool
  frLock : Bool
  phSeen : Bool
  wasLocked : Bool
  psl : Bool
  bwClamp : Bool
  clamped : Bool
  fenced : Bool
  setBy : Option Int
  stepBy : Option Int
  sinceStep : Nat
  held : Option Int
  mags : List Nat
  received : List (Nat × Int)
  hoFrom : Option Int
  steps : List (Int × Int)
  deriving DecidableEq, Repr

/-- Screed (R207 to R210): the samples newest first as (second, word, temperature, weight of R406), when the interval began and
whether it is still good, the second of holdover entry, the terms of E(t), the integral of |Δθ|, whether the limit
was reported in this holdover, the temperatures as (device time, θ) newest first (R209), the standard deviations of C0, C1 and
C2 from the last fit, in their registers' units (R210). -/
structure Scr where
  samples : List (Int × Int × Int × Nat)
  tref : Int
  from_ : Int
  good : Bool
  entry : Option Int
  e0 : Rat
  sf : Rat
  sa : Rat
  sT : Rat
  area : Rat
  limRaised : Bool
  temps : List (Int × Int)
  sig : Option (Rat × Rat × Rat)
  deriving DecidableEq, Repr

/-- What has left the module, newest first. -/
inductive Out where
  /-- An MSI-X message of a vector. -/
  | msix (vec : Nat)
  /-- Read data returned to a master. -/
  | data (master : Nat) (v : Nat) (width : Nat)
  /-- A message of a correction lane, as its bytes. -/
  | cl (lane : Nat) (bytes : List Byte)
  /-- A message to the mate on a lane, by type and fields. -/
  | mate (lane : Nat) (type : Nat) (fields : List Int)
  /-- A front-panel PPS edge: output, device time in ticks, the level after it. -/
  | pps (n : Nat) (t : Int) (high : Bool)
  /-- An IRIG-B output frame of a second: output, label fields. -/
  | irig (n : Nat) (fields : List Int)
  /-- Bytes written to host memory. -/
  | host (addr : Nat) (bytes : List Byte)
  /-- A read of host memory, widened to 64 bytes (R370): address, length. -/
  | hostRead (addr : Nat) (len : Nat)
  /-- An OWN frame of a group. -/
  | own (g : Nat) (bits : Nat)
  /-- An SMBus answer: the content, and the PEC of a read. -/
  | smb (bytes : List Byte)
  /-- The answer to a PCIe configuration request: Retry Status, or the words of the configuration space that R531 gives. -/
  | cfg (retry : Bool) (words : List Nat)
  /-- A completion of a BAR2 read that is poisoned (R544). -/
  | poisoned (master : Nat)
  /-- A register-bus access that ended with a fault, seen by its master. -/
  | busFault (master : Nat)
  deriving DecidableEq, Repr

/-- An SC after POR: asleep, unlocked, W = 0 (R97, R116). -/
def scInit : Sc :=
  { awake := false, lockFast := false, lockSet := false, retune := none, bandcal := none, deadline := none,
    master := 0, cmdRes := [], lockFor := [],
    fenced := false, frozen := false, slot := 0, refuse := 0, w := 0, clamped := false, trailOn := false, trail := [], trailAcc := 0,
    trailZeros := 0, trailTotal := 0, queue := [], rehome := none, band := 0, ds := [], divide := 0, dith := 0 }

/-- A DTC twin after POR: usable, not yet calibrated. -/
def twinInit : Twin := ⟨false, false, 0, 0⟩

/-- FOD n after POR: stopped, the factory combination 40, 0, 1, 1 on SC n div 16 (R157). -/
def fodInit (n : Nat) : Fod :=
  { running := false, driving := false, aligned := false, fenced := false, frozen := false,
    twinB := false, divInvalid := false, degraded := false, n := 40, f := 0, m := 1, o := 1, sc := n / 16,
    insel := none, phi := 0, pRem := 0, pFrom := 0, pRate := 0, tRem := 0, tFrom := 0, tRate := 0, grown := 0, pSince := some 0, tSince := some 0,
    divFrom := 0,
    cycleDrv := false, queue := [], recs := [], anchors := [], prev := none, recSeq := 0, anchorT := none,
    offAt := none, startDue := none, okVisits := 0, badVisits := 0, lostVisits := 0, hops := [], hopBusy := false,
    hopHeld := [], trans := none, swapDue := false, slowDue := none, rehomeGap := false, dark := [], holdUntil := none,
    twinA := twinInit, twinBee := twinInit, odly := 0, leads := [], was := [],
    hw := [], hopWas := none, halting := false, tdcAt := none, dtcRes := 0, mateNum := false }

/-- A reference after POR. -/
def refInit : Ref := ⟨false, none, none, none, false, none, [], none, none, none, none, false⟩

/-- A DPLL after POR: FREERUN, nothing selected. -/
def dpInit : Dp :=
  { st := 0, sel := none, wait := none, waitOver := false, b := 0, pbo := 0, pboFresh := false, firstDue := false,
    fallAcq := false, loop := 0, integ := 0, acc := 0, word := 0, pipe := [], words := [], errs := [], inFrom := none, phLock := false,
    frLock := false, phSeen := false, wasLocked := false, psl := false, bwClamp := false, clamped := false,
    fenced := false, setBy := none, stepBy := none, sinceStep := 16, held := none, mags := [],
    received := [], hoFrom := none, steps := [] }

/-- Screed after POR with no bank loaded. -/
def scrInit : Scr :=
  { samples := [], tref := 0, from_ := 0, good := false, entry := none, e0 := 0, sf := 0, sa := 0, sT := 0,
    area := 0, limRaised := false, temps := [], sig := none }

/-- A port timestamp (R239, R240): ticks where the count converted, and the stamp flags, DEGRADED first; whether the port
converts no count at all, so that a correction carries STALE_COUNT whatever else holds (R224, R547). -/
structure Stamp where
  t : Option Int
  flags : Nat
  off : Bool
  deriving DecidableEq, Repr

/-- A slot of an event lane (R229, R230): the EVENT and its TAP, the arrival of its last bit, the SFD's time, its
cycle's edge and its exact raw time as they converted, the generation stamped, whether it still waits for a TAP, whether it waits for its lookup. -/
structure ESlot where
  ev : EventMsg
  tap : Option TapMsg
  arrival : Nat
  stamp : Stamp
  tau : Option Rat
  raw : Option Rat
  gen : Nat
  open_ : Bool
  waits : Bool
  deriving DecidableEq, Repr

/-- An ingress entry (R249): the frame's pair, port, class, generation, time, verdict (0 OK), whether the tap holds a
Sync, its part of the table, the SFD's time, the action, its ring and ingress CAPTURE record (SEQ, colour), the egress
bitmap, the corrections sent, the rings that took a CAPTURE record of the frame. -/
structure Ing where
  tag : Nat
  tgen : Bool
  port : Nat
  cls : Nat
  gen : Nat
  stamp : Stamp
  verdict : Nat
  sync : Bool
  reserve : Bool
  sfd : Int
  action : Nat
  ring : Nat
  cap : Option (Nat × Nat)
  egress : Nat
  applied : Nat
  caps : List Nat
  deriving DecidableEq, Repr

/-- A correction due (R248, R251): the transmit EVENT, its arrival, its time, what its pairing gave (`wait`: it waits for its ingress
entry; for class 1 the entry only counts the corrections of its frame, R281), and for class 1 the verdict of its tap and the
origin. -/
structure Corr where
  ev : EventMsg
  arrival : Nat
  stamp : Stamp
  wait : Bool
  ing : Option Ing
  why : Nat
  verdict : Nat
  origin : Int
  deriving DecidableEq, Repr

/-- A retired entry whose DELIVERY record waits for the outcome of its corrections (R254, R281): the entry, the RETIRE code,
the device time and the R74 flags of the retirement. -/
structure Owed where
  i : Ing
  code : Nat
  t : Nat
  fl : Nat
  deriving DecidableEq, Repr

/-- A lane pair EL l, CL l (R219, R229 to R233): block lock of each, whether the credit link is up and its INIT echoed,
the slots, the marker that awaits its echo with the credits returned since, the next marker's number, whether a TAP
of a discarded EVENT goes with it, corrections due. -/
structure LaneSt where
  el : Bool
  cl : Bool
  up : Bool
  ready : Bool
  slots : List ESlot
  marker : Option (Nat × Nat × Nat)
  nextN : Nat
  dropTap : Bool
  corrs : List Corr
  deriving DecidableEq, Repr

/-- A lane after POR: no block lock. -/
def laneInit : LaneSt := ⟨false, false, false, false, [], none, 0, false, []⟩

/-- A port's calibration in progress (R245): tag base, the receive events that arrived, raw times of its transmit and receive
events by index. -/
structure PortCal where
  base : Nat
  seen : Nat
  tx : List (Nat × Rat)
  rx : List (Nat × Rat)
  deriving DecidableEq, Repr

/-- What a port holds beside its registers (R242, R247): the run of unresolved beacons, the last ROT and its unwrapped
value, the samples of the recovered frequency newest first, a calibration in progress, its last outcome: whether it was
accepted, with the L that it measured; whether the delays in force carry the calibrated bit of R410. -/
structure PortSt where
  run : Nat
  rot : Option (Nat × Int)
  samples : List (Rat × Rat)
  cal : Option PortCal
  calDone : Option (Bool × Option Int)
  stored : Bool
  deriving DecidableEq, Repr

/-- A port after POR. -/
def portInit : PortSt := ⟨0, none, [], none, none, false⟩

/-- A ring (R275, R279, R284): the free-running slot counts, tokens in 2^-16, the five conservation counters and the
records in flight. -/
structure RingSt where
  wr : Nat
  rd : Nat
  tokens : Nat
  admitted : Nat
  delivered : Nat
  police : Nat
  full : Nat
  abandoned : Nat
  inFlight : Nat
  overTh : Bool
  deriving DecidableEq, Repr

/-- A ring after POR: empty, every counter zero. -/
def ringInit : RingSt := ⟨0, 0, 0, 0, 0, 0, 0, 0, 0, false⟩

/-- The pair (chapter 17): the backplane slot, NR_WHY, the lanes up, the mate's two lines as sensed, the mate's last
STATUS (fresh, STANDBY and READY), whether a MATE_SYNC has completed, the codes 2 and 7 that hold, a
checkpoint within 3 ms, the results of the last checks of MATE_ALIGN, the run of unequal seals, divergence, ports handed
to the mate, the image under way, the newest checkpoint, the frame and message counts, the time of the last failed
MATE_SYNC, the mirrored registers of R474, the mate's ledgers and witness anchors (R483), whether the ALL frame of a takeover
is due, the boundary at which a standby's MATE_SYNC began, the sequence numbers of the messages taken of late with the AON
boundary of each (R465), whether a checkpoint came since the last device-millisecond boundary (R476). -/
structure MateSt where
  slotB : Bool
  nrWhy : Nat
  lane0 : Bool
  lane1 : Bool
  lineActive : Bool
  lineAlive : Bool
  fresh : Bool
  reportsReady : Bool
  clash : Bool
  synced : Bool
  hold2 : Bool
  hold7 : Bool
  ckptFresh : Bool
  aligns : List Bool
  maxErr : Rat
  unequal : Nat
  diverged : Bool
  lineAct : Bool
  handed : List Nat
  image : List ImageItem
  imageDone : Bool
  ckpt : Option CkptMsg
  ckptSeq : Nat
  hopsChanged : List Nat
  screedSent : Nat
  ownSeq : Nat
  txSeq : Nat
  failAt : Option Nat
  mirror : List (Nat × Word)
  ledger : List (Nat × List ChRec)
  ownDue : Bool
  syncFrom : Option Nat
  anchors : List (Nat × List Anchor)
  rx : List (Nat × Nat)
  ckptCame : Bool
  deriving DecidableEq, Repr

/-- The pair after POR: STANDBY with NR_WHY = 1, nothing heard of the mate (R463). -/
def mateInit : MateSt :=
  { slotB := false, nrWhy := 1, lane0 := false, lane1 := false, lineActive := false, lineAlive := false,
    fresh := false, reportsReady := false, clash := false, synced := false,
    hold2 := false, hold7 := false, ckptFresh := false, aligns := [], maxErr := 0, unequal := 0, diverged := false,
    lineAct := false, handed := [], image := [], imageDone := false, ckpt := none, ckptSeq := 0, hopsChanged := [],
    screedSent := 0, ownSeq := 0, txSeq := 0, failAt := none, mirror := [], ledger := [], ownDue := false, syncFrom := none,
    anchors := [], rx := [], ckptCame := false }

/-- The results that calibration compares and falls back on (R390, R410): witness TDC offset in ticks and gain in 2^-24
by TDC, band edges in Q × 256 by 64 × SC + band, DTC breakpoints by 2 × FOD + twin. What is not listed is as FACTORY
holds it (R400). -/
structure Calib where
  tdc : List (Nat × Int × Nat)
  bands : List (Nat × Nat × Nat)
  breaks : List (Nat × List Int)
  deriving DecidableEq, Repr

/-- A bank or a LOG entry (R399, R401, R406, R407, R410): the words of its header, and its payload, as register words by
their offset (CONFIG; a port's delays; Screed's registers; a LOG entry's words by number), calibration results, Screed
samples as (mean word, temperature, weight) with what R210 takes from the covariance, image bytes. `full` says that the last
store wrote its whole payload; `rest` are the bytes behind the header that stood there before, or that an unfinished store
left. -/
structure Bank where
  magic : Nat
  seqNo : Nat
  length : Nat
  check : Nat
  commit : Nat
  format : Nat
  core : Nat
  writes : Nat
  words : List (Nat × Word)
  calib : Calib
  samples : List (Int × Int × Nat)
  sig : Option (Rat × Rat × Rat)
  image : List Byte
  full : Bool
  rest : List Byte
  deriving DecidableEq, Repr

/-- No calibration results beside FACTORY's. -/
def calibInit : Calib := ⟨[], [], []⟩

/-- A bank that nothing has written: its bytes are zero (DESIGN CHOICE, log entry 67). -/
def bankInit : Bank := ⟨0, 0, 0, 0, 0, 0, 0, 0, [], calibInit, [], none, [], false, []⟩

/-- The non-volatile store and its controller (R399 to R411): banks by 1024 × region + bank, and the store in progress: the
key of its bank and what it will hold. -/
structure NvsSt where
  banks : List (Nat × Bank)
  job : Option (Nat × Bank)
  deriving DecidableEq, Repr

/-- Calibration (R386 to R392): the live results; whether a run is on, whether it is that of power-up, its BLOCKS, the slot
of its command, the ports whose turn is to come (128 more where a port's turn has come and waits for its lane), the ports
that have had their power-up turn (R389), the ports deferred since the run began, the ports whose calibration MRST_N or the
loss of power ended and whose lane has not heard its STOP yet (R352), the AON boundary at which CAL_RUN's DTC step starts
(R392). -/
structure CalSt where
  live : Calib
  on : Bool
  power : Bool
  blocks : Nat
  slot : Option Nat
  turns : List Nat
  had : List Nat
  deferred : Nat
  stops : List Nat
  dtcFrom : Nat
  deriving DecidableEq, Repr

/-- An outstanding command (R341 to R349): its handle's generation, master, words, the device time of acceptance, the
order of acceptance, whether it has started, the bank that an NVS command copied at its start, whether its target work has ended and how. -/
structure Slot where
  gen : Nat
  master : Nat
  w0 : Nat
  w1 : Nat
  w2 : Nat
  w3 : Nat
  acc : Nat
  order : Nat
  running : Bool
  copy : Option (Nat × Bank)
  done : Option (Nat × Nat)
  members : List Nat
  deriving DecidableEq, Repr

/-- The command engine (R342 to R350): outstanding commands by slot, the free slots among 0 to 61 in the order in which
they became free, generations by slot, CMD_HANDLE by master, the module's own commands that wait for a slot. -/
structure CmdSt where
  slots : List (Nat × Slot)
  frees : List Nat
  gens : List (Nat × Nat)
  handles : List (Nat × Nat)
  own : List (Nat × Nat)
  deriving DecidableEq, Repr

/-- A descriptor (R359) with its address. -/
structure Desc where
  addr : Nat
  ctrl : Nat
  len : Nat
  src : Nat
  dst : Nat
  next : Nat
  deriving DecidableEq, Repr

/-- A DMA channel beside its registers (R362 to R383): STATE, the state it left when it paused, DB_PEND, the descriptor
fetched and not yet executed, whether a fault of the register bus met it, the retries spent by LOC and address (R380), a
flush request, promotion, the drain request, the core cycle in which it last sent its vector (R377), whether a burst
granted to it is outstanding because a read of it failed (R378). -/
structure DmaSt where
  st : Nat
  before : Nat
  dbPend : Bool
  desc : Option Desc
  regFlt : Bool
  retries : List ((Nat × Nat) × Nat)
  flush : Bool
  promoted : Bool
  held : Bool
  irqAt : Option Nat
  inFlight : Bool
  deriving DecidableEq, Repr

/-- A channel after POR. -/
def dmaInit : DmaSt := ⟨0, 0, false, none, false, [], false, false, false, none, false⟩

/-- A core beside its registers (R302, R303, R312 to R317): what it waits for (a resolved time, or a mask with the pair that
takes the bits), whether it steps, whether its image is being verified, whether the breakpoint at its PC is passed
over. -/
structure SeqSt where
  waitT : Option Int
  waitE : Option (Nat × Nat)
  stepping : Bool
  verify : Bool
  bpSkip : Bool
  deriving DecidableEq, Repr

/-- A core after POR. -/
def seqInit : SeqSt := ⟨none, none, false, false, false⟩

/-- The supply and the start (R492 to R515): 0 OFF, 1 CHARGE, 2 powered; how far the start sequence is (0 before AON ready,
1 loading, 2 loaded, 3 calibrating, 4 started); MRST_N low; the AON boundary of the RIDE entry; whether the ride stores
were issued and how many have not completed; the event in progress: class, start in ticks, extreme, half cycles, the
events counted, the R74 flags at its start, the AON boundary from which the watchdog's limit counts, that of the last access which the core
domain woke or stayed awake for (R505), whether the start is that of POR, since which AON boundary the measured values of the
input lie in its range (R494), the boundary at which the event in progress started, what the next POR's record says of the
commands that a loss of power ended (R351), the AON periods by which the OCXO had power before the AON was ready (R507),
whether the event in progress is a dip that deepened (R503), the draw from the store in 10 mW (R495). -/
structure PwrSt where
  power : Nat
  phase : Nat
  mrst : Bool
  ride : Option Nat
  yielded : Bool
  stores : Bool
  storesLeft : Nat
  evt : Nat
  evtT : Nat
  evtExt : Nat
  evtN : Nat
  evtNo : Nat
  evtFl : Nat
  wdAt : Nat
  coreAt : Nat
  cold : Bool
  okSince : Option Nat
  evtAt : Nat
  lost : Nat × Nat
  ocxoLead : Nat
  evtDeep : Bool
  draw : Nat
  deriving DecidableEq, Repr

/-- The supply at POR: the store reaches 8 V and the AON powers up. -/
def pwrInit : PwrSt := ⟨2, 0, false, none, false, false, 0, 0, 0, 0, 0, 0, 0, 0, 0, true, none, 0, (0, 0), 0, false, 0⟩

/-- The SMBus slave (R533, R534): SMB_ALERT_N low, the STATUS bits last compared. -/
structure SmbSt where
  alert : Bool
  last : Nat
  deriving DecidableEq, Repr

/-- The state: `gone` keeps the reasons of pairs without an entry (R249, R255), `early` the transmit EVENTs of pairs without one,
as (TAG, GEN, port, arrival) (R282), `owed` the DELIVERY records that wait (R281). -/
structure State where
  pending : List Instr
  free : Nat
  cyc : Nat
  order : Nat
  regs : List (Nat × Word)
  shadow : List (Nat × Word)
  staging : List (Nat × Word)
  posted : List (Nat × Posted)
  landed : List Landed
  cycle : CycLog
  mem : List Host.Cell
  time : TimeSt
  seal_ : SealSt
  fcol : FcolSt
  snap : SnapSt
  scs : List (Nat × Sc)
  fods : List (Nat × Fod)
  refs : List (Nat × Ref)
  dps : List (Nat × Dp)
  scr : Scr
  lanes : List (Nat × LaneSt)
  ports : List (Nat × PortSt)
  ingress : List Ing
  gone : List (Nat × Bool × Nat × Int)
  early : List (Nat × Bool × Nat × Nat)
  owed : List Owed
  rings : List (Nat × RingSt)
  corrPause : Bool
  tdcFail : Nat
  groups : Nat
  wits : List (Nat × WitSt)
  coreAwake : Bool
  standby : Bool
  mateReady : Bool
  mate : MateSt
  nvs : NvsSt
  cal : CalSt
  cmd : CmdSt
  dmas : List (Nat × DmaSt)
  dmaLast : Nat
  seqs : List (Nat × SeqSt)
  pwr : PwrSt
  smb : SmbSt
  pcieUp : Bool
  msix : List (Nat × Word)
  pba : Nat
  nvsLoaded : Bool
  out : List Out
  deriving DecidableEq, Repr

/-- Plain after POR: device time 0 from the first AON boundary on, NOT_SET, not yet started (R67, R70). -/
def timeInit : TimeSt :=
  { started := false, plain := 0, aon := 0, y := 0, ybase := 0, dpWord := 0, clamped := false, yslew := 0, slewRem := 0,
    interp := false, notSet := true, holdover := false, leapPend := false, landed := 0, slewSince := some 0, queue := [],
    flags := [], ppsOwed := [], ppsMax := 0, ppsPulse := 0, ppsFrom := [], ppsInv := 0,
    outHigh := 0, copyAt := [] }

/-- Scrim after POR: no pass, nothing compared (R60, R63). -/
def sealInit : SealSt :=
  { passOn := false, passVoid := false, voidRun := 0, match_ := false, matched := true,
    passValid := false, passOrder := 0, loaded := false, holdFrom := 0 }

/-- Watershed after POR: nothing queued, pending, fenced or shadowed (R436). -/
def fcolInit : FcolSt :=
  { queues := [], fenced := [], pend := [], lastKind := [], windows := [], scFods := [], intake := 0, safe := false,
    buffer := [] }

/-- The snapshot trigger after POR (R445). -/
def snapInit : SnapSt :=
  { id := 0, busy := false, t := 0, inst := 0, queue := [], lastIn := none, ppsCount := 0, later := [] }

/-- The machine right after power-on reset: every register at its Reset or factory value (R20), no command waiting. -/
def State.reset : State :=
  { pending := [], free := 0, cyc := 0, order := 0, regs := [], shadow := [], staging := [], posted := [], landed := [],
    cycle := ⟨false, 0, 0, []⟩, mem := [],
    time := timeInit, seal_ := sealInit, fcol := fcolInit, snap := snapInit, scs := [], fods := [], refs := [],
    dps := [], scr := scrInit, lanes := [], ports := [], ingress := [], gone := [], early := [], owed := [], rings := [],
    corrPause := false, tdcFail := 0, groups := 0, wits := [], coreAwake := false, standby := true, mateReady := false,
    mate := mateInit, nvs := ⟨[], none⟩, cal := ⟨calibInit, false, false, 0, none, [], [], 0, [], 0⟩,
    cmd := ⟨[], List.range 62, [], [], []⟩, dmas := [], dmaLast := 15, seqs := [], pwr := pwrInit,
    smb := ⟨false, 0⟩, pcieUp := false, msix := [], pba := 0, nvsLoaded := false, out := [] }

end Sys2Proof.Machine
end

