-- ==== Sys2Proof/Machine/Ops.lean ====
section
/-!
DEFINITION. The named operations that every family uses: registers and their fields, diagnostic counters (R453),
fault reports (R415, R416), device time and its formats (R13 to R16, R70), events of the sequencers (R305), MSI-X
messages, messages to the mate (R465), queues of timed actions (R80), memory.
-/
namespace Sys2Proof.Machine

open Sys2Proof

/-- A field taken from the free values of Config, each value used once: the counter that the next one is applied to. -/
def takeFree (s : State) : Nat × State := (s.free, { s with free := s.free + 1 })

-- registers

/-- The word that State holds at a normal-view offset. -/
def rd (s : State) (off : Nat) : Word := mget regReset s.regs off

/-- The same as a number. -/
def rn (s : State) (off : Nat) : Nat := (rd s off).toNat

/-- The state with the word at an offset. -/
def wr (s : State) (off v : Nat) : State := { s with regs := mput regReset s.regs off (wd v) }

/-- Bits [lo + n - 1 : lo] of a register. -/
def rb (s : State) (off lo n : Nat) : Nat := bits (rn s off) lo n

/-- Bit n of a register. -/
def rbit (s : State) (off n : Nat) : Bool := (rn s off).testBit n

/-- The state with the n bits at lo of a register. -/
def wb (s : State) (off lo n v : Nat) : State := wr s off (setBits (rn s off) lo n v)

/-- The state with bits of a register set. -/
def orBits (s : State) (off m : Nat) : State := wr s off (rn s off ||| m)

/-- The state with bits of a register cleared. -/
def clrBits (s : State) (off m : Nat) : State := wr s off (clr (rn s off) m)

/-- A value of k 32-bit words, lowest at the lowest address (R8). -/
def rL (s : State) (off : Nat) : Nat → Nat
  | 0 => 0
  | k + 1 => rn s off + 2 ^ 32 * rL s (off + 4) k

/-- Write of a value of k 32-bit words. -/
def wL (s : State) (off : Nat) : Nat → Nat → State
  | 0, _ => s
  | k + 1, v => wL (wr s off (v % 2 ^ 32)) (off + 4) k (v / 2 ^ 32)

/-- A value of k WM words, 16 bits each (R40). -/
def rM (s : State) (off : Nat) : Nat → Nat
  | 0 => 0
  | k + 1 => rn s off % 65536 + 65536 * rM s (off + 4) k

/-- Write of a value of k WM words. -/
def wM (s : State) (off : Nat) : Nat → Nat → State
  | 0, _ => s
  | k + 1, v => wM (wr s off (v % 65536)) (off + 4) k (v / 65536)

/-- A field of which a written 0 acts as 1. -/
def atLeast1 (v : Nat) : Nat := if v = 0 then 1 else v

-- device time

/-- Ticks in a second. -/
def secTicks : Nat := 65536 * 1000000000

/-- Sub-ticks in a second (R65). -/
def secSub : Nat := secTicks * 2 ^ 32

/-- Sub-ticks of a core cycle under the rate word y (R65, R70). -/
def cycleSub (y : Int) : Int := 65536 * 2 ^ 32 + y

/-- The increment of an AON boundary (R65). -/
def aonSub (y : Int) : Int := 6553600 * 2 ^ 32 + 100 * y

/-- Plain's modulus: 48-bit seconds (R65). -/
def plainMod : Nat := secSub * 2 ^ 48

/-- Plain moved by a signed number of sub-ticks, modulo its range. -/
def plainAdd (p : Nat) (d : Int) : Nat := ((p + d) % plainMod).toNat

/-- Device time of the present instant in sub-ticks: Plain at the last boundary and `cyc` core cycles (R70). -/
def nowSub (s : State) : Nat := plainAdd s.time.plain (s.cyc * cycleSub s.time.y)

/-- Device time of the present instant in ticks, truncated. -/
def nowT (s : State) : Nat := nowSub s / 2 ^ 32

/-- Device time of the present instant in ticks, exact. -/
def nowR (s : State) : Rat := (nowSub s : Rat) / 2 ^ 32

/-- The part of a boundary's increment that a slew contributes, zero against the sign of the remaining amount (R77). -/
def slewExtra (x : TimeSt) : Int :=
  let e := 100 * (x.y - x.ybase)
  if (0 < x.slewRem ∧ 0 < e) ∨ (x.slewRem < 0 ∧ e < 0) then e else 0

/-- What the next boundary adds to Plain, and the slew that remains after it (R65, R77): a remaining amount smaller than
the extra increment is added exactly. -/
def boundaryInc (x : TimeSt) : Int × Int :=
  let e := slewExtra x
  if x.slewRem = 0 then (aonSub x.y, 0)
  else if x.slewRem.natAbs < e.natAbs then (aonSub x.ybase + x.slewRem, 0)
  else (aonSub x.y, x.slewRem - e)

/-- The same in SAFE, where Y_slew is 0 and the remaining amount is kept (R69). -/
def tickInc (s : State) : Int × Int :=
  if s.fcol.safe then (aonSub s.time.ybase, s.time.slewRem) else boundaryInc s.time

/-- Device time at the end of the present AON period. -/
def nextT (s : State) : Nat := plainAdd s.time.plain (tickInc s).1 / 2 ^ 32

/-- The present core cycle, counted from POR. -/
def cycNo (s : State) : Nat := s.time.aon * 100 + s.cyc

/-- The value a read gives: interpolated, or coarse with the ticks 0 (R70, R71). -/
def readT (s : State) : Nat :=
  if s.time.interp then nowT s else s.time.plain / 2 ^ 32 / 65536 * 65536

/-- The state at core cycle k of the present AON period; cycles do not run back (R34, R70). -/
def atCyc (s : State) (k : CycIx) : State := { s with cyc := max s.cyc k.val }

/-- The R74 flags in force. -/
def timeFlags (s : State) : Nat :=
  b2n (!s.time.interp) + 2 * b2n s.time.notSet + 4 * b2n s.time.holdover + 8 * b2n (decide (s.time.slewRem ≠ 0))

/-- The R74 flags that were in force at a device time in ticks, from the changes kept (R74); a device time that Plain has
read twice takes those of its later reading (log entry 141). -/
def flagsAt (s : State) (t : Int) : Nat :=
  match s.time.flags.find? (fun p => decide ((p.2.1 : Int) ≤ t)) with
  | some p => p.2.2
  | none => match s.time.flags.getLast? with
    | some p => p.2.2
    | none => timeFlags s

/-- Enters the flags now in force in the list of changes, and forgets changes of more than 2 ms ago but the newest. -/
def pushFlags (s : State) : State :=
  let c := cycNo s
  let young (p : Nat × Nat × Nat) : Bool := decide (c ≤ p.1 + 2000000)
  { s with time := { s.time with flags :=
      (c, nowT s, timeFlags s) :: (s.time.flags.filter young ++ (s.time.flags.filter (fun p => !young p)).take 1) } }

/-- Notes the flags now in force where they changed (R74). -/
def noteFlags (s : State) : State :=
  match s.time.flags with
  | p :: _ => if p.2.2 = timeFlags s then s else pushFlags s
  | [] => pushFlags s

/-- T_FRAC, T_NS, T_SECL, T_SECH of a tick count (R14). -/
def tFrac (t : Nat) : Nat := t % 65536
def tNs (t : Nat) : Nat := t / 65536 % 1000000000
def tSec (t : Nat) : Nat := t / secTicks % 2 ^ 48

/-- The four words of T-format as one number, with flags at [19:16] of the lowest (R14, R74). -/
def tFormat (t flags : Nat) : Nat :=
  (tFrac t + flags * 65536) + tNs t * 2 ^ 32 + tSec t * 2 ^ 64

/-- The ticks of a T-format value. -/
def tOf (v : Nat) : Nat := bits v 0 16 + bits v 32 30 * 65536 + bits v 64 48 * secTicks

/-- ST of a device time in ticks (R16). -/
def stOf (t : Int) : Nat := tw 64 t

/-- The resolved due time of an ST value, in ticks (R80). -/
def resolveDue (s : State) (st : Nat) : Int := nowT s + sx 64 (tw 64 ((st : Int) - nowT s))

/-- A rational tick count truncated to the Nat range of Plain. -/
def ratT (q : Rat) : Nat := (rfloor q).toNat

-- messages

/-- Folds a function over the numbers 0 … n - 1. -/
def upto {σ : Type} (n : Nat) (f : σ → Nat → σ) (s : σ) : σ := (List.range n).foldl f s

/-- The endpoint's own words at reset (R531, R532): the MSI-X table by word, every vector masked; from 0x1000 on the configuration
space by word, of which R531 gives the identification, the class code and the kinds of BAR0 and BAR2. -/
def endpointInit (k : Nat) : Word :=
  if k = 0x1000 then 0x01281F6B
  else if k = 0x1002 then 0x11100000
  else if k = 0x1004 ∨ k = 0x1006 then 4
  else if k < 0x1000 ∧ k % 4 = 3 then 1 else 0

/-- Sends MSI-X vector v, or leaves it pending in the PBA while the link is down or the vector is masked (R532). -/
def sendMsix (s : State) (v : Nat) : State :=
  if s.pcieUp ∧ ¬ (mget endpointInit s.msix (4 * v + 3)).getLsbD 0 then
    { s with out := .msix v :: s.out }
  else { s with pba := s.pba ||| 2 ^ v }

/-- What leaves the module. -/
def emit (s : State) (o : Out) : State := { s with out := o :: s.out }

/-- NODE_ID of the module: its slot while it is not assigned (R488). -/
def nodeId (s : State) : Nat :=
  if rbit s (rMATE 0x14) 15 then rb s (rMATE 0x14) 0 14 else b2n s.mate.slotB

/-- Sends a message on every mate lane that is up, with the sender's NODE_ID and a sequence number (R465). With
PAIR = 0 the lanes are not used (R459). -/
def mateSend (s : State) (type : Nat) (fields : List Int) : State :=
  if ¬ rbit s (rMATE 0) 0 then s
  else
    let f := (nodeId s : Int) :: (s.mate.txSeq : Int) :: fields
    let s1 := if s.mate.lane0 then emit s (.mate 0 type f) else s
    let s2 := if s.mate.lane1 then emit s1 (.mate 1 type f) else s1
    if s.mate.lane0 ∨ s.mate.lane1 then { s2 with mate := { s2.mate with txSeq := (s2.mate.txSeq + 1) % 256 } } else s2

/-- Whether a message of the mate is the first copy of its sequence number: of those taken in the last 10 AON boundaries none has it
(R465, log entry 202). -/
def rxNew (s : State) (q : BitVec 8) : Bool := s.mate.rx.all (fun p => decide (p.1 ≠ q.toNat ∨ p.2 + 10 < s.time.aon))

/-- The state that has taken a message of a sequence number. -/
def rxNote (s : State) (q : BitVec 8) : State :=
  { s with mate := { s.mate with
    rx := (q.toNat, s.time.aon) :: s.mate.rx.filter (fun p => decide (s.time.aon ≤ p.2 + 10)) } }

/-- Sends a message on one mate lane. -/
def mateSendOn (s : State) (lane type : Nat) (fields : List Int) : State :=
  if ¬ rbit s (rMATE 0) 0 then s
  else
    let s1 := emit s (.mate lane type ((nodeId s : Int) :: (s.mate.txSeq : Int) :: fields))
    { s1 with mate := { s1.mate with txSeq := (s1.mate.txSeq + 1) % 256 } }

-- faults and counters

/-- Places a report in its source's queue when there is room (R416). -/
def enqueue (s : State) (r : Report) : State :=
  { s with fcol := { s.fcol with
      queues := mput (fun _ => []) s.fcol.queues r.src (mget (fun _ => []) s.fcol.queues r.src ++ [r]) } }

/-- Whether a source's intake queue is full (R416). -/
def queueFull (s : State) (src : Nat) : Bool := decide (4 ≤ (mget (fun _ => []) s.fcol.queues src).length)

/-- A report as it crosses now: interpolated or coarse time (R416). -/
def mkReport (s : State) (src kind addr master access : Nat) (forced : Bool) : Report :=
  { src := src, kind := kind, addr := addr % 2 ^ 24, master := master, access := access, forced := forced,
    time := readT s, tflags := timeFlags s }

/-- The value of a diagnostic counter, of two WM words or one 32-bit word (R453). -/
def cntGet (s : State) (off : Nat) (wm : Bool) : Nat := if wm then rM s off 2 else rn s off

/-- The state with a diagnostic counter's value. -/
def cntSet (s : State) (off : Nat) (wm : Bool) (v : Nat) : State := if wm then wM s off 2 v else wr s off v

/-- What a saturation does but for its report (R453). -/
def noteSat (s : State) (off : Nat) : State :=
  let s := orBits s 0x180 1
  let s := if rn s 0x188 = 0 then wr s 0x184 off else s
  if rn s 0x188 = ones 32 then s else wr s 0x188 (rn s 0x188 + 1)

/-- Adds n to a diagnostic counter without a report: the state, and whether this made it saturate. -/
def bumpRaw (s : State) (off n : Nat) (wm : Bool) : State × Bool :=
  let v := cntGet s off wm
  if v = ones 32 then (s, false)
  else
    let v' := min (v + n) (ones 32)
    if v' = ones 32 then (noteSat (cntSet s off wm v') off, true) else (cntSet s off wm v', false)

/-- Files a report: its queue takes it, or the loss is counted in FCOL_CNT and FCOL_LOST_CNT and LOST is set (R416).
A counter that saturates on the way files its own report; `fuel` bounds that nesting, which ends because a counter
saturates once. -/
def fileReport : Nat → State → Report → State
  | 0, s, _ => s
  | fuel + 1, s, r =>
    if queueFull s r.src then
      let a := bumpRaw s (rFCOL (0x4000 + 4 * r.src)) 1 false
      let s := if a.2 then fileReport fuel a.1 (mkReport a.1 srcCnt kSaturated (rFCOL (0x4000 + 4 * r.src)) 0 0 false)
        else a.1
      let b := bumpRaw s (rFCOL 0x34) 1 false
      let s := if b.2 then fileReport fuel b.1 (mkReport b.1 srcCnt kSaturated (rFCOL 0x34) 0 0 false) else b.1
      orBits s (rFCOL 0x04) 0x100
    else enqueue s r

/-- Raises a fault report (R415). -/
def raise (s : State) (src kind addr : Nat) (master : Nat := 0) (access : Nat := 0) : State :=
  fileReport 6 s (mkReport s src kind addr master access false)

/-- Raises a fault report that carries the device time of an earlier or later instant, in ticks (R224). -/
def raiseAt (s : State) (src kind addr : Nat) (t : Int) : State :=
  fileReport 6 s { mkReport s src kind addr 0 0 false with time := t.toNat, tflags := flagsAt s t }

/-- Adds n to the 32-bit diagnostic counter at an offset (R453). -/
def bump (s : State) (off : Nat) (n : Nat := 1) : State :=
  let a := bumpRaw s off n false
  if a.2 then raise a.1 srcCnt kSaturated off else a.1

/-- Adds n to the diagnostic counter of two WM words at an offset (R453). -/
def bumpM (s : State) (off : Nat) (n : Nat := 1) : State :=
  let a := bumpRaw s off n true
  if a.2 then raise a.1 srcCnt kSaturated off else a.1

/-- Sets event bit b of core n, counting a coalesced occurrence (R305). -/
def evtBit (s : State) (n b : Nat) : State :=
  let off := rSEQ n (0x30 + 4 * (b / 32))
  if rbit s off (b % 32) then bump s (rSEQ n 0x38) else orBits s off (2 ^ (b % 32))

/-- Whether an event bit reaches the cores of a STANDBY module from the active module (R317, R474). -/
def evtMirrored (b : Nat) : Bool := decide (b = 10 ∨ b = 11 ∨ 16 ≤ b ∧ b < 32)

-- same-cycle updates (R21, R56)

/-- Whether software writes the register at an offset in the present core cycle. -/
def softWrote (s : State) (off : Nat) : Bool :=
  decide (s.cycle.aon = s.time.aon) && decide (s.cycle.cyc = s.cyc) && s.cycle.offs.contains off

/-- Notes a software write of the register at an offset, while the write under way is to be noted. -/
def noteWrite (s : State) (off : Nat) : State :=
  if s.cycle.on then { s with cycle := { s.cycle with offs := off :: s.cycle.offs } } else s

/-- A hardware update of a field whose outcome is "SW wins, flagged": discarded, with the DISCARD flag of the block, where
software writes the register at `off` in the same cycle (R21, R56). -/
def hwUpdate (s : State) (off stat flag : Nat) (f : State → State) : State :=
  if softWrote s off then orBits s stat flag else f s

/-- The order of entry with which a change meets the counts that converted ahead of it: that of the queued action that
asked for it, or the present one where none was queued (R235). -/
def sinceOr (s : State) (q : Option Nat) : Nat := q.getD s.order

/-- The later of two orders of entry, none where one of the two was not queued. -/
def sinceMax (a b : Option Nat) : Option Nat :=
  match a, b with
  | some x, some y => some (max x y)
  | _, _ => none

/-- Whether a source is fenced (R421). -/
def srcFenced (s : State) (n : Nat) : Bool := s.fcol.fenced.contains n

-- instances

/-- SC n. -/
def sc (s : State) (n : Nat) : Sc := mget (fun _ => scInit) s.scs n
/-- The state with SC n. -/
def setSc (s : State) (n : Nat) (x : Sc) : State := { s with scs := mput (fun _ => scInit) s.scs n x }
/-- FOD n. -/
def fod (s : State) (n : Nat) : Fod := mget fodInit s.fods n
/-- The state with FOD n. -/
def setFod (s : State) (n : Nat) (x : Fod) : State := { s with fods := mput fodInit s.fods n x }
/-- The FOD `x` in place of `o` from t on: a change of RUNNING or ALIGNED is kept with its instant (R446). -/
def flagsWere (t : Rat) (o x : Fod) : Fod :=
  if o.running = x.running ∧ o.aligned = x.aligned then x
  else { x with was := (t, o.running, o.aligned) :: o.was.take 3 }
/-- RUNNING and ALIGNED of an FOD at an instant (R446). -/
def flagsOf (x : Fod) (t : Rat) : Bool × Bool :=
  match (x.was.filter (fun p => decide (t < p.1))).getLast? with
  | some p => p.2
  | none => (x.running, x.aligned)
/-- Reference i. -/
def ref (s : State) (i : Nat) : Ref := mget (fun _ => refInit) s.refs i
/-- The state with reference i. -/
def setRef (s : State) (i : Nat) (x : Ref) : State := { s with refs := mput (fun _ => refInit) s.refs i x }
/-- DPLL d. -/
def dp (s : State) (d : Nat) : Dp := mget (fun _ => dpInit) s.dps d
/-- The state with DPLL d. -/
def setDp (s : State) (d : Nat) (x : Dp) : State := { s with dps := mput (fun _ => dpInit) s.dps d x }
/-- Lane l. -/
def lane (s : State) (l : Nat) : LaneSt := mget (fun _ => laneInit) s.lanes l
/-- The state with lane l. -/
def setLane (s : State) (l : Nat) (x : LaneSt) : State := { s with lanes := mput (fun _ => laneInit) s.lanes l x }
/-- Port p. -/
def port (s : State) (p : Nat) : PortSt := mget (fun _ => portInit) s.ports p
/-- The state with port p. -/
def setPort (s : State) (p : Nat) (x : PortSt) : State := { s with ports := mput (fun _ => portInit) s.ports p x }
/-- Ring n. -/
def ring (s : State) (n : Nat) : RingSt := mget (fun _ => ringInit) s.rings n
/-- The state with ring n. -/
def setRing (s : State) (n : Nat) (x : RingSt) : State := { s with rings := mput (fun _ => ringInit) s.rings n x }
/-- DMA channel c. -/
def dma (s : State) (c : Nat) : DmaSt := mget (fun _ => dmaInit) s.dmas c
/-- The state with DMA channel c. -/
def setDma (s : State) (c : Nat) (x : DmaSt) : State := { s with dmas := mput (fun _ => dmaInit) s.dmas c x }
/-- Core n. -/
def seqc (s : State) (n : Nat) : SeqSt := mget (fun _ => seqInit) s.seqs n
/-- The state with core n. -/
def setSeqc (s : State) (n : Nat) (x : SeqSt) : State := { s with seqs := mput (fun _ => seqInit) s.seqs n x }
/-- The hop entry e of an FOD. -/
def hopEnt (x : Fod) (e : Nat) : HopEnt := mget (fun _ => hopZero) x.hops e
/-- The FOD with a hop entry. -/
def setHopEnt (x : Fod) (e : Nat) (h : HopEnt) : Fod := { x with hops := mput (fun _ => hopZero) x.hops e h }

-- what the mate mirrors (R474)

/-- The number under which a block's posted write in flight stands (R47): TIME, FCOL, NVS, PWR, MATE, then SC0 to SC7. -/
def postKey (b : Blk) (inst : Nat) : Nat :=
  match b with
  | .time => 0
  | .fcol => 1
  | .nvs => 2
  | .pwr => 3
  | .mate => 4
  | _ => 5 + inst

/-- BUSY of a block with posted registers (R47, R48). -/
def postBusy (s : State) (key : Nat) : Bool := s.posted.any (fun p => decide (p.1 = key))

/-- Whether the present UTC second is 23:59:60 (R87). -/
def leapNow (s : State) : Bool :=
  s.time.leapPend && decide (rb s (rTIME 0x74) 0 2 = 1) &&
  decide (tSec (s.time.plain / 2 ^ 32) + 1 = rL s (rTIME 0x78) 2)

/-- The bits of TIME_STATUS that the block forms (R91). -/
def timeBits (s : State) : Nat :=
  b2n (postBusy s 0) + 2 * b2n s.time.notSet + 4 * b2n (!s.time.interp) + 8 * b2n s.time.holdover +
    16 * b2n (decide (s.time.slewRem ≠ 0)) + 32 * b2n s.time.leapPend + 64 * b2n (leapNow s)

/-- Whether DP0 steers phase and time: a time reference and FREQONLY = 0 (R200, R201). -/
def timeMode (s : State) : Bool :=
  match (dp s 0).sel with
  | some (_, i) => !isFreqRef i && !rbit s (rDP 0 0) 6
  | none => false

/-- The bits of DP_STATUS that the DPLL forms (R217). -/
def dpBits (s : State) (d : Nat) : Nat :=
  let x := dp s d
  x.st % 8 + 8 * b2n x.phLock + 16 * b2n x.frLock + 32 * b2n x.bwClamp + 64 * b2n x.psl +
    128 * b2n (decide (d = 0 ∧ (x.st = 1 ∨ x.st = 2)) && timeMode s)

/-- Whether a DPLL has a reference selected (R216). -/
def refSelected (s : State) (i : Nat) : Bool := (List.range 4).any (fun d => decide ((dp s d).sel.map (·.2) = some i))

/-- The words of the mirrored registers, by offset (R474): TIME_STATUS, REF_STATUS, REF_PHASE_ERR, REF_FOFF and REF_LABEL of
every reference, DP_STATUS, DP_SEL, DP_FREQ and DP_PHERR of every DPLL, the Screed registers. -/
def mirrorRegs (s : State) : List (Nat × Nat) :=
  let plain (o : Nat) : Nat × Nat := (o, rn s o)
  (rTIME 4, rn s (rTIME 4) + timeBits s) ::
  ((List.range 144).flatMap (fun i => (rREF i 4, rn s (rREF i 4) + 8 * b2n (refSelected s i)) ::
    [0x50, 0x54, 0x58, 0x5C, 0x60, 0x64, 0x80, 0x84, 0x88].map (fun o => plain (rREF i o))) ++
  (List.range 4).flatMap (fun d => (rDP d 4, rn s (rDP d 4) + dpBits s d) ::
    [0x0C, 0x64, 0x68, 0x6C, 0x7C, 0x80, 0x84].map (fun o => plain (rDP d o))) ++
  (List.range 20).map (fun k => plain (rSCR (4 * k))))

/-- The same as the fields of a message, behind their number. -/
def mirrorFields (s : State) : List Int :=
  ((mirrorRegs s).length : Int) :: (mirrorRegs s).flatMap (fun p => [(p.1 : Int), (p.2 : Int)])

/-- An occurrence that every core sees (R305). A shadowing core of a STANDBY module discards its own occurrences of the
mirrored bits; an ACTIVE module sends them to the mate, with the mirrored registers (R317, R465, R474). -/
def event (s : State) (b : Nat) : State :=
  let s := upto 8 (fun s n =>
    if evtMirrored b ∧ s.standby ∧ rbit s (rSEQ n 0) 3 then s else evtBit s n b) s
  if evtMirrored b ∧ ¬ s.standby then mateSend s 0x85 ([((2 ^ b : Nat) : Int), (readT s : Int)] ++ mirrorFields s) else s

-- queues

/-- Enters an action whose due time is given in ST: resolved now, LATE when that time has passed (R80). -/
def mkAct (s : State) (st : Nat) (core : Option Nat) (k : ActKind) : QAct :=
  let due := resolveDue s st
  let now : Int := nowT s
  { due := due, late := if due < now then some (now - due) else none, seqNo := s.order, core := core, kind := k,
    held := false, stepped := false }

/-- Order of execution: by due time, then by order of entry (R79, R138). -/
def actBefore (a b : QAct) : Bool := decide (a.due < b.due) || (decide (a.due = b.due) && decide (a.seqNo < b.seqNo))

/-- The action that a queue executes first, and the rest. -/
def firstAct : List QAct → Option (QAct × List QAct)
  | [] => none
  | a :: t => match firstAct t with
    | none => some (a, [])
    | some (b, r) => if actBefore b a then some (b, a :: r) else some (a, t)

/-- Lateness in ns, saturating at 0xFFFF_FFFF (R83). -/
def lateNs (ticks : Int) : Nat := min (ticks / 65536).toNat (ones 32)

/-- The events that an executed action sets in its issuing core (R300). -/
def actEvents (s : State) (a : QAct) (lateOrStepped hop : Bool) : State :=
  match a.core with
  | none => s
  | some n =>
    let s := evtBit s n 12
    let s := if lateOrStepped then evtBit s n 13 else s
    if hop then evtBit s n 14 else s

-- memory (BAR2)

/-- A byte of the BAR2 space; a byte that nothing has written reads 0 (log entry 2). -/
def mb (s : State) (a : Nat) : Byte := mget (fun _ => (0 : Byte)) s.mem a

/-- The state with a byte of the BAR2 space. -/
def setMb (s : State) (a : Nat) (b : Byte) : State := { s with mem := mput (fun _ => (0 : Byte)) s.mem a b }

/-- n bytes from an address. -/
def mbs (s : State) (a n : Nat) : List Byte := (List.range n).map (fun i => mb s (a + i))

/-- The state with bytes from an address on. -/
def setMbs (s : State) (a : Nat) : List Byte → State
  | [] => s
  | b :: t => setMbs (setMb s a b) (a + 1) t

/-- A little-endian word of memory. -/
def mw (s : State) (a : Nat) : Nat := leNat (mbs s a 4)

end Sys2Proof.Machine
end

