-- ==== Sys2Proof/Machine/Lath.lean ====
section
/-!
DEFINITION. The phase ledger (R236 to R238) and the edges it describes: the period of an output, the device time of a
cycle, the next edge, and the writing of change records. The edges of an output stand nowhere but in its ledger.
-/
namespace Sys2Proof.Machine

open Sys2Proof

/-- What causes a report: a software write (the register written and its master), or none of these, when the address
is the unit's status register (R546). -/
abbrev Cause := Option (Nat × Nat)

/-- Raises a report with the address of R546. -/
def raiseC (s : State) (src kind stat : Nat) (cz : Cause) : State :=
  match cz with
  | some (off, m) => raise s src kind off m 2
  | none => raise s src kind stat

/-- A ratio from its seven WM words NI, NF, NM (R94). -/
def ratioAt (s : State) (off : Nat) : Nat × Nat × Nat :=
  (rn s off % 512, rM s (off + 4) 3 % 2 ^ 40, rM s (off + 16) 3 % 2 ^ 40)

/-- The value NI + NF/NM; NM = 0 reads as NI (such a ratio is not valid, R94). -/
def ratioVal (r : Nat × Nat × Nat) : Rat := (r.1 : Rat) + (r.2.1 : Rat) / (r.2.2 : Rat)

/-- The ratio in force of an SC (R106). -/
def scQ (s : State) (n : Nat) : Rat := ratioVal (ratioAt s (rSC n 0x10))

/-- R94: NM ≥ 1, NF < NM, 100 ≤ Q ≤ 132. -/
def ratioOk (r : Nat × Nat × Nat) : Bool :=
  decide (1 ≤ r.2.2) && decide (r.2.1 < r.2.2) && decide (100 ≤ ratioVal r) && decide (ratioVal r ≤ 132)

/-- D = N + F/M. -/
def divVal (n f m : Nat) : Rat := (n : Rat) + (f : Rat) / (m : Rat)

/-- Ticks of an input period of an FOD on an SC of ratio Q: f_in = 50 MHz × Q (R94, R125). -/
def inPeriod (q : Rat) : Rat := 1310720 / q

/-- The nominal output period in ticks (R125). -/
def nomPeriod (n f m o : Nat) (q : Rat) : Rat := divVal n f m * (o : Rat) * inPeriod q

/-- R126 against a ratio in force. -/
def comboOk (n f m o : Nat) (q : Rat) : Bool :=
  decide (3 ≤ n ∧ n ≤ 4095 ∧ 1 ≤ m ∧ f < m ∧ m < 2 ^ 40 ∧ 1 ≤ o ∧ o < 2 ^ 32) &&
  decide (40960 ≤ nomPeriod n f m o q)

/-- MASTER of an SC (R97). -/
def scMaster (s : State) (n : Nat) : Nat := rb s (rSC n 0) 1 3

/-- Whether an output is aligned in the sense of R132: ALIGN = 1 and MASTER = 0 in force on its SC. -/
def alignMode (s : State) (n : Nat) (x : Fod) : Bool := rbit s (rFOD n 0) 1 && decide ((sc s x.sc).master = 0)

/-- What a slew of Plain does to the device-time period of an output that is not aligned (R68, R137). -/
def plainRatio (s : State) : Rat :=
  if s.time.y = s.time.ybase then 1 else ((2 : Rat) ^ 48 + s.time.y) / ((2 : Rat) ^ 48 + s.time.ybase)

/-- The same for FOD n: an aligned output follows the slew (R137). -/
def plainFactor (s : State) (n : Nat) (x : Fod) : Rat := if alignMode s n x then 1 else plainRatio s

/-- The sign of a rational. -/
def rsign (q : Rat) : Rat := if 0 < q then 1 else if q < 0 then -1 else 0

/-- What the slews in progress add to the period, as a fraction (R136). -/
def slewRate (x : Fod) : Rat := rsign x.pRem * x.pRate + rsign x.tRem * x.tRate

/-- The PFD cycle in ticks of device time, 10 core cycles (R26, R93). -/
def pfdT (s : State) : Rat := (10 * cycleSub s.time.y : Int) / 2 ^ 32

/-- The uncompensated ramp of SC k that is under way, where there is one (R109). -/
def rampOf (s : State) (k : Nat) : Option Retune :=
  match (sc s k).retune with
  | some r => if r.band ∨ r.comp then none else some r
  | none => none

/-- The instantaneous ratio of SC k at a device time: the linear ramp of R109 where an uncompensated one is under way. -/
def ratioNow (s : State) (k : Nat) (t : Rat) : Rat :=
  match rampOf s k with
  | none => scQ s k
  | some r =>
    let d := (t - r.from_) / ((r.j : Rat) * pfdT s)
    let d := if d < 0 then 0 else if 1 < d then 1 else d
    r.q0 + (r.q - r.q0) * d

/-- The device-time period of an FOD's output at a ratio of its core, as its other settings stand, in ticks. -/
def periodAt (s : State) (n : Nat) (x : Fod) (q : Rat) : Rat :=
  nomPeriod x.n x.f x.m x.o q * plainFactor s n x * (1 + slewRate x)

/-- The device-time period of an FOD's output as its settings stand and its core's ratio in force, in ticks. -/
def fodPeriod (s : State) (n : Nat) (x : Fod) : Rat := periodAt s n x (scQ s x.sc)

/-- The output periods of a span of `d` ticks in which the core's ratio goes linearly from q to q', T being the period at
q (R109). -/
def rampPhase (d T q q' : Rat) : Rat := d / T * (1 + q' / q) / 2

/-- The period and the slope per cycle of an output from its edge at u on (R112, R236): during an uncompensated ramp the
slope with which the law meets the exact linear ramp at its end (log entry 144). -/
def lawFrom (s : State) (n : Nat) (x : Fod) (u : Rat) : Rat × Rat :=
  let q := ratioNow s x.sc u
  let T := periodAt s n x q
  match rampOf s x.sc with
  | none => (T, 0)
  | some r =>
    let d := r.from_ + (r.j : Rat) * pfdT s - u
    let k := rampPhase d T q r.q
    if k ≤ 1 then (T, 0) else (T, 2 * (d - k * T) / (k * (k - 1)))

/-- The trail offset accrued on an SC over (t0, t1], in ticks (R100, R237): entries of the microseconds from t0's on
up to t1's. -/
def trailOver (x : Sc) (t0 t1 : Rat) : Rat :=
  let a := (rfloor (t0 / 65536000)).toNat
  let b := (rfloor (t1 / 65536000)).toNat
  let sum : Int := x.trail.foldl (fun acc e => if a ≤ e.1 ∧ e.1 < b then acc + e.2 else acc) 0
  (sum : Rat) * 6553600 / 2 ^ 48

/-- The time of cycle c from a record and the anchors after it, before the trail (R237). -/
def lawAt (r : ChRec) (as : List Anchor) (c : Int) : Rat :=
  let k : Rat := ((c - r.cycle : Int) : Rat)
  as.foldl (fun t a => if r.cycle < a.cycle ∧ a.cycle ≤ c then t + a.step else t)
    (r.time + k * r.period + k * (k - 1) / 2 * r.slope)

/-- The instant from which the trail counts towards cycle c: the newest of its record and the anchors up to it (R237). -/
def trailFrom (r : ChRec) (as : List Anchor) (c : Int) : Rat :=
  as.foldl (fun b a => if r.cycle < a.cycle ∧ a.cycle ≤ c ∧ b < a.time then a.time else b) r.time

/-- The device time of the edge that begins cycle c by a record and the anchors after it, the trail taken off (R237). -/
def edgeAt (s : State) (r : ChRec) (as : List Anchor) (c : Int) : Rat :=
  let t := lawAt r as c
  t - trailOver (sc s r.on) (trailFrom r as c) t

/-- The record that governs a cycle: the newest with c_r ≤ c (R237). -/
def govern (recs : List ChRec) (c : Int) : Option ChRec := recs.find? (fun r => decide (r.cycle ≤ c))

/-- The record with which a count of a cycle converts: the governing one, or the record of a hop for the transitional cycle
before its E1 (R183, R237). -/
def converts (recs : List ChRec) (c : Int) : Option ChRec :=
  recs.find? (fun r => decide (r.cycle ≤ c) || (decide (r.kind = 3) && decide (r.cycle = c + 1)))

/-- The time of the edge that begins cycle c under the ledger, 0 where there is none. -/
def lawOf (s : State) (recs : List ChRec) (as : List Anchor) (c : Int) : Rat :=
  match govern recs c with
  | some r => edgeAt s r as c
  | none => match recs.getLast? with
    | some r => edgeAt s r as c
    | none => 0

/-- Bisection: with f lo < t ≤ f hi for a rising f, the least c in (lo, hi] with t ≤ f c. -/
def bisect (f : Int → Rat) (t : Rat) : Nat → Int → Int → Int
  | 0, _, hi => hi
  | k + 1, lo, hi =>
    if hi - lo ≤ 1 then hi
    else
      let mid := (lo + hi) / 2
      if t ≤ f mid then bisect f t k lo mid else bisect f t k mid hi

/-- The first output edge at or after t, for t not before the newest record was written: the edge of the newest
record where that lies ahead, else by its law. None where the output has no ledger. -/
def edgeFrom (s : State) (recs : List ChRec) (as : List Anchor) (t : Rat) : Option (Int × Rat) :=
  match recs with
  | [] => none
  | r :: _ =>
    if t ≤ r.time then some (r.cycle, r.time)
    else
      let hi := r.cycle + 2 * rceil ((t - r.time) / r.period) + 4
      let c := bisect (edgeAt s r as) t 100 r.cycle hi
      some (c, edgeAt s r as c)

/-- The first output edge after t. -/
def edgeAfter (s : State) (recs : List ChRec) (as : List Anchor) (t : Rat) : Option (Int × Rat) :=
  match edgeFrom s recs as t with
  | some (c, u) => if u = t then some (c + 1, lawOf s recs as (c + 1)) else some (c, u)
  | none => none

/-- The last output edge at or before t. -/
def edgeBefore (s : State) (recs : List ChRec) (as : List Anchor) (t : Rat) : Option (Int × Rat) :=
  match edgeAfter s recs as t with
  | some (c, _) => some (c - 1, lawOf s recs as (c - 1))
  | none => none

/-- The first output edge at or after an instant that may lie in the past of the newest record (R446). -/
def histEdge (s : State) : List ChRec → List Anchor → Rat → Option (Int × Rat)
  | [], _, _ => none
  | [r], as, t => edgeFrom s [r] as t
  | r :: r' :: rest, as, t =>
    if r.time ≤ t then edgeFrom s [r] as t
    else if r'.time ≤ t then
      match edgeFrom s [r'] as t with
      | some (c, u) => if r.cycle ≤ c then some (r.cycle, r.time) else some (c, u)
      | none => none
    else histEdge s (r' :: rest) as t

/-- Whether a cycle lies among the anchors of its record that are no longer held: the steps up to it are lost (R237, R238;
log entry 128). -/
def anchorGone (recs : List ChRec) (r : ChRec) (as : List Anchor) (c : Int) : Bool :=
  (as.drop 32).any (fun a => decide (r.cycle < a.cycle ∧ a.cycle ≤ c)) &&
  (as.drop 32).any (fun a => decide (c < a.cycle) && decide ((govern recs a.cycle).map (·.cycle) = some r.cycle))

/-- τ(c) by a record, or none for STALE_COUNT (R237). -/
def tauBy (s : State) (recs : List ChRec) (as : List Anchor) (r : Option ChRec) (c : Int) : Option Rat :=
  match r with
  | none => none
  | some r => if anchorGone recs r as c then none else some (edgeAt s r as c)

/-- τ(c) of a count of an FOD under one numbering (R183, R237). -/
def tauIn (s : State) (recs : List ChRec) (as : List Anchor) (c : Int) : Option Rat :=
  tauBy s recs as (converts recs c) c

/-- τ(c) of an output edge of an FOD in its present numbering (R237, R446). -/
def tau (s : State) (n : Nat) (c : Int) : Option Rat :=
  tauBy s (fod s n).recs (fod s n).anchors (govern (fod s n).recs c) c

/-- Change records of the last 1 ms before t (R175, R238). -/
def recsWithin (x : Fod) (t : Rat) : Nat := (x.recs.filter (fun r => decide (t - 65536000000 < r.time))).length

/-- The order in which kinds that meet at one edge give the one record its kind (R136). -/
def kindRank (k : Nat) : Option Nat :=
  if k = 13 then some 0 else if k = 15 then some 1 else if k = 4 then some 2 else if k = 5 then some 3
  else if k = 6 then some 4 else none

/-- Ports whose PORT_FOD names FOD n. -/
def portsOf (s : State) (n : Nat) : List Nat := (List.range 128).filter (fun p => decide (rb s (rPORT p 0x0C) 0 7 = n))

/-- LEAD_MISS for the converted transmit counts of the edges from t on that a change meets which was asked for after they
converted; the edge at t is among them where the change moves it. `since` is the order of entry at which the change was recorded
or queued (R235). -/
def leadMiss (s : State) (n : Nat) (t : Rat) (moved : Bool) (since : Nat) : State :=
  let x := fod s n
  let late (p : Nat × Rat × Nat) : Bool := decide (t < p.2.1 ∨ moved ∧ t = p.2.1) && decide (p.2.2 ≤ since)
  (x.leads.filter late).foldl (fun s p =>
    let s := bumpM s (rPORT p.1 0x8C)
    let s := orBits s (rPORT p.1 0x04) 0x200
    let z := lane s (p.1 / 8)
    let s := setLane s (p.1 / 8) { z with slots := z.slots.map (fun e =>
      if e.ev.tx ∧ e.ev.pil.val = p.1 % 8 ∧ e.tau = some p.2.1 then
        { e with stamp := { e.stamp with flags := e.stamp.flags ||| 16 } }
      else e) }
    raise s (srcEl (p.1 / 8)) kLeadMiss p.1) (setFod s n { x with leads := x.leads.filter (fun p => !late p) })

/-- The active module's anchor of FOD n in the newest checkpoint (R469, R470, R476). -/
def mateAnchor (s : State) (n : Nat) : Option CkptAnchor :=
  match s.mate.ckpt with
  | some c => c.anchors.find? (fun a => decide (a.fod.val = n))
  | none => none

/-- Sends a Lath record to the mate where this module owns the clock of a port of the FOD (R465, R483). -/
def ledgerOut (s : State) (n : Nat) (fields : List Int) : State :=
  if rbit s (rMATE 0) 0 ∧ (s.mate.lane0 ∨ s.mate.lane1) ∧
      (portsOf s n).any (fun p => rbit s (rMATE (0x100 + 4 * (p / 32))) (p % 32) == s.mate.slotB) then
    mateSend s 0x88 ((n : Int) :: fields)
  else s

/-- A change record for the mate. -/
def ledgerSend (s : State) (n : Nat) (r : ChRec) : State :=
  ledgerOut s n [(r.kind : Int), (r.info : Int), r.cycle, rfloor r.time, rfloor (r.period * 2 ^ 32), rfloor (r.slope * 2 ^ 64)]

/-- The accumulated steering-trail offset of SC k, in ticks (R236). -/
def trailSum (s : State) (k : Nat) : Rat := ((sc s k).trailTotal : Rat) * 6553600 / 2 ^ 48

/-- Puts a change record in front of the ledger, of which the newest 64 are held; LATH_SHORT for a 65th within 1 ms
(R238), with the register of the software write that causes it (R546). -/
def addRec (s : State) (n : Nat) (r : ChRec) (cz : Cause) : State :=
  let x := fod s n
  let short := (x.recs.drop 63).any (fun q => decide (r.time - 65536000000 < q.time))
  let s := ledgerSend (setFod s n { x with recs := r :: x.recs.take 63, recSeq := x.recSeq + 1 }) n r
  if short then raiseC s (srcFod n) kLathShort (rFOD n 0x04) cz else s

/-- The record that two phase moves at one edge give (R136): the newer period, the kind that comes first. -/
def mergeRec (r q : ChRec) (k k' : Nat) : ChRec :=
  { q with
    kind := if k < k' then q.kind else r.kind
    info := if q.kind = 13 ∧ r.kind = 13 then r.info + q.info else if k < k' then q.info else r.info
    seqNo := r.seqNo }

/-- Writes a change record of FOD n at its edge (R30, R236), with the period and slope of its settings as they stand: one
record for phase moves that meet at one edge (R136), LEAD_MISS for a change asked for after a conversion: it takes effect at
the edge as it stood before (R235). `inst` is the instant of the change itself. -/
def pushRecAt (s : State) (n kind info : Nat) (cycle : Int) (time : Rat) (since : Nat) (inst : Rat)
    (cz : Cause := none) : State :=
  let old := match (fod s n).recs with
    | [] => time
    | _ => lawOf s (fod s n).recs (fod s n).anchors cycle
  let s := leadMiss s n old (decide (old ≠ time)) since
  let x := fod s n
  let l := lawFrom s n x time
  let q : ChRec := ⟨kind, info, x.recSeq % 65536, cycle, time, l.1, l.2, trailSum s x.sc, inst, x.sc⟩
  match x.recs, kindRank kind with
  | r :: rest, some k =>
    match kindRank r.kind with
    | some k' =>
      if r.cycle = cycle then ledgerSend (setFod s n { x with recs := mergeRec r q k k' :: rest }) n (mergeRec r q k k')
      else addRec s n q cz
    | none => addRec s n q cz
  | _, _ => addRec s n q cz

/-- The same for a change that acts at its edge. -/
def pushRec (s : State) (n kind info : Nat) (cycle : Int) (time : Rat) (since : Nat) (cz : Cause := none) : State :=
  pushRecAt s n kind info cycle time since time cz

/-- Adds an anchor that is no longer held to those before it: of one record's, the first stays and the later ones sum up
(R238; log entry 128). -/
def anchorFold (recs : List ChRec) (d : Anchor) (l : List Anchor) : List Anchor :=
  let key (a : Anchor) : Option Int := (govern recs a.cycle).map (·.cycle)
  let l := match l with
    | a :: b :: t => if key a = key d ∧ key b = key d then { d with step := d.step + a.step } :: b :: t else d :: a :: b :: t
    | _ => d :: l
  l.filter (fun a => (key a).isSome)

/-- The anchors that stay when a further one comes: 31 held, and those no longer held (R238). -/
def anchorsKept (recs : List ChRec) (l : List Anchor) : List Anchor :=
  match l[31]? with
  | some d => l.take 31 ++ anchorFold recs d (l.drop 32)
  | none => l

/-- Writes a witness anchor, of which 32 are held (R238). -/
def pushAnchor (s : State) (n : Nat) (cycle : Int) (step time : Rat) : State :=
  let x := fod s n
  let a : Anchor := ⟨cycle, step, time, trailSum s x.sc, x.recSeq % 65536⟩
  ledgerOut (setFod s n { x with
    anchors := a :: anchorsKept x.recs x.anchors, recSeq := x.recSeq + 1, anchorT := some time })
    n [0, 0, cycle, rfloor time, rfloor (step * 2 ^ 32)]

/-- Sets FP_STATUS.RANGE for the front-panel copies of FOD n that would run above 250 MHz (R526). -/
def rangeCheck (s : State) (n : Nat) : State :=
  let x := fod s n
  upto 8 (fun s i =>
    if rb s (0x200 + 4 * i) 0 2 = 2 ∧ rb s (0x200 + 4 * i) 8 7 = n ∧ x.running ∧
        nomPeriod x.n x.f x.m x.o (scQ s x.sc) < 262144 then orBits s 0x260 (2 ^ i) else s) s

/-- Judges SLOW of every port that counts FOD n, at the instant t (R224): the period of a running output above 100 ns. A
stopped output is not SLOW (log entry 150). -/
def slowJudge (s : State) (n : Nat) (t : Rat) : State :=
  let x := fod s n
  let slow := x.running && decide (6553600 < nomPeriod x.n x.f x.m x.o (scQ s x.sc))
  (portsOf s n).foldl (fun s p =>
    let was := rbit s (rPORT p 4) 6
    if slow ∧ ¬ was then raiseAt (orBits s (rPORT p 4) 0x40) (srcEl (p / 8)) kStaleCount p (rfloor t)
    else if ¬ slow ∧ was then clrBits s (rPORT p 4) 0x40
    else s) (setFod s n { x with slowDue := none })

/-- SLOW of an output's ports where its change has reached its edge (R224). -/
def slowSettle (s : State) (n : Nat) : State :=
  match (fod s n).slowDue with
  | none => s
  | some t => if t ≤ nowR s then slowJudge s n t else s

/-- After a change of an output: RANGE of its copies, and SLOW of its ports at the output edge from which the change takes
effect (R224, R526). -/
def slowCheck (s : State) (n : Nat) : State :=
  let s := rangeCheck s n
  let x := fod s n
  match x.recs with
  | r :: _ => if x.running ∧ nowR s < r.time then setFod s n { x with slowDue := some r.time } else slowJudge s n (nowR s)
  | [] => slowJudge s n (nowR s)

/-- What has grown of a slew by a device time (R136). -/
def slewGrown (rem rate from_ t : Rat) : Rat :=
  let d := rate * (t - from_)
  let d := if d < 0 then 0 else d
  if 0 < rem then (if rem < d then rem else d) else if rem < 0 then (if -rem < d then rem else -d) else 0

/-- Brings the slews of an FOD to a device time (R136): the amounts grown by then leave the remainders, and the phase
slew's part joins φ. -/
def foldSlew (x : Fod) (t : Rat) : Fod :=
  let p := slewGrown x.pRem x.pRate x.pFrom t
  let q := slewGrown x.tRem x.tRate x.tFrom t
  { x with phi := x.phi + p, pRem := x.pRem - p, pFrom := t, tRem := x.tRem - q, tFrom := t
           grown := if x.pRem = 0 ∧ x.tRem = 0 then 0 else x.grown + p + q }

/-- The phase slew rate that a slew starts at (R136, R157): 0 acts as 1, above 26 843 as 26 843. -/
def pslewRate (s : State) (n : Nat) : Rat :=
  let v := atLeast1 (rb s (rFOD n 0x58) 0 16)
  ((if 26843 < v then 26843 else v : Nat) : Rat) / 2 ^ 28

/-- The effective step of a DTC in ticks: 0.25 ps (R130). -/
def dtcStep : Rat := 2048 / 125

/-- Where a DTC puts an edge whose ideal position is t, with the residue carried into it, and the residue that it carries on
(R130; log entry 188). -/
def dtcPlace (res t : Rat) : Rat × Rat :=
  let p := (rround ((t + res) / dtcStep) : Rat) * dtcStep
  (p, t + res - p)

/-- The residue after the edges from cycle c on that lie before `hi` (R130). -/
def dtcGo (s : State) (x : Fod) (hi : Rat) : Nat → Int → Rat → Rat
  | 0, _, res => res
  | k + 1, c, res =>
    let u := lawOf s x.recs x.anchors c
    if u < hi then dtcGo s x hi k (c + 1) (dtcPlace res u).2 else res

/-- The edges that the DTC of FOD n places in the AON period that ends at device time `hi` (R130): at most 161, of 1.6 GHz. -/
def dtcRun (s : State) (n : Nat) (hi : Rat) : State :=
  let x := fod s n
  match histEdge s x.recs x.anchors ((s.time.plain : Rat) / 2 ^ 32) with
  | none => s
  | some (c, _) => setFod s n { x with dtcRes := dtcGo s x hi 161 c x.dtcRes }

/-- The placed position of the next edge of FOD n (R130). -/
def dtcEdge (s : State) (n : Nat) : Option Rat :=
  (edgeFrom s (fod s n).recs (fod s n).anchors (nowR s)).map (fun e => (dtcPlace (fod s n).dtcRes e.2).1)

/-- Reduces a time modulo T into (-T/2, T/2] (R132, R137, R165). -/
def reduceHalf (a T : Rat) : Rat :=
  let r := a - T * (rfloor (a / T) : Rat)
  if r ≤ T / 2 then r else r - T

end Sys2Proof.Machine
end

