-- ==== Sys2Proof/Machine/FodOps.lean ====
section
/-!
DEFINITION. The shared operations of synthesis cores and output dividers: waking and sleeping, divide changes and
conversions, phase moves, tracking, starting and stopping outputs (R113, R116, R127 to R147).
-/
namespace Sys2Proof.Machine

open Sys2Proof

/-- Raises a fault of FOD n (R546). -/
def raiseFod (s : State) (n kind : Nat) (cz : Cause) : State :=
  raiseC s (srcFod n) kind (rFOD n (if 0x0B ≤ kind ∧ kind ≤ 0x0E then 0xDC else 0x04)) cz

/-- EN of an FOD. -/
def fodEn (s : State) (n : Nat) : Bool := rbit s (rFOD n 0) 0

/-- Whether SC k is retuning: from the start of a ramp or band change to LOCK_SET (R109, R115, R123; the example of R115
shows RETUNING = 1 at the end of the ramp). -/
def scRetuning (s : State) (k : Nat) : Bool := (sc s k).retune.isSome || decide ((sc s k).deadline = some .change)

/-- Whether an enabled FOD selects SC k (R108, R116). -/
def scUsed (s : State) (k : Nat) : Bool :=
  (List.range 128).any (fun n => fodEn s n && (decide ((fod s n).sc = k) || decide ((fod s n).insel = some k)))

/-- Whether power-up calibration holds SCs and groups awake (R386). -/
def calHolds (s : State) : Bool := s.cal.on && s.cal.power

/-- Whether SC k is to be awake (R116, R386): not before the persistent configuration has loaded (R106), nor while BCLK
sleeps, in AON_ONLY (R27, R496, R505). -/
def scWanted (s : State) (k : Nat) : Bool :=
  s.nvsLoaded && decide (2 ≤ rb s (rPWR 4) 1 3) && (scUsed s k || (rbit s (rSC k 0) 0 && !(sc s k).fenced) ||
  (calHolds s && (List.range 128).any (fun n => decide ((fod s n).sc = k))))

/-- Wakes SC k: a band calibration for the ratio in force (R102, R104, R116). LOCK_FAST clears with it (log entry 145). -/
def wakeSc (s : State) (k : Nat) : State :=
  let x := sc s k
  setSc s k { x with
    awake := true, deadline := some .wake, bandcal := some .wake, lockSet := false, lockFast := false, ds := [] }

/-- Puts SC k to sleep (R102, R116), LOCK_FAST with it (log entry 145). -/
def sleepSc (s : State) (k : Nat) : State :=
  let x := sc s k
  setSc s k { x with awake := false, deadline := none, bandcal := none, lockSet := false, lockFast := false }

/-- Wakes and sleeps every SC as R116 asks. A ramp in progress completes first (R122); a band change that has not locked goes
on at the next wake (log entry 189). -/
def scWakeEval (s : State) : State :=
  upto 8 (fun s k =>
    let x := sc s k
    if scWanted s k ∧ ¬ x.awake then wakeSc s k
    else if ¬ scWanted s k ∧ x.awake ∧ x.retune.all (·.band) then sleepSc s k
    else s) s

/-- Whether group g is to be awake (R143, R386). -/
def groupWanted (s : State) (g : Nat) : Bool :=
  calHolds s || rbit s 0x408000 g || (List.range 8).any (fun i => fodEn s (8 * g + i))

/-- Puts to sleep the groups that nothing wants (R143). -/
def groupEval (s : State) : State :=
  upto 16 (fun s g => if s.groups.testBit g ∧ ¬ groupWanted s g then { s with groups := clr s.groups (2 ^ g) } else s) s

/-- D × factor as N, F, M in lowest terms, when representable (R113). -/
def convertDiv (n f m : Nat) (factor : Rat) : Option (Nat × Nat × Nat) :=
  let d := divVal n f m * factor
  let i := rfloor d
  let fr := d - (i : Rat)
  if 3 ≤ i ∧ i ≤ 4095 ∧ fr.den < 2 ^ 40 then some (i.toNat, fr.num.toNat, fr.den) else none

/-- Hardware writes registers of FOD k, at these offsets of its block, with the outcome "HW wins, rejected" (R21, R56): a software
write of the same cycle that came before counts as rejected, one that comes after is refused (log entry 121). -/
def hwWins (s : State) (k : Nat) (offs : List Nat) : State :=
  let s := setFod s k { fod s k with
    hw := offs.map (fun o => (cycNo s, o)) ++ (fod s k).hw.filter (fun p => decide (p.1 = cycNo s)) }
  if offs.any (fun o => softWrote s (rFOD k o)) then bumpM s (rFOD k 0x84) else s

/-- Writes the divide fields as hardware does: registers and combination in force, DIV_INVALID cleared (R127, R157). -/
def hwDiv (s : State) (k n f m o : Nat) : State :=
  let s := hwWins s k [0x14, 0x18, 0x24, 0x30]
  let s := wM (wM (wM (wM s (rFOD k 0x14) 1 n) (rFOD k 0x18) 3 f) (rFOD k 0x24) 3 m) (rFOD k 0x30) 2 o
  setFod s k { fod s k with n := n, f := f, m := m, o := o, divInvalid := false }

/-- Notes that an FOD's hop table changed, for the next checkpoint (R476). -/
def markHops (s : State) (k : Nat) : State :=
  if s.mate.hopsChanged.contains k then s
  else { s with mate := { s.mate with hopsChanged := s.mate.hopsChanged ++ [k] } }

/-- The number under which a commit of hop entry e of FOD k is noted (R177). -/
def hopKey (k e : Nat) : Nat := rFOD k 0xA4 + 2 ^ 24 * (1 + e)

/-- The entry e of FOD k as a hop or a conversion of this cycle meets it: where software commits it in the same cycle, as it
stood before the commit (R162, R177). -/
def hopBefore (s : State) (k e : Nat) : HopEnt :=
  match softWrote s (hopKey k e), (fod s k).hopWas with
  | true, some (i, h) => if i = e then h else hopEnt (fod s k) e
  | _, _ => hopEnt (fod s k) e

/-- An update of a hop entry by hardware: the software value stands where software commits the entry in the same cycle, and
DISCARD is set (R177). -/
def hopUpdate (s : State) (k e : Nat) (f : State → State) : State := hwUpdate s (hopKey k e) (rFOD k 0xDC) 0x2000 f

/-- Converts every VALID hop entry of an FOD by a factor (R176, R177). -/
def convertHops (s : State) (k : Nat) (factor : Rat) : State :=
  markHops (upto 16 (fun s e =>
    let h := hopBefore s k e
    if h.valid then hopUpdate s k e (fun s =>
      match convertDiv h.n h.f h.m factor with
      | some (n, f, m) => setFod s k (setHopEnt (fod s k) e { h with n := n, f := f, m := m })
      | none =>
        let s := setFod s k (setHopEnt (fod s k) e { h with valid := false })
        raiseFod (orBits s (rFOD k 0xDC) 0x400) k kHopScale none)
    else s) s) k

/-- FMT_RANGE and FORMAT_RANGE where the output runs above its format's frequency (R146). -/
def formatCheck (s : State) (n : Nat) (cz : Cause) : State :=
  let x := fod s n
  let fmt := rb s (rFOD n 0x0C) 0 2
  let lim : Rat := if fmt = 1 then 163840 else if fmt = 2 then 40960 else 65536
  if x.running ∧ nomPeriod x.n x.f x.m x.o (scQ s x.sc) < lim then
    raiseFod (orBits s (rFOD n 0x04) 0x2000) n kFormatRange cz
  else s

/-- The end of the present core cycle (R127). -/
def cycEnd (s : State) : Rat := (plainAdd s.time.plain ((s.cyc + 1) * cycleSub s.time.y) : Rat) / 2 ^ 32

/-- Brings a running output to new settings from the first divider edge at or after t: the record's first cycle is the next
output edge, reached over the divider edges left of the period in progress at the new divider period (R127, R129). -/
def redivide (s : State) (k : Nat) (y : Fod) (kind info : Nat) (t : Rat) (since : Nat) (cz : Cause) : State :=
  let x := fod s k
  match edgeFrom s x.recs x.anchors t with
  | none => setFod s k y
  | some (c, u) =>
    let td := (lawFrom s k x t).1 / (x.o : Rat)
    let i := rfloor ((u - t) / td)
    let e := u - (i : Rat) * td
    let e' := if e < x.divFrom then x.divFrom else e
    let i' : Rat := if e < x.divFrom then ((rround ((u - x.divFrom) / td) : Int) : Rat) else (i : Rat)
    let td' := (lawFrom s k y e').1 / (y.o : Rat)
    pushRec (setFod s k { y with divFrom := e' }) k kind info c (e' + i' * td') since cz

/-- Whether the combination of an FOD is valid on SC c (R126). -/
def comboOn (s : State) (x : Fod) (c : Nat) : Bool := comboOk x.n x.f x.m x.o (scQ s c)

/-- The check and effect of a commit of a divide value (R127). -/
def divCommit (s : State) (k : Nat) (cz : Cause) : State :=
  let x := fod s k
  let n := rn s (rFOD k 0x14) % 4096
  let f := rM s (rFOD k 0x18) 3
  let m := rM s (rFOD k 0x24) 3
  let o := rM s (rFOD k 0x30) 2
  if comboOk n f m o (scQ s x.sc) then
    let y := { x with n := n, f := f, m := m, o := o, divInvalid := false }
    let s := if x.running then redivide s k y 2 0 (cycEnd s) s.order cz else setFod s k y
    formatCheck (slowCheck s k) k cz
  else setFod s k { x with divInvalid := true }

/-- Moves the edges of an output by a step at the first output edge at or after t, the edges growing on with a slew in
progress: omission where the period would fall below T/2 (R135, R136). -/
def stepEdges (s : State) (k : Nat) (d t : Rat) (kind : Nat) (since : Nat) (cz : Cause := none) : State :=
  let x := fod s k
  if x.running then
    match edgeFrom s x.recs x.anchors t with
    | none => s
    | some (c, u) =>
      let T := (lawFrom s k x u).1
      let d' := d * (1 + slewRate x)
      if d < 0 ∧ T + d < T / 2 then
        let m := rceil (-d / T - 1 / 2)
        let m := if m < 0 then 0 else m
        pushRec s k 13 m.toNat c (u + (m : Rat) * T + d') since cz
      else pushRec s k kind 0 c (u + d') since cz
  else s

/-- Writes the record of a change of the slews at t: from the first output edge whose unshifted time is at or after t the
edges move at the new rate (R136). `x` is the FOD with the slews changed, `old` the rate before. -/
def slewEdges (s : State) (k : Nat) (x : Fod) (old t : Rat) (kind : Nat) (since : Nat) (cz : Cause := none) : State :=
  let y := fod s k
  let s' := setFod s k x
  if y.running then
    match edgeFrom s y.recs y.anchors (t + x.grown) with
    | none => s'
    | some (c, v) => pushRec s' k kind 0 c (v + (slewRate x - old) * (v - t - x.grown) / (1 + old)) since cz
  else s'

/-- The instant at which a slew reaches its amount, none where it stands still (R136). -/
def slewDone (rem rate from_ : Rat) : Option Rat :=
  if rem = 0 ∨ rate = 0 then none else some (from_ + (if rem < 0 then -rem else rem) / rate)

/-- The instant at which the first of an FOD's slews ends, and the order of entry at which that slew was queued, none for one
that was not. -/
def slewNext (x : Fod) : Option (Rat × Option Nat) :=
  match slewDone x.pRem x.pRate x.pFrom, slewDone x.tRem x.tRate x.tFrom with
  | some a, some b => some (if b < a then (b, x.tSince) else (a, x.pSince))
  | some a, none => some (a, x.pSince)
  | none, some b => some (b, x.tSince)
  | none, none => none

/-- The slew of an FOD that ends first reaches its exact amount (R136). -/
def slewFinish (s : State) (k : Nat) : State :=
  let x := fod s k
  match slewNext x with
  | none => s
  | some (t, since) => slewEdges s k (foldSlew x t) (slewRate x) t 6 (sinceOr s since)

/-- The slews that have ended by t have ended (R136). -/
def slewSettle (s : State) (k : Nat) (t : Rat) : State :=
  upto 2 (fun s _ => match slewNext (fod s k) with
    | some (e, _) => if e ≤ t then slewFinish s k else s
    | none => s) s

/-- Whether φ would leave its 48-bit range (R134). -/
def phaseOut (phi : Rat) : Bool := decide (phi < -(2 ^ 47) ∨ (2 : Rat) ^ 47 ≤ phi)

/-- A phase step of φ (R134, R135). During a slew its range is judged without what is left of the slew (log entry 185). -/
def phaseStep (s : State) (k : Nat) (amt : Int) (t : Rat) (cz : Cause) (since : Nat) : State :=
  let s := slewSettle s k t
  let x := foldSlew (fod s k) t
  if phaseOut (x.phi + amt) then raiseFod s k kPhaseRange cz
  else
    let s := setFod s k { x with phi := x.phi + amt }
    if amt = 0 then s else stepEdges s k amt t 4 since cz

/-- ALIGNED ends while a slew is in progress (R140). -/
def slewingOff (t : Rat) (x : Fod) : Fod :=
  if x.pRem = 0 ∧ x.tRem = 0 then x else flagsWere t x { x with aligned := false }

/-- A phase slew of φ (R134, R136): one that leaves no amount ends a slew in progress. `since`: the order of entry of a queued
one. -/
def phaseSlew (s : State) (k : Nat) (amt : Int) (t : Rat) (cz : Cause) (since : Option Nat) : State :=
  let s := slewSettle s k t
  let x := fod s k
  let y := foldSlew x t
  let rem := y.pRem + amt
  if phaseOut (y.phi + rem) then raiseFod s k kPhaseRange cz
  else if amt = 0 then s
  else slewEdges s k (slewingOff t { y with
      pRem := rem, pRate := pslewRate s k, pSince := (if y.pRem = 0 then since else sinceMax y.pSince since) }) (slewRate x) t
    (if rem = 0 then 6 else 5) (sinceOr s since) cz

/-- The end of a phase slew by PSTOP (R134, R136). -/
def phaseStop (s : State) (k : Nat) (t : Rat) (since : Nat) (cz : Cause) : State :=
  let s := slewSettle s k t
  let x := fod s k
  let y := foldSlew x t
  if y.pRem = 0 then setFod s k y else slewEdges s k { y with pRem := 0 } (slewRate x) t 6 since cz

/-- A phase slew in progress stops where it is, its remaining amount kept: φ stays as it is in a fence and in SAFE (R153,
R155). A tracking slew, which leaves φ alone, goes on (log entry 101). -/
def phaseFreeze (s : State) (k : Nat) (t : Rat) : State :=
  let s := slewSettle s k t
  let x := fod s k
  let y := foldSlew x t
  if y.pRem = 0 then setFod s k y else slewEdges s k { y with pRate := 0 } (slewRate x) t 6 s.order

/-- A phase slew that a fence stopped goes on at the end of the fence (R154; log entry 101). -/
def phaseResume (s : State) (k : Nat) (t : Rat) : State :=
  let s := slewSettle s k t
  let x := fod s k
  let y := foldSlew x t
  if y.pRem = 0 then s else slewEdges s k { y with pRate := pslewRate s k } (slewRate x) t 5 s.order

/-- A change of FOD_PSLEW_RATE meets the slews in progress (R52, R136; log entry 51). -/
def slewRerate (s : State) (k : Nat) (cz : Cause) : State :=
  let t := nowR s
  let s := slewSettle s k t
  let x := fod s k
  let y := foldSlew x t
  let r := pslewRate s k
  let z := { y with pRate := if x.frozen then y.pRate else r, tRate := r }
  if y.pRem = 0 ∧ y.tRem = 0 then s
  else slewEdges s k z (slewRate x) t (if y.pRem = 0 then 15 else 5) s.order cz

/-- A change of FOD_ODLY moves the launch of every later edge of a running output, φ staying as it is (R52, R133; log entry
130). -/
def odlySet (s : State) (k : Nat) (cz : Cause) : State :=
  let x := fod s k
  let adv := sx 16 (rb s (rFOD k 0x74) 0 16)
  if ¬ x.running ∨ adv = x.odly then s
  else stepEdges (setFod s k { x with odly := adv }) k ((x.odly - adv : Int) : Rat) (cycEnd s) 4 s.order cz

/-- A tracking move by s: a step or a slew by TRKSLEW, with a TRACK record (R132, R136, R137). `since`: the order of entry of a
queued change. -/
def trackMove (st : State) (k : Nat) (amt t : Rat) (since : Option Nat) (cz : Cause := none) : State :=
  if amt = 0 then st
  else if rbit st (rFOD k 0) 2 then
    let st := slewSettle st k t
    let x := fod st k
    let y := foldSlew x t
    slewEdges st k (slewingOff t { y with
        tRem := y.tRem + amt, tRate := pslewRate st k, tSince := if y.tRem = 0 then since else sinceMax y.tSince since })
      (slewRate x) t 15 (sinceOr st since) cz
  else stepEdges st k amt t 15 (sinceOr st since) cz

/-- During a slew of Plain, the time-scale entry of an output that begins or ceases to follow it, `old` being the factor that the
slew gave its period before: its edges from t on have the new period (R68, R132, R137). -/
def plainTurn (s : State) (k : Nat) (old t : Rat) : State :=
  let x := fod s k
  let new := plainFactor s k x
  if ¬ x.running ∨ new = old then s
  else match edgeFrom s x.recs x.anchors t with
    | none => s
    | some (c, u) => pushRec s k 7 0 c (t + (u - t) * (new / old)) s.order

/-- The alignment move of an output that becomes aligned (R132). -/
def alignMove (s : State) (k : Nat) (t : Rat) (cz : Cause) : State :=
  let s := slewSettle s k t
  let x := foldSlew (fod s k) t
  if x.running then
    match edgeFrom s x.recs x.anchors t with
    | none => s
    | some (_, e) =>
      let T := nomPeriod x.n x.f x.m x.o (scQ s x.sc)
      trackMove s k (reduceHalf (x.phi - (x.odly : Rat) - e) T) t none cz
  else s

/-- The start condition of FOD k (R142). -/
def startCond (s : State) (k : Nat) : Bool :=
  let c := sc s (fod s k).sc
  c.awake && (c.lockSet || (rbit s (rFOD k 0) 3 && c.lockFast &&
    (match c.retune with
    | some r => !r.band
    | none => true)))

/-- The conditions of R142 and R143 for a start, but for the start itself; the internal steps of power-up calibration hold every
output off (R386). -/
def startReady (s : State) (k : Nat) : Bool :=
  !calHolds s && fodEn s k && !(fod s k).running && comboOn s (fod s k) (fod s k).sc && s.groups.testBit (k / 8) && startCond s k

/-- Ticks of a microsecond. -/
def usT : Rat := 65536000

/-- Lets the driver be due at t, or 1 µs after it was last disabled if that is later (R144). -/
def driverDue (s : State) (k : Nat) (t : Rat) : State :=
  let x := fod s k
  let t := match x.offAt with
    | some o => if t < o + usT then o + usT else t
    | none => t
  setFod s k { x with startDue := some t }

/-- OEN becomes 1: the start instant plus 1 µs (R144). -/
def oenOn (s : State) (k : Nat) (t : Rat) (exact : Bool) : State :=
  if (fod s k).running then driverDue s k (if exact then t else t + usT)
  else setFod s k { fod s k with startDue := if exact then some t else none }

/-- Stops an FOD whose driver is disabled or whose combination is not valid; a driver that drives stops at its falling edge
first, whatever comes before that edge (R142, R145). -/
def fodHalt (s : State) (k : Nat) : State :=
  let x := fod s k
  if x.driving then setFod s k { x with halting := true }
  else setFod s k (flagsWere (nowR s) x { x with running := false, aligned := false, startDue := none })

/-- ALIGNED ends with the alignment of an FOD (R132, R140). A tracking slew under way goes on (log entry 184). -/
def alignOff (s : State) (k : Nat) : State :=
  setFod s k (flagsWere (nowR s) (fod s k) { fod s k with aligned := false })

/-- What a change of FOD_CTRL does (R116, R132, R142, R143). -/
def fodCtrlSet (s : State) (k old new : Nat) (cz : Cause) : State :=
  let s := if old % 2 = 1 ∧ new % 2 = 0 then fodHalt s k else s
  let s := groupEval (scWakeEval s)
  let m0 := decide ((sc s (fod s k).sc).master = 0)
  if ¬ old.testBit 1 ∧ new.testBit 1 ∧ m0 = true then alignMove (plainTurn s k (plainRatio s) (nowR s)) k (nowR s) cz
  else if old.testBit 1 ∧ ¬ new.testBit 1 then plainTurn (alignOff s k) k (if m0 then 1 else plainRatio s) (nowR s)
  else s

/-- What a change of FOD_OUT does (R144 to R146). -/
def fodOutSet (s : State) (k old new : Nat) (cz : Cause) : State :=
  let s := if ¬ old.testBit 2 ∧ new.testBit 2 then oenOn s k (nowR s) false
    else if old.testBit 2 ∧ ¬ new.testBit 2 then setFod s k { fod s k with startDue := none }
    else if new.testBit 2 ∧ bits old 0 2 + 4 * bits old 3 1 ≠ bits new 0 2 + 4 * bits new 3 1 ∧ (fod s k).driving then
      setFod s k { fod s k with cycleDrv := true }
    else s
  let s := if bits new 0 2 = 3 ∧ bits old 0 2 ≠ 3 then raiseFod s k kFormatRange cz else s
  if bits old 0 2 ≠ bits new 0 2 then formatCheck s k cz else s

/-- The candidate conditions of R118 of SC c against SC f, but for the divides. -/
def candidateOk (s : State) (c f : Nat) : Bool :=
  let x := sc s c
  x.awake && !x.fenced && !scRetuning s c && x.lockSet && decide (scMaster s c = scMaster s f)

/-- Switches the input of an FOD to SC c, keeping D or converting it (R129, R132, R142, R146, R176). On a core on which its
combination is not valid the output stops. -/
def switchInput (s : State) (k c : Nat) (conv : Option (Nat × Nat × Nat)) (cz : Cause) : State :=
  let s := slewSettle s k (cycEnd s)
  let x := fod s k
  let was := alignMode s k x
  let factor := scQ s c / scQ s x.sc
  let y := match conv with
    | some (n, f, m) => { x with sc := c, insel := none, n := n, f := f, m := m, divInvalid := false }
    | none => { x with sc := c, insel := none }
  let s := if x.running then redivide s k y (if conv.isSome then 10 else 2) 0 (cycEnd s) s.order cz else setFod s k y
  let s := match conv with
    | some (n, f, m) => convertHops (hwDiv s k n f m x.o) k factor
    | none => s
  let s := if comboOn s (fod s k) c then s else fodHalt (setFod s k { fod s k with divInvalid := true }) k
  let now := alignMode s k (fod s k)
  let s := if now ∧ ¬ was then alignMove s k (cycEnd s) cz
    else if was ∧ ¬ now then alignOff s k else s
  formatCheck (slowCheck (scWakeEval s) k) k cz

/-- Switches an FOD that waits for its new SC, where that is awake with LOCK_SET; a fenced FOD and one in SAFE keep their
input (R129, R153, R155). -/
def inputReady (s : State) (k : Nat) : State :=
  let x := fod s k
  match x.insel with
  | none => s
  | some c => if (sc s c).awake ∧ (sc s c).lockSet ∧ ¬ x.fenced ∧ ¬ s.fcol.safe then switchInput s k c none none else s

/-- The effect of a write of FOD_INSEL, `old` being the register before (R129): a COMP = 0 write of the input in force, none
waiting, changes nothing. -/
def inselSet (s : State) (k old : Nat) (cz : Cause) : State :=
  let v := rn s (rFOD k 0x10)
  let c := v % 8
  let x := fod s k
  let refuse (s : State) (code : Nat) : State :=
    let s := wr s (rFOD k 0x10) old
    let s := wb (orBits s (rFOD k 0x04) 0x400) (rFOD k 0x04) 11 2 code
    raiseFod s k kInselRefused cz
  if v.testBit 3 then
    if ¬ candidateOk s c x.sc then refuse s 1
    else match convertDiv x.n x.f x.m (scQ s c / scQ s x.sc) with
      | none => refuse s 2
      | some d => switchInput s k c (some d) cz
  else if c = x.sc then scWakeEval (setFod s k { x with insel := none })
  else if x.running ∧ ¬ ((sc s c).awake ∧ (sc s c).lockSet) then
    scWakeEval (setFod s k { x with insel := some c })
  else switchInput s k c none cz

end Sys2Proof.Machine
end

