-- ==== Sys2Proof/Machine/ScOps.lean ====
section
/-!
DEFINITION. The shared operations of retunes, band changes and re-homing (R104 to R120) and of hops (R164 to R183).
-/
namespace Sys2Proof.Machine

open Sys2Proof

/-- The first PFD edge at or after t; `strict` for the next one after t. -/
def pfdEdge (s : State) (t : Rat) (strict : Bool) : Rat :=
  let b : Rat := (s.time.plain : Rat) / 2 ^ 32
  let j := rceil ((t - b) / pfdT s)
  let u := b + (j : Rat) * pfdT s
  if strict ∧ u = t then u + pfdT s else u

/-- The FODs whose input in force is SC k. -/
def fodsOn (s : State) (k : Nat) : List Nat := (List.range 128).filter (fun n => decide ((fod s n).sc = k))

/-- The FODs whose FOD_INSEL names SC k (R118). -/
def fodsNaming (s : State) (k : Nat) : List Nat := (List.range 128).filter (fun n => decide (rb s (rFOD n 0x10) 0 3 = k))

/-- J of a ramp (R109). -/
def rampJ (s : State) (k : Nat) (q q' : Rat) : Nat :=
  let v := atLeast1 (rb s (rSC k 0x3C) 0 5)
  let j := (if 20 < v then 20 else v) * 100
  let need := (rceil ((if q' < q then q - q' else q' - q) * 200)).toNat
  max j need

/-- The first failing condition of R108 for a retune, as its code. `busy` asks for condition 3. -/
def retuneRefusal (s : State) (k slot : Nat) (comp busy : Bool) : Option Nat :=
  let r := ratioAt s (rSC k (0x40 + 0x20 * slot))
  let q := ratioVal r
  let x := sc s k
  let inBand := decide ((rn s (rSC k 0x104) : Rat) ≤ q * 256) && decide (q * 256 ≤ (rn s (rSC k 0x108) : Rat))
  if ¬ ratioOk r then some 1
  else if x.fenced then some 2
  else if busy ∧ scRetuning s k then some 3
  else if ¬ inBand ∧ scUsed s k then some 4
  else if comp ∧ (fodsOn s k).any (fun n =>
      (convertDiv (fod s n).n (fod s n).f (fod s n).m (q / scQ s k)).isNone) then some 5
  else none

/-- A refusal of a retune or band calibration (R108). -/
def scRefuse (s : State) (k code : Nat) (cz : Cause) : State :=
  let s := orBits s (rSC k 4) 0x1000
  let s := setSc s k { sc s k with refuse := code }
  raiseC s (srcSc k) (if code = 1 then kRatioInvalid else kRetuneRefused) (rSC k 4) cz

/-- Writes a plan's seven words into SC_RATIO. -/
def setRatio (s : State) (k : Nat) (r : Nat × Nat × Nat) : State :=
  wM (wM (wM s (rSC k 0x10) 1 r.1) (rSC k 0x14) 3 r.2.1) (rSC k 0x20) 3 r.2.2

/-- An FOD follows a compensated retune by its exact new divide (R113), and its table with it (R176). -/
def compFod (s : State) (n : Nat) (factor : Rat) : State :=
  let x := fod s n
  let s := match convertDiv x.n x.f x.m factor with
    | some d => hwDiv s n d.1 d.2.1 d.2.2 x.o
    | none => s
  convertHops s n factor

/-- Every FOD on SC k follows a compensated retune, a band change as well as a ramp (R108, R113; log entry 129). -/
def compFods (s : State) (k : Nat) (comp : Bool) (factor : Rat) : State :=
  if comp then (fodsOn s k).foldl (fun s n => compFod s n factor) s else s

/-- The cycle that follows the last edge that a stopped output drove, 0 where it has no ledger. -/
def stoppedCycle (s : State) (n : Nat) : Int :=
  let x := fod s n
  match edgeBefore s x.recs x.anchors (match x.offAt with
      | some t => t
      | none => nowR s) with
  | some (c, _) => c + 1
  | none => 0

/-- The time from the start of an uncompensated ramp to an output edge that lies `d` behind it under the law before: the phase
up to it is that of the exact linear ramp (R109). -/
def rampReach (s : State) (r : Retune) (d : Rat) : Rat :=
  2 * d / (1 + rsqrt (1 + 2 * (r.q - r.q0) / (r.q0 * (r.j : Rat) * pfdT s) * d))

/-- The Lath entry of a retune that starts at the PFD edge `t`, for an FOD that selects the SC (R112): of a running output at
its next edge, which an uncompensated ramp moves, of a stopped one behind the last edge that it drove. -/
def retuneRec (s : State) (n kind : Nat) (t : Rat) (since : Nat) : State :=
  let x := fod s n
  if x.running then
    match edgeFrom s x.recs x.anchors t with
    | some (c, u) => pushRecAt s n kind 0 c (match rampOf s x.sc with
        | some r => t + rampReach s r (u - t)
        | none => u) since t
    | none => s
  else pushRecAt s n kind 0 (stoppedCycle s n) t since t

/-- Starts a retune (R107 to R112, R117); t is the instant from which the next PFD edge is taken, `since` the order of entry of a
queued one. A refusal of an SC_RETUNE's action leaves its code for the command. -/
def retuneStart (s : State) (k slot : Nat) (comp busy : Bool) (handle : Option Nat) (t : Rat) (strict : Bool)
    (since : Option Nat) (cz : Cause) : State :=
  match retuneRefusal s k slot comp busy with
  | some code =>
    let s := scRefuse s k code cz
    match handle with
    | some h => setSc s k { sc s k with cmdRes := (h, code) :: (sc s k).cmdRes }
    | none => s
  | none =>
    let r := ratioAt s (rSC k (0x40 + 0x20 * slot))
    let q := ratioVal r
    let q0 := scQ s k
    let x := sc s k
    let inBand := decide ((rn s (rSC k 0x104) : Rat) ≤ q * 256) && decide (q * 256 ≤ (rn s (rSC k 0x108) : Rat))
    let start := pfdEdge s t strict
    let j := rampJ s k q0 q
    let ret (band : Bool) : Retune := ⟨slot, q, r.1, r.2.1, r.2.2, comp, band, start, j, q0, 0, since⟩
    let recs (s : State) (kind : Nat) : State := (fodsOn s k).foldl (fun s n => retuneRec s n kind start (sinceOr s since)) s
    if ¬ x.awake then
      let s := setRatio (setSc (recs s 14) k { sc s k with
        slot := slot, retune := none, ds := [], cmdRes := handle.toList.map (fun h => (h, 0)) ++ x.cmdRes }) k r
      compFods s k comp (q / q0)
    else if ¬ inBand then
      recs (setSc s k { x with
        retune := some (ret true), bandcal := some .change, ds := []
        lockSet := false, lockFast := false, deadline := some .change, lockFor := handle.toList ++ x.lockFor }) 14
    else
      let s := setSc s k { x with
        retune := some (ret false), lockSet := false, deadline := some .change, lockFor := handle.toList ++ x.lockFor }
      recs (wr s (rSC k 0x110) (min j 0xFFFF)) (if comp then 10 else 8)

/-- SC_CMD.BANDCAL (R104): refused while retuning or while an enabled FOD selects the SC; nothing on a sleeping SC. The open
loop clears LOCK_FAST (log entry 145). -/
def bandcalStart (s : State) (k : Nat) (cz : Cause) : State :=
  let x := sc s k
  if ¬ x.awake then s
  else if scRetuning s k then scRefuse s k 3 cz
  else if scUsed s k then scRefuse s k 4 cz
  else setSc s k { x with
    bandcal := some .command, lockSet := false, lockFast := false, deadline := some .command, ds := [] }

-- hops

/-- Whether a hop of an FOD with its t_h at t must wait: BUSY (R173), an uncompensated ramp (R178), a fence of its SC before the
switch (R180), a period held by a forced swap (R181). -/
def hopBlocked (s : State) (k : Nat) (t : Rat) : Bool :=
  let x := fod s k
  x.hopBusy || (rampOf s x.sc).isSome || (sc s x.sc).rehome.isSome ||
  (match x.holdUntil with
    | some e => decide (t < e)
    | none => false)

/-- The record limit of R175 for a hop at t. -/
def hopRateFull (s : State) (k : Nat) (t : Rat) : Bool :=
  let x := fod s k
  x.running && decide (64 ≤ recsWithin x t)

/-- What every executed hop leaves in the hop registers (R169, R171). -/
def hopMarks (s : State) (k entry : Nat) (coh : Bool) (t : Rat) : State :=
  let s := wb (wb s (rFOD k 0xDC) 0 4 entry) (rFOD k 0xDC) 5 1 (b2n coh)
  let s := wM s (rFOD k 0xEC) 4 (stOf (rfloor t))
  let s := bumpM s (rFOD k 0xE4)
  setFod s k { fod s k with hopBusy := true }

/-- E1 of a hop at t from E_prev = e, T being the period in force and T' that of the entry (R165, R166); `g` is a grid
instant of the entry. -/
def hopE1 (coh : Bool) (t e T T' g : Rat) : Rat :=
  if coh then
    let lo := if t + T' / 4 < e + T' / 2 then e + T' / 2 else t + T' / 4
    g + ((rceil ((lo - g) / T') : Int) : Rat) * T'
  else t + (1 - (t - e) / T) * T'

/-- The falling edge of the transitional period of a hop (R168). -/
def hopFall (coh : Bool) (t e T T' e1 : Rat) : Rat :=
  if e + T / 2 ≤ t then e + T / 2
  else if coh then (e + e1) / 2
  else t + (1 / 2 - (t - e) / T) * T'

-- Skim's exchange at an E1 (R181, R395)

/-- A twin of an FOD: B or A. -/
def twinOf (x : Fod) (b : Bool) : Twin := if b then x.twinBee else x.twinA

/-- The FOD with a twin. -/
def setTwin (x : Fod) (b : Bool) (t : Twin) : Fod := if b then { x with twinBee := t } else { x with twinA := t }

/-- Whether the inactive twin may become active (R391, R395, R397). -/
def skimReady (x : Fod) : Bool := (twinOf x (!x.twinB)).ready && !(twinOf x (!x.twinB)).failed

/-- The twins of FOD n change places (R131, R395, R396): the one that becomes inactive is not ready. -/
def twinSwap (s : State) (n : Nat) : State :=
  let x := fod s n
  let x := { setTwin x x.twinB { twinOf x x.twinB with ready := false } with twinB := !x.twinB }
  clrBits (setFod s n x) (0x140 + 4 * (n / 32)) (2 ^ (n % 32))

/-- Whether Skim measures at all (R392, R398): from the start of CAL_RUN's DTC step to its apply step it does not. -/
def skimOn (s : State) : Bool :=
  rbit s 0x120 0 && !s.fcol.safe && !srcFenced s srcSkim &&
  !(s.cal.on && (s.cal.power || (s.cal.blocks.testBit 0 && decide (s.cal.dtcFrom ≤ s.time.aon))))

/-- Whether Skim may measure and swap FOD n (R398). -/
def skimMay (s : State) (n : Nat) : Bool :=
  let x := fod s n
  skimOn s && decide (s.pwr.phase = 4) && !x.fenced && !x.frozen && !scRetuning s x.sc && !(sc s x.sc).rehome.isSome

/-- The natural swap that Skim keeps for the E1 of a hop (R181), where Skim may still swap and the inactive twin is still ready
(R391, R395, R398). -/
def swapAtHop (s : State) (n : Nat) : State :=
  let due := (fod s n).swapDue
  let s := setFod s n { fod s n with swapDue := false }
  if due ∧ skimMay s n ∧ skimReady (fod s n) then bump (twinSwap s n) 0x128 else s

/-- Executes a hop to an entry at t (R162, R164 to R171, R181, R183), the record limit already judged. A hop that is skipped has no
E1, so that a swap kept for it is judged anew. -/
def hopExec (s : State) (k entry : Nat) (t : Rat) (cz : Cause) (since : Nat) : State :=
  let s := slewSettle s k t
  let x := foldSlew (fod s k) t
  let h := hopBefore s k entry
  let q := scQ s x.sc
  if ¬ (h.valid ∧ comboOk h.n h.f h.m h.o q) then
    raiseFod (orBits (setFod s k { fod s k with swapDue := false }) (rFOD k 0xDC) 0x100) k kHopInvalid cz
  else
    let am := alignMode s k x
    let coh := h.coherent && am
    let s := if h.coherent ∧ ¬ am then raiseFod (orBits s (rFOD k 0xDC) 0x200) k kHopDemoted cz else s
    let y := { x with n := h.n, f := h.f, m := h.m, o := h.o, divInvalid := false }
    let y := if coh then { y with phi := h.phase, pRem := 0, tRem := 0, grown := 0 } else y
    let T' := nomPeriod h.n h.f h.m h.o q
    let s := match x.running, edgeBefore s x.recs x.anchors t with
      | true, some (c, e) =>
        let T := (lawFrom s k x e).1
        let e1 := hopE1 coh t e T T' (y.phi - (x.odly : Rat))
        let y := { y with
          phi := if coh then y.phi else reduceHalf (e1 + (x.odly : Rat)) T', divFrom := e1
          trans := some (e, e1, hopFall coh t e T T' e1) }
        swapAtHop (pushRecAt (hwDiv (setFod s k y) k h.n h.f h.m h.o) k 3 (entry + 16 * b2n coh) (c + 1) e1 since t cz) k
      | _, _ => hwDiv (setFod s k y) k h.n h.f h.m h.o
    formatCheck (slowCheck (hopMarks s k entry coh t) k) k none

/-- The flags of an executed queue action in a WM status register: LATE with its lateness, or STEPPED (R80, R81). -/
def markAct (s : State) (qstat qlate : Nat) (late : Option Int) (stepped : Bool) : State :=
  let s := match late with
    | some l => wM (orBits s qstat 0x100) qlate 2 (lateNs l)
    | none => s
  if stepped then orBits s qstat 0x200 else s

/-- Whether a hop of a queued action changed anything: its entry was valid (R164). -/
def hopWouldRun (s : State) (k entry : Nat) : Bool :=
  let x := fod s k
  let h := hopBefore s k entry
  h.valid && comboOk h.n h.f h.m h.o (scQ s x.sc)

/-- Raises HOP_RATE for a hop that the record limit holds (R175). -/
def hopRateMark (s : State) (k : Nat) (cz : Cause) : State := raiseFod (orBits s (rFOD k 0xDC) 0x1000) k kHopRate cz

/-- Adds a hop to those that an FOD holds, in order of arrival (log entry 146): a queued one stays in its queue. -/
def holdHop (s : State) (k entry : Nat) (a : Option QAct) (rated : Bool) : State :=
  let x := fod s k
  let q := match a with
    | some b => x.queue.map (fun c => if c.seqNo = b.seqNo then { b with held := true } else c)
    | none => x.queue
  setFod s k { x with queue := q, hopHeld := x.hopHeld ++ [(entry, a.map (·.seqNo), rated)] }

/-- Executes the first held hop at t, where nothing blocks it any more: a queued one is flagged LATE (R173, R175, R178). -/
def hopNext (s : State) (k : Nat) (t : Rat) : State :=
  match (fod s k).hopHeld with
  | [] => s
  | (e, q, rated) :: rest =>
    if s.fcol.safe ∨ hopBlocked s k t then s
    else if hopRateFull s k t ∧ hopWouldRun s k e then
      if rated then s else hopRateMark (setFod s k { fod s k with hopHeld := (e, q, true) :: rest }) k none
    else
      let s := setFod s k { fod s k with hopHeld := rest }
      match q with
      | none => hopExec s k e t none s.order
      | some i => match (fod s k).queue.find? (fun a => decide (a.seqNo = i)) with
        | none => s
        | some act =>
          let s := setFod s k { fod s k with queue := (fod s k).queue.erase act }
          let s := markAct s (rFOD k 0x78) (rFOD k 0x7C) (some (rfloor t - act.due)) act.stepped
          actEvents (hopExec s k e t none i) act true true

/-- Executes the held hops of an FOD one after the other, as far as nothing blocks them: a hop that is skipped lets the
next one act (R164, R173). -/
def hopRelease (s : State) (k : Nat) (t : Rat) : State :=
  ((fod s k).hopHeld).foldl (fun s _ => hopNext s k t) s

/-- After a backward change of Plain the queued hops that are not due yet wait for their time again (R82, R174). -/
def hopUnhold (s : State) (k : Nat) (t : Rat) : State :=
  let x := fod s k
  let early (a : QAct) : Bool := a.held && decide (t < (a.due : Rat))
  let back (i : Option Nat) : Bool := match i with
    | some i => x.queue.any (fun a => early a && decide (a.seqNo = i))
    | none => false
  setFod s k { x with
    queue := x.queue.map (fun a => if early a then { a with held := false, stepped := false } else a)
    hopHeld := x.hopHeld.filter (fun p => !back p.2.1) }

/-- Takes an action out of an FOD's queue. -/
def fodDrop (s : State) (k : Nat) (a : QAct) : State := setFod s k { fod s k with queue := (fod s k).queue.erase a }

/-- Executes an FOD action at t (R134, R144, R145, R147, R164), which leaves its queue; a blocked hop is held there
(R173, R175, R178, R180). A fenced FOD discards it (R153). -/
def fodActRun (s : State) (k : Nat) (a : QAct) (t : Rat) (late : Option Int) (stepped : Bool) : State :=
  let done (s : State) (hop : Bool) : State :=
    actEvents (markAct s (rFOD k 0x78) (rFOD k 0x7C) late stepped) a (late.isSome || stepped) hop
  if (fod s k).fenced then orBits (setFod s k { fod (fodDrop s k a) k with swapDue := false }) (rFOD k 0x78) 0x400
  else match a.kind with
  | .hop e =>
    if hopBlocked s k t ∨ (fod s k).hopHeld ≠ [] then holdHop s k e (some { a with stepped := stepped }) false
    else if hopRateFull s k t ∧ hopWouldRun s k e then
      hopRateMark (holdHop s k e (some { a with stepped := stepped }) true) k none
    else done (hopExec (fodDrop s k a) k e t none a.seqNo) true
  | .phStep amt => done (phaseStep (fodDrop s k a) k amt t none a.seqNo) false
  | .phSlew amt => done (phaseSlew (fodDrop s k a) k amt t none (some a.seqNo)) false
  | .oen v =>
    let s := hwWins (fodDrop s k a) k [0x0C]
    let old := rbit s (rFOD k 0x0C) 2
    if old = v then done s false
    else if rbit s 0x40 0 then
      let m := match a.core with
        | some n => 5 + n
        | none => 13
      done (raise (bump s 0x44) srcBus kLocked (rFOD k 0x0C) m 2) false
    else
      let s := wb s (rFOD k 0x0C) 2 1 (b2n v)
      done (if v then oenOn s k t true else setFod s k { fod s k with startDue := none }) false
  | _ => s

/-- A hop by FOD_HOP_CMD.GO (R164, R172, R173, R178). -/
def hopGoCmd (s : State) (k entry : Nat) (cz : Cause) : State :=
  if hopBlocked s k (nowR s) ∨ (fod s k).hopHeld ≠ [] then holdHop s k entry none false
  else if hopRateFull s k (nowR s) ∧ hopWouldRun s k entry then hopRateMark (holdHop s k entry none true) k cz
  else hopExec s k entry (nowR s) cz s.order

/-- The thirteen window words of an entry, joined 32 bits each (R160, R184). -/
def hopWords (h : HopEnt) : Nat :=
  (b2n h.valid + 2 * b2n h.coherent) + h.n * 2 ^ 32 + spread 3 h.f * 2 ^ 64 + spread 3 h.m * 2 ^ 160 +
    spread 2 h.o * 2 ^ 256 + spread 3 (tw 48 h.phase) * 2 ^ 320

/-- The entry that thirteen window words spell. -/
def hopOfWords (v : Nat) : HopEnt :=
  { valid := v.testBit 0, coherent := v.testBit 1, n := bits v 32 12, f := gather 3 (v >>> 64) % 2 ^ 40,
    m := gather 3 (v >>> 160) % 2 ^ 40, o := gather 2 (v >>> 256), phase := sx 48 (gather 3 (v >>> 320)) }

/-- R161's three conditions. -/
def hopEntOk (h : HopEnt) : Bool := decide (3 ≤ h.n ∧ h.n ≤ 4095 ∧ 1 ≤ h.m ∧ h.f < h.m ∧ 1 ≤ h.o)

/-- A commit of the window (R160 to R162). -/
def hopCommit (s : State) (k : Nat) (h : HopEnt) (cz : Cause) : State :=
  let e := rb s (rFOD k 0xA0) 0 4
  let s := noteWrite (markHops s k) (hopKey k e)
  let s := setFod s k { fod s k with hopWas := some (e, hopEnt (fod s k) e) }
  if h.valid ∧ ¬ hopEntOk h then
    let s := setFod s k (setHopEnt (fod s k) e { h with valid := false })
    raiseFod (orBits s (rFOD k 0xDC) 0x800) k kHopInvalid cz
  else setFod s k (setHopEnt (fod s k) e h)

-- re-homing

/-- The first qualifying re-homing target of SC k (R118). -/
def rehomeTarget (s : State) (k : Nat) : Option Nat :=
  let ok (c : Nat) : Bool := decide (c ≠ k) && candidateOk s c k && (fodsNaming s k).all (fun n =>
    (convertDiv (fod s n).n (fod s n).f (fod s n).m (scQ s c / scQ s k)).isSome)
  let spare := (List.range 8).filter (fun c => rbit s (rSC c 0) 7)
  let rest := (List.range 8).filter (fun c => !rbit s (rSC c 0) 7)
  (spare ++ rest).find? ok

/-- Moves FOD n of a fenced SC k to SC c (R119, R176): a REHOME record where it runs. Where software switched its input in the
same cycle, hardware wins: the divide goes to c from the core that it stands for (R21). -/
def rehomeFod (s : State) (n k c : Nat) : State :=
  let s := slewSettle s n (nowR s)
  let x := fod s n
  let from_ := if x.sc ≠ k ∧ rbit s (rFOD n 0x10) 3 then x.sc else k
  let factor := scQ s c / scQ s from_
  match convertDiv x.n x.f x.m factor with
  | none => s
  | some (dn, df, dm) =>
    let s := wb (hwWins s n [0x10]) (rFOD n 0x10) 0 3 c
    let y := { fod s n with sc := c, insel := none, n := dn, f := df, m := dm, divInvalid := false }
    let s := if x.running then
        match edgeAfter s x.recs x.anchors (nowR s) with
        | some (cy, u) => pushRec (setFod s n y) n 11 0 cy u s.order
        | none => setFod s n y
      else setFod s n y
    let s := convertHops (hwDiv s n dn df dm x.o) n factor
    slowCheck s n

/-- Brings the spans of R240 of an FOD up to date: one opens with a fence, a re-homing gap or the DEGRADED that follows a
fence, and ends when none of them holds. Spans that ended more than 1 s ago are forgotten. -/
def darkEval (s : State) (n : Nat) : State :=
  let x := fod s n
  let t := nowR s
  let on := x.fenced || x.rehomeGap || x.degraded
  let l := match x.dark with
    | (a, none) :: r => if on then (a, none) :: r else (a, some t) :: r
    | r => if on then (t, none) :: r else r
  let keep (p : Rat × Option Rat) : Bool := match p.2 with
    | some e => decide (t < e + (secTicks : Rat))
    | none => true
  setFod s n { x with dark := l.filter keep }

/-- Whether FOD n was fenced or in a re-homing gap at a device time (R240). -/
def darkAt (x : Fod) (t : Rat) : Bool :=
  x.dark.any (fun p => decide (p.1 ≤ t) && (match p.2 with
    | some e => decide (t < e)
    | none => true))

/-- Whether the counts of FOD n are DEGRADED at a device time: a fence, a re-homing gap, or a witness TDC that had failed by then
and no anchor for more than 10 ms before (R141, R240). A failed TDC writes no further anchor. -/
def fodDark (s : State) (n : Nat) (t : Rat) : Bool :=
  let x := fod s n
  darkAt x t || (match x.tdcAt with
    | some f => decide (f ≤ t) && (match x.anchorT with
      | some a => decide (a + 10000 * usT < t)
      | none => true)
    | none => false)

/-- W's clamp of R99. -/
def dcoLimit (s : State) (k : Nat) : Int :=
  let v := atLeast1 (rb s (rSC k 0x2C) 0 11)
  let v := if 1953 < v then 1953 else v
  rfloor ((v : Rat) / 1000000 * 2 ^ 48)

/-- The word that R97 selects for SC k. -/
def scSource (s : State) (k : Nat) : Int :=
  let m := (sc s k).master
  if m = 0 then s.time.ybase
  else if m ≤ 3 then sx 40 (rM s (rDP m 0x64) 3)
  else if m = 5 then sx 40 (rM s (rSC k 0xC0) 3)
  else 0

/-- Whether the loop of SC n is closed: only then do the lock detectors see cycles in window (R101, R104). -/
def loopClosed (s : State) (n : Nat) : Bool := (sc s n).awake && decide ((sc s n).bandcal = none)

-- the ΔΣ modulator

/-- What the order of the modulator puts before its residues, newest first (R95): the noise transfer function is
(1 - z^-1)^(ORDER + 1). -/
def dsTaps : Nat → List Int
  | 0 => [1]
  | 1 => [2, -1]
  | 2 => [3, -3, 1]
  | _ => [4, -6, 4, -1]

/-- Element k of the dither sequence in 2^-40 (R96). -/
def ditherAt (k : Nat) : Int := if Config.ditherBit (k % (2 ^ 23 - 1)) then 1 else 0

/-- The ratio at the modulator's input in the PFD cycle that begins at t (R94, R109, R110): the mean of the linear ramp over the
cycle where one is under way, the ratio on which the loop is to lock in a band change. -/
def dsRatio (s : State) (x : Sc) (n : Nat) (t : Rat) : Rat :=
  match x.retune with
  | some r =>
    if r.band then r.q
    else if t < r.from_ then r.q0
    else if r.j ≤ r.ran then r.q
    else r.q0 + (r.q - r.q0) * (2 * (r.ran : Rat) + 1) / (2 * (r.j : Rat))
  | none => scQ s n

/-- One PFD cycle of an SC's modulator, which begins at t (R95, R96; log entry 147): the input with steering and dither, the
divide that the loop takes, and the residue, held exactly. An integer ratio without steering and dither divides by NI, whatever
residue stood. -/
def dsStep (s : State) (n : Nat) (t : Rat) (x : Sc) : Sc :=
  let ctl := rn s (rSC n 0)
  let dit : Int := if ctl.testBit 6 then ditherAt (x.dith + 1) - ditherAt x.dith else 0
  let q := dsRatio s x n t
  let plain := decide (x.w = 0) && !ctl.testBit 6 && decide (x.retune = none) && decide (q.den = 1)
  let taps := dsTaps (bits ctl 4 2)
  let fed : Rat := (List.zipWith (fun (k : Int) (r : Rat) => (k : Rat) * r) taps x.ds).foldl (· + ·) 0
  let v := if plain then q else q + q * (x.w : Rat) / 2 ^ 48 + (dit : Rat) / 2 ^ 40 + fed
  let d := rfloor v
  { x with
    ds := ((v - (d : Rat)) :: x.ds).take 4, divide := d.toNat, dith := (x.dith + 1) % (2 ^ 23 - 1)
    retune := x.retune.map (fun r => if t < r.from_ then r else { r with ran := r.ran + 1 }) }

/-- The ten PFD cycles of an AON period of a closed loop (R26, R95). -/
def dsRun (s : State) (n : Nat) : State :=
  if loopClosed s n then setSc s n ((List.range 10).foldl (fun x i =>
    dsStep s n ((s.time.plain : Rat) / 2 ^ 32 + (i : Rat) * pfdT s) x) (sc s n)) else s

end Sys2Proof.Machine
end

