-- ==== Sys2Proof/Machine/RefOps.lean ====
section
/-!
DEFINITION. The shared operations of references, DPLLs and the drift model Screed (R186 to R211).
-/
namespace Sys2Proof.Machine

open Sys2Proof

/-- Whether an index names a reference (R186). -/
def isRefIx (i : Nat) : Bool := decide (i < 144)

/-- Bits of REF_STATUS that the hardware writes: 0 GOOD, 1 QUALIFIED, 2 QPEND, 4 LOS, 5 FREQ, 6 WIDTH, 7 TOD. -/
def refBit (s : State) (i b : Nat) : Bool := rbit s (rREF i 4) b

/-- The state with a bit of REF_STATUS. -/
def setRefBit (s : State) (i b : Nat) (v : Bool) : State := wb s (rREF i 4) b 1 (b2n v)

/-- The source and kind of a reference's fault (R218): k is the kind of the reference table; the address is the port
for a PRF, else REF_STATUS (R546). -/
def raiseRef (s : State) (i k : Nat) : State :=
  if i < 12 then raise s (0x8C + i) k (rREF i 4)
  else if i < 16 then raise s (0x88 + (i - 12)) (0x30 + k) (rREF i 4)
  else raise s (0x98 + (i - 16) / 8) (0x30 + k) (i - 16)

/-- Whether a reference is in use: enabled, not fenced, and the core domain is awake, whose monitors and DPLLs take it (R27, R190,
R421). -/
def refOn (s : State) (i : Nat) : Bool := s.coreAwake && rbit s (rREF i 0) 0 && !(ref s i).fenced

/-- Whether a reference may be qualified: not REF10 or REF11 of an ACTIVE module (R468). -/
def refMayQual (s : State) (i : Nat) : Bool := s.standby || decide (i ≠ 10 ∧ i ≠ 11)

/-- The qualification timer of a reference starts or stops (R191). -/
def qualRun (s : State) (i : Nat) (on : Bool) : State :=
  let on := on && refMayQual s i
  let s := setRefBit s i 2 on
  setRef s i { ref s i with qualFrom := if on then some s.time.aon else none }

/-- The seconds to the qualification of a reference (R191, R216). -/
def qualRem (s : State) (i : Nat) : Nat :=
  match (ref s i).qualFrom with
  | some a => if refBit s i 2 then rb s (rREF i 0x34) 0 16 - (s.time.aon - a) / 10000000 else 0
  | none => 0

/-- GOOD of R190: enabled, not fenced, an event seen or none needed, and no active level monitor failing. -/
def refGood (s : State) (i : Nat) : Bool :=
  rbit s (rREF i 0) 0 && !(ref s i).fenced && ((ref s i).seen || decide (i = 10 ∨ i = 11)) && !refBit s i 4 &&
  !(refBit s i 5 && rbit s (rREF i 0) 1) && !(refBit s i 6 && rbit s (rREF i 0) 3) &&
  !(refBit s i 7 && rbit s (rREF i 0) 4)

/-- Brings GOOD, and the qualification timer with it, to what the monitors say (R190, R191). An ACTIVE module does
not qualify REF10 or REF11 (R468). The timer starts too for a reference that is still QUALIFIED (log entry 186). -/
def refEval (s : State) (i : Nat) : State :=
  let g := refGood s i
  let was := refBit s i 0
  if g = was then s
  else if g then qualRun (setRefBit s i 0 true) i true
  else
    let s := qualRun (setRefBit s i 0 false) i false
    if rbit s (rREF i 0) 0 ∧ ¬ (ref s i).fenced then s else setRefBit s i 1 false

/-- A reference is taken out of use, by EN = 0 or by a fence: its monitors forget what they saw, and it is neither GOOD nor
QUALIFIED (R190, R191, R421). -/
def refStop (s : State) (i : Nat) (fenced : Bool) : State :=
  let s := setRef s i { refInit with fenced := fenced, swT := (ref s i).swT }
  refEval (qualRun (setRefBit (wb s (rREF i 4) 4 4 0) i 1 false) i false) i

/-- A disqualification (R191): k is the fault kind of the failing monitor. -/
def disqualify (s : State) (i k : Nat) : State :=
  let s := setRef s i { ref s i with dropped := true }
  let s := qualRun (setRefBit s i 1 false) i (refBit s i 0)
  let s := bumpM (orBits s (rREF i 4) 0x200) (rREF i 0x6C)
  raiseRef s i k

/-- A level monitor's bit of REF_STATUS, its enable bit in REF_CTRL where it has one, its fault kind (R190, R218). -/
def monBits : Monitor → Nat × Option Nat × Nat
  | .los => (4, none, 1)
  | .freq => (5, some 1, 2)
  | .pjump => (8, some 2, 3)
  | .width => (6, some 3, 4)
  | .tod => (7, some 4, 5)

/-- Whether a monitor is active (R190). -/
def monOn (s : State) (i : Nat) (m : Monitor) : Bool :=
  match (monBits m).2.1 with
  | none => true
  | some b => rbit s (rREF i 0) b

/-- A level monitor takes a value; where it begins to fail and REF_DISQ_T is 0 it disqualifies at once (R191). -/
def setLevel (s : State) (i : Nat) (m : Monitor) (fail : Bool) : State :=
  let b := (monBits m).1
  let was := refBit s i b
  let s := refEval (setRefBit s i b fail) i
  if fail ∧ ¬ was ∧ monOn s i m ∧ rb s (rREF i 0x38) 0 16 = 0 then disqualify s i (monBits m).2.2 else s

/-- PJUMP (R190, R191): the event's phase against the previous one advanced by the measured offset. -/
def pjumpCheck (s : State) (i : Nat) (t e : Int) : State :=
  let r := ref s i
  match r.lastT, r.lastE with
  | some t0, some e0 =>
    let off := sx 40 (rM s (rREF i 0x5C) 3)
    let pred : Rat := (e0 : Rat) + (off : Rat) * ((t - t0 : Int) : Rat) / 2 ^ 48
    let dev := (e : Rat) - pred
    let lim : Rat := (atLeast1 (rb s (rREF i 0x28) 0 16) * 65536 : Nat)
    if rbit s (rREF i 0) 2 ∧ (dev < -lim ∨ lim < dev) then
      disqualify (bumpM (orBits s (rREF i 4) 0x100) (rREF i 0x74)) i 3
    else s
  | _, _ => s

/-- Notes an event of a reference: LOS ends, the phase and time are kept, REF_PHASE_ERR shows the phase (R187). -/
def refEvent (s : State) (i : Nat) (t : Int) (e : Option Int) : State :=
  let r := ref s i
  let s := setRef s i { r with
    seen := true, lastT := some t, lastE := (match e with
      | some v => some v
      | none => r.lastE), times := t :: r.times.take 15 }
  let s := match e with
    | some v => wM s (rREF i 0x50) 3 (tw 48 v)
    | none => s
  setLevel s i .los false

/-- 2^39 - 1, the bound of a published word (R66, R198). -/
def wordMax : Int := 2 ^ 39 - 1

/-- The time integral of a word history (newest first, each word from its instant on) over [a, hi], with what is
summed already; none where the history does not reach back to a. -/
def wordArea (a : Int) : List (Int × Int) → Int → Rat → Option Rat
  | [], _, _ => none
  | (t, w) :: rest, hi, acc =>
    if hi ≤ t then wordArea a rest hi acc
    else if t ≤ a then some (acc + ((hi - a : Int) : Rat) * w)
    else wordArea a rest t (acc + ((hi - t : Int) : Rat) * w)

/-- The mean of a word history over [a, b] (R204, R205). -/
def meanWord (h : List (Int × Int)) (a b : Int) : Option Rat :=
  if b ≤ a then none else (wordArea a h b 0).map (fun q => q / ((b - a : Int) : Rat))

/-- The interval of the holdover average before t (R204, R205). -/
def hoInterval (s : State) (d : Nat) (t : Int) : Int × Int :=
  let e := t - (rb s (rDP d 0x60) 0 16 : Int) * 65536000000
  (e - (atLeast1 (rb s (rDP d 0x5C) 0 16) : Int) * 65536000000000, e)

/-- Y_pred(t, θ) of R208 from the coefficient registers; t in ticks. -/
def screedPred (s : State) (t : Int) (theta : Int) : Rat :=
  let c (k : Nat) : Rat := (sx 64 (rL s (rSCR (0x10 + 8 * k)) 2) : Rat)
  let dt : Rat := ((t / (secTicks : Int) - s.scr.tref : Int) : Rat) / 86400
  let dth : Rat := ((theta - sx 16 (rn s (rSCR 0x34) % 65536) : Int) : Rat) / 256
  c 0 + c 1 * dt + c 2 * dth + c 3 * dth * dth

/-- Live θ (R217). -/
def scrTemp (s : State) : Int := sx 16 (rn s (rSCR 0x30) % 65536)

/-- θ at a device time in ticks: the last that SCR_TEMP took by then, else the live one (R209). -/
def tempAt (s : State) (t : Int) : Int :=
  match s.scr.temps.find? (fun p => decide (p.1 ≤ t)) with
  | some p => p.2
  | none => (s.scr.temps.getLast?.map (·.2)).getD (scrTemp s)

/-- The mean of the words that HOLDOVER or FREERUN takes where it begins now (R204, R205): for DP0 its words, for DP k its
words less Y_base; none where CLRHIST has discarded a part of it (R217). -/
def hoMean (s : State) (d : Nat) : Option Rat :=
  let r := hoInterval s d (nowT s)
  let kept : Bool := match (dp s d).hoFrom with
    | some f => decide (f ≤ r.1)
    | none => true
  if kept then meanWord (dp s d).words r.1 r.2 else none

/-- What HOLDOVER or FREERUN would hold if it began now (R204, R205; log entry 135): for DP k none where the history is
too short, for then DP_FREQ_MAN applies. -/
def hoWord (s : State) (d : Nat) : Option Int :=
  match hoMean s d with
  | some q => some (Config.roundWord q)
  | none => if d = 0 then some (Config.holdoverShort s.time.aon) else none

/-- The anchor that an entry to HOLDOVER now would set (R209). -/
def hoAnchor (s : State) : Rat :=
  let r := hoInterval s 0 (nowT s)
  (hoMean s 0).getD (Config.holdoverShort s.time.aon : Rat) - screedPred s ((r.1 + r.2) / 2) (tempAt s ((r.1 + r.2) / 2))

/-- Y_free of a DPLL at the present boundary (R198, R204, R205): the word that FREERUN or HOLDOVER applies, and in
ACQUIRE and LOCKED the word that HOLDOVER would apply. -/
def yFree (s : State) (d : Nat) : Int :=
  let x := dp s d
  let man := sx 40 (rM s (rDP d 0x70) 3)
  let free := decide (x.st = 0 ∨ x.st = 3)
  let held := (if free then x.held else hoWord s d).getD man
  if d = 0 then
    if rbit s (rSCR 0) 1 ∧ s.scr.samples ≠ [] then
      Config.roundWord (screedPred s (nowT s) (scrTemp s) +
        (if free then (sx 64 (rL s (rSCR 0x38) 2) : Rat) else hoAnchor s))
    else if x.st = 0 then man
    else held
  else s.time.ybase + held

/-- A DPLL enters HOLDOVER (R205, R209, R210); `sel` is the reference that it had selected. -/
def enterHoldover (s : State) (d : Nat) (sel : Option (Nat × Nat)) : State :=
  let t : Int := nowT s
  let x := dp s d
  let anchor := hoAnchor s
  let s := setDp s d { x with st := 3, held := hoWord s d }
  let s := wM s (rDP d 0xB0) 4 (stOf t)
  let s := bumpM (orBits s (rDP d 4) 0x200) (rDP d 0x9C)
  let s := event (raise s (srcDp d) kHoldoverEntry (rDP d 4)) (28 + d)
  if d = 0 then
    let s := noteFlags { s with time := { s.time with holdover := true } }
    let s := if rbit s (rSCR 4) 0 then s else raise s (srcDp 0) kScreedUntrained (rDP 0 4)
    let s := wL s (rSCR 0x38) 2 (tw 64 (Config.roundWord anchor))
    let inacc : Nat := match sel with
      | some (_, i) => rb s (rREF i 0x44) 0 16
      | none => 0
    let e0 : Rat := if x.mags = [] then 0
      else ((x.mags.foldl (fun a v => a + v) 0 : Nat) : Rat) / (x.mags.length : Rat) * 1000 / 65536
    let sd : Rat × Rat × Rat := match s.scr.sig with
      | some (c0, c1, c2) => (3 * c0 / 2 ^ 48, 3 * c1 / 2 ^ 48 / 86400, 3 * c2 / 2 ^ 48)
      | none => (Config.screedSigma s.free, Config.screedSigma (s.free + 1), Config.screedSigma (s.free + 2))
    { s with
      free := s.free + 3
      scr := { s.scr with
        entry := some t, e0 := e0 + (inacc * 1000 : Nat), sf := sd.1, sa := sd.2.1, sT := sd.2.2, area := 0,
        limRaised := false, good := false } }
  else s

/-- DP0 is no longer in HOLDOVER: the flag of R74 ends and E(t) is 0 (R210). -/
def holdoverOff (s : State) : State :=
  let s := wr { s with scr := { s.scr with entry := none } } (rSCR 0x40) 0
  noteFlags { s with time := { s.time with holdover := false } }

/-- A DPLL enters FREERUN (R199, R204). -/
def enterFreerun (s : State) (d : Nat) : State :=
  if (dp s d).st = 0 then s else setDp s d { dp s d with st := 0, held := hoWord s d }

/-- Whether slot index j may serve DPLL d (R193): it names a reference, and for DP0 is not the SWREF k that DP k
selects; the DP0 of an ACTIVE module never selects REF10 or REF11 (R468). -/
def slotOk (s : State) (d j : Nat) : Bool :=
  isRefIx j && !(decide (d = 0 ∧ (j = 10 ∨ j = 11)) && !s.standby) && !(decide (d = 0 ∧ 13 ≤ j ∧ j ≤ 15) && decide (((dp s (j - 12)).sel.map (·.2)) = some j))

/-- A DPLL's table as (slot, index), lowest slot first (R193); DP0 of a STANDBY module holds REF10 and REF11 (R468). -/
def dpTable (s : State) (d : Nat) : List (Nat × Nat) :=
  if d = 0 ∧ s.standby then [(0, 10), (1, 11)]
  else ((List.range 8).map (fun k => (k, rb s (rDP d (0x10 + 4 * k)) 0 8))).filter (fun p => slotOk s d p.2)

/-- QUALIFIED as a DPLL sees it (R191, R468). -/
def refQual (s : State) (i : Nat) : Bool := refBit s i 1

/-- The selection that a DPLL's rules ask for at a boundary, with the wait to restore it leaves (R194, R199). A forced reference
shows the lowest slot that holds it, 0 where none does (log entry 192). -/
def dpChoose (s : State) (d : Nat) : Option (Nat × Nat) × Option Nat :=
  let x := dp s d
  let c := rn s (rDP d 0)
  if ¬ c.testBit 0 ∨ c.testBit 5 ∨ x.fenced then (none, none)
  else if c.testBit 4 ∧ ¬ (d = 0 ∧ s.standby) then
    let j := rb s (rDP d 0x40) 0 8
    let k := match (dpTable s d).find? (fun p => decide (p.2 = j)) with
      | some p => p.1
      | none => 0
    (if slotOk s d j ∧ refBit s j 0 then some (k, j) else none, none)
  else
    let tbl := dpTable s d
    let cand := tbl.find? (fun p => refQual s p.2)
    let revert := c.testBit 1 && !(decide (d = 0) && s.standby)
    match x.sel, cand with
    | some (_, i), some (k', j) =>
      match tbl.find? (fun p => decide (p.2 = i)) with
      | some (k, _) =>
        if refQual s i then
          if ¬ revert ∨ k ≤ k' then (some (k, i), none)
          else if x.st = 0 ∨ x.st = 3 ∨ rb s (rDP d 0x4C) 0 16 = 0 ∨ (x.waitOver ∧ (x.wait = none ∨ x.wait = some j)) then (some (k', j), none)
          else (some (k, i), some j)
        else (some (k', j), none)
      | none => (some (k', j), none)
    | none, some p => (some p, none)
    | _, none => (none, none)

/-- What DP_SEL shows of a selection (R195). -/
def selWord (new : Option (Nat × Nat)) : Nat :=
  match new with
  | some (k, i) => i + 256 * k
  | none => 0xFF

/-- A change of the selected reference (R195, R202, R305). -/
def dpSwitch (s : State) (d : Nat) (new : Option (Nat × Nat)) : State :=
  let x := dp s d
  let s := bumpM (orBits s (rDP d 4) 0x100) (rDP d 0x94)
  let s := raise s (srcDp d) kRefSwitch (rDP d 4)
  let s := wr s (rDP d 0x0C) (selWord new)
  let pbo := match new with
    | some (_, i) => rbit s (rDP d 0) 2 && (isFreqRef i || decide (d ≠ 0)) && !(decide (d = 0) && s.standby)
    | none => false
  let s := setDp s d { x with
    sel := new, wait := none, waitOver := false, b := 0, pboFresh := pbo, firstDue := !pbo, setBy := none,
    stepBy := none, errs := [] }
  let s := if d = 0 then { s with scr := { s.scr with good := false } } else s
  if new.isNone ∧ x.sel.isSome then event s (16 + d) else s

/-- Selection and state of DPLL d at an AON boundary (R194, R195, R199, R205). -/
def dpEval (s : State) (d : Nat) : State :=
  let x0 := dp s d
  if x0.st = 4 then s
  else
    let (new, wait) := dpChoose s d
    let s := if new.map (·.2) = x0.sel.map (·.2) then
        let s := if new = x0.sel then s else wr s (rDP d 0x0C) (selWord new)
        setDp s d { x0 with sel := new, wait := wait, waitOver := false }
      else dpSwitch s d new
    let x := dp s d
    if ¬ rbit s (rDP d 0) 0 then
      let s := if d = 0 ∧ x.st = 3 then holdoverOff s else s
      enterFreerun s d
    else if new.isNone then
      if x.st = 1 ∧ ¬ x.wasLocked then enterFreerun s d
      else if x.st = 1 ∨ x.st = 2 then enterHoldover s d x0.sel
      else s
    else if x.st = 0 ∨ x.st = 3 then
      let s := if d = 0 then holdoverOff s else s
      event (setDp s d { dp s d with st := 1, phLock := false, frLock := false, phSeen := false, inFrom := none }) (20 + d)
    else if x.st = 1 then
      if x.phLock ∨ (d = 0 ∧ ¬ timeMode s ∧ x.frLock) then
        event (setDp s d { x with st := 2, wasLocked := true, fallAcq := false }) (24 + d)
      else s
    else if x.fallAcq then setDp s d { x with st := 1, fallAcq := false, phSeen := false }
    else if ¬ x.phLock ∧ ¬ x.frLock then
      raise (setDp s d { x with st := 1, phSeen := false }) (srcDp d) kLockLost (rDP d 4)
    else s

/-- The word a DPLL forms at a boundary, after slope limit and clamp (R198, R199): the DPLL with the limit's and the
clamp's marks, and the word. -/
def dpForm (s : State) (d : Nat) : Dp × Int :=
  let x := dp s d
  if x.st = 4 then (x, x.word)
  else
    let free := yFree s d
    if x.st = 0 ∨ x.st = 3 then
      let w := clampI (-wordMax) wordMax free
      ({ x with psl := false, clamped := decide (w ≠ free) }, w)
    else
      let p := rb s (rDP d 0x48) 0 16
      let lim := rfloor ((p : Rat) * 2 ^ 48 / 1000000000)
      let w1 := if p = 0 then x.loop else clampI (free - lim) (free + lim) x.loop
      let w := clampI (-wordMax) wordMax w1
      ({ x with psl := decide (w1 ≠ x.loop), clamped := decide (w ≠ w1) }, w)

/-- Publishes a word (R196, R198, R204, R472): a standby counts each boundary for which no WORDS message
came; the history of the holdover averages keeps its change. -/
def dpPublish (s : State) (d : Nat) : State :=
  let x0 := dp s d
  let (x, w) := dpForm s d
  let s := if x.clamped ∧ ¬ x0.clamped then raise s (srcDp d) kWordClamp (rDP d 4) else s
  let n := s.time.aon
  let (x, w) := if d = 0 ∨ ¬ rbit s (rMATE 0) 0 then (x, w)
    else if s.standby then
      match x.received.find? (fun p => decide (p.1 ≤ n)) with
      | some p => ({ x with received := x.received.filter (fun q => decide (p.1 ≤ q.1)) }, p.2)
      | none => (x, x.word)
    else
      let pipe := (n + 20, w) :: x.pipe
      match pipe.find? (fun p => decide (p.1 ≤ n)) with
      | some p => ({ x with pipe := pipe.filter (fun q => decide (p.1 ≤ q.1)) }, p.2)
      | none => ({ x with pipe := pipe }, x.word)
  let h : Int := if d = 0 then w else w - s.time.ybase
  let words := match x.words with
    | (_, v) :: _ => if v = h then x.words else ((nowT s : Int), h) :: x.words
    | [] => [((nowT s : Int), h)]
  let came (k : Nat) : Bool := (dp s k).received.any (fun p => decide (p.1 = n))
  let gap := decide (d = 1) && rbit s (rMATE 0) 0 && s.standby && !(came 1 || came 2 || came 3)
  let s := if gap then bump s (rMATE 0x58) else s
  wM (setDp s d { x with word := w, words := words }) (rDP d 0x64) 3 (tw 40 w)

/-- f_pd / 20 in µHz of a reference (R188, R189, R197). -/
def refPd (s : State) (i : Nat) : Rat :=
  if 16 ≤ i then 50000000000
  else if 4 ≤ i ∧ i < 8 then
    let num := rM s (rREF i 0x10) 3
    let den := atLeast1 (rb s (rREF i 0x1C) 0 16)
    let f : Rat := (num : Rat) / (den : Rat)
    let p := rceil (f / 1000000)
    f / ((if p < 1 then 1 else p : Int) : Rat) * 50000
  else if i = 10 ∨ i = 11 then 5000000000
  else if 12 ≤ i then
    match (ref s i).times with
    | t :: rest => match rest.getLast? with
      | some t0 => if t0 < t then (rest.length : Rat) * (secTicks : Rat) / ((t - t0 : Int) : Rat) * 50000 else 50000
      | none => 50000
    | [] => 50000
  else 50000

/-- The period of a reference in ticks, 0 where REF_NOM is 0 (R186, R188, R203). -/
def refPeriod (s : State) (i : Nat) : Rat :=
  if 16 ≤ i then 65536000
  else if 4 ≤ i ∧ i < 8 then
    (secTicks : Rat) * (atLeast1 (rb s (rREF i 0x1C) 0 16) : Rat) / (rM s (rREF i 0x10) 3 : Rat)
  else (secTicks : Rat)

/-- The whole periods of a reference in a phase (R196): what is left of the phase is nearest to 0 (log entry 137). -/
def wholePeriods (s : State) (i : Nat) (e : Int) : Int :=
  let p := refPeriod s i
  if p = 0 then 0 else rround ((rround ((e : Rat) / p) : Rat) * p)

/-- ω_n of a loop in 1/s (R196, R197): that with which the closed-loop phase transfer
(2ζω_n s + ω_n²) / (s² + 2ζω_n s + ω_n²) is 3 dB down at `bw` µHz; `z` is ζ × 8. -/
def omegaN (bw : Rat) (z : Nat) : Rat :=
  let q : Rat := 1 + 2 * ((z : Rat) / 8) ^ 2
  2 * piR * bw / 1000000 / rsqrt (q + rsqrt (q ^ 2 + 1))

/-- The square of the gain of the closed-loop phase transfer of R196 at ω = x × ω_n (R214). -/
def loopGainSq (z x : Rat) : Rat := (1 + (2 * z * x) ^ 2) / ((1 - x ^ 2) ^ 2 + (2 * z * x) ^ 2)

/-- The proportional-integral filter at a sample (R196, R197; log entry 151): from the effective bandwidth in µHz, ζ × 8, the
sample rate in Hz, the integrator and whether it is held (R198), and the error in ticks, what the proportional part adds to the
word and the integrator behind it, both in 2^-48. -/
def loopFilter (bw : Rat) (z : Nat) (fpd integ : Rat) (hold : Bool) (err : Int) : Rat × Rat :=
  let w := omegaN bw z
  let e : Rat := (err : Rat) / (secTicks : Rat) * 2 ^ 48
  (2 * ((z : Rat) / 8) * w * e, if hold then integ else integ + w ^ 2 * e / fpd)

/-- DP k's accumulator at the present instant less Plain, in sub-ticks (R196). -/
def accLead (s : State) (d : Nat) : Int :=
  let x := dp s d
  let r : Int := ((plainAdd x.acc (s.cyc * cycleSub x.word) : Int) - nowSub s) % plainMod
  if 2 * r < plainMod then r else r - plainMod

/-- The integral over device time since t of a history, in units of 2^-48 ticks; 0 where it does not reach back. -/
def wordSince (s : State) (h : List (Int × Int)) (t : Int) : Rat := (wordArea t h (nowT s) 0).getD 0

/-- The error of a sample e that reference i measured against Plain at t, as DPLL d's phase detector gives it (R189, R196;
log entry 152): for DP k against its accumulator, as it was at t, or for an SWREF sample as it is now, which counts the progress
since t, the integrator's share too; for DP0 less, at an SWREF, what DP0's own words
and steps have moved Plain by since t. -/
def dpError (s : State) (d i : Nat) (t e : Int) : Int :=
  let x := dp s d
  let sw := decide (12 ≤ i ∧ i < 16)
  if d = 0 then
    if sw then
      let moved := (x.steps.filter (fun p => decide (t < p.1))).foldl (fun a p => a + p.2) 0
      let rate := wordSince s x.words t - x.integ * (((nowT s : Int) - t : Int) : Rat)
      e - moved - rfloor (rate / 2 ^ 48)
    else e
  else
    let back : Rat := if sw then 0 else wordSince s x.words t / 2 ^ 48
    e - rfloor ((accLead s d : Rat) / 2 ^ 32 - back)

/-- The mean frequency error over DP_LOCK_T up to a sample (R199): whether it is within 10^-9; while the samples since the
selection do not reach back so far, what it was (log entry 153). -/
def frOk (was : Bool) (lockT : Int) (errs : List (Int × Int)) (t err : Int) : Bool :=
  match errs.find? (fun p => decide (lockT ≤ t - p.1)) with
  | some (t0, e0) => decide (((err - e0).natAbs : Int) * 1000000000 ≤ t - t0)
  | none => was

/-- The errors of DP_LOCK_T before t, and the one before them. -/
def errKeep (lockT t : Int) (l : List (Int × Int)) : List (Int × Int) :=
  let young := l.takeWhile (fun p => decide (t - p.1 < lockT))
  young ++ (l.drop young.length).take 1

/-- The build-out of DPLL d at a sample of error e of reference i (R202, R203): the first sample after a hitless switch becomes
b, that after another one leaves b with whole periods alone. -/
def dpBuildOut (s : State) (d i : Nat) (x : Dp) (e : Int) : Dp :=
  let cut : Int := if (x.pboFresh ∨ x.firstDue) ∧ x.st = 1 ∧ ¬ (d = 0 ∧ ¬ isFreqRef i) then wholePeriods s i e else 0
  if x.pboFresh then { x with b := e, pbo := x.pbo + (e - cut), pboFresh := false }
  else if x.firstDue then { x with b := cut } else x

/-- The programmed bandwidth of DPLL d in µHz (R197), as written where it lies outside the stated range (log entry 187); a
standby's DP0 has that of MATE_BW (R468). -/
def dpBandwidth (s : State) (d : Nat) (x : Dp) : Nat :=
  if rbit s (rDP d 0) 7 ∧ x.st = 1 ∧ ¬ x.phSeen then rM s (rDP d 0x38) 2
  else if d = 0 ∧ s.standby then (let v := rn s (rMATE 0x28); if v = 0 then 100 else v)
  else rM s (rDP d 0x30) 2

/-- The lock detectors of DPLL d at a sample of error err at t (R199). -/
def dpDetect (s : State) (d : Nat) (x : Dp) (t err : Int) : Dp :=
  let lim : Int := atLeast1 (rb s (rDP d 0x50) 0 16) * 65536 / 10
  let small := decide ((err.natAbs : Int) * 10 ≤ (atLeast1 (rb s (rDP d 0x50) 0 16) : Int) * 65536)
  let lockT : Int := (atLeast1 (rb s (rDP d 0x54) 0 16) : Int) * (secTicks : Int)
  let inFrom := if small then (match x.inFrom with
    | some f => some f
    | none => some t) else none
  let ph := match inFrom with
    | some f => decide (lockT ≤ t - f)
    | none => false
  { x with
    fallAcq := x.fallAcq || (x.firstDue && decide (x.st = 2) && decide (lim < (err.natAbs : Int)))
    firstDue := false, inFrom := inFrom, phLock := ph, frLock := frOk x.frLock lockT x.errs t err
    phSeen := x.phSeen || ph, errs := (t, err) :: errKeep lockT t x.errs, mags := err.natAbs :: x.mags.take 15 }

/-- The frequency loop of a DP0 that steers frequency only (R201; log entry 191): the word follows the change of the error with
the gain that gives the phase transfer the effective bandwidth, whatever the error itself is. -/
def freqFilter (bw integ : Rat) (hold : Bool) (change : Int) : Rat × Rat :=
  (0, if hold then integ else integ + 2 * piR * bw / 1000000 * ((change : Rat) / (secTicks : Rat) * 2 ^ 48))

/-- The filter of DPLL d at a sample of error err of reference i (R196 to R198), and the set or the step of Plain that a DP0 in
time mode asks for: the loop does not take an error that a set or a step removes (R200). -/
def dpFilter (s : State) (d i : Nat) (x : Dp) (prog : Nat) (err : Int) : Dp :=
  let tm := decide (d = 0) && timeMode s
  let needSet := tm && s.time.notSet
  let needStep := tm && !s.time.notSet && rbit s (rDP 0 0) 3 && decide (16 ≤ x.sinceStep) &&
    decide ((atLeast1 (rb s (rDP 0 0x58) 0 16) : Int) * 65536 < (err.natAbs : Int))
  let pd := refPd s i
  let clampBw := decide (pd < (prog : Rat))
  let bw := if clampBw then pd else (prog : Rat)
  let before := match x.errs with
    | _ :: p :: _ => p.2
    | _ => err
  let f := if d = 0 ∧ ¬ tm then freqFilter bw x.integ x.psl (err - before)
    else loopFilter bw (atLeast1 (rb s (rDP d 0x44) 0 8)) (pd * 20 / 1000000) x.integ x.psl
      (if needSet ∨ needStep then 0 else err)
  { x with
    bwClamp := clampBw, loop := Config.roundWord (f.1 + f.2), integ := f.2
    setBy := if needSet then some err else x.setBy, stepBy := if needStep then some err else x.stepBy
    sinceStep := if needStep then 1 else x.sinceStep + 1 }

/-- A sample of error e0 at time t reaches DPLL d, which has reference i selected (R196 to R202). -/
def dpSample (s : State) (d i : Nat) (t e0 : Int) : State :=
  let x := dp s d
  if x.st = 0 ∨ x.st = 3 ∨ x.st = 4 then s
  else
    let e := dpError s d i t e0
    let y := dpBuildOut s d i x e
    let y := dpFilter s d i (dpDetect s d y t (e - y.b)) (dpBandwidth s d x) (e - y.b)
    wM (wM (setDp s d y) (rDP d 0x7C) 3 (tw 48 (e - y.b))) (rDP d 0x88) 3 (tw 48 y.pbo)

/-- A sample of reference i reaches every DPLL that has it selected. -/
def refFeed (s : State) (i : Nat) (t e : Int) : State :=
  upto 4 (fun s d => if (dp s d).sel.map (·.2) = some i then dpSample s d i t e else s) s

-- Screed

/-- Solves a linear system by elimination over exact rationals; none where it is singular. Rows are coefficients and
right-hand side; `n` unknowns are left. -/
def solveLin : Nat → List (List Rat) → Option (List Rat)
  | 0, _ => some []
  | n + 1, rows =>
    match rows.find? (fun r => decide (r.headD 0 ≠ 0)) with
    | none => none
    | some p =>
      let p0 := p.headD 1
      let p' := p.tail.map (· / p0)
      let rest := (rows.erase p).map (fun r => List.zipWith (fun a b => a - r.headD 0 * b) r.tail p')
      match solveLin n rest with
      | none => none
      | some xs =>
        let y := (List.zipWith (· * ·) p' xs).foldl (· + ·) 0
        some (((p'.getLast?).getD 0 - y) :: xs)

/-- The normal equations of design rows (regressors, value), with a right-hand side by the coefficient's number. -/
def normalEqs (n : Nat) (rows : List (List Rat × Rat)) (rhs : Nat → Rat) : List (List Rat) :=
  let at_ (l : List Rat) (i : Nat) : Rat := (l[i]?).getD 0
  (List.range n).map (fun i =>
    (List.range n).map (fun j => rows.foldl (fun acc r => acc + at_ r.1 i * at_ r.1 j) 0) ++ [rhs i])

/-- Least squares over design rows: the coefficients, none where singular (R208, R247). -/
def leastSquares (n : Nat) (rows : List (List Rat × Rat)) : Option (List Rat) :=
  solveLin n (normalEqs n rows (fun i => rows.foldl (fun acc r => acc + (r.1[i]?).getD 0 * r.2) 0))

/-- Column j of the inverse of the normal matrix, none where singular (R210). -/
def leastSquaresInv (n : Nat) (rows : List (List Rat × Rat)) (j : Nat) : Option (List Rat) :=
  solveLin n (normalEqs n rows (fun i => if i = j then 1 else 0))

/-- The regressors of a Screed sample (R208). -/
def scrRow (tref temp0 : Int) (quad : Bool) (p : Int × Int × Int × Nat) : List Rat × Rat :=
  let dt : Rat := ((p.1 - tref : Int) : Rat) / 86400
  let dth : Rat := ((p.2.2.1 - temp0 : Int) : Rat) / 256
  (if quad then [1, dt, dth, dth * dth] else [1, dt, dth], (p.2.1 : Rat))

/-- The residual of a sample. -/
def scrRes (cs : List Rat) (r : List Rat × Rat) : Rat := r.2 - (List.zipWith (· * ·) cs r.1).foldl (· + ·) 0

/-- The standard deviations of the first three coefficients of a fit, from its covariance (R210; log entry 154): the residual
variance, over the samples less the coefficients, times the inverse of the normal matrix. -/
def fitSigma (n : Nat) (rows : List (List Rat × Rat)) (cs : List Rat) : Option (Rat × Rat × Rat) :=
  let ssr : Rat := rows.foldl (fun a r => a + scrRes cs r ^ 2) 0
  let var : Rat := ssr / ((rows.length - n : Nat) : Rat)
  let diag (j : Nat) : Option Rat := (leastSquaresInv n rows j).bind (fun v => v[j]?)
  match diag 0, diag 1, diag 2 with
  | some a, some b, some c => some (rsqrt (var * a), rsqrt (var * b), rsqrt (var * c))
  | _, _, _ => none

/-- The design rows of a fit over samples, a merged one as often as its weight says (R208, R406). -/
def scrRows (s : State) (samples : List (Int × Int × Int × Nat)) : List (List Rat × Rat) :=
  let tref := match samples with
    | p :: _ => p.1
    | [] => 0
  samples.flatMap (fun p =>
    List.replicate p.2.2.2 (scrRow tref (sx 16 (rn s (rSCR 0x34) % 65536)) (rbit s (rSCR 0) 2) p))

/-- The number of coefficients that a fit finds (R208). -/
def scrTerms (s : State) : Nat := if rbit s (rSCR 0) 2 then 4 else 3

/-- The standard deviations that samples give, where they can be fitted (R210). -/
def scrSigma (s : State) (samples : List (Int × Int × Int × Nat)) : Option (Rat × Rat × Rat) :=
  (leastSquares (scrTerms s) (scrRows s samples)).bind (fitSigma (scrTerms s) (scrRows s samples))

/-- Refits Screed to samples (R208): the coefficients, or SINGULAR with its report. -/
def scrFit (s : State) (samples : List (Int × Int × Int × Nat)) : State × Option (List Rat) :=
  match leastSquares (scrTerms s) (scrRows s samples) with
  | some cs =>
    if Config.screedIll s.free then
      (raise (orBits { s with free := s.free + 1 } (rSCR 4) 2) (srcDp 0) kScreedSingular (rDP 0 4), none)
    else ({ s with free := s.free + 1 }, some cs)
  | none => (raise (orBits s (rSCR 4) 2) (srcDp 0) kScreedSingular (rDP 0 4), none)

/-- Stores the coefficients of a fit to samples; C3 is 0 where TEMP2 = 0 (R208). -/
def scrStore (s : State) (cs : List Rat) (samples : List (Int × Int × Int × Nat)) (tref : Int) : State :=
  let c (k : Nat) : Nat := tw 64 (Config.roundWord ((cs[k]?).getD 0))
  let s := wL (wL (wL s (rSCR 0x10) 2 (c 0)) (rSCR 0x18) 2 (c 1)) (rSCR 0x20) 2 (c 2)
  let s := wL s (rSCR 0x28) 2 (if cs.length = 4 then c 3 else 0)
  { s with scr := { s.scr with tref := tref, samples := samples, sig := fitSigma cs.length (scrRows s samples) cs } }

/-- SCR_NSAMP, SCR_SPAN and TRAINED from the samples held (R208, R217). -/
def scrShow (s : State) : State :=
  let n := s.scr.samples.foldl (fun a p => a + p.2.2.2) 0
  let span : Int := match s.scr.samples, s.scr.samples.getLast? with
    | p :: _, some q => p.1 - q.1
    | _, _ => 0
  let smp : Int := atLeast1 (rb s (rSCR 0) 8 8)
  let trained := decide (604800 - smp ≤ span) && decide (span / smp * 9 ≤ (n : Int) * 10)
  wb (wr (wr s (rSCR 8) n) (rSCR 0x0C) span.toNat) (rSCR 4) 0 1 (b2n trained)

end Sys2Proof.Machine
end

