-- ==== Sys2Proof/Machine/SnapOps.lean ====
section
/-!
DEFINITION. The snapshot trigger (R441 to R451): refusal, merging, the copies of the latch units; the maps of the
collector that a snapshot copies (R429, R421).
-/
namespace Sys2Proof.Machine

open Sys2Proof

/-- Word w of the map of sources with a pending severity (R429). -/
def pendMap (s : State) (w : Nat) : Nat :=
  (List.range 32).foldl (fun a b => if mget (fun _ => 0) s.fcol.pend (32 * w + b) ≠ 0 then a + 2 ^ b else a) 0

/-- Word w of the map of fenced sources (R421). -/
def fenceMap (s : State) (w : Nat) : Nat :=
  (List.range 32).foldl (fun a b => if s.fcol.fenced.contains (32 * w + b) then a + 2 ^ b else a) 0

/-- The awake latch units (R444, R447). -/
def snapUnits (s : State) : List Nat :=
  (List.range 26).filter (fun u =>
    if u = 0 then true else if u = 1 then s.coreAwake
    else if u < 10 then (sc s (u - 2)).awake else s.groups.testBit (u - 10))

/-- The copy of an FOD at T (R446). -/
def snapFod (s : State) (n id : Nat) (t : Rat) : State :=
  let x := fod s n
  let o := rSNAP (0x200 + 0x20 * n)
  let was := flagsOf x t
  let e := if was.1 then (histEdge s x.recs x.anchors t).map (·.1) else none
  let s := match e with
    | some c => wL (wL s o 2 (tw 64 c)) (o + 8) 4 (match tau s n c with
      | some q => tFormat (ratT q) 0
      | none => 0)
    | none => wL (wL s o 2 0) (o + 8) 4 0
  wr (wr s (o + 0x18) id) (o + 0x1C) (b2n was.1 + 2 * b2n (was.1 && was.2) + 4 * b2n (fodDark s n t))

/-- The copies of a latch unit (R446). -/
def snapUnit (s : State) (id : Nat) (t : Rat) (u : Nat) : State :=
  let s := if u = 0 then
      wr (upto 8 (fun s w => wr (wr s (rSNAP (0x1400 + 4 * w)) (pendMap s w)) (rSNAP (0x1420 + 4 * w)) (fenceMap s w)) s)
        (rSNAP 0x1440) id
    else if u = 1 then
      let s := upto 4 (fun s d =>
        let o := rSNAP (0x1300 + 0x20 * d)
        wr (wL (wL s o 2 (tw 64 (sx 40 (rM s (rDP d 0x64) 3)))) (o + 8) 2 (tw 64 (sx 48 (rM s (rDP d 0x7C) 3))))
          (o + 0x10) id) s
      upto 16 (fun s r =>
        let x := ring s r
        let s := wL (wL (wL s (rRING r 0x60) 2 x.admitted) (rRING r 0x68) 2 x.delivered) (rRING r 0x70) 2 x.police
        let s := wr (wL (wL s (rRING r 0x78) 2 x.full) (rRING r 0x80) 2 x.abandoned) (rRING r 0x88) x.inFlight
        wr s (rRING r 0x90) id) s
    else if u < 10 then
      let o := rSNAP (0x1200 + 0x10 * (u - 2))
      wr (wL s o 2 (tw 64 (sc s (u - 2)).w)) (o + 8) id
    else upto 8 (fun s i => snapFod s (8 * (u - 10) + i) id t) s
  wr s (rSNAP (0x104 + 8 * u)) id

/-- Latches a snapshot with number id (R444 to R447). A sleeping core domain is woken and latches unit 1 after the wake;
its copies do not change while it sleeps. -/
def snapLatch (s : State) (id : Nat) (t : Rat) : State :=
  let us := if s.coreAwake then snapUnits s else 1 :: snapUnits s
  us.foldl (fun s u => snapUnit s id t u) s

/-- Sends the trigger of a snapshot of this module's own to the mate (R443). -/
def snapSend (s : State) : State :=
  if rbit s (rSNAP 0) 4 ∧ ¬ rbit s (rSNAP 0x30) 4 then mateSend s 0x89 [(s.snap.t : Int), (s.snap.id : Int)] else s

/-- A trigger of source bit `src` with the time T (R441, R443, R445, R449, R450). `info` is what SNAP_SRC takes, `cz` the write
that is a trigger (R546). A smaller T of the same cycle applies, and goes to the mate as well. -/
def snapTrigger (s : State) (info : Nat) (t : Rat) (cz : Cause) : State :=
  if rbit s (rSNAP 0) 20 then
    raiseC (bump (orBits s (rSNAP 4) 0x02000000) (rSNAP 0x48)) srcCnt kSnapRefused (rSNAP 4) cz
  else if s.snap.busy then
    let s := orBits s (rSNAP 0x30) info
    if s.snap.inst = cycNo s then
      if t < (s.snap.t : Rat) then
        let s := wL { s with snap := { s.snap with t := ratT t } } (rSNAP 0x20) 4 (tFormat (ratT t) (flagsAt s (rfloor t)))
        snapSend (snapLatch s s.snap.id t)
      else s
    else bump (orBits s (rSNAP 4) 0x01000000) (rSNAP 0x44)
  else
    let id := if s.snap.id = 0xFFFF then 1 else s.snap.id + 1
    let s := { s with snap := { s.snap with
      id := id, busy := true, t := ratT t, inst := cycNo s } }
    let s := wr (wL s (rSNAP 0x20) 4 (tFormat (ratT t) (flagsAt s (rfloor t)))) (rSNAP 0x30) info
    snapSend (snapLatch s id t)

/-- A SNAP_IN or mate trigger: it latches now where its T has passed, else at T (R444). -/
def snapAt (s : State) (info : Nat) (t : Int) : State :=
  if (nowT s : Int) < t then { s with snap := { s.snap with later := s.snap.later ++ [(t, info)] } }
  else snapTrigger s info (t : Rat) none

/-- The triggers whose T has come latch (R444). -/
def snapLater (s : State) : State :=
  let now : Int := nowT s
  let due := s.snap.later.filter (fun p => decide (p.1 ≤ now))
  due.foldl (fun s p => snapTrigger s p.2 (p.1 : Rat) none)
    { s with snap := { s.snap with later := s.snap.later.filter (fun p => !decide (p.1 ≤ now)) } }

/-- A queued snapshot action at t (R441, R450). -/
def snapActRun (s : State) (a : QAct) (t : Rat) (late : Option Int) (stepped : Bool) : State :=
  let s := if late.isSome then orBits s (rSNAP 4) 0x04000000 else s
  let s := if stepped then orBits s (rSNAP 4) 0x08000000 else s
  let info := 2 + (match a.core with
    | some n => n * 256
    | none => 0x800)
  actEvents (snapTrigger s info t none) a (late.isSome || stepped) false

end Sys2Proof.Machine
end

