-- ==== Sys2Proof/Machine/TimeOps.lean ====
section
/-!
DEFINITION. The time scale at an AON boundary (R65 to R84): the advance, the combined change of R79 to R82, what a
step or a set does to the rest of the module, the effective rate word, the steering words of the SCs (R97 to R100).
-/
namespace Sys2Proof.Machine

open Sys2Proof

/-- A queue that an action waits in. -/
inductive QId where
  | time | snap
  | fod (n : Nat)
  | sc (n : Nat)
  deriving DecidableEq, Repr

/-- The actions of every queue but the time scale's, with their queues (R80, R81). -/
def allActs (s : State) : List (QAct × QId) :=
  s.fods.flatMap (fun p => p.2.queue.map (fun a => (a, .fod p.1))) ++
  s.scs.flatMap (fun p => p.2.queue.map (fun a => (a, .sc p.1))) ++ s.snap.queue.map (fun a => (a, .snap))

/-- Insertion of an action in the order of execution. -/
def insAct (a : QAct × QId) : List (QAct × QId) → List (QAct × QId)
  | [] => [a]
  | b :: t => if actBefore a.1 b.1 then a :: b :: t else b :: insAct a t

/-- Actions in the order of execution (R81). -/
def sortActs (l : List (QAct × QId)) : List (QAct × QId) := l.foldr insAct []

/-- Takes an action out of its queue. -/
def dropAct (s : State) (q : QId) (a : QAct) : State :=
  match q with
  | .time => { s with time := { s.time with queue := s.time.queue.erase a } }
  | .snap => { s with snap := { s.snap with queue := s.snap.queue.erase a } }
  | .fod n => setFod s n { fod s n with queue := (fod s n).queue.erase a }
  | .sc n => setSc s n { sc s n with queue := (sc s n).queue.erase a }

/-- The retune of a queued action of SC k at t (R107, R117): a fenced SC refuses it (R108). -/
def scActRun (s : State) (k : Nat) (a : QAct) (t : Rat) (late : Option Int) (stepped : Bool) : State :=
  match a.kind with
  | .retune slot comp h =>
    let s := retuneStart s k slot comp false h t false (some a.seqNo) none
    let s := markAct s (rSC k 0xE0) (rSC k 0xE4) late stepped
    actEvents s a (late.isSome || stepped) false
  | _ => s

/-- Executes an action of a queue at t, out of its queue. -/
def actRun (s : State) (q : QId) (a : QAct) (t : Rat) (late : Option Int) (stepped : Bool) : State :=
  match q with
  | .time => dropAct s q a
  | .snap => snapActRun (dropAct s q a) a t late stepped
  | .fod n => fodActRun s n a t late stepped
  | .sc n => scActRun (dropAct s q a) n a t late stepped

/-- Whether a retune must wait for the one in progress (R117). -/
def scBlocked (s : State) (k : Nat) : Bool := (sc s k).retune.isSome

/-- An action of an SC's queue is held past its due time (R81, R107). -/
def holdAct (s : State) (q : QId) (a : QAct) (stepped : Bool) : State :=
  match q with
  | .sc k => setSc s k { sc s k with
      queue := (sc s k).queue.map (fun b => if b = a then { b with held := true, stepped := stepped } else b) }
  | _ => s

/-- The actions that a step from d to d + delta executes, in order (R81): those it skips are STEPPED. A retune that must
wait is held in its queue (R117). -/
def steppedActs (s : State) (d : Rat) (delta : Int) : State :=
  let goal := d + delta
  let hit := (allActs s).filter (fun p =>
    !p.1.held && decide (d < (p.1.due : Rat)) && decide ((p.1.due : Rat) ≤ goal))
  (sortActs hit).foldl (fun s p =>
    let blocked := match p.2 with
      | .sc k => scBlocked s k && (sc s k).awake
      | _ => false
    if blocked then holdAct s p.2 p.1 (decide ((p.1.due : Rat) < goal))
    else actRun s p.2 p.1 goal none (decide ((p.1.due : Rat) < goal))) s

/-- The action of a queue that falls due in the present AON period or is late already, none in SAFE (R80, R83, R152). -/
def dueAct (s : State) (q : List QAct) : Option QAct :=
  if s.fcol.safe then none
  else match firstAct q with
    | some (a, _) => if a.due ≤ (nextT s : Int) then some a else none
    | none => none

/-- The instant at which a due action acts, and its lateness: at its due time, or now where it was LATE at its entry or was
held past its due time (R80, R107). -/
def actWhen (s : State) (a : QAct) : Rat × Option Int :=
  if a.held then (nowR s, some ((nowT s : Int) - a.due))
  else match a.late with
    | some l => (nowR s, some l)
    | none => ((a.due : Rat), none)

/-- An FOD with its queued actions discarded, the hops of the queue that were held among them (R75). -/
def noQueue (x : Fod) : Fod := { x with queue := [], swapDue := false, hopHeld := x.hopHeld.filter (fun p => p.2.1.isNone) }

/-- Discards every queued action of the module, with the FLUSHED bits, the count and one report (R75). -/
def flushQueues (s : State) : State :=
  let s0 := s
  let cnt := s.time.queue.length + (allActs s).length
  let s := if s.time.queue = [] then s
    else orBits { s with time := { s.time with queue := [] } } (rTIME 0x94) 0x400
  let s := s0.fods.foldl (fun s p =>
    if p.2.queue = [] then s else orBits (setFod s p.1 (noQueue (fod s p.1))) (rFOD p.1 0x78) 0x400) s
  let s := s0.scs.foldl (fun s p =>
    if p.2.queue = [] then s else orBits (setSc s p.1 { sc s p.1 with queue := [] }) (rSC p.1 0xE0) 0x400) s
  let s := if s.snap.queue = [] then s
    else orBits { s with snap := { s.snap with queue := [] } } (rSNAP 4) 0x10000000
  if cnt = 0 then s else raise (bump s (rTIME 0x9C) cnt) srcTime kQueueFlush (rTIME 4)

/-- Whether an amount of a step is in range (R76). -/
def stepOk (amt : Int) : Bool := decide (amt.natAbs < 2 ^ 62)

/-- The T-format value of TIME_SET_T as ticks, where it is valid (R75). -/
def setValue (s : State) : Option Nat :=
  let frac := rn s (rTIME 0x60)
  let ns := rn s (rTIME 0x64)
  let h := rn s (rTIME 0x6C)
  if frac < 65536 ∧ ns < 1000000000 ∧ h < 65536 then
    some (frac + ns * 65536 + (rn s (rTIME 0x68) + h * 2 ^ 32) * secTicks)
  else none

/-- TIME_SLEW_RATE as it acts (R77, R91). -/
def slewRateOf (s : State) : Nat :=
  let v := atLeast1 (rb s (rTIME 0x50) 0 20)
  if 429496 < v then 429496 else v

/-- A slew by an amount, queued at an order of entry or not queued (R77, R235). -/
def slewAdd (s : State) (amt : Int) (since : Option Nat) : State :=
  if fitsS 48 (rfloor ((s.time.slewRem : Rat) / 2 ^ 32) + amt) then
    { s with time := { s.time with
        slewRem := s.time.slewRem + amt * 2 ^ 32
        slewSince := if s.time.slewRem = 0 then since else sinceMax s.time.slewSince since } }
  else raise s srcTime kStepRange (rTIME 4)

/-- A queued time-scale action but for a step's amount, which the combined change takes (R79, R83). A slew loads its rate
whether its amount is in range or not (log entry 148). -/
def timeActRun (s : State) (a : QAct) (stepped : Bool) : State :=
  let s := match a.kind with
    | .timeStep amt => if stepOk amt then s else raise s srcTime kStepRange (rTIME 4)
    | .timeSlew amt rate => slewAdd (if rate = 0 then s else wr s (rTIME 0x50) rate) amt (some a.seqNo)
    | .timeRate w => wL s (rTIME 0x38) 2 (tw 40 w)
    | .timeSlewStop => { s with time := { s.time with slewRem := 0 } }
    | _ => s
  let s := match a.late with
    | some l => wr (orBits s (rTIME 0x94) 0x100) (rTIME 0x98) (lateNs l)
    | none => s
  let s := if stepped then orBits s (rTIME 0x94) 0x200 else s
  actEvents s a (a.late.isSome || stepped) false

/-- The amount a queued action adds to the step (R76). -/
def actStep (a : QAct) : Int :=
  match a.kind with
  | .timeStep amt => if stepOk amt then amt else 0
  | _ => 0

/-- The queued time-scale actions that join the change at d: those due, and in turn those that the growing step skips
(R79), each with whether the interval skipped it when it joined. `rest` is the step of the other parts. -/
def joinActs (d : Rat) (rest : Int) : Nat → List (QAct × Bool) → List QAct → List (QAct × Bool)
  | 0, inn, _ => inn
  | k + 1, inn, out =>
    let delta := inn.foldl (fun a x => a + actStep x.1) rest
    let more := out.filter (fun a => decide ((a.due : Rat) ≤ d + delta))
    if more = [] then inn
    else joinActs d rest k (inn ++ more.map (fun a => (a, decide ((a.due : Rat) < d + delta))))
      (out.filter (fun a => !decide ((a.due : Rat) ≤ d + delta)))

/-- What a change of Plain by `delta` ticks leaves of the times that the module keeps: they name the same instants. -/
def shiftTimes (s : State) (delta : Rat) : State :=
  let dI := rfloor delta
  let mv (t : Nat) : Nat := ((t : Int) + dI).toNat
  { s with
    snap := { s.snap with lastIn := s.snap.lastIn.map (· + dI), later := s.snap.later.map (fun p => (p.1 + dI, p.2)) }
    dmas := s.dmas.map (fun p => (p.1, { p.2 with irqAt := p.2.irqAt.map mv }))
    mate := { s.mate with failAt := s.mate.failAt.map mv }
    pwr := { s.pwr with evtT := mv s.pwr.evtT }
    fods := s.fods.map (fun p => (p.1, { p.2 with
      divFrom := p.2.divFrom + delta, pFrom := p.2.pFrom + delta, tFrom := p.2.tFrom + delta
      offAt := p.2.offAt.map (· + delta), startDue := p.2.startDue.map (· + delta)
      anchorT := p.2.anchorT.map (· + delta), tdcAt := p.2.tdcAt.map (· + delta), holdUntil := p.2.holdUntil.map (· + delta)
      slowDue := p.2.slowDue.map (· + delta), was := p.2.was.map (fun q => (q.1 + delta, q.2))
      trans := p.2.trans.map (fun e => (e.1 + delta, e.2.1 + delta, e.2.2 + delta))
      dark := p.2.dark.map (fun e => (e.1 + delta, e.2.map (· + delta)))
      twinA := { p.2.twinA with born := p.2.twinA.born + dI }
      twinBee := { p.2.twinBee with born := p.2.twinBee.born + dI } }))
    scs := s.scs.map (fun p => (p.1, { p.2 with
      retune := p.2.retune.map (fun r => { r with from_ := r.from_ + delta }) }))
    refs := s.refs.map (fun p => (p.1, { p.2 with
      lastT := p.2.lastT.map (· + dI), lastE := p.2.lastE.map (· - dI), times := p.2.times.map (· + dI) }))
    dps := s.dps.map (fun p => (p.1, { p.2 with
      words := p.2.words.map (fun w => (w.1 + dI, w.2))
      errs := p.2.errs.map (fun w => (w.1 + dI, if p.1 = 0 then w.2 - dI else w.2))
      inFrom := p.2.inFrom.map (· + dI), setBy := none, stepBy := none, hoFrom := p.2.hoFrom.map (· + dI)
      steps := p.2.steps.map (fun w => (w.1 + dI, w.2)) }))
    scr := { s.scr with
      good := false, from_ := s.scr.from_ + dI, entry := s.scr.entry.map (· + dI)
      temps := s.scr.temps.map (fun w => (w.1 + dI, w.2)) } }

/-- The running FODs. -/
def runningFods (s : State) : List Nat := (s.fods.filter (fun p => p.2.running)).map (·.1)

/-- The time-scale entry of one FOD (R68, R137): `t` is Plain before the change, `delta` the step, `old` the factor that
the slew gave its period before. Converted counts that lie ahead keep their edges (R235). -/
def timeEntry (s : State) (n : Nat) (t delta old : Rat) (since : Option Nat) : State :=
  let x := fod s n
  match edgeFrom s x.recs x.anchors t with
  | none => s
  | some (c, u) =>
    let s := leadMiss s n u (decide (delta ≠ 0 ∨ u ≠ t)) (sinceOr s since)
    let y := fod s n
    let s := setFod s n { y with leads := y.leads.map (fun p => (p.1, p.2.1 + delta, p.2.2)) }
    pushRec s n 7 0 c (t + delta + (u - t) * (plainFactor s n x / old)) (sinceOr s since)

/-- The boundaries of device seconds that a forward change from a to b skips (R88). -/
def skippedSecs (a b : Nat) : Nat := b / secTicks - a / secTicks

/-- After a backward change of Plain the actions that were held past their due times wait for them again (R82, R174). -/
def unholdAll (s : State) : State :=
  let t := nowR s
  let early (a : QAct) : Bool := a.held && decide (t < (a.due : Rat))
  let s := (s.fods.map (·.1)).foldl (fun s n => hopUnhold s n t) s
  { s with scs := s.scs.map (fun p => (p.1, { p.2 with
      queue := p.2.queue.map (fun a => if early a then { a with held := false } else a) })) }

/-- Plain takes a new value by a step or a set, d being its ticks before (R68, R75, R81, R88, R137): the time-scale
entries, the tracking moves, the skipped seconds. -/
def plainJump (s : State) (new : Nat) (facts : List (Nat × Rat)) (since : Option Nat) : State :=
  let d0 : Rat := (s.time.plain : Rat) / 2 ^ 32
  let d1 : Rat := (new : Rat) / 2 ^ 32
  let delta := d1 - d0
  let a := s.time.plain / 2 ^ 32
  let b := new / 2 ^ 32
  let s := { s with time := { s.time with plain := new } }
  let s := if a < b then bump s (rTIME 0xA4) (skippedSecs a b) else s
  let s := (runningFods s).foldl (fun s n => timeEntry s n d0 delta (mget (fun _ => 1) facts n) since) s
  let s := shiftTimes s delta
  let s := (runningFods s).foldl (fun s n =>
    let x := fod s n
    if alignMode s n x then trackMove s n (reduceHalf (-delta) (nomPeriod x.n x.f x.m x.o (scQ s x.sc))) d1 since
    else s) s
  event (pushFlags (if delta < 0 then unholdAll s else s)) 15

/-- Y_base of R66. -/
def yBase (s : State) : Int :=
  if rbit s (rTIME 0) 0 then s.time.dpWord else sx 40 (rL s (rTIME 0x38) 2)

/-- The effective rate word from here on (R66, R68, R77), with the RATE_CLAMP fault where the clamp begins to act (log entry 182);
and whether a slew starts, ends or changes its rate. -/
def rateSet (s : State) : State × Bool :=
  let r := (slewRateOf s : Int) * 65536
  let ys : Int := if s.fcol.safe ∨ s.time.slewRem = 0 then 0 else if s.time.slewRem < 0 then -r else r
  let yb := if s.fcol.safe then s.time.ybase else yBase s
  let y := clampI (-wordMax) wordMax (yb + ys)
  let clamp := decide (y ≠ yb + ys)
  let changed := decide (ys ≠ s.time.yslew)
  let was := s.time.clamped
  let s := { s with time := { s.time with ybase := yb, y := y, yslew := ys, clamped := clamp } }
  let s := if clamp then orBits s (rTIME 4) 0x100 else s
  (if clamp ∧ ¬ was then raise s srcTime kRateClamp (rTIME 4) else s, changed)

/-- The time-scale entries of a slew's start or end (R68). -/
def rateEntries (s : State) (facts : List (Nat × Rat)) (since : Option Nat) : State :=
  (runningFods s).foldl (fun s n =>
    timeEntry s n ((s.time.plain : Rat) / 2 ^ 32) 0 (mget (fun _ => 1) facts n) since) s

/-- Y_slew is 0 from the entry into SAFE on, the remaining amount staying as it is (R69): the outputs that do not follow Plain have
their entries (R68). The AON period of the entry runs at Y_base as a whole (log entry 190). -/
def slewHalt (s : State) : State :=
  let facts := (runningFods s).map (fun n => (n, plainFactor s n (fod s n)))
  let ended := decide (s.time.yslew ≠ 0)
  let s := { s with time := { s.time with y := s.time.ybase, yslew := 0 } }
  if ended then (runningFods s).foldl (fun s n => timeEntry s n (nowR s) 0 (mget (fun _ => 1) facts n) none) s else s

/-- DP0's own set or step by an amount in ticks, which has acted, enters the list of its steps of the last 65.535 s (R189). -/
def ownStep (s : State) (amt : Int) : State :=
  if amt = 0 then s
  else
    let now : Int := nowT s
    let old := (dp s 0).steps.filter (fun p => decide (now - p.1 ≤ 65535 * 65536000000))
    setDp s 0 { dp s 0 with steps := (now, amt) :: old }

/-- The combined change of a boundary (R79): queued actions, DP0's set or step, landed TIME_CMD bits. `facts` are the
slew factors of the running FODs before the boundary. In SAFE no queued action executes, and the frozen DP0 sets and steps
nothing (R69, R434). -/
def timeChange (s : State) (facts : List (Nat × Rat)) : State :=
  let d : Rat := (s.time.plain : Rat) / 2 ^ 32
  let x0 : Dp := if timeMode s ∧ ¬ s.fcol.safe then dp s 0 else { dp s 0 with setBy := none, stepBy := none }
  let cmd := s.time.landed
  let cmdSet := if cmd.testBit 0 then setValue s else none
  let cmdStep := sx 64 (rL s (rTIME 0x40) 2)
  let dpSet : Option Int := match x0.setBy with
    | some e => if s.time.notSet then some ((s.time.plain / 2 ^ 32 : Nat) + e) else none
    | none => none
  let dpStep : Int := match x0.stepBy with
    | some e => if stepOk e then e else 0
    | none => 0
  let hasSet := cmdSet.isSome || dpSet.isSome
  let cStep : Int := if cmd.testBit 1 ∧ stepOk cmdStep then cmdStep else 0
  let live := if s.fcol.safe then [] else s.time.queue
  let due := (live.filter (fun a => decide ((a.due : Rat) ≤ d))).map (fun a => (a, false))
  let out := live.filter (fun a => !decide ((a.due : Rat) ≤ d))
  let joined := if hasSet then due else joinActs d (dpStep + cStep) 5 due out
  let inn := joined.map (·.1)
  let total := inn.foldl (fun a x => a + actStep x) (dpStep + cStep)
  let since : Option Nat := if cmd ≠ 0 ∨ x0.setBy.isSome ∨ x0.stepBy.isSome then none
    else if inn = [] then s.time.slewSince else some (inn.foldl (fun m a => max m a.seqNo) 0)
  let run := (sortActs (inn.map (fun a => (a, QId.time)))).map (·.1)
  let s := run.foldl (fun s a =>
    timeActRun (dropAct s .time a) a
      (joined.contains (a, true) || decide (d < (a.due : Rat)) && decide ((a.due : Rat) < d + total))) s
  -- DP0 and the commands, in order
  let s := match x0.stepBy with
    | some e => if stepOk e then s else raise s srcTime kStepRange (rTIME 4)
    | none => s
  let s := if cmd.testBit 0 ∧ cmdSet.isNone then raise s srcTime kSetRange (rTIME 4) else s
  let target : Option Nat := match cmdSet, dpSet with
    | some v, _ => some (v * 2 ^ 32)
    | none, some v => some ((v % (secTicks * 2 ^ 48 : Nat)).toNat * 2 ^ 32)
    | none, none => none
  let s := if cmd.testBit 1 ∧ ¬ stepOk cmdStep then raise s srcTime kStepRange (rTIME 4)
    else if cmd.testBit 1 ∧ hasSet then bump s (rTIME 0x9C) 1 else s
  let s := setDp s 0 { dp s 0 with setBy := none, stepBy := none }
  let s := match target with
    | some _ => flushQueues { s with time := { s.time with notSet := false, slewRem := 0 } }
    | none => s
  let s := if cmd.testBit 2 then slewAdd s (sx 48 (rL s (rTIME 0x48) 2)) none else s
  let s := if cmd.testBit 3 then { s with time := { s.time with slewRem := 0 } } else s
  let (s, changed) := rateSet { s with time := { s.time with landed := 0 } }
  match target with
  | some v => ownStep (plainJump s (v % plainMod) facts since) (if cmdSet.isSome then 0 else x0.setBy.getD 0)
  | none =>
    if total ≠ 0 then
      let s := ownStep (plainJump s (plainAdd s.time.plain (total * 2 ^ 32)) facts since) dpStep
      if s.fcol.safe then s else steppedActs s d total
    else if changed then rateEntries s facts since
    else s

/-- MASTER takes effect (R97, R132): an output that becomes aligned moves onto its grid. -/
def masterSet (s : State) (k : Nat) : State :=
  let old := (sc s k).master
  let m := scMaster s k
  if m = old then s
  else
    let s := setSc s k { sc s k with master := m }
    let t : Rat := (s.time.plain : Rat) / 2 ^ 32
    (fodsOn s k).foldl (fun s n =>
      if rbit s (rFOD n 0) 1 then
        if m = 0 then alignMove (plainTurn s n (plainRatio s) t) n t none
        else if old = 0 then plainTurn (alignOff s n) n 1 t else s
      else s) s

/-- W of an SC at a boundary (R97 to R100): the source's word, clamped, and the trail that becomes active. DCO_LIMIT is raised
at the boundary at which the clamp begins to act (log entry 149). -/
def steerSet (s : State) (k : Nat) : State :=
  let x := sc s k
  if x.frozen then s
  else
    let src := scSource s k
    let lim := dcoLimit s k
    let w := clampI (-lim) lim src
    let clamp := decide (w ≠ src)
    let s := setSc s k { x with w := w, clamped := clamp, trailOn := x.trailOn || decide (w ≠ s.time.ybase) }
    let s := if clamp then orBits s (rSC k 4) 0x800 else s
    if clamp ∧ ¬ x.clamped then raise s (srcSc k) kDcoLimit (rSC k 4) else s

/-- What each AON period adds to the trail's running sum (R100). -/
def trailTick (s : State) (k : Nat) : State :=
  let x := sc s k
  if x.trailOn then setSc s k { x with trailAcc := x.trailAcc + (x.w - s.time.ybase) } else s

/-- The ACTIVE module sends the words that DP1 to DP3 formed with the boundary at which they act, as its device time in
ticks (R472; log entry 111). -/
def sendWords (s : State) : State :=
  if s.standby then s
  else
    let w (d : Nat) : Int := match (dp s d).pipe with
      | p :: _ => p.2
      | [] => 0
    mateSend s 0x87 [(s.time.plain + 20 * (tickInc s).1) / 2 ^ 32, w 1, w 2, w 3]

/-- The Screed interval is spoilt where DP0 is not LOCKED or its slope limit acts (R207), and in WARM (R497). -/
def scrWatch (s : State) : State :=
  if (dp s 0).st ≠ 2 ∨ (dp s 0).psl ∨ rb s (rPWR 4) 1 3 = 2 then { s with scr := { s.scr with good := false } } else s

/-- The device seconds whose boundaries lie in (a, b], Plain advancing from a to b in sub-ticks (R88). -/
def secsPassed (a b : Nat) : List Nat := List.range' (a / secSub + 1) (b / secSub - a / secSub)

/-- The accumulator of DP k advances by an AON period (R196). -/
def accTick (s : State) (d : Nat) : State := setDp s d { dp s d with acc := plainAdd (dp s d).acc (aonSub (dp s d).word) }

/-- Plain at a boundary, with the steering trails, the modulators, the DTCs and the accumulators of the AON period before it and the
second boundaries that it passes (R65, R77, R88, R95, R100, R130). -/
def aonTick (s : State) : State :=
  let r := tickInc s
  let hi : Rat := ((s.time.plain : Rat) + r.1) / 2 ^ 32
  let s := (runningFods s).foldl (fun s n => dtcRun s n hi) s
  let s := upto 3 (fun s k => accTick s (k + 1)) (upto 8 (fun s k => dsRun (trailTick s k) k) s)
  let p := plainAdd s.time.plain r.1
  { s with
    cyc := 0
    time := { s.time with
      plain := p
      aon := s.time.aon + 1
      slewRem := r.2
      ppsOwed := s.time.ppsOwed ++ secsPassed s.time.plain p } }

/-- The interpolator at a boundary (R70, R73). -/
def aonInterp (s : State) (slip : Bool) : State :=
  if slip ∧ s.time.interp then
    raise { s with time := { s.time with interp := false } } srcTime kInterpSlip (rTIME 4)
  else if s.coreAwake ∧ ¬ s.time.interp ∧ ¬ srcFenced s srcTime then
    { s with time := { s.time with interp := true } }
  else s

/-- The word that DP0 publishes at a boundary, which Plain takes (R194 to R200). -/
def aonWords (s : State) : State :=
  let s := if s.coreAwake ∧ ¬ s.fcol.safe then scrWatch (dpPublish (dpEval s 0) 0) else s
  if s.coreAwake ∧ (dp s 0).st ≠ 4 then { s with time := { s.time with dpWord := (dp s 0).word } } else s

/-- The words that DP1 to DP3 publish at a boundary, over the Y_base in force from it on (R194 to R198, R204). -/
def aonDomains (s : State) : State :=
  if s.coreAwake ∧ ¬ s.fcol.safe then sendWords (upto 3 (fun s d => dpPublish (dpEval s (d + 1)) (d + 1)) s) else s

/-- The changes of a boundary and the rate word in force from it on (R77 to R83). -/
def aonRate (s : State) (facts : List (Nat × Rat)) : State := timeChange s facts

/-- Whether a time-scale action of a kind acts at the next boundary (R83). -/
def timeDueNext (s : State) (p : ActKind → Bool) : Bool :=
  !s.fcol.safe && s.time.queue.any (fun a => p a.kind && decide (a.due ≤ (nextT s : Int)))

end Sys2Proof.Machine
end

