-- ==== Sys2Proof/Machine/CapOps.lean ====
section
/-!
DEFINITION. The classifier and the capture rings (chapter 9): the parse of a tap and its verdict (R262 to R266), the
key and the first match (R267 to R270), admission to a ring (R279), records (R281), voids, delivery and conservation
(R283 to R287).
-/
namespace Sys2Proof.Machine

open Sys2Proof

-- rings

/-- The size of a ring in slots (R275). -/
def ringSize (s : State) (n : Nat) : Nat := 2 ^ rb s (rRING n 0) 4 4

/-- The slot that the k-th free-running count falls on. -/
def ringSlot (s : State) (n k : Nat) : Nat := (rb s (rRING n 0) 16 16 + k % ringSize s n) % 65536

/-- RING_FILL (R275). -/
def ringFill (x : RingSt) : Nat := (x.wr + 2 ^ 32 - x.rd) % 2 ^ 32

/-- The room of a drain channel's host buffer (R374). -/
def dmaRoom (s : State) (c : Nat) : Nat :=
  2 ^ rb s (rDMA c 0x68) 0 5 - (rn s (rDMA c 0x6C) + 2 ^ 32 - rn s (rDMA c 0x70)) % 2 ^ 32

/-- Brings the request of drain channel c to the pending fill P of its ring (R375): raised at DMA_HI, held above DMA_LO while
there is room and the channel is neither off nor paused. -/
def drainEval (s : State) (c : Nat) : State :=
  let x := dma s c
  let ctl := rn s (rDMA c 0)
  let p := ringFill (ring s (bits ctl 2 4))
  let lo := rb s (rDMA c 0x54) 0 17
  let hi := rb s (rDMA c 0x50) 0 17
  let hi := if hi ≤ lo then lo + 1 else hi
  let on := ctl.testBit 0 && ctl.testBit 1 && !ctl.testBit 6 && decide (1 ≤ dmaRoom s c)
  setDma s c { x with held := on && (decide (hi ≤ p) || (x.held && decide (lo < p))) }

/-- The channels that drain a ring. -/
def drainsOf (s : State) (n : Nat) : List Nat :=
  (List.range 16).filter (fun c => rb s (rDMA c 0) 0 2 = 3 ∧ rb s (rDMA c 0) 2 4 = n)

/-- Brings the requests of the channels that drain a ring, and OVER_TH, to the fill; its rise is the event of R305. -/
def ringOver (s : State) (n : Nat) : State :=
  let s := (drainsOf s n).foldl drainEval s
  let x := ring s n
  let ov := decide (rb s (rRING n 0x2C) 0 17 ≤ ringFill x)
  if ov = x.overTh then s
  else
    let s := setRing s n { x with overTh := ov }
    if ov then event s (32 + n) else s

/-- What a ring does with a record that is presented (R279). -/
inductive RingFate where
  | write (colour : Nat)
  | police
  | full
  deriving DecidableEq, Repr

/-- R279's admission: colour 0 green, 1 yellow, 2 red, 3 police; `tok` whether a token is there. The fate, and whether a
token is taken. -/
def ringAdmit (en pol tok : Bool) (fill size yel red colour : Nat) : RingFate × Bool :=
  if ¬ en then (.full, false)
  else
    let yl := if size < yel then size else yel
    let rl := if yl < red then yl else red
    let last (c : Nat) : RingFate :=
      let limit := if c = 0 then size else if c = 1 then yl else rl
      if size ≤ fill then .full else if limit ≤ fill then .police else .write c
    if colour = 3 then
      if ¬ pol then (last 0, false) else if tok then (last 0, true) else (last 2, false)
    else if colour = 1 ∧ pol then
      if tok then (last 1, true) else (.police, false)
    else (last colour, false)

/-- A counter of 64 bits that wraps (R454). -/
def wrap64 (n : Nat) : Nat := n % 2 ^ 64

/-- A ring after a record's fate: every record counts as ADMITTED, and exactly one of the other counts takes it (R279,
R284). -/
def ringTake (x : RingSt) (f : RingFate) (token : Bool) : RingSt :=
  let x := { x with admitted := wrap64 (x.admitted + 1), tokens := if token then x.tokens - 65536 else x.tokens }
  match f with
  | .write _ => { x with wr := (x.wr + 1) % 2 ^ 32, inFlight := x.inFlight + 1 }
  | .police => { x with police := wrap64 (x.police + 1) }
  | .full => { x with full := wrap64 (x.full + 1) }

/-- Presents a record to ring n (R279). `mk` gives the 128 bytes from ring, SEQ and final colour. The answer is the SEQ
and the final colour of the record where it was written. -/
def ringPresent (s : State) (n colour : Nat) (mk : Nat → Nat → Nat → List Byte) : State × Option (Nat × Nat) :=
  let x := ring s n
  let pol := rbit s (rRING n 0) 1
  let en := rbit s (rRING n 0) 0 && !srcFenced s srcCap
  let r := ringAdmit en pol (decide (65536 ≤ x.tokens)) (ringFill x) (ringSize s n) (rb s (rRING n 0x18) 0 17)
    (rb s (rRING n 0x1C) 0 17) colour
  let s1 := setRing s n (ringTake x r.1 r.2)
  match r.1 with
  | .write c =>
    (ringOver (setMbs s1 (0x80 * ringSlot s n x.wr) (mk n (x.wr % 65536) c)) n, some (x.wr % 65536, c))
  | _ => (orBits s1 (rRING n 4) 0x200, none)

/-- The TYPE of the record in a slot (R281). -/
def slotType (s : State) (slot : Nat) : Nat := (mb s (0x80 * slot)).toNat % 16

/-- Voids the record of a ring's k-th slot, where it is not void already: it counts as ABANDONED (R283, R287). A ring with no
record in flight voids none, whatever another ring wrote into a slot that the two share, so that R284's identity holds. -/
def ringVoid (s : State) (n k : Nat) : State :=
  let slot := ringSlot s n k
  if slotType s slot = 0 ∨ (ring s n).inFlight = 0 then s
  else
    let x := ring s n
    let s := setMb s (0x80 * slot) (mb s (0x80 * slot) &&& 0xF0)
    setRing s n { x with abandoned := wrap64 (x.abandoned + 1), inFlight := x.inFlight - 1 }

/-- The ring's read pointer passes one slot: a record that is not void counts as DELIVERED (R284). -/
def ringPass1 (s : State) (n : Nat) : State :=
  let x := ring s n
  let live := slotType s (ringSlot s n x.rd) ≠ 0 ∧ x.inFlight ≠ 0
  setRing s n { x with
    rd := (x.rd + 1) % 2 ^ 32
    delivered := if live then wrap64 (x.delivered + 1) else x.delivered
    inFlight := if live then x.inFlight - 1 else x.inFlight }

/-- The read pointer passes k slots. -/
def ringPass (s : State) (n : Nat) : Nat → State
  | 0 => ringOver s n
  | k + 1 => ringPass (ringPass1 s n) n k

/-- Voids every record in flight of a pair (R283). -/
def voidPair (s : State) (tag : Nat) (tgen : Bool) : State :=
  upto 16 (fun s n =>
    let x := ring s n
    upto (ringFill x) (fun s i =>
      let a := 0x80 * ringSlot s n (x.rd + i)
      if slotType s (ringSlot s n (x.rd + i)) = 1 ∧ leNat (mbs s (a + 0x12) 2) = tag ∧
          (mb s (a + 0x14)).getLsbD 0 = tgen then ringVoid s n (x.rd + i) else s) s) s

/-- RING_CFG.FLUSH, which acts while EN = 0 (R286). -/
def ringFlush (s : State) (n : Nat) : State :=
  if rbit s (rRING n 0) 0 then s
  else
    let x := ring s n
    let s := upto (ringFill x) (fun s i => ringVoid s n (x.rd + i)) s
    ringOver (setRing s n { ring s n with rd := (ring s n).wr }) n

/-- The ring that RING_ROUTE names for a kind of internal record: 0 SUPPLY, 1 FAULT, 2 POST, 3 COMPLETION (R278). -/
def ringRoute (s : State) (kind : Nat) : Nat := rb s 0x708040 (4 * kind) 4

/-- The common bytes of a record (R281): TYPE, ring, LEN, SEQ and T_FRAC with its flags, T_NS, T_SECL; then the four
words that belong to the type, and the header space. -/
def recBytes (type len ring seq time flags w10 w14 w18 w1c : Nat) (hdr : List Byte) : List Byte :=
  leBytes 4 (type + ring * 16 + len * 256 + seq * 65536) ++ leBytes 4 (tFrac time + flags * 65536) ++
  leBytes 4 (tNs time) ++ leBytes 4 (tSec time % 2 ^ 32) ++ leBytes 4 w10 ++ leBytes 4 w14 ++ leBytes 4 w18 ++
  leBytes 4 w1c ++ (hdr ++ List.replicate 96 0).take 96

/-- Presents an internal record, green (R278). -/
def presentInternal (s : State) (kind type len time flags w10 w14 w18 w1c : Nat) (hdr : List Byte) : State :=
  (ringPresent s (ringRoute s kind) 0 (fun r q _ => recBytes type len r q time flags w10 w14 w18 w1c hdr)).1

-- parsing a tap

/-- What a parse yields (R262 to R267). `v` is the set of validity bits in the order of R267. -/
structure Parsed where
  v : Nat := 0
  depth : Bool := false
  lenconf : Bool := false
  ntags : Nat := 0
  hsr : Bool := false
  prp : Bool := false
  l3 : Nat := 0
  udp : Bool := false
  etype : Nat := 0
  ovid : Nat := 0
  opcp : Nat := 0
  ivid : Nat := 0
  dmac : Nat := 0
  smac : Nat := 0
  proto : Nat := 0
  dscp : Nat := 0
  dport : Nat := 0
  sport : Nat := 0
  ipdst : Nat := 0
  ipsrc : Nat := 0
  appid : Nat := 0
  msgW : Nat := 0
  verW : Nat := 0
  domain : Nat := 0
  minorSdo : Nat := 0
  ptpFlags : Nat := 0
  portId : Nat := 0
  path : Nat := 0
  lan : Nat := 0
  ptp : Bool := false
  origin : Nat := 0
  deriving DecidableEq, Repr

/-- The n bytes at a place of a tap, first byte most significant. -/
def beAt (d : List Byte) (pos n : Nat) : Nat := beNat ((d.drop pos).take n)

/-- Whether a header of n bytes at pos lies within the tap (R263). -/
def fits (d : List Byte) (pos n : Nat) : Bool := decide (pos + n ≤ d.length)

/-- The place of a group's V bit in `Parsed.v`: L2, VLAN, L3, L4, PTP, APP, PRP. -/
def Parsed.mark (p : Parsed) (b : Nat) : Parsed := { p with v := p.v ||| 2 ^ b }

/-- A length condition of R264. -/
def Parsed.conflict (p : Parsed) (c : Bool) : Parsed := { p with lenconf := p.lenconf || c }

/-- The parser stops: DEPTH (R263). -/
def Parsed.stop (p : Parsed) : Parsed := { p with depth := true }

/-- The tags and the final ethertype (R262): the place after it, or none where the parser stopped. -/
def parseTags (d : List Byte) : Nat → Parsed → Nat → Parsed × Option Nat
  | 0, p, _ => (p.stop, none)
  | k + 1, p, pos =>
    if ¬ fits d pos 2 then (p.stop, none)
    else
      let et := beAt d pos 2
      if et = 0x8100 ∨ et = 0x88A8 then
        if p.ntags = 4 ∨ ¬ fits d pos 4 then (p.stop, none)
        else
          let tci := beAt d (pos + 2) 2
          let p := if p.ntags = 0 then { p with ovid := tci % 4096, opcp := tci / 8192 } else p
          parseTags d k { p with ntags := p.ntags + 1, ivid := tci % 4096 } (pos + 4)
      else if et = 0x892F then
        if p.hsr ∨ ¬ fits d pos 6 then (p.stop, none)
        else parseTags d k { p with hsr := true, path := beAt d (pos + 2) 1 / 16 } (pos + 6)
      else ({ p with etype := et }, some (pos + 2))

/-- The IPv6 extension headers (R262, R263): next header, place, their length; none where the parser stopped. -/
def parseExt (d : List Byte) : Nat → Nat → Nat → Nat → Option (Nat × Nat × Nat)
  | 0, nh, pos, len => if nh = 0 ∨ nh = 43 ∨ nh = 60 then none else some (nh, pos, len)
  | k + 1, nh, pos, len =>
    if nh = 0 ∨ nh = 43 ∨ nh = 60 then
      if ¬ fits d pos 2 then none
      else
        let n := (beAt d (pos + 1) 1 + 1) * 8
        if ¬ fits d pos n then none else parseExt d k (beAt d pos 1) (pos + n) (len + n)
    else some (nh, pos, len)

/-- The PTP common header at pos, and the originTimestamp (R262, R263); `avail` bounds messageLength (R264). -/
def parsePtp (d : List Byte) (cls1 : Bool) (p : Parsed) (pos : Nat) (avail : Int) : Parsed :=
  if ¬ fits d pos 34 then p.stop
  else
    let b0 := beAt d pos 1
    let p := { p with
      msgW := b0, verW := beAt d (pos + 1) 1, domain := beAt d (pos + 4) 1, minorSdo := beAt d (pos + 5) 1
      ptpFlags := beAt d (pos + 6) 2, portId := beAt d (pos + 20) 10, ptp := true }
    let p := (p.conflict (decide (avail < (beAt d (pos + 2) 2 : Int)))).mark 4
    if fits d pos 44 then
      { p with origin := beAt d (pos + 34) 6 * 1000000000 + beAt d (pos + 40) 4 }
    else if cls1 then p.stop else p

/-- The UDP header at pos where there is one, and what lies above it (R262, R264). -/
def parseUdp (d : List Byte) (cls1 : Bool) (p : Parsed) (pos : Nat) (udp : Bool) (pay : Int) : Parsed :=
  if ¬ udp then ((p.mark 3).mark 4)
  else if ¬ fits d pos 8 then p.stop
  else
    let n := beAt d (pos + 4) 2
    let dp := beAt d (pos + 2) 2
    let p := ({ p with udp := true, sport := beAt d pos 2, dport := dp }).mark 3
    let p := p.conflict (decide (n < 8) || decide (pay < (n : Int)))
    if dp = 319 ∨ dp = 320 then parsePtp d cls1 p (pos + 8) ((n : Int) - 8) else p.mark 4

/-- The parse of a tap (R262 to R265): the bytes, the frame length, whether it is a class-1 egress tap. -/
def parseTap (d : List Byte) (flen : Nat) (cls1 : Bool) : Parsed :=
  let p : Parsed := { lenconf := decide (flen < d.length) }
  if ¬ fits d 0 12 then p.stop
  else
    let p := ({ p with dmac := beAt d 0 6, smac := beAt d 6 6 }).mark 0
    match parseTags d 8 p 12 with
    | (p, none) => p
    | (p, some pos) =>
      let p := p.mark 1
      let n := d.length
      let whole := decide (n + 4 = flen)
      let lsdu := n - 12 - 4 * p.ntags
      let prp := whole && decide (6 ≤ n) && decide (beAt d (n - 2) 2 = 0x88FB) &&
        decide (beAt d (n - 4) 2 % 4096 = lsdu)
      let p := if whole then p.mark 6 else p
      let p := if prp then { p with prp := true, lan := beAt d (n - 4) 1 / 16 } else p
      let room : Int := (flen : Int) - 4 - pos - (if prp then 6 else 0)
      let app := decide (p.etype = 0x88BA ∨ p.etype = 0x88B8)
      let done (p : Parsed) : Parsed := if p.depth then p else p.mark 5
      if p.etype = 0x0800 then
        let hl := max 20 (beAt d pos 1 % 16 * 4)
        if ¬ fits d pos 20 ∨ ¬ fits d pos hl then p.stop
        else
          let tot := beAt d (pos + 2) 2
          let frag := beAt d (pos + 6) 2 % 16384
          let pr := beAt d (pos + 9) 1
          let p := ({ p with
            l3 := 1, dscp := beAt d (pos + 1) 1 / 4, proto := pr, ipsrc := beAt d (pos + 12) 4
            ipdst := beAt d (pos + 16) 4 }).mark 2
          let p := p.conflict (decide (room < (tot : Int)))
          done (parseUdp d cls1 p (pos + hl) (decide (pr = 17) && decide (frag = 0)) ((tot : Int) - hl))
      else if p.etype = 0x86DD then
        if ¬ fits d pos 40 then p.stop
        else
          let pl := beAt d (pos + 4) 2
          let tc := beAt d pos 2 / 16 % 256
          let p := p.conflict (decide (room < (pl : Int) + 40))
          match parseExt d 2 (beAt d (pos + 6) 1) (pos + 40) 0 with
          | none => p.stop
          | some (nh, pos', ext) =>
            let p := ({ p with
              l3 := 2, dscp := tc / 4, proto := nh, ipsrc := beAt d (pos + 8) 16, ipdst := beAt d (pos + 24) 16 }).mark 2
            done (parseUdp d cls1 p pos' (decide (nh = 17)) ((pl : Int) - ext))
      else
        let p := (p.mark 2).mark 3
        if p.etype = 0x88F7 then done (parsePtp d cls1 p pos room)
        else
          let p := p.mark 4
          if app then
            if ¬ fits d pos 8 then p.stop
            else (({ p with appid := beAt d pos 2 }).conflict (decide (room < (beAt d (pos + 2) 2 : Int)))).mark 5
          else done p

/-- The parse of a slot's tap, none without one. -/
def slotParse (e : EventMsg) (t : Option TapMsg) : Option Parsed :=
  t.map (fun t => parseTap t.bytes t.flen (decide (e.cls = 1) && e.tx))

/-- A field of a validity group: zero where the group is not valid (R267). -/
def Parsed.f (p : Parsed) (g x : Nat) : Nat := if p.v.testBit g then x else 0

/-- The ten words of the key (R267). -/
def keyWords (e : EventMsg) (port : Nat) (q : Option Parsed) : List Nat :=
  let p := q.getD {}
  [port + b2n e.tx * 2 ^ 7 + e.cls.val * 2 ^ 8 + b2n e.recirc * 2 ^ 11 + p.f 1 p.ntags * 2 ^ 12 + p.f 1 (b2n p.hsr) * 2 ^ 15 +
     p.f 6 (b2n p.prp) * 2 ^ 16 + p.f 2 p.l3 * 2 ^ 17 + p.f 3 (b2n p.udp) * 2 ^ 19 + b2n p.depth * 2 ^ 20 +
     b2n p.lenconf * 2 ^ 21 + b2n q.isSome * 2 ^ 22 + p.v * 2 ^ 23,
   p.f 1 p.etype + p.f 1 p.ovid * 2 ^ 16 + p.f 1 p.opcp * 2 ^ 28,
   p.f 1 p.ivid + p.f 0 (p.dmac / 2 ^ 32) * 2 ^ 16, p.f 0 (p.dmac % 2 ^ 32),
   p.f 2 p.proto + p.f 2 p.dscp * 2 ^ 8 + p.f 3 p.dport * 2 ^ 16, p.f 2 (p.ipdst % 2 ^ 32),
   p.f 3 p.sport + p.f 5 p.appid * 2 ^ 16,
   p.f 4 (p.msgW + p.verW * 2 ^ 8 + p.domain * 2 ^ 16 + p.minorSdo * 2 ^ 24),
   p.f 4 (p.ptpFlags + p.portId % 65536 * 2 ^ 16),
   p.f 1 p.path + p.f 6 p.lan * 2 ^ 4]

/-- The bits of each key word that belong to a validity group (R267). -/
def groupBits : Nat → List Nat
  | 0 => [0, 0, 0xFFFF0000, 0xFFFFFFFF, 0, 0, 0, 0, 0, 0]
  | 1 => [0xF000, 0x7FFFFFFF, 0xFFF, 0, 0, 0, 0, 0, 0, 0xF]
  | 2 => [0x60000, 0, 0, 0, 0x3FFF, 0xFFFFFFFF, 0, 0, 0, 0]
  | 3 => [0x80000, 0, 0, 0, 0xFFFF0000, 0, 0xFFFF, 0, 0, 0]
  | 4 => [0, 0, 0, 0, 0, 0, 0, 0xFFFFFFFF, 0xFFFFFFFF, 0]
  | 5 => [0, 0, 0, 0, 0, 0, 0xFFFF0000, 0, 0, 0]
  | 6 => [0x10000, 0, 0, 0, 0, 0, 0, 0, 0, 0xF0]
  | _ => [0, 0, 0, 0, 0, 0, 0, 0, 0, 0]

/-- Whether an entry's key and mask match a key (R268). -/
def keyMatch (k key mask : List Nat) : Bool :=
  let v := bits (k.headD 0) 23 7
  (List.zipWith (fun (a : Nat × Nat) m => decide ((a.1 ^^^ a.2) &&& m = 0)) (k.zip key) mask).all id &&
  (List.range 7).all (fun g => v.testBit g ||
    (List.zipWith (fun b m => decide (b &&& m = 0)) (groupBits g) mask).all id)

/-- ECAM_GEN.ACTIVE and DRAINING. -/
def ecamActive (s : State) : Nat := rb s 0x600004 0 1
def ecamDraining (s : State) : Bool := rbit s 0x600004 1

/-- Whether the ECAM is fenced; EN = 0 acts as a fence (R288, R290). -/
def ecamOut (s : State) : Bool := srcFenced s srcEcam || !rbit s 0x600000 0

/-- Whether a generation's rules are those of a key: it is the active one or drains (R272 to R274). -/
def genLive (s : State) (g : Nat) : Bool := decide (g = ecamActive s) || ecamDraining s

/-- The lowest valid entry of a generation that matches (R268); none takes ECAM_DEFAULT. -/
def ecamFind (s : State) (k : List Nat) (g : Nat) : Option Nat :=
  if ecamOut s ∨ ¬ genLive s g then none
  else (List.range 512).find? (fun e =>
    let c := rn s (rENT e 0x54)
    c.testBit 0 && decide (bits c 1 1 = g) &&
    keyMatch k ((List.range 10).map (fun i => rn s (rENT e (4 * i)))) ((List.range 10).map (fun i => rn s (rENT e (0x28 + 4 * i)))))

/-- The action word of a lookup's answer (R268, R269). -/
def ecamAction (s : State) (e : Option Nat) : Nat :=
  match e with
  | some e => rn s (rENT e 0x50)
  | none => rn s 0x600010

/-- The flow hash (R277). -/
def flowHash (s : State) (q : Option Parsed) : Nat :=
  let p := q.getD {}
  let be (n v : Nat) : List Byte := (leBytes n v).reverse
  crcRun (rn s 0x708044) (be 6 (p.f 0 p.dmac) ++ be 6 (p.f 0 p.smac) ++ be 2 (p.f 1 p.ovid) ++ be 2 (p.f 1 p.etype) ++
    be 16 (p.f 2 p.ipsrc) ++ be 16 (p.f 2 p.ipdst) ++ be 2 (p.f 3 p.sport) ++ be 2 (p.f 3 p.dport) ++
    be 1 (p.f 4 p.domain) ++ be 10 (p.f 4 p.portId) ++ be 2 (p.f 5 p.appid)) ^^^ 0xFFFFFFFF

/-- The ring of a group and a flow hash (R277). -/
def ringOf (s : State) (g h : Nat) : Nat :=
  let c := rn s (0x708000 + 4 * g)
  let size := if bits c 4 2 = 0 then 1 else if bits c 4 2 = 1 then 2 else 4
  (bits c 0 4 + h % size) % 16

/-- The verdict of a tap that the parse and the rule give (R266), 0 where it is OK. -/
def tapVerdict (s : State) (p : Parsed) (nocorr : Bool) : Nat :=
  if p.lenconf then 4 else if p.depth then 3
  else if ¬ p.ptp ∨ (p.udp ∧ p.dport = 320) ∨ 4 ≤ p.msgW % 16 then 8
  else if nocorr ∧ ¬ ecamOut s then 7 else 0

/-- The number of keys that await lookup and of held ingress entries of a generation (R272). -/
def inFlightOf (s : State) (g : Nat) : Nat :=
  s.lanes.foldl (fun a p => a + (p.2.slots.filter (fun x => x.waits && decide (x.gen = g))).length) 0 +
  (s.ingress.filter (fun i => decide (i.gen = g))).length

/-- The CRC of a generation's valid entries (R290). -/
def ecamSig (s : State) (g : Nat) : Nat :=
  let es := (List.range 512).filter (fun e => rbit s (rENT e 0x54) 0 && decide (rb s (rENT e 0x54) 1 1 = g))
  crc32c (es.flatMap (fun e => (List.range 21).flatMap (fun i => leBytes 4 (rn s (rENT e (4 * i))))))

end Sys2Proof.Machine
end

