-- ==== Sys2Proof/Machine/PortOps.lean ====
section
/-!
DEFINITION. Port timestamping and corrections (chapter 8): resolving and converting counts (R234 to R240, R547), slots
and credits (R229 to R233), the ingress table (R249, R254, R255), corrections (R250 to R253), port calibration (R243 to
R246), beacons (R242, R247).
-/
namespace Sys2Proof.Machine

open Sys2Proof

-- conversion

/-- The cycle nearest to c0 whose number is `count` modulo 2^32 (R234). -/
def nearCycle (c0 : Int) (count : Nat) : Int := c0 + sx 32 (tw 32 ((count : Int) - c0))

/-- The period of a cycle under its record (R183, R237). -/
def cyclePeriod (recs : List ChRec) (c : Int) : Rat :=
  match converts recs c with
  | some r => r.period + ((c - r.cycle : Int) : Rat) * r.slope
  | none => 0

/-- Resolves a count in one numbering: the cycle, its edge, its period (R234, R237). -/
def resolveIn (s : State) (recs : List ChRec) (as : List Anchor) (count : Nat)
    (lo hi : Rat) : Option (Int × Rat × Rat) :=
  match edgeBefore s recs as hi with
  | none => none
  | some (c0, _) =>
    let c := nearCycle c0 count
    match tauIn s recs as c with
    | some t => if lo ≤ t ∧ t ≤ hi then some (c, t, cyclePeriod recs c) else none
    | none => none

/-- The state with the actions queued on an FOD for times up to `hi` executed (R234). -/
def fodAhead (s : State) (n : Nat) (hi : Rat) : State :=
  let l := sortActs (((fod s n).queue.filter (fun a => !a.held && decide ((a.due : Rat) ≤ hi))).map (fun a => (a, QId.fod n)))
  l.foldl (fun s p => fodActRun s n p.1 p.1.due none false) s

/-- Resolves a count of an FOD's output in its present numbering or the one before (R223, R234): τ and the period;
none for STALE_COUNT. -/
def resolve (s : State) (n count : Nat) (lo hi : Rat) : Option (Rat × Rat) :=
  let x := fod s n
  let now := if x.driving then resolveIn s x.recs x.anchors count lo hi else none
  let old := match x.prev with
    | some p => match resolveIn s p.recs p.anchors count lo hi with
      | some (c, t, T) => if t ≤ p.last then some (c, t, T) else none
      | none => none
    | none => none
  match now, old with
  | some (_, t, T), none => some (t, T)
  | none, some (_, t, T) => some (t, T)
  | _, _ => none

/-- Resolves a count of a port: where the mate owns the port's clock and has sent records of the FOD, in those (R483). -/
def resolvePort (s : State) (p n count : Nat) (lo hi : Rat) : Option (Rat × Rat) :=
  let l := mget (fun _ => []) s.mate.ledger n
  if rbit s (rMATE 0) 0 ∧ rbit s (rMATE (0x100 + 4 * (p / 32))) (p % 32) ≠ s.mate.slotB ∧ l ≠ [] then
    (resolveIn s l (mget (fun _ => []) s.mate.anchors n) count lo hi).map (fun r => (r.2.1, r.2.2))
  else resolve s n count lo hi

/-- A signed 32-bit value of two WM words. -/
def s32 (s : State) (off : Nat) : Int := sx 32 (rM s off 2)

/-- PORT_FOD. -/
def portFod (s : State) (p : Nat) : Nat := rb s (rPORT p 0x0C) 0 7

/-- Line bits per port-clock cycle (R228). -/
def portBits (s : State) (p : Nat) : Rat :=
  ((atLeast1 (rb s (rPORT p 0x10) 0 16) : Nat) : Rat) / ((atLeast1 (rb s (rPORT p 0x14) 0 8) : Nat) : Rat)

/-- PORT_PI_RES as it acts (R259). -/
def portPiRes (s : State) (p : Nat) : Nat :=
  let v := atLeast1 (rb s (rPORT p 0x18) 0 9)
  if 256 < v then 256 else v

/-- The flags of a port's stamps that its state gives, for a cycle whose edge lies at device time t: DEGRADED, CAL_DEFERRED,
COUNT_LOST (R240). -/
def portFlags (s : State) (p : Nat) (t : Rat) : Nat :=
  let st := rn s (rPORT p 4)
  b2n (fodDark s (portFod s p) t) + 4 * b2n (st.testBit 2) + 8 * b2n (st.testBit 4)

/-- The conversion of an event (R234, R235, R239, R240, R547) at its arrival: the state with its counts and faults, the
stamp, the exact raw time, τ. SLOW is judged first, where its output edge has come (R224). -/
def stampEvent (s : State) (p : Nat) (e : EventMsg) : State × Stamp × Option Rat × Option Rat :=
  let s := slowSettle s (portFod s p)
  let st := rn s (rPORT p 4)
  let f := portFlags s p (nowR s)
  if ¬ rbit s (rPORT p 0) 0 then (s, ⟨none, f ||| 2, true⟩, none, none)
  else if st.testBit 6 then (bumpM s (rPORT p 0x7C), ⟨none, f ||| 2, true⟩, none, none)
  else if st.testBit 4 then (s, ⟨none, f, false⟩, none, none)
  else
    let n := portFod s p
    let ta := nowR s
    let lo := ta - 65536000000
    let hi := if e.tx then ta + 2 * usT else ta
    let a := if e.tx then fodAhead s n hi else s
    match resolvePort a p n e.count.toNat lo hi with
    | none =>
      (raise (bumpM s (rPORT p 0x7C)) (srcEl (p / 8)) kStaleCount p, ⟨none, f ||| 2, false⟩, none, none)
    | some (t, T) =>
      let ui := T / portBits s p
      let inCyc : Rat := if e.tx then (e.bitofs : Rat) else (e.bitofs : Rat) + (e.picode : Rat) / (portPiRes s p : Rat)
      let raw := t + inCyc * ui
      let tt := rfloor (if e.tx then raw + (s32 s (rPORT p 0x40) : Rat) else raw - (s32 s (rPORT p 0x48) : Rat))
      let s := bumpM s (rPORT p 0x94)
      let s := if e.tx ∧ ta < t then
          let x := fod s n
          setFod s n { x with leads := (p, t, s.order) :: x.leads.filter (fun q => decide (ta < q.2.1)) }
        else s
      (s, ⟨some tt, portFlags s p t, false⟩, some raw, some t)

-- lanes and credits

/-- Whether a lane is fenced. -/
def elFenced (s : State) (l : Nat) : Bool := srcFenced s (srcEl l)
/-- Whether a correction lane is fenced. -/
def clFenced (s : State) (l : Nat) : Bool := srcFenced s (srcCl l)

/-- Sends a message on a CL, where the lane holds lock and is not fenced (R257). -/
def clSend (s : State) (l : Nat) (bytes : List Byte) : State :=
  if (lane s l).cl ∧ ¬ clFenced s l then emit s (.cl l bytes) else s

/-- A bad block (R221, R225, R255 without the fault). -/
def badBlk (s : State) (l : Nat) : State := raise (bump s (rEL l 0x18)) (srcEl l) kBadBlock (rEL l 4)

/-- Slots occupied in a pool: reserve or general (R229, R231). -/
def slotsIn (x : LaneSt) (reserve : Bool) : Nat := (x.slots.filter (fun e => decide (e.ev.reserve = reserve))).length

/-- A CREDIT message (R230). -/
def creditMsg (init : Bool) (g r : Nat) : List Byte :=
  [0x71, if init then 1 else 0, BitVec.ofNat 8 g, BitVec.ofNat 8 r, 0, 0, 0, 0]

/-- Sends a CREDIT_SYNC marker, which awaits its echo (R231). -/
def sendMarker (s : State) (l : Nat) : State :=
  let x := lane s l
  let s := clSend s l [0x72, BitVec.ofNat 8 x.nextN, 0, 0, 0, 0, 0, 0]
  setLane s l { x with marker := some (x.nextN, 0, 0), nextN := (x.nextN + 1) % 256 }

/-- A CAL_REQ (R245): START with the tag base and count, or STOP; a STANDBY module sends none (R484). -/
def calReq (s : State) (p : Nat) (start : Bool) (base : Nat) : State :=
  if s.standby then s
  else clSend s (p / 8) [0x73, BitVec.ofNat 8 (p % 8), if start then 1 else 2, 0, BitVec.ofNat 8 base,
    BitVec.ofNat 8 (base / 256), if start then 16 else 0, 0]

/-- An ACTIVE module sends the STOPs that are due on a lane whose link is up (R352, R484). -/
def calStops (s : State) (l : Nat) : State :=
  if s.standby ∨ ¬ (lane s l).up then s
  else
    let ps := s.cal.stops.filter (fun p => decide (p / 8 = l))
    let s := { s with cal := { s.cal with stops := s.cal.stops.filter (fun p => decide (p / 8 ≠ l)) } }
    ps.foldl (fun s p => calReq s p false 0) s

/-- The credit link comes up: a STOP that a reset left due, INIT with 24 and 8, and a marker at once (R233, R352). The slots start
empty. -/
def linkUp (s : State) (l : Nat) : State :=
  let x := lane s l
  if x.el ∧ x.cl ∧ ¬ x.up ∧ ¬ elFenced s l ∧ ¬ clFenced s l then
    let s := calStops (setLane s l { x with up := true, ready := false, slots := [], dropTap := false }) l
    sendMarker (clSend s l (creditMsg true 24 8)) l
  else s

/-- The credit link goes down (R233). -/
def linkDown (s : State) (l : Nat) : State :=
  setLane s l { lane s l with up := false, ready := false, marker := none, dropTap := false }

/-- A failed audit (R231). -/
def auditFail (s : State) (l : Nat) : State :=
  let s := orBits (bump s (rEL l 0x10)) (rEL l 4) 8
  if s.standby then s else raise s (srcEl l) kCreditAudit (rEL l 4)

/-- The echo of a marker (R231, R233). -/
def echoIn (s : State) (l n fg fr : Nat) : State :=
  let x := lane s l
  match x.marker with
  | none => s
  | some (m, rg, rr) =>
    let ok := decide (n = m) && decide (fg + slotsIn x false + rg = 24) && decide (fr + slotsIn x true + rr = 8)
    let s := setLane s l { x with marker := none, ready := x.up }
    let s := bump s (rEL l 0x0C)
    if ok then s else auditFail s l

-- the ingress table

/-- The held entry of a pair. -/
def ingOf (s : State) (tag : Nat) (g : Bool) : Option Ing :=
  s.ingress.find? (fun i => decide (i.tag = tag) && decide (i.tgen = g))

/-- The state with the entry of its pair replaced. -/
def setIng (s : State) (i : Ing) : State :=
  { s with ingress := s.ingress.map (fun j => if j.tag = i.tag ∧ j.tgen = i.tgen then i else j) }

/-- The reason kept for a pair that has no entry: OVERFLOW or ABORTED, for 1 ms after the SFD (R249, R255). -/
def goneWhy (s : State) (tag : Nat) (g : Bool) : Option Nat :=
  (s.gone.find? (fun p => decide (p.1 = tag) && decide (p.2.1 = g) && decide ((nowT s : Int) ≤ p.2.2.2))).map (·.2.2.1)

/-- Keeps a reason for a pair until 1 ms after its SFD. -/
def keepGone (s : State) (tag : Nat) (g : Bool) (why : Nat) (sfd : Int) : State :=
  { s with gone := (tag, g, why, sfd + 65536000000) :: s.gone.filter (fun p =>
      !(decide (p.1 = tag) && decide (p.2.1 = g)) && decide ((nowT s : Int) ≤ p.2.2.2)) }

/-- The DELIVERY record of a retired entry (R280 to R282): none in SAFE (R289), none in a STANDBY module (R484). -/
def presentDelivery (s : State) (w : Owed) : State :=
  let i := w.i
  if ¬ i.action.testBit 10 ∨ s.fcol.safe ∨ s.standby then s
  else
    let cnt := ((List.range 128).filter (fun p => i.egress.testBit p)).length
    let colour := match i.cap with
      | some (_, c) => c
      | none => 2
    let seq := match i.cap with
      | some (q, _) => q + 65536
      | none => 0
    (ringPresent s i.ring colour (fun r q _ =>
      recBytes 2 16 r q w.t (w.fl + w.code * 2 ^ 9) (i.port + i.tag * 65536)
        (b2n i.tgen + cnt * 256 + min i.applied 255 * 65536) seq 0 (leBytes 16 i.egress))).1

/-- Whether two entries are of one frame. -/
def sameIng (i j : Ing) : Bool := decide (i.tag = j.tag) && decide (i.tgen = j.tgen) && decide (i.sfd = j.sfd)

/-- Whether a correction of an entry's frame is still due on any lane. -/
def corrsLeft (s : State) (i : Ing) : Bool :=
  s.lanes.any (fun p => p.2.corrs.any (fun c => match c.ing with
    | some j => sameIng i j
    | none => false))

/-- The DELIVERY records of frames whose corrections have all been sent or lost (R281). -/
def owedRun (s : State) : State :=
  let now := s.owed.filter (fun w => !corrsLeft s w.i)
  now.foldl presentDelivery { s with owed := s.owed.filter (fun w => corrsLeft s w.i) }

/-- Retires an entry with a RETIRE code (R249, R254, R255, R282); its DELIVERY record follows as soon as none of its
corrections is due any more (R281; log entry 158). -/
def retire (s : State) (i : Ing) (code : Nat) : State :=
  owedRun { s with
    ingress := s.ingress.filter (fun j => !(decide (j.tag = i.tag) && decide (j.tgen = i.tgen)))
    owed := s.owed ++ [⟨i, code, readT s, timeFlags s⟩] }

/-- A correction of an entry's frame has been sent with APPLY = 1 (R281). -/
def noteApplied (s : State) (i : Ing) : State :=
  let up (j : Ing) : Ing := if sameIng i j then { j with applied := j.applied + 1 } else j
  { s with ingress := s.ingress.map up, owed := s.owed.map (fun w => { w with i := up w.i }) }

/-- Pairs a transmit EVENT with a held entry (R251, R254, R282): its port joins the bitmap, LAST retires the entry. -/
def pairIng (s : State) (i : Ing) (e : EventMsg) (p : Nat) : State :=
  let i' := { i with egress := i.egress ||| 2 ^ p }
  if e.last then retire (setIng s i') i' 0 else setIng s i'

/-- The corrections of every lane that wait for an entry of a pair, as (lane, place, correction), in order of arrival. -/
def waitingFor (s : State) (tag : Nat) (g : Bool) : List (Nat × Nat × Corr) :=
  let all := (List.range 16).flatMap (fun l => ((lane s l).corrs.zip (List.range (lane s l).corrs.length)).filterMap (fun q =>
    if q.1.wait ∧ q.1.ev.tag.toNat = tag ∧ q.1.ev.gen = g then some (l, q.2, q.1) else none))
  all.foldl (fun acc a => acc.takeWhile (fun b => decide (b.2.2.arrival ≤ a.2.2.arrival)) ++
    a :: acc.dropWhile (fun b => decide (b.2.2.arrival ≤ a.2.2.arrival))) []

/-- The state with the correction at a place of a lane. -/
def setCorr (s : State) (l k : Nat) (c : Corr) : State := setLane s l { lane s l with corrs := lset (lane s l).corrs k c }

/-- The corrections that wait for an entry pair with it in the order in which their EVENTs arrived, until LAST retires it
(R251, R254). -/
def pairWaiting (s : State) (i : Ing) : State :=
  (waitingFor s i.tag i.tgen).foldl (fun s q =>
    match ingOf s i.tag i.tgen with
    | some j => pairIng (setCorr s q.1 q.2.1 { q.2.2 with wait := false, ing := some j }) j q.2.2.ev (8 * q.1 + q.2.2.ev.pil.val)
    | none => s) s

/-- A transmit EVENT of a pair arrives (R282): its port joins the bitmap of the pair's entry, or waits for the entry for 1 ms
(log entry 159). -/
def noteEgress (s : State) (e : EventMsg) (p : Nat) : State :=
  match ingOf s e.tag.toNat e.gen with
  | some i => setIng s { i with egress := i.egress ||| 2 ^ p }
  | none =>
    let now := nowT s
    { s with early := (e.tag.toNat, e.gen, p, now) :: s.early.filter (fun q => decide (now ≤ q.2.2.2 + 65536000000)) }

/-- Holds an ingress entry (R249), or keeps OVERFLOW for a class-0 entry that finds both parts full, also for the corrections
that wait for it. -/
def holdIng (s : State) (i : Ing) : State :=
  let res := (s.ingress.filter (·.reserve)).length
  let gen := s.ingress.length - res
  let c0 := decide (i.cls = 0)
  let s := if c0 ∧ 2048 ≤ res then orBits s 0x50800C 2 else s
  let s := { s with gone := s.gone.filter (fun p => !(decide (p.1 = i.tag) && decide (p.2.1 = i.tgen))) }
  let mine (p : Nat × Bool × Nat × Nat) : Bool := decide (p.1 = i.tag) && decide (p.2.1 = i.tgen)
  let young (p : Nat × Bool × Nat × Nat) : Bool := decide (nowT s ≤ p.2.2.2 + 65536000000)
  let i := { i with egress := (s.early.filter (fun p => mine p && young p)).foldl (fun a p => a ||| 2 ^ p.2.2.1) i.egress }
  let s := { s with early := s.early.filter (fun p => !mine p) }
  if c0 ∧ res < 2048 then pairWaiting { s with ingress := { i with reserve := true } :: s.ingress } i
  else if gen < 6144 then pairWaiting { s with ingress := { i with reserve := false } :: s.ingress } i
  else if c0 then
    (waitingFor s i.tag i.tgen).foldl (fun s q => setCorr s q.1 q.2.1 { q.2.2 with wait := false, why := 9 })
      (keepGone s i.tag i.tgen 9 i.sfd)
  else s

-- calibration

/-- Starts a port's calibration (R244, R245). -/
def calStart (s : State) (p : Nat) : State :=
  let base := Config.calTagBase s.free % 65536
  let s := { s with free := s.free + 1 }
  let s := setPort s p { port s p with cal := some ⟨base, 0, [], []⟩, calDone := none }
  calReq (orBits s (rPORT p 4) 8) p true base

/-- The mean of receive less transmit raw time over the frames of which both came, where 16 did (R243, R246). -/
def calMean (c : PortCal) : Option Rat :=
  let pairs := c.rx.filterMap (fun r => (c.tx.find? (fun t => decide (t.1 = r.1))).map (fun t => r.2 - t.2))
  if pairs.length < 16 then none else some ((pairs.foldl (· + ·) 0) / (pairs.length : Rat))

/-- Ends a port's calibration and judges it (R243, R245, R246). -/
def calFinish (s : State) (p : Nat) : State :=
  let x := port s p
  match x.cal with
  | none => s
  | some c =>
    let s := calReq (clrBits s (rPORT p 4) 8) p false 0
    let reject (s : State) (l : Option Int) : State :=
      raise (orBits (setPort s p { x with cal := none, calDone := some (false, l) }) (rPORT p 4) 0x400) (srcEl (p / 8))
        kCalImplausible p
    match calMean c with
    | none => reject s none
    | some L =>
      let d := L - (rM s (rPORT p 0x30) 2 : Rat)
      if (rM s (rPORT p 0x38) 2 : Rat) < (if d < 0 then -d else d) then reject s (some (rfloor L))
      else
        let sp := rb s (rPORT p 0x2C) 0 9
        let sp : Rat := ((if 256 < sp then 256 else sp : Nat) : Rat)
        let s := setPort s p { x with cal := none, calDone := some (true, some (rfloor L)), stored := true }
        let s := wM s (rPORT p 0x40) 2 (tw 32 (rfloor (L * sp / 256) + s32 s (rPORT p 0x1C)))
        let s := wM s (rPORT p 0x48) 2 (tw 32 (rfloor (L * (256 - sp) / 256) + s32 s (rPORT p 0x24)))
        let s := wM s (rPORT p 0x50) 2 (tw 32 (rfloor L))
        let t := readT s
        let s := wM (wM (wM s (rPORT p 0xA0) 1 (tFrac t)) (rPORT p 0xA4) 2 (tNs t)) (rPORT p 0xAC) 3 (tSec t)
        wb (wb s (rPORT p 4) 1 1 1) (rPORT p 4) 2 1 0

/-- A calibration event (R245): its raw time, where it converted, joins the port's calibration; the 16th receive event ends
it. -/
def calEvent (s : State) (p : Nat) (e : EventMsg) (raw : Option Rat) : State :=
  let x := port s p
  match x.cal with
  | some c =>
    let t := (raw.map (fun t => (e.tag.toNat, t))).toList
    let c := if e.tx then { c with tx := t ++ c.tx } else { c with rx := t ++ c.rx, seen := c.seen + 1 }
    let s := setPort s p { x with cal := some c }
    if 16 ≤ c.seen ∧ ¬ e.tx then calFinish s p else s
  | none => s

-- events

/-- The rule generation of a key (R272). -/
def genFor (s : State) (e : EventMsg) : Nat :=
  if e.tx ∨ e.recirc then
    match ingOf s e.tag.toNat e.gen with
    | some i => i.gen
    | none => ecamActive s
  else ecamActive s

/-- What follows when an EVENT is whole, with its TAP or without one: the parse and its counts, the generation, the
calibration frame, the ingress entry, the correction due (R245, R248 to R251, R266, R272). An entry whose count did not
convert counts its 1 ms from the arrival of its EVENT (log entry 160). In SAFE only the parse and the lookup follow (R258,
R289). -/
def finishSlot (s : State) (l : Nat) (x : ESlot) : State :=
  let e := x.ev
  let p := 8 * l + e.pil.val
  let put (s : State) (y : ESlot) : State :=
    let z := lane s l
    setLane s l { z with slots := z.slots.map (fun w => if w.open_ then y else w) }
  let q := slotParse e x.tap
  let s := match q with
    | some q =>
      let s := if q.depth then bump s 0x600028 else s
      if q.lenconf then bump s 0x60002C else s
    | none => s
  if s.fcol.safe then put s { x with open_ := false, waits := !e.cal }
  else
    if e.cal then calEvent (put s { x with open_ := false, waits := false }) p e x.raw
    else
      let g := x.gen
      let s := put s { x with open_ := false, waits := true }
      let act := ecamAction s (ecamFind s (keyWords e p q) g)
      let verdict := match q with
        | some q => tapVerdict s q (act.testBit 11)
        | none => 5
      if ¬ e.tx then
        if e.recirc then s
        else
          let s := match ingOf s e.tag.toNat e.gen with
            | some old => raise (retire s old 3) (srcEl l) kTagReuse p
            | none => s
          let sync := match q with
            | some q => decide (q.msgW % 16 = 0)
            | none => false
          holdIng s
            { tag := e.tag.toNat, tgen := e.gen, port := p, cls := e.cls.val, gen := g, stamp := x.stamp
              verdict := if e.cls = 0 then verdict else 0, sync := sync, reserve := false
              sfd := x.stamp.t.getD (x.arrival : Int)
              action := act, ring := ringOf s (bits act 5 4) (flowHash s q), cap := none, egress := 0, applied := 0
              caps := [] }
      else
        let held := ingOf s e.tag.toNat e.gen
        let add (s : State) (c : Corr) : State :=
          let z := lane s l
          setLane s l { z with corrs := z.corrs ++ [c] }
        let c : Corr := ⟨e, x.arrival, x.stamp, false, held, 0, 0, 0⟩
        let s := if e.cls = 0 then
            match held with
            | some _ => add s c
            | none => match goneWhy s e.tag.toNat e.gen with
              | some w => add s { c with why := w }
              | none => if rb s 0x508000 0 16 = 0 then add s { c with why := 1 } else add s { c with wait := true }
          else if e.cls = 1 then
            add s { c with
              verdict := verdict
              origin := match q with
                | some q => (q.origin : Int) * 65536
                | none => 0 }
          else s
        match held with
        | some i => pairIng s i e p
        | none => s

/-- An EVENT whose TAP did not follow goes on without one (R225); the TAP of a discarded EVENT comes no more. -/
def closePend (s : State) (l : Nat) : State :=
  let s := if (lane s l).dropTap then setLane s l { lane s l with dropTap := false } else s
  match (lane s l).slots.find? (·.open_) with
  | some x => badBlk (finishSlot s l x) l
  | none => s

/-- Whether a lane takes EVENT and TAP messages (R233, R257). -/
def laneTakes (s : State) (l : Nat) : Bool := (lane s l).ready && !elFenced s l && !clFenced s l

/-- An EVENT (R222, R229, R232 to R234). The TAP of one discarded for want of a slot is dropped with it, neither counted nor
checked (log entry 157). -/
def eventIn (s : State) (l : Nat) (e : EventMsg) : State :=
  let s := closePend s l
  if ¬ (lane s l).el then s
  else if ¬ laneTakes s l then bump s (rEL l 0x14)
  else
    let x := lane s l
    let cap := if e.reserve then 8 else 24
    if cap ≤ slotsIn x e.reserve then
      let s := bump (setLane s l { x with dropTap := e.tapf }) (rEL l 0x14)
      if s.standby then s else raise s (srcEl l) kCreditOverrun (rEL l 4)
    else
      let p := 8 * l + e.pil.val
      let (s, st, raw, tau) := if s.fcol.safe then (s, (⟨none, 0, false⟩ : Stamp), none, none) else stampEvent s p e
      let s := if e.tx ∧ ¬ e.cal ∧ ¬ s.fcol.safe then noteEgress s e p else s
      let slot : ESlot := ⟨e, none, nowT s, st, tau, raw, genFor s e, true, false⟩
      let z := lane s l
      let s := setLane s l { z with slots := z.slots ++ [slot], dropTap := false }
      if e.tapf then s else finishSlot s l slot

/-- A TAP (R225). -/
def tapIn (s : State) (l : Nat) (t : TapMsg) : State :=
  let x := lane s l
  if ¬ x.el then s
  else if ¬ laneTakes s l then bump (match x.slots.find? (·.open_) with
    | some y => finishSlot s l y
    | none => s) (rEL l 0x14)
  else if x.dropTap then setLane s l { x with dropTap := false }
  else match x.slots.find? (·.open_) with
    | none => badBlk s l
    | some y =>
      if y.ev.pil = t.pil ∧ y.ev.tag = t.tag ∧ y.ev.gen = t.gen then
        finishSlot s l { y with tap := some { t with bytes := t.bytes.take 96 }, gen := genFor s y.ev }
      else badBlk (finishSlot s l y) l

/-- An ABORT (R227, R255, R283). -/
def abortIn (s : State) (l tag : Nat) (g : Bool) : State :=
  let s := closePend s l
  if ¬ (lane s l).el ∨ elFenced s l then s
  else match ingOf s tag g with
    | none => bump s (rEL l 0x18)
    | some i => retire (voidPair (keepGone s tag g 6 i.sfd) tag g) i 2

-- corrections

/-- V of a class-0 word (R250). -/
def c0Value (s : State) (st : Stamp) (i : Ing) : Int :=
  match st.t, i.stamp.t with
  | some o, some a =>
    let v := o - a
    if rbit s (rPORT i.port 0) 1 ∧ i.sync then
      v + s32 s (rPORT i.port 0x58) + (if rbit s (rPORT i.port 0) 2 then s32 s (rPORT i.port 0x60) else 0)
    else v
  | _, _ => 0

/-- V and the reasons that hold for a correction (R250, R251); an empty list is OK. A port that converts no count gives
STALE_COUNT (R224, R547). -/
def corrForm (s : State) (c : Corr) : Int × List Nat :=
  if c.stamp.off ∨ (c.ev.cls ≠ 1 ∧ (c.ing.map (·.stamp.off)).getD false) then (0, [2])
  else if c.ev.cls = 1 then
    let why := (if c.verdict = 0 then [] else [c.verdict]) ++ (if c.stamp.t.isNone then [2] else [])
    let v := (c.stamp.t.getD 0) - c.origin
    (v, if why = [] ∧ 2 ^ 62 ≤ v.natAbs then [10] else why)
  else match c.ing with
    | none => (0, [if c.why = 0 then 1 else c.why])
    | some i =>
      (c0Value s c.stamp i, (if i.verdict = 0 then [] else [i.verdict]) ++
        (if c.stamp.t.isNone ∨ i.stamp.t.isNone then [2] else []))

/-- The 16 bytes of a CORRECTION word (R252). -/
def corrWord (c : Corr) (why : Nat) (v : Int) (deg : Bool) : List Byte :=
  leBytes 8 (0x70 + c.ev.pil.val * 2 ^ 8 + b2n (decide (why = 0)) * 2 ^ 11 + why * 2 ^ 12 + c.ev.tag.toNat * 2 ^ 16 +
    b2n c.ev.gen * 2 ^ 32 + b2n deg * 2 ^ 33 + b2n (decide (c.ev.cls = 1)) * 2 ^ 34) ++
  leBytes 8 (if why = 0 then tw 64 v else 0)

/-- Forms a correction and sends it on the lane's CL (R248, R252, R253, R257, R258); `ns` is its latency. -/
def corrSend (s : State) (l : Nat) (c : Corr) (ns : Nat) : State :=
  let (v, whys) := corrForm s c
  let (why, s) := match whys with
    | [] => (0, s)
    | [w] => (w, s)
    | _ => ((whys[Config.reasonPick s.free % whys.length]?).getD 0, { s with free := s.free + 1 })
  let deg := c.stamp.flags.testBit 0 || (match c.ing with
    | some i => decide (c.ev.cls ≠ 1) && i.stamp.flags.testBit 0
    | none => false)
  let s := if why = 0 then s else bump s (0x508010 + 4 * why)
  if clFenced s l ∨ ¬ (lane s l).cl ∨ s.corrPause then bump s (rCL l 0x0C)
  else
    let s := bump (emit s (.cl l (corrWord c why v deg))) (rCL l 8)
    let s := match c.ing with
      | some i => if why = 0 then noteApplied s i else s
      | none => s
    let s := if rn s 0x508008 < ns then hwUpdate s 0x508008 0x50800C 1 (fun s => wr s 0x508008 ns) else s
    if 480 < ns then raise s (srcCl l) kCorrLate (rCL l 4) else s

-- lookups

/-- The CAPTURE record of a looked-up slot (R281), where its action asks for one: the state and what it left. -/
def presentCapture (s : State) (l : Nat) (x : ESlot) (hit : Option Nat) (act : Nat) (q : Option Parsed) : State :=
  if ¬ act.testBit 9 ∨ x.ev.cal ∨ s.fcol.safe ∨ s.standby then s
  else
    let e := x.ev
    let p := 8 * l + e.pil.val
    let h := flowHash s q
    let rn_ := ringOf s (bits act 5 4) h
    let held := ingOf s e.tag.toNat e.gen
    let first := match held with
      | some i => !i.caps.contains rn_
      | none => true
    let t := (x.stamp.t.getD 0).toNat
    let fl := (match x.stamp.t with
        | some t => clr (flagsAt s t) 1
        | none => 0) + x.stamp.flags * 16 +
      (match q with
        | some q => b2n q.depth * 2 ^ 9 + b2n q.lenconf * 2 ^ 10
        | none => 0) +
      b2n hit.isNone * 2 ^ 11 + x.gen * 2 ^ 12 + b2n first * 2 ^ 13
    let (body, flen) := match x.tap with
      | some t => (if act.testBit 12 then t.bytes else [], t.flen)
      | none => ([], 0)
    let len := match x.tap with
      | some t => if act.testBit 12 then t.bytes.length else 0
      | none => 0
    let r := ringPresent s rn_ (bits act 3 2) (fun r qn c =>
      recBytes 1 len r qn t fl
        (p + b2n e.tx * 2 ^ 7 + e.cls.val * 2 ^ 8 + bits act 0 3 * 2 ^ 11 + c * 2 ^ 14 + e.tag.toNat * 2 ^ 16)
        (b2n e.gen + b2n e.recirc * 2 + (hit.getD 0) * 2 ^ 3 + flen % 65536 * 2 ^ 16) h e.count.toNat body)
    match r.2, ingOf r.1 e.tag.toNat e.gen with
    | some (seq, col), some i =>
      setIng r.1 { i with
        caps := rn_ :: i.caps
        cap := if ¬ e.tx ∧ ¬ e.recirc then some (seq, col) else i.cap }
    | _, _ => r.1

/-- A lookup of a waiting slot (R268 to R274): its counts, the action that the ingress entry takes, the record. -/
def lookup (s : State) (l : Nat) (x : ESlot) : State :=
  let e := x.ev
  let q := slotParse e x.tap
  let hit := ecamFind s (keyWords e (8 * l + e.pil.val) q) x.gen
  let act := ecamAction s hit
  let s := bump s 0x600020
  let s := match hit with
    | some n => bump s (rENT n 0x58)
    | none => bump s 0x600024
  let s := if genLive s x.gen then s else bump s 0x600030
  let s := match ingOf s e.tag.toNat e.gen with
    | some i => if e.tx ∨ e.recirc then s else setIng s { i with
        action := act, ring := ringOf s (bits act 5 4) (flowHash s q) }
    | none => s
  presentCapture s l x hit act q

-- beacons

/-- A sample of a reference: the PJUMP check, the event, the DPLLs that have it selected (R187, R190, R196). -/
def refSample (s : State) (i : Nat) (t e : Int) : State :=
  refFeed (refEvent (pjumpCheck s i t e) i t (some e)) i t e

/-- A port's recovered frequency by least squares over the samples of the last PORT_RF_AVG ms (R247). -/
def rfreq (s : State) (p : Nat) : State :=
  let l := (port s p).samples
  match l with
  | [] => s
  | (t0, _) :: _ =>
    match leastSquares 2 (l.map (fun q => ([1, q.1 - t0], q.2))) with
    | some [_, b] => wM s (rPORT p 0x68) 3 (tw 40 (Config.roundWord (b * 2 ^ 48)))
    | _ => s

/-- Whether no port of a lane calibrates (R389). -/
def laneFree (s : State) (l : Nat) : Bool := (List.range 8).all (fun i => (port s (8 * l + i)).cal.isNone)

/-- A port's calibration is deferred (R244). -/
def portDefer (s : State) (p : Nat) : State :=
  orBits { s with cal := { s.cal with deferred := s.cal.deferred + 1 } } (rPORT p 4) 4

/-- The lowest port of a free lane that waits for its turn takes it: it calibrates, or is deferred where its last beacon
shows LINK (R244, R389). -/
def turnTake (s : State) (l : Nat) : State :=
  if ¬ laneFree s l then s
  else match ((List.range 8).map (fun i => 8 * l + i)).find? (fun p => s.cal.turns.contains (p + 128)) with
    | none => s
    | some p =>
      let s := { s with cal := { s.cal with turns := s.cal.turns.filter (· ≠ p + 128) } }
      if rbit s (rPORT p 4) 0 then portDefer s p else calStart s p

/-- The waiting ports of a lane take their turns while the lane is free. -/
def laneTurns (s : State) (l : Nat) : State := upto 8 (fun s _ => turnTake s l) s

/-- A port's turn has come: it waits for its lane (R389). -/
def turnWait (s : State) (p : Nat) : State :=
  { s with cal := { s.cal with turns := (p + 128) :: s.cal.turns.filter (fun q => decide (q ≠ p ∧ q ≠ p + 128)) } }

/-- What a beacon means for a port's calibration: its turn after its clock's first start (R389), or, where it is
deferred, the fall of LINK (R244). -/
def beaconTurn (s : State) (p : Nat) (fall : Bool) : State :=
  let due := s.cal.turns.contains p || (fall && rbit s (rPORT p 4) 2 && (port s p).cal.isNone)
  laneTurns (if due then turnWait s p else s) (p / 8)

/-- A BEACON (R226, R242, R244, R247). -/
def beaconIn (s : State) (l : Nat) (b : BeaconMsg) : State :=
  let s := closePend s l
  let p := 8 * l + b.pil.val
  if ¬ (lane s l).el ∨ elFenced s l then s
  else
    let fall := rbit s (rPORT p 4) 0 && !b.link
    let s := wb s (rPORT p 4) 0 1 (b2n b.link)
    if s.fcol.safe then s
    else
      let s := beaconTurn s p fall
      let n := portFod s p
      let s := slowSettle s n
      let x := fod s n
      let restart (s : State) : State := setPort s p { port s p with samples := [], rot := none }
      if ¬ b.pivalid then restart s
      else if ¬ (x.running ∧ x.driving) ∨ rbit s (rPORT p 4) 6 ∨ rbit s (rPORT p 4) 4 then
        if b.link then s else restart s
      else
        let ta := nowR s
        let w : Rat := ((atLeast1 (rb s (rPORT p 0x78) 0 16) * 65536 : Nat) : Rat)
        match resolvePort s p n b.count.toNat (ta - w) ta with
        | none =>
          let y := port s p
          let s := setPort s p { y with run := y.run + 1 }
          let s := if b.link then s else restart s
          let s := orBits (bumpM s (rPORT p 0x84)) (rPORT p 4) 0x100
          if y.run = 2 then raise (orBits s (rPORT p 4) 0x10) (srcEl l) kCountLost p else s
        | some (t, T) =>
          let s := setPort s p { port s p with run := 0 }
          if ¬ b.link then restart s
          else
            let y := port s p
            let r := b.rot.toNat
            let un : Int := match y.rot with
              | some (r0, u) => u + sx 16 (tw 16 ((r : Int) - r0))
              | none => sx 16 r
            let ui := T / portBits s p
            let e : Rat := -(((un : Rat) + (b.picode : Rat) / (portPiRes s p : Rat)) * ui)
            let avg : Rat := ((atLeast1 (rb s (rPORT p 0x74) 0 16) : Nat) : Rat) * 65536000000
            let s := setPort s p { y with
              rot := some (r, un)
              samples := (t, e) :: y.samples.filter (fun q => decide (t - q.1 ≤ avg)) }
            rfreq (refSample s (16 + p) (rfloor t) (rfloor e)) p

/-- PORT_CMD.RESYNC (R242): the output's driver cycles, COUNT_LOST and the run of unresolved beacons end. -/
def resyncPort (s : State) (p : Nat) : State :=
  let n := portFod s p
  let s := setPort (clrBits s (rPORT p 4) 0x10) p { port s p with run := 0 }
  if (fod s n).driving then setFod s n { fod s n with cycleDrv := true } else s

/-- A write of PORT_FOD (R224, R242): COUNT_LOST until a RESYNC, and SLOW judged by the FOD now named. The load of a start is
none: POR and MRST_N end COUNT_LOST, and SLOW is judged as the FOD starts (R258, R409). -/
def portFodSet (s : State) (p : Nat) : State :=
  if s.nvsLoaded then slowJudge (orBits s (rPORT p 4) 0x10) (portFod s p) (nowR s) else s

end Sys2Proof.Machine
end

