-- ==== Sys2Proof/Machine/ActOps.lean ====
section
/-!
DEFINITION. Entering timed actions into the queues (R80, R83, R84, R107, R148, R152, R299 to R301, R441).
-/
namespace Sys2Proof.Machine

open Sys2Proof

/-- Enters an action in the queue of a target, which holds `cap`: none where the queue is full. -/
def qEnter (s : State) (q : List QAct) (cap st : Nat) (core : Option Nat) (k : ActKind) : Option (List QAct) :=
  if cap ≤ q.length then none else some (q ++ [mkAct s st core k])

/-- The state after an entry: the order of entry advances. -/
def bumpOrder (s : State) : State := { s with order := s.order + 1 }

/-- Enters an action in FOD n's queue of 8 (R152). -/
def fodEnter (s : State) (n st : Nat) (core : Option Nat) (k : ActKind) : Option State :=
  (qEnter s (fod s n).queue 8 st core k).map (fun q => bumpOrder (setFod s n { fod s n with queue := q }))

/-- Enters an action in SC n's queue of 4 (R107). -/
def scEnter (s : State) (n st : Nat) (core : Option Nat) (k : ActKind) : Option State :=
  (qEnter s (sc s n).queue 4 st core k).map (fun q => bumpOrder (setSc s n { sc s n with queue := q }))

/-- Enters an action in the time-scale queue of 4 (R83). -/
def timeEnter (s : State) (st : Nat) (core : Option Nat) (k : ActKind) : Option State :=
  (qEnter s s.time.queue 4 st core k).map (fun q => bumpOrder { s with time := { s.time with queue := q } })

/-- Enters an action in the snapshot trigger's queue of 4 (R441). -/
def snapEnter (s : State) (st : Nat) (core : Option Nat) : Option State :=
  (qEnter s s.snap.queue 4 st core .snap).map (fun q => bumpOrder { s with snap := { s.snap with queue := q } })

/-- The members of a gang: gang 0 has none (R148). -/
def gangMembers (s : State) (g : Nat) : List Nat :=
  if g = 0 then [] else (List.range 128).filter (fun n => decide (rb s (rFOD n 0) 4 4 = g))

/-- Whether a member refuses a gang's action (R148). -/
def gangRefused (s : State) (ms : List Nat) : Bool :=
  ms.any (fun n => decide (8 ≤ (fod s n).queue.length) || (fod s n).fenced)

/-- Enters an action in the queue of every member of a gang, or in none (R148): the state and whether it entered. -/
def gangEnter (s : State) (g st : Nat) (core : Option Nat) (k : ActKind) : State × Bool :=
  match gangMembers s g with
  | [] => (s, false)
  | n :: ms =>
    if gangRefused s (n :: ms) then (raise s (srcFod n) kGangRefused (rFOD n 0), false)
    else
      let a := mkAct s st core k
      (bumpOrder ((n :: ms).foldl (fun s m => setFod s m { fod s m with queue := (fod s m).queue ++ [a] }) s), true)

/-- Whether an action entered for an ST time is LATE (R80, R299). -/
def entryLate (s : State) (st : Nat) : Bool := decide (resolveDue s st < nowT s)

end Sys2Proof.Machine
end

