-- ==== Sys2Proof/Machine/StoreOps.lean ====
section
/-!
DEFINITION. The bytes of the non-volatile store (R399 to R402, R406, R407, R410): the regions, the payload of each, the header,
and when a bank is valid.
-/
namespace Sys2Proof.Machine

open Sys2Proof

-- the regions

/-- The regions of the store (R399): code, banks, offset of the first bank, size of a bank. -/
def storeMap : List (Nat × Nat × Nat × Nat) := [
  (0, 1, 0, 0xA000), (1, 2, 0xA000, 0x6000), (2, 2, 0x16000, 0x4000), (3, 2, 0x1E000, 0x14000), (4, 9, 0x46000, 0x6040),
  (5, 247, 0x7C240, 0x40)]

/-- The region, the bank and the offset in the bank of an offset in the store (R399). -/
def storeAt (a : Nat) : Option (Nat × Nat × Nat) :=
  (storeMap.find? (fun p => decide (p.2.2.1 ≤ a ∧ a < p.2.2.1 + p.2.1 * p.2.2.2))).map (fun p =>
    (p.1, (a - p.2.2.1) / p.2.2.2, (a - p.2.2.1) % p.2.2.2))

/-- The offset in the store of a bank, and its size (R399). -/
def bankPlace (r k : Nat) : Nat × Nat :=
  match storeMap.find? (fun p => decide (p.1 = r)) with
  | some p => (p.2.2.1 + k * p.2.2.2, p.2.2.2)
  | none => (0, 0)

/-- The spans of the normal view in which R538 places registers, in ascending order: first offset and length. -/
def sealSpans : List (Nat × Nat) := [
  (0x000000, 0x90000), (0x100000, 0x8000), (0x200000, 0x9000), (0x300000, 0x24000), (0x330000, 0x40),
  (0x400000, 0x9000), (0x500000, 0xC000), (0x600000, 0x20000), (0x700000, 0x9000), (0x800000, 0x9000),
  (0x900000, 0x80000)]

-- the payloads

/-- The NV bits of a register word that CONFIG holds: those of Screed's registers belong to SCREED (R21, R217, R410). -/
def nvMask (off : Nat) : Nat :=
  match regInfo off with
  | some i => if i.blk = .screed then 0 else i.piece i.row.nv
  | none => 0

/-- The offsets in Screed's block of the registers with an NV field that software writes (R217). -/
def scrSet : List Nat := [0x00, 0x44, 0x48]

/-- The offsets in Screed's block of the words that SCREED holds (R211, R217). -/
def scrKept : List Nat := scrSet ++ [0x10, 0x14, 0x18, 0x1C, 0x20, 0x24, 0x28, 0x2C, 0x34, 0x38, 0x3C]

/-- The NV bits of the word of a CONFIG payload at an offset: the factory value where the payload does not list it, which
equals the value at reset (R20, R400). -/
def nvWord (words : List (Nat × Word)) (off : Nat) : Nat :=
  match words.find? (fun p => decide (p.1 = off)) with
  | some p => p.2.toNat
  | none => (regReset off).toNat

/-- A word of a payload, 0 where it is not listed. -/
def payWord (words : List (Nat × Word)) (off : Nat) : Nat :=
  match words.find? (fun p => decide (p.1 = off)) with
  | some p => p.2.toNat
  | none => 0

/-- Offset in ticks and gain in 2^-24 of witness TDC g in a payload, FACTORY's where it lists none. -/
def calTdc (c : Calib) (g : Nat) : Int × Nat :=
  match c.tdc.find? (fun p => decide (p.1 = g)) with
  | some p => p.2
  | none => Config.factoryTdc g

/-- The band edges of a payload by 64 × SC + band. -/
def calBand (c : Calib) (k : Nat) : Nat × Nat :=
  match c.bands.find? (fun p => decide (p.1 = k)) with
  | some p => p.2
  | none => Config.factoryBand k

/-- The 33 breakpoints of a payload by 2 × FOD + twin. -/
def calBreaks (c : Calib) (k : Nat) : List Int :=
  match c.breaks.find? (fun p => decide (p.1 = k)) with
  | some p => p.2
  | none => (List.range 33).map (Config.factoryBreak k)

/-- The offsets of the words of the registers that hold an NV field of CONFIG, ascending (R410). -/
def nvOffs : List Nat :=
  sealSpans.flatMap (fun p => ((List.range (p.2 / 4)).map (fun k => p.1 + 4 * k)).filter (fun o => decide (nvMask o ≠ 0)))

/-- A CAL payload (R410). -/
def calBytes (words : List (Nat × Word)) (c : Calib) : List Byte :=
  (List.range 128).flatMap (fun p =>
    [0x40, 0x48, 0x50].flatMap (fun o =>
      leBytes 2 (payWord words (rPORT p o)) ++ leBytes 2 (payWord words (rPORT p (o + 4)))) ++
    leBytes 4 (payWord words (rPORT p 4) % 2)) ++
  (List.range 16).flatMap (fun g => leBytes 4 (tw 32 (calTdc c g).1) ++ leBytes 4 (calTdc c g).2 ++ leBytes 8 0) ++
  (List.range 512).flatMap (fun k => leBytes 2 (calBand c k).1 ++ leBytes 2 (calBand c k).2) ++
  (List.range 256).flatMap (fun k => (calBreaks c k).flatMap (fun v => leBytes 2 (tw 16 v)) ++ leBytes 2 0)

/-- A CONFIG payload (R410). -/
def configBytes (words : List (Nat × Word)) : List Byte := nvOffs.flatMap (fun o => leBytes 4 (nvWord words o &&& nvMask o))

/-- The bytes of a SCREED payload (R406): 8 for each sample and as many as the rest takes, whose placing the spec leaves open
(log entry 67). -/
def scrLength (b : Bank) : Nat := 8 * b.samples.length + Config.screedHead % 1249

/-- The payload of bank k of region r (R312, R400, R406, R407, R410). -/
def payBytes (r k : Nat) (b : Bank) : List Byte :=
  if r = 0 then calBytes [] calibInit ++ configBytes []
  else if r = 1 then calBytes b.words b.calib
  else if r = 2 then configBytes b.words
  else if r = 3 then (List.range (scrLength b)).map (fun i => Config.nvsByte ((bankPlace 3 k).1 + 32 + i) b.writes)
  else if r = 4 then (List.range 8).flatMap (fun i => leBytes 4 (payWord b.words (0x60 + 4 * i))) ++ b.image
  else (List.range 8).flatMap (fun i => leBytes 4 (payWord b.words i))

-- the header

/-- The header bytes before CHECK, and those behind COMMIT (R401). -/
def headLow (b : Bank) : List Byte := leBytes 4 b.magic ++ leBytes 4 b.seqNo ++ leBytes 4 b.length
def headHigh (b : Bank) : List Byte := leBytes 4 (b.format % 256 + b.core % 8 * 256) ++ leBytes 4 b.writes ++ leBytes 4 0

/-- CHECK of a bank's contents (R401). -/
def bankCheck (r k : Nat) (b : Bank) : Nat := crc32c (headLow b ++ headHigh b ++ payBytes r k b)

/-- MAGIC of a region (R401). -/
def bankMagic (r : Nat) : Nat := 0x4E565300 + r

/-- Whether LENGTH fits a region (R402). -/
def lengthOk (r n : Nat) : Bool :=
  if r = 1 then decide (n = 0x5500)
  else if r = 2 then decide (n = 4 * nvOffs.length)
  else if r = 5 then decide (n = 32)
  else decide (n ≤ (bankPlace r 0).2 - 32)

/-- Whether COMMIT says that the store of a bank ended (R402, R409). -/
def bankDone (b : Bank) : Bool := decide (b.commit = ones 32 - b.check)

/-- Whether bank k of region r is valid (R402). One whose last store did not finish is not, whatever its bytes are (R403). -/
def bankValid (r k : Nat) (b : Bank) : Bool :=
  b.full && decide (b.magic = bankMagic r) && decide (b.format = 1) && bankDone b && lengthOk r b.length &&
    decide (b.check = bankCheck r k b)

/-- The bytes of a bank behind its header: the payload and what stands behind it, or what an unfinished store left. -/
def bankArea (r k : Nat) (b : Bank) : List Byte :=
  if b.full then payBytes r k b ++ b.rest.drop (payBytes r k b).length else b.rest

/-- The bytes of a bank (R401). -/
def bankBytes (r k : Nat) (b : Bank) : List Byte :=
  headLow b ++ leBytes 4 b.check ++ leBytes 4 b.commit ++ headHigh b ++ bankArea r k b

/-- The contents of a bank with the header of a store that has written all but CHECK and COMMIT (R403). -/
def headed (r k seqNo writes : Nat) (rest : List Byte) (b : Bank) : Bank :=
  let b := { b with magic := bankMagic r, seqNo := seqNo, format := 1, writes := writes, full := true, rest := rest }
  { b with length := (payBytes r k b).length }

/-- The contents of a bank with CHECK and COMMIT (R401, R403). -/
def sealedBank (r k : Nat) (b : Bank) : Bank :=
  { b with check := bankCheck r k b, commit := ones 32 - bankCheck r k b }

/-- FACTORY, with a SEQ and WRITES that the spec does not state (R400, R401; log entry 67). -/
def factoryBank : Bank :=
  sealedBank 0 0 (headed 0 0 (Config.factoryHead 0).toNat (Config.factoryHead 1).toNat [] bankInit)

end Sys2Proof.Machine
end

