-- ==== Sys2Proof/Machine/CmdOps.lean ====
section
/-!
DEFINITION. The command engine (R341 to R353): submission, start, completion; and the banks of the non-volatile store
(R399 to R408): which is newest, which is written, what a store copies.
-/
namespace Sys2Proof.Machine

open Sys2Proof

-- submission

/-- The outstanding commands of a master's share (R343). -/
def cmdHeld (s : State) (m : Nat) : Nat :=
  (s.cmd.slots.filter (fun p => if m = 1 ∨ m = 3 then decide (p.2.master = 1 ∨ p.2.master = 3)
    else decide (p.2.master = m))).length

/-- Whether a master may submit (R341, R344). -/
def cmdMay (s : State) (m : Nat) : Bool :=
  decide (m = 1) || (decide (5 ≤ m) && decide (m ≤ 12)) || (decide (m = 3) && s.standby)

/-- The refusal code of a submission, 0 where it is accepted (R344). -/
def cmdRefusal (s : State) (m op : Nat) : Nat :=
  if ¬ cmdMay s m then 4
  else if (if m = 1 ∨ m = 3 then 30 else 4) ≤ cmdHeld s m then 1
  else if op = 0 ∨ 0x0C < op then 2
  else if s.fcol.safe ∨ srcFenced s srcCmd then 3
  else 0

/-- The state with a CMD_HANDLE (R342, R354). -/
def setHandle (s : State) (m v : Nat) : State :=
  { s with cmd := { s.cmd with handles := mput (fun _ => 0) s.cmd.handles m v } }

/-- CMD_HANDLE of a master. -/
def handleOf (s : State) (m : Nat) : Nat := mget (fun _ => 0) s.cmd.handles m

/-- The offset of CMD_CPLs word 0 (R354). -/
def rCPL (k : Nat) : Nat := rCMD (0x100 + 8 * k)

/-- The generation after g: 15 is followed by 1, 0 is never issued (R342). -/
def nextGen (g : Nat) : Nat := if 15 ≤ g then 1 else g + 1

/-- Allocates slot k to a command (R342, R346, R354). -/
def cmdAlloc (s : State) (k m w0 w1 w2 w3 : Nat) : State :=
  let g := nextGen (mget (fun _ => 0) s.cmd.gens k)
  let x : Slot := ⟨g, m, w0, w1, w2, w3, nowT s, s.order, false, none, none, []⟩
  let s := { s with
    order := s.order + 1
    cmd := { s.cmd with
      slots := s.cmd.slots ++ [(k, x)], gens := mput (fun _ => 0) s.cmd.gens k g
      frees := s.cmd.frees.filter (· ≠ k) } }
  bump (wr (wr s (rCPL k) (k + g * 4096)) (rCPL k + 4) 0) (rCMD 0x20)

/-- A submission of four words (R341 to R345). -/
def cmdSubmit (s : State) (m w0 w1 w2 w3 : Nat) : State :=
  let op := w0 % 256
  let code := cmdRefusal s m op
  match code, s.cmd.frees with
  | 0, k :: _ =>
    let s := cmdAlloc s k m w0 w1 w2 w3
    setHandle s m (k + mget (fun _ => 0) s.cmd.gens k * 4096 + 0x10000)
  | c, _ =>
    raise (bump (setHandle s m ((if c = 0 then 1 else c) * 0x20000)) (rCMD 0x24)) srcCmd kRefused op m 2

/-- Issues the module's own commands that wait, in their order, in the free ones of slots 62 and 63 (R350). -/
def ownDrain : Nat → State → State
  | 0, s => s
  | n + 1, s =>
    match s.cmd.own with
    | [] => s
    | (op, w) :: rest =>
      match [62, 63].find? (fun k => (s.cmd.slots.all (fun p => decide (p.1 ≠ k)))) with
      | none => s
      | some k => ownDrain n (cmdAlloc { s with cmd := { s.cmd with own := rest } } k 13 (op + w * 65536) 0 0 0)

/-- Issues a command of the module itself (R350). -/
def ownIssue (s : State) (op w : Nat) : State :=
  ownDrain 2 { s with cmd := { s.cmd with own := s.cmd.own ++ [(op, w)] } }

-- start and completion

/-- The outstanding command in slot k. -/
def slotOf (s : State) (k : Nat) : Option Slot := (s.cmd.slots.find? (fun p => decide (p.1 = k))).map (·.2)

/-- The state with the command of slot k replaced. -/
def setSlot (s : State) (k : Nat) (x : Slot) : State :=
  { s with cmd := { s.cmd with slots := s.cmd.slots.map (fun p => if p.1 = k then (k, x) else p) } }

/-- The class of an opcode: 1 NVS, 2 calibration, 3 MATE_SYNC, 0 none (R349). -/
def cmdClass (op : Nat) : Nat :=
  if op = 1 ∨ op = 2 ∨ op = 3 ∨ op = 12 then 1 else if op = 4 ∨ op = 5 ∨ op = 9 then 2 else if op = 10 then 3 else 0

/-- Whether a class runs a command (R349, R354). -/
def classRuns (s : State) (c : Nat) : Bool :=
  s.cmd.slots.any (fun p => p.2.running && decide (cmdClass (p.2.w0 % 256) = c))

/-- Whether a waiting command goes before another of its class: the module's own first, then by acceptance (R349). -/
def goesFirst (a b : Slot) : Bool :=
  (decide (a.master = 13) && decide (b.master ≠ 13)) ||
  (decide (a.master = 13 ↔ b.master = 13) && decide (a.order < b.order))

/-- Whether the command in slot k may start now (R345, R349). -/
def mayStart (s : State) (k : Nat) (x : Slot) : Bool :=
  let c := cmdClass (x.w0 % 256)
  !x.running && (decide (c = 0) || (!classRuns s c && s.cmd.slots.all (fun p =>
    decide (p.1 = k) || p.2.running || decide (cmdClass (p.2.w0 % 256) ≠ c) || goesFirst x p.2)))

/-- The command in slot k runs (R346, R354). -/
def setRunning (s : State) (k : Nat) (x : Slot) : State :=
  orBits (setSlot s k { x with running := true }) (rCPL k) 0x2000000

/-- Hardware clears SEAL_CTRL.HOLD; a software write in the same cycle stands and restarts the hold timer (R56, R61,
R62). -/
def holdClear (s : State) : State :=
  if softWrote s (rSEAL 0) then
    orBits { s with seal_ := { s.seal_ with holdFrom := s.time.aon } } (rSEAL 4) 0x10
  else wb s (rSEAL 0) 1 1 0

/-- What a completion shows (R346, R347, R354): CMD_CPL, the record, MSI-X, the event, the faults of TIMEOUT and FAILED. -/
def cmdReport (s : State) (k : Nat) (x : Slot) (status result : Nat) : State :=
  let op := x.w0 % 256
  let s := wr (wr s (rCPL k) (k + x.gen * 4096 + status * 65536 + 0x1000000)) (rCPL k + 4) (result % 2 ^ 32)
  let s := presentInternal s 3 6 0 (readT s) (timeFlags s) (k + x.gen * 4096 + status * 65536 + op * 2 ^ 24)
    (result % 2 ^ 32) x.master (tNs x.acc) []
  let s := if x.w0.testBit 8 ∧ x.master = 1 then sendMsix s (rb s (rCMD 0x18) 0 6) else s
  let s := event s 63
  let s := if status = 7 then raise s srcCmd kTimeout (op + k * 256) else s
  if status = 6 then raise s srcCmd kFailed (op + k * 256) else s

/-- The slot of a completed command is free again. -/
def slotFree (s : State) (k : Nat) : State :=
  { s with cmd := { s.cmd with
    slots := s.cmd.slots.filter (fun p => decide (p.1 ≠ k))
    frees := if k < 62 then s.cmd.frees ++ [k] else s.cmd.frees } }

/-- A store of the module's own counts towards PWR_STATUS.STORED (R498). -/
def rideStored (s : State) (x : Slot) : State :=
  if x.master = 13 ∧ (x.w0 % 256 = 3 ∨ x.w0 % 256 = 12) ∧ s.pwr.storesLeft ≠ 0 then
    let s := { s with pwr := { s.pwr with storesLeft := s.pwr.storesLeft - 1 } }
    if s.pwr.storesLeft = 0 then orBits s (rPWR 4) 0x200 else s
  else s

/-- Completes the command in slot k (R346). A SEAL_COMMIT that completes with OK or LOCKED ends the hold (R61, R64); one that
a limit, a reset or SAFE ends leaves it (R348, R352). -/
def cmdComplete (s : State) (k : Nat) (x : Slot) (status result : Nat) : State :=
  let s := slotFree (cmdReport s k x status result) k
  let s := if x.w0 % 256 = 0x0B ∧ (status = 0 ∨ status = 2) then holdClear s else s
  ownDrain 2 (rideStored s x)

/-- The outstanding commands that `p` picks, by slot: the order in which slots that become free in one cycle are free
(R343). -/
def slotsOf (s : State) (p : Slot → Bool) : List (Nat × Slot) :=
  (List.range 64).filterMap (fun k => (slotOf s k).bind (fun x => if p x then some (k, x) else none))

/-- Ends the commands that `p` picks with a status (R351 to R353). -/
def cmdEnd (s : State) (p : Slot → Bool) (status : Nat) : State :=
  (slotsOf s p).foldl (fun s q => cmdComplete s q.1 q.2 status 0) s

/-- The commands end with status RESET, and their slots' generations advance (R351). -/
def cmdReset (s : State) : State :=
  let ks := s.cmd.slots.map (·.1)
  let s := cmdEnd s (fun _ => true) 9
  ks.foldl (fun s k => { s with cmd := { s.cmd with
    gens := mput (fun _ => 0) s.cmd.gens k (nextGen (mget (fun _ => 0) s.cmd.gens k)) } }) s

/-- The oldest outstanding command, with its slot. -/
def cmdOldest (s : State) : Option (Nat × Slot) :=
  s.cmd.slots.foldl (fun a p => match a with
    | none => some p
    | some q => if p.2.order < q.2.order then some p else some q) none

-- the store

/-- A bank of the store: region and number (R399). -/
def bankOf (s : State) (r k : Nat) : Bank := mget (fun _ => bankInit) s.nvs.banks (1024 * r + k)

/-- The state with a bank. -/
def setBank (s : State) (r k : Nat) (b : Bank) : State :=
  { s with nvs := { s.nvs with banks := mput (fun _ => bankInit) s.nvs.banks (1024 * r + k) b } }

/-- The banks of a region (R399). -/
def bankCount (r : Nat) : Nat := if r = 4 then 9 else if r = 5 then 247 else 2

/-- Whether SEQ x is newer than SEQ y (R402). -/
def seqNewer (x y : Nat) : Bool :=
  let d := (x + 2 ^ 32 - y) % 2 ^ 32
  decide (1 ≤ d ∧ d < 2 ^ 31)

/-- The newest of the valid banks of a region, of one core for SEQIMG (R402). -/
def newestBank (s : State) (r core : Nat) : Option (Nat × Bank) :=
  (List.range (bankCount r)).foldl (fun a k =>
    let b := bankOf s r k
    if bankValid r k b ∧ (r ≠ 4 ∨ b.core = core) then
      match a with
      | none => some (k, b)
      | some p => if seqNewer b.seqNo p.2.seqNo then some (k, b) else a
    else a) none

/-- The bank that a store writes (R404). -/
def storeTarget (s : State) (r : Nat) : Nat :=
  if r = 4 then
    let held := (List.range 8).filterMap (fun c => (newestBank s 4 c).map (·.1))
    ((List.range 9).find? (fun k => !held.contains k)).getD 0
  else if r = 5 then
    match newestBank s 5 0 with
    | some (k, _) => (k + 1) % 247
    | none => 0
  else if ¬ bankValid r 0 (bankOf s r 0) then 0
  else if ¬ bankValid r 1 (bankOf s r 1) then 1
  else match newestBank s r 0 with
    | some (0, _) => 1
    | _ => 0

/-- Merges samples pairwise, oldest first, into weighted means while more than 10 080 remain (R406; log entry 98); oldest first
in the list. `n` is how many are too many. -/
def mergeSamples : Nat → List (Int × Int × Nat) → List (Int × Int × Nat)
  | 0, l => l
  | n + 1, a :: b :: rest =>
    let wa : Int := a.2.2
    let wb : Int := b.2.2
    let mean (x y : Int) : Int := (x * wa + y * wb) / (wa + wb)
    (mean a.1 b.1, mean a.2.1 b.2.1, a.2.2 + b.2.2) :: mergeSamples n rest
  | _, l => l

/-- Repeats the merging until the store's 10 080 samples hold the rest (R406). -/
def fitSamples : Nat → List (Int × Int × Nat) → List (Int × Int × Nat)
  | 0, l => l
  | k + 1, l => if l.length ≤ 10080 then l else fitSamples k (mergeSamples (l.length - 10080) l)

/-- The samples as a store writes them (R406): merged, without their times, each in a signed 40-bit word, 16 bits of temperature
and a weight of 8 bits, which a larger one saturates. -/
def storedSamples (l : List (Int × Int × Int × Nat)) : List (Int × Int × Nat) :=
  ((fitSamples 16 (l.reverse.map (·.2))).reverse).map (fun p =>
    (sx 40 (tw 40 p.1), sx 16 (tw 16 p.2.1), min p.2.2 255))

/-- The address of IMEM of a core in BAR2 (R542). -/
def imemBase (n : Nat) : Nat := 0x800000 + 0x10000 * n

/-- The live contents of a region, as a store copies them (R348, R403, R406, R407, R410). -/
def regionCopy (s : State) (r core : Nat) : Bank :=
  if r = 1 then
    { bankInit with
      words := (List.range 128).flatMap (fun p => [4, 0x40, 0x44, 0x48, 0x4C, 0x50, 0x54].map (fun o =>
        (rPORT p o, if o = 4 then wd (b2n (port s p).stored) else rd s (rPORT p o))))
      calib := s.cal.live }
  else if r = 2 then
    { bankInit with words := s.regs.filterMap (fun p =>
        let m := nvMask p.1
        if m = 0 then none else some (p.1, p.2 &&& wd m)) }
  else if r = 3 then
    { bankInit with
      words := scrKept.map (fun o => (rSCR o, rd s (rSCR o)))
      samples := storedSamples s.scr.samples, sig := s.scr.sig }
  else if r = 4 then
    { bankInit with
      core := core
      words := (List.range 8).map (fun i => (0x60 + 4 * i, rd s (rSEQ core (0x60 + 4 * i))))
      image := mbs s (imemBase core) (4 * (rn s (rSEQ core 0x68) % 8192)) ++
        mbs s (imemBase core + 0x8000) (rn s (rSEQ core 0x6C) % 16384) }
  else
    { bankInit with
      words := (List.range 4).map (fun i => (i, rd s (rPWR (0x40 + 4 * i)))) ++
        [(4, rd s (rFCOL 0x10)), (5, rd s (rFCOL 0x14)), (6, rd s (rFCOL 0x1C)), (7, rd s (rFCOL 0x20))] }

/-- Brings the NVS registers to the banks (R413). -/
def nvsShow (s : State) : State :=
  let code (r : Nat) : Nat := match newestBank s r 0 with
    | some (k, _) => k + 1
    | none => 0
  let sq (r : Nat) : Nat := match newestBank s r 0 with
    | some (_, b) => b.seqNo
    | none => 0
  let s := wr s (rNVS 8) (code 1 + 4 * code 2 + 16 * code 3)
  let s := wr s (rNVS 0x0C) ((List.range 8).foldl (fun a c => a + (match newestBank s 4 c with
    | some (k, _) => k
    | none => 15) * 16 ^ c) 0)
  let s := wr (wr (wr s (rNVS 0x10) (sq 1)) (rNVS 0x14) (sq 2)) (rNVS 0x18) (sq 3)
  let s := wr s (rNVS 0x1C) (storeTarget s 5)
  wr s (rNVS 0x20) (s.nvs.banks.foldl (fun a p => max a p.2.writes) 0)

/-- Starts the store of a copy (R403, R408): COMMIT of the target is 0, the header but CHECK is the new one, and behind it stands
what stood there until the payload is written. -/
def storeBegin (s : State) (r core : Nat) (b : Bank) : State :=
  let k := storeTarget s r
  let old := bankOf s r k
  let q := match newestBank s r core with
    | some p => (p.2.seqNo + 1) % 2 ^ 32
    | none => 1
  let w := min (old.writes + 1) (ones 32)
  let s := if old.writes ≤ 10 ^ 9 ∧ 10 ^ 9 < w then raise s srcNvs kWear (r + k * 16) else s
  let b := headed r k q w (bankArea r k old) b
  let s := setBank s r k { bankInit with
    magic := b.magic, seqNo := q, length := b.length, check := old.check, format := 1, core := b.core, writes := w
    rest := b.rest }
  nvsShow { s with nvs := { s.nvs with job := some (1024 * r + k, b) } }

/-- The store in progress writes CHECK and COMMIT: the bank counts (R403). -/
def storeCommit (s : State) : State :=
  match s.nvs.job with
  | none => s
  | some (k, b) =>
    let s := setBank s (k / 1024) (k % 1024) (sealedBank (k / 1024) (k % 1024) b)
    nvsShow (bump { s with nvs := { s.nvs with job := none } } (rNVS 0x24))

/-- A byte, `o` behind the header, of a bank that a store has not finished (R403, R543): the old one or the new one, where
`seed` marks the choice; the new one too only as the cells gave it back, where the read-back differed. -/
def tornByte (s : State) (key : Nat) (b : Bank) (fail : Bool) (seed o : Nat) : Byte :=
  let r := key / 1024
  let k := key % 1024
  let a := (bankPlace r k).1 + 32 + o
  let old := ((bankOf s r k).rest[o]?).getD 0
  if Config.nvsNew a seed then (if fail then Config.nvsByte a seed else ((bankArea r k b)[o]?).getD 0) else old

/-- The store in progress stops (R403, R404): its bank stays unfinished, its bytes old or new; after a read-back that differed
(`fail`) those that differ are none of both. -/
def storeStop (s : State) (fail : Bool) : State :=
  match s.nvs.job with
  | none => s
  | some (key, b) =>
    let r := key / 1024
    let k := key % 1024
    let l := (List.range ((bankPlace r k).2 - 32)).map (tornByte s key b fail s.free)
    let s := setBank s r k { bankOf s r k with rest := l }
    { s with free := s.free + 1, nvs := { s.nvs with job := none } }

/-- The store in progress is cut short (R352, R403, R404). -/
def storeDrop (s : State) : State := storeStop s false

/-- Writes one LOG entry at once, as the module does itself (R407, R515), where stores are performed (R405, R414). -/
def logWrite (s : State) : State :=
  if s.nvs.job.isSome ∨ ¬ rbit s (rNVS 0) 0 ∨ srcFenced s srcNvs then s
  else storeCommit (storeBegin s 5 0 (regionCopy s 5 0))

end Sys2Proof.Machine
end

