-- ==== Sys2Proof/Machine/DmaOps.lean ====
section
/-!
DEFINITION. The control of the DMA channels (R362, R363, R373 to R376, R380 to R384): enabling, pausing, doorbells,
halting, requests, and the checks of a descriptor.
-/
namespace Sys2Proof.Machine

open Sys2Proof

/-- Bytes written to host memory; posted writes are discarded while the link is down (R532). -/
def hostWrite (s : State) (addr : Nat) (b : List Byte) : State := if s.pcieUp then emit s (.host addr b) else s

/-- DMA_CTRL of channel c. -/
def dmaCtl (s : State) (c : Nat) : Nat := rn s (rDMA c 0)

/-- Whether channel c is an enabled chain channel. -/
def isChain (s : State) (c : Nat) : Bool := (dmaCtl s c).testBit 0 && !(dmaCtl s c).testBit 1

/-- Whether channel c is an enabled drain channel. -/
def isDrain (s : State) (c : Nat) : Bool := (dmaCtl s c).testBit 0 && (dmaCtl s c).testBit 1

/-- Raises a DMA fault (R385). -/
def raiseDma (s : State) (c kind addr : Nat) : State := raise s (srcDma c) kind addr 4

/-- R373's conditions on a drain configuration. -/
def drainCfgOk (s : State) (c : Nat) : Bool :=
  let l := rb s (rDMA c 0x68) 0 5
  let r := bits (dmaCtl s c) 2 4
  decide (4 ≤ l ∧ l ≤ 24) && decide (rL s (rDMA c 0x60) 2 % (128 * 2 ^ l) = 0) &&
  (drainsOf s r).all (fun d => decide (d = c))

/-- ABORT, and the clear of EN (R382): IDLE, nothing written back, DMA_DESC_PTR unchanged. -/
def dmaStop (s : State) (c : Nat) : State :=
  let x := dma s c
  setDma s c { x with st := 0, before := 0, desc := none, regFlt := false, retries := [], flush := false, promoted := false, inFlight := false }

/-- A channel pauses (R381): PAUSING, from the state that it will continue in, its burst stopped at its last read. A fenced
channel stays as it is (R383). -/
def dmaPauseOn (s : State) (c : Nat) : State :=
  let x := dma s c
  if x.st ≤ 2 ∧ ¬ srcFenced s (srcDma c) then drainEval (setDma s c { x with st := 3, before := x.st, inFlight := false }) c else s

/-- A channel continues from its pause (R381); a doorbell that came meanwhile to a channel which would be idle or STALLED again
starts its fetch (R363). -/
def dmaPauseOff (s : State) (c : Nat) : State :=
  let x := dma s c
  if x.st = 3 ∨ x.st = 4 then
    let go := isChain s c && decide (x.before = 0 ∨ x.before = 2) && x.dbPend
    drainEval (setDma s c { x with st := if go then 1 else x.before, dbPend := x.dbPend && !go }) c
  else s

/-- A channel is enabled (R362, R373): a chain is idle, a drain runs; a channel that its source's fence holds, or that the fence's
end left HALTED, stays so (R383). -/
def dmaEnabled (s : State) (c : Nat) : State :=
  let x := dma s c
  let st := if (dmaCtl s c).testBit 1 then 1 else 0
  drainEval (setDma s c (if x.st = 5 ∨ srcFenced s (srcDma c) then { x with before := st } else { x with st := st })) c

/-- The effect of a write of DMA_CTRL, `old` being the register before (R373, R381, R382). -/
def dmaCtrlSet (s : State) (c old : Nat) : State :=
  let new := dmaCtl s c
  let en0 := old.testBit 0
  let en := new.testBit 0
  if en0 ∧ bits old 1 5 ≠ bits new 1 5 then raiseDma (wr s (rDMA c 0) old) c kConfig (rDMA c 0)
  else if en ∧ ¬ en0 ∧ new.testBit 1 ∧ ¬ drainCfgOk s c then
    raiseDma (orBits (wr s (rDMA c 0) (clr new 1)) (rDMA c 4) 0x2000) c kConfig (rDMA c 0)
  else
    let s := if en ∧ ¬ en0 then dmaEnabled s c
      else if en0 ∧ ¬ en then drainEval (dmaStop s c) c else s
    if ¬ en then s
    else if new.testBit 6 ∧ ¬ (en0 ∧ old.testBit 6) then dmaPauseOn s c
    else if ¬ new.testBit 6 ∧ old.testBit 6 then dmaPauseOff s c
    else s

/-- A write of DMA_HBASE or DMA_HLOG2 (R373): ignored while EN = 1, with CONFIG. `off` is the register's first word and
`old` its words before. -/
def dmaCfgSet (s : State) (c off words old : Nat) : State :=
  if (dmaCtl s c).testBit 0 ∧ rL s off words ≠ old then raiseDma (wL s off words old) c kConfig off else s

/-- DMA_CMD.DOORBELL (R362, R363); while PAUSE = 1 the channel that it starts pauses at once (R381), and a fenced one that
ABORT made idle stays so (R383, log entry 140). -/
def dmaBell (s : State) (c : Nat) : State :=
  let x := dma s c
  if ¬ isChain s c then s
  else if srcFenced s (srcDma c) then setDma s c { x with dbPend := true }
  else if x.st = 0 ∨ x.st = 2 then
    if (dmaCtl s c).testBit 6 then setDma s c { x with st := 3, before := 1, desc := none }
    else setDma s c { x with st := 1, desc := none }
  else setDma s c { x with dbPend := true }

/-- DMA_CMD.RESUME (R382, R383): a HALTED channel continues in the state that it was stopped in. -/
def dmaContinue (s : State) (c : Nat) : State :=
  let x := dma s c
  if x.st = 5 then
    let s := setDma s c { x with st := 4, retries := [] }
    if (dmaCtl s c).testBit 6 then setDma s c { dma s c with st := 3 } else dmaPauseOff s c
  else s

/-- A write of DMA_HRD (R374): ignored with HOST_PTR where it moves backwards or past DMA_HWR. `old` is the count before. -/
def dmaHrdSet (s : State) (c old : Nat) : State :=
  let new := rn s (rDMA c 0x70)
  let hwr := rn s (rDMA c 0x6C)
  if (hwr + 2 ^ 32 - old) % 2 ^ 32 < (new + 2 ^ 32 - old) % 2 ^ 32 then
    raiseDma (orBits (wr s (rDMA c 0x70) old) (rDMA c 4) 0x8000) c kHostPtr (rDMA c 0x70)
  else drainEval s c

/-- The fence of channel c: it stops as under PAUSE (R383). -/
def dmaFence (s : State) (c : Nat) : State :=
  let x := dma s c
  setDma s c { x with st := 6, before := if x.st ≤ 2 then x.st else x.before, inFlight := false }

/-- The end of the fence of channel c: HALTED (R383). -/
def dmaUnfence (s : State) (c : Nat) : State := setDma s c { dma s c with st := 5 }

/-- W of R372. -/
def dmaWrap (s : State) (c : Nat) : Nat :=
  let w := bits (dmaCtl s c) 17 6
  if w < 6 then 6 else if 40 < w then 40 else w

/-- The address of byte i of a destination (R372). -/
def dstAddr (s : State) (c : Nat) (d : Desc) (i : Nat) : Nat :=
  if d.ctrl.testBit 20 then
    let m := 2 ^ dmaWrap s c
    d.dst - d.dst % m + (d.dst + i) % m
  else (d.dst + i) % 2 ^ 64

/-- SRC_LOC and DST_LOC. -/
def srcLoc (d : Desc) : Nat := bits d.ctrl 21 2
def dstLoc (d : Desc) : Nat := bits d.ctrl 23 2
/-- FILL and COMPARE. -/
def isFill (d : Desc) : Bool := d.ctrl.testBit 16
def isCmp (d : Desc) : Bool := d.ctrl.testBit 17

/-- A descriptor of 32 bytes (R359). -/
def descOf (addr : Nat) (b : List Byte) : Desc :=
  let at_ (o n : Nat) : Nat := leNat ((b.drop o).take n)
  ⟨addr, at_ 0 4, at_ 4 4, at_ 8 8, at_ 16 8, at_ 24 8⟩

/-- The stretches of a destination, each by its first byte and the one after its last (R360); WRAP has no effect on COMPARE
(R372). -/
def dstSpans (s : State) (c : Nat) (d : Desc) : List (Nat × Nat) :=
  let m := 2 ^ dmaWrap s c
  let b := d.dst - d.dst % m
  if d.ctrl.testBit 20 ∧ ¬ isCmp d ∧ m < d.dst % m + d.len then
    if m ≤ d.len then [(b, b + m)] else [(d.dst, b + m), (b, d.dst + d.len - m)]
  else [(d.dst, d.dst + d.len)]

/-- Whether a stretch touches the NVS window (R358). -/
def inNvs (p : Nat × Nat) : Bool :=
  decide (p.1 < 0xC80000 ∧ 0xC00000 < p.2 ∨ p.1 = p.2 ∧ 0xC00000 ≤ p.1 ∧ p.1 < 0xC80000)

/-- The conditions of R360. -/
def descOk (s : State) (c : Nat) (d : Desc) : Bool :=
  let sp := dstSpans s c d
  let inSpace (p : Nat × Nat) : Bool := decide (p.1 < 2 ^ 24) && decide (p.2 ≤ 2 ^ 24)
  !(isFill d && isCmp d) && decide (dstLoc d ≠ 3) && (isFill d || decide (srcLoc d ≠ 3)) &&
  (isFill d || decide (srcLoc d = 0) || inSpace (d.src, d.src + d.len)) && (decide (dstLoc d = 0) || sp.all inSpace) &&
  (isFill d || decide (srcLoc d ≠ 2) || decide (d.src % 4 = 0 ∧ d.len % 4 = 0)) &&
  (decide (dstLoc d ≠ 2) || decide (d.dst % 4 = 0 ∧ d.len % 4 = 0)) &&
  !(decide (dstLoc d = 1) && sp.any inNvs) &&
  (d.ctrl.testBit 19 || decide (d.next % 32 = 0)) && decide (bits d.ctrl 28 3 = 0)

/-- DMA_STATUS as the bits that the hardware forms (R384). -/
def dmaLive (s : State) (c : Nat) : Nat :=
  let x := dma s c
  x.st + 8 * b2n x.dbPend + 16 * b2n (isDrain s c && decide (dmaRoom s c = 0)) +
    32 * b2n (isDrain s c && decide (x.st = 1) && (x.held || x.flush))

/-- Whether channel c has a burst to be granted (R375, R376, R378): a drain with its request raised; a running chain that has a
descriptor to fetch or data to move. A channel whose burst is outstanding asks for no second one (log entry 199). -/
def dmaWants (s : State) (c : Nat) : Bool :=
  let x := dma s c
  decide (x.st = 1) && !x.inFlight &&
  ((isDrain s c && decide (1 ≤ dmaRoom s c) && decide (1 ≤ ringFill (ring s (bits (dmaCtl s c) 2 4))) && (x.held || x.flush)) ||
   (isChain s c && (x.desc.isNone || decide (rn s (rDMA c 0x30) ≠ 0))))

/-- DMA_OUTSTANDING: the bursts outstanding between commands (R378, log entry 199). -/
def dmaOutstanding (s : State) : Nat := (List.range 16).countP (fun c => (dma s c).inFlight)

/-- The channel that the next burst is granted to: promoted ones first, round-robin from the last, while fewer than 8 bursts are
outstanding (R378). -/
def dmaTurn (s : State) : Option Nat :=
  let order := (List.range 16).map (fun i => (s.dmaLast + 1 + i) % 16)
  if 8 ≤ dmaOutstanding s then none
  else match order.find? (fun c => dmaWants s c && (dma s c).promoted) with
  | some c => some c
  | none => order.find? (dmaWants s)

/-- Whether channel c may move a burst now: the one it was granted, or the next one as its turn has come. -/
def dmaMay (s : State) (c : Nat) : Bool := (dma s c).inFlight || decide (dmaTurn s = some c)

/-- The grant of a burst to channel c (R378, R384): counted once, the promotion spent. -/
def dmaGrant (s : State) (c : Nat) : State :=
  if (dma s c).inFlight then s
  else
    let s := bump { s with dmaLast := c } (rDMA c 0x9C)
    setDma s c { dma s c with promoted := false, inFlight := true }

end Sys2Proof.Machine
end

