-- ==== Sys2Proof/Machine/MateOps.lean ====
section
/-!
DEFINITION. The mirrored pair (R458 to R489): readiness, the lines, the roles, the OWN bus, takeovers, what the active
module forwards.
-/
namespace Sys2Proof.Machine

open Sys2Proof

/-- Whether the module works in a pair (R459). -/
def paired (s : State) : Bool := rbit s (rMATE 0) 0

/-- The mate link: at least one lane up, and source 0xD7 not fenced (R458, R460, R489). -/
def mateLink (s : State) : Bool := (s.mate.lane0 || s.mate.lane1) && !srcFenced s srcMate

-- the OWN bus

/-- One bit of the CRC-8 of R478. -/
def crc8Bit (c : Nat) : Nat := if 128 ≤ c then ((c * 2) % 256) ^^^ 0x07 else c * 2

/-- The CRC-8 of R478 over bytes. -/
def crc8 (l : List Nat) : Nat :=
  l.foldl (fun c b => crc8Bit (crc8Bit (crc8Bit (crc8Bit (crc8Bit (crc8Bit (crc8Bit (crc8Bit (c ^^^ b))))))))) 0

/-- An OWN frame with its CRC (R478). -/
def ownFrame (type slot group map seqNo : Nat) : Nat :=
  let hi := type * 2 ^ 20 + slot * 2 ^ 19 + group * 2 ^ 15 + map * 2 ^ 7 + seqNo % 128
  hi * 256 + crc8 [hi / 65536, hi / 256 % 256, hi % 256]

/-- Whether the module drives the OWN bus (R464); with PAIR = 0 the mate's line is ignored (R459). -/
def drivesOwn (s : State) : Bool := s.mate.lineAct && !(paired s && s.mate.lineActive)

/-- Sends a frame on the OWN bus where the module drives it. -/
def sendOwn (s : State) (type group map : Nat) : State :=
  if drivesOwn s then
    let s' := emit s (.own (if type = 1 then group else 16) (ownFrame type (b2n s.mate.slotB) group map s.mate.ownSeq))
    { s' with mate := { s'.mate with ownSeq := (s'.mate.ownSeq + 1) % 128 } }
  else s

/-- MATE_OWN_MAP's bits of group g: bit i for port 8 g + i (R480). -/
def ownBits (s : State) (g : Nat) : Nat := rb s (rMATE (0x100 + 4 * (g / 4))) (8 * (g % 4)) 8

/-- Sets the owner of a port: slot B or not. -/
def setOwner (s : State) (p : Nat) (b : Bool) : State := wb s (rMATE (0x100 + 4 * (p / 32))) (p % 32) 1 (b2n b)

/-- Sends the GROUP frame of group g (R478, R480). -/
def sendGroup (s : State) (g : Nat) : State := sendOwn s 1 g (ownBits s g)

/-- The groups of ports, each once. -/
def groupsOf (ps : List Nat) : List Nat := (List.range 16).filter (fun g => ps.any (fun p => decide (p / 8 = g)))

/-- Moves ports to this module's clocks or to the mate's, with a frame at once for each group (R480 to R482); a module that does not
drive OWN moves none, and MATE_OWN_MAP stays. -/
def movePorts (s : State) (ps : List Nat) (toMate : Bool) : State :=
  if ¬ drivesOwn s then s
  else (groupsOf ps).foldl sendGroup (ps.foldl (fun s p => setOwner s p (s.mate.slotB != toMate)) s)

/-- The ALL frame for the module's own slot, and GROUP frames for the ports that it keeps with the mate (R481). -/
def ownAll (s : State) : State :=
  let v := b2n s.mate.slotB * ones 32
  let s := sendOwn (upto 4 (fun s w => wr s (rMATE (0x100 + 4 * w)) v) s) 2 0 (b2n s.mate.slotB)
  movePorts { s with mate := { s.mate with ownDue := false } } s.mate.handed true

-- roles

/-- Brings MATE_ACTIVE to the role (R433, R461): low in SAFE, under MRST_N and without power. -/
def lineEval (s : State) : State :=
  let a := !s.standby && !s.fcol.safe && !s.pwr.mrst && decide (s.pwr.power = 2)
  { s with mate := { s.mate with lineAct := a } }

/-- The module's own MATE_ALIVE (R461). -/
def ownAlive (s : State) : Bool := decide (s.pwr.power = 2) && !s.pwr.mrst

/-- Whether the ACTIVE module's mate is ready (R458). -/
def mateIsReady (s : State) : Bool :=
  paired s && !s.standby && mateLink s && s.mate.fresh && s.mate.reportsReady && s.mate.lineAlive && !s.mate.clash

/-- A port comes to this module's clock (R483): where the clock it had had stopped for 200 ns or more, and its FOD drives, it goes to
COUNT_LOST. A module whose MATE_ALIVE is low drives no port (R462); of a live mate no message says whether its clock had stopped
(log entry 203). -/
def portGain (s : State) (p : Nat) : State :=
  let gone := !s.mate.lineAlive || Config.mateStopped s.free
  let t := { s with free := s.free + 1 }
  if gone ∧ (fod s (portFod s p)).driving then orBits t (rPORT p 4) 0x10 else t

/-- The same for a list of ports. -/
def stoppedLost (s : State) (ps : List Nat) : State := ps.foldl portGain s

/-- The ports on the mate's clocks that come to this module at a change of role: all but those it leaves with the mate (R481). -/
def matePorts (s : State) : List Nat :=
  (List.range 128).filter (fun p =>
    (rbit s (rMATE (0x100 + 4 * (p / 32))) (p % 32) != s.mate.slotB) && !s.mate.handed.contains p)

/-- Brings MATE_READY to R458; where the mate stops being ready, the ACTIVE module takes back every port that it had
handed to it (R482). -/
def mateEval (s : State) : State :=
  let r := mateIsReady s
  let s' := { s with mateReady := r }
  if s.mateReady ∧ ¬ r ∧ ¬ s.standby then
    let ps := s.mate.handed
    let s' := stoppedLost (movePorts { s' with mate := { s'.mate with handed := [] } } ps false) ps
    ps.foldl (fun s p =>
      let n := portFod s p
      if (fod s n).fenced then darkEval (setFod s n { fod s n with degraded := true }) n else s) s'
  else s'

/-- Whether DP0 is LOCKED to REF10 or REF11 (R460). -/
def dp0OnMate (s : State) : Bool :=
  decide ((dp s 0).st = 2) && (match (dp s 0).sel with
    | some (_, i) => decide (i = 10 ∨ i = 11)
    | none => false)

/-- Whether the condition of an NR_WHY code holds (R460). -/
def nrOk (s : State) (code : Nat) : Bool :=
  match code with
  | 1 => s.mate.synced
  | 2 => !s.mate.hold2
  | 7 => !s.mate.hold7
  | 6 => mateLink s
  | 3 => s.mate.ckptFresh
  | 8 => dp0OnMate s
  | 5 => decide (s.mate.aligns = [true, true, true])
  | 4 => !s.mate.diverged
  | _ => true

/-- The first failing reason, in the order of R460's table behind the two that hold; 0 where none fails. -/
def nrFirst (s : State) : Nat := ([7, 2, 1, 6, 3, 8, 5, 4].find? (fun c => !nrOk s c)).getD 0

/-- Brings READY and NR_WHY to R460: a reason stays while it fails; a module that becomes NOT_READY waits for a MATE_SYNC. -/
def nrEval (s : State) : State :=
  if ¬ s.standby ∨ ¬ paired s then s
  else
    let w := s.mate.nrWhy
    if w = 0 then
      let f := nrFirst s
      if f = 0 then s else { s with mate := { s.mate with nrWhy := f, synced := false } }
    else if nrOk s w then { s with mate := { s.mate with nrWhy := nrFirst s } }
    else s

/-- REF10 and REF11 at a change of role: an ACTIVE module has neither QUALIFIED, a STANDBY one qualifies those that are GOOD
(R191, R468). -/
def roleRefs (s : State) : State :=
  [10, 11].foldl (fun s i => qualRun (setRefBit s i 1 false) i (refBit s i 0)) s

/-- The words of DP1 to DP3 that wait for their boundary belong to the role in which they came (R472). -/
def roleWords (s : State) : State :=
  upto 3 (fun s d => setDp s (d + 1) { dp s (d + 1) with pipe := [], received := [] }) s

/-- The module's role changes (R481): the flag and the event; what a MATE_SYNC has brought so far is dropped (R485). -/
def roleChange (s : State) (standby : Bool) : State :=
  let s := roleWords s
  let s := { s with standby := standby, mate := { s.mate with
    nrWhy := if standby then 1 else 0, synced := false, image := [], imageDone := false, syncFrom := none } }
  event (lineEval (orBits (roleRefs s) (rMATE 4) 0x100)) 58

/-- The module gives up the ACTIVE role: STANDBY, NOT_READY with code 1 (R463, R481). A change of role ends a running
MATE_SYNC (R353). -/
def becomeStandby (s : State) : State :=
  let s := roleChange { s with mateReady := false } true
  cmdEnd s (fun x => x.running && decide (x.w0 % 256 = 10)) 10

/-- The module takes the ACTIVE role: the ALL frame goes out as soon as the module drives OWN (R459, R481), and STOPs that are
due go out (R352). -/
def takeRole (s : State) : State :=
  let s := upto 16 calStops (roleChange s false)
  let s := { s with mate := { s.mate with ownDue := true } }
  mateEval (if drivesOwn s then ownAll s else s)

/-- A takeover gives the module the role and the ports, and counts (R481). -/
def becomeActive (s : State) : State := takeRole (stoppedLost (bump s (rMATE 0x50)) (matePorts s))

/-- The mailbox becomes the mate's (R317, R476): bytes by their offset in it. -/
def mailboxTake (s : State) (l : List (Nat × Byte)) : State :=
  let s := { s with mem := s.mem.filter (fun c => !(decide (0x880000 ≤ c.1) && decide (c.1 < 0x881000))) }
  l.foldl (fun s p => setMb s (0x880000 + p.1 % 4096) p.2) s

/-- A claim (R462, R481): DP0's integrator and the mailbox, which is what the sequencers see of a checkpoint beside what the standby
took when it came (log entry 204), come from the newest checkpoint. -/
def claimRole (s : State) : State :=
  let s := bump s (rMATE 0x54)
  let s := match s.mate.ckpt with
    | some c =>
      let s := mailboxTake s c.mailbox
      (match c.integrators with
      | i :: _ => setDp s 0 { dp s 0 with integ := i, loop := i }
      | [] => s)
    | none => s
  becomeActive { s with mate := { s.mate with handed := [] } }

/-- Whether a STANDBY module may claim at all (R433, R459, R462). -/
def mayClaim (s : State) : Bool :=
  paired s && s.standby && !s.mate.lineActive && !s.fcol.safe && ownAlive s

/-- Gives activity to a ready mate (R424, R481). -/
def giveActivity (s : State) : State := becomeStandby (mateSend s 0x84 [])

/-- MATE_CMD.YIELD, and the yield of RIDE (R481, R498): nothing without a ready mate. -/
def mateYield (s : State) : State := if ¬ s.standby ∧ s.mateReady then giveActivity s else s

/-- Both MATE_ACTIVE lines are sensed high (R463): slot B becomes STANDBY. -/
def splitCheck (s : State) : State :=
  if paired s ∧ s.mate.lineAct ∧ s.mate.lineActive then
    let s := raise (orBits s (rMATE 4) 0x200) srcMate kSplit (rMATE 4)
    if s.mate.slotB then becomeStandby s else s
  else s

/-- A sensed line of the mate takes a level (R461 to R464). `alive`: MATE_ALIVE, else MATE_ACTIVE. -/
def mateLine (s : State) (alive level : Bool) : State :=
  let fell := alive && s.mate.lineAlive && !level
  let s := { s with mate := { s.mate with
    lineAlive := if alive then level else s.mate.lineAlive
    lineActive := if alive then s.mate.lineActive else level } }
  if ¬ paired s then s
  else
    let s := if fell then event s 59 else s
    let s := mateEval (splitCheck s)
    let s := if mayClaim s ∧ ¬ s.mate.lineAlive then claimRole s else s
    if s.mate.ownDue ∧ drivesOwn s then ownAll s else s

/-- LOS of REF10 and REF11 follows the mate link (R190). -/
def mateLos (s : State) : State :=
  [10, 11].foldl (fun s i => if rbit s (rREF i 0) 0 then setLevel s i .los (!mateLink s) else s) s

/-- A mate lane changes (R466): LANE_DOWN, LINK_DOWN, and the event of a lost link. -/
def mateLane (s : State) (l : Nat) (up : Bool) : State :=
  let was := if l = 0 then s.mate.lane0 else s.mate.lane1
  let s := { s with mate := { s.mate with
    lane0 := if l = 0 then up else s.mate.lane0, lane1 := if l = 0 then s.mate.lane1 else up } }
  let s := if s.mate.lane0 ∨ s.mate.lane1 then s else { s with mate := { s.mate with rx := [] } }
  let s := if was ∧ ¬ up ∧ paired s then
      if s.mate.lane0 ∨ s.mate.lane1 then raise s srcMate kMateLaneDown (rMATE 4)
      else event (raise s srcMate kMateLinkDown (rMATE 4)) 59
    else s
  nrEval (mateEval (mateLos s))

/-- A MATE_SYNC that a standby was taking is interrupted (R352, R460). -/
def syncDrop (s : State) : State :=
  if s.mate.image = [] then s
  else
    let s := { s with mate := { s.mate with image := [], imageDone := false, hold2 := true, synced := false } }
    if s.standby then { s with mate := { s.mate with nrWhy := if s.mate.nrWhy = 7 then 7 else 2 } } else s

-- checkpoints

/-- The fields of a hop entry. -/
def hopFields (h : HopEnt) : List Int :=
  [(b2n h.valid : Int), (b2n h.coherent : Int), (h.n : Int), (h.f : Int), (h.m : Int), (h.o : Int), h.phase]

/-- The content of a checkpoint (R474, R476): each list behind its length, an anchor as its cycle and that cycle's edge. -/
def ckptFields (s : State) : List Int :=
  let new := s.scr.samples.filter (fun p => decide ((s.mate.screedSent : Int) < p.1))
  let edge (x : Fod) (c : Int) : Int := rfloor (lawOf s x.recs x.anchors c)
  let run := (s.fods.filter (fun p => p.2.running)).map (fun p =>
    match p.2.anchors, p.2.recs with
    | a :: _, _ => [(p.1 : Int), a.cycle, edge p.2 a.cycle]
    | [], r :: _ => [(p.1 : Int), r.cycle, rfloor r.time]
    | [], [] => [(p.1 : Int), 0, 0])
  [(s.mate.ckptSeq : Int), (readT s : Int), (rn s (rSEAL 0x0C) : Int), (new.length : Int)] ++
    new.flatMap (fun p => [p.1, p.2.1, p.2.2.1, (p.2.2.2 : Int)]) ++
    [0x10, 0x18, 0x20, 0x28].map (fun o => sx 64 (rL s (rSCR o) 2)) ++ [sx 16 (rn s (rSCR 0x34)), sx 64 (rL s (rSCR 0x38) 2)] ++
    (List.range 4).map (fun d => rfloor (dp s d).integ) ++ [(s.mate.hopsChanged.length : Int)] ++
    s.mate.hopsChanged.flatMap (fun (n : Nat) => (n : Int) :: (List.range 16).flatMap (fun e => hopFields (hopEnt (fod s n) e))) ++
    [(run.length : Int)] ++ run.flatten ++ mirrorFields s ++ (mbs s 0x880000 4096).map (fun b => (b.toNat : Int))

/-- The ACTIVE module sends its checkpoint (R476). -/
def sendCkpt (s : State) : State :=
  if s.standby ∨ ¬ paired s then s
  else
    let s := mateSend s 0x82 (ckptFields s)
    { s with mate := { s.mate with
      ckptSeq := s.mate.ckptSeq + 1, hopsChanged := [], screedSent := (match s.scr.samples with
        | p :: _ => p.1.toNat
        | [] => 0) } }

-- forwarding

/-- Whether a host write to an offset is forwarded (R473): registers with an S field, FOD_CMD, FOD_PDELTA, FOD_HOP_CMD, the
hop-entry window, SC_CMD, the ECAM's entries and ECAM_GEN. -/
def forwarded (off : Nat) : Bool :=
  match regInfo off with
  | none => false
  | some i => decide (i.row.slm ≠ 0 ∧ i.blk ≠ .time) || decide (i.blk = .ecamEnt) || decide (i.blk = .ecam ∧ i.row.off = 0x04) ||
      decide (i.blk = .sc ∧ i.row.off = 0x008) ||
      decide (i.blk = .fod ∧ (i.row.off = 0x008 ∨ i.row.off = 0x04C ∨ i.row.off = 0x0E0 ∨
        0x0A0 ≤ i.row.off ∧ i.row.off ≤ 0x0D4))

/-- Forwards an item (R473). -/
def forward (s : State) (fields : List Int) : State := if ¬ s.standby ∧ paired s then mateSend s 0x86 fields else s

/-- Whether the host's submission of an opcode is forwarded (R473). -/
def cmdForwarded (op : Nat) : Bool := decide (op = 6 ∨ op = 7 ∨ op = 8)

/-- A submission by a master, forwarded where R473 names it; none before the NVS load completes (log entry 7). -/
def cmdIn (s : State) (m w0 w1 w2 w3 : Nat) : State :=
  if ¬ s.nvsLoaded then s else
  let ok := decide (cmdRefusal s m (w0 % 256) = 0) && decide (s.cmd.frees ≠ [])
  let s := cmdSubmit s m w0 w1 w2 w3
  if ok ∧ m = 1 ∧ cmdForwarded (w0 % 256) then forward s [1, (w0 : Int), (w1 : Int), (w2 : Int), (w3 : Int)] else s

end Sys2Proof.Machine
end

