-- ==== Sys2Proof/Machine/FaultOps.lean ====
section
/-!
DEFINITION. Watershed (R415 to R440): severities, fences and their isolation, shadows, an intake, first error, records,
HANDOVER and SAFE.
-/
namespace Sys2Proof.Machine

open Sys2Proof

-- severities and sources

/-- The severity nibble of a source and kind as the table holds it (R419, R437); every kind of 0xFF is SAFE. -/
def sevNibble (s : State) (src kind : Nat) : Nat :=
  if src = srcCol then 4 else rb s (rFCOL (0x1000 + 0x20 * src + 4 * (kind / 8))) (4 * (kind % 8)) 4

/-- The severity that a nibble gives: the reserved ones act as LOG (R419, R438). -/
def sevOf (n : Nat) : Nat := if 5 ≤ n then 1 else n

/-- Whether a source exists (R415). -/
def srcOk (src : Nat) : Bool := decide (src < 0xDE) || decide (src = 0xFF)

/-- Whether R421 gives a source an isolation. -/
def hasIso (src : Nat) : Bool :=
  decide (src < 0xDE) && !([0xD2, 0xD8, 0xD9, 0xDA, 0xDB, 0xDC] : List Nat).contains src

/-- FAULT_N driven low (R429); in OFF and CHARGE it reads high (R524). -/
def faultLow (s : State) : Bool :=
  decide (s.pwr.power = 2) && (s.fcol.safe || s.fcol.pend.any (fun p => decide (atLeast1 (rb s (rFCOL 0) 0 3) ≤ p.2)))

-- shadows

/-- The kinds of a DPLL that depend on its reference (R421). -/
def refKinds (k : Nat) : Bool := decide (k = kRefSwitch ∨ k = kLockLost ∨ k = kHoldoverEntry)

/-- The units that depend on a source as they stand now (R421): ports of an FOD, FODs of an SC, SCs of a DPLL, DPLLs of a
reference or of a lane's ports, drain channels. -/
def depInsts (s : State) (src : Nat) : List Nat :=
  if src < 0x80 then portsOf s src
  else if src < 0x88 then fodsNaming s (src - 0x80)
  else if src < 0x8C then (List.range 8).filter (fun n => decide ((sc s n).master = src - 0x88))
  else if src < 0x98 then (List.range 4).filter (fun d => decide ((dp s d).sel.map (·.2) = some (src - 0x8C)))
  else if src < 0xA8 then (List.range 4).filter (fun d => match (dp s d).sel with
    | some (_, i) => decide (16 ≤ i ∧ (i - 16) / 8 = src - 0x98)
    | none => false)
  else if src = srcCap then (List.range 16).filter (fun c => isDrain s c)
  else []

/-- Whether a source and kind fall within the declared dependents of a source whose dependents are `insts` (R421). -/
def depCovers (from_ : Nat) (insts : List Nat) (src kind addr : Nat) : Bool :=
  if from_ < 0x80 then decide (0x98 ≤ src ∧ src < 0xA8 ∧ addr < 128 ∧ addr / 8 = src - 0x98) && insts.contains addr
  else if from_ < 0x88 then decide (src < 0x80) && insts.contains src
  else if from_ < 0x8C then
    decide (0x80 ≤ src ∧ src < 0x88 ∧ kind = kDcoLimit) && insts.contains (src - 0x80)
  else if from_ < 0x98 then decide (0x88 ≤ src ∧ src < 0x8C) && refKinds kind && insts.contains (src - 0x88)
  else if from_ < 0xA8 then
    decide (src = from_ + 0x10) || (decide (0x88 ≤ src ∧ src < 0x8C) && refKinds kind && insts.contains (src - 0x88))
  else if from_ = srcCap then decide (0xBA ≤ src ∧ src < 0xCA ∧ kind = kBusError) && insts.contains (src - 0xBA)
  else if from_ = srcMate then decide (src = 0x96 ∨ src = 0x97)
  else if from_ = srcOcxo then decide (src < 0x8C ∨ src = srcTime)
  else false

/-- Whether an open window covers a source and kind (R425). -/
def winCovers (s : State) (w : Window) (src kind addr : Nat) : Bool :=
  decide (s.time.aon < w.until_) && (decide (src = w.src) || depCovers w.src w.insts src kind addr)

/-- Whether a shadow that lasts as long as an SC's fence covers a source and kind (R154, R421). -/
def heldShadow (s : State) (src kind : Nat) : Bool :=
  decide (src < 0x80) && decide (kind = kInputLost ∨ kind = kAlignLost) && s.fcol.scFods.any (fun p => p.2.contains src)

/-- Whether a source and kind are shadowed already (R425). -/
def shadowed (s : State) (src kind addr : Nat) : Bool :=
  s.fcol.windows.any (fun w => winCovers s w src kind addr) || heldShadow s src kind

/-- FCOL_SHADOW_MAP's bit of a source: any shadow covers it (R425). -/
def srcShadowed (s : State) (src : Nat) : Bool :=
  (List.range 64).any (fun k => shadowed s src k 0 || (decide (0x98 ≤ src ∧ src < 0xA8) &&
    (List.range 8).any (fun i => shadowed s src k (8 * (src - 0x98) + i))))

/-- Opens the window of a source, of SHADOW_US µs, ten AON periods each (R421, R425). -/
def openWindow (s : State) (src : Nat) : State :=
  let us := atLeast1 (rb s (rFCOL 0) 16 16)
  let w : Window := ⟨src, s.time.aon + 10 * us, depInsts s src⟩
  { s with fcol := { s.fcol with windows := w :: s.fcol.windows.filter (fun v => decide (v.src ≠ src)) } }

-- isolation

/-- A core halts, with a reason (R310, R316, R318, R319). -/
def seqHaltAs (s : State) (n why : Nat) : State :=
  let x := seqc s n
  let s := setSeqc s n { x with waitT := none, waitE := none, stepping := false }
  wb (wb s (rSEQ n 4) 0 3 0) (rSEQ n 4) 4 3 why

/-- Whether a core is halted (R319). -/
def seqHalted (s : State) (n : Nat) : Bool := decide (rb s (rSEQ n 4) 0 3 = 0)

/-- Discards an FOD's queued actions, with FLUSHED (R153). -/
def fodFlush (s : State) (n : Nat) : State :=
  let x := fod s n
  let s := setFod s n { x with queue := [], hopHeld := [] }
  if x.queue = [] ∧ x.hopHeld = [] then s else orBits s (rFOD n 0x78) 0x400

/-- FOD n reacts as a fenced FOD (R153): it keeps its output, a phase slew under way stopping where it is; its ports go to a
ready mate, else they are DEGRADED. -/
def fodFence (s : State) (n : Nat) : State :=
  let s := phaseFreeze (fodFlush s n) n (nowR s)
  let s := setFod s n { fod s n with fenced := true, frozen := true }
  if ¬ s.standby ∧ s.mateReady then
    let ps := portsOf s n
    let s := darkEval (movePorts s ps true) n
    { s with mate := { s.mate with handed := s.mate.handed ++ ps.filter (fun p => !s.mate.handed.contains p) } }
  else darkEval (setFod s n { fod s n with degraded := true }) n

/-- Adds a source to the fence map (R421). -/
def markFenced (s : State) (src : Nat) : State :=
  { s with fcol := { s.fcol with fenced := s.fcol.fenced ++ [src] } }

/-- SC n is fenced (R118 to R120): the FODs whose FOD_INSEL names it go to the first qualifying candidate, or react as
fenced FODs themselves (R423). -/
def scFence (s : State) (n : Nat) : State :=
  let fods := fodsNaming s n
  let s := setSc s n { sc s n with fenced := true }
  let s := { s with fcol := { s.fcol with scFods := (n, fods) :: s.fcol.scFods.filter (fun p => decide (p.1 ≠ n)) } }
  let s := if fods = [] then s
    else match rehomeTarget s n with
      | some c =>
        let s := setSc s n { sc s n with rehome := some (c, fods) }
        fods.foldl (fun s f =>
          if (fod s f).running then darkEval (setFod s f { fod s f with rehomeGap := true }) f else rehomeFod s f n c) s
      | none =>
        let s := raise s (srcSc n) kRehomeNone (rSC n 4)
        fods.foldl (fun s f => if srcFenced s f then s else fodFence (markFenced s f) f) s
  scWakeEval s

/-- The isolation of a source (R421). -/
def isolate (s : State) (src : Nat) : State :=
  if src < 0x80 then fodFence s src
  else if src < 0x88 then scFence s (src - 0x80)
  else if src < 0x8C then setDp s (src - 0x88) { dp s (src - 0x88) with fenced := true }
  else if src < 0x98 then refStop s (src - 0x8C) true
  else if src < 0xA8 then linkDown s (src - 0x98)
  else if src < 0xB8 then linkDown s (src - 0xA8)
  else if 0xBA ≤ src ∧ src < 0xCA then dmaFence s (src - 0xBA)
  else if 0xCA ≤ src ∧ src < 0xD2 then seqHaltAs s (src - 0xCA) 6
  else if src = srcTime then noteFlags { s with time := { s.time with interp := false } }
  else if src = srcMate then nrEval (mateEval (mateLos s))
  else s

/-- Fences a source (R421): nothing further where it is fenced already or has no isolation. -/
def fence (s : State) (src : Nat) : State :=
  if ¬ hasIso src ∨ srcFenced s src then s
  else event (isolate (markFenced s src) src) 61

/-- R421's condition for the clear of a fence. -/
def mayUnfence (s : State) (src : Nat) : Bool :=
  if src < 0x80 then
    let c := sc s (fod s src).sc
    !c.fenced && c.lockSet
  else if 0x98 ≤ src ∧ src < 0xA8 then (lane s (src - 0x98)).el
  else if 0xA8 ≤ src ∧ src < 0xB8 then (lane s (src - 0xA8)).cl
  else if src = srcMate then s.mate.lane0 || s.mate.lane1
  else true

/-- What the end of a source's fence does (R154, R191, R233, R383, R421). -/
def release (s : State) (src : Nat) : State :=
  if src < 0x80 then
    let s := darkEval (setFod s src { fod s src with fenced := false, frozen := s.fcol.safe }) src
    let s := if s.fcol.safe then s else phaseResume s src (nowR s)
    inputReady s src
  else if src < 0x88 then
    let n := src - 0x80
    let s := setSc s n { sc s n with fenced := false }
    scWakeEval { s with fcol := { s.fcol with scFods := s.fcol.scFods.filter (fun p => decide (p.1 ≠ n)) } }
  else if src < 0x8C then setDp s (src - 0x88) { dp s (src - 0x88) with fenced := false }
  else if src < 0x98 then
    let s := refEval (setRef s (src - 0x8C) { ref s (src - 0x8C) with fenced := false }) (src - 0x8C)
    if src = 0x96 ∨ src = 0x97 then mateLos s else s
  else if src < 0xA8 then linkUp s (src - 0x98)
  else if src < 0xB8 then linkUp s (src - 0xA8)
  else if 0xBA ≤ src ∧ src < 0xCA then dmaUnfence s (src - 0xBA)
  else if src = srcMate then nrEval (mateEval (mateLos s))
  else s

/-- The request bit of a source in FCOL_UNFENCE (R422). -/
def unfenceOff (src : Nat) : Nat := rFCOL (0x80 + 4 * (src / 32))

/-- A requested clear at an AON boundary (R422, R439): a request on a source that is not fenced ends with no effect. -/
def fenceClearRun (s : State) (src : Nat) : State :=
  if ¬ rbit s (unfenceOff src) (src % 32) then s
  else if ¬ srcFenced s src then
    hwUpdate s (unfenceOff src) (rFCOL 4) 0x1000 (fun s => clrBits s (unfenceOff src) (2 ^ (src % 32)))
  else if mayUnfence s src then
    let s := { s with fcol := { s.fcol with fenced := s.fcol.fenced.filter (fun x => decide (x ≠ src)) } }
    hwUpdate (release s src) (unfenceOff src) (rFCOL 4) 0x1000 (fun s => clrBits s (unfenceOff src) (2 ^ (src % 32)))
  else s

-- SAFE

/-- Every FOD keeps its phase, a phase slew stopping where it is, and corrects no more (R155, R352). -/
def fodSafe (s : State) (n : Nat) : State :=
  let s := phaseFreeze s n (nowR s)
  setFod s n { fod s n with frozen := true }

/-- SC n in SAFE (R122, R155): W stays, no FOD moves away any more, and a MASTER that software writes in the cycle of the entry is
rejected. -/
def scSafe (s : State) (n : Nat) : State :=
  let s := setSc s n { sc s n with frozen := true, rehome := none }
  if softWrote s (rSC n 0) ∧ scMaster s n ≠ (sc s n).master then
    bumpM (wb s (rSC n 0) 1 3 (sc s n).master) (rSC n 0xF8)
  else s

/-- The module enters SAFE (R433): every block takes its SAFE behaviour. -/
def enterSafe (s : State) (src kind : Nat) : State :=
  if s.fcol.safe then s
  else
    let s := { s with fcol := { s.fcol with safe := true } }
    let s := wr s (rFCOL 0x3C) (src + kind * 256)
    let s := wb s (rPWR 4) 1 3 5
    let s := upto 8 scSafe (slewHalt s)
    let s := (s.fods.map (·.1)).foldl fodSafe s
    let s := holdoverOff (upto 4 (fun s d => setDp s d { dp s d with st := 4 }) s)
    let s := upto 8 (fun s n => if seqHalted s n then s else seqHaltAs s n 7) s
    let s := upto 16 (fun s c => if (dmaCtl s c).testBit 0 then dmaPauseOn s c else s) s
    let s := upto 128 (fun s p => match (port s p).cal with
      | some _ => calReq (clrBits (setPort s p { port s p with cal := none }) (rPORT p 4) 8) p false 0
      | none => s) s
    let s := if s.cal.power then s else { s with cal := { s.cal with on := false, slot := none, turns := [] } }
    lineEval (syncDrop (cmdEnd (storeCommit s) (fun _ => true) 11))

-- reactions

/-- Gives activity where there is a ready mate, else acts as FENCE with HO_NONE (R424). -/
def handover (s : State) : State :=
  if ¬ s.standby ∧ s.mateReady then giveActivity s
  else
    let s := orBits s (rFCOL 4) 0x400
    if s.standby then nrEval { s with mate := { s.mate with hold7 := true, nrWhy := 7, synced := false } } else s

/-- The bytes of a FAULT record but for ring and SEQ (R431). -/
def faultRec (s : State) (r : Report) (sev : Nat) (shadow first : Bool) (intake : Nat) (ring seq : Nat) : List Byte :=
  recBytes 4 0 ring seq r.time (r.tflags + b2n shadow * 2 ^ 9 + b2n r.forced * 2 ^ 10 + b2n first * 2 ^ 11)
    (r.src + r.kind * 2 ^ 8 + sev * 2 ^ 16 + r.master * 2 ^ 19 + r.access * 2 ^ 23) r.addr
    (rn s (rFCOL (0x4000 + 4 * r.src))) (intake % 65536) []

/-- Presents a FAULT record, or keeps it in the buffer of 1 024 while the core domain sleeps (R431). -/
def presentFault (s : State) (r : Report) (sev : Nat) (shadow first : Bool) (intake : Nat) : State :=
  if s.coreAwake then
    (ringPresent s (ringRoute s 1) 0 (fun ring q _ => faultRec s r sev shadow first intake ring q)).1
  else if s.fcol.buffer.length < 1024 then
    { s with fcol := { s.fcol with buffer := s.fcol.buffer ++ [faultRec s r sev shadow first intake 0 0] } }
  else orBits (bump s (rFCOL 0x38)) (rFCOL 4) 0x200

/-- The record bytes with the ring and SEQ that the ring gives them. -/
def stampRec (b : List Byte) (ring seq : Nat) : List Byte :=
  let w := leNat (b.take 4)
  leBytes 4 (w % 16 + ring * 16 + bits w 8 8 * 256 + seq * 65536) ++ b.drop 4

/-- The buffered FAULT records reach their ring when the core domain wakes (R431). -/
def drainFaults (s : State) : State :=
  let l := s.fcol.buffer
  l.foldl (fun s b => (ringPresent s (ringRoute s 1) 0 (fun ring q _ => stampRec b ring q)).1)
    { s with fcol := { s.fcol with buffer := [] } }

/-- Captures the first error (R427): whether this report is it. -/
def firstError (s : State) (r : Report) (sev : Nat) : State × Bool :=
  if rbit s (rFCOL 0x10) 31 then (bump s (rFCOL 0x28), false)
  else
    let s := wr s (rFCOL 0x10) (r.src + r.kind * 2 ^ 8 + sev * 2 ^ 14 + r.master * 2 ^ 17 + r.access * 2 ^ 21 +
      b2n r.forced * 2 ^ 23 + 2 ^ 31)
    (wL (wr s (rFCOL 0x14) r.addr) (rFCOL 0x18) 4 (tFormat r.time r.tflags), true)

/-- Notes the kind of a source's report in FCOL_SRC_INFO (R425, R437). -/
def noteKind (s : State) (r : Report) : State :=
  { s with fcol := { s.fcol with lastKind := mput (fun _ => 0) s.fcol.lastKind r.src r.kind } }

/-- The pending severity of a source (R420, R429). -/
def pendOf (s : State) (src : Nat) : Nat := mget (fun _ => 0) s.fcol.pend src

/-- The state with a pending severity. -/
def setPend (s : State) (src v : Nat) : State :=
  { s with fcol := { s.fcol with pend := mput (fun _ => 0) s.fcol.pend src v } }

/-- The reactions of a report that is not shadowed (R420, R427, R430); `only` keeps a FENCE or HANDOVER reaction at LOG
(R433). -/
def react (s : State) (r : Report) (sev intake : Nat) (only : Bool) : State :=
  if sev = 0 then s
  else
    let s := noteKind s r
    let was := pendOf s r.src
    let s := setPend s r.src (max was sev)
    let f := firstError s r sev
    let s := if sev = 4 then enterSafe f.1 r.src r.kind else f.1
    let s := event (presentFault s r sev false f.2 intake) 60
    let s := if was = 0 ∧ atLeast1 (rb s (rFCOL 0) 4 3) ≤ sev then sendMsix s (rb s (rFCOL 0) 8 6) else s
    if only ∨ sev = 4 ∨ sev < 2 then s
    else
      let s := fence s r.src
      if sev = 3 then handover s else s

/-- What a shadowed report does (R425). -/
def shadowReact (s : State) (r : Report) (sev intake : Nat) : State :=
  if sev = 0 then noteKind (bump s (rFCOL 0x30)) r
  else presentFault (noteKind (bump s (rFCOL 0x30)) r) r sev true false intake

/-- Insertion in first-error order (R428). -/
def insRep (a : Report × Nat) : List (Report × Nat) → List (Report × Nat)
  | [] => [a]
  | b :: t => if b.2 < a.2 ∨ (a.2 = b.2 ∧ a.1.src < b.1.src) then a :: b :: t else b :: insRep a t

/-- First-error order. -/
def repOrder (l : List (Report × Nat)) : List (Report × Nat) := l.foldr insRep []

/-- One intake (R416 to R431): at most one report from the head of every queue. -/
def intake (s : State) : State :=
  let heads := s.fcol.queues.filterMap (fun p => p.2.head?)
  if heads = [] then s
  else
    let s := { s with fcol := { s.fcol with
      queues := s.fcol.queues.filterMap (fun p => if p.2.tail = [] then none else some (p.1, p.2.tail))
      intake := s.fcol.intake + 1 } }
    let seq := s.fcol.intake
    let s := heads.foldl (fun s r => bump s (rFCOL (0x4000 + 4 * r.src))) s
    let reps := heads.map (fun r => (r, sevOf (sevNibble s r.src r.kind)))
    let s := if heads.any (fun r => decide (5 ≤ sevNibble s r.src r.kind)) then orBits s (rFCOL 4) 0x800 else s
    let only := s.fcol.safe || reps.any (fun p => decide (p.2 = 4))
    let never (p : Report × Nat) : Bool := decide (3 ≤ p.2) || decide (p.1.src = srcCol)
    let pre (p : Report × Nat) : Bool := !never p && shadowed s p.1.src p.1.kind p.1.addr
    let cand := if only then [] else reps.filter (fun p => decide (2 ≤ p.2) && !pre p)
    let under (p : Report × Nat) : Bool := !never p && cand.any (fun q => decide (q.1.src ≠ p.1.src) &&
      depCovers q.1.src (depInsts s q.1.src) p.1.src p.1.kind p.1.addr)
    let roots := cand.filter (fun p => !under p)
    let s := roots.foldl (fun s p => if srcFenced s p.1.src then s else openWindow s p.1.src) s
    let isRoot (p : Report × Nat) : Bool := roots.any (fun q => decide (q.1.src = p.1.src))
    let shad (p : Report × Nat) : Bool := !never p && (pre p || (decide (2 ≤ p.2) && under p) ||
      (!isRoot p && shadowed s p.1.src p.1.kind p.1.addr))
    let lit := repOrder (reps.filter (fun p => !shad p))
    let dark := reps.filter shad
    let s := lit.foldl (fun s p => react s p.1 p.2 seq only) s
    dark.foldl (fun s p => shadowReact s p.1 p.2 seq) s

end Sys2Proof.Machine
end

