-- ==== Sys2Proof/Machine/ResetOps.lean ====
section
/-!
DEFINITION. The control of the sequencers (R313 to R318), and a SOFT reset (R351, R352, R512, R514), which every
chapter's rule on resets makes up.
-/
namespace Sys2Proof.Machine

open Sys2Proof

-- sequencers

/-- Sets CMD_REJ of core n (R314, R318). -/
def seqReject (s : State) (n : Nat) : State := orBits s (rSEQ n 4) 0x20000

/-- The state with STATE of core n (R319). -/
def setSeqState (s : State) (n v : Nat) : State := wb s (rSEQ n 4) 0 3 v

/-- START (R314). -/
def seqStartCmd (s : State) (n : Nat) : State :=
  if ¬ seqHalted s n ∨ ¬ rbit s (rSEQ n 4) 8 ∨ srcFenced s (srcSeq n) then seqReject s n
  else
    let s := upto 31 (fun s k => wr s (rSEQ n (0x104 + 4 * k)) 0) s
    let s := wr (wr (wr s (rSEQ n 0x10) 0) (rSEQ n 0x30) 0) (rSEQ n 0x34) 0
    let s := wr (wb s (rSEQ n 4) 7 1 0) (rSEQ n 0x0C) (rb s (rSEQ n 0x2C) 0 12)
    setSeqState (setSeqc s n { seqInit with verify := (seqc s n).verify }) n 1

/-- HALT (R316): a wait is abandoned, and PC stays at it. -/
def seqHaltCmd (s : State) (n : Nat) : State := if seqHalted s n then s else seqHaltAs s n 2

/-- RESUME (R316, R318): a breakpoint at the PC is passed over. -/
def seqResumeCmd (s : State) (n : Nat) : State :=
  if srcFenced s (srcSeq n) then seqReject s n
  else if seqHalted s n then setSeqState (setSeqc s n { seqc s n with bpSkip := true, stepping := false }) n 1
  else s

/-- STEP (R316). -/
def seqStepCmd (s : State) (n : Nat) : State :=
  if seqHalted s n then setSeqState (setSeqc s n { seqc s n with bpSkip := true, stepping := true }) n 1 else s

/-- VERIFY begins (R313). -/
def seqVerifyCmd (s : State) (n : Nat) : State := setSeqc s n { seqc s n with verify := true }

/-- Clears IMG_OK of core n (R313). -/
def imgClear (s : State) (n : Nat) : State := clrBits s (rSEQ n 4) 0x100

/-- Header word w of core n (R312). -/
def hdrW (s : State) (n w : Nat) : Nat := rn s (rSEQ n (0x60 + 4 * w))

/-- Whether the image in core n's memories passes verification (R312, R313). -/
def imgGood (s : State) (n : Nat) : Bool :=
  let ic := hdrW s n 2 % 8192
  let dc := hdrW s n 3 % 16384
  decide (hdrW s n 0 = 0x5652414F) && decide (hdrW s n 1 % 256 = 1) && decide (1 ≤ ic ∧ ic ≤ 4096) &&
  decide (dc ≤ 8192 ∧ dc % 4 = 0) &&
  decide (hdrW s n 7 = crc32c ((List.range 7).flatMap (fun w => leBytes 4 (hdrW s n w)) ++
    mbs s (imemBase n) (4 * ic) ++ mbs s (imemBase n + 0x8000) dc))

/-- Core n's image has passed: IMG_OK, and ENTRY and VECTOR of the header in their registers (R312, R313). -/
def imgOk (s : State) (n : Nat) : State :=
  wr (wr (orBits s (rSEQ n 4) 0x100) (rSEQ n 0x2C) (hdrW s n 4 % 4096)) (rSEQ n 0x28) (hdrW s n 5 % 4096)

/-- The end of a verification (R313). -/
def seqVerified (s : State) (n : Nat) : State :=
  let s := setSeqc s n { seqc s n with verify := false }
  if imgGood s n then imgOk s n
  else raise (imgClear s n) (srcSeq n) kImgCrc (rSEQ n 4)

/-- A core that was running, waiting or in an exception starts again (R318); RST_CAUSE tells every core. -/
def seqRestart (s : State) (n cause : Nat) : State :=
  let s := wb s (rSEQ n 4) 9 2 cause
  if seqHalted s n then s else seqStartCmd (seqHaltAs s n 0) n

-- the reset-cause record

/-- What word 0 and word 1 of the reset-cause record say of the outstanding commands (R351, R514). -/
def cmdLost (s : State) : Nat × Nat :=
  match cmdOldest s with
  | some (k, x) => (x.w0 % 256 * 256 + s.cmd.slots.length % 128 * 65536, k + x.gen * 4096)
  | none => (0, 0)

/-- Writes the reset-cause record (R514). -/
def rstRecord (s : State) (cause state master : Nat) (kick : Bool) : State :=
  let l := cmdLost s
  let s := wr s (rPWR 0x40) (cause + state * 16 + l.1 + b2n kick * 2 ^ 23 + master * 2 ^ 24)
  wr (wr (wr s (rPWR 0x44) l.2) (rPWR 0x48) (tNs (nowT s))) (rPWR 0x4C) (tSec (nowT s) % 2 ^ 32)

/-- STATE of PWR_STATUS (R496). -/
def pwrState (s : State) : Nat := rb s (rPWR 4) 1 3

/-- The state with STATE of PWR_STATUS. -/
def setPwrState (s : State) (v : Nat) : State := wb s (rPWR 4) 1 3 v

/-- Port calibrations in progress end at MRST_N or a loss of power (R352): the ports are CAL_DEFERRED, and their lanes hear a STOP
when they are up again. -/
def calLose (s : State) : State :=
  upto 128 (fun s p => match (port s p).cal with
    | some _ =>
      let s := setPort s p { port s p with cal := none, calDone := none }
      let s := { s with cal := { s.cal with stops := s.cal.stops.filter (fun q => decide (q ≠ p)) ++ [p] } }
      orBits (clrBits s (rPORT p 4) 8) (rPORT p 4) 4
    | none => s) s

/-- Port calibrations in progress end with their delays unchanged and CAL_DEFERRED (R245, R352): the port's lane hears a
STOP. -/
def calAbort (s : State) : State :=
  upto 128 (fun s p => match (port s p).cal with
    | some _ =>
      let s := setPort s p { port s p with cal := none, calDone := none }
      calReq (orBits (clrBits s (rPORT p 4) 8) (rPORT p 4) 4) p false 0
    | none => s) s

/-- CAL_RUN ends without an apply step (R352); power-up calibration goes on. -/
def calDropRun (s : State) : State :=
  if s.cal.power then s else { s with cal := { s.cal with on := false, slot := none, turns := [] } }

/-- A SOFT reset, or the watchdog (R44, R45, R258, R318, R351, R352, R489, R510 to R514). `cause` is 3 or 4. -/
def softReset (s : State) (cause master : Nat) (kick : Bool) : State :=
  let s := rstRecord s cause (pwrState s) master kick
  let s := syncDrop (calDropRun (calAbort (storeCommit s)))
  let s := cmdReset { s with shadow := [], staging := [], corrPause := true }
  let s := { s with pwr := { s.pwr with wdAt := s.time.aon } }
  upto 8 (fun s n => seqRestart s n (cause - 1)) s

/-- GLB_SOFT_RESET's key (R510); in SAFE nothing happens (R434). -/
def softKey (s : State) (v m : Nat) : State := if v = 0x5AF7 ∧ ¬ s.fcol.safe then softReset s 3 m false else s

end Sys2Proof.Machine
end

