-- ==== Sys2Proof/Machine/Fx.lean ====
section
/-!
DEFINITION. What a write of a register does beside changing the register (chapters 2 to 18): the effect of an accepted
and landed write, by block and offset. The same effects follow where the module itself loads registers.
-/
namespace Sys2Proof.Machine

open Sys2Proof

-- time scale

/-- TIME_CMD.ENQ (R83, R84). -/
def timeEnq (s : State) (cz : Cause) : State :=
  let arg := rL s (rTIME 0x88) 2
  let go (k : ActKind) : State :=
    match timeEnter s (rL s (rTIME 0x80) 2) none k with
    | some s' => s'
    | none => raiseC (orBits s (rTIME 4) 0x80) srcTime kTimeQueueFull (rTIME 4) cz
  match rb s (rTIME 0x90) 0 4 with
  | 1 => go (.timeStep (sx 64 arg))
  | 2 => go (.timeSlew (sx 48 arg) (bits arg 48 16))
  | 3 => go (.timeRate (sx 40 arg))
  | 4 => go .timeSlewStop
  | _ => raiseC s srcTime kBadAction (rTIME 4) cz

/-- A write of TIME_CMD lands (R78, R84). -/
def timeCmdFx (s : State) (hit : Nat) (cz : Cause) : State :=
  let s := { s with time := { s.time with landed := s.time.landed ||| (hit % 16) } }
  if hit.testBit 4 then timeEnq s cz else s

/-- Whether a leap of TIME_LEAP_CTRL may be armed (R86). -/
def leapOk (s : State) (v : Nat) : Bool :=
  let at_ := rL s (rTIME 0x78) 2
  let off := sx 16 (rn s (rTIME 0x70)) + (if v = 1 then 1 else -1)
  decide (v = 1 ∨ v = 2) && decide (tSec (s.time.plain / 2 ^ 32) < at_) && decide (((at_ : Int) - off) % 86400 = 0)

/-- A write of TIME_LEAP_CTRL lands (R86). -/
def leapFx (s : State) (cz : Cause) : State :=
  let v := rb s (rTIME 0x74) 0 2
  let arm (s : State) (b : Bool) : State := { s with time := { s.time with leapPend := b } }
  if v = 0 then arm s false
  else if leapOk s v then arm s true
  else raiseC (arm (wr s (rTIME 0x74) 0) false) srcTime kLeapInvalid (rTIME 4) cz

-- references, DPLLs, Screed

/-- A change of REF_CTRL (R190, R191): a reference that is not in use is neither GOOD nor QUALIFIED. -/
def refCtrlFx (s : State) (i old new : Nat) : State :=
  if old.testBit 0 = new.testBit 0 then refEval s i
  else
    let s := refStop s i (ref s i).fenced
    if i = 10 ∨ i = 11 then mateLos s else s

/-- REF_CMD.REQUAL (R192). -/
def refRequal (s : State) (i : Nat) : State :=
  let s := setRef s i { ref s i with dropped := false }
  if refBit s i 1 ∨ refBit s i 2 then
    qualRun (setRefBit s i 1 false) i (refBit s i 0)
  else s

/-- A reference becomes QUALIFIED (R191, R192). -/
def refQualify (s : State) (i : Nat) : State :=
  if refMayQual s i then qualRun (setRefBit s i 1 true) i false else s

/-- REF_CMD.QNOW (R192). -/
def refQnow (s : State) (i : Nat) : State := if refBit s i 0 then refQualify s i else s

/-- A commit of SWREF_SAMPLE (R189). -/
def swrefFx (s : State) (i : Nat) : State :=
  let t := resolveDue s (rM s (rREF i 0x100) 4)
  let e := sx 48 (rM s (rREF i 0x110) 3)
  let now : Int := nowT s
  let age : Int := (atLeast1 (rb s (rREF i 0x11C) 0 16) : Int) * 65536000000
  let back := match (ref s i).swT with
    | some p => decide (t ≤ p)
    | none => false
  if now < t ∨ t < now - age ∨ back = true then bumpM s (rREF i 0x120)
  else refSample (setRef s i { ref s i with swT := some t }) i t e

/-- A write of DP_PRIO (R193). -/
def prioFx (s : State) (d off : Nat) (cz : Cause) : State :=
  let v := rn s off % 256
  if isRefIx v ∨ v = 0xFF then s else raiseC s (srcDp d) kBadRef (rDP d 4) cz

/-- DP_CMD (R194, R217). -/
def dpCmdFx (s : State) (d hit : Nat) : State :=
  let s := if hit.testBit 0 then setDp s d { dp s d with waitOver := true } else s
  if hit.testBit 1 then setDp s d { dp s d with hoFrom := some (nowT s : Int) } else s

/-- SCR_CTRL.CLEAR (R211). -/
def scrClear (s : State) : State :=
  let s := wL (wL (wL (wL s (rSCR 0x10) 2 0) (rSCR 0x18) 2 0) (rSCR 0x20) 2 0) (rSCR 0x28) 2 0
  scrShow { s with scr := { s.scr with samples := [], tref := 0, sig := none } }

-- synthesis cores and outputs

/-- A change of SC_CTRL (R97, R116). -/
def scCtrlFx (s : State) (n old new : Nat) (cz : Cause) : State :=
  let bad (v : Nat) : Bool := decide (6 ≤ bits v 1 3)
  let s := if bad new ∧ bits old 1 3 ≠ bits new 1 3 then raiseC s (srcSc n) kBadMaster (rSC n 4) cz else s
  if old.testBit 0 = new.testBit 0 then s else scWakeEval s

/-- SC_CMD (R104, R107): a write of both bits starts the retune before the band calibration (log entry 183). -/
def scCmdFx (s : State) (n hit : Nat) (cz : Cause) : State :=
  let v := rn s (rSC n 8)
  let s := if hit.testBit 0 then retuneStart s n (bits v 1 2) (v.testBit 3) true none (nowR s) true none none else s
  if hit.testBit 4 then bandcalStart s n cz else s

/-- The queued actions of FOD n that reach the output edge at which a command of this instant acts: they come before it
(R138). -/
def fodQueued (s : State) (n : Nat) : State :=
  let x := fod s n
  match edgeFrom s x.recs x.anchors (nowR s) with
  | none => s
  | some (_, u) =>
    if ¬ x.running ∨ s.fcol.safe then s
    else
      let hit := x.queue.filter (fun a => !a.held && decide ((a.due : Rat) ≤ u) && decide (a.due ≤ (nextT s : Int)))
      (sortActs (hit.map (fun a => (a, QId.fod n)))).foldl (fun s p => let w := actWhen s p.1; fodActRun s n p.1 w.1 w.2 false) s

/-- FOD_CMD (R134, R138): a step, a slew, the end of the slew, by FOD_PDELTA. -/
def fodCmdFx (s : State) (n hit : Nat) (cz : Cause) : State :=
  let amt := sx 48 (rM s (rFOD n 0x4C) 3)
  let s := if hit.testBit 0 ∨ hit.testBit 1 ∨ hit.testBit 2 then fodQueued s n else s
  let s := if hit.testBit 0 then phaseStep s n amt (nowR s) cz s.order else s
  let s := if hit.testBit 1 then phaseSlew s n amt (nowR s) cz none else s
  if hit.testBit 2 then phaseStop s n (nowR s) s.order cz else s

/-- FOD_HOP_CMD.GO (R164, R172). -/
def hopCmdFx (s : State) (n hit : Nat) (cz : Cause) : State :=
  if hit.testBit 0 then hopGoCmd s n (rb s (rFOD n 0xE0) 4 4) cz else s

-- classifier and rings

/-- Whether a write of an ECAM entry's word that stands at offset o of the entry, from `old` to `new`, meets a live entry (R271). -/
def ecamRefuses (s : State) (e o old new : Nat) : Bool :=
  let ent := if o = 0x54 then old else rn s (rENT e 0x54)
  let idle := decide (bits ent 1 1 ≠ ecamActive s) && !ecamDraining s
  decide (o ≠ 0x58) && ent.testBit 0 && !(decide (o = 0x54) && !new.testBit 0 && idle)

/-- What a write of an ECAM entry's word leaves, `old` being the word before (R271). -/
def ecamEntFx (s : State) (e o off old : Nat) (cz : Cause) : State :=
  if ecamRefuses s e o old (rn s off) then raiseC (wr s off old) srcEcam kRuleLive 0x600004 cz else s

/-- ECAM_GEN.SWITCH (R273). -/
def genSwitchFx (s : State) (cz : Cause) : State :=
  if ecamDraining s then raiseC s srcEcam kGenBusy 0x600004 cz
  else wb (wb s 0x600004 0 1 (1 - ecamActive s)) 0x600004 1 1 1

/-- Whether two slot ranges overlap. -/
def overlap (a m b n : Nat) : Bool := decide (a < b + n ∧ b < a + m)

/-- R276's conditions on ring n, as its RING_CFG stands. -/
def ringCfgOk (s : State) (n : Nat) : Bool :=
  let base (k : Nat) : Nat := rb s (rRING k 0) 16 16
  decide (4 ≤ rb s (rRING n 0) 4 4) && decide (base n % ringSize s n = 0) &&
  (List.range 16).all (fun k => decide (k = n) || !rbit s (rRING k 0) 0 ||
    !overlap (base n) (ringSize s n) (base k) (ringSize s k))

/-- A write of RING_CFG, `old` being the register before (R276, R286); the load of a start reloads the geometry with the rest
(R289, R409). -/
def ringCfgFx (s : State) (n old hit : Nat) (cz : Cause) : State :=
  let new := rn s (rRING n 0)
  let geo := 0xFFFF00F0
  let rej (s : State) : State := raiseC s srcCap kRingConfig (rRING n 0) cz
  let s := if old.testBit 0 ∧ s.nvsLoaded then
      if new &&& geo = old &&& geo then s else rej (wr s (rRING n 0) (clr new geo ||| (old &&& geo)))
    else if new.testBit 0 ∧ ¬ ringCfgOk s n then rej (wr s (rRING n 0) (clr new 1))
    else s
  ringOver (if hit.testBit 2 then ringFlush s n else s) n

/-- A write of RING_RD (R285): `v` the count written. -/
def ringRdFx (s : State) (n v : Nat) (cz : Cause) : State :=
  let x := ring s n
  let d := (v + 2 ^ 32 - x.rd) % 2 ^ 32
  if ringFill x < d then raiseC (orBits s (rRING n 4) 0x400) srcCap kRingPtr (rRING n 0x0C) cz
  else ringPass s n d

-- collector, snapshots, the seal

/-- FCOL_INJECT.GO (R432). -/
def injectFx (s : State) (m : Nat) : State :=
  let v := rn s (rFCOL 8)
  let src := v % 256
  if ¬ srcOk src ∨ queueFull s src then bump s (rFCOL 0x34)
  else enqueue s (mkReport s src (bits v 8 6) (rn s (rFCOL 0x0C)) m 0 true)

/-- FCOL_PEND_MAP word w: clears pending severities (R429). -/
def pendFx (s : State) (w hit : Nat) : State :=
  upto 32 (fun s b => if hit.testBit b then setPend s (32 * w + b) 0 else s) s

/-- SNAP_CMD (R441). -/
def snapCmdFx (s : State) (hit : Nat) (cz : Cause) : State :=
  let s := if hit.testBit 0 then snapTrigger s 1 (nowR s) cz else s
  if hit.testBit 1 then
    match snapEnter s (rL s (rSNAP 0x10) 2) none with
    | some s' => s'
    | none => raiseC (orBits s (rSNAP 4) 0x20000000) srcCnt kSnapQFull (rSNAP 4) cz
  else s

/-- A write of SEAL_CTRL: a hold begins (R61). -/
def sealCtrlFx (s : State) (old new : Nat) : State :=
  if new.testBit 1 ∧ ¬ old.testBit 1 then { s with seal_ := { s.seal_ with holdFrom := s.time.aon } } else s

/-- SEALREF becomes set: every running SEAL_COMMIT completes at once with status LOCKED (R55). -/
def sealLockFx (s : State) (old new : Nat) : State :=
  if new.testBit 4 ∧ ¬ old.testBit 4 then
    (slotsOf s (fun x => x.running && decide (x.w0 % 256 = 0x0B))).foldl
      (fun s p => cmdComplete s p.1 p.2 2 (rn s (rSEAL 8))) s
  else s

-- lanes and sequencers

/-- EN of an event lane or a correction lane becomes 0: the lane stops and loses its lock (R233, R505). -/
def laneOff (s : State) (l : Nat) (corr : Bool) : State :=
  let x := lane s l
  linkDown (setLane s l (if corr then { x with cl := false } else { x with el := false })) l

/-- SEQ_CMD (R305, R313 to R316). -/
def seqCmdFx (s : State) (n hit : Nat) : State :=
  let s := if hit.testBit 0 then seqStartCmd s n else s
  let s := if hit.testBit 1 then seqHaltCmd s n else s
  let s := if hit.testBit 2 then seqResumeCmd s n else s
  let s := if hit.testBit 3 then seqStepCmd s n else s
  let s := if hit.testBit 4 then seqVerifyCmd s n else s
  if hit.testBit 5 then event s 10 else s

/-- A write of a SEQ register (R313, R316, R319): PC, FLAGS and S registers keep their value unless the core is HALTED,
and S0 reads zero. -/
def seqFx (s : State) (n o off old hit : Nat) : State :=
  if o = 0x008 then seqCmdFx s n hit
  else if o = 0x024 then (if hit.testBit 0 then clrBits s (rSEQ n 4) 0x80 else s)
  else if o = 0x00C ∨ o = 0x010 ∨ 0x100 ≤ o then
    if off = rSEQ n 0x100 then wr s off 0 else if seqHalted s n then s else wr s off old
  else if o = 0x060 then imgClear s n
  else s

/-- A write of a DMA register (R363, R373, R374, R382). -/
def dmaFx (s : State) (c o words old hit : Nat) : State :=
  if o = 0x00 then dmaCtrlSet s c old
  else if o = 0x08 then
    let s := if hit.testBit 0 then dmaBell s c else s
    let s := if hit.testBit 1 then dmaContinue s c else s
    if hit.testBit 2 then drainEval (dmaStop s c) c else s
  else if o = 0x50 ∨ o = 0x54 then drainEval s c
  else if o = 0x60 ∨ o = 0x68 then dmaCfgSet s c (rDMA c o) words old
  else if o = 0x70 then dmaHrdSet s c old
  else s

/-- A write of an FOD register (R52, R116, R127, R129, R132 to R136, R142 to R146, R160, R164). -/
def fodFx (s : State) (n o old new hit : Nat) (cz : Cause) : State :=
  if o = 0x000 then fodCtrlSet s n old new cz
  else if o = 0x008 then fodCmdFx s n hit cz
  else if o = 0x00C then fodOutSet s n old new cz
  else if o = 0x010 then inselSet s n old cz
  else if o = 0x058 then (if old = new then s else slewRerate s n cz)
  else if o = 0x074 then odlySet s n cz
  else if o = 0x014 ∨ o = 0x018 ∨ o = 0x024 ∨ o = 0x030 then divCommit s n cz
  else if o = 0x0A4 then hopCommit s n (hopOfWords new) cz
  else if o = 0x0E0 then hopCmdFx s n hit cz
  else s

/-- A write of a PWR register (R511). -/
def pwrFx (s : State) (o old new hit : Nat) : State :=
  if (o = 0x30 ∧ new.testBit 16 ∧ ¬ old.testBit 16) ∨ (o = 0x34 ∧ hit = 0x4B1C) then
    { s with pwr := { s.pwr with wdAt := s.time.aon } }
  else s

/-- A write of a MATE register (R458 to R460, R463, R481). -/
def mateFx (s : State) (o old new hit : Nat) : State :=
  if o = 0x00 then nrEval (mateEval (if new.testBit 0 ∧ ¬ old.testBit 0 then splitCheck s else s))
  else if o = 0x08 then (if hit.testBit 0 then mateYield s else s)
  else s

/-- A change of FP_OUT_CFG of output n (R526): a pulse in progress completes, and the output is low until its next PPS event or the
next edge of the FOD that it copies. -/
def outChange (s : State) (n old new : Nat) : State :=
  let s := if bits new 0 2 = 2 then rangeCheck s (bits new 8 7) else s
  if old = new ∨ 8 ≤ n then s
  else
    let s := if s.time.outHigh.testBit n then emit s (.pps n (nowT s) false) else s
    { s with time := { s.time with
      outHigh := clr s.time.outHigh (2 ^ n), ppsInv := clr s.time.ppsInv (2 ^ n)
      copyAt := mput (fun _ => 0) s.time.copyAt n (nowR s) } }

/-- The effect of a write of a register whose words were `old` and are `new`, joined 32 bits each, with the W1C and SC
bits written as 1 in `hit`, by master m with the cause cz. -/
def regFx (s : State) (i : RegInfo) (old new hit m : Nat) (cz : Cause) : State :=
  let o := i.row.off
  let n := i.inst
  match i.blk with
  | .glb =>
    if o = 0x050 then softKey s hit m
    else if o = 0x040 then sealLockFx s old new
    else if o = 0x200 then outChange s i.rep old new
    else s
  | .cmd => if o = 0x000 then cmdIn s m (bits new 0 32) (bits new 32 32) (bits new 64 32) (bits new 96 32) else s
  | .time => if o = 0x08 then timeCmdFx s hit cz else if o = 0x74 then leapFx s cz else s
  | .fcol =>
    if o = 0x08 then (if hit.testBit 31 then injectFx s m else s)
    else if o = 0x10 then (if hit.testBit 31 then wr s (rFCOL 0x28) 0 else s)
    else if o = 0x40 then pendFx s i.rep hit
    else s
  | .scrim => if o = 0x00 then sealCtrlFx s old new else s
  | .snap => if o = 0x08 then snapCmdFx s hit cz else s
  | .pwr => pwrFx s o old new hit
  | .mate => mateFx s o old new hit
  | .sc => if o = 0x000 then scCtrlFx s n old new cz else if o = 0x008 then scCmdFx s n hit cz else s
  | .dp => if o = 0x008 then dpCmdFx s n hit else if o = 0x010 then prioFx s n i.base cz else s
  | .screed =>
    if o = 0x00 then
      let s := if new.testBit 0 then s else { s with scr := { s.scr with good := false } }
      if hit.testBit 3 then scrClear s else s
    else s
  | .ref =>
    if o = 0x000 then refCtrlFx s n old new
    else if o = 0x008 then
      let s := if hit.testBit 0 then refRequal s n else s
      if hit.testBit 1 then refQnow s n else s
    else if o = 0x100 then swrefFx s n
    else s
  | .fod => fodFx s n o old new hit cz
  | .fodWide => if o = 0x00 then groupEval s else s
  | .port =>
    if o = 0x008 then (if hit.testBit 0 then resyncPort s n else s)
    else if o = 0x00C then portFodSet s n
    else s
  | .el => if o = 0x00 ∧ old.testBit 0 ∧ ¬ new.testBit 0 then laneOff s n false else s
  | .cl => if o = 0x00 ∧ old.testBit 0 ∧ ¬ new.testBit 0 then laneOff s n true else s
  | .ecam => if o = 0x04 ∧ hit.testBit 2 then genSwitchFx s cz else s
  | .ecamEnt => ecamEntFx s n o i.base old cz
  | .ring =>
    if o = 0x00 then ringCfgFx s n old hit cz
    else if o = 0x0C then ringRdFx s n new cz
    else if o = 0x2C then ringOver s n
    else s
  | .dma => dmaFx s n o i.row.words old hit
  | .seq => seqFx s n o i.base old hit
  | _ => s

end Sys2Proof.Machine
end

