-- ==== Sys2Proof/Machine/View.lean ====
section
/-!
DEFINITION. What a register reads: the words that State holds, with the fields that show what the block holds elsewhere
(the read-only fields of the chapters' register tables).
-/
namespace Sys2Proof.Machine

open Sys2Proof

/-- The same for a block named by a command. -/
def pblockKey : PBlock → Nat
  | .time => 0
  | .fcol => 1
  | .nvs => 2
  | .pwr => 3
  | .mate => 4
  | .sc n => 5 + n.val

/-- The key of a master's copy of a word (R44, R45). -/
def copyKey (m off : Nat) : Nat := m * 2 ^ 24 + off

/-- A word of a master's shadow (R44). -/
def shadowOf (s : State) (m off : Nat) : Nat := (mget (fun _ => 0) s.shadow (copyKey m off)).toNat

/-- The state with a word of a master's shadow. -/
def setShadow (s : State) (m off v : Nat) : State :=
  { s with shadow := mput (fun _ => 0) s.shadow (copyKey m off) (wd v) }

/-- A word of a master's staging copy (R45). -/
def stagedOf (s : State) (m off : Nat) : Nat := (mget (fun _ => 0) s.staging (copyKey m off)).toNat

/-- The state with a word of a master's staging copy. -/
def setStaged (s : State) (m off v : Nat) : State :=
  { s with staging := mput (fun _ => 0) s.staging (copyKey m off) (wd v) }

/-- The staged words of k words from an offset on, joined. -/
def stagedL (s : State) (m off : Nat) : Nat → Nat
  | 0 => 0
  | k + 1 => stagedOf s m off + 2 ^ 32 * stagedL s m (off + 4) k

/-- Word w of a map of 32 bits a word. -/
def mapWord (w : Nat) (f : Nat → Bool) : Nat :=
  (List.range 32).foldl (fun a b => if f (32 * w + b) then a + 2 ^ b else a) 0

/-- TIME registers (R91). -/
def viewTime (s : State) (o st : Nat) : Nat :=
  if o = 0x04 then st + timeBits s
  else if o = 0x10 then tFormat (readT s) 0
  else if o = 0x30 then tw 64 s.time.y
  else if o = 0x54 then tw 48 (rfloor ((s.time.slewRem : Rat) / 2 ^ 32))
  else if o = 0x94 then st + s.time.queue.length
  else st

/-- FCOL registers (R437). -/
def viewFcol (s : State) (o rep st : Nat) : Nat :=
  if o = 0x04 then st + b2n (postBusy s 1) + 2 * b2n s.fcol.safe + 4 * b2n (faultLow s)
  else if o = 0x40 then pendMap s rep
  else if o = 0x60 then fenceMap s rep
  else if o = 0xA0 then mapWord rep (srcShadowed s)
  else if o = 0x3000 then
    pendOf s rep + 8 * b2n (srcFenced s rep) + 16 * b2n (srcShadowed s rep) +
      32 * mget (fun _ => 0) s.fcol.lastKind rep
  else st

/-- PWR_RIDE_EST (R25, R495): the whole seconds that the energy above 8 V of the 10 F store lasts, `v` in mV, at a draw from the
store in 10 mW; at a draw of 0 it is free (log entry 65). -/
def rideEst (v draw : Nat) : Nat :=
  if v ≤ 8000 then 0
  else if draw = 0 then Config.rideEst v % 65536
  else min (5 * (v * v - 8000 * 8000) / (10000 * draw)) 0xFFFF

/-- PWR registers (R495, R507, R517). -/
def viewPwr (s : State) (o st : Nat) : Nat :=
  if o = 0x04 then st + b2n (postBusy s 3)
  else if o = 0x08 then (match s.pwr.ride with
    | some a => min ((s.time.aon - a) / 10000000) 0xFFFF
    | none => 0)
  else if o = 0x0C then st % 65536 + rideEst (st % 65536) s.pwr.draw * 65536
  else if o = 0x54 then min ((s.time.aon + s.pwr.ocxoLead) / 10000000) (ones 32)
  else st

/-- MATE registers (R490). -/
def viewMate (s : State) (o st : Nat) : Nat :=
  if o = 0x04 then
    st % 4096 + b2n (postBusy s 4) + 2 * b2n (!s.standby) + 4 * b2n (s.standby && decide (s.mate.nrWhy = 0)) +
      8 * b2n s.mateReady + 16 * b2n s.mate.slotB + 32 * b2n s.mate.lane0 + 64 * b2n s.mate.lane1 +
      s.mate.nrWhy % 16 * 4096
  else if o = 0x0C then
    b2n s.mate.lineAct + 2 * b2n (ownAlive s) + 4 * b2n s.mate.lineActive + 8 * b2n s.mate.lineAlive
  else st

/-- SC registers (R123). -/
def viewSc (s : State) (n o st : Nat) : Nat :=
  let x := sc s n
  if o = 0x004 then
    st % 8192 + b2n (postBusy s (5 + n)) + 2 * b2n x.awake + 4 * b2n x.lockFast + 8 * b2n x.lockSet +
      16 * b2n (scRetuning s n) + 32 * b2n x.fenced + 64 * b2n x.frozen + 128 * b2n x.trailOn + x.slot % 4 * 256 +
      x.refuse % 8 * 8192
  else if o = 0x0D0 then spread 3 (tw 40 x.w)
  else if o = 0x0E0 then st + x.queue.length
  else st

/-- DPLL registers (R217). -/
def viewDp (s : State) (d o st : Nat) : Nat :=
  if o = 0x004 then st + dpBits s d else st

/-- FOD registers (R157, R184). -/
def viewFod (s : State) (n o st : Nat) : Nat :=
  let x := fod s n
  let y := foldSlew x (nowR s)
  if o = 0x004 then
    st + b2n x.running + 2 * b2n (fodEn s n && !x.running && !startCond s n) + 4 * b2n x.aligned +
      8 * b2n (decide (y.pRem ≠ 0 ∨ y.tRem ≠ 0)) + 16 * b2n x.fenced + 32 * b2n (x.fenced || s.fcol.safe) +
      64 * b2n x.twinB + 128 * b2n x.divInvalid + 256 * b2n (fodDark s n (nowR s))
  else if o = 0x040 then spread 3 (tw 48 (rfloor y.phi))
  else if o = 0x05C then spread 3 (tw 48 (rfloor y.pRem))
  else if o = 0x068 then spread 3 (tw 48 (rfloor y.tRem))
  else if o = 0x078 then st + x.queue.length
  else if o = 0x0A4 then hopWords (hopEnt x (rb s (rFOD n 0xA0) 0 4))
  else if o = 0x0D8 then (List.range 16).foldl (fun a e => if (hopEnt x e).valid then a + 2 ^ e else a) 0
  else if o = 0x0DC then st + 16 * b2n x.hopBusy
  else st

/-- Block-wide FOD registers (R157). -/
def viewFodWide (s : State) (o rep st : Nat) : Nat :=
  if o = 0x04 then s.groups % 65536 + s.tdcFail % 65536 * 65536
  else if o = 0x10 then mapWord rep (fun n => (fod s n).aligned)
  else if o = 0x20 then mapWord rep (fun n => (fod s n).fenced)
  else st

/-- Event-lane registers (R259). -/
def viewEl (s : State) (l o st : Nat) : Nat :=
  let x := lane s l
  if o = 0x04 then st + b2n x.el + 2 * b2n x.ready + 4 * b2n (elFenced s l)
  else if o = 0x08 then slotsIn x false + 256 * slotsIn x true
  else st

/-- A value in 2^-32 ns of a number of ticks (R260). -/
def fineNs (ticks : Rat) : Int := rfloor (ticks / 65536 * 2 ^ 32)

/-- The Lath window (R260). -/
def viewLath (s : State) (o st : Nat) : Nat :=
  let sel := rn s 0x50B000
  let x := fod s (bits sel 0 7)
  let k := bits sel 8 6
  if o = 0x04 then
    let span := match x.recs.getLast? with
      | some r => min (rfloor ((nowR s - r.time) / usT)).toNat 0xFFFF
      | none => 0
    x.recs.length + min x.anchors.length 32 * 256 + span * 65536
  else if sel.testBit 16 then
    match (x.anchors.take 32)[k]? with
    | none => if o = 0x00 then st else 0
    | some a =>
      if o = 0x10 then a.seqNo % 65536 * 65536
      else if o = 0x14 then tw 64 a.cycle
      else if o = 0x28 then tw 64 (fineNs a.step)
      else if o = 0x00 then st else 0
  else
    match x.recs[k]? with
    | none => if o = 0x00 then st else 0
    | some r =>
      let t := ratT r.time
      if o = 0x10 then r.kind % 16 + r.info % 32 * 16 + r.seqNo % 65536 * 65536
      else if o = 0x14 then tw 64 r.cycle
      else if o = 0x1C then tFrac t + tNs t * 2 ^ 32 + tSec t % 2 ^ 32 * 2 ^ 64
      else if o = 0x28 then tw 64 (fineNs r.period)
      else if o = 0x00 then st else 0

/-- Ring registers (R290). -/
def viewRing (s : State) (n o rep st : Nat) : Nat :=
  let x := ring s n
  if o = 0x04 then st + b2n (decide (ringFill x = ringSize s n)) + 2 * b2n (decide (rb s (rRING n 0x2C) 0 17 ≤ ringFill x))
  else if o = 0x08 then x.wr
  else if o = 0x0C then x.rd
  else if o = 0x10 then ringFill x
  else if o = 0x14 then x.inFlight
  else if o = 0x28 then x.tokens / 65536
  else if o = 0x30 then
    (match rep with
    | 0 => x.admitted
    | 1 => x.delivered
    | 2 => x.police
    | 3 => x.full
    | _ => x.abandoned)
  else st

/-- The FOD that SKIM_SEL names (R412). -/
def skimSel (s : State) : Fod := fod s (rb s 0x130 0 7)

/-- A twin's age in whole seconds, saturating at 0xFFFF (R412). -/
def twinAge (s : State) (t : Twin) : Nat := min ((nowT s : Int) - t.born).toNat (0xFFFF * secTicks) / secTicks

/-- GLB registers (R412, R456). -/
def viewGlb (s : State) (o st : Nat) : Nat :=
  let x := skimSel s
  let a := if x.twinB then x.twinBee else x.twinA
  let i := if x.twinB then x.twinA else x.twinBee
  if o = 0x114 then st + 2 * b2n s.cal.on
  else if o = 0x124 then st + 256 * b2n (skimOn s && (fod s (st % 128)).running)
  else if o = 0x134 then twinAge s a + 65536 * twinAge s i
  else if o = 0x138 then b2n x.twinA.failed + 2 * b2n x.twinBee.failed + 4 * b2n i.ready
  else st

/-- Command registers (R354); the FIFO and the handle are the master's own. -/
def viewCmd (s : State) (m o st : Nat) : Nat :=
  if o = 0x000 then stagedL s m (rCMD 0) 4
  else if o = 0x010 then handleOf s m
  else if o = 0x014 then
    s.cmd.slots.length + 256 * b2n (classRuns s 1) + 512 * b2n (classRuns s 2) + 1024 * b2n (classRuns s 3)
  else st

/-- SNAP, SEAL and NVS status registers (R455, R62, R413). -/
def viewMisc (s : State) (b : Blk) (o st : Nat) : Nat :=
  match b with
  | .snap => if o = 0x04 then st + 65536 * b2n s.snap.busy + 131072 * s.snap.queue.length else st
  | .scrim =>
    if o = 0x04 then
      st + b2n s.seal_.match_ + 32 * b2n s.seal_.passValid +
        64 * b2n (s.cmd.slots.any (fun p => decide (p.2.w0 % 256 = 0x0B)))
    else st
  | .nvs =>
    if o = 0x04 then st + b2n (postBusy s 2) + 2 * b2n s.nvs.job.isSome + 4 * b2n s.nvsLoaded else st
  | _ => st

/-- The value of a register that `i` names, its words joined, as master m reads it. -/
def liveVal (s : State) (m : Nat) (i : RegInfo) : Nat :=
  let o := i.row.off
  let n := i.inst
  let st := rL s i.base i.row.words
  match i.blk with
  | .glb => viewGlb s o st
  | .cmd => viewCmd s m o st
  | .time => viewTime s o st
  | .fcol => viewFcol s o i.rep st
  | .snap => viewMisc s .snap o st
  | .scrim => viewMisc s .scrim o st
  | .nvs => viewMisc s .nvs o st
  | .pwr => viewPwr s o st
  | .mate => viewMate s o st
  | .sc => viewSc s n o st
  | .dp => viewDp s n o st
  | .ref => if o = 0x004 then st + 8 * b2n (refSelected s n) else if o = 0x068 then qualRem s n else st
  | .refMap =>
    if o = 0x00 then mapWord i.rep (fun k => decide (k < 144) && refBit s k 1)
    else mapWord i.rep (fun k => decide (k < 144) && refBit s k 0)
  | .fod => viewFod s n o st
  | .fodWide => viewFodWide s o i.rep st
  | .port => if o = 0x004 then st + 32 * b2n ((portFlags s n (nowR s)).testBit 0) else st
  | .corr =>
    if o = 0x04 then
      let res := (s.ingress.filter (·.reserve)).length
      6144 - (s.ingress.length - res) + (2048 - res) * 65536
    else st
  | .el => viewEl s n o st
  | .cl => if o = 0x04 then b2n (lane s n).cl + 4 * b2n (clFenced s n) else st
  | .lath => viewLath s o st
  | .ecam => if o = 0x08 then inFlightOf s 0 else if o = 0x0C then inFlightOf s 1 else st
  | .ring => viewRing s n o i.rep st
  | .dma => if o = 0x04 then st + dmaLive s n else st
  | .dmaWide =>
    if o = 0x00 then
      (List.range 16).foldl (fun a c => a + b2n (decide ((dma s c).st ≠ 0)) * 2 ^ c +
        b2n (decide (5 ≤ (dma s c).st)) * 2 ^ (16 + c)) 0
    else if o = 0x04 then dmaOutstanding s
    else st
  | _ => st

end Sys2Proof.Machine
end

