-- ==== Sys2Proof/Machine/Bus.lean ====
section
/-!
DEFINITION. The register bus (R34 to R57, R434, R538 to R544): reads with their shadows, writes with every check in turn,
staging, posting and landing, locks, what hardware overrides, the seal's void passes; the places of the BAR2 memories.
-/
namespace Sys2Proof.Machine

open Sys2Proof

-- the MSI-X region (R532, R540)

/-- Whether an offset lies in the range that the PCIe endpoint serves itself. -/
def inMsix (off : Nat) : Bool := decide (0xF0000 ≤ off ∧ off < 0x100000)

/-- An endpoint's own word: of the MSI-X table or of the configuration space. -/
def msixWord (s : State) (k : Nat) : Nat := (mget endpointInit s.msix k).toNat

/-- The words of the configuration space that R531 gives: identification, class code, BAR0 and BAR2. -/
def cfgWords (s : State) : List Nat := [0x1000, 0x1002, 0x1004, 0x1005, 0x1006, 0x1007].map (msixWord s)

/-- A read of the endpoint's own range. -/
def msixRead (s : State) (off : Nat) : Nat :=
  if off < 0xF0400 then msixWord s ((off - 0xF0000) / 4)
  else if off = 0xF8000 then s.pba % 2 ^ 32
  else if off = 0xF8004 then s.pba / 2 ^ 32 % 2 ^ 32
  else 0

/-- Sends the messages that wait in the PBA and that nothing holds back any more (R532). -/
def msixFlush (s : State) : State :=
  upto 64 (fun s v => if s.pba.testBit v then sendMsix { s with pba := clr s.pba (2 ^ v) } v else s) s

/-- A write of a word of the MSI-X table, in the bits that PCI Express gives it (R540): an address is of whole words, vector
control has its mask. -/
def msixWrite (s : State) (off v : Nat) : State :=
  if off < 0xF0400 then
    let k := (off - 0xF0000) / 4
    let v := if k % 4 = 0 then v / 4 * 4 else if k % 4 = 3 then v % 2 else v
    msixFlush { s with msix := mput endpointInit s.msix k (wd v) }
  else s

-- the sleeping core domain (R505, R506)

/-- Whether an access is answered without the core domain: TIME, FCOL, NVS, PWR, the MATE line registers, and a read of
GLB_ID, GLB_PCI_ID or GLB_SERIAL (R506). -/
def aonAnswers (off : Nat) (read : Bool) : Bool :=
  match regInfo off with
  | none => false
  | some i => match i.blk with
    | .time | .fcol | .nvs | .pwr => true
    | .mate => decide (i.row.off = 0x0C ∨ i.row.off = 0x10)
    | .glb => read && decide (i.row.off < 0x10)
    | _ => false

/-- The core domain wakes (R431, R505). -/
def coreWake (s : State) : State :=
  if s.coreAwake ∨ s.pwr.power ≠ 2 ∨ s.pwr.mrst ∨ s.pwr.phase = 0 then s else drainFaults { s with coreAwake := true }

/-- A snapshot trigger that latches wakes a sleeping core domain (R447). -/
def snapWake (s : State) : State :=
  if s.snap.busy ∧ ¬ s.coreAwake then coreWake { s with pwr := { s.pwr with coreAt := s.time.aon } } else s

/-- An access that needs the core domain wakes it in AON_ONLY, and keeps it awake for 10 ms (R505, R506). -/
def coreTouch (s : State) (off : Nat) (read : Bool) : State :=
  if pwrState s ≠ 1 ∨ aonAnswers off read then s
  else coreWake { s with pwr := { s.pwr with coreAt := s.time.aon } }

-- reads

/-- The words 1 to k of a value, put into a master's shadow from an offset on (R44). -/
def latchL (s : State) (m off : Nat) : Nat → Nat → State
  | 0, _ => s
  | k + 1, v => latchL (setShadow s m off (v % 2 ^ 32)) m (off + 4) k (v / 2 ^ 32)

/-- Whether core n runs shadowed in a standby module (R317). -/
def seqShadow (s : State) (n : Nat) : Bool := s.standby && rbit s (rSEQ n 0) 3

/-- Whether a register is one that a shadowing core reads as the active module's (R474). -/
def mirrored (i : RegInfo) : Bool :=
  let o := i.row.off
  match i.blk with
  | .ref => decide (o = 0x004 ∨ o = 0x050 ∨ o = 0x05C ∨ o = 0x080)
  | .dp => decide (o = 0x004 ∨ o = 0x00C ∨ o = 0x064 ∨ o = 0x07C)
  | .time => decide (o = 0x04)
  | .screed => true
  | _ => false

/-- A value of k words of which the mate's stand where they have come, the module's own `v` else (R474). -/
def mirrorVal (s : State) (off : Nat) : Nat → Nat → Nat
  | 0, _ => 0
  | k + 1, v =>
    (match s.mate.mirror.find? (fun p => decide (p.1 = off)) with
      | some p => p.2.toNat
      | none => v % 2 ^ 32) + 2 ^ 32 * mirrorVal s (off + 4) k (v / 2 ^ 32)

/-- The words of a register as a master reads them: a shadowing core the active module's of a mirrored register (R317,
R474). -/
def masterVal (s : State) (m : Nat) (i : RegInfo) : Nat :=
  if 5 ≤ m ∧ m ≤ 12 ∧ seqShadow s (m - 5) ∧ mirrored i then mirrorVal s i.base i.row.words (liveVal s m i)
  else liveVal s m i

/-- A read of a register word (R36, R42, R44, R50, R72); `low` says whether the read includes the word's byte 0. -/
def readWord (s : State) (m off : Nat) (low : Bool) : State × Nat :=
  match regInfo off with
  | none => (s, 0)
  | some i =>
    if off = rTIME 0x20 then (s, shadowOf s m off)
    else if i.word ≠ 0 then (s, shadowOf s m off)
    else
      let v := masterVal s m i
      let s := if low ∧ i.row.words ≠ 1 then latchL s m (off + 4) (i.row.words - 1) (v / 2 ^ 32) else s
      let s := if low ∧ off = rTIME 0x10 then setShadow s m (rTIME 0x20) (timeFlags s) else s
      (s, v % 2 ^ 32)

/-- A read of at most 32 bits at any byte alignment (R36); only the host in the normal view reaches the endpoint's own
range (R540). -/
def busRead32 (s : State) (m addr bytes : Nat) : State × Nat :=
  let off := addr % 2 ^ 24
  let w := off / 4 * 4
  let sh := off % 4
  if m = 1 ∧ addr < 2 ^ 24 ∧ inMsix off then
    (s, (msixRead s w + 2 ^ 32 * msixRead s (w + 4)) / 2 ^ (8 * sh) % 2 ^ (8 * bytes))
  else
    let s := coreTouch s w true
    let a := readWord s m w (decide (sh = 0))
    let b := if 4 < sh + bytes then readWord a.1 m ((w + 4) % 2 ^ 24) true else (a.1, 0)
    (b.1, (a.2 + 2 ^ 32 * b.2) / 2 ^ (8 * sh) % 2 ^ (8 * bytes))

/-- A read of 8, 16, 32 or 64 bits (R36, R38). -/
def busRead (s : State) (m addr width : Nat) : State × Nat :=
  if width = 64 then
    let a := busRead32 s m addr 4
    let b := busRead32 a.1 m (addr + 4) 4
    (b.1, a.2 + 2 ^ 32 * b.2)
  else busRead32 s m addr (width / 8)

-- writes

/-- The result of a view in RW bits (R41). -/
def viewApply (view old d : Nat) : Nat :=
  match view with
  | 0 => d
  | 1 => old ||| d
  | 2 => clr old d
  | _ => old ^^^ d

/-- The 16 low bits of each of k words. -/
def lowHalves (k : Nat) : Nat := spread k (ones (16 * k))

/-- The bits of a write that its masks enable, in a WM value of joined words (R39). -/
def wmMask (i : RegInfo) (raw : Nat) : Nat := (raw / 65536) &&& lowHalves i.row.words

/-- Whether the register takes nothing from a write: all RO. -/
def allRo (i : RegInfo) : Bool := decide (i.row.rw ||| i.row.w1c ||| i.row.sc = 0)

/-- Registers whose words stand elsewhere in State: the command FIFO, the hop window, RING_RD. -/
def isVirtual (i : RegInfo) : Bool :=
  decide (i.blk = .cmd ∧ i.row.off = 0x000) || decide (i.blk = .fod ∧ i.row.off = 0x0A4) ||
  decide (i.blk = .ring ∧ i.row.off = 0x0C)

/-- The words of a register before a write. -/
def oldVal (s : State) (m : Nat) (i : RegInfo) : Nat := if isVirtual i then liveVal s m i else rL s i.base i.row.words

/-- The bits of the value's highest word from bit 0 of the value on. -/
def topBit (i : RegInfo) : Nat := 32 * (i.row.words - 1)

/-- The value's RW bits after a write of joined words; the view acts on the highest word, the lower ones being staged as
they shall stand (R39, R41, R45). GLB_LOCK takes no 0 (R53). -/
def newVal (i : RegInfo) (view old raw : Nat) : Nat :=
  if i.row.wm then
    let k := wmMask i raw &&& i.row.rw
    clr old k ||| (raw &&& k)
  else
    let t := topBit i
    let full := raw % 2 ^ t + viewApply view (old / 2 ^ t) (raw / 2 ^ t) * 2 ^ t
    let n := clr old i.row.rw ||| (full &&& i.row.rw)
    if i.blk = .glb ∧ i.row.off = 0x040 then n ||| old else n

/-- The W1C and SC bits that a write writes as 1 (R41, R123). -/
def hitVal (i : RegInfo) (raw : Nat) : Nat :=
  if i.row.wm then raw &&& wmMask i raw &&& (i.row.w1c ||| i.row.sc) else raw &&& (i.row.w1c ||| i.row.sc)

/-- The bits of a register that a set lock holds (R53). -/
def lockedBits (s : State) (i : RegInfo) : Nat := if i.row.lk ≠ 0 ∧ rbit s 0x40 i.row.lkBit then i.row.lk else 0

/-- A write with its locked bits as they were (R54). -/
def unlock (i : RegInfo) (view raw old lb : Nat) : Nat :=
  if i.row.wm then clr raw (lb * 65536)
  else
    let t := 2 ^ topBit i
    let low := clr (raw % t) (lb % t) ||| (old % t &&& lb % t)
    let top := clr (raw / t) (lb / t) ||| (if view = 0 then old / t &&& lb / t else 0)
    low + top * t

/-- The bits that hardware holds against software now (R58, R115, R120, R153, R182, R383), and those of an FOD's register that
hardware wrote earlier in the cycle of a write noted as the same cycle's (R21, R56; log entry 121). -/
def heldBits (s : State) (i : RegInfo) : Nat :=
  let o := i.row.off
  match i.blk with
  | .sc => if (sc s i.inst).fenced then i.row.hwr else 0
  | .fod =>
    let x := fod s i.inst
    let moving := scRetuning s x.sc || (match x.insel with
      | some c => scRetuning s c
      | none => false)
    if x.fenced then (if o = 0x008 then 7 else if o = 0x0E0 then 0xF1 else i.row.hwr)
    else if moving ∧ 0x010 ≤ o ∧ o ≤ 0x030 then i.row.hwr
    else if s.cycle.on ∧ x.hw.contains (cycNo s, o) then i.row.hwr
    else 0
  | .dp => if (dp s i.inst).fenced then i.row.hwr else 0
  | .dma => if srcFenced s (srcDma i.inst) then i.row.hwr else 0
  | _ => 0

/-- The bits of a register that a write aims at: those its mask enables, those an alias view sets, clears or toggles, or the
whole word. -/
def aimedBits (i : RegInfo) (view raw : Nat) : Nat :=
  if i.row.wm then wmMask i raw else if view = 0 then i.row.rw else raw

/-- Counts a write in the REJECTED counter of the block, where it has one (R56, R434). -/
def bumpRejected (s : State) (b : Blk) (inst : Nat) : State :=
  match b with
  | .sc => bumpM s (rSC inst 0xF8)
  | .fod => bumpM s (rFOD inst 0x84)
  | .dp => bumpM s (rDP inst 0xA4)
  | .ecam => bump s 0x600034
  | .ecamEnt => bump s 0x600034
  | .dma => bump s 0x808008
  | .dmaWide => bump s 0x808008
  | _ => s

/-- A sealed register is written during a pass: the pass is void (R59). A void pass that a write causes reports with the register
written and its master (R546). -/
def passVoidMark (s : State) (cz : Cause) : State :=
  if s.seal_.passOn ∧ ¬ s.seal_.passVoid then
    let n := s.seal_.voidRun + 1
    let s := bump { s with seal_ := { s.seal_ with passVoid := true, voidRun := n } } (rSEAL 0x18)
    if n = 8 then raiseC (orBits s (rSEAL 4) 8) srcSeal kNoPass (rSEAL 4) cz else s
  else s

/-- A counter that a write loads with 0xFFFF_FFFF saturates (R453). -/
def loadSat (s : State) (i : RegInfo) (old : Nat) : State :=
  if i.row.cnt ∧ old ≠ i.row.rw ∧ cntGet s i.base i.row.wm = ones 32 then
    raise (noteSat s i.base) srcCnt kSaturated i.base
  else s

/-- A write changes its register (R39, R41, R45): the state, the words before and after, the W1C and SC bits written as 1. -/
def storeVal (s : State) (i : RegInfo) (view raw m : Nat) : State × Nat × Nat × Nat :=
  let old := oldVal s m i
  let hit := hitVal i raw
  let v := clr (newVal i view old raw) (hit &&& i.row.w1c)
  let s := if isVirtual i then s else loadSat (wL s i.base i.row.words v) i old
  (noteWrite s i.base, old, v, hit)

/-- A write takes effect in its register (R39, R41, R45, R52), with what follows from it. -/
def applyVal (s : State) (i : RegInfo) (view raw m : Nat) (cz : Cause) : State :=
  let a := storeVal s i view raw m
  regFx a.1 i a.2.1 a.2.2.1 a.2.2.2 m cz

/-- Raises a register-bus fault on a write (R57). -/
def busFault (s : State) (kind off m : Nat) : State := raise s srcBus kind off m 2

/-- A write that R37 to R49 let through, its words joined: locks, held bits, the seal, then the register or Col. The flag
says whether a lock refused bits. -/
def busAccept (s : State) (m off view raw : Nat) (i : RegInfo) : State × Bool :=
  let old := oldVal s m i
  let lb := lockedBits s i
  let locked := decide ((newVal i view old raw ^^^ old) &&& lb ≠ 0)
  let raw := unlock i view raw old lb
  let s := if locked then busFault (bump s 0x44) kLocked off m else s
  let held := heldBits s i &&& aimedBits i view raw
  let s := if held = 0 then s else bumpRejected s i.blk i.inst
  let raw := unlock i view raw old held
  if held ≠ 0 ∧ i.row.wm ∧ wmMask i raw &&& (i.row.rw ||| i.row.w1c ||| i.row.sc) = 0 then (s, locked)
  else
    let s := if i.row.slm ≠ 0 then passVoidMark s (some (off, m)) else s
    if i.row.posted then
      let ws := (List.range i.row.words).map (fun k => bits raw (32 * k) 32)
      ({ s with posted := s.posted ++ [(postKey i.blk i.inst, ⟨m, off, view, ws⟩)] }, locked)
    else (applyVal s i view raw m (some (off, m)), locked)

/-- Whether SAFE lets a write of the word v through: a write of 1 to FCOL_PEND_MAP or to FCOL_FIRST_INFO.VALID (R434). -/
def safeLets (off v : Nat) : Bool :=
  match regInfo off with
  | some i => decide (i.blk = .fcol ∧ (i.row.off = 0x40 ∨ i.row.off = 0x10)) && decide (hitVal i v ≠ 0)
  | none => false

/-- A write that SAFE refuses (R434): it counts in the block whose addresses it falls under, at a reserved offset too. -/
def safeRefuse (s : State) (off : Nat) : State :=
  match findBlk blocks off with
  | some (b, n) => bumpRejected s b.blk n
  | none => s

/-- Whether some bits of a write that R37 to R49 let through are taken: no lock, no held bit and no live ECAM entry turns away
all that it aims at (R21, R54, R271). -/
def takesAny (s : State) (i : RegInfo) (view raw : Nat) : Bool :=
  let a := aimedBits i view raw
  let no := (lockedBits s i ||| heldBits s i) &&& a
  !(decide (no ≠ 0) && decide (clr a no &&& (i.row.rw ||| i.row.w1c ||| i.row.sc) = 0)) &&
    !(decide (i.blk = .ecamEnt) && ecamRefuses s i.inst i.row.off (rn s i.base) (newVal i view (oldVal s 0 i) raw))

/-- The host's write goes to the mate where R473 says so. -/
def hostForward (s : State) (m addr off v : Nat) : State :=
  if m = 1 ∧ forwarded off then forward s [0, (addr : Int), (v : Int)] else s

/-- The same for a write of which some bits are taken. -/
def forwardTaken (s : State) (m addr off v : Nat) (i : RegInfo) (view raw : Nat) : State :=
  if takesAny s i view raw then hostForward s m addr off v else s

/-- A 32-bit aligned write of a register word that SAFE does not refuse (R41 to R49). An alias write that R43 forbids raises
ALIAS alone, whether the block is BUSY or not (log entry 143). A write to a BUSY block raises POST_OVERRUN, one whose mask is
zero too (DESIGN CHOICE, log entry 181). A staged lower word is no write of the sealed value and voids no pass (DESIGN CHOICE,
log entry 180). -/
def regWrite (s : State) (m addr v : Nat) : State × Bool :=
  let off := addr % 2 ^ 24
  let view := addr / 2 ^ 24 % 4
  match regInfo off with
  | none => if view = 0 then (s, false) else (busFault s kAlias off m, true)
  | some i =>
    let top := decide (i.word + 1 = i.row.words)
    if view ≠ 0 ∧ (i.row.wm ∨ allRo i) then (busFault s kAlias off m, true)
    else if i.row.posted ∧ top ∧ postBusy s (postKey i.blk i.inst) then (busFault s kPostOverrun off m, true)
    else if allRo i then (s, false)
    else
      let fifo := decide (i.blk = .cmd) && decide (i.row.off = 0x000)
      let old := if fifo then stagedOf s m off else rn s off
      let d := viewApply view old v
      if ¬ top then (setStaged (hostForward s m addr off v) m off d, false)
      else
        let s := if fifo then setStaged s m off d else s
        let low := stagedL s m i.base (i.row.words - 1)
        let view := if fifo then 0 else view
        let raw := low + (if fifo then d else v) * 2 ^ topBit i
        busAccept (forwardTaken s m addr off v i view raw) m off view raw i

/-- A 32-bit aligned write (R434, R540). -/
def busWrite32 (s : State) (m addr v : Nat) : State × Bool :=
  let off := addr % 2 ^ 24
  if m = 1 ∧ addr < 2 ^ 24 ∧ inMsix off then (msixWrite s off v, false)
  else
    let s := coreTouch s off false
    if s.fcol.safe ∧ ¬ safeLets off v then (safeRefuse s off, false) else regWrite s m addr v

/-- A write of at most 32 bits (R37): any but an aligned one of 32 bits is ignored with ACCESS_WIDTH, at a reserved location too
(DESIGN CHOICE, log entry 177); it is an access that wakes a sleeping core all the same (R506). -/
def busWrite1 (s : State) (m addr width v : Nat) : State × Bool :=
  if addr % 4 ≠ 0 ∨ width ≠ 32 then
    if m = 1 ∧ addr < 2 ^ 24 ∧ inMsix addr then (s, false)
    else (busFault (coreTouch s (addr % 2 ^ 24 / 4 * 4) false) kAccessWidth (addr % 2 ^ 24) m, true)
  else busWrite32 s m addr (v % 2 ^ 32)

/-- A write of any width (R37, R38), one of 64 bits as two of 32, the lower address first: the state, and whether it raised
a register-bus fault. The bus accepts masters from the completion of the NVS load on (R507; log entry 7). -/
def busWrite (s : State) (m addr width v : Nat) : State × Bool :=
  let addr := addr % 2 ^ 26
  if ¬ s.nvsLoaded then (s, false)
  else if width = 64 then
    let a := busWrite1 s m addr 32 v
    let b := busWrite1 a.1 m ((addr + 4) % 2 ^ 26) 32 (v / 2 ^ 32)
    (b.1, a.2 || b.2)
  else busWrite1 s m addr width v

/-- A write, noted as one that hardware updates of the same core cycle meet where `tie` says so (R56). -/
def busWriteTie (s : State) (m addr width v : Nat) (tie : Bool) : State :=
  if tie then
    let s := (busWrite { s with cycle := ⟨true, s.time.aon, s.cyc, []⟩ } m addr width v).1
    { s with cycle := { s.cycle with on := false } }
  else (busWrite s m addr width v).1

/-- A submission to the command FIFO by a master: an access that needs the core (R506). -/
def cmdAccess (s : State) (m w0 w1 w2 w3 : Nat) : State := cmdIn (coreTouch s 0x010000 false) m w0 w1 w2 w3

/-- A write of 32 bits in the normal view. -/
def regPut (s : State) (m off v : Nat) : State := (busWrite s m off 32 v).1

/-- A write of a WM word: the data with a mask. -/
def regPutM (s : State) (m off mask v : Nat) : State := regPut s m off (mask * 65536 + v % 65536)

/-- The words of a posted write, joined. -/
def joinWords : List Nat → Nat
  | [] => 0
  | w :: t => w + 2 ^ 32 * joinWords t

/-- Whether a block's target is in the AON domain (R47, R48): every posted block but the SCs' analogue registers. -/
def aonTarget (b : Blk) : Bool :=
  match b with
  | .time | .fcol | .nvs | .pwr | .mate => true
  | _ => false

/-- Whether a block's target can take a posted write now: that of an SC waits for the SC's wake (R506). -/
def canLand (s : State) (key : Nat) : Bool := decide (key < 5) || (sc s (key - 5)).awake

/-- The posted write in flight of a block lands (R48, R506): its register changes and BUSY clears; what follows from it in an
AON target waits for the next AON boundary. -/
def postLand (s : State) (key : Nat) : State :=
  match s.posted.find? (fun p => decide (p.1 = key)) with
  | none => s
  | some (_, p) =>
    if ¬ canLand s key then s else
    let s := { s with posted := s.posted.filter (fun q => decide (q.1 ≠ key)) }
    match regInfo p.off with
    | some i =>
      let a := storeVal s i p.view (joinWords p.words) p.master
      if aonTarget i.blk then { a.1 with landed := a.1.landed ++ [⟨p.off, a.2.1, a.2.2.1, a.2.2.2, p.master⟩] }
      else regFx a.1 i a.2.1 a.2.2.1 a.2.2.2 p.master none
    | none => s

/-- The same, noted as one that hardware updates of the same core cycle meet where `tie` says so (R56). -/
def postLandTie (s : State) (key : Nat) (tie : Bool) : State :=
  if tie then
    let s := postLand { s with cycle := ⟨true, s.time.aon, s.cyc, []⟩ } key
    { s with cycle := { s.cycle with on := false } }
  else postLand s key

-- BAR2

/-- Whether an offset is a semaphore word's (R296, R542). -/
def isSema (a : Nat) : Bool := decide (0x880FC0 ≤ a ∧ a < 0x881000)

/-- The windows that BAR2 writes (R542, R543): the core of an IMEM offset. -/
def imemOf (a : Nat) : Option Nat :=
  if 0x800000 ≤ a ∧ a < 0x880000 ∧ a % 0x10000 < 0x4000 then some ((a - 0x800000) / 0x10000) else none

/-- Whether an offset lies in a DMEM or in the mailbox. -/
def isDataMem (a : Nat) : Bool :=
  decide (0x800000 ≤ a ∧ a < 0x880000 ∧ 0x8000 ≤ a % 0x10000 ∧ a % 0x10000 < 0xA000) ||
  decide (0x880000 ≤ a ∧ a < 0x881000)

end Sys2Proof.Machine
end

