-- ==== Sys2Proof/Machine/ExtOps.lean ====
section
/-!
DEFINITION. Time labels from outside and to outside (R85 to R90, R187, R527 to R530): the calendar, the ToD messages, the
IRIG-B frames; PPS events; the SMBus words (R533).
-/
namespace Sys2Proof.Machine

open Sys2Proof

-- the calendar

/-- Days from 1970-01-01 to a date. -/
def daysOf (y m d : Nat) : Nat :=
  let y := if m ≤ 2 then y - 1 else y
  let doy := (153 * (if m ≤ 2 then m + 9 else m - 3) + 2) / 5 + d - 1
  y / 400 * 146097 + (y % 400 * 365 + y % 400 / 4 - y % 400 / 100 + doy) - 719468

/-- The year in which a day since 1970-01-01 lies. -/
def yearOf (days : Nat) : Nat :=
  let z := days + 719468
  let doe := z % 146097
  let yoe := (doe - doe / 1460 + doe / 36524 - doe / 146096) / 365
  let doy := doe - (365 * yoe + yoe / 4 - yoe / 100)
  yoe + z / 146097 * 400 + (if 10 ≤ (5 * doy + 2) / 153 then 1 else 0)

/-- Whether a year has a 29 February. -/
def isLeap (y : Nat) : Bool := decide (y % 4 = 0 ∧ (y % 100 ≠ 0 ∨ y % 400 = 0))

/-- The days of a month. -/
def monthDays (y m : Nat) : Nat :=
  if m = 2 then (if isLeap y then 29 else 28) else if m = 4 ∨ m = 6 ∨ m = 9 ∨ m = 11 then 30 else 31

/-- TIME_UTC_OFF (R85). -/
def utcOff (s : State) : Int := sx 16 (rn s (rTIME 0x70))

/-- The leap that is armed: 1 insertion, 2 deletion, 0 none (R86). -/
def armedLeap (s : State) : Nat := if s.time.leapPend then rb s (rTIME 0x74) 0 2 else 0

/-- TIME_LEAP_AT. -/
def leapAt (s : State) : Nat := rL s (rTIME 0x78) 2

/-- TAI of a UTC second counted as days of 86 400 s, `six` where it is labelled 23:59:60 (R85, R87): an armed leap counts
for the seconds behind it. -/
def taiOf (s : State) (utc : Int) (six : Bool) : Int :=
  let t := utc + utcOff s
  if armedLeap s = 1 ∧ ¬ six ∧ (leapAt s : Int) - 1 ≤ t then t + 1
  else if armedLeap s = 2 ∧ (leapAt s : Int) + 1 ≤ t then t - 1
  else t

-- labelled events

/-- A labelled event of a time reference (R187, R190): the TOD monitor, REF_LABEL, and the sample. -/
def refLabel (s : State) (i : Nat) (t : Int) (label : Nat) : State :=
  let r := ref s i
  let e := (label * secTicks : Nat) - s32 s (rREF i 0x48) - t
  let seq := match r.label with
    | some p => decide (label = p + 1)
    | none => true
  let other := match (dp s 0).sel with
    | some (_, j) => decide ((dp s 0).st = 2) && decide (j ≠ i) && !isFreqRef j
    | none => false
  let bad := !seq || (other && decide ((label : Int) ≠ rround ((t : Rat) / (secTicks : Rat))))
  let s := setRef s i { r with label := some label, edge := none, next := none }
  let s := setLevel (wM s (rREF i 0x80) 3 label) i .tod bad
  refSample s i t e

/-- An edge of a time reference without a label yet (R190): the edge before it, if it is still without one, fails the TOD
monitor. `wait`: its label may yet come. -/
def refEdge (s : State) (i : Nat) (t : Int) (wait : Bool) : State :=
  let late := (ref s i).edge.isSome
  let s := setLevel (setRef s i { ref s i with seen := true, edge := if wait then some t else none }) i .los false
  if late ∨ ¬ wait then setLevel s i .tod true else s

/-- An edge of REF0 to REF3 whose label has not come within 900 ms fails the TOD monitor (R187, R190). -/
def labelWatch (s : State) : State :=
  upto 4 (fun s i => match (ref s i).edge with
    | some t =>
      if t + 900000000 * 65536 < (nowT s : Int) then setLevel (setRef s i { ref s i with edge := none }) i .tod true else s
    | none => s) s

/-- A ToD message's label (R187): of the edge before it, or of the edge to come. -/
def todLabel (s : State) (i label : Nat) : State :=
  let r := ref s i
  if ¬ refOn s i then s
  else if rbit s (rREF i 0) 6 then setRef s i { r with next := some label }
  else match r.edge with
    | none => s
    | some t =>
      let d := (nowT s : Int) - t
      if 10000000 * 65536 ≤ d ∧ d ≤ 900000000 * 65536 then refLabel s i t label else s

/-- The number of decimal digits, none where a byte is no digit or there is none. -/
def decNat (l : List Byte) : Option Nat :=
  if l = [] then none
  else l.foldl (fun a b => match a with
    | some n => if 48 ≤ b.toNat ∧ b.toNat ≤ 57 then some (n * 10 + (b.toNat - 48)) else none
    | none => none) (some 0)

/-- A hexadecimal digit. -/
def hexDigit (b : Byte) : Option Nat :=
  let n := b.toNat
  if 48 ≤ n ∧ n ≤ 57 then some (n - 48) else if 65 ≤ n ∧ n ≤ 70 then some (n - 55)
  else if 97 ≤ n ∧ n ≤ 102 then some (n - 87) else none

/-- Splits bytes at a separator. -/
def splitAtByte (c : Byte) : List Byte → List (List Byte)
  | [] => [[]]
  | b :: t => if b = c then [] :: splitAtByte c t
    else match splitAtByte c t with
      | h :: r => (b :: h) :: r
      | [] => [[b]]

/-- Whether bytes are a ZDA sentence at all (R530): `$`, two characters, `ZDA,`. -/
def isZda (l : List Byte) : Bool :=
  decide (l.take 1 = [0x24] ∧ (l.drop 3).take 4 = [0x5A, 0x44, 0x41, 0x2C])

/-- Seconds of a UTC time of day, `hhmmss` with an all-zero fraction: hours, minutes, seconds (R530). -/
def zdaTime (l : List Byte) : Option (Nat × Nat × Nat) :=
  let frac : Bool := match l.drop 6 with
    | [] => true
    | c :: t => decide (c = 0x2E ∧ t ≠ []) && t.all (fun b => decide (b = 0x30))
  if ¬ frac then none
  else match decNat (l.take 2), decNat ((l.drop 2).take 2), decNat ((l.drop 4).take 2) with
    | some h, some m, some x => if 6 ≤ l.length ∧ h < 24 ∧ m < 60 ∧ x ≤ 60 then some (h, m, x) else none
    | _, _, _ => none

/-- The TAI label of a ZDA sentence, none where it has a bad checksum or field (R530). -/
def zdaLabel (s : State) (l : List Byte) : Option Nat :=
  let body := (l.drop 1).takeWhile (fun b => decide (b ≠ 0x2A))
  let tail := (l.drop 1).drop body.length
  let cs := body.foldl (fun a b => a ^^^ b.toNat) 0
  let okCs : Bool := match tail with
    | [star, h, g, cr, lf] => decide (star = 0x2A ∧ cr = 0x0D ∧ lf = 0x0A) && (match hexDigit h, hexDigit g with
      | some a, some b => decide (a * 16 + b = cs)
      | _, _ => false)
    | _ => false
  if ¬ okCs ∨ 82 < l.length then none
  else match splitAtByte 0x2C (body.drop 6) with
    | [t, dB, mB, yB, _, _] =>
      match zdaTime t, decNat dB, decNat mB, decNat yB with
      | some (hh, mm, ss), some d, some m, some y =>
        if (dB.length = 2 ∧ mB.length = 2 ∧ yB.length = 4) ∧ 1 ≤ m ∧ m ≤ 12 ∧ 1 ≤ d ∧ d ≤ monthDays y m ∧ 1970 ≤ y then
          let utc : Int := ((daysOf y m d * 86400 + hh * 3600 + mm * 60 + ss : Nat) : Int)
          let six := decide (ss = 60)
          let tai := taiOf s utc six
          if six ∧ ¬ (hh = 23 ∧ mm = 59 ∧ armedLeap s = 1 ∧ tai + 1 = (leapAt s : Int)) then none else some tai.toNat
        else none
      | _, _, _, _ => none
    | _ => none

/-- A binary ToD frame (R530): whether it is one that the module counts when it does not accept it, and its TAI second,
UTC offset and flags where it accepts it. -/
def todFrame (l : List Byte) : Option (Nat × Int × Nat) :=
  if l.length = 24 ∧ (l.drop 2).take 2 = [0x01, 0x10] ∧ leNat (l.drop 20) = crc32c ((l.drop 2).take 18) then
    some (leNat ((l.drop 4).take 6), sx 16 (leNat ((l.drop 10).take 2)), leNat ((l.drop 12).take 1))
  else none

/-- The leap that a frame with C37.118.1 extensions has announced for a reference, with this frame's announcement: at the end
of the minute of a frame with LSP (R529). -/
def irigLeap (s : State) (i : Nat) (f : IrigFrame) (utc : Int) : Option (Nat × Int × Int) :=
  if f.lsp ∧ f.second < 60 then some (if f.ls then 2 else 1, (utc / 60 + 1) * 60, utcOff s) else (ref s i).leap

/-- TAI of the UTC second of a frame with C37.118.1 extensions (R187, R529): behind the leap that the frames announced,
TIME_UTC_OFF counts with that leap until it has changed itself. -/
def irigTai (s : State) (leap : Option (Nat × Int × Int)) (utc : Int) (six : Bool) : Int :=
  match leap with
  | some (k, b, off) =>
    let past := decide (b ≤ utc) && !six && decide (utcOff s = off)
    utc + utcOff s + (if past then (if k = 1 then 1 else -1) else 0)
  | none => utc + utcOff s

/-- The UTC second of an IRIG-B frame's BCD time (R529); a year of two digits is of this century. -/
def irigUtc (f : IrigFrame) : Int :=
  let y := if f.year < 100 then 2000 + f.year else f.year
  (((daysOf y 1 1 + f.day - 1) * 86400 + f.hour * 3600 + f.minute * 60 + f.second : Nat) : Int)

-- PPS

/-- The code c of R528: the least from 1 to 11 with 10^(c-1) ns not below an error in ps. -/
def tqCode (ps : Nat) : Nat := ((List.range 11).find? (fun k => decide (ps ≤ 10 ^ k * 1000))).map (· + 1) |>.getD 11

/-- TQ of R528. -/
def irigTq (s : State) : Nat :=
  let st := (dp s 0).st
  if s.time.notSet ∨ st = 0 then 15
  else if st = 2 then 0
  else if st = 3 then tqCode (rn s (rSCR 0x40))
  else if st = 1 then tqCode (((sx 48 (rM s (rDP 0 0x7C) 3)).natAbs * 1000 + 65535) / 65536)
  else Config.irigTq s.free % 16

/-- The ones in the BCD form of a number. -/
def bcdOnes (n : Nat) : Nat :=
  (List.range 4).foldl (fun a k => let g := n / 10 ^ k % 10; a + g % 2 + g / 2 % 2 + g / 4 % 2 + g / 8) 0

/-- The IRIG-B frame of a TAI second (R527, R528): CODE, AM and the mark amplitude of an AM output in 0.1 Vpp, then second, minute, hour, day of the year, year, where the
format has control functions LSP, LS, DSP, DST, the local offset, TQ and PAR, and where it has it SBS. PAR makes the ones of
the data bits up to it even (log entry 155). -/
def irigFields (s : State) (m tai : Nat) (six : Bool) : List Int :=
  let cfg := rn s (0x220 + 4 * m)
  let utc := ((tai : Int) - utcOff s).toNat - b2n six
  let code := bits cfg 2 2
  let y := yearOf (utc / 86400)
  let doy := utc / 86400 - daysOf y 1 1 + 1
  let lead := decide (armedLeap s ≠ 0 ∧ tai < leapAt s ∧ leapAt s ≤ tai + 60)
  let bcd := [utc % 60 + b2n six, utc / 60 % 60, utc / 3600 % 24, doy, y % 100]
  let base := [code, bits cfg 1 1, if cfg.testBit 1 then min (max (bits cfg 8 8) 5) 100 else 0] ++ bcd
  let lsp := b2n lead
  let ls := b2n (lead && decide (armedLeap s = 2))
  let tq := irigTq s
  let par := (bcd.foldl (fun a n => a + bcdOnes n) 0 + lsp + ls + (tq % 2 + tq / 2 % 2 + tq / 4 % 2 + tq / 8)) % 2
  let cf := if code < 2 then (if cfg.testBit 4 then [lsp, ls, 0, 0, 0, tq, par] else [0, 0, 0, 0, 0, 0, 0]) else []
  let sbs := if code = 0 ∨ code = 3 then [utc % 86400 + b2n six] else []
  (base ++ cf ++ sbs).map (fun n => (n : Int))

/-- The next rising edge at or after t that front-panel output n copies from its FOD (R526): none, and the output low, while the
FOD does not run or runs above 250 MHz, and under MRST_N. -/
def copyEdge (s : State) (n : Nat) (t : Rat) : Option (Int × Rat) :=
  let x := fod s (rb s (0x200 + 4 * n) 8 7)
  if rb s (0x200 + 4 * n) 0 2 ≠ 2 ∨ s.pwr.mrst ∨ ¬ x.running ∨ nomPeriod x.n x.f x.m x.o (scQ s x.sc) < 262144 then none
  else edgeFrom s x.recs x.anchors (max t (mget (fun _ => 0) s.time.copyAt n))

/-- The PPS event of a device second (R88 to R90): its label, the count, the outputs, the IRIG-B frames, the event and a
snapshot at every PPS_DIV-th. -/
def ppsEvent (s : State) (sec : Nat) (repeat_ : Bool) : State :=
  let six := decide (armedLeap s = 1 ∧ sec + 1 = leapAt s)
  let t : Nat := sec * secTicks
  let s := wr (wr s (rTIME 0xB0) sec) (rTIME 0xB4) (sec / 2 ^ 32 % 65536 + rb s (rTIME 0x70) 0 16 * 65536)
  let s := wr s (rTIME 0xB8) (b2n six + 2 * b2n repeat_ + 4 * flagsAt s t)
  let s := bump s (rTIME 0xBC)
  let s := upto 8 (fun s n =>
    if rb s (0x200 + 4 * n) 0 2 = 1 ∧ ¬ s.pwr.mrst then
      let inv := rbit s (0x200 + 4 * n) 2
      let ofs := sx 32 (rn s (rTIME (0xC0 + 4 * n)))
      let rise := (cycNo s : Int) + ((t : Int) + ofs - (nowT s : Int)) / 65536
      let s := emit s (.pps n ((t : Int) + ofs) (!inv))
      { s with time := { s.time with
          ppsPulse := s.time.ppsPulse ||| 2 ^ n, ppsFrom := mput (fun _ => 0) s.time.ppsFrom n rise
          ppsInv := clr s.time.ppsInv (2 ^ n) ||| 2 ^ n * b2n inv, outHigh := clr s.time.outHigh (2 ^ n) } }
    else s) s
  let s := upto 2 (fun s m =>
    if rbit s (0x220 + 4 * m) 0 then
      let s := emit s (.irig m (irigFields s m sec six))
      { s with free := s.free + 1 }
    else s) s
  let s := event s 8
  if rbit s (rSNAP 0) 0 then
    let n := s.snap.ppsCount + 1
    if atLeast1 (rb s (rSNAP 0) 24 8) ≤ n then
      snapWake (snapTrigger { s with snap := { s.snap with ppsCount := 0 } } 4 (t : Rat) none)
    else { s with snap := { s.snap with ppsCount := n } }
  else s

-- SMBus

/-- The STATUS word (R533). -/
def smbWord (s : State) : Nat :=
  let p := rn s (rPWR 4)
  bits p 1 3 + 8 * b2n (!s.standby) + 16 * b2n (s.standby && decide (s.mate.nrWhy = 0)) + 32 * b2n (faultLow s) +
    64 * b2n s.fcol.safe + 128 * bits p 6 1 + 256 * bits p 5 1 + 512 * bits p 4 1 + 1024 * b2n (decide ((dp s 0).st = 3)) +
    2048 * b2n s.time.notSet

/-- SMB_ALERT_N follows the STATUS bits [6:0] (R534). -/
def smbEval (s : State) : State :=
  let w := smbWord s % 128
  if w = s.smb.last then s
  else { s with smb := ⟨s.smb.alert || rbit s 0x270 1, w⟩ }

/-- Registers' values as SMBus reads them, as bytes (R533). -/
def smbWords (s : State) (offs : List Nat) : List Byte := offs.flatMap (fun o => match regInfo o with
  | some i => leBytes 4 (liveVal s 2 i / 2 ^ (32 * i.word))
  | none => leBytes 4 0)

end Sys2Proof.Machine
end

