-- ==== Sys2Proof/Machine/SealOps.lean ====
section
/-!
DEFINITION. Scrim (R58 to R62): the CRC over the sealed fields, the start and the end of a pass, the commits that a pass
serves.
-/
namespace Sys2Proof.Machine

open Sys2Proof

/-- The S bits of a register word, and whether its register holds any (R58). -/
def sealMask (off : Nat) : Nat :=
  match regInfo off with
  | some i => i.piece i.row.slm
  | none => 0

/-- Whether the register at an offset holds at least one S field. -/
def sealHolds (off : Nat) : Bool :=
  match regInfo off with
  | some i => decide (i.row.slm ≠ 0)
  | none => false

/-- The offsets of the words of the registers that hold an S field, ascending (R58). -/
def sealOffs : List Nat :=
  sealSpans.flatMap (fun p => ((List.range (p.2 / 4)).map (fun k => p.1 + 4 * k)).filter sealHolds)

/-- The result of a pass (R58): CRC-32C over the sealed words with the bits not marked S as zero. -/
def sealCrc (s : State) : Nat := crc32c (sealOffs.flatMap (fun o => leBytes 4 (rn s o &&& sealMask o)))

/-- A pass starts (R58, R59): a pass in progress is over. -/
def sealStart (s : State) : State :=
  { s with seal_ := { s.seal_ with
    passOn := true, passVoid := false, passOrder := s.order, loaded := s.nvsLoaded } }

/-- The running SEAL_COMMITs that the present pass serves: accepted before it started (R62). -/
def sealCommits (s : State) : List (Nat × Slot) :=
  slotsOf s (fun x => x.running && decide (x.w0 % 256 = 0x0B) && decide (x.order < s.seal_.passOrder))

/-- A commit takes the result of a pass (R61, R62): SEAL_REF, and the completion, which ends HOLD. A locked SEAL_REF keeps
its value (R54, R55), and one that software writes in the same cycle stands (R62). -/
def sealTake (s : State) (crc : Nat) (p : Nat × Slot) : State :=
  if rbit s 0x40 4 then cmdComplete s p.1 p.2 2 (rn s (rSEAL 8))
  else cmdComplete (hwUpdate s (rSEAL 8) (rSEAL 4) 0x10 (fun s => wr s (rSEAL 8) crc)) p.1 p.2 0 crc

/-- The comparison of a pass (R60). -/
def sealCompare (s : State) (crc : Nat) : State :=
  let s := bump s (rSEAL 0x1C)
  let eq := decide (crc = rn s (rSEAL 8))
  let was := s.seal_.matched
  let s := { s with seal_ := { s.seal_ with match_ := eq, matched := eq, passValid := true } }
  if eq then s
  else
    let s := bump s (rSEAL 0x14)
    if was then raise (orBits s (rSEAL 4) 2) srcSeal kMismatch (rSEAL 4) else s

/-- The end of a pass (R59 to R63). -/
def sealEnd (s : State) : State :=
  if ¬ s.seal_.passOn then s
  else if s.seal_.passVoid then { s with seal_ := { s.seal_ with passOn := false } }
  else
    let crc := sealCrc s
    let cmp := rbit s (rSEAL 0) 0 && !rbit s (rSEAL 0) 1 && s.seal_.loaded
    let l := sealCommits s
    let s := wr { s with seal_ := { s.seal_ with passOn := false, voidRun := 0 } } (rSEAL 0x0C) crc
    let s := l.foldl (fun s p => sealTake s crc p) s
    if cmp then sealCompare s crc else s

/-- Whether the hold has lasted SEAL_HOLD_MAX ms, a millisecond having 10 000 AON boundaries; 0 acts as 1 (R61, R62). -/
def holdDue (s : State) : Bool :=
  rbit s (rSEAL 0) 1 && decide (s.seal_.holdFrom + atLeast1 (rb s (rSEAL 0x10) 0 16) * 10000 ≤ s.time.aon)

/-- The end of a hold by its limit (R61). -/
def holdEnd (s : State) : State :=
  if holdDue s then raise (orBits (holdClear s) (rSEAL 4) 4) srcSeal kHoldExpired (rSEAL 4) else s

end Sys2Proof.Machine
end

