-- ==== Sys2Proof/Machine/Registers.lean ====
section
/-!
DEFINITION. The commands that talk to the registers (R34 to R64): writes, reads, landings, locks, the seal.
-/
namespace Sys2Proof.Machine

open Sys2Proof

/-- A read whose data reach the master; none before the NVS load completes (R507; log entry 7). -/
def readOut (s : State) (m addr width : Nat) : State :=
  if ¬ s.nvsLoaded then s
  else
    let r := busRead s m addr width
    emit r.1 (.data m r.2 width)

/-- REGISTER_WRITE (R36 to R57). -/
def execRegisterWrite (m : Master) (addr width v : Nat) (k : WriteAt) (s : State) : Host.Outcome State Fault Refusal :=
  .next (busWriteTie (atCyc s k.cycle) m addr width v k.tie)

/-- SHADOW_LATCH_READ (R36, R44). -/
def execShadowLatchRead (m : Master) (addr width : Nat) (k : CycIx) (s : State) : Host.Outcome State Fault Refusal :=
  .next (readOut (atCyc s k) m addr width)

/-- TIME_READ (R70 to R72): a read of the lowest word of TIME. -/
def execTimeRead (m : Master) (k : CycIx) (s : State) : Host.Outcome State Fault Refusal :=
  .next (readOut (atCyc s k) m (rTIME 0x10) 32)

/-- POSTED_WRITE_LAND (R48): the write in flight of a block changes its register and BUSY clears. -/
def execPostedWriteLand (b : PostLand) (s : State) : Host.Outcome State Fault Refusal :=
  .next (postLandTie s (pblockKey b.block) b.tie)

/-- LOCK_WRITE (R53): a write of GLB_LOCK. -/
def execLockWrite (m : Master) (bits : Word) (s : State) : Host.Outcome State Fault Refusal :=
  .next (regPut s m 0x40 bits.toNat)

/-- SEAL_HOLD (R61): a write that sets SEAL_CTRL.HOLD through the set view. -/
def execSealHold (m : Master) (s : State) : Host.Outcome State Fault Refusal :=
  .next (regPut s m (0x1000000 + rSEAL 0) 2)

/-- HOLD_EXPIRED (R61). -/
def execHoldExpired (s : State) : Host.Outcome State Fault Refusal := .next (if s.coreAwake then holdEnd s else s)

/-- A device-millisecond boundary in a standby: a checkpoint that has not come since the one before it is missing (R476, R489). -/
def ckptCheck (s : State) : State :=
  if ¬ (paired s ∧ s.standby ∧ s.pwr.power = 2 ∧ ¬ s.pwr.mrst) then s
  else
    let s := if s.mate.ckptCame then s else bump s (rMATE 0x58)
    { s with mate := { s.mate with ckptCame := false } }

/-- MS_BOUNDARY (R58, R258, R305, R476): the event MS, a pass, a checkpoint; corrections go out again after a reset. -/
def execMsBoundary (s : State) : Host.Outcome State Fault Refusal :=
  let s := event s 9
  let s := if s.coreAwake then sealStart s else s
  .next { sendCkpt (ckptCheck s) with corrPause := false }

/-- SEAL_PASS_END (R59 to R63). -/
def execSealPassEnd (s : State) : Host.Outcome State Fault Refusal := .next (if s.coreAwake then sealEnd s else s)

/-- SEAL_COMMIT (R62, R341 to R348): the submission of opcode 0x0B. -/
def execSealCommit (m : Master) (irq : Bool) (s : State) : Host.Outcome State Fault Refusal :=
  .next (cmdAccess s m (0x0B + b2n irq * 256) 0 0 0)

end Sys2Proof.Machine
end

