-- ==== Sys2Proof/Machine/Time.lean ====
section
/-!
DEFINITION. The commands of the time scale (R65 to R92).
-/
namespace Sys2Proof.Machine

open Sys2Proof

/-- The posted writes of AON targets that have landed act (R48), in the order in which they landed. -/
def landedRun (s : State) : State :=
  s.landed.foldl (fun s w => match regInfo w.off with
    | some i => regFx s i w.old w.new w.hit w.master none
    | none => s) { s with landed := [] }

/-- Forced holds whose period has ended let the hops act that waited for its edge (R181). -/
def holdsEnd (s : State) : State :=
  ((s.fods.filter (fun p => p.2.holdUntil.isSome)).map (·.1)).foldl (fun s n =>
    match (fod s n).holdUntil with
    | none => s
    | some t => if t ≤ nowR s then hopRelease (setFod s n { fod s n with holdUntil := none }) n t else s) s

/-- SLOW of the ports of outputs whose change has reached its edge (R224). -/
def slowsDue (s : State) : State :=
  ((s.fods.filter (fun p => p.2.slowDue.isSome)).map (·.1)).foldl slowSettle s

/-- One AON boundary (R48, R65 to R100, R194 to R200, R444, R447). `slip`: the interpolator was found more than a tick off (R73). -/
def aonStep (s : State) (slip : Bool) : State :=
  let facts := (runningFods s).map (fun n => (n, plainFactor s n (fod s n)))
  snapWake (snapLater (noteFlags (upto 8 (fun s k => steerSet (masterSet s k) k)
    (aonDomains (aonRate (aonWords (aonInterp (landedRun (slowsDue (holdsEnd (aonTick s)))) slip)) facts)))))

/-- n boundaries without a slip. -/
def aonSteps : Nat → State → State
  | 0, s => s
  | n + 1, s => aonSteps n (aonStep s false)

/-- A standby whose MATE_SYNC has not made it READY within 1.5 s raises SYNC_FAIL (R485). -/
def syncWatch (s : State) : State :=
  match s.mate.syncFrom with
  | none => s
  | some f =>
    if ¬ s.standby ∨ s.mate.nrWhy = 0 then { s with mate := { s.mate with syncFrom := none } }
    else if f + 15000000 ≤ s.time.aon then
      raise { s with mate := { s.mate with syncFrom := none, image := [], imageDone := false } } srcMate kSyncFail (rMATE 4)
    else s

/-- What every AON boundary brings up to date outside the time scale: readiness, edges without a label and SMB_ALERT_N (R190,
R460, R534). -/
def aonAfter (s : State) : State := smbEval (labelWatch (syncWatch (nrEval s)))

/-- n boundaries, the first with a slip of the interpolator or without; none before Plain starts (R67). -/
def aonRun (n : Nat) (slip : Bool) (s : State) : State :=
  match n with
  | 0 => s
  | k + 1 => if s.time.started then aonAfter (aonSteps k (aonStep s slip)) else s

/-- The boundary at which a queued time-scale action of a kind acts (R79, R83); nothing where none falls due at the next
boundary. -/
def queuedTime (p : ActKind → Bool) (s : State) : State := if timeDueNext s p then aonRun 1 false s else s

/-- AON_BOUNDARY (R65 to R100, R194 to R200): n boundaries in succession. -/
def execAonBoundary (n : Nat) (slip : Bool) (s : State) : Host.Outcome State Fault Refusal := .next (aonRun n slip s)

/-- TIME_SET (R75, R78): the posted write of TIME_CMD.SET. -/
def execTimeSet (m : Master) (s : State) : Host.Outcome State Fault Refusal := .next (regPut s m (rTIME 0x08) 0x01)

/-- TIME_STEP (R76, R78): the posted write of TIME_CMD.STEP. -/
def execTimeStep (m : Master) (s : State) : Host.Outcome State Fault Refusal := .next (regPut s m (rTIME 0x08) 0x02)

/-- TIME_SLEW (R77, R78): the posted write of TIME_CMD.SLEW. -/
def execTimeSlew (m : Master) (s : State) : Host.Outcome State Fault Refusal := .next (regPut s m (rTIME 0x08) 0x04)

/-- TIME_SLEW_STOP (R77, R78): the posted write of TIME_CMD.SLEW_STOP. -/
def execTimeSlewStop (m : Master) (s : State) : Host.Outcome State Fault Refusal := .next (regPut s m (rTIME 0x08) 0x08)

/-- TIME_ENQ (R84): the posted write of TIME_CMD.ENQ. -/
def execTimeEnq (m : Master) (s : State) : Host.Outcome State Fault Refusal := .next (regPut s m (rTIME 0x08) 0x10)

/-- QUEUED_STEP (R79, R83). -/
def execQueuedStep (s : State) : Host.Outcome State Fault Refusal :=
  .next (queuedTime (fun k => match k with
    | .timeStep _ => true
    | _ => false) s)

/-- QUEUED_SLEW (R77, R83). -/
def execQueuedSlew (s : State) : Host.Outcome State Fault Refusal :=
  .next (queuedTime (fun k => match k with
    | .timeSlew _ _ => true
    | _ => false) s)

/-- QUEUED_RATE (R83). -/
def execQueuedRate (s : State) : Host.Outcome State Fault Refusal :=
  .next (queuedTime (fun k => match k with
    | .timeRate _ => true
    | _ => false) s)

/-- QUEUED_SLEW_STOP (R83). -/
def execQueuedSlewStop (s : State) : Host.Outcome State Fault Refusal :=
  .next (queuedTime (fun k => match k with
    | .timeSlewStop => true
    | _ => false) s)

/-- SLEW_END (R77): the boundary that adds what is left of a slew. -/
def execSlewEnd (s : State) : Host.Outcome State Fault Refusal :=
  .next (if s.time.slewRem ≠ 0 ∧ (tickInc s).2 = 0 then aonRun 1 false s else s)

/-- LEAP_ARM (R86): a write of TIME_LEAP_CTRL.LEAP lands. -/
def execLeapArm (v : Fin 4) (s : State) : Host.Outcome State Fault Refusal :=
  .next (leapFx (wb s (rTIME 0x74) 0 2 v) none)

/-- The armed leap acts (R87): TIME_UTC_OFF and TIME_LEAP_CTRL change, but for one that software writes in the same cycle
(R91). -/
def leapRun (s : State) : State :=
  if s.time.leapPend ∧ leapAt s ≤ tSec (s.time.plain / 2 ^ 32) then
    let ins := rb s (rTIME 0x74) 0 2 = 1
    let s := hwUpdate s (rTIME 0x70) (rTIME 4) 0x200 (fun s =>
      wb s (rTIME 0x70) 0 16 (tw 16 (utcOff s + (if ins then 1 else -1))))
    hwUpdate { s with time := { s.time with leapPend := false } } (rTIME 0x74) (rTIME 4) 0x200 (fun s =>
      wb s (rTIME 0x74) 0 2 0)
  else s

/-- LEAP_APPLY (R87). -/
def execLeapApply (s : State) : Host.Outcome State Fault Refusal := .next (leapRun s)

/-- The next device-second boundary that Plain has passed (R88): an event, unless R88's gate holds it. A second not later
than the latest that gave an event is labelled REPEAT (log entry 142). -/
def ppsNext (s : State) : State :=
  match s.time.ppsOwed with
  | [] => s
  | n :: rest =>
    let again := decide (n ≤ s.time.ppsMax)
    let s := { s with time := { s.time with ppsOwed := rest } }
    if rbit s (rTIME 0xA0) 31 ∧ s.time.notSet then s
    else ppsEvent { s with time := { s.time with ppsMax := max s.time.ppsMax n } } n again

/-- PPS_EVENT (R88 to R90, R527). -/
def execPpsEvent (s : State) : Host.Outcome State Fault Refusal := .next (ppsNext s)

/-- The width of a PPS pulse in core cycles of 1 ns (R89, R91). -/
def ppsWidth (s : State) : Nat := min (atLeast1 (rb s (rTIME 0xA0) 0 19)) 500000 * 1000

/-- Whether output n's pulse has lasted its width (R89). -/
def ppsOver (s : State) (n : Nat) : Bool :=
  decide (mget (fun _ => (0 : Int)) s.time.ppsFrom n + ppsWidth s ≤ (cycNo s : Int))

/-- The end of a pulse of output n (R89, R526): an active-low output is high again, one whose configuration has changed since
is held low. -/
def ppsEnd (s : State) (n : Nat) : State :=
  let high := s.time.ppsInv.testBit n
  emit { s with time := { s.time with
    ppsPulse := clr s.time.ppsPulse (2 ^ n), outHigh := clr s.time.outHigh (2 ^ n) ||| 2 ^ n * b2n high } } (.pps n (nowT s) high)

/-- PPS_PULSE_END (R89): a pulse ends once it has lasted its width. -/
def execPpsPulseEnd (n : Fin 8) (s : State) : Host.Outcome State Fault Refusal :=
  .next (if s.time.ppsPulse.testBit n.val ∧ ppsOver s n.val = true then ppsEnd s n.val else s)

end Sys2Proof.Machine
end

