-- ==== Sys2Proof/Machine/SynthOps.lean ====
section
/-!
DEFINITION. What ends and follows retunes, band calibrations and locks of the synthesis cores (R100 to R119), and the queued
action that falls due.
-/
namespace Sys2Proof.Machine

open Sys2Proof

/-- A due retune of SC n (R107, R117): it waits while a ramp or band change runs. -/
def retuneDue (s : State) (n : Nat) : State :=
  match dueAct s (sc s n).queue with
  | none => s
  | some a =>
    if scBlocked s n ∧ (sc s n).awake then
      setSc s n { sc s n with queue := (sc s n).queue.map (fun b => if b = a then { b with held := true } else b) }
    else
      let w := actWhen s a
      scActRun (dropAct s (.sc n) a) n a w.1 w.2 a.stepped

/-- SC n takes the ratio and slot of a retune (R109, R110); the modulator begins anew with the new ratio (R95). -/
def ratioTake (s : State) (n : Nat) (r : Retune) : State :=
  let s := setRatio s n (r.ni, r.nf, r.nm)
  setSc s n { sc s n with slot := r.slot, retune := none, ds := [] }

/-- The first output edge of FOD n at or after the end `t` of an uncompensated ramp to `q'` (R109, R112): the phase of the
exact linear ramp since the newest record places it. The FOD's settings are those after the ramp. -/
def rampEdge (s : State) (n : Nat) (qr q' t : Rat) : Option (Int × Rat) :=
  let x := fod s n
  match x.recs with
  | [] => none
  | r :: _ =>
    let c0 := match edgeFrom s x.recs x.anchors t with
      | some (c, _) => c
      | none => r.cycle
    let d := edgeAt s r x.anchors c0 - lawAt r [] c0
    let ph := rampPhase (t - d - r.time) r.period qr q'
    let m := rceil ph
    let m := if m < 0 then 0 else m
    some (r.cycle + m, t + ((m : Rat) - ph) * fodPeriod s n x)

/-- The end of an uncompensated ramp for an FOD: the record of its new period, the stop of an output whose combination the new
ratio makes invalid, and the hops that waited (R112, R142, R178). `qr` is the ratio at its newest record before. -/
def rampFod (s : State) (n : Nat) (r : Retune) (qr t : Rat) : State :=
  let s := if (fod s n).running then
      match rampEdge s n qr r.q t with
      | some (c, u) => pushRecAt s n 9 0 c u (sinceOr s r.since) t
      | none => s
    else pushRecAt s n 9 0 (stoppedCycle s n) t (sinceOr s r.since) t
  let s := if comboOn s (fod s n) (fod s n).sc then s else fodHalt (setFod s n { fod s n with divInvalid := true }) n
  hopRelease (formatCheck (slowCheck s n) n none) n t

/-- The end of a ramp (R109, R112, R113, R116). -/
def rampEnd (s : State) (n : Nat) : State :=
  match (sc s n).retune with
  | none => s
  | some r =>
    if r.band then s
    else
      let t := nowR s
      let q := scQ s n
      let at_ (f : Nat) : Rat := match (fod s f).recs with
        | c :: _ => ratioNow s n c.time
        | [] => q
      let l := (fodsOn s n).map (fun f => (f, at_ f))
      let s := ratioTake s n r
      let s := if r.comp then compFods s n true (r.q / q)
        else l.foldl (fun s e => rampFod s e.1 r e.2 t) s
      scWakeEval s

/-- The end of a band calibration (R104, R105): the band's limits and the band, that of SC_ANA where BAND_MAN = 1; without a
band the loop stays open, and the limits of the nearest one stand (log entry 43). -/
def bandEnd (s : State) (n : Nat) (found : Bool) (lo hi band : Nat) : State :=
  match (sc s n).bandcal with
  | none => s
  | some w =>
    let b := if rbit s (rSC n 0x100) 6 then rb s (rSC n 0x100) 0 6 else band % 64
    let s := wr (wr s (rSC n 0x104) (lo % 65536)) (rSC n 0x108) (hi % 65536)
    if found then setSc s n { sc s n with bandcal := none, band := b, ds := [] }
    else raise (setSc s n { sc s n with bandcal := some w, band := b }) (srcSc n) kBandCalFail (rSC n 4)

/-- LOCK_SET rises (R101, R107, R110, R129, R305): a band change ends, waiting inputs switch, commands learn of it. -/
def lockRise (s : State) (n : Nat) : State :=
  let x := sc s n
  let ramp := match x.retune with
    | some r => !r.band
    | none => false
  if x.lockSet ∨ ¬ loopClosed s n ∨ ramp = true then s
  else
    let q := scQ s n
    let s := match x.retune with
      | some r => compFods (ratioTake s n r) n r.comp (r.q / q)
      | none => s
    let x := sc s n
    let s := setSc s n { x with
      lockSet := true, deadline := none, cmdRes := x.lockFor.map (fun h => (h, 0)) ++ x.cmdRes, lockFor := [] }
    let s := event s 56
    let l := (List.range 128).filter (fun f => decide ((fod s f).insel = some n))
    scWakeEval (l.foldl inputReady s)

/-- A loss of lock (R102, R158, R305). -/
def lockLoss (s : State) (n : Nat) : State :=
  if ¬ (sc s n).lockSet then s
  else
    let s := setSc s n { sc s n with lockSet := false }
    let s := event (raise (bumpM (orBits s (rSC n 4) 0x400) (rSC n 0xF0)) (srcSc n) kLossOfLock (rSC n 4)) (48 + n)
    (fodsOn s n).foldl (fun s f => if (fod s f).running then raiseFod s f kInputLost none else s) s

/-- A lock deadline passes without LOCK_SET (R103). -/
def lockMiss (s : State) (n : Nat) : State :=
  match (sc s n).deadline with
  | none => s
  | some w =>
    let s := setSc s n { sc s n with deadline := none }
    raise s (srcSc n) (match w with
      | .wake => kWakeTimeout
      | _ => kLossOfLock) (rSC n 4)

/-- The steering trail writes the entry of the microsecond that ended (R100). -/
def trailPush (s : State) (n : Nat) : State :=
  let x := sc s n
  if ¬ x.trailOn then s
  else
    let z := if x.trailAcc = 0 then x.trailZeros + 1 else 0
    setSc s n { x with
      trail := ((nowT s / 65536000 - 1, x.trailAcc) :: x.trail).take 1024, trailTotal := x.trailTotal + x.trailAcc
      trailAcc := 0, trailOn := decide (z < 1024), trailZeros := if z < 1024 then z else 0 }

/-- The FODs of a fenced SC that run switch to the candidate (R119, R180), those too that still waited for the fenced SC:
hops that waited then act. In SAFE every FOD keeps its input (R155). A software switch of the same cycle does not keep an FOD back
(R21). -/
def rehomeRun (s : State) (n : Nat) : State :=
  match (sc s n).rehome with
  | none => s
  | some (c, l) =>
    if s.fcol.safe then s else
    let s := l.foldl (fun s f =>
      if (fod s f).sc = n ∨ (fod s f).insel = some n ∨ softWrote s (rFOD f 0x10) then rehomeFod s f n c else s) s
    let s := setSc s n { sc s n with rehome := none }
    scWakeEval (l.foldl (fun s f => hopRelease s f (nowR s)) s)

end Sys2Proof.Machine
end

