-- ==== Sys2Proof/Machine/Synth.lean ====
section
/-!
DEFINITION. The commands of the synthesis cores (R93 to R124).
-/
namespace Sys2Proof.Machine

open Sys2Proof

/-- RETUNE (R107 to R112): a write of SC_CMD with RETUNE, SLOT and COMP. -/
def execRetune (m : Master) (sc : ScIx) (slot : Fin 4) (comp : Bool) (k : CycIx) (s : State) :
    Host.Outcome State Fault Refusal :=
  .next (regPutM (atCyc s k) m (rSC sc.val 8) 0xF (1 + 2 * slot.val + 8 * b2n comp))

/-- BANDCAL (R104): a write of SC_CMD.BANDCAL. -/
def execBandcal (m : Master) (sc : ScIx) (s : State) : Host.Outcome State Fault Refusal :=
  .next (regPutM s m (rSC sc.val 8) 0x10 0x10)

/-- QUEUED_RETUNE (R107, R117). -/
def execQueuedRetune (sc : ScIx) (s : State) : Host.Outcome State Fault Refusal := .next (retuneDue s sc.val)

/-- SC_RAMP_END (R109, R112, R113). -/
def execScRampEnd (sc : ScIx) (k : CycIx) (s : State) : Host.Outcome State Fault Refusal :=
  .next (rampEnd (atCyc s k) sc.val)

/-- BAND_CAL_DONE (R104, R105): `band` is the band that the search selects. -/
def execBandCalDone (sc : ScIx) (found : Bool) (lo hi band : Nat) (s : State) : Host.Outcome State Fault Refusal :=
  .next (bandEnd s sc.val found lo hi band)

/-- LOCK_FAST_SET (R101). -/
def execLockFastSet (n : ScIx) (s : State) : Host.Outcome State Fault Refusal :=
  .next (if loopClosed s n.val then setSc s n.val { sc s n.val with lockFast := true } else s)

/-- LOCK_FAST_CLEAR (R101). -/
def execLockFastClear (n : ScIx) (s : State) : Host.Outcome State Fault Refusal :=
  .next (setSc s n.val { sc s n.val with lockFast := false })

/-- LOCK_SET_RISE (R101, R129). -/
def execLockSetRise (sc : ScIx) (k : CycIx) (s : State) : Host.Outcome State Fault Refusal :=
  .next (lockRise (atCyc s k) sc.val)

/-- LOSS_OF_LOCK (R102, R158). -/
def execLossOfLock (sc : ScIx) (s : State) : Host.Outcome State Fault Refusal := .next (lockLoss s sc.val)

/-- LOCK_DEADLINE_MISS (R103). -/
def execLockDeadlineMiss (sc : ScIx) (s : State) : Host.Outcome State Fault Refusal := .next (lockMiss s sc.val)

/-- TRAIL_ENTRY (R100). -/
def execTrailEntry (sc : ScIx) (s : State) : Host.Outcome State Fault Refusal := .next (trailPush s sc.val)

/-- REHOME_SWITCH (R119). -/
def execRehomeSwitch (sc : ScIx) (k : CycIx) (s : State) : Host.Outcome State Fault Refusal :=
  .next (rehomeRun (atCyc s k) sc.val)

end Sys2Proof.Machine
end

