-- ==== Sys2Proof/Machine/DividerOps.lean ====
section
/-!
DEFINITION. What happens to the outputs of the fractional dividers: their start, drivers, slew ends, witness visits, due
actions (R135 to R147, R223, R469, R470).
-/
namespace Sys2Proof.Machine

open Sys2Proof

/-- Ticks of a picosecond. -/
def psT : Rat := 8192 / 125

/-- A write of k WM words, each with all of its mask, lowest first (R40, R45). -/
def putM (s : State) (m off : Nat) : Nat → Nat → State
  | 0, _ => s
  | k + 1, v => putM (regPutM s m off 0xFFFF (v % 65536)) m (off + 4) k (v / 65536)

/-- An FOD starts (R133, R142, R223, R224): its first divider edge is the present instant, for an aligned output the first
that lies on the grid from now on, launched FOD_ODLY earlier; a start anchor begins its history. -/
def fodBegin (s : State) (n : Nat) : State :=
  let s := slewSettle s n (nowR s)
  if ¬ startReady s n then s
  else
    let now := nowR s
    let x := foldSlew (fod s n) now
    let am := alignMode s n x
    let T := nomPeriod x.n x.f x.m x.o (scQ s x.sc)
    let adv := sx 16 (rb s (rFOD n 0x74) 0 16)
    let g := x.phi - (adv : Rat)
    let t := if am then g + ((rceil ((now - g) / T) : Int) : Rat) * T else now
    let x := { x with
      running := true, aligned := false, halting := false, dtcRes := 0, phi := if am then x.phi else 0, divFrom := t, recs := [], anchors := []
      odly := adv, trans := none, okVisits := 0, badVisits := 0, lostVisits := 0 }
    let s := pushRec (setFod s n (flagsWere now (fod s n) x)) n 1 0 0 t s.order
    let s := if rbit s (rFOD n 0x0C) 2 then driverDue s n (match x.startDue with
        | some d => if d < now then now else d
        | none => now + usT)
      else s
    formatCheck (slowCheck s n) n none

/-- The active module's number of the edge at u, in a standby whose newest checkpoint names the FOD (R223, R469). -/
def originCycle (s : State) (n : Nat) (u T : Rat) : Option Int :=
  if ¬ s.standby then none else (mateAnchor s n).map (fun a => a.cycle + rround ((u - (a.time : Rat)) / T))

/-- The ports that an output's first start since power-up gives a turn (R389). -/
def portTurns (s : State) (n : Nat) : State :=
  let ps := (portsOf s n).filter (fun p => rbit s (rPORT p 0) 3 && !s.cal.had.contains p)
  { s with cal := { s.cal with had := s.cal.had ++ ps, turns := s.cal.turns ++ ps } }

/-- A driver starts (R144, R223, R386, R389). -/
def driverStart (s : State) (n : Nat) : State :=
  let x := fod s n
  match x.startDue with
  | none => s
  | some t0 =>
    if ¬ x.running ∨ x.driving ∨ ¬ rbit s (rFOD n 0x0C) 2 ∨ calHolds s then s
    else
      let t := match x.offAt with
        | some o => if t0 < o + usT then o + usT else t0
        | none => t0
      match edgeFrom s x.recs x.anchors t with
      | none => s
      | some (_, u) =>
        let T := fodPeriod s n x
        let num := originCycle s n u T
        let s := setFod s n { x with
          driving := true, startDue := none, recs := [], anchors := [], mateNum := num.isSome }
        portTurns (pushRec s n 1 0 (num.getD 0) u s.order) n

/-- The falling edge of the output period that begins at e: that of the transitional period of a hop where it is this one,
else the middle of the period (R145, R168). -/
def fallEdge (s : State) (n : Nat) (e : Rat) : Rat :=
  let x := fod s n
  match x.trans with
  | some (a, _, f) => if a = e then f else e + (lawFrom s n x e).1 / 2
  | none => e + (lawFrom s n x e).1 / 2

/-- A driver stops at the falling edge of the period in progress (R142, R145), and with it the output whose EN is 0 or whose
combination its core makes invalid: the numbering so far is kept as the previous one (R223); where OEN is 1 again the driver
is due 1 µs later. -/
def driverStop (s : State) (n : Nat) : State :=
  let x := fod s n
  let oen := rbit s (rFOD n 0x0C) 2
  let en := fodEn s n && comboOn s x x.sc && !x.halting
  if ¬ x.driving ∨ (oen ∧ en ∧ ¬ x.cycleDrv ∧ x.startDue.isNone) then s
  else
    let e := match edgeBefore s x.recs x.anchors (nowR s) with
      | some (_, e) => e
      | none => nowR s
    let off := fallEdge s n e
    let x := { x with
      driving := false, cycleDrv := false, halting := false, offAt := some off, prev := some ⟨x.recs, x.anchors, e⟩
      running := x.running && en, aligned := x.aligned && en
      startDue := if oen && en then some (match x.startDue with
        | some d => if d < off + usT then off + usT else d
        | none => off + usT) else none }
    slowCheck (setFod s n (flagsWere (nowR s) (fod s n) x)) n

/-- The correction of a visit (R140, R156, R470): none where the FOD is frozen or the core re-initialises; an output that is not
aligned has one in a standby only. -/
def witStep (s : State) (n : Nat) (e : Rat) : Rat :=
  let x := fod s n
  let cfg := rn s 0x408008
  let lim : Rat := ((atLeast1 (bits cfg 12 8) : Nat) : Rat) * psT
  let c := e / 2 ^ bits cfg 8 4
  if x.frozen ∨ x.fenced ∨ s.fcol.safe ∨ s.corrPause ∨ ¬ (alignMode s n x ∨ s.standby) then 0
  else if c < -lim then lim else if lim < c then -lim else -c

/-- The error of a visit as the module uses it (R139, R470): in a standby, of an output that is not aligned, the distance of its
edges from those that the active module's anchors predict for the same cycles; none where no checkpoint names the FOD. -/
def witErr (s : State) (n : Nat) (e : Rat) : Option Rat :=
  let x := fod s n
  if alignMode s n x ∨ ¬ s.standby then some e
  else match mateAnchor s n, edgeAfter s x.recs x.anchors (nowR s) with
  | some a, some (c, u) => some (e + u - ((a.time : Rat) + ((c - a.cycle : Int) : Rat) * fodPeriod s n x))
  | _, _ => none

/-- ALIGNED and ALIGN_LOST after a visit (R140). -/
def witJudge (s : State) (n : Nat) (e : Rat) : State :=
  let x := fod s n
  if ¬ alignMode s n x then s
  else
    let y := foldSlew x (nowR s)
    let slewing := decide (y.pRem ≠ 0 ∨ y.tRem ≠ 0)
    let a := if e < 0 then -e else e
    let small := decide (a ≤ 3 * psT)
    let lost := decide (((atLeast1 (rb s 0x40800C 0 16) : Nat) : Rat) * psT < a) && !slewing
    let ok := if small then x.okVisits + 1 else 0
    let bad := if small then 0 else x.badVisits + 1
    let l := if lost then x.lostVisits + 1 else 0
    let al := if slewing ∨ 2 ≤ bad then false else x.aligned || decide (2 ≤ ok)
    let s := setFod s n (flagsWere (nowR s) x
      { x with aligned := al, okVisits := min ok 2, badVisits := min bad 2, lostVisits := min l 3 })
    if 3 ≤ l then raiseFod s n kAlignLost none else s

/-- DWELL of a visit in AON boundaries (R139). -/
def witDwell (s : State) : Nat := atLeast1 (rb s 0x408008 0 8) * 10

/-- Whether an FOD's period is longer than DWELL: its visits are interleaved with the others (R139). -/
def witLong (s : State) (n : Nat) : Bool :=
  let x := fod s n
  decide ((witDwell s : Rat) * 6553600 < nomPeriod x.n x.f x.m x.o (scQ s x.sc))

/-- The round of witness TDC g. -/
def wit (s : State) (g : Nat) : WitSt := mget (fun _ => witInit) s.wits g

/-- The FOD of a group that its round visits next: the running ones in ascending order, from the last visited on (R139). -/
def witNext (s : State) (g : Nat) : Option Nat :=
  ((List.range 8).map (fun i => (((wit s g).last + 1 + i) % 8))).find? (fun i =>
    (fod s (8 * g + i)).running && !witLong s (8 * g + i))

/-- Whether a visit of FOD n may end now: its turn has come and DWELL has passed since the visit before (R139). -/
def witMay (s : State) (n : Nat) : Bool :=
  witLong s n || (decide (witNext s (n / 8) = some (n % 8)) && (match (wit s (n / 8)).end_ with
    | some a => decide (a + witDwell s ≤ s.time.aon)
    | none => true))

/-- The round of a group's TDC after a visit of FOD n (R139). -/
def witDone (s : State) (n : Nat) : State :=
  if witLong s n then s
  else
    let w := { wit s (n / 8) with last := n % 8, end_ := some s.time.aon }
    { s with wits := mput (fun _ => witInit) s.wits (n / 8) w }

/-- A witness visit of FOD n with its error in ticks (R139 to R141, R154, R470). -/
def witVisit (s : State) (n : Nat) (selfOk : Bool) (e : Rat) : State :=
  let g := n / 8
  if ¬ (fod s n).running ∨ ¬ s.groups.testBit g ∨ ¬ witMay s n then s
  else
    let s := witDone s n
    if ¬ selfOk then
      let s := { s with tdcFail := s.tdcFail ||| 2 ^ g }
      upto 8 (fun s i =>
        let f := 8 * g + i
        let s := if (fod s f).tdcAt.isNone then setFod s f { fod s f with tdcAt := some (nowR s) } else s
        if (fod s f).running then raiseFod s f kWitnessFail none else s) s
    else if s.tdcFail.testBit g then s
    else
      let now := nowR s
      let s := wM s (rFOD n 0x94) 2 (tw 32 (rfloor e))
      let err := witErr s n e
      let step := match err with
        | some v => witStep s n v
        | none => 0
      let s := match edgeAfter s (fod s n).recs (fod s n).anchors now with
        | some (c, _) => pushAnchor s n c step now
        | none => s
      let y := fod s n
      let s := darkEval (setFod s n { y with
        rehomeGap := y.rehomeGap && (sc s y.sc).rehome.isSome, degraded := y.degraded && y.fenced }) n
      let v := err.getD 0
      let a := if v < 0 then -v else v
      let s := if s.mate.maxErr < a then { s with mate := { s.mate with maxErr := a } } else s
      witJudge s n e

/-- The next due action of an FOD, where it is of a kind. -/
def fodDue (s : State) (n : Nat) (p : ActKind → Bool) : State :=
  match dueAct s ((fod s n).queue.filter (fun a => !a.held)) with
  | none => s
  | some a =>
    if p a.kind then
      let w := actWhen s a
      fodActRun s n a w.1 w.2 false
    else s

/-- A sleeping group that is wanted wakes (R143), outside AON_ONLY (R496). -/
def groupWake (s : State) (g : Nat) : State :=
  if 2 ≤ pwrState s ∧ groupWanted s g ∧ ¬ s.groups.testBit g then { s with groups := s.groups ||| 2 ^ g } else s

end Sys2Proof.Machine
end

