-- ==== Sys2Proof/Machine/Divider.lean ====
section
/-!
DEFINITION. The commands of the output dividers and their phase (R125 to R158).
-/
namespace Sys2Proof.Machine

open Sys2Proof

/-- The offset and the words of a divide field (R157). -/
def divReg : DivField → Nat × Nat
  | .n => (0x14, 1)
  | .f => (0x18, 3)
  | .m => (0x24, 3)
  | .o => (0x30, 2)

/-- FOD_DIV_COMMIT (R127): the words of one divide value, its highest word committing it. -/
def execFodDivCommit (m : Master) (fod : FodIx) (fld : DivField) (v : Nat) (k : CycIx) (s : State) :
    Host.Outcome State Fault Refusal :=
  .next (putM (atCyc s k) m (rFOD fod.val (divReg fld).1) (divReg fld).2 v)

/-- FOD_INSEL_WRITE (R129). -/
def execFodInselWrite (m : Master) (fod : FodIx) (sc : ScIx) (comp : Bool) (k : CycIx) (s : State) :
    Host.Outcome State Fault Refusal :=
  .next (regPutM (atCyc s k) m (rFOD fod.val 0x10) 0xF (sc.val + 8 * b2n comp))

/-- PSTEP (R134, R135): a write of FOD_CMD.PSTEP. -/
def execPstep (m : Master) (fod : FodIx) (k : CycIx) (s : State) : Host.Outcome State Fault Refusal :=
  .next (regPutM (atCyc s k) m (rFOD fod.val 8) 1 1)

/-- PSLEW (R134, R136): a write of FOD_CMD.PSLEW. -/
def execPslew (m : Master) (fod : FodIx) (k : CycIx) (s : State) : Host.Outcome State Fault Refusal :=
  .next (regPutM (atCyc s k) m (rFOD fod.val 8) 2 2)

/-- PSTOP (R136): a write of FOD_CMD.PSTOP. -/
def execPstop (m : Master) (fod : FodIx) (k : CycIx) (s : State) : Host.Outcome State Fault Refusal :=
  .next (regPutM (atCyc s k) m (rFOD fod.val 8) 4 4)

/-- FOD_SLEW_END (R136). -/
def execFodSlewEnd (fod : FodIx) (s : State) : Host.Outcome State Fault Refusal := .next (slewFinish s fod.val)

/-- WITNESS_VISIT (R139 to R141, R470); the error is in ticks. -/
def execWitnessVisit (fod : FodIx) (selfOk : Bool) (err : Rat) (s : State) : Host.Outcome State Fault Refusal :=
  .next (witVisit s fod.val selfOk err)

/-- FOD_START (R142). -/
def execFodStart (fod : FodIx) (k : CycIx) (s : State) : Host.Outcome State Fault Refusal :=
  .next (fodBegin (atCyc s k) fod.val)

/-- FOD_GROUP_WAKE (R143). -/
def execFodGroupWake (g : Fin 16) (s : State) : Host.Outcome State Fault Refusal := .next (groupWake s g.val)

/-- OUTPUT_DRIVER_START (R144, R223). -/
def execOutputDriverStart (fod : FodIx) (s : State) : Host.Outcome State Fault Refusal := .next (driverStart s fod.val)

/-- OUTPUT_DISABLE (R142, R145). -/
def execOutputDisable (fod : FodIx) (s : State) : Host.Outcome State Fault Refusal := .next (driverStop s fod.val)

/-- QUEUED_HOP (R149, R164, R172). -/
def execQueuedHop (fod : FodIx) (s : State) : Host.Outcome State Fault Refusal :=
  .next (fodDue s fod.val (fun k => match k with
    | .hop _ => true
    | _ => false))

/-- QUEUED_PHASE_MOVE (R134 to R136). -/
def execQueuedPhaseMove (fod : FodIx) (s : State) : Host.Outcome State Fault Refusal :=
  .next (fodDue s fod.val (fun k => match k with
    | .phStep _ => true
    | .phSlew _ => true
    | _ => false))

/-- QUEUED_OEN (R144, R145, R147). -/
def execQueuedOen (fod : FodIx) (s : State) : Host.Outcome State Fault Refusal :=
  .next (fodDue s fod.val (fun k => match k with
    | .oen _ => true
    | _ => false))

end Sys2Proof.Machine
end

