-- ==== Sys2Proof/Machine/Hop.lean ====
section
/-!
DEFINITION. The commands of hopping (R159 to R185).
-/
namespace Sys2Proof.Machine

open Sys2Proof

/-- The entry that the window's fields give, each in its width (R159). -/
def hopOfFields (e : HopFields) : HopEnt :=
  { valid := e.valid, coherent := e.coherent, n := e.n % 2 ^ 12, f := e.f % 2 ^ 40, m := e.m % 2 ^ 40, o := e.o % 2 ^ 32
    phase := sx 48 (tw 48 e.phase) }

/-- The write of the thirteen window words, lowest first (R160). -/
def putHop (s : State) (m n : Nat) (v : Nat) : State :=
  upto 13 (fun s i => regPutM s m (rFOD n (0xA4 + 4 * i)) 0xFFFF (bits v (32 * i) 16)) s

/-- HOP_ENTRY_COMMIT (R160, R161): the window's writes while FOD_HOP_SEL names the entry; nothing where it names another. -/
def execHopEntryCommit (m : Master) (fod : FodIx) (entry : Fin 16) (e : HopFields) (s : State) :
    Host.Outcome State Fault Refusal :=
  .next (if rb s (rFOD fod.val 0xA0) 0 4 = entry.val then putHop s m fod.val (hopWords (hopOfFields e)) else s)

/-- HOP_GO (R164, R172): a write of FOD_HOP_CMD. -/
def execHopGo (m : Master) (fod : FodIx) (entry : Fin 16) (k : CycIx) (s : State) : Host.Outcome State Fault Refusal :=
  .next (regPutM (atCyc s k) m (rFOD fod.val 0xE0) 0xF1 (1 + 16 * entry.val))

/-- HOP_RELOAD_DONE (R171, R173). -/
def execHopReloadDone (n : FodIx) (k : CycIx) (s : State) : Host.Outcome State Fault Refusal :=
  let s := atCyc s k
  .next (hopRelease (setFod s n.val { fod s n.val with hopBusy := false }) n.val (nowR s))

/-- HOP_RATE_RELEASE (R175). -/
def execHopRateRelease (fod : FodIx) (k : CycIx) (s : State) : Host.Outcome State Fault Refusal :=
  .next (hopRelease (atCyc s k) fod.val (nowR (atCyc s k)))

end Sys2Proof.Machine
end

