-- ==== Sys2Proof/Machine/RefRows.lean ====
section
/-!
DEFINITION. What comes in at a reference (R187 to R191, R525, R529, R530) and what Screed does every interval and second (R207
to R210).
-/
namespace Sys2Proof.Machine

open Sys2Proof

/-- The WIDTH monitor of REF0 to REF3 (R190, R216): REF_WMIN in µs, REF_WMAX in 10 µs; the width in ns. -/
def widthCheck (s : State) (i width : Nat) : State :=
  if i < 4 then
    setLevel s i .width (decide (width < rb s (rREF i 0x2C) 0 16 * 1000) ||
      decide (rb s (rREF i 0x30) 0 16 * 10000 < width))
  else s

/-- An edge of a time reference with an external label or one that an input supplied (R187, R190). -/
def timeEdge (s : State) (i : Nat) (t : Int) (label : Option Nat) (width : Nat) : State :=
  if ¬ (refOn s i ∧ (i < 4 ∨ i = 8 ∨ i = 9)) then s
  else
    let s := widthCheck s i width
    let l := match label with
      | some v => some v
      | none => (ref s i).next
    match l with
    | some v => refLabel s i t v
    | none => refEdge s i t (decide (8 ≤ i) || !rbit s (rREF i 0) 6)

/-- A phase sample of a frequency reference REF4 to REF7 (R188). -/
def freqSample (s : State) (i : Nat) (e : Int) : State :=
  if refOn s i ∧ 4 ≤ i ∧ i < 8 then refSample s i (nowT s) e else s

/-- A ZDA sentence at TOD_IN i (R530). -/
def zdaIn (s : State) (i : Nat) (l : List Byte) : State :=
  if rbit s (rREF i 0) 7 ∨ ¬ isZda l then s
  else match zdaLabel s l with
    | some v => todLabel s i v
    | none => bump s (0x250 + 4 * i)

/-- A binary ToD frame at TOD_IN i (R530); bytes without its synchronisation are none. -/
def binaryIn (s : State) (i : Nat) (l : List Byte) : State :=
  if ¬ rbit s (rREF i 0) 7 ∨ l.take 2 ≠ [0xC3, 0x3C] then s
  else match todFrame l with
    | none => bump s (0x250 + 4 * i)
    | some (tai, off, fl) =>
      let s := if fl.testBit 1 ∧ off ≠ utcOff s then orBits s 0x260 (2 ^ (8 + i)) else s
      if fl.testBit 0 ∧ bits fl 4 4 ≠ 15 then todLabel s i tai else s

/-- An IRIG-B frame of input k, for REF8 + k (R187, R529): its label goes to the marker before it that waits, else to the
one to come. -/
def irigIn (s : State) (k : Nat) (f : IrigFrame) : State :=
  let i := 8 + k
  let c37 := rbit s (0x230 + 4 * k) 1
  if ¬ refOn s i then s
  else
    let s := if c37 ∧ f.hasCtl ∧ f.lsp ∧ rb s (rTIME 0x74) 0 2 ≠ (if f.ls then 2 else 1) then orBits s 0x260 (2 ^ (12 + k))
      else s
    if c37 ∧ (¬ f.hasCtl ∨ ¬ f.parOk) then setLevel (setRef s i { ref s i with edge := none }) i .tod true
    else
      let utc := irigUtc f - (if c37 then f.offset else 0)
      let six := decide (f.second = 60)
      let leap := irigLeap s i f utc
      let tai := (if c37 then irigTai s leap utc six else taiOf s utc six).toNat
      let s := if c37 then setRef s i { ref s i with leap := leap } else s
      match (ref s i).edge with
      | some t => refLabel s i t tai
      | none => setRef s i { ref s i with next := some tai }

/-- The write of an SWREF sample: four words of T_m and three of θ (R189). -/
def swrefPut (s : State) (m i tm : Nat) (theta : Int) : State :=
  upto 7 (fun s j => regPutM s m (rREF i (0x100 + 4 * j)) 0xFFFF (bits (tm + tw 48 theta * 2 ^ 64) (16 * j) 16)) s

/-- The end of a FREQ gate (R190): the offset in 2^-48; the monitor clears at 3/4 of the window. -/
def freqGate (s : State) (i : Nat) (off : Int) : State :=
  if ¬ refOn s i then s
  else
    let w := atLeast1 (rb s (rREF i 0x20) 0 16)
    let s := wM s (rREF i 0x5C) 3 (tw 40 off)
    let a := off.natAbs * 1000000000
    if w * 2 ^ 48 < a then setLevel s i .freq true
    else if a * 4 ≤ 3 * w * 2 ^ 48 then setLevel s i .freq false
    else s

/-- The qualification timer runs out (R191). -/
def qualTimer (s : State) (i : Nat) : State := if refBit s i 0 ∧ refBit s i 2 then refQualify s i else s

/-- A level monitor has failed for REF_DISQ_T (R191). -/
def disqTimer (s : State) (i : Nat) (m : Monitor) : State :=
  if m ≠ .pjump ∧ refOn s i ∧ refBit s i (monBits m).1 ∧ monOn s i m then disqualify s i (monBits m).2.2 else s

-- Screed

/-- Whether the newest sample is an outlier of the fit that takes it in (R208). -/
def scrOutlier (s : State) (samples : List (Int × Int × Int × Nat)) (cs : List Rat) : Bool :=
  match samples with
  | [] => false
  | p :: _ =>
    let row (q : Int × Int × Int × Nat) : List Rat × Rat := scrRow p.1 (sx 16 (rn s (rSCR 0x34) % 65536)) (decide (cs.length = 4)) q
    let r : Rat := scrRes cs (row p)
    let sum : Rat := samples.foldl (fun (a : Rat) q => a + (q.2.2.2 : Rat) * (scrRes cs (row q)) ^ 2) 0
    let n : Rat := ((samples.foldl (fun (a : Nat) q => a + q.2.2.2) 0 : Nat) : Rat)
    let th : Rat := ((atLeast1 (rb s (rSCR 0x48) 0 8) : Nat) : Rat)
    decide (th * th * sum < (256 : Rat) * n * (r * r))

/-- Screed takes a sample (R208): a refit, unless the sample is an outlier of it. -/
def scrTake (s : State) (p : Int × Int × Int × Nat) : State :=
  let l := p :: s.scr.samples.filter (fun q => decide (p.1 - q.1 ≤ 604800))
  let f := scrFit s l
  let s := f.1
  match f.2 with
  | none => scrShow { s with scr := { s.scr with samples := l } }
  | some cs =>
    if scrOutlier s l cs then bump (orBits s (rSCR 4) 4) (rSCR 0x4C)
    else scrShow (scrStore s cs l p.1)

/-- The end of a Screed interval (R207) with its mean temperature: the next interval begins. An interval in which LEARN was
0, or the module in WARM (R497), gives no sample. -/
def scrInterval (s : State) (theta : Int) : State :=
  if ¬ s.coreAwake then s
  else
    let t : Int := nowT s
    let good := s.scr.good && decide ((dp s 0).st = 2) && !(dp s 0).psl && rbit s (rSCR 0) 0 &&
      decide (rb s (rPWR 4) 1 3 ≠ 2)
    let from_ := s.scr.from_
    let s := { s with scr := { s.scr with from_ := t, good := rbit s (rSCR 0) 0 } }
    match (if good then meanWord (dp s 0).words from_ t else none) with
    | some q => scrTake s (t / (secTicks : Int), Config.roundWord q, theta, 1)
    | none => s

/-- E(t) of R210 in ps. -/
def scrEst (s : State) (t : Rat) : Rat :=
  s.scr.e0 + 10 ^ 12 * (s.scr.sf * t + s.scr.sa * t ^ 2 / 2 + s.scr.sT * s.scr.area)

/-- A second of holdover (R210). -/
def scrSecond (s : State) (theta : Int) : State :=
  let s := wr { s with scr := { s.scr with temps := ((nowT s : Int), sx 16 (tw 16 theta)) :: s.scr.temps } } (rSCR 0x30) (tw 16 theta)
  match s.scr.entry with
  | none => s
  | some t0 =>
    let dth : Rat := ((theta - sx 16 (rn s (rSCR 0x34) % 65536)).natAbs : Rat) / 256
    let s := { s with scr := { s.scr with area := s.scr.area + dth } }
    let e := scrEst s ((((nowT s : Int) - t0 : Int) : Rat) / (secTicks : Rat))
    let v := min (rfloor e).toNat (ones 32)
    let s := wr s (rSCR 0x40) v
    if ¬ s.scr.limRaised ∧ ((rn s (rSCR 0x44) * 1000 : Nat) : Rat) < e then
      raise { s with scr := { s.scr with limRaised := true } } (srcDp 0) kHoldoverLimit (rDP 0 4)
    else s

/-- The wait to restore of a DPLL is over: its selection is judged (R194, R195). -/
def wtrEnd (s : State) (d : Nat) : State :=
  if (dp s d).wait.isSome then dpEval (setDp s d { dp s d with waitOver := true }) d else s

end Sys2Proof.Machine
end

