-- ==== Sys2Proof/Machine/Refs.lean ====
section
/-!
DEFINITION. The commands of references, DPLLs and holdover (R186 to R218, R529, R530).
-/
namespace Sys2Proof.Machine

open Sys2Proof

/-- REF_TIME_EVENT (R187, R190, R525): the edge's device time in ticks and its pulse width in ns. -/
def execRefTimeEvent (i : RefIx) (tEdge : Int) (label : Option Nat) (width : Nat) (s : State) :
    Host.Outcome State Fault Refusal :=
  .next (timeEdge s i.val tEdge label width)

/-- REF_FREQ_SAMPLE (R188). -/
def execRefFreqSample (i : RefIx) (phase : Int) (s : State) : Host.Outcome State Fault Refusal :=
  .next (freqSample s i.val phase)

/-- ZDA_SENTENCE (R187, R530). -/
def execZdaSentence (i : Fin 4) (bytes : List Byte) (s : State) : Host.Outcome State Fault Refusal :=
  .next (zdaIn s i.val bytes)

/-- BINARY_TOD_FRAME (R187, R530). -/
def execBinaryTodFrame (i : Fin 4) (bytes : List Byte) (s : State) : Host.Outcome State Fault Refusal :=
  .next (binaryIn s i.val bytes)

/-- IRIG_IN_FRAME (R187, R529). -/
def execIrigInFrame (i : Fin 2) (f : IrigFrame) (s : State) : Host.Outcome State Fault Refusal :=
  .next (irigIn s i.val f)

/-- SWREF_SAMPLE (R189): the writes of SWREF_SAMPLE, the last one committing. -/
def execSwrefSample (m : Master) (i : Fin 4) (tm : BitVec 64) (theta : Int) (k : CycIx) (s : State) :
    Host.Outcome State Fault Refusal :=
  .next (swrefPut (atCyc s k) m (12 + i.val) tm.toNat theta)

/-- REF_LOS (R190). -/
def execRefLos (i : RefIx) (s : State) : Host.Outcome State Fault Refusal :=
  .next (if refOn s i.val then setLevel s i.val .los true else s)

/-- REF_FREQ_GATE (R190). -/
def execRefFreqGate (i : RefIx) (offset : Int) (s : State) : Host.Outcome State Fault Refusal :=
  .next (freqGate s i.val offset)

/-- REF_QUAL_TIMER (R191). -/
def execRefQualTimer (i : RefIx) (s : State) : Host.Outcome State Fault Refusal := .next (qualTimer s i.val)

/-- REF_DISQ_TIMER (R191). -/
def execRefDisqTimer (i : RefIx) (mon : Monitor) (s : State) : Host.Outcome State Fault Refusal :=
  .next (disqTimer s i.val mon)

/-- REQUAL (R192): a write of REF_CMD.REQUAL. -/
def execRequal (m : Master) (i : RefIx) (s : State) : Host.Outcome State Fault Refusal :=
  .next (regPutM s m (rREF i.val 8) 1 1)

/-- QNOW (R192): a write of REF_CMD.QNOW. -/
def execQnow (m : Master) (i : RefIx) (s : State) : Host.Outcome State Fault Refusal :=
  .next (regPutM s m (rREF i.val 8) 2 2)

/-- WTR_EXPIRY (R194, R195). -/
def execWtrExpiry (d : DpIx) (s : State) : Host.Outcome State Fault Refusal := .next (if s.coreAwake then wtrEnd s d.val else s)

/-- RESEL (R194): a write of DP_CMD.RESEL. -/
def execResel (m : Master) (d : DpIx) (s : State) : Host.Outcome State Fault Refusal :=
  .next (regPutM s m (rDP d.val 8) 1 1)

/-- CLRHIST (R217): a write of DP_CMD.CLRHIST. -/
def execClrhist (m : Master) (d : DpIx) (s : State) : Host.Outcome State Fault Refusal :=
  .next (regPutM s m (rDP d.val 8) 2 2)

/-- SCREED_SAMPLE (R207, R208). -/
def execScreedSample (theta : Int) (s : State) : Host.Outcome State Fault Refusal := .next (scrInterval s theta)

/-- SCREED_TE_UPDATE (R210). -/
def execScreedTeUpdate (theta : Int) (s : State) : Host.Outcome State Fault Refusal :=
  .next (if s.coreAwake then scrSecond s theta else s)

/-- SCREED_CLEAR (R211): SCR_CTRL.CLEAR through the set view. -/
def execScreedClear (m : Master) (s : State) : Host.Outcome State Fault Refusal :=
  .next (regPut s m (0x1000000 + rSCR 0) 8)

end Sys2Proof.Machine
end

