-- ==== Sys2Proof/Machine/PortRows.lean ====
section
/-!
DEFINITION. What the lanes, the corrections and the ports' calibrations do of themselves (R230 to R233, R245, R251 to
R257).
-/
namespace Sys2Proof.Machine

open Sys2Proof

/-- A block that starts no message of an event lane (R221). -/
def badIn (s : State) (l : Nat) : State :=
  if (lane s l).el ∧ ¬ elFenced s l then badBlk (closePend s l) l else s

/-- The audit interval ends: a marker goes out while the link is up (R231, R233). -/
def markerDue (s : State) (l : Nat) : State := if (lane s l).up then sendMarker s l else s

/-- A marker's echo has not come in time (R231). -/
def auditLate (s : State) (l : Nat) : State :=
  match (lane s l).marker with
  | none => s
  | some _ => auditFail (bump (setLane s l { lane s l with marker := none }) (rEL l 0x0C)) l

/-- Whether a slot is that of a pair and may be freed: its event is converted and looked up (R230, R270). -/
def slotDone (tag : Nat) (g : Bool) (x : ESlot) : Bool :=
  decide (x.ev.tag.toNat = tag) && decide (x.ev.gen = g) && !x.open_ && !x.waits

/-- The oldest such slot of a pair is freed, and its credit returns while the link is up (R230, R231, R233). -/
def slotRelease (s : State) (l tag : Nat) (g : Bool) : State :=
  let x := lane s l
  match x.slots.find? (slotDone tag g) with
  | none => s
  | some y =>
    let r := y.ev.reserve
    let x := { x with slots := x.slots.erase y }
    if x.up then
      let m := x.marker.map (fun q => (q.1, q.2.1 + b2n (!r), q.2.2 + b2n r))
      clSend (setLane s l { x with marker := m }) l (creditMsg false (b2n (!r)) (b2n r))
    else setLane s l x

/-- A lane that held block lock loses it (R233, R261). -/
def lockLost (s : State) (l : Nat) (cl : Bool) : State :=
  let x := lane s l
  if (if cl then x.cl else x.el) then
    let s := linkDown (setLane s l (if cl then { x with cl := false } else { x with el := false })) l
    if cl then raise s (srcCl l) kLaneDown (rCL l 4) else raise s (srcEl l) kLaneDown (rEL l 4)
  else s

/-- The correction of a pair that is due first on a lane. -/
def corrOf (s : State) (l tag : Nat) (g : Bool) : Option Corr :=
  (lane s l).corrs.find? (fun c => decide (c.ev.tag.toNat = tag) && decide (c.ev.gen = g) && !c.wait)

/-- The correction of a pair that is due first on a lane is formed and sent (R253); none in SAFE (R258). -/
def corrDue (s : State) (l tag : Nat) (g : Bool) (ns : Nat) : State :=
  match corrOf s l tag g with
  | none => s
  | some c =>
    let s := setLane s l { lane s l with corrs := (lane s l).corrs.erase c }
    owedRun (if s.fcol.safe then s else corrSend s l c ns)

/-- The wait for an ingress entry ends without one for the correction of a pair that has waited longest on a lane:
NO_INGRESS (R251). -/
def waitEnd (s : State) (l tag : Nat) (g : Bool) : State :=
  match (waitingFor s tag g).find? (fun q => decide (q.1 = l)) with
  | some q => setCorr s q.1 q.2.1 { q.2.2 with wait := false, why := 1 }
  | none => s

/-- An ingress entry retires 1 ms after its SFD (R254). -/
def ageRetire (s : State) (tag : Nat) (g : Bool) : State :=
  match ingOf s tag g with
  | some i => retire s i 1
  | none => s

/-- The previous numbering of an FOD's output ends 1 ms after the count origin (R223). -/
def prevDrop (s : State) (n : Nat) : State :=
  if (fod s n).driving then setFod s n { fod s n with prev := none } else s

/-- 2 ms have passed since a port's CAL_REQ (R245, R246); the next port of the lane may take its turn (R389). -/
def calStop (s : State) (p : Nat) : State := laneTurns (calFinish s p) (p / 8)

end Sys2Proof.Machine
end

