-- ==== Sys2Proof/Machine/Ports.lean ====
section
/-!
DEFINITION. The commands of port timestamping and corrections (R219 to R261, R547).
-/
namespace Sys2Proof.Machine

open Sys2Proof

/-- EVENT (R222, R229, R232 to R234): after it, a port of the lane may take its calibration turn (R389). -/
def execEvent (lane : LaneIx) (e : EventMsg) (k : CycIx) (s : State) : Host.Outcome State Fault Refusal :=
  .next (laneTurns (eventIn (atCyc s k) lane.val e) lane.val)

/-- TAP (R225). -/
def execTap (lane : LaneIx) (t : TapMsg) (k : CycIx) (s : State) : Host.Outcome State Fault Refusal :=
  .next (laneTurns (tapIn (atCyc s k) lane.val t) lane.val)

/-- BEACON (R226, R242, R244, R247, R389). -/
def execBeacon (lane : LaneIx) (b : BeaconMsg) (k : CycIx) (s : State) : Host.Outcome State Fault Refusal :=
  .next (beaconIn (atCyc s k) lane.val b)

/-- ABORT (R227, R255, R283). -/
def execAbort (lane : LaneIx) (_pil : Fin 8) (tag : BitVec 16) (gen : Bool) (k : CycIx) (s : State) :
    Host.Outcome State Fault Refusal :=
  .next (abortIn (atCyc s k) lane.val tag.toNat gen)

/-- CREDIT_SYNC_ECHO (R231, R233). -/
def execCreditSyncEcho (lane : LaneIx) (n : BitVec 8) (fg fr : Nat) (s : State) : Host.Outcome State Fault Refusal :=
  .next (echoIn (closePend s lane.val) lane.val n.toNat fg fr)

/-- BAD_BLOCK (R221). -/
def execBadBlock (lane : LaneIx) (s : State) : Host.Outcome State Fault Refusal := .next (badIn s lane.val)

/-- CREDIT_SYNC_MARKER (R231, R233). -/
def execCreditSyncMarker (lane : LaneIx) (s : State) : Host.Outcome State Fault Refusal := .next (markerDue s lane.val)

/-- CREDIT_AUDIT_TIMEOUT (R231). -/
def execCreditAuditTimeout (lane : LaneIx) (s : State) : Host.Outcome State Fault Refusal :=
  .next (auditLate s lane.val)

/-- SLOT_FREE (R230). -/
def execSlotFree (lane : LaneIx) (tag : BitVec 16) (gen : Bool) (s : State) : Host.Outcome State Fault Refusal :=
  .next (slotRelease s lane.val tag.toNat gen)

/-- CREDIT_LINK_UP (R233). -/
def execCreditLinkUp (lane : LaneIx) (s : State) : Host.Outcome State Fault Refusal := .next (linkUp s lane.val)

/-- LANE_DOWN (R233, R261). -/
def execLaneDown (lane : LaneIx) (cl : Bool) (s : State) : Host.Outcome State Fault Refusal :=
  .next (lockLost s lane.val cl)

/-- CORRECTION (R248 to R253). -/
def execCorrection (lane : LaneIx) (tag : BitVec 16) (gen : Bool) (latency : Nat) (s : State) :
    Host.Outcome State Fault Refusal :=
  .next (corrDue s lane.val tag.toNat gen latency)

/-- PAIR_WAIT_EXPIRY (R251): the word with NO_INGRESS is then due. -/
def execPairWaitExpiry (lane : LaneIx) (tag : BitVec 16) (gen : Bool) (s : State) :
    Host.Outcome State Fault Refusal :=
  .next (if s.coreAwake then waitEnd s lane.val tag.toNat gen else s)

/-- INGRESS_AGE_RETIRE (R254, R282). -/
def execIngressAgeRetire (tag : BitVec 16) (gen : Bool) (k : CycIx) (s : State) : Host.Outcome State Fault Refusal :=
  .next (if s.coreAwake then ageRetire (atCyc s k) tag.toNat gen else s)

/-- PREV_NUMBERING_EXPIRY (R223). -/
def execPrevNumberingExpiry (fod : FodIx) (s : State) : Host.Outcome State Fault Refusal :=
  .next (if s.coreAwake then prevDrop s fod.val else s)

/-- RESYNC (R242): a write of PORT_CMD.RESYNC. -/
def execResync (m : Master) (port : PortIx) (k : CycIx) (s : State) : Host.Outcome State Fault Refusal :=
  .next (regPutM (atCyc s k) m (rPORT port.val 0x08) 1 1)

/-- PORT_FOD_WRITE (R224, R242): a write of PORT_FOD. -/
def execPortFodWrite (m : Master) (port : PortIx) (fod : FodIx) (k : CycIx) (s : State) :
    Host.Outcome State Fault Refusal :=
  .next (regPutM (atCyc s k) m (rPORT port.val 0x0C) 0x7F fod.val)

/-- CAL_STOP_TIMEOUT (R245, R246). -/
def execCalStopTimeout (port : PortIx) (k : CycIx) (s : State) : Host.Outcome State Fault Refusal :=
  .next (calStop (atCyc s k) port.val)

end Sys2Proof.Machine
end

