-- ==== Sys2Proof/Machine/CapRows.lean ====
section
/-!
DEFINITION. What the classifier and the rings do of themselves (R270, R273, R279, R287 to R290).
-/
namespace Sys2Proof.Machine

open Sys2Proof

/-- Whether a slot is that of a pair and waits for its lookup. -/
def slotWaits (tag : Nat) (g : Bool) (x : ESlot) : Bool :=
  decide (x.ev.tag.toNat = tag) && decide (x.ev.gen = g) && x.waits

/-- Whether a slot is a class-0 ingress tap that waits for its lookup (R249, R270). -/
def slotFirst (x : ESlot) : Bool := x.waits && decide (x.ev.cls = 0) && !x.ev.tx && x.tap.isSome

/-- Whether a lane's slot is the next to be looked up: a class-0 ingress tap, else the oldest that waits on its lane while no
class-0 ingress tap waits on any (R270). -/
def slotNext (s : State) (l : Nat) (x : ESlot) : Bool :=
  slotFirst x || (!s.lanes.any (fun p => p.2.slots.any slotFirst) && decide ((lane s l).slots.find? (·.waits) = some x))

/-- A waiting slot of a pair is looked up, its class-0 ingress tap before its others, where it is the next (R270); else it goes on
waiting. -/
def lookupRun (s : State) (l tag : Nat) (g : Bool) : State :=
  let x := lane s l
  match (x.slots.find? (fun y => slotWaits tag g y && slotFirst y)).orElse (fun _ => x.slots.find? (slotWaits tag g)) with
  | none => s
  | some y => if ¬ slotNext s l y then s else lookup (setLane s l { x with slots := x.slots.map (fun w => if w = y then { w with waits := false } else w) }) l y

/-- A drain ends when the old generation's in-flight count is zero (R273). -/
def drainEnd (s : State) : State :=
  if ecamDraining s ∧ inFlightOf s (1 - ecamActive s) = 0 then orBits (wb s 0x600004 1 1 0) 0x600004 0x100 else s

/-- A microsecond's tokens for a ring (R279). -/
def tokensAdd (s : State) (n : Nat) : State :=
  if rbit s (rRING n 0) 1 then
    let x := ring s n
    setRing s n { x with tokens := min (x.tokens + rn s (rRING n 0x20)) (atLeast1 (rb s (rRING n 0x24) 0 17) * 65536) }
  else s

/-- The counts of the occupied slots of ring n that fall on a slot of the capture RAM. -/
def ringHits (s : State) (n slot : Nat) : List Nat :=
  let x := ring s n
  ((List.range (ringFill x)).map (fun i => x.rd + i)).filter (fun k => decide (ringSlot s n k = slot))

/-- An uncorrectable error in a slot (R287). -/
def eccBad (s : State) (slot : Nat) : State :=
  let s := upto 16 (fun s n => (ringHits s n slot).foldl (fun s k => ringVoid s n k) s) s
  raise (bump s 0x70804C) srcCap kEccUncorr slot

/-- A parity error in an ECAM entry (R288): software's write of ECAM_ENT in the same cycle counts. -/
def parityBad (s : State) (e : Nat) : State :=
  let s := if softWrote s (rENT e 0x54) then bump s 0x600034 else s
  raise (orBits (clrBits s (rENT e 0x54) 1) (rENT e 0x54) 4) srcEcam kParity (rENT e 0x54)

/-- The signatures of both generations (R290). -/
def sigUpdate (s : State) : State := wr (wr s 0x600014 (ecamSig s 0)) 0x600018 (ecamSig s 1)

end Sys2Proof.Machine
end

