-- ==== Sys2Proof/Machine/Classify.lean ====
section
/-!
DEFINITION. The commands of classification and capture (R262 to R291).
-/
namespace Sys2Proof.Machine

open Sys2Proof

/-- ECAM_LOOKUP (R268 to R281). -/
def execEcamLookup (lane : LaneIx) (tag : BitVec 16) (gen : Bool) (k : CycIx) (s : State) :
    Host.Outcome State Fault Refusal :=
  .next (lookupRun (atCyc s k) lane.val tag.toNat gen)

/-- ECAM_ENTRY_WRITE (R271): a write of a word of an entry, up to ECAM_ENT. -/
def execEcamEntryWrite (m : Master) (e : Fin 512) (word : Fin 22) (v : Word) (s : State) :
    Host.Outcome State Fault Refusal :=
  .next (regPut s m (rENT e.val (4 * word.val)) v.toNat)

/-- GEN_SWITCH (R273): a write of ECAM_GEN.SWITCH through the set view. -/
def execGenSwitch (m : Master) (s : State) : Host.Outcome State Fault Refusal :=
  .next (regPut s m (0x1000000 + 0x600004) 4)

/-- DRAIN_COMPLETE (R273). -/
def execDrainComplete (s : State) : Host.Outcome State Fault Refusal := .next (if s.coreAwake then drainEnd s else s)

/-- RING_CFG_WRITE (R276). -/
def execRingCfgWrite (m : Master) (ring : RingIx) (v : Word) (s : State) : Host.Outcome State Fault Refusal :=
  .next (regPut s m (rRING ring.val 0) v.toNat)

/-- FLUSH (R286): a write of RING_CFG.FLUSH through the set view. -/
def execFlush (m : Master) (ring : RingIx) (s : State) : Host.Outcome State Fault Refusal :=
  .next (regPut s m (0x1000000 + rRING ring.val 0) 4)

/-- RING_RD_WRITE (R284, R285). -/
def execRingRdWrite (m : Master) (ring : RingIx) (v : Word) (s : State) : Host.Outcome State Fault Refusal :=
  .next (regPut s m (rRING ring.val 0x0C) v.toNat)

/-- TOKEN_REFILL (R279). -/
def execTokenRefill (ring : RingIx) (s : State) : Host.Outcome State Fault Refusal :=
  .next (if s.coreAwake then tokensAdd s ring.val else s)

/-- ECC_UNCORR (R287). -/
def execEccUncorr (slot : Fin 65536) (s : State) : Host.Outcome State Fault Refusal := .next (eccBad s slot.val)

/-- PARITY (R288). -/
def execParity (e : Fin 512) (s : State) : Host.Outcome State Fault Refusal :=
  .next (if s.coreAwake then parityBad s e.val else s)

/-- ECAM_SIG_UPDATE (R290). -/
def execEcamSigUpdate (s : State) : Host.Outcome State Fault Refusal := .next (if s.coreAwake then sigUpdate s else s)

end Sys2Proof.Machine
end

