-- ==== Sys2Proof/Machine/Operands.lean ====
section
/-!
DEFINITION. The Oarva instruction words (R321 to R339): their operand forms as plain data, decoding with every check of
R322, and an encoder written from the same formats.
-/
namespace Sys2Proof.Machine

open Sys2Proof

/-- The operations of opcode 0x02 by func (R327). -/
inductive AluOp where
  | add | addc | sub | subc | and | or | xor | andn | shl | shr | sar | mul | mulhu | mulhs | cmp | tst
  deriving DecidableEq, Repr

/-- The loads by opcode (R331). -/
inductive LoadOp where
  | ldw | ldh | ldhu | ldb | ldbu
  deriving DecidableEq, Repr

/-- The stores by opcode (R331). -/
inductive StoreOp where
  | stw | sth | stb
  deriving DecidableEq, Repr

/-- The immediate operations of format I that name rd and ra and take 16 bits (R328). -/
inductive ImmOp where
  | addi | andi | ori | xori
  deriving DecidableEq, Repr

/-- The shifts by an immediate (R328). -/
inductive ShiftOp where
  | shli | shri | sari
  deriving DecidableEq, Repr

/-- The operations of SYS without a register (R339). -/
inductive SysOp where
  | nop | halt | trap | fence
  deriving DecidableEq, Repr

/-- An instruction with its operands. A register pair is the number of its even register halved (R293). -/
inductive OInstr where
  | alu (op : AluOp) (rd ra rb : Fin 32)
  | imm (op : ImmOp) (rd ra : Fin 32) (v : Fin 65536)
  | cmpi (ra : Fin 32) (v : Fin 65536)
  | lui (rd : Fin 32) (v : Fin 65536)
  | shift (op : ShiftOp) (rd ra sh : Fin 32)
  | load (op : LoadOp) (rd ra : Fin 32) (v : Fin 65536)
  | store (op : StoreOp) (rd ra : Fin 32) (v : Fin 65536)
  | bcc (cond : Fin 15) (target : Fin 4096)
  | bl (target : Fin 4096)
  | jr (ra : Fin 32)
  | jalr (rd ra : Fin 32)
  | rdreg (rd ra : Fin 32) (view : Fin 4) (v : Fin 16384)
  | wrreg (rd ra : Fin 32) (view : Fin 4) (v : Fin 16384)
  | hopAt (rt : Fin 16) (rn : Fin 32) (entry : Fin 16) (tgt : Fin 128)
  | phsFod (rt ra : Fin 16) (rn : Fin 32) (slew : Bool) (tgt : Fin 128)
  | phsPlain (rt ra : Fin 16) (slew : Bool)
  | ratSc (rt : Fin 16) (rn : Fin 32) (slot : Fin 4) (comp : Bool) (tgt : Fin 128)
  | ratRate (rt ra : Fin 16)
  | ratStop (rt : Fin 16)
  | oenAt (rt : Fin 16) (rn : Fin 32) (v : Bool) (tgt : Fin 128)
  | gangAt (rt ra : Fin 16) (rn : Fin 32) (kind : Fin 4) (tgt : Fin 128)
  | snapAt (rt : Fin 16)
  | tnow (rd : Fin 16)
  | waitT (rt : Fin 16)
  | waitE (rd ra : Fin 16)
  | post (ra : Fin 32) (n : Fin 25) (code : Fin 256)
  | sig (ra : Fin 32) (k : Fin 8)
  | sys (op : SysOp)
  | coreid (rd : Fin 32)
  deriving DecidableEq, Repr

/-- The rows of the opcode table that instructions are, by what the core issues. -/
inductive Mn where
  | addi | add | addc | sub | subc | and | or | xor | andn | shl | shr | sar | mul | mulhu | mulhs | cmp | tst
  | cmpi | andi | ori | xori | lui | shli | shri | sari | ldw | ldh | ldhu | ldb | ldbu | stw | sth | stb
  | bcc | bl | jr | jalr | rdreg | wrreg | hopAt | phsAt | ratAt | oenAt | gangAt | snapAt | tnow | waitT | waitE
  | post | sig | nop | halt | trap | fence | coreid
  deriving DecidableEq, Repr

/-- The row of an instruction. -/
def OInstr.mn : OInstr → Mn
  | .alu op _ _ _ => match op with
    | .add => .add | .addc => .addc | .sub => .sub | .subc => .subc | .and => .and | .or => .or | .xor => .xor
    | .andn => .andn | .shl => .shl | .shr => .shr | .sar => .sar | .mul => .mul | .mulhu => .mulhu
    | .mulhs => .mulhs | .cmp => .cmp | .tst => .tst
  | .imm op _ _ _ => match op with
    | .addi => .addi | .andi => .andi | .ori => .ori | .xori => .xori
  | .cmpi _ _ => .cmpi
  | .lui _ _ => .lui
  | .shift op _ _ _ => match op with
    | .shli => .shli | .shri => .shri | .sari => .sari
  | .load op _ _ _ => match op with
    | .ldw => .ldw | .ldh => .ldh | .ldhu => .ldhu | .ldb => .ldb | .ldbu => .ldbu
  | .store op _ _ _ => match op with
    | .stw => .stw | .sth => .sth | .stb => .stb
  | .bcc _ _ => .bcc
  | .bl _ => .bl
  | .jr _ => .jr
  | .jalr _ _ => .jalr
  | .rdreg _ _ _ _ => .rdreg
  | .wrreg _ _ _ _ => .wrreg
  | .hopAt _ _ _ _ => .hopAt
  | .phsFod _ _ _ _ _ => .phsAt
  | .phsPlain _ _ _ => .phsAt
  | .ratSc _ _ _ _ _ => .ratAt
  | .ratRate _ _ => .ratAt
  | .ratStop _ => .ratAt
  | .oenAt _ _ _ _ => .oenAt
  | .gangAt _ _ _ _ _ => .gangAt
  | .snapAt _ => .snapAt
  | .tnow _ => .tnow
  | .waitT _ => .waitT
  | .waitE _ _ => .waitE
  | .post _ _ _ => .post
  | .sig _ _ => .sig
  | .sys op => match op with
    | .nop => .nop | .halt => .halt | .trap => .trap | .fence => .fence
  | .coreid _ => .coreid

/-- The number below n with value v modulo n. -/
def fin (n v : Nat) (h : 0 < n := by decide) : Fin n := ⟨v % n, Nat.mod_lt v h⟩

/-- The ALU operation of a func. -/
def aluOf (f : Nat) : AluOp :=
  match f with
  | 0 => .add | 1 => .addc | 2 => .sub | 3 => .subc | 4 => .and | 5 => .or | 6 => .xor | 7 => .andn | 8 => .shl
  | 9 => .shr | 10 => .sar | 11 => .mul | 12 => .mulhu | 13 => .mulhs | 14 => .cmp | _ => .tst

/-- The func of an ALU operation (R327). -/
def aluFunc : AluOp → Nat
  | .add => 0 | .addc => 1 | .sub => 2 | .subc => 3 | .and => 4 | .or => 5 | .xor => 6 | .andn => 7 | .shl => 8
  | .shr => 9 | .sar => 10 | .mul => 11 | .mulhu => 12 | .mulhs => 13 | .cmp => 14 | .tst => 15

/-- Whether an ALU operation discards its result, so that its rd is zero (R327). -/
def aluNoRd : AluOp → Bool
  | .cmp => true
  | .tst => true
  | _ => false

/-- A timed action of format A (R333): rt, ra, rn, OPT and TGT. -/
def decodeAct (op rt ra rn opt tgt : Nat) : Option OInstr :=
  if rt % 2 = 1 then none
  else
    let t := fin 16 (rt / 2)
    let r := fin 32 rn
    let g := fin 128 tgt
    let a := fin 16 (ra / 2)
    if op = 0x30 then if ra = 0 then some (.hopAt t r (fin 16 opt) g) else none
    else if op = 0x31 then
      if ra % 2 = 1 ∨ 4 ≤ opt then none
      else if opt % 2 = 1 then if rn = 0 ∧ tgt = 0 then some (.phsPlain t a (decide (2 ≤ opt))) else none
      else some (.phsFod t a r (decide (2 ≤ opt)) g)
    else if op = 0x32 then
      if opt % 2 = 0 then
        if ra = 0 then some (.ratSc t r (fin 4 (opt / 2)) (decide (8 ≤ opt)) g) else none
      else if opt = 1 ∧ rn = 0 ∧ tgt = 0 ∧ ra % 2 = 0 then some (.ratRate t a)
      else if opt = 3 ∧ rn = 0 ∧ tgt = 0 ∧ ra = 0 then some (.ratStop t)
      else none
    else if op = 0x33 then if ra = 0 ∧ opt < 2 then some (.oenAt t r (decide (opt = 1)) g) else none
    else if op = 0x34 then if ra % 2 = 0 ∧ opt < 4 then some (.gangAt t a r (fin 4 opt) g) else none
    else if op = 0x35 then if ra = 0 ∧ rn = 0 ∧ opt = 0 ∧ tgt = 0 then some (.snapAt t) else none
    else none

/-- Format I (R328, R331). -/
def decodeImm (op rd ra v : Nat) : Option OInstr :=
  let d := fin 32 rd
  let a := fin 32 ra
  let w := fin 65536 v
  if op = 0x01 then some (.imm .addi d a w)
  else if op = 0x03 then if rd = 0 then some (.cmpi a w) else none
  else if op = 0x04 then some (.imm .andi d a w)
  else if op = 0x05 then some (.imm .ori d a w)
  else if op = 0x06 then some (.imm .xori d a w)
  else if op = 0x07 then if ra = 0 then some (.lui d w) else none
  else if op = 0x08 then if v < 32 then some (.shift .shli d a (fin 32 v)) else none
  else if op = 0x09 then if v < 32 then some (.shift .shri d a (fin 32 v)) else none
  else if op = 0x0A then if v < 32 then some (.shift .sari d a (fin 32 v)) else none
  else if op = 0x10 then some (.load .ldw d a w)
  else if op = 0x11 then some (.load .ldh d a w)
  else if op = 0x12 then some (.load .ldhu d a w)
  else if op = 0x13 then some (.load .ldb d a w)
  else if op = 0x14 then some (.load .ldbu d a w)
  else if op = 0x18 then some (.store .stw d a w)
  else if op = 0x19 then some (.store .sth d a w)
  else if op = 0x1A then some (.store .stb d a w)
  else none

/-- The formats R, B, G, W, P, S and Y (R321), and the rest. -/
def decodeRest (op rd ra rb lo11 v : Nat) : Option OInstr :=
  let d := fin 32 rd
  let a := fin 32 ra
  if op = 0x02 then
    if 16 ≤ lo11 then none
    else
      let f := aluOf lo11
      if aluNoRd f ∧ rd ≠ 0 then none else some (.alu f d a (fin 32 rb))
  else if op = 0x20 then
    if rd % 2 = 0 ∧ ra = 0 ∧ v < 4096 ∧ rd / 2 ≠ 15 then some (.bcc (fin 15 (rd / 2)) (fin 4096 v)) else none
  else if op = 0x21 then if rd = 0 ∧ ra = 0 ∧ v < 4096 then some (.bl (fin 4096 v)) else none
  else if op = 0x22 then if rd = 0 ∧ v = 0 then some (.jr a) else none
  else if op = 0x23 then if v = 0 then some (.jalr d a) else none
  else if op = 0x28 then some (.rdreg d a (fin 4 (v / 16384)) (fin 16384 v))
  else if op = 0x29 then some (.wrreg d a (fin 4 (v / 16384)) (fin 16384 v))
  else if op = 0x38 then if rd % 2 = 0 ∧ ra = 0 ∧ v = 0 then some (.tnow (fin 16 (rd / 2))) else none
  else if op = 0x39 then if rd % 2 = 0 ∧ ra = 0 ∧ v = 0 then some (.waitT (fin 16 (rd / 2))) else none
  else if op = 0x3A then
    if rd % 2 = 0 ∧ ra % 2 = 0 ∧ v = 0 then some (.waitE (fin 16 (rd / 2)) (fin 16 (ra / 2))) else none
  else if op = 0x3C then
    if ra < 25 ∧ v % 256 = 0 then some (.post d (fin 25 ra) (fin 256 (v / 256))) else none
  else if op = 0x3D then if rd = 0 ∧ v < 8 then some (.sig a (fin 8 v)) else none
  else if op = 0x3E then
    if ra ≠ 0 then none
    else if v = 4 then some (.coreid d)
    else if rd ≠ 0 then none
    else if v = 0 then some (.sys .nop)
    else if v = 1 then some (.sys .halt)
    else if v = 2 then some (.sys .trap)
    else if v = 3 then some (.sys .fence)
    else none
  else none

/-- The instruction of a word, none where R322 makes it ILLEGAL. -/
def oarvaDecode (w : Nat) : Option OInstr :=
  let op := bits w 26 6
  let rd := bits w 21 5
  let ra := bits w 16 5
  if 0x30 ≤ op ∧ op ≤ 0x35 then decodeAct op rd ra (bits w 11 5) (bits w 7 4) (bits w 0 7)
  else if op = 0x02 ∨ 0x20 ≤ op then decodeRest op rd ra (bits w 11 5) (bits w 0 11) (bits w 0 16)
  else decodeImm op rd ra (bits w 0 16)

/-- A word of format I, or of a format with 16 low bits (R321). -/
def fmtI (op rd ra v : Nat) : Nat := op * 2 ^ 26 + rd * 2 ^ 21 + ra * 2 ^ 16 + v

/-- A word of format A (R321). -/
def fmtA (op rt ra rn opt tgt : Nat) : Nat := fmtI op rt ra (rn * 2 ^ 11 + opt * 2 ^ 7 + tgt)

/-- The word of an instruction (R321, R327 to R339). -/
def oarvaEncode : OInstr → Nat
  | .alu op rd ra rb => fmtI 0x02 (if aluNoRd op then 0 else rd) ra (rb.val * 2 ^ 11 + aluFunc op)
  | .imm op rd ra v => fmtI (match op with
    | .addi => 0x01 | .andi => 0x04 | .ori => 0x05 | .xori => 0x06) rd ra v
  | .cmpi ra v => fmtI 0x03 0 ra v
  | .lui rd v => fmtI 0x07 rd 0 v
  | .shift op rd ra sh => fmtI (match op with
    | .shli => 0x08 | .shri => 0x09 | .sari => 0x0A) rd ra sh
  | .load op rd ra v => fmtI (match op with
    | .ldw => 0x10 | .ldh => 0x11 | .ldhu => 0x12 | .ldb => 0x13 | .ldbu => 0x14) rd ra v
  | .store op rd ra v => fmtI (match op with
    | .stw => 0x18 | .sth => 0x19 | .stb => 0x1A) rd ra v
  | .bcc c t => fmtI 0x20 (2 * c.val) 0 t
  | .bl t => fmtI 0x21 0 0 t
  | .jr ra => fmtI 0x22 0 ra 0
  | .jalr rd ra => fmtI 0x23 rd ra 0
  | .rdreg rd ra view v => fmtI 0x28 rd ra (view.val * 16384 + v)
  | .wrreg rd ra view v => fmtI 0x29 rd ra (view.val * 16384 + v)
  | .hopAt rt rn e t => fmtA 0x30 (2 * rt.val) 0 rn e t
  | .phsFod rt ra rn m t => fmtA 0x31 (2 * rt.val) (2 * ra.val) rn (2 * b2n m) t
  | .phsPlain rt ra m => fmtA 0x31 (2 * rt.val) (2 * ra.val) 0 (1 + 2 * b2n m) 0
  | .ratSc rt rn slot comp t => fmtA 0x32 (2 * rt.val) 0 rn (2 * slot.val + 8 * b2n comp) t
  | .ratRate rt ra => fmtA 0x32 (2 * rt.val) (2 * ra.val) 0 1 0
  | .ratStop rt => fmtA 0x32 (2 * rt.val) 0 0 3 0
  | .oenAt rt rn v t => fmtA 0x33 (2 * rt.val) 0 rn (b2n v) t
  | .gangAt rt ra rn k t => fmtA 0x34 (2 * rt.val) (2 * ra.val) rn k t
  | .snapAt rt => fmtA 0x35 (2 * rt.val) 0 0 0 0
  | .tnow rd => fmtI 0x38 (2 * rd.val) 0 0
  | .waitT rt => fmtI 0x39 (2 * rt.val) 0 0
  | .waitE rd ra => fmtI 0x3A (2 * rd.val) (2 * ra.val) 0
  | .post ra n c => fmtI 0x3C ra n (c.val * 256)
  | .sig ra k => fmtI 0x3D 0 ra k
  | .sys op => fmtI 0x3E 0 0 (match op with
    | .nop => 0 | .halt => 1 | .trap => 2 | .fence => 3)
  | .coreid rd => fmtI 0x3E rd 0 4

/-- An instruction that has a word: an operation that discards its result names no rd (R327). -/
def OInstr.wf : OInstr → Bool
  | .alu op rd _ _ => !aluNoRd op || decide (rd = 0)
  | _ => true

end Sys2Proof.Machine
end

