-- ==== Sys2Proof/Machine/Flags.lean ====
section
/-!
DEFINITION. The flag computations of the Oarva instructions (R326 to R329) and the results that they go with.
-/
namespace Sys2Proof.Machine

open Sys2Proof

/-- Z, N, C, V as SEQ_FLAGS numbers them (R319). -/
structure Flg where
  z : Bool
  n : Bool
  c : Bool
  v : Bool
  deriving DecidableEq, Repr

/-- The flags of a SEQ_FLAGS value. -/
def flgOf (w : Nat) : Flg := ⟨w.testBit 0, w.testBit 1, w.testBit 2, w.testBit 3⟩

/-- The SEQ_FLAGS value of flags. -/
def Flg.word (f : Flg) : Nat := b2n f.z + 2 * b2n f.n + 4 * b2n f.c + 8 * b2n f.v

/-- Z and N of a result; C and V stay (R326). -/
def flgZN (f : Flg) (r : Word) : Flg := { f with z := decide (r = 0), n := r.msb }

/-- a + b + cin with its flags (R326, R327). -/
def flgAdd (a b : Word) (cin : Bool) : Word × Flg :=
  let r : Word := wd (a.toNat + b.toNat + b2n cin)
  let exact : Int := a.toInt + b.toInt + (b2n cin : Int)
  (r, ⟨decide (r = 0), r.msb, decide (2 ^ 32 ≤ a.toNat + b.toNat + b2n cin), decide (r.toInt ≠ exact)⟩)

/-- a − b − cin with its flags: C is the borrow (R326, R327). -/
def flgSub (a b : Word) (cin : Bool) : Word × Flg :=
  let r : Word := wd (a.toNat + 2 ^ 33 - b.toNat - b2n cin)
  let exact : Int := a.toInt - b.toInt - (b2n cin : Int)
  (r, ⟨decide (r = 0), r.msb, decide (a.toNat < b.toNat + b2n cin), decide (r.toInt ≠ exact)⟩)

/-- A shift by n < 32 (R326, R327): 0 left, 1 right with zeros, 2 right with the sign; C is the last bit shifted out
and stays for n = 0. -/
def flgShift (kind n : Nat) (f : Flg) (a : Word) : Word × Flg :=
  let r : Word := if kind = 0 then a <<< n else if kind = 1 then a >>> n else a.sshiftRight n
  let c := if n = 0 then f.c else if kind = 0 then a.getLsbD (32 - n) else a.getLsbD (n - 1)
  (r, { flgZN f r with c := c })

/-- The result and flags of an ALU operation (R327). -/
def aluRun (op : AluOp) (f : Flg) (a b : Word) : Word × Flg :=
  let zn (r : Word) : Word × Flg := (r, flgZN f r)
  match op with
  | .add => flgAdd a b false
  | .addc => flgAdd a b f.c
  | .sub => flgSub a b false
  | .subc => flgSub a b f.c
  | .and => zn (a &&& b)
  | .or => zn (a ||| b)
  | .xor => zn (a ^^^ b)
  | .andn => zn (a &&& ~~~b)
  | .shl => flgShift 0 (b.toNat % 32) f a
  | .shr => flgShift 1 (b.toNat % 32) f a
  | .sar => flgShift 2 (b.toNat % 32) f a
  | .mul => zn (wd (a.toNat * b.toNat))
  | .mulhu => zn (wd (a.toNat * b.toNat / 2 ^ 32))
  | .mulhs => zn (wd (tw 64 (a.toInt * b.toInt) / 2 ^ 32))
  | .cmp => flgSub a b false
  | .tst => zn (a &&& b)

/-- A 16-bit immediate, sign-extended (R321). -/
def simm16 (v : Nat) : Word := wd (tw 32 (sx 16 v))

/-- The result and flags of an immediate operation (R328). -/
def immRun (op : ImmOp) (f : Flg) (a : Word) (v : Nat) : Word × Flg :=
  match op with
  | .addi => flgAdd a (simm16 v) false
  | .andi => (a &&& wd v, flgZN f (a &&& wd v))
  | .ori => (a ||| wd v, flgZN f (a ||| wd v))
  | .xori => (a ^^^ wd v, flgZN f (a ^^^ wd v))

/-- The result and flags of a shift by an immediate (R328). -/
def shiftRun (op : ShiftOp) (f : Flg) (a : Word) (n : Nat) : Word × Flg :=
  match op with
  | .shli => flgShift 0 n f a
  | .shri => flgShift 1 n f a
  | .sari => flgShift 2 n f a

/-- Whether a condition holds (R329). -/
def condHolds (c : Nat) (f : Flg) : Bool :=
  match c with
  | 0 => true
  | 1 => f.z
  | 2 => !f.z
  | 3 => f.c
  | 4 => !f.c
  | 5 => !f.c && !f.z
  | 6 => f.c || f.z
  | 7 => f.n != f.v
  | 8 => f.n == f.v
  | 9 => !f.z && (f.n == f.v)
  | 10 => f.z || (f.n != f.v)
  | 11 => f.n
  | 12 => !f.n
  | 13 => f.v
  | _ => !f.v

end Sys2Proof.Machine
end

