-- ==== Sys2Proof/Machine/SeqOps.lean ====
section
/-!
DEFINITION. How an Oarva core issues an instruction (chapters 10 and 11): its registers and data space, each
instruction's effect, exceptions, waits, steps and breakpoints.
-/
namespace Sys2Proof.Machine

open Sys2Proof

-- registers

/-- Sk of core n; S0 reads zero (R293). -/
def sreg (s : State) (n k : Nat) : Word := if k = 0 then 0 else rd s (rSEQ n (0x100 + 4 * k))

/-- The state with Sk; a write of S0 is discarded (R293, R323). -/
def setSreg (s : State) (n k : Nat) (v : Word) : State := if k = 0 then s else wr s (rSEQ n (0x100 + 4 * k)) v.toNat

/-- The value of the pair whose even register is 2p (R293, R323). -/
def spair (s : State) (n p : Nat) : Nat := (sreg s n (2 * p)).toNat + 2 ^ 32 * (sreg s n (2 * p + 1)).toNat

/-- The state with a pair (R323). -/
def setSpair (s : State) (n p v : Nat) : State :=
  setSreg (setSreg s n (2 * p) (wd v)) n (2 * p + 1) (wd (v / 2 ^ 32))

/-- PC (R293). -/
def seqPc (s : State) (n : Nat) : Nat := rb s (rSEQ n 0x0C) 0 12

/-- The state with PC. -/
def setPc (s : State) (n v : Nat) : State := wr s (rSEQ n 0x0C) (v % 4096)

/-- PC after an instruction at pc that does not jump (R324). -/
def pcNext (s : State) (n pc : Nat) : State := setPc s n (pc + 1)

/-- The flags. -/
def seqFlg (s : State) (n : Nat) : Flg := flgOf (rn s (rSEQ n 0x10))

/-- The state with the flags. -/
def setFlg (s : State) (n : Nat) (f : Flg) : State := wr s (rSEQ n 0x10) f.word

/-- A result and its flags: rd and the flags take them, PC moves on (R324, R326). -/
def setResult (s : State) (n pc rd : Nat) (r : Word × Flg) : State := pcNext (setFlg (setSreg s n rd r.1) n r.2) n pc

/-- The pending events (R305). -/
def seqPend (s : State) (n : Nat) : Nat := rL s (rSEQ n 0x30) 2

-- exceptions

/-- A cause (R310): kind, address, access type, and whether EPC is the next instruction. -/
structure Cause310 where
  kind : Nat
  addr : Nat
  access : Nat
  after : Bool
  deriving DecidableEq, Repr

/-- What an instruction comes to: it has completed, or it has a cause. -/
inductive SeqOut where
  | ok (s : State)
  | exc (c : Cause310) (s : State)
  deriving DecidableEq, Repr

/-- Takes an exception of core n at pc (R310, R311). DOUBLE and ECC halt the core; EPC takes R310's value but for
DOUBLE; a core that halts stands at that value. -/
def seqExcept (s : State) (n pc : Nat) (c : Cause310) : State :=
  let epc := (pc + b2n c.after) % 4096
  let dbl := rbit s (rSEQ n 4) 7
  let s := raise s (srcSeq n) (if dbl then kDouble else c.kind) (c.addr % 2 ^ 24) (5 + n) c.access
  if dbl then seqHaltAs (setPc s n epc) n 5
  else
    let s := wr s (rSEQ n 0x14) epc
    if c.kind = kEcc then seqHaltAs (setPc s n epc) n 5
    else
      let s := wr (wr (wr s (rSEQ n 0x18) c.kind) (rSEQ n 0x1C) (c.addr % 2 ^ 24)) (rSEQ n 0x20) (seqFlg s n).word
      let s := wb s (rSEQ n 4) 7 1 1
      if rbit s (rSEQ n 0) 0 then setPc s n (rb s (rSEQ n 0x28) 0 12)
      else seqHaltAs (setPc s n epc) n 5

-- data space

/-- The place in BAR2 of a data address of core n, none outside R294 or misaligned for the width in bytes. -/
def dataAt (n a width : Nat) : Option Nat :=
  if a % width ≠ 0 ∨ 0x3000 ≤ a then none
  else if a < 0x2000 then some (imemBase n + 0x8000 + a) else some (0x880000 + (a - 0x2000))

/-- The data address of a load or store (R331). -/
def memAddr (s : State) (n ra v : Nat) : Nat := (sreg s n ra + simm16 v).toNat

/-- The width of a load in bytes (R331). -/
def loadWidth : LoadOp → Nat
  | .ldw => 4 | .ldh => 2 | .ldhu => 2 | .ldb => 1 | .ldbu => 1

/-- What rd takes of the bytes read (R331). -/
def loadExt : LoadOp → Nat → Word
  | .ldw, v => wd v
  | .ldh, v => wd (tw 32 (sx 16 v))
  | .ldhu, v => wd v
  | .ldb, v => wd (tw 32 (sx 8 v))
  | .ldbu, v => wd v

/-- The width of a store in bytes (R331). -/
def storeWidth : StoreOp → Nat
  | .stw => 4 | .sth => 2 | .stb => 1

/-- A load (R294, R296, R297, R331). `ecc`: the memory finds an uncorrectable error. -/
def seqLoad (s : State) (n pc : Nat) (op : LoadOp) (rd ra v : Nat) (ecc : Bool) : SeqOut :=
  let a := memAddr s n ra v
  let w := loadWidth op
  match dataAt n a w with
  | none => .exc ⟨kDmemBounds, a, 1, false⟩ s
  | some p =>
    if ecc then .exc ⟨kEcc, a / 4 * 4, 1, false⟩ s
    else
      let x := leNat (mbs s p w)
      let s := if isSema p ∧ w = 4 then setMbs s p (leBytes 4 1) else s
      .ok (pcNext (setSreg s n rd (loadExt op x)) n pc)

/-- A store (R294, R331). -/
def seqStore (s : State) (n pc : Nat) (op : StoreOp) (rd ra v : Nat) : SeqOut :=
  let a := memAddr s n ra v
  let w := storeWidth op
  match dataAt n a w with
  | none => .exc ⟨kDmemBounds, a, 2, false⟩ s
  | some p => .ok (pcNext (setMbs s p (leBytes w (sreg s n rd).toNat)) n pc)

-- register bus

/-- The read of RDREG (R306, R317, R332). -/
def seqRead (s : State) (n addr : Nat) : State × Nat := busRead s (5 + n) addr 32

/-- The bus address of RDREG and WRREG: selector and offset (R332). -/
def regAddr (s : State) (n ra view v : Nat) : Nat := view * 2 ^ 24 + ((sreg s n ra).toNat + v) % 2 ^ 24

/-- WRREG (R306, R332): accepted at once; PC has moved on when the write acts. -/
def seqWrreg (s : State) (n pc rd addr : Nat) : SeqOut :=
  let a := busWrite (pcNext s n pc) (5 + n) addr 32 (sreg s n rd).toNat
  if a.2 then .exc ⟨kRegBus, addr % 2 ^ 24, 2, false⟩ a.1 else .ok a.1

-- timed actions

/-- The end of a timed action's instruction (R299, R301, R335): `r` is the state with the action entered, none where the
target refused it; `full` is what a refusal leaves, `first` the target's first register. -/
def seqEnter (s : State) (n pc st : Nat) (r : Option State) (first : Nat) (full : State) : SeqOut :=
  match r with
  | none => .exc ⟨kSeqQueueFull, first, 0, false⟩ full
  | some t =>
    let t := bump t (rSEQ n 0x58)
    if entryLate s st ∧ rbit s (rSEQ n 0) 1 then .exc ⟨kLate, pc * 4, 0, true⟩ t else .ok (pcNext t n pc)

/-- An action for FOD f. -/
def seqFod (s : State) (n pc st f : Nat) (k : ActKind) : SeqOut :=
  seqEnter s n pc st (fodEnter s f st (some n) k) (rFOD f 0) (raise s (srcFod f) kFodQueueFull (rFOD f 4))

/-- An action for SC c. -/
def seqSc (s : State) (n pc st c : Nat) (k : ActKind) : SeqOut :=
  seqEnter s n pc st (scEnter s c st (some n) k) (rSC c 0) (raise s (srcSc c) kScQueueFull (rSC c 4))

/-- An action for Plain. -/
def seqPlain (s : State) (n pc st : Nat) (k : ActKind) : SeqOut :=
  seqEnter s n pc st (timeEnter s st (some n) k) (rTIME 0) s

/-- An action for a gang (R148, R301); a gang without members has no register, and FOD0's stands for it. -/
def seqGang (s : State) (n pc st g : Nat) (k : ActKind) : SeqOut :=
  let r := gangEnter s g st (some n) k
  seqEnter s n pc st (if r.2 then some r.1 else none) (rFOD ((gangMembers s g).headD 0) 0) r.1

/-- The target number of a timed action (R333). -/
def actTarget (s : State) (n rn tgt size : Nat) : Nat := ((sreg s n rn).toNat + tgt) % size

-- posts, signals, waits

/-- POST (R309, R337). -/
def seqPost (s : State) (n pc a k code : Nat) : SeqOut :=
  if a % 4 ≠ 0 ∨ 0x2000 < a + 4 * k then .exc ⟨kDmemBounds, a, 1, false⟩ s
  else
    let s := presentInternal s 2 5 (4 * k) (readT s) (timeFlags s + b2n s.standby * 2 ^ 9)
      (n + code * 2 ^ 8 + rb s (rSEQ n 0x78) 0 16 * 2 ^ 16) pc 0 0 (mbs s (imemBase n + 0x8000 + a) (4 * k))
    .ok (pcNext (bump s (rSEQ n 0x54)) n pc)

/-- WAIT.T (R302): the core waits unless the resolved time has come. -/
def seqWaitT (s : State) (n pc st : Nat) : State :=
  let t := resolveDue s st
  if t ≤ nowT s then pcNext s n pc else setSeqState (setSeqc s n { seqc s n with waitT := some t }) n 2

/-- The pending bits within a mask are returned in a pair and cleared (R303). -/
def takeEvents (s : State) (n mask p : Nat) : State :=
  let got := seqPend s n &&& mask
  setSpair (wL s (rSEQ n 0x30) 2 (clr (seqPend s n) got)) n p got

/-- WAIT.E (R303). -/
def seqWaitE (s : State) (n pc rd ra : Nat) : State :=
  let mask := spair s n ra
  if seqPend s n &&& mask = 0 then setSeqState (setSeqc s n { seqc s n with waitE := some (mask, rd) }) n 3
  else pcNext (takeEvents s n mask rd) n pc

/-- Lands every posted write in flight of a master (R48, R307). -/
def landAll (s : State) (m : Nat) : State :=
  ((s.posted.filter (fun p => decide (p.2.master = m))).map (·.1)).foldl postLand s

/-- Whether a posted write of a master is in flight. -/
def postFlies (s : State) (m : Nat) : Bool := s.posted.any (fun p => decide (p.2.master = m))

/-- SYS without a register (R307, R339). FENCE ends when the posted writes of the core have landed; while one cannot land (R506)
the core is STALLED at it, and the row issues it again. -/
def seqSys (s : State) (n pc : Nat) (op : SysOp) : SeqOut :=
  match op with
  | .nop => .ok (pcNext s n pc)
  | .halt => .ok (seqHaltAs (pcNext s n pc) n 1)
  | .trap => .exc ⟨kTrap, pc * 4, 0, true⟩ s
  | .fence =>
    let s := landAll s (5 + n)
    .ok (if postFlies s (5 + n) then setSeqState s n 4 else pcNext (setSeqState s n 1) n pc)

-- an instruction

/-- The effect of an instruction of core n at pc (R327 to R339). -/
def seqDo (s : State) (n pc : Nat) (ecc : Bool) (i : OInstr) : SeqOut :=
  let r (k : Fin 32) : Word := sreg s n k.val
  let f := seqFlg s n
  match i with
  | .alu op rd ra rb => .ok (setResult s n pc (if aluNoRd op then 0 else rd.val) (aluRun op f (r ra) (r rb)))
  | .imm op rd ra v => .ok (setResult s n pc rd.val (immRun op f (r ra) v.val))
  | .cmpi ra v => .ok (setResult s n pc 0 (flgSub (r ra) (simm16 v.val) false))
  | .lui rd v => .ok (pcNext (setSreg s n rd.val (wd (v.val * 65536))) n pc)
  | .shift op rd ra sh => .ok (setResult s n pc rd.val (shiftRun op f (r ra) sh.val))
  | .load op rd ra v => seqLoad s n pc op rd.val ra.val v.val ecc
  | .store op rd ra v => seqStore s n pc op rd.val ra.val v.val
  | .bcc c t => .ok (setPc s n (if condHolds c.val f then t.val else pc + 1))
  | .bl t => .ok (setPc (setSreg s n 31 (wd ((pc + 1) % 4096))) n t.val)
  | .jr ra => .ok (setPc s n (r ra).toNat)
  | .jalr rd ra => .ok (setPc (setSreg s n rd.val (wd ((pc + 1) % 4096))) n (r ra).toNat)
  | .rdreg rd ra view v =>
    let q := seqRead s n (regAddr s n ra.val view.val v.val)
    .ok (pcNext (setSreg q.1 n rd.val (wd q.2)) n pc)
  | .wrreg rd ra view v => seqWrreg s n pc rd.val (regAddr s n ra.val view.val v.val)
  | .hopAt rt rn e tgt => seqFod s n pc (spair s n rt.val) (actTarget s n rn.val tgt.val 128) (.hop e.val)
  | .phsFod rt ra rn slew tgt =>
    let amt := sx 48 (spair s n ra.val)
    seqFod s n pc (spair s n rt.val) (actTarget s n rn.val tgt.val 128) (if slew then .phSlew amt else .phStep amt)
  | .phsPlain rt ra slew =>
    let a := spair s n ra.val
    seqPlain s n pc (spair s n rt.val) (if slew then .timeSlew (sx 48 a) (bits a 48 16) else .timeStep (sx 64 a))
  | .ratSc rt rn slot comp tgt =>
    seqSc s n pc (spair s n rt.val) (actTarget s n rn.val tgt.val 8) (.retune slot.val comp none)
  | .ratRate rt ra => seqPlain s n pc (spair s n rt.val) (.timeRate (sx 40 (spair s n ra.val)))
  | .ratStop rt => seqPlain s n pc (spair s n rt.val) .timeSlewStop
  | .oenAt rt rn v tgt => seqFod s n pc (spair s n rt.val) (actTarget s n rn.val tgt.val 128) (.oen v)
  | .gangAt rt ra rn k tgt =>
    let a := spair s n ra.val
    seqGang s n pc (spair s n rt.val) (actTarget s n rn.val tgt.val 16)
      (match k.val with
      | 0 => .hop (a % 16)
      | 1 => .phStep (sx 48 a)
      | 2 => .phSlew (sx 48 a)
      | _ => .oen (a.testBit 0))
  | .snapAt rt =>
    let st := spair s n rt.val
    seqEnter s n pc st (snapEnter s st (some n)) (rSNAP 0) s
  | .tnow rd => .ok (pcNext (setSpair s n rd.val (stOf (readT s))) n pc)
  | .waitT rt => .ok (seqWaitT s n pc (spair s n rt.val))
  | .waitE rd ra => .ok (seqWaitE s n pc rd.val ra.val)
  | .post ra k code => seqPost s n pc (r ra).toNat k.val code.val
  | .sig ra k => .ok (pcNext (evtBit s (((r ra).toNat + k.val) % 8) n) n pc)
  | .sys op => seqSys s n pc op
  | .coreid rd => .ok (pcNext (setSreg s n rd.val (wd (n + 256 * b2n (seqShadow s n)))) n pc)

/-- Whether a load or store accesses the mailbox (R294, R331). -/
def inMailbox (s : State) (n ra v width : Nat) : Bool :=
  decide (0x2000 ≤ memAddr s n ra v) && (dataAt n (memAddr s n ra v) width).isSome

/-- The cycles of an instruction of core n by the tables of chapter 11, without stalls. -/
def seqCycles (s : State) (n : Nat) : OInstr → Nat
  | .alu op _ _ _ => match op with
    | .mul => 2
    | .mulhu => 2
    | .mulhs => 2
    | _ => 1
  | .load _ _ _ _ => 2
  | .store op _ ra v => if inMailbox s n ra.val v.val (storeWidth op) then 2 else 1
  | .bcc c _ => if condHolds c.val (seqFlg s n) then 2 else 1
  | .bl _ => 2
  | .jr _ => 2
  | .jalr _ _ => 2
  | .rdreg _ _ _ _ => 3
  | .hopAt _ _ _ _ => 4
  | .phsFod _ _ _ _ _ => 4
  | .phsPlain _ _ _ => 4
  | .ratSc _ _ _ _ _ => 4
  | .ratRate _ _ => 4
  | .ratStop _ => 4
  | .oenAt _ _ _ _ => 4
  | .gangAt _ _ _ _ _ => 4
  | .snapAt _ => 4
  | .tnow _ => 2
  | .waitT _ => 2
  | .waitE _ _ => 2
  | .post _ k _ => 2 + k.val
  | _ => 1

/-- The cycles that an instruction may stall beside those of its table, at 500 MHz: `some 0` where its table gives an exact
count, `none` where it gives no bound (R325, R331, R332, R335, R337, R339). -/
def seqStallMax (s : State) (n : Nat) : OInstr → Option Nat
  | .load op _ ra v => some (if inMailbox s n ra.val v.val (loadWidth op) then 8 else 0)
  | .store op _ ra v => some (if inMailbox s n ra.val v.val (storeWidth op) then 8 else 0)
  | .rdreg _ _ _ _ => none
  | .wrreg _ _ _ _ => none
  | .hopAt _ _ _ _ => some 6
  | .phsFod _ _ _ _ _ => some 6
  | .phsPlain _ _ _ => some 6
  | .ratSc _ _ _ _ _ => some 6
  | .ratRate _ _ => some 6
  | .ratStop _ => some 6
  | .oenAt _ _ _ _ => some 6
  | .gangAt _ _ _ _ _ => some 6
  | .snapAt _ => some 6
  | .post _ _ _ => none
  | .sys op => match op with
    | .fence => none
    | _ => some 0
  | _ => some 0

-- issue

/-- Whether a breakpoint holds core n before the instruction at its PC (R316). -/
def seqAtBp (s : State) (n : Nat) : Bool :=
  !(seqc s n).bpSkip && (List.range 4).any (fun k =>
    let b := rn s (rSEQ n (0x40 + 4 * k))
    b.testBit 31 && decide (b % 4096 = seqPc s n))

/-- Whether core n issues the instruction at its PC: it runs and no breakpoint holds it, or it is STALLED in it. -/
def seqRuns (s : State) (n : Nat) : Bool :=
  s.coreAwake && (decide (rb s (rSEQ n 4) 0 3 = 4) || (decide (rb s (rSEQ n 4) 0 3 = 1) && !seqAtBp s n))

/-- The instruction at the PC of core n, none where its word is ILLEGAL. -/
def seqFetch (s : State) (n : Nat) : Option OInstr := oarvaDecode (mw s (imemBase n + 4 * seqPc s n))

/-- A step ends (R316): the core halts, unless it waits. -/
def stepEnd (s : State) (n : Nat) : State :=
  if (seqc s n).stepping ∧ rb s (rSEQ n 4) 0 3 = 1 then seqHaltAs s n 4 else s

/-- Counts the ungated cycles of an instruction that has ended in SEQ_RUN_CNT (R304, R325), with a stall of at most `stall`
(log entry 20). -/
def seqCount (s : State) (n cycles : Nat) (stall : Option Nat) : State :=
  match stall with
  | some 0 => bump s (rSEQ n 0x50) cycles
  | some m => bump { s with free := s.free + 1 } (rSEQ n 0x50) (cycles + Config.seqStall s.free % (m + 1))
  | none => bump { s with free := s.free + 1 } (rSEQ n 0x50) (cycles + Config.seqStall s.free)

/-- What follows an instruction: its cycles, unless it still stalls, an exception with its 3 cycles, the end of a step. -/
def seqAfter (n pc cycles : Nat) (stall : Option Nat) (o : SeqOut) : State :=
  match o with
  | .ok s => if rb s (rSEQ n 4) 0 3 = 4 then s else stepEnd (seqCount s n cycles stall) n
  | .exc c s => stepEnd (seqExcept (seqCount s n (cycles + 3) stall) n pc c) n

/-- The breakpoint at the PC is passed over once. -/
def bpDone (s : State) (n : Nat) : State := setSeqc s n { seqc s n with bpSkip := false }

/-- Core n issues the instruction at its PC, where that is one of the row `want`. -/
def seqIssue (s : State) (n : Nat) (want : Mn) (ecc : Bool) : State :=
  if seqRuns s n then
    match seqFetch s n with
    | some i =>
      if i.mn = want then
        seqAfter n (seqPc s n) (seqCycles s n i) (seqStallMax s n i) (seqDo (bpDone s n) n (seqPc s n) ecc i)
      else s
    | none => s
  else s

/-- An instruction of core n without an error of its memories. -/
def seqOp (s : State) (n : Nat) (want : Mn) : State := seqIssue s n want false

/-- The fetch of core n where it gives no instruction to run: ECC on the fetch (R297), or ILLEGAL (R322). -/
def seqFault (s : State) (n : Nat) (ecc : Bool) : State :=
  let pc := seqPc s n
  seqAfter n pc 1 (some 0) (.exc ⟨if ecc then kEcc else kIllegal, pc * 4, 3, false⟩ (bpDone s n))

/-- A wait for a time ends (R302, R316). -/
def waitTEnd (s : State) (n : Nat) : State :=
  match (seqc s n).waitT with
  | some t =>
    if rb s (rSEQ n 4) 0 3 = 2 ∧ t ≤ nowT s then
      stepEnd (setSeqState (pcNext (setSeqc s n { seqc s n with waitT := none }) n (seqPc s n)) n 1) n
    else s
  | none => s

/-- A wait for events ends (R303, R316). -/
def waitEEnd (s : State) (n : Nat) : State :=
  match (seqc s n).waitE with
  | some (mask, p) =>
    if rb s (rSEQ n 4) 0 3 = 3 ∧ seqPend s n &&& mask ≠ 0 then
      let s := takeEvents (setSeqc s n { seqc s n with waitE := none }) n mask p
      stepEnd (setSeqState (pcNext s n (seqPc s n)) n 1) n
    else s
  | none => s

/-- The register bus does not answer an RDREG within 1 µs (R306). -/
def readLate (s : State) (n : Nat) : State :=
  if seqRuns s n then
    match seqFetch s n with
    | some (.rdreg _ ra view v) =>
      let off := regAddr s n ra.val view.val v.val % 2 ^ 24
      seqAfter n (seqPc s n) 3 none (.exc ⟨kRegBus, off, 1, false⟩ (raise (bpDone s n) srcBus kReadTimeout off (5 + n) 1))
    | _ => s
  else s

/-- A breakpoint is hit (R316). -/
def bpHit (s : State) (n : Nat) : State :=
  if rb s (rSEQ n 4) 0 3 = 1 ∧ seqAtBp s n then seqHaltAs (orBits s (rSEQ n 4) 0x10000) n 3 else s

/-- The end of an image's verification (R313). -/
def verifyEnd (s : State) (n : Nat) : State := if (seqc s n).verify then seqVerified s n else s

end Sys2Proof.Machine
end

