-- ==== Sys2Proof/Machine/Oarva.lean ====
section
/-!
DEFINITION. The commands of the Oarva sequencers (R292 to R340): a core issues the instruction at its PC, which the row
names; waits, breakpoints and images.
-/
namespace Sys2Proof.Machine

open Sys2Proof

/-- ADDI (R328). -/
def execAddi (core : CoreIx) (s : State) : Host.Outcome State Fault Refusal :=
  .next (seqOp s core.val .addi)

/-- ADD (R327). -/
def execAdd (core : CoreIx) (s : State) : Host.Outcome State Fault Refusal :=
  .next (seqOp s core.val .add)

/-- ADDC (R327). -/
def execAddc (core : CoreIx) (s : State) : Host.Outcome State Fault Refusal :=
  .next (seqOp s core.val .addc)

/-- SUB (R327). -/
def execSub (core : CoreIx) (s : State) : Host.Outcome State Fault Refusal :=
  .next (seqOp s core.val .sub)

/-- SUBC (R327). -/
def execSubc (core : CoreIx) (s : State) : Host.Outcome State Fault Refusal :=
  .next (seqOp s core.val .subc)

/-- AND (R327). -/
def execAnd (core : CoreIx) (s : State) : Host.Outcome State Fault Refusal :=
  .next (seqOp s core.val .and)

/-- OR (R327). -/
def execOr (core : CoreIx) (s : State) : Host.Outcome State Fault Refusal :=
  .next (seqOp s core.val .or)

/-- XOR (R327). -/
def execXor (core : CoreIx) (s : State) : Host.Outcome State Fault Refusal :=
  .next (seqOp s core.val .xor)

/-- ANDN (R327). -/
def execAndn (core : CoreIx) (s : State) : Host.Outcome State Fault Refusal :=
  .next (seqOp s core.val .andn)

/-- SHL (R327). -/
def execShl (core : CoreIx) (s : State) : Host.Outcome State Fault Refusal :=
  .next (seqOp s core.val .shl)

/-- SHR (R327). -/
def execShr (core : CoreIx) (s : State) : Host.Outcome State Fault Refusal :=
  .next (seqOp s core.val .shr)

/-- SAR (R327). -/
def execSar (core : CoreIx) (s : State) : Host.Outcome State Fault Refusal :=
  .next (seqOp s core.val .sar)

/-- MUL (R327). -/
def execMul (core : CoreIx) (s : State) : Host.Outcome State Fault Refusal :=
  .next (seqOp s core.val .mul)

/-- MULHU (R327). -/
def execMulhu (core : CoreIx) (s : State) : Host.Outcome State Fault Refusal :=
  .next (seqOp s core.val .mulhu)

/-- MULHS (R327). -/
def execMulhs (core : CoreIx) (s : State) : Host.Outcome State Fault Refusal :=
  .next (seqOp s core.val .mulhs)

/-- CMP (R327). -/
def execCmp (core : CoreIx) (s : State) : Host.Outcome State Fault Refusal :=
  .next (seqOp s core.val .cmp)

/-- TST (R327). -/
def execTst (core : CoreIx) (s : State) : Host.Outcome State Fault Refusal :=
  .next (seqOp s core.val .tst)

/-- CMPI (R328). -/
def execCmpi (core : CoreIx) (s : State) : Host.Outcome State Fault Refusal :=
  .next (seqOp s core.val .cmpi)

/-- ANDI (R328). -/
def execAndi (core : CoreIx) (s : State) : Host.Outcome State Fault Refusal :=
  .next (seqOp s core.val .andi)

/-- ORI (R328). -/
def execOri (core : CoreIx) (s : State) : Host.Outcome State Fault Refusal :=
  .next (seqOp s core.val .ori)

/-- XORI (R328). -/
def execXori (core : CoreIx) (s : State) : Host.Outcome State Fault Refusal :=
  .next (seqOp s core.val .xori)

/-- LUI (R328). -/
def execLui (core : CoreIx) (s : State) : Host.Outcome State Fault Refusal :=
  .next (seqOp s core.val .lui)

/-- SHLI (R328). -/
def execShli (core : CoreIx) (s : State) : Host.Outcome State Fault Refusal :=
  .next (seqOp s core.val .shli)

/-- SHRI (R328). -/
def execShri (core : CoreIx) (s : State) : Host.Outcome State Fault Refusal :=
  .next (seqOp s core.val .shri)

/-- SARI (R328). -/
def execSari (core : CoreIx) (s : State) : Host.Outcome State Fault Refusal :=
  .next (seqOp s core.val .sari)

/-- LDW (R331). -/
def execLdw (core : CoreIx) (ecc : Bool) (s : State) : Host.Outcome State Fault Refusal :=
  .next (seqIssue s core.val .ldw ecc)

/-- LDH (R331). -/
def execLdh (core : CoreIx) (ecc : Bool) (s : State) : Host.Outcome State Fault Refusal :=
  .next (seqIssue s core.val .ldh ecc)

/-- LDHU (R331). -/
def execLdhu (core : CoreIx) (ecc : Bool) (s : State) : Host.Outcome State Fault Refusal :=
  .next (seqIssue s core.val .ldhu ecc)

/-- LDB (R331). -/
def execLdb (core : CoreIx) (ecc : Bool) (s : State) : Host.Outcome State Fault Refusal :=
  .next (seqIssue s core.val .ldb ecc)

/-- LDBU (R331). -/
def execLdbu (core : CoreIx) (ecc : Bool) (s : State) : Host.Outcome State Fault Refusal :=
  .next (seqIssue s core.val .ldbu ecc)

/-- STW (R331). -/
def execStw (core : CoreIx) (s : State) : Host.Outcome State Fault Refusal :=
  .next (seqOp s core.val .stw)

/-- STH (R331). -/
def execSth (core : CoreIx) (s : State) : Host.Outcome State Fault Refusal :=
  .next (seqOp s core.val .sth)

/-- STB (R331). -/
def execStb (core : CoreIx) (s : State) : Host.Outcome State Fault Refusal :=
  .next (seqOp s core.val .stb)

/-- BCC (R329). -/
def execBcc (core : CoreIx) (s : State) : Host.Outcome State Fault Refusal :=
  .next (seqOp s core.val .bcc)

/-- BL (R330). -/
def execBl (core : CoreIx) (s : State) : Host.Outcome State Fault Refusal :=
  .next (seqOp s core.val .bl)

/-- JR (R330). -/
def execJr (core : CoreIx) (s : State) : Host.Outcome State Fault Refusal :=
  .next (seqOp s core.val .jr)

/-- JALR (R330). -/
def execJalr (core : CoreIx) (s : State) : Host.Outcome State Fault Refusal :=
  .next (seqOp s core.val .jalr)

/-- RDREG (R306, R332). -/
def execRdreg (core : CoreIx) (k : CycIx) (s : State) : Host.Outcome State Fault Refusal :=
  .next (seqOp (atCyc s k) core.val .rdreg)

/-- WRREG (R306, R332). -/
def execWrreg (core : CoreIx) (k : CycIx) (s : State) : Host.Outcome State Fault Refusal :=
  .next (seqOp (atCyc s k) core.val .wrreg)

/-- HOP_AT (R299, R333). -/
def execHopAt (core : CoreIx) (k : CycIx) (s : State) : Host.Outcome State Fault Refusal :=
  .next (seqOp (atCyc s k) core.val .hopAt)

/-- PHS_AT (R299, R334). -/
def execPhsAt (core : CoreIx) (k : CycIx) (s : State) : Host.Outcome State Fault Refusal :=
  .next (seqOp (atCyc s k) core.val .phsAt)

/-- RAT_AT (R299, R334). -/
def execRatAt (core : CoreIx) (k : CycIx) (s : State) : Host.Outcome State Fault Refusal :=
  .next (seqOp (atCyc s k) core.val .ratAt)

/-- OEN_AT (R299, R334). -/
def execOenAt (core : CoreIx) (k : CycIx) (s : State) : Host.Outcome State Fault Refusal :=
  .next (seqOp (atCyc s k) core.val .oenAt)

/-- GANG_AT (R148, R334). -/
def execGangAt (core : CoreIx) (k : CycIx) (s : State) : Host.Outcome State Fault Refusal :=
  .next (seqOp (atCyc s k) core.val .gangAt)

/-- SNAP_AT (R299, R441). -/
def execSnapAt (core : CoreIx) (k : CycIx) (s : State) : Host.Outcome State Fault Refusal :=
  .next (seqOp (atCyc s k) core.val .snapAt)

/-- TNOW (R298, R336). -/
def execTnow (core : CoreIx) (k : CycIx) (s : State) : Host.Outcome State Fault Refusal :=
  .next (seqOp (atCyc s k) core.val .tnow)

/-- WAIT_T (R302, R336). -/
def execWaitT (core : CoreIx) (k : CycIx) (s : State) : Host.Outcome State Fault Refusal :=
  .next (seqOp (atCyc s k) core.val .waitT)

/-- WAIT_E (R303, R336). -/
def execWaitE (core : CoreIx) (s : State) : Host.Outcome State Fault Refusal :=
  .next (seqOp s core.val .waitE)

/-- POST (R309, R337). -/
def execPost (core : CoreIx) (k : CycIx) (s : State) : Host.Outcome State Fault Refusal :=
  .next (seqOp (atCyc s k) core.val .post)

/-- SIG (R308, R338). -/
def execSig (core : CoreIx) (s : State) : Host.Outcome State Fault Refusal :=
  .next (seqOp s core.val .sig)

/-- HALT (R339). -/
def execHalt (core : CoreIx) (s : State) : Host.Outcome State Fault Refusal :=
  .next (seqOp s core.val .halt)

/-- TRAP (R339). -/
def execTrap (core : CoreIx) (s : State) : Host.Outcome State Fault Refusal :=
  .next (seqOp s core.val .trap)

/-- FENCE (R307, R339). -/
def execFence (core : CoreIx) (s : State) : Host.Outcome State Fault Refusal :=
  .next (seqOp s core.val .fence)

/-- COREID (R339). -/
def execCoreid (core : CoreIx) (s : State) : Host.Outcome State Fault Refusal :=
  .next (seqOp s core.val .coreid)

/-- NOP (R297, R322, R339): where the word at PC is no instruction, or its fetch finds an uncorrectable error, the core
takes that exception. -/
def execNop (core : CoreIx) (ecc : Bool) (s : State) : Host.Outcome State Fault Refusal :=
  .next (if seqRuns s core.val ∧ (ecc ∨ seqFetch s core.val = none) then seqFault s core.val ecc
    else seqOp s core.val .nop)

/-- WAIT_T_RESUME (R302). -/
def execWaitTResume (core : CoreIx) (k : CycIx) (s : State) : Host.Outcome State Fault Refusal :=
  .next (if s.coreAwake then waitTEnd (atCyc s k) core.val else s)

/-- WAIT_E_RESUME (R303). -/
def execWaitEResume (core : CoreIx) (s : State) : Host.Outcome State Fault Refusal :=
  .next (if s.coreAwake then waitEEnd s core.val else s)

/-- READ_TIMEOUT (R306). -/
def execReadTimeout (core : CoreIx) (s : State) : Host.Outcome State Fault Refusal :=
  .next (if s.coreAwake then readLate s core.val else s)

/-- BREAKPOINT_HIT (R316). -/
def execBreakpointHit (core : CoreIx) (s : State) : Host.Outcome State Fault Refusal := .next (bpHit s core.val)

/-- SEQ_START (R314): a write of SEQ_CMD. -/
def execSeqStart (m : Master) (core : CoreIx) (s : State) : Host.Outcome State Fault Refusal :=
  .next (regPut s m (rSEQ core.val 0x08) 1)

/-- SEQ_HALT (R316): a write of SEQ_CMD. -/
def execSeqHalt (m : Master) (core : CoreIx) (s : State) : Host.Outcome State Fault Refusal :=
  .next (regPut s m (rSEQ core.val 0x08) 2)

/-- SEQ_RESUME (R316): a write of SEQ_CMD. -/
def execSeqResume (m : Master) (core : CoreIx) (s : State) : Host.Outcome State Fault Refusal :=
  .next (regPut s m (rSEQ core.val 0x08) 4)

/-- SEQ_STEP (R316): a write of SEQ_CMD. -/
def execSeqStep (m : Master) (core : CoreIx) (s : State) : Host.Outcome State Fault Refusal :=
  .next (regPut s m (rSEQ core.val 0x08) 8)

/-- SEQ_VERIFY (R313): a write of SEQ_CMD. -/
def execSeqVerify (m : Master) (core : CoreIx) (s : State) : Host.Outcome State Fault Refusal :=
  .next (regPut s m (rSEQ core.val 0x08) 16)

/-- SEQ_DOORBELL (R305): a write of SEQ_CMD. -/
def execSeqDoorbell (m : Master) (core : CoreIx) (s : State) : Host.Outcome State Fault Refusal :=
  .next (regPut s m (rSEQ core.val 0x08) 32)

/-- IMAGE_VERIFY_DONE (R313, R315). -/
def execImageVerifyDone (core : CoreIx) (s : State) : Host.Outcome State Fault Refusal :=
  .next (if s.coreAwake then verifyEnd s core.val else s)

/-- SEQ_EXC_CLR (R311): a write of SEQ_EXC.CLR. -/
def execSeqExcClr (m : Master) (core : CoreIx) (s : State) : Host.Outcome State Fault Refusal :=
  .next (regPut s m (rSEQ core.val 0x24) 1)

end Sys2Proof.Machine
end

