-- ==== Sys2Proof/Machine/NvsOps.lean ====
section
/-!
DEFINITION. What a load of the non-volatile store applies (R400, R409 to R411), the calibration results that it holds, and
the judging of internal results (R390, R391).
-/
namespace Sys2Proof.Machine

open Sys2Proof

-- applying a region

/-- The first offsets of the registers with an NV field of CONFIG that the live state or a payload lists, each once. -/
def nvBases (s : State) (words : List (Nat × Word)) : List Nat :=
  ((s.regs.map (·.1)) ++ words.map (·.1)).foldl (fun l o =>
    match regInfo o with
    | some i => if i.row.nv = 0 ∨ i.blk = .screed ∨ l.contains i.base then l else l ++ [i.base]
    | none => l) []

/-- A register as a load changes it in the bits of a mask: its words before and after, and whether a set lock held a bit
unchanged (R54, R411). -/
def mergeReg (s : State) (i : RegInfo) (val mask : Nat) : Option (RegInfo × Nat × Nat × Bool) :=
  let old := rL s i.base i.row.words
  let lb := lockedBits s i
  let m := clr mask lb
  let new := clr old m ||| (val &&& m)
  let lk := decide ((val ^^^ old) &&& mask &&& lb ≠ 0)
  if new = old ∧ lk = false then none else some (i, old, new, lk)

/-- Applies changed registers in one cycle as a master (R54, R411, R485): what the locks refuse counts, every field is
written, then what the changes bring about. An image's ECAM entries are applied whole: no entry counts as live before it (R485). -/
def applyMerged (s : State) (m : Nat) (l : List (RegInfo × Nat × Nat × Bool)) : State :=
  let s := (l.filter (fun p => p.2.2.2)).foldl (fun s p => busFault (bump s 0x44) kLocked p.1.base m) s
  let l := l.filter (fun p => decide (p.2.1 ≠ p.2.2.1))
  let s := l.foldl (fun s p => wL s p.1.base p.1.row.words p.2.2.1) s
  let s := if l.any (fun p => decide (p.1.row.slm ≠ 0)) then passVoidMark s none else s
  (l.filter (fun p => decide (p.1.blk ≠ .ecamEnt))).foldl (fun s p => regFx s p.1 p.2.1 p.2.2.1 0 m none) s

/-- A register as a CONFIG payload changes it. -/
def nvChange (s : State) (words : List (Nat × Word)) (base : Nat) : Option (RegInfo × Nat × Nat × Bool) :=
  match regInfo base with
  | none => none
  | some i => mergeReg s i (joinWords ((List.range i.row.words).map (fun k => nvWord words (base + 4 * k)))) i.row.nv

/-- Applies a CONFIG payload in one cycle as master 13 (R409, R411). -/
def configApply (s : State) (words : List (Nat × Word)) : State :=
  applyMerged s 13 ((nvBases s words).filterMap (nvChange s words))

/-- Applies the port delays of a CAL payload (R244, R400, R410, R411): a port whose calibrated bit is 0 is CAL_DEFERRED. -/
def portDlyApply (s : State) (words : List (Nat × Word)) : State :=
  upto 128 (fun s p =>
    let s := [0x40, 0x44, 0x48, 0x4C, 0x50, 0x54].foldl (fun s o => wr s (rPORT p o) (payWord words (rPORT p o))) s
    let done := (payWord words (rPORT p 4)).testBit 0
    let s := clrBits (setPort s p { port s p with stored := done }) (rPORT p 4) 2
    if done then s else orBits s (rPORT p 4) 4) s

/-- Stored samples with times again: the newest one at `t`, each before it by what the later one stands for, in intervals of
`smp` seconds (DESIGN CHOICE, log entry 194: R406 stores no times). -/
def timedSamples (smp t : Int) : List (Int × Int × Nat) → List (Int × Int × Int × Nat)
  | [] => []
  | p :: l => (t, p.1, p.2.1, p.2.2) :: timedSamples smp (t - p.2.2 * smp) l

/-- Applies a SCREED payload (R211, R217, R406): Screed's settings as a load changes them, FACTORY's where the payload is the
empty model; then the state. -/
def screedApply (s : State) (b : Bank) : State :=
  let s := applyMerged s 13 (scrSet.filterMap (fun o => nvChange s b.words (rSCR o)))
  let s := (scrKept.filter (fun o => !scrSet.contains o)).foldl (fun s o => wr s (rSCR o) (payWord b.words (rSCR o))) s
  let l := timedSamples (atLeast1 (rb s (rSCR 0) 8 8)) (Config.screedTime s.free) b.samples
  scrShow { s with
    free := s.free + 1
    scr := { s.scr with samples := l, sig := b.sig, tref := match l with
      | p :: _ => p.1
      | [] => 0 } }

/-- Copies an image of the SEQIMG region into a core's memories and header (R295, R312, R315, R348): ICOUNT words and DCOUNT
bytes; the memories behind them stay. The copy for a core that is not HALTED is ignored (log entry 195). -/
def imageApply (s : State) (n : Nat) (b : Bank) : State :=
  if ¬ seqHalted s n then raise s (srcSeq n) kImemWrite (imemBase n) 13 2
  else
    let k := 4 * (payWord b.words 0x68 % 8192)
    let s := imgClear s n
    let s := (List.range 8).foldl (fun s i => wr s (rSEQ n (0x60 + 4 * i)) (payWord b.words (0x60 + 4 * i))) s
    setMbs (setMbs s (imemBase n) (b.image.take k)) (imemBase n + 0x8000) (b.image.drop k)

/-- NVS_LOAD applies a bank of a region to the running module (R348, R411): a CAL payload leaves live tap tables and TDC
results as they are. -/
def regionApply (s : State) (r core : Nat) (b : Bank) : State :=
  if r = 1 then portDlyApply s b.words
  else if r = 2 then configApply s b.words
  else if r = 3 then screedApply s b
  else imageApply s core b

-- calibration results

/-- A listed value replaced or added. -/
def assocSet {α : Type} (l : List (Nat × α)) (k : Nat) (v : α) : List (Nat × α) :=
  (k, v) :: l.filter (fun p => decide (p.1 ≠ k))

/-- The stored results that R390 compares with: the newest valid CAL bank's, else FACTORY's. -/
def storedCal (s : State) : Calib :=
  match newestBank s 1 0 with
  | some (_, b) => b.calib
  | none => calibInit

/-- The window of a witness TDC (R390): ±20 ps, which is 1 310 ticks and a fraction, and ±2 %. -/
def tdcOk (st : Int × Nat) (ofs : Int) (gain : Nat) : Bool :=
  decide ((ofs - st.1).natAbs * 1000 ≤ 20 * 65536) &&
  decide (((gain : Int) - st.2).natAbs * 50 ≤ st.2)

/-- The window of a DTC (R390), delays in 1/64 ps: ±3 ps at each of the 33 breakpoints, and a mean step of 0.25 ps ±15 % over the
4 096 taps between the first and the last (log entry 201). -/
def dtcOk (st breaks : List Int) : Bool :=
  decide ((breaks.getD 32 0 - breaks.getD 0 0 - 16 * 4096).natAbs * 100 ≤ 15 * 16 * 4096) &&
  decide (breaks.length = 33) && (List.zip st breaks).all (fun p => decide ((p.1 - p.2).natAbs ≤ 192))

/-- A rejected internal result of a step (R390): the unit and the step in the report's address. -/
def calReject (s : State) (unit step : Nat) : State :=
  raise (bump (orBits s 0x114 4) 0x118) srcSkim kImplausible (unit + step * 256)

/-- An accepted calibration of a twin (R391, R393): age 0, no mark, and, for the inactive twin, ready. -/
def twinAccept (s : State) (f : Nat) (b : Bool) : State :=
  setFod s f (setTwin (fod s f) b ⟨false, decide ((fod s f).twinB ≠ b), (nowT s : Int), 0⟩)

/-- A rejected calibration of a twin (R390, R391): the third in a row marks it failed. -/
def twinReject (s : State) (f : Nat) (b : Bool) : State :=
  let t := twinOf (fod s f) b
  let s := calReject s f 3
  let n := t.rejects + 1
  let s := setFod s f (setTwin (fod s f) b { t with ready := false, rejects := n, failed := t.failed || decide (3 ≤ n) })
  if n = 3 then raise s srcSkim kTwinFail (f + 3 * 256) else s

/-- A measured tap table of a twin (R390, R391, R393): accepted it becomes live, rejected the stored breakpoints do. -/
def twinTake (s : State) (f : Nat) (b : Bool) (breaks : List Int) : State :=
  let k := 2 * f + b2n b
  let st := calBreaks (storedCal s) k
  let ok := dtcOk st breaks
  let v := if ok then breaks else st
  let s := { s with cal := { s.cal with live := { s.cal.live with breaks := assocSet s.cal.live.breaks k v } } }
  if ok then twinAccept s f b else twinReject s f b

/-- One internal result at the apply step (R388, R390, R391): an accepted one becomes live, for a rejected one the stored
value stands. -/
def calTake (s : State) (u : CalUnit) : State :=
  let st := storedCal s
  match u with
  | .scBand n found lo hi band =>
    let s := if found then
        { s with cal := { s.cal with live := { s.cal.live with
          bands := assocSet s.cal.live.bands (64 * n.val + band % 64) (lo % 65536, hi % 65536) } } }
      else s
    bandEnd s n.val found lo hi band
  | .tdc g ofs gain =>
    let ok := tdcOk (calTdc st g.val) ofs gain
    let v := if ok then (ofs, gain) else calTdc st g.val
    let s := { s with cal := { s.cal with live := { s.cal.live with tdc := assocSet s.cal.live.tdc g.val v } } }
    if ok then s else calReject s g.val 2
  | .dtc f b breaks => twinTake s f.val b breaks

end Sys2Proof.Machine
end

