-- ==== Sys2Proof/Machine/ImageOps.lean ====
section
/-!
DEFINITION. The image that an ACTIVE module sends in a MATE_SYNC (R485): one message for each item, the last one marked.
-/
namespace Sys2Proof.Machine

open Sys2Proof

/-- The bits of a register word that an image carries: S and NV fields, ECAM entries and ECAM_GEN, image headers. -/
def syncMask (off : Nat) : Nat :=
  match regInfo off with
  | none => 0
  | some i =>
    if i.blk = .ecamEnt ∨ (i.blk = .ecam ∧ i.row.off = 0x04) ∨ (i.blk = .seq ∧ 0x60 ≤ i.row.off ∧ i.row.off < 0x80) ∨
        off = rSEAL 8 then ones 32
    else i.piece (i.row.slm ||| i.row.nv)

/-- The offsets that an image carries. -/
def syncOffs : List Nat :=
  sealSpans.flatMap (fun p => ((List.range (p.2 / 4)).map (fun k => p.1 + 4 * k)).filter (fun o => decide (syncMask o ≠ 0)))

/-- The items of the image as message fields, each behind its kind: registers, hop tables, memories, Screed, integrators,
anchors. -/
def imageFields (s : State) : List (List Int) :=
  let run := s.fods.filter (fun p => p.2.running)
  syncOffs.map (fun (o : Nat) => [0, (o : Int), ((rn s o &&& syncMask o : Nat) : Int)]) ++
  s.fods.map (fun p => [1, (p.1 : Int)] ++ (List.range 16).flatMap (fun e => hopFields (hopEnt p.2 e))) ++
  (s.mem.filter (fun c => decide (0x800000 ≤ c.1))).map (fun c => [2, (c.1 : Int), (c.2.toNat : Int)]) ++
  [[3, s.scr.tref] ++ s.scr.samples.flatMap (fun p => [p.1, p.2.1, p.2.2.1, (p.2.2.2 : Int)]) ++
    [0x10, 0x18, 0x20, 0x28].map (fun o => sx 64 (rL s (rSCR o) 2)) ++ [sx 16 (rn s (rSCR 0x34)), sx 64 (rL s (rSCR 0x38) 2)]] ++
  (List.range 4).map (fun (d : Nat) => [4, (d : Int), rfloor (dp s d).integ]) ++
  run.map (fun p => [5, (p.1 : Int)] ++ (match p.2.anchors, p.2.recs with
    | a :: _, _ => [a.cycle, rfloor a.time]
    | [], r :: _ => [r.cycle, rfloor r.time]
    | [], [] => [0, 0]))

/-- Sends messages, the last one marked as the image's end. -/
def sendItems (s : State) : List (List Int) → State
  | [] => s
  | [f] => mateSend s 0x8A (1 :: f)
  | f :: t => sendItems (mateSend s 0x8A (0 :: f)) t

/-- The ACTIVE module sends the image of a MATE_SYNC (R485). -/
def sendImage (s : State) : State := sendItems s (imageFields s)

end Sys2Proof.Machine
end

