-- ==== Sys2Proof/Machine/CmdRun.lean ====
section
/-!
DEFINITION. The start, the end and the limit of the commands of the command engine (R345 to R353, R392, R403 to R411).
-/
namespace Sys2Proof.Machine

open Sys2Proof

/-- A field of word 0. -/
def cmdF (x : Slot) (lo n : Nat) : Nat := bits x.w0 lo n

/-- The handle of the command in slot k. -/
def handleIn (k : Nat) (x : Slot) : Nat := k + x.gen * 4096

/-- Whether every reserved field and word is zero and every argument in its range (R345, R347). -/
def cmdArgsOk (x : Slot) : Bool :=
  let rest (lo hi : Nat) : Bool := decide (cmdF x 9 (lo - 9) = 0) && decide (x.w0 / 2 ^ hi % 2 ^ (32 - hi) = 0)
  let words (a b c : Bool) : Bool := (a || decide (x.w1 = 0)) && (b || decide (x.w2 = 0)) && (c || decide (x.w3 = 0))
  let region := cmdF x 16 4
  match x.w0 % 256 with
  | 1 => rest 16 23 && words false false false && decide (1 ≤ region ∧ region ≤ 5) &&
      (decide (region = 4) || decide (cmdF x 20 3 = 0))
  | 2 => rest 16 23 && words false false false && decide (1 ≤ region ∧ region ≤ 4) &&
      (decide (region = 4) || decide (cmdF x 20 3 = 0))
  | 4 => rest 9 9 && words true false false && decide (x.w1 < 16)
  | 5 => rest 16 23 && words false false false
  | 6 => rest 16 25 && words true false false && isRefIx (cmdF x 16 8) && decide (x.w1 < 65536) &&
      (x.w0.testBit 24 || decide (x.w1 = 0))
  | 7 => rest 16 22 && decide (cmdF x 19 1 = 0) && words true true false
  | 8 => rest 16 20 && words true true true && decide (cmdF x 16 4 ≠ 0) && decide (x.w2 < 65536) && decide (2 ≤ x.w3)
  | 9 => rest 9 9 && words true false false && decide (x.w1 < 8)
  | _ => rest 9 9 && words false false false

/-- The region of an NVS command (R347). -/
def cmdRegion (x : Slot) : Nat :=
  let op := x.w0 % 256
  if op = 3 then 2 else if op = 12 then 3 else cmdF x 16 4

/-- Starts a store (R348, R403, R405, R414). -/
def startStore (s : State) (k : Nat) (x : Slot) : State :=
  let r := cmdRegion x
  let core := cmdF x 20 3
  if x.w0 % 256 = 1 ∧ r = 4 ∧ ¬ rbit s (rSEQ core 4) 8 then cmdComplete s k x 8 0
  else if ¬ rbit s (rNVS 0) 0 then cmdComplete s k x 3 0
  else if srcFenced s srcNvs then cmdComplete s k x 6 0
  else storeBegin (setRunning s k x) r core (regionCopy s r core)

/-- Starts a load (R348). -/
def startLoad (s : State) (k : Nat) (x : Slot) : State :=
  let r := cmdRegion x
  let core := cmdF x 20 3
  if r = 4 ∧ ¬ seqHalted s core then cmdComplete s k x 8 0
  else setRunning s k { x with copy := newestBank s r core }

/-- The VCO step of CAL_RUN on SC n (R392): skipped where an enabled FOD runs on it. -/
def calBandStart (s : State) (n : Nat) : State :=
  if (fodsOn s n).any (fun f => fodEn s f && (fod s f).running) then orBits s 0x114 8
  else if (sc s n).awake ∧ ¬ scRetuning s n then
    setSc s n { sc s n with bandcal := some .command, lockSet := false, lockFast := false, deadline := some .command }
  else s

/-- The port step of CAL_RUN (R244, R389, R392): ports with LINK = 0 on a locked lane wait for their lane, the others are
deferred. -/
def calPortsStart (s : State) : State :=
  let s := upto 128 (fun s p =>
    let s := setPort s p { port s p with calDone := none }
    if rbit s (rPORT p 4) 0 ∨ ¬ (lane s (p / 8)).el then portDefer s p else turnWait s p) s
  upto 16 laneTurns s

/-- Starts CAL_RUN (R348, R392); it waits for a power-up calibration in progress. -/
def startCal (s : State) (k : Nat) (x : Slot) : State :=
  if s.cal.on then s
  else
    let b := if x.w1 % 16 = 0 then 15 else x.w1 % 16
    let s := setRunning s k x
    let lead := if bits b 1 2 = 0 then 0 else Config.dtcAfter s.free % 100001
    let s := { s with
      free := s.free + 1
      cal := { s.cal with on := true, power := false, blocks := b, slot := some k, deferred := 0, dtcFrom := s.time.aon + lead } }
    let s := if b.testBit 1 then upto 8 calBandStart s else s
    if b.testBit 3 then calPortsStart s else s

/-- Starts REF_QUALIFY (R192, R348): QNOW ends at once. -/
def startQual (s : State) (k : Nat) (x : Slot) : State :=
  let i := cmdF x 16 8
  if x.w0.testBit 24 then refRequal (setRunning s k x) i
  else if refBit s i 0 ∧ refMayQual s i then cmdComplete (refQnow s i) k x 0 1
  else cmdComplete s k x 6 0

/-- Starts SC_RETUNE (R107, R348): a full queue ends it. -/
def startRetune (s : State) (k : Nat) (x : Slot) : State :=
  let n := cmdF x 16 3
  let st := x.w1 + 2 ^ 32 * x.w2
  match scEnter s n (if st = 0 then stOf (nowT s) else st) none (.retune (cmdF x 20 2) true (some (handleIn k x))) with
  | some s' => setRunning s' k x
  | none => cmdComplete (raise s (srcSc n) kScQueueFull (rSC n 4)) k x 5 0

/-- The amount of a PHASE_WALK. -/
def walkAmt (x : Slot) : Int := sx 48 (x.w1 + 2 ^ 32 * x.w2)

/-- Starts PHASE_WALK (R148, R348): due at acceptance and word 3 microseconds. -/
def startWalk (s : State) (k : Nat) (x : Slot) : State :=
  let e := gangEnter s (cmdF x 16 4) (stOf ((x.acc : Int) + (x.w3 : Int) * 65536000)) none (.phSlew (walkAmt x))
  if e.2 then setRunning e.1 k { x with members := gangMembers s (cmdF x 16 4) } else cmdComplete e.1 k x 5 0

/-- Starts MATE_SYNC (R348, R485). -/
def startSync (s : State) (k : Nat) (x : Slot) : State :=
  if s.standby then cmdComplete s k x 8 0
  else if ¬ paired s ∨ ¬ mateLink s then
    cmdComplete { s with mate := { s.mate with failAt := some (nowT s) } } k x 6 0
  else sendImage (setRunning s k x)

/-- The work of a command at its start, its arguments judged (R348): a PORT_CAL waits for its lane (R389). -/
def cmdBegin (s : State) (k : Nat) (x : Slot) : State :=
  match x.w0 % 256 with
  | 1 => startStore s k x
  | 2 => startLoad s k x
  | 3 => startStore s k x
  | 4 => startCal s k x
  | 5 => if laneFree s (cmdF x 16 7 / 8) then calStart (setRunning s k x) (cmdF x 16 7) else s
  | 6 => startQual s k x
  | 7 => startRetune s k x
  | 8 => startWalk s k x
  | 10 => startSync s k x
  | 11 => if rbit s 0x40 4 then cmdComplete s k x 2 (rn s (rSEAL 8)) else setRunning s k x
  | 12 => startStore s k x
  | _ => setRunning s k x

/-- The command in slot k starts (R345, R349). -/
def cmdStart (s : State) (k : Nat) : State :=
  match slotOf s k with
  | none => s
  | some x =>
    if ¬ mayStart s k x ∨ ¬ s.coreAwake then s
    else if ¬ cmdArgsOk x then cmdComplete s k x 1 0
    else cmdBegin s k x

-- ends

/-- The end of a store (R346, R403): FAILED while the source is fenced (R414). -/
def endStore (s : State) (k : Nat) (x : Slot) (ok : Bool) : State :=
  match s.nvs.job with
  | none => s
  | some (key, b) =>
    if srcFenced s srcNvs then cmdComplete (storeDrop s) k x 6 0
    else if ok then cmdComplete (storeCommit s) k x 0 b.seqNo
    else
      let s := raise (orBits (storeStop s true) (rNVS 4) 0x20) srcNvs kVerifyFail (key / 1024 + key % 1024 * 16)
      cmdComplete s k x 6 0

/-- The end of a load (R348, R411): one of an image for a core that runs by then fails (log entry 195). -/
def endLoad (s : State) (k : Nat) (x : Slot) (ok : Bool) : State :=
  let r := cmdRegion x
  let core := cmdF x 20 3
  match x.copy with
  | some (_, b) =>
    if ok then
      if r = 4 ∧ ¬ seqHalted s core then cmdComplete (regionApply s r core b) k x 6 0
      else cmdComplete (regionApply s r core b) k x 0 b.seqNo
    else cmdComplete s k x 6 0
  | none => cmdComplete s k x 6 0

/-- The end of PORT_CAL (R246, R348): L, or `lost` where fewer than 16 pairs came. -/
def endPortCal (s : State) (k : Nat) (x : Slot) (lost : Nat) : State :=
  match (port s (cmdF x 16 7)).calDone with
  | none => s
  | some (ok, l) => cmdComplete s k x (if ok then 0 else 6) (match l with
    | some v => tw 32 v
    | none => lost)

/-- The end of REF_QUALIFY REQUAL (R348): a disqualification since its start fails it, whatever the reference is now. -/
def endQual (s : State) (k : Nat) (x : Slot) (ok : Bool) : State :=
  let i := cmdF x 16 8
  if (ref s i).dropped then cmdComplete s k x 6 0
  else if refBit s i 1 then cmdComplete s k x 0 1
  else if ¬ ok ∧ ¬ refBit s i 2 then cmdComplete s k x 6 0
  else s

/-- The end of SC_RETUNE (R107, R108, R348): LOCK_SET, or a refusal's code. -/
def endRetune (s : State) (k : Nat) (x : Slot) : State :=
  let n := cmdF x 16 3
  let y := sc s n
  match y.cmdRes.find? (fun p => decide (p.1 = handleIn k x)) with
  | none => s
  | some (h, code) =>
    let s := setSc s n { y with cmdRes := y.cmdRes.filter (fun p => decide (p.1 ≠ h)) }
    if code = 0 then cmdComplete s k x 0 (rn s (rSC n 0x110)) else cmdComplete s k x 4 code

/-- The end of PHASE_WALK (R348, R349): no member has a slew left or to come. -/
def endWalk (s : State) (k : Nat) (x : Slot) : State :=
  let left (n : Nat) : Bool :=
    decide ((foldSlew (fod s n) (nowR s)).pRem ≠ 0) ||
    (fod s n).queue.any (fun a => a.core.isNone && (match a.kind with
      | .phSlew _ => true
      | _ => false))
  if x.members.any left then s else cmdComplete s k x 0 x.members.length

/-- The command in slot k ends, `r` being what its controller reports (R346 to R348): nothing where its work is not
done. -/
def cmdFinish (s : State) (k : Nat) (r : OpOutcome) : State :=
  let (ok, v) := match r with
    | .ok v => (true, v)
    | .failed v => (false, v)
  match slotOf s k with
  | none => s
  | some x =>
    if ¬ x.running then s
    else match x.w0 % 256 with
    | 1 => endStore s k x ok
    | 2 => endLoad s k x ok
    | 3 => endStore s k x ok
    | 4 => match x.done with
      | some d => cmdComplete s k x d.1 d.2
      | none => s
    | 5 => endPortCal s k x v
    | 6 => endQual s k x ok
    | 7 => endRetune s k x
    | 8 => endWalk s k x
    | 9 => if ok then cmdComplete s k x 0 0 else cmdComplete s k x 6 (v % 8)
    | 10 => match x.done with
      | some d => cmdComplete s k x d.1 d.2
      | none => s
    | 11 => s
    | _ => endStore s k x ok

/-- The handle of an SC_RETUNE that ended does not wait for its core any more. -/
def retuneForget (s : State) (k : Nat) (x : Slot) : State :=
  let n := cmdF x 16 3
  let h := handleIn k x
  let y := sc s n
  setSc s n { y with
    cmdRes := y.cmdRes.filter (fun p => decide (p.1 ≠ h)), lockFor := y.lockFor.filter (fun i => decide (i ≠ h)) }

/-- A command reaches its maximum (R348): PHASE_WALK has none. -/
def cmdExpire (s : State) (k : Nat) : State :=
  match slotOf s k with
  | none => s
  | some x =>
    let op := x.w0 % 256
    if ¬ x.running ∨ op = 8 then s
    else
      let s := if op = 1 ∨ op = 3 ∨ op = 12 then storeDrop s
        else if op = 4 then calDropRun s
        else if op = 7 then retuneForget s k x
        else if op = 10 then { s with mate := { s.mate with failAt := some (nowT s) } }
        else s
      cmdComplete s k x 7 0

end Sys2Proof.Machine
end

