-- ==== Sys2Proof/Machine/Command.lean ====
section
/-!
DEFINITION. The commands of the command engine (R341 to R355): a submission writes the four words of CMD_FIFO.
-/
namespace Sys2Proof.Machine

open Sys2Proof

/-- Word 0 with the IRQ bit (R347). -/
def irqBit (irq : Bool) : Nat := b2n irq * 256

/-- NVS_STORE (R341 to R348): the submission. -/
def execNvsStore (m : Master) (region : Nat) (core : CoreIx) (irq : Bool) (s : State) : Host.Outcome State Fault Refusal :=
  .next (cmdAccess s m (0x01 + irqBit irq + region % 16 * 2 ^ 16 + core.val * 2 ^ 20) 0 0 0)

/-- NVS_LOAD (R341 to R348): the submission. -/
def execNvsLoad (m : Master) (region : Nat) (core : CoreIx) (irq : Bool) (s : State) : Host.Outcome State Fault Refusal :=
  .next (cmdAccess s m (0x02 + irqBit irq + region % 16 * 2 ^ 16 + core.val * 2 ^ 20) 0 0 0)

/-- CONFIG_STORE (R341 to R348): the submission. -/
def execConfigStore (m : Master) (irq : Bool) (s : State) : Host.Outcome State Fault Refusal :=
  .next (cmdAccess s m (0x03 + irqBit irq) 0 0 0)

/-- CAL_RUN (R341 to R348): the submission. -/
def execCalRun (m : Master) (blocks : Nat) (irq : Bool) (s : State) : Host.Outcome State Fault Refusal :=
  .next (cmdAccess s m (0x04 + irqBit irq) (blocks % 2 ^ 32) 0 0)

/-- PORT_CAL (R341 to R348): the submission. -/
def execPortCal (m : Master) (port : PortIx) (irq : Bool) (s : State) : Host.Outcome State Fault Refusal :=
  .next (cmdAccess s m (0x05 + irqBit irq + port.val * 2 ^ 16) 0 0 0)

/-- REF_QUALIFY (R341 to R348): the submission. -/
def execRefQualify (m : Master) (index : Nat) (requal : Bool) (limit : Nat) (irq : Bool) (s : State) :
    Host.Outcome State Fault Refusal :=
  .next (cmdAccess s m (0x06 + irqBit irq + index % 256 * 2 ^ 16 + b2n requal * 2 ^ 24) (limit % 2 ^ 32) 0 0)

/-- SC_RETUNE (R341 to R348): the submission. -/
def execScRetune (m : Master) (sc : ScIx) (slot : Fin 4) (due : BitVec 64) (irq : Bool) (s : State) :
    Host.Outcome State Fault Refusal :=
  .next (cmdAccess s m (0x07 + irqBit irq + sc.val * 2 ^ 16 + slot.val * 2 ^ 20) (due.toNat % 2 ^ 32) (due.toNat / 2 ^ 32) 0)

/-- PHASE_WALK (R341 to R348): the submission. -/
def execPhaseWalk (m : Master) (gang : Fin 16) (amount : Int) (delay : Word) (irq : Bool) (s : State) :
    Host.Outcome State Fault Refusal :=
  .next (cmdAccess s m (0x08 + irqBit irq + gang.val * 2 ^ 16) (tw 48 amount % 2 ^ 32) (tw 48 amount / 2 ^ 32) delay.toNat)

/-- SELFTEST (R341 to R348): the submission. -/
def execSelftest (m : Master) (scope : Nat) (irq : Bool) (s : State) : Host.Outcome State Fault Refusal :=
  .next (cmdAccess s m (0x09 + irqBit irq) (scope % 2 ^ 32) 0 0)

/-- MATE_SYNC (R341 to R348): the submission. -/
def execMateSync (m : Master) (irq : Bool) (s : State) : Host.Outcome State Fault Refusal :=
  .next (cmdAccess s m (0x0A + irqBit irq) 0 0 0)

/-- SCREED_SAVE (R341 to R348): the submission. -/
def execScreedSave (m : Master) (irq : Bool) (s : State) : Host.Outcome State Fault Refusal :=
  .next (cmdAccess s m (0x0C + irqBit irq) 0 0 0)

/-- COMMAND_START (R345, R348, R349): the command in a slot starts where its class lets it. -/
def execCommandStart (slot : Fin 64) (k : CycIx) (s : State) : Host.Outcome State Fault Refusal :=
  .next (cmdStart (atCyc s k) slot)

/-- COMMAND_COMPLETE (R346): the running command in a slot ends where its work is done. -/
def execCommandComplete (slot : Fin 64) (r : OpOutcome) (k : CycIx) (s : State) : Host.Outcome State Fault Refusal :=
  .next (if s.coreAwake then cmdFinish (atCyc s k) slot r else s)

/-- COMMAND_TIMEOUT (R348): the running command in a slot reaches its maximum. -/
def execCommandTimeout (slot : Fin 64) (k : CycIx) (s : State) : Host.Outcome State Fault Refusal :=
  .next (if s.coreAwake then cmdExpire (atCyc s k) slot else s)

end Sys2Proof.Machine
end

