-- ==== Sys2Proof/Machine/Bar2.lean ====
section
/-!
DEFINITION. BAR2 (R542 to R544): the bytes of the store window (R399 to R412), writes with their byte enables, reads with what
they do to semaphore words, and reads that meet an uncorrectable error.
-/
namespace Sys2Proof.Machine

open Sys2Proof

-- the store window

/-- A byte of the store window (R401, R542, R543): of a bank that a store is writing, the old or the new one. -/
def storeByte (s : State) (a : Nat) : Byte :=
  match storeAt a with
  | none => 0
  | some (0, _, o) => ((bankBytes 0 0 factoryBank)[o]?).getD 0
  | some (r, k, o) =>
    match s.nvs.job with
    | some (key, b) =>
      if key = 1024 * r + k ∧ 32 ≤ o then tornByte s key b false s.free (o - 32)
      else ((bankBytes r k (bankOf s r k))[o]?).getD 0
    | none => ((bankBytes r k (bankOf s r k))[o]?).getD 0

-- accesses

/-- A write of bytes to BAR2 (R295, R542, R543), each with its byte enable: an access to the IMEM of a core that is not
HALTED raises its fault once. -/
def bar2Put (s : State) (m a : Nat) (bs : List (Option Byte)) : State :=
  let s := coreTouch s 0xFFFFFF false
  let l := bs.zip (List.range' a bs.length)
  let on := l.filterMap (fun p => p.1.map (fun b => (p.2, b)))
  let s := (List.range 8).foldl (fun s c =>
    match on.find? (fun p => decide (imemOf p.1 = some c)) with
    | some p => if seqHalted s c then imgClear s c else raise s (srcSeq c) kImemWrite p.1 m 2
    | none => s) s
  on.foldl (fun s p =>
    match imemOf p.1 with
    | some c => if seqHalted s c then setMb s p.1 p.2 else s
    | none => if isDataMem p.1 then setMb s p.1 p.2 else s) s

/-- A byte that BAR2 reads (R542). -/
def bar2Byte (s : State) (a : Nat) : Byte :=
  if a < 0x800000 ∨ (imemOf a).isSome ∨ isDataMem a then mb s a
  else if 0xC00000 ≤ a ∧ a < 0xC80000 then storeByte s (a - 0xC00000)
  else 0

/-- A read of n bytes of BAR2 but those that its byte enables leave out: every semaphore word that it covers whole becomes 1
(R296, R543). -/
def bar2Get (s : State) (a n : Nat) (skip : List Nat) : State × List Byte :=
  let s := coreTouch s 0xFFFFFF true
  let bs := ((List.range n).filter (fun k => !skip.contains k)).map (fun k => bar2Byte s (a + k))
  let s := { s with free := s.free + 1 }
  let s := upto 16 (fun s k =>
    let w := 0x880FC0 + 4 * k
    if a ≤ w ∧ w + 4 ≤ a + n ∧ skip.all (fun j => decide (a + j < w ∨ w + 4 ≤ a + j)) then setMbs s w (leBytes 4 1) else s) s
  (s, bs)

/-- A read of BAR2 that meets an uncorrectable error (R544): the fault of the memory concerned. -/
def bar2Bad (s : State) (m a : Nat) : State :=
  let s := coreTouch s 0xFFFFFF true
  if a < 0x800000 then eccBad s (a / 128)
  else if 0x880000 ≤ a ∧ a < 0x881000 then raise s (srcSeq 0) kEcc a m 1
  else if (imemOf a).isSome ∨ isDataMem a then raise s (srcSeq ((a - 0x800000) / 0x10000)) kEcc a m 1
  else if 0xC00000 ≤ a ∧ a < 0xC80000 then
    (match storeAt (a - 0xC00000) with
    | some (r, k, _) => raise (orBits s (rNVS 4) 0x20) srcNvs kVerifyFail (r + k * 16)
    | none => s)
  else s

end Sys2Proof.Machine
end

