-- ==== Sys2Proof/Machine/DmaRun.lean ====
section
/-!
DEFINITION. What the DMA channels do of themselves (R357 to R381): fetches, the execution of a descriptor, drain bursts,
bus errors.
-/
namespace Sys2Proof.Machine

open Sys2Proof

-- reads and writes of the three spaces

/-- n words of the register space as master 4 reads them (R357). -/
def regBytes (s : State) (a : Nat) : Nat → State × List Byte
  | 0 => (s, [])
  | n + 1 =>
    let r := busRead s 4 a 32
    let t := regBytes r.1 (a + 4) n
    (t.1, leBytes 4 r.2 ++ t.2)

/-- The length of a read of n bytes at address a, widened outward to 64 bytes (R370). -/
def wideLen (a n : Nat) : Nat := (a + n + 63) / 64 * 64 - a / 64 * 64

/-- n bytes of a location, `host` being what host memory gives; reads of host memory and of BAR2 are widened to 64 bytes (R356,
R357, R370). -/
def dmaRead (s : State) (loc a n : Nat) (host : List Byte) : State × List Byte :=
  if n = 0 then (s, [])
  else if loc = 0 then
    (emit s (.hostRead (a / 64 * 64) (wideLen a n)), (host.drop (a % 64) ++ List.replicate n 0).take n)
  else if loc = 1 then
    let r := bar2Get s (a / 64 * 64) (wideLen a n) []
    (r.1, (r.2.drop (a % 64)).take n)
  else
    let r := regBytes s a ((n + 3) / 4)
    (r.1, r.2.take n)

/-- Words written to the register space by master 4 in ascending order: whether the register bus raised a fault (R357). -/
def regPutBytes (s : State) (a : Nat) : List Byte → Nat → State × Bool
  | _, 0 => (s, false)
  | b, n + 1 =>
    let r := busWrite s 4 a 32 (leNat (b.take 4))
    let t := regPutBytes r.1 (a + 4) (b.drop 4) n
    (t.1, r.2 || t.2)

/-- Bytes written at one address of a location. -/
def dmaPut (s : State) (loc a : Nat) (b : List Byte) : State × Bool :=
  if loc = 0 then (hostWrite s a b, false)
  else if loc = 1 then (bar2Put s 4 a (b.map some), false)
  else regPutBytes s a b (b.length / 4)

/-- The pieces of a destination from byte i on, none across the boundary of WRAP (R372). -/
def dstPieces (s : State) (c : Nat) (d : Desc) : Nat → Nat → List Byte → List (Nat × List Byte)
  | 0, _, _ => []
  | _ + 1, _, [] => []
  | k + 1, i, b =>
    let a := dstAddr s c d i
    let n := if d.ctrl.testBit 20 then 2 ^ dmaWrap s c - a % 2 ^ dmaWrap s c else b.length
    (a, b.take n) :: dstPieces s c d k (i + n) (b.drop n)

/-- Writes bytes to a descriptor's destination from its byte i on, in ascending order (R365): whether a register-bus fault
met one. -/
def dmaStore (s : State) (c : Nat) (d : Desc) (i : Nat) (b : List Byte) : State × Bool :=
  (dstPieces s c d (b.length + 1) i b).foldl (fun r p =>
    let q := dmaPut r.1 (dstLoc d) p.1 p.2
    (q.1, r.2 || q.2)) (s, false)

-- descriptors

/-- DMA_CUR_SRC, DMA_CUR_DST and DMA_CUR_REM at byte i of a descriptor (R381). -/
def curSet (s : State) (c : Nat) (d : Desc) (i : Nat) : State :=
  let src := if isFill d then d.src else (d.src + i) % 2 ^ 64
  let dst := if isCmp d then (d.dst + i) % 2 ^ 64 else dstAddr s c d i
  wr (wL (wL s (rDMA c 0x20) 2 src) (rDMA c 0x28) 2 dst) (rDMA c 0x30) (d.len - i)

/-- A fetch of a descriptor by a running chain whose turn has come, `bytes` being what host memory gives from its address rounded
down to 64 on (R360, R362, R363, R370, R378). -/
def dmaFetch (s : State) (c : Nat) (bytes : List Byte) : State :=
  let x := dma s c
  if ¬ isChain s c ∨ x.st ≠ 1 ∨ x.desc ≠ none ∨ ¬ s.pcieUp ∨ ¬ s.coreAwake ∨ ¬ dmaMay s c then s
  else
    let addr := rL s (rDMA c 0x10) 2
    let r := dmaRead (dmaGrant s c) 0 addr 32 bytes
    let d := descOf addr r.2
    let s := r.1
    let x := { dma s c with retries := [], inFlight := false }
    if ¬ d.ctrl.testBit 31 ∨ d.ctrl % 65536 ≠ rb s (rDMA c 0x18) 0 16 then
      if x.dbPend then setDma s c { x with dbPend := false }
      else bump (setDma s c { x with st := 2 }) (rDMA c 0x90)
    else if ¬ descOk s c d then
      raiseDma (wL (orBits (setDma s c { x with st := 5, before := 1 }) (rDMA c 4) 0x400) (rDMA c 0x38) 2 addr) c kDescError addr
    else curSet (setDma s c { x with desc := some d, regFlt := false }) c d 0

/-- Where the burst that holds byte i of a descriptor ends: at the next aligned block of 512 bytes of its source, or of its
destination for FILL (R378). -/
def burstEnd (d : Desc) (i : Nat) : Nat :=
  min d.len (i + (512 - ((if isFill d then d.dst else d.src) + i) % 512))

/-- The first index at which two lists differ. -/
def firstDiff : List Byte → List Byte → Nat → Option Nat
  | a :: s, b :: t, i => if a = b then firstDiff s t (i + 1) else some i
  | _, _, _ => none

/-- Bytes i to j - 1 of a descriptor, host memory giving `src` and `dst` (R365, R366, R368, R369): the state, whether a
register-bus fault met it, the offset of a difference. -/
def dmaData (s : State) (c : Nat) (d : Desc) (i j : Nat) (src dst : List Byte) : State × Bool × Option Nat :=
  let n := j - i
  if isFill d then
    let r := dmaStore s c d i ((List.range n).map (fun k => (leBytes 8 d.src)[(i + k) % 8]?.getD 0))
    (r.1, r.2, none)
  else if isCmp d then
    let a := dmaRead s (srcLoc d) (d.src + i) n src
    let b := dmaRead a.1 (dstLoc d) (d.dst + i) n dst
    match firstDiff a.2 b.2 i with
    | none => (b.1, false, none)
    | some k =>
      let m := k + 1 - i
      let a := dmaRead s (srcLoc d) (d.src + i) m src
      let b := dmaRead a.1 (dstLoc d) (d.dst + i) m dst
      (b.1, false, some k)
  else
    let a := dmaRead s (srcLoc d) (d.src + i) n src
    let r := dmaStore a.1 c d i a.2
    (r.1, r.2, none)

/-- MSI-X vector DMA_CTRL.VEC of channel c, and the cycle it was sent in (R365, R377). -/
def dmaMsix (s : State) (c : Nat) : State :=
  sendMsix (setDma s c { dma s c with irqAt := some (cycNo s) }) (bits (dmaCtl s c) 8 6)

/-- The write-back of a descriptor (R365, R366). -/
def dmaBack (s : State) (c : Nat) (d : Desc) (flt : Bool) (diff : Option Nat) : State :=
  let res := if isCmp d then diff.getD (ones 32) else d.len
  let ctl := bits d.ctrl 0 25 + 2 ^ 25 + b2n diff.isSome * 2 ^ 26 + b2n flt * 2 ^ 27 + bits d.ctrl 28 3 * 2 ^ 28
  let s := if isCmp d then wr s (rDMA c 0x44) res else s
  let s := if diff.isSome then orBits s (rDMA c 4) 0x800 else s
  let s := if flt then orBits s (rDMA c 4) 0x1000 else s
  let s := bump (hostWrite s d.addr (leBytes 4 ctl ++ leBytes 4 res)) (rDMA c 0x98)
  if d.ctrl.testBit 18 then dmaMsix s c else s

/-- What follows a write-back: the end of the chain, or the next descriptor (R365), a register that software writes in the same
cycle keeping its value (R367). -/
def dmaNext (s : State) (c : Nat) (d : Desc) : State :=
  let x := dma s c
  if d.ctrl.testBit 19 then
    let st := if x.st = 1 then 0 else x.st
    orBits (setDma s c { x with st := st, before := 0, desc := none, regFlt := false }) (rDMA c 4) 0x100
  else
    let s := setDma s c { x with desc := none, regFlt := false }
    let s := hwUpdate s (rDMA c 0x10) (rDMA c 4) 0x4000 (fun s => wL s (rDMA c 0x10) 2 d.next)
    hwUpdate s (rDMA c 0x18) (rDMA c 4) 0x4000 (fun s => wb s (rDMA c 0x18) 0 16 ((rb s (rDMA c 0x18) 0 16 + 1) % 65536))

/-- Whether a descriptor's data phase reads host memory (R356, R368, R369). -/
def readsHost (d : Desc) : Bool := !isFill d && (decide (srcLoc d = 0) || (isCmp d && decide (dstLoc d = 0)))

/-- The end of a descriptor (R361, R365). -/
def dmaEnd (s : State) (c : Nat) (d : Desc) (diff : Option Nat) : State :=
  dmaNext (dmaBack s c d (dma s c).regFlt diff) c d

/-- One burst's bytes i to j - 1, read, moved or compared, the registers of R381 brought to the next byte; `whole` where the
burst ends there. A write of its own to the register space may abort the descriptor (R382). -/
def dmaBurst (s : State) (c : Nat) (d : Desc) (i j : Nat) (src dst : List Byte) (whole : Bool) : State × Option Nat :=
  let r := dmaData (dmaGrant s c) c d i j src dst
  let x := dma r.1 c
  if x.desc = none then (r.1, none)
  else
    let s := setDma r.1 c { x with regFlt := x.regFlt || r.2.1, retries := [],
                                   inFlight := x.inFlight && !(whole || r.2.2.isSome) }
    (curSet s c d (match r.2.2 with
      | some k => k + 1
      | none => j), r.2.2)

/-- The byte that a descriptor stands at (R381). -/
def dmaPos (s : State) (c : Nat) (d : Desc) : Nat := d.len - rn s (rDMA c 0x30)

/-- Whether a running chain may move data of its descriptor now; reads of host memory fail while the link is down (R532). -/
def dmaReady (s : State) (c : Nat) (d : Desc) : Bool := dmaMay s c && (s.pcieUp || !readsHost d)

/-- What is left of host memory's bytes when the next byte moves from address a to a + n. -/
def hostRest (l : List Byte) (a n : Nat) : List Byte := l.drop ((a + n) / 64 * 64 - a / 64 * 64)

/-- A running chain moves its descriptor burst by burst while the turn is its own (R365, R378), no further than byte `lim`,
and writes it back at its end (R361). -/
def dmaLoop : Nat → State → Nat → Nat → List Byte → List Byte → State
  | 0, s, _, _, _, _ => s
  | k + 1, s, c, lim, src, dst =>
    match (dma s c).desc with
    | none => s
    | some d =>
      let i := dmaPos s c d
      if ¬ isChain s c ∨ (dma s c).st ≠ 1 then s
      else if d.len ≤ i then dmaEnd s c d none
      else if lim ≤ i ∨ ¬ dmaReady s c d then s
      else
        let e := burstEnd d i
        let j := min lim e
        let r := dmaBurst s c d i j src dst (decide (j = e))
        match r.2 with
        | some x => dmaEnd r.1 c d (some x)
        | none => dmaLoop k r.1 c lim (hostRest src (d.src + i) (j - i)) (hostRest dst (d.dst + i) (j - i))

/-- The single-bit errors that the capture RAM corrected in the reads of a descriptor's data (R287). -/
def dmaFixed (s : State) (d : Desc) (src dst : DmaSide) : State :=
  let at_ (loc a n : Nat) : Nat := if loc = 1 ∧ a < 0x800000 then n else 0
  if isFill d then s
  else bump s 0x708048 (at_ (srcLoc d) d.src src.fixed + (if isCmp d then at_ (dstLoc d) d.dst dst.fixed else 0))

/-- A running chain executes its descriptor, as far as byte `lim`. -/
def dmaRun (s : State) (c lim : Nat) (src dst : DmaSide) : State :=
  match (dma s c).desc with
  | none => s
  | some d =>
    let i := dmaPos s c d
    let s := if isChain s c ∧ (dma s c).st = 1 ∧ i < min lim d.len ∧ dmaReady s c d then dmaFixed s d src dst else s
    dmaLoop (d.len / 512 + 3) s c lim src.bytes dst.bytes

/-- DESC_WRITE_BACK: a running chain executes its descriptor to the end and writes it back (R361, R365). -/
def dmaExec (s : State) (c : Nat) (src dst : DmaSide) : State :=
  if ¬ s.coreAwake then s else dmaRun s c (2 ^ 32) src dst

/-- The byte at which a read of a running descriptor fails: that of the address in the source or, for COMPARE, in the
destination; none where the descriptor has no read there (R369, R370). -/
def failAt (s : State) (c : Nat) (d : Desc) (addr loc : Nat) : Option Nat :=
  let i := dmaPos s c d
  let side (l a : Nat) : Option Nat :=
    if l = loc ∧ i < d.len ∧ (a + i) / 64 * 64 ≤ addr ∧ addr < (a + d.len + 63) / 64 * 64 then
      some (min (d.len - 1) (max i (addr - a))) else none
  if isFill d then none
  else match side (srcLoc d) d.src with
  | some j => some j
  | none => if isCmp d then side (dstLoc d) d.dst else none

/-- A read of channel c fails at an address of host memory or of BAR2 (R380, R544): it is retried, or the channel halts at it. -/
def readFail (s : State) (c addr loc : Nat) (fetch : Bool) : State :=
  let s := dmaGrant s c
  let s := if loc = 1 then bar2Bad s 4 addr else s
  let x := dma s c
  let n := match x.retries.find? (fun p => decide (p.1 = (loc, addr))) with
    | some p => p.2
    | none => 0
  if n < bits (dmaCtl s c) 14 3 then
    bump (setDma s c { x with retries := ((loc, addr), n + 1) :: x.retries.filter (fun p => decide (p.1 ≠ (loc, addr))) })
      (rDMA c 0x94)
  else
    let s := setDma s c { x with st := 5, before := 1, inFlight := false }
    let s := wr (wL s (rDMA c 0x38) 2 addr) (rDMA c 0x40) (loc + 4 * b2n fetch)
    raiseDma (orBits s (rDMA c 4) 0x200) c kBusError addr

/-- A read of a running chain fails once (R380): what stands before it is moved first. An error in a slot of the capture RAM is
R287's and no bus error; register space gives none. -/
def busErr (s : State) (c addr loc : Nat) (fetch : Bool) (data : DmaData) : State :=
  let x := dma s c
  if ¬ isChain s c ∨ x.st ≠ 1 ∨ 2 ≤ loc ∨ fetch ≠ x.desc.isNone then s
  else match x.desc with
  | none =>
    let p := rL s (rDMA c 0x10) 2
    if loc = 0 ∧ p / 64 * 64 ≤ addr ∧ addr < p / 64 * 64 + wideLen p 32 ∧ dmaMay s c then readFail s c addr 0 true else s
  | some d =>
    match failAt s c d addr loc with
    | none => s
    | some j =>
      let s := dmaRun s c j data.src data.dst
      if (dma s c).desc ≠ some d ∨ dmaPos s c d ≠ j ∨ (dma s c).st ≠ 1 ∨ ¬ dmaMay s c then s
      else if loc = 1 ∧ addr < 0x800000 then eccBad (coreTouch s 0xFFFFFF true) (addr / 128)
      else readFail s c addr loc false

-- draining

/-- A drain burst passes one slot (R374, R376): a record that is not void goes to the host buffer. -/
def drainSlot (s : State) (c : Nat) : State :=
  let n := bits (dmaCtl s c) 2 4
  let slot := ringSlot s n (ring s n).rd
  let hwr := rn s (rDMA c 0x6C)
  let s := if slotType s slot = 0 then s
    else
      let a := rL s (rDMA c 0x60) 2 + 128 * (hwr % 2 ^ rb s (rDMA c 0x68) 0 5)
      wr (hostWrite s a (mbs s (0x80 * slot) 128)) (rDMA c 0x6C) ((hwr + 1) % 2 ^ 32)
  ringPass1 s n

/-- What follows a burst (R377): DMA_HWR to the host, and the vector unless it was sent too lately. -/
def drainAfter (s : State) (c : Nat) : State :=
  let wb_ := rL s (rDMA c 0x78) 2
  let s := if wb_ = 0 then s else hostWrite s wb_ (leBytes 4 (rn s (rDMA c 0x6C)))
  let x := dma s c
  let hold : Bool := match x.irqAt with
    | some t => decide (cycNo s < t + rb s (rDMA c 0x80) 0 16 * 1000)
    | none => false
  if (dmaCtl s c).testBit 7 ∧ ¬ hold then dmaMsix s c else s

/-- The slots of a burst pass out of ring n; where software writes RING_RD in the same cycle its value stands and DISCARD is
set, the ring's counts with it (R285). -/
def ringAdvance (s : State) (n : Nat) (x : RingSt) : State :=
  hwUpdate (setRing s n x) (rRING n 0x0C) (rRING n 4) 0x100 (fun t => setRing t n (ring s n))

/-- A drain burst is granted to channel c where its turn has come (R376 to R378), the capture RAM correcting `fixed` single-bit
errors in its reads (R287). -/
def drainRun (s : State) (c fixed : Nat) : State :=
  if ¬ isDrain s c ∨ dmaTurn s ≠ some c ∨ ¬ s.coreAwake then s
  else
    let n := bits (dmaCtl s c) 2 4
    let x := ring s n
    let k := min 4 (min (ringFill (ring s n)) (dmaRoom s c))
    let s := bump (bump { s with dmaLast := c } (rDMA c 0x9C)) 0x708048 fixed
    let s := setDma s c { dma s c with flush := false, promoted := false }
    drainAfter (ringOver (ringAdvance (upto k (fun s _ => drainSlot s c) s) n x) n) c

/-- DMA_FLUSH_US pass without a burst (R375). -/
def drainFlush (s : State) (c : Nat) : State :=
  let x := dma s c
  if isDrain s c ∧ x.st = 1 ∧ rb s (rDMA c 0x58) 0 16 ≠ 0 ∧ 1 ≤ ringFill (ring s (bits (dmaCtl s c) 2 4)) then
    setDma s c { x with flush := true }
  else s

/-- A channel's request has waited 50 µs (R378). -/
def dmaPromote (s : State) (c : Nat) : State :=
  let x := dma s c
  if dmaWants s c ∧ ¬ x.promoted then bump (setDma s c { x with promoted := true }) (rDMA c 0xA0) else s

end Sys2Proof.Machine
end

