-- ==== Sys2Proof/Machine/Dma.lean ====
section
/-!
DEFINITION. The commands of the DMA engine (R356 to R385).
-/
namespace Sys2Proof.Machine

open Sys2Proof

/-- DMA_ENABLE (R373, R382): a write of DMA_CTRL. -/
def execDmaEnable (m : Master) (c : DmaIx) (v : Word) (s : State) : Host.Outcome State Fault Refusal :=
  .next (regPut s m (rDMA c 0) v.toNat)

/-- DMA_PAUSE (R381): DMA_CTRL.PAUSE through the set view. -/
def execDmaPause (m : Master) (c : DmaIx) (s : State) : Host.Outcome State Fault Refusal :=
  .next (regPut s m (0x1000000 + rDMA c 0) 0x40)

/-- DMA_PAUSED (R381): the writes of the data already read are done. -/
def execDmaPaused (c : DmaIx) (s : State) : Host.Outcome State Fault Refusal :=
  .next (if (dma s c).st = 3 then setDma s c { dma s c with st := 4 } else s)

/-- DMA_DOORBELL (R362, R363): DMA_CMD.DOORBELL. -/
def execDmaDoorbell (m : Master) (c : DmaIx) (s : State) : Host.Outcome State Fault Refusal :=
  .next (regPut s m (rDMA c 8) 1)

/-- DMA_RESUME (R382): DMA_CMD.RESUME. -/
def execDmaResume (m : Master) (c : DmaIx) (s : State) : Host.Outcome State Fault Refusal :=
  .next (regPut s m (rDMA c 8) 2)

/-- DMA_ABORT (R382): DMA_CMD.ABORT. -/
def execDmaAbort (m : Master) (c : DmaIx) (s : State) : Host.Outcome State Fault Refusal :=
  .next (regPut s m (rDMA c 8) 4)

/-- DESC_FETCH (R359 to R363): host memory gives the 32 bytes at DMA_DESC_PTR. -/
def execDescFetch (c : DmaIx) (bytes : List Byte) (s : State) : Host.Outcome State Fault Refusal :=
  .next (dmaFetch s c bytes)

/-- DESC_WRITE_BACK (R361, R365, R366): what the reads of the rest of the source and, for COMPARE, of the destination bring. -/
def execDescWriteBack (c : DmaIx) (src dst : DmaSide) (s : State) : Host.Outcome State Fault Refusal :=
  .next (dmaExec s c src dst)

/-- DRAIN_BURST (R376, R377). -/
def execDrainBurst (b : DrainMsg) (s : State) : Host.Outcome State Fault Refusal := .next (drainRun s b.chan b.fixed)

/-- DRAIN_FLUSH_TIMER (R375). -/
def execDrainFlushTimer (c : DmaIx) (s : State) : Host.Outcome State Fault Refusal :=
  .next (if s.coreAwake then drainFlush s c else s)

/-- DMA_PROMOTION (R378). -/
def execDmaPromotion (c : DmaIx) (s : State) : Host.Outcome State Fault Refusal :=
  .next (if s.coreAwake then dmaPromote s c else s)

/-- DMA_BUS_ERROR (R380): one failing read. -/
def execDmaBusError (c : DmaIx) (addr : BitVec 64) (loc : Fin 4) (fetch : Bool) (data : DmaData) (s : State) :
    Host.Outcome State Fault Refusal :=
  .next (if s.coreAwake then busErr s c addr.toNat loc fetch data else s)

/-- DMA_HRD_WRITE (R374): a write of DMA_HRD. -/
def execDmaHrdWrite (m : Master) (c : DmaIx) (v : Word) (s : State) : Host.Outcome State Fault Refusal :=
  .next (regPut s m (rDMA c 0x70) v.toNat)

end Sys2Proof.Machine
end

