-- ==== Sys2Proof/Machine/StartOps.lean ====
section
/-!
DEFINITION. The start sequence, power-up calibration and Skim (R315, R386 to R398, R409, R459, R463, R507, R515).
-/
namespace Sys2Proof.Machine

open Sys2Proof

/-- A STANDBY module without an active mate claims at once where the mate's two lines are low (R462, R463). -/
def claimAtOnce (s : State) : State := if mayClaim s ∧ ¬ s.mate.lineAlive then claimRole s else s

/-- The first row of the start sequence (R507, R509): the state is AON_ONLY and the core domain wakes. -/
def startRow (s : State) : State :=
  let s := { s with coreAwake := true, pwr := { s.pwr with phase := 1, wdAt := s.time.aon } }
  drainFaults (claimAtOnce (mateEval (lineEval (setPwrState s 1))))

/-- The AON becomes ready after POR: Plain and the supply monitor start (R67, R507); the rest of the first row waits for the
release of MRST_N (R509). -/
def aonReadyRun (s : State) : State :=
  if s.pwr.power ≠ 2 ∨ s.time.started then s
  else
    let s := { s with
      free := s.free + 1, time := { s.time with started := true }
      pwr := { s.pwr with ocxoLead := Config.ocxoLead s.free % 20000001 } }
    if s.pwr.mrst then setPwrState s 1 else startRow s

-- the load

/-- What the load reports of a region (R409): no valid bank, or one valid bank beside one whose COMMIT is NOT CHECK and
that fails another check. -/
def loadReport (s : State) (r : Nat) : State :=
  match newestBank s r 0 with
  | none => raise (orBits s (rNVS 4) 8) srcNvs kNoValidBank r
  | some (k, _) =>
    let o := 1 - k
    if bankDone (bankOf s r o) ∧ ¬ bankValid r o (bankOf s r o) then raise (orBits s (rNVS 4) 0x10) srcNvs kBankCorrupt (r + o * 16) else s

/-- The newest valid bank of a region, FACTORY's contents or the empty model where there is none (R409). -/
def loadBank (s : State) (r : Nat) : Bank :=
  match newestBank s r 0 with
  | some (_, b) => b
  | none => bankInit

/-- Whether the load after MRST_N reloads a register: those of the core domain, the SCs and snapshots excepted, whose own
rules keep them (R122, R451, R512). -/
def mrstReloads (i : RegInfo) : Bool :=
  !([.time, .fcol, .nvs, .pwr, .sc, .snap] : List Blk).contains i.blk

/-- The CONFIG words that a load applies: at POR all, after MRST_N those that reload, the others standing as they are. -/
def loadWords (s : State) (words : List (Nat × Word)) : List (Nat × Word) :=
  if s.pwr.cold then words
  else
    let keep (o : Nat) : Bool := match regInfo o with
      | some i => mrstReloads i
      | none => false
    words.filter (fun p => keep p.1) ++ s.regs.filter (fun p => !keep p.1)

/-- SC_PLAN0 becomes the ratio in force of every SC at POR (R106). -/
def planCopy (s : State) : State :=
  upto 8 (fun s n => setSc (setRatio s n (ratioAt s (rSC n 0x40))) n { sc s n with slot := 0 }) s

/-- PWR_RST_PREV and the LOG entry of a POR (R507, R515). -/
def logStart (s : State) : State :=
  let down : Bool := match newestBank s 5 0 with
    | some (_, b) => decide (payWord b.words 0 % 16 = 5)
    | none => false
  logWrite (wr s (rPWR 0x50) (b2n down))

/-- The end of the load of the persistent state (R106, R352, R409, R507). -/
def loadDone (s : State) : State :=
  if s.pwr.phase ≠ 1 then s
  else
    let cold := s.pwr.cold
    let s := loadReport s 1
    let c := loadBank s 1
    let s := portDlyApply { s with cal := { s.cal with live := c.calib } } c.words
    let s := s.cal.stops.foldl (fun s p => orBits s (rPORT p 4) 4) s
    let s := loadReport s 2
    let s := configApply s (loadWords s (loadBank s 2).words)
    let s := if cold then screedApply (loadReport s 3) (loadBank s 3) else s
    let s := if cold then planCopy s else s
    let s := { s with nvsLoaded := true, pwr := { s.pwr with phase := 2 } }
    let s := if cold then logStart s else s
    groupEval (scWakeEval (nvsShow s))

-- power-up calibration

/-- Power-up calibration starts (R386, R507): it waits for PARK = 0. -/
def calPower (s : State) : State :=
  if s.pwr.phase ≠ 2 ∨ rbit s (rPWR 0) 0 then s
  else
    let st := if s.fcol.safe then 5 else if s.pwr.ride.isSome then 4 else if rbit s (rPWR 4) 6 then 3 else 2
    let s := setPwrState { s with coreAwake := true, pwr := { s.pwr with phase := 3 } } st
    let s := { s with
      groups := ones 16
      cal := { s.cal with on := true, power := true, blocks := 7, slot := none, turns := [], had := [], deferred := 0 } }
    let s := scWakeEval s
    drainFaults (upto 8 (fun s n =>
      if (sc s n).awake then
        setSc s n { sc s n with bandcal := some .wake, deadline := some .wake, lockSet := false, lockFast := false }
      else s) s)

/-- Whether a port of CAL_RUN's port step is not done yet. -/
def portsOpen (s : State) : Bool :=
  (List.range 128).any (fun p => (port s p).cal.isSome || s.cal.turns.contains (p + 128))

/-- Whether a result is one that the present calibration measures (R386, R392). -/
def calMeasures (s : State) (u : CalUnit) : Bool :=
  s.cal.power ||
  (match u with
  | .scBand n _ _ _ _ => s.cal.blocks.testBit 1 && !(fodsOn s n.val).any (fun f => fodEn s f && (fod s f).running)
  | .tdc _ _ _ => s.cal.blocks.testBit 2
  | .dtc f b _ => s.cal.blocks.testBit 0 && (!(fod s f.val).running || decide (b ≠ (fod s f.val).twinB)))

/-- Whether a result is rejected (R390). -/
def calBad (s : State) (u : CalUnit) : Bool :=
  let st := storedCal s
  match u with
  | .scBand _ _ _ _ _ => false
  | .tdc g ofs gain => !tdcOk (calTdc st g.val) ofs gain
  | .dtc f b l => !dtcOk (calBreaks st (2 * f.val + b2n b)) l

/-- CAL_COUNT, CAL_LAST and PWRUP_DONE at the apply step (R388). -/
def calStamp (s : State) : State :=
  let s := wr s 0x100 ((rn s 0x100 + 1) % 2 ^ 32)
  orBits (wL s 0x104 4 (tFormat (readT s) (timeFlags s))) 0x114 1

/-- Autostart of core n (R315, R409): the copy, the verification and the start; none in SAFE (R318). -/
def autoStart (s : State) (n : Nat) : State :=
  if ¬ rbit s (rSEQ n 0) 2 ∨ s.fcol.safe then s
  else match newestBank s 4 n with
    | none => raise (orBits s (rNVS 4) 8) srcNvs kNoValidBank (4 + n * 16)
    | some (_, b) =>
      if ¬ seqHalted s n then imageApply s n b
      else
        let s := seqVerified (imageApply s n b) n
        if rbit s (rSEQ n 4) 8 then seqStartCmd s n else s

/-- Every twin has age 0 after the apply step of power-up (R393). -/
def twinsYoung (s : State) : State :=
  let t : Int := nowT s
  upto 128 (fun s n =>
    let x := fod s n
    setFod s n { x with twinA := { x.twinA with born := t }, twinBee := { x.twinBee with born := t } }) s

/-- The end of power-up (R315, R459, R507): the cores start before an output may. -/
def powerEnd (s : State) : State :=
  let s := if s.pwr.cold then upto 8 autoStart s else s
  let s := { s with pwr := { s.pwr with phase := 4 } }
  let s := groupEval (scWakeEval (twinsYoung s))
  if ¬ paired s ∧ s.standby then takeRole s else s

/-- The apply step (R388, R390 to R393): every accepted result takes effect; CAL_RUN's waits for its port step. -/
def calApplyRun (s : State) (results : List CalUnit) : State :=
  if ¬ s.cal.on ∨ (¬ s.cal.power ∧ s.cal.blocks.testBit 3 ∧ portsOpen s) then s
  else
    let l := results.filter (calMeasures s)
    let bad := (l.filter (calBad s)).length
    let power := s.cal.power
    let s := calStamp (l.foldl calTake s)
    if power then powerEnd { s with cal := { s.cal with on := false, power := false } }
    else
      let ports := if s.cal.blocks.testBit 3 then
          ((List.range 128).filter (fun p => decide ((port s p).calDone.map (·.1) = some false))).length
        else 0
      let d := if s.cal.blocks.testBit 3 then s.cal.deferred else 0
      let s := match s.cal.slot with
        | some k => (match slotOf s k with
          | some x => setSlot s k { x with done := some (0, min (bad + ports) 0xFFFF + min d 0xFFFF * 65536) }
          | none => s)
        | none => s
      { s with cal := { s.cal with on := false, slot := none } }

/-- A port whose lane has no block lock when its turn is over is deferred (R389). -/
def portCalDefer (s : State) (p : Nat) : State :=
  if s.cal.turns.contains p ∧ ¬ (lane s (p / 8)).el then
    portDefer { s with cal := { s.cal with turns := s.cal.turns.filter (· ≠ p) } } p
  else s

-- Skim

/-- SOFT and HARD in seconds (R412): SOFT = 0 acts as 1, HARD below SOFT as SOFT. -/
def skimSoft (s : State) : Nat := atLeast1 (rb s 0x120 8 8)
def skimHard (s : State) : Nat := max (skimSoft s) (rb s 0x120 16 8)

/-- The age of the active twin in ticks (R393). -/
def activeAge (s : State) (n : Nat) : Int := (nowT s : Int) - (twinOf (fod s n) (fod s n).twinB).born

/-- Whether the active twin of FOD n has reached the soft limit (R396). -/
def softOld (s : State) (n : Nat) : Bool := decide ((skimSoft s * secTicks : Nat) ≤ activeAge s n)

/-- The FODs of a group in the order of a round of Skim: those at the soft limit first, each ascending (R393, R396). -/
def skimOrder (s : State) (g : Nat) : List Nat :=
  let l := ((List.range 8).map (8 * g + ·)).filter (fun n => skimMay s n && (fod s n).running)
  l.filter (softOld s) ++ l.filter (fun n => !softOld s n)

/-- The FOD of a group that Skim visits next: the first that its round has not visited, or the first of a new round. -/
def skimNext (s : State) (g : Nat) : Option Nat :=
  let l := skimOrder s g
  match l.find? (fun n => !(wit s g).skim.testBit (n % 8)) with
  | some n => some n
  | none => l.head?

/-- Skim's round after a visit of FOD n (R393): a round ends with the visit of every FOD in it. -/
def skimDone (s : State) (n : Nat) : State :=
  let g := n / 8
  let w := wit s g
  let fresh := !(skimOrder s g).any (fun m => !w.skim.testBit (m % 8))
  { s with wits := mput (fun _ => witInit) s.wits g { w with skim := (if fresh then 0 else w.skim) ||| 2 ^ (n % 8) } }

/-- Skim's visit of a running FOD ends, in its turn: the table measured of its inactive twin is judged (R390, R391, R393,
R396). -/
def skimRun (s : State) (n : Nat) (breaks : List Int) : State :=
  if ¬ skimMay s n ∨ ¬ (fod s n).running ∨ skimNext s (n / 8) ≠ some n then s
  else
    let b := !(fod s n).twinB
    let s := wr (skimDone s n) 0x124 (n + 128 * b2n b)
    twinTake s n b breaks

/-- Whether a device time lies in the present AON period. -/
def inAon (s : State) (t : Rat) : Bool :=
  decide ((s.time.plain : Rat) / 2 ^ 32 ≤ t) && decide (t < ((s.time.plain : Rat) + (tickInc s).1) / 2 ^ 32)

/-- Whether an output edge of FOD n lies on a device-second boundary of the present AON period (R394): of an aligned output
its grid says so. -/
def secondEdge (s : State) (n : Nat) : Bool :=
  let x := fod s n
  let b : Rat := ((rceil ((s.time.plain : Rat) / (secSub : Rat)) : Int) : Rat) * (secTicks : Rat)
  let T := nomPeriod x.n x.f x.m x.o (scQ s x.sc)
  inAon s b && (if alignMode s n x then decide (reduceHalf (b - x.phi) T = 0)
    else decide ((edgeFrom s x.recs x.anchors b).map (·.2) = some b))

/-- Whether FOD n is in a natural gap in the present AON period (R394): any edge of an FOD that does not run or drive, E1 of a
hop, a second boundary of a gang's member. -/
def inGap (s : State) (n : Nat) : Bool :=
  let x := fod s n
  !x.running || !x.driving || (decide (rb s (rFOD n 0) 4 4 ≠ 0) && secondEdge s n) ||
  x.recs.any (fun r => decide (r.kind = 3) && inAon s r.time)

/-- A swap in a natural gap (R395): the inactive twin is at least 1 s younger. -/
def skimNatural (s : State) (n : Nat) : State :=
  let x := fod s n
  let young := decide ((twinOf x x.twinB).born + (secTicks : Int) ≤ (twinOf x (!x.twinB)).born)
  if skimMay s n ∧ skimReady x ∧ young ∧ inGap s n then bump (twinSwap s n) 0x128 else s

/-- The soft limit (R396): reported once until the next swap. -/
def softAgeRun (s : State) (n : Nat) : State :=
  let o := 0x140 + 4 * (n / 32)
  if skimMay s n ∧ softOld s n ∧ ¬ rbit s o (n % 32) then
    raise (orBits s o (2 ^ (n % 32))) srcSkim kSoftAge (n + 3 * 256)
  else s

/-- The held period of a forced swap (R131): the edge that ends the output period in progress lies one previous period after
the edge before it, and the next one at its ideal position again. -/
def staleHold (s : State) (n : Nat) : State :=
  let x := fod s n
  match edgeAfter s x.recs x.anchors (nowR s) with
  | none => s
  | some (c, u) =>
    let a := lawOf s x.recs x.anchors (c - 1)
    let b := lawOf s x.recs x.anchors (c - 2)
    let held := a + (a - b)
    let v := lawOf s x.recs x.anchors (c + 1)
    let s := pushRec s n 12 0 c held s.order
    let s := if held = u then s else pushRec s n 12 0 (c + 1) v s.order
    setFod s n { fod s n with holdUntil := some held }

/-- Whether a queued hop of FOD n has its t_h in the output period in progress (R181). -/
def hopInPeriod (s : State) (n : Nat) : Bool :=
  let x := fod s n
  match edgeBefore s x.recs x.anchors (nowR s), edgeAfter s x.recs x.anchors (nowR s) with
  | some (_, a), some (_, b) => x.queue.any (fun q => match q.kind with
    | .hop e => !q.held && decide (a ≤ (q.due : Rat) ∧ (q.due : Rat) < b) && hopWouldRun s n e
    | _ => false)
  | _, _ => false

/-- Whether a hop of FOD n has executed in the output period in progress, its E1 to come (R181). -/
def hopAhead (s : State) (n : Nat) : Bool :=
  match (fod s n).trans with
  | some (a, e1, _) => decide (a ≤ nowR s ∧ nowR s < e1)
  | none => false

/-- A swap at the hard limit (R131, R181, R397): forced, unless a hop's E1 ends the output period in progress. -/
def skimForced (s : State) (n : Nat) : State :=
  let x := fod s n
  if skimMay s n ∧ x.running ∧ skimReady x ∧ (skimHard s * secTicks : Nat) ≤ activeAge s n then
    if hopAhead s n then bump (twinSwap s n) 0x128
    else if hopInPeriod s n then setFod s n { x with swapDue := true }
    else
      let s := bumpM (orBits (twinSwap (staleHold s n) n) (rFOD n 4) 0x200) (rFOD n 0x8C)
      raiseFod (bump s 0x12C) n kStale none
  else s

end Sys2Proof.Machine
end

