-- ==== Sys2Proof/Machine/Start.lean ====
section
/-!
DEFINITION. The commands of start, calibration and the non-volatile store (R386 to R414, R507).
-/
namespace Sys2Proof.Machine

open Sys2Proof

/-- AON_READY (R67, R463, R507). -/
def execAonReady (s : State) : Host.Outcome State Fault Refusal := .next (aonReadyRun s)

/-- NVS_LOAD_COMPLETE (R409, R507). -/
def execNvsLoadComplete (s : State) : Host.Outcome State Fault Refusal := .next (loadDone s)

/-- POWERUP_CAL_START (R386, R507). -/
def execPowerupCalStart (s : State) : Host.Outcome State Fault Refusal := .next (calPower s)

/-- CAL_APPLY (R388 to R393, R315). -/
def execCalApply (results : List CalUnit) (k : CycIx) (s : State) : Host.Outcome State Fault Refusal :=
  .next (calApplyRun (atCyc s k) results)

/-- PORT_CAL_DEFER (R389). -/
def execPortCalDefer (port : PortIx) (s : State) : Host.Outcome State Fault Refusal := .next (portCalDefer s port.val)

/-- SKIM_MEASURE (R390, R391, R393, R398): the delays at the 33 breakpoints, in 1/64 ps. -/
def execSkimMeasure (fod : FodIx) (breaks : List Int) (s : State) : Host.Outcome State Fault Refusal :=
  .next (skimRun s fod.val breaks)

/-- SKIM_NATURAL_SWAP (R394, R395, R398). -/
def execSkimNaturalSwap (fod : FodIx) (s : State) : Host.Outcome State Fault Refusal := .next (skimNatural s fod.val)

/-- SOFT_AGE (R396, R398). -/
def execSoftAge (fod : FodIx) (s : State) : Host.Outcome State Fault Refusal := .next (softAgeRun s fod.val)

/-- SKIM_FORCED_SWAP (R131, R397, R398). -/
def execSkimForcedSwap (fod : FodIx) (s : State) : Host.Outcome State Fault Refusal := .next (skimForced s fod.val)

end Sys2Proof.Machine
end

