-- ==== Sys2Proof/Machine/PwrOps.lean ====
section
/-!
DEFINITION. Resets and the supply (R492 to R518): POR, MRST_N, the watchdog, the domains, ride-through, the supply monitor,
the ordered shutdown.
-/
namespace Sys2Proof.Machine

open Sys2Proof

-- power

/-- What outlasts the loss of every supply: the store, the slot of the backplane, what R351 and R352 want known of the commands
that it ended, and the model's own fields. -/
def coldState (s : State) (power : Nat) : State :=
  let s := calLose s
  { State.reset with
    pending := s.pending, free := s.free, out := s.out, nvs := ⟨s.nvs.banks, none⟩
    cal := { State.reset.cal with stops := s.cal.stops }
    mate := { mateInit with slotB := s.mate.slotB, lineActive := s.mate.lineActive, lineAlive := s.mate.lineAlive }
    pwr := { pwrInit with power := power, lost := if s.cmd.slots = [] then s.pwr.lost else cmdLost s } }

/-- POR as the store reaches 8 V (R20, R351, R512, R514): a module that is OFF has no energy to come up. -/
def porRun (s : State) : State :=
  if s.pwr.power = 0 then s
  else
    let s := coldState (storeDrop s) 2
    let l := s.pwr.lost
    wr (wr { s with pwr := { s.pwr with lost := (0, 0) } } (rPWR 0x40) (1 + l.1)) (rPWR 0x44) l.2

/-- The module without power: OFF (R496, R501). -/
def powerOff (s : State) : State := coldState s 0

/-- INPUT_IN_RANGE: OFF to CHARGE (R496). -/
def chargeRun (s : State) : State := if s.pwr.power = 0 then { s with pwr := { s.pwr with power := 1 } } else s

/-- SUPPLY_COLLAPSE (R352): a store in progress is cut short. -/
def collapseRun (s : State) : State := powerOff (storeDrop s)

/-- Whether the module is fed from the store (R496). -/
def onStore (s : State) : Bool := rbit s (rPWR 4) 5

/-- The ordered shutdown (R352, R501, R514, R515): the store in progress ends, a LOG entry is written, the module is OFF. -/
def shutdownRun (s : State) : State :=
  if s.pwr.power ≠ 2 ∨ ¬ onStore s then s
  else powerOff (logWrite (rstRecord (storeCommit s) 5 (pwrState s) 0 false))

-- MRST_N

/-- What MRST_N does to an FOD (R145, R156, R163, R258): its output is off, its queue and its Lath are empty; it keeps its
hop table and its twins' tables. -/
def fodMrst (s : State) (n : Nat) (x : Fod) : Fod :=
  { fodInit n with
    n := x.n, f := x.f, m := x.m, o := x.o, sc := x.sc, hops := x.hops, twinB := x.twinB, twinA := x.twinA,
    twinBee := x.twinBee, offAt := some (nowR s), tdcAt := x.tdcAt }

/-- What MRST_N does to an SC (R122): its queue is empty and it is neither fenced nor frozen; a ramp completes. -/
def scMrst (x : Sc) : Sc :=
  { x with queue := [], fenced := false, frozen := false, rehome := none, cmdRes := [], lockFor := [] }

/-- The collector after MRST_N (R436): SAFE, fences, pending severities, shadows and queued injections are over. -/
def fcolMrst (f : FcolSt) : FcolSt :=
  { f with
    safe := false, fenced := [], pend := [], windows := [], scFods := []
    queues := f.queues.filterMap (fun p =>
      let l := p.2.filter (fun r => !r.forced)
      if l = [] then none else some (p.1, l)) }

/-- Whether MRST_N clears a register word to its reset value: the classifier, the rings but their snapshot copies, the DMA
channels (R289, R383), and the registers of a completion (R351). -/
def mrstClears (off : Nat) : Bool :=
  match regInfo off with
  | none => false
  | some i => decide (i.blk = .ecam ∧ i.row.nv = 0) || decide (i.blk = .ecamEnt) ||
      decide (i.blk = .ring ∧ i.row.nv = 0 ∧ i.row.off < 0x60) || decide (i.blk = .ringWide ∧ i.row.nv = 0) ||
      decide (i.blk = .dma) || decide (i.blk = .dmaWide) || decide (i.blk = .cmd ∧ 0x100 ≤ i.row.off) ||
      decide (off = 0x40)

/-- A register word after MRST_N (R53, R191, R195, R210, R215, R242): besides the cleared ones, a reference's state, a port's
COUNT_LOST, SLOW and CAL_BUSY, DP_SEL and SCR_TE_EST. -/
def mrstWord (off : Nat) (v : Word) : Word :=
  if mrstClears off then regReset off
  else match regInfo off with
    | some i => if i.blk = .ref ∧ i.row.off = 0x004 then v &&& wd 0xFF00
        else if i.blk = .port ∧ i.row.off = 0x004 then v &&& wd 0xFFA7
        else if (i.blk = .dp ∧ i.row.off = 0x00C) ∨ (i.blk = .screed ∧ i.row.off = 0x40) then regReset off else v
    | none => v

/-- The register words after MRST_N: those whose value is not that of POR. -/
def mrstRegs (l : List (Nat × Word)) : List (Nat × Word) :=
  l.filterMap (fun p => if mrstWord p.1 p.2 = regReset p.1 then none else some (p.1, mrstWord p.1 p.2))

/-- The command engine after MRST_N (R351): every handle is over, without a record; slots keep their generations. -/
def cmdMrst (c : CmdSt) : CmdSt :=
  let ks := (List.range 62).filter (fun k => c.slots.any (fun p => decide (p.1 = k)))
  { c with slots := [], frees := c.frees ++ ks, handles := [], own := [] }

/-- The blocks of the core domain after MRST_N (R44, R84, R182, R211, R215, R258, R289, R383, R451). The seal keeps MATCH,
PASS_VALID and what it compared before; a pass under way ends (DESIGN CHOICE, log entry 179). -/
def coreMrst (s : State) : State :=
  { s with
    regs := mrstRegs s.regs, shadow := [], staging := []
    time := { s.time with queue := [], interp := false, holdover := false }
    fcol := fcolMrst s.fcol, snap := { s.snap with queue := [], busy := false, later := [] }
    scs := s.scs.map (fun p => (p.1, scMrst p.2)), fods := s.fods.map (fun p => (p.1, fodMrst s p.1 p.2))
    refs := [], dps := [], scr := { s.scr with entry := none, good := false }
    lanes := [], ports := [], ingress := [], gone := [], early := [], owed := [], rings := [], corrPause := false, groups := 0, wits := []
    coreAwake := false, nvsLoaded := false, cmd := cmdMrst s.cmd, dmas := [], dmaLast := 15
    cal := { s.cal with on := false, power := false, slot := none, turns := [], had := [] }
    seal_ := { s.seal_ with passOn := false } }

/-- LOS of the enabled REF10 and REF11 after MRST_N, when no mate lane is up (R190). -/
def mrstLos (s : State) : State :=
  [10, 11].foldl (fun s i => if rbit s (rREF i 0) 0 then setRefBit s i 4 true else s) s

/-- What MRST_N does to the pair (R351, R460, R461, R489): STANDBY with code 1; no command completes. -/
def mateMrst (s : State) : State :=
  let s := if s.standby then s else roleChange s true
  { s with
    mateReady := false
    mate := { s.mate with
      nrWhy := 1, synced := false, hold7 := false, handed := [], ckptFresh := false, aligns := [], image := []
      imageDone := false, ownDue := false, syncFrom := none, lane0 := false, lane1 := false } }

/-- The PPS outputs under MRST_N (R526): low, without a pulse. -/
def outMrst (s : State) : State :=
  let s := upto 8 (fun s n => if (s.time.outHigh ||| s.time.ppsPulse).testBit n then emit s (.pps n (nowT s) false) else s) s
  { s with time := { s.time with ppsPulse := 0, outHigh := 0 } }

/-- MRST_N goes low (R512 to R514): the NVS controller finishes its bank. -/
def mrstLow (s : State) : State :=
  if s.pwr.power ≠ 2 ∨ s.pwr.mrst then s
  else
    let s := rstRecord s 2 (pwrState s) 0 false
    let s := calLose (storeCommit s)
    let s := upto 8 (fun s n => seqHaltAs (wb s (rSEQ n 4) 9 2 1) n 0) s
    let s := mateMrst (outMrst s)
    let s := mrstLos (coreMrst { s with pwr := { s.pwr with
      mrst := true, phase := 0, cold := s.pwr.cold && !s.nvsLoaded } })
    noteFlags (lineEval (scWakeEval (setPwrState s 1)))

/-- MRST_N is released (R318, R487, R509): before AON ready the start sequence waits for it. -/
def mrstHigh (s : State) : State :=
  if ¬ s.pwr.mrst then s
  else if ¬ s.time.started then { s with pwr := { s.pwr with mrst := false } }
  else
    let s := startRow { s with pwr := { s.pwr with mrst := false } }
    upto 8 (fun s n => if rbit s (rSEQ n 0) 2 ∧ rbit s (rSEQ n 4) 8 then seqStartCmd s n else s) s

-- the watchdog and the domains

/-- The watchdog expires (R511): the core clock is absent while the domain is meant to be awake, or the kicks stay out. -/
def wdRun (s : State) (kick : Bool) : State :=
  let late := rbit s (rPWR 0x30) 16 && decide (s.pwr.wdAt + atLeast1 (rb s (rPWR 0x30) 0 16) * 10000 ≤ s.time.aon)
  let due := if kick then late else s.coreAwake
  if s.pwr.power ≠ 2 ∨ s.pwr.mrst ∨ s.fcol.safe ∨ ¬ due then s
  else softReset (bump s (rPWR 0x70)) 4 0 kick

/-- The core domain wakes on an access in AON_ONLY (R431, R505, R506). -/
def wakeRun (s : State) : State := coreWake { s with pwr := { s.pwr with coreAt := s.time.aon } }

/-- The core domain sleeps in AON_ONLY, 10 ms after the last access that needed it (R71, R505): Plain reads coarse, and
a pass of Scrim under way ends without a result (DESIGN CHOICE, log entry 193). -/
def sleepRun (s : State) : State :=
  if ¬ s.coreAwake ∨ pwrState s ≠ 1 ∨ s.time.aon < s.pwr.coreAt + 100000 then s
  else noteFlags { s with
    coreAwake := false, time := { s.time with interp := false }, seal_ := { s.seal_ with passOn := false } }

-- the supply monitor

/-- Presents a SUPPLY record (R504) with its time and the R74 flags of that time, and sets the event; one that falls due while
the core domain sleeps goes into its ring at once (DESIGN CHOICE, log entry 178). -/
def supplyRec (s : State) (sub cls time flags w10 w14 number halves : Nat) : State :=
  let f := flags + sub * 16 + cls * 256
  let freq := rb s (rPWR 0x10) 16 16
  let w18 := rb s (rPWR 0x0C) 0 16 + b2n (rbit s (rPWR 4) 4) * 65536
  event (presentInternal s 0 3 0 time f (w10 % 65536 + freq * 65536) (w14 % 2 ^ 32) w18
    (number % 65536 + min halves 0xFFFF * 65536) []) 62

/-- The latest value (R502). -/
def supplyVal (s : State) : Nat := rb s (rPWR 0x10) 0 16

/-- Whether the input is DC (R492). -/
def supplyDc (s : State) : Bool := rbit s (rPWR 4) 4

/-- The limits of R494 and R492 in 10 mV: below, above, and the range, for AC and DC. -/
def rideLow (dc : Bool) : Nat := if dc then 8000 else 7500
def rideHigh (dc : Bool) : Nat := if dc then 33000 else 29000
def inRange (dc : Bool) (v : Nat) : Bool := if dc then decide (8800 ≤ v ∧ v ≤ 30000) else decide (8500 ≤ v ∧ v ≤ 26500)

/-- The entry to RIDE (R498, R504): a MATE_SYNC of the module's own that waits is dropped (R350). -/
def rideEnter (s : State) : State :=
  let s := { s with
    pwr := { s.pwr with ride := some s.time.aon, yielded := false, stores := false, storesLeft := 0 }
    cmd := { s.cmd with own := s.cmd.own.filter (fun p => decide (p.1 ≠ 10)) } }
  let s := orBits s (rPWR 4) 0x80020
  let s := if s.fcol.safe then s else setPwrState s 4
  let s := raise (bump s (rPWR 0x60)) srcPsu kRideEntry (rPWR 4)
  supplyRec s 5 s.pwr.evt (readT s) (timeFlags s) (supplyVal s) 0 (if s.pwr.evt = 0 then 0 else s.pwr.evtNo) 0

/-- Whether the measured value lies above R494's limit. -/
def supplyHigh (s : State) : Bool := decide (rideHigh (supplyDc s) < supplyVal s)

/-- Since when the input is in its range without a break (R494). -/
def okUpdate (s : State) : State :=
  let on := if inRange (supplyDc s) (supplyVal s) then some (s.pwr.okSince.getD s.time.aon) else none
  { s with pwr := { s.pwr with okSince := on } }

/-- What a measured value means for RIDE (R494, R496, R498); `was`: the value before it lay above the limit too. -/
def rideCheck (s : State) (was : Bool) : State :=
  let v := supplyVal s
  let dc := supplyDc s
  let high := supplyHigh s
  if (v < rideLow dc ∨ high = true) ∧ s.pwr.ride.isNone then
    let s := if high ∧ ¬ was then raise s srcPsu kOvervoltage (rPWR 4) else s
    if 2 ≤ pwrState s then rideEnter s else orBits s (rPWR 4) 0x20
  else if s.pwr.ride.isNone ∧ inRange dc v then clrBits s (rPWR 4) 0x20
  else s

/-- An event ends (R503, R504): its duration is counted in AON periods, whatever steps of Plain lie in it (log entry 94). -/
def evtEnd (s : State) : State :=
  let x := s.pwr
  let off := if x.evt = 1 then rPWR 0x64 else if x.evt = 2 then rPWR 0x68 else rPWR 0x6C
  let s := orBits (bump s off) (rPWR 4) (2 ^ (15 + x.evt))
  let s := supplyRec s 2 x.evt x.evtT x.evtFl x.evtExt ((s.time.aon - x.evtAt) / 10) x.evtNo x.evtN
  { s with pwr := { s.pwr with evt := 0 } }

/-- An event of a class starts (R503, R504). -/
def evtStart (s : State) (cls v : Nat) : State :=
  let s := { s with pwr := { s.pwr with
    evt := cls, evtDeep := false, evtT := readT s, evtExt := v, evtN := 1, evtNo := (s.pwr.evtNo + 1) % 65536
    evtFl := timeFlags s, evtAt := s.time.aon } }
  supplyRec s 1 cls (readT s) (timeFlags s) v 0 s.pwr.evtNo 0

/-- Classifies a measured value (R503): a dip that deepens is one event of class INTERRUPTION, which ends when the value
has left both classes; one that began as an INTERRUPTION ends by its own limit, and a value still below DIP then starts a
DIP (log entry 197). -/
def evtCheck (s : State) : State :=
  let v := supplyVal s
  let u := atLeast1 (rb s (rPWR (if supplyDc s then 0x1C else 0x18)) 0 16)
  let th := rn s (rPWR 0x20)
  let dip := bits th 0 8
  let swell := bits th 8 8
  let int := bits th 16 8
  let hys := bits th 24 8
  let below (p : Nat) : Bool := decide (v * 100 < p * u)
  let x := s.pwr
  let s := if x.evt = 0 then s
    else
      let cls := if x.evt = 1 ∧ below int = true then 3 else x.evt
      let ext := if cls = 2 then max x.evtExt v else min x.evtExt v
      let gone := if cls = 2 then decide (v * 100 + hys * u ≤ swell * u)
        else (decide (x.evt = 3) && !x.evtDeep || !below (dip + hys)) && (decide (cls = 1) || !below (int + hys))
      let x := { x with evt := cls, evtDeep := x.evtDeep || decide (cls ≠ x.evt) }
      if gone then evtEnd { s with pwr := x } else { s with pwr := { x with evtExt := ext, evtN := x.evtN + 1 } }
  if s.pwr.evt ≠ 0 then s
  else if below int then evtStart s 3 v
  else if below dip then evtStart s 1 v
  else if swell * u < v * 100 then evtStart s 2 v
  else s

/-- A measured value of the input, with the store's voltage and the loads (R492, R502 to R504). -/
def supplyRun (s : State) (dc : Bool) (value freq store load : Nat) (a : LoadMsg) : State :=
  if ¬ s.time.started then s
  else
    let was := supplyHigh s
    let s := wr s (rPWR 0x10) (value % 65536 + (if dc then 0 else freq % 65536) * 65536)
    let s := wr (wr s (rPWR 0x0C) (store % 65536)) (rPWR 0x14) (load % 65536 + a.asic % 65536 * 65536)
    let s := { s with pwr := { s.pwr with draw := a.draw } }
    let s := wb s (rPWR 4) 7 1 (b2n (decide (16000 ≤ store)))
    let s := if dc = supplyDc s then s
      else
        let s := wb s (rPWR 4) 4 1 (b2n dc)
        supplyRec s 4 s.pwr.evt (readT s) (timeFlags s) value 0 (if s.pwr.evt = 0 then 0 else s.pwr.evtNo) 0
    rideCheck (evtCheck (okUpdate s)) was

/-- A rising zero crossing at a device time in ticks (R502, R504). -/
def zeroRun (s : State) (t : Int) : State :=
  if rbit s (rPWR 0) 3 ∧ ¬ supplyDc s ∧ s.time.started then
    supplyRec s 3 s.pwr.evt t.toNat (flagsAt s t) (supplyVal s) 0 (if s.pwr.evt = 0 then 0 else s.pwr.evtNo) 0
  else s

/-- A summary (R504). -/
def summaryRun (s : State) (mean : Nat) : State :=
  let n := rb s (rPWR 0x24) 0 16
  if n = 0 ∨ ¬ s.time.started then s
  else supplyRec s 0 s.pwr.evt (readT s) (timeFlags s) mean (n * 1000000) (if s.pwr.evt = 0 then 0 else s.pwr.evtNo) 0

-- ride-through

/-- Seconds since the entry to RIDE (R498). -/
def rideSec (s : State) : Option Nat := s.pwr.ride.map (fun a => (s.time.aon - a) / 10000000)

/-- Whether the input has been in range for 100 ms (R494). -/
def supplyBack (s : State) : Bool :=
  match s.pwr.okSince with
  | some a => decide (a + 1000000 ≤ s.time.aon)
  | none => false

/-- The input has been in range for 100 ms: RIDE ends, with the steps not yet started (R494, R499). -/
def rideLeave (s : State) : State :=
  if s.pwr.ride.isNone ∨ ¬ supplyBack s then s
  else
    let s := { s with pwr := { s.pwr with ride := none, yielded := false, stores := false, storesLeft := 0 } }
    let s := clrBits s (rPWR 4) 0x320
    let s := if s.fcol.safe ∨ pwrState s ≠ 4 then s else setPwrState s (if rbit s (rPWR 4) 6 then 3 else 2)
    supplyRec s 6 s.pwr.evt (readT s) (timeFlags s) (supplyVal s) 0 (if s.pwr.evt = 0 then 0 else s.pwr.evtNo) 0

/-- The yield at 20 s and each second after (R498, R500). -/
def rideHand (s : State) : State :=
  match rideSec s with
  | none => s
  | some t =>
    if t < 20 ∨ ¬ rbit s (rPWR 0) 1 ∨ s.pwr.yielded ∨ s.pwr.stores ∨ s.fcol.safe ∨ s.standby ∨ ¬ s.mateReady then s
    else
      let s := mateYield s
      orBits { s with pwr := { s.pwr with yielded := true } } (rPWR 4) 0x100

/-- The stores at 30 s or at 9 V (R350, R498, R500): a MATE_SYNC of the module's own ends first. While the core
re-initialises they wait for it (R513). -/
def rideStore (s : State) (low : Bool) : State :=
  match rideSec s with
  | none => s
  | some t =>
    if (t < 30 ∧ ¬ low) ∨ ¬ rbit s (rPWR 0) 2 ∨ s.pwr.stores ∨ s.fcol.safe ∨ s.pwr.mrst ∨ ¬ s.nvsLoaded then s
    else
      let s := cmdEnd s (fun x => decide (x.master = 13 ∧ x.w0 % 256 = 10)) 8
      let s := { s with
        pwr := { s.pwr with stores := true, storesLeft := 2 }
        cmd := { s.cmd with own := s.cmd.own.filter (fun p => decide (p.1 ≠ 10)) } }
      let s := if low then raise s srcPsu kStoreLow (rPWR 4) else s
      ownIssue (ownIssue s 12 0) 3 0

-- the oven and the temperatures

/-- The oven has been in its band for 30 s (R508). -/
def ovenReady (s : State) : State :=
  if ¬ s.time.started ∨ rbit s (rPWR 4) 6 then s
  else
    let s := orBits s (rPWR 4) 0x40
    if pwrState s = 2 then setPwrState s 3 else s

/-- The oven leaves its band (R508). -/
def ovenLost (s : State) : State :=
  if rbit s (rPWR 4) 6 then raise (clrBits s (rPWR 4) 0x40) srcOcxo kOvenFail (rPWR 4) else s

/-- The temperatures of PWR_TEMP (R518): a fault where one rises above its threshold. -/
def tempRun (s : State) (asic iface : Int) : State :=
  let old := rn s (rPWR 0x28)
  let th := rn s (rPWR 0x2C)
  let s := wr s (rPWR 0x28) (tw 16 asic + tw 16 iface * 65536)
  let rise (a b : Int) (lo : Nat) : Bool := decide (a ≤ sx 8 (bits th lo 8) * 256) && decide (sx 8 (bits th lo 8) * 256 < b)
  let a := sx 16 (bits old 0 16)
  let a' := sx 16 (tw 16 asic)
  let s := if rise a a' 0 then raise s srcTherm kAsicHigh (rPWR 4) else s
  let s := if rise a a' 8 then raise s srcTherm kAsicCrit (rPWR 4) else s
  if rise (sx 16 (bits old 16 16)) (sx 16 (tw 16 iface)) 16 then raise s srcTherm kBaseHigh (rPWR 4) else s

end Sys2Proof.Machine
end

