-- ==== Sys2Proof/Machine/Power.lean ====
section
/-!
DEFINITION. The commands of power, supply and resets (R492 to R518).
-/
namespace Sys2Proof.Machine

open Sys2Proof

/-- POR (R20, R512, R514). -/
def execPor (s : State) : Host.Outcome State Fault Refusal := .next (porRun s)

/-- MRST_N_ASSERT (R512 to R514). -/
def execMrstNAssert (s : State) : Host.Outcome State Fault Refusal := .next (smbEval (mrstLow s))

/-- MRST_N_RELEASE (R318, R487, R509). -/
def execMrstNRelease (s : State) : Host.Outcome State Fault Refusal := .next (mrstHigh s)

/-- SOFT_RESET (R510): the key written to GLB_SOFT_RESET. -/
def execSoftReset (m : Master) (s : State) : Host.Outcome State Fault Refusal := .next (regPut s m 0x50 0x5AF7)

/-- WATCHDOG_KICK (R511): the posted write of the key to PWR_WD_KICK. -/
def execWatchdogKick (m : Master) (s : State) : Host.Outcome State Fault Refusal := .next (regPut s m (rPWR 0x34) 0x4B1C)

/-- WATCHDOG_EXPIRY (R511). -/
def execWatchdogExpiry (kick : Bool) (s : State) : Host.Outcome State Fault Refusal := .next (wdRun s kick)

/-- PARK_RELEASE (R507): the posted clear of PWR_CTRL.PARK. -/
def execParkRelease (m : Master) (s : State) : Host.Outcome State Fault Refusal :=
  .next (regPut s m (0x2000000 + rPWR 0) 1)

/-- CORE_WAKE (R505, R506). -/
def execCoreWake (s : State) : Host.Outcome State Fault Refusal := .next (wakeRun s)

/-- CORE_SLEEP (R505). -/
def execCoreSleep (s : State) : Host.Outcome State Fault Refusal := .next (sleepRun s)

/-- SUPPLY_MEASURE (R492, R494, R495, R502 to R504): value in 10 mV, frequency in mHz, store in mV, loads in 10 mW. -/
def execSupplyMeasure (dc : Bool) (value freq store load : Nat) (asic : LoadMsg) (k : CycIx) (s : State) :
    Host.Outcome State Fault Refusal :=
  .next (smbEval (supplyRun (atCyc s k) dc value freq store load asic))

/-- ZERO_CROSSING (R502, R504). -/
def execZeroCrossing (t : Int) (s : State) : Host.Outcome State Fault Refusal := .next (zeroRun s t)

/-- RIDE_EXIT (R494, R499, R504). -/
def execRideExit (s : State) : Host.Outcome State Fault Refusal := .next (smbEval (rideLeave s))

/-- SUPPLY_SUMMARY (R504). -/
def execSupplySummary (mean : Nat) (s : State) : Host.Outcome State Fault Refusal := .next (summaryRun s mean)

/-- STORE_FULL (R493). -/
def execStoreFull (s : State) : Host.Outcome State Fault Refusal :=
  .next (if s.pwr.power = 2 then smbEval (orBits s (rPWR 4) 0x80) else s)

/-- CHARGE_SLOW (R493). -/
def execChargeSlow (s : State) : Host.Outcome State Fault Refusal :=
  .next (if s.pwr.power = 2 ∧ ¬ rbit s (rPWR 4) 7 then raise s srcPsu kChargeSlow (rPWR 4) else s)

/-- RIDE_YIELD (R498). -/
def execRideYield (s : State) : Host.Outcome State Fault Refusal := .next (rideHand s)

/-- RIDE_STORES (R350, R498). -/
def execRideStores (low : Bool) (s : State) : Host.Outcome State Fault Refusal := .next (rideStore s low)

/-- ORDERED_SHUTDOWN (R501). -/
def execOrderedShutdown (s : State) : Host.Outcome State Fault Refusal := .next (shutdownRun s)

/-- OCXO_READY (R508). -/
def execOcxoReady (s : State) : Host.Outcome State Fault Refusal := .next (smbEval (ovenReady s))

/-- NOT_WARM (R508): 6 min of PWR_OCXO_T have passed. -/
def execNotWarm (s : State) : Host.Outcome State Fault Refusal :=
  .next (if s.pwr.power = 2 ∧ ¬ rbit s (rPWR 4) 6 ∧ 3600000000 ≤ s.time.aon + s.pwr.ocxoLead then raise s srcOcxo kNotWarm (rPWR 4) else s)

/-- OVEN_FAIL (R508). -/
def execOvenFail (s : State) : Host.Outcome State Fault Refusal := .next (smbEval (ovenLost s))

/-- BASE_LOL (R518). -/
def execBaseLol (s : State) : Host.Outcome State Fault Refusal :=
  .next (if s.pwr.power = 2 then raise s srcOcxo kBaseLol (rPWR 4) else s)

/-- CONVERTER (R518). -/
def execConverter (s : State) : Host.Outcome State Fault Refusal :=
  .next (if s.pwr.power = 2 then raise s srcPsu kConverter (rPWR 4) else s)

/-- THERMAL_ALARM (R518): the temperatures in 1/256 °C. -/
def execThermalAlarm (asic iface : Int) (s : State) : Host.Outcome State Fault Refusal :=
  .next (if s.pwr.power = 2 then tempRun s asic iface else s)

/-- DRIVER (R158): a short or an overcurrent at an output's driver. -/
def execDriver (fod : FodIx) (s : State) : Host.Outcome State Fault Refusal := .next (raiseFod s fod.val kDriver none)

/-- INPUT_IN_RANGE (R496); MODE shows once the AON measures (R492). -/
def execInputInRange (dc : Bool) (s : State) : Host.Outcome State Fault Refusal :=
  let _ := dc
  .next (chargeRun s)

/-- SUPPLY_COLLAPSE (R352, R496). -/
def execSupplyCollapse (s : State) : Host.Outcome State Fault Refusal := .next (collapseRun s)

end Sys2Proof.Machine
end

