-- ==== Sys2Proof/Machine/Faults.lean ====
section
/-!
DEFINITION. The commands of faults and reactions (R415 to R440, R546).
-/
namespace Sys2Proof.Machine

open Sys2Proof

/-- FAULT_INTAKE (R416 to R431, R433). -/
def execFaultIntake (s : State) : Host.Outcome State Fault Refusal := .next (smbEval (intake s))

/-- The writes of an injection: the address, once it has landed, then GO; both are overrun where FCOL is busy (R49, R432). -/
def injectWrites (s : State) (m src kind addr : Nat) : State :=
  let s' := regPut s m (rFCOL 0x0C) addr
  let s' := if postBusy s (pblockKey .fcol) then s' else postLand s' (pblockKey .fcol)
  regPut s' m (rFCOL 8) (src + kind * 2 ^ 8 + 2 ^ 31)

/-- FAULT_INJECT (R432): the posted write of FCOL_INJECT with GO = 1, behind that of its address. -/
def execFaultInject (m : Master) (src : SrcIx) (kind : Fin 64) (addr : BitVec 24) (s : State) :
    Host.Outcome State Fault Refusal :=
  .next (injectWrites s m src.val kind.val addr.toNat)

/-- UNFENCE_REQUEST (R422, R439): the posted write of a source's bit in FCOL_UNFENCE. -/
def execUnfenceRequest (m : Master) (src : SrcIx) (s : State) : Host.Outcome State Fault Refusal :=
  .next (regPut s m (0x1000000 + unfenceOff src.val) (2 ^ (src.val % 32)))

/-- FENCE_CLEAR (R154, R422). -/
def execFenceClear (src : SrcIx) (s : State) : Host.Outcome State Fault Refusal :=
  .next (smbEval (fenceClearRun s src.val))

/-- PEND_CLEAR (R429): the posted write of 1 to a source's bit in FCOL_PEND_MAP. -/
def execPendClear (m : Master) (src : SrcIx) (s : State) : Host.Outcome State Fault Refusal :=
  .next (regPut s m (rFCOL (0x40 + 4 * (src.val / 32))) (2 ^ (src.val % 32)))

/-- FIRST_ERROR_REARM (R427): the posted write of 1 to FCOL_FIRST_INFO.VALID. -/
def execFirstErrorRearm (m : Master) (s : State) : Host.Outcome State Fault Refusal :=
  .next (regPut s m (rFCOL 0x10) 0x80000000)

/-- The windows of a source that have run out close (R425). -/
def closeWindow (s : State) (src : Nat) : State :=
  { s with fcol := { s.fcol with
      windows := s.fcol.windows.filter (fun w => !(decide (w.src = src) && decide (w.until_ ≤ s.time.aon))) } }

/-- SHADOW_WINDOW_EXPIRY (R425). -/
def execShadowWindowExpiry (src : SrcIx) (s : State) : Host.Outcome State Fault Refusal := .next (closeWindow s src.val)

/-- SEV_PARITY_CHECK (R435, R440): what the check of a second finds, by the kind of R440's table; 0 and `none` are no error. -/
def execSevParityCheck (err : Option (Fin 4)) (s : State) : Host.Outcome State Fault Refusal :=
  .next (match err with
    | some k => if k.val = 0 then s else raise s srcCol k.val (rFCOL 4)
    | none => s)

end Sys2Proof.Machine
end

