-- ==== Sys2Proof/Machine/Snapshots.lean ====
section
/-!
DEFINITION. The commands of snapshots (R441 to R452).
-/
namespace Sys2Proof.Machine

open Sys2Proof

/-- SNAP_NOW (R441): the write of SNAP_CMD.NOW. -/
def execSnapNow (m : Master) (k : CycIx) (s : State) : Host.Outcome State Fault Refusal :=
  .next (regPut (atCyc s k) m (rSNAP 8) 1)

/-- SNAP_ENQ (R80, R441): the write of SNAP_CMD.ENQ. -/
def execSnapEnq (m : Master) (k : CycIx) (s : State) : Host.Outcome State Fault Refusal :=
  .next (regPut (atCyc s k) m (rSNAP 8) 2)

/-- The queued snapshot action that falls due (R441). -/
def snapDue (s : State) : State :=
  match dueAct s s.snap.queue with
  | none => s
  | some a => snapWake (snapActRun (dropAct s .snap a) a (actWhen s a).1 (actWhen s a).2 false)

/-- QUEUED_SNAP (R300, R441, R450). -/
def execQueuedSnap (k : CycIx) (s : State) : Host.Outcome State Fault Refusal := .next (snapDue (atCyc s k))

/-- The SNAP_IN edge that SNAP_CTRL selects, at t (R441, R442). -/
def snapIn (s : State) (t : Int) : State :=
  let near : Bool := match s.snap.lastIn with
    | some u => decide (t < u + 65536000)
    | none => false
  if ¬ rbit s (rSNAP 0) 1 then s
  else if near then bump s (rSNAP 0x44)
  else
    let s := { s with snap := { s.snap with lastIn := some t } }
    snapWake (snapAt s 8 (t - sx 32 (rn s (rSNAP 0x38))))

/-- SNAP_IN_EDGE (R441, R442): t is the edge's device time at the connector in ticks. -/
def execSnapInEdge (t : Int) (k : CycIx) (s : State) : Host.Outcome State Fault Refusal := .next (snapIn (atCyc s k) t)

/-- The snapshot is complete (R444, R448): the latch offsets of its units, by unit. -/
def snapEnd (s : State) (offsets : List (Nat × Nat)) : State :=
  if ¬ s.snap.busy ∨ ¬ s.coreAwake then s
  else
    let id := s.snap.id
    let s := offsets.foldl (fun s p =>
      if p.1 < 26 ∧ rn s (rSNAP (0x104 + 8 * p.1)) = id then wr s (rSNAP (0x100 + 8 * p.1)) p.2 else s) s
    let s := wb { s with snap := { s.snap with busy := false } } (rSNAP 4) 0 16 id
    let s := event (bump s (rSNAP 0x40)) 11
    if rbit s (rSNAP 0) 5 then sendMsix s (rb s (rSNAP 0) 8 6) else s

/-- SNAP_COMPLETE (R444, R445, R448). -/
def execSnapComplete (offsets : List (Nat × Nat)) (s : State) : Host.Outcome State Fault Refusal :=
  .next (snapEnd s offsets)

/-- SNAP_HOLD (R450): the write that sets SNAP_CTRL.HOLD through the set view. -/
def execSnapHold (m : Master) (s : State) : Host.Outcome State Fault Refusal :=
  .next (regPut s m (0x1000000 + rSNAP 0) 0x100000)

end Sys2Proof.Machine
end

