-- ==== Sys2Proof/Machine/MateRun.lean ====
section
/-!
DEFINITION. What the mate's messages do (R458 to R491): two-way time transfer, checkpoints, STATUS, HANDOVER, forwarded items,
records, the image of a MATE_SYNC.
-/
namespace Sys2Proof.Machine

open Sys2Proof

/-- Whether messages of the mate reach the module: a pair, a lane up and not fenced, power, no MRST_N (R459, R466, R489). -/
def mateHears (s : State) : Bool := paired s && mateLink s && decide (s.pwr.power = 2) && !s.pwr.mrst

/-- Whether mate lane l is up. -/
def mateLaneOn (s : State) (l : Nat) : Bool := if l = 0 then s.mate.lane0 else s.mate.lane1

/-- A mate lane gains block lock: PAIR = 1, outside AON_ONLY (R459, R466, R505). -/
def laneGain (s : State) (l : Nat) : State := if paired s ∧ 3 ≤ s.pwr.phase then mateLane s l true else s

-- two-way time transfer

/-- A STANDBY module sends a TWT_REQ on a lane (R465, R467). -/
def twtSend (s : State) (l : Nat) : State :=
  if mateHears s ∧ s.standby ∧ mateLaneOn s l then mateSendOn s l 0x80 [(nowT s : Int)] else s

/-- The ACTIVE module answers a TWT_REQ with the times of its receipt and of the answer (R467). -/
def twtAnswer (s : State) (l : Nat) (t2 t3 : Int) : State :=
  if mateHears s ∧ ¬ s.standby ∧ mateLaneOn s l then mateSendOn s l 0x81 [t2, t3] else s

/-- The sample of an exchange on lane l (R467): e in ticks, truncated. -/
def twtErr (s : State) (l : Nat) (t1 t2 t3 t4 : Int) : Int :=
  ((t2 - t1) - (t4 - t3) - sx 32 (rn s (rMATE (0x20 + 4 * l)))) / 2

/-- A TWT_RESP reaches the standby (R187, R467): MATE_OFSl, MATE_RTTl, and the sample of REF10 or REF11. -/
def twtTake (s : State) (l : Nat) (t1 t2 t3 t4 : Int) : State :=
  if mateHears s ∧ s.standby ∧ mateLaneOn s l then
    let e := twtErr s l t1 t2 t3 t4
    let s := wL s (rMATE (0x30 + 8 * l)) 2 (tw 48 e)
    let s := wr s (rMATE (0x40 + 4 * l)) (tw 32 ((t4 - t1 - (t3 - t2)) / 65536))
    if refOn s (10 + l) then refSample s (10 + l) t4 e else s
  else s

-- checkpoints

/-- FOD n takes a hop table as the module's hardware writes it (R476). -/
def hopsTake (s : State) (n : Nat) (l : List HopFields) : State :=
  (l.zip (List.range 16)).foldl (fun s p =>
    hopUpdate s n p.2 (fun s => setFod s n (setHopEnt (fod s n) p.2 (hopOfFields p.1)))) s

/-- Screed takes samples, coefficients with SCR_TREF behind them, and anchor from the mate (R211, R476, R485): samples of a
week, newest first. -/
def screedTake (s : State) (samples : List (Nat × Int × Int × Nat)) (coef : List Int) (anchor : Int) : State :=
  let new : List (Int × Int × Int × Nat) := samples.map (fun p => ((p.1 : Int), p.2.1, p.2.2.1, p.2.2.2))
  let old := s.scr.samples.filter (fun q => new.all (fun p => decide (p.1 ≠ q.1)))
  let all := new ++ old
  let l := match all with
    | p :: _ => all.filter (fun q => decide (p.1 - q.1 ≤ 604800))
    | [] => []
  let s := (coef.zip (List.range 4)).foldl (fun s p => wL s (rSCR (0x10 + 8 * p.2)) 2 (tw 64 p.1)) s
  let s := match coef[4]? with
    | some v => wr s (rSCR 0x34) (tw 16 v)
    | none => s
  let s := wL s (rSCR 0x38) 2 (tw 64 anchor)
  scrShow { s with scr := { s.scr with
    samples := l, sig := scrSigma s l, tref := match coef, l with
      | _ :: _, p :: _ => p.1
      | _, _ => s.scr.tref } }

/-- MATE_ALIGN at a checkpoint (R460, R470, R491): ps, truncated; above 5 ps the fault. -/
def alignTake (s : State) : State :=
  let ps := min (rfloor (s.mate.maxErr * 1000 / 65536)).toNat 0xFFFF
  let s := wr { s with mate := { s.mate with
    aligns := (decide (ps ≤ 5) :: s.mate.aligns).take 3, maxErr := 0 } } (rMATE 0x48) ps
  if 5 < ps then raise s srcMate kAlign (rMATE 4) else s

/-- The numbering of an output that began without the active module's is brought to it (R469). -/
def renumber (s : State) (n : Nat) : State :=
  let x := fod s n
  if ¬ x.running ∨ ¬ x.driving ∨ x.mateNum then s
  else match edgeAfter s x.recs x.anchors (nowR s) with
  | none => s
  | some (c, u) => match originCycle s n u (fodPeriod s n x) with
    | none => s
    | some m => setFod s n { x with
        mateNum := true
        recs := x.recs.map (fun r => { r with cycle := r.cycle + (m - c) })
        anchors := x.anchors.map (fun a => { a with cycle := a.cycle + (m - c) }) }

/-- The standby applies a checkpoint (R460, R465, R469, R474, R476): the integrators and anchors wait for their use. -/
def ckptTake (s : State) (c : CkptMsg) : State :=
  if ¬ (mateHears s ∧ s.standby ∧ rxNew s c.q) then s
  else
    let s := mailboxTake (rxNote s c.q) c.mailbox
    let s := c.hops.foldl (fun s p => hopsTake s p.1.val p.2) s
    let s := screedTake s c.screedSamples c.screedCoef c.screedAnchor
    let s := wr { s with mate := { s.mate with
      ckpt := some c, ckptFresh := true, ckptCame := true, mirror := c.regs } } (rMATE 0x4C) c.seqNo
    let s := upto 128 renumber s
    nrEval (event (alignTake s) 57)

/-- 3 ms pass without a checkpoint (R460, R476). -/
def ckptLate (s : State) : State :=
  if paired s ∧ s.standby then
    nrEval (raise { s with mate := { s.mate with ckptFresh := false } } srcMate kCkptMiss (rMATE 4))
  else s

-- STATUS

/-- The seal hold (R61). -/
def sealHeld (s : State) : Bool := rbit s (rSEAL 0) 1

/-- The module sends its STATUS (R465, R477, R485). -/
def statusSend (s : State) : State :=
  if s.pwr.power ≠ 2 ∨ s.pwr.mrst then s
  else mateSend s 0x83 ([b2n (!s.standby), b2n (s.standby && decide (s.mate.nrWhy = 0)), s.mate.nrWhy, rn s (rSEAL 0x0C),
    b2n (sealHeld s), rn s (rMATE 0x100), rn s (rMATE 0x104), rn s (rMATE 0x108), rn s (rMATE 0x10C),
    rn s (rMATE 0x4C)].map (fun (n : Nat) => (n : Int)))

/-- Agreement of configuration at a STATUS of the active module (R477). -/
def sealAgree (s : State) (st : StatusMsg) : State :=
  if ¬ (s.standby ∧ st.active) then s
  else if st.sealHold ∨ sealHeld s ∨ st.sealCur.toNat = rn s (rSEAL 0x0C) then
    { s with mate := { s.mate with unequal := 0 } }
  else
    let n := s.mate.unequal + 1
    let s := { s with mate := { s.mate with unequal := n } }
    if n = 3 then
      raise (orBits { s with mate := { s.mate with diverged := true } } (rMATE 4) 0x400) srcMate kDiverged (rMATE 4)
    else s

/-- A MATE_SYNC is complete as the mate reports READY (R485): RESULT holds the sequence number of that report. -/
def syncSeen (s : State) (st : StatusMsg) : State :=
  if s.standby ∨ st.active ∨ ¬ st.ready then s
  else match s.cmd.slots.find? (fun p => p.2.running && decide (p.2.w0 % 256 = 10)) with
    | some (k, x) => setSlot s k { x with done := some (0, st.ckptSeq % 2 ^ 32) }
    | none => s

/-- Whether the ACTIVE module issues a MATE_SYNC of its own now (R486). -/
def autoSync (s : State) (st : StatusMsg) : Bool :=
  let busy := s.cmd.slots.any (fun p => decide (p.2.w0 % 256 = 10)) || s.cmd.own.any (fun p => decide (p.1 = 10))
  let soon : Bool := match s.mate.failAt with
    | some t => decide (nowT s < t + 10 * secTicks)
    | none => false
  !s.standby && !s.fcol.safe && rbit s (rMATE 0) 1 && !st.active && !st.ready && decide (st.nrWhy = 1 ∨ st.nrWhy = 2) &&
    !busy && !soon && s.pwr.ride.isNone

/-- Ports that the active module's ownership map newly gives to this STANDBY module's slot: it gained them at the fence of
their FOD (R153, R481). -/
def gainedPorts (s : State) (st : StatusMsg) : List Nat :=
  if ¬ s.standby ∨ ¬ st.active then []
  else (List.range 128).filter (fun p =>
    (rbit s (rMATE (0x100 + 4 * (p / 32))) (p % 32) != s.mate.slotB) &&
    (((st.ownMap.getD (p / 32) 0).toNat.testBit (p % 32)) == s.mate.slotB))

/-- A STATUS message of the mate (R458, R465, R477, R480, R485, R486, R488). -/
def statusTake (s : State) (st : StatusMsg) : State :=
  if ¬ (mateHears s ∧ rxNew s st.q) then s
  else
    let s := rxNote s st.q
    let clash := decide (st.node = nodeId s)
    let s := if clash ∧ ¬ s.mate.clash then raise s srcMate kNodeClash (rMATE 4) else s
    let s := { s with mate := { s.mate with
      fresh := true, reportsReady := !st.active && st.ready, clash := clash } }
    let ps := if drivesOwn s then [] else gainedPorts s st
    let s := if ps = [] then s else stoppedLost (bump s (rMATE 0x50)) ps
    let s := if drivesOwn s then s
      else (st.ownMap.zip (List.range 4)).foldl (fun s p => wr s (rMATE (0x100 + 4 * p.2)) p.1.toNat) s
    let s := syncSeen (nrEval (mateEval (sealAgree s st))) st
    if autoSync s st then ownIssue s 10 0 else s

/-- The mate's last STATUS is more than 2 ms old (R458, R482). -/
def statusStale (s : State) : State := mateEval { s with mate := { s.mate with fresh := false } }

-- other messages

/-- A HANDOVER message makes the STANDBY module ACTIVE (R481); a module in SAFE does not take the role (R433). -/
def handoverTake (s : State) : State := if mateHears s ∧ s.standby ∧ ¬ s.fcol.safe then becomeActive s else s

/-- An EVENTS message (R305, R317, R465, R474): the mirrored bits reach the shadowing cores, the mirrored registers take its
values. -/
def eventsTake (s : State) (e : EventsMsg) : State :=
  if ¬ (mateHears s ∧ s.standby ∧ rxNew s e.q) then s
  else
    let b := e.bits.toNat
    let s := rxNote s e.q
    let s := { s with mate := { s.mate with
      mirror := e.regs ++ s.mate.mirror.filter (fun p => e.regs.all (fun q => decide (q.1 ≠ p.1))) } }
    upto 8 (fun s n =>
    if rbit s (rSEQ n 0) 3 then upto 64 (fun s k => if b.testBit k ∧ evtMirrored k then evtBit s n k else s) s else s) s

/-- A forwarded item, applied as master 3 (R34, R465, R473). -/
def fwdTake (s : State) (i : FwdMsg) : State :=
  if ¬ (mateHears s ∧ s.standby ∧ rxNew s i.q) then s
  else
    let s := bump (rxNote s i.q) (rMATE 0x5C)
    match i.item with
    | .write addr v => (busWrite s 3 addr 32 v.toNat).1
    | .command w0 w1 w2 w3 => cmdAccess s 3 w0.toNat w1.toNat w2.toNat w3.toNat

/-- The module's own AON boundary that lies nearest to a device time in ticks, from the present one on (R472; log entry
61): boundaries are counted from POR. -/
def boundaryAt (s : State) (t : Int) : Nat :=
  (max (s.time.aon : Int) (s.time.aon + rround (((t * 2 ^ 32 - s.time.plain : Int) : Rat) / ((tickInc s).1 : Rat)))).toNat

/-- The word of DPLL d for its acting boundary (R472). -/
def wordTake (s : State) (d : Nat) (w : Option WordMsg) : State :=
  match w with
  | some v => setDp s d { dp s d with received := (boundaryAt s v.acts, v.word) :: (dp s d).received }
  | none => s

/-- A WORDS message (R465, R472). -/
def wordsTake (s : State) (d1 : WordsMsg) (d2 d3 : Option WordMsg) : State :=
  if ¬ (mateHears s ∧ s.standby ∧ rxNew s d1.q) then s
  else wordTake (wordTake (wordTake (rxNote s d1.q) 1 d1.word) 2 d2) 3 d3

/-- A LEDGER message (R465, R483): a record or a witness anchor of the mate's FOD, with the trail of this module's core; a START
begins anew. -/
def ledgerTake (s : State) (n : Nat) (r : LedgerRec) : State :=
  if ¬ (mateHears s ∧ rxNew s r.q) then s
  else
    let s := rxNote s r.q
    let tr := trailSum s (fod s n).sc
    let as := mget (fun _ => []) s.mate.anchors n
    match r.step with
    | some v =>
      let a : Anchor := ⟨r.cycle, v, r.time, tr, 0⟩
      let l := a :: anchorsKept (mget (fun _ => []) s.mate.ledger n) as
      { s with mate := { s.mate with anchors := mput (fun _ => []) s.mate.anchors n l } }
    | none =>
      let l := if r.kind = 1 then [] else mget (fun _ => []) s.mate.ledger n
      let seqNo := match l with
        | q :: _ => (q.seqNo + 1) % 65536
        | [] => 0
      let rec_ : ChRec := ⟨r.kind, r.info, seqNo, r.cycle, r.time, r.period, r.slope, tr, r.time, (fod s n).sc⟩
      { s with mate := { s.mate with
        ledger := mput (fun _ => []) s.mate.ledger n (rec_ :: l.take 63)
        anchors := mput (fun _ => []) s.mate.anchors n (if r.kind = 1 then [] else as) } }

/-- A SNAP message (R441, R443): the trigger with the mate's T; a snapshot that it makes shows the mate's SNAP_ID. -/
def snapTake (s : State) (t : SnapMsg) (id : Nat) : State :=
  if ¬ (mateHears s ∧ rbit s (rSNAP 0) 3 ∧ rxNew s t.q) then s
  else
    let s := rxNote s t.q
    let makes := !rbit s (rSNAP 0) 20 && (!s.snap.busy || decide (s.snap.inst = cycNo s))
    let s := snapWake (snapAt s 16 t.t)
    if makes then wr s (rSNAP 0x34) id else s

-- MATE_SYNC

/-- An IMAGE message: the item waits for the apply cycle (R485). -/
def imageTake (s : State) (i : ImageMsg) (last : Bool) : State :=
  if ¬ (mateHears s ∧ s.standby ∧ rxNew s i.q) then s
  else
    let s := rxNote s i.q
    { s with mate := { s.mate with
      syncFrom := if s.mate.image = [] then some s.time.aon else s.mate.syncFrom
      image := s.mate.image ++ [i.item], imageDone := last } }

/-- The register words of an image. -/
def imageRegs (l : List ImageItem) : List (Nat × Word) := l.filterMap (fun i => match i with
  | .reg off v => some (off, v)
  | _ => none)

/-- A register as an image changes it. -/
def imageChange (s : State) (words : List (Nat × Word)) (base : Nat) : Option (RegInfo × Nat × Nat × Bool) :=
  match regInfo base with
  | none => none
  | some i =>
    let word (o : Nat) : Nat := match words.find? (fun p => decide (p.1 = o)) with
      | some p => p.2.toNat
      | none => rn s o
    let os := (List.range i.row.words).map (fun k => base + 4 * k)
    mergeReg s i (joinWords (os.map word)) (joinWords (os.map syncMask))

/-- The first offsets of the registers that an image lists, each once. -/
def imageBases (words : List (Nat × Word)) : List Nat :=
  words.foldl (fun l p => match regInfo p.1 with
    | some i => if l.contains i.base then l else l ++ [i.base]
    | none => l) []

/-- An item of an image but for registers. -/
def itemApply (s : State) (i : ImageItem) : State :=
  match i with
  | .reg _ _ => s
  | .hop f l => hopsTake s f.val l
  | .memory a b => if (imemOf a).isSome ∨ isDataMem a then setMb s a b else s
  | .screed samples coef tref anchor =>
    let s := screedTake { s with scr := { s.scr with samples := [] } } samples coef anchor
    { s with scr := { s.scr with tref := tref } }
  | .integrator _ _ => s
  | .anchor _ => s

/-- The checkpoint that holds an image's integrators, anchors and mailbox for their use (R469, R481, R485). -/
def imageCkpt (s : State) (l : List ImageItem) : CkptMsg :=
  let base : CkptMsg := s.mate.ckpt.getD ⟨0, 0, nowT s, 0, [], [], 0, [0, 0, 0, 0], [], [], [], []⟩
  l.foldl (fun c i => match i with
    | .integrator d v => { c with integrators := lset c.integrators d.val v }
    | .memory a b => if 0x880000 ≤ a ∧ a < 0x881000 then { c with mailbox := (a - 0x880000, b) :: c.mailbox } else c
    | .anchor a => { c with anchors := a :: c.anchors.filter (fun b => decide (b.fod ≠ a.fod)) }
    | _ => c) { base with mailbox := [] }

/-- The sequencers' memories become the image's: what it does not list is 0. -/
def memoryApply (s : State) (l : List ImageItem) : State :=
  let s := { s with mem := s.mem.filter (fun c => !((imemOf c.1).isSome || isDataMem c.1)) }
  l.foldl itemApply s

/-- A core restarts from its copied image (R314, R485). -/
def coreRestart (s : State) (n : Nat) : State :=
  if imgGood s n then
    seqStartCmd (imgOk s n) n
  else imgClear s n

/-- The apply cycle of a MATE_SYNC (R485). -/
def imageRun (s : State) : State :=
  if ¬ (s.standby ∧ s.mate.imageDone) then s
  else
    let l := s.mate.image
    let w := imageRegs l
    let s := upto 8 (fun s n => if seqHalted s n then s else seqHaltAs s n 2) s
    let s := applyMerged s 3 ((imageBases w).filterMap (imageChange s w))
    let c := imageCkpt s l
    let s := memoryApply s l
    let s := { s with mate := { s.mate with
      ckpt := some c, image := [], imageDone := false, synced := true, hold2 := false, diverged := false, unequal := 0 } }
    nrEval (upto 8 coreRestart (upto 128 renumber s))

end Sys2Proof.Machine
end

