-- ==== Sys2Proof/Machine/Mate.lean ====
section
/-!
DEFINITION. The commands of the mirrored pair (R458 to R491).
-/
namespace Sys2Proof.Machine

open Sys2Proof

/-- MATE_LINE_CHANGE (R458, R461 to R464): a sensed line of the mate, MATE_ALIVE or MATE_ACTIVE. -/
def execMateLineChange (alive level : Bool) (s : State) : Host.Outcome State Fault Refusal :=
  .next (smbEval (mateLine s alive level))

/-- CLAIM (R462, R481): the mate's MATE_ACTIVE has been low for long enough. -/
def execClaim (s : State) : Host.Outcome State Fault Refusal := .next (smbEval (if mayClaim s then claimRole s else s))

/-- MATE_LANE_UP (R466). -/
def execMateLaneUp (l : Fin 2) (s : State) : Host.Outcome State Fault Refusal := .next (laneGain s l.val)

/-- MATE_LANE_DOWN (R458, R466, R482). -/
def execMateLaneDown (l : Fin 2) (s : State) : Host.Outcome State Fault Refusal := .next (mateLane s l.val false)

/-- TWT_REQ_SEND (R465, R467). -/
def execTwtReqSend (l : Fin 2) (k : CycIx) (s : State) : Host.Outcome State Fault Refusal := .next (twtSend (atCyc s k) l.val)

/-- TWT_REQ (R467): sent at t1, received at t2, answered at t3. -/
def execTwtReq (l : Fin 2) (_t1 t2 t3 : Int) (s : State) : Host.Outcome State Fault Refusal :=
  .next (twtAnswer s l.val t2 t3)

/-- TWT_RESP (R187, R467). -/
def execTwtResp (l : Fin 2) (t1 t2 t3 t4 : Int) (s : State) : Host.Outcome State Fault Refusal :=
  .next (twtTake s l.val t1 t2 t3 t4)

/-- CKPT (R476). -/
def execCkpt (c : CkptMsg) (s : State) : Host.Outcome State Fault Refusal := .next (smbEval (ckptTake s c))

/-- CKPT_MISS (R460, R476). -/
def execCkptMiss (s : State) : Host.Outcome State Fault Refusal := .next (smbEval (ckptLate s))

/-- STATUS_SEND (R465). -/
def execStatusSend (s : State) : Host.Outcome State Fault Refusal := .next (statusSend s)

/-- STATUS (R458, R477, R480, R485, R486, R488). -/
def execStatus (st : StatusMsg) (s : State) : Host.Outcome State Fault Refusal := .next (smbEval (statusTake s st))

/-- HANDOVER (R481). -/
def execHandover (s : State) : Host.Outcome State Fault Refusal := .next (smbEval (handoverTake s))

/-- EVENTS (R474). -/
def execEvents (e : EventsMsg) (s : State) : Host.Outcome State Fault Refusal := .next (eventsTake s e)

/-- FWD (R473). -/
def execFwd (i : FwdMsg) (s : State) : Host.Outcome State Fault Refusal := .next (fwdTake s i)

/-- WORDS (R472). -/
def execWords (d1 : WordsMsg) (d2 d3 : Option WordMsg) (s : State) : Host.Outcome State Fault Refusal := .next (wordsTake s d1 d2 d3)

/-- LEDGER (R483). -/
def execLedger (fod : FodIx) (r : LedgerRec) (s : State) : Host.Outcome State Fault Refusal := .next (ledgerTake s fod.val r)

/-- SNAP (R441, R443). -/
def execSnap (t : SnapMsg) (id : BitVec 16) (k : CycIx) (s : State) : Host.Outcome State Fault Refusal :=
  .next (snapTake (atCyc s k) t id.toNat)

/-- IMAGE (R485). -/
def execImage (i : ImageMsg) (last : Bool) (s : State) : Host.Outcome State Fault Refusal := .next (imageTake s i last)

/-- MATE_SYNC_APPLY (R485). -/
def execMateSyncApply (s : State) : Host.Outcome State Fault Refusal := .next (smbEval (imageRun s))

/-- YIELD (R481): the write of MATE_CMD.YIELD. -/
def execYield (m : Master) (s : State) : Host.Outcome State Fault Refusal := .next (smbEval (regPut s m (rMATE 8) 1))

/-- OWN_REFRESH (R478, R480). -/
def execOwnRefresh (g : Fin 16) (s : State) : Host.Outcome State Fault Refusal := .next (sendGroup s g.val)

/-- MATE_STATUS_STALE (R458, R482). -/
def execMateStatusStale (s : State) : Host.Outcome State Fault Refusal := .next (statusStale s)

end Sys2Proof.Machine
end

