-- ==== Sys2Proof/Machine/External.lean ====
section
/-!
DEFINITION. The commands of the external interfaces (R233, R295, R296, R507, R532 to R537, R542, R543).
-/
namespace Sys2Proof.Machine

open Sys2Proof

/-- The SMBus slave answers from AON ready on (R533). -/
def smbUp (s : State) : Bool := decide (s.pwr.power = 2) && s.time.started

/-- One bit of the CRC-8 of SMBus. -/
def pecBit (c : Nat) : Nat := if 128 ≤ c then (c * 2 % 256) ^^^ 7 else c * 2

/-- PEC over bytes (R533): the CRC-8 of SMBus, x^8 + x^2 + x + 1 (log entry 156). -/
def smbPec (l : List Byte) : Nat :=
  l.foldl (fun c b => pecBit (pecBit (pecBit (pecBit (pecBit (pecBit (pecBit (pecBit (c ^^^ b.toNat))))))))) 0

/-- The module's 7-bit SMBus address (R533). -/
def smbAddr (s : State) : Nat := 0x34 + b2n s.mate.slotB

/-- The answer to an SMBus read of a command code (R533): the content and the PEC, which covers the address, the code, the
address read, the byte count of a block and the content. -/
def smbAnswer (s : State) (code : Nat) (block : Bool) (b : List Byte) : State :=
  let head := [BitVec.ofNat 8 (2 * smbAddr s), BitVec.ofNat 8 code, BitVec.ofNat 8 (2 * smbAddr s + 1)] ++
    (if block then [BitVec.ofNat 8 b.length] else [])
  if smbUp s then emit s (.smb (b ++ [BitVec.ofNat 8 (smbPec (head ++ b))])) else s

/-- IDENT (R506, R533): GLB_ID, GLB_PCI_ID and GLB_SERIAL. -/
def execIdent (s : State) : Host.Outcome State Fault Refusal := .next (smbAnswer s 0 true (smbWords s [0, 4, 8, 0xC]))

/-- SMB_STATUS (R533). -/
def execSmbStatus (s : State) : Host.Outcome State Fault Refusal := .next (smbAnswer s 1 false (leBytes 2 (smbWord s)))

/-- SUPPLY (R533): PWR_IN, PWR_STORE and PWR_LOAD. -/
def execSupply (s : State) : Host.Outcome State Fault Refusal :=
  .next (smbAnswer s 2 true (smbWords s [rPWR 0x10, rPWR 0x0C, rPWR 0x14]))

/-- TEMPS (R533): PWR_TEMP, the low half of SCR_TEMP, two bytes zero. Its read of SCR_TEMP is an access that needs the core
(R506). -/
def execTemps (s : State) : Host.Outcome State Fault Refusal :=
  let s := if smbUp s then coreTouch s (rSCR 0x30) true else s
  .next (smbAnswer s 3 true (smbWords s [rPWR 0x28] ++ (smbWords s [rSCR 0x30]).take 2 ++ leBytes 2 0))

/-- FAULTS (R533): the pending map and the first error. -/
def execFaults (s : State) : Host.Outcome State Fault Refusal :=
  .next (smbAnswer s 4 true (smbWords s ((List.range 8).map (fun w => rFCOL (0x40 + 4 * w)) ++ [rFCOL 0x10, rFCOL 0x14])))

/-- FENCES (R533). -/
def execFences (s : State) : Host.Outcome State Fault Refusal :=
  .next (smbAnswer s 5 true (smbWords s ((List.range 8).map (fun w => rFCOL (0x60 + 4 * w)))))

/-- SMB_ALERT_N is released (R534). -/
def alertOff (s : State) : State := { s with smb := { s.smb with alert := false } }

/-- ALERT_CLR (R533, R534): with SMB_CFG.PEC_REQ = 1 one whose PEC is missing or wrong is ignored, and whether it is the row does
not say (log entry 71). -/
def execAlertClr (s : State) : Host.Outcome State Fault Refusal :=
  .next (if ¬ smbUp s then s
    else if rbit s 0x270 0 then
      let s' := { s with free := s.free + 1 }
      if Config.smbPecOk s.free then alertOff s' else s'
    else alertOff s)

/-- ALERT_RESPONSE (R533, R534): a module that drives SMB_ALERT_N low answers with its 7-bit address. -/
def execAlertResponse (s : State) : Host.Outcome State Fault Refusal :=
  .next (if smbUp s ∧ s.smb.alert then alertOff (emit s (.smb [BitVec.ofNat 8 (smbAddr s)])) else s)

/-- The PCIe endpoint is reset with its configuration space (R532, R537): the link is down, every vector is masked. -/
def endpointReset (s : State) (kind : Nat) : State := raise { s with pcieUp := false, msix := [] } srcPcie kind 4

/-- PERST (R532, R537). -/
def execPerst (s : State) : Host.Outcome State Fault Refusal := .next (endpointReset s kPerst)

/-- PCIE_LINK_DOWN (R532, R537). -/
def execPcieLinkDown (s : State) : Host.Outcome State Fault Refusal :=
  .next (if s.pcieUp then endpointReset s kPcieLinkDown else s)

/-- PCIE_LINK_UP (R532): messages that wait in the PBA and are not masked go out. -/
def execPcieLinkUp (s : State) : Host.Outcome State Fault Refusal := .next (msixFlush { s with pcieUp := true })

/-- BAR2_WRITE (R295, R313, R542, R543): `addr` is the offset in BAR2, a byte not enabled is none. -/
def execBar2Write (m : Master) (addr : Nat) (bytes : List (Option Byte)) (s : State) : Host.Outcome State Fault Refusal :=
  .next (if s.nvsLoaded then bar2Put s m addr bytes else s)

/-- SEMAPHORE_READ (R287, R296, R543, R544): a read of BAR2. The capture RAM counts an error that it corrects. -/
def execSemaphoreRead (m : Master) (r : BarRead) (s : State) : Host.Outcome State Fault Refusal :=
  if ¬ s.nvsLoaded then .next s
  else match r.bad with
  | some k => .next (emit (bar2Bad s m (r.addr + k)) (.poisoned m))
  | none =>
    let a := bar2Get (if r.fixed ∧ r.addr < 0x800000 then bump s 0x708048 else s) r.addr r.len r.skip
    .next (emit a.1 (.data m (leNat a.2) (8 * a.2.length)))

/-- A lane gains block lock (R233, R505): it is enabled, outside AON_ONLY. -/
def laneLock (s : State) (l : Nat) (cl : Bool) : State :=
  if s.pwr.phase < 3 ∨ ¬ rbit s (if cl then rCL l 0 else rEL l 0) 0 then s
  else
    let x := lane s l
    linkUp (setLane s l (if cl then { x with cl := true } else { x with el := true })) l

/-- BLOCK_LOCK (R233). -/
def execBlockLock (lane : LaneIx) (cl : Bool) (s : State) : Host.Outcome State Fault Refusal := .next (laneLock s lane.val cl)

/-- CONFIGURATION_REQUEST (R507, R531): Retry Status until the load of the non-volatile store completes, then what R531 gives of the
configuration space (log entry 198). -/
def execConfigurationRequest (s : State) : Host.Outcome State Fault Refusal :=
  .next (emit s (.cfg (!s.nvsLoaded) (if s.nvsLoaded then cfgWords s else [])))

/-- UNCORR (R537). -/
def execUncorr (s : State) : Host.Outcome State Fault Refusal := .next (raise s srcPcie kUncorr 4)

end Sys2Proof.Machine
end

