-- ==== Sys2Proof/Machine/Dispatch.lean ====
section
/-!
DEFINITION. The dispatch: one arm for each command, each a direct call of its meaning.
-/
namespace Sys2Proof.Machine

open Sys2Proof

/-- The effect of a command on everything but the queue. -/
def exec (i : Instr) (s : State) : Host.Outcome State Fault Refusal :=
  match i with
  | .registerWrite m addr width v k => Sys2Proof.Machine.execRegisterWrite m addr width v k s
  | .shadowLatchRead m addr width k => Sys2Proof.Machine.execShadowLatchRead m addr width k s
  | .timeRead m k => Sys2Proof.Machine.execTimeRead m k s
  | .postedWriteLand b => Sys2Proof.Machine.execPostedWriteLand b s
  | .lockWrite m bits => Sys2Proof.Machine.execLockWrite m bits s
  | .sealHold m => Sys2Proof.Machine.execSealHold m s
  | .holdExpired => Sys2Proof.Machine.execHoldExpired s
  | .msBoundary => Sys2Proof.Machine.execMsBoundary s
  | .sealPassEnd => Sys2Proof.Machine.execSealPassEnd s
  | .sealCommit m irq => Sys2Proof.Machine.execSealCommit m irq s
  | .aonBoundary n slip => Sys2Proof.Machine.execAonBoundary n slip s
  | .timeSet m => Sys2Proof.Machine.execTimeSet m s
  | .timeStep m => Sys2Proof.Machine.execTimeStep m s
  | .timeSlew m => Sys2Proof.Machine.execTimeSlew m s
  | .timeSlewStop m => Sys2Proof.Machine.execTimeSlewStop m s
  | .timeEnq m => Sys2Proof.Machine.execTimeEnq m s
  | .queuedStep => Sys2Proof.Machine.execQueuedStep s
  | .queuedSlew => Sys2Proof.Machine.execQueuedSlew s
  | .queuedRate => Sys2Proof.Machine.execQueuedRate s
  | .queuedSlewStop => Sys2Proof.Machine.execQueuedSlewStop s
  | .slewEnd => Sys2Proof.Machine.execSlewEnd s
  | .leapArm v => Sys2Proof.Machine.execLeapArm v s
  | .leapApply => Sys2Proof.Machine.execLeapApply s
  | .ppsEvent => Sys2Proof.Machine.execPpsEvent s
  | .ppsPulseEnd n => Sys2Proof.Machine.execPpsPulseEnd n s
  | .retune m sc slot comp k => Sys2Proof.Machine.execRetune m sc slot comp k s
  | .bandcal m sc => Sys2Proof.Machine.execBandcal m sc s
  | .queuedRetune sc => Sys2Proof.Machine.execQueuedRetune sc s
  | .scRampEnd sc k => Sys2Proof.Machine.execScRampEnd sc k s
  | .bandCalDone sc found lo hi band => Sys2Proof.Machine.execBandCalDone sc found lo hi band s
  | .lockFastSet sc => Sys2Proof.Machine.execLockFastSet sc s
  | .lockFastClear sc => Sys2Proof.Machine.execLockFastClear sc s
  | .lockSetRise sc k => Sys2Proof.Machine.execLockSetRise sc k s
  | .lossOfLock sc => Sys2Proof.Machine.execLossOfLock sc s
  | .lockDeadlineMiss sc => Sys2Proof.Machine.execLockDeadlineMiss sc s
  | .trailEntry sc => Sys2Proof.Machine.execTrailEntry sc s
  | .rehomeSwitch sc k => Sys2Proof.Machine.execRehomeSwitch sc k s
  | .fodDivCommit m fod fld v k => Sys2Proof.Machine.execFodDivCommit m fod fld v k s
  | .fodInselWrite m fod sc comp k => Sys2Proof.Machine.execFodInselWrite m fod sc comp k s
  | .pstep m fod k => Sys2Proof.Machine.execPstep m fod k s
  | .pslew m fod k => Sys2Proof.Machine.execPslew m fod k s
  | .pstop m fod k => Sys2Proof.Machine.execPstop m fod k s
  | .fodSlewEnd fod => Sys2Proof.Machine.execFodSlewEnd fod s
  | .witnessVisit fod selfOk err => Sys2Proof.Machine.execWitnessVisit fod selfOk err s
  | .fodStart fod k => Sys2Proof.Machine.execFodStart fod k s
  | .fodGroupWake g => Sys2Proof.Machine.execFodGroupWake g s
  | .outputDriverStart fod => Sys2Proof.Machine.execOutputDriverStart fod s
  | .outputDisable fod => Sys2Proof.Machine.execOutputDisable fod s
  | .queuedHop fod => Sys2Proof.Machine.execQueuedHop fod s
  | .queuedPhaseMove fod => Sys2Proof.Machine.execQueuedPhaseMove fod s
  | .queuedOen fod => Sys2Proof.Machine.execQueuedOen fod s
  | .hopEntryCommit m fod entry e => Sys2Proof.Machine.execHopEntryCommit m fod entry e s
  | .hopGo m fod entry k => Sys2Proof.Machine.execHopGo m fod entry k s
  | .hopReloadDone fod k => Sys2Proof.Machine.execHopReloadDone fod k s
  | .hopRateRelease fod k => Sys2Proof.Machine.execHopRateRelease fod k s
  | .refTimeEvent ix tEdge label width => Sys2Proof.Machine.execRefTimeEvent ix tEdge label width s
  | .refFreqSample ix phase => Sys2Proof.Machine.execRefFreqSample ix phase s
  | .zdaSentence ix bytes => Sys2Proof.Machine.execZdaSentence ix bytes s
  | .binaryTodFrame ix bytes => Sys2Proof.Machine.execBinaryTodFrame ix bytes s
  | .irigInFrame ix f => Sys2Proof.Machine.execIrigInFrame ix f s
  | .swrefSample m ix tm theta k => Sys2Proof.Machine.execSwrefSample m ix tm theta k s
  | .refLos ix => Sys2Proof.Machine.execRefLos ix s
  | .refFreqGate ix offset => Sys2Proof.Machine.execRefFreqGate ix offset s
  | .refQualTimer ix => Sys2Proof.Machine.execRefQualTimer ix s
  | .refDisqTimer ix mon => Sys2Proof.Machine.execRefDisqTimer ix mon s
  | .requal m ix => Sys2Proof.Machine.execRequal m ix s
  | .qnow m ix => Sys2Proof.Machine.execQnow m ix s
  | .wtrExpiry d => Sys2Proof.Machine.execWtrExpiry d s
  | .resel m d => Sys2Proof.Machine.execResel m d s
  | .clrhist m d => Sys2Proof.Machine.execClrhist m d s
  | .screedSample theta => Sys2Proof.Machine.execScreedSample theta s
  | .screedTeUpdate theta => Sys2Proof.Machine.execScreedTeUpdate theta s
  | .screedClear m => Sys2Proof.Machine.execScreedClear m s
  | .event lane e k => Sys2Proof.Machine.execEvent lane e k s
  | .tap lane t k => Sys2Proof.Machine.execTap lane t k s
  | .beacon lane b k => Sys2Proof.Machine.execBeacon lane b k s
  | .abort lane pil tag gen k => Sys2Proof.Machine.execAbort lane pil tag gen k s
  | .creditSyncEcho lane n fg fr => Sys2Proof.Machine.execCreditSyncEcho lane n fg fr s
  | .badBlock lane => Sys2Proof.Machine.execBadBlock lane s
  | .creditSyncMarker lane => Sys2Proof.Machine.execCreditSyncMarker lane s
  | .creditAuditTimeout lane => Sys2Proof.Machine.execCreditAuditTimeout lane s
  | .slotFree lane tag gen => Sys2Proof.Machine.execSlotFree lane tag gen s
  | .creditLinkUp lane => Sys2Proof.Machine.execCreditLinkUp lane s
  | .laneDown lane cl => Sys2Proof.Machine.execLaneDown lane cl s
  | .correction lane tag gen latency => Sys2Proof.Machine.execCorrection lane tag gen latency s
  | .pairWaitExpiry lane tag gen => Sys2Proof.Machine.execPairWaitExpiry lane tag gen s
  | .ingressAgeRetire tag gen k => Sys2Proof.Machine.execIngressAgeRetire tag gen k s
  | .prevNumberingExpiry fod => Sys2Proof.Machine.execPrevNumberingExpiry fod s
  | .resync m port k => Sys2Proof.Machine.execResync m port k s
  | .portFodWrite m port fod k => Sys2Proof.Machine.execPortFodWrite m port fod k s
  | .calStopTimeout port k => Sys2Proof.Machine.execCalStopTimeout port k s
  | .ecamLookup lane tag gen k => Sys2Proof.Machine.execEcamLookup lane tag gen k s
  | .ecamEntryWrite m e word v => Sys2Proof.Machine.execEcamEntryWrite m e word v s
  | .genSwitch m => Sys2Proof.Machine.execGenSwitch m s
  | .drainComplete => Sys2Proof.Machine.execDrainComplete s
  | .ringCfgWrite m ring v => Sys2Proof.Machine.execRingCfgWrite m ring v s
  | .flush m ring => Sys2Proof.Machine.execFlush m ring s
  | .ringRdWrite m ring v => Sys2Proof.Machine.execRingRdWrite m ring v s
  | .tokenRefill ring => Sys2Proof.Machine.execTokenRefill ring s
  | .eccUncorr slot => Sys2Proof.Machine.execEccUncorr slot s
  | .parity e => Sys2Proof.Machine.execParity e s
  | .ecamSigUpdate => Sys2Proof.Machine.execEcamSigUpdate s
  | .addi core => Sys2Proof.Machine.execAddi core s
  | .add core => Sys2Proof.Machine.execAdd core s
  | .addc core => Sys2Proof.Machine.execAddc core s
  | .sub core => Sys2Proof.Machine.execSub core s
  | .subc core => Sys2Proof.Machine.execSubc core s
  | .and core => Sys2Proof.Machine.execAnd core s
  | .or core => Sys2Proof.Machine.execOr core s
  | .xor core => Sys2Proof.Machine.execXor core s
  | .andn core => Sys2Proof.Machine.execAndn core s
  | .shl core => Sys2Proof.Machine.execShl core s
  | .shr core => Sys2Proof.Machine.execShr core s
  | .sar core => Sys2Proof.Machine.execSar core s
  | .mul core => Sys2Proof.Machine.execMul core s
  | .mulhu core => Sys2Proof.Machine.execMulhu core s
  | .mulhs core => Sys2Proof.Machine.execMulhs core s
  | .cmp core => Sys2Proof.Machine.execCmp core s
  | .tst core => Sys2Proof.Machine.execTst core s
  | .cmpi core => Sys2Proof.Machine.execCmpi core s
  | .andi core => Sys2Proof.Machine.execAndi core s
  | .ori core => Sys2Proof.Machine.execOri core s
  | .xori core => Sys2Proof.Machine.execXori core s
  | .lui core => Sys2Proof.Machine.execLui core s
  | .shli core => Sys2Proof.Machine.execShli core s
  | .shri core => Sys2Proof.Machine.execShri core s
  | .sari core => Sys2Proof.Machine.execSari core s
  | .ldw core ecc => Sys2Proof.Machine.execLdw core ecc s
  | .ldh core ecc => Sys2Proof.Machine.execLdh core ecc s
  | .ldhu core ecc => Sys2Proof.Machine.execLdhu core ecc s
  | .ldb core ecc => Sys2Proof.Machine.execLdb core ecc s
  | .ldbu core ecc => Sys2Proof.Machine.execLdbu core ecc s
  | .stw core => Sys2Proof.Machine.execStw core s
  | .sth core => Sys2Proof.Machine.execSth core s
  | .stb core => Sys2Proof.Machine.execStb core s
  | .bcc core => Sys2Proof.Machine.execBcc core s
  | .bl core => Sys2Proof.Machine.execBl core s
  | .jr core => Sys2Proof.Machine.execJr core s
  | .jalr core => Sys2Proof.Machine.execJalr core s
  | .rdreg core k => Sys2Proof.Machine.execRdreg core k s
  | .wrreg core k => Sys2Proof.Machine.execWrreg core k s
  | .hopAt core k => Sys2Proof.Machine.execHopAt core k s
  | .phsAt core k => Sys2Proof.Machine.execPhsAt core k s
  | .ratAt core k => Sys2Proof.Machine.execRatAt core k s
  | .oenAt core k => Sys2Proof.Machine.execOenAt core k s
  | .gangAt core k => Sys2Proof.Machine.execGangAt core k s
  | .snapAt core k => Sys2Proof.Machine.execSnapAt core k s
  | .tnow core k => Sys2Proof.Machine.execTnow core k s
  | .waitT core k => Sys2Proof.Machine.execWaitT core k s
  | .waitTResume core k => Sys2Proof.Machine.execWaitTResume core k s
  | .waitE core => Sys2Proof.Machine.execWaitE core s
  | .waitEResume core => Sys2Proof.Machine.execWaitEResume core s
  | .post core k => Sys2Proof.Machine.execPost core k s
  | .sig core => Sys2Proof.Machine.execSig core s
  | .nop core ecc => Sys2Proof.Machine.execNop core ecc s
  | .halt core => Sys2Proof.Machine.execHalt core s
  | .trap core => Sys2Proof.Machine.execTrap core s
  | .fence core => Sys2Proof.Machine.execFence core s
  | .coreid core => Sys2Proof.Machine.execCoreid core s
  | .readTimeout core => Sys2Proof.Machine.execReadTimeout core s
  | .breakpointHit core => Sys2Proof.Machine.execBreakpointHit core s
  | .seqStart m core => Sys2Proof.Machine.execSeqStart m core s
  | .seqHalt m core => Sys2Proof.Machine.execSeqHalt m core s
  | .seqResume m core => Sys2Proof.Machine.execSeqResume m core s
  | .seqStep m core => Sys2Proof.Machine.execSeqStep m core s
  | .seqVerify m core => Sys2Proof.Machine.execSeqVerify m core s
  | .imageVerifyDone core => Sys2Proof.Machine.execImageVerifyDone core s
  | .seqDoorbell m core => Sys2Proof.Machine.execSeqDoorbell m core s
  | .seqExcClr m core => Sys2Proof.Machine.execSeqExcClr m core s
  | .nvsStore m region core irq => Sys2Proof.Machine.execNvsStore m region core irq s
  | .nvsLoad m region core irq => Sys2Proof.Machine.execNvsLoad m region core irq s
  | .configStore m irq => Sys2Proof.Machine.execConfigStore m irq s
  | .calRun m blocks irq => Sys2Proof.Machine.execCalRun m blocks irq s
  | .portCal m port irq => Sys2Proof.Machine.execPortCal m port irq s
  | .refQualify m index requal limit irq => Sys2Proof.Machine.execRefQualify m index requal limit irq s
  | .scRetune m sc slot due irq => Sys2Proof.Machine.execScRetune m sc slot due irq s
  | .phaseWalk m gang amount delay irq => Sys2Proof.Machine.execPhaseWalk m gang amount delay irq s
  | .selftest m scope irq => Sys2Proof.Machine.execSelftest m scope irq s
  | .mateSync m irq => Sys2Proof.Machine.execMateSync m irq s
  | .screedSave m irq => Sys2Proof.Machine.execScreedSave m irq s
  | .commandStart slot k => Sys2Proof.Machine.execCommandStart slot k s
  | .commandComplete slot r k => Sys2Proof.Machine.execCommandComplete slot r k s
  | .commandTimeout slot k => Sys2Proof.Machine.execCommandTimeout slot k s
  | .dmaEnable m c v => Sys2Proof.Machine.execDmaEnable m c v s
  | .dmaPause m c => Sys2Proof.Machine.execDmaPause m c s
  | .dmaPaused c => Sys2Proof.Machine.execDmaPaused c s
  | .dmaDoorbell m c => Sys2Proof.Machine.execDmaDoorbell m c s
  | .dmaResume m c => Sys2Proof.Machine.execDmaResume m c s
  | .dmaAbort m c => Sys2Proof.Machine.execDmaAbort m c s
  | .descFetch c bytes => Sys2Proof.Machine.execDescFetch c bytes s
  | .descWriteBack c src dst => Sys2Proof.Machine.execDescWriteBack c src dst s
  | .drainBurst c => Sys2Proof.Machine.execDrainBurst c s
  | .drainFlushTimer c => Sys2Proof.Machine.execDrainFlushTimer c s
  | .dmaPromotion c => Sys2Proof.Machine.execDmaPromotion c s
  | .dmaBusError c addr loc fetch data => Sys2Proof.Machine.execDmaBusError c addr loc fetch data s
  | .dmaHrdWrite m c v => Sys2Proof.Machine.execDmaHrdWrite m c v s
  | .aonReady => Sys2Proof.Machine.execAonReady s
  | .nvsLoadComplete => Sys2Proof.Machine.execNvsLoadComplete s
  | .powerupCalStart => Sys2Proof.Machine.execPowerupCalStart s
  | .calApply results k => Sys2Proof.Machine.execCalApply results k s
  | .portCalDefer port => Sys2Proof.Machine.execPortCalDefer port s
  | .skimMeasure fod ok => Sys2Proof.Machine.execSkimMeasure fod ok s
  | .skimNaturalSwap fod => Sys2Proof.Machine.execSkimNaturalSwap fod s
  | .softAge fod => Sys2Proof.Machine.execSoftAge fod s
  | .skimForcedSwap fod => Sys2Proof.Machine.execSkimForcedSwap fod s
  | .faultIntake => Sys2Proof.Machine.execFaultIntake s
  | .faultInject m src kind addr => Sys2Proof.Machine.execFaultInject m src kind addr s
  | .unfenceRequest m src => Sys2Proof.Machine.execUnfenceRequest m src s
  | .fenceClear src => Sys2Proof.Machine.execFenceClear src s
  | .pendClear m src => Sys2Proof.Machine.execPendClear m src s
  | .firstErrorRearm m => Sys2Proof.Machine.execFirstErrorRearm m s
  | .shadowWindowExpiry src => Sys2Proof.Machine.execShadowWindowExpiry src s
  | .sevParityCheck err => Sys2Proof.Machine.execSevParityCheck err s
  | .snapNow m k => Sys2Proof.Machine.execSnapNow m k s
  | .snapEnq m k => Sys2Proof.Machine.execSnapEnq m k s
  | .queuedSnap k => Sys2Proof.Machine.execQueuedSnap k s
  | .snapInEdge t k => Sys2Proof.Machine.execSnapInEdge t k s
  | .snapComplete offsets => Sys2Proof.Machine.execSnapComplete offsets s
  | .snapHold m => Sys2Proof.Machine.execSnapHold m s
  | .mateLineChange alive level => Sys2Proof.Machine.execMateLineChange alive level s
  | .claim => Sys2Proof.Machine.execClaim s
  | .mateLaneUp l => Sys2Proof.Machine.execMateLaneUp l s
  | .mateLaneDown l => Sys2Proof.Machine.execMateLaneDown l s
  | .twtReqSend l k => Sys2Proof.Machine.execTwtReqSend l k s
  | .twtReq l t1 t2 t3 => Sys2Proof.Machine.execTwtReq l t1 t2 t3 s
  | .twtResp l t1 t2 t3 t4 => Sys2Proof.Machine.execTwtResp l t1 t2 t3 t4 s
  | .ckpt c => Sys2Proof.Machine.execCkpt c s
  | .ckptMiss => Sys2Proof.Machine.execCkptMiss s
  | .statusSend => Sys2Proof.Machine.execStatusSend s
  | .status st => Sys2Proof.Machine.execStatus st s
  | .handover => Sys2Proof.Machine.execHandover s
  | .events bits => Sys2Proof.Machine.execEvents bits s
  | .fwd ix => Sys2Proof.Machine.execFwd ix s
  | .words d1 d2 d3 => Sys2Proof.Machine.execWords d1 d2 d3 s
  | .ledger fod r => Sys2Proof.Machine.execLedger fod r s
  | .snap t id k => Sys2Proof.Machine.execSnap t id k s
  | .image ix last => Sys2Proof.Machine.execImage ix last s
  | .mateSyncApply => Sys2Proof.Machine.execMateSyncApply s
  | .yield m => Sys2Proof.Machine.execYield m s
  | .ownRefresh g => Sys2Proof.Machine.execOwnRefresh g s
  | .por => Sys2Proof.Machine.execPor s
  | .mrstNAssert => Sys2Proof.Machine.execMrstNAssert s
  | .mrstNRelease => Sys2Proof.Machine.execMrstNRelease s
  | .softReset m => Sys2Proof.Machine.execSoftReset m s
  | .watchdogKick m => Sys2Proof.Machine.execWatchdogKick m s
  | .watchdogExpiry kick => Sys2Proof.Machine.execWatchdogExpiry kick s
  | .parkRelease m => Sys2Proof.Machine.execParkRelease m s
  | .coreWake => Sys2Proof.Machine.execCoreWake s
  | .coreSleep => Sys2Proof.Machine.execCoreSleep s
  | .supplyMeasure dc value freq store load asic k => Sys2Proof.Machine.execSupplyMeasure dc value freq store load asic k s
  | .zeroCrossing t => Sys2Proof.Machine.execZeroCrossing t s
  | .rideExit => Sys2Proof.Machine.execRideExit s
  | .supplySummary mean => Sys2Proof.Machine.execSupplySummary mean s
  | .storeFull => Sys2Proof.Machine.execStoreFull s
  | .chargeSlow => Sys2Proof.Machine.execChargeSlow s
  | .rideYield => Sys2Proof.Machine.execRideYield s
  | .rideStores low => Sys2Proof.Machine.execRideStores low s
  | .orderedShutdown => Sys2Proof.Machine.execOrderedShutdown s
  | .ocxoReady => Sys2Proof.Machine.execOcxoReady s
  | .notWarm => Sys2Proof.Machine.execNotWarm s
  | .ovenFail => Sys2Proof.Machine.execOvenFail s
  | .baseLol => Sys2Proof.Machine.execBaseLol s
  | .converter => Sys2Proof.Machine.execConverter s
  | .thermalAlarm asic iface => Sys2Proof.Machine.execThermalAlarm asic iface s
  | .driver fod => Sys2Proof.Machine.execDriver fod s
  | .ident => Sys2Proof.Machine.execIdent s
  | .smbStatus => Sys2Proof.Machine.execSmbStatus s
  | .supply => Sys2Proof.Machine.execSupply s
  | .temps => Sys2Proof.Machine.execTemps s
  | .faults => Sys2Proof.Machine.execFaults s
  | .fences => Sys2Proof.Machine.execFences s
  | .alertClr => Sys2Proof.Machine.execAlertClr s
  | .alertResponse => Sys2Proof.Machine.execAlertResponse s
  | .perst => Sys2Proof.Machine.execPerst s
  | .pcieLinkDown => Sys2Proof.Machine.execPcieLinkDown s
  | .bar2Write m addr bytes => Sys2Proof.Machine.execBar2Write m addr bytes s
  | .semaphoreRead m r => Sys2Proof.Machine.execSemaphoreRead m r s
  | .inputInRange dc => Sys2Proof.Machine.execInputInRange dc s
  | .supplyCollapse => Sys2Proof.Machine.execSupplyCollapse s
  | .blockLock lane cl => Sys2Proof.Machine.execBlockLock lane cl s
  | .mateStatusStale => Sys2Proof.Machine.execMateStatusStale s
  | .pcieLinkUp => Sys2Proof.Machine.execPcieLinkUp s
  | .configurationRequest => Sys2Proof.Machine.execConfigurationRequest s
  | .uncorr => Sys2Proof.Machine.execUncorr s

end Sys2Proof.Machine
end

