-- ==== Sys2Proof/Safety.lean ====
section
/-!
DEFINITION. What a safe run of the block is, in the terms that the claims use: no step stops, and the sparse data of
the state keeps its canonical form; the parts of the block and which of them a command can change; the registers that any
report or counter may touch; the conditions that many claims share.
-/
namespace Sys2Proof.Machine

open Sys2Proof

/-- A step that answers a next state. -/
def Completes (o : Host.Outcome State Fault Refusal) : Prop := ∃ t, o = .next t

/-- The memories hold the one canonical form: addresses strictly rising, no byte listed that reads as unlisted. -/
abbrev Memory.wf (m : List Host.Cell) : Prop := mwf (fun _ => (0 : Byte)) m = true

/-- The registers that reports and saturating counters write: the saturation registers (R453, R456), FCOL_STATUS, the
lost count and the counters of FCOL (R416, R418). -/
def faultReg (o : Nat) : Bool :=
  decide (o = 0x180 ∨ o = 0x184 ∨ o = 0x188 ∨ (0x030000 ≤ o ∧ o < 0x038000))

/-- The registers of core n that an event changes: its event bits and the count of coalesced events (R305). -/
def evtReg (n o : Nat) : Bool := decide (o = rSEQ n 0x30 ∨ o = rSEQ n 0x34 ∨ o = rSEQ n 0x38)

/-- The registers that an event common to all cores changes. -/
def evtRegs (o : Nat) : Bool := (List.range 8).any (fun n => evtReg n o)

/-- Every register reads as before but those listed and those that reports and counters write. -/
def RegsKept (s t : State) (but : List Nat) : Prop := ∀ o, faultReg o = false → o ∉ but → rd t o = rd s o

/-- Every byte of the memories reads as before. -/
def MemKept (s t : State) : Prop := ∀ a, mb t a = mb s a

/-- The AON takes writes of the registers that it answers itself: the NVS load is over and the module is not in SAFE (R434,
R506, R507). -/
abbrev AonOpen (s : State) : Prop := s.nvsLoaded = true ∧ s.fcol.safe = false

/-- The bus takes writes, and no access need wake the core domain first: the module is not in AON_ONLY (R505, R506). -/
abbrev BusOpen (s : State) : Prop := AonOpen s ∧ pwrState s ≠ 1

/-- What a loss of power or a POR leaves of the store (R352, R403): no store is in progress, every bank is as it was but that of a
store that was, which keeps its COMMIT and does not become valid. -/
def BanksLeft (s t : State) : Prop :=
  t.nvs.job = none ∧ (s.nvs.job = none → t.nvs.banks = s.nvs.banks) ∧
  ∀ key b, s.nvs.job = some (key, b) →
    (∀ j, j ≠ key → mget (fun _ => bankInit) t.nvs.banks j = mget (fun _ => bankInit) s.nvs.banks j) ∧
    (bankOf t (key / 1024) (key % 1024)).commit = (bankOf s (key / 1024) (key % 1024)).commit ∧
    (bankOf t (key / 1024) (key % 1024)).full = (bankOf s (key / 1024) (key % 1024)).full

/-- The state at the cycle of a write; the cycle is noted where hardware updates of the same cycle meet the write (R56). -/
def atWrite (s : State) (k : WriteAt) : State :=
  let s := atCyc s k.cycle
  if k.tie then { s with cycle := ⟨false, s.time.aon, s.cyc, []⟩ } else s

/-- The four divide values as the registers hold them (R127). -/
def divRegs (s : State) (n : Nat) : Nat × Nat × Nat × Nat :=
  (rn s (rFOD n 0x14) % 4096, rM s (rFOD n 0x18) 3, rM s (rFOD n 0x24) 3, rM s (rFOD n 0x30) 2)

/-- Divide values with one of them replaced. -/
def divWith (fld : DivField) (v : Nat) (d : Nat × Nat × Nat × Nat) : Nat × Nat × Nat × Nat :=
  match fld with
  | .n => (v, d.2.1, d.2.2.1, d.2.2.2)
  | .f => (d.1, v, d.2.2.1, d.2.2.2)
  | .m => (d.1, d.2.1, v, d.2.2.2)
  | .o => (d.1, d.2.1, d.2.2.1, v)

/-- The widths of the divide values in bits (R127). -/
def divWidth : DivField → Nat
  | .n => 12
  | .f => 40
  | .m => 40
  | .o => 32

/-- Software may write the divide, input and command fields of an output: neither fence nor retune holds them (R115, R153), nor has
hardware written them in the core cycle of a write that is noted as the same cycle's (R21, R56). -/
abbrev FodFree (s : State) (n : Nat) : Prop :=
  (fod s n).fenced = false ∧ scRetuning s (fod s n).sc = false ∧
  (∀ c, (fod s n).insel = some c → scRetuning s c = false) ∧
  (s.cycle.on = false ∨ ∀ o, (fod s n).hw.contains (cycNo s, o) = false)

/-- Nothing but a queued time-scale action can set or step Plain at the next boundary: no write that has landed waits for it,
and DP0, as its evaluation at the boundary leaves it, has neither set nor step (R48, R79, R200). -/
abbrev PlainBoundary (s : State) (slip : Bool) : Prop :=
  let t := aonWords (aonInterp (slowsDue (holdsEnd (aonTick { s with landed := [] }))) slip)
  s.landed = [] ∧ s.time.landed = 0 ∧ (dp t 0).setBy = none ∧ (dp t 0).stepBy = none

/-- At the next boundary nothing but the advance acts on Plain: no queued time-scale action is due either (R79). -/
abbrev QuietBoundary (s : State) (slip : Bool) : Prop := PlainBoundary s slip ∧ ∀ a ∈ s.time.queue, (nextT s : Int) < a.due

/-- The master and the four words of CMD_FIFO that a submitting command writes (R341, R347); a command of another kind
submits nothing. -/
def submission : Instr → Option (Nat × Nat × Nat × Nat × Nat)
  | .nvsStore m region core irq => some (m, 0x01 + b2n irq * 2 ^ 8 + region % 16 * 2 ^ 16 + core * 2 ^ 20, 0, 0, 0)
  | .nvsLoad m region core irq => some (m, 0x02 + b2n irq * 2 ^ 8 + region % 16 * 2 ^ 16 + core * 2 ^ 20, 0, 0, 0)
  | .configStore m irq => some (m, 0x03 + b2n irq * 2 ^ 8, 0, 0, 0)
  | .calRun m blocks irq => some (m, 0x04 + b2n irq * 2 ^ 8, blocks % 2 ^ 32, 0, 0)
  | .portCal m port irq => some (m, 0x05 + b2n irq * 2 ^ 8 + port * 2 ^ 16, 0, 0, 0)
  | .refQualify m index requal limit irq =>
    some (m, 0x06 + b2n irq * 2 ^ 8 + index % 256 * 2 ^ 16 + b2n requal * 2 ^ 24, limit % 2 ^ 32, 0, 0)
  | .scRetune m n slot due irq =>
    some (m, 0x07 + b2n irq * 2 ^ 8 + n * 2 ^ 16 + slot * 2 ^ 20, due.toNat % 2 ^ 32, due.toNat / 2 ^ 32, 0)
  | .phaseWalk m gang amount delay irq =>
    some (m, 0x08 + b2n irq * 2 ^ 8 + gang * 2 ^ 16, tw 48 amount % 2 ^ 32, tw 48 amount / 2 ^ 32, delay.toNat)
  | .selftest m scope irq => some (m, 0x09 + b2n irq * 2 ^ 8, scope % 2 ^ 32, 0, 0)
  | .mateSync m irq => some (m, 0x0A + b2n irq * 2 ^ 8, 0, 0, 0)
  | .sealCommit m irq => some (m, 0x0B + b2n irq * 2 ^ 8, 0, 0, 0)
  | .screedSave m irq => some (m, 0x0C + b2n irq * 2 ^ 8, 0, 0, 0)
  | _ => none

/-- The parts of the block: one for each field of `State`. -/
inductive Part where
  | pending | free | cyc | order | regs | shadow | staging | posted | landed | cycle | mem | time | seal | fcol
    | snap | scs | fods | refs | dps | scr | lanes | ports | ingress | gone | early | owed | rings | corrPause |
    tdcFail | groups | wits | coreAwake | standby | mateReady | mate | nvs | cal | cmd | dmas | dmaLast | seqs |
    pwr | smb | pcieUp | msix | pba | nvsLoaded | out
  deriving DecidableEq, Repr

/-- A part is the same in two states. -/
def Part.kept (p : Part) (s t : State) : Prop :=
  match p with
  | .pending => t.pending = s.pending
  | .free => t.free = s.free
  | .cyc => t.cyc = s.cyc
  | .order => t.order = s.order
  | .regs => t.regs = s.regs
  | .shadow => t.shadow = s.shadow
  | .staging => t.staging = s.staging
  | .posted => t.posted = s.posted
  | .landed => t.landed = s.landed
  | .cycle => t.cycle = s.cycle
  | .mem => t.mem = s.mem
  | .time => t.time = s.time
  | .seal => t.seal_ = s.seal_
  | .fcol => t.fcol = s.fcol
  | .snap => t.snap = s.snap
  | .scs => t.scs = s.scs
  | .fods => t.fods = s.fods
  | .refs => t.refs = s.refs
  | .dps => t.dps = s.dps
  | .scr => t.scr = s.scr
  | .lanes => t.lanes = s.lanes
  | .ports => t.ports = s.ports
  | .ingress => t.ingress = s.ingress
  | .gone => t.gone = s.gone
  | .early => t.early = s.early
  | .owed => t.owed = s.owed
  | .rings => t.rings = s.rings
  | .corrPause => t.corrPause = s.corrPause
  | .tdcFail => t.tdcFail = s.tdcFail
  | .groups => t.groups = s.groups
  | .wits => t.wits = s.wits
  | .coreAwake => t.coreAwake = s.coreAwake
  | .standby => t.standby = s.standby
  | .mateReady => t.mateReady = s.mateReady
  | .mate => t.mate = s.mate
  | .nvs => t.nvs = s.nvs
  | .cal => t.cal = s.cal
  | .cmd => t.cmd = s.cmd
  | .dmas => t.dmas = s.dmas
  | .dmaLast => t.dmaLast = s.dmaLast
  | .seqs => t.seqs = s.seqs
  | .pwr => t.pwr = s.pwr
  | .smb => t.smb = s.smb
  | .pcieUp => t.pcieUp = s.pcieUp
  | .msix => t.msix = s.msix
  | .pba => t.pba = s.pba
  | .nvsLoaded => t.nvsLoaded = s.nvsLoaded
  | .out => t.out = s.out

/-- The parts that a write of a register can reach: software can start most of what the block does, and so can an
Oarva core. -/
def wideParts : List Part :=
  [.free, .order, .regs, .shadow, .staging, .posted, .landed, .cycle, .mem, .time, .seal, .fcol, .snap, .scs,
    .fods, .refs, .dps, .scr, .lanes, .ports, .rings, .corrPause, .groups, .coreAwake, .standby, .mateReady,
    .mate, .nvs, .cal, .cmd, .dmas, .seqs, .pwr, .msix, .pba, .out]

/-- The parts that a command can change; it leaves every other part as it is. The parts of a wide command are those of a
register write, with or without a few. -/
def footprint (c : Instr) : List Part :=
  match c with
  | .lockFastSet .. | .lockFastClear .. | .trailEntry .. =>
    [.scs]
  | .fodGroupWake .. =>
    [.groups]
  | .pairWaitExpiry .. =>
    [.lanes]
  | .prevNumberingExpiry .. =>
    [.fods]
  | .drainComplete | .ecamSigUpdate =>
    [.regs]
  | .tokenRefill .. =>
    [.rings]
  | .dmaPaused .. | .drainFlushTimer .. =>
    [.dmas]
  | .shadowWindowExpiry .. =>
    [.fcol]
  | .ledger .. | .image .. =>
    [.mate]
  | .ident | .smbStatus | .supply | .faults | .fences | .configurationRequest =>
    [.out]
  | .inputInRange .. =>
    [.pwr]
  | .leapApply =>
    [.regs, .time]
  | .ppsPulseEnd .. =>
    [.time, .out]
  | .refQualTimer .. =>
    [.regs, .refs]
  | .creditSyncMarker .. | .slotFree .. =>
    [.lanes, .out]
  | .parity .. | .softAge .. | .sevParityCheck .. | .chargeSlow | .notWarm | .baseLol | .converter |
    .thermalAlarm .. | .driver .. | .uncorr =>
    [.regs, .fcol]
  | .waitEResume .. | .breakpointHit .. =>
    [.regs, .seqs]
  | .portCalDefer .. =>
    [.regs, .cal]
  | .twtReq .. | .statusSend | .ownRefresh .. =>
    [.mate, .out]
  | .words .. =>
    [.dps, .mate]
  | .storeFull | .ocxoReady =>
    [.regs, .smb]
  | .alertClr =>
    [.free, .smb]
  | .alertResponse =>
    [.smb, .out]
  | .holdExpired =>
    [.regs, .seal, .fcol]
  | .leapArm .. =>
    [.regs, .time, .fcol]
  | .bandCalDone .. | .lockDeadlineMiss .. =>
    [.regs, .fcol, .scs]
  | .outputDisable .. | .skimNaturalSwap .. =>
    [.regs, .fcol, .fods]
  | .refLos .. | .refFreqGate .. | .refDisqTimer .. =>
    [.regs, .fcol, .refs]
  | .screedTeUpdate .. =>
    [.regs, .fcol, .scr]
  | .creditAuditTimeout .. | .laneDown .. =>
    [.regs, .fcol, .lanes]
  | .creditLinkUp .. | .blockLock .. =>
    [.lanes, .cal, .out]
  | .waitTResume .. =>
    [.cyc, .regs, .seqs]
  | .imageVerifyDone .. =>
    [.regs, .fcol, .seqs]
  | .dmaPromotion .. =>
    [.regs, .fcol, .dmas]
  | .twtReqSend .. =>
    [.cyc, .mate, .out]
  | .events .. =>
    [.regs, .fcol, .mate]
  | .coreSleep =>
    [.time, .seal, .coreAwake]
  | .ovenFail =>
    [.regs, .fcol, .smb]
  | .pcieLinkUp =>
    [.pcieUp, .pba, .out]
  | .refTimeEvent .. | .refFreqSample .. | .zdaSentence .. | .binaryTodFrame .. | .irigInFrame .. | .twtResp ..
    =>
    [.regs, .fcol, .refs, .dps]
  | .screedSample .. =>
    [.free, .regs, .fcol, .scr]
  | .eccUncorr .. =>
    [.regs, .mem, .fcol, .rings]
  | .readTimeout .. =>
    [.free, .regs, .fcol, .seqs]
  | .ckptMiss =>
    [.regs, .fcol, .mate, .smb]
  | .perst | .pcieLinkDown =>
    [.regs, .fcol, .pcieUp, .msix]
  | .lossOfLock .. =>
    [.regs, .fcol, .scs, .mate, .out]
  | .skimMeasure .. =>
    [.regs, .fcol, .fods, .wits, .cal]
  | .msBoundary =>
    [.regs, .seal, .fcol, .corrPause, .mate, .out]
  | .fodSlewEnd .. | .queuedHop .. | .queuedPhaseMove .. | .queuedOen .. | .skimForcedSwap .. =>
    [.regs, .fcol, .fods, .lanes, .mate, .out]
  | .snapComplete .. =>
    [.regs, .fcol, .snap, .mate, .pba, .out]
  | .mateStatusStale =>
    [.free, .regs, .fods, .mateReady, .mate, .out]
  | .witnessVisit .. =>
    [.regs, .fcol, .fods, .tdcFail, .wits, .mate, .out]
  | .fodStart .. | .hopReloadDone .. | .hopRateRelease .. =>
    [.cyc, .regs, .fcol, .fods, .lanes, .mate, .out]
  | .outputDriverStart .. =>
    [.regs, .fcol, .fods, .lanes, .mate, .cal, .out]
  | .calStopTimeout .. =>
    [.free, .cyc, .regs, .fcol, .ports, .cal, .out]
  | .zeroCrossing .. | .supplySummary .. =>
    [.regs, .mem, .fcol, .rings, .mate, .dmas, .out]
  | .scRampEnd .. | .lockSetRise .. | .rehomeSwitch .. =>
    [.cyc, .regs, .fcol, .scs, .fods, .lanes, .mate, .out]
  | .wtrExpiry .. =>
    [.free, .regs, .time, .fcol, .dps, .scr, .mate, .out]
  | .drainBurst .. =>
    [.regs, .fcol, .rings, .mate, .dmas, .dmaLast, .pba, .out]
  | .mateLaneUp .. | .mateLaneDown .. =>
    [.free, .regs, .fcol, .fods, .refs, .mateReady, .mate, .out]
  | .ckpt .. =>
    [.regs, .mem, .fcol, .fods, .scr, .mate, .smb, .out]
  | .queuedRetune .. =>
    [.regs, .time, .fcol, .snap, .scs, .fods, .lanes, .mate, .out]
  | .coreWake | .temps | .bar2Write .. =>
    [.regs, .mem, .fcol, .rings, .coreAwake, .mate, .dmas, .pwr, .out]
  | .rideExit =>
    [.regs, .mem, .fcol, .rings, .mate, .dmas, .pwr, .smb, .out]
  | .ingressAgeRetire .. =>
    [.cyc, .regs, .mem, .fcol, .ingress, .owed, .rings, .mate, .dmas, .out]
  | .ecamLookup .. =>
    [.cyc, .regs, .mem, .fcol, .lanes, .ingress, .rings, .mate, .dmas, .out]
  | .status .. =>
    [.free, .order, .regs, .fcol, .fods, .mateReady, .mate, .cmd, .smb, .out]
  | .semaphoreRead .. =>
    [.free, .regs, .mem, .fcol, .rings, .coreAwake, .mate, .dmas, .pwr, .out]
  | .shadowLatchRead .. | .timeRead .. =>
    [.cyc, .regs, .shadow, .mem, .fcol, .rings, .coreAwake, .mate, .dmas, .pwr, .out]
  | .sealCommit .. | .nvsStore .. | .nvsLoad .. | .configStore .. | .calRun .. | .portCal .. | .refQualify .. |
    .scRetune .. | .phaseWalk .. | .selftest .. | .mateSync .. | .screedSave .. =>
    [.order, .regs, .mem, .fcol, .rings, .coreAwake, .mate, .cmd, .dmas, .pwr, .out]
  | .correction .. =>
    [.free, .regs, .mem, .fcol, .lanes, .ingress, .owed, .rings, .mate, .dmas, .out]
  | .snapInEdge .. | .snap .. =>
    [.cyc, .regs, .mem, .fcol, .snap, .rings, .coreAwake, .mate, .dmas, .pwr, .out]
  | .supplyMeasure .. =>
    [.cyc, .regs, .mem, .fcol, .rings, .mate, .cmd, .dmas, .pwr, .smb, .out]
  | .sealPassEnd | .rideStores .. =>
    [.order, .regs, .mem, .seal, .fcol, .rings, .mate, .cmd, .dmas, .pwr, .pba, .out]
  | .ppsEvent =>
    [.free, .regs, .mem, .time, .fcol, .snap, .rings, .coreAwake, .mate, .dmas, .pwr, .out]
  | .descFetch .. =>
    [.free, .regs, .shadow, .mem, .fcol, .rings, .coreAwake, .mate, .dmas, .dmaLast, .pwr, .out]
  | .powerupCalStart =>
    [.regs, .mem, .fcol, .scs, .rings, .groups, .coreAwake, .mate, .cal, .dmas, .pwr, .out]
  | .handover =>
    [.free, .regs, .fcol, .fods, .refs, .dps, .standby, .mateReady, .mate, .cal, .smb, .out]
  | .creditSyncEcho .. | .badBlock .. =>
    [.regs, .mem, .fcol, .lanes, .ports, .ingress, .gone, .early, .owed, .rings, .mate, .dmas, .out]
  | .claim =>
    [.free, .regs, .mem, .fcol, .fods, .refs, .dps, .standby, .mateReady, .mate, .cal, .smb, .out]
  | .abort .. =>
    [.cyc, .regs, .mem, .fcol, .lanes, .ports, .ingress, .gone, .early, .owed, .rings, .mate, .dmas, .out]
  | .fenceClear .. =>
    [.free, .regs, .fcol, .scs, .fods, .refs, .dps, .lanes, .mateReady, .mate, .cal, .dmas, .smb, .out]
  | .queuedSnap .. =>
    [.cyc, .regs, .mem, .time, .fcol, .snap, .scs, .fods, .rings, .coreAwake, .mate, .dmas, .pwr, .out]
  | .tap .. =>
    [.free, .cyc, .regs, .mem, .fcol, .lanes, .ports, .ingress, .gone, .early, .owed, .rings, .mate, .cal,
      .dmas, .out]
  | .rideYield =>
    [.order, .regs, .mem, .seal, .fcol, .refs, .dps, .rings, .standby, .mateReady, .mate, .cmd, .dmas, .pwr,
      .pba, .out]
  | .event .. =>
    [.free, .cyc, .regs, .mem, .fcol, .fods, .lanes, .ports, .ingress, .gone, .early, .owed, .rings, .mate,
      .cal, .dmas, .out]
  | .commandTimeout .. =>
    [.free, .cyc, .order, .regs, .mem, .seal, .fcol, .scs, .rings, .mate, .nvs, .cal, .cmd, .dmas, .pwr, .pba,
      .out]
  | .aonReady =>
    [.free, .regs, .mem, .time, .fcol, .fods, .refs, .dps, .rings, .coreAwake, .standby, .mateReady, .mate,
      .cal, .dmas, .pwr, .out]
  | .mrstNRelease =>
    [.free, .regs, .mem, .fcol, .fods, .refs, .dps, .rings, .coreAwake, .standby, .mateReady, .mate, .cal,
      .dmas, .seqs, .pwr, .out]
  | .calApply .. =>
    [.free, .cyc, .regs, .mem, .fcol, .scs, .fods, .refs, .dps, .groups, .standby, .mateReady, .mate, .cal,
      .cmd, .seqs, .pwr, .out]
  | .beacon .. =>
    [.free, .cyc, .regs, .mem, .fcol, .fods, .refs, .dps, .lanes, .ports, .ingress, .gone, .early, .owed,
      .rings, .mate, .cal, .dmas, .out]
  | .watchdogExpiry .. =>
    [.order, .regs, .shadow, .staging, .mem, .seal, .fcol, .ports, .rings, .corrPause, .mate, .nvs, .cal, .cmd,
      .dmas, .seqs, .pwr, .pba, .out]
  | .commandStart .. =>
    [.free, .cyc, .order, .regs, .mem, .seal, .fcol, .scs, .fods, .refs, .ports, .rings, .mate, .nvs, .cal,
      .cmd, .dmas, .pwr, .pba, .out]
  | .mateLineChange .. =>
    [.free, .order, .regs, .mem, .seal, .fcol, .fods, .refs, .dps, .rings, .standby, .mateReady, .mate, .cal,
      .cmd, .dmas, .pwr, .smb, .pba, .out]
  | .faultIntake =>
    wideParts.filter (fun p => decide (p ∉ [Part.shadow, Part.staging, Part.posted, Part.landed, Part.cycle,
      Part.snap, Part.corrPause, Part.groups, Part.coreAwake, Part.msix])) ++ [.smb]
  | .commandComplete .. =>
    wideParts.filter (fun p => decide (p ∉ [Part.posted, Part.landed, Part.coreAwake, Part.msix])) ++ [.cyc]
  | .nvsLoadComplete =>
    wideParts.filter (fun p => decide (p ∉ [Part.posted, Part.landed, Part.coreAwake, Part.msix])) ++
      [.nvsLoaded]
  | .mateSyncApply =>
    wideParts.filter (fun p => decide (p ∉ [Part.posted, Part.landed, Part.coreAwake, Part.msix])) ++ [.smb]
  | .postedWriteLand .. =>
    wideParts.filter (fun p => decide (p ∉ [Part.coreAwake, Part.msix]))
  | .lockWrite .. | .sealHold .. | .timeSet .. | .timeStep .. | .timeSlew .. | .timeSlewStop .. | .timeEnq .. |
    .bandcal .. | .hopEntryCommit .. | .requal .. | .qnow .. | .resel .. | .clrhist .. | .screedClear .. |
    .ecamEntryWrite .. | .genSwitch .. | .ringCfgWrite .. | .flush .. | .ringRdWrite .. | .seqStart .. |
    .seqHalt .. | .seqResume .. | .seqStep .. | .seqVerify .. | .seqDoorbell .. | .seqExcClr .. | .dmaEnable ..
    | .dmaPause .. | .dmaDoorbell .. | .dmaResume .. | .dmaAbort .. | .dmaHrdWrite .. | .unfenceRequest .. |
    .pendClear .. | .firstErrorRearm .. | .snapHold .. | .fwd .. | .softReset .. | .watchdogKick .. |
    .parkRelease .. =>
    wideParts.filter (fun p => decide (p ∉ [Part.landed]))
  | .registerWrite .. | .retune .. | .fodDivCommit .. | .fodInselWrite .. | .pstep .. | .pslew .. | .pstop .. |
    .hopGo .. | .swrefSample .. | .resync .. | .portFodWrite .. | .snapNow .. | .snapEnq .. =>
    wideParts.filter (fun p => decide (p ∉ [Part.landed])) ++ [.cyc]
  | .aonBoundary .. | .queuedStep | .queuedSlew | .queuedRate | .queuedSlewStop | .slewEnd =>
    wideParts.filter (fun p => decide (p ∉ [Part.posted, Part.msix])) ++ [.cyc, .smb]
  | .addi .. | .add .. | .addc .. | .sub .. | .subc .. | .and .. | .or .. | .xor .. | .andn .. | .shl .. | .shr
    .. | .sar .. | .mul .. | .mulhu .. | .mulhs .. | .cmp .. | .tst .. | .cmpi .. | .andi .. | .ori .. | .xori
    .. | .lui .. | .shli .. | .shri .. | .sari .. | .ldw .. | .ldh .. | .ldhu .. | .ldb .. | .ldbu .. | .stw ..
    | .sth .. | .stb .. | .bcc .. | .bl .. | .jr .. | .jalr .. | .waitE .. | .sig .. | .nop .. | .halt .. |
    .trap .. | .fence .. | .coreid .. | .faultInject .. =>
    wideParts
  | .descWriteBack .. | .dmaBusError .. =>
    wideParts.filter (fun p => decide (p ∉ [Part.landed])) ++ [.dmaLast]
  | .yield .. =>
    wideParts.filter (fun p => decide (p ∉ [Part.landed])) ++ [.smb]
  | .mrstNAssert =>
    [.regs, .shadow, .staging, .time, .seal, .fcol, .snap, .scs, .fods, .refs, .dps, .scr, .lanes, .ports,
      .ingress, .gone, .early, .owed, .rings, .corrPause, .groups, .wits, .coreAwake, .standby, .mateReady,
      .mate, .nvs, .cal, .cmd, .dmas, .dmaLast, .seqs, .pwr, .smb, .nvsLoaded, .out]
  | .rdreg .. | .wrreg .. | .hopAt .. | .phsAt .. | .ratAt .. | .oenAt .. | .gangAt .. | .snapAt .. | .tnow .. |
    .waitT .. | .post .. =>
    wideParts ++ [.cyc]
  | .orderedShutdown =>
    [.cyc, .order, .regs, .shadow, .staging, .posted, .landed, .cycle, .mem, .time, .seal, .fcol, .snap, .scs,
      .fods, .refs, .dps, .scr, .lanes, .ports, .ingress, .gone, .early, .owed, .rings, .corrPause, .tdcFail,
      .groups, .wits, .coreAwake, .standby, .mateReady, .mate, .nvs, .cal, .cmd, .dmas, .dmaLast, .seqs, .pwr,
      .smb, .pcieUp, .msix, .pba, .nvsLoaded]
  | .por | .supplyCollapse =>
    wideParts.filter (fun p => decide (p ∉ [Part.out])) ++ [.cyc, .ingress, .gone, .early, .owed, .tdcFail,
      .wits, .dmaLast, .smb, .pcieUp, .nvsLoaded]

/-- R284's identity of a ring: five counters that wrap at 64 bits, and the records in flight. -/
abbrev ringConserved (x : RingSt) : Prop :=
  x.admitted % 2 ^ 64 = (x.delivered + x.police + x.full + x.abandoned + x.inFlight) % 2 ^ 64

-- Oarva cores

/-- Core n issues an instruction: its STATE is RUNNING, the core domain is awake, and no breakpoint holds it. -/
abbrev SeqGoes (s : State) (n : Nat) : Prop := rb s (rSEQ n 4) 0 3 = 1 ∧ seqRuns s n = true

/-- Core n issues instruction i: the word at its PC spells i. -/
abbrev SeqIssues (s : State) (n : Nat) (i : OInstr) : Prop := SeqGoes s n ∧ seqFetch s n = some i

/-- The row of the opcode table that an instruction is, without an error of the core's memories. -/
def mnRow (core : CoreIx) (k : CycIx) : Mn → Instr
  | .addi => .addi core
  | .add => .add core
  | .addc => .addc core
  | .sub => .sub core
  | .subc => .subc core
  | .and => .and core
  | .or => .or core
  | .xor => .xor core
  | .andn => .andn core
  | .shl => .shl core
  | .shr => .shr core
  | .sar => .sar core
  | .mul => .mul core
  | .mulhu => .mulhu core
  | .mulhs => .mulhs core
  | .cmp => .cmp core
  | .tst => .tst core
  | .cmpi => .cmpi core
  | .andi => .andi core
  | .ori => .ori core
  | .xori => .xori core
  | .lui => .lui core
  | .shli => .shli core
  | .shri => .shri core
  | .sari => .sari core
  | .ldw => .ldw core false
  | .ldh => .ldh core false
  | .ldhu => .ldhu core false
  | .ldb => .ldb core false
  | .ldbu => .ldbu core false
  | .stw => .stw core
  | .sth => .sth core
  | .stb => .stb core
  | .bcc => .bcc core
  | .bl => .bl core
  | .jr => .jr core
  | .jalr => .jalr core
  | .rdreg => .rdreg core k
  | .wrreg => .wrreg core k
  | .hopAt => .hopAt core k
  | .phsAt => .phsAt core k
  | .ratAt => .ratAt core k
  | .oenAt => .oenAt core k
  | .gangAt => .gangAt core k
  | .snapAt => .snapAt core k
  | .tnow => .tnow core k
  | .waitT => .waitT core k
  | .waitE => .waitE core
  | .post => .post core k
  | .sig => .sig core
  | .nop => .nop core false
  | .halt => .halt core
  | .trap => .trap core
  | .fence => .fence core
  | .coreid => .coreid core

/-- The register that holds Sk of core n; S0 has none (R293). -/
def sregOff (n k : Nat) : List Nat := if k = 0 then [] else [rSEQ n (0x100 + 4 * k)]

/-- What R326 and R327 give for an operation of opcode 0x02 on a and b: the result and the flags. -/
def aluRule (op : AluOp) (f : Flg) (a b : Word) : Word × Flg :=
  let sh := b.toNat % 32
  let cin : Word := if f.c then 1 else 0
  let sum (r : Word) (c : Bool) : Word × Flg := (r, ⟨decide (r = 0), r.msb, c, a.msb == b.msb && r.msb != a.msb⟩)
  let dif (r : Word) (c : Bool) : Word × Flg := (r, ⟨decide (r = 0), r.msb, c, a.msb != b.msb && r.msb != a.msb⟩)
  let zn (r : Word) : Word × Flg := (r, ⟨decide (r = 0), r.msb, f.c, f.v⟩)
  let shift (r : Word) (out : Nat) : Word × Flg :=
    (r, ⟨decide (r = 0), r.msb, if sh = 0 then f.c else a.getLsbD out, f.v⟩)
  match op with
  | .add => sum (a + b) (decide (2 ^ 32 ≤ a.toNat + b.toNat))
  | .addc => sum (a + b + cin) (decide (2 ^ 32 ≤ a.toNat + b.toNat + cin.toNat))
  | .sub => dif (a - b) (decide (a.toNat < b.toNat))
  | .subc => dif (a - b - cin) (decide (a.toNat < b.toNat + cin.toNat))
  | .and => zn (a &&& b)
  | .or => zn (a ||| b)
  | .xor => zn (a ^^^ b)
  | .andn => zn (a &&& ~~~b)
  | .shl => shift (a <<< sh) (32 - sh)
  | .shr => shift (a >>> sh) (sh - 1)
  | .sar => shift (a.sshiftRight sh) (sh - 1)
  | .mul => zn (a * b)
  | .mulhu => zn (BitVec.ofNat 32 (a.toNat * b.toNat / 2 ^ 32))
  | .mulhs => zn (BitVec.ofInt 32 (a.toInt * b.toInt / 2 ^ 32))
  | .cmp => dif (a - b) (decide (a.toNat < b.toNat))
  | .tst => zn (a &&& b)

/-- What the rules R327 to R330, R336 and R339 give for an instruction that works on the core's registers alone: the S
registers that it writes, the flags and PC after it. -/
def regRule (s : State) (n : Nat) (i : OInstr) : Option (List (Nat × Word) × Flg × Nat) :=
  let r (k : Fin 32) : Word := sreg s n k.val
  let f := seqFlg s n
  let pc := seqPc s n + 1
  let link : Word := BitVec.ofNat 32 (pc % 4096)
  let give (rd : Fin 32) (q : Word × Flg) : Option (List (Nat × Word) × Flg × Nat) := some ([(rd.val, q.1)], q.2, pc)
  let simm (v : Fin 65536) : Word := (BitVec.ofNat 16 v.val).signExtend 32
  let uimm (v : Fin 65536) : Word := BitVec.ofNat 32 v.val
  match i with
  | .alu op rd ra rb =>
    let q := aluRule op f (r ra) (r rb)
    if op = .cmp ∨ op = .tst then some ([], q.2, pc) else give rd q
  | .imm .addi rd ra v => give rd (aluRule .add f (r ra) (simm v))
  | .imm .andi rd ra v => give rd (aluRule .and f (r ra) (uimm v))
  | .imm .ori rd ra v => give rd (aluRule .or f (r ra) (uimm v))
  | .imm .xori rd ra v => give rd (aluRule .xor f (r ra) (uimm v))
  | .cmpi ra v => some ([], (aluRule .sub f (r ra) (simm v)).2, pc)
  | .lui rd v => give rd (uimm v <<< 16, f)
  | .shift .shli rd ra sh => give rd (aluRule .shl f (r ra) (BitVec.ofNat 32 sh.val))
  | .shift .shri rd ra sh => give rd (aluRule .shr f (r ra) (BitVec.ofNat 32 sh.val))
  | .shift .sari rd ra sh => give rd (aluRule .sar f (r ra) (BitVec.ofNat 32 sh.val))
  | .bcc c t => some ([], f, if condHolds c.val f then t.val else pc)
  | .bl t => some ([(31, link)], f, t.val)
  | .jr ra => some ([], f, (r ra).toNat)
  | .jalr rd ra => some ([(rd.val, link)], f, (r ra).toNat)
  | .tnow rd => some ([(2 * rd.val, BitVec.ofNat 32 (stOf (readT s))), (2 * rd.val + 1, BitVec.ofNat 32 (stOf (readT s) / 2 ^ 32))], f, pc)
  | .sys .nop => some ([], f, pc)
  | .coreid rd => some ([(rd.val, BitVec.ofNat 32 (n + if seqShadow s n then 0x100 else 0))], f, pc)
  | _ => none

/-- Core n has completed an instruction and stands at pc: the registers are kept but PC, the cycle count and those
listed; a core that steps has halted with STEPPED; the other cores are as they were (R316, R324). -/
def SeqRetired (s t : State) (n pc : Nat) (but : List Nat) : Prop :=
  seqPc t n = pc % 4096 ∧
  RegsKept s t ([rSEQ n 0x0C, rSEQ n 0x50, rSEQ n 4] ++ but) ∧
  ((seqc s n).stepping = false → rd t (rSEQ n 4) = rd s (rSEQ n 4)) ∧
  ((seqc s n).stepping = true → rb t (rSEQ n 4) 0 3 = 0 ∧ rb t (rSEQ n 4) 4 3 = 4) ∧
  ∀ k, k ≠ n → seqc t k = seqc s k

/-- The instruction of core n has taken an exception (R310, R311): the fault of the cause is filed, of kind DOUBLE while IN_EXC
is set; EPC, the cause, the address and the flags are saved, but for DOUBLE and ECC, which halt; the core goes on at SEQ_VEC or
halts at EPC with HALT_WHY 5. -/
def SeqExcepted (s t : State) (n kind addr access epc : Nat) : Prop :=
  let dbl := rbit s (rSEQ n 4) 7
  mkReport s (0xCA + n) (if dbl then 7 else kind) (addr % 2 ^ 24) (5 + n) access false ∈
    mget (fun _ => []) t.fcol.queues (0xCA + n) ∧
  (dbl = true → rd t (rSEQ n 0x14) = rd s (rSEQ n 0x14)) ∧
  (dbl = false → rn t (rSEQ n 0x14) = epc) ∧
  (dbl = false → kind ≠ 0x0A →
    rn t (rSEQ n 0x18) = kind ∧ rn t (rSEQ n 0x1C) = addr % 2 ^ 24 ∧ rn t (rSEQ n 0x20) = (seqFlg s n).word ∧
    rbit t (rSEQ n 4) 7 = true ∧
    (rbit s (rSEQ n 0) 0 = true → seqPc t n = rb s (rSEQ n 0x28) 0 12 ∧
      ((seqc s n).stepping = false → rb t (rSEQ n 4) 0 3 = 1))) ∧
  (dbl = true ∨ kind = 0x0A ∨ rbit s (rSEQ n 0) 0 = false →
    rb t (rSEQ n 4) 0 3 = 0 ∧ rb t (rSEQ n 4) 4 3 = 5 ∧ seqPc t n = epc) ∧
  RegsKept s t [rSEQ n 4, rSEQ n 0x0C, rSEQ n 0x14, rSEQ n 0x18, rSEQ n 0x1C, rSEQ n 0x20, rSEQ n 0x50]

-- the queues of timed actions

/-- The queues of timed actions (R299). -/
inductive QueueIx where
  | fod (n : Fin 128)
  | sc (n : Fin 8)
  | plain
  | snap
  deriving DecidableEq, Repr

/-- A queue of timed actions. -/
def queueOf (s : State) : QueueIx → List QAct
  | .fod n => (fod s n.val).queue
  | .sc n => (sc s n.val).queue
  | .plain => s.time.queue
  | .snap => s.snap.queue

/-- What a timed action names: one queue, or the FODs of a gang (R333). -/
inductive ActTarget where
  | one (q : QueueIx)
  | gang (g : Fin 16)
  deriving DecidableEq, Repr

/-- How many actions a queue holds (R299). -/
def queueCap : QueueIx → Nat
  | .fod _ => 8
  | .sc _ => 4
  | .plain => 4
  | .snap => 4

/-- Whether a target has a queue: an FOD is of gang g where FOD_CTRL.GANG says so, and gang 0 has no member (R148). -/
def targetHas (s : State) : ActTarget → QueueIx → Bool
  | .one q, y => decide (y = q)
  | .gang g, .fod n => decide (g.val ≠ 0) && decide (rb s (rFOD n.val 0) 4 4 = g.val)
  | .gang _, _ => false

/-- Whether a target takes an action: its queue has room, or the gang has members, each with room and none fenced (R148, R301). -/
def targetTakes (s : State) : ActTarget → Bool
  | .one q => decide ((queueOf s q).length < queueCap q)
  | .gang g =>
    (List.finRange 128).any (fun n => targetHas s (.gang g) (.fod n)) &&
    (List.finRange 128).all (fun n => !targetHas s (.gang g) (.fod n) ||
      (decide ((fod s n.val).queue.length < 8) && !(fod s n.val).fenced))

/-- The due time in ST, the target and the action that R333 and R334 give for a timed-action instruction. -/
def timedRule (s : State) (n : Nat) (i : OInstr) : Option (Nat × ActTarget × ActKind) :=
  let num (rn : Fin 32) (tgt : Fin 128) : Nat := (sreg s n rn.val).toNat + tgt.val
  let fodOf (rn : Fin 32) (tgt : Fin 128) : ActTarget := .one (.fod (fin 128 (num rn tgt)))
  match i with
  | .hopAt rt rn e tgt => some (spair s n rt.val, fodOf rn tgt, .hop e.val)
  | .phsFod rt ra rn slew tgt =>
    let amt := sx 48 (spair s n ra.val)
    some (spair s n rt.val, fodOf rn tgt, if slew then .phSlew amt else .phStep amt)
  | .phsPlain rt ra slew =>
    let a := spair s n ra.val
    some (spair s n rt.val, .one .plain, if slew then .timeSlew (sx 48 a) (bits a 48 16) else .timeStep (sx 64 a))
  | .ratSc rt rn slot comp tgt =>
    some (spair s n rt.val, .one (.sc (fin 8 (num rn tgt))), .retune slot.val comp none)
  | .ratRate rt ra => some (spair s n rt.val, .one .plain, .timeRate (sx 40 (spair s n ra.val)))
  | .ratStop rt => some (spair s n rt.val, .one .plain, .timeSlewStop)
  | .oenAt rt rn v tgt => some (spair s n rt.val, fodOf rn tgt, .oen v)
  | .gangAt rt ra rn kind tgt =>
    let a := spair s n ra.val
    some (spair s n rt.val, .gang (fin 16 (num rn tgt)), match kind.val with
      | 0 => .hop (a % 16)
      | 1 => .phStep (sx 48 a)
      | 2 => .phSlew (sx 48 a)
      | _ => .oen (a.testBit 0))
  | .snapAt rt => some (spair s n rt.val, .one .snap, .snap)
  | _ => none

-- the command engine

/-- The command of slot k has completed (R346): CMD_CPLs shows the handle, DONE, the status and the result; the slot is no longer
outstanding, and is free again where it is one of slots 0 to 61 (R343); a COMPLETION record went to the ring of
RING_ROUTE.COMPLETION; every core has CMD_DONE pending. -/
def SlotCompleted (s t : State) (k : Nat) (x : Slot) (status result : Nat) : Prop :=
  rn t (rCPL k) = (k + x.gen * 4096 + status * 65536 + 2 ^ 24) % 2 ^ 32 ∧ rn t (rCPL k + 4) = result % 2 ^ 32 ∧
  t.cmd.slots = s.cmd.slots.filter (fun p => decide (p.1 ≠ k)) ∧
  t.cmd.frees = (if k < 62 then s.cmd.frees ++ [k] else s.cmd.frees) ∧
  (ring t (ringRoute s 3)).admitted = ((ring s (ringRoute s 3)).admitted + 1) % 2 ^ 64 ∧
  ∀ n < 8, rbit t (rSEQ n 0x34) 31 = true

-- the SMBus slave

/-- What an SMBus read answers (R533): the content and a byte of PEC over the address with the write bit, the command code, the
address with the read bit, the byte count of a block, and the content. -/
def smbSent (s : State) (code : Nat) (block : Bool) (b : List Byte) : Out :=
  let a : Byte := if s.mate.slotB then 0x6A else 0x68
  .smb (b ++ [BitVec.ofNat 8 (smbPec ([a, BitVec.ofNat 8 code, a + 1] ++ (if block then [BitVec.ofNat 8 b.length] else []) ++ b))])

-- the mate

/-- A message to the mate on every lane that is up, with the sender's NODE_ID and sequence number (R465). -/
def mateOut (s : State) (type : Nat) (fields : List Int) : List Out :=
  let f := (nodeId s : Int) :: (s.mate.txSeq : Int) :: fields
  (if s.mate.lane1 then [.mate 1 type f] else []) ++ (if s.mate.lane0 then [.mate 0 type f] else [])

end Sys2Proof.Machine
end

