-- ==== Sys2Proof/Certificates/Slice0/Obligations.lean ====
section
/-!
DEFINITION. The statements about the model: one rule or one family of rules each, over every state and every operand.
-/

open Sys2Proof Sys2Proof.Machine

/-! ## The queue, every command, every part -/

/-- A step takes the command at the front of the queue and runs it with the queue's rest; a block with no command waiting
idles (log entry 1). -/
def Obligations.StepRunsTheFrontCommand : Prop :=
  (∀ (c : Instr) (rest : List Instr) (s : State),
    step { s with pending := c :: rest } = exec c { s with pending := rest }) ∧
  ∀ s : State, s.pending = [] → step s = .next s

/-- Every command completes in every state, leaves the queue of waiting commands alone, and leaves alone every part of the
block that is not in its footprint. -/
def Obligations.EveryCommandKeepsWhatIsOutsideItsFootprint : Prop :=
  ∀ (c : Instr) (s : State), ∃ t, exec c s = .next t ∧ t.pending = s.pending ∧
    ∀ p : Part, p ∉ footprint c → p.kept s t

/-- From every state whose memories are in the canonical form, a step gives such a state. -/
def Obligations.StepKeepsTheMemoriesCanonical : Prop :=
  ∀ s t : State, Memory.wf s.mem → step s = .next t → Memory.wf t.mem

/-- From every state in which each ring keeps R284's identity (the five counters modulo 2^64 and the records in flight), a
step gives such a state: no command, whatever it writes, admits, drops, delivers, voids or flushes, breaks it (R279, R284,
R286, R287). -/
def Obligations.StepKeepsTheRingIdentity : Prop :=
  ∀ s t : State, (∀ n, ringConserved (ring s n)) → step s = .next t → ∀ n, ringConserved (ring t n)

/-! ## Talking to the registers -/

/-- A write that is neither 32 nor 64 bits wide, or not aligned to a 32-bit boundary, changes no register: it raises
ACCESS_WIDTH of source 0xD2 with the offset, the master and access type write (R37); one of 64 bits is two of 32 and raises
two, the lower address first (R38); in AON_ONLY it wakes the core domain besides (R506). The host's access of the range that
the PCIe endpoint serves itself is not the register bus's (R540). -/
def Obligations.MisalignedWriteOnlyRaisesAccessWidth : Prop :=
  ∀ (m : Master) (addr width v : Nat) (k : WriteAt) (s : State),
    let report (a : Nat) : Report :=
      { src := 0xD2, kind := 0x01, addr := a % 2 ^ 24, master := m.val, access := 2, forced := false,
        time := readT (atWrite s k), tflags := timeFlags s }
    s.nvsLoaded = true → addr < 2 ^ 26 → ¬ (m.val = 1 ∧ addr < 2 ^ 24 ∧ inMsix addr = true) →
    (pwrState s ≠ 1 → width ≠ 64 → (addr % 4 ≠ 0 ∨ width ≠ 32) → queueFull s 0xD2 = false →
      ∃ t, exec (.registerWrite m addr width v k) s = .next t ∧ t = enqueue (atWrite s k) (report addr)) ∧
    (pwrState s = 1 → width ≠ 64 → (addr % 4 ≠ 0 ∨ width ≠ 32) → queueFull s 0xD2 = false →
      ∃ t, exec (.registerWrite m addr width v k) s = .next t ∧ report addr ∈ mget (fun _ => []) t.fcol.queues 0xD2 ∧
        (aonAnswers (addr % 2 ^ 24 / 4 * 4) false = true → t = enqueue (atWrite s k) (report addr)) ∧
        (aonAnswers (addr % 2 ^ 24 / 4 * 4) false = false → s.pwr.power = 2 → s.pwr.mrst = false → s.pwr.phase ≠ 0 →
          t.coreAwake = true ∧ t.pwr.coreAt = s.time.aon)) ∧
    (pwrState s ≠ 1 → width = 64 → addr % 4 ≠ 0 → ¬ (m.val = 1 ∧ (addr + 4) % 2 ^ 26 < 2 ^ 24 ∧ inMsix ((addr + 4) % 2 ^ 26) = true) →
      (mget (fun _ => []) s.fcol.queues 0xD2).length < 3 →
      ∃ t, exec (.registerWrite m addr width v k) s = .next t ∧
        t = enqueue (enqueue (atWrite s k) (report addr)) (report ((addr + 4) % 2 ^ 26)))

/-- A 32-bit write, in any view, of a single-word register of the correction path, of a correction lane's counters, of the
block-wide ring registers or of the Lath window: RW bits take what the view makes of them, a 1 in a W1C bit clears it, every
other bit of it and every other register stay (R41). The registers that a void pass writes may change too (R59). -/
def Obligations.PlainRegisterTakesTheWrite : Prop :=
  ∀ (m : Master) (off view v : Nat) (k : WriteAt) (s : State) (i : RegInfo),
    BusOpen s → off % 4 = 0 → off < 2 ^ 24 → view < 4 → v < 2 ^ 32 →
    regInfo off = some i → (i.blk = .corr ∨ i.blk = .ringWide ∨ i.blk = .lath) → i.row.words = 1 → allRo i = false →
    ∃ t, exec (.registerWrite m (off + view * 2 ^ 24) 32 v k) s = .next t ∧
      rd t off = wd (clr (clr (rn s off) i.row.rw ||| (viewApply view (rn s off) v &&& i.row.rw)) (v &&& i.row.w1c)) ∧
      RegsKept s t [off, rSEAL 4, rSEAL 0x18] ∧ MemKept s t

/-- A committing write of a posted register while its block's BUSY is set changes no register: it raises POST_OVERRUN with
the offset, the master and access type write. A staged word of such a register is staged whether BUSY is set or not, and does
not post (R49). -/
def Obligations.PostedWriteWhileBusyIsRefused : Prop :=
  ∀ (m : Master) (off v : Nat) (k : WriteAt) (s : State) (i : RegInfo),
    BusOpen s → off % 4 = 0 → off < 2 ^ 24 → v < 2 ^ 32 → regInfo off = some i → i.row.posted = true →
    (i.word + 1 = i.row.words → postBusy s (postKey i.blk i.inst) = true → queueFull s 0xD2 = false →
      ∃ t, exec (.registerWrite m off 32 v k) s = .next t ∧
        t = enqueue (atWrite s k)
          { src := 0xD2, kind := 0x03, addr := off, master := m.val, access := 2, forced := false,
            time := readT (atWrite s k), tflags := timeFlags s }) ∧
    (i.word + 1 ≠ i.row.words → allRo i = false →
      ∃ t, exec (.registerWrite m off 32 v k) s = .next t ∧ stagedOf t m.val off = v ∧
        t.posted = s.posted ∧ t.regs = s.regs ∧ MemKept s t)

/-- A read of the lowest word of a register answers the value's lowest 32 bits and latches its higher words into the reading
master's shadow; of TIME it latches the R74 flags too, which a read of the word at `TIME_FLAGS` answers, whatever another
master has read since (R44, R71, R72, R74). In AON_ONLY this is so for what the AON answers itself (R506). A read of a higher
word of a multi-word value answers the reading master's shadow of it and changes nothing (R36, R44). A read through any alias
view answers the same as a read through the normal view (R42); the endpoint's own range, which the host reads through the
normal view, is not on the register bus (R540). -/
def Obligations.ReadsAnswerLiveWordAndShadow : Prop :=
  ((∀ (m : Master) (k : CycIx) (s : State), s.nvsLoaded = true →
    (∃ t, exec (.timeRead m k) s = .next t ∧
      t.out = .data m (tFormat (readT (atCyc s k)) 0 % 2 ^ 32) 32 :: s.out ∧
      (∀ j < 3, shadowOf t m (rTIME (0x14 + 4 * j)) = tFormat (readT (atCyc s k)) 0 / 2 ^ (32 * (j + 1)) % 2 ^ 32) ∧
      shadowOf t m (rTIME 0x20) = timeFlags s ∧
      (∀ m' : Master, m' ≠ m → ∀ o < 2 ^ 24, shadowOf t m' o = shadowOf s m' o) ∧
      t = { s with cyc := t.cyc, shadow := t.shadow, out := t.out }) ∧
    ∃ t, exec (.shadowLatchRead m (rTIME 0x20) 32 k) s = .next t ∧
      t = { s with cyc := max s.cyc k.val, out := .data m (shadowOf s m (rTIME 0x20)) 32 :: s.out }) ∧
  ∀ (m : Master) (off : Nat) (k : CycIx) (s : State) (i : RegInfo),
    s.nvsLoaded = true → off % 4 = 0 → off < 2 ^ 24 → regInfo off = some i → i.word = 0 → off ≠ rTIME 0x20 →
    (pwrState s ≠ 1 ∨ aonAnswers off true = true) →
    let v := masterVal (atCyc s k) m i
    ∃ t, exec (.shadowLatchRead m off 32 k) s = .next t ∧ t.out = .data m (v % 2 ^ 32) 32 :: s.out ∧
      (∀ j, j + 1 < i.row.words → shadowOf t m (off + 4 * (j + 1)) = v / 2 ^ (32 * (j + 1)) % 2 ^ 32) ∧
      (∀ m' : Master, m' ≠ m → ∀ o < 2 ^ 24, shadowOf t m' o = shadowOf s m' o) ∧
      t = { s with cyc := max s.cyc k.val, shadow := t.shadow, out := t.out }) ∧
  ((∀ (m : Master) (off : Nat) (k : CycIx) (s : State) (i : RegInfo),
    s.nvsLoaded = true → off % 4 = 0 → off < 2 ^ 24 → regInfo off = some i → i.word ≠ 0 →
    (pwrState s ≠ 1 ∨ aonAnswers off true = true) →
    ∃ t, exec (.shadowLatchRead m off 32 k) s = .next t ∧
      t = { s with cyc := max s.cyc k.val, out := .data m (shadowOf s m off) 32 :: s.out }) ∧
  ∀ (m : Master) (off view width : Nat) (k : CycIx) (s : State), off < 2 ^ 24 → view < 4 →
    ¬ (m.val = 1 ∧ (inMsix off = true ∨ inMsix ((off + 4) % 2 ^ 24) = true)) →
    exec (.shadowLatchRead m (off + view * 2 ^ 24) width k) s = exec (.shadowLatchRead m off width k) s)

/-- GLB_LOCK: a bit written as 1 is set, and no write clears one (R53); stated of a write that does not set SEALREF while a
SEAL_COMMIT runs, which R55 completes. SEAL_HOLD sets SEAL_CTRL.HOLD, leaves ENABLE, and the limit of a hold that begins
counts from that instant (R61). Every other register and every memory byte stay. -/
def Obligations.LockAndHoldWritesOnlySetBits : Prop :=
  (∀ (m : Master) (b : Word) (s : State), BusOpen s →
    (b.getLsbD 4 = false ∨ rbit s 0x40 4 = true ∨ ∀ p ∈ s.cmd.slots, p.2.w0 % 256 ≠ 0x0B) →
    ∃ t, exec (.lockWrite m b) s = .next t ∧ rn t 0x40 = clr (rn s 0x40) 0x1F ||| (b.toNat &&& 0x1F) ||| rn s 0x40 ∧
      RegsKept s t [0x40] ∧ MemKept s t) ∧
  ∀ (m : Master) (s : State), BusOpen s →
    ∃ t, exec (.sealHold m) s = .next t ∧ rbit t (rSEAL 0) 1 = true ∧ rbit t (rSEAL 0) 0 = rbit s (rSEAL 0) 0 ∧
      (rbit s (rSEAL 0) 1 = false → t.seal_.holdFrom = s.time.aon) ∧ RegsKept s t [rSEAL 0] ∧ MemKept s t

/-- A hold that has lasted SEAL_HOLD_MAX milliseconds, 0 acting as 1, ends: HOLD clears, EXPIRED is set and HOLD_EXPIRED is
raised, where software does not write SEAL_CTRL in the same cycle; without a hold, before its limit, and while the core
domain sleeps (log entry 193), nothing happens (R61, R62). The millisecond boundary starts a pass that is not void and lets
corrections go out again (R58, R59, R258); the end of a pass with no commit to serve writes its CRC to SEAL_CUR and clears
the run of void passes unless the pass is void, and a void pass changes no register (R58, R59). -/
def Obligations.HoldsAndSealPassesEnd : Prop :=
  (∀ s : State,
    (s.coreAwake = true → rbit s (rSEAL 0) 1 = true → s.seal_.holdFrom + max 1 (rb s (rSEAL 0x10) 0 16) * 10000 ≤ s.time.aon →
      softWrote s (rSEAL 0) = false → queueFull s 0xD3 = false →
      ∃ t, exec .holdExpired s = .next t ∧ rbit t (rSEAL 0) 1 = false ∧ rbit t (rSEAL 0) 0 = rbit s (rSEAL 0) 0 ∧
        rbit t (rSEAL 4) 2 = true ∧ RegsKept s t [rSEAL 0, rSEAL 4] ∧
        t.fcol = (enqueue s
          { src := 0xD3, kind := 0x02, addr := rSEAL 4, master := 0, access := 0, forced := false, time := readT s,
            tflags := timeFlags s }).fcol ∧
        t = { s with regs := t.regs, fcol := t.fcol }) ∧
    (s.coreAwake = false ∨ rbit s (rSEAL 0) 1 = false ∨ s.time.aon < s.seal_.holdFrom + max 1 (rb s (rSEAL 0x10) 0 16) * 10000 →
      exec .holdExpired s = .next s)) ∧
  ((∀ s : State, s.coreAwake = true →
    ∃ t, exec .msBoundary s = .next t ∧ t.seal_.passOn = true ∧ t.seal_.passVoid = false ∧ t.corrPause = false ∧
      (∀ o, faultReg o = false → evtRegs o = false → o ≠ rMATE 0x58 → rd t o = rd s o) ∧ MemKept s t) ∧
  (∀ s : State, s.coreAwake = true → s.seal_.passOn = true → s.seal_.passVoid = true →
    ∃ t, exec .sealPassEnd s = .next t ∧ t = { s with seal_ := { s.seal_ with passOn := false } }) ∧
  ∀ s : State, s.coreAwake = true → s.seal_.passOn = true → s.seal_.passVoid = false → sealCommits s = [] →
    ∃ t, exec .sealPassEnd s = .next t ∧ rd t (rSEAL 0x0C) = wd (sealCrc s) ∧ t.seal_.passOn = false ∧
      t.seal_.voidRun = 0 ∧ RegsKept s t [rSEAL 0x0C, rSEAL 4, rSEAL 0x14, rSEAL 0x1C] ∧ MemKept s t)

/-- A submitting command that R344 does not refuse takes the free slot that became free first, with the generation after its
last (15 is followed by 1), the master, its four words and the device time of acceptance; CMD_HANDLE of the master names slot
and generation, the slot's completion register shows the handle, not DONE, and the submission is counted; the words are those
that R347's table gives for the command (R341 to R343, R347, R354). A submission by a master that may not submit (code 4),
with its share in use (code 1), in SAFE or with source 0xDD fenced (code 3), the first of these that holds, allocates no
slot; CMD_HANDLE shows the code in [19:17] and zero below, the refusal is counted, and REFUSED is raised with the opcode
(R344). -/
def Obligations.SubmissionIsAcceptedOrRefused : Prop :=
  (let accepted (c : Instr) (m w0 w1 w2 w3 : Nat) : Prop := ∀ (s : State) (k : Nat) (rest : List Nat),
    s.nvsLoaded = true → pwrState s ≠ 1 → cmdMay s m = true → cmdHeld s m < (if m = 1 ∨ m = 3 then 30 else 4) → s.fcol.safe = false →
    srcFenced s 0xDD = false → s.cmd.frees = k :: rest → (∀ j ∈ rest, j ≠ k) → k < 64 →
    ∃ (t : State) (g : Nat), exec c s = .next t ∧
      g = (if 15 ≤ mget (fun _ => 0) s.cmd.gens k then 1 else mget (fun _ => 0) s.cmd.gens k + 1) ∧
      t.cmd.slots = s.cmd.slots ++ [(k, ⟨g, m, w0, w1, w2, w3, nowT s, s.order, false, none, none, []⟩)] ∧
      t.cmd.frees = rest ∧ handleOf t m = k + g * 4096 + 0x10000 ∧
      (∀ m', m' ≠ m → handleOf t m' = handleOf s m') ∧
      rn t (rCPL k) = (k + g * 4096) % 2 ^ 32 ∧ rn t (rCPL k + 4) = 0 ∧
      rn t (rCMD 0x20) = min (rn s (rCMD 0x20) + 1) (2 ^ 32 - 1) ∧
      RegsKept s t [rCPL k, rCPL k + 4, rCMD 0x20] ∧ MemKept s t
  (∀ (m : Master) (irq : Bool), accepted (.sealCommit m irq) m (0x0B + b2n irq * 2 ^ 8) 0 0 0) ∧
  (∀ (m : Master) region core (irq : Bool),
    accepted (.nvsStore m region core irq) m (0x01 + b2n irq * 2 ^ 8 + region % 16 * 2 ^ 16 + core * 2 ^ 20) 0 0 0) ∧
  (∀ (m : Master) region core (irq : Bool),
    accepted (.nvsLoad m region core irq) m (0x02 + b2n irq * 2 ^ 8 + region % 16 * 2 ^ 16 + core * 2 ^ 20) 0 0 0) ∧
  (∀ (m : Master) (irq : Bool), accepted (.configStore m irq) m (0x03 + b2n irq * 2 ^ 8) 0 0 0) ∧
  (∀ (m : Master) blocks (irq : Bool),
    accepted (.calRun m blocks irq) m (0x04 + b2n irq * 2 ^ 8) (blocks % 2 ^ 32) 0 0) ∧
  (∀ (m : Master) port (irq : Bool), accepted (.portCal m port irq) m (0x05 + b2n irq * 2 ^ 8 + port * 2 ^ 16) 0 0 0) ∧
  (∀ (m : Master) index (requal : Bool) limit (irq : Bool),
    accepted (.refQualify m index requal limit irq) m
      (0x06 + b2n irq * 2 ^ 8 + index % 256 * 2 ^ 16 + b2n requal * 2 ^ 24) (limit % 2 ^ 32) 0 0) ∧
  (∀ (m : Master) n slot due (irq : Bool),
    accepted (.scRetune m n slot due irq) m (0x07 + b2n irq * 2 ^ 8 + n * 2 ^ 16 + slot * 2 ^ 20)
      (due.toNat % 2 ^ 32) (due.toNat / 2 ^ 32) 0) ∧
  (∀ (m : Master) gang amount delay (irq : Bool),
    accepted (.phaseWalk m gang amount delay irq) m (0x08 + b2n irq * 2 ^ 8 + gang * 2 ^ 16)
      (tw 48 amount % 2 ^ 32) (tw 48 amount / 2 ^ 32) delay.toNat) ∧
  (∀ (m : Master) scope (irq : Bool), accepted (.selftest m scope irq) m (0x09 + b2n irq * 2 ^ 8) (scope % 2 ^ 32) 0 0) ∧
  (∀ (m : Master) (irq : Bool), accepted (.mateSync m irq) m (0x0A + b2n irq * 2 ^ 8) 0 0 0) ∧
  ∀ (m : Master) (irq : Bool), accepted (.screedSave m irq) m (0x0C + b2n irq * 2 ^ 8) 0 0 0) ∧
  (∀ (c : Instr) (m w0 w1 w2 w3 : Nat) (s : State),
    submission c = some (m, w0, w1, w2, w3) → s.nvsLoaded = true → pwrState s ≠ 1 →
    let code := if cmdMay s m = false then 4 else if (if m = 1 ∨ m = 3 then 30 else 4) ≤ cmdHeld s m then 1 else 3
    (cmdMay s m = false ∨ (if m = 1 ∨ m = 3 then 30 else 4) ≤ cmdHeld s m ∨ s.fcol.safe = true ∨ srcFenced s 0xDD = true) →
    ∃ t, exec c s = .next t ∧ t.cmd.slots = s.cmd.slots ∧ t.cmd.frees = s.cmd.frees ∧ t.cmd.gens = s.cmd.gens ∧
      handleOf t m = code * 2 ^ 17 ∧ rn t (rCMD 0x24) = min (rn s (rCMD 0x24) + 1) (2 ^ 32 - 1) ∧
      (queueFull s 0xDD = false →
        mkReport s 0xDD 0x01 (w0 % 256) m 2 false ∈ mget (fun _ => []) t.fcol.queues 0xDD) ∧
      RegsKept s t [rCMD 0x24] ∧ MemKept s t)

/-! ## The time scale -/

/-- Before Plain starts no boundary counts; from then on every boundary counts one, and the instant within the AON period
starts again at 0 (R65, R67, R70). At a boundary at which no write that has landed, no set, step or queued action acts, Plain
advances by 6 553 600 × 2^32 + 100 × Y sub-ticks while no slew is under way, by that with Y_base in SAFE, where the remaining
amount stays, and by the boundary's increment in general; the device seconds that it passes wait for their PPS events (R65,
R69, R77, R88). While the core domain is awake no byte of the memories changes (a snapshot that falls due wakes a sleeping
one, and the records that waited then reach their ring, R431, R447). The boundary at which the remaining amount of a slew is
at most that boundary's extra increment adds exactly the remainder, and the slew is over (R77). -/
def Obligations.BoundaryAdvancesPlainAndEndsSlews : Prop :=
  ((∀ (n : Nat) (slip : Bool) (s : State), s.time.started = false → exec (.aonBoundary n slip) s = .next s) ∧
  (∀ (n : Nat) (slip : Bool) (s : State), s.time.started = true → s.landed = [] →
    ∃ t, exec (.aonBoundary n slip) s = .next t ∧ t.time.aon = s.time.aon + n ∧ (n ≠ 0 → t.cyc = 0) ∧
      (s.coreAwake = true → MemKept s t)) ∧
  ∀ (slip : Bool) (s : State), s.time.started = true → QuietBoundary s slip →
    ∃ t, exec (.aonBoundary 1 slip) s = .next t ∧ t.time.plain = plainAdd s.time.plain (tickInc s).1 ∧
      (s.fcol.safe = false → s.time.slewRem = 0 →
        t.time.plain = plainAdd s.time.plain (6553600 * 2 ^ 32 + 100 * s.time.y) ∧ t.time.slewRem = 0) ∧
      (s.fcol.safe = true → t.time.plain = plainAdd s.time.plain (6553600 * 2 ^ 32 + 100 * s.time.ybase) ∧
        t.time.slewRem = s.time.slewRem) ∧
      t.time.queue = s.time.queue ∧ t.time.ppsOwed = s.time.ppsOwed ++ secsPassed s.time.plain t.time.plain) ∧
  (∀ s : State, s.time.started = true → s.fcol.safe = false → QuietBoundary s false → s.time.slewRem ≠ 0 →
    (0 < s.time.slewRem ↔ 0 < s.time.y - s.time.ybase) →
    s.time.slewRem.natAbs ≤ (100 * (s.time.y - s.time.ybase)).natAbs →
    ∃ t, exec .slewEnd s = .next t ∧ t.time.slewRem = 0 ∧
      t.time.plain = plainAdd s.time.plain (6553600 * 2 ^ 32 + 100 * s.time.ybase + s.time.slewRem) ∧
      (s.coreAwake = true → MemKept s t))

/-- TIME_SET, TIME_STEP, TIME_SLEW, TIME_SLEW_STOP and TIME_ENQ post a write of their bit of TIME_CMD while BUSY of TIME is
clear, and do nothing else before it lands (R48, R78, R84). The posted write in flight of TIME_CMD lands: BUSY of TIME
clears, the writes in flight of the other blocks stay, and the bits written as 1 wait for the next AON boundary, at which
they act; every register stays (R48, R78). -/
def Obligations.TimeCommandsPostAndLand : Prop :=
  (∀ (m : Master) (s : State), AonOpen s → postBusy s 0 = false →
    (∃ t, exec (.timeSet m) s = .next t ∧ t = { s with posted := s.posted ++ [(0, ⟨m, rTIME 0x08, 0, [0x01]⟩)] }) ∧
    (∃ t, exec (.timeStep m) s = .next t ∧ t = { s with posted := s.posted ++ [(0, ⟨m, rTIME 0x08, 0, [0x02]⟩)] }) ∧
    (∃ t, exec (.timeSlew m) s = .next t ∧ t = { s with posted := s.posted ++ [(0, ⟨m, rTIME 0x08, 0, [0x04]⟩)] }) ∧
    (∃ t, exec (.timeSlewStop m) s = .next t ∧
      t = { s with posted := s.posted ++ [(0, ⟨m, rTIME 0x08, 0, [0x08]⟩)] }) ∧
    ∃ t, exec (.timeEnq m) s = .next t ∧ t = { s with posted := s.posted ++ [(0, ⟨m, rTIME 0x08, 0, [0x10]⟩)] }) ∧
  (∀ (s : State) (tie : Bool) (p : Posted) (v : Nat), s.posted.find? (fun q => decide (q.1 = 0)) = some (0, p) →
    p.off = rTIME 0x08 → p.words = [v] → v < 2 ^ 32 →
    ∃ t old new, exec (.postedWriteLand ⟨.time, tie⟩) s = .next t ∧ postBusy t 0 = false ∧
      (∀ k, k ≠ 0 → postBusy t k = postBusy s k) ∧
      t.landed = s.landed ++ [⟨rTIME 0x08, old, new, v % 32, p.master⟩] ∧ t.time = s.time ∧
      RegsKept s t [] ∧ MemKept s t)

/-- A lone queued time-scale action that is due at the next boundary acts there and leaves the queue: a step adds its amount
to Plain, a slew adds its amount to the remaining amount and loads its rate where that is not 0, a rate goes to TIME_RATE, a
slew-stop ends the slew; while none is due, the commands find nothing to do (R76, R77, R79, R83). -/
def Obligations.QueuedTimeActionActsAtItsBoundary : Prop :=
  ∀ (a : QAct) (s : State), s.time.started = true → s.fcol.safe = false → s.time.queue = [a] → PlainBoundary s false →
    (a.due ≤ (nextT s : Int) →
      (∀ amt : Int, a.kind = .timeStep amt → amt.natAbs < 2 ^ 62 →
        ∃ t, exec .queuedStep s = .next t ∧ t.time.queue = [] ∧
          t.time.plain = plainAdd (plainAdd s.time.plain (boundaryInc s.time).1) (amt * 2 ^ 32) ∧
          (s.coreAwake = true → MemKept s t)) ∧
      (∀ (amt : Int) (rate : Nat), a.kind = .timeSlew amt rate →
        fitsS 48 (rfloor (((boundaryInc s.time).2 : Rat) / 2 ^ 32) + amt) = true →
        ∃ t, exec .queuedSlew s = .next t ∧ t.time.queue = [] ∧
          t.time.slewRem = (boundaryInc s.time).2 + amt * 2 ^ 32 ∧
          rn t (rTIME 0x50) = (if rate = 0 then rn s (rTIME 0x50) else rate % 2 ^ 32) ∧
          (s.coreAwake = true → MemKept s t)) ∧
      (∀ w : Int, a.kind = .timeRate w →
        ∃ t, exec .queuedRate s = .next t ∧ t.time.queue = [] ∧ rL t (rTIME 0x38) 2 = tw 40 w ∧
          (s.coreAwake = true → MemKept s t)) ∧
      (a.kind = .timeSlewStop →
        ∃ t, exec .queuedSlewStop s = .next t ∧ t.time.queue = [] ∧ t.time.slewRem = 0 ∧
          (s.coreAwake = true → MemKept s t))) ∧
    ((nextT s : Int) < a.due →
      exec .queuedStep s = .next s ∧ exec .queuedSlew s = .next s ∧ exec .queuedRate s = .next s ∧
        exec .queuedSlewStop s = .next s)

/-- A write of LEAP as 1 (insertion) or 2 (deletion) arms the leap where TIME_LEAP_AT is later than the present TAI second
and TIME_LEAP_AT − (TIME_UTC_OFF ± 1) is a multiple of 86 400, and otherwise clears LEAP and raises LEAP_INVALID, as 3 does;
a write of 0 disarms and raises nothing (R86). -/
def Obligations.LeapArmsOrIsInvalid : Prop :=
  (∀ (v : Fin 4) (s : State), (v.val = 1 ∨ v.val = 2) →
    (tSec (s.time.plain / 2 ^ 32) < rL s (rTIME 0x78) 2 →
      ((rL s (rTIME 0x78) 2 : Int) - (sx 16 (rn s (rTIME 0x70)) + (if v.val = 1 then 1 else -1))) % 86400 = 0 →
      ∃ t, exec (.leapArm v) s = .next t ∧ t.time = { s.time with leapPend := true } ∧ rb t (rTIME 0x74) 0 2 = v.val ∧
        (∀ o, o ≠ rTIME 0x74 → rd t o = rd s o) ∧ t = { s with regs := t.regs, time := t.time }) ∧
    ((rL s (rTIME 0x78) 2 ≤ tSec (s.time.plain / 2 ^ 32) ∨
      ((rL s (rTIME 0x78) 2 : Int) - (sx 16 (rn s (rTIME 0x70)) + (if v.val = 1 then 1 else -1))) % 86400 ≠ 0) →
      queueFull s 0xD6 = false →
      ∃ t, exec (.leapArm v) s = .next t ∧ rb t (rTIME 0x74) 0 2 = 0 ∧
        t.fcol = (enqueue s
          { src := 0xD6, kind := 0x05, addr := rTIME 4, master := 0, access := 0, forced := false, time := readT s,
            tflags := timeFlags s }).fcol ∧
        (∀ o, o ≠ rTIME 0x74 → rd t o = rd s o) ∧ t = { s with regs := t.regs, fcol := t.fcol, time := t.time })) ∧
  (∀ s : State, queueFull s 0xD6 = false → ∃ t, exec (.leapArm 3) s = .next t ∧ rb t (rTIME 0x74) 0 2 = 0 ∧
    t.fcol = (enqueue s
      { src := 0xD6, kind := 0x05, addr := rTIME 4, master := 0, access := 0, forced := false, time := readT s,
        tflags := timeFlags s }).fcol ∧
    (∀ o, o ≠ rTIME 0x74 → rd t o = rd s o) ∧ t = { s with regs := t.regs, fcol := t.fcol, time := t.time }) ∧
  ∀ s : State, ∃ t, exec (.leapArm 0) s = .next t ∧ t.time = { s.time with leapPend := false } ∧
    rb t (rTIME 0x74) 0 2 = 0 ∧ (∀ o, o ≠ rTIME 0x74 → rd t o = rd s o) ∧ t = { s with regs := t.regs, time := t.time }

/-- An armed leap acts once Plain has reached TIME_LEAP_AT: TIME_UTC_OFF moves by +1 for an insertion and by −1 for a
deletion, modulo its 16 bits, LEAP and LEAP_PEND clear; before that nothing happens (R87). Where software writes TIME_UTC_OFF
in the same cycle its value stands and DISCARD of TIME_STATUS is set (R56, R91). A device second that Plain has passed gives
a PPS event unless GATE and NOT_SET hold it back: the label takes the second, the count goes up by one, and REPEAT tells a
second not later than the latest that gave one (log entry 142); a held second gives none, and none is owed where Plain has
passed none (R88, R90). A pulse that has lasted TIME_PPS_CFG.WIDTH µs, with its limits, ends on its own output and on no
other, high where the pulse was an active-low one; before that it goes on (R89). -/
def Obligations.LeapAndPpsActAtTheirSecond : Prop :=
  (∀ s : State,
    (s.time.leapPend = true → rL s (rTIME 0x78) 2 ≤ tSec (s.time.plain / 2 ^ 32) →
      softWrote s (rTIME 0x70) = false → softWrote s (rTIME 0x74) = false →
      ∃ t, exec .leapApply s = .next t ∧ t.time = { s.time with leapPend := false } ∧ rb t (rTIME 0x74) 0 2 = 0 ∧
        (rb s (rTIME 0x74) 0 2 = 1 → rb t (rTIME 0x70) 0 16 = (rb s (rTIME 0x70) 0 16 + 1) % 2 ^ 16) ∧
        (rb s (rTIME 0x74) 0 2 = 2 → rb t (rTIME 0x70) 0 16 = (rb s (rTIME 0x70) 0 16 + 65535) % 2 ^ 16) ∧
        (∀ o, o ≠ rTIME 0x70 → o ≠ rTIME 0x74 → rd t o = rd s o) ∧
        t = { s with regs := t.regs, time := t.time }) ∧
    (s.time.leapPend = true → rL s (rTIME 0x78) 2 ≤ tSec (s.time.plain / 2 ^ 32) → softWrote s (rTIME 0x70) = true →
      ∃ t, exec .leapApply s = .next t ∧ t.time = { s.time with leapPend := false } ∧
        rd t (rTIME 0x70) = rd s (rTIME 0x70) ∧ rbit t (rTIME 4) 9 = true) ∧
    (s.time.leapPend = false ∨ tSec (s.time.plain / 2 ^ 32) < rL s (rTIME 0x78) 2 → exec .leapApply s = .next s)) ∧
  ((∀ s : State, s.time.ppsOwed = [] → exec .ppsEvent s = .next s) ∧
  (∀ (n : Nat) (rest : List Nat) (s : State), s.time.ppsOwed = n :: rest →
    (rbit s (rTIME 0xA0) 31 && s.time.notSet) = true →
    ∃ t, exec .ppsEvent s = .next t ∧ t = { s with time := { s.time with ppsOwed := rest } }) ∧
  (∀ (n : Nat) (rest : List Nat) (s : State), s.time.ppsOwed = n :: rest → s.coreAwake = true →
    (rbit s (rTIME 0xA0) 31 && s.time.notSet) = false →
    ∃ t, exec .ppsEvent s = .next t ∧ t.time.ppsOwed = rest ∧ t.time.ppsMax = max s.time.ppsMax n ∧
      rn t (rTIME 0xB0) = n % 2 ^ 32 ∧ rn t (rTIME 0xBC) = min (rn s (rTIME 0xBC) + 1) (2 ^ 32 - 1) ∧
      rbit t (rTIME 0xB8) 1 = decide (n ≤ s.time.ppsMax) ∧ MemKept s t) ∧
  ∀ (n : Fin 8) (s : State),
    let lasted := mget (fun _ => (0 : Int)) s.time.ppsFrom n + (min (max 1 (rb s (rTIME 0xA0) 0 19)) 500000 * 1000 : Nat) ≤
      (cycNo s : Int)
    (s.time.ppsPulse.testBit n = true → lasted →
      let high := s.time.ppsInv.testBit n
      ∃ t, exec (.ppsPulseEnd n) s = .next t ∧ t.time.ppsPulse.testBit n = false ∧
        (∀ j, j ≠ n.val → t.time.ppsPulse.testBit j = s.time.ppsPulse.testBit j ∧
          t.time.outHigh.testBit j = s.time.outHigh.testBit j) ∧
        t.time.outHigh.testBit n = high ∧ t.out = .pps n (nowT s) high :: s.out ∧
        t = { s with time := { s.time with ppsPulse := t.time.ppsPulse, outHigh := t.time.outHigh }, out := t.out }) ∧
    (s.time.ppsPulse.testBit n = false ∨ ¬ lasted → exec (.ppsPulseEnd n) s = .next s))

/-! ## Synthesis cores -/

/-- SC_CMD.RETUNE of an awake SC that no condition of R108 refuses, to a Q within the present band, starts a ramp at the next
PFD edge: it remembers slot, target and compensation, LOCK_SET falls, the lock deadline starts, SC_RAMP_ACT takes J, and
SC_RATIO stays until the ramp ends (R102, R103, R107 to R109); to a Q outside the band it starts a band change with a band
calibration (R110); of a sleeping SC it takes the plan at once (R117). A retune that R108 refuses changes nothing of the SC
but the refusal: REFUSED is set and REFUSE_CODE takes the code of the first condition of R108's table that fails: 1 for the
ratio, 2 for a fence, 3 for a retune in progress, 4 for a ratio outside the present band while an enabled FOD selects the SC,
5 for a divide that does not convert. -/
def Obligations.RetuneStartsOrIsRefused : Prop :=
  (∀ (m : Master) (n : ScIx) (slot : Fin 4) (comp : Bool) (k : CycIx) (s : State),
    BusOpen s → retuneRefusal s n slot comp true = none →
    let r := ratioAt s (rSC n (0x40 + 0x20 * slot))
    let q := ratioVal r
    let inBand := (rn s (rSC n 0x104) : Rat) ≤ q * 256 ∧ q * 256 ≤ (rn s (rSC n 0x108) : Rat)
    let ret (band : Bool) : Retune := ⟨slot, q, r.1, r.2.1, r.2.2, comp, band,
      pfdEdge (atCyc s k) (nowR (atCyc s k)) true, rampJ s n (scQ s n) q, scQ s n, 0, none⟩
    ∃ t, exec (.retune m n slot comp k) s = .next t ∧ MemKept s t ∧
      ((sc s n).awake = true → inBand →
        (sc t n).retune = some (ret false) ∧ (sc t n).lockSet = false ∧ (sc t n).deadline = some .change ∧
        (sc t n).slot = (sc s n).slot ∧ rn t (rSC n 0x110) = min (rampJ s n (scQ s n) q) 0xFFFF ∧ scQ t n = scQ s n) ∧
      ((sc s n).awake = true → ¬ inBand →
        (sc t n).retune = some (ret true) ∧ (sc t n).bandcal = some .change ∧ (sc t n).lockSet = false ∧
        (sc t n).deadline = some .change ∧ scQ t n = scQ s n) ∧
      ((sc s n).awake = false → (sc t n).slot = slot.val ∧ scQ t n = q ∧ (sc t n).retune = (sc s n).retune) ∧
      ∀ j, j ≠ n.val → sc t j = sc s j) ∧
  (∀ (m : Master) (n : ScIx) (slot : Fin 4) (comp : Bool) (k : CycIx) (s : State), BusOpen s →
    let r := ratioAt s (rSC n (0x40 + 0x20 * slot))
    let q := ratioVal r
    let out := ¬ ((rn s (rSC n 0x104) : Rat) ≤ q * 256 ∧ q * 256 ≤ (rn s (rSC n 0x108) : Rat)) ∧ scUsed s n = true
    let lost := comp = true ∧ ∃ f < 128, (fod s f).sc = n ∧
      convertDiv (fod s f).n (fod s f).f (fod s f).m (q / scQ s n) = none
    let refused (code : Nat) : Prop := ∃ t, exec (.retune m n slot comp k) s = .next t ∧ rbit t (rSC n 4) 12 = true ∧
      sc t n = { sc s n with refuse := code } ∧ (∀ j, j ≠ n.val → sc t j = sc s j) ∧
      RegsKept s t [rSC n 4, rSC n 8] ∧ MemKept s t ∧ t.fods = s.fods
    (ratioOk r = false → refused 1) ∧
    (ratioOk r = true → (sc s n).fenced = true → refused 2) ∧
    (ratioOk r = true → (sc s n).fenced = false → scRetuning s n = true → refused 3) ∧
    (ratioOk r = true → (sc s n).fenced = false → scRetuning s n = false → out → refused 4) ∧
    (ratioOk r = true → (sc s n).fenced = false → scRetuning s n = false → ¬ out → lost → refused 5))

/-- BANDCAL starts a band calibration on an awake SC that is not retuning and that no enabled FOD selects; it is refused with
code 3 while the SC is retuning and with code 4 while an enabled FOD selects it; on a sleeping SC it has no effect on the SC
(R104). LOCK_FAST clears with the open loop (log entry 145). A band calibration that finds a band records its limits and
closes the loop in it, or in SC_ANA.BAND where BAND_MAN is set; one that finds none keeps the loop open and raises
BAND_CAL_FAIL (R104, R105; the limits it leaves: log entry 43). A lock deadline that passes is over and raises WAKE_TIMEOUT
for a wake and LOSS_OF_LOCK otherwise (R103). -/
def Obligations.BandCalibrationStartsAndEnds : Prop :=
  (∀ (m : Master) (n : ScIx) (s : State), BusOpen s →
    ((sc s n).awake = true → scRetuning s n = false → scUsed s n = false →
      ∃ t, exec (.bandcal m n) s = .next t ∧ sc t n = { sc s n with
          bandcal := some .command, lockSet := false, lockFast := false, deadline := some .command, ds := [] } ∧
        (∀ j, j ≠ n.val → sc t j = sc s j) ∧ RegsKept s t [rSC n 8] ∧ MemKept s t) ∧
    ((sc s n).awake = false →
      ∃ t, exec (.bandcal m n) s = .next t ∧ t.scs = s.scs ∧ RegsKept s t [rSC n 8] ∧ MemKept s t) ∧
    ((sc s n).awake = true → (scRetuning s n = true ∨ scUsed s n = true) →
      ∃ t, exec (.bandcal m n) s = .next t ∧ rbit t (rSC n 4) 12 = true ∧
        sc t n = { sc s n with refuse := if scRetuning s n then 3 else 4 } ∧ RegsKept s t [rSC n 4, rSC n 8] ∧ MemKept s t)) ∧
  ((∀ (n : ScIx) (lo hi band : Nat) (w : BandWhy) (s : State), (sc s n).bandcal = some w →
    ∃ t, exec (.bandCalDone n true lo hi band) s = .next t ∧ (sc t n).bandcal = none ∧
      (sc t n).band = (if rbit s (rSC n 0x100) 6 then rb s (rSC n 0x100) 0 6 else band % 64) ∧
      sc t n = { sc s n with bandcal := none, band := (sc t n).band, ds := [] } ∧
      rn t (rSC n 0x104) = lo % 65536 ∧ rn t (rSC n 0x108) = hi % 65536 ∧
      RegsKept s t [rSC n 0x104, rSC n 0x108] ∧ t = { s with regs := t.regs, scs := t.scs }) ∧
  (∀ (n : ScIx) (lo hi band : Nat) (w : BandWhy) (s : State), (sc s n).bandcal = some w →
    queueFull s (srcSc n) = false →
    ∃ t, exec (.bandCalDone n false lo hi band) s = .next t ∧ (sc t n).bandcal = some w ∧
      rn t (rSC n 0x104) = lo % 65536 ∧ rn t (rSC n 0x108) = hi % 65536 ∧
      t.fcol = (enqueue s (mkReport s (srcSc n) 0x02 (rSC n 4) 0 0 false)).fcol ∧
      RegsKept s t [rSC n 0x104, rSC n 0x108] ∧ MemKept s t) ∧
  ∀ (n : ScIx) (w : BandWhy) (s : State), (sc s n).deadline = some w → queueFull s (srcSc n) = false →
    ∃ t, exec (.lockDeadlineMiss n) s = .next t ∧ (sc t n).deadline = none ∧
      t.fcol = (enqueue s (mkReport s (srcSc n) (if w = .wake then 0x09 else 0x01) (rSC n 4) 0 0 false)).fcol ∧
      RegsKept s t [] ∧ MemKept s t)

/-- A queued retune that is due and that nothing holds leaves the queue and, where R108 does not refuse it, starts: the SC
remembers slot, target and compensation, and LOCK_SET falls; one that meets a retune in progress on an awake SC waits in the
queue; none is due in SAFE, and one whose time lies beyond the present AON period waits (R107, R117, R434). At the end of a
ramp SC_RATIO and SLOT take the new values and the retune is over; without a ramp, and during a band change, nothing happens
(R109). -/
def Obligations.QueuedRetuneAndRampEndActWhenDue : Prop :=
  (∀ (n : ScIx) (a : QAct) (slot : Nat) (comp : Bool) (h : Option Nat) (s : State),
    (sc s n).queue = [a] → a.kind = .retune slot comp h →
    (s.fcol.safe = true ∨ (nextT s : Int) < a.due → exec (.queuedRetune n) s = .next s) ∧
    (s.fcol.safe = false → a.due ≤ (nextT s : Int) → (sc s n).retune.isSome = true → (sc s n).awake = true →
      ∃ t, exec (.queuedRetune n) s = .next t ∧ sc t n = { sc s n with queue := [{ a with held := true }] } ∧
        t = { s with scs := t.scs }) ∧
    (s.fcol.safe = false → a.due ≤ (nextT s : Int) → (sc s n).retune = none → (sc s n).awake = true →
      retuneRefusal s n slot comp false = none →
      ∃ t r, exec (.queuedRetune n) s = .next t ∧ (sc t n).queue = [] ∧ (sc t n).retune = some r ∧ r.slot = slot ∧
        r.comp = comp ∧ r.q = ratioVal (ratioAt s (rSC n (0x40 + 0x20 * slot))) ∧ (sc t n).lockSet = false ∧ MemKept s t)) ∧
  (∀ (n : ScIx) (k : CycIx) (s : State),
    (∀ r, (sc s n).retune = some r → r.band = false →
      ∃ t, exec (.scRampEnd n k) s = .next t ∧ (sc t n).slot = r.slot ∧ (sc t n).retune = none ∧
        rn t (rSC n 0x10) = r.ni % 65536 ∧ rM t (rSC n 0x14) 3 = r.nf % 2 ^ 48 ∧ rM t (rSC n 0x20) 3 = r.nm % 2 ^ 48 ∧
        MemKept s t) ∧
    (((sc s n).retune = none ∨ ∃ r, (sc s n).retune = some r ∧ r.band = true) →
      exec (.scRampEnd n k) s = .next { s with cyc := max s.cyc k.val }))

/-- LOCK_FAST sets by its detector while the loop is closed and clears by it (R101). LOCK_SET rises where the SC is awake,
its loop closed and no ramp runs: the lock deadline is over, and a band change takes its slot and ends (R101, R110). A fall
of LOCK_SET by the detector counts, sets LOL and raises LOSS_OF_LOCK; LOCK_SET that is already 0 does not fall (R102). The
steering trail takes an entry of the microsecond that ended and its sum starts again at 0; it holds 1 024 entries at most,
and after 1 024 entries of zero in a row it stops (R100). The FODs that a fence of their SC moves, and that have a
representable divide on the target, move to it, and the move is over; without a move under way nothing happens (R119), and in
SAFE every output keeps its input (R155). -/
def Obligations.DetectorsTrailAndRehomingFollow : Prop :=
  ((∀ (n : ScIx) (s : State), (sc s n).awake = true → (sc s n).bandcal = none →
    ∃ t, exec (.lockFastSet n) s = .next t ∧ sc t n = { sc s n with lockFast := true } ∧
      (∀ j, j ≠ n.val → sc t j = sc s j) ∧ t = { s with scs := t.scs }) ∧
  (∀ (n : ScIx) (s : State), ((sc s n).awake = false ∨ (sc s n).bandcal ≠ none) → exec (.lockFastSet n) s = .next s) ∧
  (∀ (n : ScIx) (s : State), ∃ t, exec (.lockFastClear n) s = .next t ∧ sc t n = { sc s n with lockFast := false } ∧
    (∀ j, j ≠ n.val → sc t j = sc s j) ∧ t = { s with scs := t.scs }) ∧
  (∀ (n : ScIx) (k : CycIx) (s : State), (sc s n).awake = true → (sc s n).bandcal = none → (sc s n).lockSet = false →
    (∀ r, (sc s n).retune = some r → r.band = true) → (∀ f < 128, (fod s f).insel ≠ some n.val) → scWanted s n = true →
    ∃ t, exec (.lockSetRise n k) s = .next t ∧ (sc t n).lockSet = true ∧ (sc t n).deadline = none ∧
      (sc t n).retune = none ∧ (∀ r, (sc s n).retune = some r → (sc t n).slot = r.slot) ∧ MemKept s t) ∧
  (∀ (n : ScIx) (s : State), (sc s n).lockSet = true → queueFull s (srcSc n) = false →
    ∃ t, exec (.lossOfLock n) s = .next t ∧ sc t n = { sc s n with lockSet := false } ∧ rbit t (rSC n 4) 10 = true ∧
      rM t (rSC n 0xF0) 2 = min (rM s (rSC n 0xF0) 2 + 1) (2 ^ 32 - 1) ∧
      mkReport s (srcSc n) 0x01 (rSC n 4) 0 0 false ∈ mget (fun _ => []) t.fcol.queues (srcSc n) ∧
      (∀ j, j ≠ n.val → sc t j = sc s j) ∧ MemKept s t) ∧
  ∀ (n : ScIx) (s : State), (sc s n).lockSet = false → exec (.lossOfLock n) s = .next s) ∧
  (∀ (n : ScIx) (s : State),
    ((sc s n).trailOn = true →
      ∃ t, exec (.trailEntry n) s = .next t ∧
        (sc t n).trail = ((nowT s / 65536000 - 1, (sc s n).trailAcc) :: (sc s n).trail).take 1024 ∧
        (sc t n).trailTotal = (sc s n).trailTotal + (sc s n).trailAcc ∧ (sc t n).trailAcc = 0 ∧
        ((sc s n).trailAcc ≠ 0 → (sc t n).trailOn = true ∧ (sc t n).trailZeros = 0) ∧
        ((sc s n).trailAcc = 0 → (sc s n).trailZeros = 1023 → (sc t n).trailOn = false) ∧
        (∀ j, j ≠ n.val → sc t j = sc s j) ∧ t = { s with scs := t.scs }) ∧
    ((sc s n).trailOn = false → exec (.trailEntry n) s = .next s)) ∧
  ((∀ (n : ScIx) (k : CycIx) (c : Nat) (l : List Nat) (s : State), (sc s n).rehome = some (c, l) → c ≠ n.val → s.fcol.safe = false →
    ∃ t, exec (.rehomeSwitch n k) s = .next t ∧ (sc t n).rehome = none ∧
      (∀ f ∈ l, (fod s f).sc = n.val →
        (convertDiv (fod s f).n (fod s f).f (fod s f).m (scQ s c / scQ s n)).isSome = true → (fod t f).sc = c) ∧
      MemKept s t) ∧
  ∀ (n : ScIx) (k : CycIx) (s : State), ((sc s n).rehome = none ∨ s.fcol.safe = true) →
    exec (.rehomeSwitch n k) s = .next { s with cyc := max s.cyc k.val })

/-! ## Output dividers, phase and hopping -/

/-- The commit of one divide value by a master: its register takes the value; where the four values are then a valid
combination it is in force and DIV_INVALID is 0, and otherwise the combination in force stays and DIV_INVALID is 1 (R127). A
write of FOD_INSEL with COMP = 0 switches the input at once where it names the input in force, where the output does not run,
or where the SC is awake with LOCK_SET, and D stays; otherwise it waits for that. With COMP = 1 the module refuses with code
1 an SC that R118's conditions exclude and with code 2 one on which D has no representable equivalent, and the input and the
register stay; with neither it switches and converts D (R129). -/
def Obligations.DivideAndInputChangesAreChecked : Prop :=
  (∀ (m : Master) (f : FodIx) (fld : DivField) (v : Nat) (k : CycIx) (s : State),
    BusOpen s → FodFree (atCyc s k) f → v < 2 ^ divWidth fld →
    let d := divWith fld v (divRegs s f)
    ∃ t, exec (.fodDivCommit m f fld v k) s = .next t ∧ divRegs t f = d ∧ MemKept s t ∧
      (comboOk d.1 d.2.1 d.2.2.1 d.2.2.2 (scQ s (fod s f).sc) = true →
        ((fod t f).n, (fod t f).f, (fod t f).m, (fod t f).o) = d ∧ (fod t f).divInvalid = false) ∧
      (comboOk d.1 d.2.1 d.2.2.1 d.2.2.2 (scQ s (fod s f).sc) = false →
        fod t f = { fod s f with divInvalid := true }) ∧
      ∀ g, g ≠ f.val → fod t g = fod s g) ∧
  (∀ (m : Master) (f : FodIx) (c : ScIx) (k : CycIx) (s : State), BusOpen s → FodFree (atCyc s k) f →
    let d := convertDiv (fod s f).n (fod s f).f (fod s f).m (scQ s c / scQ s (fod s f).sc)
    let refused (code : Nat) : Prop := ∃ t, exec (.fodInselWrite m f c true k) s = .next t ∧ t.fods = s.fods ∧
      rbit t (rFOD f 4) 10 = true ∧ rb t (rFOD f 4) 11 2 = code ∧ rn t (rFOD f 0x10) = rn s (rFOD f 0x10) ∧ MemKept s t
    (((fod s f).sc = c ∨ (fod s f).running = false ∨ ((sc s c).awake = true ∧ (sc s c).lockSet = true)) →
      ∃ t, exec (.fodInselWrite m f c false k) s = .next t ∧ (fod t f).sc = c.val ∧ (fod t f).insel = none ∧
        (fod t f).n = (fod s f).n ∧ (fod t f).f = (fod s f).f ∧ (fod t f).m = (fod s f).m ∧
        rn t (rFOD f 0x10) % 16 = c.val ∧ (∀ g, g ≠ f.val → fod t g = fod s g) ∧ MemKept s t) ∧
    ((fod s f).sc ≠ c → (fod s f).running = true → ¬ ((sc s c).awake = true ∧ (sc s c).lockSet = true) →
      ∃ t, exec (.fodInselWrite m f c false k) s = .next t ∧ fod t f = { fod s f with insel := some c.val } ∧
        (∀ g, g ≠ f.val → fod t g = fod s g) ∧ MemKept s t) ∧
    (candidateOk s c (fod s f).sc = false → refused 1) ∧
    (candidateOk s c (fod s f).sc = true → d = none → refused 2) ∧
    (∀ e, candidateOk s c (fod s f).sc = true → d = some e →
      ∃ t, exec (.fodInselWrite m f c true k) s = .next t ∧ (fod t f).sc = c.val ∧ (fod t f).insel = none ∧
        ((fod t f).n, (fod t f).f, (fod t f).m) = e ∧ (∀ g, g ≠ f.val → fod t g = fod s g) ∧ MemKept s t))

/-- With the slews that have ended by then brought to their amounts: PSTEP adds FOD_PDELTA to φ, PSLEW adds an FOD_PDELTA
that is not 0 to what the phase slew has left and sets its rate, and ALIGNED clears where an amount is left; PSTOP ends the
slew; a PSTEP whose sum leaves φ's range changes φ not at all and raises PHASE_RANGE (R134 to R136, R140). Stated where no
queued action of the output, which would act before the command, falls due in the present AON period (R138). A phase slew
reaches exactly its amount: what was left has joined φ and nothing is left; with no slew under way nothing happens (R136). -/
def Obligations.PhaseCommandsMoveThePhase : Prop :=
  (∀ (m : Master) (f : FodIx) (k : CycIx) (s : State), BusOpen s → (fod s f).fenced = false →
    (∀ a ∈ (fod s f).queue, a.held = true ∨ (nextT s : Int) < a.due) →
    let amt := sx 48 (rM s (rFOD f 0x4C) 3)
    let u := slewSettle (atCyc s k) f (nowR (atCyc s k))
    let x := foldSlew (fod u f) (nowR (atCyc s k))
    ((-(2 : Rat) ^ 47 ≤ x.phi + amt ∧ x.phi + amt < 2 ^ 47) →
      ∃ t, exec (.pstep m f k) s = .next t ∧ (fod t f).phi = x.phi + amt ∧ (fod t f).pRem = x.pRem ∧
        (∀ g, g ≠ f.val → fod t g = fod s g) ∧ MemKept s t) ∧
    ((x.phi + amt < -(2 : Rat) ^ 47 ∨ 2 ^ 47 ≤ x.phi + amt) → queueFull u (srcFod f) = false →
      ∃ t, exec (.pstep m f k) s = .next t ∧ t.fods = u.fods ∧
        t.fcol = (enqueue u (mkReport u (srcFod f) 0x06 (rFOD f 8) m 2 false)).fcol ∧ MemKept s t) ∧
    ((-(2 : Rat) ^ 47 ≤ x.phi + (x.pRem + amt) ∧ x.phi + (x.pRem + amt) < 2 ^ 47) → amt ≠ 0 →
      ∃ t, exec (.pslew m f k) s = .next t ∧ (fod t f).pRem = x.pRem + amt ∧ (fod t f).phi = x.phi ∧
        (fod t f).pRate = pslewRate s f ∧ (x.pRem + amt ≠ 0 → (fod t f).aligned = false) ∧
        (∀ g, g ≠ f.val → fod t g = fod s g) ∧ MemKept s t) ∧
    ∃ t, exec (.pstop m f k) s = .next t ∧ (fod t f).pRem = 0 ∧ (fod t f).phi = x.phi ∧
      (∀ g, g ≠ f.val → fod t g = fod s g) ∧ MemKept s t) ∧
  ((∀ (f : FodIx) (s : State), (fod s f).pRem ≠ 0 → 0 < (fod s f).pRate → (fod s f).tRem = 0 →
    ∃ t, exec (.fodSlewEnd f) s = .next t ∧ (fod t f).pRem = 0 ∧ (fod t f).phi = (fod s f).phi + (fod s f).pRem ∧
      (∀ g, g ≠ f.val → fod t g = fod s g) ∧ MemKept s t) ∧
  ∀ (f : FodIx) (s : State), (fod s f).pRem = 0 → (fod s f).tRem = 0 → exec (.fodSlewEnd f) s = .next s)

/-- A witness visit of a running output whose turn has come shows its error, and corrects an aligned output by the error over
the filter's power of two, of the opposite sign, where that stays in the correction limit; a frozen output gets a correction
of 0. A visit whose self-check fails marks the group's witness failed from that instant instead. An output that does not run,
whose group sleeps or whose turn has not come is not visited (R139 to R141). -/
def Obligations.WitnessVisitCorrectsTheOutput : Prop :=
  (∀ (f : FodIx) (ok : Bool) (e : Rat) (s : State),
    ((fod s f).running = false ∨ s.groups.testBit (f.val / 8) = false ∨ witMay s f = false) →
    exec (.witnessVisit f ok e) s = .next s) ∧
  (∀ (f : FodIx) (e : Rat) (s : State), (fod s f).running = true → s.groups.testBit (f.val / 8) = true →
    witMay s f = true →
    ∃ t, exec (.witnessVisit f false e) s = .next t ∧ t.tdcFail = s.tdcFail ||| 2 ^ (f.val / 8) ∧
      (∀ g, fod t g = if g / 8 = f.val / 8 ∧ (fod s g).tdcAt = none then { fod s g with tdcAt := some (nowR s) } else fod s g) ∧
      MemKept s t) ∧
  ∀ (f : FodIx) (e : Rat) (s : State), (fod s f).running = true → s.groups.testBit (f.val / 8) = true →
    witMay s f = true → s.tdcFail.testBit (f.val / 8) = false → (fod s f).recs ≠ [] →
    ∃ t a rest, exec (.witnessVisit f true e) s = .next t ∧ rM t (rFOD f 0x94) 2 = tw 32 (rfloor e) ∧
      (fod t f).anchors = a :: rest ∧
      ((fod s f).frozen = true → a.step = 0) ∧
      ((fod s f).frozen = false → (fod s f).fenced = false → s.fcol.safe = false → s.corrPause = false →
        alignMode s f (fod s f) = true →
        -((atLeast1 (rb s 0x408008 12 8) : Nat) : Rat) * psT ≤ e / 2 ^ rb s 0x408008 8 4 →
        e / 2 ^ rb s 0x408008 8 4 ≤ ((atLeast1 (rb s 0x408008 12 8) : Nat) : Rat) * psT →
        a.step = -(e / 2 ^ rb s 0x408008 8 4)) ∧ (∀ g, g ≠ f.val → fod t g = fod s g) ∧ MemKept s t

/-- An output whose start condition holds starts: it runs, its ledger begins with a start record at cycle 0. A wanted group
wakes outside AON_ONLY (R496). A driver that is due starts with a numbering of its own; a driver whose OEN is 0 stops with
the numbering kept as the previous one (R142 to R145, R223). The one queued action of an unfenced output that is due leaves
the queue and acts: a phase step adds its amount to φ, an output-enable action sets or clears OEN where the output format is
not locked, a hop that nothing blocks takes the entry's divide. In SAFE, or before its period, it waits (R83, R134, R144,
R147, R164, R434). -/
def Obligations.OutputsStartStopAndActWhenDue : Prop :=
  ((∀ (f : FodIx) (k : CycIx) (s : State), startReady s f = true →
    ∃ t r, exec (.fodStart f k) s = .next t ∧ (fod t f).running = true ∧ (fod t f).aligned = false ∧
      (fod t f).recs = [r] ∧ r.kind = 1 ∧ r.cycle = 0 ∧ (fod t f).n = (fod s f).n ∧
      (∀ g, g ≠ f.val → fod t g = fod s g) ∧ MemKept s t) ∧
  (∀ (f : FodIx) (k : CycIx) (s : State), startReady s f = false → (fod s f).pRem = 0 → (fod s f).tRem = 0 →
    exec (.fodStart f k) s = .next { s with cyc := max s.cyc k.val }) ∧
  (∀ (g : Fin 16) (s : State), groupWanted s g = true → 2 ≤ pwrState s →
    ∃ t, exec (.fodGroupWake g) s = .next t ∧ t.groups.testBit g = true ∧
      (∀ j, j ≠ g.val → t.groups.testBit j = s.groups.testBit j) ∧ t = { s with groups := t.groups }) ∧
  (∀ (f : FodIx) (s : State) (d : Rat), (fod s f).startDue = some d → (fod s f).running = true →
    (fod s f).driving = false → rbit s (rFOD f 0x0C) 2 = true → (fod s f).recs ≠ [] → s.standby = false → calHolds s = false →
    ∃ t r, exec (.outputDriverStart f) s = .next t ∧ (fod t f).driving = true ∧ (fod t f).startDue = none ∧
      (fod t f).recs = [r] ∧ r.kind = 1 ∧ r.cycle = 0 ∧ (∀ g, g ≠ f.val → fod t g = fod s g) ∧ MemKept s t) ∧
  (∀ (f : FodIx) (s : State), (fod s f).driving = true → rbit s (rFOD f 0x0C) 2 = false →
    ∃ t p, exec (.outputDisable f) s = .next t ∧ (fod t f).driving = false ∧ (fod t f).startDue = none ∧
      (fod t f).offAt.isSome = true ∧ (fod t f).prev = some p ∧ p.recs = (fod s f).recs ∧
      p.anchors = (fod s f).anchors ∧ (∀ g, g ≠ f.val → fod t g = fod s g) ∧ MemKept s t) ∧
  ∀ (f : FodIx) (s : State), (fod s f).driving = false → exec (.outputDisable f) s = .next s) ∧
  (∀ (f : FodIx) (a : QAct) (s : State), (fod s f).queue = [a] → (fod s f).fenced = false →
    (s.fcol.safe = true ∨ (nextT s : Int) < a.due → exec (.queuedHop f) s = .next s ∧
      exec (.queuedPhaseMove f) s = .next s ∧ exec (.queuedOen f) s = .next s) ∧
    (s.fcol.safe = false → a.due ≤ (nextT s : Int) → a.held = false → a.late = none →
      let x := foldSlew (fod (slewSettle (fodDrop s f a) f a.due) f) a.due
      (∀ amt : Int, a.kind = .phStep amt → (-(2 : Rat) ^ 47 ≤ x.phi + amt ∧ x.phi + amt < 2 ^ 47) →
        ∃ t, exec (.queuedPhaseMove f) s = .next t ∧ (fod t f).queue = [] ∧ (fod t f).phi = x.phi + amt ∧
          (∀ g, g ≠ f.val → fod t g = fod s g) ∧ MemKept s t) ∧
      (∀ v : Bool, a.kind = .oen v → rbit s 0x40 0 = false →
        ∃ t, exec (.queuedOen f) s = .next t ∧ (fod t f).queue = [] ∧ rbit t (rFOD f 0x0C) 2 = v ∧
          (∀ g, g ≠ f.val → fod t g = fod s g) ∧ MemKept s t) ∧
      (∀ e : Nat, a.kind = .hop e → hopBlocked s f a.due = false → (fod s f).hopHeld = [] →
        hopRateFull s f a.due = false → hopWouldRun s f e = true →
        ∃ t, exec (.queuedHop f) s = .next t ∧ (fod t f).queue = [] ∧ (fod t f).n = (hopBefore s f e).n ∧
          (fod t f).f = (hopBefore s f e).f ∧ (fod t f).m = (hopBefore s f e).m ∧
          (fod t f).o = (hopBefore s f e).o ∧ (fod t f).hopBusy = true ∧ (∀ g, g ≠ f.val → fod t g = fod s g) ∧
          MemKept s t)))

/-- A commit of the hop window to the entry that FOD_HOP_SEL names stores the entry as written where R161 allows it or VALID
is 0; an entry that R161 excludes is stored not VALID. The other entries and outputs stay (R160, R161). HOP_GO on an unfenced
output that nothing blocks and whose record limit is not reached takes the divide of a VALID entry at once, is BUSY and shows
the entry as ACTIVE (an entry that software commits in the same cycle acts as it stood before, R162); an entry that is not
VALID gives HOP_INVALID and no change of the divide; a blocked hop is held. The end of a reload clears BUSY; at it, and at
the end of a wait for the record limit, the first held hop acts where nothing blocks it (R164, R169 to R173, R175). -/
def Obligations.HopEntriesAreStoredAndTaken : Prop :=
  (∀ (m : Master) (f : FodIx) (e : Fin 16) (h : HopFields) (s : State),
    BusOpen s → rb s (rFOD f 0xA0) 0 4 = e.val → h.n < 2 ^ 12 → h.f < 2 ^ 40 → h.m < 2 ^ 40 → h.o < 2 ^ 32 →
    -(2 ^ 47 : Int) ≤ h.phase → h.phase < 2 ^ 47 →
    ∃ t, exec (.hopEntryCommit m f e h) s = .next t ∧
      hopEnt (fod t f) e = ⟨h.valid && decide (3 ≤ h.n ∧ 1 ≤ h.m ∧ h.f < h.m ∧ 1 ≤ h.o), h.coherent, h.n, h.f, h.m, h.o,
        h.phase⟩ ∧
      (∀ j, j ≠ e.val → hopEnt (fod t f) j = hopEnt (fod s f) j) ∧ (∀ g, g ≠ f.val → fod t g = fod s g) ∧
      MemKept s t) ∧
  ((∀ (m : Master) (f : FodIx) (e : Fin 16) (k : CycIx) (s : State), BusOpen s → (fod s f).fenced = false →
    let u := atCyc s k
    (hopBlocked u f (nowR u) = false → (fod s f).hopHeld = [] → hopRateFull s f (nowR u) = false →
      hopWouldRun u f e = true →
      ∃ t, exec (.hopGo m f e k) s = .next t ∧ (fod t f).n = (hopBefore u f e).n ∧
        (fod t f).f = (hopBefore u f e).f ∧ (fod t f).m = (hopBefore u f e).m ∧
        (fod t f).o = (hopBefore u f e).o ∧ (fod t f).hopBusy = true ∧ rb t (rFOD f 0xDC) 0 4 = e.val ∧
        (∀ g, g ≠ f.val → fod t g = fod s g) ∧ MemKept s t) ∧
    (hopBlocked u f (nowR u) = false → (fod s f).hopHeld = [] → (hopBefore u f e).valid = false →
      ∃ t, exec (.hopGo m f e k) s = .next t ∧ (∀ g, g ≠ f.val → fod t g = fod s g) ∧
        fod t f = { fod (slewSettle u f (nowR u)) f with swapDue := false } ∧
        rbit t (rFOD f 0xDC) 8 = true ∧ MemKept s t) ∧
    (hopBlocked u f (nowR u) = true →
      ∃ t, exec (.hopGo m f e k) s = .next t ∧
        fod t f = { fod s f with hopHeld := (fod s f).hopHeld ++ [(e.val, none, false)] } ∧
        (∀ g, g ≠ f.val → fod t g = fod s g) ∧ MemKept s t)) ∧
  (∀ (f : FodIx) (k : CycIx) (s : State), (fod s f).hopHeld = [] →
    (∃ t, exec (.hopReloadDone f k) s = .next t ∧ fod t f = { fod s f with hopBusy := false } ∧
      t = { s with cyc := t.cyc, fods := t.fods }) ∧
    exec (.hopRateRelease f k) s = .next { s with cyc := max s.cyc k.val }) ∧
  ∀ (f : FodIx) (k : CycIx) (s : State) (e : Nat) (rated : Bool) (rest : List (Nat × Option Nat × Bool)),
    let u := atCyc s k
    (fod s f).hopHeld = (e, none, rated) :: rest → s.fcol.safe = false → hopRateFull s f (nowR u) = false →
    hopWouldRun u f e = true →
    (hopBlocked (setFod u f { fod s f with hopBusy := false }) f (nowR u) = false →
      ∃ t, exec (.hopReloadDone f k) s = .next t ∧ (fod t f).hopHeld = rest ∧ (fod t f).n = (hopBefore u f e).n ∧
        (∀ g, g ≠ f.val → fod t g = fod s g) ∧ MemKept s t) ∧
    (hopBlocked u f (nowR u) = false →
      ∃ t, exec (.hopRateRelease f k) s = .next t ∧ (fod t f).hopHeld = rest ∧ (fod t f).n = (hopBefore u f e).n ∧
        (∀ g, g ≠ f.val → fod t g = fod s g) ∧ MemKept s t))

/-! ## References, DPLLs and Screed -/

/-- A labelled edge of an enabled time reference and a phase sample of an enabled frequency reference: the reference has been
seen, keeps time and phase error, shows the error in REF_PHASE_ERR, and LOS ends; the error is (label − REF_CAL_DLY) −
t_edge. On a reference that is not enabled, and while the core domain sleeps, nothing happens (R187, R188, R190, R505). A
software reference sample whose time lies between the last one's and now, and not further back than SWREF_MAX_AGE allows, is
a sample of the reference; any other only counts (R189). -/
def Obligations.ReferenceEventsAndSamplesAreMeasured : Prop :=
  ((∀ (i : RefIx) (tE : Int) (v w : Nat) (s : State), refOn s i = true → (i.val < 4 ∨ i.val = 8 ∨ i.val = 9) →
    ∃ t, exec (.refTimeEvent i tE (some v) w) s = .next t ∧ (ref t i).seen = true ∧ (ref t i).lastT = some tE ∧
      (ref t i).lastE = some ((v * secTicks : Nat) - s32 s (rREF i 0x48) - tE) ∧ (ref t i).label = some v ∧
      rM t (rREF i 0x50) 3 = tw 48 ((v * secTicks : Nat) - s32 s (rREF i 0x48) - tE) ∧ refBit t i 4 = false ∧
      (∀ j, j ≠ i.val → ref t j = ref s j) ∧ MemKept s t) ∧
  (∀ (i : RefIx) (e : Int) (s : State), refOn s i = true → 4 ≤ i.val → i.val < 8 →
    ∃ t, exec (.refFreqSample i e) s = .next t ∧ (ref t i).seen = true ∧ (ref t i).lastT = some (nowT s : Int) ∧
      (ref t i).lastE = some e ∧ rM t (rREF i 0x50) 3 = tw 48 e ∧ refBit t i 4 = false ∧
      (∀ j, j ≠ i.val → ref t j = ref s j) ∧ MemKept s t) ∧
  ∀ (i : RefIx) (tE e : Int) (l : Option Nat) (w : Nat) (s : State), refOn s i = false →
    exec (.refTimeEvent i tE l w) s = .next s ∧ exec (.refFreqSample i e) s = .next s ∧ exec (.refLos i) s = .next s ∧
      exec (.refFreqGate i e) s = .next s) ∧
  (∀ (m : Master) (i : Fin 4) (tm : BitVec 64) (th : Int) (k : CycIx) (s : State),
    BusOpen s → -(2 ^ 47 : Int) ≤ th → th < 2 ^ 47 →
    let n := 12 + i.val
    let u := atCyc s k
    let tT := resolveDue u tm.toNat
    (tT ≤ (nowT u : Int) → (nowT u : Int) - (atLeast1 (rb s (rREF n 0x11C) 0 16) : Int) * 65536000000 ≤ tT →
      (∀ p, (ref s n).swT = some p → p < tT) →
      ∃ t, exec (.swrefSample m i tm th k) s = .next t ∧ (ref t n).swT = some tT ∧ (ref t n).lastT = some tT ∧
        (ref t n).lastE = some th ∧ (ref t n).seen = true ∧ MemKept s t) ∧
    (((nowT u : Int) < tT ∨ tT < (nowT u : Int) - (atLeast1 (rb s (rREF n 0x11C) 0 16) : Int) * 65536000000 ∨
        ∃ p, (ref s n).swT = some p ∧ tT ≤ p) →
      ∃ t, exec (.swrefSample m i tm th k) s = .next t ∧ t.refs = s.refs ∧
        rM t (rREF n 0x120) 2 = min (rM s (rREF n 0x120) 2 + 1) (2 ^ 32 - 1) ∧ MemKept s t))

/-- A valid ZDA sentence or binary time-of-day frame labels the edge that came 10 ms to 900 ms before it, or, with TODLBL =
1, the edge to come; an invalid one of the form in use only counts. An IRIG-B frame of an input without the C37.118.1 control
functions labels the edge to come where none waits (R187, R529, R530). -/
def Obligations.TimeCodesLabelTheEdge : Prop :=
  (∀ (i : Fin 4) (l : List Byte) (v : Nat) (s : State), rbit s (rREF i 0) 7 = false → isZda l = true →
    zdaLabel s l = some v → refOn s i = true →
    (rbit s (rREF i 0) 6 = true → ∃ t, exec (.zdaSentence i l) s = .next t ∧ ref t i = { ref s i with next := some v } ∧
      t = { s with refs := t.refs }) ∧
    (∀ t0 : Int, rbit s (rREF i 0) 6 = false → (ref s i).edge = some t0 → 10000000 * 65536 ≤ (nowT s : Int) - t0 →
      (nowT s : Int) - t0 ≤ 900000000 * 65536 →
      ∃ t, exec (.zdaSentence i l) s = .next t ∧ (ref t i).label = some v ∧ (ref t i).lastT = some t0 ∧
        (ref t i).edge = none ∧ MemKept s t)) ∧
  (∀ (i : Fin 4) (l : List Byte) (s : State), rbit s (rREF i 0) 7 = false → isZda l = true → zdaLabel s l = none →
    ∃ t, exec (.zdaSentence i l) s = .next t ∧ rn t (0x250 + 4 * i) = min (rn s (0x250 + 4 * i) + 1) (2 ^ 32 - 1) ∧
      t.refs = s.refs ∧ MemKept s t) ∧
  (∀ (i : Fin 4) (l : List Byte) (tai : Nat) (off : Int) (fl : Nat) (s : State), rbit s (rREF i 0) 7 = true →
    l.take 2 = [0xC3, 0x3C] → todFrame l = some (tai, off, fl) → fl.testBit 0 = true → bits fl 4 4 ≠ 15 →
    refOn s i = true → rbit s (rREF i 0) 6 = true →
    ∃ t, exec (.binaryTodFrame i l) s = .next t ∧ ref t i = { ref s i with next := some tai } ∧
      t = { s with regs := t.regs, refs := t.refs }) ∧
  (∀ (i : Fin 4) (l : List Byte) (s : State), rbit s (rREF i 0) 7 = true → l.take 2 = [0xC3, 0x3C] → todFrame l = none →
    ∃ t, exec (.binaryTodFrame i l) s = .next t ∧ rn t (0x250 + 4 * i) = min (rn s (0x250 + 4 * i) + 1) (2 ^ 32 - 1) ∧
      t.refs = s.refs ∧ MemKept s t) ∧
  ∀ (k : Fin 2) (f : IrigFrame) (s : State), refOn s (8 + k) = true → rbit s (0x230 + 4 * k) 1 = false →
    (ref s (8 + k)).edge = none →
    ∃ t, exec (.irigInFrame k f) s = .next t ∧
      ref t (8 + k) = { ref s (8 + k) with next := some (taiOf s (irigUtc f) (decide (f.second = 60))).toNat } ∧
      t = { s with refs := t.refs }

/-- LOS sets its level and ends GOOD; the FREQ gate shows the offset, fails the monitor above the window and clears it at
three quarters of it; the qualification timer qualifies a reference that is GOOD and pending; a LOS that has lasted long
enough disqualifies and counts; REQUAL takes a QUALIFIED or pending reference back to pending where it is GOOD and may be
qualified (R468), its timer starting again; QNOW qualifies a GOOD one at once and has no effect on another (R190 to R192).
RESEL ends the wait to restore, CLRHIST discards the word history before the present instant from the holdover average, and
each leaves every other part of the DPLL; the end of the wait judges the selection again: the DPLL has what R194's rules
choose (R194, R195, R217). -/
def Obligations.ReferencesQualifyAndDpllsFollow : Prop :=
  ((∀ (i : RefIx) (s : State), refOn s i = true →
    ∃ t, exec (.refLos i) s = .next t ∧ refBit t i 4 = true ∧ refBit t i 0 = false ∧ (∀ j, j ≠ i.val → ref t j = ref s j) ∧
      t = { s with regs := t.regs, fcol := t.fcol, refs := t.refs }) ∧
  (∀ (i : RefIx) (off : Int) (s : State), refOn s i = true →
    ∃ t, exec (.refFreqGate i off) s = .next t ∧ rM t (rREF i 0x5C) 3 = tw 40 off ∧
      (atLeast1 (rb s (rREF i 0x20) 0 16) * 2 ^ 48 < off.natAbs * 1000000000 → refBit t i 5 = true) ∧
      (off.natAbs * 1000000000 * 4 ≤ 3 * atLeast1 (rb s (rREF i 0x20) 0 16) * 2 ^ 48 → refBit t i 5 = false) ∧
      (∀ j, j ≠ i.val → ref t j = ref s j) ∧ t = { s with regs := t.regs, fcol := t.fcol, refs := t.refs }) ∧
  (∀ (i : RefIx) (s : State), refBit s i 0 = true → refBit s i 2 = true →
    (s.standby = true ∨ (i.val ≠ 10 ∧ i.val ≠ 11)) →
    ∃ t, exec (.refQualTimer i) s = .next t ∧ refBit t i 1 = true ∧ refBit t i 2 = false ∧ refBit t i 0 = true ∧
      qualRem t i = 0 ∧ (∀ o, o ≠ rREF i 4 → rd t o = rd s o) ∧ (∀ j, j ≠ i.val → ref t j = ref s j) ∧
      t = { s with regs := t.regs, refs := t.refs }) ∧
  (∀ (i : RefIx) (s : State), refOn s i = true → refBit s i 4 = true →
    ∃ t, exec (.refDisqTimer i .los) s = .next t ∧ refBit t i 1 = false ∧ refBit t i 2 = (refBit s i 0 && refMayQual s i) ∧
      refBit t i 9 = true ∧ rM t (rREF i 0x6C) 2 = min (rM s (rREF i 0x6C) 2 + 1) (2 ^ 32 - 1) ∧
      (∀ j, j ≠ i.val → ref t j = ref s j) ∧ t = { s with regs := t.regs, fcol := t.fcol, refs := t.refs }) ∧
  (∀ (m : Master) (i : RefIx) (s : State), BusOpen s → (refBit s i 1 = true ∨ refBit s i 2 = true) →
    ∃ t, exec (.requal m i) s = .next t ∧ refBit t i 1 = false ∧ refBit t i 2 = (refBit s i 0 && refMayQual s i) ∧
      (ref t i).qualFrom = (if (refBit s i 0 && refMayQual s i) = true then some s.time.aon else none) ∧
      RegsKept s t [rREF i 4, rREF i 8] ∧ MemKept s t) ∧
  (∀ (m : Master) (i : RefIx) (s : State), BusOpen s → refBit s i 0 = true → (s.standby = true ∨ (i.val ≠ 10 ∧ i.val ≠ 11)) →
    ∃ t, exec (.qnow m i) s = .next t ∧ refBit t i 1 = true ∧ refBit t i 2 = false ∧
      RegsKept s t [rREF i 4, rREF i 8] ∧ MemKept s t) ∧
  ∀ (m : Master) (i : RefIx) (s : State), BusOpen s → refBit s i 0 = false →
    ∃ t, exec (.qnow m i) s = .next t ∧ t.refs = s.refs ∧ RegsKept s t [rREF i 8] ∧ MemKept s t) ∧
  ((∀ (m : Master) (d : DpIx) (s : State), BusOpen s →
    ∃ t, exec (.resel m d) s = .next t ∧ dp t d = { dp s d with waitOver := true } ∧ (∀ j, j ≠ d.val → dp t j = dp s j) ∧
      RegsKept s t [rDP d 8] ∧ MemKept s t) ∧
  (∀ (m : Master) (d : DpIx) (s : State), BusOpen s →
    ∃ t, exec (.clrhist m d) s = .next t ∧ dp t d = { dp s d with hoFrom := some (nowT s : Int) } ∧ (∀ j, j ≠ d.val → dp t j = dp s j) ∧
      RegsKept s t [rDP d 8] ∧ MemKept s t) ∧
  (∀ (d : DpIx) (s : State), (s.coreAwake = false ∨ (dp s d).wait = none) → exec (.wtrExpiry d) s = .next s) ∧
  ∀ (d : DpIx) (s : State), s.coreAwake = true → (dp s d).wait.isSome = true → (dp s d).st ≠ 4 →
    ∃ t, exec (.wtrExpiry d) s = .next t ∧
      (dp t d).sel = (dpChoose (setDp s d { dp s d with waitOver := true }) d).1 ∧
      (∀ j, j ≠ d.val → dp t j = dp s j) ∧ MemKept s t)

/-- The end of an interval starts the next one at the present instant, good where LEARN is 1; an interval that was not good,
or that ends with LEARN = 0, gives no sample; while the core domain sleeps nothing happens. In holdover E(t) goes on by
R210's formula, the distance of θ from SCR_TREF added to its integral; without holdover only the temperature shows. CLEAR
forgets samples and coefficients (R207, R210, R211). -/
def Obligations.ScreedKeepsItsIntervals : Prop :=
  (∀ (th : Int) (s : State), s.coreAwake = false → exec (.screedSample th) s = .next s ∧
    exec (.screedTeUpdate th) s = .next s) ∧
  (∀ (th : Int) (s : State), s.coreAwake = true →
    ∃ t, exec (.screedSample th) s = .next t ∧ t.scr.from_ = nowT s ∧ t.scr.good = rbit s (rSCR 0) 0 ∧ MemKept s t ∧
      ((s.scr.good = false ∨ rbit s (rSCR 0) 0 = false) →
        t = { s with scr := { s.scr with from_ := nowT s, good := rbit s (rSCR 0) 0 } })) ∧
  (∀ (th : Int) (s : State), s.coreAwake = true → s.scr.entry = none →
    ∃ t, exec (.screedTeUpdate th) s = .next t ∧ rn t (rSCR 0x30) = tw 16 th ∧
      (∀ o, o ≠ rSCR 0x30 → rd t o = rd s o) ∧
      t = { s with regs := t.regs, scr := { s.scr with temps := ((nowT s : Int), sx 16 (tw 16 th)) :: s.scr.temps } }) ∧
  (∀ (th t0 : Int) (s : State), s.coreAwake = true → s.scr.entry = some t0 →
    let dt : Rat := (((nowT s : Int) - t0 : Int) : Rat) / (secTicks : Rat)
    ∃ t, exec (.screedTeUpdate th) s = .next t ∧ rn t (rSCR 0x30) = tw 16 th ∧
      t.scr.area = s.scr.area + ((th - sx 16 (rn s (rSCR 0x34) % 65536)).natAbs : Rat) / 256 ∧
      rn t (rSCR 0x40) = min (rfloor (s.scr.e0 + 10 ^ 12 * (s.scr.sf * dt + s.scr.sa * dt ^ 2 / 2 +
        s.scr.sT * t.scr.area))).toNat (2 ^ 32 - 1) ∧
      RegsKept s t [rSCR 0x30, rSCR 0x40] ∧ MemKept s t) ∧
  ∀ (m : Master) (s : State), BusOpen s →
    ∃ t, exec (.screedClear m) s = .next t ∧ t.scr.samples = [] ∧ t.scr.tref = 0 ∧ rL t (rSCR 0x10) 2 = 0 ∧
      rL t (rSCR 0x18) 2 = 0 ∧ rL t (rSCR 0x20) 2 = 0 ∧ rL t (rSCR 0x28) 2 = 0 ∧ rn t (rSCR 8) = 0 ∧ MemKept s t

/-! ## Port timestamping and corrections -/

/-- An EVENT that a lane takes occupies one slot of its pool and, with TAPF, waits there for its TAP; without TAPF it is
whole at once. With its pool full, or on a lane that holds block lock and takes no messages, it is discarded and counted
(R222, R225, R229, R233). The TAP of the EVENT that waits for it closes the slot; after a discarded EVENT its TAP goes too; a
TAP for which no EVENT waits is a bad block (R221, R225). -/
def Obligations.EventsAndTapsPairUp : Prop :=
  (∀ (l : LaneIx) (e : EventMsg) (k : CycIx) (s : State), (lane s l).el = true →
    (∀ y ∈ (lane s l).slots, y.open_ = false) →
    (laneTakes s l = true → slotsIn (lane s l) e.reserve < (if e.reserve then 8 else 24) →
      ∃ t, exec (.event l e k) s = .next t ∧ (lane t l).slots.length = (lane s l).slots.length + 1 ∧
        (e.tapf = true → MemKept s t ∧ ∃ y, (lane t l).slots = (lane s l).slots ++ [y] ∧ y.ev = e ∧ y.tap = none ∧ y.open_ = true ∧
          y.arrival = nowT (atCyc s k)) ∧
        (e.tapf = false → ∀ y ∈ (lane t l).slots, y.open_ = false)) ∧
    (laneTakes s l = true → (if e.reserve then 8 else 24) ≤ slotsIn (lane s l) e.reserve →
      ∃ t, exec (.event l e k) s = .next t ∧ (lane t l).slots = (lane s l).slots ∧ (lane t l).dropTap = e.tapf ∧
        rn t (rEL l 0x14) = min (rn s (rEL l 0x14) + 1) (2 ^ 32 - 1) ∧ MemKept s t) ∧
    (laneTakes s l = false →
      ∃ t, exec (.event l e k) s = .next t ∧ (lane t l).slots = (lane s l).slots ∧
        rn t (rEL l 0x14) = min (rn s (rEL l 0x14) + 1) (2 ^ 32 - 1) ∧ MemKept s t)) ∧
  (∀ (l : LaneIx) (m : TapMsg) (k : CycIx) (s : State), laneTakes s l = true → (lane s l).el = true →
    (∀ y, (lane s l).dropTap = false → (lane s l).slots.find? (·.open_) = some y → y.ev.pil = m.pil → y.ev.tag = m.tag →
      y.ev.gen = m.gen →
      ∃ t, exec (.tap l m k) s = .next t ∧ (lane t l).slots.length = (lane s l).slots.length ∧
        ∀ z ∈ (lane t l).slots, z.open_ = false) ∧
    ((lane s l).dropTap = true →
      ∃ t, exec (.tap l m k) s = .next t ∧ (lane t l).slots = (lane s l).slots ∧ (lane t l).dropTap = false ∧
        MemKept s t) ∧
    ((lane s l).dropTap = false → (∀ y ∈ (lane s l).slots, y.open_ = false) →
      ∃ t, exec (.tap l m k) s = .next t ∧ (lane t l).slots = (lane s l).slots ∧
        rn t (rEL l 0x18) = min (rn s (rEL l 0x18) + 1) (2 ^ 32 - 1) ∧ MemKept s t))

/-- A BEACON shows its LINK bit in the port's status; one whose phase code is not valid ends the samples of the recovered
frequency; a lane without lock, or fenced, takes none (R226, R233, R242, R247). An ABORT of a held pair retires its ingress
entry and keeps ABORTED as the pair's reason for 1 ms after its SFD; of a pair that is not held it counts as a bad block. An
entry retires by age as well; without an entry, and while the core domain sleeps (log entry 193), nothing happens (R227,
R249, R254, R255). -/
def Obligations.BeaconsAbortsAndAgeActOnPorts : Prop :=
  (∀ (l : LaneIx) (b : BeaconMsg) (k : CycIx) (s : State), (∀ y ∈ (lane s l).slots, y.open_ = false) →
    ((lane s l).el = true → elFenced s l = false →
      ∃ t, exec (.beacon l b k) s = .next t ∧ rbit t (rPORT (8 * l + b.pil) 4) 0 = b.link ∧ MemKept s t ∧
        (b.pivalid = false → s.fcol.safe = false →
          (port t (8 * l + b.pil)).samples = [] ∧ (port t (8 * l + b.pil)).rot = none)) ∧
    (((lane s l).el = false ∨ elFenced s l = true) → (lane s l).dropTap = false →
      exec (.beacon l b k) s = .next { s with cyc := max s.cyc k.val })) ∧
  ((∀ (l : LaneIx) (pil : Fin 8) (tag : BitVec 16) (g : Bool) (k : CycIx) (s : State) (i : Ing),
    (∀ y ∈ (lane s l).slots, y.open_ = false) → (lane s l).el = true → elFenced s l = false →
    ingOf s tag.toNat g = some i → (nowT (atCyc s k) : Int) ≤ i.sfd + 65536000000 →
    ∃ t, exec (.abort l pil tag g k) s = .next t ∧ ingOf t tag.toNat g = none ∧ goneWhy t tag.toNat g = some 6 ∧
      (s.owed = [] → (∀ n < 16, ringFill (ring s n) = 0) → (i.action.testBit 10 = false ∨ s.standby = true) →
        MemKept s t)) ∧
  (∀ (l : LaneIx) (pil : Fin 8) (tag : BitVec 16) (g : Bool) (k : CycIx) (s : State),
    (∀ y ∈ (lane s l).slots, y.open_ = false) → (lane s l).el = true → elFenced s l = false →
    ingOf s tag.toNat g = none →
    ∃ t, exec (.abort l pil tag g k) s = .next t ∧ t.ingress = s.ingress ∧
      rn t (rEL l 0x18) = min (rn s (rEL l 0x18) + 1) (2 ^ 32 - 1) ∧ RegsKept s t [rEL l 0x18] ∧ MemKept s t) ∧
  (∀ (tag : BitVec 16) (g : Bool) (k : CycIx) (s : State) (i : Ing), s.coreAwake = true → ingOf s tag.toNat g = some i →
    ∃ t, exec (.ingressAgeRetire tag g k) s = .next t ∧ ingOf t tag.toNat g = none ∧
      (∀ (b : Nat) (c : Bool), (b ≠ tag.toNat ∨ c ≠ g) → ingOf t b c = ingOf s b c) ∧
      (s.owed = [] → (i.action.testBit 10 = false ∨ s.fcol.safe = true ∨ s.standby = true) → MemKept s t)) ∧
  ∀ (tag : BitVec 16) (g : Bool) (k : CycIx) (s : State),
    (s.coreAwake = true → ingOf s tag.toNat g = none →
      exec (.ingressAgeRetire tag g k) s = .next { s with cyc := max s.cyc k.val }) ∧
    (s.coreAwake = false → exec (.ingressAgeRetire tag g k) s = .next s))

/-- The credit link comes up with empty slots, the STOPs that a reset left due, an INIT of 24 and 8 and a marker, on a pair
that holds lock both ways and is not fenced (R352). A marker carries the next number; its echo makes the link ready, and
fails the audit unless free, occupied and returned slots make 24 and 8; an echo that does not come fails it too (R230, R231,
R233). A bad block of a lane that holds lock and is not fenced counts. A slot that is done is freed and returns its credit to
its pool. A loss of lock takes the credit link down and raises LANE_DOWN (R221, R230, R231, R233, R261). -/
def Obligations.LanesKeepTheirCredit : Prop :=
  ((∀ (l : LaneIx) (s : State), (lane s l).el = true → (lane s l).cl = true → (lane s l).up = false →
    elFenced s l = false → clFenced s l = false →
    let stops := if s.standby then [] else s.cal.stops.filter (fun p => decide (p / 8 = l.val))
    ∃ t, exec (.creditLinkUp l) s = .next t ∧ lane t l = { lane s l with
        up := true, ready := false, slots := [], dropTap := false, marker := some ((lane s l).nextN, 0, 0),
        nextN := ((lane s l).nextN + 1) % 256 } ∧
      t.out = .cl l [0x72, BitVec.ofNat 8 (lane s l).nextN, 0, 0, 0, 0, 0, 0] :: .cl l [0x71, 1, 24, 8, 0, 0, 0, 0] ::
        (stops.reverse.map (fun p => .cl l [0x73, BitVec.ofNat 8 (p % 8), 2, 0, 0, 0, 0, 0]) ++ s.out) ∧
      t.cal.stops = (if s.standby then s.cal.stops else s.cal.stops.filter (fun p => decide (p / 8 ≠ l.val))) ∧
      (∀ j, j ≠ l.val → lane t j = lane s j) ∧
      t = { s with lanes := t.lanes, out := t.out, cal := { s.cal with stops := t.cal.stops } }) ∧
  (∀ (l : LaneIx) (s : State), (lane s l).up = true →
    ∃ t, exec (.creditSyncMarker l) s = .next t ∧ lane t l = { lane s l with
        marker := some ((lane s l).nextN, 0, 0), nextN := ((lane s l).nextN + 1) % 256 } ∧
      t = { s with lanes := t.lanes, out := t.out }) ∧
  (∀ (l : LaneIx) (s : State), (lane s l).up = false → exec (.creditSyncMarker l) s = .next s) ∧
  (∀ (l : LaneIx) (n : BitVec 8) (fg fr m rg rr : Nat) (s : State), (∀ y ∈ (lane s l).slots, y.open_ = false) →
    (lane s l).marker = some (m, rg, rr) →
    ∃ t, exec (.creditSyncEcho l n fg fr) s = .next t ∧ (lane t l).marker = none ∧ (lane t l).ready = (lane s l).up ∧
      rn t (rEL l 0x0C) = min (rn s (rEL l 0x0C) + 1) (2 ^ 32 - 1) ∧ MemKept s t ∧
      (n.toNat = m → fg + slotsIn (lane s l) false + rg = 24 → fr + slotsIn (lane s l) true + rr = 8 →
        RegsKept s t [rEL l 0x0C]) ∧
      ((n.toNat ≠ m ∨ fg + slotsIn (lane s l) false + rg ≠ 24 ∨ fr + slotsIn (lane s l) true + rr ≠ 8) →
        rbit t (rEL l 4) 3 = true ∧ rn t (rEL l 0x10) = min (rn s (rEL l 0x10) + 1) (2 ^ 32 - 1))) ∧
  (∀ (l : LaneIx) (n : BitVec 8) (fg fr : Nat) (s : State), (∀ y ∈ (lane s l).slots, y.open_ = false) →
    (lane s l).dropTap = false → (lane s l).marker = none → exec (.creditSyncEcho l n fg fr) s = .next s) ∧
  ∀ (l : LaneIx) (s : State), (lane s l).marker.isSome = true →
    ∃ t, exec (.creditAuditTimeout l) s = .next t ∧ (lane t l).marker = none ∧ rbit t (rEL l 4) 3 = true ∧
      rn t (rEL l 0x10) = min (rn s (rEL l 0x10) + 1) (2 ^ 32 - 1) ∧ MemKept s t) ∧
  ((∀ (l : LaneIx) (s : State), (lane s l).el = true → elFenced s l = false → (∀ y ∈ (lane s l).slots, y.open_ = false) →
    (lane s l).dropTap = false →
    ∃ t, exec (.badBlock l) s = .next t ∧ rn t (rEL l 0x18) = min (rn s (rEL l 0x18) + 1) (2 ^ 32 - 1) ∧
      t.lanes = s.lanes ∧ RegsKept s t [rEL l 0x18] ∧ MemKept s t) ∧
  (∀ (l : LaneIx) (tag : BitVec 16) (g : Bool) (y : ESlot) (s : State),
    (lane s l).slots.find? (slotDone tag.toNat g) = some y →
    ∃ t, exec (.slotFree l tag g) s = .next t ∧ (lane t l).slots = (lane s l).slots.erase y ∧
      ((lane s l).up = true → (lane s l).cl = true → clFenced s l = false →
        t.out = .cl l [0x71, 0, BitVec.ofNat 8 (b2n (!y.ev.reserve)), BitVec.ofNat 8 (b2n y.ev.reserve), 0, 0, 0, 0] ::
          s.out) ∧
      (∀ j, j ≠ l.val → lane t j = lane s j) ∧ t = { s with lanes := t.lanes, out := t.out }) ∧
  (∀ (l : LaneIx) (tag : BitVec 16) (g : Bool) (s : State), (lane s l).slots.find? (slotDone tag.toNat g) = none →
    exec (.slotFree l tag g) s = .next s) ∧
  ∀ (l : LaneIx) (c : Bool) (s : State), (if c then (lane s l).cl else (lane s l).el) = true →
    queueFull s (if c then srcCl l else srcEl l) = false →
    ∃ t, exec (.laneDown l c) s = .next t ∧ (if c then (lane t l).cl else (lane t l).el) = false ∧
      (lane t l).up = false ∧ (lane t l).ready = false ∧ (lane t l).marker = none ∧
      (∀ j, j ≠ l.val → lane t j = lane s j) ∧ t.fcol = (enqueue s (mkReport s (if c then srcCl l else srcEl l) kLaneDown
        (if c then rCL l 4 else rEL l 4) 0 0 false)).fcol ∧ t = { s with lanes := t.lanes, fcol := t.fcol })

/-- A class-0 correction whose two stamps converted, on ports that convert counts, and whose entry is OK goes out on the
lane's CL as one word with OK and the value transmit less receive time; where the correction lane is down, fenced or paused
it is dropped and counted; in SAFE none is formed. Stated where no DELIVERY record waits for it. The wait of the one
correction of a pair that waits on a lane ends with NO_INGRESS; without one nothing happens (R250 to R253, R257, R258). -/
def Obligations.CorrectionIsFormedAndSent : Prop :=
  (∀ (l : LaneIx) (tag : BitVec 16) (g : Bool) (ns : Nat) (c : Corr) (i : Ing) (o a : Int) (s : State),
    corrOf s l tag.toNat g = some c → s.fcol.safe = false → s.owed = [] → c.ev.cls ≠ 1 → c.ing = some i → i.verdict = 0 →
    c.stamp.off = false → i.stamp.off = false → c.stamp.t = some o → i.stamp.t = some a →
    rbit s (rPORT i.port 0) 1 = false →
    ((lane s l).cl = true → clFenced s l = false → s.corrPause = false → ns ≤ 480 → softWrote s 0x508008 = false →
      ∃ t, exec (.correction l tag g ns) s = .next t ∧ (lane t l).corrs = (lane s l).corrs.erase c ∧
        t.out = .cl l (corrWord c 0 (o - a) (c.stamp.flags.testBit 0 || i.stamp.flags.testBit 0)) :: s.out ∧
        rn t (rCL l 8) = min (rn s (rCL l 8) + 1) (2 ^ 32 - 1) ∧ RegsKept s t [rCL l 8, 0x508008] ∧ MemKept s t) ∧
    (((lane s l).cl = false ∨ clFenced s l = true ∨ s.corrPause = true) →
      ∃ t, exec (.correction l tag g ns) s = .next t ∧ (lane t l).corrs = (lane s l).corrs.erase c ∧ t.out = s.out ∧
        rn t (rCL l 0x0C) = min (rn s (rCL l 0x0C) + 1) (2 ^ 32 - 1) ∧ RegsKept s t [rCL l 0x0C] ∧ MemKept s t)) ∧
  (∀ (l : LaneIx) (tag : BitVec 16) (g : Bool) (ns : Nat) (c : Corr) (s : State), corrOf s l tag.toNat g = some c →
    s.fcol.safe = true → s.owed = [] →
    ∃ t, exec (.correction l tag g ns) s = .next t ∧ (lane t l).corrs = (lane s l).corrs.erase c ∧
      t = { s with lanes := t.lanes }) ∧
  (∀ (l : LaneIx) (tag : BitVec 16) (g : Bool) (c : Corr) (u v : List Corr) (s : State),
    let waits (c : Corr) : Prop := c.wait = true ∧ c.ev.tag = tag ∧ c.ev.gen = g
    s.coreAwake = true → (lane s l).corrs = u ++ c :: v → waits c → (∀ d ∈ u ++ v, ¬ waits d) →
    ∃ t, exec (.pairWaitExpiry l tag g) s = .next t ∧
      (lane t l).corrs = u ++ { c with wait := false, why := 1 } :: v ∧
      (∀ j, j ≠ l.val → lane t j = lane s j) ∧ t = { s with lanes := t.lanes }) ∧
  ∀ (l : LaneIx) (tag : BitVec 16) (g : Bool) (s : State),
    (s.coreAwake = false ∨ ∀ d ∈ (lane s l).corrs, ¬ (d.wait = true ∧ d.ev.tag = tag ∧ d.ev.gen = g)) →
    exec (.pairWaitExpiry l tag g) s = .next s

/-- The previous numbering of a driven output ends. RESYNC ends COUNT_LOST and the run of unresolved beacons and cycles a
driver that drives; a write of PORT_FOD names the output and sets COUNT_LOST. A calibration that is stopped for want of
frames is rejected as CAL_IMPLAUSIBLE; one whose mean lies within the limit is accepted with L in PORT_LOOP (R223, R224, R242
to R246). -/
def Obligations.PortCommandsAndCalibration : Prop :=
  (∀ (f : FodIx) (s : State), s.coreAwake = true → (fod s f).driving = true →
    ∃ t, exec (.prevNumberingExpiry f) s = .next t ∧ fod t f = { fod s f with prev := none } ∧
      (∀ g, g ≠ f.val → fod t g = fod s g) ∧ t = { s with fods := t.fods }) ∧
  (∀ (m : Master) (p : PortIx) (k : CycIx) (s : State), BusOpen s →
    ∃ t, exec (.resync m p k) s = .next t ∧ rbit t (rPORT p 4) 4 = false ∧ port t p = { port s p with run := 0 } ∧
      ((fod s (portFod s p)).driving = true →
        fod t (portFod s p) = { fod s (portFod s p) with cycleDrv := true }) ∧
      RegsKept s t [rPORT p 4, rPORT p 8] ∧ MemKept s t) ∧
  (∀ (m : Master) (p : PortIx) (f : FodIx) (k : CycIx) (s : State), BusOpen s →
    ∃ t, exec (.portFodWrite m p f k) s = .next t ∧ portFod t p = f.val ∧ rbit t (rPORT p 4) 4 = true ∧
      fod t f = { fod s f with slowDue := none } ∧ (∀ g, g ≠ f.val → fod t g = fod s g) ∧ MemKept s t) ∧
  (∀ (p : PortIx) (k : CycIx) (c : PortCal) (s : State), (port s p).cal = some c → (∀ q ∈ s.cal.turns, q < 128) →
    calMean c = none →
    ∃ t, exec (.calStopTimeout p k) s = .next t ∧ (port t p).cal = none ∧ (port t p).calDone = some (false, none) ∧
      rbit t (rPORT p 4) 10 = true ∧ rbit t (rPORT p 4) 3 = false ∧ RegsKept s t [rPORT p 4] ∧ MemKept s t) ∧
  ∀ (p : PortIx) (k : CycIx) (c : PortCal) (q : Rat) (s : State), (port s p).cal = some c →
    (∀ q ∈ s.cal.turns, q < 128) → calMean c = some q →
    (rM s (rPORT p 0x30) 2 : Rat) - (rM s (rPORT p 0x38) 2 : Rat) ≤ q →
    q ≤ (rM s (rPORT p 0x30) 2 : Rat) + (rM s (rPORT p 0x38) 2 : Rat) →
    ∃ t, exec (.calStopTimeout p k) s = .next t ∧ (port t p).cal = none ∧
      (port t p).calDone = some (true, some (rfloor q)) ∧ rM t (rPORT p 0x50) 2 = tw 32 (rfloor q) ∧
      rbit t (rPORT p 4) 1 = true ∧ rbit t (rPORT p 4) 3 = false ∧ MemKept s t

/-! ## The classifier and the rings -/

/-- ECAM_LOOKUP takes the oldest waiting slot of the pair, a class-0 ingress tap before its others, where it is the next to
be looked up (R270: a class-0 ingress tap, or the oldest of its lane while no class-0 ingress tap waits): it waits no longer,
the lookup is counted, a hit counts at the lowest matching entry and a miss as a miss (R268, R270, R274); a lookup whose
action asks for no record changes no ring and no memory, one whose action asks for a record of an event that is no
calibration's, outside SAFE and standby, is ADMITTED at the ring that group and flow hash give (R277, R279), and every ring
keeps R284's identity, whatever becomes of the record. A pair with no waiting slot, or with one that is not the next: nothing
happens but the passing of the cycles. -/
def Obligations.LookupCountsAndKeepsTheRings : Prop :=
  ∀ (l : LaneIx) (tag : BitVec 16) (g : Bool) (k : CycIx) (s : State),
    let oldest := ((lane s l.val).slots.find? (fun y => slotWaits tag.toNat g y && slotFirst y)).orElse
      (fun _ => (lane s l.val).slots.find? (slotWaits tag.toNat g))
    ((∀ y, oldest = some y → slotNext s l.val y = false) →
      exec (.ecamLookup l tag g k) s = .next (atCyc s k)) ∧
    ∀ (y : ESlot) (hit : Option Nat), oldest = some y →
      slotNext s l.val y = true →
      hit = ecamFind s (keyWords y.ev (8 * l.val + y.ev.pil.val) (slotParse y.ev y.tap)) y.gen →
      ∃ t, exec (.ecamLookup l tag g k) s = .next t ∧
        (lane t l.val).slots = (lane s l.val).slots.map (fun w => if w = y then { w with waits := false } else w) ∧
        rn t 0x600020 = min (rn s 0x600020 + 1) (2 ^ 32 - 1) ∧
        (hit = none → rn t 0x600024 = min (rn s 0x600024 + 1) (2 ^ 32 - 1)) ∧
        (∀ e, hit = some e → rn t (rENT e 0x58) = min (rn s (rENT e 0x58) + 1) (2 ^ 32 - 1) ∧
          rn t 0x600024 = rn s 0x600024) ∧
        (ecamDraining s = false → y.gen ≠ ecamActive s → rn t 0x600030 = min (rn s 0x600030 + 1) (2 ^ 32 - 1)) ∧
        (∀ n, ringConserved (ring s n) → ringConserved (ring t n)) ∧
        ((ecamAction s hit).testBit 9 = true → y.ev.cal = false → s.fcol.safe = false → s.standby = false →
          ∀ r, r = ringOf s (bits (ecamAction s hit) 5 4) (flowHash s (slotParse y.ev y.tap)) →
            (ring t r).admitted = ((ring s r).admitted + 1) % 2 ^ 64) ∧
        ((ecamAction s hit).testBit 9 = false → t.rings = s.rings ∧ MemKept s t ∧
          RegsKept s t (match hit with
            | none => [0x600020, 0x600024, 0x600030]
            | some e => [0x600020, 0x600030, rENT e 0x58]))

/-- The classifier's other commands. A word of an ECAM entry that is not VALID takes what is written, but for its reserved
bits (R22, R290); while the entry is VALID, all its words keep what they hold and RULE_LIVE is raised, but for a write that
clears VALID while GEN is neither active nor draining (R271). SWITCH inverts ACTIVE and sets DRAINING, or raises GEN_BUSY
while a drain runs; a drain ends when the old generation has nothing in flight (R273), and a DRAIN_COMPLETE at which it has,
or with no drain running, changes nothing. A parity error clears VALID and sets PARITY, and a software write of the same
cycle counts as REJECTED (R288); the signatures are recomputed (R290). -/
def Obligations.ClassifierRulesAndGenerations : Prop :=
  (∀ (m : Master) (e : Fin 512) (w : Fin 22) (v : Word) (s : State), BusOpen s →
    (w.val ≠ 21 → rbit s (rENT e.val 0x54) 0 = false →
      ∃ t, exec (.ecamEntryWrite m e w v) s = .next t ∧
        (∀ k, k = [0x3FFFFFFF, 0x7FFFFFFF, 0xFFFF0FFF, 0xFFFFFFFF, 0xFFFF3FFF, 0xFFFFFFFF, 0xFFFFFFFF, 0xFFFFFFFF, 0xFFFFFFFF, 0xFF,
            0x3FFFFFFF, 0x7FFFFFFF, 0xFFFF0FFF, 0xFFFFFFFF, 0xFFFF3FFF, 0xFFFFFFFF, 0xFFFFFFFF, 0xFFFFFFFF, 0xFFFFFFFF, 0xFF,
            0x1FFF].getD w.val 0 →
          rn t (rENT e.val (4 * w.val)) = clr (rn s (rENT e.val (4 * w.val))) k ||| (v.toNat &&& k)) ∧
        RegsKept s t [rENT e.val (4 * w.val)] ∧ MemKept s t) ∧
    (w.val = 21 → (rbit s (rENT e.val 0x54) 0 = false ∨
      (v.getLsbD 0 = false ∧ rb s (rENT e.val 0x54) 1 1 ≠ ecamActive s ∧ ecamDraining s = false)) →
      ∃ t, exec (.ecamEntryWrite m e w v) s = .next t ∧ rb t (rENT e.val 0x54) 0 2 = v.toNat % 4 ∧
        rbit t (rENT e.val 0x54) 2 = (rbit s (rENT e.val 0x54) 2 && !v.getLsbD 2) ∧
        RegsKept s t [rENT e.val 0x54] ∧ MemKept s t) ∧
    (rbit s (rENT e.val 0x54) 0 = true →
      (w.val = 21 → v.getLsbD 0 = true ∨ rb s (rENT e.val 0x54) 1 1 = ecamActive s ∨ ecamDraining s = true) →
      queueFull s 0xB8 = false →
      ∃ t, exec (.ecamEntryWrite m e w v) s = .next t ∧ RegsKept s t [] ∧ MemKept s t ∧
        t.fcol = (enqueue s (mkReport s 0xB8 0x01 (rENT e.val (4 * w.val)) m.val 2 false)).fcol)) ∧
  (∀ (m : Master) (s : State), BusOpen s →
    (ecamDraining s = false →
      ∃ t, exec (.genSwitch m) s = .next t ∧ ecamActive t = 1 - ecamActive s ∧ ecamDraining t = true ∧
        RegsKept s t [0x600004] ∧ MemKept s t) ∧
    (ecamDraining s = true → queueFull s 0xB8 = false →
      ∃ t, exec (.genSwitch m) s = .next t ∧ RegsKept s t [] ∧ MemKept s t ∧
        t.fcol = (enqueue s (mkReport s 0xB8 0x02 0x600004 m.val 2 false)).fcol)) ∧
  (∀ s : State,
    (s.coreAwake = true → ecamDraining s = true → inFlightOf s (1 - ecamActive s) = 0 →
      ∃ t, exec .drainComplete s = .next t ∧ ecamDraining t = false ∧ rbit t 0x600004 8 = true ∧
        ecamActive t = ecamActive s ∧ (∀ o, o ≠ 0x600004 → rd t o = rd s o) ∧ t = { s with regs := t.regs }) ∧
    (s.coreAwake = false ∨ ecamDraining s = false ∨ inFlightOf s (1 - ecamActive s) ≠ 0 → exec .drainComplete s = .next s)) ∧
  (∀ (e : Fin 512) (s : State), s.coreAwake = true → queueFull s 0xB8 = false →
    ∃ t, exec (.parity e) s = .next t ∧ rbit t (rENT e.val 0x54) 0 = false ∧ rbit t (rENT e.val 0x54) 2 = true ∧
      (∀ o, faultReg o = false → o ≠ rENT e.val 0x54 → o ≠ 0x600034 → rd t o = rd s o) ∧
      rn t 0x600034 = (if softWrote s (rENT e.val 0x54) then min (rn s 0x600034 + 1) (2 ^ 32 - 1) else rn s 0x600034) ∧
      (softWrote s (rENT e.val 0x54) = false →
        t = { enqueue s (mkReport s 0xB8 0x03 (rENT e.val 0x54) 0 0 false) with regs := t.regs })) ∧
  ∀ s : State, s.coreAwake = true → ∃ t, exec .ecamSigUpdate s = .next t ∧ rn t 0x600014 = ecamSig s 0 % 2 ^ 32 ∧
    rn t 0x600018 = ecamSig s 1 % 2 ^ 32 ∧ (∀ o, o ≠ 0x600014 → o ≠ 0x600018 → rd t o = rd s o) ∧ t = { s with regs := t.regs }

/-- The commands of the rings. A disabled ring takes a RING_CFG that leaves it disabled or that R276 accepts, and stays
disabled with RING_CONFIG where R276 does not; an enabled ring keeps its geometry whatever the write holds, with RING_CONFIG
where the write would change it (R276). FLUSH acts on a disabled ring alone, whose occupied slots it passes, and voids where
they are no more than its records in flight (R286). RING_RD advances within the fill, each non-void slot counting as
DELIVERED, and no more of them than the ring has records in flight; a write that would move it back or past RING_WR moves
nothing, sets PTR_REJ and raises RING_PTR (R284, R285). A microsecond's tokens stop at the burst (R279). An uncorrectable
error is counted and reported with its slot, whose record is void after it where a ring has it in flight (R287). -/
def Obligations.RingCommandsActOnTheirRing : Prop :=
  (∀ (m : Master) (n : RingIx) (v : Word) (new : Nat) (s : State), BusOpen s → v.getLsbD 2 = false →
    new = clr (rn s (rRING n.val 0)) 0xFFFF00F3 ||| (v.toNat &&& 0xFFFF00F3) →
    (ring s n.val).overTh = decide (rb s (rRING n.val 0x2C) 0 17 ≤ ringFill (ring s n.val)) → queueFull s 0xB9 = false →
    ∃ t, exec (.ringCfgWrite m n v) s = .next t ∧ t.rings = s.rings ∧ MemKept s t ∧
      RegsKept s t [rRING n.val 0, rSEAL 4, rSEAL 0x18] ∧
      (rbit s (rRING n.val 0) 0 = false → (v.getLsbD 0 = false ∨ ringCfgOk (wr s (rRING n.val 0) new) n.val = true) →
        rn t (rRING n.val 0) = new) ∧
      (rbit s (rRING n.val 0) 0 = false → v.getLsbD 0 = true → ringCfgOk (wr s (rRING n.val 0) new) n.val = false →
        rn t (rRING n.val 0) = clr new 1) ∧
      (rbit s (rRING n.val 0) 0 = true →
        rn t (rRING n.val 0) = clr new 0xFFFF00F0 ||| (rn s (rRING n.val 0) &&& 0xFFFF00F0)) ∧
      (s.seal_.passOn = false →
        (rbit s (rRING n.val 0) 0 = false ∧ v.getLsbD 0 = true ∧ ringCfgOk (wr s (rRING n.val 0) new) n.val = false) ∨
          (rbit s (rRING n.val 0) 0 = true ∧ new &&& 0xFFFF00F0 ≠ rn s (rRING n.val 0) &&& 0xFFFF00F0) →
        t.fcol = (enqueue s (mkReport s 0xB9 0x02 (rRING n.val 0) m.val 2 false)).fcol)) ∧
  (∀ (m : Master) (n : RingIx) (s : State), BusOpen s →
    (rbit s (rRING n.val 0) 0 = false →
      ∃ t, exec (.flush m n) s = .next t ∧ (ring t n.val).rd = (ring s n.val).wr ∧ (ring t n.val).wr = (ring s n.val).wr ∧
        (∀ k, k ≠ n.val → ring t k = ring s k) ∧
        (((List.range (ringFill (ring s n.val))).filter (fun i =>
            decide (slotType s (ringSlot s n.val ((ring s n.val).rd + i)) ≠ 0))).length ≤ (ring s n.val).inFlight →
          ∀ i < ringFill (ring s n.val), slotType t (ringSlot s n.val ((ring s n.val).rd + i)) = 0)) ∧
    (rbit s (rRING n.val 0) 0 = true →
      ∃ t, exec (.flush m n) s = .next t ∧ MemKept s t ∧ (ring t n.val).rd = (ring s n.val).rd ∧
        (ring t n.val).wr = (ring s n.val).wr ∧ (ring t n.val).abandoned = (ring s n.val).abandoned ∧
        ∀ k, k ≠ n.val → ring t k = ring s k)) ∧
  (∀ (m : Master) (n : RingIx) (v : Word) (d : Nat) (s : State), BusOpen s →
    d = (v.toNat + 2 ^ 32 - (ring s n.val).rd) % 2 ^ 32 →
    (d ≤ ringFill (ring s n.val) →
      ∃ t, exec (.ringRdWrite m n v) s = .next t ∧ (ring t n.val).wr = (ring s n.val).wr ∧
        ((ring s n.val).rd < 2 ^ 32 → (ring t n.val).rd = v.toNat) ∧
        (ring t n.val).delivered % 2 ^ 64 = ((ring s n.val).delivered +
          min ((List.range d).filter (fun i => decide (slotType s (ringSlot s n.val ((ring s n.val).rd + i)) ≠ 0))).length
            (ring s n.val).inFlight) % 2 ^ 64 ∧
        (∀ k, k ≠ n.val → ring t k = ring s k) ∧ MemKept s t) ∧
    (ringFill (ring s n.val) < d → queueFull s 0xB9 = false →
      ∃ t, exec (.ringRdWrite m n v) s = .next t ∧ t.rings = s.rings ∧ MemKept s t ∧ rbit t (rRING n.val 4) 10 = true ∧
        RegsKept s t [rRING n.val 4] ∧
        t.fcol = (enqueue s (mkReport s 0xB9 0x03 (rRING n.val 0x0C) m.val 2 false)).fcol)) ∧
  (∀ (n : RingIx) (s : State),
    (s.coreAwake = true → rbit s (rRING n.val 0) 1 = true →
      ∃ t, exec (.tokenRefill n) s = .next t ∧ t = setRing s n.val { ring s n.val with
        tokens := min ((ring s n.val).tokens + rn s (rRING n.val 0x20)) (max 1 (rb s (rRING n.val 0x24) 0 17) * 65536) }) ∧
    (s.coreAwake = false ∨ rbit s (rRING n.val 0) 1 = false → exec (.tokenRefill n) s = .next s)) ∧
  ∀ (slot : Fin 65536) (s : State), queueFull s 0xB9 = false →
    ∃ t, exec (.eccUncorr slot) s = .next t ∧ rn t 0x70804C = min (rn s 0x70804C + 1) (2 ^ 32 - 1) ∧
      RegsKept s t [0x70804C] ∧ (∀ a, a ≠ 0x80 * slot.val → mb t a = mb s a) ∧
      (∀ n < 16, ringHits s n slot.val ≠ [] → (ring s n).inFlight ≠ 0 → slotType t slot.val = 0) ∧
      (rn s 0x70804C + 1 < 2 ^ 32 - 1 → t.fcol = (enqueue s (mkReport s 0xB9 0x01 slot.val 0 0 false)).fcol)

/-! ## The Oarva cores -/

/-- An instruction word that spells a well-formed instruction spells that instruction and no other: decoding what the formats
of chapter 11 give for it gives it back, with every operand at every value (R321, R322, R327 to R339). -/
def Obligations.OarvaWordsDecodeToTheirInstruction : Prop :=
  ∀ i : OInstr, i.wf = true → oarvaDecode (oarvaEncode i) = some i

/-- A core that issues an instruction which works on its own registers alone writes the S registers, the flags and the PC
that R326 to R330, R336 and R339 give, and S0 discards what is written to it (R293, R323, R324). Nothing else of the block
changes but the core's cycle count, what a saturation reports, and a step that ends. -/
def Obligations.RegisterInstructionsGiveResultFlagsAndPc : Prop :=
  ∀ (core : CoreIx) (k : CycIx),
    let gives (c : Instr) (mn : Mn) : Prop := ∀ (i : OInstr) (w : List (Nat × Word)) (f : Flg) (pc : Nat) (s : State),
      i.mn = mn → SeqIssues s core.val i → regRule (atCyc s k) core.val i = some (w, f, pc) →
      ∃ t, exec c s = .next t ∧ seqFlg t core.val = f ∧
        (∀ p ∈ w, p.1 ≠ 0 → sreg t core.val p.1 = p.2) ∧ sreg t core.val 0 = 0 ∧
        SeqRetired s t core.val pc (rSEQ core.val 0x10 :: w.flatMap (fun p => sregOff core.val p.1)) ∧
        t = { s with free := t.free, cyc := t.cyc, regs := t.regs, fcol := t.fcol, seqs := t.seqs }
    (gives (.addi core) .addi ∧ gives (.add core) .add ∧ gives (.addc core) .addc ∧ gives (.sub core) .sub ∧
      gives (.subc core) .subc ∧ gives (.and core) .and ∧ gives (.or core) .or ∧ gives (.xor core) .xor ∧
      gives (.andn core) .andn ∧ gives (.shl core) .shl ∧ gives (.shr core) .shr ∧ gives (.sar core) .sar) ∧
    (gives (.mul core) .mul ∧ gives (.mulhu core) .mulhu ∧ gives (.mulhs core) .mulhs ∧ gives (.cmp core) .cmp ∧
      gives (.tst core) .tst ∧ gives (.cmpi core) .cmpi ∧ gives (.andi core) .andi ∧ gives (.ori core) .ori ∧
      gives (.xori core) .xori ∧ gives (.lui core) .lui ∧ gives (.shli core) .shli ∧ gives (.shri core) .shri ∧
      gives (.sari core) .sari) ∧
    gives (.bcc core) .bcc ∧ gives (.bl core) .bl ∧ gives (.jr core) .jr ∧ gives (.jalr core) .jalr ∧
      gives (.tnow core k) .tnow ∧ gives (.nop core false) .nop ∧ gives (.coreid core) .coreid

/-- A load or store at a + simm16 that is aligned to its width and within the data space accesses the core's own DMEM below
0x2000 and the mailbox above, little-endian (R294, R331). A load writes rd, with the sign or zeros above; a 32-bit load of a
semaphore word leaves 1 in it (R296). A store writes the low bytes of rd and no other byte. Neither changes a flag. -/
def Obligations.LoadsAndStoresAccessTheDataSpace : Prop :=
  ∀ (core : CoreIx) (rd_ ra : Fin 32) (v : Fin 65536) (a p : Nat) (s : State),
    a = (sreg s core.val ra.val + (BitVec.ofNat 16 v.val).signExtend 32).toNat → a < 0x3000 →
    p = (if a < 0x2000 then 0x808000 + 0x10000 * core.val + a else 0x87E000 + a) →
    (let loads (c : Instr) (op : LoadOp) : Prop := SeqIssues s core.val (.load op rd_ ra v) → a % loadWidth op = 0 →
      ∃ t, exec c s = .next t ∧
        (rd_.val ≠ 0 → sreg t core.val rd_.val = (match op with
          | .ldw => mb s (p + 3) ++ mb s (p + 2) ++ mb s (p + 1) ++ mb s p
          | .ldh => (mb s (p + 1) ++ mb s p).signExtend 32
          | .ldhu => (mb s (p + 1) ++ mb s p).zeroExtend 32
          | .ldb => (mb s p).signExtend 32
          | .ldbu => (mb s p).zeroExtend 32)) ∧
        SeqRetired s t core.val (seqPc s core.val + 1) (sregOff core.val rd_.val) ∧
        (∀ b, mb t b = if op = .ldw ∧ 0x2FC0 ≤ a ∧ p ≤ b ∧ b < p + 4 then (if b = p then 1 else 0) else mb s b) ∧
        t = { s with free := t.free, regs := t.regs, mem := t.mem, fcol := t.fcol, seqs := t.seqs }
    loads (.ldw core false) .ldw ∧ loads (.ldh core false) .ldh ∧ loads (.ldhu core false) .ldhu ∧
      loads (.ldb core false) .ldb ∧ loads (.ldbu core false) .ldbu) ∧
    (let stores (c : Instr) (op : StoreOp) : Prop := SeqIssues s core.val (.store op rd_ ra v) → a % storeWidth op = 0 →
      ∃ t, exec c s = .next t ∧
        (∀ j < storeWidth op, mb t (p + j) = (sreg s core.val rd_.val).extractLsb' (8 * j) 8) ∧
        (∀ b, b < p ∨ p + storeWidth op ≤ b → mb t b = mb s b) ∧
        SeqRetired s t core.val (seqPc s core.val + 1) [] ∧
        t = { s with free := t.free, regs := t.regs, mem := t.mem, fcol := t.fcol, seqs := t.seqs }
    stores (.stw core) .stw ∧ stores (.sth core) .sth ∧ stores (.stb core) .stb)

/-- The causes of R310: TRAP, an undefined encoding, an uncorrectable error on the fetch or on a load, a data address outside
the data space or misaligned, a read that the bus does not answer. Each files the fault of its kind and takes the exception
of R311; READ_TIMEOUT is raised with it (R306). The instruction itself has no effect. -/
def Obligations.OarvaExceptionsAreTaken : Prop :=
  ∀ (core : CoreIx) (s : State), SeqGoes s core.val → queueFull s (0xCA + core.val) = false →
    (seqFetch s core.val = some (.sys .trap) →
      ∃ t, exec (.trap core) s = .next t ∧
        SeqExcepted s t core.val 0x06 (seqPc s core.val * 4) 0 ((seqPc s core.val + 1) % 4096) ∧ MemKept s t) ∧
    (seqFetch s core.val = none →
      ∃ t, exec (.nop core false) s = .next t ∧
        SeqExcepted s t core.val 0x01 (seqPc s core.val * 4) 3 (seqPc s core.val) ∧ MemKept s t) ∧
    (∃ t, exec (.nop core true) s = .next t ∧
      SeqExcepted s t core.val 0x0A (seqPc s core.val * 4) 3 (seqPc s core.val) ∧ MemKept s t) ∧
    (∀ (k : CycIx) (rd_ ra : Fin 32) (v : Fin 65536) (a : Nat),
      a = (sreg s core.val ra.val + (BitVec.ofNat 16 v.val).signExtend 32).toNat →
      (∀ op : LoadOp, seqFetch s core.val = some (.load op rd_ ra v) → (a % loadWidth op ≠ 0 ∨ 0x3000 ≤ a) →
        ∃ t, exec (mnRow core k (OInstr.load op rd_ ra v).mn) s = .next t ∧
          SeqExcepted s t core.val 0x02 a 1 (seqPc s core.val) ∧ MemKept s t) ∧
      (∀ op : StoreOp, seqFetch s core.val = some (.store op rd_ ra v) → (a % storeWidth op ≠ 0 ∨ 0x3000 ≤ a) →
        ∃ t, exec (mnRow core k (OInstr.store op rd_ ra v).mn) s = .next t ∧
          SeqExcepted s t core.val 0x02 a 2 (seqPc s core.val) ∧ MemKept s t) ∧
      (∀ op : LoadOp, seqFetch s core.val = some (.load op rd_ ra v) → a % loadWidth op = 0 → a < 0x3000 →
        ∃ t, exec (match op with
            | .ldw => .ldw core true
            | .ldh => .ldh core true
            | .ldhu => .ldhu core true
            | .ldb => .ldb core true
            | .ldbu => .ldbu core true) s = .next t ∧
          SeqExcepted s t core.val 0x0A (a / 4 * 4) 1 (seqPc s core.val) ∧ MemKept s t)) ∧
    ∀ (rd_ ra : Fin 32) (view : Fin 4) (v : Fin 16384) (off : Nat),
      seqFetch s core.val = some (.rdreg rd_ ra view v) → off = ((sreg s core.val ra.val).toNat + v.val) % 2 ^ 24 →
      queueFull s 0xD2 = false →
      ∃ t, exec (.readTimeout core) s = .next t ∧ SeqExcepted s t core.val 0x03 off 1 (seqPc s core.val) ∧ MemKept s t ∧
        mkReport s 0xD2 0x05 off (5 + core.val) 1 false ∈ mget (fun _ => []) t.fcol.queues 0xD2

/-- RDREG writes to rd what the register bus answers to a 32-bit read by the core at (a + uimm14) modulo 2^24 (R306, R332),
and a shadowing core reads the word of a mirrored register that its mate has sent (R317, R474). WRREG does what the bus does
with a write of rd by the core there through its view, where that raises no fault; in a register of one word of CORR, LATH or
the rings' shared block, rd's bits stand, set, clear or toggle as the view says, in the writable bits, and clear the
write-1-to-clear bits (R41). Where the offset is not aligned it raises ACCESS_WIDTH and takes the exception REGBUS (R37,
R310). Neither changes a flag. -/
def Obligations.CoresReadAndWriteRegisters : Prop :=
  ∀ (core : CoreIx) (k : CycIx) (rd_ ra : Fin 32) (view : Fin 4) (v : Fin 16384) (off : Nat) (s : State),
    off = ((sreg s core.val ra.val).toNat + v.val) % 2 ^ 24 →
    (SeqIssues s core.val (.rdreg rd_ ra view v) →
      ∃ t, exec (.rdreg core k) s = .next t ∧
        (rd_.val ≠ 0 → sreg t core.val rd_.val =
          wd (busRead (bpDone (atCyc s k) core.val) (5 + core.val) (view.val * 2 ^ 24 + off) 32).2) ∧
        (∀ (i : RegInfo) (x : Nat × Word), rd_.val ≠ 0 → regInfo off = some i → off % 4 = 0 → i.word = 0 → mirrored i = true →
          seqShadow s core.val = true → s.mate.mirror.find? (fun p => decide (p.1 = off)) = some x →
          sreg t core.val rd_.val = x.2) ∧
        SeqRetired s t core.val (seqPc s core.val + 1) (sregOff core.val rd_.val) ∧ MemKept s t) ∧
    (∀ b : State × Bool, SeqIssues s core.val (.wrreg rd_ ra view v) →
      b = busWrite (pcNext (bpDone (atCyc s k) core.val) core.val (seqPc s core.val)) (5 + core.val) (view.val * 2 ^ 24 + off) 32
        (sreg s core.val rd_.val).toNat → b.2 = false → rb b.1 (rSEQ core.val 4) 0 3 ≠ 4 →
      ∃ t, exec (.wrreg core k) s = .next t ∧ t = stepEnd (seqCount b.1 core.val 1 none) core.val) ∧
    (∀ i : RegInfo, SeqIssues s core.val (.wrreg rd_ ra view v) → BusOpen s → off % 4 = 0 → regInfo off = some i →
      (i.blk = .corr ∨ i.blk = .ringWide ∨ i.blk = .lath) → i.row.words = 1 → allRo i = false →
      ∃ t, exec (.wrreg core k) s = .next t ∧
        rd t off = wd (clr (clr (rn s off) i.row.rw |||
          (viewApply view.val (rn s off) (sreg s core.val rd_.val).toNat &&& i.row.rw))
          ((sreg s core.val rd_.val).toNat &&& i.row.w1c)) ∧
        SeqRetired s t core.val (seqPc s core.val + 1) [off, rSEAL 4, rSEAL 0x18] ∧ MemKept s t) ∧
    (SeqIssues s core.val (.wrreg rd_ ra view v) → s.nvsLoaded = true → off % 4 ≠ 0 → queueFull s 0xD2 = false →
      queueFull s (0xCA + core.val) = false →
      ∃ t, exec (.wrreg core k) s = .next t ∧ SeqExcepted (atCyc s k) t core.val 0x03 off 2 (seqPc s core.val) ∧
        mkReport (atCyc s k) 0xD2 0x01 off (5 + core.val) 2 false ∈ mget (fun _ => []) t.fcol.queues 0xD2 ∧ MemKept s t)

/-- A timed action that its target accepts enters the target's queue behind the actions there, with its due time resolved at
entry and its kind, and SEQ_ACT_CNT counts it; the other queues stay, and the core goes on. A LATE one enters as well, and
with LATE_TRAP the core takes LATE (R80, R299, R301, R333 to R335). A full queue takes nothing, and the core takes
QUEUE_FULL. -/
def Obligations.TimedActionsEnterTheirQueue : Prop :=
  ∀ (core : CoreIx) (k : CycIx),
    let enters (c : Instr) (mn : Mn) : Prop := ∀ (i : OInstr) (st : Nat) (kind : ActKind) (x : ActTarget) (s : State),
    i.mn = mn → SeqIssues s core.val i → timedRule s core.val i = some (st, x, kind) →
    (targetTakes s x = true →
      ∃ t, exec c s = .next t ∧
        (∀ y : QueueIx, queueOf t y = queueOf s y ++
          if targetHas s x y then [mkAct (atCyc s k) st (some core.val) kind] else []) ∧
        rn t (rSEQ core.val 0x58) = min (rn s (rSEQ core.val 0x58) + 1) (2 ^ 32 - 1) ∧ MemKept s t ∧
        ((entryLate (atCyc s k) st && rbit s (rSEQ core.val 0) 1) = false →
          SeqRetired s t core.val (seqPc s core.val + 1) [rSEQ core.val 0x58]) ∧
        (entryLate (atCyc s k) st = true → rbit s (rSEQ core.val 0) 1 = true → rbit s (rSEQ core.val 4) 7 = false →
          queueFull s (0xCA + core.val) = false →
          rn t (rSEQ core.val 0x18) = 0x05 ∧ rn t (rSEQ core.val 0x14) = (seqPc s core.val + 1) % 4096)) ∧
    (targetTakes s x = false → queueFull s (0xCA + core.val) = false →
      ∃ t, exec c s = .next t ∧ (∀ y : QueueIx, queueOf t y = queueOf s y) ∧
        (rbit s (rSEQ core.val 4) 7 = false → rn t (rSEQ core.val 0x18) = 0x04 ∧
          rn t (rSEQ core.val 0x14) = seqPc s core.val) ∧ MemKept s t)
    enters (.hopAt core k) .hopAt ∧ enters (.phsAt core k) .phsAt ∧ enters (.ratAt core k) .ratAt ∧
      enters (.oenAt core k) .oenAt ∧ enters (.gangAt core k) .gangAt ∧ enters (.snapAt core k) .snapAt

/-- WAIT.T goes on at once when its resolved time has come and waits otherwise, WAIT.E takes the pending bits within its mask
or waits; a wait ends when its time has come, or by the bits that it takes, and not before (R302, R303). HALT stops at the
next instruction with HALT_WHY 1. SIG sets the core's bit in the named core, or counts it as coalesced (R305, R308). FENCE
leaves no posted write of the core in flight: one to an AON target has landed, and acts at the next boundary; at one to a
sleeping SC the core is STALLED, and goes on once it has landed (R48, R307, R506). POST counts, and its record is presented
to the ring of RING_ROUTE.POST (R309). -/
def Obligations.WaitsSignalsAndPosts : Prop :=
  (∀ (core : CoreIx) (k : CycIx) (rt : Fin 16) (s : State), SeqIssues s core.val (.waitT rt) →
    (resolveDue (atCyc s k) (spair s core.val rt.val) ≤ nowT (atCyc s k) →
      ∃ t, exec (.waitT core k) s = .next t ∧ SeqRetired s t core.val (seqPc s core.val + 1) [] ∧ MemKept s t) ∧
    ((nowT (atCyc s k) : Int) < resolveDue (atCyc s k) (spair s core.val rt.val) →
      ∃ t, exec (.waitT core k) s = .next t ∧ rb t (rSEQ core.val 4) 0 3 = 2 ∧ seqPc t core.val = seqPc s core.val ∧
        (seqc t core.val).waitT = some (resolveDue (atCyc s k) (spair s core.val rt.val)) ∧
        RegsKept s t [rSEQ core.val 4, rSEQ core.val 0x50] ∧ MemKept s t)) ∧
  (∀ (core : CoreIx) (rd_ ra : Fin 16) (s : State), SeqIssues s core.val (.waitE rd_ ra) →
    (seqPend s core.val &&& spair s core.val ra.val ≠ 0 →
      ∃ t, exec (.waitE core) s = .next t ∧
        spair t core.val rd_.val / 2 ^ 32 = (seqPend s core.val &&& spair s core.val ra.val) / 2 ^ 32 ∧
        (rd_.val ≠ 0 → spair t core.val rd_.val = seqPend s core.val &&& spair s core.val ra.val) ∧
        seqPend t core.val = clr (seqPend s core.val) (spair s core.val ra.val) ∧
        SeqRetired s t core.val (seqPc s core.val + 1) ([rSEQ core.val 0x30, rSEQ core.val 0x34] ++
          sregOff core.val (2 * rd_.val) ++ sregOff core.val (2 * rd_.val + 1)) ∧ MemKept s t) ∧
    (seqPend s core.val &&& spair s core.val ra.val = 0 →
      ∃ t, exec (.waitE core) s = .next t ∧ rb t (rSEQ core.val 4) 0 3 = 3 ∧ seqPc t core.val = seqPc s core.val ∧
        (seqc t core.val).waitE = some (spair s core.val ra.val, rd_.val) ∧
        RegsKept s t [rSEQ core.val 4, rSEQ core.val 0x50] ∧ MemKept s t)) ∧
  (∀ (core : CoreIx) (k : CycIx) (d : Int) (s : State), s.coreAwake = true → rb s (rSEQ core.val 4) 0 3 = 2 → (seqc s core.val).waitT = some d →
    (d ≤ nowT (atCyc s k) → ∃ t, exec (.waitTResume core k) s = .next t ∧
      seqPc t core.val = (seqPc s core.val + 1) % 4096 ∧ (seqc t core.val).waitT = none ∧
      ((seqc s core.val).stepping = false → rb t (rSEQ core.val 4) 0 3 = 1) ∧
      (∀ o, o ≠ rSEQ core.val 4 → o ≠ rSEQ core.val 0x0C → rd t o = rd s o)) ∧
    ((nowT (atCyc s k) : Int) < d → exec (.waitTResume core k) s = .next (atCyc s k))) ∧
  (∀ (core : CoreIx) (mask p : Nat) (s : State), s.coreAwake = true → rb s (rSEQ core.val 4) 0 3 = 3 → (seqc s core.val).waitE = some (mask, p) →
    p < 16 →
    (seqPend s core.val &&& mask ≠ 0 → ∃ t, exec (.waitEResume core) s = .next t ∧
      (p ≠ 0 → spair t core.val p = seqPend s core.val &&& mask) ∧ seqPend t core.val = clr (seqPend s core.val) mask ∧
      seqPc t core.val = (seqPc s core.val + 1) % 4096 ∧ (seqc t core.val).waitE = none ∧
      ((seqc s core.val).stepping = false → rb t (rSEQ core.val 4) 0 3 = 1)) ∧
    (seqPend s core.val &&& mask = 0 → exec (.waitEResume core) s = .next s)) ∧
  (∀ (core : CoreIx) (s : State), SeqIssues s core.val (.sys .halt) →
    ∃ t, exec (.halt core) s = .next t ∧ rb t (rSEQ core.val 4) 0 3 = 0 ∧ rb t (rSEQ core.val 4) 4 3 = 1 ∧
      seqPc t core.val = (seqPc s core.val + 1) % 4096 ∧
      RegsKept s t [rSEQ core.val 4, rSEQ core.val 0x0C, rSEQ core.val 0x50] ∧ MemKept s t) ∧
  (∀ (core : CoreIx) (ra : Fin 32) (j : Fin 8) (c : Nat) (s : State), SeqIssues s core.val (.sig ra j) →
    c = ((sreg s core.val ra.val).toNat + j.val) % 8 →
    ∃ t, exec (.sig core) s = .next t ∧ rbit t (rSEQ c 0x30) core.val = true ∧
      (rbit s (rSEQ c 0x30) core.val = false → SeqRetired s t core.val (seqPc s core.val + 1) [rSEQ c 0x30]) ∧
      (rbit s (rSEQ c 0x30) core.val = true → rn t (rSEQ c 0x38) = min (rn s (rSEQ c 0x38) + 1) (2 ^ 32 - 1) ∧
        SeqRetired s t core.val (seqPc s core.val + 1) [rSEQ c 0x38]) ∧ MemKept s t) ∧
  (∀ (core : CoreIx) (s : State), SeqIssues s core.val (.sys .fence) →
    ((∀ p ∈ s.posted, p.2.master ≠ 5 + core.val) →
      ∃ t, exec (.fence core) s = .next t ∧ SeqRetired s t core.val (seqPc s core.val + 1) [] ∧ t.posted = s.posted ∧
        t.time = s.time ∧ MemKept s t) ∧
    (∀ (key : Nat) (p : Posted) (i : RegInfo), s.posted = [(key, p)] → p.master = 5 + core.val → key < 5 →
      regInfo p.off = some i → aonTarget i.blk = true →
      ∃ t old new hit, exec (.fence core) s = .next t ∧ t.posted = [] ∧
        t.landed = s.landed ++ [⟨p.off, old, new, hit, 5 + core.val⟩] ∧ t.time = s.time ∧
        SeqRetired s t core.val (seqPc s core.val + 1) ((List.range i.row.words).map (fun k => i.base + 4 * k)) ∧ MemKept s t) ∧
    ∀ (key : Nat) (p : Posted), s.posted = [(key, p)] → p.master = 5 + core.val → 5 ≤ key → (sc s (key - 5)).awake = false →
      ∃ t, exec (.fence core) s = .next t ∧ rb t (rSEQ core.val 4) 0 3 = 4 ∧ seqPc t core.val = seqPc s core.val ∧
        t.posted = s.posted ∧ RegsKept s t [rSEQ core.val 4] ∧ MemKept s t) ∧
  (∀ (core : CoreIx) (s : State), s.coreAwake = true → rb s (rSEQ core.val 4) 0 3 = 4 →
    seqFetch s core.val = some (.sys .fence) → (∀ p ∈ s.posted, p.2.master ≠ 5 + core.val) → (seqc s core.val).stepping = false →
    ∃ t, exec (.fence core) s = .next t ∧ rb t (rSEQ core.val 4) 0 3 = 1 ∧
      seqPc t core.val = (seqPc s core.val + 1) % 4096 ∧ t.posted = s.posted ∧
      RegsKept s t [rSEQ core.val 4, rSEQ core.val 0x0C, rSEQ core.val 0x50] ∧ MemKept s t) ∧
  ∀ (core : CoreIx) (k : CycIx) (ra : Fin 32) (n : Fin 25) (code : Fin 256) (r : Nat) (s : State),
    SeqIssues s core.val (.post ra n code) → (sreg s core.val ra.val).toNat % 4 = 0 →
    (sreg s core.val ra.val).toNat + 4 * n.val ≤ 0x2000 → r = ringRoute s 2 →
    ∃ t, exec (.post core k) s = .next t ∧ rn t (rSEQ core.val 0x54) = min (rn s (rSEQ core.val 0x54) + 1) (2 ^ 32 - 1) ∧
      seqPc t core.val = (seqPc s core.val + 1) % 4096 ∧
      (ring t r).admitted = ((ring s r).admitted + 1) % 2 ^ 64 ∧ (∀ q, q ≠ r → ring t q = ring s q) ∧
      (ringConserved (ring s r) → ringConserved (ring t r)) ∧
      (∀ b, b < 0x80 * ringSlot s r (ring s r).wr ∨ 0x80 * ringSlot s r (ring s r).wr + 0x80 ≤ b → mb t b = mb s b)

/-- SEQ_CMD. START of a halted core with IMG_OK clears S1 to S31, the flags, IN_EXC and the pending events and runs from
SEQ_ENTRY; any other sets CMD_REJ and does nothing else (R314). HALT halts before the next instruction and abandons a wait,
RESUME goes on from PC, STEP runs the core for one instruction (R316). VERIFY starts a check, which on success sets IMG_OK
and writes ENTRY and VECTOR, and on failure clears IMG_OK with IMG_CRC (R313). DOORBELL is the event HOST (R305); CLR of
SEQ_EXC clears IN_EXC (R311); a breakpoint halts the core before its instruction (R316). -/
def Obligations.SequencerCommandsActOnTheirCore : Prop :=
  ∀ (m : Master) (core : CoreIx) (s : State), BusOpen s →
    (rb s (rSEQ core.val 4) 0 3 = 0 → rbit s (rSEQ core.val 4) 8 = true → srcFenced s (0xCA + core.val) = false →
      ∃ t, exec (.seqStart m core) s = .next t ∧ rb t (rSEQ core.val 4) 0 3 = 1 ∧ rbit t (rSEQ core.val 4) 7 = false ∧
        rbit t (rSEQ core.val 4) 8 = true ∧
        seqPc t core.val = rb s (rSEQ core.val 0x2C) 0 12 ∧ (∀ k < 32, sreg t core.val k = 0) ∧
        rn t (rSEQ core.val 0x10) = 0 ∧ seqPend t core.val = 0 ∧ MemKept s t ∧
        (∀ n o, n < 8 → n ≠ core.val → o < 0x10000 → rd t (rSEQ n o) = rd s (rSEQ n o)) ∧ ∀ y, queueOf t y = queueOf s y) ∧
    ((rb s (rSEQ core.val 4) 0 3 ≠ 0 ∨ rbit s (rSEQ core.val 4) 8 = false ∨ srcFenced s (0xCA + core.val) = true) →
      ∃ t, exec (.seqStart m core) s = .next t ∧ rbit t (rSEQ core.val 4) 17 = true ∧
        rb t (rSEQ core.val 4) 0 17 = rb s (rSEQ core.val 4) 0 17 ∧ RegsKept s t [rSEQ core.val 4] ∧ MemKept s t) ∧
    (rb s (rSEQ core.val 4) 0 3 ≠ 0 →
      ∃ t, exec (.seqHalt m core) s = .next t ∧ rb t (rSEQ core.val 4) 0 3 = 0 ∧ rb t (rSEQ core.val 4) 4 3 = 2 ∧
        (seqc t core.val).waitT = none ∧ (seqc t core.val).waitE = none ∧ RegsKept s t [rSEQ core.val 4] ∧ MemKept s t) ∧
    (rb s (rSEQ core.val 4) 0 3 = 0 → srcFenced s (0xCA + core.val) = false →
      ∃ t, exec (.seqResume m core) s = .next t ∧ rb t (rSEQ core.val 4) 0 3 = 1 ∧ (seqc t core.val).stepping = false ∧
        RegsKept s t [rSEQ core.val 4] ∧ MemKept s t) ∧
    (rb s (rSEQ core.val 4) 0 3 = 0 →
      ∃ t, exec (.seqStep m core) s = .next t ∧ rb t (rSEQ core.val 4) 0 3 = 1 ∧ (seqc t core.val).stepping = true ∧
        RegsKept s t [rSEQ core.val 4] ∧ MemKept s t) ∧
    (∃ t, exec (.seqVerify m core) s = .next t ∧ (seqc t core.val).verify = true ∧ RegsKept s t [] ∧ MemKept s t) ∧
    ((∀ n < 8, rbit s (rSEQ n 0x30) 10 = false) → s.standby = false →
      ∃ t, exec (.seqDoorbell m core) s = .next t ∧ (∀ n < 8, rbit t (rSEQ n 0x30) 10 = true) ∧
        (∀ o, faultReg o = false → (∀ n < 8, o ≠ rSEQ n 0x30) → rd t o = rd s o) ∧ MemKept s t) ∧
    (∃ t, exec (.seqExcClr m core) s = .next t ∧ rbit t (rSEQ core.val 4) 7 = false ∧
      rb t (rSEQ core.val 4) 0 7 = rb s (rSEQ core.val 4) 0 7 ∧ RegsKept s t [rSEQ core.val 4] ∧ MemKept s t) ∧
    (rb s (rSEQ core.val 4) 0 3 = 1 → seqAtBp s core.val = true →
      ∃ t, exec (.breakpointHit core) s = .next t ∧ rb t (rSEQ core.val 4) 0 3 = 0 ∧ rb t (rSEQ core.val 4) 4 3 = 3 ∧
        rbit t (rSEQ core.val 4) 16 = true ∧ (∀ o, o ≠ rSEQ core.val 4 → rd t o = rd s o) ∧
        t = { s with regs := t.regs, seqs := t.seqs }) ∧
    (s.coreAwake = true → (seqc s core.val).verify = true → queueFull s (0xCA + core.val) = false →
      ∃ t, exec (.imageVerifyDone core) s = .next t ∧ (seqc t core.val).verify = false ∧
        rbit t (rSEQ core.val 4) 8 = imgGood s core.val ∧
        (imgGood s core.val = true → rn t (rSEQ core.val 0x2C) = rn s (rSEQ core.val 0x70) % 4096 ∧
          rn t (rSEQ core.val 0x28) = rn s (rSEQ core.val 0x74) % 4096 ∧
          (∀ o, o ≠ rSEQ core.val 4 → o ≠ rSEQ core.val 0x2C → o ≠ rSEQ core.val 0x28 → rd t o = rd s o) ∧ t.fcol = s.fcol) ∧
        (imgGood s core.val = false → (∀ o, o ≠ rSEQ core.val 4 → rd t o = rd s o) ∧
          t.fcol = (enqueue s (mkReport s (0xCA + core.val) 0x08 (rSEQ core.val 4) 0 0 false)).fcol) ∧
        t = { s with regs := t.regs, fcol := t.fcol, seqs := t.seqs })

/-! ## The command engine and the DMA engine -/

/-- An outstanding command that may start while the core domain is awake and whose arguments are out of range completes with
BAD_ARG; a CONFIG_STORE or SCREED_SAVE with NVS writes disabled completes with WRITE_PROTECT, a SEAL_COMMIT under
GLB_LOCK.SEALREF with LOCKED, its hold ended where software does not write SEAL_CTRL in the same cycle; a SELFTEST starts to
run, and so does a CONFIG_STORE or SCREED_SAVE with NVS writes enabled and the store not fenced, its target bank's header new
and its COMMIT 0 (R61, R345, R347 to R349, R403). A command that may not start, or with the core asleep, does nothing. A
running command whose work is done completes: a store whose source is not fenced with OK and the sequence number of its bank,
whose CHECK and COMMIT are then written, or with FAILED and VERIFY_FAIL, a SELFTEST with OK or with FAILED and the bits of
the scopes that failed, a CAL_RUN or MATE_SYNC with the result of its end (R346, R348, R403). At its maximum a running
command other than PHASE_WALK ends with TIMEOUT, which is reported (R346, R348). One that does not run does neither, and none
does while the core domain sleeps (log entry 193). A write that sets GLB_LOCK.SEALREF completes a running SEAL_COMMIT, the
one outstanding command, at once with LOCKED, and SEAL_REF keeps its value (R55). -/
def Obligations.CommandStartsAndCompletes : Prop :=
  (∀ (k : Fin 64) (c : CycIx) (s : State),
    (slotOf s k.val = none → exec (.commandStart k c) s = .next (atCyc s c)) ∧
    ∀ x : Slot, slotOf s k.val = some x →
      (mayStart s k.val x = false ∨ s.coreAwake = false → exec (.commandStart k c) s = .next (atCyc s c)) ∧
      (mayStart s k.val x = true → s.coreAwake = true → s.cmd.own = [] →
        (cmdArgsOk x = false → ∃ t, exec (.commandStart k c) s = .next t ∧ SlotCompleted s t k.val x 1 0) ∧
        (cmdArgsOk x = true → (x.w0 % 256 = 3 ∨ x.w0 % 256 = 12) → rbit s (rNVS 0) 0 = false →
          ∃ t, exec (.commandStart k c) s = .next t ∧ SlotCompleted s t k.val x 3 0 ∧ t.nvs = s.nvs) ∧
        (cmdArgsOk x = true → x.w0 % 256 = 11 → rbit s 0x40 4 = true →
          ∃ t, exec (.commandStart k c) s = .next t ∧ SlotCompleted s t k.val x 2 (rn s (rSEAL 8)) ∧
            (softWrote (atCyc s c) (rSEAL 0) = false → t.seal_ = s.seal_ ∧ rbit t (rSEAL 0) 1 = false) ∧
            rd t (rSEAL 8) = rd s (rSEAL 8)) ∧
        (cmdArgsOk x = true → x.w0 % 256 = 9 →
          ∃ t, exec (.commandStart k c) s = .next t ∧ slotOf t k.val = some { x with running := true } ∧
            rn t (rCPL k.val) = rn s (rCPL k.val) ||| 0x2000000 ∧ (∀ o, o ≠ rCPL k.val → rd t o = rd s o) ∧
            t = { atCyc s c with regs := t.regs, cmd := t.cmd }) ∧
        (cmdArgsOk x = true → (x.w0 % 256 = 3 ∨ x.w0 % 256 = 12) → rbit s (rNVS 0) 0 = true → srcFenced s 0xD4 = false →
          ∃ t b, exec (.commandStart k c) s = .next t ∧ slotOf t k.val = some { x with running := true } ∧
            t.nvs.job = some (1024 * cmdRegion x + storeTarget s (cmdRegion x), b) ∧
            (bankOf t (cmdRegion x) (storeTarget s (cmdRegion x))).commit = 0 ∧
            (bankOf t (cmdRegion x) (storeTarget s (cmdRegion x))).full = false ∧
            (bankOf t (cmdRegion x) (storeTarget s (cmdRegion x))).seqNo = b.seqNo ∧
            (bankOf t (cmdRegion x) (storeTarget s (cmdRegion x))).magic = 0x4E565300 + cmdRegion x ∧
            (∀ key, key ≠ 1024 * cmdRegion x + storeTarget s (cmdRegion x) →
              mget (fun _ => bankInit) t.nvs.banks key = mget (fun _ => bankInit) s.nvs.banks key) ∧ MemKept s t))) ∧
  ((∀ (m : Master) (b : Word) (k : Fin 64) (x : Slot) (s : State), BusOpen s → b.getLsbD 4 = true → rbit s 0x40 4 = false →
    s.cmd.slots = [(k.val, x)] → s.cmd.own = [] → x.running = true → x.w0 % 256 = 11 →
    ∃ t, exec (.lockWrite m b) s = .next t ∧ SlotCompleted s t k.val x 2 (rn s (rSEAL 8)) ∧ rd t (rSEAL 8) = rd s (rSEAL 8)) ∧
  (∀ (k : Fin 64) (c : CycIx) (r : OpOutcome) (s : State), s.coreAwake = false →
    exec (.commandComplete k r c) s = .next s ∧ exec (.commandTimeout k c) s = .next s) ∧
  ∀ (k : Fin 64) (c : CycIx) (r : OpOutcome) (s : State) (x : Slot), s.coreAwake = true → slotOf s k.val = some x →
    (x.running = false → exec (.commandComplete k r c) s = .next (atCyc s c) ∧
      exec (.commandTimeout k c) s = .next (atCyc s c)) ∧
    (x.running = true → s.cmd.own = [] →
      (∀ key b v, (x.w0 % 256 = 1 ∨ x.w0 % 256 = 3 ∨ x.w0 % 256 = 12) → s.nvs.job = some (key, b) → r = .ok v →
        srcFenced s 0xD4 = false →
        ∃ t, exec (.commandComplete k r c) s = .next t ∧ SlotCompleted s t k.val x 0 b.seqNo ∧ t.nvs.job = none ∧
          bankOf t (key / 1024) (key % 1024) = sealedBank (key / 1024) (key % 1024) b) ∧
      (∀ key b v, (x.w0 % 256 = 1 ∨ x.w0 % 256 = 3 ∨ x.w0 % 256 = 12) → s.nvs.job = some (key, b) → r = .failed v →
        srcFenced s 0xD4 = false → queueFull s 0xD4 = false →
        ∃ t, exec (.commandComplete k r c) s = .next t ∧ SlotCompleted s t k.val x 6 0 ∧ t.nvs.job = none ∧
          (∀ j, j ≠ key → mget (fun _ => bankInit) t.nvs.banks j = mget (fun _ => bankInit) s.nvs.banks j) ∧
          (bankOf t (key / 1024) (key % 1024)).commit = (bankOf s (key / 1024) (key % 1024)).commit ∧
          (bankOf t (key / 1024) (key % 1024)).full = (bankOf s (key / 1024) (key % 1024)).full ∧
          mkReport (atCyc s c) 0xD4 0x03 (key / 1024 + key % 1024 * 16) 0 0 false ∈ mget (fun _ => []) t.fcol.queues 0xD4) ∧
      (∀ v, x.w0 % 256 = 9 → r = .ok v → ∃ t, exec (.commandComplete k r c) s = .next t ∧ SlotCompleted s t k.val x 0 0) ∧
      (∀ v, x.w0 % 256 = 9 → r = .failed v →
        ∃ t, exec (.commandComplete k r c) s = .next t ∧ SlotCompleted s t k.val x 6 (v % 8)) ∧
      (∀ st res, (x.w0 % 256 = 4 ∨ x.w0 % 256 = 10) → x.done = some (st, res) →
        ∃ t, exec (.commandComplete k r c) s = .next t ∧ SlotCompleted s t k.val x st res) ∧
      (x.w0 % 256 ≠ 8 → queueFull s 0xDD = false →
        ∃ t, exec (.commandTimeout k c) s = .next t ∧ SlotCompleted s t k.val x 7 0 ∧
          mkReport (atCyc s c) 0xDD 0x02 (x.w0 % 256 + k.val * 256) 0 0 false ∈ mget (fun _ => []) t.fcol.queues 0xDD) ∧
      (x.w0 % 256 = 8 → exec (.commandTimeout k c) s = .next (atCyc s c))))

/-- Software's hold of a DMA channel. DMA_CTRL of a disabled channel that is neither fenced nor HALTED enables a chain
channel as IDLE and a drain channel as RUNNING where its configuration is good, else EN stays 0 with CONFIG (R373); an
enabled channel takes no write that changes MODE or RING. PAUSE makes a running channel PAUSING, and its end PAUSED (R381). A
doorbell starts an idle or waiting chain, which pauses at once while PAUSE = 1, and stays pending otherwise, as it does on a
fenced channel (R362, R363, R381; log entry 140). RESUME continues a halted channel in the state that it was stopped in,
running where a doorbell waits for an idle or STALLED one, and PAUSING while PAUSE = 1; ABORT makes a channel IDLE (R382).
DMA_HRD follows the host's reads and takes no value that goes back or past DMA_HWR (R374). -/
def Obligations.DmaChannelsObeySoftware : Prop :=
  ∀ (m : Master) (c : DmaIx) (s : State), BusOpen s →
    (∀ (v : Word) (new : Nat), new = clr (rn s (rDMA c.val 0)) 0x7FFFFF ||| (v.toNat &&& 0x7FFFFF) →
      (rbit s (rDMA c.val 0) 0 = false → srcFenced s (0xBA + c.val) = false → (dma s c.val).st ≠ 5 → v.getLsbD 0 = true → v.getLsbD 6 = false →
        (v.getLsbD 1 = false →
          ∃ t, exec (.dmaEnable m c v) s = .next t ∧ rn t (rDMA c.val 0) = new ∧ (dma t c.val).st = 0) ∧
        (v.getLsbD 1 = true → drainCfgOk (wr s (rDMA c.val 0) new) c.val = true →
          ∃ t, exec (.dmaEnable m c v) s = .next t ∧ rn t (rDMA c.val 0) = new ∧ (dma t c.val).st = 1) ∧
        (v.getLsbD 1 = true → drainCfgOk (wr s (rDMA c.val 0) new) c.val = false → queueFull s (0xBA + c.val) = false →
          ∃ t, exec (.dmaEnable m c v) s = .next t ∧ rn t (rDMA c.val 0) = clr new 1 ∧ t.dmas = s.dmas ∧
            rbit t (rDMA c.val 4) 13 = true ∧
            mkReport s (0xBA + c.val) 0x03 (rDMA c.val 0) 4 0 false ∈ mget (fun _ => []) t.fcol.queues (0xBA + c.val))) ∧
      (rbit s (rDMA c.val 0) 0 = true → bits v.toNat 1 5 ≠ bits (rn s (rDMA c.val 0)) 1 5 →
        ∃ t, exec (.dmaEnable m c v) s = .next t ∧ rn t (rDMA c.val 0) = rn s (rDMA c.val 0) ∧ t.dmas = s.dmas)) ∧
    (rbit s (rDMA c.val 0) 0 = true → rbit s (rDMA c.val 0) 6 = false → srcFenced s (0xBA + c.val) = false →
      (dma s c.val).st ≤ 2 →
      ∃ t, exec (.dmaPause m c) s = .next t ∧ (dma t c.val).st = 3 ∧ (dma t c.val).before = (dma s c.val).st ∧
        rbit t (rDMA c.val 0) 6 = true ∧ ∀ d, d ≠ c.val → dma t d = dma s d) ∧
    ((dma s c.val).st = 3 → ∃ t, exec (.dmaPaused c) s = .next t ∧ t = setDma s c.val { dma s c.val with st := 4 }) ∧
    ((dma s c.val).st ≠ 3 → exec (.dmaPaused c) s = .next s) ∧
    (isChain s c.val = true → srcFenced s (0xBA + c.val) = false → ((dma s c.val).st = 0 ∨ (dma s c.val).st = 2) →
      ∃ t, exec (.dmaDoorbell m c) s = .next t ∧
        dma t c.val = (if rbit s (rDMA c.val 0) 6 then { dma s c.val with st := 3, before := 1, desc := none }
          else { dma s c.val with st := 1, desc := none }) ∧
        (∀ d, d ≠ c.val → dma t d = dma s d) ∧ RegsKept s t [] ∧ MemKept s t) ∧
    (isChain s c.val = true → (srcFenced s (0xBA + c.val) = true ∨ ((dma s c.val).st ≠ 0 ∧ (dma s c.val).st ≠ 2)) →
      ∃ t, exec (.dmaDoorbell m c) s = .next t ∧ dma t c.val = { dma s c.val with dbPend := true } ∧
        (∀ d, d ≠ c.val → dma t d = dma s d) ∧ RegsKept s t [] ∧ MemKept s t) ∧
    ((dma s c.val).st = 5 →
      ∃ t, exec (.dmaResume m c) s = .next t ∧ (dma t c.val).retries = [] ∧ (dma t c.val).desc = (dma s c.val).desc ∧
        (dma t c.val).st = (if rbit s (rDMA c.val 0) 6 then 3
          else if isChain s c.val = true ∧ ((dma s c.val).before = 0 ∨ (dma s c.val).before = 2) ∧ (dma s c.val).dbPend = true then 1
          else (dma s c.val).before) ∧
        (∀ d, d ≠ c.val → dma t d = dma s d) ∧ RegsKept s t [] ∧ MemKept s t) ∧
    (∃ t, exec (.dmaAbort m c) s = .next t ∧ (dma t c.val).st = 0 ∧ (dma t c.val).desc = none ∧
      (∀ d, d ≠ c.val → dma t d = dma s d) ∧ RegsKept s t [] ∧ MemKept s t) ∧
    ∀ v : Word,
      ((v.toNat + 2 ^ 32 - rn s (rDMA c.val 0x70)) % 2 ^ 32 ≤ (rn s (rDMA c.val 0x6C) + 2 ^ 32 - rn s (rDMA c.val 0x70)) % 2 ^ 32 →
        ∃ t, exec (.dmaHrdWrite m c v) s = .next t ∧ rd t (rDMA c.val 0x70) = v ∧ RegsKept s t [rDMA c.val 0x70] ∧ MemKept s t) ∧
      ((rn s (rDMA c.val 0x6C) + 2 ^ 32 - rn s (rDMA c.val 0x70)) % 2 ^ 32 < (v.toNat + 2 ^ 32 - rn s (rDMA c.val 0x70)) % 2 ^ 32 →
        queueFull s (0xBA + c.val) = false →
        ∃ t, exec (.dmaHrdWrite m c v) s = .next t ∧ rbit t (rDMA c.val 4) 15 = true ∧ RegsKept s t [rDMA c.val 4] ∧
          MemKept s t ∧ t.dmas = s.dmas ∧
          t.fcol = (enqueue s (mkReport s (0xBA + c.val) 0x04 (rDMA c.val 0x70) 4 0 false)).fcol)

/-- What a DMA channel does of itself while the core domain is awake. A fetched descriptor that is VALID with the expected
sequence number is executed where R360 allows it and halts the channel with DESC_ERROR otherwise; any other makes the chain
wait, or uses up a pending doorbell (R360 to R363). A copy between host addresses of what lies within one burst, whose turn
has come, reads the host in whole blocks of 64 bytes, writes the bytes and then the descriptor's first two words with DONE,
and the chain goes on at NEXT or ends (R365), registers that software writes in the same cycle apart (R367). A drain burst
passes up to four slots of the ring (R374, R376); where software writes RING_RD in the same cycle, that value stands and
DISCARD is set (R285). The flush timer, the promotion after 50 µs, and the retry of a read that failed, or the halt at it
where its address has had RETRY_MAX of them, follow R375, R378 and R380. -/
def Obligations.DmaChannelsRunChainsAndDrains : Prop :=
  ∀ (c : DmaIx) (s : State),
    (∀ (bytes : List Byte) (d : Desc) (a : Nat), isChain s c.val = true → (dma s c.val).st = 1 → (dma s c.val).desc = none →
      s.pcieUp = true → s.coreAwake = true → dmaMay s c.val = true → a = rL s (rDMA c.val 0x10) 2 →
      d = descOf a ((bytes.drop (a % 64) ++ List.replicate 32 0).take 32) →
      (d.ctrl.testBit 31 = true → d.ctrl % 65536 = rb s (rDMA c.val 0x18) 0 16 → descOk s c.val d = true →
        ∃ t, exec (.descFetch c bytes) s = .next t ∧ (dma t c.val).desc = some d ∧ (dma t c.val).st = 1 ∧
          rn t (rDMA c.val 0x30) = d.len % 2 ^ 32 ∧ ∀ e, e ≠ c.val → dma t e = dma s e) ∧
      (d.ctrl.testBit 31 = true → d.ctrl % 65536 = rb s (rDMA c.val 0x18) 0 16 → descOk s c.val d = false →
        queueFull s (0xBA + c.val) = false →
        ∃ t, exec (.descFetch c bytes) s = .next t ∧ (dma t c.val).st = 5 ∧ (dma t c.val).desc = none ∧
          rbit t (rDMA c.val 4) 10 = true ∧ rL t (rDMA c.val 0x38) 2 = rL s (rDMA c.val 0x10) 2 ∧
          mkReport s (0xBA + c.val) 0x02 (rL s (rDMA c.val 0x10) 2) 4 0 false ∈ mget (fun _ => []) t.fcol.queues (0xBA + c.val)) ∧
      (d.ctrl.testBit 31 = false ∨ d.ctrl % 65536 ≠ rb s (rDMA c.val 0x18) 0 16 →
        ∃ t, exec (.descFetch c bytes) s = .next t ∧ (dma t c.val).desc = none ∧ (dma t c.val).dbPend = false ∧
          (dma t c.val).st = if (dma s c.val).dbPend then 1 else 2)) ∧
    (∀ (src dst : DmaSide) (d : Desc) (n a : Nat), isChain s c.val = true → (dma s c.val).st = 1 → s.pcieUp = true →
      s.coreAwake = true → dmaMay s c.val = true → (dma s c.val).desc = some d → (dma s c.val).regFlt = false → d.len < 2 ^ 32 → d.ctrl.testBit 16 = false → d.ctrl.testBit 17 = false →
      d.ctrl.testBit 18 = false → d.ctrl.testBit 20 = false → bits d.ctrl 21 2 = 0 → bits d.ctrl 23 2 = 0 →
      n = rn s (rDMA c.val 0x30) → 0 < n → n ≤ d.len → a = d.src + (d.len - n) →
      a % 512 + n ≤ 512 →
      ∃ t, exec (.descWriteBack c src dst) s = .next t ∧
        t.out = .host d.addr (leBytes 4 (bits d.ctrl 0 25 + 2 ^ 25 + bits d.ctrl 28 3 * 2 ^ 28) ++ leBytes 4 d.len) ::
          .host ((d.dst + (d.len - n)) % 2 ^ 64) ((src.bytes.drop (a % 64) ++ List.replicate n 0).take n) ::
          .hostRead (a / 64 * 64) (wideLen a n) :: s.out ∧
        (dma t c.val).desc = none ∧ MemKept s t ∧
        (d.ctrl.testBit 19 = true → (dma t c.val).st = 0 ∧ rbit t (rDMA c.val 4) 8 = true) ∧
        (d.ctrl.testBit 19 = false → softWrote s (rDMA c.val 0x10) = false → softWrote s (rDMA c.val 0x18) = false →
          (dma t c.val).st = 1 ∧ rL t (rDMA c.val 0x10) 2 = d.next % 2 ^ 64 ∧
          rb t (rDMA c.val 0x18) 0 16 = (rb s (rDMA c.val 0x18) 0 16 + 1) % 2 ^ 16)) ∧
    (∀ fixed, (isDrain s c.val = false ∨ dmaTurn s ≠ some c.val ∨ s.coreAwake = false) →
      exec (.drainBurst ⟨c, fixed⟩) s = .next s) ∧
    (∀ r k fixed : Nat, isDrain s c.val = true → dmaTurn s = some c.val → s.coreAwake = true →
      r = bits (rn s (rDMA c.val 0)) 2 4 → k = min 4 (min (ringFill (ring s r)) (dmaRoom s c.val)) →
      ∃ t, exec (.drainBurst ⟨c, fixed⟩) s = .next t ∧
        (ring t r).rd = (if softWrote s (rRING r 0x0C) then (ring s r).rd else ((ring s r).rd + k) % 2 ^ 32) ∧
        (softWrote s (rRING r 0x0C) = true → rbit t (rRING r 4) 8 = true) ∧ (ring t r).wr = (ring s r).wr ∧
        rn t 0x708048 = min (rn s 0x708048 + fixed) (2 ^ 32 - 1) ∧
        t.dmaLast = c.val ∧ (dma t c.val).flush = false ∧ (dma t c.val).promoted = false ∧
        (∀ q, q ≠ r → ring t q = ring s q) ∧ MemKept s t) ∧
    (s.coreAwake = true → isDrain s c.val = true → (dma s c.val).st = 1 → rb s (rDMA c.val 0x58) 0 16 ≠ 0 →
      1 ≤ ringFill (ring s (bits (rn s (rDMA c.val 0)) 2 4)) →
      ∃ t, exec (.drainFlushTimer c) s = .next t ∧ t = setDma s c.val { dma s c.val with flush := true }) ∧
    (isDrain s c.val = false ∨ s.coreAwake = false → exec (.drainFlushTimer c) s = .next s) ∧
    (s.coreAwake = true → dmaWants s c.val = true → (dma s c.val).promoted = false →
      ∃ t, exec (.dmaPromotion c) s = .next t ∧ dma t c.val = { dma s c.val with promoted := true } ∧
        rn t (rDMA c.val 0xA0) = min (rn s (rDMA c.val 0xA0) + 1) (2 ^ 32 - 1) ∧ RegsKept s t [rDMA c.val 0xA0] ∧ MemKept s t) ∧
    (∀ (addr : BitVec 64) (loc : Fin 4) (fetch : Bool) (data : DmaData),
      (s.coreAwake = false ∨ 2 ≤ loc.val ∨ fetch ≠ (dma s c.val).desc.isNone) →
      exec (.dmaBusError c addr loc fetch data) s = .next s) ∧
    ∀ (addr : BitVec 64) (fetch : Bool) (data : DmaData) (spent : Nat), s.coreAwake = true → isChain s c.val = true →
      (dma s c.val).st = 1 → dmaMay s c.val = true →
      spent = ((dma s c.val).retries.find? (fun p => decide (p.1 = (0, addr.toNat)))).elim 0 (·.2) →
      (match (dma s c.val).desc with
        | none => fetch = true ∧ rL s (rDMA c.val 0x10) 2 / 64 * 64 ≤ addr.toNat ∧
            addr.toNat < rL s (rDMA c.val 0x10) 2 / 64 * 64 + wideLen (rL s (rDMA c.val 0x10) 2) 32
        | some d => fetch = false ∧ isFill d = false ∧ srcLoc d = 0 ∧ dmaPos s c.val d < d.len ∧
            (d.src + dmaPos s c.val d) / 64 * 64 ≤ addr.toNat ∧ addr.toNat ≤ d.src + dmaPos s c.val d) →
      (spent < bits (rn s (rDMA c.val 0)) 14 3 →
        ∃ t, exec (.dmaBusError c addr 0 fetch data) s = .next t ∧ (dma t c.val).st = 1 ∧
          (dma t c.val).desc = (dma s c.val).desc ∧ (dma t c.val).inFlight = true ∧
          (dma t c.val).retries = ((0, addr.toNat), spent + 1) ::
            (dma s c.val).retries.filter (fun p => decide (p.1 ≠ (0, addr.toNat))) ∧
          rn t (rDMA c.val 0x94) = min (rn s (rDMA c.val 0x94) + 1) (2 ^ 32 - 1) ∧
          RegsKept s t [rDMA c.val 0x94, rDMA c.val 0x9C] ∧ MemKept s t) ∧
      (bits (rn s (rDMA c.val 0)) 14 3 ≤ spent → queueFull s (0xBA + c.val) = false →
        ∃ t, exec (.dmaBusError c addr 0 fetch data) s = .next t ∧ (dma t c.val).st = 5 ∧
          rL t (rDMA c.val 0x38) 2 = addr.toNat ∧ rn t (rDMA c.val 0x40) = 4 * b2n fetch ∧ rbit t (rDMA c.val 4) 9 = true ∧
          mkReport s (0xBA + c.val) 0x01 addr.toNat 4 0 false ∈ mget (fun _ => []) t.fcol.queues (0xBA + c.val) ∧ MemKept s t)

/-! ## Start, calibration, Skim, faults and snapshots -/

/-- The start sequence (R507). With power good, AON ready starts Plain, and wakes the core domain in AON_ONLY unless MRST_N
is low (R509); the end of the load opens the register bus; with PARK clear, power-up calibration wakes every output group and
starts; the apply step ends it, with CAL_COUNT one higher and PWRUP_DONE set (R386, R388). A module that is elsewhere in the
sequence does nothing. The apply step of CAL_RUN takes a witness TDC's result that lies in the window of R390, and keeps the
stored one for a result that does not. A port whose lane has no block lock when its turn is over is deferred (R389). -/
def Obligations.StartSequenceAndCalibration : Prop :=
  (∀ s : State,
    (s.pwr.power = 2 → s.time.started = false →
      ∃ t, exec .aonReady s = .next t ∧ t.time.started = true ∧ rb t (rPWR 4) 1 3 = 1 ∧
        (s.pwr.mrst = false → t.coreAwake = true ∧ t.pwr.phase = 1) ∧
        (s.pwr.mrst = true → t.coreAwake = s.coreAwake ∧ t.pwr.phase = s.pwr.phase)) ∧
    ((s.pwr.power ≠ 2 ∨ s.time.started = true) → exec .aonReady s = .next s) ∧
    (s.pwr.phase = 1 → ∃ t, exec .nvsLoadComplete s = .next t ∧ t.nvsLoaded = true ∧ t.pwr.phase = 2) ∧
    (s.pwr.phase ≠ 1 → exec .nvsLoadComplete s = .next s) ∧
    (s.pwr.phase = 2 → rbit s (rPWR 0) 0 = false →
      ∃ t, exec .powerupCalStart s = .next t ∧ t.coreAwake = true ∧ t.pwr.phase = 3 ∧ t.cal.on = true ∧ t.cal.power = true ∧
        t.cal.blocks = 7 ∧ t.groups = 0xFFFF) ∧
    ((s.pwr.phase ≠ 2 ∨ rbit s (rPWR 0) 0 = true) → exec .powerupCalStart s = .next s)) ∧
  (∀ (k : CycIx) (s : State) (l : List CalUnit), s.cal.on = false → exec (.calApply l k) s = .next (atCyc s k)) ∧
  (∀ (k : CycIx) (s : State), s.cal.on = true → s.cal.power = true →
    ∃ t, exec (.calApply [] k) s = .next t ∧ t.cal.on = false ∧ t.cal.power = false ∧ t.pwr.phase = 4 ∧
      rn t 0x100 = (rn s 0x100 + 1) % 2 ^ 32 ∧ rbit t 0x114 0 = true) ∧
  (∀ (g : Fin 16) (ofs : Int) (gain : Nat) (st : Int × Nat) (k : CycIx) (s : State), s.cal.on = true → s.cal.power = false →
    s.cal.blocks.testBit 2 = true → s.cal.blocks.testBit 3 = false → st = calTdc (storedCal s) g.val →
    ∃ t, exec (.calApply [.tdc g ofs gain] k) s = .next t ∧ t.cal.on = false ∧ rn t 0x100 = (rn s 0x100 + 1) % 2 ^ 32 ∧
      calTdc t.cal.live g.val =
        (if (ofs - st.1).natAbs * 1000 ≤ 20 * 65536 ∧ ((gain : Int) - st.2).natAbs * 50 ≤ st.2 then (ofs, gain) else st) ∧
      (¬ ((ofs - st.1).natAbs * 1000 ≤ 20 * 65536 ∧ ((gain : Int) - st.2).natAbs * 50 ≤ st.2) →
        rn t 0x118 = min (rn s 0x118 + 1) (2 ^ 32 - 1) ∧ rbit t 0x114 2 = true)) ∧
  ∀ (p : PortIx) (s : State),
    (s.cal.turns.contains p.val = true → (lane s (p.val / 8)).el = false →
      ∃ t, exec (.portCalDefer p) s = .next t ∧ rbit t (rPORT p.val 4) 2 = true ∧ t.cal.deferred = s.cal.deferred + 1 ∧
        t.cal.turns.contains p.val = false ∧ (∀ o, o ≠ rPORT p.val 4 → rd t o = rd s o) ∧
        t = { s with regs := t.regs, cal := t.cal }) ∧
    (s.cal.turns.contains p.val = false ∨ (lane s (p.val / 8)).el = true → exec (.portCalDefer p) s = .next s)

/-- Skim's visit of a running output whose turn it is in its group's round measures its inactive twin: a table in R390's
windows becomes live and makes it ready with age 0; for any other the stored breakpoints do, it counts, and the third in a
row marks it failed (R391, R393). In a natural gap, or at the hard limit by force, the ready twin takes over, and the one
that becomes inactive is not ready; a hop whose E1 ends the output period in progress makes the swap at the hard limit a
natural one, at once where the hop has executed and at the hop where it is queued (R181); at the soft limit the output is
reported once (R394 to R397). Where Skim may not act, or for a visit out of turn, nothing happens (R393, R398). -/
def Obligations.SkimMeasuresAndSwapsTwins : Prop :=
  ∀ (n : FodIx) (s : State),
    (skimMay s n.val = true → (fod s n.val).running = true → skimNext s (n.val / 8) = some n.val →
      (∀ l : List Int, dtcOk (calBreaks (storedCal s) (2 * n.val + b2n (!(fod s n.val).twinB))) l = true →
        ∃ t, exec (.skimMeasure n l) s = .next t ∧
        calBreaks t.cal.live (2 * n.val + b2n (!(fod s n.val).twinB)) = l ∧
        twinOf (fod t n.val) (!(fod s n.val).twinB) = ⟨false, true, (nowT s : Int), 0⟩ ∧
        twinOf (fod t n.val) (fod s n.val).twinB = twinOf (fod s n.val) (fod s n.val).twinB ∧
        rn t 0x124 = n.val + 128 * b2n (!(fod s n.val).twinB) ∧ (∀ k, k ≠ n.val → fod t k = fod s k) ∧
        ∀ o, o ≠ 0x124 → rd t o = rd s o) ∧
      ∀ l : List Int, dtcOk (calBreaks (storedCal s) (2 * n.val + b2n (!(fod s n.val).twinB))) l = false →
        ∃ t, exec (.skimMeasure n l) s = .next t ∧
        calBreaks t.cal.live (2 * n.val + b2n (!(fod s n.val).twinB)) =
          calBreaks (storedCal s) (2 * n.val + b2n (!(fod s n.val).twinB)) ∧
        (twinOf (fod t n.val) (!(fod s n.val).twinB)).ready = false ∧
        (twinOf (fod t n.val) (!(fod s n.val).twinB)).rejects = (twinOf (fod s n.val) (!(fod s n.val).twinB)).rejects + 1 ∧
        ((twinOf (fod t n.val) (!(fod s n.val).twinB)).failed =
          ((twinOf (fod s n.val) (!(fod s n.val).twinB)).failed ||
            decide (3 ≤ (twinOf (fod s n.val) (!(fod s n.val).twinB)).rejects + 1))) ∧
        rn t 0x118 = min (rn s 0x118 + 1) (2 ^ 32 - 1) ∧ (∀ k, k ≠ n.val → fod t k = fod s k) ∧
        RegsKept s t [0x114, 0x118, 0x124]) ∧
    (skimMay s n.val = true → skimReady (fod s n.val) = true → inGap s n.val = true →
      (twinOf (fod s n.val) (fod s n.val).twinB).born + 65536000000000 ≤ (twinOf (fod s n.val) (!(fod s n.val).twinB)).born →
      ∃ t, exec (.skimNaturalSwap n) s = .next t ∧ (fod t n.val).twinB = !(fod s n.val).twinB ∧
        (twinOf (fod t n.val) (fod s n.val).twinB).ready = false ∧ rn t 0x128 = min (rn s 0x128 + 1) (2 ^ 32 - 1) ∧
        (∀ k, k ≠ n.val → fod t k = fod s k) ∧ RegsKept s t [0x128, 0x140 + 4 * (n.val / 32)]) ∧
    (skimMay s n.val = true → (fod s n.val).running = true → skimReady (fod s n.val) = true →
      (skimHard s * 65536000000000 : Nat) ≤ activeAge s n.val →
      (hopAhead s n.val = false → hopInPeriod s n.val = false →
        ∃ t, exec (.skimForcedSwap n) s = .next t ∧ (fod t n.val).twinB = !(fod s n.val).twinB ∧
          (twinOf (fod t n.val) (fod s n.val).twinB).ready = false ∧ rn t 0x12C = min (rn s 0x12C + 1) (2 ^ 32 - 1) ∧
          rbit t (rFOD n.val 4) 9 = true ∧ ∀ k, k ≠ n.val → fod t k = fod s k) ∧
      (hopAhead s n.val = true →
        ∃ t, exec (.skimForcedSwap n) s = .next t ∧ (fod t n.val).twinB = !(fod s n.val).twinB ∧
          rn t 0x128 = min (rn s 0x128 + 1) (2 ^ 32 - 1) ∧ rd t 0x12C = rd s 0x12C ∧ ∀ k, k ≠ n.val → fod t k = fod s k) ∧
      (hopAhead s n.val = false → hopInPeriod s n.val = true →
        exec (.skimForcedSwap n) s = .next (setFod s n.val { fod s n.val with swapDue := true }))) ∧
    (skimMay s n.val = true → (skimSoft s * 65536000000000 : Nat) ≤ activeAge s n.val →
      rbit s (0x140 + 4 * (n.val / 32)) (n.val % 32) = false → queueFull s 0xD5 = false →
      ∃ t, exec (.softAge n) s = .next t ∧ rbit t (0x140 + 4 * (n.val / 32)) (n.val % 32) = true ∧
        (∀ o, o ≠ 0x140 + 4 * (n.val / 32) → rd t o = rd s o) ∧
        t = { enqueue s (mkReport s 0xD5 0x02 (n.val + 3 * 256) 0 0 false) with regs := t.regs }) ∧
    (skimNext s (n.val / 8) ≠ some n.val → ∀ l, exec (.skimMeasure n l) s = .next s) ∧
    (skimMay s n.val = false →
      (∀ l, exec (.skimMeasure n l) s = .next s) ∧
      exec (.skimNaturalSwap n) s = .next s ∧ exec (.skimForcedSwap n) s = .next s ∧ exec (.softAge n) s = .next s)

/-- An intake takes the one report that waits (R416). Of severity IGNORE it does nothing more; otherwise, where no shadow
covers it, its severity pends, the first error captures it or counts it, an isolating severity fences its source, and SAFE
takes the module to SAFE, where it is not in SAFE already (R420, R421, R427, R429, R433). With no report waiting, nothing but
the SMBus line is brought to date. A parity check that finds an error reports it with source 0xFF (R435, R440). -/
def Obligations.IntakeReactsBySeverity : Prop :=
  (∀ s : State, (∀ p ∈ s.fcol.queues, p.2 = []) → exec .faultIntake s = .next (smbEval s)) ∧
  (∀ (r : Report) (sev : Nat) (s : State), s.fcol.queues = [(r.src, [r])] → r.src < 0xDE →
    r.kind < 64 → r.master < 16 → r.access < 4 → sev = sevOf (sevNibble s r.src r.kind) →
    (∃ t, exec .faultIntake s = .next t ∧ t.fcol.intake = s.fcol.intake + 1) ∧
    (sev = 0 → shadowed s r.src r.kind r.addr = false →
      ∃ t, exec .faultIntake s = .next t ∧ t.fcol.pend = s.fcol.pend ∧ t.fcol.fenced = s.fcol.fenced ∧ t.rings = s.rings ∧
        t.fcol.safe = s.fcol.safe ∧ rn t (rFCOL 0x10) = rn s (rFCOL 0x10)) ∧
    (sev ≠ 0 → shadowed s r.src r.kind r.addr = false →
      ∃ t, exec .faultIntake s = .next t ∧
        pendOf t r.src = max (pendOf s r.src) sev ∧
        (sev = 1 → t.fcol.fenced = s.fcol.fenced ∧ t.fcol.safe = s.fcol.safe) ∧
        (rbit s (rFCOL 0x10) 31 = false → rbit t (rFCOL 0x10) 31 = true ∧
          rb t (rFCOL 0x10) 0 8 = r.src ∧ rb t (rFCOL 0x10) 8 6 = r.kind ∧ rn t (rFCOL 0x14) = r.addr % 2 ^ 32) ∧
        (rbit s (rFCOL 0x10) 31 = true → rn t (rFCOL 0x10) = rn s (rFCOL 0x10)) ∧
        ((sev = 2 ∨ sev = 3) → s.fcol.safe = false → hasIso r.src = true → srcFenced t r.src = true) ∧
        (sev = 4 → t.fcol.safe = true))) ∧
  ∀ s : State, exec (.sevParityCheck none) s = .next s ∧ exec (.sevParityCheck (some 0)) s = .next s ∧
    ∀ k : Fin 4, k.val ≠ 0 → queueFull s 0xFF = false →
      ∃ t, exec (.sevParityCheck (some k)) s = .next t ∧ t = enqueue s (mkReport s 0xFF k.val (rFCOL 4) 0 0 false)

/-- The writes of the collector post while FCOL is not BUSY, in AON_ONLY too: FAULT_INJECT lands the address and posts
source, kind and GO (R432), an unfence request, a clear of a pending bit and the re-arming of the first error post their word
(R48, R422, R427, R429). At a boundary a requested fence clears where R421 allows it, and a request on a source that is not
fenced ends (R422, R439); a software write of the request's register in the same cycle stands, with DISCARD (R56, R439). The
windows of a source that have run out close (R425). -/
def Obligations.CollectorCommandsPostAndClear : Prop :=
  (∀ (m : Master) (src : SrcIx) (s : State), AonOpen s → postBusy s 1 = false →
    (∀ (kind : Fin 64) (addr : BitVec 24), ∃ t, exec (.faultInject m src kind addr) s = .next t ∧
      t.posted = s.posted ++ [(1, ⟨m, rFCOL 8, 0, [src.val + kind.val * 2 ^ 8 + 2 ^ 31]⟩)] ∧
      rb t (rFCOL 0x0C) 0 24 = addr.toNat ∧ RegsKept s t [rFCOL 0x0C] ∧ MemKept s t) ∧
    (∃ t, exec (.unfenceRequest m src) s = .next t ∧
      t = { s with posted := s.posted ++ [(1, ⟨m, rFCOL (0x80 + 4 * (src.val / 32)), 1, [2 ^ (src.val % 32)]⟩)] }) ∧
    (∃ t, exec (.pendClear m src) s = .next t ∧
      t = { s with posted := s.posted ++ [(1, ⟨m, rFCOL (0x40 + 4 * (src.val / 32)), 0, [2 ^ (src.val % 32)]⟩)] }) ∧
    ∃ t, exec (.firstErrorRearm m) s = .next t ∧
      t = { s with posted := s.posted ++ [(1, ⟨m, rFCOL 0x10, 0, [2 ^ 31]⟩)] }) ∧
  (∀ (src : SrcIx) (s : State),
    (rbit s (rFCOL (0x80 + 4 * (src.val / 32))) (src.val % 32) = false → exec (.fenceClear src) s = .next (smbEval s)) ∧
    (rbit s (rFCOL (0x80 + 4 * (src.val / 32))) (src.val % 32) = true →
      (srcFenced s src.val = false →
        ∃ t, exec (.fenceClear src) s = .next t ∧ t.fcol = s.fcol ∧
          (softWrote s (rFCOL (0x80 + 4 * (src.val / 32))) = false →
            rbit t (rFCOL (0x80 + 4 * (src.val / 32))) (src.val % 32) = false) ∧
          (softWrote s (rFCOL (0x80 + 4 * (src.val / 32))) = true →
            rbit t (rFCOL (0x80 + 4 * (src.val / 32))) (src.val % 32) = true ∧ rbit t (rFCOL 4) 12 = true)) ∧
      (srcFenced s src.val = true → mayUnfence s src.val = true →
        ∃ t, exec (.fenceClear src) s = .next t ∧ srcFenced t src.val = false ∧
          (softWrote s (rFCOL (0x80 + 4 * (src.val / 32))) = false →
            rbit t (rFCOL (0x80 + 4 * (src.val / 32))) (src.val % 32) = false)) ∧
      (srcFenced s src.val = true → mayUnfence s src.val = false → exec (.fenceClear src) s = .next (smbEval s)))) ∧
  ∀ (src : SrcIx) (s : State), ∃ t, exec (.shadowWindowExpiry src) s = .next t ∧
    t.fcol.windows = s.fcol.windows.filter (fun w => decide (w.src ≠ src.val ∨ s.time.aon < w.until_)) ∧
    t = { s with fcol := { s.fcol with windows := t.fcol.windows } }

/-- A trigger while HOLD is clear and no snapshot is busy takes the next number (1 after 0xFFFF), and SNAP_CMD.NOW latches
its number in every awake unit; HOLD refuses it, with REFUSED, its count and a report of the write (R441 to R450, R546).
While a snapshot is BUSY it latches nothing new: its source joins SNAP_SRC, SNAP_MERGE_CNT counts it and MERGED is set; in
the cycle of the snapshot's own trigger it is one snapshot with it, whose T is the smaller one (R449). SNAP_CMD.ENQ enters an
action of SNAP_AT behind those queued while there is room; a due action triggers and leaves the queue. An edge of SNAP_IN
triggers where SNAP_CTRL selects it, at the edge's time less SNAP_IN's offset, which waits for a T that is still to come, and
one within 1 µs of the edge before it counts as merged (R442, R443). Completion shows the number, sets SNAP_DONE in every
core of a module that is not STANDBY and frees the trigger (R448); it waits for the core domain. -/
def Obligations.SnapshotsLatchAndComplete : Prop :=
  (∀ (m : Master) (k : CycIx) (s : State), BusOpen s →
    (rbit s (rSNAP 0) 20 = false → s.snap.busy = false →
      ∃ t, exec (.snapNow m k) s = .next t ∧ t.snap.busy = true ∧
        t.snap.id = (if s.snap.id = 0xFFFF then 1 else s.snap.id + 1) ∧ rn t (rSNAP 0x30) = 1 ∧
        t.snap.t = ratT (nowR (atCyc s k)) ∧ t.snap.queue = s.snap.queue ∧
        (∀ u ∈ snapUnits s, rn t (rSNAP (0x104 + 8 * u)) = t.snap.id % 2 ^ 32) ∧ MemKept s t) ∧
    (rbit s (rSNAP 0) 20 = false → s.snap.busy = true →
      (s.snap.inst ≠ cycNo (atCyc s k) →
        ∃ t, exec (.snapNow m k) s = .next t ∧ t.snap = s.snap ∧ rn t (rSNAP 0x30) = rn s (rSNAP 0x30) ||| 1 ∧
          rn t (rSNAP 0x44) = min (rn s (rSNAP 0x44) + 1) (2 ^ 32 - 1) ∧ rbit t (rSNAP 4) 24 = true ∧
          RegsKept s t [rSNAP 4, rSNAP 0x30, rSNAP 0x44] ∧ MemKept s t) ∧
      (s.snap.inst = cycNo (atCyc s k) →
        ∃ t, exec (.snapNow m k) s = .next t ∧ t.snap.id = s.snap.id ∧ t.snap.busy = true ∧
          rn t (rSNAP 0x30) = rn s (rSNAP 0x30) ||| 1 ∧ rd t (rSNAP 0x44) = rd s (rSNAP 0x44) ∧
          t.snap.t = (if nowR (atCyc s k) < (s.snap.t : Rat) then ratT (nowR (atCyc s k)) else s.snap.t) ∧ MemKept s t)) ∧
    (rbit s (rSNAP 0) 20 = true →
      ∃ t, exec (.snapNow m k) s = .next t ∧ rbit t (rSNAP 4) 25 = true ∧
        rn t (rSNAP 0x48) = min (rn s (rSNAP 0x48) + 1) (2 ^ 32 - 1) ∧ t.snap = s.snap ∧
        ((mget (fun _ => []) s.fcol.queues srcCnt).length < 3 →
          mkReport (atCyc s k) srcCnt kSnapRefused (rSNAP 8) m 2 false ∈ mget (fun _ => []) t.fcol.queues srcCnt) ∧
        RegsKept s t [rSNAP 4, rSNAP 0x48] ∧ MemKept s t) ∧
    (s.snap.queue.length < 4 →
      ∃ t, exec (.snapEnq m k) s = .next t ∧
        t.snap.queue = s.snap.queue ++ [mkAct (atCyc s k) (rL s (rSNAP 0x10) 2) none .snap] ∧ RegsKept s t [] ∧ MemKept s t) ∧
    ∃ t, exec (.snapHold m) s = .next t ∧ rbit t (rSNAP 0) 20 = true ∧ t.snap = s.snap ∧ MemKept s t) ∧
  (∀ (k : CycIx) (a : QAct) (s : State), s.fcol.safe = false → s.snap.queue = [a] →
    (a.due ≤ (nextT s : Int) → rbit s (rSNAP 0) 20 = false → s.snap.busy = false →
      ∃ t, exec (.queuedSnap k) s = .next t ∧ t.snap.queue = [] ∧ t.snap.busy = true ∧
        t.snap.id = (if s.snap.id = 0xFFFF then 1 else s.snap.id + 1) ∧ (s.coreAwake = true → MemKept s t)) ∧
    ((nextT s : Int) < a.due → exec (.queuedSnap k) s = .next (atCyc s k))) ∧
  (∀ (d : Int) (k : CycIx) (s : State),
    (rbit s (rSNAP 0) 1 = false → exec (.snapInEdge d k) s = .next (atCyc s k)) ∧
    (rbit s (rSNAP 0) 1 = true → s.snap.lastIn = none → s.snap.busy = false →
      (nowT (atCyc s k) : Int) < d - sx 32 (rn s (rSNAP 0x38)) →
      exec (.snapInEdge d k) s = .next { atCyc s k with
        snap := { s.snap with lastIn := some d, later := s.snap.later ++ [(d - sx 32 (rn s (rSNAP 0x38)), 8)] } }) ∧
    (rbit s (rSNAP 0) 1 = true → s.snap.lastIn = none → rbit s (rSNAP 0) 20 = false → s.snap.busy = false →
      d - sx 32 (rn s (rSNAP 0x38)) ≤ (nowT (atCyc s k) : Int) →
      ∃ t, exec (.snapInEdge d k) s = .next t ∧ t.snap.busy = true ∧ rn t (rSNAP 0x30) = 8 ∧ t.snap.lastIn = some d ∧
        t.snap.t = (d - sx 32 (rn s (rSNAP 0x38))).toNat ∧ (s.coreAwake = true → MemKept s t)) ∧
    (∀ u : Int, rbit s (rSNAP 0) 1 = true → s.snap.lastIn = some u → d < u + 65536000 →
      ∃ t, exec (.snapInEdge d k) s = .next t ∧ rn t (rSNAP 0x44) = min (rn s (rSNAP 0x44) + 1) (2 ^ 32 - 1) ∧
        t.snap = s.snap ∧ RegsKept s t [rSNAP 0x44] ∧ MemKept s t)) ∧
  ∀ s : State,
    (s.snap.busy = true → s.coreAwake = true →
      ∃ t, exec (.snapComplete []) s = .next t ∧ t.snap = { s.snap with busy := false } ∧
        rb t (rSNAP 4) 0 16 = s.snap.id % 2 ^ 16 ∧ rn t (rSNAP 0x40) = min (rn s (rSNAP 0x40) + 1) (2 ^ 32 - 1) ∧
        (s.standby = false → ∀ n < 8, rbit t (rSEQ n 0x30) 11 = true) ∧ MemKept s t) ∧
    (s.snap.busy = false ∨ s.coreAwake = false → exec (.snapComplete []) s = .next s)

/-! ## The mirrored pair -/

/-- The role. A standby that may claim takes the ACTIVE role, counts the claim and shows the change (R462, R481); one whose
mate loses MATE_ALIVE with its MATE_ACTIVE low takes the role too (R462), and so does one to which a HANDOVER comes, outside
SAFE (R433, R481). YIELD gives activity to a ready mate and leaves the role otherwise (R481). The mate's lines, lanes and
STATUS are noted as they come, a STATUS of the module's own NODE_ID as a clash; one of two lanes that goes down is LANE_DOWN,
the last LINK_DOWN with MATE_LOST in every core (R458, R461, R466). The owner bits of a group go out on the OWN bus where the
module drives it (R478, R480). -/
def Obligations.RoleFollowsLinesLanesAndMessages : Prop :=
  (∀ s : State,
    (mayClaim s = true → ∃ t, exec .claim s = .next t ∧ t.standby = false ∧ t.mate.nrWhy = 0 ∧
      rn t (rMATE 0x54) = min (rn s (rMATE 0x54) + 1) (2 ^ 32 - 1) ∧ rbit t (rMATE 4) 8 = true ∧
      ∀ a, a < 0x880000 ∨ 0x881000 ≤ a → mb t a = mb s a) ∧
    (mayClaim s = false → exec .claim s = .next (smbEval s)) ∧
    (mateHears s = true → s.standby = true → s.fcol.safe = false →
      ∃ t, exec .handover s = .next t ∧ t.standby = false ∧ t.mate.nrWhy = 0 ∧ rbit t (rMATE 4) 8 = true ∧ MemKept s t) ∧
    (mateHears s = false ∨ s.standby = false ∨ s.fcol.safe = true → exec .handover s = .next (smbEval s)) ∧
    (∃ t, exec .mateStatusStale s = .next t ∧ t.mate.fresh = false ∧ t.mateReady = false ∧ t.standby = s.standby ∧ MemKept s t)) ∧
  (∀ (alive level : Bool) (s : State),
    (∃ t, exec (.mateLineChange alive level) s = .next t ∧
      t.mate.lineAlive = (if alive then level else s.mate.lineAlive) ∧
      t.mate.lineActive = (if alive then s.mate.lineActive else level)) ∧
    (paired s = true → s.standby = true → s.mate.lineActive = false → s.fcol.safe = false → ownAlive s = true →
      alive = true → level = false →
      ∃ t, exec (.mateLineChange alive level) s = .next t ∧ t.standby = false ∧ t.mate.nrWhy = 0)) ∧
  (∀ (l : Fin 2) (s : State),
    (paired s = true → 3 ≤ s.pwr.phase →
      ∃ t, exec (.mateLaneUp l) s = .next t ∧ t.mate.lane0 = (decide (l = 0) || s.mate.lane0) ∧
        t.mate.lane1 = (decide (l = 1) || s.mate.lane1) ∧ MemKept s t) ∧
    (paired s = false ∨ s.pwr.phase < 3 → exec (.mateLaneUp l) s = .next s) ∧
    ∃ t, exec (.mateLaneDown l) s = .next t ∧ t.mate.lane0 = (!decide (l = 0) && s.mate.lane0) ∧
      t.mate.lane1 = (!decide (l = 1) && s.mate.lane1) ∧ MemKept s t ∧
      (paired s = true → queueFull s 0xD7 = false → s.mate.lane0 = true → s.mate.lane1 = true →
        mkReport s 0xD7 0x02 (rMATE 4) 0 0 false ∈ mget (fun _ => []) t.fcol.queues 0xD7) ∧
      (paired s = true → queueFull s 0xD7 = false → s.mate.lane0 = decide (l = 0) → s.mate.lane1 = decide (l = 1) →
        mkReport s 0xD7 0x01 (rMATE 4) 0 0 false ∈ mget (fun _ => []) t.fcol.queues 0xD7 ∧
          ∀ n < 8, rbit t (rSEQ n 0x34) 27 = true)) ∧
  (∀ (m : Master) (s : State), BusOpen s →
    (s.standby = false → s.mateReady = true → ∃ t, exec (.yield m) s = .next t ∧ t.standby = true ∧ t.mate.nrWhy = 1) ∧
    (s.standby = true ∨ s.mateReady = false → ∃ t, exec (.yield m) s = .next t ∧ t.standby = s.standby ∧ t.mate.nrWhy = s.mate.nrWhy ∧
      RegsKept s t [] ∧ MemKept s t)) ∧
  (∀ (st : StatusMsg) (s : State),
    (mateHears s = true → rxNew s st.q = true → ∃ t, exec (.status st) s = .next t ∧ t.mate.fresh = true ∧ t.standby = s.standby ∧
      t.mate.reportsReady = (!st.active && st.ready) ∧ t.mate.clash = decide (st.node = nodeId s)) ∧
    (mateHears s = false ∨ rxNew s st.q = false → exec (.status st) s = .next (smbEval s))) ∧
  ∀ (g : Fin 16) (s : State),
    (drivesOwn s = true → ∃ t, exec (.ownRefresh g) s = .next t ∧
      t.out = .own g.val (ownFrame 1 (b2n s.mate.slotB) g.val (ownBits s g.val) s.mate.ownSeq) :: s.out ∧
      t.mate.ownSeq = (s.mate.ownSeq + 1) % 128 ∧ t = { s with mate := t.mate, out := t.out }) ∧
    (drivesOwn s = false → exec (.ownRefresh g) s = .next s)

/-- The messages of the pair. Two-way time transfer sends its request and answers it with the two times, and a response gives
MATE_OFS and MATE_RTT (R467). A checkpoint replaces the mailbox alone of the memories and sets MATE_CKPT in every core; one
that stays out for 3 ms is reported and leaves the newest not fresh (R460, R476). STATUS carries role, readiness and NR_WHY
(R477). EVENTS reach the shadowing cores and refresh the mirrored registers, a forwarded write or submission acts as master
3, a word of WORDS waits for the boundary at which it acts, a LEDGER record or witness anchor joins its list, SNAP triggers
with the mate's time and number (R441, R472 to R474, R483). An image waits for its apply cycle, which ends it (R485). A
module that does not hear the mate, or is not in the role, does nothing, and so does one that has taken a message of that
sequence number already (R465). -/
def Obligations.MateMessagesTakeEffectInTheirRole : Prop :=
  (∀ (l : Fin 2) (k : CycIx) (s : State),
    (mateHears s = true → s.standby = true → mateLaneOn s l.val = true →
      ∃ t, exec (.twtReqSend l k) s = .next t ∧
        t.out = .mate l.val 0x80 [(nodeId s : Int), (s.mate.txSeq : Int), (nowT (atCyc s k) : Int)] :: s.out) ∧
    (mateHears s = false ∨ s.standby = false ∨ mateLaneOn s l.val = false → exec (.twtReqSend l k) s = .next (atCyc s k))) ∧
  (∀ (l : Fin 2) (t1 t2 t3 t4 : Int) (s : State),
    (mateHears s = true → s.standby = false → mateLaneOn s l.val = true →
      ∃ t, exec (.twtReq l t1 t2 t3) s = .next t ∧
        t.out = .mate l.val 0x81 [(nodeId s : Int), (s.mate.txSeq : Int), t2, t3] :: s.out) ∧
    (mateHears s = true → s.standby = true → mateLaneOn s l.val = true →
      ∃ t, exec (.twtResp l t1 t2 t3 t4) s = .next t ∧
        rL t (rMATE (0x30 + 8 * l.val)) 2 =
          tw 48 (((t2 - t1) - (t4 - t3) - sx 32 (rn s (rMATE (0x20 + 4 * l.val)))) / 2) ∧
        rn t (rMATE (0x40 + 4 * l.val)) = tw 32 ((t4 - t1 - (t3 - t2)) / 65536) ∧ MemKept s t) ∧
    (mateHears s = false ∨ mateLaneOn s l.val = false ∨ s.standby = true → exec (.twtReq l t1 t2 t3) s = .next s) ∧
    (mateHears s = false ∨ mateLaneOn s l.val = false ∨ s.standby = false → exec (.twtResp l t1 t2 t3 t4) s = .next s)) ∧
  (∀ (c : CkptMsg) (s : State),
    (mateHears s = true → s.standby = true → rxNew s c.q = true →
      ∃ t, exec (.ckpt c) s = .next t ∧ t.mate.ckpt = some c ∧ t.mate.ckptFresh = true ∧ t.mate.mirror = c.regs ∧
        rn t (rMATE 0x4C) = c.seqNo % 2 ^ 32 ∧ (∀ n < 8, rbit t (rSEQ n 0x34) 25 = true) ∧
        ∀ a, a < 0x880000 ∨ 0x881000 ≤ a → mb t a = mb s a) ∧
    (mateHears s = false ∨ s.standby = false ∨ rxNew s c.q = false → exec (.ckpt c) s = .next (smbEval s))) ∧
  (∀ s : State,
    (paired s = true → s.standby = true → queueFull s 0xD7 = false →
      ∃ t, exec .ckptMiss s = .next t ∧ t.mate.ckptFresh = false ∧
        mkReport s 0xD7 0x03 (rMATE 4) 0 0 false ∈ mget (fun _ => []) t.fcol.queues 0xD7 ∧ (∀ o, rd t o = rd s o) ∧ MemKept s t) ∧
    (paired s = false ∨ s.standby = false → exec .ckptMiss s = .next (smbEval s)) ∧
    (s.pwr.power = 2 → s.pwr.mrst = false → paired s = true →
      ∃ t f, exec .statusSend s = .next t ∧ t.out = mateOut s 0x83 f ++ s.out ∧
        f.take 3 = [(b2n (!s.standby) : Int), (b2n (s.standby && decide (s.mate.nrWhy = 0)) : Int), (s.mate.nrWhy : Int)] ∧
        t = { s with mate := t.mate, out := t.out }) ∧
    (s.pwr.power ≠ 2 ∨ s.pwr.mrst = true → exec .statusSend s = .next s) ∧
    (s.standby = true → s.mate.imageDone = true →
      ∃ t, exec .mateSyncApply s = .next t ∧ t.mate.image = [] ∧ t.mate.imageDone = false ∧ t.mate.hold2 = false ∧
        t.mate.diverged = false ∧ t.mate.unequal = 0) ∧
    (s.standby = false ∨ s.mate.imageDone = false → exec .mateSyncApply s = .next (smbEval s))) ∧
  (∀ (e : EventsMsg) (s : State),
    (mateHears s = true → s.standby = true → rxNew s e.q = true →
      ∃ t, exec (.events e) s = .next t ∧
        t.mate.mirror = e.regs ++ s.mate.mirror.filter (fun p => e.regs.all (fun q => decide (q.1 ≠ p.1))) ∧
        (∀ n < 8, ∀ j < 64, rbit s (rSEQ n 0) 3 = true → e.bits.getLsbD j = true → evtMirrored j = true → (seqPend t n).testBit j = true) ∧
        (∀ n < 8, rbit s (rSEQ n 0) 3 = false → seqPend t n = seqPend s n) ∧
        (∀ o, faultReg o = false → evtRegs o = false → rd t o = rd s o) ∧ MemKept s t) ∧
    (mateHears s = false ∨ s.standby = false ∨ rxNew s e.q = false → exec (.events e) s = .next s)) ∧
  (∀ (q : BitVec 8) (s : State), mateHears s = true → s.standby = true → rxNew s q = true →
    (∀ (off view : Nat) (v : Word) (i : RegInfo), BusOpen s → off % 4 = 0 → off < 2 ^ 24 → view < 4 → regInfo off = some i →
      (i.blk = .corr ∨ i.blk = .ringWide ∨ i.blk = .lath) → i.row.words = 1 → allRo i = false →
      ∃ t, exec (.fwd ⟨q, .write (off + view * 2 ^ 24) v⟩) s = .next t ∧
        rd t off = wd (clr (clr (rn s off) i.row.rw ||| (viewApply view (rn s off) v.toNat &&& i.row.rw)) (v.toNat &&& i.row.w1c)) ∧
        rn t (rMATE 0x5C) = min (rn s (rMATE 0x5C) + 1) (2 ^ 32 - 1) ∧
        RegsKept s t [off, rMATE 0x5C, rSEAL 4, rSEAL 0x18] ∧ MemKept s t) ∧
    (∀ (w0 w1 w2 w3 : Word) (k : Nat) (rest : List Nat), s.nvsLoaded = true → cmdRefusal s 3 (w0.toNat % 256) = 0 →
      s.cmd.frees = k :: rest →
      ∃ t x, exec (.fwd ⟨q, .command w0 w1 w2 w3⟩) s = .next t ∧ t.cmd.slots = s.cmd.slots ++ [(k, x)] ∧ x.master = 3 ∧
        x.w0 = w0.toNat ∧ x.w1 = w1.toNat ∧ x.w2 = w2.toNat ∧ x.w3 = w3.toNat ∧ MemKept s t) ∧
    (∀ d1 d2 d3 : Option WordMsg, ∃ t, exec (.words ⟨q, d1⟩ d2 d3) s = .next t ∧
      (∀ v, d1 = some v → (dp t 1).received = (boundaryAt s v.acts, v.word) :: (dp s 1).received) ∧
      (∀ v, d2 = some v → (dp t 2).received = (boundaryAt s v.acts, v.word) :: (dp s 2).received) ∧
      (∀ v, d3 = some v → (dp t 3).received = (boundaryAt s v.acts, v.word) :: (dp s 3).received) ∧
      (d1 = none → dp t 1 = dp s 1) ∧ (d2 = none → dp t 2 = dp s 2) ∧ (d3 = none → dp t 3 = dp s 3) ∧ dp t 0 = dp s 0 ∧
      t = { rxNote s q with dps := t.dps }) ∧
    ∀ (i : ImageItem) (last : Bool), ∃ t, exec (.image ⟨q, i⟩ last) s = .next t ∧ t.mate.image = s.mate.image ++ [i] ∧
      t.mate.imageDone = last ∧ t = { s with mate := t.mate }) ∧
  (∀ (q : BitVec 8) (s : State), mateHears s = false ∨ s.standby = false ∨ rxNew s q = false →
    (∀ i, exec (.fwd ⟨q, i⟩) s = .next s) ∧ (∀ d1 d2 d3, exec (.words ⟨q, d1⟩ d2 d3) s = .next s) ∧
    ∀ i last, exec (.image ⟨q, i⟩ last) s = .next s) ∧
  (∀ s : State, (∀ n r, mateHears s = false ∨ rxNew s r.q = false → exec (.ledger n r) s = .next s) ∧
    ∀ m id k, mateHears s = false ∨ rxNew s m.q = false → exec (.snap m id k) s = .next (atCyc s k)) ∧
  ∀ s : State, mateHears s = true →
    (∀ (n : FodIx) (r : LedgerRec) (v : Rat), rxNew s r.q = true → r.step = some v → ∃ t, exec (.ledger n r) s = .next t ∧
      (mget (fun _ => []) t.mate.anchors n.val).head? = some ⟨r.cycle, v, r.time, trailSum s (fod s n.val).sc, 0⟩ ∧
      t.mate.ledger = s.mate.ledger ∧ t = { s with mate := t.mate }) ∧
    (∀ (n : FodIx) (r : LedgerRec), rxNew s r.q = true → r.step = none → ∃ t q l, exec (.ledger n r) s = .next t ∧
      mget (fun _ => []) t.mate.ledger n.val = q :: l ∧ q.kind = r.kind ∧ q.info = r.info ∧ q.cycle = r.cycle ∧ q.time = r.time ∧
      q.period = r.period ∧ q.slope = r.slope ∧ (r.kind = 1 → l = [] ∧ q.seqNo = 0) ∧ l.length ≤ 63 ∧
      (∀ m, m ≠ n.val → mget (fun _ => []) t.mate.ledger m = mget (fun _ => []) s.mate.ledger m) ∧ t = { s with mate := t.mate }) ∧
    ∀ (m : SnapMsg) (id : BitVec 16) (k : CycIx), rxNew s m.q = true →
      (rbit s (rSNAP 0) 3 = true → rbit s (rSNAP 0) 20 = false → s.snap.busy = false → m.t ≤ nowT (atCyc s k) →
        ∃ t, exec (.snap m id k) s = .next t ∧ t.snap.busy = true ∧ t.snap.t = m.t ∧ rn t (rSNAP 0x34) = id.toNat ∧
          rn t (rSNAP 0x30) = 16 ∧ (s.coreAwake = true → MemKept s t)) ∧
      (rbit s (rSNAP 0) 3 = true → s.snap.busy = false → nowT (atCyc s k) < m.t →
        ∃ t, exec (.snap m id k) s = .next t ∧ t.snap = { s.snap with later := s.snap.later ++ [((m.t : Int), 16)] }) ∧
      (rbit s (rSNAP 0) 3 = false → exec (.snap m id k) s = .next (atCyc s k))

/-! ## Power, supply and resets -/

/-- Resets and domains. POR clears everything but the store and leaves cause 1 with what was outstanding (R20, R351, R512,
R514); MRST_N halts the cores, gives up the role and SAFE, empties the queues, keeps time and leaves cause 2 until its
release runs the start sequence, which waits for AON ready (R509, R512, R318); a SOFT reset and the watchdog keep time, role
and SAFE, leave cause 3 or 4 with the state before, and start the running cores again from SEQ_ENTRY (R318, R510 to R514). A
kick and a clear of PARK are posted, in AON_ONLY too (R507, R511). A sleeping core domain wakes, in AON_ONLY also for a read
that needs it, and sleeps in AON_ONLY 10 ms after the last access that needed it (R505, R506). An input in range takes OFF to
CHARGE (R496); without energy the module is OFF, and the ordered shutdown leaves a LOG entry with cause 5 first where stores
are enabled and the store is not fenced (R405, R414, R501, R515). -/
def Obligations.ResetsAndSupplyLossKeepWhatTheySay : Prop :=
  (∀ s : State,
    (s.pwr.power ≠ 0 → ∃ t, exec .por s = .next t ∧ t.pwr.power = 2 ∧ t.pwr.phase = 0 ∧ BanksLeft s t ∧
      t.time = State.reset.time ∧ t.fcol = State.reset.fcol ∧ t.cmd = State.reset.cmd ∧ t.fods = State.reset.fods ∧
      t.scs = State.reset.scs ∧ t.seqs = State.reset.seqs ∧ t.standby = State.reset.standby ∧ t.posted = [] ∧
      (s.cmd.slots = [] → s.pwr.lost = (0, 0) → rn t (rPWR 0x40) = 1 ∧ rn t (rPWR 0x44) = 0) ∧
      (s.cmd.slots ≠ [] → rn t (rPWR 0x40) = 1 + (cmdLost s).1 ∧ rn t (rPWR 0x44) = (cmdLost s).2 % 2 ^ 32) ∧
      (∀ o, o ≠ rPWR 0x40 → o ≠ rPWR 0x44 → rd t o = rd State.reset o) ∧ ∀ a, mb t a = mb State.reset a) ∧
    (s.pwr.power = 0 → exec .por s = .next s ∧ ∀ dc, ∃ t, exec (.inputInRange dc) s = .next t ∧ t.pwr.power = 1 ∧
      t = { s with pwr := t.pwr }) ∧
    (s.pwr.power ≠ 0 → ∀ dc, exec (.inputInRange dc) s = .next s) ∧
    (∃ t, exec .supplyCollapse s = .next t ∧ t.pwr.power = 0 ∧ BanksLeft s t ∧
      t.time = State.reset.time ∧ t.fcol = State.reset.fcol) ∧
    (s.pwr.power = 2 → rbit s (rPWR 4) 5 = true →
      ∃ t, exec .orderedShutdown s = .next t ∧ t.pwr.power = 0 ∧ t.nvs.job = none ∧ t.time = State.reset.time ∧
        (s.nvs.job = none → rbit s (rNVS 0) 0 = true → srcFenced s 0xD4 = false →
          bankValid 5 (storeTarget s 5) (bankOf t 5 (storeTarget s 5)) = true ∧
          payWord (bankOf t 5 (storeTarget s 5)).words 0 % 16 = 5 ∧
          payWord (bankOf t 5 (storeTarget s 5)).words 0 / 16 % 16 = pwrState s ∧
          (∀ r k, k < 1024 → (r ≠ 5 ∨ k ≠ storeTarget s 5) → bankOf t r k = bankOf s r k)) ∧
        (s.nvs.job = none → rbit s (rNVS 0) 0 = false ∨ srcFenced s 0xD4 = true → t.nvs.banks = s.nvs.banks)) ∧
    (s.pwr.power ≠ 2 ∨ rbit s (rPWR 4) 5 = false → exec .orderedShutdown s = .next s)) ∧
  (∀ s : State,
    (s.pwr.power = 2 → s.pwr.mrst = false →
      ∃ t, exec .mrstNAssert s = .next t ∧ t.pwr.mrst = true ∧ t.standby = true ∧ t.mate.nrWhy = 1 ∧ t.fcol.safe = false ∧
        t.fcol.fenced = [] ∧ t.cmd.slots = [] ∧ t.time.queue = [] ∧ t.snap.queue = [] ∧ t.nvsLoaded = false ∧
        t.coreAwake = false ∧ pwrState t = 1 ∧ t.time.aon = s.time.aon ∧ t.time.started = s.time.started ∧
        rb t (rPWR 0x40) 0 4 = 2 ∧ rb t (rPWR 0x40) 4 4 = pwrState s ∧
        (∀ n < 8, rb t (rSEQ n 4) 0 3 = 0 ∧ rb t (rSEQ n 4) 9 2 = 1) ∧
        ∀ n < 128, (fod t n).queue = [] ∧ (fod t n).running = false ∧ (fod t n).hops = (fod s n).hops) ∧
    (s.pwr.power ≠ 2 ∨ s.pwr.mrst = true → exec .mrstNAssert s = .next (smbEval s)) ∧
    (s.pwr.mrst = true → s.time.started = false → ∃ t, exec .mrstNRelease s = .next t ∧ t.pwr.mrst = false ∧
      t = { s with pwr := t.pwr } ∧ t.pwr.phase = s.pwr.phase) ∧
    (s.pwr.mrst = true → s.time.started = true → ∃ t, exec .mrstNRelease s = .next t ∧ t.pwr.mrst = false ∧ t.pwr.phase = 1 ∧ t.coreAwake = true ∧
      pwrState t = 1 ∧ t.time.aon = s.time.aon ∧
      ∀ n < 8, rb s (rSEQ n 4) 0 3 = 0 → rbit s (rSEQ n 0) 2 = true → rbit s (rSEQ n 4) 8 = true → srcFenced s (0xCA + n) = false →
        rb t (rSEQ n 4) 0 3 = 1 ∧ seqPc t n = rb s (rSEQ n 0x2C) 0 12) ∧
    (s.pwr.mrst = false → exec .mrstNRelease s = .next s)) ∧
  (∀ (m : Master) (s : State), BusOpen s →
    (∃ t, exec (.softReset m) s = .next t ∧ t.shadow = [] ∧ t.staging = [] ∧ t.corrPause = true ∧ t.standby = s.standby ∧
      t.time.aon = s.time.aon ∧ t.fods = s.fods ∧ (s.cmd.own = [] → t.cmd.slots = []) ∧
      rb t (rPWR 0x40) 0 4 = 3 ∧ rb t (rPWR 0x40) 4 4 = pwrState s ∧ rb t (rPWR 0x40) 24 4 = m.val ∧
      ∀ n < 8, rb s (rSEQ n 4) 0 3 ≠ 0 → rbit s (rSEQ n 4) 8 = true → srcFenced s (0xCA + n) = false →
        rb t (rSEQ n 4) 0 3 = 1 ∧ rb t (rSEQ n 4) 9 2 = 2 ∧ seqPc t n = rb s (rSEQ n 0x2C) 0 12)) ∧
  (∀ (m : Master) (s : State), AonOpen s →
    (postBusy s 3 = false →
      (∃ t, exec (.watchdogKick m) s = .next t ∧ t = { s with posted := s.posted ++ [(3, ⟨m, rPWR 0x34, 0, [0x4B1C]⟩)] }) ∧
      ∃ t, exec (.parkRelease m) s = .next t ∧ t.posted = s.posted ++ [(3, ⟨m, rPWR 0, 2, [1]⟩)] ∧
        RegsKept s t [rSEAL 4, rSEAL 0x18] ∧ MemKept s t)) ∧
  (∀ (kick : Bool) (s : State),
    (s.pwr.power = 2 → s.pwr.mrst = false → s.fcol.safe = false →
      (kick = false → s.coreAwake = true) →
      (kick = true → rbit s (rPWR 0x30) 16 = true ∧ s.pwr.wdAt + max 1 (rb s (rPWR 0x30) 0 16) * 10000 ≤ s.time.aon) →
      ∃ t, exec (.watchdogExpiry kick) s = .next t ∧ rn t (rPWR 0x70) = min (rn s (rPWR 0x70) + 1) (2 ^ 32 - 1) ∧
        rb t (rPWR 0x40) 0 4 = 4 ∧ rb t (rPWR 0x40) 4 4 = pwrState s ∧ rbit t (rPWR 0x40) 23 = kick ∧ t.shadow = [] ∧
        t.staging = [] ∧ t.corrPause = true ∧ t.standby = s.standby) ∧
    (s.pwr.power ≠ 2 ∨ s.pwr.mrst = true ∨ s.fcol.safe = true ∨ (kick = false ∧ s.coreAwake = false) ∨
      (kick = true ∧ rbit s (rPWR 0x30) 16 = false) → exec (.watchdogExpiry kick) s = .next s)) ∧
  ∀ s : State,
    (s.coreAwake = false → s.pwr.power = 2 → s.pwr.mrst = false → s.pwr.phase ≠ 0 →
      ∃ t, exec .coreWake s = .next t ∧ t.coreAwake = true ∧ t.fcol.buffer = []) ∧
    (s.coreAwake = true ∨ s.pwr.power ≠ 2 ∨ s.pwr.mrst = true ∨ s.pwr.phase = 0 →
      exec .coreWake s = .next { s with pwr := { s.pwr with coreAt := s.time.aon } }) ∧
    (∀ (m : Master) (addr : Nat) (k : CycIx), s.coreAwake = false → s.pwr.power = 2 → s.pwr.mrst = false → s.pwr.phase ≠ 0 →
      pwrState s = 1 → s.nvsLoaded = true → aonAnswers (addr % 2 ^ 24 / 4 * 4) true = false → inMsix (addr % 2 ^ 24) = false →
      ∃ t, exec (.shadowLatchRead m addr 32 k) s = .next t ∧ t.coreAwake = true ∧ t.pwr.coreAt = s.time.aon) ∧
    (s.coreAwake = true → pwrState s = 1 → s.pwr.coreAt + 100000 ≤ s.time.aon →
      ∃ t, exec .coreSleep s = .next t ∧ t.coreAwake = false ∧ t.time.interp = false ∧
        t.seal_.passOn = false ∧ t = { s with coreAwake := false, time := t.time, seal_ := { s.seal_ with passOn := false } }) ∧
    (s.coreAwake = false ∨ pwrState s ≠ 1 ∨ s.time.aon < s.pwr.coreAt + 100000 → exec .coreSleep s = .next s)

/-- The supply monitor and ride-through. A measured value shows in PWR_IN, PWR_STORE, PWR_LOAD and PWR_STATUS; it classifies
dips, swells and interruptions against the nominal value, each counted at its end, and takes the module to RIDE below or
above the limits of R494 (R492, R494, R498, R502, R503), with RIDE_ENTRY, and OVERVOLTAGE where the value rises above its
limit (R518). A zero crossing and a summary present a SUPPLY record where they are enabled (R504). The input in its range for
100 ms ends RIDE (R494, R499); at 20 s a ready mate takes over, at 30 s or 9 V the two stores are issued, once the load is
over (R498, R500). -/
def Obligations.SupplyIsMonitoredAndRiddenThrough : Prop :=
  (∀ (dc : Bool) (value freq store load : Nat) (asic : LoadMsg) (k : CycIx) (s : State),
    (s.time.started = false → exec (.supplyMeasure dc value freq store load asic k) s = .next (smbEval (atCyc s k))) ∧
    (s.time.started = true → value < 2 ^ 16 → freq < 2 ^ 16 → store < 2 ^ 16 → load < 2 ^ 16 → asic.asic < 2 ^ 16 →
      ∃ t, exec (.supplyMeasure dc value freq store load asic k) s = .next t ∧
        rn t (rPWR 0x10) = value + (if dc then 0 else freq) * 65536 ∧ rn t (rPWR 0x0C) = store ∧
        rn t (rPWR 0x14) = load + asic.asic * 65536 ∧ t.pwr.draw = asic.draw ∧ rbit t (rPWR 4) 4 = dc ∧ rbit t (rPWR 4) 7 = decide (16000 ≤ store) ∧
        (s.pwr.ride = none →
          ((value < if dc then 8000 else 7500) ∨ (if dc then 33000 else 29000) < value) → 2 ≤ pwrState s →
          t.pwr.ride = some s.time.aon ∧ rbit t (rPWR 4) 5 = true ∧ rbit t (rPWR 4) 19 = true ∧
          (s.fcol.safe = false → pwrState t = 4) ∧ rn t (rPWR 0x60) = min (rn s (rPWR 0x60) + 1) (2 ^ 32 - 1) ∧
          (queueFull s 0xD8 = false → value ≤ (if dc then 33000 else 29000) →
            mkReport (atCyc s k) 0xD8 0x01 (rPWR 4) 0 0 false ∈ mget (fun _ => []) t.fcol.queues 0xD8) ∧
          (queueFull s 0xD8 = false → (if dc then 33000 else 29000) < value →
            rb s (rPWR 0x10) 0 16 ≤ (if rbit s (rPWR 4) 4 then 33000 else 29000) →
            mkReport (atCyc s k) 0xD8 0x03 (rPWR 4) 0 0 false ∈ mget (fun _ => []) t.fcol.queues 0xD8)) ∧
        (s.pwr.ride = none → (if dc then 8800 else 8500) ≤ value → value ≤ (if dc then 30000 else 26500) →
          t.pwr.ride = none ∧ rbit t (rPWR 4) 5 = false) ∧
        (∀ u dip swell int hys : Nat, u = max 1 (rb s (rPWR (if dc then 0x1C else 0x18)) 0 16) → dip = rb s (rPWR 0x20) 0 8 →
          swell = rb s (rPWR 0x20) 8 8 → int = rb s (rPWR 0x20) 16 8 → hys = rb s (rPWR 0x20) 24 8 →
          (s.pwr.evt = 0 → t.pwr.evt =
            (if value * 100 < int * u then 3 else if value * 100 < dip * u then 1 else if swell * u < value * 100 then 2 else 0)) ∧
          (s.pwr.evt = 1 → value * 100 < int * u → t.pwr.evt = 3) ∧
          ((s.pwr.evt = 1 ∧ (dip + hys) * u ≤ value * 100 ∧ int * u ≤ value * 100) ∨
            (s.pwr.evt = 2 ∧ value * 100 + hys * u ≤ swell * u) ∨
            (s.pwr.evt = 3 ∧ (s.pwr.evtDeep = false ∨ (dip + hys) * u ≤ value * 100) ∧ (int + hys) * u ≤ value * 100) →
            rn t (rPWR (0x60 + 4 * s.pwr.evt)) = min (rn s (rPWR (0x60 + 4 * s.pwr.evt)) + 1) (2 ^ 32 - 1) ∧
            rbit t (rPWR 4) (15 + s.pwr.evt) = true)))) ∧
  (∀ s : State, s.time.started = true →
    (∀ p : Int, rbit s (rPWR 0) 3 = true → rbit s (rPWR 4) 4 = false →
      ∃ t, exec (.zeroCrossing p) s = .next t ∧
        (ring t (ringRoute s 0)).admitted = ((ring s (ringRoute s 0)).admitted + 1) % 2 ^ 64 ∧
        ∀ n < 8, rbit t (rSEQ n 0x34) 30 = true) ∧
    (∀ p : Int, rbit s (rPWR 0) 3 = false ∨ rbit s (rPWR 4) 4 = true → exec (.zeroCrossing p) s = .next s) ∧
    (∀ mean : Nat, rb s (rPWR 0x24) 0 16 ≠ 0 →
      ∃ t, exec (.supplySummary mean) s = .next t ∧
        (ring t (ringRoute s 0)).admitted = ((ring s (ringRoute s 0)).admitted + 1) % 2 ^ 64 ∧
        ∀ n < 8, rbit t (rSEQ n 0x34) 30 = true) ∧
    (∀ mean : Nat, rb s (rPWR 0x24) 0 16 = 0 → exec (.supplySummary mean) s = .next s)) ∧
  (∀ s : State,
    (∀ a, s.pwr.ride.isSome = true → s.pwr.okSince = some a → a + 1000000 ≤ s.time.aon →
      ∃ t, exec .rideExit s = .next t ∧ t.pwr.ride = none ∧ rbit t (rPWR 4) 5 = false ∧ rbit t (rPWR 4) 8 = false ∧
        rbit t (rPWR 4) 9 = false ∧ t.standby = s.standby ∧
        (s.fcol.safe = false → pwrState s = 4 → pwrState t = if rbit s (rPWR 4) 6 then 3 else 2) ∧
        (ring t (ringRoute s 0)).admitted = ((ring s (ringRoute s 0)).admitted + 1) % 2 ^ 64) ∧
    (s.pwr.ride.isNone = true ∨ (∀ a, s.pwr.okSince = some a → s.time.aon < a + 1000000) →
      exec .rideExit s = .next (smbEval s))) ∧
  ∀ (a : Nat) (s : State),
    (s.pwr.ride = some a → 200000000 ≤ s.time.aon - a → rbit s (rPWR 0) 1 = true → s.pwr.yielded = false → s.pwr.stores = false →
      s.fcol.safe = false → s.standby = false → s.mateReady = true →
      ∃ t, exec .rideYield s = .next t ∧ t.standby = true ∧ t.mate.nrWhy = 1 ∧ t.pwr.yielded = true ∧ rbit t (rPWR 4) 8 = true) ∧
    (s.pwr.ride = none ∨ (s.pwr.ride = some a ∧ s.time.aon - a < 200000000) ∨ rbit s (rPWR 0) 1 = false ∨ s.pwr.yielded = true ∨
      s.pwr.stores = true ∨ s.fcol.safe = true ∨ s.standby = true ∨ s.mateReady = false → exec .rideYield s = .next s) ∧
    ∀ low : Bool,
      (s.pwr.ride = some a → (300000000 ≤ s.time.aon - a ∨ low = true) → rbit s (rPWR 0) 2 = true → s.pwr.stores = false →
        s.fcol.safe = false → s.pwr.mrst = false → s.nvsLoaded = true → s.cmd.own = [] → (∀ p ∈ s.cmd.slots, p.1 < 62) →
        ∃ t x y, exec (.rideStores low) s = .next t ∧ t.pwr.stores = true ∧
          (62, x) ∈ t.cmd.slots ∧ x.master = 13 ∧ x.w0 = 12 ∧ (63, y) ∈ t.cmd.slots ∧ y.master = 13 ∧ y.w0 = 3 ∧
          (low = true → queueFull s 0xD8 = false →
            mkReport s 0xD8 0x02 (rPWR 4) 0 0 false ∈ mget (fun _ => []) t.fcol.queues 0xD8)) ∧
      (s.pwr.ride = none ∨ (s.pwr.ride = some a ∧ s.time.aon - a < 300000000 ∧ low = false) ∨ rbit s (rPWR 0) 2 = false ∨
        s.pwr.stores = true ∨ s.fcol.safe = true ∨ s.pwr.mrst = true ∨ s.nvsLoaded = false → exec (.rideStores low) s = .next s)

/-- The oven, the store, the temperatures and the faults of R518. The oven in its band sets OCXO_READY and takes WARM to RUN,
and one that leaves it clears OCXO_READY and raises OVEN_FAIL (R508). NOT_WARM, after 6 min, and CHARGE_SLOW, BASE_LOL and
CONVERTER are raised with their source and kind (R493, R508, R518), DRIVER by an output (R158). The temperatures show in
PWR_TEMP, and one that rises above its threshold raises its fault (R518). -/
def Obligations.OvenStoreAndTemperaturesAreReported : Prop :=
  (∀ s : State,
    (s.time.started = true → rbit s (rPWR 4) 6 = false →
      ∃ t, exec .ocxoReady s = .next t ∧ rbit t (rPWR 4) 6 = true ∧ pwrState t = (if pwrState s = 2 then 3 else pwrState s) ∧
        (∀ o, o ≠ rPWR 4 → rd t o = rd s o) ∧ t = { s with regs := t.regs, smb := t.smb }) ∧
    (s.time.started = false ∨ rbit s (rPWR 4) 6 = true → exec .ocxoReady s = .next (smbEval s)) ∧
    (rbit s (rPWR 4) 6 = true → queueFull s 0xD9 = false →
      ∃ t, exec .ovenFail s = .next t ∧ rbit t (rPWR 4) 6 = false ∧ pwrState t = pwrState s ∧
        (∀ o, o ≠ rPWR 4 → rd t o = rd s o) ∧
        t = { enqueue s (mkReport s 0xD9 0x02 (rPWR 4) 0 0 false) with regs := t.regs, smb := t.smb }) ∧
    (rbit s (rPWR 4) 6 = false → exec .ovenFail s = .next (smbEval s)) ∧
    (s.pwr.power = 2 → ∃ t, exec .storeFull s = .next t ∧ rbit t (rPWR 4) 7 = true ∧ (∀ o, o ≠ rPWR 4 → rd t o = rd s o) ∧
      t = { s with regs := t.regs, smb := t.smb }) ∧
    (s.pwr.power = 2 → rbit s (rPWR 4) 6 = false → 3600000000 ≤ s.time.aon + s.pwr.ocxoLead → queueFull s 0xD9 = false →
      ∃ t, exec .notWarm s = .next t ∧ t = enqueue s (mkReport s 0xD9 0x01 (rPWR 4) 0 0 false)) ∧
    (s.pwr.power = 2 → queueFull s 0xD9 = false →
      ∃ t, exec .baseLol s = .next t ∧ t = enqueue s (mkReport s 0xD9 0x03 (rPWR 4) 0 0 false)) ∧
    (s.pwr.power = 2 → rbit s (rPWR 4) 7 = false → queueFull s 0xD8 = false →
      ∃ t, exec .chargeSlow s = .next t ∧ t = enqueue s (mkReport s 0xD8 0x04 (rPWR 4) 0 0 false)) ∧
    (s.pwr.power = 2 → queueFull s 0xD8 = false →
      ∃ t, exec .converter s = .next t ∧ t = enqueue s (mkReport s 0xD8 0x05 (rPWR 4) 0 0 false)) ∧
    (rbit s (rPWR 4) 6 = true ∨ s.time.aon + s.pwr.ocxoLead < 3600000000 → exec .notWarm s = .next s) ∧ (rbit s (rPWR 4) 7 = true → exec .chargeSlow s = .next s) ∧
    (s.pwr.power ≠ 2 → exec .storeFull s = .next s ∧ exec .notWarm s = .next s ∧ exec .baseLol s = .next s ∧
      exec .chargeSlow s = .next s ∧ exec .converter s = .next s)) ∧
  (∀ (n : FodIx) (s : State), queueFull s n.val = false →
    ∃ t, exec (.driver n) s = .next t ∧ t = enqueue s (mkReport s n.val 0x09 (rFOD n.val 4) 0 0 false)) ∧
  ∀ (asic iface : Int) (s : State),
    (s.pwr.power = 2 → -32768 ≤ asic → asic < 32768 → -32768 ≤ iface → iface < 32768 →
      ∃ t, exec (.thermalAlarm asic iface) s = .next t ∧
        sx 16 (rb t (rPWR 0x28) 0 16) = asic ∧ sx 16 (rb t (rPWR 0x28) 16 16) = iface ∧ RegsKept s t [rPWR 0x28] ∧ MemKept s t ∧
        (mget (fun _ => []) s.fcol.queues 0xDA = [] →
          mget (fun _ => []) t.fcol.queues 0xDA =
            (if sx 16 (rb s (rPWR 0x28) 0 16) ≤ sx 8 (rb s (rPWR 0x2C) 0 8) * 256 ∧ sx 8 (rb s (rPWR 0x2C) 0 8) * 256 < asic
              then [mkReport s 0xDA 0x01 (rPWR 4) 0 0 false] else []) ++
            (if sx 16 (rb s (rPWR 0x28) 0 16) ≤ sx 8 (rb s (rPWR 0x2C) 8 8) * 256 ∧ sx 8 (rb s (rPWR 0x2C) 8 8) * 256 < asic
              then [mkReport s 0xDA 0x02 (rPWR 4) 0 0 false] else []) ++
            (if sx 16 (rb s (rPWR 0x28) 16 16) ≤ sx 8 (rb s (rPWR 0x2C) 16 8) * 256 ∧ sx 8 (rb s (rPWR 0x2C) 16 8) * 256 < iface
              then [mkReport s 0xDA 0x03 (rPWR 4) 0 0 false] else []))) ∧
    (s.pwr.power ≠ 2 → exec (.thermalAlarm asic iface) s = .next s)

/-! ## The external interfaces -/

/-- The SMBus slave answers from AON ready on with the contents of R533, little-endian, each with a byte of PEC (log entry
156), and releases SMB_ALERT_N (R533, R534). The PCIe endpoint is reset by PERST_N and a link that goes down, which mask
every vector, and sends the messages that waited when it is up again (R532, R537); a configuration request sees Retry Status
until the load completes, then the identification, class code and BARs of R531 (R507). Outside AON_ONLY, BAR2 writes the
enabled bytes of DMEM and the mailbox always, of an IMEM only while its core is HALTED, and no other window; a read of
sequencer memory gives its bytes and takes every semaphore word that it covers whole, byte enables counted; one that meets an
uncorrectable error is answered poisoned, with ECC, or VERIFY_FAIL where the byte stands in the store (R295, R296, R542 to
R544); the capture RAM counts a single-bit error that a read of it meets (R287). A lane that is enabled gains block lock
outside AON_ONLY, and the credit link comes up with the second of its lanes (R233). -/
def Obligations.ExternalInterfacesAnswer : Prop :=
  (∀ s : State, s.pwr.power = 2 → s.time.started = true →
    (∃ t, exec .ident s = .next t ∧
      t = { s with
      out := smbSent s 0 true (leBytes 4 (rn s 0) ++ leBytes 4 (rn s 4) ++ leBytes 4 (rn s 8) ++ leBytes 4 (rn s 0x0C)) :: s.out }) ∧
    (∃ t w, exec .smbStatus s = .next t ∧ t = { s with out := smbSent s 1 false (leBytes 2 w) :: s.out } ∧ w < 2 ^ 16 ∧
      w % 8 = pwrState s ∧ w.testBit 3 = (!s.standby) ∧ w.testBit 4 = (s.standby && decide (s.mate.nrWhy = 0)) ∧
      w.testBit 5 = faultLow s ∧ w.testBit 6 = s.fcol.safe ∧ w.testBit 7 = rbit s (rPWR 4) 6 ∧ w.testBit 8 = rbit s (rPWR 4) 5 ∧
      w.testBit 9 = rbit s (rPWR 4) 4 ∧ w.testBit 10 = decide ((dp s 0).st = 3) ∧ w.testBit 11 = s.time.notSet) ∧
    (∃ t e, exec .supply s = .next t ∧ (rb s (rPWR 0x0C) 0 16 ≤ 8000 → e = 0) ∧
      (8000 < rb s (rPWR 0x0C) 0 16 → 0 < s.pwr.draw →
        e = min (5 * (rb s (rPWR 0x0C) 0 16 ^ 2 - 8000 ^ 2) / (10000 * s.pwr.draw)) 0xFFFF) ∧
      t = { s with out := smbSent s 2 true (leBytes 4 (rn s (rPWR 0x10)) ++ leBytes 2 (rn s (rPWR 0x0C)) ++
      leBytes 2 e ++ leBytes 4 (rn s (rPWR 0x14))) :: s.out }) ∧
    (pwrState s = 1 → s.coreAwake = false → s.pwr.mrst = false → s.pwr.phase ≠ 0 →
      ∃ t, exec .temps s = .next t ∧ t.coreAwake = true ∧ t.pwr.coreAt = s.time.aon) ∧
    (pwrState s ≠ 1 → ∃ t, exec .temps s = .next t ∧
      t = { s with out := smbSent s 3 true (leBytes 4 (rn s (rPWR 0x28)) ++ leBytes 2 (rn s (rSCR 0x30)) ++ [0, 0]) :: s.out }) ∧
    (∃ t b, exec .faults s = .next t ∧ t = { s with out := smbSent s 4 true b :: s.out } ∧ b.length = 40 ∧
      (∀ n < 256, ((b[n / 8]?).getD 0).getLsbD (n % 8) = decide (pendOf s n ≠ 0)) ∧
      b.drop 32 = leBytes 4 (rn s (rFCOL 0x10)) ++ leBytes 4 (rn s (rFCOL 0x14))) ∧
    (∃ t b, exec .fences s = .next t ∧ t = { s with out := smbSent s 5 true b :: s.out } ∧ b.length = 32 ∧
      ∀ n < 256, ((b[n / 8]?).getD 0).getLsbD (n % 8) = srcFenced s n) ∧
    (rbit s 0x270 0 = false → ∃ t, exec .alertClr s = .next t ∧ t.smb.alert = false ∧ t = { s with smb := t.smb }) ∧
    (rbit s 0x270 0 = true → ∃ t, exec .alertClr s = .next t ∧ t.smb.alert = (s.smb.alert && !Config.smbPecOk s.free) ∧
      t = { s with smb := t.smb, free := s.free + 1 }) ∧
    (s.smb.alert = true → ∃ t, exec .alertResponse s = .next t ∧ t.smb.alert = false ∧
      t = { s with smb := t.smb, out := .smb [if s.mate.slotB then 0x35 else 0x34] :: s.out }) ∧
    (s.smb.alert = false → exec .alertResponse s = .next s)) ∧
  (∀ s : State, s.pwr.power ≠ 2 ∨ s.time.started = false →
    exec .ident s = .next s ∧ exec .smbStatus s = .next s ∧ exec .supply s = .next s ∧ exec .temps s = .next s ∧
    exec .faults s = .next s ∧ exec .fences s = .next s ∧ exec .alertClr s = .next s ∧ exec .alertResponse s = .next s) ∧
  (∀ s : State, queueFull s 0xDB = false →
    (∃ t, exec .perst s = .next t ∧
      t = { enqueue s (mkReport s 0xDB 0x03 4 0 0 false) with pcieUp := false, msix := [] }) ∧
    (s.pcieUp = true → ∃ t, exec .pcieLinkDown s = .next t ∧
      t = { enqueue s (mkReport s 0xDB 0x01 4 0 0 false) with pcieUp := false, msix := [] }) ∧
    ∃ t, exec .uncorr s = .next t ∧ t = enqueue s (mkReport s 0xDB 0x02 4 0 0 false)) ∧
  (∀ s : State,
    (s.pcieUp = false → exec .pcieLinkDown s = .next s) ∧
    (∀ v < 64, s.msix = [] → (msixWord s (4 * v + 3)).testBit 0 = true) ∧
    (∃ t, exec .pcieLinkUp s = .next t ∧ t.pcieUp = true ∧ t = { s with pcieUp := true, pba := t.pba, out := t.out } ∧
      ∀ v < 64, ((msixWord s (4 * v + 3)).testBit 0 = true → t.pba.testBit v = s.pba.testBit v) ∧
        ((msixWord s (4 * v + 3)).testBit 0 = false → t.pba.testBit v = false ∧
          (s.pba.testBit v = true → Out.msix v ∈ t.out))) ∧
    (s.nvsLoaded = false → ∃ t, exec .configurationRequest s = .next t ∧ t = { s with out := .cfg true [] :: s.out }) ∧
    (s.nvsLoaded = true → s.msix = [] → ∃ t, exec .configurationRequest s = .next t ∧
      t = { s with out := .cfg false [0x01281F6B, 0x11100000, 4, 0, 4, 0] :: s.out })) ∧
  (∀ (m : Master) (addr : Nat) (bytes : List (Option Byte)) (s : State),
    (s.nvsLoaded = true → pwrState s ≠ 1 →
      ((∀ k < bytes.length, isDataMem (addr + k) = true) →
        ∃ t, exec (.bar2Write m addr bytes) s = .next t ∧ (∀ k b, bytes[k]? = some (some b) → mb t (addr + k) = b) ∧
          (∀ k, bytes[k]? = some none → mb t (addr + k) = mb s (addr + k)) ∧
          (∀ a, a < addr ∨ addr + bytes.length ≤ a → mb t a = mb s a) ∧ t = { s with mem := t.mem }) ∧
      (∀ c j : Nat, (∀ k < bytes.length, imemOf (addr + k) = some c) → (∀ i < j, bytes[i]? = some none) →
        (∃ b, bytes[j]? = some (some b)) →
        (seqHalted s c = true →
          ∃ t, exec (.bar2Write m addr bytes) s = .next t ∧ (∀ k b, bytes[k]? = some (some b) → mb t (addr + k) = b) ∧
            (∀ k, bytes[k]? = some none → mb t (addr + k) = mb s (addr + k)) ∧
            (∀ a, a < addr ∨ addr + bytes.length ≤ a → mb t a = mb s a) ∧ rbit t (rSEQ c 4) 8 = false ∧
            (∀ o, o ≠ rSEQ c 4 → rd t o = rd s o) ∧ t = { s with mem := t.mem, regs := t.regs }) ∧
        (seqHalted s c = false → queueFull s (0xCA + c) = false →
          ∃ t, exec (.bar2Write m addr bytes) s = .next t ∧
            t = enqueue s (mkReport s (0xCA + c) 0x09 (addr + j) m.val 2 false))) ∧
      ((∀ k < bytes.length, isDataMem (addr + k) = false ∧ imemOf (addr + k) = none) →
        exec (.bar2Write m addr bytes) s = .next s)) ∧
    (s.nvsLoaded = false → exec (.bar2Write m addr bytes) s = .next s)) ∧
  (∀ (m : Master) (a n : Nat) (skip : List Nat) (s : State),
    (s.nvsLoaded = true → pwrState s ≠ 1 →
      ((∀ k < n, isDataMem (a + k) = true) → ∀ fixed, (fixed = true → 0x800000 ≤ a) →
        ∃ t, exec (.semaphoreRead m ⟨a, n, skip, none, fixed⟩) s = .next t ∧
          t.out = .data m.val (leNat (((List.range n).filter (fun k => !skip.contains k)).map (fun k => mb s (a + k))))
            (8 * ((List.range n).filter (fun k => !skip.contains k)).length) :: s.out ∧
          (∀ b w, b = 0x880FC0 + 4 * w → w < 16 → a ≤ b → b + 4 ≤ a + n → (∀ j ∈ skip, a + j < b ∨ b + 4 ≤ a + j) →
            mb t b = 1 ∧ mb t (b + 1) = 0 ∧ mb t (b + 2) = 0 ∧ mb t (b + 3) = 0) ∧
          (∀ b, ¬ (0x880FC0 ≤ b ∧ b < 0x881000 ∧ a ≤ b / 4 * 4 ∧ b / 4 * 4 + 4 ≤ a + n ∧
            ∀ j ∈ skip, a + j < b / 4 * 4 ∨ b / 4 * 4 + 4 ≤ a + j) → mb t b = mb s b) ∧
          t = { s with mem := t.mem, out := t.out, free := s.free + 1 }) ∧
      (a + n ≤ 0x800000 → 0 < n → rn s 0x708048 + 1 < 0xFFFFFFFF →
        ∃ t, exec (.semaphoreRead m ⟨a, n, [], none, true⟩) s = .next t ∧
          t.out = .data m.val (leNat ((List.range n).map (fun k => mb s (a + k)))) (8 * n) :: s.out ∧
          rn t 0x708048 = rn s 0x708048 + 1 ∧ (∀ o, o ≠ 0x708048 → rd t o = rd s o) ∧
          t = { s with regs := t.regs, out := t.out, free := s.free + 1 }) ∧
      (∀ (j : Nat) (fixed : Bool),
        (0x880000 ≤ a + j → a + j < 0x881000 → queueFull s 0xCA = false →
          ∃ t, exec (.semaphoreRead m ⟨a, n, skip, some j, fixed⟩) s = .next t ∧
            t = { enqueue s (mkReport s 0xCA 0x0A (a + j) m.val 1 false) with out := .poisoned m.val :: s.out }) ∧
        (∀ c : Nat, imemOf (a + j) = some c → queueFull s (0xCA + c) = false →
          ∃ t, exec (.semaphoreRead m ⟨a, n, skip, some j, fixed⟩) s = .next t ∧
            t = { enqueue s (mkReport s (0xCA + c) 0x0A (a + j) m.val 1 false) with out := .poisoned m.val :: s.out }) ∧
        (∀ r b z : Nat, 0xC00000 ≤ a + j → a + j < 0xC80000 → storeAt (a + j - 0xC00000) = some (r, b, z) → queueFull s 0xD4 = false →
          ∃ t, exec (.semaphoreRead m ⟨a, n, skip, some j, fixed⟩) s = .next t ∧ rbit t (rNVS 4) 5 = true ∧
            (∀ o, o ≠ rNVS 4 → rd t o = rd s o) ∧
            t = { enqueue s (mkReport s 0xD4 0x03 (r + b * 16) 0 0 false) with regs := t.regs, out := .poisoned m.val :: s.out }))) ∧
    (s.nvsLoaded = false → ∀ bad fixed, exec (.semaphoreRead m ⟨a, n, skip, bad, fixed⟩) s = .next s)) ∧
  ∀ (l : LaneIx) (c : Bool) (s : State),
    (3 ≤ s.pwr.phase → rbit s (if c then rCL l.val 0 else rEL l.val 0) 0 = true →
      ∃ t, exec (.blockLock l c) s = .next t ∧ (lane t l).el = (!c || (lane s l).el) ∧ (lane t l).cl = (c || (lane s l).cl) ∧
        (lane t l).up = ((lane s l).up ||
          ((!c || (lane s l).el) && (c || (lane s l).cl) && !elFenced s l && !clFenced s l)) ∧
        (∀ j, j ≠ l.val → lane t j = lane s j) ∧ t = { s with lanes := t.lanes, cal := t.cal, out := t.out }) ∧
    (s.pwr.phase < 3 ∨ rbit s (if c then rCL l.val 0 else rEL l.val 0) 0 = false → exec (.blockLock l c) s = .next s)

/-! ## Reset -/

/-- The machine after POR: no command waits and nothing is in flight; the memories list nothing, and every byte of them reads
0 (the value of a byte that nothing has written is the model's choice, log entry 2); Plain has not started and is not set;
the module is STANDBY, not in SAFE and without faults; the cores are HALTED without an image, the SCs and FODs sleep, the
rings and queues are empty; and the registers hold the Reset and factory values of their tables, of which the statement lists
one or more of each block. -/
def Obligations.ResetIsThatOfTheTables : Prop :=
  State.reset.pending = [] ∧ State.reset.posted = [] ∧ State.reset.nvsLoaded = false ∧ State.reset.out = [] ∧
  Memory.wf State.reset.mem ∧ (∀ a, mb State.reset a = 0) ∧
  State.reset.time.started = false ∧ State.reset.time.plain = 0 ∧ State.reset.time.notSet = true ∧ State.reset.time.queue = [] ∧
  State.reset.standby = true ∧ State.reset.fcol.safe = false ∧ State.reset.fcol.pend = [] ∧ State.reset.fcol.fenced = [] ∧
  State.reset.cmd.slots = [] ∧ State.reset.ingress = [] ∧ State.reset.snap.busy = false ∧
  (∀ n < 8, seqHalted State.reset n = true ∧ rbit State.reset (rSEQ n 4) 8 = false ∧ (sc State.reset n).awake = false ∧
    (sc State.reset n).queue = []) ∧
  (∀ n < 128, (fod State.reset n).running = false ∧ (fod State.reset n).queue = [] ∧
    ((fod State.reset n).n, (fod State.reset n).f, (fod State.reset n).m, (fod State.reset n).o) = (40, 0, 1, 1) ∧
    rn State.reset (rFOD n 0) = 6 ∧ rn State.reset (rPORT n 0) = 9 ∧ rn State.reset (rPORT n 0x0C) = n) ∧
  (∀ n < 16, (ring State.reset n).admitted = 0 ∧ (ring State.reset n).inFlight = 0 ∧ (dma State.reset n).st = 0 ∧
    (lane State.reset n).up = false ∧ rn State.reset (rEL n 0) = 0xA01 ∧ rn State.reset (rCL n 0) = 1 ∧
    rn State.reset (rRING n 0) = (if n < 12 then 0xC3 else 0xC1) + n * 2 ^ 28 ∧
    rn State.reset (rDMA n 0) = n * 4 + (32 + n) * 2 ^ 8 + 3 * 2 ^ 14 + 12 * 2 ^ 17) ∧
  ∀ p ∈ [(0x0, 0x00012802), (0x4, 0x01281F6B), (rTIME 0, 1), (rTIME 0x50, 42950), (rTIME 0x70, 37), (rTIME 0xA0, 0x800186A0),
      (rSC 0 0, 0x71), (rSC 1 0, 0x70), (rSC 7 0, 0xF1), (rSC 3 0x2C, 500), (rSC 3 0x30, 50), (rSC 3 0x34, 1000), (rSC 3 0x38, 4),
      (rSC 3 0x3C, 12), (rPORT 5 0x10, 160), (rPORT 5 0x18, 64), (rPORT 5 0x2C, 128), (rPORT 5 0x74, 1000), (rPORT 5 0x78, 2000),
      (0x508000, 2000), (0x600000, 1), (0x600010, 0x17), (rRING 2 0x18, 3072), (rRING 2 0x1C, 2048), (rRING 2 0x20, 0x10000),
      (rRING 2 0x24, 64), (0x708040, 0xFEDC), (0x708044, 0xFFFFFFFF), (rPWR 0, 6), (rPWR 4, 2), (rPWR 0x18, 23000),
      (rPWR 0x1C, 22000), (rPWR 0x20, 0x020A6E5A), (rPWR 0x24, 10), (rPWR 0x2C, 0x4B7869), (rPWR 0x30, 1000)],
    rn State.reset p.1 = p.2
end

