-- ==== Sys2Proof/Laws/Same.lean ====
section
/-!
SUPPORT. What an operation leaves as it is: two states that agree outside a set of the fields of `State`. Bit i of a set stands
for the i-th field.
-/
set_option linter.all false
set_option linter.unusedTactic false
set_option linter.unreachableTactic false
namespace Sys2Proof.Machine

open Sys2Proof

/-- The state with the fields of a set put back to their values at reset: bit i of `M` stands for the i-th field of `State`. -/
def erase (M : Nat) (t : State) : State :=
  { pending := bif M.testBit 0 then [] else t.pending
    free := bif M.testBit 1 then 0 else t.free
    cyc := bif M.testBit 2 then 0 else t.cyc
    order := bif M.testBit 3 then 0 else t.order
    regs := bif M.testBit 4 then [] else t.regs
    shadow := bif M.testBit 5 then [] else t.shadow
    staging := bif M.testBit 6 then [] else t.staging
    posted := bif M.testBit 7 then [] else t.posted
    landed := bif M.testBit 8 then [] else t.landed
    cycle := bif M.testBit 9 then ⟨false, 0, 0, []⟩ else t.cycle
    mem := bif M.testBit 10 then [] else t.mem
    time := bif M.testBit 11 then timeInit else t.time
    seal_ := bif M.testBit 12 then sealInit else t.seal_
    fcol := bif M.testBit 13 then fcolInit else t.fcol
    snap := bif M.testBit 14 then snapInit else t.snap
    scs := bif M.testBit 15 then [] else t.scs
    fods := bif M.testBit 16 then [] else t.fods
    refs := bif M.testBit 17 then [] else t.refs
    dps := bif M.testBit 18 then [] else t.dps
    scr := bif M.testBit 19 then scrInit else t.scr
    lanes := bif M.testBit 20 then [] else t.lanes
    ports := bif M.testBit 21 then [] else t.ports
    ingress := bif M.testBit 22 then [] else t.ingress
    gone := bif M.testBit 23 then [] else t.gone
    early := bif M.testBit 24 then [] else t.early
    owed := bif M.testBit 25 then [] else t.owed
    rings := bif M.testBit 26 then [] else t.rings
    corrPause := bif M.testBit 27 then false else t.corrPause
    tdcFail := bif M.testBit 28 then 0 else t.tdcFail
    groups := bif M.testBit 29 then 0 else t.groups
    wits := bif M.testBit 30 then [] else t.wits
    coreAwake := bif M.testBit 31 then false else t.coreAwake
    standby := bif M.testBit 32 then false else t.standby
    mateReady := bif M.testBit 33 then false else t.mateReady
    mate := bif M.testBit 34 then mateInit else t.mate
    nvs := bif M.testBit 35 then ⟨[], none⟩ else t.nvs
    cal := bif M.testBit 36 then State.reset.cal else t.cal
    cmd := bif M.testBit 37 then State.reset.cmd else t.cmd
    dmas := bif M.testBit 38 then [] else t.dmas
    dmaLast := bif M.testBit 39 then 0 else t.dmaLast
    seqs := bif M.testBit 40 then [] else t.seqs
    pwr := bif M.testBit 41 then pwrInit else t.pwr
    smb := bif M.testBit 42 then State.reset.smb else t.smb
    pcieUp := bif M.testBit 43 then false else t.pcieUp
    msix := bif M.testBit 44 then [] else t.msix
    pba := bif M.testBit 45 then 0 else t.pba
    nvsLoaded := bif M.testBit 46 then false else t.nvsLoaded
    out := bif M.testBit 47 then [] else t.out }

/-- The two states agree outside the fields of a set. -/
@[irreducible] def Same (M : Nat) (s t : State) : Prop := erase M s = erase M t

theorem Same.refl (M : Nat) (s : State) : Same M s s := by unfold Same; rfl

theorem Same.trans {M : Nat} {s t u : State} (h : Same M s t) (k : Same M t u) : Same M s u := by
  unfold Same at *
  exact h.trans k

/-- Erasing more after less is erasing more. -/
theorem erase_erase {M K : Nat} (e : M ||| K = K) (t : State) : erase K (erase M t) = erase K t := by
  have h : ∀ i, M.testBit i = true → K.testBit i = true := by
    intro i hi
    rw [← e, Nat.testBit_or, hi, Bool.true_or]
  have g : ∀ {α : Type} (i : Nat) (d v : α), (bif K.testBit i then d else bif M.testBit i then d else v) = bif K.testBit i then d else v := by
    intro α i d v
    cases hk : K.testBit i
    · cases hm : M.testBit i
      · rfl
      · rw [h i hm] at hk; cases hk
    · rfl
  simp only [erase, g]

theorem Same.mono {M K : Nat} {s t : State} (e : M ||| K = K) (h : Same M s t) : Same K s t := by
  unfold Same at h ⊢
  rw [← erase_erase e s, ← erase_erase e t, h]

theorem Same.step {M K : Nat} {s x y : State} (e : M ||| K = K) (h : Same M x y) (hx : Same K s x) : Same K s y :=
  hx.trans (h.mono e)

theorem Same.cut {M : Nat} {s t : State} (x : State) (hx : Same M s x) (k : Same M s x → Same M s t) : Same M s t := k hx

theorem Same.cutF {α : Type} {M : Nat} {s t : State} (f : State → α → State) (hf : ∀ x a, Same M x (f x a))
    (k : (∀ x a, Same M x (f x a)) → Same M s t) : Same M s t := k hf

theorem Same.cutF1 {M : Nat} {s t : State} (f : State → State) (hf : ∀ x, Same M x (f x)) (k : (∀ x, Same M x (f x)) → Same M s t) :
    Same M s t := k hf

theorem Same.viaF1 {M : Nat} {s x : State} {f : State → State} (hf : ∀ x, Same M x (f x)) (hx : Same M s x) :
    Same M s (f x) := hx.trans (hf x)

theorem Same.cutG {α : Type} {M : Nat} {s t : State} (f : α → State) (hf : ∀ a, Same M s (f a)) (k : (∀ a, Same M s (f a)) → Same M s t) :
    Same M s t := k hf

theorem Same.viaG {α : Type} {M : Nat} {s : State} {a : α} {f : α → State} (hf : ∀ a, Same M s (f a)) :
    Same M s (f a) := hf a

theorem Same.viaF {α : Type} {M : Nat} {s x : State} {a : α} {f : State → α → State} (hf : ∀ x a, Same M x (f x a))
    (hx : Same M s x) : Same M s (f x a) := hx.trans (hf x a)

theorem Same.upto {M n : Nat} {s x : State} {f : State → Nat → State} (h : ∀ x i, Same M x (f x i)) (hx : Same M s x) :
    Same M s (Machine.upto n f x) := by
  unfold Machine.upto
  induction List.range n generalizing x with
  | nil => exact hx
  | cons a l ih => exact ih (hx.trans (h x a))

theorem Same.foldl {α : Type} {M : Nat} {l : List α} {s x : State} {f : State → α → State} (h : ∀ x i, Same M x (f x i))
    (hx : Same M s x) : Same M s (l.foldl f x) := by
  induction l generalizing x with
  | nil => exact hx
  | cons a l ih => exact ih (hx.trans (h x a))

theorem Same.ofFst {α : Type} {M : Nat} {s a : State} {b : α} {e : State × α} (h : e = (a, b)) (k : Same M s e.1) : Same M s a := by
  subst h
  exact k

theorem Same.ofSnd {α : Type} {M : Nat} {s b : State} {a : α} {e : α × State} (h : e = (a, b)) (k : Same M s e.2) : Same M s b := by
  subst h
  exact k

theorem Same.get_pending {M : Nat} {s t : State} (h : Same M s t) (e : M.testBit 0 = false) : t.pending = s.pending := by
  unfold Same at h
  have := congrArg State.pending h
  simpa [erase, e] using this.symm
theorem Same.get_free {M : Nat} {s t : State} (h : Same M s t) (e : M.testBit 1 = false) : t.free = s.free := by
  unfold Same at h
  have := congrArg State.free h
  simpa [erase, e] using this.symm
theorem Same.get_cyc {M : Nat} {s t : State} (h : Same M s t) (e : M.testBit 2 = false) : t.cyc = s.cyc := by
  unfold Same at h
  have := congrArg State.cyc h
  simpa [erase, e] using this.symm
theorem Same.get_order {M : Nat} {s t : State} (h : Same M s t) (e : M.testBit 3 = false) : t.order = s.order := by
  unfold Same at h
  have := congrArg State.order h
  simpa [erase, e] using this.symm
theorem Same.get_regs {M : Nat} {s t : State} (h : Same M s t) (e : M.testBit 4 = false) : t.regs = s.regs := by
  unfold Same at h
  have := congrArg State.regs h
  simpa [erase, e] using this.symm
theorem Same.get_shadow {M : Nat} {s t : State} (h : Same M s t) (e : M.testBit 5 = false) : t.shadow = s.shadow := by
  unfold Same at h
  have := congrArg State.shadow h
  simpa [erase, e] using this.symm
theorem Same.get_staging {M : Nat} {s t : State} (h : Same M s t) (e : M.testBit 6 = false) : t.staging = s.staging := by
  unfold Same at h
  have := congrArg State.staging h
  simpa [erase, e] using this.symm
theorem Same.get_posted {M : Nat} {s t : State} (h : Same M s t) (e : M.testBit 7 = false) : t.posted = s.posted := by
  unfold Same at h
  have := congrArg State.posted h
  simpa [erase, e] using this.symm
theorem Same.get_landed {M : Nat} {s t : State} (h : Same M s t) (e : M.testBit 8 = false) : t.landed = s.landed := by
  unfold Same at h
  have := congrArg State.landed h
  simpa [erase, e] using this.symm
theorem Same.get_cycle {M : Nat} {s t : State} (h : Same M s t) (e : M.testBit 9 = false) : t.cycle = s.cycle := by
  unfold Same at h
  have := congrArg State.cycle h
  simpa [erase, e] using this.symm
theorem Same.get_mem {M : Nat} {s t : State} (h : Same M s t) (e : M.testBit 10 = false) : t.mem = s.mem := by
  unfold Same at h
  have := congrArg State.mem h
  simpa [erase, e] using this.symm
theorem Same.get_time {M : Nat} {s t : State} (h : Same M s t) (e : M.testBit 11 = false) : t.time = s.time := by
  unfold Same at h
  have := congrArg State.time h
  simpa [erase, e] using this.symm
theorem Same.get_seal_ {M : Nat} {s t : State} (h : Same M s t) (e : M.testBit 12 = false) : t.seal_ = s.seal_ := by
  unfold Same at h
  have := congrArg State.seal_ h
  simpa [erase, e] using this.symm
theorem Same.get_fcol {M : Nat} {s t : State} (h : Same M s t) (e : M.testBit 13 = false) : t.fcol = s.fcol := by
  unfold Same at h
  have := congrArg State.fcol h
  simpa [erase, e] using this.symm
theorem Same.get_snap {M : Nat} {s t : State} (h : Same M s t) (e : M.testBit 14 = false) : t.snap = s.snap := by
  unfold Same at h
  have := congrArg State.snap h
  simpa [erase, e] using this.symm
theorem Same.get_scs {M : Nat} {s t : State} (h : Same M s t) (e : M.testBit 15 = false) : t.scs = s.scs := by
  unfold Same at h
  have := congrArg State.scs h
  simpa [erase, e] using this.symm
theorem Same.get_fods {M : Nat} {s t : State} (h : Same M s t) (e : M.testBit 16 = false) : t.fods = s.fods := by
  unfold Same at h
  have := congrArg State.fods h
  simpa [erase, e] using this.symm
theorem Same.get_refs {M : Nat} {s t : State} (h : Same M s t) (e : M.testBit 17 = false) : t.refs = s.refs := by
  unfold Same at h
  have := congrArg State.refs h
  simpa [erase, e] using this.symm
theorem Same.get_dps {M : Nat} {s t : State} (h : Same M s t) (e : M.testBit 18 = false) : t.dps = s.dps := by
  unfold Same at h
  have := congrArg State.dps h
  simpa [erase, e] using this.symm
theorem Same.get_scr {M : Nat} {s t : State} (h : Same M s t) (e : M.testBit 19 = false) : t.scr = s.scr := by
  unfold Same at h
  have := congrArg State.scr h
  simpa [erase, e] using this.symm
theorem Same.get_lanes {M : Nat} {s t : State} (h : Same M s t) (e : M.testBit 20 = false) : t.lanes = s.lanes := by
  unfold Same at h
  have := congrArg State.lanes h
  simpa [erase, e] using this.symm
theorem Same.get_ports {M : Nat} {s t : State} (h : Same M s t) (e : M.testBit 21 = false) : t.ports = s.ports := by
  unfold Same at h
  have := congrArg State.ports h
  simpa [erase, e] using this.symm
theorem Same.get_ingress {M : Nat} {s t : State} (h : Same M s t) (e : M.testBit 22 = false) : t.ingress = s.ingress := by
  unfold Same at h
  have := congrArg State.ingress h
  simpa [erase, e] using this.symm
theorem Same.get_gone {M : Nat} {s t : State} (h : Same M s t) (e : M.testBit 23 = false) : t.gone = s.gone := by
  unfold Same at h
  have := congrArg State.gone h
  simpa [erase, e] using this.symm
theorem Same.get_early {M : Nat} {s t : State} (h : Same M s t) (e : M.testBit 24 = false) : t.early = s.early := by
  unfold Same at h
  have := congrArg State.early h
  simpa [erase, e] using this.symm
theorem Same.get_owed {M : Nat} {s t : State} (h : Same M s t) (e : M.testBit 25 = false) : t.owed = s.owed := by
  unfold Same at h
  have := congrArg State.owed h
  simpa [erase, e] using this.symm
theorem Same.get_rings {M : Nat} {s t : State} (h : Same M s t) (e : M.testBit 26 = false) : t.rings = s.rings := by
  unfold Same at h
  have := congrArg State.rings h
  simpa [erase, e] using this.symm
theorem Same.get_corrPause {M : Nat} {s t : State} (h : Same M s t) (e : M.testBit 27 = false) : t.corrPause = s.corrPause := by
  unfold Same at h
  have := congrArg State.corrPause h
  simpa [erase, e] using this.symm
theorem Same.get_tdcFail {M : Nat} {s t : State} (h : Same M s t) (e : M.testBit 28 = false) : t.tdcFail = s.tdcFail := by
  unfold Same at h
  have := congrArg State.tdcFail h
  simpa [erase, e] using this.symm
theorem Same.get_groups {M : Nat} {s t : State} (h : Same M s t) (e : M.testBit 29 = false) : t.groups = s.groups := by
  unfold Same at h
  have := congrArg State.groups h
  simpa [erase, e] using this.symm
theorem Same.get_wits {M : Nat} {s t : State} (h : Same M s t) (e : M.testBit 30 = false) : t.wits = s.wits := by
  unfold Same at h
  have := congrArg State.wits h
  simpa [erase, e] using this.symm
theorem Same.get_coreAwake {M : Nat} {s t : State} (h : Same M s t) (e : M.testBit 31 = false) : t.coreAwake = s.coreAwake := by
  unfold Same at h
  have := congrArg State.coreAwake h
  simpa [erase, e] using this.symm
theorem Same.get_standby {M : Nat} {s t : State} (h : Same M s t) (e : M.testBit 32 = false) : t.standby = s.standby := by
  unfold Same at h
  have := congrArg State.standby h
  simpa [erase, e] using this.symm
theorem Same.get_mateReady {M : Nat} {s t : State} (h : Same M s t) (e : M.testBit 33 = false) : t.mateReady = s.mateReady := by
  unfold Same at h
  have := congrArg State.mateReady h
  simpa [erase, e] using this.symm
theorem Same.get_mate {M : Nat} {s t : State} (h : Same M s t) (e : M.testBit 34 = false) : t.mate = s.mate := by
  unfold Same at h
  have := congrArg State.mate h
  simpa [erase, e] using this.symm
theorem Same.get_nvs {M : Nat} {s t : State} (h : Same M s t) (e : M.testBit 35 = false) : t.nvs = s.nvs := by
  unfold Same at h
  have := congrArg State.nvs h
  simpa [erase, e] using this.symm
theorem Same.get_cal {M : Nat} {s t : State} (h : Same M s t) (e : M.testBit 36 = false) : t.cal = s.cal := by
  unfold Same at h
  have := congrArg State.cal h
  simpa [erase, e] using this.symm
theorem Same.get_cmd {M : Nat} {s t : State} (h : Same M s t) (e : M.testBit 37 = false) : t.cmd = s.cmd := by
  unfold Same at h
  have := congrArg State.cmd h
  simpa [erase, e] using this.symm
theorem Same.get_dmas {M : Nat} {s t : State} (h : Same M s t) (e : M.testBit 38 = false) : t.dmas = s.dmas := by
  unfold Same at h
  have := congrArg State.dmas h
  simpa [erase, e] using this.symm
theorem Same.get_dmaLast {M : Nat} {s t : State} (h : Same M s t) (e : M.testBit 39 = false) : t.dmaLast = s.dmaLast := by
  unfold Same at h
  have := congrArg State.dmaLast h
  simpa [erase, e] using this.symm
theorem Same.get_seqs {M : Nat} {s t : State} (h : Same M s t) (e : M.testBit 40 = false) : t.seqs = s.seqs := by
  unfold Same at h
  have := congrArg State.seqs h
  simpa [erase, e] using this.symm
theorem Same.get_pwr {M : Nat} {s t : State} (h : Same M s t) (e : M.testBit 41 = false) : t.pwr = s.pwr := by
  unfold Same at h
  have := congrArg State.pwr h
  simpa [erase, e] using this.symm
theorem Same.get_smb {M : Nat} {s t : State} (h : Same M s t) (e : M.testBit 42 = false) : t.smb = s.smb := by
  unfold Same at h
  have := congrArg State.smb h
  simpa [erase, e] using this.symm
theorem Same.get_pcieUp {M : Nat} {s t : State} (h : Same M s t) (e : M.testBit 43 = false) : t.pcieUp = s.pcieUp := by
  unfold Same at h
  have := congrArg State.pcieUp h
  simpa [erase, e] using this.symm
theorem Same.get_msix {M : Nat} {s t : State} (h : Same M s t) (e : M.testBit 44 = false) : t.msix = s.msix := by
  unfold Same at h
  have := congrArg State.msix h
  simpa [erase, e] using this.symm
theorem Same.get_pba {M : Nat} {s t : State} (h : Same M s t) (e : M.testBit 45 = false) : t.pba = s.pba := by
  unfold Same at h
  have := congrArg State.pba h
  simpa [erase, e] using this.symm
theorem Same.get_nvsLoaded {M : Nat} {s t : State} (h : Same M s t) (e : M.testBit 46 = false) : t.nvsLoaded = s.nvsLoaded := by
  unfold Same at h
  have := congrArg State.nvsLoaded h
  simpa [erase, e] using this.symm
theorem Same.get_out {M : Nat} {s t : State} (h : Same M s t) (e : M.testBit 47 = false) : t.out = s.out := by
  unfold Same at h
  have := congrArg State.out h
  simpa [erase, e] using this.symm

theorem Same.put_pending {M : Nat} {s x : State} {v0 : List Instr} (e0 : M.testBit 0 = true) (h : Same M s x) :
    Same M s ⟨v0, x.free, x.cyc, x.order, x.regs, x.shadow, x.staging, x.posted, x.landed, x.cycle, x.mem, x.time, x.seal_, x.fcol, x.snap, x.scs, x.fods, x.refs, x.dps, x.scr, x.lanes, x.ports, x.ingress, x.gone, x.early, x.owed, x.rings, x.corrPause, x.tdcFail, x.groups, x.wits, x.coreAwake, x.standby, x.mateReady, x.mate, x.nvs, x.cal, x.cmd, x.dmas, x.dmaLast, x.seqs, x.pwr, x.smb, x.pcieUp, x.msix, x.pba, x.nvsLoaded, x.out⟩ := by
  refine h.trans ?_
  unfold Same
  simp only [erase, e0, cond_true]

theorem Same.put_free {M : Nat} {s x : State} {v1 : Nat} (e1 : M.testBit 1 = true) (h : Same M s x) :
    Same M s ⟨x.pending, v1, x.cyc, x.order, x.regs, x.shadow, x.staging, x.posted, x.landed, x.cycle, x.mem, x.time, x.seal_, x.fcol, x.snap, x.scs, x.fods, x.refs, x.dps, x.scr, x.lanes, x.ports, x.ingress, x.gone, x.early, x.owed, x.rings, x.corrPause, x.tdcFail, x.groups, x.wits, x.coreAwake, x.standby, x.mateReady, x.mate, x.nvs, x.cal, x.cmd, x.dmas, x.dmaLast, x.seqs, x.pwr, x.smb, x.pcieUp, x.msix, x.pba, x.nvsLoaded, x.out⟩ := by
  refine h.trans ?_
  unfold Same
  simp only [erase, e1, cond_true]

theorem Same.put_cyc {M : Nat} {s x : State} {v2 : Nat} (e2 : M.testBit 2 = true) (h : Same M s x) :
    Same M s ⟨x.pending, x.free, v2, x.order, x.regs, x.shadow, x.staging, x.posted, x.landed, x.cycle, x.mem, x.time, x.seal_, x.fcol, x.snap, x.scs, x.fods, x.refs, x.dps, x.scr, x.lanes, x.ports, x.ingress, x.gone, x.early, x.owed, x.rings, x.corrPause, x.tdcFail, x.groups, x.wits, x.coreAwake, x.standby, x.mateReady, x.mate, x.nvs, x.cal, x.cmd, x.dmas, x.dmaLast, x.seqs, x.pwr, x.smb, x.pcieUp, x.msix, x.pba, x.nvsLoaded, x.out⟩ := by
  refine h.trans ?_
  unfold Same
  simp only [erase, e2, cond_true]

theorem Same.put_order {M : Nat} {s x : State} {v3 : Nat} (e3 : M.testBit 3 = true) (h : Same M s x) :
    Same M s ⟨x.pending, x.free, x.cyc, v3, x.regs, x.shadow, x.staging, x.posted, x.landed, x.cycle, x.mem, x.time, x.seal_, x.fcol, x.snap, x.scs, x.fods, x.refs, x.dps, x.scr, x.lanes, x.ports, x.ingress, x.gone, x.early, x.owed, x.rings, x.corrPause, x.tdcFail, x.groups, x.wits, x.coreAwake, x.standby, x.mateReady, x.mate, x.nvs, x.cal, x.cmd, x.dmas, x.dmaLast, x.seqs, x.pwr, x.smb, x.pcieUp, x.msix, x.pba, x.nvsLoaded, x.out⟩ := by
  refine h.trans ?_
  unfold Same
  simp only [erase, e3, cond_true]

theorem Same.put_regs {M : Nat} {s x : State} {v4 : List (Nat × Word)} (e4 : M.testBit 4 = true) (h : Same M s x) :
    Same M s ⟨x.pending, x.free, x.cyc, x.order, v4, x.shadow, x.staging, x.posted, x.landed, x.cycle, x.mem, x.time, x.seal_, x.fcol, x.snap, x.scs, x.fods, x.refs, x.dps, x.scr, x.lanes, x.ports, x.ingress, x.gone, x.early, x.owed, x.rings, x.corrPause, x.tdcFail, x.groups, x.wits, x.coreAwake, x.standby, x.mateReady, x.mate, x.nvs, x.cal, x.cmd, x.dmas, x.dmaLast, x.seqs, x.pwr, x.smb, x.pcieUp, x.msix, x.pba, x.nvsLoaded, x.out⟩ := by
  refine h.trans ?_
  unfold Same
  simp only [erase, e4, cond_true]

theorem Same.put_shadow {M : Nat} {s x : State} {v5 : List (Nat × Word)} (e5 : M.testBit 5 = true) (h : Same M s x) :
    Same M s ⟨x.pending, x.free, x.cyc, x.order, x.regs, v5, x.staging, x.posted, x.landed, x.cycle, x.mem, x.time, x.seal_, x.fcol, x.snap, x.scs, x.fods, x.refs, x.dps, x.scr, x.lanes, x.ports, x.ingress, x.gone, x.early, x.owed, x.rings, x.corrPause, x.tdcFail, x.groups, x.wits, x.coreAwake, x.standby, x.mateReady, x.mate, x.nvs, x.cal, x.cmd, x.dmas, x.dmaLast, x.seqs, x.pwr, x.smb, x.pcieUp, x.msix, x.pba, x.nvsLoaded, x.out⟩ := by
  refine h.trans ?_
  unfold Same
  simp only [erase, e5, cond_true]

theorem Same.put_staging {M : Nat} {s x : State} {v6 : List (Nat × Word)} (e6 : M.testBit 6 = true) (h : Same M s x) :
    Same M s ⟨x.pending, x.free, x.cyc, x.order, x.regs, x.shadow, v6, x.posted, x.landed, x.cycle, x.mem, x.time, x.seal_, x.fcol, x.snap, x.scs, x.fods, x.refs, x.dps, x.scr, x.lanes, x.ports, x.ingress, x.gone, x.early, x.owed, x.rings, x.corrPause, x.tdcFail, x.groups, x.wits, x.coreAwake, x.standby, x.mateReady, x.mate, x.nvs, x.cal, x.cmd, x.dmas, x.dmaLast, x.seqs, x.pwr, x.smb, x.pcieUp, x.msix, x.pba, x.nvsLoaded, x.out⟩ := by
  refine h.trans ?_
  unfold Same
  simp only [erase, e6, cond_true]

theorem Same.put_posted {M : Nat} {s x : State} {v7 : List (Nat × Posted)} (e7 : M.testBit 7 = true) (h : Same M s x) :
    Same M s ⟨x.pending, x.free, x.cyc, x.order, x.regs, x.shadow, x.staging, v7, x.landed, x.cycle, x.mem, x.time, x.seal_, x.fcol, x.snap, x.scs, x.fods, x.refs, x.dps, x.scr, x.lanes, x.ports, x.ingress, x.gone, x.early, x.owed, x.rings, x.corrPause, x.tdcFail, x.groups, x.wits, x.coreAwake, x.standby, x.mateReady, x.mate, x.nvs, x.cal, x.cmd, x.dmas, x.dmaLast, x.seqs, x.pwr, x.smb, x.pcieUp, x.msix, x.pba, x.nvsLoaded, x.out⟩ := by
  refine h.trans ?_
  unfold Same
  simp only [erase, e7, cond_true]

theorem Same.put_landed {M : Nat} {s x : State} {v8 : List Landed} (e8 : M.testBit 8 = true) (h : Same M s x) :
    Same M s ⟨x.pending, x.free, x.cyc, x.order, x.regs, x.shadow, x.staging, x.posted, v8, x.cycle, x.mem, x.time, x.seal_, x.fcol, x.snap, x.scs, x.fods, x.refs, x.dps, x.scr, x.lanes, x.ports, x.ingress, x.gone, x.early, x.owed, x.rings, x.corrPause, x.tdcFail, x.groups, x.wits, x.coreAwake, x.standby, x.mateReady, x.mate, x.nvs, x.cal, x.cmd, x.dmas, x.dmaLast, x.seqs, x.pwr, x.smb, x.pcieUp, x.msix, x.pba, x.nvsLoaded, x.out⟩ := by
  refine h.trans ?_
  unfold Same
  simp only [erase, e8, cond_true]

theorem Same.put_cycle {M : Nat} {s x : State} {v9 : CycLog} (e9 : M.testBit 9 = true) (h : Same M s x) :
    Same M s ⟨x.pending, x.free, x.cyc, x.order, x.regs, x.shadow, x.staging, x.posted, x.landed, v9, x.mem, x.time, x.seal_, x.fcol, x.snap, x.scs, x.fods, x.refs, x.dps, x.scr, x.lanes, x.ports, x.ingress, x.gone, x.early, x.owed, x.rings, x.corrPause, x.tdcFail, x.groups, x.wits, x.coreAwake, x.standby, x.mateReady, x.mate, x.nvs, x.cal, x.cmd, x.dmas, x.dmaLast, x.seqs, x.pwr, x.smb, x.pcieUp, x.msix, x.pba, x.nvsLoaded, x.out⟩ := by
  refine h.trans ?_
  unfold Same
  simp only [erase, e9, cond_true]

theorem Same.put_mem {M : Nat} {s x : State} {v10 : List Host.Cell} (e10 : M.testBit 10 = true) (h : Same M s x) :
    Same M s ⟨x.pending, x.free, x.cyc, x.order, x.regs, x.shadow, x.staging, x.posted, x.landed, x.cycle, v10, x.time, x.seal_, x.fcol, x.snap, x.scs, x.fods, x.refs, x.dps, x.scr, x.lanes, x.ports, x.ingress, x.gone, x.early, x.owed, x.rings, x.corrPause, x.tdcFail, x.groups, x.wits, x.coreAwake, x.standby, x.mateReady, x.mate, x.nvs, x.cal, x.cmd, x.dmas, x.dmaLast, x.seqs, x.pwr, x.smb, x.pcieUp, x.msix, x.pba, x.nvsLoaded, x.out⟩ := by
  refine h.trans ?_
  unfold Same
  simp only [erase, e10, cond_true]

theorem Same.put_time {M : Nat} {s x : State} {v11 : TimeSt} (e11 : M.testBit 11 = true) (h : Same M s x) :
    Same M s ⟨x.pending, x.free, x.cyc, x.order, x.regs, x.shadow, x.staging, x.posted, x.landed, x.cycle, x.mem, v11, x.seal_, x.fcol, x.snap, x.scs, x.fods, x.refs, x.dps, x.scr, x.lanes, x.ports, x.ingress, x.gone, x.early, x.owed, x.rings, x.corrPause, x.tdcFail, x.groups, x.wits, x.coreAwake, x.standby, x.mateReady, x.mate, x.nvs, x.cal, x.cmd, x.dmas, x.dmaLast, x.seqs, x.pwr, x.smb, x.pcieUp, x.msix, x.pba, x.nvsLoaded, x.out⟩ := by
  refine h.trans ?_
  unfold Same
  simp only [erase, e11, cond_true]

theorem Same.put_cyc_time {M : Nat} {s x : State} {v2 : Nat} {v11 : TimeSt} (e2 : M.testBit 2 = true) (e11 : M.testBit 11 = true) (h : Same M s x) :
    Same M s ⟨x.pending, x.free, v2, x.order, x.regs, x.shadow, x.staging, x.posted, x.landed, x.cycle, x.mem, v11, x.seal_, x.fcol, x.snap, x.scs, x.fods, x.refs, x.dps, x.scr, x.lanes, x.ports, x.ingress, x.gone, x.early, x.owed, x.rings, x.corrPause, x.tdcFail, x.groups, x.wits, x.coreAwake, x.standby, x.mateReady, x.mate, x.nvs, x.cal, x.cmd, x.dmas, x.dmaLast, x.seqs, x.pwr, x.smb, x.pcieUp, x.msix, x.pba, x.nvsLoaded, x.out⟩ := by
  refine h.trans ?_
  unfold Same
  simp only [erase, e2, e11, cond_true]

theorem Same.put_seal {M : Nat} {s x : State} {v12 : SealSt} (e12 : M.testBit 12 = true) (h : Same M s x) :
    Same M s ⟨x.pending, x.free, x.cyc, x.order, x.regs, x.shadow, x.staging, x.posted, x.landed, x.cycle, x.mem, x.time, v12, x.fcol, x.snap, x.scs, x.fods, x.refs, x.dps, x.scr, x.lanes, x.ports, x.ingress, x.gone, x.early, x.owed, x.rings, x.corrPause, x.tdcFail, x.groups, x.wits, x.coreAwake, x.standby, x.mateReady, x.mate, x.nvs, x.cal, x.cmd, x.dmas, x.dmaLast, x.seqs, x.pwr, x.smb, x.pcieUp, x.msix, x.pba, x.nvsLoaded, x.out⟩ := by
  refine h.trans ?_
  unfold Same
  simp only [erase, e12, cond_true]

theorem Same.put_fcol {M : Nat} {s x : State} {v13 : FcolSt} (e13 : M.testBit 13 = true) (h : Same M s x) :
    Same M s ⟨x.pending, x.free, x.cyc, x.order, x.regs, x.shadow, x.staging, x.posted, x.landed, x.cycle, x.mem, x.time, x.seal_, v13, x.snap, x.scs, x.fods, x.refs, x.dps, x.scr, x.lanes, x.ports, x.ingress, x.gone, x.early, x.owed, x.rings, x.corrPause, x.tdcFail, x.groups, x.wits, x.coreAwake, x.standby, x.mateReady, x.mate, x.nvs, x.cal, x.cmd, x.dmas, x.dmaLast, x.seqs, x.pwr, x.smb, x.pcieUp, x.msix, x.pba, x.nvsLoaded, x.out⟩ := by
  refine h.trans ?_
  unfold Same
  simp only [erase, e13, cond_true]

theorem Same.put_snap {M : Nat} {s x : State} {v14 : SnapSt} (e14 : M.testBit 14 = true) (h : Same M s x) :
    Same M s ⟨x.pending, x.free, x.cyc, x.order, x.regs, x.shadow, x.staging, x.posted, x.landed, x.cycle, x.mem, x.time, x.seal_, x.fcol, v14, x.scs, x.fods, x.refs, x.dps, x.scr, x.lanes, x.ports, x.ingress, x.gone, x.early, x.owed, x.rings, x.corrPause, x.tdcFail, x.groups, x.wits, x.coreAwake, x.standby, x.mateReady, x.mate, x.nvs, x.cal, x.cmd, x.dmas, x.dmaLast, x.seqs, x.pwr, x.smb, x.pcieUp, x.msix, x.pba, x.nvsLoaded, x.out⟩ := by
  refine h.trans ?_
  unfold Same
  simp only [erase, e14, cond_true]

theorem Same.put_scs {M : Nat} {s x : State} {v15 : List (Nat × Sc)} (e15 : M.testBit 15 = true) (h : Same M s x) :
    Same M s ⟨x.pending, x.free, x.cyc, x.order, x.regs, x.shadow, x.staging, x.posted, x.landed, x.cycle, x.mem, x.time, x.seal_, x.fcol, x.snap, v15, x.fods, x.refs, x.dps, x.scr, x.lanes, x.ports, x.ingress, x.gone, x.early, x.owed, x.rings, x.corrPause, x.tdcFail, x.groups, x.wits, x.coreAwake, x.standby, x.mateReady, x.mate, x.nvs, x.cal, x.cmd, x.dmas, x.dmaLast, x.seqs, x.pwr, x.smb, x.pcieUp, x.msix, x.pba, x.nvsLoaded, x.out⟩ := by
  refine h.trans ?_
  unfold Same
  simp only [erase, e15, cond_true]

theorem Same.put_fods {M : Nat} {s x : State} {v16 : List (Nat × Fod)} (e16 : M.testBit 16 = true) (h : Same M s x) :
    Same M s ⟨x.pending, x.free, x.cyc, x.order, x.regs, x.shadow, x.staging, x.posted, x.landed, x.cycle, x.mem, x.time, x.seal_, x.fcol, x.snap, x.scs, v16, x.refs, x.dps, x.scr, x.lanes, x.ports, x.ingress, x.gone, x.early, x.owed, x.rings, x.corrPause, x.tdcFail, x.groups, x.wits, x.coreAwake, x.standby, x.mateReady, x.mate, x.nvs, x.cal, x.cmd, x.dmas, x.dmaLast, x.seqs, x.pwr, x.smb, x.pcieUp, x.msix, x.pba, x.nvsLoaded, x.out⟩ := by
  refine h.trans ?_
  unfold Same
  simp only [erase, e16, cond_true]

theorem Same.put_refs {M : Nat} {s x : State} {v17 : List (Nat × Ref)} (e17 : M.testBit 17 = true) (h : Same M s x) :
    Same M s ⟨x.pending, x.free, x.cyc, x.order, x.regs, x.shadow, x.staging, x.posted, x.landed, x.cycle, x.mem, x.time, x.seal_, x.fcol, x.snap, x.scs, x.fods, v17, x.dps, x.scr, x.lanes, x.ports, x.ingress, x.gone, x.early, x.owed, x.rings, x.corrPause, x.tdcFail, x.groups, x.wits, x.coreAwake, x.standby, x.mateReady, x.mate, x.nvs, x.cal, x.cmd, x.dmas, x.dmaLast, x.seqs, x.pwr, x.smb, x.pcieUp, x.msix, x.pba, x.nvsLoaded, x.out⟩ := by
  refine h.trans ?_
  unfold Same
  simp only [erase, e17, cond_true]

theorem Same.put_dps {M : Nat} {s x : State} {v18 : List (Nat × Dp)} (e18 : M.testBit 18 = true) (h : Same M s x) :
    Same M s ⟨x.pending, x.free, x.cyc, x.order, x.regs, x.shadow, x.staging, x.posted, x.landed, x.cycle, x.mem, x.time, x.seal_, x.fcol, x.snap, x.scs, x.fods, x.refs, v18, x.scr, x.lanes, x.ports, x.ingress, x.gone, x.early, x.owed, x.rings, x.corrPause, x.tdcFail, x.groups, x.wits, x.coreAwake, x.standby, x.mateReady, x.mate, x.nvs, x.cal, x.cmd, x.dmas, x.dmaLast, x.seqs, x.pwr, x.smb, x.pcieUp, x.msix, x.pba, x.nvsLoaded, x.out⟩ := by
  refine h.trans ?_
  unfold Same
  simp only [erase, e18, cond_true]

theorem Same.put_scr {M : Nat} {s x : State} {v19 : Scr} (e19 : M.testBit 19 = true) (h : Same M s x) :
    Same M s ⟨x.pending, x.free, x.cyc, x.order, x.regs, x.shadow, x.staging, x.posted, x.landed, x.cycle, x.mem, x.time, x.seal_, x.fcol, x.snap, x.scs, x.fods, x.refs, x.dps, v19, x.lanes, x.ports, x.ingress, x.gone, x.early, x.owed, x.rings, x.corrPause, x.tdcFail, x.groups, x.wits, x.coreAwake, x.standby, x.mateReady, x.mate, x.nvs, x.cal, x.cmd, x.dmas, x.dmaLast, x.seqs, x.pwr, x.smb, x.pcieUp, x.msix, x.pba, x.nvsLoaded, x.out⟩ := by
  refine h.trans ?_
  unfold Same
  simp only [erase, e19, cond_true]

theorem Same.put_free_scr {M : Nat} {s x : State} {v1 : Nat} {v19 : Scr} (e1 : M.testBit 1 = true) (e19 : M.testBit 19 = true) (h : Same M s x) :
    Same M s ⟨x.pending, v1, x.cyc, x.order, x.regs, x.shadow, x.staging, x.posted, x.landed, x.cycle, x.mem, x.time, x.seal_, x.fcol, x.snap, x.scs, x.fods, x.refs, x.dps, v19, x.lanes, x.ports, x.ingress, x.gone, x.early, x.owed, x.rings, x.corrPause, x.tdcFail, x.groups, x.wits, x.coreAwake, x.standby, x.mateReady, x.mate, x.nvs, x.cal, x.cmd, x.dmas, x.dmaLast, x.seqs, x.pwr, x.smb, x.pcieUp, x.msix, x.pba, x.nvsLoaded, x.out⟩ := by
  refine h.trans ?_
  unfold Same
  simp only [erase, e1, e19, cond_true]

theorem Same.put_lanes {M : Nat} {s x : State} {v20 : List (Nat × LaneSt)} (e20 : M.testBit 20 = true) (h : Same M s x) :
    Same M s ⟨x.pending, x.free, x.cyc, x.order, x.regs, x.shadow, x.staging, x.posted, x.landed, x.cycle, x.mem, x.time, x.seal_, x.fcol, x.snap, x.scs, x.fods, x.refs, x.dps, x.scr, v20, x.ports, x.ingress, x.gone, x.early, x.owed, x.rings, x.corrPause, x.tdcFail, x.groups, x.wits, x.coreAwake, x.standby, x.mateReady, x.mate, x.nvs, x.cal, x.cmd, x.dmas, x.dmaLast, x.seqs, x.pwr, x.smb, x.pcieUp, x.msix, x.pba, x.nvsLoaded, x.out⟩ := by
  refine h.trans ?_
  unfold Same
  simp only [erase, e20, cond_true]

theorem Same.put_ports {M : Nat} {s x : State} {v21 : List (Nat × PortSt)} (e21 : M.testBit 21 = true) (h : Same M s x) :
    Same M s ⟨x.pending, x.free, x.cyc, x.order, x.regs, x.shadow, x.staging, x.posted, x.landed, x.cycle, x.mem, x.time, x.seal_, x.fcol, x.snap, x.scs, x.fods, x.refs, x.dps, x.scr, x.lanes, v21, x.ingress, x.gone, x.early, x.owed, x.rings, x.corrPause, x.tdcFail, x.groups, x.wits, x.coreAwake, x.standby, x.mateReady, x.mate, x.nvs, x.cal, x.cmd, x.dmas, x.dmaLast, x.seqs, x.pwr, x.smb, x.pcieUp, x.msix, x.pba, x.nvsLoaded, x.out⟩ := by
  refine h.trans ?_
  unfold Same
  simp only [erase, e21, cond_true]

theorem Same.put_ingress {M : Nat} {s x : State} {v22 : List Ing} (e22 : M.testBit 22 = true) (h : Same M s x) :
    Same M s ⟨x.pending, x.free, x.cyc, x.order, x.regs, x.shadow, x.staging, x.posted, x.landed, x.cycle, x.mem, x.time, x.seal_, x.fcol, x.snap, x.scs, x.fods, x.refs, x.dps, x.scr, x.lanes, x.ports, v22, x.gone, x.early, x.owed, x.rings, x.corrPause, x.tdcFail, x.groups, x.wits, x.coreAwake, x.standby, x.mateReady, x.mate, x.nvs, x.cal, x.cmd, x.dmas, x.dmaLast, x.seqs, x.pwr, x.smb, x.pcieUp, x.msix, x.pba, x.nvsLoaded, x.out⟩ := by
  refine h.trans ?_
  unfold Same
  simp only [erase, e22, cond_true]

theorem Same.put_gone {M : Nat} {s x : State} {v23 : List (Nat × Bool × Nat × Int)} (e23 : M.testBit 23 = true) (h : Same M s x) :
    Same M s ⟨x.pending, x.free, x.cyc, x.order, x.regs, x.shadow, x.staging, x.posted, x.landed, x.cycle, x.mem, x.time, x.seal_, x.fcol, x.snap, x.scs, x.fods, x.refs, x.dps, x.scr, x.lanes, x.ports, x.ingress, v23, x.early, x.owed, x.rings, x.corrPause, x.tdcFail, x.groups, x.wits, x.coreAwake, x.standby, x.mateReady, x.mate, x.nvs, x.cal, x.cmd, x.dmas, x.dmaLast, x.seqs, x.pwr, x.smb, x.pcieUp, x.msix, x.pba, x.nvsLoaded, x.out⟩ := by
  refine h.trans ?_
  unfold Same
  simp only [erase, e23, cond_true]

theorem Same.put_early {M : Nat} {s x : State} {v24 : List (Nat × Bool × Nat × Nat)} (e24 : M.testBit 24 = true) (h : Same M s x) :
    Same M s ⟨x.pending, x.free, x.cyc, x.order, x.regs, x.shadow, x.staging, x.posted, x.landed, x.cycle, x.mem, x.time, x.seal_, x.fcol, x.snap, x.scs, x.fods, x.refs, x.dps, x.scr, x.lanes, x.ports, x.ingress, x.gone, v24, x.owed, x.rings, x.corrPause, x.tdcFail, x.groups, x.wits, x.coreAwake, x.standby, x.mateReady, x.mate, x.nvs, x.cal, x.cmd, x.dmas, x.dmaLast, x.seqs, x.pwr, x.smb, x.pcieUp, x.msix, x.pba, x.nvsLoaded, x.out⟩ := by
  refine h.trans ?_
  unfold Same
  simp only [erase, e24, cond_true]

theorem Same.put_owed {M : Nat} {s x : State} {v25 : List Owed} (e25 : M.testBit 25 = true) (h : Same M s x) :
    Same M s ⟨x.pending, x.free, x.cyc, x.order, x.regs, x.shadow, x.staging, x.posted, x.landed, x.cycle, x.mem, x.time, x.seal_, x.fcol, x.snap, x.scs, x.fods, x.refs, x.dps, x.scr, x.lanes, x.ports, x.ingress, x.gone, x.early, v25, x.rings, x.corrPause, x.tdcFail, x.groups, x.wits, x.coreAwake, x.standby, x.mateReady, x.mate, x.nvs, x.cal, x.cmd, x.dmas, x.dmaLast, x.seqs, x.pwr, x.smb, x.pcieUp, x.msix, x.pba, x.nvsLoaded, x.out⟩ := by
  refine h.trans ?_
  unfold Same
  simp only [erase, e25, cond_true]

theorem Same.put_ingress_owed {M : Nat} {s x : State} {v22 : List Ing} {v25 : List Owed} (e22 : M.testBit 22 = true) (e25 : M.testBit 25 = true) (h : Same M s x) :
    Same M s ⟨x.pending, x.free, x.cyc, x.order, x.regs, x.shadow, x.staging, x.posted, x.landed, x.cycle, x.mem, x.time, x.seal_, x.fcol, x.snap, x.scs, x.fods, x.refs, x.dps, x.scr, x.lanes, x.ports, v22, x.gone, x.early, v25, x.rings, x.corrPause, x.tdcFail, x.groups, x.wits, x.coreAwake, x.standby, x.mateReady, x.mate, x.nvs, x.cal, x.cmd, x.dmas, x.dmaLast, x.seqs, x.pwr, x.smb, x.pcieUp, x.msix, x.pba, x.nvsLoaded, x.out⟩ := by
  refine h.trans ?_
  unfold Same
  simp only [erase, e22, e25, cond_true]

theorem Same.put_rings {M : Nat} {s x : State} {v26 : List (Nat × RingSt)} (e26 : M.testBit 26 = true) (h : Same M s x) :
    Same M s ⟨x.pending, x.free, x.cyc, x.order, x.regs, x.shadow, x.staging, x.posted, x.landed, x.cycle, x.mem, x.time, x.seal_, x.fcol, x.snap, x.scs, x.fods, x.refs, x.dps, x.scr, x.lanes, x.ports, x.ingress, x.gone, x.early, x.owed, v26, x.corrPause, x.tdcFail, x.groups, x.wits, x.coreAwake, x.standby, x.mateReady, x.mate, x.nvs, x.cal, x.cmd, x.dmas, x.dmaLast, x.seqs, x.pwr, x.smb, x.pcieUp, x.msix, x.pba, x.nvsLoaded, x.out⟩ := by
  refine h.trans ?_
  unfold Same
  simp only [erase, e26, cond_true]

theorem Same.put_corrPause {M : Nat} {s x : State} {v27 : Bool} (e27 : M.testBit 27 = true) (h : Same M s x) :
    Same M s ⟨x.pending, x.free, x.cyc, x.order, x.regs, x.shadow, x.staging, x.posted, x.landed, x.cycle, x.mem, x.time, x.seal_, x.fcol, x.snap, x.scs, x.fods, x.refs, x.dps, x.scr, x.lanes, x.ports, x.ingress, x.gone, x.early, x.owed, x.rings, v27, x.tdcFail, x.groups, x.wits, x.coreAwake, x.standby, x.mateReady, x.mate, x.nvs, x.cal, x.cmd, x.dmas, x.dmaLast, x.seqs, x.pwr, x.smb, x.pcieUp, x.msix, x.pba, x.nvsLoaded, x.out⟩ := by
  refine h.trans ?_
  unfold Same
  simp only [erase, e27, cond_true]

theorem Same.put_shadow_staging_corrPause {M : Nat} {s x : State} {v5 : List (Nat × Word)} {v6 : List (Nat × Word)} {v27 : Bool} (e5 : M.testBit 5 = true) (e6 : M.testBit 6 = true) (e27 : M.testBit 27 = true) (h : Same M s x) :
    Same M s ⟨x.pending, x.free, x.cyc, x.order, x.regs, v5, v6, x.posted, x.landed, x.cycle, x.mem, x.time, x.seal_, x.fcol, x.snap, x.scs, x.fods, x.refs, x.dps, x.scr, x.lanes, x.ports, x.ingress, x.gone, x.early, x.owed, x.rings, v27, x.tdcFail, x.groups, x.wits, x.coreAwake, x.standby, x.mateReady, x.mate, x.nvs, x.cal, x.cmd, x.dmas, x.dmaLast, x.seqs, x.pwr, x.smb, x.pcieUp, x.msix, x.pba, x.nvsLoaded, x.out⟩ := by
  refine h.trans ?_
  unfold Same
  simp only [erase, e5, e6, e27, cond_true]

theorem Same.put_tdcFail {M : Nat} {s x : State} {v28 : Nat} (e28 : M.testBit 28 = true) (h : Same M s x) :
    Same M s ⟨x.pending, x.free, x.cyc, x.order, x.regs, x.shadow, x.staging, x.posted, x.landed, x.cycle, x.mem, x.time, x.seal_, x.fcol, x.snap, x.scs, x.fods, x.refs, x.dps, x.scr, x.lanes, x.ports, x.ingress, x.gone, x.early, x.owed, x.rings, x.corrPause, v28, x.groups, x.wits, x.coreAwake, x.standby, x.mateReady, x.mate, x.nvs, x.cal, x.cmd, x.dmas, x.dmaLast, x.seqs, x.pwr, x.smb, x.pcieUp, x.msix, x.pba, x.nvsLoaded, x.out⟩ := by
  refine h.trans ?_
  unfold Same
  simp only [erase, e28, cond_true]

theorem Same.put_groups {M : Nat} {s x : State} {v29 : Nat} (e29 : M.testBit 29 = true) (h : Same M s x) :
    Same M s ⟨x.pending, x.free, x.cyc, x.order, x.regs, x.shadow, x.staging, x.posted, x.landed, x.cycle, x.mem, x.time, x.seal_, x.fcol, x.snap, x.scs, x.fods, x.refs, x.dps, x.scr, x.lanes, x.ports, x.ingress, x.gone, x.early, x.owed, x.rings, x.corrPause, x.tdcFail, v29, x.wits, x.coreAwake, x.standby, x.mateReady, x.mate, x.nvs, x.cal, x.cmd, x.dmas, x.dmaLast, x.seqs, x.pwr, x.smb, x.pcieUp, x.msix, x.pba, x.nvsLoaded, x.out⟩ := by
  refine h.trans ?_
  unfold Same
  simp only [erase, e29, cond_true]

theorem Same.put_wits {M : Nat} {s x : State} {v30 : List (Nat × WitSt)} (e30 : M.testBit 30 = true) (h : Same M s x) :
    Same M s ⟨x.pending, x.free, x.cyc, x.order, x.regs, x.shadow, x.staging, x.posted, x.landed, x.cycle, x.mem, x.time, x.seal_, x.fcol, x.snap, x.scs, x.fods, x.refs, x.dps, x.scr, x.lanes, x.ports, x.ingress, x.gone, x.early, x.owed, x.rings, x.corrPause, x.tdcFail, x.groups, v30, x.coreAwake, x.standby, x.mateReady, x.mate, x.nvs, x.cal, x.cmd, x.dmas, x.dmaLast, x.seqs, x.pwr, x.smb, x.pcieUp, x.msix, x.pba, x.nvsLoaded, x.out⟩ := by
  refine h.trans ?_
  unfold Same
  simp only [erase, e30, cond_true]

theorem Same.put_coreAwake {M : Nat} {s x : State} {v31 : Bool} (e31 : M.testBit 31 = true) (h : Same M s x) :
    Same M s ⟨x.pending, x.free, x.cyc, x.order, x.regs, x.shadow, x.staging, x.posted, x.landed, x.cycle, x.mem, x.time, x.seal_, x.fcol, x.snap, x.scs, x.fods, x.refs, x.dps, x.scr, x.lanes, x.ports, x.ingress, x.gone, x.early, x.owed, x.rings, x.corrPause, x.tdcFail, x.groups, x.wits, v31, x.standby, x.mateReady, x.mate, x.nvs, x.cal, x.cmd, x.dmas, x.dmaLast, x.seqs, x.pwr, x.smb, x.pcieUp, x.msix, x.pba, x.nvsLoaded, x.out⟩ := by
  refine h.trans ?_
  unfold Same
  simp only [erase, e31, cond_true]

theorem Same.put_time_seal_coreAwake {M : Nat} {s x : State} {v11 : TimeSt} {v12 : SealSt} {v31 : Bool} (e11 : M.testBit 11 = true) (e12 : M.testBit 12 = true) (e31 : M.testBit 31 = true) (h : Same M s x) :
    Same M s ⟨x.pending, x.free, x.cyc, x.order, x.regs, x.shadow, x.staging, x.posted, x.landed, x.cycle, x.mem, v11, v12, x.fcol, x.snap, x.scs, x.fods, x.refs, x.dps, x.scr, x.lanes, x.ports, x.ingress, x.gone, x.early, x.owed, x.rings, x.corrPause, x.tdcFail, x.groups, x.wits, v31, x.standby, x.mateReady, x.mate, x.nvs, x.cal, x.cmd, x.dmas, x.dmaLast, x.seqs, x.pwr, x.smb, x.pcieUp, x.msix, x.pba, x.nvsLoaded, x.out⟩ := by
  refine h.trans ?_
  unfold Same
  simp only [erase, e11, e12, e31, cond_true]

theorem Same.put_mateReady {M : Nat} {s x : State} {v33 : Bool} (e33 : M.testBit 33 = true) (h : Same M s x) :
    Same M s ⟨x.pending, x.free, x.cyc, x.order, x.regs, x.shadow, x.staging, x.posted, x.landed, x.cycle, x.mem, x.time, x.seal_, x.fcol, x.snap, x.scs, x.fods, x.refs, x.dps, x.scr, x.lanes, x.ports, x.ingress, x.gone, x.early, x.owed, x.rings, x.corrPause, x.tdcFail, x.groups, x.wits, x.coreAwake, x.standby, v33, x.mate, x.nvs, x.cal, x.cmd, x.dmas, x.dmaLast, x.seqs, x.pwr, x.smb, x.pcieUp, x.msix, x.pba, x.nvsLoaded, x.out⟩ := by
  refine h.trans ?_
  unfold Same
  simp only [erase, e33, cond_true]

theorem Same.put_mate {M : Nat} {s x : State} {v34 : MateSt} (e34 : M.testBit 34 = true) (h : Same M s x) :
    Same M s ⟨x.pending, x.free, x.cyc, x.order, x.regs, x.shadow, x.staging, x.posted, x.landed, x.cycle, x.mem, x.time, x.seal_, x.fcol, x.snap, x.scs, x.fods, x.refs, x.dps, x.scr, x.lanes, x.ports, x.ingress, x.gone, x.early, x.owed, x.rings, x.corrPause, x.tdcFail, x.groups, x.wits, x.coreAwake, x.standby, x.mateReady, v34, x.nvs, x.cal, x.cmd, x.dmas, x.dmaLast, x.seqs, x.pwr, x.smb, x.pcieUp, x.msix, x.pba, x.nvsLoaded, x.out⟩ := by
  refine h.trans ?_
  unfold Same
  simp only [erase, e34, cond_true]

theorem Same.put_standby_mate {M : Nat} {s x : State} {v32 : Bool} {v34 : MateSt} (e32 : M.testBit 32 = true) (e34 : M.testBit 34 = true) (h : Same M s x) :
    Same M s ⟨x.pending, x.free, x.cyc, x.order, x.regs, x.shadow, x.staging, x.posted, x.landed, x.cycle, x.mem, x.time, x.seal_, x.fcol, x.snap, x.scs, x.fods, x.refs, x.dps, x.scr, x.lanes, x.ports, x.ingress, x.gone, x.early, x.owed, x.rings, x.corrPause, x.tdcFail, x.groups, x.wits, x.coreAwake, v32, x.mateReady, v34, x.nvs, x.cal, x.cmd, x.dmas, x.dmaLast, x.seqs, x.pwr, x.smb, x.pcieUp, x.msix, x.pba, x.nvsLoaded, x.out⟩ := by
  refine h.trans ?_
  unfold Same
  simp only [erase, e32, e34, cond_true]

theorem Same.put_mateReady_mate {M : Nat} {s x : State} {v33 : Bool} {v34 : MateSt} (e33 : M.testBit 33 = true) (e34 : M.testBit 34 = true) (h : Same M s x) :
    Same M s ⟨x.pending, x.free, x.cyc, x.order, x.regs, x.shadow, x.staging, x.posted, x.landed, x.cycle, x.mem, x.time, x.seal_, x.fcol, x.snap, x.scs, x.fods, x.refs, x.dps, x.scr, x.lanes, x.ports, x.ingress, x.gone, x.early, x.owed, x.rings, x.corrPause, x.tdcFail, x.groups, x.wits, x.coreAwake, x.standby, v33, v34, x.nvs, x.cal, x.cmd, x.dmas, x.dmaLast, x.seqs, x.pwr, x.smb, x.pcieUp, x.msix, x.pba, x.nvsLoaded, x.out⟩ := by
  refine h.trans ?_
  unfold Same
  simp only [erase, e33, e34, cond_true]

theorem Same.put_nvs {M : Nat} {s x : State} {v35 : NvsSt} (e35 : M.testBit 35 = true) (h : Same M s x) :
    Same M s ⟨x.pending, x.free, x.cyc, x.order, x.regs, x.shadow, x.staging, x.posted, x.landed, x.cycle, x.mem, x.time, x.seal_, x.fcol, x.snap, x.scs, x.fods, x.refs, x.dps, x.scr, x.lanes, x.ports, x.ingress, x.gone, x.early, x.owed, x.rings, x.corrPause, x.tdcFail, x.groups, x.wits, x.coreAwake, x.standby, x.mateReady, x.mate, v35, x.cal, x.cmd, x.dmas, x.dmaLast, x.seqs, x.pwr, x.smb, x.pcieUp, x.msix, x.pba, x.nvsLoaded, x.out⟩ := by
  refine h.trans ?_
  unfold Same
  simp only [erase, e35, cond_true]

theorem Same.put_free_nvs {M : Nat} {s x : State} {v1 : Nat} {v35 : NvsSt} (e1 : M.testBit 1 = true) (e35 : M.testBit 35 = true) (h : Same M s x) :
    Same M s ⟨x.pending, v1, x.cyc, x.order, x.regs, x.shadow, x.staging, x.posted, x.landed, x.cycle, x.mem, x.time, x.seal_, x.fcol, x.snap, x.scs, x.fods, x.refs, x.dps, x.scr, x.lanes, x.ports, x.ingress, x.gone, x.early, x.owed, x.rings, x.corrPause, x.tdcFail, x.groups, x.wits, x.coreAwake, x.standby, x.mateReady, x.mate, v35, x.cal, x.cmd, x.dmas, x.dmaLast, x.seqs, x.pwr, x.smb, x.pcieUp, x.msix, x.pba, x.nvsLoaded, x.out⟩ := by
  refine h.trans ?_
  unfold Same
  simp only [erase, e1, e35, cond_true]

theorem Same.put_cal {M : Nat} {s x : State} {v36 : CalSt} (e36 : M.testBit 36 = true) (h : Same M s x) :
    Same M s ⟨x.pending, x.free, x.cyc, x.order, x.regs, x.shadow, x.staging, x.posted, x.landed, x.cycle, x.mem, x.time, x.seal_, x.fcol, x.snap, x.scs, x.fods, x.refs, x.dps, x.scr, x.lanes, x.ports, x.ingress, x.gone, x.early, x.owed, x.rings, x.corrPause, x.tdcFail, x.groups, x.wits, x.coreAwake, x.standby, x.mateReady, x.mate, x.nvs, v36, x.cmd, x.dmas, x.dmaLast, x.seqs, x.pwr, x.smb, x.pcieUp, x.msix, x.pba, x.nvsLoaded, x.out⟩ := by
  refine h.trans ?_
  unfold Same
  simp only [erase, e36, cond_true]

theorem Same.put_free_cal {M : Nat} {s x : State} {v1 : Nat} {v36 : CalSt} (e1 : M.testBit 1 = true) (e36 : M.testBit 36 = true) (h : Same M s x) :
    Same M s ⟨x.pending, v1, x.cyc, x.order, x.regs, x.shadow, x.staging, x.posted, x.landed, x.cycle, x.mem, x.time, x.seal_, x.fcol, x.snap, x.scs, x.fods, x.refs, x.dps, x.scr, x.lanes, x.ports, x.ingress, x.gone, x.early, x.owed, x.rings, x.corrPause, x.tdcFail, x.groups, x.wits, x.coreAwake, x.standby, x.mateReady, x.mate, x.nvs, v36, x.cmd, x.dmas, x.dmaLast, x.seqs, x.pwr, x.smb, x.pcieUp, x.msix, x.pba, x.nvsLoaded, x.out⟩ := by
  refine h.trans ?_
  unfold Same
  simp only [erase, e1, e36, cond_true]

theorem Same.put_groups_cal {M : Nat} {s x : State} {v29 : Nat} {v36 : CalSt} (e29 : M.testBit 29 = true) (e36 : M.testBit 36 = true) (h : Same M s x) :
    Same M s ⟨x.pending, x.free, x.cyc, x.order, x.regs, x.shadow, x.staging, x.posted, x.landed, x.cycle, x.mem, x.time, x.seal_, x.fcol, x.snap, x.scs, x.fods, x.refs, x.dps, x.scr, x.lanes, x.ports, x.ingress, x.gone, x.early, x.owed, x.rings, x.corrPause, x.tdcFail, v29, x.wits, x.coreAwake, x.standby, x.mateReady, x.mate, x.nvs, v36, x.cmd, x.dmas, x.dmaLast, x.seqs, x.pwr, x.smb, x.pcieUp, x.msix, x.pba, x.nvsLoaded, x.out⟩ := by
  refine h.trans ?_
  unfold Same
  simp only [erase, e29, e36, cond_true]

theorem Same.put_cmd {M : Nat} {s x : State} {v37 : CmdSt} (e37 : M.testBit 37 = true) (h : Same M s x) :
    Same M s ⟨x.pending, x.free, x.cyc, x.order, x.regs, x.shadow, x.staging, x.posted, x.landed, x.cycle, x.mem, x.time, x.seal_, x.fcol, x.snap, x.scs, x.fods, x.refs, x.dps, x.scr, x.lanes, x.ports, x.ingress, x.gone, x.early, x.owed, x.rings, x.corrPause, x.tdcFail, x.groups, x.wits, x.coreAwake, x.standby, x.mateReady, x.mate, x.nvs, x.cal, v37, x.dmas, x.dmaLast, x.seqs, x.pwr, x.smb, x.pcieUp, x.msix, x.pba, x.nvsLoaded, x.out⟩ := by
  refine h.trans ?_
  unfold Same
  simp only [erase, e37, cond_true]

theorem Same.put_order_cmd {M : Nat} {s x : State} {v3 : Nat} {v37 : CmdSt} (e3 : M.testBit 3 = true) (e37 : M.testBit 37 = true) (h : Same M s x) :
    Same M s ⟨x.pending, x.free, x.cyc, v3, x.regs, x.shadow, x.staging, x.posted, x.landed, x.cycle, x.mem, x.time, x.seal_, x.fcol, x.snap, x.scs, x.fods, x.refs, x.dps, x.scr, x.lanes, x.ports, x.ingress, x.gone, x.early, x.owed, x.rings, x.corrPause, x.tdcFail, x.groups, x.wits, x.coreAwake, x.standby, x.mateReady, x.mate, x.nvs, x.cal, v37, x.dmas, x.dmaLast, x.seqs, x.pwr, x.smb, x.pcieUp, x.msix, x.pba, x.nvsLoaded, x.out⟩ := by
  refine h.trans ?_
  unfold Same
  simp only [erase, e3, e37, cond_true]

theorem Same.put_dmas {M : Nat} {s x : State} {v38 : List (Nat × DmaSt)} (e38 : M.testBit 38 = true) (h : Same M s x) :
    Same M s ⟨x.pending, x.free, x.cyc, x.order, x.regs, x.shadow, x.staging, x.posted, x.landed, x.cycle, x.mem, x.time, x.seal_, x.fcol, x.snap, x.scs, x.fods, x.refs, x.dps, x.scr, x.lanes, x.ports, x.ingress, x.gone, x.early, x.owed, x.rings, x.corrPause, x.tdcFail, x.groups, x.wits, x.coreAwake, x.standby, x.mateReady, x.mate, x.nvs, x.cal, x.cmd, v38, x.dmaLast, x.seqs, x.pwr, x.smb, x.pcieUp, x.msix, x.pba, x.nvsLoaded, x.out⟩ := by
  refine h.trans ?_
  unfold Same
  simp only [erase, e38, cond_true]

theorem Same.put_dmaLast {M : Nat} {s x : State} {v39 : Nat} (e39 : M.testBit 39 = true) (h : Same M s x) :
    Same M s ⟨x.pending, x.free, x.cyc, x.order, x.regs, x.shadow, x.staging, x.posted, x.landed, x.cycle, x.mem, x.time, x.seal_, x.fcol, x.snap, x.scs, x.fods, x.refs, x.dps, x.scr, x.lanes, x.ports, x.ingress, x.gone, x.early, x.owed, x.rings, x.corrPause, x.tdcFail, x.groups, x.wits, x.coreAwake, x.standby, x.mateReady, x.mate, x.nvs, x.cal, x.cmd, x.dmas, v39, x.seqs, x.pwr, x.smb, x.pcieUp, x.msix, x.pba, x.nvsLoaded, x.out⟩ := by
  refine h.trans ?_
  unfold Same
  simp only [erase, e39, cond_true]

theorem Same.put_seqs {M : Nat} {s x : State} {v40 : List (Nat × SeqSt)} (e40 : M.testBit 40 = true) (h : Same M s x) :
    Same M s ⟨x.pending, x.free, x.cyc, x.order, x.regs, x.shadow, x.staging, x.posted, x.landed, x.cycle, x.mem, x.time, x.seal_, x.fcol, x.snap, x.scs, x.fods, x.refs, x.dps, x.scr, x.lanes, x.ports, x.ingress, x.gone, x.early, x.owed, x.rings, x.corrPause, x.tdcFail, x.groups, x.wits, x.coreAwake, x.standby, x.mateReady, x.mate, x.nvs, x.cal, x.cmd, x.dmas, x.dmaLast, v40, x.pwr, x.smb, x.pcieUp, x.msix, x.pba, x.nvsLoaded, x.out⟩ := by
  refine h.trans ?_
  unfold Same
  simp only [erase, e40, cond_true]

theorem Same.put_pwr {M : Nat} {s x : State} {v41 : PwrSt} (e41 : M.testBit 41 = true) (h : Same M s x) :
    Same M s ⟨x.pending, x.free, x.cyc, x.order, x.regs, x.shadow, x.staging, x.posted, x.landed, x.cycle, x.mem, x.time, x.seal_, x.fcol, x.snap, x.scs, x.fods, x.refs, x.dps, x.scr, x.lanes, x.ports, x.ingress, x.gone, x.early, x.owed, x.rings, x.corrPause, x.tdcFail, x.groups, x.wits, x.coreAwake, x.standby, x.mateReady, x.mate, x.nvs, x.cal, x.cmd, x.dmas, x.dmaLast, x.seqs, v41, x.smb, x.pcieUp, x.msix, x.pba, x.nvsLoaded, x.out⟩ := by
  refine h.trans ?_
  unfold Same
  simp only [erase, e41, cond_true]

theorem Same.put_free_time_pwr {M : Nat} {s x : State} {v1 : Nat} {v11 : TimeSt} {v41 : PwrSt} (e1 : M.testBit 1 = true) (e11 : M.testBit 11 = true) (e41 : M.testBit 41 = true) (h : Same M s x) :
    Same M s ⟨x.pending, v1, x.cyc, x.order, x.regs, x.shadow, x.staging, x.posted, x.landed, x.cycle, x.mem, v11, x.seal_, x.fcol, x.snap, x.scs, x.fods, x.refs, x.dps, x.scr, x.lanes, x.ports, x.ingress, x.gone, x.early, x.owed, x.rings, x.corrPause, x.tdcFail, x.groups, x.wits, x.coreAwake, x.standby, x.mateReady, x.mate, x.nvs, x.cal, x.cmd, x.dmas, x.dmaLast, x.seqs, v41, x.smb, x.pcieUp, x.msix, x.pba, x.nvsLoaded, x.out⟩ := by
  refine h.trans ?_
  unfold Same
  simp only [erase, e1, e11, e41, cond_true]

theorem Same.put_coreAwake_pwr {M : Nat} {s x : State} {v31 : Bool} {v41 : PwrSt} (e31 : M.testBit 31 = true) (e41 : M.testBit 41 = true) (h : Same M s x) :
    Same M s ⟨x.pending, x.free, x.cyc, x.order, x.regs, x.shadow, x.staging, x.posted, x.landed, x.cycle, x.mem, x.time, x.seal_, x.fcol, x.snap, x.scs, x.fods, x.refs, x.dps, x.scr, x.lanes, x.ports, x.ingress, x.gone, x.early, x.owed, x.rings, x.corrPause, x.tdcFail, x.groups, x.wits, v31, x.standby, x.mateReady, x.mate, x.nvs, x.cal, x.cmd, x.dmas, x.dmaLast, x.seqs, v41, x.smb, x.pcieUp, x.msix, x.pba, x.nvsLoaded, x.out⟩ := by
  refine h.trans ?_
  unfold Same
  simp only [erase, e31, e41, cond_true]

theorem Same.put_mate_nvs_cal_pwr {M : Nat} {s x : State} {v34 : MateSt} {v35 : NvsSt} {v36 : CalSt} {v41 : PwrSt} (e34 : M.testBit 34 = true) (e35 : M.testBit 35 = true) (e36 : M.testBit 36 = true) (e41 : M.testBit 41 = true) (h : Same M s x) :
    Same M s ⟨x.pending, x.free, x.cyc, x.order, x.regs, x.shadow, x.staging, x.posted, x.landed, x.cycle, x.mem, x.time, x.seal_, x.fcol, x.snap, x.scs, x.fods, x.refs, x.dps, x.scr, x.lanes, x.ports, x.ingress, x.gone, x.early, x.owed, x.rings, x.corrPause, x.tdcFail, x.groups, x.wits, x.coreAwake, x.standby, x.mateReady, v34, v35, v36, x.cmd, x.dmas, x.dmaLast, x.seqs, v41, x.smb, x.pcieUp, x.msix, x.pba, x.nvsLoaded, x.out⟩ := by
  refine h.trans ?_
  unfold Same
  simp only [erase, e34, e35, e36, e41, cond_true]

theorem Same.put_cmd_pwr {M : Nat} {s x : State} {v37 : CmdSt} {v41 : PwrSt} (e37 : M.testBit 37 = true) (e41 : M.testBit 41 = true) (h : Same M s x) :
    Same M s ⟨x.pending, x.free, x.cyc, x.order, x.regs, x.shadow, x.staging, x.posted, x.landed, x.cycle, x.mem, x.time, x.seal_, x.fcol, x.snap, x.scs, x.fods, x.refs, x.dps, x.scr, x.lanes, x.ports, x.ingress, x.gone, x.early, x.owed, x.rings, x.corrPause, x.tdcFail, x.groups, x.wits, x.coreAwake, x.standby, x.mateReady, x.mate, x.nvs, x.cal, v37, x.dmas, x.dmaLast, x.seqs, v41, x.smb, x.pcieUp, x.msix, x.pba, x.nvsLoaded, x.out⟩ := by
  refine h.trans ?_
  unfold Same
  simp only [erase, e37, e41, cond_true]

theorem Same.put_snap_scs_fods_refs_dps_scr_mate_dmas_pwr {M : Nat} {s x : State} {v14 : SnapSt} {v15 : List (Nat × Sc)} {v16 : List (Nat × Fod)} {v17 : List (Nat × Ref)} {v18 : List (Nat × Dp)} {v19 : Scr} {v34 : MateSt} {v38 : List (Nat × DmaSt)} {v41 : PwrSt} (e14 : M.testBit 14 = true) (e15 : M.testBit 15 = true) (e16 : M.testBit 16 = true) (e17 : M.testBit 17 = true) (e18 : M.testBit 18 = true) (e19 : M.testBit 19 = true) (e34 : M.testBit 34 = true) (e38 : M.testBit 38 = true) (e41 : M.testBit 41 = true) (h : Same M s x) :
    Same M s ⟨x.pending, x.free, x.cyc, x.order, x.regs, x.shadow, x.staging, x.posted, x.landed, x.cycle, x.mem, x.time, x.seal_, x.fcol, v14, v15, v16, v17, v18, v19, x.lanes, x.ports, x.ingress, x.gone, x.early, x.owed, x.rings, x.corrPause, x.tdcFail, x.groups, x.wits, x.coreAwake, x.standby, x.mateReady, v34, x.nvs, x.cal, x.cmd, v38, x.dmaLast, x.seqs, v41, x.smb, x.pcieUp, x.msix, x.pba, x.nvsLoaded, x.out⟩ := by
  refine h.trans ?_
  unfold Same
  simp only [erase, e14, e15, e16, e17, e18, e19, e34, e38, e41, cond_true]

theorem Same.put_smb {M : Nat} {s x : State} {v42 : SmbSt} (e42 : M.testBit 42 = true) (h : Same M s x) :
    Same M s ⟨x.pending, x.free, x.cyc, x.order, x.regs, x.shadow, x.staging, x.posted, x.landed, x.cycle, x.mem, x.time, x.seal_, x.fcol, x.snap, x.scs, x.fods, x.refs, x.dps, x.scr, x.lanes, x.ports, x.ingress, x.gone, x.early, x.owed, x.rings, x.corrPause, x.tdcFail, x.groups, x.wits, x.coreAwake, x.standby, x.mateReady, x.mate, x.nvs, x.cal, x.cmd, x.dmas, x.dmaLast, x.seqs, x.pwr, v42, x.pcieUp, x.msix, x.pba, x.nvsLoaded, x.out⟩ := by
  refine h.trans ?_
  unfold Same
  simp only [erase, e42, cond_true]

theorem Same.put_pcieUp {M : Nat} {s x : State} {v43 : Bool} (e43 : M.testBit 43 = true) (h : Same M s x) :
    Same M s ⟨x.pending, x.free, x.cyc, x.order, x.regs, x.shadow, x.staging, x.posted, x.landed, x.cycle, x.mem, x.time, x.seal_, x.fcol, x.snap, x.scs, x.fods, x.refs, x.dps, x.scr, x.lanes, x.ports, x.ingress, x.gone, x.early, x.owed, x.rings, x.corrPause, x.tdcFail, x.groups, x.wits, x.coreAwake, x.standby, x.mateReady, x.mate, x.nvs, x.cal, x.cmd, x.dmas, x.dmaLast, x.seqs, x.pwr, x.smb, v43, x.msix, x.pba, x.nvsLoaded, x.out⟩ := by
  refine h.trans ?_
  unfold Same
  simp only [erase, e43, cond_true]

theorem Same.put_msix {M : Nat} {s x : State} {v44 : List (Nat × Word)} (e44 : M.testBit 44 = true) (h : Same M s x) :
    Same M s ⟨x.pending, x.free, x.cyc, x.order, x.regs, x.shadow, x.staging, x.posted, x.landed, x.cycle, x.mem, x.time, x.seal_, x.fcol, x.snap, x.scs, x.fods, x.refs, x.dps, x.scr, x.lanes, x.ports, x.ingress, x.gone, x.early, x.owed, x.rings, x.corrPause, x.tdcFail, x.groups, x.wits, x.coreAwake, x.standby, x.mateReady, x.mate, x.nvs, x.cal, x.cmd, x.dmas, x.dmaLast, x.seqs, x.pwr, x.smb, x.pcieUp, v44, x.pba, x.nvsLoaded, x.out⟩ := by
  refine h.trans ?_
  unfold Same
  simp only [erase, e44, cond_true]

theorem Same.put_pcieUp_msix {M : Nat} {s x : State} {v43 : Bool} {v44 : List (Nat × Word)} (e43 : M.testBit 43 = true) (e44 : M.testBit 44 = true) (h : Same M s x) :
    Same M s ⟨x.pending, x.free, x.cyc, x.order, x.regs, x.shadow, x.staging, x.posted, x.landed, x.cycle, x.mem, x.time, x.seal_, x.fcol, x.snap, x.scs, x.fods, x.refs, x.dps, x.scr, x.lanes, x.ports, x.ingress, x.gone, x.early, x.owed, x.rings, x.corrPause, x.tdcFail, x.groups, x.wits, x.coreAwake, x.standby, x.mateReady, x.mate, x.nvs, x.cal, x.cmd, x.dmas, x.dmaLast, x.seqs, x.pwr, x.smb, v43, v44, x.pba, x.nvsLoaded, x.out⟩ := by
  refine h.trans ?_
  unfold Same
  simp only [erase, e43, e44, cond_true]

theorem Same.put_pba {M : Nat} {s x : State} {v45 : Nat} (e45 : M.testBit 45 = true) (h : Same M s x) :
    Same M s ⟨x.pending, x.free, x.cyc, x.order, x.regs, x.shadow, x.staging, x.posted, x.landed, x.cycle, x.mem, x.time, x.seal_, x.fcol, x.snap, x.scs, x.fods, x.refs, x.dps, x.scr, x.lanes, x.ports, x.ingress, x.gone, x.early, x.owed, x.rings, x.corrPause, x.tdcFail, x.groups, x.wits, x.coreAwake, x.standby, x.mateReady, x.mate, x.nvs, x.cal, x.cmd, x.dmas, x.dmaLast, x.seqs, x.pwr, x.smb, x.pcieUp, x.msix, v45, x.nvsLoaded, x.out⟩ := by
  refine h.trans ?_
  unfold Same
  simp only [erase, e45, cond_true]

theorem Same.put_many {M : Nat} {s x : State} {v4 : List (Nat × Word)} {v5 : List (Nat × Word)} {v6 : List (Nat × Word)} {v11 : TimeSt} {v12 : SealSt} {v13 : FcolSt} {v14 : SnapSt} {v15 : List (Nat × Sc)} {v16 : List (Nat × Fod)} {v17 : List (Nat × Ref)} {v18 : List (Nat × Dp)} {v19 : Scr} {v20 : List (Nat × LaneSt)} {v21 : List (Nat × PortSt)} {v22 : List Ing} {v23 : List (Nat × Bool × Nat × Int)} {v24 : List (Nat × Bool × Nat × Nat)} {v25 : List Owed} {v26 : List (Nat × RingSt)} {v27 : Bool} {v29 : Nat} {v30 : List (Nat × WitSt)} {v31 : Bool} {v36 : CalSt} {v37 : CmdSt} {v38 : List (Nat × DmaSt)} {v39 : Nat} {v46 : Bool} (e4 : M.testBit 4 = true) (e5 : M.testBit 5 = true) (e6 : M.testBit 6 = true) (e11 : M.testBit 11 = true) (e12 : M.testBit 12 = true) (e13 : M.testBit 13 = true) (e14 : M.testBit 14 = true) (e15 : M.testBit 15 = true) (e16 : M.testBit 16 = true) (e17 : M.testBit 17 = true) (e18 : M.testBit 18 = true) (e19 : M.testBit 19 = true) (e20 : M.testBit 20 = true) (e21 : M.testBit 21 = true) (e22 : M.testBit 22 = true) (e23 : M.testBit 23 = true) (e24 : M.testBit 24 = true) (e25 : M.testBit 25 = true) (e26 : M.testBit 26 = true) (e27 : M.testBit 27 = true) (e29 : M.testBit 29 = true) (e30 : M.testBit 30 = true) (e31 : M.testBit 31 = true) (e36 : M.testBit 36 = true) (e37 : M.testBit 37 = true) (e38 : M.testBit 38 = true) (e39 : M.testBit 39 = true) (e46 : M.testBit 46 = true) (h : Same M s x) :
    Same M s ⟨x.pending, x.free, x.cyc, x.order, v4, v5, v6, x.posted, x.landed, x.cycle, x.mem, v11, v12, v13, v14, v15, v16, v17, v18, v19, v20, v21, v22, v23, v24, v25, v26, v27, x.tdcFail, v29, v30, v31, x.standby, x.mateReady, x.mate, x.nvs, v36, v37, v38, v39, x.seqs, x.pwr, x.smb, x.pcieUp, x.msix, x.pba, v46, x.out⟩ := by
  refine h.trans ?_
  unfold Same
  simp only [erase, e4, e5, e6, e11, e12, e13, e14, e15, e16, e17, e18, e19, e20, e21, e22, e23, e24, e25, e26, e27, e29, e30, e31, e36, e37, e38, e39, e46, cond_true]

theorem Same.put_pwr_nvsLoaded {M : Nat} {s x : State} {v41 : PwrSt} {v46 : Bool} (e41 : M.testBit 41 = true) (e46 : M.testBit 46 = true) (h : Same M s x) :
    Same M s ⟨x.pending, x.free, x.cyc, x.order, x.regs, x.shadow, x.staging, x.posted, x.landed, x.cycle, x.mem, x.time, x.seal_, x.fcol, x.snap, x.scs, x.fods, x.refs, x.dps, x.scr, x.lanes, x.ports, x.ingress, x.gone, x.early, x.owed, x.rings, x.corrPause, x.tdcFail, x.groups, x.wits, x.coreAwake, x.standby, x.mateReady, x.mate, x.nvs, x.cal, x.cmd, x.dmas, x.dmaLast, x.seqs, v41, x.smb, x.pcieUp, x.msix, x.pba, v46, x.out⟩ := by
  refine h.trans ?_
  unfold Same
  simp only [erase, e41, e46, cond_true]

theorem Same.put_out {M : Nat} {s x : State} {v47 : List Out} (e47 : M.testBit 47 = true) (h : Same M s x) :
    Same M s ⟨x.pending, x.free, x.cyc, x.order, x.regs, x.shadow, x.staging, x.posted, x.landed, x.cycle, x.mem, x.time, x.seal_, x.fcol, x.snap, x.scs, x.fods, x.refs, x.dps, x.scr, x.lanes, x.ports, x.ingress, x.gone, x.early, x.owed, x.rings, x.corrPause, x.tdcFail, x.groups, x.wits, x.coreAwake, x.standby, x.mateReady, x.mate, x.nvs, x.cal, x.cmd, x.dmas, x.dmaLast, x.seqs, x.pwr, x.smb, x.pcieUp, x.msix, x.pba, x.nvsLoaded, v47⟩ := by
  refine h.trans ?_
  unfold Same
  simp only [erase, e47, cond_true]

end Sys2Proof.Machine
end

