-- ==== Sys2Proof/Laws/Frame1.lean ====
section
/-!
SUPPORT. The fields of `State` that each operation can change, operation by operation (part 1).
-/
set_option linter.all false
set_option linter.unusedTactic false
set_option linter.unreachableTactic false
namespace Sys2Proof.Machine

open Sys2Proof

theorem wr_same (s : State) (a1 : ℕ) (a2 : ℕ) :
    Same 16 s (wr s a1 a2) := by
  delta wr
  repeat' (first
    | with_reducible exact Same.refl _ _
    | with_reducible assumption
    | (extract_lets +onlyGivenNames x; (with_reducible apply Same.cut x ?_ ?_); (on_goal 1 => (unfold x; clear x)); (on_goal 2 => (intro hx; clear_value x)))
    | (extract_lets +onlyGivenNames x; clear_value x)
    | (extract_lets +onlyGivenNames x; unfold x; clear x)
    | split
    | ((with_reducible apply Same.put_regs ?_ ?_) <;> [rfl; skip]))

theorem wM_same (s : State) (a1 : ℕ) (a2 : ℕ) (a3 : ℕ) :
    Same 16 s (wM s a1 a2 a3) := by
  induction a2 generalizing s a1 a3 with
  | zero => exact Same.refl _ _
  | succ k ih => exact (wr_same _ _ _).trans (ih _ _ _)

theorem cntSet_same (s : State) (a1 : ℕ) (a2 : Bool) (a3 : ℕ) :
    Same 16 s (cntSet s a1 a2 a3) := by
  delta cntSet
  repeat' (first
    | with_reducible exact Same.refl _ _
    | with_reducible assumption
    | ((with_reducible apply Same.step ?_ (wr_same _ _ _) ?_); on_goal 1 => rfl)
    | ((with_reducible apply Same.step ?_ (wM_same _ _ _ _) ?_); on_goal 1 => rfl)
    | (extract_lets +onlyGivenNames x; (with_reducible apply Same.cut x ?_ ?_); (on_goal 1 => (unfold x; clear x)); (on_goal 2 => (intro hx; clear_value x)))
    | (extract_lets +onlyGivenNames x; clear_value x)
    | (extract_lets +onlyGivenNames x; unfold x; clear x)
    | split)

theorem orBits_same (s : State) (a1 : ℕ) (a2 : ℕ) :
    Same 16 s (orBits s a1 a2) := by
  delta orBits
  repeat' (first
    | with_reducible exact Same.refl _ _
    | with_reducible assumption
    | ((with_reducible apply Same.step ?_ (wr_same _ _ _) ?_); on_goal 1 => rfl)
    | (extract_lets +onlyGivenNames x; (with_reducible apply Same.cut x ?_ ?_); (on_goal 1 => (unfold x; clear x)); (on_goal 2 => (intro hx; clear_value x)))
    | (extract_lets +onlyGivenNames x; clear_value x)
    | (extract_lets +onlyGivenNames x; unfold x; clear x)
    | split)

theorem noteSat_same (s : State) (a1 : ℕ) :
    Same 16 s (noteSat s a1) := by
  delta noteSat
  repeat' (first
    | with_reducible exact Same.refl _ _
    | with_reducible assumption
    | ((with_reducible apply Same.step ?_ (orBits_same _ _ _) ?_); on_goal 1 => rfl)
    | ((with_reducible apply Same.step ?_ (wr_same _ _ _) ?_); on_goal 1 => rfl)
    | (extract_lets +onlyGivenNames x; (with_reducible apply Same.cut x ?_ ?_); (on_goal 1 => (unfold x; clear x)); (on_goal 2 => (intro hx; clear_value x)))
    | (extract_lets +onlyGivenNames x; clear_value x)
    | (extract_lets +onlyGivenNames x; unfold x; clear x)
    | split)

theorem bumpRaw_same (s : State) (a1 : ℕ) (a2 : ℕ) (a3 : Bool) :
    Same 16 s (bumpRaw s a1 a2 a3).1 := by
  delta bumpRaw
  repeat' (first
    | with_reducible exact Same.refl _ _
    | with_reducible assumption
    | ((with_reducible apply Same.step ?_ (cntSet_same _ _ _ _) ?_); on_goal 1 => rfl)
    | ((with_reducible apply Same.step ?_ (noteSat_same _ _) ?_); on_goal 1 => rfl)
    | (extract_lets +onlyGivenNames x; (with_reducible apply Same.cut x ?_ ?_); (on_goal 1 => (unfold x; clear x)); (on_goal 2 => (intro hx; clear_value x)))
    | (extract_lets +onlyGivenNames x; clear_value x)
    | (extract_lets +onlyGivenNames x; unfold x; clear x)
    | split)

theorem enqueue_same (s : State) (a1 : Report) :
    Same 8192 s (enqueue s a1) := by
  delta enqueue
  repeat' (first
    | with_reducible exact Same.refl _ _
    | with_reducible assumption
    | (extract_lets +onlyGivenNames x; (with_reducible apply Same.cut x ?_ ?_); (on_goal 1 => (unfold x; clear x)); (on_goal 2 => (intro hx; clear_value x)))
    | (extract_lets +onlyGivenNames x; clear_value x)
    | (extract_lets +onlyGivenNames x; unfold x; clear x)
    | split
    | ((with_reducible apply Same.put_fcol ?_ ?_) <;> [rfl; skip]))

theorem fileReport_same (a0 : ℕ) (s : State) (a2 : Report) :
    Same 8208 s (fileReport a0 s a2) := by
  induction a0 generalizing s a2 with
  | zero => exact Same.refl _ _
  | succ k ih =>
    have b (x : State) (o n : Nat) (w : Bool) (r : Report) :
        Same 8208 x (if (bumpRaw x o n w).2 then fileReport k (bumpRaw x o n w).1 r else (bumpRaw x o n w).1) := by
      split
      · exact Same.trans (Same.step (by rfl) (bumpRaw_same _ _ _ _) (Same.refl _ _)) (ih _ _)
      · exact Same.step (by rfl) (bumpRaw_same _ _ _ _) (Same.refl _ _)
    unfold fileReport
    split
    · exact Same.step (by rfl) (orBits_same _ _ _) (Same.trans (b _ _ _ _ _) (b _ _ _ _ _))
    · exact Same.step (by rfl) (enqueue_same _ _) (Same.refl _ _)

theorem raise_same (s : State) (a1 : ℕ) (a2 : ℕ) (a3 : ℕ) (a4 : optParam ℕ 0) (a5 : optParam ℕ 0) :
    Same 8208 s (raise s a1 a2 a3 a4 a5) := by
  delta raise
  repeat' (first
    | with_reducible exact Same.refl _ _
    | with_reducible assumption
    | ((with_reducible apply Same.step ?_ (fileReport_same _ _ _) ?_); on_goal 1 => rfl)
    | (extract_lets +onlyGivenNames x; (with_reducible apply Same.cut x ?_ ?_); (on_goal 1 => (unfold x; clear x)); (on_goal 2 => (intro hx; clear_value x)))
    | (extract_lets +onlyGivenNames x; clear_value x)
    | (extract_lets +onlyGivenNames x; unfold x; clear x)
    | split)

theorem bump_same (s : State) (a1 : ℕ) (a2 : optParam ℕ 1) :
    Same 8208 s (bump s a1 a2) := by
  delta bump
  repeat' (first
    | with_reducible exact Same.refl _ _
    | with_reducible assumption
    | ((with_reducible apply Same.step ?_ (bumpRaw_same _ _ _ _) ?_); on_goal 1 => rfl)
    | ((with_reducible apply Same.step ?_ (raise_same _ _ _ _ _ _) ?_); on_goal 1 => rfl)
    | (extract_lets +onlyGivenNames x; (with_reducible apply Same.cut x ?_ ?_); (on_goal 1 => (unfold x; clear x)); (on_goal 2 => (intro hx; clear_value x)))
    | (extract_lets +onlyGivenNames x; (with_reducible apply Same.cut x.1 ?_ ?_); (on_goal 1 => (unfold x; clear x)); (on_goal 2 => (intro hx; clear_value x)))
    | (extract_lets +onlyGivenNames x; clear_value x)
    | (extract_lets +onlyGivenNames x; unfold x; clear x)
    | with_reducible refine Same.ofFst (by assumption) ?_
    | split)

theorem setRing_same (s : State) (a1 : ℕ) (a2 : RingSt) :
    Same 67108864 s (setRing s a1 a2) := by
  delta setRing
  repeat' (first
    | with_reducible exact Same.refl _ _
    | with_reducible assumption
    | (extract_lets +onlyGivenNames x; (with_reducible apply Same.cut x ?_ ?_); (on_goal 1 => (unfold x; clear x)); (on_goal 2 => (intro hx; clear_value x)))
    | (extract_lets +onlyGivenNames x; clear_value x)
    | (extract_lets +onlyGivenNames x; unfold x; clear x)
    | split
    | ((with_reducible apply Same.put_rings ?_ ?_) <;> [rfl; skip]))

theorem setMb_same (s : State) (a1 : ℕ) (a2 : Byte) :
    Same 1024 s (setMb s a1 a2) := by
  delta setMb
  repeat' (first
    | with_reducible exact Same.refl _ _
    | with_reducible assumption
    | (extract_lets +onlyGivenNames x; (with_reducible apply Same.cut x ?_ ?_); (on_goal 1 => (unfold x; clear x)); (on_goal 2 => (intro hx; clear_value x)))
    | (extract_lets +onlyGivenNames x; clear_value x)
    | (extract_lets +onlyGivenNames x; unfold x; clear x)
    | split
    | ((with_reducible apply Same.put_mem ?_ ?_) <;> [rfl; skip]))

theorem ringVoid_same (s : State) (a1 : ℕ) (a2 : ℕ) :
    Same 67109888 s (ringVoid s a1 a2) := by
  delta ringVoid
  repeat' (first
    | with_reducible exact Same.refl _ _
    | with_reducible assumption
    | ((with_reducible apply Same.step ?_ (setRing_same _ _ _) ?_); on_goal 1 => rfl)
    | ((with_reducible apply Same.step ?_ (setMb_same _ _ _) ?_); on_goal 1 => rfl)
    | (extract_lets +onlyGivenNames x; (with_reducible apply Same.cut x ?_ ?_); (on_goal 1 => (unfold x; clear x)); (on_goal 2 => (intro hx; clear_value x)))
    | (extract_lets +onlyGivenNames x; clear_value x)
    | (extract_lets +onlyGivenNames x; unfold x; clear x)
    | split)

theorem voidPair_same (s : State) (a1 : ℕ) (a2 : Bool) :
    Same 67109888 s (voidPair s a1 a2) := by
  delta voidPair
  repeat' (first
    | with_reducible exact Same.refl _ _
    | with_reducible assumption
    | ((with_reducible apply Same.step ?_ (ringVoid_same _ _ _) ?_); on_goal 1 => rfl)
    | with_reducible apply Same.upto ?_ ?_
    | (extract_lets +onlyGivenNames x; (with_reducible apply Same.cut x ?_ ?_); (on_goal 1 => (unfold x; clear x)); (on_goal 2 => (intro hx; clear_value x)))
    | (extract_lets +onlyGivenNames x; clear_value x)
    | (extract_lets +onlyGivenNames x; unfold x; clear x)
    | intro _
    | split)

theorem keepGone_same (s : State) (a1 : ℕ) (a2 : Bool) (a3 : ℕ) (a4 : ℤ) :
    Same 8388608 s (keepGone s a1 a2 a3 a4) := by
  delta keepGone
  repeat' (first
    | with_reducible exact Same.refl _ _
    | with_reducible assumption
    | (extract_lets +onlyGivenNames x; (with_reducible apply Same.cut x ?_ ?_); (on_goal 1 => (unfold x; clear x)); (on_goal 2 => (intro hx; clear_value x)))
    | (extract_lets +onlyGivenNames x; clear_value x)
    | (extract_lets +onlyGivenNames x; unfold x; clear x)
    | split
    | ((with_reducible apply Same.put_gone ?_ ?_) <;> [rfl; skip]))

theorem setLane_same (s : State) (a1 : ℕ) (a2 : LaneSt) :
    Same 1048576 s (setLane s a1 a2) := by
  delta setLane
  repeat' (first
    | with_reducible exact Same.refl _ _
    | with_reducible assumption
    | (extract_lets +onlyGivenNames x; (with_reducible apply Same.cut x ?_ ?_); (on_goal 1 => (unfold x; clear x)); (on_goal 2 => (intro hx; clear_value x)))
    | (extract_lets +onlyGivenNames x; clear_value x)
    | (extract_lets +onlyGivenNames x; unfold x; clear x)
    | split
    | ((with_reducible apply Same.put_lanes ?_ ?_) <;> [rfl; skip]))

theorem badBlk_same (s : State) (a1 : ℕ) :
    Same 8208 s (badBlk s a1) := by
  delta badBlk
  repeat' (first
    | with_reducible exact Same.refl _ _
    | with_reducible assumption
    | ((with_reducible apply Same.step ?_ (bump_same _ _ _) ?_); on_goal 1 => rfl)
    | ((with_reducible apply Same.step ?_ (raise_same _ _ _ _ _ _) ?_); on_goal 1 => rfl)
    | (extract_lets +onlyGivenNames x; (with_reducible apply Same.cut x ?_ ?_); (on_goal 1 => (unfold x; clear x)); (on_goal 2 => (intro hx; clear_value x)))
    | (extract_lets +onlyGivenNames x; clear_value x)
    | (extract_lets +onlyGivenNames x; unfold x; clear x)
    | split)

theorem setCorr_same (s : State) (a1 : ℕ) (a2 : ℕ) (a3 : Corr) :
    Same 1048576 s (setCorr s a1 a2 a3) := by
  delta setCorr
  repeat' (first
    | with_reducible exact Same.refl _ _
    | with_reducible assumption
    | ((with_reducible apply Same.step ?_ (setLane_same _ _ _) ?_); on_goal 1 => rfl)
    | (extract_lets +onlyGivenNames x; (with_reducible apply Same.cut x ?_ ?_); (on_goal 1 => (unfold x; clear x)); (on_goal 2 => (intro hx; clear_value x)))
    | (extract_lets +onlyGivenNames x; clear_value x)
    | (extract_lets +onlyGivenNames x; unfold x; clear x)
    | split)

theorem setIng_same (s : State) (a1 : Ing) :
    Same 4194304 s (setIng s a1) := by
  delta setIng
  repeat' (first
    | with_reducible exact Same.refl _ _
    | with_reducible assumption
    | (extract_lets +onlyGivenNames x; (with_reducible apply Same.cut x ?_ ?_); (on_goal 1 => (unfold x; clear x)); (on_goal 2 => (intro hx; clear_value x)))
    | (extract_lets +onlyGivenNames x; clear_value x)
    | (extract_lets +onlyGivenNames x; unfold x; clear x)
    | split
    | ((with_reducible apply Same.put_ingress ?_ ?_) <;> [rfl; skip]))

theorem setMbs_same (s : State) (a1 : ℕ) (a2 : List Byte) :
    Same 1024 s (setMbs s a1 a2) := by
  induction a2 generalizing s a1 with
  | nil => exact Same.refl _ _
  | cons b t ih => exact (setMb_same _ _ _).trans (ih _ _)

theorem setDma_same (s : State) (a1 : ℕ) (a2 : DmaSt) :
    Same 274877906944 s (setDma s a1 a2) := by
  delta setDma
  repeat' (first
    | with_reducible exact Same.refl _ _
    | with_reducible assumption
    | (extract_lets +onlyGivenNames x; (with_reducible apply Same.cut x ?_ ?_); (on_goal 1 => (unfold x; clear x)); (on_goal 2 => (intro hx; clear_value x)))
    | (extract_lets +onlyGivenNames x; clear_value x)
    | (extract_lets +onlyGivenNames x; unfold x; clear x)
    | split
    | ((with_reducible apply Same.put_dmas ?_ ?_) <;> [rfl; skip]))

theorem drainEval_same (s : State) (a1 : ℕ) :
    Same 274877906944 s (drainEval s a1) := by
  delta drainEval
  repeat' (first
    | with_reducible exact Same.refl _ _
    | with_reducible assumption
    | ((with_reducible apply Same.step ?_ (setDma_same _ _ _) ?_); on_goal 1 => rfl)
    | (extract_lets +onlyGivenNames x; (with_reducible apply Same.cut x ?_ ?_); (on_goal 1 => (unfold x; clear x)); (on_goal 2 => (intro hx; clear_value x)))
    | (extract_lets +onlyGivenNames x; clear_value x)
    | (extract_lets +onlyGivenNames x; unfold x; clear x)
    | split)

theorem emit_same (s : State) (a1 : Out) :
    Same 140737488355328 s (emit s a1) := by
  delta emit
  repeat' (first
    | with_reducible exact Same.refl _ _
    | with_reducible assumption
    | (extract_lets +onlyGivenNames x; (with_reducible apply Same.cut x ?_ ?_); (on_goal 1 => (unfold x; clear x)); (on_goal 2 => (intro hx; clear_value x)))
    | (extract_lets +onlyGivenNames x; clear_value x)
    | (extract_lets +onlyGivenNames x; unfold x; clear x)
    | split
    | ((with_reducible apply Same.put_out ?_ ?_) <;> [rfl; skip]))

theorem mateSend_same (s : State) (a1 : ℕ) (a2 : List ℤ) :
    Same 140754668224512 s (mateSend s a1 a2) := by
  delta mateSend
  repeat' (first
    | with_reducible exact Same.refl _ _
    | with_reducible assumption
    | ((with_reducible apply Same.step ?_ (emit_same _ _) ?_); on_goal 1 => rfl)
    | (extract_lets +onlyGivenNames x; (with_reducible apply Same.cut x ?_ ?_); (on_goal 1 => (unfold x; clear x)); (on_goal 2 => (intro hx; clear_value x)))
    | (extract_lets +onlyGivenNames x; clear_value x)
    | (extract_lets +onlyGivenNames x; unfold x; clear x)
    | split
    | ((with_reducible apply Same.put_mate ?_ ?_) <;> [rfl; skip]))

theorem evtBit_same (s : State) (a1 : ℕ) (a2 : ℕ) :
    Same 8208 s (evtBit s a1 a2) := by
  delta evtBit
  repeat' (first
    | with_reducible exact Same.refl _ _
    | with_reducible assumption
    | ((with_reducible apply Same.step ?_ (bump_same _ _ _) ?_); on_goal 1 => rfl)
    | ((with_reducible apply Same.step ?_ (orBits_same _ _ _) ?_); on_goal 1 => rfl)
    | (extract_lets +onlyGivenNames x; (with_reducible apply Same.cut x ?_ ?_); (on_goal 1 => (unfold x; clear x)); (on_goal 2 => (intro hx; clear_value x)))
    | (extract_lets +onlyGivenNames x; clear_value x)
    | (extract_lets +onlyGivenNames x; unfold x; clear x)
    | split)

theorem event_same (s : State) (a1 : ℕ) :
    Same 140754668232720 s (event s a1) := by
  delta event
  repeat' (first
    | with_reducible exact Same.refl _ _
    | with_reducible assumption
    | ((with_reducible apply Same.step ?_ (mateSend_same _ _ _) ?_); on_goal 1 => rfl)
    | ((with_reducible apply Same.step ?_ (evtBit_same _ _ _) ?_); on_goal 1 => rfl)
    | with_reducible apply Same.upto ?_ ?_
    | (extract_lets +onlyGivenNames x; (with_reducible apply Same.cut x ?_ ?_); (on_goal 1 => (unfold x; clear x)); (on_goal 2 => (intro hx; clear_value x)))
    | (extract_lets +onlyGivenNames x; clear_value x)
    | (extract_lets +onlyGivenNames x; unfold x; clear x)
    | intro _
    | split)

theorem ringOver_same (s : State) (a1 : ℕ) :
    Same 141029613248528 s (ringOver s a1) := by
  delta ringOver
  repeat' (first
    | with_reducible exact Same.refl _ _
    | with_reducible assumption
    | ((with_reducible apply Same.step ?_ (drainEval_same _ _) ?_); on_goal 1 => rfl)
    | ((with_reducible apply Same.step ?_ (setRing_same _ _ _) ?_); on_goal 1 => rfl)
    | ((with_reducible apply Same.step ?_ (event_same _ _) ?_); on_goal 1 => rfl)
    | with_reducible apply Same.foldl ?_ ?_
    | (extract_lets +onlyGivenNames x; (with_reducible apply Same.cut x ?_ ?_); (on_goal 1 => (unfold x; clear x)); (on_goal 2 => (intro hx; clear_value x)))
    | (extract_lets +onlyGivenNames x; clear_value x)
    | (extract_lets +onlyGivenNames x; unfold x; clear x)
    | intro _
    | split)

theorem ringPresent_same (s : State) (a1 : ℕ) (a2 : ℕ) (a3 : ℕ → ℕ → ℕ → List Byte) :
    Same 141029613249552 s (ringPresent s a1 a2 a3).1 := by
  delta ringPresent
  repeat' (first
    | with_reducible exact Same.refl _ _
    | with_reducible assumption
    | ((with_reducible apply Same.step ?_ (setMbs_same _ _ _) ?_); on_goal 1 => rfl)
    | ((with_reducible apply Same.step ?_ (orBits_same _ _ _) ?_); on_goal 1 => rfl)
    | ((with_reducible apply Same.step ?_ (setRing_same _ _ _) ?_); on_goal 1 => rfl)
    | ((with_reducible apply Same.step ?_ (ringOver_same _ _) ?_); on_goal 1 => rfl)
    | (extract_lets +onlyGivenNames x; (with_reducible apply Same.cut x ?_ ?_); (on_goal 1 => (unfold x; clear x)); (on_goal 2 => (intro hx; clear_value x)))
    | (extract_lets +onlyGivenNames x; clear_value x)
    | (extract_lets +onlyGivenNames x; unfold x; clear x)
    | split)

theorem presentDelivery_same (s : State) (a1 : Owed) :
    Same 141029613249552 s (presentDelivery s a1) := by
  delta presentDelivery
  repeat' (first
    | with_reducible exact Same.refl _ _
    | with_reducible assumption
    | ((with_reducible apply Same.step ?_ (ringPresent_same _ _ _ _) ?_); on_goal 1 => rfl)
    | (extract_lets +onlyGivenNames x; (with_reducible apply Same.cut x ?_ ?_); (on_goal 1 => (unfold x; clear x)); (on_goal 2 => (intro hx; clear_value x)))
    | (extract_lets +onlyGivenNames x; (with_reducible apply Same.cut x.1 ?_ ?_); (on_goal 1 => (unfold x; clear x)); (on_goal 2 => (intro hx; clear_value x)))
    | (extract_lets +onlyGivenNames x; clear_value x)
    | (extract_lets +onlyGivenNames x; unfold x; clear x)
    | with_reducible refine Same.ofFst (by assumption) ?_
    | split)

theorem owedRun_same (s : State) :
    Same 141029646803984 s (owedRun s) := by
  delta owedRun
  repeat' (first
    | with_reducible exact Same.refl _ _
    | with_reducible assumption
    | ((with_reducible apply Same.step ?_ (presentDelivery_same _ _) ?_); on_goal 1 => rfl)
    | with_reducible apply Same.foldl ?_ ?_
    | (extract_lets +onlyGivenNames x; (with_reducible apply Same.cut x ?_ ?_); (on_goal 1 => (unfold x; clear x)); (on_goal 2 => (intro hx; clear_value x)))
    | (extract_lets +onlyGivenNames x; clear_value x)
    | (extract_lets +onlyGivenNames x; unfold x; clear x)
    | intro _
    | split
    | ((with_reducible apply Same.put_owed ?_ ?_) <;> [rfl; skip]))

theorem retire_same (s : State) (a1 : Ing) (a2 : ℕ) :
    Same 141029650998288 s (retire s a1 a2) := by
  delta retire
  repeat' (first
    | with_reducible exact Same.refl _ _
    | with_reducible assumption
    | ((with_reducible apply Same.step ?_ (owedRun_same _) ?_); on_goal 1 => rfl)
    | (extract_lets +onlyGivenNames x; (with_reducible apply Same.cut x ?_ ?_); (on_goal 1 => (unfold x; clear x)); (on_goal 2 => (intro hx; clear_value x)))
    | (extract_lets +onlyGivenNames x; clear_value x)
    | (extract_lets +onlyGivenNames x; unfold x; clear x)
    | split
    | ((with_reducible apply Same.put_ingress_owed ?_ ?_ ?_) <;> [rfl; rfl; skip]))

theorem pairIng_same (s : State) (a1 : Ing) (a2 : EventMsg) (a3 : ℕ) :
    Same 141029650998288 s (pairIng s a1 a2 a3) := by
  delta pairIng
  repeat' (first
    | with_reducible exact Same.refl _ _
    | with_reducible assumption
    | ((with_reducible apply Same.step ?_ (setIng_same _ _) ?_); on_goal 1 => rfl)
    | ((with_reducible apply Same.step ?_ (retire_same _ _ _) ?_); on_goal 1 => rfl)
    | (extract_lets +onlyGivenNames x; (with_reducible apply Same.cut x ?_ ?_); (on_goal 1 => (unfold x; clear x)); (on_goal 2 => (intro hx; clear_value x)))
    | (extract_lets +onlyGivenNames x; clear_value x)
    | (extract_lets +onlyGivenNames x; unfold x; clear x)
    | split)

theorem pairWaiting_same (s : State) (a1 : Ing) :
    Same 141029652046864 s (pairWaiting s a1) := by
  delta pairWaiting
  repeat' (first
    | with_reducible exact Same.refl _ _
    | with_reducible assumption
    | ((with_reducible apply Same.step ?_ (setCorr_same _ _ _ _) ?_); on_goal 1 => rfl)
    | ((with_reducible apply Same.step ?_ (pairIng_same _ _ _ _) ?_); on_goal 1 => rfl)
    | with_reducible apply Same.foldl ?_ ?_
    | (extract_lets +onlyGivenNames x; (with_reducible apply Same.cut x ?_ ?_); (on_goal 1 => (unfold x; clear x)); (on_goal 2 => (intro hx; clear_value x)))
    | (extract_lets +onlyGivenNames x; clear_value x)
    | (extract_lets +onlyGivenNames x; unfold x; clear x)
    | intro _
    | split)

theorem holdIng_same (s : State) (a1 : Ing) :
    Same 141029677212688 s (holdIng s a1) := by
  delta holdIng
  repeat' (first
    | with_reducible exact Same.refl _ _
    | with_reducible assumption
    | ((with_reducible apply Same.step ?_ (orBits_same _ _ _) ?_); on_goal 1 => rfl)
    | ((with_reducible apply Same.step ?_ (setCorr_same _ _ _ _) ?_); on_goal 1 => rfl)
    | ((with_reducible apply Same.step ?_ (keepGone_same _ _ _ _ _) ?_); on_goal 1 => rfl)
    | ((with_reducible apply Same.step ?_ (pairWaiting_same _ _) ?_); on_goal 1 => rfl)
    | with_reducible apply Same.foldl ?_ ?_
    | (extract_lets +onlyGivenNames x; (with_reducible apply Same.cut x ?_ ?_); (on_goal 1 => (unfold x; clear x)); (on_goal 2 => (intro hx; clear_value x)))
    | (extract_lets +onlyGivenNames x; clear_value x)
    | (extract_lets +onlyGivenNames x; unfold x; clear x)
    | intro _
    | split
    | ((with_reducible apply Same.put_gone ?_ ?_) <;> [rfl; skip])
    | ((with_reducible apply Same.put_early ?_ ?_) <;> [rfl; skip])
    | ((with_reducible apply Same.put_ingress ?_ ?_) <;> [rfl; skip]))

theorem clrBits_same (s : State) (a1 : ℕ) (a2 : ℕ) :
    Same 16 s (clrBits s a1 a2) := by
  delta clrBits
  repeat' (first
    | with_reducible exact Same.refl _ _
    | with_reducible assumption
    | ((with_reducible apply Same.step ?_ (wr_same _ _ _) ?_); on_goal 1 => rfl)
    | (extract_lets +onlyGivenNames x; (with_reducible apply Same.cut x ?_ ?_); (on_goal 1 => (unfold x; clear x)); (on_goal 2 => (intro hx; clear_value x)))
    | (extract_lets +onlyGivenNames x; clear_value x)
    | (extract_lets +onlyGivenNames x; unfold x; clear x)
    | split)

theorem wb_same (s : State) (a1 : ℕ) (a2 : ℕ) (a3 : ℕ) (a4 : ℕ) :
    Same 16 s (wb s a1 a2 a3 a4) := by
  delta wb
  repeat' (first
    | with_reducible exact Same.refl _ _
    | with_reducible assumption
    | ((with_reducible apply Same.step ?_ (wr_same _ _ _) ?_); on_goal 1 => rfl)
    | (extract_lets +onlyGivenNames x; (with_reducible apply Same.cut x ?_ ?_); (on_goal 1 => (unfold x; clear x)); (on_goal 2 => (intro hx; clear_value x)))
    | (extract_lets +onlyGivenNames x; clear_value x)
    | (extract_lets +onlyGivenNames x; unfold x; clear x)
    | split)

theorem clSend_same (s : State) (a1 : ℕ) (a2 : List Byte) :
    Same 140737488355328 s (clSend s a1 a2) := by
  delta clSend
  repeat' (first
    | with_reducible exact Same.refl _ _
    | with_reducible assumption
    | ((with_reducible apply Same.step ?_ (emit_same _ _) ?_); on_goal 1 => rfl)
    | (extract_lets +onlyGivenNames x; (with_reducible apply Same.cut x ?_ ?_); (on_goal 1 => (unfold x; clear x)); (on_goal 2 => (intro hx; clear_value x)))
    | (extract_lets +onlyGivenNames x; clear_value x)
    | (extract_lets +onlyGivenNames x; unfold x; clear x)
    | split)

theorem calReq_same (s : State) (a1 : ℕ) (a2 : Bool) (a3 : ℕ) :
    Same 140737488355328 s (calReq s a1 a2 a3) := by
  delta calReq
  repeat' (first
    | with_reducible exact Same.refl _ _
    | with_reducible assumption
    | ((with_reducible apply Same.step ?_ (clSend_same _ _ _) ?_); on_goal 1 => rfl)
    | (extract_lets +onlyGivenNames x; (with_reducible apply Same.cut x ?_ ?_); (on_goal 1 => (unfold x; clear x)); (on_goal 2 => (intro hx; clear_value x)))
    | (extract_lets +onlyGivenNames x; clear_value x)
    | (extract_lets +onlyGivenNames x; unfold x; clear x)
    | split)

theorem setPort_same (s : State) (a1 : ℕ) (a2 : PortSt) :
    Same 2097152 s (setPort s a1 a2) := by
  delta setPort
  repeat' (first
    | with_reducible exact Same.refl _ _
    | with_reducible assumption
    | (extract_lets +onlyGivenNames x; (with_reducible apply Same.cut x ?_ ?_); (on_goal 1 => (unfold x; clear x)); (on_goal 2 => (intro hx; clear_value x)))
    | (extract_lets +onlyGivenNames x; clear_value x)
    | (extract_lets +onlyGivenNames x; unfold x; clear x)
    | split
    | ((with_reducible apply Same.put_ports ?_ ?_) <;> [rfl; skip]))

theorem calFinish_same (s : State) (a1 : ℕ) :
    Same 140737490460688 s (calFinish s a1) := by
  delta calFinish
  repeat' (first
    | with_reducible exact Same.refl _ _
    | with_reducible assumption
    | ((with_reducible apply Same.step ?_ (clrBits_same _ _ _) ?_); on_goal 1 => rfl)
    | ((with_reducible apply Same.step ?_ (orBits_same _ _ _) ?_); on_goal 1 => rfl)
    | ((with_reducible apply Same.step ?_ (wb_same _ _ _ _ _) ?_); on_goal 1 => rfl)
    | ((with_reducible apply Same.step ?_ (calReq_same _ _ _ _) ?_); on_goal 1 => rfl)
    | ((with_reducible apply Same.step ?_ (wM_same _ _ _ _) ?_); on_goal 1 => rfl)
    | ((with_reducible apply Same.step ?_ (raise_same _ _ _ _ _ _) ?_); on_goal 1 => rfl)
    | ((with_reducible apply Same.step ?_ (setPort_same _ _ _) ?_); on_goal 1 => rfl)
    | (extract_lets +onlyGivenNames x; (with_reducible apply Same.cut x ?_ ?_); (on_goal 1 => (unfold x; clear x)); (on_goal 2 => (intro hx; clear_value x)))
    | (extract_lets +onlyGivenNames x; (with_reducible apply Same.cutF x ?_ ?_); (on_goal 1 => (unfold x; clear x; intro _ _)); (on_goal 2 => (intro hx; clear_value x)))
    | (extract_lets +onlyGivenNames x; (with_reducible apply Same.cutF1 x ?_ ?_); (on_goal 1 => (unfold x; clear x; intro _)); (on_goal 2 => (intro hx; clear_value x)))
    | (extract_lets +onlyGivenNames x; (with_reducible apply Same.cutG x ?_ ?_); (on_goal 1 => (unfold x; clear x; intro _)); (on_goal 2 => (intro hx; clear_value x)))
    | (extract_lets +onlyGivenNames x; clear_value x)
    | (extract_lets +onlyGivenNames x; unfold x; clear x)
    | intro _
    | split
    | ((with_reducible apply Same.viaF ?_ ?_); on_goal 1 => with_reducible assumption)
    | ((with_reducible apply Same.viaF1 ?_ ?_); on_goal 1 => with_reducible assumption)
    | ((with_reducible apply Same.viaG ?_); on_goal 1 => with_reducible assumption))

theorem calEvent_same (s : State) (a1 : ℕ) (a2 : EventMsg) (a3 : Option ℚ) :
    Same 140737490460688 s (calEvent s a1 a2 a3) := by
  delta calEvent
  repeat' (first
    | with_reducible exact Same.refl _ _
    | with_reducible assumption
    | ((with_reducible apply Same.step ?_ (calFinish_same _ _) ?_); on_goal 1 => rfl)
    | ((with_reducible apply Same.step ?_ (setPort_same _ _ _) ?_); on_goal 1 => rfl)
    | (extract_lets +onlyGivenNames x; (with_reducible apply Same.cut x ?_ ?_); (on_goal 1 => (unfold x; clear x)); (on_goal 2 => (intro hx; clear_value x)))
    | (extract_lets +onlyGivenNames x; clear_value x)
    | (extract_lets +onlyGivenNames x; unfold x; clear x)
    | split)

theorem finishSlot_same (s : State) (a1 : ℕ) (a2 : ESlot) :
    Same 141029679309840 s (finishSlot s a1 a2) := by
  delta finishSlot
  repeat' (first
    | with_reducible exact Same.refl _ _
    | with_reducible assumption
    | ((with_reducible apply Same.step ?_ (holdIng_same _ _) ?_); on_goal 1 => rfl)
    | ((with_reducible apply Same.step ?_ (bump_same _ _ _) ?_); on_goal 1 => rfl)
    | ((with_reducible apply Same.step ?_ (calEvent_same _ _ _ _) ?_); on_goal 1 => rfl)
    | ((with_reducible apply Same.step ?_ (setLane_same _ _ _) ?_); on_goal 1 => rfl)
    | ((with_reducible apply Same.step ?_ (raise_same _ _ _ _ _ _) ?_); on_goal 1 => rfl)
    | ((with_reducible apply Same.step ?_ (retire_same _ _ _) ?_); on_goal 1 => rfl)
    | ((with_reducible apply Same.step ?_ (pairIng_same _ _ _ _) ?_); on_goal 1 => rfl)
    | (extract_lets +onlyGivenNames x; (with_reducible apply Same.cut x ?_ ?_); (on_goal 1 => (unfold x; clear x)); (on_goal 2 => (intro hx; clear_value x)))
    | (extract_lets +onlyGivenNames x; (with_reducible apply Same.cutF x ?_ ?_); (on_goal 1 => (unfold x; clear x; intro _ _)); (on_goal 2 => (intro hx; clear_value x)))
    | (extract_lets +onlyGivenNames x; (with_reducible apply Same.cutF1 x ?_ ?_); (on_goal 1 => (unfold x; clear x; intro _)); (on_goal 2 => (intro hx; clear_value x)))
    | (extract_lets +onlyGivenNames x; (with_reducible apply Same.cutG x ?_ ?_); (on_goal 1 => (unfold x; clear x; intro _)); (on_goal 2 => (intro hx; clear_value x)))
    | (extract_lets +onlyGivenNames x; clear_value x)
    | (extract_lets +onlyGivenNames x; unfold x; clear x)
    | intro _
    | split
    | ((with_reducible apply Same.viaF ?_ ?_); on_goal 1 => with_reducible assumption)
    | ((with_reducible apply Same.viaF1 ?_ ?_); on_goal 1 => with_reducible assumption)
    | ((with_reducible apply Same.viaG ?_); on_goal 1 => with_reducible assumption))

theorem closePend_same (s : State) (a1 : ℕ) :
    Same 141029679309840 s (closePend s a1) := by
  delta closePend
  repeat' (first
    | with_reducible exact Same.refl _ _
    | with_reducible assumption
    | ((with_reducible apply Same.step ?_ (setLane_same _ _ _) ?_); on_goal 1 => rfl)
    | ((with_reducible apply Same.step ?_ (badBlk_same _ _) ?_); on_goal 1 => rfl)
    | ((with_reducible apply Same.step ?_ (finishSlot_same _ _ _) ?_); on_goal 1 => rfl)
    | (extract_lets +onlyGivenNames x; (with_reducible apply Same.cut x ?_ ?_); (on_goal 1 => (unfold x; clear x)); (on_goal 2 => (intro hx; clear_value x)))
    | (extract_lets +onlyGivenNames x; clear_value x)
    | (extract_lets +onlyGivenNames x; unfold x; clear x)
    | split)

theorem abortIn_same (s : State) (a1 : ℕ) (a2 : ℕ) (a3 : Bool) :
    Same 141029679309840 s (abortIn s a1 a2 a3) := by
  delta abortIn
  repeat' (first
    | with_reducible exact Same.refl _ _
    | with_reducible assumption
    | ((with_reducible apply Same.step ?_ (bump_same _ _ _) ?_); on_goal 1 => rfl)
    | ((with_reducible apply Same.step ?_ (voidPair_same _ _ _) ?_); on_goal 1 => rfl)
    | ((with_reducible apply Same.step ?_ (keepGone_same _ _ _ _ _) ?_); on_goal 1 => rfl)
    | ((with_reducible apply Same.step ?_ (closePend_same _ _) ?_); on_goal 1 => rfl)
    | ((with_reducible apply Same.step ?_ (retire_same _ _ _) ?_); on_goal 1 => rfl)
    | (extract_lets +onlyGivenNames x; (with_reducible apply Same.cut x ?_ ?_); (on_goal 1 => (unfold x; clear x)); (on_goal 2 => (intro hx; clear_value x)))
    | (extract_lets +onlyGivenNames x; clear_value x)
    | (extract_lets +onlyGivenNames x; unfold x; clear x)
    | split)

theorem setDp_same (s : State) (a1 : ℕ) (a2 : Dp) :
    Same 262144 s (setDp s a1 a2) := by
  delta setDp
  repeat' (first
    | with_reducible exact Same.refl _ _
    | with_reducible assumption
    | (extract_lets +onlyGivenNames x; (with_reducible apply Same.cut x ?_ ?_); (on_goal 1 => (unfold x; clear x)); (on_goal 2 => (intro hx; clear_value x)))
    | (extract_lets +onlyGivenNames x; clear_value x)
    | (extract_lets +onlyGivenNames x; unfold x; clear x)
    | split
    | ((with_reducible apply Same.put_dps ?_ ?_) <;> [rfl; skip]))

theorem accTick_same (s : State) (a1 : ℕ) :
    Same 262144 s (accTick s a1) := by
  delta accTick
  repeat' (first
    | with_reducible exact Same.refl _ _
    | with_reducible assumption
    | ((with_reducible apply Same.step ?_ (setDp_same _ _ _) ?_); on_goal 1 => rfl)
    | (extract_lets +onlyGivenNames x; (with_reducible apply Same.cut x ?_ ?_); (on_goal 1 => (unfold x; clear x)); (on_goal 2 => (intro hx; clear_value x)))
    | (extract_lets +onlyGivenNames x; clear_value x)
    | (extract_lets +onlyGivenNames x; unfold x; clear x)
    | split)

theorem actEvents_same (s : State) (a1 : QAct) (a2 : Bool) (a3 : Bool) :
    Same 8208 s (actEvents s a1 a2 a3) := by
  delta actEvents
  repeat' (first
    | with_reducible exact Same.refl _ _
    | with_reducible assumption
    | ((with_reducible apply Same.step ?_ (evtBit_same _ _ _) ?_); on_goal 1 => rfl)
    | (extract_lets +onlyGivenNames x; (with_reducible apply Same.cut x ?_ ?_); (on_goal 1 => (unfold x; clear x)); (on_goal 2 => (intro hx; clear_value x)))
    | (extract_lets +onlyGivenNames x; clear_value x)
    | (extract_lets +onlyGivenNames x; unfold x; clear x)
    | split)

theorem markAct_same (s : State) (a1 : ℕ) (a2 : ℕ) (a3 : Option ℤ) (a4 : Bool) :
    Same 16 s (markAct s a1 a2 a3 a4) := by
  delta markAct
  repeat' (first
    | with_reducible exact Same.refl _ _
    | with_reducible assumption
    | ((with_reducible apply Same.step ?_ (orBits_same _ _ _) ?_); on_goal 1 => rfl)
    | ((with_reducible apply Same.step ?_ (wM_same _ _ _ _) ?_); on_goal 1 => rfl)
    | (extract_lets +onlyGivenNames x; (with_reducible apply Same.cut x ?_ ?_); (on_goal 1 => (unfold x; clear x)); (on_goal 2 => (intro hx; clear_value x)))
    | (extract_lets +onlyGivenNames x; clear_value x)
    | (extract_lets +onlyGivenNames x; unfold x; clear x)
    | split)

theorem raiseC_same (s : State) (a1 : ℕ) (a2 : ℕ) (a3 : ℕ) (a4 : Cause) :
    Same 8208 s (raiseC s a1 a2 a3 a4) := by
  delta raiseC
  repeat' (first
    | with_reducible exact Same.refl _ _
    | with_reducible assumption
    | ((with_reducible apply Same.step ?_ (raise_same _ _ _ _ _ _) ?_); on_goal 1 => rfl)
    | (extract_lets +onlyGivenNames x; (with_reducible apply Same.cut x ?_ ?_); (on_goal 1 => (unfold x; clear x)); (on_goal 2 => (intro hx; clear_value x)))
    | (extract_lets +onlyGivenNames x; clear_value x)
    | (extract_lets +onlyGivenNames x; unfold x; clear x)
    | split)

theorem setSc_same (s : State) (a1 : ℕ) (a2 : Sc) :
    Same 32768 s (setSc s a1 a2) := by
  delta setSc
  repeat' (first
    | with_reducible exact Same.refl _ _
    | with_reducible assumption
    | (extract_lets +onlyGivenNames x; (with_reducible apply Same.cut x ?_ ?_); (on_goal 1 => (unfold x; clear x)); (on_goal 2 => (intro hx; clear_value x)))
    | (extract_lets +onlyGivenNames x; clear_value x)
    | (extract_lets +onlyGivenNames x; unfold x; clear x)
    | split
    | ((with_reducible apply Same.put_scs ?_ ?_) <;> [rfl; skip]))

theorem scRefuse_same (s : State) (a1 : ℕ) (a2 : ℕ) (a3 : Cause) :
    Same 40976 s (scRefuse s a1 a2 a3) := by
  delta scRefuse
  repeat' (first
    | with_reducible exact Same.refl _ _
    | with_reducible assumption
    | ((with_reducible apply Same.step ?_ (orBits_same _ _ _) ?_); on_goal 1 => rfl)
    | ((with_reducible apply Same.step ?_ (raiseC_same _ _ _ _ _) ?_); on_goal 1 => rfl)
    | ((with_reducible apply Same.step ?_ (setSc_same _ _ _) ?_); on_goal 1 => rfl)
    | (extract_lets +onlyGivenNames x; (with_reducible apply Same.cut x ?_ ?_); (on_goal 1 => (unfold x; clear x)); (on_goal 2 => (intro hx; clear_value x)))
    | (extract_lets +onlyGivenNames x; clear_value x)
    | (extract_lets +onlyGivenNames x; unfold x; clear x)
    | split)

theorem setFod_same (s : State) (a1 : ℕ) (a2 : Fod) :
    Same 65536 s (setFod s a1 a2) := by
  delta setFod
  repeat' (first
    | with_reducible exact Same.refl _ _
    | with_reducible assumption
    | (extract_lets +onlyGivenNames x; (with_reducible apply Same.cut x ?_ ?_); (on_goal 1 => (unfold x; clear x)); (on_goal 2 => (intro hx; clear_value x)))
    | (extract_lets +onlyGivenNames x; clear_value x)
    | (extract_lets +onlyGivenNames x; unfold x; clear x)
    | split
    | ((with_reducible apply Same.put_fods ?_ ?_) <;> [rfl; skip]))

theorem ledgerOut_same (s : State) (a1 : ℕ) (a2 : List ℤ) :
    Same 140754668224512 s (ledgerOut s a1 a2) := by
  delta ledgerOut
  repeat' (first
    | with_reducible exact Same.refl _ _
    | with_reducible assumption
    | ((with_reducible apply Same.step ?_ (mateSend_same _ _ _) ?_); on_goal 1 => rfl)
    | (extract_lets +onlyGivenNames x; (with_reducible apply Same.cut x ?_ ?_); (on_goal 1 => (unfold x; clear x)); (on_goal 2 => (intro hx; clear_value x)))
    | (extract_lets +onlyGivenNames x; clear_value x)
    | (extract_lets +onlyGivenNames x; unfold x; clear x)
    | split)

theorem ledgerSend_same (s : State) (a1 : ℕ) (a2 : ChRec) :
    Same 140754668224512 s (ledgerSend s a1 a2) := by
  delta ledgerSend
  repeat' (first
    | with_reducible exact Same.refl _ _
    | with_reducible assumption
    | ((with_reducible apply Same.step ?_ (ledgerOut_same _ _ _) ?_); on_goal 1 => rfl)
    | (extract_lets +onlyGivenNames x; (with_reducible apply Same.cut x ?_ ?_); (on_goal 1 => (unfold x; clear x)); (on_goal 2 => (intro hx; clear_value x)))
    | (extract_lets +onlyGivenNames x; clear_value x)
    | (extract_lets +onlyGivenNames x; unfold x; clear x)
    | split)

theorem addRec_same (s : State) (a1 : ℕ) (a2 : ChRec) (a3 : Cause) :
    Same 140754668298256 s (addRec s a1 a2 a3) := by
  delta addRec
  repeat' (first
    | with_reducible exact Same.refl _ _
    | with_reducible assumption
    | ((with_reducible apply Same.step ?_ (raiseC_same _ _ _ _ _) ?_); on_goal 1 => rfl)
    | ((with_reducible apply Same.step ?_ (setFod_same _ _ _) ?_); on_goal 1 => rfl)
    | ((with_reducible apply Same.step ?_ (ledgerSend_same _ _ _) ?_); on_goal 1 => rfl)
    | (extract_lets +onlyGivenNames x; (with_reducible apply Same.cut x ?_ ?_); (on_goal 1 => (unfold x; clear x)); (on_goal 2 => (intro hx; clear_value x)))
    | (extract_lets +onlyGivenNames x; clear_value x)
    | (extract_lets +onlyGivenNames x; unfold x; clear x)
    | split)

theorem bumpM_same (s : State) (a1 : ℕ) (a2 : optParam ℕ 1) :
    Same 8208 s (bumpM s a1 a2) := by
  delta bumpM
  repeat' (first
    | with_reducible exact Same.refl _ _
    | with_reducible assumption
    | ((with_reducible apply Same.step ?_ (bumpRaw_same _ _ _ _) ?_); on_goal 1 => rfl)
    | ((with_reducible apply Same.step ?_ (raise_same _ _ _ _ _ _) ?_); on_goal 1 => rfl)
    | (extract_lets +onlyGivenNames x; (with_reducible apply Same.cut x ?_ ?_); (on_goal 1 => (unfold x; clear x)); (on_goal 2 => (intro hx; clear_value x)))
    | (extract_lets +onlyGivenNames x; (with_reducible apply Same.cut x.1 ?_ ?_); (on_goal 1 => (unfold x; clear x)); (on_goal 2 => (intro hx; clear_value x)))
    | (extract_lets +onlyGivenNames x; clear_value x)
    | (extract_lets +onlyGivenNames x; unfold x; clear x)
    | with_reducible refine Same.ofFst (by assumption) ?_
    | split)

theorem leadMiss_same (s : State) (a1 : ℕ) (a2 : ℚ) (a3 : Bool) (a4 : ℕ) :
    Same 1122320 s (leadMiss s a1 a2 a3 a4) := by
  delta leadMiss
  repeat' (first
    | with_reducible exact Same.refl _ _
    | with_reducible assumption
    | ((with_reducible apply Same.step ?_ (orBits_same _ _ _) ?_); on_goal 1 => rfl)
    | ((with_reducible apply Same.step ?_ (setFod_same _ _ _) ?_); on_goal 1 => rfl)
    | ((with_reducible apply Same.step ?_ (bumpM_same _ _ _) ?_); on_goal 1 => rfl)
    | ((with_reducible apply Same.step ?_ (setLane_same _ _ _) ?_); on_goal 1 => rfl)
    | ((with_reducible apply Same.step ?_ (raise_same _ _ _ _ _ _) ?_); on_goal 1 => rfl)
    | with_reducible apply Same.foldl ?_ ?_
    | (extract_lets +onlyGivenNames x; (with_reducible apply Same.cut x ?_ ?_); (on_goal 1 => (unfold x; clear x)); (on_goal 2 => (intro hx; clear_value x)))
    | (extract_lets +onlyGivenNames x; clear_value x)
    | (extract_lets +onlyGivenNames x; unfold x; clear x)
    | intro _
    | split)

theorem pushRecAt_same (s : State) (a1 : ℕ) (a2 : ℕ) (a3 : ℕ) (a4 : ℤ) (a5 : ℚ) (a6 : ℕ) (a7 : ℚ) (a8 : optParam Cause none) :
    Same 140754669346832 s (pushRecAt s a1 a2 a3 a4 a5 a6 a7 a8) := by
  delta pushRecAt
  repeat' (first
    | with_reducible exact Same.refl _ _
    | with_reducible assumption
    | ((with_reducible apply Same.step ?_ (addRec_same _ _ _ _) ?_); on_goal 1 => rfl)
    | ((with_reducible apply Same.step ?_ (setFod_same _ _ _) ?_); on_goal 1 => rfl)
    | ((with_reducible apply Same.step ?_ (ledgerSend_same _ _ _) ?_); on_goal 1 => rfl)
    | ((with_reducible apply Same.step ?_ (leadMiss_same _ _ _ _ _) ?_); on_goal 1 => rfl)
    | (extract_lets +onlyGivenNames x; (with_reducible apply Same.cut x ?_ ?_); (on_goal 1 => (unfold x; clear x)); (on_goal 2 => (intro hx; clear_value x)))
    | (extract_lets +onlyGivenNames x; clear_value x)
    | (extract_lets +onlyGivenNames x; unfold x; clear x)
    | split)

theorem retuneRec_same (s : State) (a1 : ℕ) (a2 : ℕ) (a3 : ℚ) (a4 : ℕ) :
    Same 140754669346832 s (retuneRec s a1 a2 a3 a4) := by
  delta retuneRec
  repeat' (first
    | with_reducible exact Same.refl _ _
    | with_reducible assumption
    | ((with_reducible apply Same.step ?_ (pushRecAt_same _ _ _ _ _ _ _ _ _) ?_); on_goal 1 => rfl)
    | (extract_lets +onlyGivenNames x; (with_reducible apply Same.cut x ?_ ?_); (on_goal 1 => (unfold x; clear x)); (on_goal 2 => (intro hx; clear_value x)))
    | (extract_lets +onlyGivenNames x; clear_value x)
    | (extract_lets +onlyGivenNames x; unfold x; clear x)
    | split)

theorem setRatio_same (s : State) (a1 : ℕ) (a2 : ℕ × ℕ × ℕ) :
    Same 16 s (setRatio s a1 a2) := by
  delta setRatio
  repeat' (first
    | with_reducible exact Same.refl _ _
    | with_reducible assumption
    | ((with_reducible apply Same.step ?_ (wM_same _ _ _ _) ?_); on_goal 1 => rfl)
    | (extract_lets +onlyGivenNames x; (with_reducible apply Same.cut x ?_ ?_); (on_goal 1 => (unfold x; clear x)); (on_goal 2 => (intro hx; clear_value x)))
    | (extract_lets +onlyGivenNames x; clear_value x)
    | (extract_lets +onlyGivenNames x; unfold x; clear x)
    | split)

theorem raiseFod_same (s : State) (a1 : ℕ) (a2 : ℕ) (a3 : Cause) :
    Same 8208 s (raiseFod s a1 a2 a3) := by
  delta raiseFod
  repeat' (first
    | with_reducible exact Same.refl _ _
    | with_reducible assumption
    | ((with_reducible apply Same.step ?_ (raiseC_same _ _ _ _ _) ?_); on_goal 1 => rfl)
    | (extract_lets +onlyGivenNames x; (with_reducible apply Same.cut x ?_ ?_); (on_goal 1 => (unfold x; clear x)); (on_goal 2 => (intro hx; clear_value x)))
    | (extract_lets +onlyGivenNames x; clear_value x)
    | (extract_lets +onlyGivenNames x; unfold x; clear x)
    | split)

theorem hwUpdate_same {M : Nat} {s x : State} {a1 : Nat} {a2 : Nat} {a3 : Nat} {f : State → State} (e : 16 ||| M = M)
    (hx : Same M s x) (hf : ∀ y, Same M y (f y)) : Same M s (hwUpdate x a1 a2 a3 f) := by
  delta hwUpdate
  split
  · exact Same.step e (orBits_same _ _ _) hx
  · exact hx.trans (hf _)

theorem hopUpdate_same {M : Nat} {s x : State} {a1 : Nat} {a2 : Nat} {f : State → State} (e : 16 ||| M = M)
    (hx : Same M s x) (hf : ∀ y, Same M y (f y)) : Same M s (hopUpdate x a1 a2 f) := by
  delta hopUpdate
  exact hwUpdate_same e hx hf

theorem markHops_same (s : State) (a1 : ℕ) :
    Same 17179869184 s (markHops s a1) := by
  delta markHops
  repeat' (first
    | with_reducible exact Same.refl _ _
    | with_reducible assumption
    | (extract_lets +onlyGivenNames x; (with_reducible apply Same.cut x ?_ ?_); (on_goal 1 => (unfold x; clear x)); (on_goal 2 => (intro hx; clear_value x)))
    | (extract_lets +onlyGivenNames x; clear_value x)
    | (extract_lets +onlyGivenNames x; unfold x; clear x)
    | split
    | ((with_reducible apply Same.put_mate ?_ ?_) <;> [rfl; skip]))

theorem convertHops_same (s : State) (a1 : ℕ) (a2 : ℚ) :
    Same 17179942928 s (convertHops s a1 a2) := by
  delta convertHops
  repeat' (first
    | with_reducible exact Same.refl _ _
    | with_reducible assumption
    | ((with_reducible apply Same.step ?_ (raiseFod_same _ _ _ _) ?_); on_goal 1 => rfl)
    | ((with_reducible apply Same.step ?_ (orBits_same _ _ _) ?_); on_goal 1 => rfl)
    | ((with_reducible apply hopUpdate_same ?_ ?_ ?_); on_goal 1 => rfl)
    | ((with_reducible apply Same.step ?_ (setFod_same _ _ _) ?_); on_goal 1 => rfl)
    | ((with_reducible apply Same.step ?_ (markHops_same _ _) ?_); on_goal 1 => rfl)
    | with_reducible apply Same.upto ?_ ?_
    | (extract_lets +onlyGivenNames x; (with_reducible apply Same.cut x ?_ ?_); (on_goal 1 => (unfold x; clear x)); (on_goal 2 => (intro hx; clear_value x)))
    | (extract_lets +onlyGivenNames x; clear_value x)
    | (extract_lets +onlyGivenNames x; unfold x; clear x)
    | intro _
    | split)

theorem hwWins_same (s : State) (a1 : ℕ) (a2 : List ℕ) :
    Same 73744 s (hwWins s a1 a2) := by
  delta hwWins
  repeat' (first
    | with_reducible exact Same.refl _ _
    | with_reducible assumption
    | ((with_reducible apply Same.step ?_ (setFod_same _ _ _) ?_); on_goal 1 => rfl)
    | ((with_reducible apply Same.step ?_ (bumpM_same _ _ _) ?_); on_goal 1 => rfl)
    | (extract_lets +onlyGivenNames x; (with_reducible apply Same.cut x ?_ ?_); (on_goal 1 => (unfold x; clear x)); (on_goal 2 => (intro hx; clear_value x)))
    | (extract_lets +onlyGivenNames x; clear_value x)
    | (extract_lets +onlyGivenNames x; unfold x; clear x)
    | split)

theorem hwDiv_same (s : State) (a1 : ℕ) (a2 : ℕ) (a3 : ℕ) (a4 : ℕ) (a5 : ℕ) :
    Same 73744 s (hwDiv s a1 a2 a3 a4 a5) := by
  delta hwDiv
  repeat' (first
    | with_reducible exact Same.refl _ _
    | with_reducible assumption
    | ((with_reducible apply Same.step ?_ (hwWins_same _ _ _) ?_); on_goal 1 => rfl)
    | ((with_reducible apply Same.step ?_ (setFod_same _ _ _) ?_); on_goal 1 => rfl)
    | ((with_reducible apply Same.step ?_ (wM_same _ _ _ _) ?_); on_goal 1 => rfl)
    | (extract_lets +onlyGivenNames x; (with_reducible apply Same.cut x ?_ ?_); (on_goal 1 => (unfold x; clear x)); (on_goal 2 => (intro hx; clear_value x)))
    | (extract_lets +onlyGivenNames x; clear_value x)
    | (extract_lets +onlyGivenNames x; unfold x; clear x)
    | split)

theorem compFod_same (s : State) (a1 : ℕ) (a2 : ℚ) :
    Same 17179942928 s (compFod s a1 a2) := by
  delta compFod
  repeat' (first
    | with_reducible exact Same.refl _ _
    | with_reducible assumption
    | ((with_reducible apply Same.step ?_ (convertHops_same _ _ _) ?_); on_goal 1 => rfl)
    | ((with_reducible apply Same.step ?_ (hwDiv_same _ _ _ _ _ _) ?_); on_goal 1 => rfl)
    | (extract_lets +onlyGivenNames x; (with_reducible apply Same.cut x ?_ ?_); (on_goal 1 => (unfold x; clear x)); (on_goal 2 => (intro hx; clear_value x)))
    | (extract_lets +onlyGivenNames x; clear_value x)
    | (extract_lets +onlyGivenNames x; unfold x; clear x)
    | split)

theorem compFods_same (s : State) (a1 : ℕ) (a2 : Bool) (a3 : ℚ) :
    Same 17179942928 s (compFods s a1 a2 a3) := by
  delta compFods
  repeat' (first
    | with_reducible exact Same.refl _ _
    | with_reducible assumption
    | ((with_reducible apply Same.step ?_ (compFod_same _ _ _) ?_); on_goal 1 => rfl)
    | with_reducible apply Same.foldl ?_ ?_
    | (extract_lets +onlyGivenNames x; (with_reducible apply Same.cut x ?_ ?_); (on_goal 1 => (unfold x; clear x)); (on_goal 2 => (intro hx; clear_value x)))
    | (extract_lets +onlyGivenNames x; clear_value x)
    | (extract_lets +onlyGivenNames x; unfold x; clear x)
    | intro _
    | split)

theorem retuneStart_same (s : State) (a1 : ℕ) (a2 : ℕ) (a3 : Bool) (a4 : Bool) (a5 : Option ℕ) (a6 : ℚ) (a7 : Bool) (a8 : Option ℕ) (a9 : Cause) :
    Same 140754669379600 s (retuneStart s a1 a2 a3 a4 a5 a6 a7 a8 a9) := by
  delta retuneStart
  repeat' (first
    | with_reducible exact Same.refl _ _
    | with_reducible assumption
    | ((with_reducible apply Same.step ?_ (scRefuse_same _ _ _ _) ?_); on_goal 1 => rfl)
    | ((with_reducible apply Same.step ?_ (retuneRec_same _ _ _ _ _) ?_); on_goal 1 => rfl)
    | ((with_reducible apply Same.step ?_ (wr_same _ _ _) ?_); on_goal 1 => rfl)
    | ((with_reducible apply Same.step ?_ (setRatio_same _ _ _) ?_); on_goal 1 => rfl)
    | ((with_reducible apply Same.step ?_ (compFods_same _ _ _ _) ?_); on_goal 1 => rfl)
    | ((with_reducible apply Same.step ?_ (setSc_same _ _ _) ?_); on_goal 1 => rfl)
    | with_reducible apply Same.foldl ?_ ?_
    | (extract_lets +onlyGivenNames x; (with_reducible apply Same.cut x ?_ ?_); (on_goal 1 => (unfold x; clear x)); (on_goal 2 => (intro hx; clear_value x)))
    | (extract_lets +onlyGivenNames x; (with_reducible apply Same.cutF x ?_ ?_); (on_goal 1 => (unfold x; clear x; intro _ _)); (on_goal 2 => (intro hx; clear_value x)))
    | (extract_lets +onlyGivenNames x; (with_reducible apply Same.cutF1 x ?_ ?_); (on_goal 1 => (unfold x; clear x; intro _)); (on_goal 2 => (intro hx; clear_value x)))
    | (extract_lets +onlyGivenNames x; (with_reducible apply Same.cutG x ?_ ?_); (on_goal 1 => (unfold x; clear x; intro _)); (on_goal 2 => (intro hx; clear_value x)))
    | (extract_lets +onlyGivenNames x; clear_value x)
    | (extract_lets +onlyGivenNames x; unfold x; clear x)
    | intro _
    | split
    | ((with_reducible apply Same.viaF ?_ ?_); on_goal 1 => with_reducible assumption)
    | ((with_reducible apply Same.viaF1 ?_ ?_); on_goal 1 => with_reducible assumption)
    | ((with_reducible apply Same.viaG ?_); on_goal 1 => with_reducible assumption))

theorem scActRun_same (s : State) (a1 : ℕ) (a2 : QAct) (a3 : ℚ) (a4 : Option ℤ) (a5 : Bool) :
    Same 140754669379600 s (scActRun s a1 a2 a3 a4 a5) := by
  delta scActRun
  repeat' (first
    | with_reducible exact Same.refl _ _
    | with_reducible assumption
    | ((with_reducible apply Same.step ?_ (markAct_same _ _ _ _ _) ?_); on_goal 1 => rfl)
    | ((with_reducible apply Same.step ?_ (actEvents_same _ _ _ _) ?_); on_goal 1 => rfl)
    | ((with_reducible apply Same.step ?_ (retuneStart_same _ _ _ _ _ _ _ _ _ _) ?_); on_goal 1 => rfl)
    | (extract_lets +onlyGivenNames x; (with_reducible apply Same.cut x ?_ ?_); (on_goal 1 => (unfold x; clear x)); (on_goal 2 => (intro hx; clear_value x)))
    | (extract_lets +onlyGivenNames x; clear_value x)
    | (extract_lets +onlyGivenNames x; unfold x; clear x)
    | split)

theorem snapSend_same (s : State) :
    Same 140754668224512 s (snapSend s) := by
  delta snapSend
  repeat' (first
    | with_reducible exact Same.refl _ _
    | with_reducible assumption
    | ((with_reducible apply Same.step ?_ (mateSend_same _ _ _) ?_); on_goal 1 => rfl)
    | (extract_lets +onlyGivenNames x; (with_reducible apply Same.cut x ?_ ?_); (on_goal 1 => (unfold x; clear x)); (on_goal 2 => (intro hx; clear_value x)))
    | (extract_lets +onlyGivenNames x; clear_value x)
    | (extract_lets +onlyGivenNames x; unfold x; clear x)
    | split)

theorem wL_same (s : State) (a1 : ℕ) (a2 : ℕ) (a3 : ℕ) :
    Same 16 s (wL s a1 a2 a3) := by
  induction a2 generalizing s a1 a3 with
  | zero => exact Same.refl _ _
  | succ k ih => exact (wr_same _ _ _).trans (ih _ _ _)

theorem snapFod_same (s : State) (a1 : ℕ) (a2 : ℕ) (a3 : ℚ) :
    Same 16 s (snapFod s a1 a2 a3) := by
  delta snapFod
  repeat' (first
    | with_reducible exact Same.refl _ _
    | with_reducible assumption
    | ((with_reducible apply Same.step ?_ (wL_same _ _ _ _) ?_); on_goal 1 => rfl)
    | ((with_reducible apply Same.step ?_ (wr_same _ _ _) ?_); on_goal 1 => rfl)
    | (extract_lets +onlyGivenNames x; (with_reducible apply Same.cut x ?_ ?_); (on_goal 1 => (unfold x; clear x)); (on_goal 2 => (intro hx; clear_value x)))
    | (extract_lets +onlyGivenNames x; clear_value x)
    | (extract_lets +onlyGivenNames x; unfold x; clear x)
    | split)

theorem snapUnit_same (s : State) (a1 : ℕ) (a2 : ℚ) (a3 : ℕ) :
    Same 16 s (snapUnit s a1 a2 a3) := by
  delta snapUnit
  repeat' (first
    | with_reducible exact Same.refl _ _
    | with_reducible assumption
    | ((with_reducible apply Same.step ?_ (wL_same _ _ _ _) ?_); on_goal 1 => rfl)
    | ((with_reducible apply Same.step ?_ (snapFod_same _ _ _ _) ?_); on_goal 1 => rfl)
    | ((with_reducible apply Same.step ?_ (wr_same _ _ _) ?_); on_goal 1 => rfl)
    | with_reducible apply Same.upto ?_ ?_
    | (extract_lets +onlyGivenNames x; (with_reducible apply Same.cut x ?_ ?_); (on_goal 1 => (unfold x; clear x)); (on_goal 2 => (intro hx; clear_value x)))
    | (extract_lets +onlyGivenNames x; clear_value x)
    | (extract_lets +onlyGivenNames x; unfold x; clear x)
    | intro _
    | split)

theorem snapLatch_same (s : State) (a1 : ℕ) (a2 : ℚ) :
    Same 16 s (snapLatch s a1 a2) := by
  delta snapLatch
  repeat' (first
    | with_reducible exact Same.refl _ _
    | with_reducible assumption
    | ((with_reducible apply Same.step ?_ (snapUnit_same _ _ _ _) ?_); on_goal 1 => rfl)
    | with_reducible apply Same.foldl ?_ ?_
    | (extract_lets +onlyGivenNames x; (with_reducible apply Same.cut x ?_ ?_); (on_goal 1 => (unfold x; clear x)); (on_goal 2 => (intro hx; clear_value x)))
    | (extract_lets +onlyGivenNames x; clear_value x)
    | (extract_lets +onlyGivenNames x; unfold x; clear x)
    | intro _
    | split)

theorem snapTrigger_same (s : State) (a1 : ℕ) (a2 : ℚ) (a3 : Cause) :
    Same 140754668249104 s (snapTrigger s a1 a2 a3) := by
  delta snapTrigger
  repeat' (first
    | with_reducible exact Same.refl _ _
    | with_reducible assumption
    | ((with_reducible apply Same.step ?_ (snapSend_same _) ?_); on_goal 1 => rfl)
    | ((with_reducible apply Same.step ?_ (bump_same _ _ _) ?_); on_goal 1 => rfl)
    | ((with_reducible apply Same.step ?_ (orBits_same _ _ _) ?_); on_goal 1 => rfl)
    | ((with_reducible apply Same.step ?_ (wL_same _ _ _ _) ?_); on_goal 1 => rfl)
    | ((with_reducible apply Same.step ?_ (snapLatch_same _ _ _) ?_); on_goal 1 => rfl)
    | ((with_reducible apply Same.step ?_ (raiseC_same _ _ _ _ _) ?_); on_goal 1 => rfl)
    | ((with_reducible apply Same.step ?_ (wr_same _ _ _) ?_); on_goal 1 => rfl)
    | (extract_lets +onlyGivenNames x; (with_reducible apply Same.cut x ?_ ?_); (on_goal 1 => (unfold x; clear x)); (on_goal 2 => (intro hx; clear_value x)))
    | (extract_lets +onlyGivenNames x; clear_value x)
    | (extract_lets +onlyGivenNames x; unfold x; clear x)
    | split
    | ((with_reducible apply Same.put_snap ?_ ?_) <;> [rfl; skip]))

theorem snapActRun_same (s : State) (a1 : QAct) (a2 : ℚ) (a3 : Option ℤ) (a4 : Bool) :
    Same 140754668249104 s (snapActRun s a1 a2 a3 a4) := by
  delta snapActRun
  repeat' (first
    | with_reducible exact Same.refl _ _
    | with_reducible assumption
    | ((with_reducible apply Same.step ?_ (actEvents_same _ _ _ _) ?_); on_goal 1 => rfl)
    | ((with_reducible apply Same.step ?_ (orBits_same _ _ _) ?_); on_goal 1 => rfl)
    | ((with_reducible apply Same.step ?_ (snapTrigger_same _ _ _ _) ?_); on_goal 1 => rfl)
    | (extract_lets +onlyGivenNames x; (with_reducible apply Same.cut x ?_ ?_); (on_goal 1 => (unfold x; clear x)); (on_goal 2 => (intro hx; clear_value x)))
    | (extract_lets +onlyGivenNames x; clear_value x)
    | (extract_lets +onlyGivenNames x; unfold x; clear x)
    | split)

theorem pushRec_same (s : State) (a1 : ℕ) (a2 : ℕ) (a3 : ℕ) (a4 : ℤ) (a5 : ℚ) (a6 : ℕ) (a7 : optParam Cause none) :
    Same 140754669346832 s (pushRec s a1 a2 a3 a4 a5 a6 a7) := by
  delta pushRec
  repeat' (first
    | with_reducible exact Same.refl _ _
    | with_reducible assumption
    | ((with_reducible apply Same.step ?_ (pushRecAt_same _ _ _ _ _ _ _ _ _) ?_); on_goal 1 => rfl)
    | (extract_lets +onlyGivenNames x; (with_reducible apply Same.cut x ?_ ?_); (on_goal 1 => (unfold x; clear x)); (on_goal 2 => (intro hx; clear_value x)))
    | (extract_lets +onlyGivenNames x; clear_value x)
    | (extract_lets +onlyGivenNames x; unfold x; clear x)
    | split)

theorem slewEdges_same (s : State) (a1 : ℕ) (a2 : Fod) (a3 : ℚ) (a4 : ℚ) (a5 : ℕ) (a6 : ℕ) (a7 : optParam Cause none) :
    Same 140754669346832 s (slewEdges s a1 a2 a3 a4 a5 a6 a7) := by
  delta slewEdges
  repeat' (first
    | with_reducible exact Same.refl _ _
    | with_reducible assumption
    | ((with_reducible apply Same.step ?_ (setFod_same _ _ _) ?_); on_goal 1 => rfl)
    | ((with_reducible apply Same.step ?_ (pushRec_same _ _ _ _ _ _ _ _) ?_); on_goal 1 => rfl)
    | (extract_lets +onlyGivenNames x; (with_reducible apply Same.cut x ?_ ?_); (on_goal 1 => (unfold x; clear x)); (on_goal 2 => (intro hx; clear_value x)))
    | (extract_lets +onlyGivenNames x; clear_value x)
    | (extract_lets +onlyGivenNames x; unfold x; clear x)
    | split)

theorem slewFinish_same (s : State) (a1 : ℕ) :
    Same 140754669346832 s (slewFinish s a1) := by
  delta slewFinish
  repeat' (first
    | with_reducible exact Same.refl _ _
    | with_reducible assumption
    | ((with_reducible apply Same.step ?_ (slewEdges_same _ _ _ _ _ _ _ _) ?_); on_goal 1 => rfl)
    | (extract_lets +onlyGivenNames x; (with_reducible apply Same.cut x ?_ ?_); (on_goal 1 => (unfold x; clear x)); (on_goal 2 => (intro hx; clear_value x)))
    | (extract_lets +onlyGivenNames x; clear_value x)
    | (extract_lets +onlyGivenNames x; unfold x; clear x)
    | split)

theorem slewSettle_same (s : State) (a1 : ℕ) (a2 : ℚ) :
    Same 140754669346832 s (slewSettle s a1 a2) := by
  delta slewSettle
  repeat' (first
    | with_reducible exact Same.refl _ _
    | with_reducible assumption
    | ((with_reducible apply Same.step ?_ (slewFinish_same _ _) ?_); on_goal 1 => rfl)
    | with_reducible apply Same.upto ?_ ?_
    | (extract_lets +onlyGivenNames x; (with_reducible apply Same.cut x ?_ ?_); (on_goal 1 => (unfold x; clear x)); (on_goal 2 => (intro hx; clear_value x)))
    | (extract_lets +onlyGivenNames x; clear_value x)
    | (extract_lets +onlyGivenNames x; unfold x; clear x)
    | intro _
    | split)

theorem stepEdges_same (s : State) (a1 : ℕ) (a2 : ℚ) (a3 : ℚ) (a4 : ℕ) (a5 : ℕ) (a6 : optParam Cause none) :
    Same 140754669346832 s (stepEdges s a1 a2 a3 a4 a5 a6) := by
  delta stepEdges
  repeat' (first
    | with_reducible exact Same.refl _ _
    | with_reducible assumption
    | ((with_reducible apply Same.step ?_ (pushRec_same _ _ _ _ _ _ _ _) ?_); on_goal 1 => rfl)
    | (extract_lets +onlyGivenNames x; (with_reducible apply Same.cut x ?_ ?_); (on_goal 1 => (unfold x; clear x)); (on_goal 2 => (intro hx; clear_value x)))
    | (extract_lets +onlyGivenNames x; clear_value x)
    | (extract_lets +onlyGivenNames x; unfold x; clear x)
    | split)

theorem phaseStep_same (s : State) (a1 : ℕ) (a2 : ℤ) (a3 : ℚ) (a4 : Cause) (a5 : ℕ) :
    Same 140754669346832 s (phaseStep s a1 a2 a3 a4 a5) := by
  delta phaseStep
  repeat' (first
    | with_reducible exact Same.refl _ _
    | with_reducible assumption
    | ((with_reducible apply Same.step ?_ (raiseFod_same _ _ _ _) ?_); on_goal 1 => rfl)
    | ((with_reducible apply Same.step ?_ (slewSettle_same _ _ _) ?_); on_goal 1 => rfl)
    | ((with_reducible apply Same.step ?_ (setFod_same _ _ _) ?_); on_goal 1 => rfl)
    | ((with_reducible apply Same.step ?_ (stepEdges_same _ _ _ _ _ _ _) ?_); on_goal 1 => rfl)
    | (extract_lets +onlyGivenNames x; (with_reducible apply Same.cut x ?_ ?_); (on_goal 1 => (unfold x; clear x)); (on_goal 2 => (intro hx; clear_value x)))
    | (extract_lets +onlyGivenNames x; clear_value x)
    | (extract_lets +onlyGivenNames x; unfold x; clear x)
    | split)

theorem fodDrop_same (s : State) (a1 : ℕ) (a2 : QAct) :
    Same 65536 s (fodDrop s a1 a2) := by
  delta fodDrop
  repeat' (first
    | with_reducible exact Same.refl _ _
    | with_reducible assumption
    | ((with_reducible apply Same.step ?_ (setFod_same _ _ _) ?_); on_goal 1 => rfl)
    | (extract_lets +onlyGivenNames x; (with_reducible apply Same.cut x ?_ ?_); (on_goal 1 => (unfold x; clear x)); (on_goal 2 => (intro hx; clear_value x)))
    | (extract_lets +onlyGivenNames x; clear_value x)
    | (extract_lets +onlyGivenNames x; unfold x; clear x)
    | split)

theorem driverDue_same (s : State) (a1 : ℕ) (a2 : ℚ) :
    Same 65536 s (driverDue s a1 a2) := by
  delta driverDue
  repeat' (first
    | with_reducible exact Same.refl _ _
    | with_reducible assumption
    | ((with_reducible apply Same.step ?_ (setFod_same _ _ _) ?_); on_goal 1 => rfl)
    | (extract_lets +onlyGivenNames x; (with_reducible apply Same.cut x ?_ ?_); (on_goal 1 => (unfold x; clear x)); (on_goal 2 => (intro hx; clear_value x)))
    | (extract_lets +onlyGivenNames x; clear_value x)
    | (extract_lets +onlyGivenNames x; unfold x; clear x)
    | split)

theorem oenOn_same (s : State) (a1 : ℕ) (a2 : ℚ) (a3 : Bool) :
    Same 65536 s (oenOn s a1 a2 a3) := by
  delta oenOn
  repeat' (first
    | with_reducible exact Same.refl _ _
    | with_reducible assumption
    | ((with_reducible apply Same.step ?_ (setFod_same _ _ _) ?_); on_goal 1 => rfl)
    | ((with_reducible apply Same.step ?_ (driverDue_same _ _ _) ?_); on_goal 1 => rfl)
    | (extract_lets +onlyGivenNames x; (with_reducible apply Same.cut x ?_ ?_); (on_goal 1 => (unfold x; clear x)); (on_goal 2 => (intro hx; clear_value x)))
    | (extract_lets +onlyGivenNames x; clear_value x)
    | (extract_lets +onlyGivenNames x; unfold x; clear x)
    | split)

theorem holdHop_same (s : State) (a1 : ℕ) (a2 : ℕ) (a3 : Option QAct) (a4 : Bool) :
    Same 65536 s (holdHop s a1 a2 a3 a4) := by
  delta holdHop
  repeat' (first
    | with_reducible exact Same.refl _ _
    | with_reducible assumption
    | ((with_reducible apply Same.step ?_ (setFod_same _ _ _) ?_); on_goal 1 => rfl)
    | (extract_lets +onlyGivenNames x; (with_reducible apply Same.cut x ?_ ?_); (on_goal 1 => (unfold x; clear x)); (on_goal 2 => (intro hx; clear_value x)))
    | (extract_lets +onlyGivenNames x; clear_value x)
    | (extract_lets +onlyGivenNames x; unfold x; clear x)
    | split)

theorem hopRateMark_same (s : State) (a1 : ℕ) (a2 : Cause) :
    Same 8208 s (hopRateMark s a1 a2) := by
  delta hopRateMark
  repeat' (first
    | with_reducible exact Same.refl _ _
    | with_reducible assumption
    | ((with_reducible apply Same.step ?_ (raiseFod_same _ _ _ _) ?_); on_goal 1 => rfl)
    | ((with_reducible apply Same.step ?_ (orBits_same _ _ _) ?_); on_goal 1 => rfl)
    | (extract_lets +onlyGivenNames x; (with_reducible apply Same.cut x ?_ ?_); (on_goal 1 => (unfold x; clear x)); (on_goal 2 => (intro hx; clear_value x)))
    | (extract_lets +onlyGivenNames x; clear_value x)
    | (extract_lets +onlyGivenNames x; unfold x; clear x)
    | split)

theorem twinSwap_same (s : State) (a1 : ℕ) :
    Same 65552 s (twinSwap s a1) := by
  delta twinSwap
  repeat' (first
    | with_reducible exact Same.refl _ _
    | with_reducible assumption
    | ((with_reducible apply Same.step ?_ (clrBits_same _ _ _) ?_); on_goal 1 => rfl)
    | ((with_reducible apply Same.step ?_ (setFod_same _ _ _) ?_); on_goal 1 => rfl)
    | (extract_lets +onlyGivenNames x; (with_reducible apply Same.cut x ?_ ?_); (on_goal 1 => (unfold x; clear x)); (on_goal 2 => (intro hx; clear_value x)))
    | (extract_lets +onlyGivenNames x; clear_value x)
    | (extract_lets +onlyGivenNames x; unfold x; clear x)
    | split)

end Sys2Proof.Machine
end

