-- ==== Sys2Proof/Laws/Frame2.lean ====
section
/-!
SUPPORT. The fields of `State` that each operation can change, operation by operation (part 2).
-/
set_option linter.all false
set_option linter.unusedTactic false
set_option linter.unreachableTactic false
namespace Sys2Proof.Machine

open Sys2Proof

theorem swapAtHop_same (s : State) (a1 : ℕ) :
    Same 73744 s (swapAtHop s a1) := by
  delta swapAtHop
  repeat' (first
    | with_reducible exact Same.refl _ _
    | with_reducible assumption
    | ((with_reducible apply Same.step ?_ (bump_same _ _ _) ?_); on_goal 1 => rfl)
    | ((with_reducible apply Same.step ?_ (twinSwap_same _ _) ?_); on_goal 1 => rfl)
    | ((with_reducible apply Same.step ?_ (setFod_same _ _ _) ?_); on_goal 1 => rfl)
    | (extract_lets +onlyGivenNames x; (with_reducible apply Same.cut x ?_ ?_); (on_goal 1 => (unfold x; clear x)); (on_goal 2 => (intro hx; clear_value x)))
    | (extract_lets +onlyGivenNames x; clear_value x)
    | (extract_lets +onlyGivenNames x; unfold x; clear x)
    | split)

theorem formatCheck_same (s : State) (a1 : ℕ) (a2 : Cause) :
    Same 8208 s (formatCheck s a1 a2) := by
  delta formatCheck
  repeat' (first
    | with_reducible exact Same.refl _ _
    | with_reducible assumption
    | ((with_reducible apply Same.step ?_ (raiseFod_same _ _ _ _) ?_); on_goal 1 => rfl)
    | ((with_reducible apply Same.step ?_ (orBits_same _ _ _) ?_); on_goal 1 => rfl)
    | (extract_lets +onlyGivenNames x; (with_reducible apply Same.cut x ?_ ?_); (on_goal 1 => (unfold x; clear x)); (on_goal 2 => (intro hx; clear_value x)))
    | (extract_lets +onlyGivenNames x; clear_value x)
    | (extract_lets +onlyGivenNames x; unfold x; clear x)
    | split)

theorem hopMarks_same (s : State) (a1 : ℕ) (a2 : ℕ) (a3 : Bool) (a4 : ℚ) :
    Same 73744 s (hopMarks s a1 a2 a3 a4) := by
  delta hopMarks
  repeat' (first
    | with_reducible exact Same.refl _ _
    | with_reducible assumption
    | ((with_reducible apply Same.step ?_ (wb_same _ _ _ _ _) ?_); on_goal 1 => rfl)
    | ((with_reducible apply Same.step ?_ (setFod_same _ _ _) ?_); on_goal 1 => rfl)
    | ((with_reducible apply Same.step ?_ (bumpM_same _ _ _) ?_); on_goal 1 => rfl)
    | ((with_reducible apply Same.step ?_ (wM_same _ _ _ _) ?_); on_goal 1 => rfl)
    | (extract_lets +onlyGivenNames x; (with_reducible apply Same.cut x ?_ ?_); (on_goal 1 => (unfold x; clear x)); (on_goal 2 => (intro hx; clear_value x)))
    | (extract_lets +onlyGivenNames x; clear_value x)
    | (extract_lets +onlyGivenNames x; unfold x; clear x)
    | split)

theorem rangeCheck_same (s : State) (a1 : ℕ) :
    Same 16 s (rangeCheck s a1) := by
  delta rangeCheck
  repeat' (first
    | with_reducible exact Same.refl _ _
    | with_reducible assumption
    | ((with_reducible apply Same.step ?_ (orBits_same _ _ _) ?_); on_goal 1 => rfl)
    | with_reducible apply Same.upto ?_ ?_
    | (extract_lets +onlyGivenNames x; (with_reducible apply Same.cut x ?_ ?_); (on_goal 1 => (unfold x; clear x)); (on_goal 2 => (intro hx; clear_value x)))
    | (extract_lets +onlyGivenNames x; clear_value x)
    | (extract_lets +onlyGivenNames x; unfold x; clear x)
    | intro _
    | split)

theorem raiseAt_same (s : State) (a1 : ℕ) (a2 : ℕ) (a3 : ℕ) (a4 : ℤ) :
    Same 8208 s (raiseAt s a1 a2 a3 a4) := by
  delta raiseAt
  repeat' (first
    | with_reducible exact Same.refl _ _
    | with_reducible assumption
    | ((with_reducible apply Same.step ?_ (fileReport_same _ _ _) ?_); on_goal 1 => rfl)
    | (extract_lets +onlyGivenNames x; (with_reducible apply Same.cut x ?_ ?_); (on_goal 1 => (unfold x; clear x)); (on_goal 2 => (intro hx; clear_value x)))
    | (extract_lets +onlyGivenNames x; clear_value x)
    | (extract_lets +onlyGivenNames x; unfold x; clear x)
    | split)

theorem slowJudge_same (s : State) (a1 : ℕ) (a2 : ℚ) :
    Same 73744 s (slowJudge s a1 a2) := by
  delta slowJudge
  repeat' (first
    | with_reducible exact Same.refl _ _
    | with_reducible assumption
    | ((with_reducible apply Same.step ?_ (raiseAt_same _ _ _ _ _) ?_); on_goal 1 => rfl)
    | ((with_reducible apply Same.step ?_ (clrBits_same _ _ _) ?_); on_goal 1 => rfl)
    | ((with_reducible apply Same.step ?_ (orBits_same _ _ _) ?_); on_goal 1 => rfl)
    | ((with_reducible apply Same.step ?_ (setFod_same _ _ _) ?_); on_goal 1 => rfl)
    | with_reducible apply Same.foldl ?_ ?_
    | (extract_lets +onlyGivenNames x; (with_reducible apply Same.cut x ?_ ?_); (on_goal 1 => (unfold x; clear x)); (on_goal 2 => (intro hx; clear_value x)))
    | (extract_lets +onlyGivenNames x; clear_value x)
    | (extract_lets +onlyGivenNames x; unfold x; clear x)
    | intro _
    | split)

theorem slowCheck_same (s : State) (a1 : ℕ) :
    Same 73744 s (slowCheck s a1) := by
  delta slowCheck
  repeat' (first
    | with_reducible exact Same.refl _ _
    | with_reducible assumption
    | ((with_reducible apply Same.step ?_ (rangeCheck_same _ _) ?_); on_goal 1 => rfl)
    | ((with_reducible apply Same.step ?_ (setFod_same _ _ _) ?_); on_goal 1 => rfl)
    | ((with_reducible apply Same.step ?_ (slowJudge_same _ _ _) ?_); on_goal 1 => rfl)
    | (extract_lets +onlyGivenNames x; (with_reducible apply Same.cut x ?_ ?_); (on_goal 1 => (unfold x; clear x)); (on_goal 2 => (intro hx; clear_value x)))
    | (extract_lets +onlyGivenNames x; clear_value x)
    | (extract_lets +onlyGivenNames x; unfold x; clear x)
    | split)

theorem hopExec_same (s : State) (a1 : ℕ) (a2 : ℕ) (a3 : ℚ) (a4 : Cause) (a5 : ℕ) :
    Same 140754669346832 s (hopExec s a1 a2 a3 a4 a5) := by
  delta hopExec
  repeat' (first
    | with_reducible exact Same.refl _ _
    | with_reducible assumption
    | ((with_reducible apply Same.step ?_ (raiseFod_same _ _ _ _) ?_); on_goal 1 => rfl)
    | ((with_reducible apply Same.step ?_ (orBits_same _ _ _) ?_); on_goal 1 => rfl)
    | ((with_reducible apply Same.step ?_ (swapAtHop_same _ _) ?_); on_goal 1 => rfl)
    | ((with_reducible apply Same.step ?_ (formatCheck_same _ _ _) ?_); on_goal 1 => rfl)
    | ((with_reducible apply Same.step ?_ (slewSettle_same _ _ _) ?_); on_goal 1 => rfl)
    | ((with_reducible apply Same.step ?_ (setFod_same _ _ _) ?_); on_goal 1 => rfl)
    | ((with_reducible apply Same.step ?_ (hwDiv_same _ _ _ _ _ _) ?_); on_goal 1 => rfl)
    | ((with_reducible apply Same.step ?_ (hopMarks_same _ _ _ _ _) ?_); on_goal 1 => rfl)
    | ((with_reducible apply Same.step ?_ (pushRecAt_same _ _ _ _ _ _ _ _ _) ?_); on_goal 1 => rfl)
    | ((with_reducible apply Same.step ?_ (slowCheck_same _ _) ?_); on_goal 1 => rfl)
    | (extract_lets +onlyGivenNames x; (with_reducible apply Same.cut x ?_ ?_); (on_goal 1 => (unfold x; clear x)); (on_goal 2 => (intro hx; clear_value x)))
    | (extract_lets +onlyGivenNames x; clear_value x)
    | (extract_lets +onlyGivenNames x; unfold x; clear x)
    | split)

theorem phaseSlew_same (s : State) (a1 : ℕ) (a2 : ℤ) (a3 : ℚ) (a4 : Cause) (a5 : Option ℕ) :
    Same 140754669346832 s (phaseSlew s a1 a2 a3 a4 a5) := by
  delta phaseSlew
  repeat' (first
    | with_reducible exact Same.refl _ _
    | with_reducible assumption
    | ((with_reducible apply Same.step ?_ (raiseFod_same _ _ _ _) ?_); on_goal 1 => rfl)
    | ((with_reducible apply Same.step ?_ (slewSettle_same _ _ _) ?_); on_goal 1 => rfl)
    | ((with_reducible apply Same.step ?_ (slewEdges_same _ _ _ _ _ _ _ _) ?_); on_goal 1 => rfl)
    | (extract_lets +onlyGivenNames x; (with_reducible apply Same.cut x ?_ ?_); (on_goal 1 => (unfold x; clear x)); (on_goal 2 => (intro hx; clear_value x)))
    | (extract_lets +onlyGivenNames x; clear_value x)
    | (extract_lets +onlyGivenNames x; unfold x; clear x)
    | split)

theorem fodActRun_same (s : State) (a1 : ℕ) (a2 : QAct) (a3 : ℚ) (a4 : Option ℤ) (a5 : Bool) :
    Same 140754669346832 s (fodActRun s a1 a2 a3 a4 a5) := by
  delta fodActRun
  repeat' (first
    | with_reducible exact Same.refl _ _
    | with_reducible assumption
    | ((with_reducible apply Same.step ?_ (phaseStep_same _ _ _ _ _ _) ?_); on_goal 1 => rfl)
    | ((with_reducible apply Same.step ?_ (markAct_same _ _ _ _ _) ?_); on_goal 1 => rfl)
    | ((with_reducible apply Same.step ?_ (actEvents_same _ _ _ _) ?_); on_goal 1 => rfl)
    | ((with_reducible apply Same.step ?_ (bump_same _ _ _) ?_); on_goal 1 => rfl)
    | ((with_reducible apply Same.step ?_ (orBits_same _ _ _) ?_); on_goal 1 => rfl)
    | ((with_reducible apply Same.step ?_ (fodDrop_same _ _ _) ?_); on_goal 1 => rfl)
    | ((with_reducible apply Same.step ?_ (wb_same _ _ _ _ _) ?_); on_goal 1 => rfl)
    | ((with_reducible apply Same.step ?_ (oenOn_same _ _ _ _) ?_); on_goal 1 => rfl)
    | ((with_reducible apply Same.step ?_ (hwWins_same _ _ _) ?_); on_goal 1 => rfl)
    | ((with_reducible apply Same.step ?_ (holdHop_same _ _ _ _ _) ?_); on_goal 1 => rfl)
    | ((with_reducible apply Same.step ?_ (hopRateMark_same _ _ _) ?_); on_goal 1 => rfl)
    | ((with_reducible apply Same.step ?_ (setFod_same _ _ _) ?_); on_goal 1 => rfl)
    | ((with_reducible apply Same.step ?_ (hopExec_same _ _ _ _ _ _) ?_); on_goal 1 => rfl)
    | ((with_reducible apply Same.step ?_ (raise_same _ _ _ _ _ _) ?_); on_goal 1 => rfl)
    | ((with_reducible apply Same.step ?_ (phaseSlew_same _ _ _ _ _ _) ?_); on_goal 1 => rfl)
    | (extract_lets +onlyGivenNames x; (with_reducible apply Same.cut x ?_ ?_); (on_goal 1 => (unfold x; clear x)); (on_goal 2 => (intro hx; clear_value x)))
    | (extract_lets +onlyGivenNames x; (with_reducible apply Same.cutF x ?_ ?_); (on_goal 1 => (unfold x; clear x; intro _ _)); (on_goal 2 => (intro hx; clear_value x)))
    | (extract_lets +onlyGivenNames x; (with_reducible apply Same.cutF1 x ?_ ?_); (on_goal 1 => (unfold x; clear x; intro _)); (on_goal 2 => (intro hx; clear_value x)))
    | (extract_lets +onlyGivenNames x; (with_reducible apply Same.cutG x ?_ ?_); (on_goal 1 => (unfold x; clear x; intro _)); (on_goal 2 => (intro hx; clear_value x)))
    | (extract_lets +onlyGivenNames x; clear_value x)
    | (extract_lets +onlyGivenNames x; unfold x; clear x)
    | intro _
    | split
    | ((with_reducible apply Same.viaF ?_ ?_); on_goal 1 => with_reducible assumption)
    | ((with_reducible apply Same.viaF1 ?_ ?_); on_goal 1 => with_reducible assumption)
    | ((with_reducible apply Same.viaG ?_); on_goal 1 => with_reducible assumption))

theorem dropAct_same (s : State) (a1 : QId) (a2 : QAct) :
    Same 116736 s (dropAct s a1 a2) := by
  delta dropAct
  repeat' (first
    | with_reducible exact Same.refl _ _
    | with_reducible assumption
    | ((with_reducible apply Same.step ?_ (setFod_same _ _ _) ?_); on_goal 1 => rfl)
    | ((with_reducible apply Same.step ?_ (setSc_same _ _ _) ?_); on_goal 1 => rfl)
    | (extract_lets +onlyGivenNames x; (with_reducible apply Same.cut x ?_ ?_); (on_goal 1 => (unfold x; clear x)); (on_goal 2 => (intro hx; clear_value x)))
    | (extract_lets +onlyGivenNames x; clear_value x)
    | (extract_lets +onlyGivenNames x; unfold x; clear x)
    | split
    | ((with_reducible apply Same.put_time ?_ ?_) <;> [rfl; skip])
    | ((with_reducible apply Same.put_snap ?_ ?_) <;> [rfl; skip]))

theorem actRun_same (s : State) (a1 : QId) (a2 : QAct) (a3 : ℚ) (a4 : Option ℤ) (a5 : Bool) :
    Same 140754669398032 s (actRun s a1 a2 a3 a4 a5) := by
  delta actRun
  repeat' (first
    | with_reducible exact Same.refl _ _
    | with_reducible assumption
    | ((with_reducible apply Same.step ?_ (scActRun_same _ _ _ _ _ _) ?_); on_goal 1 => rfl)
    | ((with_reducible apply Same.step ?_ (snapActRun_same _ _ _ _ _) ?_); on_goal 1 => rfl)
    | ((with_reducible apply Same.step ?_ (fodActRun_same _ _ _ _ _ _) ?_); on_goal 1 => rfl)
    | ((with_reducible apply Same.step ?_ (dropAct_same _ _ _) ?_); on_goal 1 => rfl)
    | (extract_lets +onlyGivenNames x; (with_reducible apply Same.cut x ?_ ?_); (on_goal 1 => (unfold x; clear x)); (on_goal 2 => (intro hx; clear_value x)))
    | (extract_lets +onlyGivenNames x; clear_value x)
    | (extract_lets +onlyGivenNames x; unfold x; clear x)
    | split)

theorem ageRetire_same (s : State) (a1 : ℕ) (a2 : Bool) :
    Same 141029650998288 s (ageRetire s a1 a2) := by
  delta ageRetire
  repeat' (first
    | with_reducible exact Same.refl _ _
    | with_reducible assumption
    | ((with_reducible apply Same.step ?_ (retire_same _ _ _) ?_); on_goal 1 => rfl)
    | (extract_lets +onlyGivenNames x; (with_reducible apply Same.cut x ?_ ?_); (on_goal 1 => (unfold x; clear x)); (on_goal 2 => (intro hx; clear_value x)))
    | (extract_lets +onlyGivenNames x; clear_value x)
    | (extract_lets +onlyGivenNames x; unfold x; clear x)
    | split)

theorem alertOff_same (s : State) :
    Same 4398046511104 s (alertOff s) := by
  delta alertOff
  repeat' (first
    | with_reducible exact Same.refl _ _
    | with_reducible assumption
    | (extract_lets +onlyGivenNames x; (with_reducible apply Same.cut x ?_ ?_); (on_goal 1 => (unfold x; clear x)); (on_goal 2 => (intro hx; clear_value x)))
    | (extract_lets +onlyGivenNames x; clear_value x)
    | (extract_lets +onlyGivenNames x; unfold x; clear x)
    | split
    | ((with_reducible apply Same.put_smb ?_ ?_) <;> [rfl; skip]))

theorem trackMove_same (s : State) (a1 : ℕ) (a2 : ℚ) (a3 : ℚ) (a4 : Option ℕ) (a5 : optParam Cause none) :
    Same 140754669346832 s (trackMove s a1 a2 a3 a4 a5) := by
  delta trackMove
  repeat' (first
    | with_reducible exact Same.refl _ _
    | with_reducible assumption
    | ((with_reducible apply Same.step ?_ (slewSettle_same _ _ _) ?_); on_goal 1 => rfl)
    | ((with_reducible apply Same.step ?_ (slewEdges_same _ _ _ _ _ _ _ _) ?_); on_goal 1 => rfl)
    | ((with_reducible apply Same.step ?_ (stepEdges_same _ _ _ _ _ _ _) ?_); on_goal 1 => rfl)
    | (extract_lets +onlyGivenNames x; (with_reducible apply Same.cut x ?_ ?_); (on_goal 1 => (unfold x; clear x)); (on_goal 2 => (intro hx; clear_value x)))
    | (extract_lets +onlyGivenNames x; clear_value x)
    | (extract_lets +onlyGivenNames x; unfold x; clear x)
    | split)

theorem alignMove_same (s : State) (a1 : ℕ) (a2 : ℚ) (a3 : Cause) :
    Same 140754669346832 s (alignMove s a1 a2 a3) := by
  delta alignMove
  repeat' (first
    | with_reducible exact Same.refl _ _
    | with_reducible assumption
    | ((with_reducible apply Same.step ?_ (trackMove_same _ _ _ _ _ _) ?_); on_goal 1 => rfl)
    | ((with_reducible apply Same.step ?_ (slewSettle_same _ _ _) ?_); on_goal 1 => rfl)
    | (extract_lets +onlyGivenNames x; (with_reducible apply Same.cut x ?_ ?_); (on_goal 1 => (unfold x; clear x)); (on_goal 2 => (intro hx; clear_value x)))
    | (extract_lets +onlyGivenNames x; clear_value x)
    | (extract_lets +onlyGivenNames x; unfold x; clear x)
    | split)

theorem alignOff_same (s : State) (a1 : ℕ) :
    Same 65536 s (alignOff s a1) := by
  delta alignOff
  repeat' (first
    | with_reducible exact Same.refl _ _
    | with_reducible assumption
    | ((with_reducible apply Same.step ?_ (setFod_same _ _ _) ?_); on_goal 1 => rfl)
    | (extract_lets +onlyGivenNames x; (with_reducible apply Same.cut x ?_ ?_); (on_goal 1 => (unfold x; clear x)); (on_goal 2 => (intro hx; clear_value x)))
    | (extract_lets +onlyGivenNames x; clear_value x)
    | (extract_lets +onlyGivenNames x; unfold x; clear x)
    | split)

theorem alignTake_same (s : State) :
    Same 17179877392 s (alignTake s) := by
  delta alignTake
  repeat' (first
    | with_reducible exact Same.refl _ _
    | with_reducible assumption
    | ((with_reducible apply Same.step ?_ (wr_same _ _ _) ?_); on_goal 1 => rfl)
    | ((with_reducible apply Same.step ?_ (raise_same _ _ _ _ _ _) ?_); on_goal 1 => rfl)
    | (extract_lets +onlyGivenNames x; (with_reducible apply Same.cut x ?_ ?_); (on_goal 1 => (unfold x; clear x)); (on_goal 2 => (intro hx; clear_value x)))
    | (extract_lets +onlyGivenNames x; clear_value x)
    | (extract_lets +onlyGivenNames x; unfold x; clear x)
    | split
    | ((with_reducible apply Same.put_mate ?_ ?_) <;> [rfl; skip]))

theorem smbEval_same (s : State) :
    Same 4398046511104 s (smbEval s) := by
  delta smbEval
  repeat' (first
    | with_reducible exact Same.refl _ _
    | with_reducible assumption
    | (extract_lets +onlyGivenNames x; (with_reducible apply Same.cut x ?_ ?_); (on_goal 1 => (unfold x; clear x)); (on_goal 2 => (intro hx; clear_value x)))
    | (extract_lets +onlyGivenNames x; clear_value x)
    | (extract_lets +onlyGivenNames x; unfold x; clear x)
    | split
    | ((with_reducible apply Same.put_smb ?_ ?_) <;> [rfl; skip]))

theorem syncWatch_same (s : State) :
    Same 17179877392 s (syncWatch s) := by
  delta syncWatch
  repeat' (first
    | with_reducible exact Same.refl _ _
    | with_reducible assumption
    | ((with_reducible apply Same.step ?_ (raise_same _ _ _ _ _ _) ?_); on_goal 1 => rfl)
    | (extract_lets +onlyGivenNames x; (with_reducible apply Same.cut x ?_ ?_); (on_goal 1 => (unfold x; clear x)); (on_goal 2 => (intro hx; clear_value x)))
    | (extract_lets +onlyGivenNames x; clear_value x)
    | (extract_lets +onlyGivenNames x; unfold x; clear x)
    | split
    | ((with_reducible apply Same.put_mate ?_ ?_) <;> [rfl; skip]))

theorem nrEval_same (s : State) :
    Same 17179869184 s (nrEval s) := by
  delta nrEval
  repeat' (first
    | with_reducible exact Same.refl _ _
    | with_reducible assumption
    | (extract_lets +onlyGivenNames x; (with_reducible apply Same.cut x ?_ ?_); (on_goal 1 => (unfold x; clear x)); (on_goal 2 => (intro hx; clear_value x)))
    | (extract_lets +onlyGivenNames x; clear_value x)
    | (extract_lets +onlyGivenNames x; unfold x; clear x)
    | split
    | ((with_reducible apply Same.put_mate ?_ ?_) <;> [rfl; skip]))

theorem raiseRef_same (s : State) (a1 : ℕ) (a2 : ℕ) :
    Same 8208 s (raiseRef s a1 a2) := by
  delta raiseRef
  repeat' (first
    | with_reducible exact Same.refl _ _
    | with_reducible assumption
    | ((with_reducible apply Same.step ?_ (raise_same _ _ _ _ _ _) ?_); on_goal 1 => rfl)
    | (extract_lets +onlyGivenNames x; (with_reducible apply Same.cut x ?_ ?_); (on_goal 1 => (unfold x; clear x)); (on_goal 2 => (intro hx; clear_value x)))
    | (extract_lets +onlyGivenNames x; clear_value x)
    | (extract_lets +onlyGivenNames x; unfold x; clear x)
    | split)

theorem setRef_same (s : State) (a1 : ℕ) (a2 : Ref) :
    Same 131072 s (setRef s a1 a2) := by
  delta setRef
  repeat' (first
    | with_reducible exact Same.refl _ _
    | with_reducible assumption
    | (extract_lets +onlyGivenNames x; (with_reducible apply Same.cut x ?_ ?_); (on_goal 1 => (unfold x; clear x)); (on_goal 2 => (intro hx; clear_value x)))
    | (extract_lets +onlyGivenNames x; clear_value x)
    | (extract_lets +onlyGivenNames x; unfold x; clear x)
    | split
    | ((with_reducible apply Same.put_refs ?_ ?_) <;> [rfl; skip]))

theorem setRefBit_same (s : State) (a1 : ℕ) (a2 : ℕ) (a3 : Bool) :
    Same 16 s (setRefBit s a1 a2 a3) := by
  delta setRefBit
  repeat' (first
    | with_reducible exact Same.refl _ _
    | with_reducible assumption
    | ((with_reducible apply Same.step ?_ (wb_same _ _ _ _ _) ?_); on_goal 1 => rfl)
    | (extract_lets +onlyGivenNames x; (with_reducible apply Same.cut x ?_ ?_); (on_goal 1 => (unfold x; clear x)); (on_goal 2 => (intro hx; clear_value x)))
    | (extract_lets +onlyGivenNames x; clear_value x)
    | (extract_lets +onlyGivenNames x; unfold x; clear x)
    | split)

theorem qualRun_same (s : State) (a1 : ℕ) (a2 : Bool) :
    Same 131088 s (qualRun s a1 a2) := by
  delta qualRun
  repeat' (first
    | with_reducible exact Same.refl _ _
    | with_reducible assumption
    | ((with_reducible apply Same.step ?_ (setRef_same _ _ _) ?_); on_goal 1 => rfl)
    | ((with_reducible apply Same.step ?_ (setRefBit_same _ _ _ _) ?_); on_goal 1 => rfl)
    | (extract_lets +onlyGivenNames x; (with_reducible apply Same.cut x ?_ ?_); (on_goal 1 => (unfold x; clear x)); (on_goal 2 => (intro hx; clear_value x)))
    | (extract_lets +onlyGivenNames x; clear_value x)
    | (extract_lets +onlyGivenNames x; unfold x; clear x)
    | split)

theorem disqualify_same (s : State) (a1 : ℕ) (a2 : ℕ) :
    Same 139280 s (disqualify s a1 a2) := by
  delta disqualify
  repeat' (first
    | with_reducible exact Same.refl _ _
    | with_reducible assumption
    | ((with_reducible apply Same.step ?_ (raiseRef_same _ _ _) ?_); on_goal 1 => rfl)
    | ((with_reducible apply Same.step ?_ (orBits_same _ _ _) ?_); on_goal 1 => rfl)
    | ((with_reducible apply Same.step ?_ (qualRun_same _ _ _) ?_); on_goal 1 => rfl)
    | ((with_reducible apply Same.step ?_ (setRef_same _ _ _) ?_); on_goal 1 => rfl)
    | ((with_reducible apply Same.step ?_ (bumpM_same _ _ _) ?_); on_goal 1 => rfl)
    | ((with_reducible apply Same.step ?_ (setRefBit_same _ _ _ _) ?_); on_goal 1 => rfl)
    | (extract_lets +onlyGivenNames x; (with_reducible apply Same.cut x ?_ ?_); (on_goal 1 => (unfold x; clear x)); (on_goal 2 => (intro hx; clear_value x)))
    | (extract_lets +onlyGivenNames x; clear_value x)
    | (extract_lets +onlyGivenNames x; unfold x; clear x)
    | split)

theorem refEval_same (s : State) (a1 : ℕ) :
    Same 131088 s (refEval s a1) := by
  delta refEval
  repeat' (first
    | with_reducible exact Same.refl _ _
    | with_reducible assumption
    | ((with_reducible apply Same.step ?_ (qualRun_same _ _ _) ?_); on_goal 1 => rfl)
    | ((with_reducible apply Same.step ?_ (setRefBit_same _ _ _ _) ?_); on_goal 1 => rfl)
    | (extract_lets +onlyGivenNames x; (with_reducible apply Same.cut x ?_ ?_); (on_goal 1 => (unfold x; clear x)); (on_goal 2 => (intro hx; clear_value x)))
    | (extract_lets +onlyGivenNames x; clear_value x)
    | (extract_lets +onlyGivenNames x; unfold x; clear x)
    | split)

theorem setLevel_same (s : State) (a1 : ℕ) (a2 : Monitor) (a3 : Bool) :
    Same 139280 s (setLevel s a1 a2 a3) := by
  delta setLevel
  repeat' (first
    | with_reducible exact Same.refl _ _
    | with_reducible assumption
    | ((with_reducible apply Same.step ?_ (disqualify_same _ _ _) ?_); on_goal 1 => rfl)
    | ((with_reducible apply Same.step ?_ (refEval_same _ _) ?_); on_goal 1 => rfl)
    | ((with_reducible apply Same.step ?_ (setRefBit_same _ _ _ _) ?_); on_goal 1 => rfl)
    | (extract_lets +onlyGivenNames x; (with_reducible apply Same.cut x ?_ ?_); (on_goal 1 => (unfold x; clear x)); (on_goal 2 => (intro hx; clear_value x)))
    | (extract_lets +onlyGivenNames x; clear_value x)
    | (extract_lets +onlyGivenNames x; unfold x; clear x)
    | split)

theorem labelWatch_same (s : State) :
    Same 139280 s (labelWatch s) := by
  delta labelWatch
  repeat' (first
    | with_reducible exact Same.refl _ _
    | with_reducible assumption
    | ((with_reducible apply Same.step ?_ (setLevel_same _ _ _ _) ?_); on_goal 1 => rfl)
    | ((with_reducible apply Same.step ?_ (setRef_same _ _ _) ?_); on_goal 1 => rfl)
    | with_reducible apply Same.upto ?_ ?_
    | (extract_lets +onlyGivenNames x; (with_reducible apply Same.cut x ?_ ?_); (on_goal 1 => (unfold x; clear x)); (on_goal 2 => (intro hx; clear_value x)))
    | (extract_lets +onlyGivenNames x; clear_value x)
    | (extract_lets +onlyGivenNames x; unfold x; clear x)
    | intro _
    | split)

theorem aonAfter_same (s : State) :
    Same 4415226519568 s (aonAfter s) := by
  delta aonAfter
  repeat' (first
    | with_reducible exact Same.refl _ _
    | with_reducible assumption
    | ((with_reducible apply Same.step ?_ (smbEval_same _) ?_); on_goal 1 => rfl)
    | ((with_reducible apply Same.step ?_ (syncWatch_same _) ?_); on_goal 1 => rfl)
    | ((with_reducible apply Same.step ?_ (nrEval_same _) ?_); on_goal 1 => rfl)
    | ((with_reducible apply Same.step ?_ (labelWatch_same _) ?_); on_goal 1 => rfl)
    | (extract_lets +onlyGivenNames x; (with_reducible apply Same.cut x ?_ ?_); (on_goal 1 => (unfold x; clear x)); (on_goal 2 => (intro hx; clear_value x)))
    | (extract_lets +onlyGivenNames x; clear_value x)
    | (extract_lets +onlyGivenNames x; unfold x; clear x)
    | split)

theorem sendWords_same (s : State) :
    Same 140754668224512 s (sendWords s) := by
  delta sendWords
  repeat' (first
    | with_reducible exact Same.refl _ _
    | with_reducible assumption
    | ((with_reducible apply Same.step ?_ (mateSend_same _ _ _) ?_); on_goal 1 => rfl)
    | (extract_lets +onlyGivenNames x; (with_reducible apply Same.cut x ?_ ?_); (on_goal 1 => (unfold x; clear x)); (on_goal 2 => (intro hx; clear_value x)))
    | (extract_lets +onlyGivenNames x; clear_value x)
    | (extract_lets +onlyGivenNames x; unfold x; clear x)
    | split)

theorem pushFlags_same (s : State) :
    Same 2048 s (pushFlags s) := by
  delta pushFlags
  repeat' (first
    | with_reducible exact Same.refl _ _
    | with_reducible assumption
    | (extract_lets +onlyGivenNames x; (with_reducible apply Same.cut x ?_ ?_); (on_goal 1 => (unfold x; clear x)); (on_goal 2 => (intro hx; clear_value x)))
    | (extract_lets +onlyGivenNames x; clear_value x)
    | (extract_lets +onlyGivenNames x; unfold x; clear x)
    | split
    | ((with_reducible apply Same.put_time ?_ ?_) <;> [rfl; skip]))

theorem noteFlags_same (s : State) :
    Same 2048 s (noteFlags s) := by
  delta noteFlags
  repeat' (first
    | with_reducible exact Same.refl _ _
    | with_reducible assumption
    | ((with_reducible apply Same.step ?_ (pushFlags_same _) ?_); on_goal 1 => rfl)
    | (extract_lets +onlyGivenNames x; (with_reducible apply Same.cut x ?_ ?_); (on_goal 1 => (unfold x; clear x)); (on_goal 2 => (intro hx; clear_value x)))
    | (extract_lets +onlyGivenNames x; clear_value x)
    | (extract_lets +onlyGivenNames x; unfold x; clear x)
    | split)

theorem holdoverOff_same (s : State) :
    Same 526352 s (holdoverOff s) := by
  delta holdoverOff
  repeat' (first
    | with_reducible exact Same.refl _ _
    | with_reducible assumption
    | ((with_reducible apply Same.step ?_ (wr_same _ _ _) ?_); on_goal 1 => rfl)
    | ((with_reducible apply Same.step ?_ (noteFlags_same _) ?_); on_goal 1 => rfl)
    | (extract_lets +onlyGivenNames x; (with_reducible apply Same.cut x ?_ ?_); (on_goal 1 => (unfold x; clear x)); (on_goal 2 => (intro hx; clear_value x)))
    | (extract_lets +onlyGivenNames x; clear_value x)
    | (extract_lets +onlyGivenNames x; unfold x; clear x)
    | split
    | ((with_reducible apply Same.put_scr ?_ ?_) <;> [rfl; skip])
    | ((with_reducible apply Same.put_time ?_ ?_) <;> [rfl; skip]))

theorem dpSwitch_same (s : State) (a1 : ℕ) (a2 : Option (ℕ × ℕ)) :
    Same 140754669019152 s (dpSwitch s a1 a2) := by
  delta dpSwitch
  repeat' (first
    | with_reducible exact Same.refl _ _
    | with_reducible assumption
    | ((with_reducible apply Same.step ?_ (orBits_same _ _ _) ?_); on_goal 1 => rfl)
    | ((with_reducible apply Same.step ?_ (setDp_same _ _ _) ?_); on_goal 1 => rfl)
    | ((with_reducible apply Same.step ?_ (bumpM_same _ _ _) ?_); on_goal 1 => rfl)
    | ((with_reducible apply Same.step ?_ (event_same _ _) ?_); on_goal 1 => rfl)
    | ((with_reducible apply Same.step ?_ (wr_same _ _ _) ?_); on_goal 1 => rfl)
    | ((with_reducible apply Same.step ?_ (raise_same _ _ _ _ _ _) ?_); on_goal 1 => rfl)
    | (extract_lets +onlyGivenNames x; (with_reducible apply Same.cut x ?_ ?_); (on_goal 1 => (unfold x; clear x)); (on_goal 2 => (intro hx; clear_value x)))
    | (extract_lets +onlyGivenNames x; clear_value x)
    | (extract_lets +onlyGivenNames x; unfold x; clear x)
    | split
    | ((with_reducible apply Same.put_scr ?_ ?_) <;> [rfl; skip]))

theorem enterFreerun_same (s : State) (a1 : ℕ) :
    Same 262144 s (enterFreerun s a1) := by
  delta enterFreerun
  repeat' (first
    | with_reducible exact Same.refl _ _
    | with_reducible assumption
    | ((with_reducible apply Same.step ?_ (setDp_same _ _ _) ?_); on_goal 1 => rfl)
    | (extract_lets +onlyGivenNames x; (with_reducible apply Same.cut x ?_ ?_); (on_goal 1 => (unfold x; clear x)); (on_goal 2 => (intro hx; clear_value x)))
    | (extract_lets +onlyGivenNames x; clear_value x)
    | (extract_lets +onlyGivenNames x; unfold x; clear x)
    | split)

theorem enterHoldover_same (s : State) (a1 : ℕ) (a2 : Option (ℕ × ℕ)) :
    Same 140754669021202 s (enterHoldover s a1 a2) := by
  delta enterHoldover
  repeat' (first
    | with_reducible exact Same.refl _ _
    | with_reducible assumption
    | ((with_reducible apply Same.step ?_ (orBits_same _ _ _) ?_); on_goal 1 => rfl)
    | ((with_reducible apply Same.step ?_ (wL_same _ _ _ _) ?_); on_goal 1 => rfl)
    | ((with_reducible apply Same.step ?_ (setDp_same _ _ _) ?_); on_goal 1 => rfl)
    | ((with_reducible apply Same.step ?_ (bumpM_same _ _ _) ?_); on_goal 1 => rfl)
    | ((with_reducible apply Same.step ?_ (event_same _ _) ?_); on_goal 1 => rfl)
    | ((with_reducible apply Same.step ?_ (wM_same _ _ _ _) ?_); on_goal 1 => rfl)
    | ((with_reducible apply Same.step ?_ (raise_same _ _ _ _ _ _) ?_); on_goal 1 => rfl)
    | ((with_reducible apply Same.step ?_ (noteFlags_same _) ?_); on_goal 1 => rfl)
    | with_reducible apply Same.foldl ?_ ?_
    | (extract_lets +onlyGivenNames x; (with_reducible apply Same.cut x ?_ ?_); (on_goal 1 => (unfold x; clear x)); (on_goal 2 => (intro hx; clear_value x)))
    | (extract_lets +onlyGivenNames x; clear_value x)
    | (extract_lets +onlyGivenNames x; unfold x; clear x)
    | intro _
    | split
    | ((with_reducible apply Same.put_time ?_ ?_) <;> [rfl; skip])
    | ((with_reducible apply Same.put_free_scr ?_ ?_ ?_) <;> [rfl; rfl; skip]))

theorem dpEval_same (s : State) (a1 : ℕ) :
    Same 140754669021202 s (dpEval s a1) := by
  delta dpEval
  repeat' (first
    | with_reducible exact Same.refl _ _
    | with_reducible assumption
    | ((with_reducible apply Same.step ?_ (holdoverOff_same _) ?_); on_goal 1 => rfl)
    | ((with_reducible apply Same.step ?_ (dpSwitch_same _ _ _) ?_); on_goal 1 => rfl)
    | ((with_reducible apply Same.step ?_ (setDp_same _ _ _) ?_); on_goal 1 => rfl)
    | ((with_reducible apply Same.step ?_ (enterFreerun_same _ _) ?_); on_goal 1 => rfl)
    | ((with_reducible apply Same.step ?_ (event_same _ _) ?_); on_goal 1 => rfl)
    | ((with_reducible apply Same.step ?_ (wr_same _ _ _) ?_); on_goal 1 => rfl)
    | ((with_reducible apply Same.step ?_ (raise_same _ _ _ _ _ _) ?_); on_goal 1 => rfl)
    | ((with_reducible apply Same.step ?_ (enterHoldover_same _ _ _) ?_); on_goal 1 => rfl)
    | (extract_lets +onlyGivenNames x; (with_reducible apply Same.cut x ?_ ?_); (on_goal 1 => (unfold x; clear x)); (on_goal 2 => (intro hx; clear_value x)))
    | (extract_lets +onlyGivenNames x; clear_value x)
    | (extract_lets +onlyGivenNames x; unfold x; clear x)
    | split)

theorem dpPublish_same (s : State) (a1 : ℕ) :
    Same 270352 s (dpPublish s a1) := by
  delta dpPublish
  repeat' (first
    | with_reducible exact Same.refl _ _
    | with_reducible assumption
    | ((with_reducible apply Same.step ?_ (bump_same _ _ _) ?_); on_goal 1 => rfl)
    | ((with_reducible apply Same.step ?_ (setDp_same _ _ _) ?_); on_goal 1 => rfl)
    | ((with_reducible apply Same.step ?_ (wM_same _ _ _ _) ?_); on_goal 1 => rfl)
    | ((with_reducible apply Same.step ?_ (raise_same _ _ _ _ _ _) ?_); on_goal 1 => rfl)
    | (extract_lets +onlyGivenNames x; (with_reducible apply Same.cut x ?_ ?_); (on_goal 1 => (unfold x; clear x)); (on_goal 2 => (intro hx; clear_value x)))
    | (extract_lets +onlyGivenNames x; clear_value x)
    | (extract_lets +onlyGivenNames x; unfold x; clear x)
    | split)

theorem aonDomains_same (s : State) :
    Same 140754669021202 s (aonDomains s) := by
  delta aonDomains
  repeat' (first
    | with_reducible exact Same.refl _ _
    | with_reducible assumption
    | ((with_reducible apply Same.step ?_ (sendWords_same _) ?_); on_goal 1 => rfl)
    | ((with_reducible apply Same.step ?_ (dpEval_same _ _) ?_); on_goal 1 => rfl)
    | ((with_reducible apply Same.step ?_ (dpPublish_same _ _) ?_); on_goal 1 => rfl)
    | with_reducible apply Same.upto ?_ ?_
    | (extract_lets +onlyGivenNames x; (with_reducible apply Same.cut x ?_ ?_); (on_goal 1 => (unfold x; clear x)); (on_goal 2 => (intro hx; clear_value x)))
    | (extract_lets +onlyGivenNames x; clear_value x)
    | (extract_lets +onlyGivenNames x; unfold x; clear x)
    | intro _
    | split)

theorem aonInterp_same (s : State) (a1 : Bool) :
    Same 10256 s (aonInterp s a1) := by
  delta aonInterp
  repeat' (first
    | with_reducible exact Same.refl _ _
    | with_reducible assumption
    | ((with_reducible apply Same.step ?_ (raise_same _ _ _ _ _ _) ?_); on_goal 1 => rfl)
    | (extract_lets +onlyGivenNames x; (with_reducible apply Same.cut x ?_ ?_); (on_goal 1 => (unfold x; clear x)); (on_goal 2 => (intro hx; clear_value x)))
    | (extract_lets +onlyGivenNames x; clear_value x)
    | (extract_lets +onlyGivenNames x; unfold x; clear x)
    | split
    | ((with_reducible apply Same.put_time ?_ ?_) <;> [rfl; skip]))

theorem timeEntry_same (s : State) (a1 : ℕ) (a2 : ℚ) (a3 : ℚ) (a4 : ℚ) (a5 : Option ℕ) :
    Same 140754669346832 s (timeEntry s a1 a2 a3 a4 a5) := by
  delta timeEntry
  repeat' (first
    | with_reducible exact Same.refl _ _
    | with_reducible assumption
    | ((with_reducible apply Same.step ?_ (setFod_same _ _ _) ?_); on_goal 1 => rfl)
    | ((with_reducible apply Same.step ?_ (pushRec_same _ _ _ _ _ _ _ _) ?_); on_goal 1 => rfl)
    | ((with_reducible apply Same.step ?_ (leadMiss_same _ _ _ _ _) ?_); on_goal 1 => rfl)
    | (extract_lets +onlyGivenNames x; (with_reducible apply Same.cut x ?_ ?_); (on_goal 1 => (unfold x; clear x)); (on_goal 2 => (intro hx; clear_value x)))
    | (extract_lets +onlyGivenNames x; clear_value x)
    | (extract_lets +onlyGivenNames x; unfold x; clear x)
    | split)

theorem rateEntries_same (s : State) (a1 : List (ℕ × ℚ)) (a2 : Option ℕ) :
    Same 140754669346832 s (rateEntries s a1 a2) := by
  delta rateEntries
  repeat' (first
    | with_reducible exact Same.refl _ _
    | with_reducible assumption
    | ((with_reducible apply Same.step ?_ (timeEntry_same _ _ _ _ _ _) ?_); on_goal 1 => rfl)
    | with_reducible apply Same.foldl ?_ ?_
    | (extract_lets +onlyGivenNames x; (with_reducible apply Same.cut x ?_ ?_); (on_goal 1 => (unfold x; clear x)); (on_goal 2 => (intro hx; clear_value x)))
    | (extract_lets +onlyGivenNames x; clear_value x)
    | (extract_lets +onlyGivenNames x; unfold x; clear x)
    | intro _
    | split)

theorem slewAdd_same (s : State) (a1 : ℤ) (a2 : Option ℕ) :
    Same 10256 s (slewAdd s a1 a2) := by
  delta slewAdd
  repeat' (first
    | with_reducible exact Same.refl _ _
    | with_reducible assumption
    | ((with_reducible apply Same.step ?_ (raise_same _ _ _ _ _ _) ?_); on_goal 1 => rfl)
    | (extract_lets +onlyGivenNames x; (with_reducible apply Same.cut x ?_ ?_); (on_goal 1 => (unfold x; clear x)); (on_goal 2 => (intro hx; clear_value x)))
    | (extract_lets +onlyGivenNames x; clear_value x)
    | (extract_lets +onlyGivenNames x; unfold x; clear x)
    | split
    | ((with_reducible apply Same.put_time ?_ ?_) <;> [rfl; skip]))

theorem flushQueues_same (s : State) :
    Same 124944 s (flushQueues s) := by
  delta flushQueues
  repeat' (first
    | with_reducible exact Same.refl _ _
    | with_reducible assumption
    | ((with_reducible apply Same.step ?_ (bump_same _ _ _) ?_); on_goal 1 => rfl)
    | ((with_reducible apply Same.step ?_ (orBits_same _ _ _) ?_); on_goal 1 => rfl)
    | ((with_reducible apply Same.step ?_ (setFod_same _ _ _) ?_); on_goal 1 => rfl)
    | ((with_reducible apply Same.step ?_ (raise_same _ _ _ _ _ _) ?_); on_goal 1 => rfl)
    | ((with_reducible apply Same.step ?_ (setSc_same _ _ _) ?_); on_goal 1 => rfl)
    | with_reducible apply Same.foldl ?_ ?_
    | (extract_lets +onlyGivenNames x; (with_reducible apply Same.cut x ?_ ?_); (on_goal 1 => (unfold x; clear x)); (on_goal 2 => (intro hx; clear_value x)))
    | (extract_lets +onlyGivenNames x; clear_value x)
    | (extract_lets +onlyGivenNames x; unfold x; clear x)
    | intro _
    | split
    | ((with_reducible apply Same.put_time ?_ ?_) <;> [rfl; skip])
    | ((with_reducible apply Same.put_snap ?_ ?_) <;> [rfl; skip]))

theorem holdAct_same (s : State) (a1 : QId) (a2 : QAct) (a3 : Bool) :
    Same 32768 s (holdAct s a1 a2 a3) := by
  delta holdAct
  repeat' (first
    | with_reducible exact Same.refl _ _
    | with_reducible assumption
    | ((with_reducible apply Same.step ?_ (setSc_same _ _ _) ?_); on_goal 1 => rfl)
    | (extract_lets +onlyGivenNames x; (with_reducible apply Same.cut x ?_ ?_); (on_goal 1 => (unfold x; clear x)); (on_goal 2 => (intro hx; clear_value x)))
    | (extract_lets +onlyGivenNames x; clear_value x)
    | (extract_lets +onlyGivenNames x; unfold x; clear x)
    | split)

theorem steppedActs_same (s : State) (a1 : ℚ) (a2 : ℤ) :
    Same 140754669398032 s (steppedActs s a1 a2) := by
  delta steppedActs
  repeat' (first
    | with_reducible exact Same.refl _ _
    | with_reducible assumption
    | ((with_reducible apply Same.step ?_ (holdAct_same _ _ _ _) ?_); on_goal 1 => rfl)
    | ((with_reducible apply Same.step ?_ (actRun_same _ _ _ _ _ _) ?_); on_goal 1 => rfl)
    | with_reducible apply Same.foldl ?_ ?_
    | (extract_lets +onlyGivenNames x; (with_reducible apply Same.cut x ?_ ?_); (on_goal 1 => (unfold x; clear x)); (on_goal 2 => (intro hx; clear_value x)))
    | (extract_lets +onlyGivenNames x; clear_value x)
    | (extract_lets +onlyGivenNames x; unfold x; clear x)
    | intro _
    | split)

theorem ownStep_same (s : State) (a1 : ℤ) :
    Same 262144 s (ownStep s a1) := by
  delta ownStep
  repeat' (first
    | with_reducible exact Same.refl _ _
    | with_reducible assumption
    | ((with_reducible apply Same.step ?_ (setDp_same _ _ _) ?_); on_goal 1 => rfl)
    | (extract_lets +onlyGivenNames x; (with_reducible apply Same.cut x ?_ ?_); (on_goal 1 => (unfold x; clear x)); (on_goal 2 => (intro hx; clear_value x)))
    | (extract_lets +onlyGivenNames x; clear_value x)
    | (extract_lets +onlyGivenNames x; unfold x; clear x)
    | split)

theorem timeActRun_same (s : State) (a1 : QAct) (a2 : Bool) :
    Same 10256 s (timeActRun s a1 a2) := by
  delta timeActRun
  repeat' (first
    | with_reducible exact Same.refl _ _
    | with_reducible assumption
    | ((with_reducible apply Same.step ?_ (slewAdd_same _ _ _) ?_); on_goal 1 => rfl)
    | ((with_reducible apply Same.step ?_ (actEvents_same _ _ _ _) ?_); on_goal 1 => rfl)
    | ((with_reducible apply Same.step ?_ (orBits_same _ _ _) ?_); on_goal 1 => rfl)
    | ((with_reducible apply Same.step ?_ (wL_same _ _ _ _) ?_); on_goal 1 => rfl)
    | ((with_reducible apply Same.step ?_ (wr_same _ _ _) ?_); on_goal 1 => rfl)
    | ((with_reducible apply Same.step ?_ (raise_same _ _ _ _ _ _) ?_); on_goal 1 => rfl)
    | (extract_lets +onlyGivenNames x; (with_reducible apply Same.cut x ?_ ?_); (on_goal 1 => (unfold x; clear x)); (on_goal 2 => (intro hx; clear_value x)))
    | (extract_lets +onlyGivenNames x; clear_value x)
    | (extract_lets +onlyGivenNames x; unfold x; clear x)
    | split
    | ((with_reducible apply Same.put_time ?_ ?_) <;> [rfl; skip]))

theorem shiftTimes_same (s : State) (a1 : ℚ) :
    Same 2491082063872 s (shiftTimes s a1) := by
  delta shiftTimes
  repeat' (first
    | with_reducible exact Same.refl _ _
    | with_reducible assumption
    | (extract_lets +onlyGivenNames x; (with_reducible apply Same.cut x ?_ ?_); (on_goal 1 => (unfold x; clear x)); (on_goal 2 => (intro hx; clear_value x)))
    | (extract_lets +onlyGivenNames x; clear_value x)
    | (extract_lets +onlyGivenNames x; unfold x; clear x)
    | split
    | ((with_reducible apply Same.put_snap_scs_fods_refs_dps_scr_mate_dmas_pwr ?_ ?_ ?_ ?_ ?_ ?_ ?_ ?_ ?_ ?_) <;> [rfl; rfl; rfl; rfl; rfl; rfl; rfl; rfl; rfl; skip]))

theorem hopUnhold_same (s : State) (a1 : ℕ) (a2 : ℚ) :
    Same 65536 s (hopUnhold s a1 a2) := by
  delta hopUnhold
  repeat' (first
    | with_reducible exact Same.refl _ _
    | with_reducible assumption
    | ((with_reducible apply Same.step ?_ (setFod_same _ _ _) ?_); on_goal 1 => rfl)
    | (extract_lets +onlyGivenNames x; (with_reducible apply Same.cut x ?_ ?_); (on_goal 1 => (unfold x; clear x)); (on_goal 2 => (intro hx; clear_value x)))
    | (extract_lets +onlyGivenNames x; clear_value x)
    | (extract_lets +onlyGivenNames x; unfold x; clear x)
    | split)

theorem unholdAll_same (s : State) :
    Same 98304 s (unholdAll s) := by
  delta unholdAll
  repeat' (first
    | with_reducible exact Same.refl _ _
    | with_reducible assumption
    | ((with_reducible apply Same.step ?_ (hopUnhold_same _ _ _) ?_); on_goal 1 => rfl)
    | with_reducible apply Same.foldl ?_ ?_
    | (extract_lets +onlyGivenNames x; (with_reducible apply Same.cut x ?_ ?_); (on_goal 1 => (unfold x; clear x)); (on_goal 2 => (intro hx; clear_value x)))
    | (extract_lets +onlyGivenNames x; clear_value x)
    | (extract_lets +onlyGivenNames x; unfold x; clear x)
    | intro _
    | split
    | ((with_reducible apply Same.put_scs ?_ ?_) <;> [rfl; skip]))

theorem plainJump_same (s : State) (a1 : ℕ) (a2 : List (ℕ × ℚ)) (a3 : Option ℕ) :
    Same 143228571478032 s (plainJump s a1 a2 a3) := by
  delta plainJump
  repeat' (first
    | with_reducible exact Same.refl _ _
    | with_reducible assumption
    | ((with_reducible apply Same.step ?_ (bump_same _ _ _) ?_); on_goal 1 => rfl)
    | ((with_reducible apply Same.step ?_ (shiftTimes_same _ _) ?_); on_goal 1 => rfl)
    | ((with_reducible apply Same.step ?_ (trackMove_same _ _ _ _ _ _) ?_); on_goal 1 => rfl)
    | ((with_reducible apply Same.step ?_ (timeEntry_same _ _ _ _ _ _) ?_); on_goal 1 => rfl)
    | ((with_reducible apply Same.step ?_ (pushFlags_same _) ?_); on_goal 1 => rfl)
    | ((with_reducible apply Same.step ?_ (event_same _ _) ?_); on_goal 1 => rfl)
    | ((with_reducible apply Same.step ?_ (unholdAll_same _) ?_); on_goal 1 => rfl)
    | with_reducible apply Same.foldl ?_ ?_
    | (extract_lets +onlyGivenNames x; (with_reducible apply Same.cut x ?_ ?_); (on_goal 1 => (unfold x; clear x)); (on_goal 2 => (intro hx; clear_value x)))
    | (extract_lets +onlyGivenNames x; clear_value x)
    | (extract_lets +onlyGivenNames x; unfold x; clear x)
    | intro _
    | split
    | ((with_reducible apply Same.put_time ?_ ?_) <;> [rfl; skip]))

theorem rateSet_same (s : State) :
    Same 10256 s (rateSet s).1 := by
  delta rateSet
  repeat' (first
    | with_reducible exact Same.refl _ _
    | with_reducible assumption
    | ((with_reducible apply Same.step ?_ (orBits_same _ _ _) ?_); on_goal 1 => rfl)
    | ((with_reducible apply Same.step ?_ (raise_same _ _ _ _ _ _) ?_); on_goal 1 => rfl)
    | (extract_lets +onlyGivenNames x; (with_reducible apply Same.cut x ?_ ?_); (on_goal 1 => (unfold x; clear x)); (on_goal 2 => (intro hx; clear_value x)))
    | (extract_lets +onlyGivenNames x; clear_value x)
    | (extract_lets +onlyGivenNames x; unfold x; clear x)
    | split
    | ((with_reducible apply Same.put_time ?_ ?_) <;> [rfl; skip]))

theorem timeChange_same (s : State) (a1 : List (ℕ × ℚ)) :
    Same 143228571478032 s (timeChange s a1) := by
  delta timeChange
  repeat' (first
    | with_reducible exact Same.refl _ _
    | with_reducible assumption
    | ((with_reducible apply Same.step ?_ (rateEntries_same _ _ _) ?_); on_goal 1 => rfl)
    | ((with_reducible apply Same.step ?_ (slewAdd_same _ _ _) ?_); on_goal 1 => rfl)
    | ((with_reducible apply Same.step ?_ (bump_same _ _ _) ?_); on_goal 1 => rfl)
    | ((with_reducible apply Same.step ?_ (flushQueues_same _) ?_); on_goal 1 => rfl)
    | ((with_reducible apply Same.step ?_ (steppedActs_same _ _ _) ?_); on_goal 1 => rfl)
    | ((with_reducible apply Same.step ?_ (setDp_same _ _ _) ?_); on_goal 1 => rfl)
    | ((with_reducible apply Same.step ?_ (ownStep_same _ _) ?_); on_goal 1 => rfl)
    | ((with_reducible apply Same.step ?_ (dropAct_same _ _ _) ?_); on_goal 1 => rfl)
    | ((with_reducible apply Same.step ?_ (timeActRun_same _ _ _) ?_); on_goal 1 => rfl)
    | ((with_reducible apply Same.step ?_ (raise_same _ _ _ _ _ _) ?_); on_goal 1 => rfl)
    | ((with_reducible apply Same.step ?_ (plainJump_same _ _ _ _) ?_); on_goal 1 => rfl)
    | ((with_reducible apply Same.step ?_ (rateSet_same _) ?_); on_goal 1 => rfl)
    | with_reducible apply Same.foldl ?_ ?_
    | (extract_lets +onlyGivenNames x; (with_reducible apply Same.cut x ?_ ?_); (on_goal 1 => (unfold x; clear x)); (on_goal 2 => (intro hx; clear_value x)))
    | (extract_lets +onlyGivenNames x; (with_reducible apply Same.cut x.1 ?_ ?_); (on_goal 1 => (unfold x; clear x)); (on_goal 2 => (intro hx; clear_value x)))
    | (extract_lets +onlyGivenNames x; clear_value x)
    | (extract_lets +onlyGivenNames x; unfold x; clear x)
    | intro _
    | with_reducible refine Same.ofFst (by assumption) ?_
    | split
    | ((with_reducible apply Same.put_time ?_ ?_) <;> [rfl; skip]))

theorem aonRate_same (s : State) (a1 : List (ℕ × ℚ)) :
    Same 143228571478032 s (aonRate s a1) := by
  delta aonRate
  repeat' (first
    | with_reducible exact Same.refl _ _
    | with_reducible assumption
    | ((with_reducible apply Same.step ?_ (timeChange_same _ _) ?_); on_goal 1 => rfl)
    | (extract_lets +onlyGivenNames x; (with_reducible apply Same.cut x ?_ ?_); (on_goal 1 => (unfold x; clear x)); (on_goal 2 => (intro hx; clear_value x)))
    | (extract_lets +onlyGivenNames x; clear_value x)
    | (extract_lets +onlyGivenNames x; unfold x; clear x)
    | split)

theorem sendOwn_same (s : State) (a1 : ℕ) (a2 : ℕ) (a3 : ℕ) :
    Same 140754668224512 s (sendOwn s a1 a2 a3) := by
  delta sendOwn
  repeat' (first
    | with_reducible exact Same.refl _ _
    | with_reducible assumption
    | ((with_reducible apply Same.step ?_ (emit_same _ _) ?_); on_goal 1 => rfl)
    | (extract_lets +onlyGivenNames x; (with_reducible apply Same.cut x ?_ ?_); (on_goal 1 => (unfold x; clear x)); (on_goal 2 => (intro hx; clear_value x)))
    | (extract_lets +onlyGivenNames x; clear_value x)
    | (extract_lets +onlyGivenNames x; unfold x; clear x)
    | split
    | ((with_reducible apply Same.put_mate ?_ ?_) <;> [rfl; skip]))

theorem sendGroup_same (s : State) (a1 : ℕ) :
    Same 140754668224512 s (sendGroup s a1) := by
  delta sendGroup
  repeat' (first
    | with_reducible exact Same.refl _ _
    | with_reducible assumption
    | ((with_reducible apply Same.step ?_ (sendOwn_same _ _ _ _) ?_); on_goal 1 => rfl)
    | (extract_lets +onlyGivenNames x; (with_reducible apply Same.cut x ?_ ?_); (on_goal 1 => (unfold x; clear x)); (on_goal 2 => (intro hx; clear_value x)))
    | (extract_lets +onlyGivenNames x; clear_value x)
    | (extract_lets +onlyGivenNames x; unfold x; clear x)
    | split)

theorem setOwner_same (s : State) (a1 : ℕ) (a2 : Bool) :
    Same 16 s (setOwner s a1 a2) := by
  delta setOwner
  repeat' (first
    | with_reducible exact Same.refl _ _
    | with_reducible assumption
    | ((with_reducible apply Same.step ?_ (wb_same _ _ _ _ _) ?_); on_goal 1 => rfl)
    | (extract_lets +onlyGivenNames x; (with_reducible apply Same.cut x ?_ ?_); (on_goal 1 => (unfold x; clear x)); (on_goal 2 => (intro hx; clear_value x)))
    | (extract_lets +onlyGivenNames x; clear_value x)
    | (extract_lets +onlyGivenNames x; unfold x; clear x)
    | split)

theorem movePorts_same (s : State) (a1 : List ℕ) (a2 : Bool) :
    Same 140754668224528 s (movePorts s a1 a2) := by
  delta movePorts
  repeat' (first
    | with_reducible exact Same.refl _ _
    | with_reducible assumption
    | ((with_reducible apply Same.step ?_ (sendGroup_same _ _) ?_); on_goal 1 => rfl)
    | ((with_reducible apply Same.step ?_ (setOwner_same _ _ _) ?_); on_goal 1 => rfl)
    | with_reducible apply Same.foldl ?_ ?_
    | (extract_lets +onlyGivenNames x; (with_reducible apply Same.cut x ?_ ?_); (on_goal 1 => (unfold x; clear x)); (on_goal 2 => (intro hx; clear_value x)))
    | (extract_lets +onlyGivenNames x; clear_value x)
    | (extract_lets +onlyGivenNames x; unfold x; clear x)
    | intro _
    | split)

theorem ownAll_same (s : State) :
    Same 140754668224528 s (ownAll s) := by
  delta ownAll
  repeat' (first
    | with_reducible exact Same.refl _ _
    | with_reducible assumption
    | ((with_reducible apply Same.step ?_ (movePorts_same _ _ _) ?_); on_goal 1 => rfl)
    | ((with_reducible apply Same.step ?_ (wr_same _ _ _) ?_); on_goal 1 => rfl)
    | ((with_reducible apply Same.step ?_ (sendOwn_same _ _ _ _) ?_); on_goal 1 => rfl)
    | with_reducible apply Same.upto ?_ ?_
    | (extract_lets +onlyGivenNames x; (with_reducible apply Same.cut x ?_ ?_); (on_goal 1 => (unfold x; clear x)); (on_goal 2 => (intro hx; clear_value x)))
    | (extract_lets +onlyGivenNames x; clear_value x)
    | (extract_lets +onlyGivenNames x; unfold x; clear x)
    | intro _
    | split
    | ((with_reducible apply Same.put_mate ?_ ?_) <;> [rfl; skip]))

theorem roleRefs_same (s : State) :
    Same 131088 s (roleRefs s) := by
  delta roleRefs
  repeat' (first
    | with_reducible exact Same.refl _ _
    | with_reducible assumption
    | ((with_reducible apply Same.step ?_ (qualRun_same _ _ _) ?_); on_goal 1 => rfl)
    | ((with_reducible apply Same.step ?_ (setRefBit_same _ _ _ _) ?_); on_goal 1 => rfl)
    | with_reducible apply Same.foldl ?_ ?_
    | (extract_lets +onlyGivenNames x; (with_reducible apply Same.cut x ?_ ?_); (on_goal 1 => (unfold x; clear x)); (on_goal 2 => (intro hx; clear_value x)))
    | (extract_lets +onlyGivenNames x; clear_value x)
    | (extract_lets +onlyGivenNames x; unfold x; clear x)
    | intro _
    | split)

theorem lineEval_same (s : State) :
    Same 17179869184 s (lineEval s) := by
  delta lineEval
  repeat' (first
    | with_reducible exact Same.refl _ _
    | with_reducible assumption
    | (extract_lets +onlyGivenNames x; (with_reducible apply Same.cut x ?_ ?_); (on_goal 1 => (unfold x; clear x)); (on_goal 2 => (intro hx; clear_value x)))
    | (extract_lets +onlyGivenNames x; clear_value x)
    | (extract_lets +onlyGivenNames x; unfold x; clear x)
    | split
    | ((with_reducible apply Same.put_mate ?_ ?_) <;> [rfl; skip]))

theorem roleWords_same (s : State) :
    Same 262144 s (roleWords s) := by
  delta roleWords
  repeat' (first
    | with_reducible exact Same.refl _ _
    | with_reducible assumption
    | ((with_reducible apply Same.step ?_ (setDp_same _ _ _) ?_); on_goal 1 => rfl)
    | with_reducible apply Same.upto ?_ ?_
    | (extract_lets +onlyGivenNames x; (with_reducible apply Same.cut x ?_ ?_); (on_goal 1 => (unfold x; clear x)); (on_goal 2 => (intro hx; clear_value x)))
    | (extract_lets +onlyGivenNames x; clear_value x)
    | (extract_lets +onlyGivenNames x; unfold x; clear x)
    | intro _
    | split)

theorem roleChange_same (s : State) (a1 : Bool) :
    Same 140758963593232 s (roleChange s a1) := by
  delta roleChange
  repeat' (first
    | with_reducible exact Same.refl _ _
    | with_reducible assumption
    | ((with_reducible apply Same.step ?_ (orBits_same _ _ _) ?_); on_goal 1 => rfl)
    | ((with_reducible apply Same.step ?_ (event_same _ _) ?_); on_goal 1 => rfl)
    | ((with_reducible apply Same.step ?_ (roleRefs_same _) ?_); on_goal 1 => rfl)
    | ((with_reducible apply Same.step ?_ (lineEval_same _) ?_); on_goal 1 => rfl)
    | ((with_reducible apply Same.step ?_ (roleWords_same _) ?_); on_goal 1 => rfl)
    | (extract_lets +onlyGivenNames x; (with_reducible apply Same.cut x ?_ ?_); (on_goal 1 => (unfold x; clear x)); (on_goal 2 => (intro hx; clear_value x)))
    | (extract_lets +onlyGivenNames x; clear_value x)
    | (extract_lets +onlyGivenNames x; unfold x; clear x)
    | split
    | ((with_reducible apply Same.put_standby_mate ?_ ?_ ?_) <;> [rfl; rfl; skip]))

theorem portGain_same (s : State) (a1 : ℕ) :
    Same 18 s (portGain s a1) := by
  delta portGain
  repeat' (first
    | with_reducible exact Same.refl _ _
    | with_reducible assumption
    | ((with_reducible apply Same.step ?_ (orBits_same _ _ _) ?_); on_goal 1 => rfl)
    | (extract_lets +onlyGivenNames x; (with_reducible apply Same.cut x ?_ ?_); (on_goal 1 => (unfold x; clear x)); (on_goal 2 => (intro hx; clear_value x)))
    | (extract_lets +onlyGivenNames x; clear_value x)
    | (extract_lets +onlyGivenNames x; unfold x; clear x)
    | split
    | ((with_reducible apply Same.put_free ?_ ?_) <;> [rfl; skip]))

theorem stoppedLost_same (s : State) (a1 : List ℕ) :
    Same 18 s (stoppedLost s a1) := by
  delta stoppedLost
  repeat' (first
    | with_reducible exact Same.refl _ _
    | with_reducible assumption
    | ((with_reducible apply Same.step ?_ (portGain_same _ _) ?_); on_goal 1 => rfl)
    | with_reducible apply Same.foldl ?_ ?_
    | (extract_lets +onlyGivenNames x; (with_reducible apply Same.cut x ?_ ?_); (on_goal 1 => (unfold x; clear x)); (on_goal 2 => (intro hx; clear_value x)))
    | (extract_lets +onlyGivenNames x; clear_value x)
    | (extract_lets +onlyGivenNames x; unfold x; clear x)
    | intro _
    | split)

theorem darkEval_same (s : State) (a1 : ℕ) :
    Same 65536 s (darkEval s a1) := by
  delta darkEval
  repeat' (first
    | with_reducible exact Same.refl _ _
    | with_reducible assumption
    | ((with_reducible apply Same.step ?_ (setFod_same _ _ _) ?_); on_goal 1 => rfl)
    | (extract_lets +onlyGivenNames x; (with_reducible apply Same.cut x ?_ ?_); (on_goal 1 => (unfold x; clear x)); (on_goal 2 => (intro hx; clear_value x)))
    | (extract_lets +onlyGivenNames x; clear_value x)
    | (extract_lets +onlyGivenNames x; unfold x; clear x)
    | split)

theorem mateEval_same (s : State) :
    Same 140763258224658 s (mateEval s) := by
  delta mateEval
  repeat' (first
    | with_reducible exact Same.refl _ _
    | with_reducible assumption
    | ((with_reducible apply Same.step ?_ (stoppedLost_same _ _) ?_); on_goal 1 => rfl)
    | ((with_reducible apply Same.step ?_ (setFod_same _ _ _) ?_); on_goal 1 => rfl)
    | ((with_reducible apply Same.step ?_ (movePorts_same _ _ _) ?_); on_goal 1 => rfl)
    | ((with_reducible apply Same.step ?_ (darkEval_same _ _) ?_); on_goal 1 => rfl)
    | with_reducible apply Same.foldl ?_ ?_
    | (extract_lets +onlyGivenNames x; (with_reducible apply Same.cut x ?_ ?_); (on_goal 1 => (unfold x; clear x)); (on_goal 2 => (intro hx; clear_value x)))
    | (extract_lets +onlyGivenNames x; clear_value x)
    | (extract_lets +onlyGivenNames x; unfold x; clear x)
    | intro _
    | split
    | ((with_reducible apply Same.put_mateReady ?_ ?_) <;> [rfl; skip])
    | ((with_reducible apply Same.put_mate ?_ ?_) <;> [rfl; skip]))

theorem calStops_same (s : State) (a1 : ℕ) :
    Same 140806207832064 s (calStops s a1) := by
  delta calStops
  repeat' (first
    | with_reducible exact Same.refl _ _
    | with_reducible assumption
    | ((with_reducible apply Same.step ?_ (calReq_same _ _ _ _) ?_); on_goal 1 => rfl)
    | with_reducible apply Same.foldl ?_ ?_
    | (extract_lets +onlyGivenNames x; (with_reducible apply Same.cut x ?_ ?_); (on_goal 1 => (unfold x; clear x)); (on_goal 2 => (intro hx; clear_value x)))
    | (extract_lets +onlyGivenNames x; clear_value x)
    | (extract_lets +onlyGivenNames x; unfold x; clear x)
    | intro _
    | split
    | ((with_reducible apply Same.put_cal ?_ ?_) <;> [rfl; skip]))

theorem takeRole_same (s : State) :
    Same 140836273070098 s (takeRole s) := by
  have h : Same 140836273070098 s (upto 16 calStops (roleChange s false)) := by
    refine Same.upto ?_ (Same.step (by rfl) (roleChange_same _ _) (Same.refl _ _))
    intro x i
    exact Same.step (by rfl) (calStops_same _ _) (Same.refl _ _)
  have h : Same 140836273070098 s { upto 16 calStops (roleChange s false) with
      mate := { (upto 16 calStops (roleChange s false)).mate with ownDue := true } } := Same.put_mate (by rfl) h
  refine Same.step (by rfl) (mateEval_same _) ?_
  split
  · exact Same.step (by rfl) (ownAll_same _) h
  · exact h

theorem becomeActive_same (s : State) :
    Same 140836273070098 s (becomeActive s) := by
  delta becomeActive
  repeat' (first
    | with_reducible exact Same.refl _ _
    | with_reducible assumption
    | ((with_reducible apply Same.step ?_ (bump_same _ _ _) ?_); on_goal 1 => rfl)
    | ((with_reducible apply Same.step ?_ (takeRole_same _) ?_); on_goal 1 => rfl)
    | ((with_reducible apply Same.step ?_ (stoppedLost_same _ _) ?_); on_goal 1 => rfl)
    | (extract_lets +onlyGivenNames x; (with_reducible apply Same.cut x ?_ ?_); (on_goal 1 => (unfold x; clear x)); (on_goal 2 => (intro hx; clear_value x)))
    | (extract_lets +onlyGivenNames x; clear_value x)
    | (extract_lets +onlyGivenNames x; unfold x; clear x)
    | split)

theorem mailboxTake_same (s : State) (a1 : List (ℕ × Byte)) :
    Same 1024 s (mailboxTake s a1) := by
  delta mailboxTake
  repeat' (first
    | with_reducible exact Same.refl _ _
    | with_reducible assumption
    | ((with_reducible apply Same.step ?_ (setMb_same _ _ _) ?_); on_goal 1 => rfl)
    | with_reducible apply Same.foldl ?_ ?_
    | (extract_lets +onlyGivenNames x; (with_reducible apply Same.cut x ?_ ?_); (on_goal 1 => (unfold x; clear x)); (on_goal 2 => (intro hx; clear_value x)))
    | (extract_lets +onlyGivenNames x; clear_value x)
    | (extract_lets +onlyGivenNames x; unfold x; clear x)
    | intro _
    | split
    | ((with_reducible apply Same.put_mem ?_ ?_) <;> [rfl; skip]))

theorem claimRole_same (s : State) :
    Same 140836273071122 s (claimRole s) := by
  delta claimRole
  repeat' (first
    | with_reducible exact Same.refl _ _
    | with_reducible assumption
    | ((with_reducible apply Same.step ?_ (bump_same _ _ _) ?_); on_goal 1 => rfl)
    | ((with_reducible apply Same.step ?_ (setDp_same _ _ _) ?_); on_goal 1 => rfl)
    | ((with_reducible apply Same.step ?_ (becomeActive_same _) ?_); on_goal 1 => rfl)
    | ((with_reducible apply Same.step ?_ (mailboxTake_same _ _) ?_); on_goal 1 => rfl)
    | (extract_lets +onlyGivenNames x; (with_reducible apply Same.cut x ?_ ?_); (on_goal 1 => (unfold x; clear x)); (on_goal 2 => (intro hx; clear_value x)))
    | (extract_lets +onlyGivenNames x; clear_value x)
    | (extract_lets +onlyGivenNames x; unfold x; clear x)
    | split
    | ((with_reducible apply Same.put_mate ?_ ?_) <;> [rfl; skip]))

theorem claimAtOnce_same (s : State) :
    Same 140836273071122 s (claimAtOnce s) := by
  delta claimAtOnce
  repeat' (first
    | with_reducible exact Same.refl _ _
    | with_reducible assumption
    | ((with_reducible apply Same.step ?_ (claimRole_same _) ?_); on_goal 1 => rfl)
    | (extract_lets +onlyGivenNames x; (with_reducible apply Same.cut x ?_ ?_); (on_goal 1 => (unfold x; clear x)); (on_goal 2 => (intro hx; clear_value x)))
    | (extract_lets +onlyGivenNames x; clear_value x)
    | (extract_lets +onlyGivenNames x; unfold x; clear x)
    | split)

theorem drainFaults_same (s : State) :
    Same 141029613249552 s (drainFaults s) := by
  delta drainFaults
  repeat' (first
    | with_reducible exact Same.refl _ _
    | with_reducible assumption
    | ((with_reducible apply Same.step ?_ (ringPresent_same _ _ _ _) ?_); on_goal 1 => rfl)
    | with_reducible apply Same.foldl ?_ ?_
    | (extract_lets +onlyGivenNames x; (with_reducible apply Same.cut x ?_ ?_); (on_goal 1 => (unfold x; clear x)); (on_goal 2 => (intro hx; clear_value x)))
    | (extract_lets +onlyGivenNames x; (with_reducible apply Same.cut x.1 ?_ ?_); (on_goal 1 => (unfold x; clear x)); (on_goal 2 => (intro hx; clear_value x)))
    | (extract_lets +onlyGivenNames x; clear_value x)
    | (extract_lets +onlyGivenNames x; unfold x; clear x)
    | intro _
    | with_reducible refine Same.ofFst (by assumption) ?_
    | split
    | ((with_reducible apply Same.put_fcol ?_ ?_) <;> [rfl; skip]))

theorem setPwrState_same (s : State) (a1 : ℕ) :
    Same 16 s (setPwrState s a1) := by
  delta setPwrState
  repeat' (first
    | with_reducible exact Same.refl _ _
    | with_reducible assumption
    | ((with_reducible apply Same.step ?_ (wb_same _ _ _ _ _) ?_); on_goal 1 => rfl)
    | (extract_lets +onlyGivenNames x; (with_reducible apply Same.cut x ?_ ?_); (on_goal 1 => (unfold x; clear x)); (on_goal 2 => (intro hx; clear_value x)))
    | (extract_lets +onlyGivenNames x; clear_value x)
    | (extract_lets +onlyGivenNames x; unfold x; clear x)
    | split)

theorem startRow_same (s : State) :
    Same 143312388826130 s (startRow s) := by
  delta startRow
  repeat' (first
    | with_reducible exact Same.refl _ _
    | with_reducible assumption
    | ((with_reducible apply Same.step ?_ (claimAtOnce_same _) ?_); on_goal 1 => rfl)
    | ((with_reducible apply Same.step ?_ (drainFaults_same _) ?_); on_goal 1 => rfl)
    | ((with_reducible apply Same.step ?_ (setPwrState_same _ _) ?_); on_goal 1 => rfl)
    | ((with_reducible apply Same.step ?_ (mateEval_same _) ?_); on_goal 1 => rfl)
    | ((with_reducible apply Same.step ?_ (lineEval_same _) ?_); on_goal 1 => rfl)
    | (extract_lets +onlyGivenNames x; (with_reducible apply Same.cut x ?_ ?_); (on_goal 1 => (unfold x; clear x)); (on_goal 2 => (intro hx; clear_value x)))
    | (extract_lets +onlyGivenNames x; clear_value x)
    | (extract_lets +onlyGivenNames x; unfold x; clear x)
    | split
    | ((with_reducible apply Same.put_coreAwake_pwr ?_ ?_ ?_) <;> [rfl; rfl; skip]))

theorem aonReadyRun_same (s : State) :
    Same 143312388828178 s (aonReadyRun s) := by
  delta aonReadyRun
  repeat' (first
    | with_reducible exact Same.refl _ _
    | with_reducible assumption
    | ((with_reducible apply Same.step ?_ (startRow_same _) ?_); on_goal 1 => rfl)
    | ((with_reducible apply Same.step ?_ (setPwrState_same _ _) ?_); on_goal 1 => rfl)
    | (extract_lets +onlyGivenNames x; (with_reducible apply Same.cut x ?_ ?_); (on_goal 1 => (unfold x; clear x)); (on_goal 2 => (intro hx; clear_value x)))
    | (extract_lets +onlyGivenNames x; clear_value x)
    | (extract_lets +onlyGivenNames x; unfold x; clear x)
    | split
    | ((with_reducible apply Same.put_free_time_pwr ?_ ?_ ?_ ?_) <;> [rfl; rfl; rfl; skip]))

theorem scrWatch_same (s : State) :
    Same 524288 s (scrWatch s) := by
  delta scrWatch
  repeat' (first
    | with_reducible exact Same.refl _ _
    | with_reducible assumption
    | (extract_lets +onlyGivenNames x; (with_reducible apply Same.cut x ?_ ?_); (on_goal 1 => (unfold x; clear x)); (on_goal 2 => (intro hx; clear_value x)))
    | (extract_lets +onlyGivenNames x; clear_value x)
    | (extract_lets +onlyGivenNames x; unfold x; clear x)
    | split
    | ((with_reducible apply Same.put_scr ?_ ?_) <;> [rfl; skip]))

theorem aonWords_same (s : State) :
    Same 140754669021202 s (aonWords s) := by
  delta aonWords
  repeat' (first
    | with_reducible exact Same.refl _ _
    | with_reducible assumption
    | ((with_reducible apply Same.step ?_ (scrWatch_same _) ?_); on_goal 1 => rfl)
    | ((with_reducible apply Same.step ?_ (dpEval_same _ _) ?_); on_goal 1 => rfl)
    | ((with_reducible apply Same.step ?_ (dpPublish_same _ _) ?_); on_goal 1 => rfl)
    | (extract_lets +onlyGivenNames x; (with_reducible apply Same.cut x ?_ ?_); (on_goal 1 => (unfold x; clear x)); (on_goal 2 => (intro hx; clear_value x)))
    | (extract_lets +onlyGivenNames x; clear_value x)
    | (extract_lets +onlyGivenNames x; unfold x; clear x)
    | split
    | ((with_reducible apply Same.put_time ?_ ?_) <;> [rfl; skip]))

theorem dtcRun_same (s : State) (a1 : ℕ) (a2 : ℚ) :
    Same 65536 s (dtcRun s a1 a2) := by
  delta dtcRun
  repeat' (first
    | with_reducible exact Same.refl _ _
    | with_reducible assumption
    | ((with_reducible apply Same.step ?_ (setFod_same _ _ _) ?_); on_goal 1 => rfl)
    | (extract_lets +onlyGivenNames x; (with_reducible apply Same.cut x ?_ ?_); (on_goal 1 => (unfold x; clear x)); (on_goal 2 => (intro hx; clear_value x)))
    | (extract_lets +onlyGivenNames x; clear_value x)
    | (extract_lets +onlyGivenNames x; unfold x; clear x)
    | split)

theorem trailTick_same (s : State) (a1 : ℕ) :
    Same 32768 s (trailTick s a1) := by
  delta trailTick
  repeat' (first
    | with_reducible exact Same.refl _ _
    | with_reducible assumption
    | ((with_reducible apply Same.step ?_ (setSc_same _ _ _) ?_); on_goal 1 => rfl)
    | (extract_lets +onlyGivenNames x; (with_reducible apply Same.cut x ?_ ?_); (on_goal 1 => (unfold x; clear x)); (on_goal 2 => (intro hx; clear_value x)))
    | (extract_lets +onlyGivenNames x; clear_value x)
    | (extract_lets +onlyGivenNames x; unfold x; clear x)
    | split)

theorem dsRun_same (s : State) (a1 : ℕ) :
    Same 32768 s (dsRun s a1) := by
  delta dsRun
  repeat' (first
    | with_reducible exact Same.refl _ _
    | with_reducible assumption
    | ((with_reducible apply Same.step ?_ (setSc_same _ _ _) ?_); on_goal 1 => rfl)
    | with_reducible apply Same.foldl ?_ ?_
    | (extract_lets +onlyGivenNames x; (with_reducible apply Same.cut x ?_ ?_); (on_goal 1 => (unfold x; clear x)); (on_goal 2 => (intro hx; clear_value x)))
    | (extract_lets +onlyGivenNames x; clear_value x)
    | (extract_lets +onlyGivenNames x; unfold x; clear x)
    | intro _
    | split)

theorem aonTick_same (s : State) :
    Same 362500 s (aonTick s) := by
  delta aonTick
  repeat' (first
    | with_reducible exact Same.refl _ _
    | with_reducible assumption
    | ((with_reducible apply Same.step ?_ (dtcRun_same _ _ _) ?_); on_goal 1 => rfl)
    | ((with_reducible apply Same.step ?_ (trailTick_same _ _) ?_); on_goal 1 => rfl)
    | ((with_reducible apply Same.step ?_ (accTick_same _ _) ?_); on_goal 1 => rfl)
    | ((with_reducible apply Same.step ?_ (dsRun_same _ _) ?_); on_goal 1 => rfl)
    | with_reducible apply Same.upto ?_ ?_
    | with_reducible apply Same.foldl ?_ ?_
    | (extract_lets +onlyGivenNames x; (with_reducible apply Same.cut x ?_ ?_); (on_goal 1 => (unfold x; clear x)); (on_goal 2 => (intro hx; clear_value x)))
    | (extract_lets +onlyGivenNames x; clear_value x)
    | (extract_lets +onlyGivenNames x; unfold x; clear x)
    | intro _
    | split
    | ((with_reducible apply Same.put_cyc_time ?_ ?_ ?_) <;> [rfl; rfl; skip]))

theorem steerSet_same (s : State) (a1 : ℕ) :
    Same 40976 s (steerSet s a1) := by
  delta steerSet
  repeat' (first
    | with_reducible exact Same.refl _ _
    | with_reducible assumption
    | ((with_reducible apply Same.step ?_ (orBits_same _ _ _) ?_); on_goal 1 => rfl)
    | ((with_reducible apply Same.step ?_ (raise_same _ _ _ _ _ _) ?_); on_goal 1 => rfl)
    | ((with_reducible apply Same.step ?_ (setSc_same _ _ _) ?_); on_goal 1 => rfl)
    | (extract_lets +onlyGivenNames x; (with_reducible apply Same.cut x ?_ ?_); (on_goal 1 => (unfold x; clear x)); (on_goal 2 => (intro hx; clear_value x)))
    | (extract_lets +onlyGivenNames x; clear_value x)
    | (extract_lets +onlyGivenNames x; unfold x; clear x)
    | split)

theorem coreWake_same (s : State) :
    Same 141031760733200 s (coreWake s) := by
  delta coreWake
  repeat' (first
    | with_reducible exact Same.refl _ _
    | with_reducible assumption
    | ((with_reducible apply Same.step ?_ (drainFaults_same _) ?_); on_goal 1 => rfl)
    | (extract_lets +onlyGivenNames x; (with_reducible apply Same.cut x ?_ ?_); (on_goal 1 => (unfold x; clear x)); (on_goal 2 => (intro hx; clear_value x)))
    | (extract_lets +onlyGivenNames x; clear_value x)
    | (extract_lets +onlyGivenNames x; unfold x; clear x)
    | split
    | ((with_reducible apply Same.put_coreAwake ?_ ?_) <;> [rfl; skip]))

theorem snapWake_same (s : State) :
    Same 143230783988752 s (snapWake s) := by
  delta snapWake
  repeat' (first
    | with_reducible exact Same.refl _ _
    | with_reducible assumption
    | ((with_reducible apply Same.step ?_ (coreWake_same _) ?_); on_goal 1 => rfl)
    | (extract_lets +onlyGivenNames x; (with_reducible apply Same.cut x ?_ ?_); (on_goal 1 => (unfold x; clear x)); (on_goal 2 => (intro hx; clear_value x)))
    | (extract_lets +onlyGivenNames x; clear_value x)
    | (extract_lets +onlyGivenNames x; unfold x; clear x)
    | split
    | ((with_reducible apply Same.put_pwr ?_ ?_) <;> [rfl; skip]))

theorem hopNext_same (s : State) (a1 : ℕ) (a2 : ℚ) :
    Same 140754669346832 s (hopNext s a1 a2) := by
  delta hopNext
  repeat' (first
    | with_reducible exact Same.refl _ _
    | with_reducible assumption
    | ((with_reducible apply Same.step ?_ (markAct_same _ _ _ _ _) ?_); on_goal 1 => rfl)
    | ((with_reducible apply Same.step ?_ (actEvents_same _ _ _ _) ?_); on_goal 1 => rfl)
    | ((with_reducible apply Same.step ?_ (hopRateMark_same _ _ _) ?_); on_goal 1 => rfl)
    | ((with_reducible apply Same.step ?_ (setFod_same _ _ _) ?_); on_goal 1 => rfl)
    | ((with_reducible apply Same.step ?_ (hopExec_same _ _ _ _ _ _) ?_); on_goal 1 => rfl)
    | (extract_lets +onlyGivenNames x; (with_reducible apply Same.cut x ?_ ?_); (on_goal 1 => (unfold x; clear x)); (on_goal 2 => (intro hx; clear_value x)))
    | (extract_lets +onlyGivenNames x; clear_value x)
    | (extract_lets +onlyGivenNames x; unfold x; clear x)
    | split)

theorem hopRelease_same (s : State) (a1 : ℕ) (a2 : ℚ) :
    Same 140754669346832 s (hopRelease s a1 a2) := by
  delta hopRelease
  repeat' (first
    | with_reducible exact Same.refl _ _
    | with_reducible assumption
    | ((with_reducible apply Same.step ?_ (hopNext_same _ _ _) ?_); on_goal 1 => rfl)
    | with_reducible apply Same.foldl ?_ ?_
    | (extract_lets +onlyGivenNames x; (with_reducible apply Same.cut x ?_ ?_); (on_goal 1 => (unfold x; clear x)); (on_goal 2 => (intro hx; clear_value x)))
    | (extract_lets +onlyGivenNames x; clear_value x)
    | (extract_lets +onlyGivenNames x; unfold x; clear x)
    | intro _
    | split)

end Sys2Proof.Machine
end

