-- ==== Sys2Proof/Laws/Frame3.lean ====
section
/-!
SUPPORT. The fields of `State` that each operation can change, operation by operation (part 3).
-/
set_option linter.all false
set_option linter.unusedTactic false
set_option linter.unreachableTactic false
namespace Sys2Proof.Machine

open Sys2Proof

theorem holdsEnd_same (s : State) :
    Same 140754669346832 s (holdsEnd s) := by
  delta holdsEnd
  repeat' (first
    | with_reducible exact Same.refl _ _
    | with_reducible assumption
    | ((with_reducible apply Same.step ?_ (hopRelease_same _ _ _) ?_); on_goal 1 => rfl)
    | ((with_reducible apply Same.step ?_ (setFod_same _ _ _) ?_); on_goal 1 => rfl)
    | with_reducible apply Same.foldl ?_ ?_
    | (extract_lets +onlyGivenNames x; (with_reducible apply Same.cut x ?_ ?_); (on_goal 1 => (unfold x; clear x)); (on_goal 2 => (intro hx; clear_value x)))
    | (extract_lets +onlyGivenNames x; clear_value x)
    | (extract_lets +onlyGivenNames x; unfold x; clear x)
    | intro _
    | split)

theorem refQualify_same (s : State) (a1 : ℕ) :
    Same 131088 s (refQualify s a1) := by
  delta refQualify
  repeat' (first
    | with_reducible exact Same.refl _ _
    | with_reducible assumption
    | ((with_reducible apply Same.step ?_ (qualRun_same _ _ _) ?_); on_goal 1 => rfl)
    | ((with_reducible apply Same.step ?_ (setRefBit_same _ _ _ _) ?_); on_goal 1 => rfl)
    | (extract_lets +onlyGivenNames x; (with_reducible apply Same.cut x ?_ ?_); (on_goal 1 => (unfold x; clear x)); (on_goal 2 => (intro hx; clear_value x)))
    | (extract_lets +onlyGivenNames x; clear_value x)
    | (extract_lets +onlyGivenNames x; unfold x; clear x)
    | split)

theorem refQnow_same (s : State) (a1 : ℕ) :
    Same 131088 s (refQnow s a1) := by
  delta refQnow
  repeat' (first
    | with_reducible exact Same.refl _ _
    | with_reducible assumption
    | ((with_reducible apply Same.step ?_ (refQualify_same _ _) ?_); on_goal 1 => rfl)
    | (extract_lets +onlyGivenNames x; (with_reducible apply Same.cut x ?_ ?_); (on_goal 1 => (unfold x; clear x)); (on_goal 2 => (intro hx; clear_value x)))
    | (extract_lets +onlyGivenNames x; clear_value x)
    | (extract_lets +onlyGivenNames x; unfold x; clear x)
    | split)

theorem injectFx_same (s : State) (a1 : ℕ) :
    Same 8208 s (injectFx s a1) := by
  delta injectFx
  repeat' (first
    | with_reducible exact Same.refl _ _
    | with_reducible assumption
    | ((with_reducible apply Same.step ?_ (bump_same _ _ _) ?_); on_goal 1 => rfl)
    | ((with_reducible apply Same.step ?_ (enqueue_same _ _) ?_); on_goal 1 => rfl)
    | (extract_lets +onlyGivenNames x; (with_reducible apply Same.cut x ?_ ?_); (on_goal 1 => (unfold x; clear x)); (on_goal 2 => (intro hx; clear_value x)))
    | (extract_lets +onlyGivenNames x; clear_value x)
    | (extract_lets +onlyGivenNames x; unfold x; clear x)
    | split)

theorem imgClear_same (s : State) (a1 : ℕ) :
    Same 16 s (imgClear s a1) := by
  delta imgClear
  repeat' (first
    | with_reducible exact Same.refl _ _
    | with_reducible assumption
    | ((with_reducible apply Same.step ?_ (clrBits_same _ _ _) ?_); on_goal 1 => rfl)
    | (extract_lets +onlyGivenNames x; (with_reducible apply Same.cut x ?_ ?_); (on_goal 1 => (unfold x; clear x)); (on_goal 2 => (intro hx; clear_value x)))
    | (extract_lets +onlyGivenNames x; clear_value x)
    | (extract_lets +onlyGivenNames x; unfold x; clear x)
    | split)

theorem setSeqc_same (s : State) (a1 : ℕ) (a2 : SeqSt) :
    Same 1099511627776 s (setSeqc s a1 a2) := by
  delta setSeqc
  repeat' (first
    | with_reducible exact Same.refl _ _
    | with_reducible assumption
    | (extract_lets +onlyGivenNames x; (with_reducible apply Same.cut x ?_ ?_); (on_goal 1 => (unfold x; clear x)); (on_goal 2 => (intro hx; clear_value x)))
    | (extract_lets +onlyGivenNames x; clear_value x)
    | (extract_lets +onlyGivenNames x; unfold x; clear x)
    | split
    | ((with_reducible apply Same.put_seqs ?_ ?_) <;> [rfl; skip]))

theorem seqVerifyCmd_same (s : State) (a1 : ℕ) :
    Same 1099511627776 s (seqVerifyCmd s a1) := by
  delta seqVerifyCmd
  repeat' (first
    | with_reducible exact Same.refl _ _
    | with_reducible assumption
    | ((with_reducible apply Same.step ?_ (setSeqc_same _ _ _) ?_); on_goal 1 => rfl)
    | (extract_lets +onlyGivenNames x; (with_reducible apply Same.cut x ?_ ?_); (on_goal 1 => (unfold x; clear x)); (on_goal 2 => (intro hx; clear_value x)))
    | (extract_lets +onlyGivenNames x; clear_value x)
    | (extract_lets +onlyGivenNames x; unfold x; clear x)
    | split)

theorem setSeqState_same (s : State) (a1 : ℕ) (a2 : ℕ) :
    Same 16 s (setSeqState s a1 a2) := by
  delta setSeqState
  repeat' (first
    | with_reducible exact Same.refl _ _
    | with_reducible assumption
    | ((with_reducible apply Same.step ?_ (wb_same _ _ _ _ _) ?_); on_goal 1 => rfl)
    | (extract_lets +onlyGivenNames x; (with_reducible apply Same.cut x ?_ ?_); (on_goal 1 => (unfold x; clear x)); (on_goal 2 => (intro hx; clear_value x)))
    | (extract_lets +onlyGivenNames x; clear_value x)
    | (extract_lets +onlyGivenNames x; unfold x; clear x)
    | split)

theorem seqStepCmd_same (s : State) (a1 : ℕ) :
    Same 1099511627792 s (seqStepCmd s a1) := by
  delta seqStepCmd
  repeat' (first
    | with_reducible exact Same.refl _ _
    | with_reducible assumption
    | ((with_reducible apply Same.step ?_ (setSeqc_same _ _ _) ?_); on_goal 1 => rfl)
    | ((with_reducible apply Same.step ?_ (setSeqState_same _ _ _) ?_); on_goal 1 => rfl)
    | (extract_lets +onlyGivenNames x; (with_reducible apply Same.cut x ?_ ?_); (on_goal 1 => (unfold x; clear x)); (on_goal 2 => (intro hx; clear_value x)))
    | (extract_lets +onlyGivenNames x; clear_value x)
    | (extract_lets +onlyGivenNames x; unfold x; clear x)
    | split)

theorem seqReject_same (s : State) (a1 : ℕ) :
    Same 16 s (seqReject s a1) := by
  delta seqReject
  repeat' (first
    | with_reducible exact Same.refl _ _
    | with_reducible assumption
    | ((with_reducible apply Same.step ?_ (orBits_same _ _ _) ?_); on_goal 1 => rfl)
    | (extract_lets +onlyGivenNames x; (with_reducible apply Same.cut x ?_ ?_); (on_goal 1 => (unfold x; clear x)); (on_goal 2 => (intro hx; clear_value x)))
    | (extract_lets +onlyGivenNames x; clear_value x)
    | (extract_lets +onlyGivenNames x; unfold x; clear x)
    | split)

theorem seqStartCmd_same (s : State) (a1 : ℕ) :
    Same 1099511627792 s (seqStartCmd s a1) := by
  delta seqStartCmd
  repeat' (first
    | with_reducible exact Same.refl _ _
    | with_reducible assumption
    | ((with_reducible apply Same.step ?_ (wb_same _ _ _ _ _) ?_); on_goal 1 => rfl)
    | ((with_reducible apply Same.step ?_ (setSeqc_same _ _ _) ?_); on_goal 1 => rfl)
    | ((with_reducible apply Same.step ?_ (setSeqState_same _ _ _) ?_); on_goal 1 => rfl)
    | ((with_reducible apply Same.step ?_ (wr_same _ _ _) ?_); on_goal 1 => rfl)
    | ((with_reducible apply Same.step ?_ (seqReject_same _ _) ?_); on_goal 1 => rfl)
    | with_reducible apply Same.upto ?_ ?_
    | (extract_lets +onlyGivenNames x; (with_reducible apply Same.cut x ?_ ?_); (on_goal 1 => (unfold x; clear x)); (on_goal 2 => (intro hx; clear_value x)))
    | (extract_lets +onlyGivenNames x; clear_value x)
    | (extract_lets +onlyGivenNames x; unfold x; clear x)
    | intro _
    | split)

theorem seqHaltAs_same (s : State) (a1 : ℕ) (a2 : ℕ) :
    Same 1099511627792 s (seqHaltAs s a1 a2) := by
  delta seqHaltAs
  repeat' (first
    | with_reducible exact Same.refl _ _
    | with_reducible assumption
    | ((with_reducible apply Same.step ?_ (wb_same _ _ _ _ _) ?_); on_goal 1 => rfl)
    | ((with_reducible apply Same.step ?_ (setSeqc_same _ _ _) ?_); on_goal 1 => rfl)
    | (extract_lets +onlyGivenNames x; (with_reducible apply Same.cut x ?_ ?_); (on_goal 1 => (unfold x; clear x)); (on_goal 2 => (intro hx; clear_value x)))
    | (extract_lets +onlyGivenNames x; clear_value x)
    | (extract_lets +onlyGivenNames x; unfold x; clear x)
    | split)

theorem seqHaltCmd_same (s : State) (a1 : ℕ) :
    Same 1099511627792 s (seqHaltCmd s a1) := by
  delta seqHaltCmd
  repeat' (first
    | with_reducible exact Same.refl _ _
    | with_reducible assumption
    | ((with_reducible apply Same.step ?_ (seqHaltAs_same _ _ _) ?_); on_goal 1 => rfl)
    | (extract_lets +onlyGivenNames x; (with_reducible apply Same.cut x ?_ ?_); (on_goal 1 => (unfold x; clear x)); (on_goal 2 => (intro hx; clear_value x)))
    | (extract_lets +onlyGivenNames x; clear_value x)
    | (extract_lets +onlyGivenNames x; unfold x; clear x)
    | split)

theorem seqResumeCmd_same (s : State) (a1 : ℕ) :
    Same 1099511627792 s (seqResumeCmd s a1) := by
  delta seqResumeCmd
  repeat' (first
    | with_reducible exact Same.refl _ _
    | with_reducible assumption
    | ((with_reducible apply Same.step ?_ (setSeqc_same _ _ _) ?_); on_goal 1 => rfl)
    | ((with_reducible apply Same.step ?_ (setSeqState_same _ _ _) ?_); on_goal 1 => rfl)
    | ((with_reducible apply Same.step ?_ (seqReject_same _ _) ?_); on_goal 1 => rfl)
    | (extract_lets +onlyGivenNames x; (with_reducible apply Same.cut x ?_ ?_); (on_goal 1 => (unfold x; clear x)); (on_goal 2 => (intro hx; clear_value x)))
    | (extract_lets +onlyGivenNames x; clear_value x)
    | (extract_lets +onlyGivenNames x; unfold x; clear x)
    | split)

theorem seqCmdFx_same (s : State) (a1 : ℕ) (a2 : ℕ) :
    Same 141854179860496 s (seqCmdFx s a1 a2) := by
  delta seqCmdFx
  repeat' (first
    | with_reducible exact Same.refl _ _
    | with_reducible assumption
    | ((with_reducible apply Same.step ?_ (seqVerifyCmd_same _ _) ?_); on_goal 1 => rfl)
    | ((with_reducible apply Same.step ?_ (seqStepCmd_same _ _) ?_); on_goal 1 => rfl)
    | ((with_reducible apply Same.step ?_ (seqStartCmd_same _ _) ?_); on_goal 1 => rfl)
    | ((with_reducible apply Same.step ?_ (event_same _ _) ?_); on_goal 1 => rfl)
    | ((with_reducible apply Same.step ?_ (seqHaltCmd_same _ _) ?_); on_goal 1 => rfl)
    | ((with_reducible apply Same.step ?_ (seqResumeCmd_same _ _) ?_); on_goal 1 => rfl)
    | (extract_lets +onlyGivenNames x; (with_reducible apply Same.cut x ?_ ?_); (on_goal 1 => (unfold x; clear x)); (on_goal 2 => (intro hx; clear_value x)))
    | (extract_lets +onlyGivenNames x; clear_value x)
    | (extract_lets +onlyGivenNames x; unfold x; clear x)
    | split)

theorem seqFx_same (s : State) (a1 : ℕ) (a2 : ℕ) (a3 : ℕ) (a4 : ℕ) (a5 : ℕ) :
    Same 141854179860496 s (seqFx s a1 a2 a3 a4 a5) := by
  delta seqFx
  repeat' (first
    | with_reducible exact Same.refl _ _
    | with_reducible assumption
    | ((with_reducible apply Same.step ?_ (clrBits_same _ _ _) ?_); on_goal 1 => rfl)
    | ((with_reducible apply Same.step ?_ (imgClear_same _ _) ?_); on_goal 1 => rfl)
    | ((with_reducible apply Same.step ?_ (seqCmdFx_same _ _ _) ?_); on_goal 1 => rfl)
    | ((with_reducible apply Same.step ?_ (wr_same _ _ _) ?_); on_goal 1 => rfl)
    | (extract_lets +onlyGivenNames x; (with_reducible apply Same.cut x ?_ ?_); (on_goal 1 => (unfold x; clear x)); (on_goal 2 => (intro hx; clear_value x)))
    | (extract_lets +onlyGivenNames x; clear_value x)
    | (extract_lets +onlyGivenNames x; unfold x; clear x)
    | split)

theorem cmdAlloc_same (s : State) (a1 : ℕ) (a2 : ℕ) (a3 : ℕ) (a4 : ℕ) (a5 : ℕ) (a6 : ℕ) :
    Same 137438961688 s (cmdAlloc s a1 a2 a3 a4 a5 a6) := by
  delta cmdAlloc
  repeat' (first
    | with_reducible exact Same.refl _ _
    | with_reducible assumption
    | ((with_reducible apply Same.step ?_ (bump_same _ _ _) ?_); on_goal 1 => rfl)
    | ((with_reducible apply Same.step ?_ (wr_same _ _ _) ?_); on_goal 1 => rfl)
    | (extract_lets +onlyGivenNames x; (with_reducible apply Same.cut x ?_ ?_); (on_goal 1 => (unfold x; clear x)); (on_goal 2 => (intro hx; clear_value x)))
    | (extract_lets +onlyGivenNames x; clear_value x)
    | (extract_lets +onlyGivenNames x; unfold x; clear x)
    | split
    | ((with_reducible apply Same.put_order_cmd ?_ ?_ ?_) <;> [rfl; rfl; skip]))

theorem ownDrain_same (a0 : ℕ) (s : State) :
    Same 137438961688 s (ownDrain a0 s) := by
  induction a0 generalizing s with
  | zero => exact Same.refl _ _
  | succ k ih =>
    unfold ownDrain
    split
    · exact Same.refl _ _
    · split
      · exact Same.refl _ _
      · refine Same.trans (Same.step (by rfl) (cmdAlloc_same _ _ _ _ _ _ _) ?_) (ih _)
        exact Same.put_cmd (by rfl) (Same.refl _ _)

theorem holdClear_same (s : State) :
    Same 4112 s (holdClear s) := by
  delta holdClear
  repeat' (first
    | with_reducible exact Same.refl _ _
    | with_reducible assumption
    | ((with_reducible apply Same.step ?_ (orBits_same _ _ _) ?_); on_goal 1 => rfl)
    | ((with_reducible apply Same.step ?_ (wb_same _ _ _ _ _) ?_); on_goal 1 => rfl)
    | (extract_lets +onlyGivenNames x; (with_reducible apply Same.cut x ?_ ?_); (on_goal 1 => (unfold x; clear x)); (on_goal 2 => (intro hx; clear_value x)))
    | (extract_lets +onlyGivenNames x; clear_value x)
    | (extract_lets +onlyGivenNames x; unfold x; clear x)
    | split
    | ((with_reducible apply Same.put_seal ?_ ?_) <;> [rfl; skip]))

theorem rideStored_same (s : State) (a1 : Slot) :
    Same 2199023255568 s (rideStored s a1) := by
  delta rideStored
  repeat' (first
    | with_reducible exact Same.refl _ _
    | with_reducible assumption
    | ((with_reducible apply Same.step ?_ (orBits_same _ _ _) ?_); on_goal 1 => rfl)
    | (extract_lets +onlyGivenNames x; (with_reducible apply Same.cut x ?_ ?_); (on_goal 1 => (unfold x; clear x)); (on_goal 2 => (intro hx; clear_value x)))
    | (extract_lets +onlyGivenNames x; clear_value x)
    | (extract_lets +onlyGivenNames x; unfold x; clear x)
    | split
    | ((with_reducible apply Same.put_pwr ?_ ?_) <;> [rfl; skip]))

theorem slotFree_same (s : State) (a1 : ℕ) :
    Same 137438953472 s (slotFree s a1) := by
  delta slotFree
  repeat' (first
    | with_reducible exact Same.refl _ _
    | with_reducible assumption
    | (extract_lets +onlyGivenNames x; (with_reducible apply Same.cut x ?_ ?_); (on_goal 1 => (unfold x; clear x)); (on_goal 2 => (intro hx; clear_value x)))
    | (extract_lets +onlyGivenNames x; clear_value x)
    | (extract_lets +onlyGivenNames x; unfold x; clear x)
    | split
    | ((with_reducible apply Same.put_cmd ?_ ?_) <;> [rfl; skip]))

theorem sendMsix_same (s : State) (a1 : ℕ) :
    Same 175921860444160 s (sendMsix s a1) := by
  delta sendMsix
  repeat' (first
    | with_reducible exact Same.refl _ _
    | with_reducible assumption
    | (extract_lets +onlyGivenNames x; (with_reducible apply Same.cut x ?_ ?_); (on_goal 1 => (unfold x; clear x)); (on_goal 2 => (intro hx; clear_value x)))
    | (extract_lets +onlyGivenNames x; clear_value x)
    | (extract_lets +onlyGivenNames x; unfold x; clear x)
    | split
    | ((with_reducible apply Same.put_out ?_ ?_) <;> [rfl; skip])
    | ((with_reducible apply Same.put_pba ?_ ?_) <;> [rfl; skip]))

theorem presentInternal_same (s : State) (a1 : ℕ) (a2 : ℕ) (a3 : ℕ) (a4 : ℕ) (a5 : ℕ) (a6 : ℕ) (a7 : ℕ) (a8 : ℕ) (a9 : ℕ) (a10 : List Byte) :
    Same 141029613249552 s (presentInternal s a1 a2 a3 a4 a5 a6 a7 a8 a9 a10) := by
  delta presentInternal
  repeat' (first
    | with_reducible exact Same.refl _ _
    | with_reducible assumption
    | ((with_reducible apply Same.step ?_ (ringPresent_same _ _ _ _) ?_); on_goal 1 => rfl)
    | (extract_lets +onlyGivenNames x; (with_reducible apply Same.cut x ?_ ?_); (on_goal 1 => (unfold x; clear x)); (on_goal 2 => (intro hx; clear_value x)))
    | (extract_lets +onlyGivenNames x; (with_reducible apply Same.cut x.1 ?_ ?_); (on_goal 1 => (unfold x; clear x)); (on_goal 2 => (intro hx; clear_value x)))
    | (extract_lets +onlyGivenNames x; clear_value x)
    | (extract_lets +onlyGivenNames x; unfold x; clear x)
    | with_reducible refine Same.ofFst (by assumption) ?_
    | split)

theorem cmdReport_same (s : State) (a1 : ℕ) (a2 : Slot) (a3 : ℕ) (a4 : ℕ) :
    Same 176213985338384 s (cmdReport s a1 a2 a3 a4) := by
  delta cmdReport
  repeat' (first
    | with_reducible exact Same.refl _ _
    | with_reducible assumption
    | ((with_reducible apply Same.step ?_ (sendMsix_same _ _) ?_); on_goal 1 => rfl)
    | ((with_reducible apply Same.step ?_ (presentInternal_same _ _ _ _ _ _ _ _ _ _ _) ?_); on_goal 1 => rfl)
    | ((with_reducible apply Same.step ?_ (event_same _ _) ?_); on_goal 1 => rfl)
    | ((with_reducible apply Same.step ?_ (wr_same _ _ _) ?_); on_goal 1 => rfl)
    | ((with_reducible apply Same.step ?_ (raise_same _ _ _ _ _ _) ?_); on_goal 1 => rfl)
    | (extract_lets +onlyGivenNames x; (with_reducible apply Same.cut x ?_ ?_); (on_goal 1 => (unfold x; clear x)); (on_goal 2 => (intro hx; clear_value x)))
    | (extract_lets +onlyGivenNames x; clear_value x)
    | (extract_lets +onlyGivenNames x; unfold x; clear x)
    | split)

theorem cmdComplete_same (s : State) (a1 : ℕ) (a2 : Slot) (a3 : ℕ) (a4 : ℕ) :
    Same 178550447551512 s (cmdComplete s a1 a2 a3 a4) := by
  delta cmdComplete
  repeat' (first
    | with_reducible exact Same.refl _ _
    | with_reducible assumption
    | ((with_reducible apply Same.step ?_ (ownDrain_same _ _) ?_); on_goal 1 => rfl)
    | ((with_reducible apply Same.step ?_ (holdClear_same _) ?_); on_goal 1 => rfl)
    | ((with_reducible apply Same.step ?_ (rideStored_same _ _) ?_); on_goal 1 => rfl)
    | ((with_reducible apply Same.step ?_ (slotFree_same _ _) ?_); on_goal 1 => rfl)
    | ((with_reducible apply Same.step ?_ (cmdReport_same _ _ _ _ _) ?_); on_goal 1 => rfl)
    | (extract_lets +onlyGivenNames x; (with_reducible apply Same.cut x ?_ ?_); (on_goal 1 => (unfold x; clear x)); (on_goal 2 => (intro hx; clear_value x)))
    | (extract_lets +onlyGivenNames x; clear_value x)
    | (extract_lets +onlyGivenNames x; unfold x; clear x)
    | split)

theorem cmdEnd_same (s : State) (a1 : Slot → Bool) (a2 : ℕ) :
    Same 178550447551512 s (cmdEnd s a1 a2) := by
  delta cmdEnd
  repeat' (first
    | with_reducible exact Same.refl _ _
    | with_reducible assumption
    | ((with_reducible apply Same.step ?_ (cmdComplete_same _ _ _ _ _) ?_); on_goal 1 => rfl)
    | with_reducible apply Same.foldl ?_ ?_
    | (extract_lets +onlyGivenNames x; (with_reducible apply Same.cut x ?_ ?_); (on_goal 1 => (unfold x; clear x)); (on_goal 2 => (intro hx; clear_value x)))
    | (extract_lets +onlyGivenNames x; clear_value x)
    | (extract_lets +onlyGivenNames x; unfold x; clear x)
    | intro _
    | split)

theorem becomeStandby_same (s : State) :
    Same 178563332846616 s (becomeStandby s) := by
  delta becomeStandby
  repeat' (first
    | with_reducible exact Same.refl _ _
    | with_reducible assumption
    | ((with_reducible apply Same.step ?_ (roleChange_same _ _) ?_); on_goal 1 => rfl)
    | ((with_reducible apply Same.step ?_ (cmdEnd_same _ _ _) ?_); on_goal 1 => rfl)
    | (extract_lets +onlyGivenNames x; (with_reducible apply Same.cut x ?_ ?_); (on_goal 1 => (unfold x; clear x)); (on_goal 2 => (intro hx; clear_value x)))
    | (extract_lets +onlyGivenNames x; clear_value x)
    | (extract_lets +onlyGivenNames x; unfold x; clear x)
    | split
    | ((with_reducible apply Same.put_mateReady ?_ ?_) <;> [rfl; skip]))

theorem giveActivity_same (s : State) :
    Same 178563332846616 s (giveActivity s) := by
  delta giveActivity
  repeat' (first
    | with_reducible exact Same.refl _ _
    | with_reducible assumption
    | ((with_reducible apply Same.step ?_ (mateSend_same _ _ _) ?_); on_goal 1 => rfl)
    | ((with_reducible apply Same.step ?_ (becomeStandby_same _) ?_); on_goal 1 => rfl)
    | (extract_lets +onlyGivenNames x; (with_reducible apply Same.cut x ?_ ?_); (on_goal 1 => (unfold x; clear x)); (on_goal 2 => (intro hx; clear_value x)))
    | (extract_lets +onlyGivenNames x; clear_value x)
    | (extract_lets +onlyGivenNames x; unfold x; clear x)
    | split)

theorem mateYield_same (s : State) :
    Same 178563332846616 s (mateYield s) := by
  delta mateYield
  repeat' (first
    | with_reducible exact Same.refl _ _
    | with_reducible assumption
    | ((with_reducible apply Same.step ?_ (giveActivity_same _) ?_); on_goal 1 => rfl)
    | (extract_lets +onlyGivenNames x; (with_reducible apply Same.cut x ?_ ?_); (on_goal 1 => (unfold x; clear x)); (on_goal 2 => (intro hx; clear_value x)))
    | (extract_lets +onlyGivenNames x; clear_value x)
    | (extract_lets +onlyGivenNames x; unfold x; clear x)
    | split)

theorem splitCheck_same (s : State) :
    Same 178563332846616 s (splitCheck s) := by
  delta splitCheck
  repeat' (first
    | with_reducible exact Same.refl _ _
    | with_reducible assumption
    | ((with_reducible apply Same.step ?_ (orBits_same _ _ _) ?_); on_goal 1 => rfl)
    | ((with_reducible apply Same.step ?_ (becomeStandby_same _) ?_); on_goal 1 => rfl)
    | ((with_reducible apply Same.step ?_ (raise_same _ _ _ _ _ _) ?_); on_goal 1 => rfl)
    | (extract_lets +onlyGivenNames x; (with_reducible apply Same.cut x ?_ ?_); (on_goal 1 => (unfold x; clear x)); (on_goal 2 => (intro hx; clear_value x)))
    | (extract_lets +onlyGivenNames x; clear_value x)
    | (extract_lets +onlyGivenNames x; unfold x; clear x)
    | split)

theorem mateFx_same (s : State) (a1 : ℕ) (a2 : ℕ) (a3 : ℕ) (a4 : ℕ) :
    Same 178563332912154 s (mateFx s a1 a2 a3 a4) := by
  delta mateFx
  repeat' (first
    | with_reducible exact Same.refl _ _
    | with_reducible assumption
    | ((with_reducible apply Same.step ?_ (mateEval_same _) ?_); on_goal 1 => rfl)
    | ((with_reducible apply Same.step ?_ (mateYield_same _) ?_); on_goal 1 => rfl)
    | ((with_reducible apply Same.step ?_ (nrEval_same _) ?_); on_goal 1 => rfl)
    | ((with_reducible apply Same.step ?_ (splitCheck_same _) ?_); on_goal 1 => rfl)
    | (extract_lets +onlyGivenNames x; (with_reducible apply Same.cut x ?_ ?_); (on_goal 1 => (unfold x; clear x)); (on_goal 2 => (intro hx; clear_value x)))
    | (extract_lets +onlyGivenNames x; clear_value x)
    | (extract_lets +onlyGivenNames x; unfold x; clear x)
    | split)

theorem groupEval_same (s : State) :
    Same 536870912 s (groupEval s) := by
  delta groupEval
  repeat' (first
    | with_reducible exact Same.refl _ _
    | with_reducible assumption
    | with_reducible apply Same.upto ?_ ?_
    | (extract_lets +onlyGivenNames x; (with_reducible apply Same.cut x ?_ ?_); (on_goal 1 => (unfold x; clear x)); (on_goal 2 => (intro hx; clear_value x)))
    | (extract_lets +onlyGivenNames x; clear_value x)
    | (extract_lets +onlyGivenNames x; unfold x; clear x)
    | intro _
    | split
    | ((with_reducible apply Same.put_groups ?_ ?_) <;> [rfl; skip]))

theorem resyncPort_same (s : State) (a1 : ℕ) :
    Same 2162704 s (resyncPort s a1) := by
  delta resyncPort
  repeat' (first
    | with_reducible exact Same.refl _ _
    | with_reducible assumption
    | ((with_reducible apply Same.step ?_ (clrBits_same _ _ _) ?_); on_goal 1 => rfl)
    | ((with_reducible apply Same.step ?_ (setFod_same _ _ _) ?_); on_goal 1 => rfl)
    | ((with_reducible apply Same.step ?_ (setPort_same _ _ _) ?_); on_goal 1 => rfl)
    | (extract_lets +onlyGivenNames x; (with_reducible apply Same.cut x ?_ ?_); (on_goal 1 => (unfold x; clear x)); (on_goal 2 => (intro hx; clear_value x)))
    | (extract_lets +onlyGivenNames x; clear_value x)
    | (extract_lets +onlyGivenNames x; unfold x; clear x)
    | split)

theorem sealLockFx_same (s : State) (a1 : ℕ) (a2 : ℕ) :
    Same 178550447551512 s (sealLockFx s a1 a2) := by
  delta sealLockFx
  repeat' (first
    | with_reducible exact Same.refl _ _
    | with_reducible assumption
    | ((with_reducible apply Same.step ?_ (cmdComplete_same _ _ _ _ _) ?_); on_goal 1 => rfl)
    | with_reducible apply Same.foldl ?_ ?_
    | (extract_lets +onlyGivenNames x; (with_reducible apply Same.cut x ?_ ?_); (on_goal 1 => (unfold x; clear x)); (on_goal 2 => (intro hx; clear_value x)))
    | (extract_lets +onlyGivenNames x; clear_value x)
    | (extract_lets +onlyGivenNames x; unfold x; clear x)
    | intro _
    | split)

theorem ringFlush_same (s : State) (a1 : ℕ) :
    Same 141029613249552 s (ringFlush s a1) := by
  delta ringFlush
  repeat' (first
    | with_reducible exact Same.refl _ _
    | with_reducible assumption
    | ((with_reducible apply Same.step ?_ (setRing_same _ _ _) ?_); on_goal 1 => rfl)
    | ((with_reducible apply Same.step ?_ (ringVoid_same _ _ _) ?_); on_goal 1 => rfl)
    | ((with_reducible apply Same.step ?_ (ringOver_same _ _) ?_); on_goal 1 => rfl)
    | with_reducible apply Same.upto ?_ ?_
    | (extract_lets +onlyGivenNames x; (with_reducible apply Same.cut x ?_ ?_); (on_goal 1 => (unfold x; clear x)); (on_goal 2 => (intro hx; clear_value x)))
    | (extract_lets +onlyGivenNames x; clear_value x)
    | (extract_lets +onlyGivenNames x; unfold x; clear x)
    | intro _
    | split)

theorem ringCfgFx_same (s : State) (a1 : ℕ) (a2 : ℕ) (a3 : ℕ) (a4 : Cause) :
    Same 141029613249552 s (ringCfgFx s a1 a2 a3 a4) := by
  delta ringCfgFx
  repeat' (first
    | with_reducible exact Same.refl _ _
    | with_reducible assumption
    | ((with_reducible apply Same.step ?_ (ringFlush_same _ _) ?_); on_goal 1 => rfl)
    | ((with_reducible apply Same.step ?_ (ringOver_same _ _) ?_); on_goal 1 => rfl)
    | ((with_reducible apply Same.step ?_ (raiseC_same _ _ _ _ _) ?_); on_goal 1 => rfl)
    | ((with_reducible apply Same.step ?_ (wr_same _ _ _) ?_); on_goal 1 => rfl)
    | (extract_lets +onlyGivenNames x; (with_reducible apply Same.cut x ?_ ?_); (on_goal 1 => (unfold x; clear x)); (on_goal 2 => (intro hx; clear_value x)))
    | (extract_lets +onlyGivenNames x; (with_reducible apply Same.cutF x ?_ ?_); (on_goal 1 => (unfold x; clear x; intro _ _)); (on_goal 2 => (intro hx; clear_value x)))
    | (extract_lets +onlyGivenNames x; (with_reducible apply Same.cutF1 x ?_ ?_); (on_goal 1 => (unfold x; clear x; intro _)); (on_goal 2 => (intro hx; clear_value x)))
    | (extract_lets +onlyGivenNames x; (with_reducible apply Same.cutG x ?_ ?_); (on_goal 1 => (unfold x; clear x; intro _)); (on_goal 2 => (intro hx; clear_value x)))
    | (extract_lets +onlyGivenNames x; clear_value x)
    | (extract_lets +onlyGivenNames x; unfold x; clear x)
    | intro _
    | split
    | ((with_reducible apply Same.viaF ?_ ?_); on_goal 1 => with_reducible assumption)
    | ((with_reducible apply Same.viaF1 ?_ ?_); on_goal 1 => with_reducible assumption)
    | ((with_reducible apply Same.viaG ?_); on_goal 1 => with_reducible assumption))

theorem wakeSc_same (s : State) (a1 : ℕ) :
    Same 32768 s (wakeSc s a1) := by
  delta wakeSc
  repeat' (first
    | with_reducible exact Same.refl _ _
    | with_reducible assumption
    | ((with_reducible apply Same.step ?_ (setSc_same _ _ _) ?_); on_goal 1 => rfl)
    | (extract_lets +onlyGivenNames x; (with_reducible apply Same.cut x ?_ ?_); (on_goal 1 => (unfold x; clear x)); (on_goal 2 => (intro hx; clear_value x)))
    | (extract_lets +onlyGivenNames x; clear_value x)
    | (extract_lets +onlyGivenNames x; unfold x; clear x)
    | split)

theorem sleepSc_same (s : State) (a1 : ℕ) :
    Same 32768 s (sleepSc s a1) := by
  delta sleepSc
  repeat' (first
    | with_reducible exact Same.refl _ _
    | with_reducible assumption
    | ((with_reducible apply Same.step ?_ (setSc_same _ _ _) ?_); on_goal 1 => rfl)
    | (extract_lets +onlyGivenNames x; (with_reducible apply Same.cut x ?_ ?_); (on_goal 1 => (unfold x; clear x)); (on_goal 2 => (intro hx; clear_value x)))
    | (extract_lets +onlyGivenNames x; clear_value x)
    | (extract_lets +onlyGivenNames x; unfold x; clear x)
    | split)

theorem scWakeEval_same (s : State) :
    Same 32768 s (scWakeEval s) := by
  delta scWakeEval
  repeat' (first
    | with_reducible exact Same.refl _ _
    | with_reducible assumption
    | ((with_reducible apply Same.step ?_ (wakeSc_same _ _) ?_); on_goal 1 => rfl)
    | ((with_reducible apply Same.step ?_ (sleepSc_same _ _) ?_); on_goal 1 => rfl)
    | with_reducible apply Same.upto ?_ ?_
    | (extract_lets +onlyGivenNames x; (with_reducible apply Same.cut x ?_ ?_); (on_goal 1 => (unfold x; clear x)); (on_goal 2 => (intro hx; clear_value x)))
    | (extract_lets +onlyGivenNames x; clear_value x)
    | (extract_lets +onlyGivenNames x; unfold x; clear x)
    | intro _
    | split)

theorem scCtrlFx_same (s : State) (a1 : ℕ) (a2 : ℕ) (a3 : ℕ) (a4 : Cause) :
    Same 40976 s (scCtrlFx s a1 a2 a3 a4) := by
  delta scCtrlFx
  repeat' (first
    | with_reducible exact Same.refl _ _
    | with_reducible assumption
    | ((with_reducible apply Same.step ?_ (scWakeEval_same _) ?_); on_goal 1 => rfl)
    | ((with_reducible apply Same.step ?_ (raiseC_same _ _ _ _ _) ?_); on_goal 1 => rfl)
    | (extract_lets +onlyGivenNames x; (with_reducible apply Same.cut x ?_ ?_); (on_goal 1 => (unfold x; clear x)); (on_goal 2 => (intro hx; clear_value x)))
    | (extract_lets +onlyGivenNames x; clear_value x)
    | (extract_lets +onlyGivenNames x; unfold x; clear x)
    | split)

theorem mateLos_same (s : State) :
    Same 139280 s (mateLos s) := by
  delta mateLos
  repeat' (first
    | with_reducible exact Same.refl _ _
    | with_reducible assumption
    | ((with_reducible apply Same.step ?_ (setLevel_same _ _ _ _) ?_); on_goal 1 => rfl)
    | with_reducible apply Same.foldl ?_ ?_
    | (extract_lets +onlyGivenNames x; (with_reducible apply Same.cut x ?_ ?_); (on_goal 1 => (unfold x; clear x)); (on_goal 2 => (intro hx; clear_value x)))
    | (extract_lets +onlyGivenNames x; clear_value x)
    | (extract_lets +onlyGivenNames x; unfold x; clear x)
    | intro _
    | split)

theorem refStop_same (s : State) (a1 : ℕ) (a2 : Bool) :
    Same 131088 s (refStop s a1 a2) := by
  delta refStop
  repeat' (first
    | with_reducible exact Same.refl _ _
    | with_reducible assumption
    | ((with_reducible apply Same.step ?_ (wb_same _ _ _ _ _) ?_); on_goal 1 => rfl)
    | ((with_reducible apply Same.step ?_ (qualRun_same _ _ _) ?_); on_goal 1 => rfl)
    | ((with_reducible apply Same.step ?_ (setRef_same _ _ _) ?_); on_goal 1 => rfl)
    | ((with_reducible apply Same.step ?_ (refEval_same _ _) ?_); on_goal 1 => rfl)
    | ((with_reducible apply Same.step ?_ (setRefBit_same _ _ _ _) ?_); on_goal 1 => rfl)
    | (extract_lets +onlyGivenNames x; (with_reducible apply Same.cut x ?_ ?_); (on_goal 1 => (unfold x; clear x)); (on_goal 2 => (intro hx; clear_value x)))
    | (extract_lets +onlyGivenNames x; clear_value x)
    | (extract_lets +onlyGivenNames x; unfold x; clear x)
    | split)

theorem refCtrlFx_same (s : State) (a1 : ℕ) (a2 : ℕ) (a3 : ℕ) :
    Same 139280 s (refCtrlFx s a1 a2 a3) := by
  delta refCtrlFx
  repeat' (first
    | with_reducible exact Same.refl _ _
    | with_reducible assumption
    | ((with_reducible apply Same.step ?_ (mateLos_same _) ?_); on_goal 1 => rfl)
    | ((with_reducible apply Same.step ?_ (refEval_same _ _) ?_); on_goal 1 => rfl)
    | ((with_reducible apply Same.step ?_ (refStop_same _ _ _) ?_); on_goal 1 => rfl)
    | (extract_lets +onlyGivenNames x; (with_reducible apply Same.cut x ?_ ?_); (on_goal 1 => (unfold x; clear x)); (on_goal 2 => (intro hx; clear_value x)))
    | (extract_lets +onlyGivenNames x; clear_value x)
    | (extract_lets +onlyGivenNames x; unfold x; clear x)
    | split)

theorem outChange_same (s : State) (a1 : ℕ) (a2 : ℕ) (a3 : ℕ) :
    Same 140737488357392 s (outChange s a1 a2 a3) := by
  delta outChange
  repeat' (first
    | with_reducible exact Same.refl _ _
    | with_reducible assumption
    | ((with_reducible apply Same.step ?_ (rangeCheck_same _ _) ?_); on_goal 1 => rfl)
    | ((with_reducible apply Same.step ?_ (emit_same _ _) ?_); on_goal 1 => rfl)
    | (extract_lets +onlyGivenNames x; (with_reducible apply Same.cut x ?_ ?_); (on_goal 1 => (unfold x; clear x)); (on_goal 2 => (intro hx; clear_value x)))
    | (extract_lets +onlyGivenNames x; clear_value x)
    | (extract_lets +onlyGivenNames x; unfold x; clear x)
    | split
    | ((with_reducible apply Same.put_time ?_ ?_) <;> [rfl; skip]))

theorem pwrFx_same (s : State) (a1 : ℕ) (a2 : ℕ) (a3 : ℕ) (a4 : ℕ) :
    Same 2199023255552 s (pwrFx s a1 a2 a3 a4) := by
  delta pwrFx
  repeat' (first
    | with_reducible exact Same.refl _ _
    | with_reducible assumption
    | (extract_lets +onlyGivenNames x; (with_reducible apply Same.cut x ?_ ?_); (on_goal 1 => (unfold x; clear x)); (on_goal 2 => (intro hx; clear_value x)))
    | (extract_lets +onlyGivenNames x; clear_value x)
    | (extract_lets +onlyGivenNames x; unfold x; clear x)
    | split
    | ((with_reducible apply Same.put_pwr ?_ ?_) <;> [rfl; skip]))

theorem leapFx_same (s : State) (a1 : Cause) :
    Same 10256 s (leapFx s a1) := by
  delta leapFx
  repeat' (first
    | with_reducible exact Same.refl _ _
    | with_reducible assumption
    | ((with_reducible apply Same.step ?_ (raiseC_same _ _ _ _ _) ?_); on_goal 1 => rfl)
    | ((with_reducible apply Same.step ?_ (wr_same _ _ _) ?_); on_goal 1 => rfl)
    | (extract_lets +onlyGivenNames x; (with_reducible apply Same.cut x ?_ ?_); (on_goal 1 => (unfold x; clear x)); (on_goal 2 => (intro hx; clear_value x)))
    | (extract_lets +onlyGivenNames x; (with_reducible apply Same.cutF x ?_ ?_); (on_goal 1 => (unfold x; clear x; intro _ _)); (on_goal 2 => (intro hx; clear_value x)))
    | (extract_lets +onlyGivenNames x; (with_reducible apply Same.cutF1 x ?_ ?_); (on_goal 1 => (unfold x; clear x; intro _)); (on_goal 2 => (intro hx; clear_value x)))
    | (extract_lets +onlyGivenNames x; (with_reducible apply Same.cutG x ?_ ?_); (on_goal 1 => (unfold x; clear x; intro _)); (on_goal 2 => (intro hx; clear_value x)))
    | (extract_lets +onlyGivenNames x; clear_value x)
    | (extract_lets +onlyGivenNames x; unfold x; clear x)
    | intro _
    | split
    | ((with_reducible apply Same.viaF ?_ ?_); on_goal 1 => with_reducible assumption)
    | ((with_reducible apply Same.viaF1 ?_ ?_); on_goal 1 => with_reducible assumption)
    | ((with_reducible apply Same.viaG ?_); on_goal 1 => with_reducible assumption)
    | ((with_reducible apply Same.put_time ?_ ?_) <;> [rfl; skip]))

theorem prioFx_same (s : State) (a1 : ℕ) (a2 : ℕ) (a3 : Cause) :
    Same 8208 s (prioFx s a1 a2 a3) := by
  delta prioFx
  repeat' (first
    | with_reducible exact Same.refl _ _
    | with_reducible assumption
    | ((with_reducible apply Same.step ?_ (raiseC_same _ _ _ _ _) ?_); on_goal 1 => rfl)
    | (extract_lets +onlyGivenNames x; (with_reducible apply Same.cut x ?_ ?_); (on_goal 1 => (unfold x; clear x)); (on_goal 2 => (intro hx; clear_value x)))
    | (extract_lets +onlyGivenNames x; clear_value x)
    | (extract_lets +onlyGivenNames x; unfold x; clear x)
    | split)

theorem linkDown_same (s : State) (a1 : ℕ) :
    Same 1048576 s (linkDown s a1) := by
  delta linkDown
  repeat' (first
    | with_reducible exact Same.refl _ _
    | with_reducible assumption
    | ((with_reducible apply Same.step ?_ (setLane_same _ _ _) ?_); on_goal 1 => rfl)
    | (extract_lets +onlyGivenNames x; (with_reducible apply Same.cut x ?_ ?_); (on_goal 1 => (unfold x; clear x)); (on_goal 2 => (intro hx; clear_value x)))
    | (extract_lets +onlyGivenNames x; clear_value x)
    | (extract_lets +onlyGivenNames x; unfold x; clear x)
    | split)

theorem laneOff_same (s : State) (a1 : ℕ) (a2 : Bool) :
    Same 1048576 s (laneOff s a1 a2) := by
  delta laneOff
  repeat' (first
    | with_reducible exact Same.refl _ _
    | with_reducible assumption
    | ((with_reducible apply Same.step ?_ (linkDown_same _ _) ?_); on_goal 1 => rfl)
    | ((with_reducible apply Same.step ?_ (setLane_same _ _ _) ?_); on_goal 1 => rfl)
    | (extract_lets +onlyGivenNames x; (with_reducible apply Same.cut x ?_ ?_); (on_goal 1 => (unfold x; clear x)); (on_goal 2 => (intro hx; clear_value x)))
    | (extract_lets +onlyGivenNames x; clear_value x)
    | (extract_lets +onlyGivenNames x; unfold x; clear x)
    | split)

theorem sealCtrlFx_same (s : State) (a1 : ℕ) (a2 : ℕ) :
    Same 4096 s (sealCtrlFx s a1 a2) := by
  delta sealCtrlFx
  repeat' (first
    | with_reducible exact Same.refl _ _
    | with_reducible assumption
    | (extract_lets +onlyGivenNames x; (with_reducible apply Same.cut x ?_ ?_); (on_goal 1 => (unfold x; clear x)); (on_goal 2 => (intro hx; clear_value x)))
    | (extract_lets +onlyGivenNames x; clear_value x)
    | (extract_lets +onlyGivenNames x; unfold x; clear x)
    | split
    | ((with_reducible apply Same.put_seal ?_ ?_) <;> [rfl; skip]))

theorem bumpOrder_same (s : State) :
    Same 8 s (bumpOrder s) := by
  delta bumpOrder
  repeat' (first
    | with_reducible exact Same.refl _ _
    | with_reducible assumption
    | (extract_lets +onlyGivenNames x; (with_reducible apply Same.cut x ?_ ?_); (on_goal 1 => (unfold x; clear x)); (on_goal 2 => (intro hx; clear_value x)))
    | (extract_lets +onlyGivenNames x; clear_value x)
    | (extract_lets +onlyGivenNames x; unfold x; clear x)
    | split
    | ((with_reducible apply Same.put_order ?_ ?_) <;> [rfl; skip]))

theorem snapEnter_same {s x : State} {a1 : ℕ} {a2 : Option ℕ}
    (h : snapEnter s a1 a2 = some x) : Same 16392 s x := by
  delta snapEnter at h
  rw [Option.map_eq_some_iff] at h
  obtain ⟨q, -, rfl⟩ := h
  exact Same.step (by rfl) (bumpOrder_same _) (Same.put_snap (by rfl) (Same.refl _ _))

theorem snapCmdFx_same (s : State) (a1 : ℕ) (a2 : Cause) :
    Same 140754668249112 s (snapCmdFx s a1 a2) := by
  delta snapCmdFx
  repeat' (first
    | with_reducible exact Same.refl _ _
    | with_reducible assumption
    | ((with_reducible apply Same.step ?_ (orBits_same _ _ _) ?_); on_goal 1 => rfl)
    | ((with_reducible apply Same.step ?_ (raiseC_same _ _ _ _ _) ?_); on_goal 1 => rfl)
    | ((with_reducible apply Same.step ?_ (snapTrigger_same _ _ _ _) ?_); on_goal 1 => rfl)
    | exact Same.step rfl (snapEnter_same (by with_reducible assumption)) (by with_reducible first | assumption | exact Same.refl _ _)
    | (extract_lets +onlyGivenNames x; (with_reducible apply Same.cut x ?_ ?_); (on_goal 1 => (unfold x; clear x)); (on_goal 2 => (intro hx; clear_value x)))
    | (extract_lets +onlyGivenNames x; clear_value x)
    | (extract_lets +onlyGivenNames x; unfold x; clear x)
    | split)

theorem bandcalStart_same (s : State) (a1 : ℕ) (a2 : Cause) :
    Same 40976 s (bandcalStart s a1 a2) := by
  delta bandcalStart
  repeat' (first
    | with_reducible exact Same.refl _ _
    | with_reducible assumption
    | ((with_reducible apply Same.step ?_ (scRefuse_same _ _ _ _) ?_); on_goal 1 => rfl)
    | ((with_reducible apply Same.step ?_ (setSc_same _ _ _) ?_); on_goal 1 => rfl)
    | (extract_lets +onlyGivenNames x; (with_reducible apply Same.cut x ?_ ?_); (on_goal 1 => (unfold x; clear x)); (on_goal 2 => (intro hx; clear_value x)))
    | (extract_lets +onlyGivenNames x; clear_value x)
    | (extract_lets +onlyGivenNames x; unfold x; clear x)
    | split)

theorem scCmdFx_same (s : State) (a1 : ℕ) (a2 : ℕ) (a3 : Cause) :
    Same 140754669379600 s (scCmdFx s a1 a2 a3) := by
  delta scCmdFx
  repeat' (first
    | with_reducible exact Same.refl _ _
    | with_reducible assumption
    | ((with_reducible apply Same.step ?_ (retuneStart_same _ _ _ _ _ _ _ _ _ _) ?_); on_goal 1 => rfl)
    | ((with_reducible apply Same.step ?_ (bandcalStart_same _ _ _) ?_); on_goal 1 => rfl)
    | (extract_lets +onlyGivenNames x; (with_reducible apply Same.cut x ?_ ?_); (on_goal 1 => (unfold x; clear x)); (on_goal 2 => (intro hx; clear_value x)))
    | (extract_lets +onlyGivenNames x; clear_value x)
    | (extract_lets +onlyGivenNames x; unfold x; clear x)
    | split)

theorem dpCmdFx_same (s : State) (a1 : ℕ) (a2 : ℕ) :
    Same 262144 s (dpCmdFx s a1 a2) := by
  delta dpCmdFx
  repeat' (first
    | with_reducible exact Same.refl _ _
    | with_reducible assumption
    | ((with_reducible apply Same.step ?_ (setDp_same _ _ _) ?_); on_goal 1 => rfl)
    | (extract_lets +onlyGivenNames x; (with_reducible apply Same.cut x ?_ ?_); (on_goal 1 => (unfold x; clear x)); (on_goal 2 => (intro hx; clear_value x)))
    | (extract_lets +onlyGivenNames x; clear_value x)
    | (extract_lets +onlyGivenNames x; unfold x; clear x)
    | split)

theorem setPend_same (s : State) (a1 : ℕ) (a2 : ℕ) :
    Same 8192 s (setPend s a1 a2) := by
  delta setPend
  repeat' (first
    | with_reducible exact Same.refl _ _
    | with_reducible assumption
    | (extract_lets +onlyGivenNames x; (with_reducible apply Same.cut x ?_ ?_); (on_goal 1 => (unfold x; clear x)); (on_goal 2 => (intro hx; clear_value x)))
    | (extract_lets +onlyGivenNames x; clear_value x)
    | (extract_lets +onlyGivenNames x; unfold x; clear x)
    | split
    | ((with_reducible apply Same.put_fcol ?_ ?_) <;> [rfl; skip]))

theorem pendFx_same (s : State) (a1 : ℕ) (a2 : ℕ) :
    Same 8192 s (pendFx s a1 a2) := by
  delta pendFx
  repeat' (first
    | with_reducible exact Same.refl _ _
    | with_reducible assumption
    | ((with_reducible apply Same.step ?_ (setPend_same _ _ _) ?_); on_goal 1 => rfl)
    | with_reducible apply Same.upto ?_ ?_
    | (extract_lets +onlyGivenNames x; (with_reducible apply Same.cut x ?_ ?_); (on_goal 1 => (unfold x; clear x)); (on_goal 2 => (intro hx; clear_value x)))
    | (extract_lets +onlyGivenNames x; clear_value x)
    | (extract_lets +onlyGivenNames x; unfold x; clear x)
    | intro _
    | split)

theorem setHandle_same (s : State) (a1 : ℕ) (a2 : ℕ) :
    Same 137438953472 s (setHandle s a1 a2) := by
  delta setHandle
  repeat' (first
    | with_reducible exact Same.refl _ _
    | with_reducible assumption
    | (extract_lets +onlyGivenNames x; (with_reducible apply Same.cut x ?_ ?_); (on_goal 1 => (unfold x; clear x)); (on_goal 2 => (intro hx; clear_value x)))
    | (extract_lets +onlyGivenNames x; clear_value x)
    | (extract_lets +onlyGivenNames x; unfold x; clear x)
    | split
    | ((with_reducible apply Same.put_cmd ?_ ?_) <;> [rfl; skip]))

theorem cmdSubmit_same (s : State) (a1 : ℕ) (a2 : ℕ) (a3 : ℕ) (a4 : ℕ) (a5 : ℕ) :
    Same 137438961688 s (cmdSubmit s a1 a2 a3 a4 a5) := by
  delta cmdSubmit
  repeat' (first
    | with_reducible exact Same.refl _ _
    | with_reducible assumption
    | ((with_reducible apply Same.step ?_ (bump_same _ _ _) ?_); on_goal 1 => rfl)
    | ((with_reducible apply Same.step ?_ (cmdAlloc_same _ _ _ _ _ _ _) ?_); on_goal 1 => rfl)
    | ((with_reducible apply Same.step ?_ (raise_same _ _ _ _ _ _) ?_); on_goal 1 => rfl)
    | ((with_reducible apply Same.step ?_ (setHandle_same _ _ _) ?_); on_goal 1 => rfl)
    | (extract_lets +onlyGivenNames x; (with_reducible apply Same.cut x ?_ ?_); (on_goal 1 => (unfold x; clear x)); (on_goal 2 => (intro hx; clear_value x)))
    | (extract_lets +onlyGivenNames x; clear_value x)
    | (extract_lets +onlyGivenNames x; unfold x; clear x)
    | split)

theorem forward_same (s : State) (a1 : List ℤ) :
    Same 140754668224512 s (forward s a1) := by
  delta forward
  repeat' (first
    | with_reducible exact Same.refl _ _
    | with_reducible assumption
    | ((with_reducible apply Same.step ?_ (mateSend_same _ _ _) ?_); on_goal 1 => rfl)
    | (extract_lets +onlyGivenNames x; (with_reducible apply Same.cut x ?_ ?_); (on_goal 1 => (unfold x; clear x)); (on_goal 2 => (intro hx; clear_value x)))
    | (extract_lets +onlyGivenNames x; clear_value x)
    | (extract_lets +onlyGivenNames x; unfold x; clear x)
    | split)

theorem cmdIn_same (s : State) (a1 : ℕ) (a2 : ℕ) (a3 : ℕ) (a4 : ℕ) (a5 : ℕ) :
    Same 140892107186200 s (cmdIn s a1 a2 a3 a4 a5) := by
  delta cmdIn
  repeat' (first
    | with_reducible exact Same.refl _ _
    | with_reducible assumption
    | ((with_reducible apply Same.step ?_ (cmdSubmit_same _ _ _ _ _ _) ?_); on_goal 1 => rfl)
    | ((with_reducible apply Same.step ?_ (forward_same _ _) ?_); on_goal 1 => rfl)
    | (extract_lets +onlyGivenNames x; (with_reducible apply Same.cut x ?_ ?_); (on_goal 1 => (unfold x; clear x)); (on_goal 2 => (intro hx; clear_value x)))
    | (extract_lets +onlyGivenNames x; clear_value x)
    | (extract_lets +onlyGivenNames x; unfold x; clear x)
    | split)

theorem timeEnter_same {s x : State} {a1 : ℕ} {a2 : Option ℕ} {a3 : ActKind}
    (h : timeEnter s a1 a2 a3 = some x) : Same 2056 s x := by
  delta timeEnter at h
  rw [Option.map_eq_some_iff] at h
  obtain ⟨q, -, rfl⟩ := h
  exact Same.step (by rfl) (bumpOrder_same _) (Same.put_time (by rfl) (Same.refl _ _))

theorem timeEnq_same (s : State) (a1 : Cause) :
    Same 10264 s (timeEnq s a1) := by
  delta timeEnq
  repeat' (first
    | with_reducible exact Same.refl _ _
    | with_reducible assumption
    | ((with_reducible apply Same.step ?_ (orBits_same _ _ _) ?_); on_goal 1 => rfl)
    | ((with_reducible apply Same.step ?_ (raiseC_same _ _ _ _ _) ?_); on_goal 1 => rfl)
    | exact Same.step rfl (timeEnter_same (by with_reducible assumption)) (by with_reducible first | assumption | exact Same.refl _ _)
    | (extract_lets +onlyGivenNames x; (with_reducible apply Same.cut x ?_ ?_); (on_goal 1 => (unfold x; clear x)); (on_goal 2 => (intro hx; clear_value x)))
    | (extract_lets +onlyGivenNames x; (with_reducible apply Same.cutF x ?_ ?_); (on_goal 1 => (unfold x; clear x; intro _ _)); (on_goal 2 => (intro hx; clear_value x)))
    | (extract_lets +onlyGivenNames x; (with_reducible apply Same.cutF1 x ?_ ?_); (on_goal 1 => (unfold x; clear x; intro _)); (on_goal 2 => (intro hx; clear_value x)))
    | (extract_lets +onlyGivenNames x; (with_reducible apply Same.cutG x ?_ ?_); (on_goal 1 => (unfold x; clear x; intro _)); (on_goal 2 => (intro hx; clear_value x)))
    | (extract_lets +onlyGivenNames x; clear_value x)
    | (extract_lets +onlyGivenNames x; unfold x; clear x)
    | intro _
    | split
    | ((with_reducible apply Same.viaF ?_ ?_); on_goal 1 => with_reducible assumption)
    | ((with_reducible apply Same.viaF1 ?_ ?_); on_goal 1 => with_reducible assumption)
    | ((with_reducible apply Same.viaG ?_); on_goal 1 => with_reducible assumption))

theorem timeCmdFx_same (s : State) (a1 : ℕ) (a2 : Cause) :
    Same 10264 s (timeCmdFx s a1 a2) := by
  delta timeCmdFx
  repeat' (first
    | with_reducible exact Same.refl _ _
    | with_reducible assumption
    | ((with_reducible apply Same.step ?_ (timeEnq_same _ _) ?_); on_goal 1 => rfl)
    | (extract_lets +onlyGivenNames x; (with_reducible apply Same.cut x ?_ ?_); (on_goal 1 => (unfold x; clear x)); (on_goal 2 => (intro hx; clear_value x)))
    | (extract_lets +onlyGivenNames x; clear_value x)
    | (extract_lets +onlyGivenNames x; unfold x; clear x)
    | split
    | ((with_reducible apply Same.put_time ?_ ?_) <;> [rfl; skip]))

theorem hopGoCmd_same (s : State) (a1 : ℕ) (a2 : ℕ) (a3 : Cause) :
    Same 140754669346832 s (hopGoCmd s a1 a2 a3) := by
  delta hopGoCmd
  repeat' (first
    | with_reducible exact Same.refl _ _
    | with_reducible assumption
    | ((with_reducible apply Same.step ?_ (holdHop_same _ _ _ _ _) ?_); on_goal 1 => rfl)
    | ((with_reducible apply Same.step ?_ (hopRateMark_same _ _ _) ?_); on_goal 1 => rfl)
    | ((with_reducible apply Same.step ?_ (hopExec_same _ _ _ _ _ _) ?_); on_goal 1 => rfl)
    | (extract_lets +onlyGivenNames x; (with_reducible apply Same.cut x ?_ ?_); (on_goal 1 => (unfold x; clear x)); (on_goal 2 => (intro hx; clear_value x)))
    | (extract_lets +onlyGivenNames x; clear_value x)
    | (extract_lets +onlyGivenNames x; unfold x; clear x)
    | split)

theorem hopCmdFx_same (s : State) (a1 : ℕ) (a2 : ℕ) (a3 : Cause) :
    Same 140754669346832 s (hopCmdFx s a1 a2 a3) := by
  delta hopCmdFx
  repeat' (first
    | with_reducible exact Same.refl _ _
    | with_reducible assumption
    | ((with_reducible apply Same.step ?_ (hopGoCmd_same _ _ _ _) ?_); on_goal 1 => rfl)
    | (extract_lets +onlyGivenNames x; (with_reducible apply Same.cut x ?_ ?_); (on_goal 1 => (unfold x; clear x)); (on_goal 2 => (intro hx; clear_value x)))
    | (extract_lets +onlyGivenNames x; clear_value x)
    | (extract_lets +onlyGivenNames x; unfold x; clear x)
    | split)

theorem noteWrite_same (s : State) (a1 : ℕ) :
    Same 512 s (noteWrite s a1) := by
  delta noteWrite
  repeat' (first
    | with_reducible exact Same.refl _ _
    | with_reducible assumption
    | (extract_lets +onlyGivenNames x; (with_reducible apply Same.cut x ?_ ?_); (on_goal 1 => (unfold x; clear x)); (on_goal 2 => (intro hx; clear_value x)))
    | (extract_lets +onlyGivenNames x; clear_value x)
    | (extract_lets +onlyGivenNames x; unfold x; clear x)
    | split
    | ((with_reducible apply Same.put_cycle ?_ ?_) <;> [rfl; skip]))

theorem hopCommit_same (s : State) (a1 : ℕ) (a2 : HopEnt) (a3 : Cause) :
    Same 17179943440 s (hopCommit s a1 a2 a3) := by
  delta hopCommit
  repeat' (first
    | with_reducible exact Same.refl _ _
    | with_reducible assumption
    | ((with_reducible apply Same.step ?_ (raiseFod_same _ _ _ _) ?_); on_goal 1 => rfl)
    | ((with_reducible apply Same.step ?_ (orBits_same _ _ _) ?_); on_goal 1 => rfl)
    | ((with_reducible apply Same.step ?_ (noteWrite_same _ _) ?_); on_goal 1 => rfl)
    | ((with_reducible apply Same.step ?_ (setFod_same _ _ _) ?_); on_goal 1 => rfl)
    | ((with_reducible apply Same.step ?_ (markHops_same _ _) ?_); on_goal 1 => rfl)
    | (extract_lets +onlyGivenNames x; (with_reducible apply Same.cut x ?_ ?_); (on_goal 1 => (unfold x; clear x)); (on_goal 2 => (intro hx; clear_value x)))
    | (extract_lets +onlyGivenNames x; clear_value x)
    | (extract_lets +onlyGivenNames x; unfold x; clear x)
    | split)

theorem plainTurn_same (s : State) (a1 : ℕ) (a2 : ℚ) (a3 : ℚ) :
    Same 140754669346832 s (plainTurn s a1 a2 a3) := by
  delta plainTurn
  repeat' (first
    | with_reducible exact Same.refl _ _
    | with_reducible assumption
    | ((with_reducible apply Same.step ?_ (pushRec_same _ _ _ _ _ _ _ _) ?_); on_goal 1 => rfl)
    | (extract_lets +onlyGivenNames x; (with_reducible apply Same.cut x ?_ ?_); (on_goal 1 => (unfold x; clear x)); (on_goal 2 => (intro hx; clear_value x)))
    | (extract_lets +onlyGivenNames x; clear_value x)
    | (extract_lets +onlyGivenNames x; unfold x; clear x)
    | split)

theorem fodHalt_same (s : State) (a1 : ℕ) :
    Same 65536 s (fodHalt s a1) := by
  delta fodHalt
  repeat' (first
    | with_reducible exact Same.refl _ _
    | with_reducible assumption
    | ((with_reducible apply Same.step ?_ (setFod_same _ _ _) ?_); on_goal 1 => rfl)
    | (extract_lets +onlyGivenNames x; (with_reducible apply Same.cut x ?_ ?_); (on_goal 1 => (unfold x; clear x)); (on_goal 2 => (intro hx; clear_value x)))
    | (extract_lets +onlyGivenNames x; clear_value x)
    | (extract_lets +onlyGivenNames x; unfold x; clear x)
    | split)

theorem fodCtrlSet_same (s : State) (a1 : ℕ) (a2 : ℕ) (a3 : ℕ) (a4 : Cause) :
    Same 140755206250512 s (fodCtrlSet s a1 a2 a3 a4) := by
  delta fodCtrlSet
  repeat' (first
    | with_reducible exact Same.refl _ _
    | with_reducible assumption
    | ((with_reducible apply Same.step ?_ (alignMove_same _ _ _ _) ?_); on_goal 1 => rfl)
    | ((with_reducible apply Same.step ?_ (groupEval_same _) ?_); on_goal 1 => rfl)
    | ((with_reducible apply Same.step ?_ (plainTurn_same _ _ _ _) ?_); on_goal 1 => rfl)
    | ((with_reducible apply Same.step ?_ (scWakeEval_same _) ?_); on_goal 1 => rfl)
    | ((with_reducible apply Same.step ?_ (fodHalt_same _ _) ?_); on_goal 1 => rfl)
    | ((with_reducible apply Same.step ?_ (alignOff_same _ _) ?_); on_goal 1 => rfl)
    | (extract_lets +onlyGivenNames x; (with_reducible apply Same.cut x ?_ ?_); (on_goal 1 => (unfold x; clear x)); (on_goal 2 => (intro hx; clear_value x)))
    | (extract_lets +onlyGivenNames x; clear_value x)
    | (extract_lets +onlyGivenNames x; unfold x; clear x)
    | split)

theorem slewRerate_same (s : State) (a1 : ℕ) (a2 : Cause) :
    Same 140754669346832 s (slewRerate s a1 a2) := by
  delta slewRerate
  repeat' (first
    | with_reducible exact Same.refl _ _
    | with_reducible assumption
    | ((with_reducible apply Same.step ?_ (slewSettle_same _ _ _) ?_); on_goal 1 => rfl)
    | ((with_reducible apply Same.step ?_ (slewEdges_same _ _ _ _ _ _ _ _) ?_); on_goal 1 => rfl)
    | (extract_lets +onlyGivenNames x; (with_reducible apply Same.cut x ?_ ?_); (on_goal 1 => (unfold x; clear x)); (on_goal 2 => (intro hx; clear_value x)))
    | (extract_lets +onlyGivenNames x; clear_value x)
    | (extract_lets +onlyGivenNames x; unfold x; clear x)
    | split)

theorem fodOutSet_same (s : State) (a1 : ℕ) (a2 : ℕ) (a3 : ℕ) (a4 : Cause) :
    Same 73744 s (fodOutSet s a1 a2 a3 a4) := by
  delta fodOutSet
  repeat' (first
    | with_reducible exact Same.refl _ _
    | with_reducible assumption
    | ((with_reducible apply Same.step ?_ (raiseFod_same _ _ _ _) ?_); on_goal 1 => rfl)
    | ((with_reducible apply Same.step ?_ (formatCheck_same _ _ _) ?_); on_goal 1 => rfl)
    | ((with_reducible apply Same.step ?_ (oenOn_same _ _ _ _) ?_); on_goal 1 => rfl)
    | ((with_reducible apply Same.step ?_ (setFod_same _ _ _) ?_); on_goal 1 => rfl)
    | (extract_lets +onlyGivenNames x; (with_reducible apply Same.cut x ?_ ?_); (on_goal 1 => (unfold x; clear x)); (on_goal 2 => (intro hx; clear_value x)))
    | (extract_lets +onlyGivenNames x; clear_value x)
    | (extract_lets +onlyGivenNames x; unfold x; clear x)
    | split)

theorem phaseStop_same (s : State) (a1 : ℕ) (a2 : ℚ) (a3 : ℕ) (a4 : Cause) :
    Same 140754669346832 s (phaseStop s a1 a2 a3 a4) := by
  delta phaseStop
  repeat' (first
    | with_reducible exact Same.refl _ _
    | with_reducible assumption
    | ((with_reducible apply Same.step ?_ (slewSettle_same _ _ _) ?_); on_goal 1 => rfl)
    | ((with_reducible apply Same.step ?_ (setFod_same _ _ _) ?_); on_goal 1 => rfl)
    | ((with_reducible apply Same.step ?_ (slewEdges_same _ _ _ _ _ _ _ _) ?_); on_goal 1 => rfl)
    | (extract_lets +onlyGivenNames x; (with_reducible apply Same.cut x ?_ ?_); (on_goal 1 => (unfold x; clear x)); (on_goal 2 => (intro hx; clear_value x)))
    | (extract_lets +onlyGivenNames x; clear_value x)
    | (extract_lets +onlyGivenNames x; unfold x; clear x)
    | split)

theorem fodQueued_same (s : State) (a1 : ℕ) :
    Same 140754669346832 s (fodQueued s a1) := by
  delta fodQueued
  repeat' (first
    | with_reducible exact Same.refl _ _
    | with_reducible assumption
    | ((with_reducible apply Same.step ?_ (fodActRun_same _ _ _ _ _ _) ?_); on_goal 1 => rfl)
    | with_reducible apply Same.foldl ?_ ?_
    | (extract_lets +onlyGivenNames x; (with_reducible apply Same.cut x ?_ ?_); (on_goal 1 => (unfold x; clear x)); (on_goal 2 => (intro hx; clear_value x)))
    | (extract_lets +onlyGivenNames x; clear_value x)
    | (extract_lets +onlyGivenNames x; unfold x; clear x)
    | intro _
    | split)

theorem fodCmdFx_same (s : State) (a1 : ℕ) (a2 : ℕ) (a3 : Cause) :
    Same 140754669346832 s (fodCmdFx s a1 a2 a3) := by
  delta fodCmdFx
  repeat' (first
    | with_reducible exact Same.refl _ _
    | with_reducible assumption
    | ((with_reducible apply Same.step ?_ (phaseStep_same _ _ _ _ _ _) ?_); on_goal 1 => rfl)
    | ((with_reducible apply Same.step ?_ (phaseStop_same _ _ _ _ _) ?_); on_goal 1 => rfl)
    | ((with_reducible apply Same.step ?_ (fodQueued_same _ _) ?_); on_goal 1 => rfl)
    | ((with_reducible apply Same.step ?_ (phaseSlew_same _ _ _ _ _ _) ?_); on_goal 1 => rfl)
    | (extract_lets +onlyGivenNames x; (with_reducible apply Same.cut x ?_ ?_); (on_goal 1 => (unfold x; clear x)); (on_goal 2 => (intro hx; clear_value x)))
    | (extract_lets +onlyGivenNames x; clear_value x)
    | (extract_lets +onlyGivenNames x; unfold x; clear x)
    | split)

theorem redivide_same (s : State) (a1 : ℕ) (a2 : Fod) (a3 : ℕ) (a4 : ℕ) (a5 : ℚ) (a6 : ℕ) (a7 : Cause) :
    Same 140754669346832 s (redivide s a1 a2 a3 a4 a5 a6 a7) := by
  delta redivide
  repeat' (first
    | with_reducible exact Same.refl _ _
    | with_reducible assumption
    | ((with_reducible apply Same.step ?_ (setFod_same _ _ _) ?_); on_goal 1 => rfl)
    | ((with_reducible apply Same.step ?_ (pushRec_same _ _ _ _ _ _ _ _) ?_); on_goal 1 => rfl)
    | (extract_lets +onlyGivenNames x; (with_reducible apply Same.cut x ?_ ?_); (on_goal 1 => (unfold x; clear x)); (on_goal 2 => (intro hx; clear_value x)))
    | (extract_lets +onlyGivenNames x; clear_value x)
    | (extract_lets +onlyGivenNames x; unfold x; clear x)
    | split)

theorem switchInput_same (s : State) (a1 : ℕ) (a2 : ℕ) (a3 : Option (ℕ × ℕ × ℕ)) (a4 : Cause) :
    Same 140754669379600 s (switchInput s a1 a2 a3 a4) := by
  delta switchInput
  repeat' (first
    | with_reducible exact Same.refl _ _
    | with_reducible assumption
    | ((with_reducible apply Same.step ?_ (alignMove_same _ _ _ _) ?_); on_goal 1 => rfl)
    | ((with_reducible apply Same.step ?_ (formatCheck_same _ _ _) ?_); on_goal 1 => rfl)
    | ((with_reducible apply Same.step ?_ (scWakeEval_same _) ?_); on_goal 1 => rfl)
    | ((with_reducible apply Same.step ?_ (convertHops_same _ _ _) ?_); on_goal 1 => rfl)
    | ((with_reducible apply Same.step ?_ (redivide_same _ _ _ _ _ _ _ _) ?_); on_goal 1 => rfl)
    | ((with_reducible apply Same.step ?_ (fodHalt_same _ _) ?_); on_goal 1 => rfl)
    | ((with_reducible apply Same.step ?_ (slewSettle_same _ _ _) ?_); on_goal 1 => rfl)
    | ((with_reducible apply Same.step ?_ (setFod_same _ _ _) ?_); on_goal 1 => rfl)
    | ((with_reducible apply Same.step ?_ (hwDiv_same _ _ _ _ _ _) ?_); on_goal 1 => rfl)
    | ((with_reducible apply Same.step ?_ (alignOff_same _ _) ?_); on_goal 1 => rfl)
    | ((with_reducible apply Same.step ?_ (slowCheck_same _ _) ?_); on_goal 1 => rfl)
    | (extract_lets +onlyGivenNames x; (with_reducible apply Same.cut x ?_ ?_); (on_goal 1 => (unfold x; clear x)); (on_goal 2 => (intro hx; clear_value x)))
    | (extract_lets +onlyGivenNames x; clear_value x)
    | (extract_lets +onlyGivenNames x; unfold x; clear x)
    | split)

theorem inselSet_same (s : State) (a1 : ℕ) (a2 : ℕ) (a3 : Cause) :
    Same 140754669379600 s (inselSet s a1 a2 a3) := by
  delta inselSet
  repeat' (first
    | with_reducible exact Same.refl _ _
    | with_reducible assumption
    | ((with_reducible apply Same.step ?_ (raiseFod_same _ _ _ _) ?_); on_goal 1 => rfl)
    | ((with_reducible apply Same.step ?_ (orBits_same _ _ _) ?_); on_goal 1 => rfl)
    | ((with_reducible apply Same.step ?_ (wb_same _ _ _ _ _) ?_); on_goal 1 => rfl)
    | ((with_reducible apply Same.step ?_ (scWakeEval_same _) ?_); on_goal 1 => rfl)
    | ((with_reducible apply Same.step ?_ (setFod_same _ _ _) ?_); on_goal 1 => rfl)
    | ((with_reducible apply Same.step ?_ (wr_same _ _ _) ?_); on_goal 1 => rfl)
    | ((with_reducible apply Same.step ?_ (switchInput_same _ _ _ _ _) ?_); on_goal 1 => rfl)
    | (extract_lets +onlyGivenNames x; (with_reducible apply Same.cut x ?_ ?_); (on_goal 1 => (unfold x; clear x)); (on_goal 2 => (intro hx; clear_value x)))
    | (extract_lets +onlyGivenNames x; (with_reducible apply Same.cutF x ?_ ?_); (on_goal 1 => (unfold x; clear x; intro _ _)); (on_goal 2 => (intro hx; clear_value x)))
    | (extract_lets +onlyGivenNames x; (with_reducible apply Same.cutF1 x ?_ ?_); (on_goal 1 => (unfold x; clear x; intro _)); (on_goal 2 => (intro hx; clear_value x)))
    | (extract_lets +onlyGivenNames x; (with_reducible apply Same.cutG x ?_ ?_); (on_goal 1 => (unfold x; clear x; intro _)); (on_goal 2 => (intro hx; clear_value x)))
    | (extract_lets +onlyGivenNames x; clear_value x)
    | (extract_lets +onlyGivenNames x; unfold x; clear x)
    | intro _
    | split
    | ((with_reducible apply Same.viaF ?_ ?_); on_goal 1 => with_reducible assumption)
    | ((with_reducible apply Same.viaF1 ?_ ?_); on_goal 1 => with_reducible assumption)
    | ((with_reducible apply Same.viaG ?_); on_goal 1 => with_reducible assumption))

theorem divCommit_same (s : State) (a1 : ℕ) (a2 : Cause) :
    Same 140754669346832 s (divCommit s a1 a2) := by
  delta divCommit
  repeat' (first
    | with_reducible exact Same.refl _ _
    | with_reducible assumption
    | ((with_reducible apply Same.step ?_ (formatCheck_same _ _ _) ?_); on_goal 1 => rfl)
    | ((with_reducible apply Same.step ?_ (redivide_same _ _ _ _ _ _ _ _) ?_); on_goal 1 => rfl)
    | ((with_reducible apply Same.step ?_ (setFod_same _ _ _) ?_); on_goal 1 => rfl)
    | ((with_reducible apply Same.step ?_ (slowCheck_same _ _) ?_); on_goal 1 => rfl)
    | (extract_lets +onlyGivenNames x; (with_reducible apply Same.cut x ?_ ?_); (on_goal 1 => (unfold x; clear x)); (on_goal 2 => (intro hx; clear_value x)))
    | (extract_lets +onlyGivenNames x; clear_value x)
    | (extract_lets +onlyGivenNames x; unfold x; clear x)
    | split)

theorem odlySet_same (s : State) (a1 : ℕ) (a2 : Cause) :
    Same 140754669346832 s (odlySet s a1 a2) := by
  delta odlySet
  repeat' (first
    | with_reducible exact Same.refl _ _
    | with_reducible assumption
    | ((with_reducible apply Same.step ?_ (setFod_same _ _ _) ?_); on_goal 1 => rfl)
    | ((with_reducible apply Same.step ?_ (stepEdges_same _ _ _ _ _ _ _) ?_); on_goal 1 => rfl)
    | (extract_lets +onlyGivenNames x; (with_reducible apply Same.cut x ?_ ?_); (on_goal 1 => (unfold x; clear x)); (on_goal 2 => (intro hx; clear_value x)))
    | (extract_lets +onlyGivenNames x; clear_value x)
    | (extract_lets +onlyGivenNames x; unfold x; clear x)
    | split)

theorem fodFx_same (s : State) (a1 : ℕ) (a2 : ℕ) (a3 : ℕ) (a4 : ℕ) (a5 : ℕ) (a6 : Cause) :
    Same 140755206251024 s (fodFx s a1 a2 a3 a4 a5 a6) := by
  delta fodFx
  repeat' (first
    | with_reducible exact Same.refl _ _
    | with_reducible assumption
    | ((with_reducible apply Same.step ?_ (hopCmdFx_same _ _ _ _) ?_); on_goal 1 => rfl)
    | ((with_reducible apply Same.step ?_ (hopCommit_same _ _ _ _) ?_); on_goal 1 => rfl)
    | ((with_reducible apply Same.step ?_ (fodCtrlSet_same _ _ _ _ _) ?_); on_goal 1 => rfl)
    | ((with_reducible apply Same.step ?_ (slewRerate_same _ _ _) ?_); on_goal 1 => rfl)
    | ((with_reducible apply Same.step ?_ (fodOutSet_same _ _ _ _ _) ?_); on_goal 1 => rfl)
    | ((with_reducible apply Same.step ?_ (fodCmdFx_same _ _ _ _) ?_); on_goal 1 => rfl)
    | ((with_reducible apply Same.step ?_ (inselSet_same _ _ _ _) ?_); on_goal 1 => rfl)
    | ((with_reducible apply Same.step ?_ (divCommit_same _ _ _) ?_); on_goal 1 => rfl)
    | ((with_reducible apply Same.step ?_ (odlySet_same _ _ _) ?_); on_goal 1 => rfl)
    | (extract_lets +onlyGivenNames x; (with_reducible apply Same.cut x ?_ ?_); (on_goal 1 => (unfold x; clear x)); (on_goal 2 => (intro hx; clear_value x)))
    | (extract_lets +onlyGivenNames x; clear_value x)
    | (extract_lets +onlyGivenNames x; unfold x; clear x)
    | split)

theorem genSwitchFx_same (s : State) (a1 : Cause) :
    Same 8208 s (genSwitchFx s a1) := by
  delta genSwitchFx
  repeat' (first
    | with_reducible exact Same.refl _ _
    | with_reducible assumption
    | ((with_reducible apply Same.step ?_ (wb_same _ _ _ _ _) ?_); on_goal 1 => rfl)
    | ((with_reducible apply Same.step ?_ (raiseC_same _ _ _ _ _) ?_); on_goal 1 => rfl)
    | (extract_lets +onlyGivenNames x; (with_reducible apply Same.cut x ?_ ?_); (on_goal 1 => (unfold x; clear x)); (on_goal 2 => (intro hx; clear_value x)))
    | (extract_lets +onlyGivenNames x; clear_value x)
    | (extract_lets +onlyGivenNames x; unfold x; clear x)
    | split)

theorem portFodSet_same (s : State) (a1 : ℕ) :
    Same 73744 s (portFodSet s a1) := by
  delta portFodSet
  repeat' (first
    | with_reducible exact Same.refl _ _
    | with_reducible assumption
    | ((with_reducible apply Same.step ?_ (orBits_same _ _ _) ?_); on_goal 1 => rfl)
    | ((with_reducible apply Same.step ?_ (slowJudge_same _ _ _) ?_); on_goal 1 => rfl)
    | (extract_lets +onlyGivenNames x; (with_reducible apply Same.cut x ?_ ?_); (on_goal 1 => (unfold x; clear x)); (on_goal 2 => (intro hx; clear_value x)))
    | (extract_lets +onlyGivenNames x; clear_value x)
    | (extract_lets +onlyGivenNames x; unfold x; clear x)
    | split)

theorem dmaBell_same (s : State) (a1 : ℕ) :
    Same 274877906944 s (dmaBell s a1) := by
  delta dmaBell
  repeat' (first
    | with_reducible exact Same.refl _ _
    | with_reducible assumption
    | ((with_reducible apply Same.step ?_ (setDma_same _ _ _) ?_); on_goal 1 => rfl)
    | (extract_lets +onlyGivenNames x; (with_reducible apply Same.cut x ?_ ?_); (on_goal 1 => (unfold x; clear x)); (on_goal 2 => (intro hx; clear_value x)))
    | (extract_lets +onlyGivenNames x; clear_value x)
    | (extract_lets +onlyGivenNames x; unfold x; clear x)
    | split)

theorem raiseDma_same (s : State) (a1 : ℕ) (a2 : ℕ) (a3 : ℕ) :
    Same 8208 s (raiseDma s a1 a2 a3) := by
  delta raiseDma
  repeat' (first
    | with_reducible exact Same.refl _ _
    | with_reducible assumption
    | ((with_reducible apply Same.step ?_ (raise_same _ _ _ _ _ _) ?_); on_goal 1 => rfl)
    | (extract_lets +onlyGivenNames x; (with_reducible apply Same.cut x ?_ ?_); (on_goal 1 => (unfold x; clear x)); (on_goal 2 => (intro hx; clear_value x)))
    | (extract_lets +onlyGivenNames x; clear_value x)
    | (extract_lets +onlyGivenNames x; unfold x; clear x)
    | split)

theorem dmaHrdSet_same (s : State) (a1 : ℕ) (a2 : ℕ) :
    Same 274877915152 s (dmaHrdSet s a1 a2) := by
  delta dmaHrdSet
  repeat' (first
    | with_reducible exact Same.refl _ _
    | with_reducible assumption
    | ((with_reducible apply Same.step ?_ (orBits_same _ _ _) ?_); on_goal 1 => rfl)
    | ((with_reducible apply Same.step ?_ (drainEval_same _ _) ?_); on_goal 1 => rfl)
    | ((with_reducible apply Same.step ?_ (wr_same _ _ _) ?_); on_goal 1 => rfl)
    | ((with_reducible apply Same.step ?_ (raiseDma_same _ _ _ _) ?_); on_goal 1 => rfl)
    | (extract_lets +onlyGivenNames x; (with_reducible apply Same.cut x ?_ ?_); (on_goal 1 => (unfold x; clear x)); (on_goal 2 => (intro hx; clear_value x)))
    | (extract_lets +onlyGivenNames x; clear_value x)
    | (extract_lets +onlyGivenNames x; unfold x; clear x)
    | split)

theorem dmaPauseOn_same (s : State) (a1 : ℕ) :
    Same 274877906944 s (dmaPauseOn s a1) := by
  delta dmaPauseOn
  repeat' (first
    | with_reducible exact Same.refl _ _
    | with_reducible assumption
    | ((with_reducible apply Same.step ?_ (setDma_same _ _ _) ?_); on_goal 1 => rfl)
    | ((with_reducible apply Same.step ?_ (drainEval_same _ _) ?_); on_goal 1 => rfl)
    | (extract_lets +onlyGivenNames x; (with_reducible apply Same.cut x ?_ ?_); (on_goal 1 => (unfold x; clear x)); (on_goal 2 => (intro hx; clear_value x)))
    | (extract_lets +onlyGivenNames x; clear_value x)
    | (extract_lets +onlyGivenNames x; unfold x; clear x)
    | split)

theorem dmaEnabled_same (s : State) (a1 : ℕ) :
    Same 274877906944 s (dmaEnabled s a1) := by
  delta dmaEnabled
  repeat' (first
    | with_reducible exact Same.refl _ _
    | with_reducible assumption
    | ((with_reducible apply Same.step ?_ (setDma_same _ _ _) ?_); on_goal 1 => rfl)
    | ((with_reducible apply Same.step ?_ (drainEval_same _ _) ?_); on_goal 1 => rfl)
    | (extract_lets +onlyGivenNames x; (with_reducible apply Same.cut x ?_ ?_); (on_goal 1 => (unfold x; clear x)); (on_goal 2 => (intro hx; clear_value x)))
    | (extract_lets +onlyGivenNames x; clear_value x)
    | (extract_lets +onlyGivenNames x; unfold x; clear x)
    | split)

end Sys2Proof.Machine
end

