-- ==== Sys2Proof/Laws/Frame4.lean ====
section
/-!
SUPPORT. The fields of `State` that each operation can change, operation by operation (part 4).
-/
set_option linter.all false
set_option linter.unusedTactic false
set_option linter.unreachableTactic false
namespace Sys2Proof.Machine

open Sys2Proof

theorem dmaPauseOff_same (s : State) (a1 : ℕ) :
    Same 274877906944 s (dmaPauseOff s a1) := by
  delta dmaPauseOff
  repeat' (first
    | with_reducible exact Same.refl _ _
    | with_reducible assumption
    | ((with_reducible apply Same.step ?_ (setDma_same _ _ _) ?_); on_goal 1 => rfl)
    | ((with_reducible apply Same.step ?_ (drainEval_same _ _) ?_); on_goal 1 => rfl)
    | (extract_lets +onlyGivenNames x; (with_reducible apply Same.cut x ?_ ?_); (on_goal 1 => (unfold x; clear x)); (on_goal 2 => (intro hx; clear_value x)))
    | (extract_lets +onlyGivenNames x; clear_value x)
    | (extract_lets +onlyGivenNames x; unfold x; clear x)
    | split)

theorem dmaStop_same (s : State) (a1 : ℕ) :
    Same 274877906944 s (dmaStop s a1) := by
  delta dmaStop
  repeat' (first
    | with_reducible exact Same.refl _ _
    | with_reducible assumption
    | ((with_reducible apply Same.step ?_ (setDma_same _ _ _) ?_); on_goal 1 => rfl)
    | (extract_lets +onlyGivenNames x; (with_reducible apply Same.cut x ?_ ?_); (on_goal 1 => (unfold x; clear x)); (on_goal 2 => (intro hx; clear_value x)))
    | (extract_lets +onlyGivenNames x; clear_value x)
    | (extract_lets +onlyGivenNames x; unfold x; clear x)
    | split)

theorem dmaCtrlSet_same (s : State) (a1 : ℕ) (a2 : ℕ) :
    Same 274877915152 s (dmaCtrlSet s a1 a2) := by
  delta dmaCtrlSet
  repeat' (first
    | with_reducible exact Same.refl _ _
    | with_reducible assumption
    | ((with_reducible apply Same.step ?_ (orBits_same _ _ _) ?_); on_goal 1 => rfl)
    | ((with_reducible apply Same.step ?_ (drainEval_same _ _) ?_); on_goal 1 => rfl)
    | ((with_reducible apply Same.step ?_ (dmaPauseOn_same _ _) ?_); on_goal 1 => rfl)
    | ((with_reducible apply Same.step ?_ (dmaEnabled_same _ _) ?_); on_goal 1 => rfl)
    | ((with_reducible apply Same.step ?_ (dmaPauseOff_same _ _) ?_); on_goal 1 => rfl)
    | ((with_reducible apply Same.step ?_ (dmaStop_same _ _) ?_); on_goal 1 => rfl)
    | ((with_reducible apply Same.step ?_ (wr_same _ _ _) ?_); on_goal 1 => rfl)
    | ((with_reducible apply Same.step ?_ (raiseDma_same _ _ _ _) ?_); on_goal 1 => rfl)
    | (extract_lets +onlyGivenNames x; (with_reducible apply Same.cut x ?_ ?_); (on_goal 1 => (unfold x; clear x)); (on_goal 2 => (intro hx; clear_value x)))
    | (extract_lets +onlyGivenNames x; clear_value x)
    | (extract_lets +onlyGivenNames x; unfold x; clear x)
    | split)

theorem dmaCfgSet_same (s : State) (a1 : ℕ) (a2 : ℕ) (a3 : ℕ) (a4 : ℕ) :
    Same 8208 s (dmaCfgSet s a1 a2 a3 a4) := by
  delta dmaCfgSet
  repeat' (first
    | with_reducible exact Same.refl _ _
    | with_reducible assumption
    | ((with_reducible apply Same.step ?_ (wL_same _ _ _ _) ?_); on_goal 1 => rfl)
    | ((with_reducible apply Same.step ?_ (raiseDma_same _ _ _ _) ?_); on_goal 1 => rfl)
    | (extract_lets +onlyGivenNames x; (with_reducible apply Same.cut x ?_ ?_); (on_goal 1 => (unfold x; clear x)); (on_goal 2 => (intro hx; clear_value x)))
    | (extract_lets +onlyGivenNames x; clear_value x)
    | (extract_lets +onlyGivenNames x; unfold x; clear x)
    | split)

theorem dmaContinue_same (s : State) (a1 : ℕ) :
    Same 274877906944 s (dmaContinue s a1) := by
  delta dmaContinue
  repeat' (first
    | with_reducible exact Same.refl _ _
    | with_reducible assumption
    | ((with_reducible apply Same.step ?_ (setDma_same _ _ _) ?_); on_goal 1 => rfl)
    | ((with_reducible apply Same.step ?_ (dmaPauseOff_same _ _) ?_); on_goal 1 => rfl)
    | (extract_lets +onlyGivenNames x; (with_reducible apply Same.cut x ?_ ?_); (on_goal 1 => (unfold x; clear x)); (on_goal 2 => (intro hx; clear_value x)))
    | (extract_lets +onlyGivenNames x; clear_value x)
    | (extract_lets +onlyGivenNames x; unfold x; clear x)
    | split)

theorem dmaFx_same (s : State) (a1 : ℕ) (a2 : ℕ) (a3 : ℕ) (a4 : ℕ) (a5 : ℕ) :
    Same 274877915152 s (dmaFx s a1 a2 a3 a4 a5) := by
  delta dmaFx
  repeat' (first
    | with_reducible exact Same.refl _ _
    | with_reducible assumption
    | ((with_reducible apply Same.step ?_ (drainEval_same _ _) ?_); on_goal 1 => rfl)
    | ((with_reducible apply Same.step ?_ (dmaBell_same _ _) ?_); on_goal 1 => rfl)
    | ((with_reducible apply Same.step ?_ (dmaHrdSet_same _ _ _) ?_); on_goal 1 => rfl)
    | ((with_reducible apply Same.step ?_ (dmaCtrlSet_same _ _ _) ?_); on_goal 1 => rfl)
    | ((with_reducible apply Same.step ?_ (dmaStop_same _ _) ?_); on_goal 1 => rfl)
    | ((with_reducible apply Same.step ?_ (dmaCfgSet_same _ _ _ _ _) ?_); on_goal 1 => rfl)
    | ((with_reducible apply Same.step ?_ (dmaContinue_same _ _) ?_); on_goal 1 => rfl)
    | (extract_lets +onlyGivenNames x; (with_reducible apply Same.cut x ?_ ?_); (on_goal 1 => (unfold x; clear x)); (on_goal 2 => (intro hx; clear_value x)))
    | (extract_lets +onlyGivenNames x; clear_value x)
    | (extract_lets +onlyGivenNames x; unfold x; clear x)
    | split)

theorem refRequal_same (s : State) (a1 : ℕ) :
    Same 131088 s (refRequal s a1) := by
  delta refRequal
  repeat' (first
    | with_reducible exact Same.refl _ _
    | with_reducible assumption
    | ((with_reducible apply Same.step ?_ (qualRun_same _ _ _) ?_); on_goal 1 => rfl)
    | ((with_reducible apply Same.step ?_ (setRef_same _ _ _) ?_); on_goal 1 => rfl)
    | ((with_reducible apply Same.step ?_ (setRefBit_same _ _ _ _) ?_); on_goal 1 => rfl)
    | (extract_lets +onlyGivenNames x; (with_reducible apply Same.cut x ?_ ?_); (on_goal 1 => (unfold x; clear x)); (on_goal 2 => (intro hx; clear_value x)))
    | (extract_lets +onlyGivenNames x; clear_value x)
    | (extract_lets +onlyGivenNames x; unfold x; clear x)
    | split)

theorem refEvent_same (s : State) (a1 : ℕ) (a2 : ℤ) (a3 : Option ℤ) :
    Same 139280 s (refEvent s a1 a2 a3) := by
  delta refEvent
  repeat' (first
    | with_reducible exact Same.refl _ _
    | with_reducible assumption
    | ((with_reducible apply Same.step ?_ (setLevel_same _ _ _ _) ?_); on_goal 1 => rfl)
    | ((with_reducible apply Same.step ?_ (setRef_same _ _ _) ?_); on_goal 1 => rfl)
    | ((with_reducible apply Same.step ?_ (wM_same _ _ _ _) ?_); on_goal 1 => rfl)
    | (extract_lets +onlyGivenNames x; (with_reducible apply Same.cut x ?_ ?_); (on_goal 1 => (unfold x; clear x)); (on_goal 2 => (intro hx; clear_value x)))
    | (extract_lets +onlyGivenNames x; clear_value x)
    | (extract_lets +onlyGivenNames x; unfold x; clear x)
    | split)

theorem pjumpCheck_same (s : State) (a1 : ℕ) (a2 : ℤ) (a3 : ℤ) :
    Same 139280 s (pjumpCheck s a1 a2 a3) := by
  delta pjumpCheck
  repeat' (first
    | with_reducible exact Same.refl _ _
    | with_reducible assumption
    | ((with_reducible apply Same.step ?_ (orBits_same _ _ _) ?_); on_goal 1 => rfl)
    | ((with_reducible apply Same.step ?_ (disqualify_same _ _ _) ?_); on_goal 1 => rfl)
    | ((with_reducible apply Same.step ?_ (bumpM_same _ _ _) ?_); on_goal 1 => rfl)
    | (extract_lets +onlyGivenNames x; (with_reducible apply Same.cut x ?_ ?_); (on_goal 1 => (unfold x; clear x)); (on_goal 2 => (intro hx; clear_value x)))
    | (extract_lets +onlyGivenNames x; clear_value x)
    | (extract_lets +onlyGivenNames x; unfold x; clear x)
    | split)

theorem dpSample_same (s : State) (a1 : ℕ) (a2 : ℕ) (a3 : ℤ) (a4 : ℤ) :
    Same 262160 s (dpSample s a1 a2 a3 a4) := by
  delta dpSample
  repeat' (first
    | with_reducible exact Same.refl _ _
    | with_reducible assumption
    | ((with_reducible apply Same.step ?_ (setDp_same _ _ _) ?_); on_goal 1 => rfl)
    | ((with_reducible apply Same.step ?_ (wM_same _ _ _ _) ?_); on_goal 1 => rfl)
    | (extract_lets +onlyGivenNames x; (with_reducible apply Same.cut x ?_ ?_); (on_goal 1 => (unfold x; clear x)); (on_goal 2 => (intro hx; clear_value x)))
    | (extract_lets +onlyGivenNames x; clear_value x)
    | (extract_lets +onlyGivenNames x; unfold x; clear x)
    | split)

theorem refFeed_same (s : State) (a1 : ℕ) (a2 : ℤ) (a3 : ℤ) :
    Same 262160 s (refFeed s a1 a2 a3) := by
  delta refFeed
  repeat' (first
    | with_reducible exact Same.refl _ _
    | with_reducible assumption
    | ((with_reducible apply Same.step ?_ (dpSample_same _ _ _ _ _) ?_); on_goal 1 => rfl)
    | with_reducible apply Same.upto ?_ ?_
    | (extract_lets +onlyGivenNames x; (with_reducible apply Same.cut x ?_ ?_); (on_goal 1 => (unfold x; clear x)); (on_goal 2 => (intro hx; clear_value x)))
    | (extract_lets +onlyGivenNames x; clear_value x)
    | (extract_lets +onlyGivenNames x; unfold x; clear x)
    | intro _
    | split)

theorem refSample_same (s : State) (a1 : ℕ) (a2 : ℤ) (a3 : ℤ) :
    Same 401424 s (refSample s a1 a2 a3) := by
  delta refSample
  repeat' (first
    | with_reducible exact Same.refl _ _
    | with_reducible assumption
    | ((with_reducible apply Same.step ?_ (refEvent_same _ _ _ _) ?_); on_goal 1 => rfl)
    | ((with_reducible apply Same.step ?_ (pjumpCheck_same _ _ _ _) ?_); on_goal 1 => rfl)
    | ((with_reducible apply Same.step ?_ (refFeed_same _ _ _ _) ?_); on_goal 1 => rfl)
    | (extract_lets +onlyGivenNames x; (with_reducible apply Same.cut x ?_ ?_); (on_goal 1 => (unfold x; clear x)); (on_goal 2 => (intro hx; clear_value x)))
    | (extract_lets +onlyGivenNames x; clear_value x)
    | (extract_lets +onlyGivenNames x; unfold x; clear x)
    | split)

theorem swrefFx_same (s : State) (a1 : ℕ) :
    Same 401424 s (swrefFx s a1) := by
  delta swrefFx
  repeat' (first
    | with_reducible exact Same.refl _ _
    | with_reducible assumption
    | ((with_reducible apply Same.step ?_ (refSample_same _ _ _ _) ?_); on_goal 1 => rfl)
    | ((with_reducible apply Same.step ?_ (setRef_same _ _ _) ?_); on_goal 1 => rfl)
    | ((with_reducible apply Same.step ?_ (bumpM_same _ _ _) ?_); on_goal 1 => rfl)
    | (extract_lets +onlyGivenNames x; (with_reducible apply Same.cut x ?_ ?_); (on_goal 1 => (unfold x; clear x)); (on_goal 2 => (intro hx; clear_value x)))
    | (extract_lets +onlyGivenNames x; clear_value x)
    | (extract_lets +onlyGivenNames x; unfold x; clear x)
    | split)

theorem ecamEntFx_same (s : State) (a1 : ℕ) (a2 : ℕ) (a3 : ℕ) (a4 : ℕ) (a5 : Cause) :
    Same 8208 s (ecamEntFx s a1 a2 a3 a4 a5) := by
  delta ecamEntFx
  repeat' (first
    | with_reducible exact Same.refl _ _
    | with_reducible assumption
    | ((with_reducible apply Same.step ?_ (raiseC_same _ _ _ _ _) ?_); on_goal 1 => rfl)
    | ((with_reducible apply Same.step ?_ (wr_same _ _ _) ?_); on_goal 1 => rfl)
    | (extract_lets +onlyGivenNames x; (with_reducible apply Same.cut x ?_ ?_); (on_goal 1 => (unfold x; clear x)); (on_goal 2 => (intro hx; clear_value x)))
    | (extract_lets +onlyGivenNames x; clear_value x)
    | (extract_lets +onlyGivenNames x; unfold x; clear x)
    | split)

theorem scrShow_same (s : State) :
    Same 16 s (scrShow s) := by
  delta scrShow
  repeat' (first
    | with_reducible exact Same.refl _ _
    | with_reducible assumption
    | ((with_reducible apply Same.step ?_ (wb_same _ _ _ _ _) ?_); on_goal 1 => rfl)
    | ((with_reducible apply Same.step ?_ (wr_same _ _ _) ?_); on_goal 1 => rfl)
    | with_reducible apply Same.foldl ?_ ?_
    | (extract_lets +onlyGivenNames x; (with_reducible apply Same.cut x ?_ ?_); (on_goal 1 => (unfold x; clear x)); (on_goal 2 => (intro hx; clear_value x)))
    | (extract_lets +onlyGivenNames x; clear_value x)
    | (extract_lets +onlyGivenNames x; unfold x; clear x)
    | intro _
    | split)

theorem scrClear_same (s : State) :
    Same 524304 s (scrClear s) := by
  delta scrClear
  repeat' (first
    | with_reducible exact Same.refl _ _
    | with_reducible assumption
    | ((with_reducible apply Same.step ?_ (wL_same _ _ _ _) ?_); on_goal 1 => rfl)
    | ((with_reducible apply Same.step ?_ (scrShow_same _) ?_); on_goal 1 => rfl)
    | (extract_lets +onlyGivenNames x; (with_reducible apply Same.cut x ?_ ?_); (on_goal 1 => (unfold x; clear x)); (on_goal 2 => (intro hx; clear_value x)))
    | (extract_lets +onlyGivenNames x; clear_value x)
    | (extract_lets +onlyGivenNames x; unfold x; clear x)
    | split
    | ((with_reducible apply Same.put_scr ?_ ?_) <;> [rfl; skip]))

theorem ringPass1_same (s : State) (a1 : ℕ) :
    Same 67108864 s (ringPass1 s a1) := by
  delta ringPass1
  repeat' (first
    | with_reducible exact Same.refl _ _
    | with_reducible assumption
    | ((with_reducible apply Same.step ?_ (setRing_same _ _ _) ?_); on_goal 1 => rfl)
    | (extract_lets +onlyGivenNames x; (with_reducible apply Same.cut x ?_ ?_); (on_goal 1 => (unfold x; clear x)); (on_goal 2 => (intro hx; clear_value x)))
    | (extract_lets +onlyGivenNames x; clear_value x)
    | (extract_lets +onlyGivenNames x; unfold x; clear x)
    | split)

theorem ringPass_same (s : State) (a1 : ℕ) (a2 : ℕ) :
    Same 141029613248528 s (ringPass s a1 a2) := by
  induction a2 generalizing s with
  | zero => exact Same.step (by rfl) (ringOver_same _ _) (Same.refl _ _)
  | succ k ih => exact Same.trans (Same.step (by rfl) (ringPass1_same _ _) (Same.refl _ _)) (ih _)

theorem ringRdFx_same (s : State) (a1 : ℕ) (a2 : ℕ) (a3 : Cause) :
    Same 141029613248528 s (ringRdFx s a1 a2 a3) := by
  delta ringRdFx
  repeat' (first
    | with_reducible exact Same.refl _ _
    | with_reducible assumption
    | ((with_reducible apply Same.step ?_ (orBits_same _ _ _) ?_); on_goal 1 => rfl)
    | ((with_reducible apply Same.step ?_ (raiseC_same _ _ _ _ _) ?_); on_goal 1 => rfl)
    | ((with_reducible apply Same.step ?_ (ringPass_same _ _ _) ?_); on_goal 1 => rfl)
    | (extract_lets +onlyGivenNames x; (with_reducible apply Same.cut x ?_ ?_); (on_goal 1 => (unfold x; clear x)); (on_goal 2 => (intro hx; clear_value x)))
    | (extract_lets +onlyGivenNames x; clear_value x)
    | (extract_lets +onlyGivenNames x; unfold x; clear x)
    | split)

theorem seqRestart_same (s : State) (a1 : ℕ) (a2 : ℕ) :
    Same 1099511627792 s (seqRestart s a1 a2) := by
  delta seqRestart
  repeat' (first
    | with_reducible exact Same.refl _ _
    | with_reducible assumption
    | ((with_reducible apply Same.step ?_ (wb_same _ _ _ _ _) ?_); on_goal 1 => rfl)
    | ((with_reducible apply Same.step ?_ (seqStartCmd_same _ _) ?_); on_goal 1 => rfl)
    | ((with_reducible apply Same.step ?_ (seqHaltAs_same _ _ _) ?_); on_goal 1 => rfl)
    | (extract_lets +onlyGivenNames x; (with_reducible apply Same.cut x ?_ ?_); (on_goal 1 => (unfold x; clear x)); (on_goal 2 => (intro hx; clear_value x)))
    | (extract_lets +onlyGivenNames x; clear_value x)
    | (extract_lets +onlyGivenNames x; unfold x; clear x)
    | split)

theorem cmdReset_same (s : State) :
    Same 178550447551512 s (cmdReset s) := by
  delta cmdReset
  repeat' (first
    | with_reducible exact Same.refl _ _
    | with_reducible assumption
    | ((with_reducible apply Same.step ?_ (cmdEnd_same _ _ _) ?_); on_goal 1 => rfl)
    | with_reducible apply Same.foldl ?_ ?_
    | (extract_lets +onlyGivenNames x; (with_reducible apply Same.cut x ?_ ?_); (on_goal 1 => (unfold x; clear x)); (on_goal 2 => (intro hx; clear_value x)))
    | (extract_lets +onlyGivenNames x; clear_value x)
    | (extract_lets +onlyGivenNames x; unfold x; clear x)
    | intro _
    | split
    | ((with_reducible apply Same.put_cmd ?_ ?_) <;> [rfl; skip]))

theorem calAbort_same (s : State) :
    Same 140737490452496 s (calAbort s) := by
  delta calAbort
  repeat' (first
    | with_reducible exact Same.refl _ _
    | with_reducible assumption
    | ((with_reducible apply Same.step ?_ (clrBits_same _ _ _) ?_); on_goal 1 => rfl)
    | ((with_reducible apply Same.step ?_ (orBits_same _ _ _) ?_); on_goal 1 => rfl)
    | ((with_reducible apply Same.step ?_ (calReq_same _ _ _ _) ?_); on_goal 1 => rfl)
    | ((with_reducible apply Same.step ?_ (setPort_same _ _ _) ?_); on_goal 1 => rfl)
    | with_reducible apply Same.upto ?_ ?_
    | (extract_lets +onlyGivenNames x; (with_reducible apply Same.cut x ?_ ?_); (on_goal 1 => (unfold x; clear x)); (on_goal 2 => (intro hx; clear_value x)))
    | (extract_lets +onlyGivenNames x; clear_value x)
    | (extract_lets +onlyGivenNames x; unfold x; clear x)
    | intro _
    | split)

theorem calDropRun_same (s : State) :
    Same 68719476736 s (calDropRun s) := by
  delta calDropRun
  repeat' (first
    | with_reducible exact Same.refl _ _
    | with_reducible assumption
    | (extract_lets +onlyGivenNames x; (with_reducible apply Same.cut x ?_ ?_); (on_goal 1 => (unfold x; clear x)); (on_goal 2 => (intro hx; clear_value x)))
    | (extract_lets +onlyGivenNames x; clear_value x)
    | (extract_lets +onlyGivenNames x; unfold x; clear x)
    | split
    | ((with_reducible apply Same.put_cal ?_ ?_) <;> [rfl; skip]))

theorem syncDrop_same (s : State) :
    Same 17179869184 s (syncDrop s) := by
  delta syncDrop
  repeat' (first
    | with_reducible exact Same.refl _ _
    | with_reducible assumption
    | (extract_lets +onlyGivenNames x; (with_reducible apply Same.cut x ?_ ?_); (on_goal 1 => (unfold x; clear x)); (on_goal 2 => (intro hx; clear_value x)))
    | (extract_lets +onlyGivenNames x; clear_value x)
    | (extract_lets +onlyGivenNames x; unfold x; clear x)
    | split
    | ((with_reducible apply Same.put_mate ?_ ?_) <;> [rfl; skip]))

theorem setBank_same (s : State) (a1 : ℕ) (a2 : ℕ) (a3 : Bank) :
    Same 34359738368 s (setBank s a1 a2 a3) := by
  delta setBank
  repeat' (first
    | with_reducible exact Same.refl _ _
    | with_reducible assumption
    | (extract_lets +onlyGivenNames x; (with_reducible apply Same.cut x ?_ ?_); (on_goal 1 => (unfold x; clear x)); (on_goal 2 => (intro hx; clear_value x)))
    | (extract_lets +onlyGivenNames x; clear_value x)
    | (extract_lets +onlyGivenNames x; unfold x; clear x)
    | split
    | ((with_reducible apply Same.put_nvs ?_ ?_) <;> [rfl; skip]))

theorem nvsShow_same (s : State) :
    Same 16 s (nvsShow s) := by
  delta nvsShow
  repeat' (first
    | with_reducible exact Same.refl _ _
    | with_reducible assumption
    | ((with_reducible apply Same.step ?_ (wr_same _ _ _) ?_); on_goal 1 => rfl)
    | with_reducible apply Same.foldl ?_ ?_
    | (extract_lets +onlyGivenNames x; (with_reducible apply Same.cut x ?_ ?_); (on_goal 1 => (unfold x; clear x)); (on_goal 2 => (intro hx; clear_value x)))
    | (extract_lets +onlyGivenNames x; clear_value x)
    | (extract_lets +onlyGivenNames x; unfold x; clear x)
    | intro _
    | split)

theorem storeCommit_same (s : State) :
    Same 34359746576 s (storeCommit s) := by
  delta storeCommit
  repeat' (first
    | with_reducible exact Same.refl _ _
    | with_reducible assumption
    | ((with_reducible apply Same.step ?_ (bump_same _ _ _) ?_); on_goal 1 => rfl)
    | ((with_reducible apply Same.step ?_ (setBank_same _ _ _ _) ?_); on_goal 1 => rfl)
    | ((with_reducible apply Same.step ?_ (nvsShow_same _) ?_); on_goal 1 => rfl)
    | (extract_lets +onlyGivenNames x; (with_reducible apply Same.cut x ?_ ?_); (on_goal 1 => (unfold x; clear x)); (on_goal 2 => (intro hx; clear_value x)))
    | (extract_lets +onlyGivenNames x; clear_value x)
    | (extract_lets +onlyGivenNames x; unfold x; clear x)
    | split
    | ((with_reducible apply Same.put_nvs ?_ ?_) <;> [rfl; skip]))

theorem rstRecord_same (s : State) (a1 : ℕ) (a2 : ℕ) (a3 : ℕ) (a4 : Bool) :
    Same 16 s (rstRecord s a1 a2 a3 a4) := by
  delta rstRecord
  repeat' (first
    | with_reducible exact Same.refl _ _
    | with_reducible assumption
    | ((with_reducible apply Same.step ?_ (wr_same _ _ _) ?_); on_goal 1 => rfl)
    | (extract_lets +onlyGivenNames x; (with_reducible apply Same.cut x ?_ ?_); (on_goal 1 => (unfold x; clear x)); (on_goal 2 => (intro hx; clear_value x)))
    | (extract_lets +onlyGivenNames x; clear_value x)
    | (extract_lets +onlyGivenNames x; unfold x; clear x)
    | split)

theorem softReset_same (s : State) (a1 : ℕ) (a2 : ℕ) (a3 : Bool) :
    Same 179753174709368 s (softReset s a1 a2 a3) := by
  delta softReset
  repeat' (first
    | with_reducible exact Same.refl _ _
    | with_reducible assumption
    | ((with_reducible apply Same.step ?_ (seqRestart_same _ _ _) ?_); on_goal 1 => rfl)
    | ((with_reducible apply Same.step ?_ (cmdReset_same _) ?_); on_goal 1 => rfl)
    | ((with_reducible apply Same.step ?_ (calAbort_same _) ?_); on_goal 1 => rfl)
    | ((with_reducible apply Same.step ?_ (calDropRun_same _) ?_); on_goal 1 => rfl)
    | ((with_reducible apply Same.step ?_ (syncDrop_same _) ?_); on_goal 1 => rfl)
    | ((with_reducible apply Same.step ?_ (storeCommit_same _) ?_); on_goal 1 => rfl)
    | ((with_reducible apply Same.step ?_ (rstRecord_same _ _ _ _ _) ?_); on_goal 1 => rfl)
    | with_reducible apply Same.upto ?_ ?_
    | (extract_lets +onlyGivenNames x; (with_reducible apply Same.cut x ?_ ?_); (on_goal 1 => (unfold x; clear x)); (on_goal 2 => (intro hx; clear_value x)))
    | (extract_lets +onlyGivenNames x; clear_value x)
    | (extract_lets +onlyGivenNames x; unfold x; clear x)
    | intro _
    | split
    | ((with_reducible apply Same.put_shadow_staging_corrPause ?_ ?_ ?_ ?_) <;> [rfl; rfl; rfl; skip])
    | ((with_reducible apply Same.put_pwr ?_ ?_) <;> [rfl; skip]))

theorem softKey_same (s : State) (a1 : ℕ) (a2 : ℕ) :
    Same 179753174709368 s (softKey s a1 a2) := by
  delta softKey
  repeat' (first
    | with_reducible exact Same.refl _ _
    | with_reducible assumption
    | ((with_reducible apply Same.step ?_ (softReset_same _ _ _ _) ?_); on_goal 1 => rfl)
    | (extract_lets +onlyGivenNames x; (with_reducible apply Same.cut x ?_ ?_); (on_goal 1 => (unfold x; clear x)); (on_goal 2 => (intro hx; clear_value x)))
    | (extract_lets +onlyGivenNames x; clear_value x)
    | (extract_lets +onlyGivenNames x; unfold x; clear x)
    | split)

theorem regFx_same (s : State) (a1 : RegInfo) (a2 : ℕ) (a3 : ℕ) (a4 : ℕ) (a5 : ℕ) (a6 : Cause) :
    Same 179766598565498 s (regFx s a1 a2 a3 a4 a5 a6) := by
  delta regFx
  repeat' (first
    | with_reducible exact Same.refl _ _
    | with_reducible assumption
    | ((with_reducible apply Same.step ?_ (refQnow_same _ _) ?_); on_goal 1 => rfl)
    | ((with_reducible apply Same.step ?_ (injectFx_same _ _) ?_); on_goal 1 => rfl)
    | ((with_reducible apply Same.step ?_ (seqFx_same _ _ _ _ _ _) ?_); on_goal 1 => rfl)
    | ((with_reducible apply Same.step ?_ (mateFx_same _ _ _ _ _) ?_); on_goal 1 => rfl)
    | ((with_reducible apply Same.step ?_ (groupEval_same _) ?_); on_goal 1 => rfl)
    | ((with_reducible apply Same.step ?_ (resyncPort_same _ _) ?_); on_goal 1 => rfl)
    | ((with_reducible apply Same.step ?_ (sealLockFx_same _ _ _) ?_); on_goal 1 => rfl)
    | ((with_reducible apply Same.step ?_ (ringCfgFx_same _ _ _ _ _) ?_); on_goal 1 => rfl)
    | ((with_reducible apply Same.step ?_ (scCtrlFx_same _ _ _ _ _) ?_); on_goal 1 => rfl)
    | ((with_reducible apply Same.step ?_ (refCtrlFx_same _ _ _ _) ?_); on_goal 1 => rfl)
    | ((with_reducible apply Same.step ?_ (outChange_same _ _ _ _) ?_); on_goal 1 => rfl)
    | ((with_reducible apply Same.step ?_ (pwrFx_same _ _ _ _ _) ?_); on_goal 1 => rfl)
    | ((with_reducible apply Same.step ?_ (leapFx_same _ _) ?_); on_goal 1 => rfl)
    | ((with_reducible apply Same.step ?_ (prioFx_same _ _ _ _) ?_); on_goal 1 => rfl)
    | ((with_reducible apply Same.step ?_ (laneOff_same _ _ _) ?_); on_goal 1 => rfl)
    | ((with_reducible apply Same.step ?_ (sealCtrlFx_same _ _ _) ?_); on_goal 1 => rfl)
    | ((with_reducible apply Same.step ?_ (snapCmdFx_same _ _ _) ?_); on_goal 1 => rfl)
    | ((with_reducible apply Same.step ?_ (scCmdFx_same _ _ _ _) ?_); on_goal 1 => rfl)
    | ((with_reducible apply Same.step ?_ (ringOver_same _ _) ?_); on_goal 1 => rfl)
    | ((with_reducible apply Same.step ?_ (dpCmdFx_same _ _ _) ?_); on_goal 1 => rfl)
    | ((with_reducible apply Same.step ?_ (pendFx_same _ _ _) ?_); on_goal 1 => rfl)
    | ((with_reducible apply Same.step ?_ (cmdIn_same _ _ _ _ _ _) ?_); on_goal 1 => rfl)
    | ((with_reducible apply Same.step ?_ (timeCmdFx_same _ _ _) ?_); on_goal 1 => rfl)
    | ((with_reducible apply Same.step ?_ (fodFx_same _ _ _ _ _ _ _) ?_); on_goal 1 => rfl)
    | ((with_reducible apply Same.step ?_ (wr_same _ _ _) ?_); on_goal 1 => rfl)
    | ((with_reducible apply Same.step ?_ (genSwitchFx_same _ _) ?_); on_goal 1 => rfl)
    | ((with_reducible apply Same.step ?_ (portFodSet_same _ _) ?_); on_goal 1 => rfl)
    | ((with_reducible apply Same.step ?_ (dmaFx_same _ _ _ _ _ _) ?_); on_goal 1 => rfl)
    | ((with_reducible apply Same.step ?_ (refRequal_same _ _) ?_); on_goal 1 => rfl)
    | ((with_reducible apply Same.step ?_ (swrefFx_same _ _) ?_); on_goal 1 => rfl)
    | ((with_reducible apply Same.step ?_ (ecamEntFx_same _ _ _ _ _ _) ?_); on_goal 1 => rfl)
    | ((with_reducible apply Same.step ?_ (scrClear_same _) ?_); on_goal 1 => rfl)
    | ((with_reducible apply Same.step ?_ (ringRdFx_same _ _ _ _) ?_); on_goal 1 => rfl)
    | ((with_reducible apply Same.step ?_ (softKey_same _ _ _) ?_); on_goal 1 => rfl)
    | (extract_lets +onlyGivenNames x; (with_reducible apply Same.cut x ?_ ?_); (on_goal 1 => (unfold x; clear x)); (on_goal 2 => (intro hx; clear_value x)))
    | (extract_lets +onlyGivenNames x; clear_value x)
    | (extract_lets +onlyGivenNames x; unfold x; clear x)
    | split
    | ((with_reducible apply Same.put_scr ?_ ?_) <;> [rfl; skip]))

theorem landedRun_same (s : State) :
    Same 179766598565754 s (landedRun s) := by
  delta landedRun
  repeat' (first
    | with_reducible exact Same.refl _ _
    | with_reducible assumption
    | ((with_reducible apply Same.step ?_ (regFx_same _ _ _ _ _ _ _) ?_); on_goal 1 => rfl)
    | with_reducible apply Same.foldl ?_ ?_
    | (extract_lets +onlyGivenNames x; (with_reducible apply Same.cut x ?_ ?_); (on_goal 1 => (unfold x; clear x)); (on_goal 2 => (intro hx; clear_value x)))
    | (extract_lets +onlyGivenNames x; clear_value x)
    | (extract_lets +onlyGivenNames x; unfold x; clear x)
    | intro _
    | split
    | ((with_reducible apply Same.put_landed ?_ ?_) <;> [rfl; skip]))

theorem slowSettle_same (s : State) (a1 : ℕ) :
    Same 73744 s (slowSettle s a1) := by
  delta slowSettle
  repeat' (first
    | with_reducible exact Same.refl _ _
    | with_reducible assumption
    | ((with_reducible apply Same.step ?_ (slowJudge_same _ _ _) ?_); on_goal 1 => rfl)
    | (extract_lets +onlyGivenNames x; (with_reducible apply Same.cut x ?_ ?_); (on_goal 1 => (unfold x; clear x)); (on_goal 2 => (intro hx; clear_value x)))
    | (extract_lets +onlyGivenNames x; clear_value x)
    | (extract_lets +onlyGivenNames x; unfold x; clear x)
    | split)

theorem slowsDue_same (s : State) :
    Same 73744 s (slowsDue s) := by
  delta slowsDue
  repeat' (first
    | with_reducible exact Same.refl _ _
    | with_reducible assumption
    | ((with_reducible apply Same.step ?_ (slowSettle_same _ _) ?_); on_goal 1 => rfl)
    | with_reducible apply Same.foldl ?_ ?_
    | (extract_lets +onlyGivenNames x; (with_reducible apply Same.cut x ?_ ?_); (on_goal 1 => (unfold x; clear x)); (on_goal 2 => (intro hx; clear_value x)))
    | (extract_lets +onlyGivenNames x; clear_value x)
    | (extract_lets +onlyGivenNames x; unfold x; clear x)
    | intro _
    | split)

theorem masterSet_same (s : State) (a1 : ℕ) :
    Same 140754669379600 s (masterSet s a1) := by
  delta masterSet
  repeat' (first
    | with_reducible exact Same.refl _ _
    | with_reducible assumption
    | ((with_reducible apply Same.step ?_ (alignMove_same _ _ _ _) ?_); on_goal 1 => rfl)
    | ((with_reducible apply Same.step ?_ (plainTurn_same _ _ _ _) ?_); on_goal 1 => rfl)
    | ((with_reducible apply Same.step ?_ (alignOff_same _ _) ?_); on_goal 1 => rfl)
    | ((with_reducible apply Same.step ?_ (setSc_same _ _ _) ?_); on_goal 1 => rfl)
    | with_reducible apply Same.foldl ?_ ?_
    | (extract_lets +onlyGivenNames x; (with_reducible apply Same.cut x ?_ ?_); (on_goal 1 => (unfold x; clear x)); (on_goal 2 => (intro hx; clear_value x)))
    | (extract_lets +onlyGivenNames x; clear_value x)
    | (extract_lets +onlyGivenNames x; unfold x; clear x)
    | intro _
    | split)

theorem snapLater_same (s : State) :
    Same 140754668249104 s (snapLater s) := by
  delta snapLater
  repeat' (first
    | with_reducible exact Same.refl _ _
    | with_reducible assumption
    | ((with_reducible apply Same.step ?_ (snapTrigger_same _ _ _ _) ?_); on_goal 1 => rfl)
    | with_reducible apply Same.foldl ?_ ?_
    | (extract_lets +onlyGivenNames x; (with_reducible apply Same.cut x ?_ ?_); (on_goal 1 => (unfold x; clear x)); (on_goal 2 => (intro hx; clear_value x)))
    | (extract_lets +onlyGivenNames x; clear_value x)
    | (extract_lets +onlyGivenNames x; unfold x; clear x)
    | intro _
    | split
    | ((with_reducible apply Same.put_snap ?_ ?_) <;> [rfl; skip]))

theorem aonStep_same (s : State) (a1 : Bool) :
    Same 179768746049406 s (aonStep s a1) := by
  delta aonStep
  repeat' (first
    | with_reducible exact Same.refl _ _
    | with_reducible assumption
    | ((with_reducible apply Same.step ?_ (aonDomains_same _) ?_); on_goal 1 => rfl)
    | ((with_reducible apply Same.step ?_ (aonWords_same _) ?_); on_goal 1 => rfl)
    | ((with_reducible apply Same.step ?_ (aonTick_same _) ?_); on_goal 1 => rfl)
    | ((with_reducible apply Same.step ?_ (steerSet_same _ _) ?_); on_goal 1 => rfl)
    | ((with_reducible apply Same.step ?_ (snapWake_same _) ?_); on_goal 1 => rfl)
    | ((with_reducible apply Same.step ?_ (aonInterp_same _ _) ?_); on_goal 1 => rfl)
    | ((with_reducible apply Same.step ?_ (holdsEnd_same _) ?_); on_goal 1 => rfl)
    | ((with_reducible apply Same.step ?_ (landedRun_same _) ?_); on_goal 1 => rfl)
    | ((with_reducible apply Same.step ?_ (slowsDue_same _) ?_); on_goal 1 => rfl)
    | ((with_reducible apply Same.step ?_ (aonRate_same _ _) ?_); on_goal 1 => rfl)
    | ((with_reducible apply Same.step ?_ (masterSet_same _ _) ?_); on_goal 1 => rfl)
    | ((with_reducible apply Same.step ?_ (noteFlags_same _) ?_); on_goal 1 => rfl)
    | ((with_reducible apply Same.step ?_ (snapLater_same _) ?_); on_goal 1 => rfl)
    | with_reducible apply Same.upto ?_ ?_
    | (extract_lets +onlyGivenNames x; (with_reducible apply Same.cut x ?_ ?_); (on_goal 1 => (unfold x; clear x)); (on_goal 2 => (intro hx; clear_value x)))
    | (extract_lets +onlyGivenNames x; clear_value x)
    | (extract_lets +onlyGivenNames x; unfold x; clear x)
    | intro _
    | split)

theorem aonSteps_same (a0 : ℕ) (s : State) :
    Same 179768746049406 s (aonSteps a0 s) := by
  induction a0 generalizing s with
  | zero => exact Same.refl _ _
  | succ k ih => exact (aonStep_same _ _).trans (ih _)

theorem aonRun_same (a0 : ℕ) (a1 : Bool) (s : State) :
    Same 184166792560510 s (aonRun a0 a1 s) := by
  delta aonRun
  repeat' (first
    | with_reducible exact Same.refl _ _
    | with_reducible assumption
    | ((with_reducible apply Same.step ?_ (aonAfter_same _) ?_); on_goal 1 => rfl)
    | ((with_reducible apply Same.step ?_ (aonSteps_same _ _) ?_); on_goal 1 => rfl)
    | ((with_reducible apply Same.step ?_ (aonStep_same _ _) ?_); on_goal 1 => rfl)
    | (extract_lets +onlyGivenNames x; (with_reducible apply Same.cut x ?_ ?_); (on_goal 1 => (unfold x; clear x)); (on_goal 2 => (intro hx; clear_value x)))
    | (extract_lets +onlyGivenNames x; clear_value x)
    | (extract_lets +onlyGivenNames x; unfold x; clear x)
    | split)

theorem busFault_same (s : State) (a1 : ℕ) (a2 : ℕ) (a3 : ℕ) :
    Same 8208 s (busFault s a1 a2 a3) := by
  delta busFault
  repeat' (first
    | with_reducible exact Same.refl _ _
    | with_reducible assumption
    | ((with_reducible apply Same.step ?_ (raise_same _ _ _ _ _ _) ?_); on_goal 1 => rfl)
    | (extract_lets +onlyGivenNames x; (with_reducible apply Same.cut x ?_ ?_); (on_goal 1 => (unfold x; clear x)); (on_goal 2 => (intro hx; clear_value x)))
    | (extract_lets +onlyGivenNames x; clear_value x)
    | (extract_lets +onlyGivenNames x; unfold x; clear x)
    | split)

theorem passVoidMark_same (s : State) (a1 : Cause) :
    Same 12304 s (passVoidMark s a1) := by
  delta passVoidMark
  repeat' (first
    | with_reducible exact Same.refl _ _
    | with_reducible assumption
    | ((with_reducible apply Same.step ?_ (bump_same _ _ _) ?_); on_goal 1 => rfl)
    | ((with_reducible apply Same.step ?_ (orBits_same _ _ _) ?_); on_goal 1 => rfl)
    | ((with_reducible apply Same.step ?_ (raiseC_same _ _ _ _ _) ?_); on_goal 1 => rfl)
    | (extract_lets +onlyGivenNames x; (with_reducible apply Same.cut x ?_ ?_); (on_goal 1 => (unfold x; clear x)); (on_goal 2 => (intro hx; clear_value x)))
    | (extract_lets +onlyGivenNames x; clear_value x)
    | (extract_lets +onlyGivenNames x; unfold x; clear x)
    | split
    | ((with_reducible apply Same.put_seal ?_ ?_) <;> [rfl; skip]))

theorem applyMerged_same (s : State) (a1 : ℕ) (a2 : List (RegInfo × ℕ × ℕ × Bool)) :
    Same 179766598565498 s (applyMerged s a1 a2) := by
  delta applyMerged
  repeat' (first
    | with_reducible exact Same.refl _ _
    | with_reducible assumption
    | ((with_reducible apply Same.step ?_ (bump_same _ _ _) ?_); on_goal 1 => rfl)
    | ((with_reducible apply Same.step ?_ (busFault_same _ _ _ _) ?_); on_goal 1 => rfl)
    | ((with_reducible apply Same.step ?_ (passVoidMark_same _ _) ?_); on_goal 1 => rfl)
    | ((with_reducible apply Same.step ?_ (wL_same _ _ _ _) ?_); on_goal 1 => rfl)
    | ((with_reducible apply Same.step ?_ (regFx_same _ _ _ _ _ _ _) ?_); on_goal 1 => rfl)
    | with_reducible apply Same.foldl ?_ ?_
    | (extract_lets +onlyGivenNames x; (with_reducible apply Same.cut x ?_ ?_); (on_goal 1 => (unfold x; clear x)); (on_goal 2 => (intro hx; clear_value x)))
    | (extract_lets +onlyGivenNames x; clear_value x)
    | (extract_lets +onlyGivenNames x; unfold x; clear x)
    | intro _
    | split)

theorem loadSat_same (s : State) (a1 : RegInfo) (a2 : ℕ) :
    Same 8208 s (loadSat s a1 a2) := by
  delta loadSat
  repeat' (first
    | with_reducible exact Same.refl _ _
    | with_reducible assumption
    | ((with_reducible apply Same.step ?_ (noteSat_same _ _) ?_); on_goal 1 => rfl)
    | ((with_reducible apply Same.step ?_ (raise_same _ _ _ _ _ _) ?_); on_goal 1 => rfl)
    | (extract_lets +onlyGivenNames x; (with_reducible apply Same.cut x ?_ ?_); (on_goal 1 => (unfold x; clear x)); (on_goal 2 => (intro hx; clear_value x)))
    | (extract_lets +onlyGivenNames x; clear_value x)
    | (extract_lets +onlyGivenNames x; unfold x; clear x)
    | split)

theorem storeVal_same (s : State) (a1 : RegInfo) (a2 : ℕ) (a3 : ℕ) (a4 : ℕ) :
    Same 8720 s (storeVal s a1 a2 a3 a4).1 := by
  delta storeVal
  repeat' (first
    | with_reducible exact Same.refl _ _
    | with_reducible assumption
    | ((with_reducible apply Same.step ?_ (wL_same _ _ _ _) ?_); on_goal 1 => rfl)
    | ((with_reducible apply Same.step ?_ (loadSat_same _ _ _) ?_); on_goal 1 => rfl)
    | ((with_reducible apply Same.step ?_ (noteWrite_same _ _) ?_); on_goal 1 => rfl)
    | (extract_lets +onlyGivenNames x; (with_reducible apply Same.cut x ?_ ?_); (on_goal 1 => (unfold x; clear x)); (on_goal 2 => (intro hx; clear_value x)))
    | (extract_lets +onlyGivenNames x; clear_value x)
    | (extract_lets +onlyGivenNames x; unfold x; clear x)
    | split)

theorem applyVal_same (s : State) (a1 : RegInfo) (a2 : ℕ) (a3 : ℕ) (a4 : ℕ) (a5 : Cause) :
    Same 179766598565498 s (applyVal s a1 a2 a3 a4 a5) := by
  delta applyVal
  repeat' (first
    | with_reducible exact Same.refl _ _
    | with_reducible assumption
    | ((with_reducible apply Same.step ?_ (storeVal_same _ _ _ _ _) ?_); on_goal 1 => rfl)
    | ((with_reducible apply Same.step ?_ (regFx_same _ _ _ _ _ _ _) ?_); on_goal 1 => rfl)
    | (extract_lets +onlyGivenNames x; (with_reducible apply Same.cut x ?_ ?_); (on_goal 1 => (unfold x; clear x)); (on_goal 2 => (intro hx; clear_value x)))
    | (extract_lets +onlyGivenNames x; (with_reducible apply Same.cut x.1 ?_ ?_); (on_goal 1 => (unfold x; clear x)); (on_goal 2 => (intro hx; clear_value x)))
    | (extract_lets +onlyGivenNames x; clear_value x)
    | (extract_lets +onlyGivenNames x; unfold x; clear x)
    | with_reducible refine Same.ofFst (by assumption) ?_
    | split)

theorem atCyc_same (s : State) (a1 : CycIx) :
    Same 4 s (atCyc s a1) := by
  delta atCyc
  repeat' (first
    | with_reducible exact Same.refl _ _
    | with_reducible assumption
    | (extract_lets +onlyGivenNames x; (with_reducible apply Same.cut x ?_ ?_); (on_goal 1 => (unfold x; clear x)); (on_goal 2 => (intro hx; clear_value x)))
    | (extract_lets +onlyGivenNames x; clear_value x)
    | (extract_lets +onlyGivenNames x; unfold x; clear x)
    | split
    | ((with_reducible apply Same.put_cyc ?_ ?_) <;> [rfl; skip]))

theorem auditFail_same (s : State) (a1 : ℕ) :
    Same 8208 s (auditFail s a1) := by
  delta auditFail
  repeat' (first
    | with_reducible exact Same.refl _ _
    | with_reducible assumption
    | ((with_reducible apply Same.step ?_ (bump_same _ _ _) ?_); on_goal 1 => rfl)
    | ((with_reducible apply Same.step ?_ (orBits_same _ _ _) ?_); on_goal 1 => rfl)
    | ((with_reducible apply Same.step ?_ (raise_same _ _ _ _ _ _) ?_); on_goal 1 => rfl)
    | (extract_lets +onlyGivenNames x; (with_reducible apply Same.cut x ?_ ?_); (on_goal 1 => (unfold x; clear x)); (on_goal 2 => (intro hx; clear_value x)))
    | (extract_lets +onlyGivenNames x; clear_value x)
    | (extract_lets +onlyGivenNames x; unfold x; clear x)
    | split)

theorem auditLate_same (s : State) (a1 : ℕ) :
    Same 1056784 s (auditLate s a1) := by
  delta auditLate
  repeat' (first
    | with_reducible exact Same.refl _ _
    | with_reducible assumption
    | ((with_reducible apply Same.step ?_ (bump_same _ _ _) ?_); on_goal 1 => rfl)
    | ((with_reducible apply Same.step ?_ (setLane_same _ _ _) ?_); on_goal 1 => rfl)
    | ((with_reducible apply Same.step ?_ (auditFail_same _ _) ?_); on_goal 1 => rfl)
    | (extract_lets +onlyGivenNames x; (with_reducible apply Same.cut x ?_ ?_); (on_goal 1 => (unfold x; clear x)); (on_goal 2 => (intro hx; clear_value x)))
    | (extract_lets +onlyGivenNames x; clear_value x)
    | (extract_lets +onlyGivenNames x; unfold x; clear x)
    | split)

theorem imgOk_same (s : State) (a1 : ℕ) :
    Same 16 s (imgOk s a1) := by
  delta imgOk
  repeat' (first
    | with_reducible exact Same.refl _ _
    | with_reducible assumption
    | ((with_reducible apply Same.step ?_ (orBits_same _ _ _) ?_); on_goal 1 => rfl)
    | ((with_reducible apply Same.step ?_ (wr_same _ _ _) ?_); on_goal 1 => rfl)
    | (extract_lets +onlyGivenNames x; (with_reducible apply Same.cut x ?_ ?_); (on_goal 1 => (unfold x; clear x)); (on_goal 2 => (intro hx; clear_value x)))
    | (extract_lets +onlyGivenNames x; clear_value x)
    | (extract_lets +onlyGivenNames x; unfold x; clear x)
    | split)

theorem seqVerified_same (s : State) (a1 : ℕ) :
    Same 1099511635984 s (seqVerified s a1) := by
  delta seqVerified
  repeat' (first
    | with_reducible exact Same.refl _ _
    | with_reducible assumption
    | ((with_reducible apply Same.step ?_ (setSeqc_same _ _ _) ?_); on_goal 1 => rfl)
    | ((with_reducible apply Same.step ?_ (imgClear_same _ _) ?_); on_goal 1 => rfl)
    | ((with_reducible apply Same.step ?_ (raise_same _ _ _ _ _ _) ?_); on_goal 1 => rfl)
    | ((with_reducible apply Same.step ?_ (imgOk_same _ _) ?_); on_goal 1 => rfl)
    | (extract_lets +onlyGivenNames x; (with_reducible apply Same.cut x ?_ ?_); (on_goal 1 => (unfold x; clear x)); (on_goal 2 => (intro hx; clear_value x)))
    | (extract_lets +onlyGivenNames x; clear_value x)
    | (extract_lets +onlyGivenNames x; unfold x; clear x)
    | split)

theorem imageApply_same (s : State) (a1 : ℕ) (a2 : Bank) :
    Same 9232 s (imageApply s a1 a2) := by
  delta imageApply
  repeat' (first
    | with_reducible exact Same.refl _ _
    | with_reducible assumption
    | ((with_reducible apply Same.step ?_ (setMbs_same _ _ _) ?_); on_goal 1 => rfl)
    | ((with_reducible apply Same.step ?_ (imgClear_same _ _) ?_); on_goal 1 => rfl)
    | ((with_reducible apply Same.step ?_ (wr_same _ _ _) ?_); on_goal 1 => rfl)
    | ((with_reducible apply Same.step ?_ (raise_same _ _ _ _ _ _) ?_); on_goal 1 => rfl)
    | with_reducible apply Same.foldl ?_ ?_
    | (extract_lets +onlyGivenNames x; (with_reducible apply Same.cut x ?_ ?_); (on_goal 1 => (unfold x; clear x)); (on_goal 2 => (intro hx; clear_value x)))
    | (extract_lets +onlyGivenNames x; clear_value x)
    | (extract_lets +onlyGivenNames x; unfold x; clear x)
    | intro _
    | split)

theorem autoStart_same (s : State) (a1 : ℕ) :
    Same 1099511637008 s (autoStart s a1) := by
  delta autoStart
  repeat' (first
    | with_reducible exact Same.refl _ _
    | with_reducible assumption
    | ((with_reducible apply Same.step ?_ (seqVerified_same _ _) ?_); on_goal 1 => rfl)
    | ((with_reducible apply Same.step ?_ (orBits_same _ _ _) ?_); on_goal 1 => rfl)
    | ((with_reducible apply Same.step ?_ (seqStartCmd_same _ _) ?_); on_goal 1 => rfl)
    | ((with_reducible apply Same.step ?_ (imageApply_same _ _ _) ?_); on_goal 1 => rfl)
    | ((with_reducible apply Same.step ?_ (raise_same _ _ _ _ _ _) ?_); on_goal 1 => rfl)
    | (extract_lets +onlyGivenNames x; (with_reducible apply Same.cut x ?_ ?_); (on_goal 1 => (unfold x; clear x)); (on_goal 2 => (intro hx; clear_value x)))
    | (extract_lets +onlyGivenNames x; clear_value x)
    | (extract_lets +onlyGivenNames x; unfold x; clear x)
    | split)

theorem badIn_same (s : State) (a1 : ℕ) :
    Same 141029679309840 s (badIn s a1) := by
  delta badIn
  repeat' (first
    | with_reducible exact Same.refl _ _
    | with_reducible assumption
    | ((with_reducible apply Same.step ?_ (closePend_same _ _) ?_); on_goal 1 => rfl)
    | ((with_reducible apply Same.step ?_ (badBlk_same _ _) ?_); on_goal 1 => rfl)
    | (extract_lets +onlyGivenNames x; (with_reducible apply Same.cut x ?_ ?_); (on_goal 1 => (unfold x; clear x)); (on_goal 2 => (intro hx; clear_value x)))
    | (extract_lets +onlyGivenNames x; clear_value x)
    | (extract_lets +onlyGivenNames x; unfold x; clear x)
    | split)

theorem bandEnd_same (s : State) (a1 : ℕ) (a2 : Bool) (a3 : ℕ) (a4 : ℕ) (a5 : ℕ) :
    Same 40976 s (bandEnd s a1 a2 a3 a4 a5) := by
  delta bandEnd
  repeat' (first
    | with_reducible exact Same.refl _ _
    | with_reducible assumption
    | ((with_reducible apply Same.step ?_ (wr_same _ _ _) ?_); on_goal 1 => rfl)
    | ((with_reducible apply Same.step ?_ (raise_same _ _ _ _ _ _) ?_); on_goal 1 => rfl)
    | ((with_reducible apply Same.step ?_ (setSc_same _ _ _) ?_); on_goal 1 => rfl)
    | (extract_lets +onlyGivenNames x; (with_reducible apply Same.cut x ?_ ?_); (on_goal 1 => (unfold x; clear x)); (on_goal 2 => (intro hx; clear_value x)))
    | (extract_lets +onlyGivenNames x; clear_value x)
    | (extract_lets +onlyGivenNames x; unfold x; clear x)
    | split)

theorem coreTouch_same (s : State) (a1 : ℕ) (a2 : Bool) :
    Same 143230783988752 s (coreTouch s a1 a2) := by
  delta coreTouch
  repeat' (first
    | with_reducible exact Same.refl _ _
    | with_reducible assumption
    | ((with_reducible apply Same.step ?_ (coreWake_same _) ?_); on_goal 1 => rfl)
    | (extract_lets +onlyGivenNames x; (with_reducible apply Same.cut x ?_ ?_); (on_goal 1 => (unfold x; clear x)); (on_goal 2 => (intro hx; clear_value x)))
    | (extract_lets +onlyGivenNames x; clear_value x)
    | (extract_lets +onlyGivenNames x; unfold x; clear x)
    | split
    | ((with_reducible apply Same.put_pwr ?_ ?_) <;> [rfl; skip]))

theorem eccBad_same (s : State) (a1 : ℕ) :
    Same 67118096 s (eccBad s a1) := by
  delta eccBad
  repeat' (first
    | with_reducible exact Same.refl _ _
    | with_reducible assumption
    | ((with_reducible apply Same.step ?_ (bump_same _ _ _) ?_); on_goal 1 => rfl)
    | ((with_reducible apply Same.step ?_ (ringVoid_same _ _ _) ?_); on_goal 1 => rfl)
    | ((with_reducible apply Same.step ?_ (raise_same _ _ _ _ _ _) ?_); on_goal 1 => rfl)
    | with_reducible apply Same.upto ?_ ?_
    | with_reducible apply Same.foldl ?_ ?_
    | (extract_lets +onlyGivenNames x; (with_reducible apply Same.cut x ?_ ?_); (on_goal 1 => (unfold x; clear x)); (on_goal 2 => (intro hx; clear_value x)))
    | (extract_lets +onlyGivenNames x; clear_value x)
    | (extract_lets +onlyGivenNames x; unfold x; clear x)
    | intro _
    | split)

theorem bar2Bad_same (s : State) (a1 : ℕ) (a2 : ℕ) :
    Same 143230783988752 s (bar2Bad s a1 a2) := by
  delta bar2Bad
  repeat' (first
    | with_reducible exact Same.refl _ _
    | with_reducible assumption
    | ((with_reducible apply Same.step ?_ (coreTouch_same _ _ _) ?_); on_goal 1 => rfl)
    | ((with_reducible apply Same.step ?_ (orBits_same _ _ _) ?_); on_goal 1 => rfl)
    | ((with_reducible apply Same.step ?_ (eccBad_same _ _) ?_); on_goal 1 => rfl)
    | ((with_reducible apply Same.step ?_ (raise_same _ _ _ _ _ _) ?_); on_goal 1 => rfl)
    | (extract_lets +onlyGivenNames x; (with_reducible apply Same.cut x ?_ ?_); (on_goal 1 => (unfold x; clear x)); (on_goal 2 => (intro hx; clear_value x)))
    | (extract_lets +onlyGivenNames x; clear_value x)
    | (extract_lets +onlyGivenNames x; unfold x; clear x)
    | split)

theorem bar2Get_same (s : State) (a1 : ℕ) (a2 : ℕ) (a3 : List ℕ) :
    Same 143230783988754 s (bar2Get s a1 a2 a3).1 := by
  delta bar2Get
  repeat' (first
    | with_reducible exact Same.refl _ _
    | with_reducible assumption
    | ((with_reducible apply Same.step ?_ (setMbs_same _ _ _) ?_); on_goal 1 => rfl)
    | ((with_reducible apply Same.step ?_ (coreTouch_same _ _ _) ?_); on_goal 1 => rfl)
    | with_reducible apply Same.upto ?_ ?_
    | (extract_lets +onlyGivenNames x; (with_reducible apply Same.cut x ?_ ?_); (on_goal 1 => (unfold x; clear x)); (on_goal 2 => (intro hx; clear_value x)))
    | (extract_lets +onlyGivenNames x; clear_value x)
    | (extract_lets +onlyGivenNames x; unfold x; clear x)
    | intro _
    | split
    | ((with_reducible apply Same.put_free ?_ ?_) <;> [rfl; skip]))

theorem bar2Put_same (s : State) (a1 : ℕ) (a2 : ℕ) (a3 : List (Option Byte)) :
    Same 143230783988752 s (bar2Put s a1 a2 a3) := by
  delta bar2Put
  repeat' (first
    | with_reducible exact Same.refl _ _
    | with_reducible assumption
    | ((with_reducible apply Same.step ?_ (coreTouch_same _ _ _) ?_); on_goal 1 => rfl)
    | ((with_reducible apply Same.step ?_ (imgClear_same _ _) ?_); on_goal 1 => rfl)
    | ((with_reducible apply Same.step ?_ (raise_same _ _ _ _ _ _) ?_); on_goal 1 => rfl)
    | ((with_reducible apply Same.step ?_ (setMb_same _ _ _) ?_); on_goal 1 => rfl)
    | with_reducible apply Same.foldl ?_ ?_
    | (extract_lets +onlyGivenNames x; (with_reducible apply Same.cut x ?_ ?_); (on_goal 1 => (unfold x; clear x)); (on_goal 2 => (intro hx; clear_value x)))
    | (extract_lets +onlyGivenNames x; clear_value x)
    | (extract_lets +onlyGivenNames x; unfold x; clear x)
    | intro _
    | split)

theorem rfreq_same (s : State) (a1 : ℕ) :
    Same 16 s (rfreq s a1) := by
  delta rfreq
  repeat' (first
    | with_reducible exact Same.refl _ _
    | with_reducible assumption
    | ((with_reducible apply Same.step ?_ (wM_same _ _ _ _) ?_); on_goal 1 => rfl)
    | (extract_lets +onlyGivenNames x; (with_reducible apply Same.cut x ?_ ?_); (on_goal 1 => (unfold x; clear x)); (on_goal 2 => (intro hx; clear_value x)))
    | (extract_lets +onlyGivenNames x; clear_value x)
    | (extract_lets +onlyGivenNames x; unfold x; clear x)
    | split)

theorem portDefer_same (s : State) (a1 : ℕ) :
    Same 68719476752 s (portDefer s a1) := by
  delta portDefer
  repeat' (first
    | with_reducible exact Same.refl _ _
    | with_reducible assumption
    | ((with_reducible apply Same.step ?_ (orBits_same _ _ _) ?_); on_goal 1 => rfl)
    | (extract_lets +onlyGivenNames x; (with_reducible apply Same.cut x ?_ ?_); (on_goal 1 => (unfold x; clear x)); (on_goal 2 => (intro hx; clear_value x)))
    | (extract_lets +onlyGivenNames x; clear_value x)
    | (extract_lets +onlyGivenNames x; unfold x; clear x)
    | split
    | ((with_reducible apply Same.put_cal ?_ ?_) <;> [rfl; skip]))

theorem calStart_same (s : State) (a1 : ℕ) :
    Same 140737490452498 s (calStart s a1) := by
  delta calStart
  repeat' (first
    | with_reducible exact Same.refl _ _
    | with_reducible assumption
    | ((with_reducible apply Same.step ?_ (orBits_same _ _ _) ?_); on_goal 1 => rfl)
    | ((with_reducible apply Same.step ?_ (calReq_same _ _ _ _) ?_); on_goal 1 => rfl)
    | ((with_reducible apply Same.step ?_ (setPort_same _ _ _) ?_); on_goal 1 => rfl)
    | (extract_lets +onlyGivenNames x; (with_reducible apply Same.cut x ?_ ?_); (on_goal 1 => (unfold x; clear x)); (on_goal 2 => (intro hx; clear_value x)))
    | (extract_lets +onlyGivenNames x; clear_value x)
    | (extract_lets +onlyGivenNames x; unfold x; clear x)
    | split
    | ((with_reducible apply Same.put_free ?_ ?_) <;> [rfl; skip]))

theorem turnTake_same (s : State) (a1 : ℕ) :
    Same 140806209929234 s (turnTake s a1) := by
  delta turnTake
  repeat' (first
    | with_reducible exact Same.refl _ _
    | with_reducible assumption
    | ((with_reducible apply Same.step ?_ (portDefer_same _ _) ?_); on_goal 1 => rfl)
    | ((with_reducible apply Same.step ?_ (calStart_same _ _) ?_); on_goal 1 => rfl)
    | (extract_lets +onlyGivenNames x; (with_reducible apply Same.cut x ?_ ?_); (on_goal 1 => (unfold x; clear x)); (on_goal 2 => (intro hx; clear_value x)))
    | (extract_lets +onlyGivenNames x; clear_value x)
    | (extract_lets +onlyGivenNames x; unfold x; clear x)
    | split
    | ((with_reducible apply Same.put_cal ?_ ?_) <;> [rfl; skip]))

theorem laneTurns_same (s : State) (a1 : ℕ) :
    Same 140806209929234 s (laneTurns s a1) := by
  delta laneTurns
  repeat' (first
    | with_reducible exact Same.refl _ _
    | with_reducible assumption
    | ((with_reducible apply Same.step ?_ (turnTake_same _ _) ?_); on_goal 1 => rfl)
    | with_reducible apply Same.upto ?_ ?_
    | (extract_lets +onlyGivenNames x; (with_reducible apply Same.cut x ?_ ?_); (on_goal 1 => (unfold x; clear x)); (on_goal 2 => (intro hx; clear_value x)))
    | (extract_lets +onlyGivenNames x; clear_value x)
    | (extract_lets +onlyGivenNames x; unfold x; clear x)
    | intro _
    | split)

theorem turnWait_same (s : State) (a1 : ℕ) :
    Same 68719476736 s (turnWait s a1) := by
  delta turnWait
  repeat' (first
    | with_reducible exact Same.refl _ _
    | with_reducible assumption
    | (extract_lets +onlyGivenNames x; (with_reducible apply Same.cut x ?_ ?_); (on_goal 1 => (unfold x; clear x)); (on_goal 2 => (intro hx; clear_value x)))
    | (extract_lets +onlyGivenNames x; clear_value x)
    | (extract_lets +onlyGivenNames x; unfold x; clear x)
    | split
    | ((with_reducible apply Same.put_cal ?_ ?_) <;> [rfl; skip]))

theorem beaconTurn_same (s : State) (a1 : ℕ) (a2 : Bool) :
    Same 140806209929234 s (beaconTurn s a1 a2) := by
  delta beaconTurn
  repeat' (first
    | with_reducible exact Same.refl _ _
    | with_reducible assumption
    | ((with_reducible apply Same.step ?_ (laneTurns_same _ _) ?_); on_goal 1 => rfl)
    | ((with_reducible apply Same.step ?_ (turnWait_same _ _) ?_); on_goal 1 => rfl)
    | (extract_lets +onlyGivenNames x; (with_reducible apply Same.cut x ?_ ?_); (on_goal 1 => (unfold x; clear x)); (on_goal 2 => (intro hx; clear_value x)))
    | (extract_lets +onlyGivenNames x; clear_value x)
    | (extract_lets +onlyGivenNames x; unfold x; clear x)
    | split)

theorem beaconIn_same (s : State) (a1 : ℕ) (a2 : BeaconMsg) :
    Same 141098399245330 s (beaconIn s a1 a2) := by
  delta beaconIn
  repeat' (first
    | with_reducible exact Same.refl _ _
    | with_reducible assumption
    | ((with_reducible apply Same.step ?_ (orBits_same _ _ _) ?_); on_goal 1 => rfl)
    | ((with_reducible apply Same.step ?_ (wb_same _ _ _ _ _) ?_); on_goal 1 => rfl)
    | ((with_reducible apply Same.step ?_ (refSample_same _ _ _ _) ?_); on_goal 1 => rfl)
    | ((with_reducible apply Same.step ?_ (bumpM_same _ _ _) ?_); on_goal 1 => rfl)
    | ((with_reducible apply Same.step ?_ (rfreq_same _ _) ?_); on_goal 1 => rfl)
    | ((with_reducible apply Same.step ?_ (closePend_same _ _) ?_); on_goal 1 => rfl)
    | ((with_reducible apply Same.step ?_ (slowSettle_same _ _) ?_); on_goal 1 => rfl)
    | ((with_reducible apply Same.step ?_ (raise_same _ _ _ _ _ _) ?_); on_goal 1 => rfl)
    | ((with_reducible apply Same.step ?_ (setPort_same _ _ _) ?_); on_goal 1 => rfl)
    | ((with_reducible apply Same.step ?_ (beaconTurn_same _ _ _) ?_); on_goal 1 => rfl)
    | (extract_lets +onlyGivenNames x; (with_reducible apply Same.cut x ?_ ?_); (on_goal 1 => (unfold x; clear x)); (on_goal 2 => (intro hx; clear_value x)))
    | (extract_lets +onlyGivenNames x; (with_reducible apply Same.cutF x ?_ ?_); (on_goal 1 => (unfold x; clear x; intro _ _)); (on_goal 2 => (intro hx; clear_value x)))
    | (extract_lets +onlyGivenNames x; (with_reducible apply Same.cutF1 x ?_ ?_); (on_goal 1 => (unfold x; clear x; intro _)); (on_goal 2 => (intro hx; clear_value x)))
    | (extract_lets +onlyGivenNames x; (with_reducible apply Same.cutG x ?_ ?_); (on_goal 1 => (unfold x; clear x; intro _)); (on_goal 2 => (intro hx; clear_value x)))
    | (extract_lets +onlyGivenNames x; clear_value x)
    | (extract_lets +onlyGivenNames x; unfold x; clear x)
    | intro _
    | split
    | ((with_reducible apply Same.viaF ?_ ?_); on_goal 1 => with_reducible assumption)
    | ((with_reducible apply Same.viaF1 ?_ ?_); on_goal 1 => with_reducible assumption)
    | ((with_reducible apply Same.viaG ?_); on_goal 1 => with_reducible assumption))

theorem refLabel_same (s : State) (a1 : ℕ) (a2 : ℤ) (a3 : ℕ) :
    Same 401424 s (refLabel s a1 a2 a3) := by
  delta refLabel
  repeat' (first
    | with_reducible exact Same.refl _ _
    | with_reducible assumption
    | ((with_reducible apply Same.step ?_ (setLevel_same _ _ _ _) ?_); on_goal 1 => rfl)
    | ((with_reducible apply Same.step ?_ (refSample_same _ _ _ _) ?_); on_goal 1 => rfl)
    | ((with_reducible apply Same.step ?_ (setRef_same _ _ _) ?_); on_goal 1 => rfl)
    | ((with_reducible apply Same.step ?_ (wM_same _ _ _ _) ?_); on_goal 1 => rfl)
    | (extract_lets +onlyGivenNames x; (with_reducible apply Same.cut x ?_ ?_); (on_goal 1 => (unfold x; clear x)); (on_goal 2 => (intro hx; clear_value x)))
    | (extract_lets +onlyGivenNames x; clear_value x)
    | (extract_lets +onlyGivenNames x; unfold x; clear x)
    | split)

theorem todLabel_same (s : State) (a1 : ℕ) (a2 : ℕ) :
    Same 401424 s (todLabel s a1 a2) := by
  delta todLabel
  repeat' (first
    | with_reducible exact Same.refl _ _
    | with_reducible assumption
    | ((with_reducible apply Same.step ?_ (refLabel_same _ _ _ _) ?_); on_goal 1 => rfl)
    | ((with_reducible apply Same.step ?_ (setRef_same _ _ _) ?_); on_goal 1 => rfl)
    | (extract_lets +onlyGivenNames x; (with_reducible apply Same.cut x ?_ ?_); (on_goal 1 => (unfold x; clear x)); (on_goal 2 => (intro hx; clear_value x)))
    | (extract_lets +onlyGivenNames x; clear_value x)
    | (extract_lets +onlyGivenNames x; unfold x; clear x)
    | split)

theorem binaryIn_same (s : State) (a1 : ℕ) (a2 : List Byte) :
    Same 401424 s (binaryIn s a1 a2) := by
  delta binaryIn
  repeat' (first
    | with_reducible exact Same.refl _ _
    | with_reducible assumption
    | ((with_reducible apply Same.step ?_ (bump_same _ _ _) ?_); on_goal 1 => rfl)
    | ((with_reducible apply Same.step ?_ (orBits_same _ _ _) ?_); on_goal 1 => rfl)
    | ((with_reducible apply Same.step ?_ (todLabel_same _ _ _) ?_); on_goal 1 => rfl)
    | (extract_lets +onlyGivenNames x; (with_reducible apply Same.cut x ?_ ?_); (on_goal 1 => (unfold x; clear x)); (on_goal 2 => (intro hx; clear_value x)))
    | (extract_lets +onlyGivenNames x; clear_value x)
    | (extract_lets +onlyGivenNames x; unfold x; clear x)
    | split)

theorem bpDone_same (s : State) (a1 : ℕ) :
    Same 1099511627776 s (bpDone s a1) := by
  delta bpDone
  repeat' (first
    | with_reducible exact Same.refl _ _
    | with_reducible assumption
    | ((with_reducible apply Same.step ?_ (setSeqc_same _ _ _) ?_); on_goal 1 => rfl)
    | (extract_lets +onlyGivenNames x; (with_reducible apply Same.cut x ?_ ?_); (on_goal 1 => (unfold x; clear x)); (on_goal 2 => (intro hx; clear_value x)))
    | (extract_lets +onlyGivenNames x; clear_value x)
    | (extract_lets +onlyGivenNames x; unfold x; clear x)
    | split)

theorem bpHit_same (s : State) (a1 : ℕ) :
    Same 1099511627792 s (bpHit s a1) := by
  delta bpHit
  repeat' (first
    | with_reducible exact Same.refl _ _
    | with_reducible assumption
    | ((with_reducible apply Same.step ?_ (orBits_same _ _ _) ?_); on_goal 1 => rfl)
    | ((with_reducible apply Same.step ?_ (seqHaltAs_same _ _ _) ?_); on_goal 1 => rfl)
    | (extract_lets +onlyGivenNames x; (with_reducible apply Same.cut x ?_ ?_); (on_goal 1 => (unfold x; clear x)); (on_goal 2 => (intro hx; clear_value x)))
    | (extract_lets +onlyGivenNames x; clear_value x)
    | (extract_lets +onlyGivenNames x; unfold x; clear x)
    | split)

theorem bumpRejected_same (s : State) (a1 : Blk) (a2 : ℕ) :
    Same 8208 s (bumpRejected s a1 a2) := by
  delta bumpRejected
  repeat' (first
    | with_reducible exact Same.refl _ _
    | with_reducible assumption
    | ((with_reducible apply Same.step ?_ (bump_same _ _ _) ?_); on_goal 1 => rfl)
    | ((with_reducible apply Same.step ?_ (bumpM_same _ _ _) ?_); on_goal 1 => rfl)
    | (extract_lets +onlyGivenNames x; (with_reducible apply Same.cut x ?_ ?_); (on_goal 1 => (unfold x; clear x)); (on_goal 2 => (intro hx; clear_value x)))
    | (extract_lets +onlyGivenNames x; clear_value x)
    | (extract_lets +onlyGivenNames x; unfold x; clear x)
    | split)

theorem busAccept_same (s : State) (a1 : ℕ) (a2 : ℕ) (a3 : ℕ) (a4 : ℕ) (a5 : RegInfo) :
    Same 179766598565626 s (busAccept s a1 a2 a3 a4 a5).1 := by
  delta busAccept
  repeat' (first
    | with_reducible exact Same.refl _ _
    | with_reducible assumption
    | ((with_reducible apply Same.step ?_ (bump_same _ _ _) ?_); on_goal 1 => rfl)
    | ((with_reducible apply Same.step ?_ (busFault_same _ _ _ _) ?_); on_goal 1 => rfl)
    | ((with_reducible apply Same.step ?_ (passVoidMark_same _ _) ?_); on_goal 1 => rfl)
    | ((with_reducible apply Same.step ?_ (applyVal_same _ _ _ _ _ _) ?_); on_goal 1 => rfl)
    | ((with_reducible apply Same.step ?_ (bumpRejected_same _ _ _) ?_); on_goal 1 => rfl)
    | (extract_lets +onlyGivenNames x; (with_reducible apply Same.cut x ?_ ?_); (on_goal 1 => (unfold x; clear x)); (on_goal 2 => (intro hx; clear_value x)))
    | (extract_lets +onlyGivenNames x; clear_value x)
    | (extract_lets +onlyGivenNames x; unfold x; clear x)
    | split
    | ((with_reducible apply Same.put_posted ?_ ?_) <;> [rfl; skip]))

theorem dmaFixed_same (s : State) (a1 : Desc) (a2 : DmaSide) (a3 : DmaSide) :
    Same 8208 s (dmaFixed s a1 a2 a3) := by
  delta dmaFixed
  repeat' (first
    | with_reducible exact Same.refl _ _
    | with_reducible assumption
    | ((with_reducible apply Same.step ?_ (bump_same _ _ _) ?_); on_goal 1 => rfl)
    | (extract_lets +onlyGivenNames x; (with_reducible apply Same.cut x ?_ ?_); (on_goal 1 => (unfold x; clear x)); (on_goal 2 => (intro hx; clear_value x)))
    | (extract_lets +onlyGivenNames x; clear_value x)
    | (extract_lets +onlyGivenNames x; unfold x; clear x)
    | split)

theorem dmaNext_same (s : State) (a1 : ℕ) (a2 : Desc) :
    Same 274877906960 s (dmaNext s a1 a2) := by
  delta dmaNext
  repeat' (first
    | with_reducible exact Same.refl _ _
    | with_reducible assumption
    | ((with_reducible apply Same.step ?_ (setDma_same _ _ _) ?_); on_goal 1 => rfl)
    | ((with_reducible apply Same.step ?_ (orBits_same _ _ _) ?_); on_goal 1 => rfl)
    | ((with_reducible apply hwUpdate_same ?_ ?_ ?_); on_goal 1 => rfl)
    | ((with_reducible apply Same.step ?_ (wb_same _ _ _ _ _) ?_); on_goal 1 => rfl)
    | ((with_reducible apply Same.step ?_ (wL_same _ _ _ _) ?_); on_goal 1 => rfl)
    | (extract_lets +onlyGivenNames x; (with_reducible apply Same.cut x ?_ ?_); (on_goal 1 => (unfold x; clear x)); (on_goal 2 => (intro hx; clear_value x)))
    | (extract_lets +onlyGivenNames x; clear_value x)
    | (extract_lets +onlyGivenNames x; unfold x; clear x)
    | intro _
    | split)

theorem dmaMsix_same (s : State) (a1 : ℕ) :
    Same 176196738351104 s (dmaMsix s a1) := by
  delta dmaMsix
  repeat' (first
    | with_reducible exact Same.refl _ _
    | with_reducible assumption
    | ((with_reducible apply Same.step ?_ (setDma_same _ _ _) ?_); on_goal 1 => rfl)
    | ((with_reducible apply Same.step ?_ (sendMsix_same _ _) ?_); on_goal 1 => rfl)
    | (extract_lets +onlyGivenNames x; (with_reducible apply Same.cut x ?_ ?_); (on_goal 1 => (unfold x; clear x)); (on_goal 2 => (intro hx; clear_value x)))
    | (extract_lets +onlyGivenNames x; clear_value x)
    | (extract_lets +onlyGivenNames x; unfold x; clear x)
    | split)

theorem hostWrite_same (s : State) (a1 : ℕ) (a2 : List Byte) :
    Same 140737488355328 s (hostWrite s a1 a2) := by
  delta hostWrite
  repeat' (first
    | with_reducible exact Same.refl _ _
    | with_reducible assumption
    | ((with_reducible apply Same.step ?_ (emit_same _ _) ?_); on_goal 1 => rfl)
    | (extract_lets +onlyGivenNames x; (with_reducible apply Same.cut x ?_ ?_); (on_goal 1 => (unfold x; clear x)); (on_goal 2 => (intro hx; clear_value x)))
    | (extract_lets +onlyGivenNames x; clear_value x)
    | (extract_lets +onlyGivenNames x; unfold x; clear x)
    | split)

theorem dmaBack_same (s : State) (a1 : ℕ) (a2 : Desc) (a3 : Bool) (a4 : Option ℕ) :
    Same 176196738359312 s (dmaBack s a1 a2 a3 a4) := by
  delta dmaBack
  repeat' (first
    | with_reducible exact Same.refl _ _
    | with_reducible assumption
    | ((with_reducible apply Same.step ?_ (bump_same _ _ _) ?_); on_goal 1 => rfl)
    | ((with_reducible apply Same.step ?_ (orBits_same _ _ _) ?_); on_goal 1 => rfl)
    | ((with_reducible apply Same.step ?_ (dmaMsix_same _ _) ?_); on_goal 1 => rfl)
    | ((with_reducible apply Same.step ?_ (wr_same _ _ _) ?_); on_goal 1 => rfl)
    | ((with_reducible apply Same.step ?_ (hostWrite_same _ _ _) ?_); on_goal 1 => rfl)
    | (extract_lets +onlyGivenNames x; (with_reducible apply Same.cut x ?_ ?_); (on_goal 1 => (unfold x; clear x)); (on_goal 2 => (intro hx; clear_value x)))
    | (extract_lets +onlyGivenNames x; clear_value x)
    | (extract_lets +onlyGivenNames x; unfold x; clear x)
    | split)

theorem dmaEnd_same (s : State) (a1 : ℕ) (a2 : Desc) (a3 : Option ℕ) :
    Same 176196738359312 s (dmaEnd s a1 a2 a3) := by
  delta dmaEnd
  repeat' (first
    | with_reducible exact Same.refl _ _
    | with_reducible assumption
    | ((with_reducible apply Same.step ?_ (dmaNext_same _ _ _) ?_); on_goal 1 => rfl)
    | ((with_reducible apply Same.step ?_ (dmaBack_same _ _ _ _ _) ?_); on_goal 1 => rfl)
    | (extract_lets +onlyGivenNames x; (with_reducible apply Same.cut x ?_ ?_); (on_goal 1 => (unfold x; clear x)); (on_goal 2 => (intro hx; clear_value x)))
    | (extract_lets +onlyGivenNames x; clear_value x)
    | (extract_lets +onlyGivenNames x; unfold x; clear x)
    | split)

theorem curSet_same (s : State) (a1 : ℕ) (a2 : Desc) (a3 : ℕ) :
    Same 16 s (curSet s a1 a2 a3) := by
  delta curSet
  repeat' (first
    | with_reducible exact Same.refl _ _
    | with_reducible assumption
    | ((with_reducible apply Same.step ?_ (wL_same _ _ _ _) ?_); on_goal 1 => rfl)
    | ((with_reducible apply Same.step ?_ (wr_same _ _ _) ?_); on_goal 1 => rfl)
    | (extract_lets +onlyGivenNames x; (with_reducible apply Same.cut x ?_ ?_); (on_goal 1 => (unfold x; clear x)); (on_goal 2 => (intro hx; clear_value x)))
    | (extract_lets +onlyGivenNames x; clear_value x)
    | (extract_lets +onlyGivenNames x; unfold x; clear x)
    | split)

theorem dmaGrant_same (s : State) (a1 : ℕ) :
    Same 824633729040 s (dmaGrant s a1) := by
  delta dmaGrant
  repeat' (first
    | with_reducible exact Same.refl _ _
    | with_reducible assumption
    | ((with_reducible apply Same.step ?_ (setDma_same _ _ _) ?_); on_goal 1 => rfl)
    | ((with_reducible apply Same.step ?_ (bump_same _ _ _) ?_); on_goal 1 => rfl)
    | (extract_lets +onlyGivenNames x; (with_reducible apply Same.cut x ?_ ?_); (on_goal 1 => (unfold x; clear x)); (on_goal 2 => (intro hx; clear_value x)))
    | (extract_lets +onlyGivenNames x; clear_value x)
    | (extract_lets +onlyGivenNames x; unfold x; clear x)
    | split
    | ((with_reducible apply Same.put_dmaLast ?_ ?_) <;> [rfl; skip]))

theorem setShadow_same (s : State) (a1 : ℕ) (a2 : ℕ) (a3 : ℕ) :
    Same 32 s (setShadow s a1 a2 a3) := by
  delta setShadow
  repeat' (first
    | with_reducible exact Same.refl _ _
    | with_reducible assumption
    | (extract_lets +onlyGivenNames x; (with_reducible apply Same.cut x ?_ ?_); (on_goal 1 => (unfold x; clear x)); (on_goal 2 => (intro hx; clear_value x)))
    | (extract_lets +onlyGivenNames x; clear_value x)
    | (extract_lets +onlyGivenNames x; unfold x; clear x)
    | split
    | ((with_reducible apply Same.put_shadow ?_ ?_) <;> [rfl; skip]))

theorem latchL_same (s : State) (a1 : ℕ) (a2 : ℕ) (a3 : ℕ) (a4 : ℕ) :
    Same 32 s (latchL s a1 a2 a3 a4) := by
  induction a3 generalizing s a2 a4 with
  | zero => exact Same.refl _ _
  | succ k ih => exact (setShadow_same _ _ _ _).trans (ih _ _ _)

theorem readWord_same (s : State) (a1 : ℕ) (a2 : ℕ) (a3 : Bool) :
    Same 32 s (readWord s a1 a2 a3).1 := by
  delta readWord
  repeat' (first
    | with_reducible exact Same.refl _ _
    | with_reducible assumption
    | ((with_reducible apply Same.step ?_ (setShadow_same _ _ _ _) ?_); on_goal 1 => rfl)
    | ((with_reducible apply Same.step ?_ (latchL_same _ _ _ _ _) ?_); on_goal 1 => rfl)
    | (extract_lets +onlyGivenNames x; (with_reducible apply Same.cut x ?_ ?_); (on_goal 1 => (unfold x; clear x)); (on_goal 2 => (intro hx; clear_value x)))
    | (extract_lets +onlyGivenNames x; clear_value x)
    | (extract_lets +onlyGivenNames x; unfold x; clear x)
    | split)

theorem busRead32_same (s : State) (a1 : ℕ) (a2 : ℕ) (a3 : ℕ) :
    Same 143230783988784 s (busRead32 s a1 a2 a3).1 := by
  delta busRead32
  repeat' (first
    | with_reducible exact Same.refl _ _
    | with_reducible assumption
    | ((with_reducible apply Same.step ?_ (readWord_same _ _ _ _) ?_); on_goal 1 => rfl)
    | ((with_reducible apply Same.step ?_ (coreTouch_same _ _ _) ?_); on_goal 1 => rfl)
    | (extract_lets +onlyGivenNames x; (with_reducible apply Same.cut x ?_ ?_); (on_goal 1 => (unfold x; clear x)); (on_goal 2 => (intro hx; clear_value x)))
    | (extract_lets +onlyGivenNames x; (with_reducible apply Same.cut x.1 ?_ ?_); (on_goal 1 => (unfold x; clear x)); (on_goal 2 => (intro hx; clear_value x)))
    | (extract_lets +onlyGivenNames x; clear_value x)
    | (extract_lets +onlyGivenNames x; unfold x; clear x)
    | with_reducible refine Same.ofFst (by assumption) ?_
    | split)

theorem busRead_same (s : State) (a1 : ℕ) (a2 : ℕ) (a3 : ℕ) :
    Same 143230783988784 s (busRead s a1 a2 a3).1 := by
  delta busRead
  repeat' (first
    | with_reducible exact Same.refl _ _
    | with_reducible assumption
    | ((with_reducible apply Same.step ?_ (busRead32_same _ _ _ _) ?_); on_goal 1 => rfl)
    | (extract_lets +onlyGivenNames x; (with_reducible apply Same.cut x ?_ ?_); (on_goal 1 => (unfold x; clear x)); (on_goal 2 => (intro hx; clear_value x)))
    | (extract_lets +onlyGivenNames x; (with_reducible apply Same.cut x.1 ?_ ?_); (on_goal 1 => (unfold x; clear x)); (on_goal 2 => (intro hx; clear_value x)))
    | (extract_lets +onlyGivenNames x; clear_value x)
    | (extract_lets +onlyGivenNames x; unfold x; clear x)
    | with_reducible refine Same.ofFst (by assumption) ?_
    | split)

theorem regBytes_same (s : State) (a1 : ℕ) (a2 : ℕ) :
    Same 143230783988784 s (regBytes s a1 a2).1 := by
  induction a2 generalizing s a1 with
  | zero => exact Same.refl _ _
  | succ k ih => exact Same.trans (Same.step (by rfl) (busRead_same _ _ _ _) (Same.refl _ _)) (ih _ _)

theorem dmaRead_same (s : State) (a1 : ℕ) (a2 : ℕ) (a3 : ℕ) (a4 : List Byte) :
    Same 143230783988786 s (dmaRead s a1 a2 a3 a4).1 := by
  delta dmaRead
  repeat' (first
    | with_reducible exact Same.refl _ _
    | with_reducible assumption
    | ((with_reducible apply Same.step ?_ (bar2Get_same _ _ _ _) ?_); on_goal 1 => rfl)
    | ((with_reducible apply Same.step ?_ (regBytes_same _ _ _) ?_); on_goal 1 => rfl)
    | ((with_reducible apply Same.step ?_ (emit_same _ _) ?_); on_goal 1 => rfl)
    | (extract_lets +onlyGivenNames x; (with_reducible apply Same.cut x ?_ ?_); (on_goal 1 => (unfold x; clear x)); (on_goal 2 => (intro hx; clear_value x)))
    | (extract_lets +onlyGivenNames x; (with_reducible apply Same.cut x.1 ?_ ?_); (on_goal 1 => (unfold x; clear x)); (on_goal 2 => (intro hx; clear_value x)))
    | (extract_lets +onlyGivenNames x; clear_value x)
    | (extract_lets +onlyGivenNames x; unfold x; clear x)
    | with_reducible refine Same.ofFst (by assumption) ?_
    | split)

theorem setStaged_same (s : State) (a1 : ℕ) (a2 : ℕ) (a3 : ℕ) :
    Same 64 s (setStaged s a1 a2 a3) := by
  delta setStaged
  repeat' (first
    | with_reducible exact Same.refl _ _
    | with_reducible assumption
    | (extract_lets +onlyGivenNames x; (with_reducible apply Same.cut x ?_ ?_); (on_goal 1 => (unfold x; clear x)); (on_goal 2 => (intro hx; clear_value x)))
    | (extract_lets +onlyGivenNames x; clear_value x)
    | (extract_lets +onlyGivenNames x; unfold x; clear x)
    | split
    | ((with_reducible apply Same.put_staging ?_ ?_) <;> [rfl; skip]))

end Sys2Proof.Machine
end

