-- ==== Sys2Proof/Laws/Frame5.lean ====
section
/-!
SUPPORT. The fields of `State` that each operation can change, operation by operation (part 5).
-/
set_option linter.all false
set_option linter.unusedTactic false
set_option linter.unreachableTactic false
namespace Sys2Proof.Machine

open Sys2Proof

theorem hostForward_same (s : State) (a1 : ℕ) (a2 : ℕ) (a3 : ℕ) (a4 : ℕ) :
    Same 140754668224512 s (hostForward s a1 a2 a3 a4) := by
  delta hostForward
  repeat' (first
    | with_reducible exact Same.refl _ _
    | with_reducible assumption
    | ((with_reducible apply Same.step ?_ (forward_same _ _) ?_); on_goal 1 => rfl)
    | (extract_lets +onlyGivenNames x; (with_reducible apply Same.cut x ?_ ?_); (on_goal 1 => (unfold x; clear x)); (on_goal 2 => (intro hx; clear_value x)))
    | (extract_lets +onlyGivenNames x; clear_value x)
    | (extract_lets +onlyGivenNames x; unfold x; clear x)
    | split)

theorem forwardTaken_same (s : State) (a1 : ℕ) (a2 : ℕ) (a3 : ℕ) (a4 : ℕ) (a5 : RegInfo) (a6 : ℕ) (a7 : ℕ) :
    Same 140754668224512 s (forwardTaken s a1 a2 a3 a4 a5 a6 a7) := by
  delta forwardTaken
  repeat' (first
    | with_reducible exact Same.refl _ _
    | with_reducible assumption
    | ((with_reducible apply Same.step ?_ (hostForward_same _ _ _ _ _) ?_); on_goal 1 => rfl)
    | (extract_lets +onlyGivenNames x; (with_reducible apply Same.cut x ?_ ?_); (on_goal 1 => (unfold x; clear x)); (on_goal 2 => (intro hx; clear_value x)))
    | (extract_lets +onlyGivenNames x; clear_value x)
    | (extract_lets +onlyGivenNames x; unfold x; clear x)
    | split)

theorem regWrite_same (s : State) (a1 : ℕ) (a2 : ℕ) (a3 : ℕ) :
    Same 179766598565626 s (regWrite s a1 a2 a3).1 := by
  delta regWrite
  repeat' (first
    | with_reducible exact Same.refl _ _
    | with_reducible assumption
    | ((with_reducible apply Same.step ?_ (busFault_same _ _ _ _) ?_); on_goal 1 => rfl)
    | ((with_reducible apply Same.step ?_ (setStaged_same _ _ _ _) ?_); on_goal 1 => rfl)
    | ((with_reducible apply Same.step ?_ (busAccept_same _ _ _ _ _ _) ?_); on_goal 1 => rfl)
    | ((with_reducible apply Same.step ?_ (hostForward_same _ _ _ _ _) ?_); on_goal 1 => rfl)
    | ((with_reducible apply Same.step ?_ (forwardTaken_same _ _ _ _ _ _ _ _) ?_); on_goal 1 => rfl)
    | (extract_lets +onlyGivenNames x; (with_reducible apply Same.cut x ?_ ?_); (on_goal 1 => (unfold x; clear x)); (on_goal 2 => (intro hx; clear_value x)))
    | (extract_lets +onlyGivenNames x; (with_reducible apply Same.cut x.1 ?_ ?_); (on_goal 1 => (unfold x; clear x)); (on_goal 2 => (intro hx; clear_value x)))
    | (extract_lets +onlyGivenNames x; clear_value x)
    | (extract_lets +onlyGivenNames x; unfold x; clear x)
    | with_reducible refine Same.ofFst (by assumption) ?_
    | split)

theorem msixFlush_same (s : State) :
    Same 175921860444160 s (msixFlush s) := by
  delta msixFlush
  repeat' (first
    | with_reducible exact Same.refl _ _
    | with_reducible assumption
    | ((with_reducible apply Same.step ?_ (sendMsix_same _ _) ?_); on_goal 1 => rfl)
    | with_reducible apply Same.upto ?_ ?_
    | (extract_lets +onlyGivenNames x; (with_reducible apply Same.cut x ?_ ?_); (on_goal 1 => (unfold x; clear x)); (on_goal 2 => (intro hx; clear_value x)))
    | (extract_lets +onlyGivenNames x; clear_value x)
    | (extract_lets +onlyGivenNames x; unfold x; clear x)
    | intro _
    | split
    | ((with_reducible apply Same.put_pba ?_ ?_) <;> [rfl; skip]))

theorem msixWrite_same (s : State) (a1 : ℕ) (a2 : ℕ) :
    Same 193514046488576 s (msixWrite s a1 a2) := by
  delta msixWrite
  repeat' (first
    | with_reducible exact Same.refl _ _
    | with_reducible assumption
    | ((with_reducible apply Same.step ?_ (msixFlush_same _) ?_); on_goal 1 => rfl)
    | (extract_lets +onlyGivenNames x; (with_reducible apply Same.cut x ?_ ?_); (on_goal 1 => (unfold x; clear x)); (on_goal 2 => (intro hx; clear_value x)))
    | (extract_lets +onlyGivenNames x; clear_value x)
    | (extract_lets +onlyGivenNames x; unfold x; clear x)
    | split
    | ((with_reducible apply Same.put_msix ?_ ?_) <;> [rfl; skip]))

theorem safeRefuse_same (s : State) (a1 : ℕ) :
    Same 8208 s (safeRefuse s a1) := by
  delta safeRefuse
  repeat' (first
    | with_reducible exact Same.refl _ _
    | with_reducible assumption
    | ((with_reducible apply Same.step ?_ (bumpRejected_same _ _ _) ?_); on_goal 1 => rfl)
    | (extract_lets +onlyGivenNames x; (with_reducible apply Same.cut x ?_ ?_); (on_goal 1 => (unfold x; clear x)); (on_goal 2 => (intro hx; clear_value x)))
    | (extract_lets +onlyGivenNames x; clear_value x)
    | (extract_lets +onlyGivenNames x; unfold x; clear x)
    | split)

theorem busWrite32_same (s : State) (a1 : ℕ) (a2 : ℕ) (a3 : ℕ) :
    Same 197360932093690 s (busWrite32 s a1 a2 a3).1 := by
  delta busWrite32
  repeat' (first
    | with_reducible exact Same.refl _ _
    | with_reducible assumption
    | ((with_reducible apply Same.step ?_ (coreTouch_same _ _ _) ?_); on_goal 1 => rfl)
    | ((with_reducible apply Same.step ?_ (regWrite_same _ _ _ _) ?_); on_goal 1 => rfl)
    | ((with_reducible apply Same.step ?_ (msixWrite_same _ _ _) ?_); on_goal 1 => rfl)
    | ((with_reducible apply Same.step ?_ (safeRefuse_same _ _) ?_); on_goal 1 => rfl)
    | (extract_lets +onlyGivenNames x; (with_reducible apply Same.cut x ?_ ?_); (on_goal 1 => (unfold x; clear x)); (on_goal 2 => (intro hx; clear_value x)))
    | (extract_lets +onlyGivenNames x; (with_reducible apply Same.cut x.1 ?_ ?_); (on_goal 1 => (unfold x; clear x)); (on_goal 2 => (intro hx; clear_value x)))
    | (extract_lets +onlyGivenNames x; clear_value x)
    | (extract_lets +onlyGivenNames x; unfold x; clear x)
    | with_reducible refine Same.ofFst (by assumption) ?_
    | split)

theorem busWrite1_same (s : State) (a1 : ℕ) (a2 : ℕ) (a3 : ℕ) (a4 : ℕ) :
    Same 197360932093690 s (busWrite1 s a1 a2 a3 a4).1 := by
  delta busWrite1
  repeat' (first
    | with_reducible exact Same.refl _ _
    | with_reducible assumption
    | ((with_reducible apply Same.step ?_ (coreTouch_same _ _ _) ?_); on_goal 1 => rfl)
    | ((with_reducible apply Same.step ?_ (busFault_same _ _ _ _) ?_); on_goal 1 => rfl)
    | ((with_reducible apply Same.step ?_ (busWrite32_same _ _ _ _) ?_); on_goal 1 => rfl)
    | (extract_lets +onlyGivenNames x; (with_reducible apply Same.cut x ?_ ?_); (on_goal 1 => (unfold x; clear x)); (on_goal 2 => (intro hx; clear_value x)))
    | (extract_lets +onlyGivenNames x; (with_reducible apply Same.cut x.1 ?_ ?_); (on_goal 1 => (unfold x; clear x)); (on_goal 2 => (intro hx; clear_value x)))
    | (extract_lets +onlyGivenNames x; clear_value x)
    | (extract_lets +onlyGivenNames x; unfold x; clear x)
    | with_reducible refine Same.ofFst (by assumption) ?_
    | split)

theorem busWrite_same (s : State) (a1 : ℕ) (a2 : ℕ) (a3 : ℕ) (a4 : ℕ) :
    Same 197360932093690 s (busWrite s a1 a2 a3 a4).1 := by
  delta busWrite
  repeat' (first
    | with_reducible exact Same.refl _ _
    | with_reducible assumption
    | ((with_reducible apply Same.step ?_ (busWrite1_same _ _ _ _ _) ?_); on_goal 1 => rfl)
    | (extract_lets +onlyGivenNames x; (with_reducible apply Same.cut x ?_ ?_); (on_goal 1 => (unfold x; clear x)); (on_goal 2 => (intro hx; clear_value x)))
    | (extract_lets +onlyGivenNames x; (with_reducible apply Same.cut x.1 ?_ ?_); (on_goal 1 => (unfold x; clear x)); (on_goal 2 => (intro hx; clear_value x)))
    | (extract_lets +onlyGivenNames x; clear_value x)
    | (extract_lets +onlyGivenNames x; unfold x; clear x)
    | with_reducible refine Same.ofFst (by assumption) ?_
    | split)

theorem regPutBytes_same (s : State) (a1 : ℕ) (a2 : List Byte) (a3 : ℕ) :
    Same 197360932093690 s (regPutBytes s a1 a2 a3).1 := by
  induction a3 generalizing s a1 a2 with
  | zero => exact Same.refl _ _
  | succ k ih => exact Same.trans (Same.step (by rfl) (busWrite_same _ _ _ _ _) (Same.refl _ _)) (ih _ _ _)

theorem dmaPut_same (s : State) (a1 : ℕ) (a2 : ℕ) (a3 : List Byte) :
    Same 197360932093690 s (dmaPut s a1 a2 a3).1 := by
  delta dmaPut
  repeat' (first
    | with_reducible exact Same.refl _ _
    | with_reducible assumption
    | ((with_reducible apply Same.step ?_ (bar2Put_same _ _ _ _) ?_); on_goal 1 => rfl)
    | ((with_reducible apply Same.step ?_ (regPutBytes_same _ _ _ _) ?_); on_goal 1 => rfl)
    | ((with_reducible apply Same.step ?_ (hostWrite_same _ _ _) ?_); on_goal 1 => rfl)
    | (extract_lets +onlyGivenNames x; (with_reducible apply Same.cut x ?_ ?_); (on_goal 1 => (unfold x; clear x)); (on_goal 2 => (intro hx; clear_value x)))
    | (extract_lets +onlyGivenNames x; (with_reducible apply Same.cut x.1 ?_ ?_); (on_goal 1 => (unfold x; clear x)); (on_goal 2 => (intro hx; clear_value x)))
    | (extract_lets +onlyGivenNames x; clear_value x)
    | (extract_lets +onlyGivenNames x; unfold x; clear x)
    | with_reducible refine Same.ofFst (by assumption) ?_
    | split)

theorem dmaStore_same (s : State) (a1 : ℕ) (a2 : Desc) (a3 : ℕ) (a4 : List Byte) :
    Same 197360932093690 s (dmaStore s a1 a2 a3 a4).1 := by
  delta dmaStore
  have h (l : List (Nat × List Byte)) (r : State × Bool) : Same 197360932093690 r.1 (l.foldl (fun r p =>
      ((dmaPut r.1 (dstLoc a2) p.1 p.2).1, r.2 || (dmaPut r.1 (dstLoc a2) p.1 p.2).2)) r).1 := by
    induction l generalizing r with
    | nil => exact Same.refl _ _
    | cons p t ih =>
      rw [List.foldl_cons]
      exact Same.trans (Same.step (by rfl) (dmaPut_same r.1 (dstLoc a2) p.1 p.2) (Same.refl _ _))
        (ih ((dmaPut r.1 (dstLoc a2) p.1 p.2).1, r.2 || (dmaPut r.1 (dstLoc a2) p.1 p.2).2))
  exact h _ (s, false)

theorem dmaData_same (s : State) (a1 : ℕ) (a2 : Desc) (a3 : ℕ) (a4 : ℕ) (a5 : List Byte) (a6 : List Byte) :
    Same 197360932093690 s (dmaData s a1 a2 a3 a4 a5 a6).1 := by
  delta dmaData
  repeat' (first
    | with_reducible exact Same.refl _ _
    | with_reducible assumption
    | ((with_reducible apply Same.step ?_ (dmaRead_same _ _ _ _ _) ?_); on_goal 1 => rfl)
    | ((with_reducible apply Same.step ?_ (dmaStore_same _ _ _ _ _) ?_); on_goal 1 => rfl)
    | (extract_lets +onlyGivenNames x; (with_reducible apply Same.cut x ?_ ?_); (on_goal 1 => (unfold x; clear x)); (on_goal 2 => (intro hx; clear_value x)))
    | (extract_lets +onlyGivenNames x; (with_reducible apply Same.cut x.1 ?_ ?_); (on_goal 1 => (unfold x; clear x)); (on_goal 2 => (intro hx; clear_value x)))
    | (extract_lets +onlyGivenNames x; clear_value x)
    | (extract_lets +onlyGivenNames x; unfold x; clear x)
    | with_reducible refine Same.ofFst (by assumption) ?_
    | split)

theorem dmaBurst_same (s : State) (a1 : ℕ) (a2 : Desc) (a3 : ℕ) (a4 : ℕ) (a5 : List Byte) (a6 : List Byte) (a7 : Bool) :
    Same 197910687907578 s (dmaBurst s a1 a2 a3 a4 a5 a6 a7).1 := by
  delta dmaBurst
  repeat' (first
    | with_reducible exact Same.refl _ _
    | with_reducible assumption
    | ((with_reducible apply Same.step ?_ (curSet_same _ _ _ _) ?_); on_goal 1 => rfl)
    | ((with_reducible apply Same.step ?_ (setDma_same _ _ _) ?_); on_goal 1 => rfl)
    | ((with_reducible apply Same.step ?_ (dmaGrant_same _ _) ?_); on_goal 1 => rfl)
    | ((with_reducible apply Same.step ?_ (dmaData_same _ _ _ _ _ _ _) ?_); on_goal 1 => rfl)
    | (extract_lets +onlyGivenNames x; (with_reducible apply Same.cut x ?_ ?_); (on_goal 1 => (unfold x; clear x)); (on_goal 2 => (intro hx; clear_value x)))
    | (extract_lets +onlyGivenNames x; (with_reducible apply Same.cut x.1 ?_ ?_); (on_goal 1 => (unfold x; clear x)); (on_goal 2 => (intro hx; clear_value x)))
    | (extract_lets +onlyGivenNames x; clear_value x)
    | (extract_lets +onlyGivenNames x; unfold x; clear x)
    | with_reducible refine Same.ofFst (by assumption) ?_
    | split)

theorem dmaLoop_same (a0 : ℕ) (s : State) (a2 : ℕ) (a3 : ℕ) (a4 : List Byte) (a5 : List Byte) :
    Same 197910687907578 s (dmaLoop a0 s a2 a3 a4 a5) := by
  induction a0 generalizing s a3 a4 a5 with
  | zero => exact Same.refl _ _
  | succ k ih =>
    unfold dmaLoop
    split
    · exact Same.refl _ _
    · dsimp only
      split
      · exact Same.refl _ _
      · split
        · exact Same.step (by rfl) (dmaEnd_same _ _ _ _) (Same.refl _ _)
        · split
          · exact Same.refl _ _
          · split
            · exact Same.step (by rfl) (dmaEnd_same _ _ _ _) (Same.step (by rfl) (dmaBurst_same _ _ _ _ _ _ _ _) (Same.refl _ _))
            · exact Same.trans (Same.step (by rfl) (dmaBurst_same _ _ _ _ _ _ _ _) (Same.refl _ _)) (ih _ _ _ _)

theorem dmaRun_same (s : State) (a1 : ℕ) (a2 : ℕ) (a3 : DmaSide) (a4 : DmaSide) :
    Same 197910687907578 s (dmaRun s a1 a2 a3 a4) := by
  delta dmaRun
  repeat' (first
    | with_reducible exact Same.refl _ _
    | with_reducible assumption
    | ((with_reducible apply Same.step ?_ (dmaFixed_same _ _ _ _) ?_); on_goal 1 => rfl)
    | ((with_reducible apply Same.step ?_ (dmaLoop_same _ _ _ _ _ _) ?_); on_goal 1 => rfl)
    | (extract_lets +onlyGivenNames x; (with_reducible apply Same.cut x ?_ ?_); (on_goal 1 => (unfold x; clear x)); (on_goal 2 => (intro hx; clear_value x)))
    | (extract_lets +onlyGivenNames x; clear_value x)
    | (extract_lets +onlyGivenNames x; unfold x; clear x)
    | split)

theorem readFail_same (s : State) (a1 : ℕ) (a2 : ℕ) (a3 : ℕ) (a4 : Bool) :
    Same 143780539802640 s (readFail s a1 a2 a3 a4) := by
  delta readFail
  repeat' (first
    | with_reducible exact Same.refl _ _
    | with_reducible assumption
    | ((with_reducible apply Same.step ?_ (setDma_same _ _ _) ?_); on_goal 1 => rfl)
    | ((with_reducible apply Same.step ?_ (bump_same _ _ _) ?_); on_goal 1 => rfl)
    | ((with_reducible apply Same.step ?_ (orBits_same _ _ _) ?_); on_goal 1 => rfl)
    | ((with_reducible apply Same.step ?_ (dmaGrant_same _ _) ?_); on_goal 1 => rfl)
    | ((with_reducible apply Same.step ?_ (wL_same _ _ _ _) ?_); on_goal 1 => rfl)
    | ((with_reducible apply Same.step ?_ (bar2Bad_same _ _ _) ?_); on_goal 1 => rfl)
    | ((with_reducible apply Same.step ?_ (wr_same _ _ _) ?_); on_goal 1 => rfl)
    | ((with_reducible apply Same.step ?_ (raiseDma_same _ _ _ _) ?_); on_goal 1 => rfl)
    | (extract_lets +onlyGivenNames x; (with_reducible apply Same.cut x ?_ ?_); (on_goal 1 => (unfold x; clear x)); (on_goal 2 => (intro hx; clear_value x)))
    | (extract_lets +onlyGivenNames x; clear_value x)
    | (extract_lets +onlyGivenNames x; unfold x; clear x)
    | split)

theorem busErr_same (s : State) (a1 : ℕ) (a2 : ℕ) (a3 : ℕ) (a4 : Bool) (a5 : DmaData) :
    Same 197910687907578 s (busErr s a1 a2 a3 a4 a5) := by
  delta busErr
  repeat' (first
    | with_reducible exact Same.refl _ _
    | with_reducible assumption
    | ((with_reducible apply Same.step ?_ (coreTouch_same _ _ _) ?_); on_goal 1 => rfl)
    | ((with_reducible apply Same.step ?_ (eccBad_same _ _) ?_); on_goal 1 => rfl)
    | ((with_reducible apply Same.step ?_ (dmaRun_same _ _ _ _ _) ?_); on_goal 1 => rfl)
    | ((with_reducible apply Same.step ?_ (readFail_same _ _ _ _ _) ?_); on_goal 1 => rfl)
    | (extract_lets +onlyGivenNames x; (with_reducible apply Same.cut x ?_ ?_); (on_goal 1 => (unfold x; clear x)); (on_goal 2 => (intro hx; clear_value x)))
    | (extract_lets +onlyGivenNames x; clear_value x)
    | (extract_lets +onlyGivenNames x; unfold x; clear x)
    | split)

theorem busWriteTie_same (s : State) (a1 : ℕ) (a2 : ℕ) (a3 : ℕ) (a4 : ℕ) (a5 : Bool) :
    Same 197360932093690 s (busWriteTie s a1 a2 a3 a4 a5) := by
  delta busWriteTie
  repeat' (first
    | with_reducible exact Same.refl _ _
    | with_reducible assumption
    | ((with_reducible apply Same.step ?_ (busWrite_same _ _ _ _ _) ?_); on_goal 1 => rfl)
    | (extract_lets +onlyGivenNames x; (with_reducible apply Same.cut x ?_ ?_); (on_goal 1 => (unfold x; clear x)); (on_goal 2 => (intro hx; clear_value x)))
    | (extract_lets +onlyGivenNames x; (with_reducible apply Same.cut x.1 ?_ ?_); (on_goal 1 => (unfold x; clear x)); (on_goal 2 => (intro hx; clear_value x)))
    | (extract_lets +onlyGivenNames x; clear_value x)
    | (extract_lets +onlyGivenNames x; unfold x; clear x)
    | with_reducible refine Same.ofFst (by assumption) ?_
    | split
    | ((with_reducible apply Same.put_cycle ?_ ?_) <;> [rfl; skip]))

theorem twinsYoung_same (s : State) :
    Same 65536 s (twinsYoung s) := by
  delta twinsYoung
  repeat' (first
    | with_reducible exact Same.refl _ _
    | with_reducible assumption
    | ((with_reducible apply Same.step ?_ (setFod_same _ _ _) ?_); on_goal 1 => rfl)
    | with_reducible apply Same.upto ?_ ?_
    | (extract_lets +onlyGivenNames x; (with_reducible apply Same.cut x ?_ ?_); (on_goal 1 => (unfold x; clear x)); (on_goal 2 => (intro hx; clear_value x)))
    | (extract_lets +onlyGivenNames x; clear_value x)
    | (extract_lets +onlyGivenNames x; unfold x; clear x)
    | intro _
    | split)

theorem powerEnd_same (s : State) :
    Same 144135344858130 s (powerEnd s) := by
  delta powerEnd
  repeat' (first
    | with_reducible exact Same.refl _ _
    | with_reducible assumption
    | ((with_reducible apply Same.step ?_ (groupEval_same _) ?_); on_goal 1 => rfl)
    | ((with_reducible apply Same.step ?_ (takeRole_same _) ?_); on_goal 1 => rfl)
    | ((with_reducible apply Same.step ?_ (scWakeEval_same _) ?_); on_goal 1 => rfl)
    | ((with_reducible apply Same.step ?_ (autoStart_same _ _) ?_); on_goal 1 => rfl)
    | ((with_reducible apply Same.step ?_ (twinsYoung_same _) ?_); on_goal 1 => rfl)
    | with_reducible apply Same.upto ?_ ?_
    | (extract_lets +onlyGivenNames x; (with_reducible apply Same.cut x ?_ ?_); (on_goal 1 => (unfold x; clear x)); (on_goal 2 => (intro hx; clear_value x)))
    | (extract_lets +onlyGivenNames x; clear_value x)
    | (extract_lets +onlyGivenNames x; unfold x; clear x)
    | intro _
    | split
    | ((with_reducible apply Same.put_pwr ?_ ?_) <;> [rfl; skip]))

theorem calStamp_same (s : State) :
    Same 16 s (calStamp s) := by
  delta calStamp
  repeat' (first
    | with_reducible exact Same.refl _ _
    | with_reducible assumption
    | ((with_reducible apply Same.step ?_ (orBits_same _ _ _) ?_); on_goal 1 => rfl)
    | ((with_reducible apply Same.step ?_ (wL_same _ _ _ _) ?_); on_goal 1 => rfl)
    | ((with_reducible apply Same.step ?_ (wr_same _ _ _) ?_); on_goal 1 => rfl)
    | (extract_lets +onlyGivenNames x; (with_reducible apply Same.cut x ?_ ?_); (on_goal 1 => (unfold x; clear x)); (on_goal 2 => (intro hx; clear_value x)))
    | (extract_lets +onlyGivenNames x; clear_value x)
    | (extract_lets +onlyGivenNames x; unfold x; clear x)
    | split)

theorem calReject_same (s : State) (a1 : ℕ) (a2 : ℕ) :
    Same 8208 s (calReject s a1 a2) := by
  delta calReject
  repeat' (first
    | with_reducible exact Same.refl _ _
    | with_reducible assumption
    | ((with_reducible apply Same.step ?_ (bump_same _ _ _) ?_); on_goal 1 => rfl)
    | ((with_reducible apply Same.step ?_ (orBits_same _ _ _) ?_); on_goal 1 => rfl)
    | ((with_reducible apply Same.step ?_ (raise_same _ _ _ _ _ _) ?_); on_goal 1 => rfl)
    | (extract_lets +onlyGivenNames x; (with_reducible apply Same.cut x ?_ ?_); (on_goal 1 => (unfold x; clear x)); (on_goal 2 => (intro hx; clear_value x)))
    | (extract_lets +onlyGivenNames x; clear_value x)
    | (extract_lets +onlyGivenNames x; unfold x; clear x)
    | split)

theorem twinReject_same (s : State) (a1 : ℕ) (a2 : Bool) :
    Same 73744 s (twinReject s a1 a2) := by
  delta twinReject
  repeat' (first
    | with_reducible exact Same.refl _ _
    | with_reducible assumption
    | ((with_reducible apply Same.step ?_ (calReject_same _ _ _) ?_); on_goal 1 => rfl)
    | ((with_reducible apply Same.step ?_ (setFod_same _ _ _) ?_); on_goal 1 => rfl)
    | ((with_reducible apply Same.step ?_ (raise_same _ _ _ _ _ _) ?_); on_goal 1 => rfl)
    | (extract_lets +onlyGivenNames x; (with_reducible apply Same.cut x ?_ ?_); (on_goal 1 => (unfold x; clear x)); (on_goal 2 => (intro hx; clear_value x)))
    | (extract_lets +onlyGivenNames x; clear_value x)
    | (extract_lets +onlyGivenNames x; unfold x; clear x)
    | split)

theorem twinAccept_same (s : State) (a1 : ℕ) (a2 : Bool) :
    Same 65536 s (twinAccept s a1 a2) := by
  delta twinAccept
  repeat' (first
    | with_reducible exact Same.refl _ _
    | with_reducible assumption
    | ((with_reducible apply Same.step ?_ (setFod_same _ _ _) ?_); on_goal 1 => rfl)
    | (extract_lets +onlyGivenNames x; (with_reducible apply Same.cut x ?_ ?_); (on_goal 1 => (unfold x; clear x)); (on_goal 2 => (intro hx; clear_value x)))
    | (extract_lets +onlyGivenNames x; clear_value x)
    | (extract_lets +onlyGivenNames x; unfold x; clear x)
    | split)

theorem twinTake_same (s : State) (a1 : ℕ) (a2 : Bool) (a3 : List ℤ) :
    Same 68719550480 s (twinTake s a1 a2 a3) := by
  delta twinTake
  repeat' (first
    | with_reducible exact Same.refl _ _
    | with_reducible assumption
    | ((with_reducible apply Same.step ?_ (twinReject_same _ _ _) ?_); on_goal 1 => rfl)
    | ((with_reducible apply Same.step ?_ (twinAccept_same _ _ _) ?_); on_goal 1 => rfl)
    | (extract_lets +onlyGivenNames x; (with_reducible apply Same.cut x ?_ ?_); (on_goal 1 => (unfold x; clear x)); (on_goal 2 => (intro hx; clear_value x)))
    | (extract_lets +onlyGivenNames x; clear_value x)
    | (extract_lets +onlyGivenNames x; unfold x; clear x)
    | split
    | ((with_reducible apply Same.put_cal ?_ ?_) <;> [rfl; skip]))

theorem calTake_same (s : State) (a1 : CalUnit) :
    Same 68719583248 s (calTake s a1) := by
  delta calTake
  repeat' (first
    | with_reducible exact Same.refl _ _
    | with_reducible assumption
    | ((with_reducible apply Same.step ?_ (twinTake_same _ _ _ _) ?_); on_goal 1 => rfl)
    | ((with_reducible apply Same.step ?_ (calReject_same _ _ _) ?_); on_goal 1 => rfl)
    | ((with_reducible apply Same.step ?_ (bandEnd_same _ _ _ _ _ _) ?_); on_goal 1 => rfl)
    | (extract_lets +onlyGivenNames x; (with_reducible apply Same.cut x ?_ ?_); (on_goal 1 => (unfold x; clear x)); (on_goal 2 => (intro hx; clear_value x)))
    | (extract_lets +onlyGivenNames x; clear_value x)
    | (extract_lets +onlyGivenNames x; unfold x; clear x)
    | split
    | ((with_reducible apply Same.put_cal ?_ ?_) <;> [rfl; skip]))

theorem setSlot_same (s : State) (a1 : ℕ) (a2 : Slot) :
    Same 137438953472 s (setSlot s a1 a2) := by
  delta setSlot
  repeat' (first
    | with_reducible exact Same.refl _ _
    | with_reducible assumption
    | (extract_lets +onlyGivenNames x; (with_reducible apply Same.cut x ?_ ?_); (on_goal 1 => (unfold x; clear x)); (on_goal 2 => (intro hx; clear_value x)))
    | (extract_lets +onlyGivenNames x; clear_value x)
    | (extract_lets +onlyGivenNames x; unfold x; clear x)
    | split
    | ((with_reducible apply Same.put_cmd ?_ ?_) <;> [rfl; skip]))

theorem calApplyRun_same (s : State) (a1 : List CalUnit) :
    Same 144272783811602 s (calApplyRun s a1) := by
  delta calApplyRun
  repeat' (first
    | with_reducible exact Same.refl _ _
    | with_reducible assumption
    | ((with_reducible apply Same.step ?_ (powerEnd_same _) ?_); on_goal 1 => rfl)
    | ((with_reducible apply Same.step ?_ (calStamp_same _) ?_); on_goal 1 => rfl)
    | ((with_reducible apply Same.step ?_ (calTake_same _ _) ?_); on_goal 1 => rfl)
    | ((with_reducible apply Same.step ?_ (setSlot_same _ _ _) ?_); on_goal 1 => rfl)
    | with_reducible apply Same.foldl ?_ ?_
    | (extract_lets +onlyGivenNames x; (with_reducible apply Same.cut x ?_ ?_); (on_goal 1 => (unfold x; clear x)); (on_goal 2 => (intro hx; clear_value x)))
    | (extract_lets +onlyGivenNames x; clear_value x)
    | (extract_lets +onlyGivenNames x; unfold x; clear x)
    | intro _
    | split
    | ((with_reducible apply Same.put_cal ?_ ?_) <;> [rfl; skip]))

theorem calBandStart_same (s : State) (a1 : ℕ) :
    Same 32784 s (calBandStart s a1) := by
  delta calBandStart
  repeat' (first
    | with_reducible exact Same.refl _ _
    | with_reducible assumption
    | ((with_reducible apply Same.step ?_ (orBits_same _ _ _) ?_); on_goal 1 => rfl)
    | ((with_reducible apply Same.step ?_ (setSc_same _ _ _) ?_); on_goal 1 => rfl)
    | (extract_lets +onlyGivenNames x; (with_reducible apply Same.cut x ?_ ?_); (on_goal 1 => (unfold x; clear x)); (on_goal 2 => (intro hx; clear_value x)))
    | (extract_lets +onlyGivenNames x; clear_value x)
    | (extract_lets +onlyGivenNames x; unfold x; clear x)
    | split)

theorem calLose_same (s : State) :
    Same 68721573904 s (calLose s) := by
  delta calLose
  repeat' (first
    | with_reducible exact Same.refl _ _
    | with_reducible assumption
    | ((with_reducible apply Same.step ?_ (clrBits_same _ _ _) ?_); on_goal 1 => rfl)
    | ((with_reducible apply Same.step ?_ (orBits_same _ _ _) ?_); on_goal 1 => rfl)
    | ((with_reducible apply Same.step ?_ (setPort_same _ _ _) ?_); on_goal 1 => rfl)
    | with_reducible apply Same.upto ?_ ?_
    | (extract_lets +onlyGivenNames x; (with_reducible apply Same.cut x ?_ ?_); (on_goal 1 => (unfold x; clear x)); (on_goal 2 => (intro hx; clear_value x)))
    | (extract_lets +onlyGivenNames x; clear_value x)
    | (extract_lets +onlyGivenNames x; unfold x; clear x)
    | intro _
    | split
    | ((with_reducible apply Same.put_cal ?_ ?_) <;> [rfl; skip]))

theorem calPortsStart_same (s : State) :
    Same 140806209929234 s (calPortsStart s) := by
  delta calPortsStart
  repeat' (first
    | with_reducible exact Same.refl _ _
    | with_reducible assumption
    | ((with_reducible apply Same.step ?_ (laneTurns_same _ _) ?_); on_goal 1 => rfl)
    | ((with_reducible apply Same.step ?_ (portDefer_same _ _) ?_); on_goal 1 => rfl)
    | ((with_reducible apply Same.step ?_ (turnWait_same _ _) ?_); on_goal 1 => rfl)
    | ((with_reducible apply Same.step ?_ (setPort_same _ _ _) ?_); on_goal 1 => rfl)
    | with_reducible apply Same.upto ?_ ?_
    | (extract_lets +onlyGivenNames x; (with_reducible apply Same.cut x ?_ ?_); (on_goal 1 => (unfold x; clear x)); (on_goal 2 => (intro hx; clear_value x)))
    | (extract_lets +onlyGivenNames x; clear_value x)
    | (extract_lets +onlyGivenNames x; unfold x; clear x)
    | intro _
    | split)

theorem calPower_same (s : State) :
    Same 143300040369168 s (calPower s) := by
  delta calPower
  repeat' (first
    | with_reducible exact Same.refl _ _
    | with_reducible assumption
    | ((with_reducible apply Same.step ?_ (drainFaults_same _) ?_); on_goal 1 => rfl)
    | ((with_reducible apply Same.step ?_ (scWakeEval_same _) ?_); on_goal 1 => rfl)
    | ((with_reducible apply Same.step ?_ (setPwrState_same _ _) ?_); on_goal 1 => rfl)
    | ((with_reducible apply Same.step ?_ (setSc_same _ _ _) ?_); on_goal 1 => rfl)
    | with_reducible apply Same.upto ?_ ?_
    | (extract_lets +onlyGivenNames x; (with_reducible apply Same.cut x ?_ ?_); (on_goal 1 => (unfold x; clear x)); (on_goal 2 => (intro hx; clear_value x)))
    | (extract_lets +onlyGivenNames x; clear_value x)
    | (extract_lets +onlyGivenNames x; unfold x; clear x)
    | intro _
    | split
    | ((with_reducible apply Same.put_coreAwake_pwr ?_ ?_ ?_) <;> [rfl; rfl; skip])
    | ((with_reducible apply Same.put_groups_cal ?_ ?_ ?_) <;> [rfl; rfl; skip]))

theorem calStop_same (s : State) (a1 : ℕ) :
    Same 140806209937426 s (calStop s a1) := by
  delta calStop
  repeat' (first
    | with_reducible exact Same.refl _ _
    | with_reducible assumption
    | ((with_reducible apply Same.step ?_ (laneTurns_same _ _) ?_); on_goal 1 => rfl)
    | ((with_reducible apply Same.step ?_ (calFinish_same _ _) ?_); on_goal 1 => rfl)
    | (extract_lets +onlyGivenNames x; (with_reducible apply Same.cut x ?_ ?_); (on_goal 1 => (unfold x; clear x)); (on_goal 2 => (intro hx; clear_value x)))
    | (extract_lets +onlyGivenNames x; clear_value x)
    | (extract_lets +onlyGivenNames x; unfold x; clear x)
    | split)

theorem chargeRun_same (s : State) :
    Same 2199023255552 s (chargeRun s) := by
  delta chargeRun
  repeat' (first
    | with_reducible exact Same.refl _ _
    | with_reducible assumption
    | (extract_lets +onlyGivenNames x; (with_reducible apply Same.cut x ?_ ?_); (on_goal 1 => (unfold x; clear x)); (on_goal 2 => (intro hx; clear_value x)))
    | (extract_lets +onlyGivenNames x; clear_value x)
    | (extract_lets +onlyGivenNames x; unfold x; clear x)
    | split
    | ((with_reducible apply Same.put_pwr ?_ ?_) <;> [rfl; skip]))

theorem ckptCheck_same (s : State) :
    Same 17179877392 s (ckptCheck s) := by
  delta ckptCheck
  repeat' (first
    | with_reducible exact Same.refl _ _
    | with_reducible assumption
    | ((with_reducible apply Same.step ?_ (bump_same _ _ _) ?_); on_goal 1 => rfl)
    | (extract_lets +onlyGivenNames x; (with_reducible apply Same.cut x ?_ ?_); (on_goal 1 => (unfold x; clear x)); (on_goal 2 => (intro hx; clear_value x)))
    | (extract_lets +onlyGivenNames x; clear_value x)
    | (extract_lets +onlyGivenNames x; unfold x; clear x)
    | split
    | ((with_reducible apply Same.put_mate ?_ ?_) <;> [rfl; skip]))

theorem ckptLate_same (s : State) :
    Same 17179877392 s (ckptLate s) := by
  delta ckptLate
  repeat' (first
    | with_reducible exact Same.refl _ _
    | with_reducible assumption
    | ((with_reducible apply Same.step ?_ (raise_same _ _ _ _ _ _) ?_); on_goal 1 => rfl)
    | ((with_reducible apply Same.step ?_ (nrEval_same _) ?_); on_goal 1 => rfl)
    | (extract_lets +onlyGivenNames x; (with_reducible apply Same.cut x ?_ ?_); (on_goal 1 => (unfold x; clear x)); (on_goal 2 => (intro hx; clear_value x)))
    | (extract_lets +onlyGivenNames x; clear_value x)
    | (extract_lets +onlyGivenNames x; unfold x; clear x)
    | split
    | ((with_reducible apply Same.put_mate ?_ ?_) <;> [rfl; skip]))

theorem rxNote_same (s : State) (a1 : BitVec 8) :
    Same 17179869184 s (rxNote s a1) := by
  delta rxNote
  repeat' (first
    | with_reducible exact Same.refl _ _
    | with_reducible assumption
    | (extract_lets +onlyGivenNames x; (with_reducible apply Same.cut x ?_ ?_); (on_goal 1 => (unfold x; clear x)); (on_goal 2 => (intro hx; clear_value x)))
    | (extract_lets +onlyGivenNames x; clear_value x)
    | (extract_lets +onlyGivenNames x; unfold x; clear x)
    | split
    | ((with_reducible apply Same.put_mate ?_ ?_) <;> [rfl; skip]))

theorem renumber_same (s : State) (a1 : ℕ) :
    Same 65536 s (renumber s a1) := by
  delta renumber
  repeat' (first
    | with_reducible exact Same.refl _ _
    | with_reducible assumption
    | ((with_reducible apply Same.step ?_ (setFod_same _ _ _) ?_); on_goal 1 => rfl)
    | (extract_lets +onlyGivenNames x; (with_reducible apply Same.cut x ?_ ?_); (on_goal 1 => (unfold x; clear x)); (on_goal 2 => (intro hx; clear_value x)))
    | (extract_lets +onlyGivenNames x; clear_value x)
    | (extract_lets +onlyGivenNames x; unfold x; clear x)
    | split)

theorem screedTake_same (s : State) (a1 : List (ℕ × ℤ × ℤ × ℕ)) (a2 : List ℤ) (a3 : ℤ) :
    Same 524304 s (screedTake s a1 a2 a3) := by
  delta screedTake
  repeat' (first
    | with_reducible exact Same.refl _ _
    | with_reducible assumption
    | ((with_reducible apply Same.step ?_ (wL_same _ _ _ _) ?_); on_goal 1 => rfl)
    | ((with_reducible apply Same.step ?_ (wr_same _ _ _) ?_); on_goal 1 => rfl)
    | ((with_reducible apply Same.step ?_ (scrShow_same _) ?_); on_goal 1 => rfl)
    | with_reducible apply Same.foldl ?_ ?_
    | (extract_lets +onlyGivenNames x; (with_reducible apply Same.cut x ?_ ?_); (on_goal 1 => (unfold x; clear x)); (on_goal 2 => (intro hx; clear_value x)))
    | (extract_lets +onlyGivenNames x; clear_value x)
    | (extract_lets +onlyGivenNames x; unfold x; clear x)
    | intro _
    | split
    | ((with_reducible apply Same.put_scr ?_ ?_) <;> [rfl; skip]))

theorem hopsTake_same (s : State) (a1 : ℕ) (a2 : List HopFields) :
    Same 65552 s (hopsTake s a1 a2) := by
  delta hopsTake
  repeat' (first
    | with_reducible exact Same.refl _ _
    | with_reducible assumption
    | ((with_reducible apply hopUpdate_same ?_ ?_ ?_); on_goal 1 => rfl)
    | ((with_reducible apply Same.step ?_ (setFod_same _ _ _) ?_); on_goal 1 => rfl)
    | with_reducible apply Same.foldl ?_ ?_
    | (extract_lets +onlyGivenNames x; (with_reducible apply Same.cut x ?_ ?_); (on_goal 1 => (unfold x; clear x)); (on_goal 2 => (intro hx; clear_value x)))
    | (extract_lets +onlyGivenNames x; clear_value x)
    | (extract_lets +onlyGivenNames x; unfold x; clear x)
    | intro _
    | split)

theorem ckptTake_same (s : State) (a1 : CkptMsg) :
    Same 140754668823568 s (ckptTake s a1) := by
  delta ckptTake
  repeat' (first
    | with_reducible exact Same.refl _ _
    | with_reducible assumption
    | ((with_reducible apply Same.step ?_ (rxNote_same _ _) ?_); on_goal 1 => rfl)
    | ((with_reducible apply Same.step ?_ (renumber_same _ _) ?_); on_goal 1 => rfl)
    | ((with_reducible apply Same.step ?_ (alignTake_same _) ?_); on_goal 1 => rfl)
    | ((with_reducible apply Same.step ?_ (event_same _ _) ?_); on_goal 1 => rfl)
    | ((with_reducible apply Same.step ?_ (mailboxTake_same _ _) ?_); on_goal 1 => rfl)
    | ((with_reducible apply Same.step ?_ (wr_same _ _ _) ?_); on_goal 1 => rfl)
    | ((with_reducible apply Same.step ?_ (nrEval_same _) ?_); on_goal 1 => rfl)
    | ((with_reducible apply Same.step ?_ (screedTake_same _ _ _ _) ?_); on_goal 1 => rfl)
    | ((with_reducible apply Same.step ?_ (hopsTake_same _ _ _) ?_); on_goal 1 => rfl)
    | with_reducible apply Same.upto ?_ ?_
    | with_reducible apply Same.foldl ?_ ?_
    | (extract_lets +onlyGivenNames x; (with_reducible apply Same.cut x ?_ ?_); (on_goal 1 => (unfold x; clear x)); (on_goal 2 => (intro hx; clear_value x)))
    | (extract_lets +onlyGivenNames x; clear_value x)
    | (extract_lets +onlyGivenNames x; unfold x; clear x)
    | intro _
    | split
    | ((with_reducible apply Same.put_mate ?_ ?_) <;> [rfl; skip]))

theorem closeWindow_same (s : State) (a1 : ℕ) :
    Same 8192 s (closeWindow s a1) := by
  delta closeWindow
  repeat' (first
    | with_reducible exact Same.refl _ _
    | with_reducible assumption
    | (extract_lets +onlyGivenNames x; (with_reducible apply Same.cut x ?_ ?_); (on_goal 1 => (unfold x; clear x)); (on_goal 2 => (intro hx; clear_value x)))
    | (extract_lets +onlyGivenNames x; clear_value x)
    | (extract_lets +onlyGivenNames x; unfold x; clear x)
    | split
    | ((with_reducible apply Same.put_fcol ?_ ?_) <;> [rfl; skip]))

theorem cmdAccess_same (s : State) (a1 : ℕ) (a2 : ℕ) (a3 : ℕ) (a4 : ℕ) (a5 : ℕ) :
    Same 143368222942232 s (cmdAccess s a1 a2 a3 a4 a5) := by
  delta cmdAccess
  repeat' (first
    | with_reducible exact Same.refl _ _
    | with_reducible assumption
    | ((with_reducible apply Same.step ?_ (coreTouch_same _ _ _) ?_); on_goal 1 => rfl)
    | ((with_reducible apply Same.step ?_ (cmdIn_same _ _ _ _ _ _) ?_); on_goal 1 => rfl)
    | (extract_lets +onlyGivenNames x; (with_reducible apply Same.cut x ?_ ?_); (on_goal 1 => (unfold x; clear x)); (on_goal 2 => (intro hx; clear_value x)))
    | (extract_lets +onlyGivenNames x; clear_value x)
    | (extract_lets +onlyGivenNames x; unfold x; clear x)
    | split)

theorem gangEnter_same (s : State) (a1 : ℕ) (a2 : ℕ) (a3 : Option ℕ) (a4 : ActKind) :
    Same 73752 s (gangEnter s a1 a2 a3 a4).1 := by
  delta gangEnter
  repeat' (first
    | with_reducible exact Same.refl _ _
    | with_reducible assumption
    | ((with_reducible apply Same.step ?_ (setFod_same _ _ _) ?_); on_goal 1 => rfl)
    | ((with_reducible apply Same.step ?_ (raise_same _ _ _ _ _ _) ?_); on_goal 1 => rfl)
    | ((with_reducible apply Same.step ?_ (bumpOrder_same _) ?_); on_goal 1 => rfl)
    | with_reducible apply Same.foldl ?_ ?_
    | (extract_lets +onlyGivenNames x; (with_reducible apply Same.cut x ?_ ?_); (on_goal 1 => (unfold x; clear x)); (on_goal 2 => (intro hx; clear_value x)))
    | (extract_lets +onlyGivenNames x; clear_value x)
    | (extract_lets +onlyGivenNames x; unfold x; clear x)
    | intro _
    | split)

theorem setRunning_same (s : State) (a1 : ℕ) (a2 : Slot) :
    Same 137438953488 s (setRunning s a1 a2) := by
  delta setRunning
  repeat' (first
    | with_reducible exact Same.refl _ _
    | with_reducible assumption
    | ((with_reducible apply Same.step ?_ (orBits_same _ _ _) ?_); on_goal 1 => rfl)
    | ((with_reducible apply Same.step ?_ (setSlot_same _ _ _) ?_); on_goal 1 => rfl)
    | (extract_lets +onlyGivenNames x; (with_reducible apply Same.cut x ?_ ?_); (on_goal 1 => (unfold x; clear x)); (on_goal 2 => (intro hx; clear_value x)))
    | (extract_lets +onlyGivenNames x; clear_value x)
    | (extract_lets +onlyGivenNames x; unfold x; clear x)
    | split)

theorem startWalk_same (s : State) (a1 : ℕ) (a2 : Slot) :
    Same 178550447617048 s (startWalk s a1 a2) := by
  delta startWalk
  repeat' (first
    | with_reducible exact Same.refl _ _
    | with_reducible assumption
    | ((with_reducible apply Same.step ?_ (gangEnter_same _ _ _ _ _) ?_); on_goal 1 => rfl)
    | ((with_reducible apply Same.step ?_ (setRunning_same _ _ _) ?_); on_goal 1 => rfl)
    | ((with_reducible apply Same.step ?_ (cmdComplete_same _ _ _ _ _) ?_); on_goal 1 => rfl)
    | (extract_lets +onlyGivenNames x; (with_reducible apply Same.cut x ?_ ?_); (on_goal 1 => (unfold x; clear x)); (on_goal 2 => (intro hx; clear_value x)))
    | (extract_lets +onlyGivenNames x; (with_reducible apply Same.cut x.1 ?_ ?_); (on_goal 1 => (unfold x; clear x)); (on_goal 2 => (intro hx; clear_value x)))
    | (extract_lets +onlyGivenNames x; clear_value x)
    | (extract_lets +onlyGivenNames x; unfold x; clear x)
    | with_reducible refine Same.ofFst (by assumption) ?_
    | split)

theorem startQual_same (s : State) (a1 : ℕ) (a2 : Slot) :
    Same 178550447682584 s (startQual s a1 a2) := by
  delta startQual
  repeat' (first
    | with_reducible exact Same.refl _ _
    | with_reducible assumption
    | ((with_reducible apply Same.step ?_ (refQnow_same _ _) ?_); on_goal 1 => rfl)
    | ((with_reducible apply Same.step ?_ (setRunning_same _ _ _) ?_); on_goal 1 => rfl)
    | ((with_reducible apply Same.step ?_ (cmdComplete_same _ _ _ _ _) ?_); on_goal 1 => rfl)
    | ((with_reducible apply Same.step ?_ (refRequal_same _ _) ?_); on_goal 1 => rfl)
    | (extract_lets +onlyGivenNames x; (with_reducible apply Same.cut x ?_ ?_); (on_goal 1 => (unfold x; clear x)); (on_goal 2 => (intro hx; clear_value x)))
    | (extract_lets +onlyGivenNames x; clear_value x)
    | (extract_lets +onlyGivenNames x; unfold x; clear x)
    | split)

theorem startCal_same (s : State) (a1 : ℕ) (a2 : Slot) :
    Same 140943648915474 s (startCal s a1 a2) := by
  delta startCal
  repeat' (first
    | with_reducible exact Same.refl _ _
    | with_reducible assumption
    | ((with_reducible apply Same.step ?_ (calPortsStart_same _) ?_); on_goal 1 => rfl)
    | ((with_reducible apply Same.step ?_ (setRunning_same _ _ _) ?_); on_goal 1 => rfl)
    | ((with_reducible apply Same.step ?_ (calBandStart_same _ _) ?_); on_goal 1 => rfl)
    | with_reducible apply Same.upto ?_ ?_
    | (extract_lets +onlyGivenNames x; (with_reducible apply Same.cut x ?_ ?_); (on_goal 1 => (unfold x; clear x)); (on_goal 2 => (intro hx; clear_value x)))
    | (extract_lets +onlyGivenNames x; clear_value x)
    | (extract_lets +onlyGivenNames x; unfold x; clear x)
    | intro _
    | split
    | ((with_reducible apply Same.put_free_cal ?_ ?_ ?_) <;> [rfl; rfl; skip]))

theorem storeBegin_same (s : State) (a1 : ℕ) (a2 : ℕ) (a3 : Bank) :
    Same 34359746576 s (storeBegin s a1 a2 a3) := by
  delta storeBegin
  repeat' (first
    | with_reducible exact Same.refl _ _
    | with_reducible assumption
    | ((with_reducible apply Same.step ?_ (setBank_same _ _ _ _) ?_); on_goal 1 => rfl)
    | ((with_reducible apply Same.step ?_ (raise_same _ _ _ _ _ _) ?_); on_goal 1 => rfl)
    | ((with_reducible apply Same.step ?_ (nvsShow_same _) ?_); on_goal 1 => rfl)
    | (extract_lets +onlyGivenNames x; (with_reducible apply Same.cut x ?_ ?_); (on_goal 1 => (unfold x; clear x)); (on_goal 2 => (intro hx; clear_value x)))
    | (extract_lets +onlyGivenNames x; clear_value x)
    | (extract_lets +onlyGivenNames x; unfold x; clear x)
    | split
    | ((with_reducible apply Same.put_nvs ?_ ?_) <;> [rfl; skip]))

theorem startStore_same (s : State) (a1 : ℕ) (a2 : Slot) :
    Same 178584807289880 s (startStore s a1 a2) := by
  delta startStore
  repeat' (first
    | with_reducible exact Same.refl _ _
    | with_reducible assumption
    | ((with_reducible apply Same.step ?_ (storeBegin_same _ _ _ _) ?_); on_goal 1 => rfl)
    | ((with_reducible apply Same.step ?_ (setRunning_same _ _ _) ?_); on_goal 1 => rfl)
    | ((with_reducible apply Same.step ?_ (cmdComplete_same _ _ _ _ _) ?_); on_goal 1 => rfl)
    | (extract_lets +onlyGivenNames x; (with_reducible apply Same.cut x ?_ ?_); (on_goal 1 => (unfold x; clear x)); (on_goal 2 => (intro hx; clear_value x)))
    | (extract_lets +onlyGivenNames x; clear_value x)
    | (extract_lets +onlyGivenNames x; unfold x; clear x)
    | split)

theorem scEnter_same {s x : State} {a1 : ℕ} {a2 : ℕ} {a3 : Option ℕ} {a4 : ActKind}
    (h : scEnter s a1 a2 a3 a4 = some x) : Same 32776 s x := by
  delta scEnter at h
  rw [Option.map_eq_some_iff] at h
  obtain ⟨q, -, rfl⟩ := h
  exact Same.step (by rfl) (bumpOrder_same _) (Same.step (by rfl) (setSc_same _ _ _) (Same.refl _ _))

theorem startRetune_same (s : State) (a1 : ℕ) (a2 : Slot) :
    Same 178550447584280 s (startRetune s a1 a2) := by
  delta startRetune
  repeat' (first
    | with_reducible exact Same.refl _ _
    | with_reducible assumption
    | ((with_reducible apply Same.step ?_ (setRunning_same _ _ _) ?_); on_goal 1 => rfl)
    | ((with_reducible apply Same.step ?_ (cmdComplete_same _ _ _ _ _) ?_); on_goal 1 => rfl)
    | ((with_reducible apply Same.step ?_ (raise_same _ _ _ _ _ _) ?_); on_goal 1 => rfl)
    | exact Same.step rfl (scEnter_same (by with_reducible assumption)) (by with_reducible first | assumption | exact Same.refl _ _)
    | (extract_lets +onlyGivenNames x; (with_reducible apply Same.cut x ?_ ?_); (on_goal 1 => (unfold x; clear x)); (on_goal 2 => (intro hx; clear_value x)))
    | (extract_lets +onlyGivenNames x; clear_value x)
    | (extract_lets +onlyGivenNames x; unfold x; clear x)
    | split)

theorem sendItems_same (s : State) (a1 : List (List ℤ)) :
    Same 140754668224512 s (sendItems s a1) := by
  induction a1 generalizing s with
  | nil => exact Same.refl _ _
  | cons f t ih =>
    cases t with
    | nil => exact Same.step (by rfl) (mateSend_same _ _ _) (Same.refl _ _)
    | cons g u => exact Same.trans (Same.step (by rfl) (mateSend_same _ _ _) (Same.refl _ _)) (ih _)

theorem sendImage_same (s : State) :
    Same 140754668224512 s (sendImage s) := by
  delta sendImage
  repeat' (first
    | with_reducible exact Same.refl _ _
    | with_reducible assumption
    | ((with_reducible apply Same.step ?_ (sendItems_same _ _) ?_); on_goal 1 => rfl)
    | (extract_lets +onlyGivenNames x; (with_reducible apply Same.cut x ?_ ?_); (on_goal 1 => (unfold x; clear x)); (on_goal 2 => (intro hx; clear_value x)))
    | (extract_lets +onlyGivenNames x; clear_value x)
    | (extract_lets +onlyGivenNames x; unfold x; clear x)
    | split)

theorem startSync_same (s : State) (a1 : ℕ) (a2 : Slot) :
    Same 178550447551512 s (startSync s a1 a2) := by
  delta startSync
  repeat' (first
    | with_reducible exact Same.refl _ _
    | with_reducible assumption
    | ((with_reducible apply Same.step ?_ (setRunning_same _ _ _) ?_); on_goal 1 => rfl)
    | ((with_reducible apply Same.step ?_ (cmdComplete_same _ _ _ _ _) ?_); on_goal 1 => rfl)
    | ((with_reducible apply Same.step ?_ (sendImage_same _) ?_); on_goal 1 => rfl)
    | (extract_lets +onlyGivenNames x; (with_reducible apply Same.cut x ?_ ?_); (on_goal 1 => (unfold x; clear x)); (on_goal 2 => (intro hx; clear_value x)))
    | (extract_lets +onlyGivenNames x; clear_value x)
    | (extract_lets +onlyGivenNames x; unfold x; clear x)
    | split
    | ((with_reducible apply Same.put_mate ?_ ?_) <;> [rfl; skip]))

theorem startLoad_same (s : State) (a1 : ℕ) (a2 : Slot) :
    Same 178550447551512 s (startLoad s a1 a2) := by
  delta startLoad
  repeat' (first
    | with_reducible exact Same.refl _ _
    | with_reducible assumption
    | ((with_reducible apply Same.step ?_ (setRunning_same _ _ _) ?_); on_goal 1 => rfl)
    | ((with_reducible apply Same.step ?_ (cmdComplete_same _ _ _ _ _) ?_); on_goal 1 => rfl)
    | (extract_lets +onlyGivenNames x; (with_reducible apply Same.cut x ?_ ?_); (on_goal 1 => (unfold x; clear x)); (on_goal 2 => (intro hx; clear_value x)))
    | (extract_lets +onlyGivenNames x; clear_value x)
    | (extract_lets +onlyGivenNames x; unfold x; clear x)
    | split)

theorem cmdBegin_same (s : State) (a1 : ℕ) (a2 : Slot) :
    Same 178653529093146 s (cmdBegin s a1 a2) := by
  delta cmdBegin
  repeat' (first
    | with_reducible exact Same.refl _ _
    | with_reducible assumption
    | ((with_reducible apply Same.step ?_ (startWalk_same _ _ _) ?_); on_goal 1 => rfl)
    | ((with_reducible apply Same.step ?_ (startQual_same _ _ _) ?_); on_goal 1 => rfl)
    | ((with_reducible apply Same.step ?_ (startCal_same _ _ _) ?_); on_goal 1 => rfl)
    | ((with_reducible apply Same.step ?_ (startStore_same _ _ _) ?_); on_goal 1 => rfl)
    | ((with_reducible apply Same.step ?_ (startRetune_same _ _ _) ?_); on_goal 1 => rfl)
    | ((with_reducible apply Same.step ?_ (setRunning_same _ _ _) ?_); on_goal 1 => rfl)
    | ((with_reducible apply Same.step ?_ (startSync_same _ _ _) ?_); on_goal 1 => rfl)
    | ((with_reducible apply Same.step ?_ (cmdComplete_same _ _ _ _ _) ?_); on_goal 1 => rfl)
    | ((with_reducible apply Same.step ?_ (calStart_same _ _) ?_); on_goal 1 => rfl)
    | ((with_reducible apply Same.step ?_ (startLoad_same _ _ _) ?_); on_goal 1 => rfl)
    | (extract_lets +onlyGivenNames x; (with_reducible apply Same.cut x ?_ ?_); (on_goal 1 => (unfold x; clear x)); (on_goal 2 => (intro hx; clear_value x)))
    | (extract_lets +onlyGivenNames x; clear_value x)
    | (extract_lets +onlyGivenNames x; unfold x; clear x)
    | split)

theorem storeStop_same (s : State) (a1 : Bool) :
    Same 34359738370 s (storeStop s a1) := by
  delta storeStop
  repeat' (first
    | with_reducible exact Same.refl _ _
    | with_reducible assumption
    | ((with_reducible apply Same.step ?_ (setBank_same _ _ _ _) ?_); on_goal 1 => rfl)
    | (extract_lets +onlyGivenNames x; (with_reducible apply Same.cut x ?_ ?_); (on_goal 1 => (unfold x; clear x)); (on_goal 2 => (intro hx; clear_value x)))
    | (extract_lets +onlyGivenNames x; clear_value x)
    | (extract_lets +onlyGivenNames x; unfold x; clear x)
    | split
    | ((with_reducible apply Same.put_free_nvs ?_ ?_ ?_) <;> [rfl; rfl; skip]))

theorem storeDrop_same (s : State) :
    Same 34359738370 s (storeDrop s) := by
  delta storeDrop
  repeat' (first
    | with_reducible exact Same.refl _ _
    | with_reducible assumption
    | ((with_reducible apply Same.step ?_ (storeStop_same _ _) ?_); on_goal 1 => rfl)
    | (extract_lets +onlyGivenNames x; (with_reducible apply Same.cut x ?_ ?_); (on_goal 1 => (unfold x; clear x)); (on_goal 2 => (intro hx; clear_value x)))
    | (extract_lets +onlyGivenNames x; clear_value x)
    | (extract_lets +onlyGivenNames x; unfold x; clear x)
    | split)

theorem retuneForget_same (s : State) (a1 : ℕ) (a2 : Slot) :
    Same 32768 s (retuneForget s a1 a2) := by
  delta retuneForget
  repeat' (first
    | with_reducible exact Same.refl _ _
    | with_reducible assumption
    | ((with_reducible apply Same.step ?_ (setSc_same _ _ _) ?_); on_goal 1 => rfl)
    | (extract_lets +onlyGivenNames x; (with_reducible apply Same.cut x ?_ ?_); (on_goal 1 => (unfold x; clear x)); (on_goal 2 => (intro hx; clear_value x)))
    | (extract_lets +onlyGivenNames x; clear_value x)
    | (extract_lets +onlyGivenNames x; unfold x; clear x)
    | split)

theorem cmdExpire_same (s : State) (a1 : ℕ) :
    Same 178653526799386 s (cmdExpire s a1) := by
  delta cmdExpire
  repeat' (first
    | with_reducible exact Same.refl _ _
    | with_reducible assumption
    | ((with_reducible apply Same.step ?_ (calDropRun_same _) ?_); on_goal 1 => rfl)
    | ((with_reducible apply Same.step ?_ (storeDrop_same _) ?_); on_goal 1 => rfl)
    | ((with_reducible apply Same.step ?_ (retuneForget_same _ _ _) ?_); on_goal 1 => rfl)
    | ((with_reducible apply Same.step ?_ (cmdComplete_same _ _ _ _ _) ?_); on_goal 1 => rfl)
    | (extract_lets +onlyGivenNames x; (with_reducible apply Same.cut x ?_ ?_); (on_goal 1 => (unfold x; clear x)); (on_goal 2 => (intro hx; clear_value x)))
    | (extract_lets +onlyGivenNames x; clear_value x)
    | (extract_lets +onlyGivenNames x; unfold x; clear x)
    | split
    | ((with_reducible apply Same.put_mate ?_ ?_) <;> [rfl; skip]))

theorem endRetune_same (s : State) (a1 : ℕ) (a2 : Slot) :
    Same 178550447584280 s (endRetune s a1 a2) := by
  delta endRetune
  repeat' (first
    | with_reducible exact Same.refl _ _
    | with_reducible assumption
    | ((with_reducible apply Same.step ?_ (cmdComplete_same _ _ _ _ _) ?_); on_goal 1 => rfl)
    | ((with_reducible apply Same.step ?_ (setSc_same _ _ _) ?_); on_goal 1 => rfl)
    | (extract_lets +onlyGivenNames x; (with_reducible apply Same.cut x ?_ ?_); (on_goal 1 => (unfold x; clear x)); (on_goal 2 => (intro hx; clear_value x)))
    | (extract_lets +onlyGivenNames x; clear_value x)
    | (extract_lets +onlyGivenNames x; unfold x; clear x)
    | split)

theorem endQual_same (s : State) (a1 : ℕ) (a2 : Slot) (a3 : Bool) :
    Same 178550447551512 s (endQual s a1 a2 a3) := by
  delta endQual
  repeat' (first
    | with_reducible exact Same.refl _ _
    | with_reducible assumption
    | ((with_reducible apply Same.step ?_ (cmdComplete_same _ _ _ _ _) ?_); on_goal 1 => rfl)
    | (extract_lets +onlyGivenNames x; (with_reducible apply Same.cut x ?_ ?_); (on_goal 1 => (unfold x; clear x)); (on_goal 2 => (intro hx; clear_value x)))
    | (extract_lets +onlyGivenNames x; clear_value x)
    | (extract_lets +onlyGivenNames x; unfold x; clear x)
    | split)

theorem endStore_same (s : State) (a1 : ℕ) (a2 : Slot) (a3 : Bool) :
    Same 178584807289882 s (endStore s a1 a2 a3) := by
  delta endStore
  repeat' (first
    | with_reducible exact Same.refl _ _
    | with_reducible assumption
    | ((with_reducible apply Same.step ?_ (orBits_same _ _ _) ?_); on_goal 1 => rfl)
    | ((with_reducible apply Same.step ?_ (storeDrop_same _) ?_); on_goal 1 => rfl)
    | ((with_reducible apply Same.step ?_ (storeCommit_same _) ?_); on_goal 1 => rfl)
    | ((with_reducible apply Same.step ?_ (storeStop_same _ _) ?_); on_goal 1 => rfl)
    | ((with_reducible apply Same.step ?_ (cmdComplete_same _ _ _ _ _) ?_); on_goal 1 => rfl)
    | ((with_reducible apply Same.step ?_ (raise_same _ _ _ _ _ _) ?_); on_goal 1 => rfl)
    | (extract_lets +onlyGivenNames x; (with_reducible apply Same.cut x ?_ ?_); (on_goal 1 => (unfold x; clear x)); (on_goal 2 => (intro hx; clear_value x)))
    | (extract_lets +onlyGivenNames x; clear_value x)
    | (extract_lets +onlyGivenNames x; unfold x; clear x)
    | split)

theorem portDlyApply_same (s : State) (a1 : List (ℕ × Word)) :
    Same 2097168 s (portDlyApply s a1) := by
  delta portDlyApply
  repeat' (first
    | with_reducible exact Same.refl _ _
    | with_reducible assumption
    | ((with_reducible apply Same.step ?_ (clrBits_same _ _ _) ?_); on_goal 1 => rfl)
    | ((with_reducible apply Same.step ?_ (orBits_same _ _ _) ?_); on_goal 1 => rfl)
    | ((with_reducible apply Same.step ?_ (wr_same _ _ _) ?_); on_goal 1 => rfl)
    | ((with_reducible apply Same.step ?_ (setPort_same _ _ _) ?_); on_goal 1 => rfl)
    | with_reducible apply Same.upto ?_ ?_
    | with_reducible apply Same.foldl ?_ ?_
    | (extract_lets +onlyGivenNames x; (with_reducible apply Same.cut x ?_ ?_); (on_goal 1 => (unfold x; clear x)); (on_goal 2 => (intro hx; clear_value x)))
    | (extract_lets +onlyGivenNames x; clear_value x)
    | (extract_lets +onlyGivenNames x; unfold x; clear x)
    | intro _
    | split)

theorem screedApply_same (s : State) (a1 : Bank) :
    Same 179766598565498 s (screedApply s a1) := by
  delta screedApply
  repeat' (first
    | with_reducible exact Same.refl _ _
    | with_reducible assumption
    | ((with_reducible apply Same.step ?_ (applyMerged_same _ _ _) ?_); on_goal 1 => rfl)
    | ((with_reducible apply Same.step ?_ (wr_same _ _ _) ?_); on_goal 1 => rfl)
    | ((with_reducible apply Same.step ?_ (scrShow_same _) ?_); on_goal 1 => rfl)
    | with_reducible apply Same.foldl ?_ ?_
    | (extract_lets +onlyGivenNames x; (with_reducible apply Same.cut x ?_ ?_); (on_goal 1 => (unfold x; clear x)); (on_goal 2 => (intro hx; clear_value x)))
    | (extract_lets +onlyGivenNames x; clear_value x)
    | (extract_lets +onlyGivenNames x; unfold x; clear x)
    | intro _
    | split
    | ((with_reducible apply Same.put_free_scr ?_ ?_ ?_) <;> [rfl; rfl; skip]))

theorem configApply_same (s : State) (a1 : List (ℕ × Word)) :
    Same 179766598565498 s (configApply s a1) := by
  delta configApply
  repeat' (first
    | with_reducible exact Same.refl _ _
    | with_reducible assumption
    | ((with_reducible apply Same.step ?_ (applyMerged_same _ _ _) ?_); on_goal 1 => rfl)
    | (extract_lets +onlyGivenNames x; (with_reducible apply Same.cut x ?_ ?_); (on_goal 1 => (unfold x; clear x)); (on_goal 2 => (intro hx; clear_value x)))
    | (extract_lets +onlyGivenNames x; clear_value x)
    | (extract_lets +onlyGivenNames x; unfold x; clear x)
    | split)

theorem regionApply_same (s : State) (a1 : ℕ) (a2 : ℕ) (a3 : Bank) :
    Same 179766598565498 s (regionApply s a1 a2 a3) := by
  delta regionApply
  repeat' (first
    | with_reducible exact Same.refl _ _
    | with_reducible assumption
    | ((with_reducible apply Same.step ?_ (portDlyApply_same _ _) ?_); on_goal 1 => rfl)
    | ((with_reducible apply Same.step ?_ (screedApply_same _ _) ?_); on_goal 1 => rfl)
    | ((with_reducible apply Same.step ?_ (imageApply_same _ _ _) ?_); on_goal 1 => rfl)
    | ((with_reducible apply Same.step ?_ (configApply_same _ _) ?_); on_goal 1 => rfl)
    | (extract_lets +onlyGivenNames x; (with_reducible apply Same.cut x ?_ ?_); (on_goal 1 => (unfold x; clear x)); (on_goal 2 => (intro hx; clear_value x)))
    | (extract_lets +onlyGivenNames x; clear_value x)
    | (extract_lets +onlyGivenNames x; unfold x; clear x)
    | split)

theorem endLoad_same (s : State) (a1 : ℕ) (a2 : Slot) (a3 : Bool) :
    Same 179766598565498 s (endLoad s a1 a2 a3) := by
  delta endLoad
  repeat' (first
    | with_reducible exact Same.refl _ _
    | with_reducible assumption
    | ((with_reducible apply Same.step ?_ (regionApply_same _ _ _ _) ?_); on_goal 1 => rfl)
    | ((with_reducible apply Same.step ?_ (cmdComplete_same _ _ _ _ _) ?_); on_goal 1 => rfl)
    | (extract_lets +onlyGivenNames x; (with_reducible apply Same.cut x ?_ ?_); (on_goal 1 => (unfold x; clear x)); (on_goal 2 => (intro hx; clear_value x)))
    | (extract_lets +onlyGivenNames x; clear_value x)
    | (extract_lets +onlyGivenNames x; unfold x; clear x)
    | split)

theorem endPortCal_same (s : State) (a1 : ℕ) (a2 : Slot) (a3 : ℕ) :
    Same 178550447551512 s (endPortCal s a1 a2 a3) := by
  delta endPortCal
  repeat' (first
    | with_reducible exact Same.refl _ _
    | with_reducible assumption
    | ((with_reducible apply Same.step ?_ (cmdComplete_same _ _ _ _ _) ?_); on_goal 1 => rfl)
    | (extract_lets +onlyGivenNames x; (with_reducible apply Same.cut x ?_ ?_); (on_goal 1 => (unfold x; clear x)); (on_goal 2 => (intro hx; clear_value x)))
    | (extract_lets +onlyGivenNames x; clear_value x)
    | (extract_lets +onlyGivenNames x; unfold x; clear x)
    | split)

theorem endWalk_same (s : State) (a1 : ℕ) (a2 : Slot) :
    Same 178550447551512 s (endWalk s a1 a2) := by
  delta endWalk
  repeat' (first
    | with_reducible exact Same.refl _ _
    | with_reducible assumption
    | ((with_reducible apply Same.step ?_ (cmdComplete_same _ _ _ _ _) ?_); on_goal 1 => rfl)
    | (extract_lets +onlyGivenNames x; (with_reducible apply Same.cut x ?_ ?_); (on_goal 1 => (unfold x; clear x)); (on_goal 2 => (intro hx; clear_value x)))
    | (extract_lets +onlyGivenNames x; clear_value x)
    | (extract_lets +onlyGivenNames x; unfold x; clear x)
    | split)

theorem cmdFinish_same (s : State) (a1 : ℕ) (a2 : OpOutcome) :
    Same 179766598565498 s (cmdFinish s a1 a2) := by
  delta cmdFinish
  repeat' (first
    | with_reducible exact Same.refl _ _
    | with_reducible assumption
    | ((with_reducible apply Same.step ?_ (endRetune_same _ _ _) ?_); on_goal 1 => rfl)
    | ((with_reducible apply Same.step ?_ (endQual_same _ _ _ _) ?_); on_goal 1 => rfl)
    | ((with_reducible apply Same.step ?_ (endStore_same _ _ _ _) ?_); on_goal 1 => rfl)
    | ((with_reducible apply Same.step ?_ (endLoad_same _ _ _ _) ?_); on_goal 1 => rfl)
    | ((with_reducible apply Same.step ?_ (cmdComplete_same _ _ _ _ _) ?_); on_goal 1 => rfl)
    | ((with_reducible apply Same.step ?_ (endPortCal_same _ _ _ _) ?_); on_goal 1 => rfl)
    | ((with_reducible apply Same.step ?_ (endWalk_same _ _ _) ?_); on_goal 1 => rfl)
    | (extract_lets +onlyGivenNames x; (with_reducible apply Same.cut x ?_ ?_); (on_goal 1 => (unfold x; clear x)); (on_goal 2 => (intro hx; clear_value x)))
    | (extract_lets +onlyGivenNames x; clear_value x)
    | (extract_lets +onlyGivenNames x; unfold x; clear x)
    | split)

theorem cmdStart_same (s : State) (a1 : ℕ) :
    Same 178653529093146 s (cmdStart s a1) := by
  delta cmdStart
  repeat' (first
    | with_reducible exact Same.refl _ _
    | with_reducible assumption
    | ((with_reducible apply Same.step ?_ (cmdBegin_same _ _ _) ?_); on_goal 1 => rfl)
    | ((with_reducible apply Same.step ?_ (cmdComplete_same _ _ _ _ _) ?_); on_goal 1 => rfl)
    | (extract_lets +onlyGivenNames x; (with_reducible apply Same.cut x ?_ ?_); (on_goal 1 => (unfold x; clear x)); (on_goal 2 => (intro hx; clear_value x)))
    | (extract_lets +onlyGivenNames x; clear_value x)
    | (extract_lets +onlyGivenNames x; unfold x; clear x)
    | split)

theorem coldState_same (s : State) (a1 : ℕ) :
    Same 140737488355324 s (coldState s a1) := by
  have h : Same 140737488355324 s (calLose s) := Same.step (by rfl) (calLose_same s) (Same.refl _ _)
  unfold coldState
  dsimp only
  generalize calLose s = t at h ⊢
  refine h.trans ?_
  unfold Same
  rfl

theorem powerOff_same (s : State) :
    Same 140737488355324 s (powerOff s) := by
  delta powerOff
  repeat' (first
    | with_reducible exact Same.refl _ _
    | with_reducible assumption
    | ((with_reducible apply Same.step ?_ (coldState_same _ _) ?_); on_goal 1 => rfl)
    | (extract_lets +onlyGivenNames x; (with_reducible apply Same.cut x ?_ ?_); (on_goal 1 => (unfold x; clear x)); (on_goal 2 => (intro hx; clear_value x)))
    | (extract_lets +onlyGivenNames x; clear_value x)
    | (extract_lets +onlyGivenNames x; unfold x; clear x)
    | split)

theorem collapseRun_same (s : State) :
    Same 140737488355326 s (collapseRun s) := by
  delta collapseRun
  repeat' (first
    | with_reducible exact Same.refl _ _
    | with_reducible assumption
    | ((with_reducible apply Same.step ?_ (powerOff_same _) ?_); on_goal 1 => rfl)
    | ((with_reducible apply Same.step ?_ (storeDrop_same _) ?_); on_goal 1 => rfl)
    | (extract_lets +onlyGivenNames x; (with_reducible apply Same.cut x ?_ ?_); (on_goal 1 => (unfold x; clear x)); (on_goal 2 => (intro hx; clear_value x)))
    | (extract_lets +onlyGivenNames x; clear_value x)
    | (extract_lets +onlyGivenNames x; unfold x; clear x)
    | split)

theorem coreMrst_same (s : State) :
    Same 71403562858608 s (coreMrst s) := by
  delta coreMrst
  repeat' (first
    | with_reducible exact Same.refl _ _
    | with_reducible assumption
    | (extract_lets +onlyGivenNames x; (with_reducible apply Same.cut x ?_ ?_); (on_goal 1 => (unfold x; clear x)); (on_goal 2 => (intro hx; clear_value x)))
    | (extract_lets +onlyGivenNames x; clear_value x)
    | (extract_lets +onlyGivenNames x; unfold x; clear x)
    | split
    | ((with_reducible apply Same.put_many ?_ ?_ ?_ ?_ ?_ ?_ ?_ ?_ ?_ ?_ ?_ ?_ ?_ ?_ ?_ ?_ ?_ ?_ ?_ ?_ ?_ ?_ ?_ ?_ ?_ ?_ ?_ ?_ ?_) <;> [rfl; rfl; rfl; rfl; rfl; rfl; rfl; rfl; rfl; rfl; rfl; rfl; rfl; rfl; rfl; rfl; rfl; rfl; rfl; rfl; rfl; rfl; rfl; rfl; rfl; rfl; rfl; rfl; skip]))

theorem coreRestart_same (s : State) (a1 : ℕ) :
    Same 1099511627792 s (coreRestart s a1) := by
  delta coreRestart
  repeat' (first
    | with_reducible exact Same.refl _ _
    | with_reducible assumption
    | ((with_reducible apply Same.step ?_ (imgClear_same _ _) ?_); on_goal 1 => rfl)
    | ((with_reducible apply Same.step ?_ (seqStartCmd_same _ _) ?_); on_goal 1 => rfl)
    | ((with_reducible apply Same.step ?_ (imgOk_same _ _) ?_); on_goal 1 => rfl)
    | (extract_lets +onlyGivenNames x; (with_reducible apply Same.cut x ?_ ?_); (on_goal 1 => (unfold x; clear x)); (on_goal 2 => (intro hx; clear_value x)))
    | (extract_lets +onlyGivenNames x; clear_value x)
    | (extract_lets +onlyGivenNames x; unfold x; clear x)
    | split)

theorem noteApplied_same (s : State) (a1 : Ing) :
    Same 37748736 s (noteApplied s a1) := by
  delta noteApplied
  repeat' (first
    | with_reducible exact Same.refl _ _
    | with_reducible assumption
    | (extract_lets +onlyGivenNames x; (with_reducible apply Same.cut x ?_ ?_); (on_goal 1 => (unfold x; clear x)); (on_goal 2 => (intro hx; clear_value x)))
    | (extract_lets +onlyGivenNames x; clear_value x)
    | (extract_lets +onlyGivenNames x; unfold x; clear x)
    | split
    | ((with_reducible apply Same.put_ingress_owed ?_ ?_ ?_) <;> [rfl; rfl; skip]))

theorem corrSend_same (s : State) (a1 : ℕ) (a2 : Corr) (a3 : ℕ) :
    Same 140737526112274 s (corrSend s a1 a2 a3) := by
  delta corrSend
  repeat' (first
    | with_reducible exact Same.refl _ _
    | with_reducible assumption
    | ((with_reducible apply Same.step ?_ (bump_same _ _ _) ?_); on_goal 1 => rfl)
    | ((with_reducible apply hwUpdate_same ?_ ?_ ?_); on_goal 1 => rfl)
    | ((with_reducible apply Same.step ?_ (emit_same _ _) ?_); on_goal 1 => rfl)
    | ((with_reducible apply Same.step ?_ (noteApplied_same _ _) ?_); on_goal 1 => rfl)
    | ((with_reducible apply Same.step ?_ (wr_same _ _ _) ?_); on_goal 1 => rfl)
    | ((with_reducible apply Same.step ?_ (raise_same _ _ _ _ _ _) ?_); on_goal 1 => rfl)
    | (extract_lets +onlyGivenNames x; (with_reducible apply Same.cut x ?_ ?_); (on_goal 1 => (unfold x; clear x)); (on_goal 2 => (intro hx; clear_value x)))
    | (extract_lets +onlyGivenNames x; (with_reducible apply Same.cut x.1 ?_ ?_); (on_goal 1 => (unfold x; clear x)); (on_goal 2 => (intro hx; clear_value x)))
    | (extract_lets +onlyGivenNames x; (with_reducible apply Same.cut x.2 ?_ ?_); (on_goal 1 => (unfold x; clear x)); (on_goal 2 => (intro hx; clear_value x)))
    | (extract_lets +onlyGivenNames x; clear_value x)
    | (extract_lets +onlyGivenNames x; unfold x; clear x)
    | intro _
    | with_reducible refine Same.ofFst (by assumption) ?_
    | with_reducible refine Same.ofSnd (by assumption) ?_
    | split
    | ((with_reducible apply Same.put_free ?_ ?_) <;> [rfl; skip]))

theorem corrDue_same (s : State) (a1 : ℕ) (a2 : ℕ) (a3 : Bool) (a4 : ℕ) :
    Same 141029652046866 s (corrDue s a1 a2 a3 a4) := by
  delta corrDue
  repeat' (first
    | with_reducible exact Same.refl _ _
    | with_reducible assumption
    | ((with_reducible apply Same.step ?_ (corrSend_same _ _ _ _) ?_); on_goal 1 => rfl)
    | ((with_reducible apply Same.step ?_ (owedRun_same _) ?_); on_goal 1 => rfl)
    | ((with_reducible apply Same.step ?_ (setLane_same _ _ _) ?_); on_goal 1 => rfl)
    | (extract_lets +onlyGivenNames x; (with_reducible apply Same.cut x ?_ ?_); (on_goal 1 => (unfold x; clear x)); (on_goal 2 => (intro hx; clear_value x)))
    | (extract_lets +onlyGivenNames x; clear_value x)
    | (extract_lets +onlyGivenNames x; unfold x; clear x)
    | split)

theorem disqTimer_same (s : State) (a1 : ℕ) (a2 : Monitor) :
    Same 139280 s (disqTimer s a1 a2) := by
  delta disqTimer
  repeat' (first
    | with_reducible exact Same.refl _ _
    | with_reducible assumption
    | ((with_reducible apply Same.step ?_ (disqualify_same _ _ _) ?_); on_goal 1 => rfl)
    | (extract_lets +onlyGivenNames x; (with_reducible apply Same.cut x ?_ ?_); (on_goal 1 => (unfold x; clear x)); (on_goal 2 => (intro hx; clear_value x)))
    | (extract_lets +onlyGivenNames x; clear_value x)
    | (extract_lets +onlyGivenNames x; unfold x; clear x)
    | split)

theorem dmaExec_same (s : State) (a1 : ℕ) (a2 : DmaSide) (a3 : DmaSide) :
    Same 197910687907578 s (dmaExec s a1 a2 a3) := by
  delta dmaExec
  repeat' (first
    | with_reducible exact Same.refl _ _
    | with_reducible assumption
    | ((with_reducible apply Same.step ?_ (dmaRun_same _ _ _ _ _) ?_); on_goal 1 => rfl)
    | (extract_lets +onlyGivenNames x; (with_reducible apply Same.cut x ?_ ?_); (on_goal 1 => (unfold x; clear x)); (on_goal 2 => (intro hx; clear_value x)))
    | (extract_lets +onlyGivenNames x; clear_value x)
    | (extract_lets +onlyGivenNames x; unfold x; clear x)
    | split)

theorem dmaFence_same (s : State) (a1 : ℕ) :
    Same 274877906944 s (dmaFence s a1) := by
  delta dmaFence
  repeat' (first
    | with_reducible exact Same.refl _ _
    | with_reducible assumption
    | ((with_reducible apply Same.step ?_ (setDma_same _ _ _) ?_); on_goal 1 => rfl)
    | (extract_lets +onlyGivenNames x; (with_reducible apply Same.cut x ?_ ?_); (on_goal 1 => (unfold x; clear x)); (on_goal 2 => (intro hx; clear_value x)))
    | (extract_lets +onlyGivenNames x; clear_value x)
    | (extract_lets +onlyGivenNames x; unfold x; clear x)
    | split)

theorem dmaFetch_same (s : State) (a1 : ℕ) (a2 : List Byte) :
    Same 143780539802674 s (dmaFetch s a1 a2) := by
  delta dmaFetch
  repeat' (first
    | with_reducible exact Same.refl _ _
    | with_reducible assumption
    | ((with_reducible apply Same.step ?_ (curSet_same _ _ _ _) ?_); on_goal 1 => rfl)
    | ((with_reducible apply Same.step ?_ (setDma_same _ _ _) ?_); on_goal 1 => rfl)
    | ((with_reducible apply Same.step ?_ (bump_same _ _ _) ?_); on_goal 1 => rfl)
    | ((with_reducible apply Same.step ?_ (dmaRead_same _ _ _ _ _) ?_); on_goal 1 => rfl)
    | ((with_reducible apply Same.step ?_ (orBits_same _ _ _) ?_); on_goal 1 => rfl)
    | ((with_reducible apply Same.step ?_ (dmaGrant_same _ _) ?_); on_goal 1 => rfl)
    | ((with_reducible apply Same.step ?_ (wL_same _ _ _ _) ?_); on_goal 1 => rfl)
    | ((with_reducible apply Same.step ?_ (raiseDma_same _ _ _ _) ?_); on_goal 1 => rfl)
    | (extract_lets +onlyGivenNames x; (with_reducible apply Same.cut x ?_ ?_); (on_goal 1 => (unfold x; clear x)); (on_goal 2 => (intro hx; clear_value x)))
    | (extract_lets +onlyGivenNames x; (with_reducible apply Same.cut x.1 ?_ ?_); (on_goal 1 => (unfold x; clear x)); (on_goal 2 => (intro hx; clear_value x)))
    | (extract_lets +onlyGivenNames x; clear_value x)
    | (extract_lets +onlyGivenNames x; unfold x; clear x)
    | with_reducible refine Same.ofFst (by assumption) ?_
    | split)

theorem dmaPromote_same (s : State) (a1 : ℕ) :
    Same 274877915152 s (dmaPromote s a1) := by
  delta dmaPromote
  repeat' (first
    | with_reducible exact Same.refl _ _
    | with_reducible assumption
    | ((with_reducible apply Same.step ?_ (setDma_same _ _ _) ?_); on_goal 1 => rfl)
    | ((with_reducible apply Same.step ?_ (bump_same _ _ _) ?_); on_goal 1 => rfl)
    | (extract_lets +onlyGivenNames x; (with_reducible apply Same.cut x ?_ ?_); (on_goal 1 => (unfold x; clear x)); (on_goal 2 => (intro hx; clear_value x)))
    | (extract_lets +onlyGivenNames x; clear_value x)
    | (extract_lets +onlyGivenNames x; unfold x; clear x)
    | split)

theorem dmaUnfence_same (s : State) (a1 : ℕ) :
    Same 274877906944 s (dmaUnfence s a1) := by
  delta dmaUnfence
  repeat' (first
    | with_reducible exact Same.refl _ _
    | with_reducible assumption
    | ((with_reducible apply Same.step ?_ (setDma_same _ _ _) ?_); on_goal 1 => rfl)
    | (extract_lets +onlyGivenNames x; (with_reducible apply Same.cut x ?_ ?_); (on_goal 1 => (unfold x; clear x)); (on_goal 2 => (intro hx; clear_value x)))
    | (extract_lets +onlyGivenNames x; clear_value x)
    | (extract_lets +onlyGivenNames x; unfold x; clear x)
    | split)

theorem drainAfter_same (s : State) (a1 : ℕ) :
    Same 176196738351104 s (drainAfter s a1) := by
  delta drainAfter
  repeat' (first
    | with_reducible exact Same.refl _ _
    | with_reducible assumption
    | ((with_reducible apply Same.step ?_ (dmaMsix_same _ _) ?_); on_goal 1 => rfl)
    | ((with_reducible apply Same.step ?_ (hostWrite_same _ _ _) ?_); on_goal 1 => rfl)
    | (extract_lets +onlyGivenNames x; (with_reducible apply Same.cut x ?_ ?_); (on_goal 1 => (unfold x; clear x)); (on_goal 2 => (intro hx; clear_value x)))
    | (extract_lets +onlyGivenNames x; clear_value x)
    | (extract_lets +onlyGivenNames x; unfold x; clear x)
    | split)

theorem drainEnd_same (s : State) :
    Same 16 s (drainEnd s) := by
  delta drainEnd
  repeat' (first
    | with_reducible exact Same.refl _ _
    | with_reducible assumption
    | ((with_reducible apply Same.step ?_ (orBits_same _ _ _) ?_); on_goal 1 => rfl)
    | ((with_reducible apply Same.step ?_ (wb_same _ _ _ _ _) ?_); on_goal 1 => rfl)
    | (extract_lets +onlyGivenNames x; (with_reducible apply Same.cut x ?_ ?_); (on_goal 1 => (unfold x; clear x)); (on_goal 2 => (intro hx; clear_value x)))
    | (extract_lets +onlyGivenNames x; clear_value x)
    | (extract_lets +onlyGivenNames x; unfold x; clear x)
    | split)

end Sys2Proof.Machine
end

