-- ==== Sys2Proof/Laws/FrameSeq.lean ====
section
/-!
SUPPORT. The fields of `State` that the operations of the sequencers can change.
-/
set_option linter.all false
set_option linter.unusedTactic false
set_option linter.unreachableTactic false
namespace Sys2Proof.Machine

open Sys2Proof


/-- The outcome of an instruction leaves a state outside a set of fields. -/
def SameOut (M : Nat) (s : State) : SeqOut → Prop
  | .ok t => Same M s t
  | .exc _ t => Same M s t

theorem SameOut.ok {M : Nat} {s t : State} (h : Same M s t) : SameOut M s (.ok t) := h

theorem SameOut.cut {M : Nat} {s : State} {o : SeqOut} (x : State) (hx : Same M s x) (k : Same M s x → SameOut M s o) :
    SameOut M s o := k hx

theorem SameOut.exc {M : Nat} {s t : State} {c : Cause310} (h : Same M s t) : SameOut M s (.exc c t) := h

theorem SameOut.mono {M K : Nat} {s : State} {o : SeqOut} (e : M ||| K = K) (h : SameOut M s o) : SameOut K s o := by
  cases o <;> exact Same.mono e h

theorem seqEnter_same {M : Nat} (s : State) (a1 : ℕ) (a2 : ℕ) (a3 : ℕ) (a4 : Option State) (a5 : ℕ) (a6 : State) (e : 8208 ||| M = M)
    (hr : ∀ t, a4 = some t → Same M s t) (hf : Same M s a6) : SameOut M s (seqEnter s a1 a2 a3 a4 a5 a6) := by
  delta seqEnter
  split
  · exact SameOut.exc hf
  · rename_i t
    have h := Same.step (s := s) (by exact e) (Same.mono (by rfl) (bump_same t (rSEQ a1 88) 1)) (hr _ rfl)
    dsimp only
    split
    · exact SameOut.exc h
    · exact SameOut.ok (Same.step (by exact e) (Same.mono (by rfl) (pcNext_same _ _ _)) h)

theorem seqWrreg_same (s : State) (a1 : ℕ) (a2 : ℕ) (a3 : ℕ) (a4 : ℕ) :
    SameOut 197360932093690 s (seqWrreg s a1 a2 a3 a4) := by
  delta seqWrreg
  repeat' (first
    | with_reducible exact Same.refl _ _
    | with_reducible assumption
    | with_reducible apply SameOut.ok
    | with_reducible apply SameOut.exc
    | (extract_lets +onlyGivenNames x; (with_reducible apply SameOut.cut x ?_ ?_); (on_goal 1 => (unfold x; clear x)); (on_goal 2 => (intro hx; clear_value x)))
    | (extract_lets +onlyGivenNames x; (with_reducible apply SameOut.cut x.1 ?_ ?_); (on_goal 1 => (unfold x; clear x)); (on_goal 2 => (intro hx; clear_value x)))
    | ((with_reducible apply Same.step ?_ (pcNext_same _ _ _) ?_); on_goal 1 => rfl)
    | ((with_reducible apply Same.step ?_ (busWrite_same _ _ _ _ _) ?_); on_goal 1 => rfl)
    | (extract_lets +onlyGivenNames x; (with_reducible apply Same.cut x ?_ ?_); (on_goal 1 => (unfold x; clear x)); (on_goal 2 => (intro hx; clear_value x)))
    | (extract_lets +onlyGivenNames x; (with_reducible apply Same.cut x.1 ?_ ?_); (on_goal 1 => (unfold x; clear x)); (on_goal 2 => (intro hx; clear_value x)))
    | (extract_lets +onlyGivenNames x; clear_value x)
    | (extract_lets +onlyGivenNames x; unfold x; clear x)
    | with_reducible refine Same.ofFst (by assumption) ?_
    | split)

theorem seqPlain_same (s : State) (a1 : ℕ) (a2 : ℕ) (a3 : ℕ) (a4 : ActKind) :
    SameOut 10264 s (seqPlain s a1 a2 a3 a4) := by
  delta seqPlain
  repeat' (first
    | with_reducible exact Same.refl _ _
    | with_reducible assumption
    | ((with_reducible refine seqEnter_same _ _ _ _ _ _ _ ?_ ?_ ?_); on_goal 1 => rfl)
    | with_reducible apply SameOut.ok
    | with_reducible apply SameOut.exc
    | (extract_lets +onlyGivenNames x; (with_reducible apply SameOut.cut x ?_ ?_); (on_goal 1 => (unfold x; clear x)); (on_goal 2 => (intro hx; clear_value x)))
    | (intro t h; exact Same.mono (by rfl) (timeEnter_same h))
    | exact Same.step rfl (timeEnter_same (by with_reducible assumption)) (by with_reducible first | assumption | exact Same.refl _ _)
    | (extract_lets +onlyGivenNames x; (with_reducible apply Same.cut x ?_ ?_); (on_goal 1 => (unfold x; clear x)); (on_goal 2 => (intro hx; clear_value x)))
    | (extract_lets +onlyGivenNames x; clear_value x)
    | (extract_lets +onlyGivenNames x; unfold x; clear x)
    | split)

theorem seqLoad_same (s : State) (a1 : ℕ) (a2 : ℕ) (a3 : LoadOp) (a4 : ℕ) (a5 : ℕ) (a6 : ℕ) (a7 : Bool) :
    SameOut 1040 s (seqLoad s a1 a2 a3 a4 a5 a6 a7) := by
  delta seqLoad
  repeat' (first
    | with_reducible exact Same.refl _ _
    | with_reducible assumption
    | with_reducible apply SameOut.ok
    | with_reducible apply SameOut.exc
    | (extract_lets +onlyGivenNames x; (with_reducible apply SameOut.cut x ?_ ?_); (on_goal 1 => (unfold x; clear x)); (on_goal 2 => (intro hx; clear_value x)))
    | ((with_reducible apply Same.step ?_ (setMbs_same _ _ _) ?_); on_goal 1 => rfl)
    | ((with_reducible apply Same.step ?_ (pcNext_same _ _ _) ?_); on_goal 1 => rfl)
    | ((with_reducible apply Same.step ?_ (setSreg_same _ _ _ _) ?_); on_goal 1 => rfl)
    | (extract_lets +onlyGivenNames x; (with_reducible apply Same.cut x ?_ ?_); (on_goal 1 => (unfold x; clear x)); (on_goal 2 => (intro hx; clear_value x)))
    | (extract_lets +onlyGivenNames x; clear_value x)
    | (extract_lets +onlyGivenNames x; unfold x; clear x)
    | split)

theorem seqSys_same (s : State) (a1 : ℕ) (a2 : ℕ) (a3 : SysOp) :
    SameOut 179766598565882 s (seqSys s a1 a2 a3) := by
  delta seqSys
  repeat' (first
    | with_reducible exact Same.refl _ _
    | with_reducible assumption
    | with_reducible apply SameOut.ok
    | with_reducible apply SameOut.exc
    | (extract_lets +onlyGivenNames x; (with_reducible apply SameOut.cut x ?_ ?_); (on_goal 1 => (unfold x; clear x)); (on_goal 2 => (intro hx; clear_value x)))
    | ((with_reducible apply Same.step ?_ (pcNext_same _ _ _) ?_); on_goal 1 => rfl)
    | ((with_reducible apply Same.step ?_ (setSeqState_same _ _ _) ?_); on_goal 1 => rfl)
    | ((with_reducible apply Same.step ?_ (landAll_same _ _) ?_); on_goal 1 => rfl)
    | ((with_reducible apply Same.step ?_ (seqHaltAs_same _ _ _) ?_); on_goal 1 => rfl)
    | (extract_lets +onlyGivenNames x; (with_reducible apply Same.cut x ?_ ?_); (on_goal 1 => (unfold x; clear x)); (on_goal 2 => (intro hx; clear_value x)))
    | (extract_lets +onlyGivenNames x; clear_value x)
    | (extract_lets +onlyGivenNames x; unfold x; clear x)
    | split)

theorem seqSc_same (s : State) (a1 : ℕ) (a2 : ℕ) (a3 : ℕ) (a4 : ℕ) (a5 : ActKind) :
    SameOut 40984 s (seqSc s a1 a2 a3 a4 a5) := by
  delta seqSc
  repeat' (first
    | with_reducible exact Same.refl _ _
    | with_reducible assumption
    | ((with_reducible refine seqEnter_same _ _ _ _ _ _ _ ?_ ?_ ?_); on_goal 1 => rfl)
    | with_reducible apply SameOut.ok
    | with_reducible apply SameOut.exc
    | (extract_lets +onlyGivenNames x; (with_reducible apply SameOut.cut x ?_ ?_); (on_goal 1 => (unfold x; clear x)); (on_goal 2 => (intro hx; clear_value x)))
    | (intro t h; exact Same.mono (by rfl) (scEnter_same h))
    | ((with_reducible apply Same.step ?_ (raise_same _ _ _ _ _ _) ?_); on_goal 1 => rfl)
    | exact Same.step rfl (scEnter_same (by with_reducible assumption)) (by with_reducible first | assumption | exact Same.refl _ _)
    | (extract_lets +onlyGivenNames x; (with_reducible apply Same.cut x ?_ ?_); (on_goal 1 => (unfold x; clear x)); (on_goal 2 => (intro hx; clear_value x)))
    | (extract_lets +onlyGivenNames x; clear_value x)
    | (extract_lets +onlyGivenNames x; unfold x; clear x)
    | split)

theorem seqFod_same (s : State) (a1 : ℕ) (a2 : ℕ) (a3 : ℕ) (a4 : ℕ) (a5 : ActKind) :
    SameOut 73752 s (seqFod s a1 a2 a3 a4 a5) := by
  delta seqFod
  repeat' (first
    | with_reducible exact Same.refl _ _
    | with_reducible assumption
    | ((with_reducible refine seqEnter_same _ _ _ _ _ _ _ ?_ ?_ ?_); on_goal 1 => rfl)
    | with_reducible apply SameOut.ok
    | with_reducible apply SameOut.exc
    | (extract_lets +onlyGivenNames x; (with_reducible apply SameOut.cut x ?_ ?_); (on_goal 1 => (unfold x; clear x)); (on_goal 2 => (intro hx; clear_value x)))
    | (intro t h; exact Same.mono (by rfl) (fodEnter_same h))
    | ((with_reducible apply Same.step ?_ (raise_same _ _ _ _ _ _) ?_); on_goal 1 => rfl)
    | exact Same.step rfl (fodEnter_same (by with_reducible assumption)) (by with_reducible first | assumption | exact Same.refl _ _)
    | (extract_lets +onlyGivenNames x; (with_reducible apply Same.cut x ?_ ?_); (on_goal 1 => (unfold x; clear x)); (on_goal 2 => (intro hx; clear_value x)))
    | (extract_lets +onlyGivenNames x; clear_value x)
    | (extract_lets +onlyGivenNames x; unfold x; clear x)
    | split)

theorem seqGang_same (s : State) (a1 : ℕ) (a2 : ℕ) (a3 : ℕ) (a4 : ℕ) (a5 : ActKind) :
    SameOut 73752 s (seqGang s a1 a2 a3 a4 a5) := by
  delta seqGang
  repeat' (first
    | with_reducible exact Same.refl _ _
    | with_reducible assumption
    | ((with_reducible refine seqEnter_same _ _ _ _ _ _ _ ?_ ?_ ?_); on_goal 1 => rfl)
    | with_reducible apply SameOut.ok
    | with_reducible apply SameOut.exc
    | (extract_lets +onlyGivenNames x; (with_reducible apply SameOut.cut x ?_ ?_); (on_goal 1 => (unfold x; clear x)); (on_goal 2 => (intro hx; clear_value x)))
    | (extract_lets +onlyGivenNames x; (with_reducible apply SameOut.cut x.1 ?_ ?_); (on_goal 1 => (unfold x; clear x)); (on_goal 2 => (intro hx; clear_value x)))
    | (intro t h; cases h; done)
    | (intro t h; injection h with h; subst h)
    | ((with_reducible apply Same.step ?_ (gangEnter_same _ _ _ _ _) ?_); on_goal 1 => rfl)
    | (extract_lets +onlyGivenNames x; (with_reducible apply Same.cut x ?_ ?_); (on_goal 1 => (unfold x; clear x)); (on_goal 2 => (intro hx; clear_value x)))
    | (extract_lets +onlyGivenNames x; (with_reducible apply Same.cut x.1 ?_ ?_); (on_goal 1 => (unfold x; clear x)); (on_goal 2 => (intro hx; clear_value x)))
    | (extract_lets +onlyGivenNames x; clear_value x)
    | (extract_lets +onlyGivenNames x; unfold x; clear x)
    | with_reducible refine Same.ofFst (by assumption) ?_
    | split)

theorem seqPost_same (s : State) (a1 : ℕ) (a2 : ℕ) (a3 : ℕ) (a4 : ℕ) (a5 : ℕ) :
    SameOut 141029613249552 s (seqPost s a1 a2 a3 a4 a5) := by
  delta seqPost
  repeat' (first
    | with_reducible exact Same.refl _ _
    | with_reducible assumption
    | with_reducible apply SameOut.ok
    | with_reducible apply SameOut.exc
    | (extract_lets +onlyGivenNames x; (with_reducible apply SameOut.cut x ?_ ?_); (on_goal 1 => (unfold x; clear x)); (on_goal 2 => (intro hx; clear_value x)))
    | ((with_reducible apply Same.step ?_ (pcNext_same _ _ _) ?_); on_goal 1 => rfl)
    | ((with_reducible apply Same.step ?_ (bump_same _ _ _) ?_); on_goal 1 => rfl)
    | ((with_reducible apply Same.step ?_ (presentInternal_same _ _ _ _ _ _ _ _ _ _ _) ?_); on_goal 1 => rfl)
    | (extract_lets +onlyGivenNames x; (with_reducible apply Same.cut x ?_ ?_); (on_goal 1 => (unfold x; clear x)); (on_goal 2 => (intro hx; clear_value x)))
    | (extract_lets +onlyGivenNames x; clear_value x)
    | (extract_lets +onlyGivenNames x; unfold x; clear x)
    | split)

theorem seqStore_same (s : State) (a1 : ℕ) (a2 : ℕ) (a3 : StoreOp) (a4 : ℕ) (a5 : ℕ) (a6 : ℕ) :
    SameOut 1040 s (seqStore s a1 a2 a3 a4 a5 a6) := by
  delta seqStore
  repeat' (first
    | with_reducible exact Same.refl _ _
    | with_reducible assumption
    | with_reducible apply SameOut.ok
    | with_reducible apply SameOut.exc
    | (extract_lets +onlyGivenNames x; (with_reducible apply SameOut.cut x ?_ ?_); (on_goal 1 => (unfold x; clear x)); (on_goal 2 => (intro hx; clear_value x)))
    | ((with_reducible apply Same.step ?_ (setMbs_same _ _ _) ?_); on_goal 1 => rfl)
    | ((with_reducible apply Same.step ?_ (pcNext_same _ _ _) ?_); on_goal 1 => rfl)
    | (extract_lets +onlyGivenNames x; (with_reducible apply Same.cut x ?_ ?_); (on_goal 1 => (unfold x; clear x)); (on_goal 2 => (intro hx; clear_value x)))
    | (extract_lets +onlyGivenNames x; clear_value x)
    | (extract_lets +onlyGivenNames x; unfold x; clear x)
    | split)

theorem seqDo_same (s : State) (a1 : ℕ) (a2 : ℕ) (a3 : Bool) (a4 : OInstr) :
    SameOut 197360932093946 s (seqDo s a1 a2 a3 a4) := by
  delta seqDo
  repeat' (first
    | with_reducible exact Same.refl _ _
    | with_reducible assumption
    | ((with_reducible refine SameOut.mono ?_ (seqWrreg_same _ _ _ _ _)); rfl)
    | ((with_reducible refine SameOut.mono ?_ (seqPlain_same _ _ _ _ _)); rfl)
    | ((with_reducible refine SameOut.mono ?_ (seqLoad_same _ _ _ _ _ _ _ _)); rfl)
    | ((with_reducible refine SameOut.mono ?_ (seqSys_same _ _ _ _)); rfl)
    | ((with_reducible refine SameOut.mono ?_ (seqSc_same _ _ _ _ _ _)); rfl)
    | ((with_reducible refine SameOut.mono ?_ (seqFod_same _ _ _ _ _ _)); rfl)
    | ((with_reducible refine SameOut.mono ?_ (seqGang_same _ _ _ _ _ _)); rfl)
    | ((with_reducible refine SameOut.mono ?_ (seqPost_same _ _ _ _ _ _)); rfl)
    | ((with_reducible refine SameOut.mono ?_ (seqStore_same _ _ _ _ _ _ _)); rfl)
    | ((with_reducible refine seqEnter_same _ _ _ _ _ _ _ ?_ ?_ ?_); on_goal 1 => rfl)
    | with_reducible apply SameOut.ok
    | with_reducible apply SameOut.exc
    | (extract_lets +onlyGivenNames x; (with_reducible apply SameOut.cut x ?_ ?_); (on_goal 1 => (unfold x; clear x)); (on_goal 2 => (intro hx; clear_value x)))
    | (extract_lets +onlyGivenNames x; (with_reducible apply SameOut.cut x.1 ?_ ?_); (on_goal 1 => (unfold x; clear x)); (on_goal 2 => (intro hx; clear_value x)))
    | (intro t h; exact Same.mono (by rfl) (snapEnter_same h))
    | ((with_reducible apply Same.step ?_ (pcNext_same _ _ _) ?_); on_goal 1 => rfl)
    | ((with_reducible apply Same.step ?_ (setResult_same _ _ _ _ _) ?_); on_goal 1 => rfl)
    | ((with_reducible apply Same.step ?_ (setSpair_same _ _ _ _) ?_); on_goal 1 => rfl)
    | ((with_reducible apply Same.step ?_ (seqWaitE_same _ _ _ _ _) ?_); on_goal 1 => rfl)
    | ((with_reducible apply Same.step ?_ (seqRead_same _ _ _) ?_); on_goal 1 => rfl)
    | ((with_reducible apply Same.step ?_ (evtBit_same _ _ _) ?_); on_goal 1 => rfl)
    | ((with_reducible apply Same.step ?_ (seqWaitT_same _ _ _ _) ?_); on_goal 1 => rfl)
    | ((with_reducible apply Same.step ?_ (setSreg_same _ _ _ _) ?_); on_goal 1 => rfl)
    | ((with_reducible apply Same.step ?_ (setPc_same _ _ _) ?_); on_goal 1 => rfl)
    | exact Same.step rfl (snapEnter_same (by with_reducible assumption)) (by with_reducible first | assumption | exact Same.refl _ _)
    | (extract_lets +onlyGivenNames x; (with_reducible apply Same.cut x ?_ ?_); (on_goal 1 => (unfold x; clear x)); (on_goal 2 => (intro hx; clear_value x)))
    | (extract_lets +onlyGivenNames x; (with_reducible apply Same.cut x.1 ?_ ?_); (on_goal 1 => (unfold x; clear x)); (on_goal 2 => (intro hx; clear_value x)))
    | (extract_lets +onlyGivenNames x; clear_value x)
    | (extract_lets +onlyGivenNames x; unfold x; clear x)
    | with_reducible refine Same.ofFst (by assumption) ?_
    | split)

theorem seqAfter_same {M : Nat} {s : State} (a0 a1 a2 : ℕ) (a3 : Option ℕ) (o : SeqOut) (e : 1099511635986 ||| M = M) (h : SameOut M s o) :
    Same M s (seqAfter a0 a1 a2 a3 o) := by
  have c (t : State) (k : Nat) (ht : Same M s t) : Same M s (seqCount t a0 k a3) :=
    Same.step e (Same.mono (by rfl) (seqCount_same _ _ _ _)) ht
  cases o with
  | ok t =>
    dsimp only [seqAfter]
    split
    · exact h
    · exact Same.step e (Same.mono (by rfl) (stepEnd_same _ _)) (c t a2 h)
  | exc x t => exact Same.step e (Same.mono (by rfl) (stepEnd_same _ _)) (Same.step e (Same.mono (by rfl) (seqExcept_same _ _ _ _)) (c t (a2 + 3) h))

theorem SameOut.mono' {M K : Nat} {s x : State} {o : SeqOut} (e : M ||| K = K) (hx : Same K s x) (h : SameOut M x o) :
    SameOut K s o := by
  cases o <;> exact Same.step e h hx

theorem seqFault_same (s : State) (a1 : ℕ) (a2 : Bool) :
    Same 1099511635986 s (seqFault s a1 a2) := by
  delta seqFault
  exact seqAfter_same _ _ _ _ _ (by rfl) (SameOut.exc (Same.step (by rfl) (bpDone_same _ _) (Same.refl _ _)))

theorem seqIssue_same (s : State) (a1 : ℕ) (a2 : Mn) (a3 : Bool) :
    Same 197360932093946 s (seqIssue s a1 a2 a3) := by
  delta seqIssue
  repeat' split
  all_goals first
    | exact Same.refl _ _
    | exact seqAfter_same _ _ _ _ _ (by rfl) (SameOut.mono' (by rfl) (Same.step (by rfl) (bpDone_same _ _) (Same.refl _ _)) (seqDo_same _ _ _ _ _))

theorem readLate_same (s : State) (a1 : ℕ) :
    Same 1099511635986 s (readLate s a1) := by
  delta readLate
  dsimp only
  repeat' split
  all_goals first
    | exact Same.refl _ _
    | exact seqAfter_same _ _ _ _ _ (by rfl) (SameOut.exc (Same.step (by rfl) (raise_same _ _ _ _ _ _) (Same.step (by rfl) (bpDone_same _ _) (Same.refl _ _))))

theorem seqOp_same (s : State) (a1 : ℕ) (a2 : Mn) :
    Same 197360932093946 s (seqOp s a1 a2) := by
  delta seqOp
  repeat' (first
    | with_reducible exact Same.refl _ _
    | with_reducible assumption
    | ((with_reducible apply Same.step ?_ (seqIssue_same _ _ _ _) ?_); on_goal 1 => rfl)
    | (extract_lets +onlyGivenNames x; (with_reducible apply Same.cut x ?_ ?_); (on_goal 1 => (unfold x; clear x)); (on_goal 2 => (intro hx; clear_value x)))
    | (extract_lets +onlyGivenNames x; clear_value x)
    | (extract_lets +onlyGivenNames x; unfold x; clear x)
    | split)

end Sys2Proof.Machine
end

