-- ==== Sys2Proof/Laws/FrameExec.lean ====
section
/-!
SUPPORT. Every command answers a next state, and the fields of `State` that it can change.
-/
set_option linter.all false
set_option linter.unusedTactic false
set_option linter.unreachableTactic false
namespace Sys2Proof.Machine

open Sys2Proof

theorem execAbort_same (a0 : LaneIx) (a1 : Fin 8) (a2 : BitVec 16) (a3 : Bool) (a4 : CycIx) (s : State) :
    ∃ t, execAbort a0 a1 a2 a3 a4 s = .next t ∧ Same 141029679309844 s t := by
  delta execAbort
  repeat' (first
    | refine ⟨_, rfl, ?_⟩
    | with_reducible exact Same.refl _ _
    | with_reducible assumption
    | ((with_reducible apply Same.step ?_ (abortIn_same _ _ _ _) ?_); on_goal 1 => rfl)
    | ((with_reducible apply Same.step ?_ (atCyc_same _ _) ?_); on_goal 1 => rfl)
    | (extract_lets +onlyGivenNames x; (with_reducible apply Same.cut x ?_ ?_); (on_goal 1 => (unfold x; clear x)); (on_goal 2 => (intro hx; clear_value x)))
    | (extract_lets +onlyGivenNames x; clear_value x)
    | (extract_lets +onlyGivenNames x; unfold x; clear x)
    | split)

theorem execAdd_same (a0 : CoreIx) (s : State) :
    ∃ t, execAdd a0 s = .next t ∧ Same 197360932093946 s t := by
  delta execAdd
  repeat' (first
    | refine ⟨_, rfl, ?_⟩
    | with_reducible exact Same.refl _ _
    | with_reducible assumption
    | ((with_reducible apply Same.step ?_ (seqOp_same _ _ _) ?_); on_goal 1 => rfl)
    | (extract_lets +onlyGivenNames x; (with_reducible apply Same.cut x ?_ ?_); (on_goal 1 => (unfold x; clear x)); (on_goal 2 => (intro hx; clear_value x)))
    | (extract_lets +onlyGivenNames x; clear_value x)
    | (extract_lets +onlyGivenNames x; unfold x; clear x)
    | split)

theorem execAddc_same (a0 : CoreIx) (s : State) :
    ∃ t, execAddc a0 s = .next t ∧ Same 197360932093946 s t := by
  delta execAddc
  repeat' (first
    | refine ⟨_, rfl, ?_⟩
    | with_reducible exact Same.refl _ _
    | with_reducible assumption
    | ((with_reducible apply Same.step ?_ (seqOp_same _ _ _) ?_); on_goal 1 => rfl)
    | (extract_lets +onlyGivenNames x; (with_reducible apply Same.cut x ?_ ?_); (on_goal 1 => (unfold x; clear x)); (on_goal 2 => (intro hx; clear_value x)))
    | (extract_lets +onlyGivenNames x; clear_value x)
    | (extract_lets +onlyGivenNames x; unfold x; clear x)
    | split)

theorem execAddi_same (a0 : CoreIx) (s : State) :
    ∃ t, execAddi a0 s = .next t ∧ Same 197360932093946 s t := by
  delta execAddi
  repeat' (first
    | refine ⟨_, rfl, ?_⟩
    | with_reducible exact Same.refl _ _
    | with_reducible assumption
    | ((with_reducible apply Same.step ?_ (seqOp_same _ _ _) ?_); on_goal 1 => rfl)
    | (extract_lets +onlyGivenNames x; (with_reducible apply Same.cut x ?_ ?_); (on_goal 1 => (unfold x; clear x)); (on_goal 2 => (intro hx; clear_value x)))
    | (extract_lets +onlyGivenNames x; clear_value x)
    | (extract_lets +onlyGivenNames x; unfold x; clear x)
    | split)

theorem execAlertClr_same (s : State) :
    ∃ t, execAlertClr s = .next t ∧ Same 4398046511106 s t := by
  delta execAlertClr
  repeat' (first
    | refine ⟨_, rfl, ?_⟩
    | with_reducible exact Same.refl _ _
    | with_reducible assumption
    | ((with_reducible apply Same.step ?_ (alertOff_same _) ?_); on_goal 1 => rfl)
    | (extract_lets +onlyGivenNames x; (with_reducible apply Same.cut x ?_ ?_); (on_goal 1 => (unfold x; clear x)); (on_goal 2 => (intro hx; clear_value x)))
    | (extract_lets +onlyGivenNames x; clear_value x)
    | (extract_lets +onlyGivenNames x; unfold x; clear x)
    | split
    | ((with_reducible apply Same.put_free ?_ ?_) <;> [rfl; skip]))

theorem execAlertResponse_same (s : State) :
    ∃ t, execAlertResponse s = .next t ∧ Same 145135534866432 s t := by
  delta execAlertResponse
  repeat' (first
    | refine ⟨_, rfl, ?_⟩
    | with_reducible exact Same.refl _ _
    | with_reducible assumption
    | ((with_reducible apply Same.step ?_ (emit_same _ _) ?_); on_goal 1 => rfl)
    | ((with_reducible apply Same.step ?_ (alertOff_same _) ?_); on_goal 1 => rfl)
    | (extract_lets +onlyGivenNames x; (with_reducible apply Same.cut x ?_ ?_); (on_goal 1 => (unfold x; clear x)); (on_goal 2 => (intro hx; clear_value x)))
    | (extract_lets +onlyGivenNames x; clear_value x)
    | (extract_lets +onlyGivenNames x; unfold x; clear x)
    | split)

theorem execAnd_same (a0 : CoreIx) (s : State) :
    ∃ t, execAnd a0 s = .next t ∧ Same 197360932093946 s t := by
  delta execAnd
  repeat' (first
    | refine ⟨_, rfl, ?_⟩
    | with_reducible exact Same.refl _ _
    | with_reducible assumption
    | ((with_reducible apply Same.step ?_ (seqOp_same _ _ _) ?_); on_goal 1 => rfl)
    | (extract_lets +onlyGivenNames x; (with_reducible apply Same.cut x ?_ ?_); (on_goal 1 => (unfold x; clear x)); (on_goal 2 => (intro hx; clear_value x)))
    | (extract_lets +onlyGivenNames x; clear_value x)
    | (extract_lets +onlyGivenNames x; unfold x; clear x)
    | split)

theorem execAndi_same (a0 : CoreIx) (s : State) :
    ∃ t, execAndi a0 s = .next t ∧ Same 197360932093946 s t := by
  delta execAndi
  repeat' (first
    | refine ⟨_, rfl, ?_⟩
    | with_reducible exact Same.refl _ _
    | with_reducible assumption
    | ((with_reducible apply Same.step ?_ (seqOp_same _ _ _) ?_); on_goal 1 => rfl)
    | (extract_lets +onlyGivenNames x; (with_reducible apply Same.cut x ?_ ?_); (on_goal 1 => (unfold x; clear x)); (on_goal 2 => (intro hx; clear_value x)))
    | (extract_lets +onlyGivenNames x; clear_value x)
    | (extract_lets +onlyGivenNames x; unfold x; clear x)
    | split)

theorem execAndn_same (a0 : CoreIx) (s : State) :
    ∃ t, execAndn a0 s = .next t ∧ Same 197360932093946 s t := by
  delta execAndn
  repeat' (first
    | refine ⟨_, rfl, ?_⟩
    | with_reducible exact Same.refl _ _
    | with_reducible assumption
    | ((with_reducible apply Same.step ?_ (seqOp_same _ _ _) ?_); on_goal 1 => rfl)
    | (extract_lets +onlyGivenNames x; (with_reducible apply Same.cut x ?_ ?_); (on_goal 1 => (unfold x; clear x)); (on_goal 2 => (intro hx; clear_value x)))
    | (extract_lets +onlyGivenNames x; clear_value x)
    | (extract_lets +onlyGivenNames x; unfold x; clear x)
    | split)

theorem execAonBoundary_same (a0 : ℕ) (a1 : Bool) (s : State) :
    ∃ t, execAonBoundary a0 a1 s = .next t ∧ Same 184166792560510 s t := by
  delta execAonBoundary
  repeat' (first
    | refine ⟨_, rfl, ?_⟩
    | with_reducible exact Same.refl _ _
    | with_reducible assumption
    | ((with_reducible apply Same.step ?_ (aonRun_same _ _ _) ?_); on_goal 1 => rfl)
    | (extract_lets +onlyGivenNames x; (with_reducible apply Same.cut x ?_ ?_); (on_goal 1 => (unfold x; clear x)); (on_goal 2 => (intro hx; clear_value x)))
    | (extract_lets +onlyGivenNames x; clear_value x)
    | (extract_lets +onlyGivenNames x; unfold x; clear x)
    | split)

theorem execAonReady_same (s : State) :
    ∃ t, execAonReady s = .next t ∧ Same 143312388828178 s t := by
  delta execAonReady
  repeat' (first
    | refine ⟨_, rfl, ?_⟩
    | with_reducible exact Same.refl _ _
    | with_reducible assumption
    | ((with_reducible apply Same.step ?_ (aonReadyRun_same _) ?_); on_goal 1 => rfl)
    | (extract_lets +onlyGivenNames x; (with_reducible apply Same.cut x ?_ ?_); (on_goal 1 => (unfold x; clear x)); (on_goal 2 => (intro hx; clear_value x)))
    | (extract_lets +onlyGivenNames x; clear_value x)
    | (extract_lets +onlyGivenNames x; unfold x; clear x)
    | split)

theorem execBadBlock_same (a0 : LaneIx) (s : State) :
    ∃ t, execBadBlock a0 s = .next t ∧ Same 141029679309840 s t := by
  delta execBadBlock
  repeat' (first
    | refine ⟨_, rfl, ?_⟩
    | with_reducible exact Same.refl _ _
    | with_reducible assumption
    | ((with_reducible apply Same.step ?_ (badIn_same _ _) ?_); on_goal 1 => rfl)
    | (extract_lets +onlyGivenNames x; (with_reducible apply Same.cut x ?_ ?_); (on_goal 1 => (unfold x; clear x)); (on_goal 2 => (intro hx; clear_value x)))
    | (extract_lets +onlyGivenNames x; clear_value x)
    | (extract_lets +onlyGivenNames x; unfold x; clear x)
    | split)

theorem execBandCalDone_same (a0 : ScIx) (a1 : Bool) (a2 : ℕ) (a3 : ℕ) (a4 : ℕ) (s : State) :
    ∃ t, execBandCalDone a0 a1 a2 a3 a4 s = .next t ∧ Same 40976 s t := by
  delta execBandCalDone
  repeat' (first
    | refine ⟨_, rfl, ?_⟩
    | with_reducible exact Same.refl _ _
    | with_reducible assumption
    | ((with_reducible apply Same.step ?_ (bandEnd_same _ _ _ _ _ _) ?_); on_goal 1 => rfl)
    | (extract_lets +onlyGivenNames x; (with_reducible apply Same.cut x ?_ ?_); (on_goal 1 => (unfold x; clear x)); (on_goal 2 => (intro hx; clear_value x)))
    | (extract_lets +onlyGivenNames x; clear_value x)
    | (extract_lets +onlyGivenNames x; unfold x; clear x)
    | split)

theorem execBandcal_same (a0 : Master) (a1 : ScIx) (s : State) :
    ∃ t, execBandcal a0 a1 s = .next t ∧ Same 197360932093690 s t := by
  delta execBandcal
  repeat' (first
    | refine ⟨_, rfl, ?_⟩
    | with_reducible exact Same.refl _ _
    | with_reducible assumption
    | ((with_reducible apply Same.step ?_ (regPutM_same _ _ _ _ _) ?_); on_goal 1 => rfl)
    | (extract_lets +onlyGivenNames x; (with_reducible apply Same.cut x ?_ ?_); (on_goal 1 => (unfold x; clear x)); (on_goal 2 => (intro hx; clear_value x)))
    | (extract_lets +onlyGivenNames x; clear_value x)
    | (extract_lets +onlyGivenNames x; unfold x; clear x)
    | split)

theorem execBar2Write_same (a0 : Master) (a1 : ℕ) (a2 : List (Option Byte)) (s : State) :
    ∃ t, execBar2Write a0 a1 a2 s = .next t ∧ Same 143230783988752 s t := by
  delta execBar2Write
  repeat' (first
    | refine ⟨_, rfl, ?_⟩
    | with_reducible exact Same.refl _ _
    | with_reducible assumption
    | ((with_reducible apply Same.step ?_ (bar2Put_same _ _ _ _) ?_); on_goal 1 => rfl)
    | (extract_lets +onlyGivenNames x; (with_reducible apply Same.cut x ?_ ?_); (on_goal 1 => (unfold x; clear x)); (on_goal 2 => (intro hx; clear_value x)))
    | (extract_lets +onlyGivenNames x; clear_value x)
    | (extract_lets +onlyGivenNames x; unfold x; clear x)
    | split)

theorem execBaseLol_same (s : State) :
    ∃ t, execBaseLol s = .next t ∧ Same 8208 s t := by
  delta execBaseLol
  repeat' (first
    | refine ⟨_, rfl, ?_⟩
    | with_reducible exact Same.refl _ _
    | with_reducible assumption
    | ((with_reducible apply Same.step ?_ (raise_same _ _ _ _ _ _) ?_); on_goal 1 => rfl)
    | (extract_lets +onlyGivenNames x; (with_reducible apply Same.cut x ?_ ?_); (on_goal 1 => (unfold x; clear x)); (on_goal 2 => (intro hx; clear_value x)))
    | (extract_lets +onlyGivenNames x; clear_value x)
    | (extract_lets +onlyGivenNames x; unfold x; clear x)
    | split)

theorem execBcc_same (a0 : CoreIx) (s : State) :
    ∃ t, execBcc a0 s = .next t ∧ Same 197360932093946 s t := by
  delta execBcc
  repeat' (first
    | refine ⟨_, rfl, ?_⟩
    | with_reducible exact Same.refl _ _
    | with_reducible assumption
    | ((with_reducible apply Same.step ?_ (seqOp_same _ _ _) ?_); on_goal 1 => rfl)
    | (extract_lets +onlyGivenNames x; (with_reducible apply Same.cut x ?_ ?_); (on_goal 1 => (unfold x; clear x)); (on_goal 2 => (intro hx; clear_value x)))
    | (extract_lets +onlyGivenNames x; clear_value x)
    | (extract_lets +onlyGivenNames x; unfold x; clear x)
    | split)

theorem execBeacon_same (a0 : LaneIx) (a1 : BeaconMsg) (a2 : CycIx) (s : State) :
    ∃ t, execBeacon a0 a1 a2 s = .next t ∧ Same 141098399245334 s t := by
  delta execBeacon
  repeat' (first
    | refine ⟨_, rfl, ?_⟩
    | with_reducible exact Same.refl _ _
    | with_reducible assumption
    | ((with_reducible apply Same.step ?_ (beaconIn_same _ _ _) ?_); on_goal 1 => rfl)
    | ((with_reducible apply Same.step ?_ (atCyc_same _ _) ?_); on_goal 1 => rfl)
    | (extract_lets +onlyGivenNames x; (with_reducible apply Same.cut x ?_ ?_); (on_goal 1 => (unfold x; clear x)); (on_goal 2 => (intro hx; clear_value x)))
    | (extract_lets +onlyGivenNames x; clear_value x)
    | (extract_lets +onlyGivenNames x; unfold x; clear x)
    | split)

theorem execBinaryTodFrame_same (a0 : Fin 4) (a1 : List Byte) (s : State) :
    ∃ t, execBinaryTodFrame a0 a1 s = .next t ∧ Same 401424 s t := by
  delta execBinaryTodFrame
  repeat' (first
    | refine ⟨_, rfl, ?_⟩
    | with_reducible exact Same.refl _ _
    | with_reducible assumption
    | ((with_reducible apply Same.step ?_ (binaryIn_same _ _ _) ?_); on_goal 1 => rfl)
    | (extract_lets +onlyGivenNames x; (with_reducible apply Same.cut x ?_ ?_); (on_goal 1 => (unfold x; clear x)); (on_goal 2 => (intro hx; clear_value x)))
    | (extract_lets +onlyGivenNames x; clear_value x)
    | (extract_lets +onlyGivenNames x; unfold x; clear x)
    | split)

theorem execBl_same (a0 : CoreIx) (s : State) :
    ∃ t, execBl a0 s = .next t ∧ Same 197360932093946 s t := by
  delta execBl
  repeat' (first
    | refine ⟨_, rfl, ?_⟩
    | with_reducible exact Same.refl _ _
    | with_reducible assumption
    | ((with_reducible apply Same.step ?_ (seqOp_same _ _ _) ?_); on_goal 1 => rfl)
    | (extract_lets +onlyGivenNames x; (with_reducible apply Same.cut x ?_ ?_); (on_goal 1 => (unfold x; clear x)); (on_goal 2 => (intro hx; clear_value x)))
    | (extract_lets +onlyGivenNames x; clear_value x)
    | (extract_lets +onlyGivenNames x; unfold x; clear x)
    | split)

theorem execBlockLock_same (a0 : LaneIx) (a1 : Bool) (s : State) :
    ∃ t, execBlockLock a0 a1 s = .next t ∧ Same 140806208880640 s t := by
  delta execBlockLock
  repeat' (first
    | refine ⟨_, rfl, ?_⟩
    | with_reducible exact Same.refl _ _
    | with_reducible assumption
    | ((with_reducible apply Same.step ?_ (laneLock_same _ _ _) ?_); on_goal 1 => rfl)
    | (extract_lets +onlyGivenNames x; (with_reducible apply Same.cut x ?_ ?_); (on_goal 1 => (unfold x; clear x)); (on_goal 2 => (intro hx; clear_value x)))
    | (extract_lets +onlyGivenNames x; clear_value x)
    | (extract_lets +onlyGivenNames x; unfold x; clear x)
    | split)

theorem execBreakpointHit_same (a0 : CoreIx) (s : State) :
    ∃ t, execBreakpointHit a0 s = .next t ∧ Same 1099511627792 s t := by
  delta execBreakpointHit
  repeat' (first
    | refine ⟨_, rfl, ?_⟩
    | with_reducible exact Same.refl _ _
    | with_reducible assumption
    | ((with_reducible apply Same.step ?_ (bpHit_same _ _) ?_); on_goal 1 => rfl)
    | (extract_lets +onlyGivenNames x; (with_reducible apply Same.cut x ?_ ?_); (on_goal 1 => (unfold x; clear x)); (on_goal 2 => (intro hx; clear_value x)))
    | (extract_lets +onlyGivenNames x; clear_value x)
    | (extract_lets +onlyGivenNames x; unfold x; clear x)
    | split)

theorem execCalApply_same (a0 : List CalUnit) (a1 : CycIx) (s : State) :
    ∃ t, execCalApply a0 a1 s = .next t ∧ Same 144272783811606 s t := by
  delta execCalApply
  repeat' (first
    | refine ⟨_, rfl, ?_⟩
    | with_reducible exact Same.refl _ _
    | with_reducible assumption
    | ((with_reducible apply Same.step ?_ (atCyc_same _ _) ?_); on_goal 1 => rfl)
    | ((with_reducible apply Same.step ?_ (calApplyRun_same _ _) ?_); on_goal 1 => rfl)
    | (extract_lets +onlyGivenNames x; (with_reducible apply Same.cut x ?_ ?_); (on_goal 1 => (unfold x; clear x)); (on_goal 2 => (intro hx; clear_value x)))
    | (extract_lets +onlyGivenNames x; clear_value x)
    | (extract_lets +onlyGivenNames x; unfold x; clear x)
    | split)

theorem execCalRun_same (a0 : Master) (a1 : ℕ) (a2 : Bool) (s : State) :
    ∃ t, execCalRun a0 a1 a2 s = .next t ∧ Same 143368222942232 s t := by
  delta execCalRun
  repeat' (first
    | refine ⟨_, rfl, ?_⟩
    | with_reducible exact Same.refl _ _
    | with_reducible assumption
    | ((with_reducible apply Same.step ?_ (cmdAccess_same _ _ _ _ _ _) ?_); on_goal 1 => rfl)
    | (extract_lets +onlyGivenNames x; (with_reducible apply Same.cut x ?_ ?_); (on_goal 1 => (unfold x; clear x)); (on_goal 2 => (intro hx; clear_value x)))
    | (extract_lets +onlyGivenNames x; clear_value x)
    | (extract_lets +onlyGivenNames x; unfold x; clear x)
    | split)

theorem execCalStopTimeout_same (a0 : PortIx) (a1 : CycIx) (s : State) :
    ∃ t, execCalStopTimeout a0 a1 s = .next t ∧ Same 140806209937430 s t := by
  delta execCalStopTimeout
  repeat' (first
    | refine ⟨_, rfl, ?_⟩
    | with_reducible exact Same.refl _ _
    | with_reducible assumption
    | ((with_reducible apply Same.step ?_ (calStop_same _ _) ?_); on_goal 1 => rfl)
    | ((with_reducible apply Same.step ?_ (atCyc_same _ _) ?_); on_goal 1 => rfl)
    | (extract_lets +onlyGivenNames x; (with_reducible apply Same.cut x ?_ ?_); (on_goal 1 => (unfold x; clear x)); (on_goal 2 => (intro hx; clear_value x)))
    | (extract_lets +onlyGivenNames x; clear_value x)
    | (extract_lets +onlyGivenNames x; unfold x; clear x)
    | split)

theorem execChargeSlow_same (s : State) :
    ∃ t, execChargeSlow s = .next t ∧ Same 8208 s t := by
  delta execChargeSlow
  repeat' (first
    | refine ⟨_, rfl, ?_⟩
    | with_reducible exact Same.refl _ _
    | with_reducible assumption
    | ((with_reducible apply Same.step ?_ (raise_same _ _ _ _ _ _) ?_); on_goal 1 => rfl)
    | (extract_lets +onlyGivenNames x; (with_reducible apply Same.cut x ?_ ?_); (on_goal 1 => (unfold x; clear x)); (on_goal 2 => (intro hx; clear_value x)))
    | (extract_lets +onlyGivenNames x; clear_value x)
    | (extract_lets +onlyGivenNames x; unfold x; clear x)
    | split)

theorem execCkpt_same (a0 : CkptMsg) (s : State) :
    ∃ t, execCkpt a0 s = .next t ∧ Same 145152715334672 s t := by
  delta execCkpt
  repeat' (first
    | refine ⟨_, rfl, ?_⟩
    | with_reducible exact Same.refl _ _
    | with_reducible assumption
    | ((with_reducible apply Same.step ?_ (ckptTake_same _ _) ?_); on_goal 1 => rfl)
    | ((with_reducible apply Same.step ?_ (smbEval_same _) ?_); on_goal 1 => rfl)
    | (extract_lets +onlyGivenNames x; (with_reducible apply Same.cut x ?_ ?_); (on_goal 1 => (unfold x; clear x)); (on_goal 2 => (intro hx; clear_value x)))
    | (extract_lets +onlyGivenNames x; clear_value x)
    | (extract_lets +onlyGivenNames x; unfold x; clear x)
    | split)

theorem execCkptMiss_same (s : State) :
    ∃ t, execCkptMiss s = .next t ∧ Same 4415226388496 s t := by
  delta execCkptMiss
  repeat' (first
    | refine ⟨_, rfl, ?_⟩
    | with_reducible exact Same.refl _ _
    | with_reducible assumption
    | ((with_reducible apply Same.step ?_ (smbEval_same _) ?_); on_goal 1 => rfl)
    | ((with_reducible apply Same.step ?_ (ckptLate_same _) ?_); on_goal 1 => rfl)
    | (extract_lets +onlyGivenNames x; (with_reducible apply Same.cut x ?_ ?_); (on_goal 1 => (unfold x; clear x)); (on_goal 2 => (intro hx; clear_value x)))
    | (extract_lets +onlyGivenNames x; clear_value x)
    | (extract_lets +onlyGivenNames x; unfold x; clear x)
    | split)

theorem execClaim_same (s : State) :
    ∃ t, execClaim s = .next t ∧ Same 145234319582226 s t := by
  delta execClaim
  repeat' (first
    | refine ⟨_, rfl, ?_⟩
    | with_reducible exact Same.refl _ _
    | with_reducible assumption
    | ((with_reducible apply Same.step ?_ (smbEval_same _) ?_); on_goal 1 => rfl)
    | ((with_reducible apply Same.step ?_ (claimRole_same _) ?_); on_goal 1 => rfl)
    | (extract_lets +onlyGivenNames x; (with_reducible apply Same.cut x ?_ ?_); (on_goal 1 => (unfold x; clear x)); (on_goal 2 => (intro hx; clear_value x)))
    | (extract_lets +onlyGivenNames x; clear_value x)
    | (extract_lets +onlyGivenNames x; unfold x; clear x)
    | split)

theorem execClrhist_same (a0 : Master) (a1 : DpIx) (s : State) :
    ∃ t, execClrhist a0 a1 s = .next t ∧ Same 197360932093690 s t := by
  delta execClrhist
  repeat' (first
    | refine ⟨_, rfl, ?_⟩
    | with_reducible exact Same.refl _ _
    | with_reducible assumption
    | ((with_reducible apply Same.step ?_ (regPutM_same _ _ _ _ _) ?_); on_goal 1 => rfl)
    | (extract_lets +onlyGivenNames x; (with_reducible apply Same.cut x ?_ ?_); (on_goal 1 => (unfold x; clear x)); (on_goal 2 => (intro hx; clear_value x)))
    | (extract_lets +onlyGivenNames x; clear_value x)
    | (extract_lets +onlyGivenNames x; unfold x; clear x)
    | split)

theorem execCmp_same (a0 : CoreIx) (s : State) :
    ∃ t, execCmp a0 s = .next t ∧ Same 197360932093946 s t := by
  delta execCmp
  repeat' (first
    | refine ⟨_, rfl, ?_⟩
    | with_reducible exact Same.refl _ _
    | with_reducible assumption
    | ((with_reducible apply Same.step ?_ (seqOp_same _ _ _) ?_); on_goal 1 => rfl)
    | (extract_lets +onlyGivenNames x; (with_reducible apply Same.cut x ?_ ?_); (on_goal 1 => (unfold x; clear x)); (on_goal 2 => (intro hx; clear_value x)))
    | (extract_lets +onlyGivenNames x; clear_value x)
    | (extract_lets +onlyGivenNames x; unfold x; clear x)
    | split)

theorem execCmpi_same (a0 : CoreIx) (s : State) :
    ∃ t, execCmpi a0 s = .next t ∧ Same 197360932093946 s t := by
  delta execCmpi
  repeat' (first
    | refine ⟨_, rfl, ?_⟩
    | with_reducible exact Same.refl _ _
    | with_reducible assumption
    | ((with_reducible apply Same.step ?_ (seqOp_same _ _ _) ?_); on_goal 1 => rfl)
    | (extract_lets +onlyGivenNames x; (with_reducible apply Same.cut x ?_ ?_); (on_goal 1 => (unfold x; clear x)); (on_goal 2 => (intro hx; clear_value x)))
    | (extract_lets +onlyGivenNames x; clear_value x)
    | (extract_lets +onlyGivenNames x; unfold x; clear x)
    | split)

theorem execCommandComplete_same (a0 : Fin 64) (a1 : OpOutcome) (a2 : CycIx) (s : State) :
    ∃ t, execCommandComplete a0 a1 a2 s = .next t ∧ Same 179766598565502 s t := by
  delta execCommandComplete
  repeat' (first
    | refine ⟨_, rfl, ?_⟩
    | with_reducible exact Same.refl _ _
    | with_reducible assumption
    | ((with_reducible apply Same.step ?_ (cmdFinish_same _ _ _) ?_); on_goal 1 => rfl)
    | ((with_reducible apply Same.step ?_ (atCyc_same _ _) ?_); on_goal 1 => rfl)
    | (extract_lets +onlyGivenNames x; (with_reducible apply Same.cut x ?_ ?_); (on_goal 1 => (unfold x; clear x)); (on_goal 2 => (intro hx; clear_value x)))
    | (extract_lets +onlyGivenNames x; clear_value x)
    | (extract_lets +onlyGivenNames x; unfold x; clear x)
    | split)

theorem execCommandStart_same (a0 : Fin 64) (a1 : CycIx) (s : State) :
    ∃ t, execCommandStart a0 a1 s = .next t ∧ Same 178653529093150 s t := by
  delta execCommandStart
  repeat' (first
    | refine ⟨_, rfl, ?_⟩
    | with_reducible exact Same.refl _ _
    | with_reducible assumption
    | ((with_reducible apply Same.step ?_ (atCyc_same _ _) ?_); on_goal 1 => rfl)
    | ((with_reducible apply Same.step ?_ (cmdStart_same _ _) ?_); on_goal 1 => rfl)
    | (extract_lets +onlyGivenNames x; (with_reducible apply Same.cut x ?_ ?_); (on_goal 1 => (unfold x; clear x)); (on_goal 2 => (intro hx; clear_value x)))
    | (extract_lets +onlyGivenNames x; clear_value x)
    | (extract_lets +onlyGivenNames x; unfold x; clear x)
    | split)

theorem execCommandTimeout_same (a0 : Fin 64) (a1 : CycIx) (s : State) :
    ∃ t, execCommandTimeout a0 a1 s = .next t ∧ Same 178653526799390 s t := by
  delta execCommandTimeout
  repeat' (first
    | refine ⟨_, rfl, ?_⟩
    | with_reducible exact Same.refl _ _
    | with_reducible assumption
    | ((with_reducible apply Same.step ?_ (cmdExpire_same _ _) ?_); on_goal 1 => rfl)
    | ((with_reducible apply Same.step ?_ (atCyc_same _ _) ?_); on_goal 1 => rfl)
    | (extract_lets +onlyGivenNames x; (with_reducible apply Same.cut x ?_ ?_); (on_goal 1 => (unfold x; clear x)); (on_goal 2 => (intro hx; clear_value x)))
    | (extract_lets +onlyGivenNames x; clear_value x)
    | (extract_lets +onlyGivenNames x; unfold x; clear x)
    | split)

theorem execConfigStore_same (a0 : Master) (a1 : Bool) (s : State) :
    ∃ t, execConfigStore a0 a1 s = .next t ∧ Same 143368222942232 s t := by
  delta execConfigStore
  repeat' (first
    | refine ⟨_, rfl, ?_⟩
    | with_reducible exact Same.refl _ _
    | with_reducible assumption
    | ((with_reducible apply Same.step ?_ (cmdAccess_same _ _ _ _ _ _) ?_); on_goal 1 => rfl)
    | (extract_lets +onlyGivenNames x; (with_reducible apply Same.cut x ?_ ?_); (on_goal 1 => (unfold x; clear x)); (on_goal 2 => (intro hx; clear_value x)))
    | (extract_lets +onlyGivenNames x; clear_value x)
    | (extract_lets +onlyGivenNames x; unfold x; clear x)
    | split)

theorem execConfigurationRequest_same (s : State) :
    ∃ t, execConfigurationRequest s = .next t ∧ Same 140737488355328 s t := by
  delta execConfigurationRequest
  repeat' (first
    | refine ⟨_, rfl, ?_⟩
    | with_reducible exact Same.refl _ _
    | with_reducible assumption
    | ((with_reducible apply Same.step ?_ (emit_same _ _) ?_); on_goal 1 => rfl)
    | (extract_lets +onlyGivenNames x; (with_reducible apply Same.cut x ?_ ?_); (on_goal 1 => (unfold x; clear x)); (on_goal 2 => (intro hx; clear_value x)))
    | (extract_lets +onlyGivenNames x; clear_value x)
    | (extract_lets +onlyGivenNames x; unfold x; clear x)
    | split)

theorem execConverter_same (s : State) :
    ∃ t, execConverter s = .next t ∧ Same 8208 s t := by
  delta execConverter
  repeat' (first
    | refine ⟨_, rfl, ?_⟩
    | with_reducible exact Same.refl _ _
    | with_reducible assumption
    | ((with_reducible apply Same.step ?_ (raise_same _ _ _ _ _ _) ?_); on_goal 1 => rfl)
    | (extract_lets +onlyGivenNames x; (with_reducible apply Same.cut x ?_ ?_); (on_goal 1 => (unfold x; clear x)); (on_goal 2 => (intro hx; clear_value x)))
    | (extract_lets +onlyGivenNames x; clear_value x)
    | (extract_lets +onlyGivenNames x; unfold x; clear x)
    | split)

theorem execCoreSleep_same (s : State) :
    ∃ t, execCoreSleep s = .next t ∧ Same 2147489792 s t := by
  delta execCoreSleep
  repeat' (first
    | refine ⟨_, rfl, ?_⟩
    | with_reducible exact Same.refl _ _
    | with_reducible assumption
    | ((with_reducible apply Same.step ?_ (sleepRun_same _) ?_); on_goal 1 => rfl)
    | (extract_lets +onlyGivenNames x; (with_reducible apply Same.cut x ?_ ?_); (on_goal 1 => (unfold x; clear x)); (on_goal 2 => (intro hx; clear_value x)))
    | (extract_lets +onlyGivenNames x; clear_value x)
    | (extract_lets +onlyGivenNames x; unfold x; clear x)
    | split)

theorem execCoreWake_same (s : State) :
    ∃ t, execCoreWake s = .next t ∧ Same 143230783988752 s t := by
  delta execCoreWake
  repeat' (first
    | refine ⟨_, rfl, ?_⟩
    | with_reducible exact Same.refl _ _
    | with_reducible assumption
    | ((with_reducible apply Same.step ?_ (wakeRun_same _) ?_); on_goal 1 => rfl)
    | (extract_lets +onlyGivenNames x; (with_reducible apply Same.cut x ?_ ?_); (on_goal 1 => (unfold x; clear x)); (on_goal 2 => (intro hx; clear_value x)))
    | (extract_lets +onlyGivenNames x; clear_value x)
    | (extract_lets +onlyGivenNames x; unfold x; clear x)
    | split)

theorem execCoreid_same (a0 : CoreIx) (s : State) :
    ∃ t, execCoreid a0 s = .next t ∧ Same 197360932093946 s t := by
  delta execCoreid
  repeat' (first
    | refine ⟨_, rfl, ?_⟩
    | with_reducible exact Same.refl _ _
    | with_reducible assumption
    | ((with_reducible apply Same.step ?_ (seqOp_same _ _ _) ?_); on_goal 1 => rfl)
    | (extract_lets +onlyGivenNames x; (with_reducible apply Same.cut x ?_ ?_); (on_goal 1 => (unfold x; clear x)); (on_goal 2 => (intro hx; clear_value x)))
    | (extract_lets +onlyGivenNames x; clear_value x)
    | (extract_lets +onlyGivenNames x; unfold x; clear x)
    | split)

theorem execCorrection_same (a0 : LaneIx) (a1 : BitVec 16) (a2 : Bool) (a3 : ℕ) (s : State) :
    ∃ t, execCorrection a0 a1 a2 a3 s = .next t ∧ Same 141029652046866 s t := by
  delta execCorrection
  repeat' (first
    | refine ⟨_, rfl, ?_⟩
    | with_reducible exact Same.refl _ _
    | with_reducible assumption
    | ((with_reducible apply Same.step ?_ (corrDue_same _ _ _ _ _) ?_); on_goal 1 => rfl)
    | (extract_lets +onlyGivenNames x; (with_reducible apply Same.cut x ?_ ?_); (on_goal 1 => (unfold x; clear x)); (on_goal 2 => (intro hx; clear_value x)))
    | (extract_lets +onlyGivenNames x; clear_value x)
    | (extract_lets +onlyGivenNames x; unfold x; clear x)
    | split)

theorem execCreditAuditTimeout_same (a0 : LaneIx) (s : State) :
    ∃ t, execCreditAuditTimeout a0 s = .next t ∧ Same 1056784 s t := by
  delta execCreditAuditTimeout
  repeat' (first
    | refine ⟨_, rfl, ?_⟩
    | with_reducible exact Same.refl _ _
    | with_reducible assumption
    | ((with_reducible apply Same.step ?_ (auditLate_same _ _) ?_); on_goal 1 => rfl)
    | (extract_lets +onlyGivenNames x; (with_reducible apply Same.cut x ?_ ?_); (on_goal 1 => (unfold x; clear x)); (on_goal 2 => (intro hx; clear_value x)))
    | (extract_lets +onlyGivenNames x; clear_value x)
    | (extract_lets +onlyGivenNames x; unfold x; clear x)
    | split)

theorem execCreditLinkUp_same (a0 : LaneIx) (s : State) :
    ∃ t, execCreditLinkUp a0 s = .next t ∧ Same 140806208880640 s t := by
  delta execCreditLinkUp
  repeat' (first
    | refine ⟨_, rfl, ?_⟩
    | with_reducible exact Same.refl _ _
    | with_reducible assumption
    | ((with_reducible apply Same.step ?_ (linkUp_same _ _) ?_); on_goal 1 => rfl)
    | (extract_lets +onlyGivenNames x; (with_reducible apply Same.cut x ?_ ?_); (on_goal 1 => (unfold x; clear x)); (on_goal 2 => (intro hx; clear_value x)))
    | (extract_lets +onlyGivenNames x; clear_value x)
    | (extract_lets +onlyGivenNames x; unfold x; clear x)
    | split)

theorem execCreditSyncEcho_same (a0 : LaneIx) (a1 : BitVec 8) (a2 : ℕ) (a3 : ℕ) (s : State) :
    ∃ t, execCreditSyncEcho a0 a1 a2 a3 s = .next t ∧ Same 141029679309840 s t := by
  delta execCreditSyncEcho
  repeat' (first
    | refine ⟨_, rfl, ?_⟩
    | with_reducible exact Same.refl _ _
    | with_reducible assumption
    | ((with_reducible apply Same.step ?_ (echoIn_same _ _ _ _ _) ?_); on_goal 1 => rfl)
    | ((with_reducible apply Same.step ?_ (closePend_same _ _) ?_); on_goal 1 => rfl)
    | (extract_lets +onlyGivenNames x; (with_reducible apply Same.cut x ?_ ?_); (on_goal 1 => (unfold x; clear x)); (on_goal 2 => (intro hx; clear_value x)))
    | (extract_lets +onlyGivenNames x; clear_value x)
    | (extract_lets +onlyGivenNames x; unfold x; clear x)
    | split)

theorem execCreditSyncMarker_same (a0 : LaneIx) (s : State) :
    ∃ t, execCreditSyncMarker a0 s = .next t ∧ Same 140737489403904 s t := by
  delta execCreditSyncMarker
  repeat' (first
    | refine ⟨_, rfl, ?_⟩
    | with_reducible exact Same.refl _ _
    | with_reducible assumption
    | ((with_reducible apply Same.step ?_ (markerDue_same _ _) ?_); on_goal 1 => rfl)
    | (extract_lets +onlyGivenNames x; (with_reducible apply Same.cut x ?_ ?_); (on_goal 1 => (unfold x; clear x)); (on_goal 2 => (intro hx; clear_value x)))
    | (extract_lets +onlyGivenNames x; clear_value x)
    | (extract_lets +onlyGivenNames x; unfold x; clear x)
    | split)

theorem execDescFetch_same (a0 : DmaIx) (a1 : List Byte) (s : State) :
    ∃ t, execDescFetch a0 a1 s = .next t ∧ Same 143780539802674 s t := by
  delta execDescFetch
  repeat' (first
    | refine ⟨_, rfl, ?_⟩
    | with_reducible exact Same.refl _ _
    | with_reducible assumption
    | ((with_reducible apply Same.step ?_ (dmaFetch_same _ _ _) ?_); on_goal 1 => rfl)
    | (extract_lets +onlyGivenNames x; (with_reducible apply Same.cut x ?_ ?_); (on_goal 1 => (unfold x; clear x)); (on_goal 2 => (intro hx; clear_value x)))
    | (extract_lets +onlyGivenNames x; clear_value x)
    | (extract_lets +onlyGivenNames x; unfold x; clear x)
    | split)

theorem execDescWriteBack_same (a0 : DmaIx) (a1 : DmaSide) (a2 : DmaSide) (s : State) :
    ∃ t, execDescWriteBack a0 a1 a2 s = .next t ∧ Same 197910687907578 s t := by
  delta execDescWriteBack
  repeat' (first
    | refine ⟨_, rfl, ?_⟩
    | with_reducible exact Same.refl _ _
    | with_reducible assumption
    | ((with_reducible apply Same.step ?_ (dmaExec_same _ _ _ _) ?_); on_goal 1 => rfl)
    | (extract_lets +onlyGivenNames x; (with_reducible apply Same.cut x ?_ ?_); (on_goal 1 => (unfold x; clear x)); (on_goal 2 => (intro hx; clear_value x)))
    | (extract_lets +onlyGivenNames x; clear_value x)
    | (extract_lets +onlyGivenNames x; unfold x; clear x)
    | split)

theorem execDmaAbort_same (a0 : Master) (a1 : DmaIx) (s : State) :
    ∃ t, execDmaAbort a0 a1 s = .next t ∧ Same 197360932093690 s t := by
  delta execDmaAbort
  repeat' (first
    | refine ⟨_, rfl, ?_⟩
    | with_reducible exact Same.refl _ _
    | with_reducible assumption
    | ((with_reducible apply Same.step ?_ (regPut_same _ _ _ _) ?_); on_goal 1 => rfl)
    | (extract_lets +onlyGivenNames x; (with_reducible apply Same.cut x ?_ ?_); (on_goal 1 => (unfold x; clear x)); (on_goal 2 => (intro hx; clear_value x)))
    | (extract_lets +onlyGivenNames x; clear_value x)
    | (extract_lets +onlyGivenNames x; unfold x; clear x)
    | split)

theorem execDmaBusError_same (a0 : DmaIx) (a1 : BitVec 64) (a2 : Fin 4) (a3 : Bool) (a4 : DmaData) (s : State) :
    ∃ t, execDmaBusError a0 a1 a2 a3 a4 s = .next t ∧ Same 197910687907578 s t := by
  delta execDmaBusError
  repeat' (first
    | refine ⟨_, rfl, ?_⟩
    | with_reducible exact Same.refl _ _
    | with_reducible assumption
    | ((with_reducible apply Same.step ?_ (busErr_same _ _ _ _ _ _) ?_); on_goal 1 => rfl)
    | (extract_lets +onlyGivenNames x; (with_reducible apply Same.cut x ?_ ?_); (on_goal 1 => (unfold x; clear x)); (on_goal 2 => (intro hx; clear_value x)))
    | (extract_lets +onlyGivenNames x; clear_value x)
    | (extract_lets +onlyGivenNames x; unfold x; clear x)
    | split)

theorem execDmaDoorbell_same (a0 : Master) (a1 : DmaIx) (s : State) :
    ∃ t, execDmaDoorbell a0 a1 s = .next t ∧ Same 197360932093690 s t := by
  delta execDmaDoorbell
  repeat' (first
    | refine ⟨_, rfl, ?_⟩
    | with_reducible exact Same.refl _ _
    | with_reducible assumption
    | ((with_reducible apply Same.step ?_ (regPut_same _ _ _ _) ?_); on_goal 1 => rfl)
    | (extract_lets +onlyGivenNames x; (with_reducible apply Same.cut x ?_ ?_); (on_goal 1 => (unfold x; clear x)); (on_goal 2 => (intro hx; clear_value x)))
    | (extract_lets +onlyGivenNames x; clear_value x)
    | (extract_lets +onlyGivenNames x; unfold x; clear x)
    | split)

theorem execDmaEnable_same (a0 : Master) (a1 : DmaIx) (a2 : Word) (s : State) :
    ∃ t, execDmaEnable a0 a1 a2 s = .next t ∧ Same 197360932093690 s t := by
  delta execDmaEnable
  repeat' (first
    | refine ⟨_, rfl, ?_⟩
    | with_reducible exact Same.refl _ _
    | with_reducible assumption
    | ((with_reducible apply Same.step ?_ (regPut_same _ _ _ _) ?_); on_goal 1 => rfl)
    | (extract_lets +onlyGivenNames x; (with_reducible apply Same.cut x ?_ ?_); (on_goal 1 => (unfold x; clear x)); (on_goal 2 => (intro hx; clear_value x)))
    | (extract_lets +onlyGivenNames x; clear_value x)
    | (extract_lets +onlyGivenNames x; unfold x; clear x)
    | split)

theorem execDmaHrdWrite_same (a0 : Master) (a1 : DmaIx) (a2 : Word) (s : State) :
    ∃ t, execDmaHrdWrite a0 a1 a2 s = .next t ∧ Same 197360932093690 s t := by
  delta execDmaHrdWrite
  repeat' (first
    | refine ⟨_, rfl, ?_⟩
    | with_reducible exact Same.refl _ _
    | with_reducible assumption
    | ((with_reducible apply Same.step ?_ (regPut_same _ _ _ _) ?_); on_goal 1 => rfl)
    | (extract_lets +onlyGivenNames x; (with_reducible apply Same.cut x ?_ ?_); (on_goal 1 => (unfold x; clear x)); (on_goal 2 => (intro hx; clear_value x)))
    | (extract_lets +onlyGivenNames x; clear_value x)
    | (extract_lets +onlyGivenNames x; unfold x; clear x)
    | split)

theorem execDmaPause_same (a0 : Master) (a1 : DmaIx) (s : State) :
    ∃ t, execDmaPause a0 a1 s = .next t ∧ Same 197360932093690 s t := by
  delta execDmaPause
  repeat' (first
    | refine ⟨_, rfl, ?_⟩
    | with_reducible exact Same.refl _ _
    | with_reducible assumption
    | ((with_reducible apply Same.step ?_ (regPut_same _ _ _ _) ?_); on_goal 1 => rfl)
    | (extract_lets +onlyGivenNames x; (with_reducible apply Same.cut x ?_ ?_); (on_goal 1 => (unfold x; clear x)); (on_goal 2 => (intro hx; clear_value x)))
    | (extract_lets +onlyGivenNames x; clear_value x)
    | (extract_lets +onlyGivenNames x; unfold x; clear x)
    | split)

theorem execDmaPaused_same (a0 : DmaIx) (s : State) :
    ∃ t, execDmaPaused a0 s = .next t ∧ Same 274877906944 s t := by
  delta execDmaPaused
  repeat' (first
    | refine ⟨_, rfl, ?_⟩
    | with_reducible exact Same.refl _ _
    | with_reducible assumption
    | ((with_reducible apply Same.step ?_ (setDma_same _ _ _) ?_); on_goal 1 => rfl)
    | (extract_lets +onlyGivenNames x; (with_reducible apply Same.cut x ?_ ?_); (on_goal 1 => (unfold x; clear x)); (on_goal 2 => (intro hx; clear_value x)))
    | (extract_lets +onlyGivenNames x; clear_value x)
    | (extract_lets +onlyGivenNames x; unfold x; clear x)
    | split)

theorem execDmaPromotion_same (a0 : DmaIx) (s : State) :
    ∃ t, execDmaPromotion a0 s = .next t ∧ Same 274877915152 s t := by
  delta execDmaPromotion
  repeat' (first
    | refine ⟨_, rfl, ?_⟩
    | with_reducible exact Same.refl _ _
    | with_reducible assumption
    | ((with_reducible apply Same.step ?_ (dmaPromote_same _ _) ?_); on_goal 1 => rfl)
    | (extract_lets +onlyGivenNames x; (with_reducible apply Same.cut x ?_ ?_); (on_goal 1 => (unfold x; clear x)); (on_goal 2 => (intro hx; clear_value x)))
    | (extract_lets +onlyGivenNames x; clear_value x)
    | (extract_lets +onlyGivenNames x; unfold x; clear x)
    | split)

theorem execDmaResume_same (a0 : Master) (a1 : DmaIx) (s : State) :
    ∃ t, execDmaResume a0 a1 s = .next t ∧ Same 197360932093690 s t := by
  delta execDmaResume
  repeat' (first
    | refine ⟨_, rfl, ?_⟩
    | with_reducible exact Same.refl _ _
    | with_reducible assumption
    | ((with_reducible apply Same.step ?_ (regPut_same _ _ _ _) ?_); on_goal 1 => rfl)
    | (extract_lets +onlyGivenNames x; (with_reducible apply Same.cut x ?_ ?_); (on_goal 1 => (unfold x; clear x)); (on_goal 2 => (intro hx; clear_value x)))
    | (extract_lets +onlyGivenNames x; clear_value x)
    | (extract_lets +onlyGivenNames x; unfold x; clear x)
    | split)

theorem execDrainBurst_same (a0 : DrainMsg) (s : State) :
    ∃ t, execDrainBurst a0 s = .next t ∧ Same 176763741151248 s t := by
  delta execDrainBurst
  repeat' (first
    | refine ⟨_, rfl, ?_⟩
    | with_reducible exact Same.refl _ _
    | with_reducible assumption
    | ((with_reducible apply Same.step ?_ (drainRun_same _ _ _) ?_); on_goal 1 => rfl)
    | (extract_lets +onlyGivenNames x; (with_reducible apply Same.cut x ?_ ?_); (on_goal 1 => (unfold x; clear x)); (on_goal 2 => (intro hx; clear_value x)))
    | (extract_lets +onlyGivenNames x; clear_value x)
    | (extract_lets +onlyGivenNames x; unfold x; clear x)
    | split)

theorem execDrainComplete_same (s : State) :
    ∃ t, execDrainComplete s = .next t ∧ Same 16 s t := by
  delta execDrainComplete
  repeat' (first
    | refine ⟨_, rfl, ?_⟩
    | with_reducible exact Same.refl _ _
    | with_reducible assumption
    | ((with_reducible apply Same.step ?_ (drainEnd_same _) ?_); on_goal 1 => rfl)
    | (extract_lets +onlyGivenNames x; (with_reducible apply Same.cut x ?_ ?_); (on_goal 1 => (unfold x; clear x)); (on_goal 2 => (intro hx; clear_value x)))
    | (extract_lets +onlyGivenNames x; clear_value x)
    | (extract_lets +onlyGivenNames x; unfold x; clear x)
    | split)

theorem execDrainFlushTimer_same (a0 : DmaIx) (s : State) :
    ∃ t, execDrainFlushTimer a0 s = .next t ∧ Same 274877906944 s t := by
  delta execDrainFlushTimer
  repeat' (first
    | refine ⟨_, rfl, ?_⟩
    | with_reducible exact Same.refl _ _
    | with_reducible assumption
    | ((with_reducible apply Same.step ?_ (drainFlush_same _ _) ?_); on_goal 1 => rfl)
    | (extract_lets +onlyGivenNames x; (with_reducible apply Same.cut x ?_ ?_); (on_goal 1 => (unfold x; clear x)); (on_goal 2 => (intro hx; clear_value x)))
    | (extract_lets +onlyGivenNames x; clear_value x)
    | (extract_lets +onlyGivenNames x; unfold x; clear x)
    | split)

theorem execDriver_same (a0 : FodIx) (s : State) :
    ∃ t, execDriver a0 s = .next t ∧ Same 8208 s t := by
  delta execDriver
  repeat' (first
    | refine ⟨_, rfl, ?_⟩
    | with_reducible exact Same.refl _ _
    | with_reducible assumption
    | ((with_reducible apply Same.step ?_ (raiseFod_same _ _ _ _) ?_); on_goal 1 => rfl)
    | (extract_lets +onlyGivenNames x; (with_reducible apply Same.cut x ?_ ?_); (on_goal 1 => (unfold x; clear x)); (on_goal 2 => (intro hx; clear_value x)))
    | (extract_lets +onlyGivenNames x; clear_value x)
    | (extract_lets +onlyGivenNames x; unfold x; clear x)
    | split)

theorem execEcamEntryWrite_same (a0 : Master) (a1 : Fin 512) (a2 : Fin 22) (a3 : Word) (s : State) :
    ∃ t, execEcamEntryWrite a0 a1 a2 a3 s = .next t ∧ Same 197360932093690 s t := by
  delta execEcamEntryWrite
  repeat' (first
    | refine ⟨_, rfl, ?_⟩
    | with_reducible exact Same.refl _ _
    | with_reducible assumption
    | ((with_reducible apply Same.step ?_ (regPut_same _ _ _ _) ?_); on_goal 1 => rfl)
    | (extract_lets +onlyGivenNames x; (with_reducible apply Same.cut x ?_ ?_); (on_goal 1 => (unfold x; clear x)); (on_goal 2 => (intro hx; clear_value x)))
    | (extract_lets +onlyGivenNames x; clear_value x)
    | (extract_lets +onlyGivenNames x; unfold x; clear x)
    | split)

theorem execEcamLookup_same (a0 : LaneIx) (a1 : BitVec 16) (a2 : Bool) (a3 : CycIx) (s : State) :
    ∃ t, execEcamLookup a0 a1 a2 a3 s = .next t ∧ Same 141029618492436 s t := by
  delta execEcamLookup
  repeat' (first
    | refine ⟨_, rfl, ?_⟩
    | with_reducible exact Same.refl _ _
    | with_reducible assumption
    | ((with_reducible apply Same.step ?_ (lookupRun_same _ _ _ _) ?_); on_goal 1 => rfl)
    | ((with_reducible apply Same.step ?_ (atCyc_same _ _) ?_); on_goal 1 => rfl)
    | (extract_lets +onlyGivenNames x; (with_reducible apply Same.cut x ?_ ?_); (on_goal 1 => (unfold x; clear x)); (on_goal 2 => (intro hx; clear_value x)))
    | (extract_lets +onlyGivenNames x; clear_value x)
    | (extract_lets +onlyGivenNames x; unfold x; clear x)
    | split)

theorem execEcamSigUpdate_same (s : State) :
    ∃ t, execEcamSigUpdate s = .next t ∧ Same 16 s t := by
  delta execEcamSigUpdate
  repeat' (first
    | refine ⟨_, rfl, ?_⟩
    | with_reducible exact Same.refl _ _
    | with_reducible assumption
    | ((with_reducible apply Same.step ?_ (sigUpdate_same _) ?_); on_goal 1 => rfl)
    | (extract_lets +onlyGivenNames x; (with_reducible apply Same.cut x ?_ ?_); (on_goal 1 => (unfold x; clear x)); (on_goal 2 => (intro hx; clear_value x)))
    | (extract_lets +onlyGivenNames x; clear_value x)
    | (extract_lets +onlyGivenNames x; unfold x; clear x)
    | split)

theorem execEccUncorr_same (a0 : Fin 65536) (s : State) :
    ∃ t, execEccUncorr a0 s = .next t ∧ Same 67118096 s t := by
  delta execEccUncorr
  repeat' (first
    | refine ⟨_, rfl, ?_⟩
    | with_reducible exact Same.refl _ _
    | with_reducible assumption
    | ((with_reducible apply Same.step ?_ (eccBad_same _ _) ?_); on_goal 1 => rfl)
    | (extract_lets +onlyGivenNames x; (with_reducible apply Same.cut x ?_ ?_); (on_goal 1 => (unfold x; clear x)); (on_goal 2 => (intro hx; clear_value x)))
    | (extract_lets +onlyGivenNames x; clear_value x)
    | (extract_lets +onlyGivenNames x; unfold x; clear x)
    | split)

theorem execEvent_same (a0 : LaneIx) (a1 : EventMsg) (a2 : CycIx) (s : State) :
    ∃ t, execEvent a0 a1 a2 s = .next t ∧ Same 141098398852118 s t := by
  delta execEvent
  repeat' (first
    | refine ⟨_, rfl, ?_⟩
    | with_reducible exact Same.refl _ _
    | with_reducible assumption
    | ((with_reducible apply Same.step ?_ (laneTurns_same _ _) ?_); on_goal 1 => rfl)
    | ((with_reducible apply Same.step ?_ (atCyc_same _ _) ?_); on_goal 1 => rfl)
    | ((with_reducible apply Same.step ?_ (eventIn_same _ _ _) ?_); on_goal 1 => rfl)
    | (extract_lets +onlyGivenNames x; (with_reducible apply Same.cut x ?_ ?_); (on_goal 1 => (unfold x; clear x)); (on_goal 2 => (intro hx; clear_value x)))
    | (extract_lets +onlyGivenNames x; clear_value x)
    | (extract_lets +onlyGivenNames x; unfold x; clear x)
    | split)

theorem execEvents_same (a0 : EventsMsg) (s : State) :
    ∃ t, execEvents a0 s = .next t ∧ Same 17179877392 s t := by
  delta execEvents
  repeat' (first
    | refine ⟨_, rfl, ?_⟩
    | with_reducible exact Same.refl _ _
    | with_reducible assumption
    | ((with_reducible apply Same.step ?_ (eventsTake_same _ _) ?_); on_goal 1 => rfl)
    | (extract_lets +onlyGivenNames x; (with_reducible apply Same.cut x ?_ ?_); (on_goal 1 => (unfold x; clear x)); (on_goal 2 => (intro hx; clear_value x)))
    | (extract_lets +onlyGivenNames x; clear_value x)
    | (extract_lets +onlyGivenNames x; unfold x; clear x)
    | split)

theorem execFaultInject_same (a0 : Master) (a1 : SrcIx) (a2 : Fin 64) (a3 : BitVec 24) (s : State) :
    ∃ t, execFaultInject a0 a1 a2 a3 s = .next t ∧ Same 197360932093946 s t := by
  delta execFaultInject
  repeat' (first
    | refine ⟨_, rfl, ?_⟩
    | with_reducible exact Same.refl _ _
    | with_reducible assumption
    | ((with_reducible apply Same.step ?_ (injectWrites_same _ _ _ _ _) ?_); on_goal 1 => rfl)
    | (extract_lets +onlyGivenNames x; (with_reducible apply Same.cut x ?_ ?_); (on_goal 1 => (unfold x; clear x)); (on_goal 2 => (intro hx; clear_value x)))
    | (extract_lets +onlyGivenNames x; clear_value x)
    | (extract_lets +onlyGivenNames x; unfold x; clear x)
    | split)

theorem execFaultIntake_same (s : State) :
    ∃ t, execFaultIntake s = .next t ∧ Same 184163973970970 s t := by
  delta execFaultIntake
  repeat' (first
    | refine ⟨_, rfl, ?_⟩
    | with_reducible exact Same.refl _ _
    | with_reducible assumption
    | ((with_reducible apply Same.step ?_ (intake_same _) ?_); on_goal 1 => rfl)
    | ((with_reducible apply Same.step ?_ (smbEval_same _) ?_); on_goal 1 => rfl)
    | (extract_lets +onlyGivenNames x; (with_reducible apply Same.cut x ?_ ?_); (on_goal 1 => (unfold x; clear x)); (on_goal 2 => (intro hx; clear_value x)))
    | (extract_lets +onlyGivenNames x; clear_value x)
    | (extract_lets +onlyGivenNames x; unfold x; clear x)
    | split)

theorem execFaults_same (s : State) :
    ∃ t, execFaults s = .next t ∧ Same 140737488355328 s t := by
  delta execFaults
  repeat' (first
    | refine ⟨_, rfl, ?_⟩
    | with_reducible exact Same.refl _ _
    | with_reducible assumption
    | ((with_reducible apply Same.step ?_ (smbAnswer_same _ _ _ _) ?_); on_goal 1 => rfl)
    | (extract_lets +onlyGivenNames x; (with_reducible apply Same.cut x ?_ ?_); (on_goal 1 => (unfold x; clear x)); (on_goal 2 => (intro hx; clear_value x)))
    | (extract_lets +onlyGivenNames x; clear_value x)
    | (extract_lets +onlyGivenNames x; unfold x; clear x)
    | split)

theorem execFence_same (a0 : CoreIx) (s : State) :
    ∃ t, execFence a0 s = .next t ∧ Same 197360932093946 s t := by
  delta execFence
  repeat' (first
    | refine ⟨_, rfl, ?_⟩
    | with_reducible exact Same.refl _ _
    | with_reducible assumption
    | ((with_reducible apply Same.step ?_ (seqOp_same _ _ _) ?_); on_goal 1 => rfl)
    | (extract_lets +onlyGivenNames x; (with_reducible apply Same.cut x ?_ ?_); (on_goal 1 => (unfold x; clear x)); (on_goal 2 => (intro hx; clear_value x)))
    | (extract_lets +onlyGivenNames x; clear_value x)
    | (extract_lets +onlyGivenNames x; unfold x; clear x)
    | split)

theorem execFenceClear_same (a0 : SrcIx) (s : State) :
    ∃ t, execFenceClear a0 s = .next t ∧ Same 145504903602194 s t := by
  delta execFenceClear
  repeat' (first
    | refine ⟨_, rfl, ?_⟩
    | with_reducible exact Same.refl _ _
    | with_reducible assumption
    | ((with_reducible apply Same.step ?_ (fenceClearRun_same _ _) ?_); on_goal 1 => rfl)
    | ((with_reducible apply Same.step ?_ (smbEval_same _) ?_); on_goal 1 => rfl)
    | (extract_lets +onlyGivenNames x; (with_reducible apply Same.cut x ?_ ?_); (on_goal 1 => (unfold x; clear x)); (on_goal 2 => (intro hx; clear_value x)))
    | (extract_lets +onlyGivenNames x; clear_value x)
    | (extract_lets +onlyGivenNames x; unfold x; clear x)
    | split)

theorem execFences_same (s : State) :
    ∃ t, execFences s = .next t ∧ Same 140737488355328 s t := by
  delta execFences
  repeat' (first
    | refine ⟨_, rfl, ?_⟩
    | with_reducible exact Same.refl _ _
    | with_reducible assumption
    | ((with_reducible apply Same.step ?_ (smbAnswer_same _ _ _ _) ?_); on_goal 1 => rfl)
    | (extract_lets +onlyGivenNames x; (with_reducible apply Same.cut x ?_ ?_); (on_goal 1 => (unfold x; clear x)); (on_goal 2 => (intro hx; clear_value x)))
    | (extract_lets +onlyGivenNames x; clear_value x)
    | (extract_lets +onlyGivenNames x; unfold x; clear x)
    | split)

theorem execFirstErrorRearm_same (a0 : Master) (s : State) :
    ∃ t, execFirstErrorRearm a0 s = .next t ∧ Same 197360932093690 s t := by
  delta execFirstErrorRearm
  repeat' (first
    | refine ⟨_, rfl, ?_⟩
    | with_reducible exact Same.refl _ _
    | with_reducible assumption
    | ((with_reducible apply Same.step ?_ (regPut_same _ _ _ _) ?_); on_goal 1 => rfl)
    | (extract_lets +onlyGivenNames x; (with_reducible apply Same.cut x ?_ ?_); (on_goal 1 => (unfold x; clear x)); (on_goal 2 => (intro hx; clear_value x)))
    | (extract_lets +onlyGivenNames x; clear_value x)
    | (extract_lets +onlyGivenNames x; unfold x; clear x)
    | split)

theorem execFlush_same (a0 : Master) (a1 : RingIx) (s : State) :
    ∃ t, execFlush a0 a1 s = .next t ∧ Same 197360932093690 s t := by
  delta execFlush
  repeat' (first
    | refine ⟨_, rfl, ?_⟩
    | with_reducible exact Same.refl _ _
    | with_reducible assumption
    | ((with_reducible apply Same.step ?_ (regPut_same _ _ _ _) ?_); on_goal 1 => rfl)
    | (extract_lets +onlyGivenNames x; (with_reducible apply Same.cut x ?_ ?_); (on_goal 1 => (unfold x; clear x)); (on_goal 2 => (intro hx; clear_value x)))
    | (extract_lets +onlyGivenNames x; clear_value x)
    | (extract_lets +onlyGivenNames x; unfold x; clear x)
    | split)

theorem execFodDivCommit_same (a0 : Master) (a1 : FodIx) (a2 : DivField) (a3 : ℕ) (a4 : CycIx) (s : State) :
    ∃ t, execFodDivCommit a0 a1 a2 a3 a4 s = .next t ∧ Same 197360932093694 s t := by
  delta execFodDivCommit
  repeat' (first
    | refine ⟨_, rfl, ?_⟩
    | with_reducible exact Same.refl _ _
    | with_reducible assumption
    | ((with_reducible apply Same.step ?_ (putM_same _ _ _ _ _) ?_); on_goal 1 => rfl)
    | ((with_reducible apply Same.step ?_ (atCyc_same _ _) ?_); on_goal 1 => rfl)
    | (extract_lets +onlyGivenNames x; (with_reducible apply Same.cut x ?_ ?_); (on_goal 1 => (unfold x; clear x)); (on_goal 2 => (intro hx; clear_value x)))
    | (extract_lets +onlyGivenNames x; clear_value x)
    | (extract_lets +onlyGivenNames x; unfold x; clear x)
    | split)

theorem execFodGroupWake_same (a0 : Fin 16) (s : State) :
    ∃ t, execFodGroupWake a0 s = .next t ∧ Same 536870912 s t := by
  delta execFodGroupWake
  repeat' (first
    | refine ⟨_, rfl, ?_⟩
    | with_reducible exact Same.refl _ _
    | with_reducible assumption
    | ((with_reducible apply Same.step ?_ (groupWake_same _ _) ?_); on_goal 1 => rfl)
    | (extract_lets +onlyGivenNames x; (with_reducible apply Same.cut x ?_ ?_); (on_goal 1 => (unfold x; clear x)); (on_goal 2 => (intro hx; clear_value x)))
    | (extract_lets +onlyGivenNames x; clear_value x)
    | (extract_lets +onlyGivenNames x; unfold x; clear x)
    | split)

theorem execFodInselWrite_same (a0 : Master) (a1 : FodIx) (a2 : ScIx) (a3 : Bool) (a4 : CycIx) (s : State) :
    ∃ t, execFodInselWrite a0 a1 a2 a3 a4 s = .next t ∧ Same 197360932093694 s t := by
  delta execFodInselWrite
  repeat' (first
    | refine ⟨_, rfl, ?_⟩
    | with_reducible exact Same.refl _ _
    | with_reducible assumption
    | ((with_reducible apply Same.step ?_ (regPutM_same _ _ _ _ _) ?_); on_goal 1 => rfl)
    | ((with_reducible apply Same.step ?_ (atCyc_same _ _) ?_); on_goal 1 => rfl)
    | (extract_lets +onlyGivenNames x; (with_reducible apply Same.cut x ?_ ?_); (on_goal 1 => (unfold x; clear x)); (on_goal 2 => (intro hx; clear_value x)))
    | (extract_lets +onlyGivenNames x; clear_value x)
    | (extract_lets +onlyGivenNames x; unfold x; clear x)
    | split)

theorem execFodSlewEnd_same (a0 : FodIx) (s : State) :
    ∃ t, execFodSlewEnd a0 s = .next t ∧ Same 140754669346832 s t := by
  delta execFodSlewEnd
  repeat' (first
    | refine ⟨_, rfl, ?_⟩
    | with_reducible exact Same.refl _ _
    | with_reducible assumption
    | ((with_reducible apply Same.step ?_ (slewFinish_same _ _) ?_); on_goal 1 => rfl)
    | (extract_lets +onlyGivenNames x; (with_reducible apply Same.cut x ?_ ?_); (on_goal 1 => (unfold x; clear x)); (on_goal 2 => (intro hx; clear_value x)))
    | (extract_lets +onlyGivenNames x; clear_value x)
    | (extract_lets +onlyGivenNames x; unfold x; clear x)
    | split)

theorem execFodStart_same (a0 : FodIx) (a1 : CycIx) (s : State) :
    ∃ t, execFodStart a0 a1 s = .next t ∧ Same 140754669346836 s t := by
  delta execFodStart
  repeat' (first
    | refine ⟨_, rfl, ?_⟩
    | with_reducible exact Same.refl _ _
    | with_reducible assumption
    | ((with_reducible apply Same.step ?_ (fodBegin_same _ _) ?_); on_goal 1 => rfl)
    | ((with_reducible apply Same.step ?_ (atCyc_same _ _) ?_); on_goal 1 => rfl)
    | (extract_lets +onlyGivenNames x; (with_reducible apply Same.cut x ?_ ?_); (on_goal 1 => (unfold x; clear x)); (on_goal 2 => (intro hx; clear_value x)))
    | (extract_lets +onlyGivenNames x; clear_value x)
    | (extract_lets +onlyGivenNames x; unfold x; clear x)
    | split)

theorem execFwd_same (a0 : FwdMsg) (s : State) :
    ∃ t, execFwd a0 s = .next t ∧ Same 197360932093690 s t := by
  delta execFwd
  repeat' (first
    | refine ⟨_, rfl, ?_⟩
    | with_reducible exact Same.refl _ _
    | with_reducible assumption
    | ((with_reducible apply Same.step ?_ (fwdTake_same _ _) ?_); on_goal 1 => rfl)
    | (extract_lets +onlyGivenNames x; (with_reducible apply Same.cut x ?_ ?_); (on_goal 1 => (unfold x; clear x)); (on_goal 2 => (intro hx; clear_value x)))
    | (extract_lets +onlyGivenNames x; clear_value x)
    | (extract_lets +onlyGivenNames x; unfold x; clear x)
    | split)

theorem execGangAt_same (a0 : CoreIx) (a1 : CycIx) (s : State) :
    ∃ t, execGangAt a0 a1 s = .next t ∧ Same 197360932093950 s t := by
  delta execGangAt
  repeat' (first
    | refine ⟨_, rfl, ?_⟩
    | with_reducible exact Same.refl _ _
    | with_reducible assumption
    | ((with_reducible apply Same.step ?_ (atCyc_same _ _) ?_); on_goal 1 => rfl)
    | ((with_reducible apply Same.step ?_ (seqOp_same _ _ _) ?_); on_goal 1 => rfl)
    | (extract_lets +onlyGivenNames x; (with_reducible apply Same.cut x ?_ ?_); (on_goal 1 => (unfold x; clear x)); (on_goal 2 => (intro hx; clear_value x)))
    | (extract_lets +onlyGivenNames x; clear_value x)
    | (extract_lets +onlyGivenNames x; unfold x; clear x)
    | split)

theorem execGenSwitch_same (a0 : Master) (s : State) :
    ∃ t, execGenSwitch a0 s = .next t ∧ Same 197360932093690 s t := by
  delta execGenSwitch
  repeat' (first
    | refine ⟨_, rfl, ?_⟩
    | with_reducible exact Same.refl _ _
    | with_reducible assumption
    | ((with_reducible apply Same.step ?_ (regPut_same _ _ _ _) ?_); on_goal 1 => rfl)
    | (extract_lets +onlyGivenNames x; (with_reducible apply Same.cut x ?_ ?_); (on_goal 1 => (unfold x; clear x)); (on_goal 2 => (intro hx; clear_value x)))
    | (extract_lets +onlyGivenNames x; clear_value x)
    | (extract_lets +onlyGivenNames x; unfold x; clear x)
    | split)

theorem execHalt_same (a0 : CoreIx) (s : State) :
    ∃ t, execHalt a0 s = .next t ∧ Same 197360932093946 s t := by
  delta execHalt
  repeat' (first
    | refine ⟨_, rfl, ?_⟩
    | with_reducible exact Same.refl _ _
    | with_reducible assumption
    | ((with_reducible apply Same.step ?_ (seqOp_same _ _ _) ?_); on_goal 1 => rfl)
    | (extract_lets +onlyGivenNames x; (with_reducible apply Same.cut x ?_ ?_); (on_goal 1 => (unfold x; clear x)); (on_goal 2 => (intro hx; clear_value x)))
    | (extract_lets +onlyGivenNames x; clear_value x)
    | (extract_lets +onlyGivenNames x; unfold x; clear x)
    | split)

theorem execHandover_same (s : State) :
    ∃ t, execHandover s = .next t ∧ Same 145234319581202 s t := by
  delta execHandover
  repeat' (first
    | refine ⟨_, rfl, ?_⟩
    | with_reducible exact Same.refl _ _
    | with_reducible assumption
    | ((with_reducible apply Same.step ?_ (smbEval_same _) ?_); on_goal 1 => rfl)
    | ((with_reducible apply Same.step ?_ (handoverTake_same _) ?_); on_goal 1 => rfl)
    | (extract_lets +onlyGivenNames x; (with_reducible apply Same.cut x ?_ ?_); (on_goal 1 => (unfold x; clear x)); (on_goal 2 => (intro hx; clear_value x)))
    | (extract_lets +onlyGivenNames x; clear_value x)
    | (extract_lets +onlyGivenNames x; unfold x; clear x)
    | split)

theorem execHoldExpired_same (s : State) :
    ∃ t, execHoldExpired s = .next t ∧ Same 12304 s t := by
  delta execHoldExpired
  repeat' (first
    | refine ⟨_, rfl, ?_⟩
    | with_reducible exact Same.refl _ _
    | with_reducible assumption
    | ((with_reducible apply Same.step ?_ (holdEnd_same _) ?_); on_goal 1 => rfl)
    | (extract_lets +onlyGivenNames x; (with_reducible apply Same.cut x ?_ ?_); (on_goal 1 => (unfold x; clear x)); (on_goal 2 => (intro hx; clear_value x)))
    | (extract_lets +onlyGivenNames x; clear_value x)
    | (extract_lets +onlyGivenNames x; unfold x; clear x)
    | split)

theorem execHopAt_same (a0 : CoreIx) (a1 : CycIx) (s : State) :
    ∃ t, execHopAt a0 a1 s = .next t ∧ Same 197360932093950 s t := by
  delta execHopAt
  repeat' (first
    | refine ⟨_, rfl, ?_⟩
    | with_reducible exact Same.refl _ _
    | with_reducible assumption
    | ((with_reducible apply Same.step ?_ (atCyc_same _ _) ?_); on_goal 1 => rfl)
    | ((with_reducible apply Same.step ?_ (seqOp_same _ _ _) ?_); on_goal 1 => rfl)
    | (extract_lets +onlyGivenNames x; (with_reducible apply Same.cut x ?_ ?_); (on_goal 1 => (unfold x; clear x)); (on_goal 2 => (intro hx; clear_value x)))
    | (extract_lets +onlyGivenNames x; clear_value x)
    | (extract_lets +onlyGivenNames x; unfold x; clear x)
    | split)

theorem execHopEntryCommit_same (a0 : Master) (a1 : FodIx) (a2 : Fin 16) (a3 : HopFields) (s : State) :
    ∃ t, execHopEntryCommit a0 a1 a2 a3 s = .next t ∧ Same 197360932093690 s t := by
  delta execHopEntryCommit
  repeat' (first
    | refine ⟨_, rfl, ?_⟩
    | with_reducible exact Same.refl _ _
    | with_reducible assumption
    | ((with_reducible apply Same.step ?_ (putHop_same _ _ _ _) ?_); on_goal 1 => rfl)
    | (extract_lets +onlyGivenNames x; (with_reducible apply Same.cut x ?_ ?_); (on_goal 1 => (unfold x; clear x)); (on_goal 2 => (intro hx; clear_value x)))
    | (extract_lets +onlyGivenNames x; clear_value x)
    | (extract_lets +onlyGivenNames x; unfold x; clear x)
    | split)

theorem execHopGo_same (a0 : Master) (a1 : FodIx) (a2 : Fin 16) (a3 : CycIx) (s : State) :
    ∃ t, execHopGo a0 a1 a2 a3 s = .next t ∧ Same 197360932093694 s t := by
  delta execHopGo
  repeat' (first
    | refine ⟨_, rfl, ?_⟩
    | with_reducible exact Same.refl _ _
    | with_reducible assumption
    | ((with_reducible apply Same.step ?_ (regPutM_same _ _ _ _ _) ?_); on_goal 1 => rfl)
    | ((with_reducible apply Same.step ?_ (atCyc_same _ _) ?_); on_goal 1 => rfl)
    | (extract_lets +onlyGivenNames x; (with_reducible apply Same.cut x ?_ ?_); (on_goal 1 => (unfold x; clear x)); (on_goal 2 => (intro hx; clear_value x)))
    | (extract_lets +onlyGivenNames x; clear_value x)
    | (extract_lets +onlyGivenNames x; unfold x; clear x)
    | split)

theorem execHopRateRelease_same (a0 : FodIx) (a1 : CycIx) (s : State) :
    ∃ t, execHopRateRelease a0 a1 s = .next t ∧ Same 140754669346836 s t := by
  delta execHopRateRelease
  repeat' (first
    | refine ⟨_, rfl, ?_⟩
    | with_reducible exact Same.refl _ _
    | with_reducible assumption
    | ((with_reducible apply Same.step ?_ (hopRelease_same _ _ _) ?_); on_goal 1 => rfl)
    | ((with_reducible apply Same.step ?_ (atCyc_same _ _) ?_); on_goal 1 => rfl)
    | (extract_lets +onlyGivenNames x; (with_reducible apply Same.cut x ?_ ?_); (on_goal 1 => (unfold x; clear x)); (on_goal 2 => (intro hx; clear_value x)))
    | (extract_lets +onlyGivenNames x; clear_value x)
    | (extract_lets +onlyGivenNames x; unfold x; clear x)
    | split)

theorem execHopReloadDone_same (a0 : FodIx) (a1 : CycIx) (s : State) :
    ∃ t, execHopReloadDone a0 a1 s = .next t ∧ Same 140754669346836 s t := by
  delta execHopReloadDone
  repeat' (first
    | refine ⟨_, rfl, ?_⟩
    | with_reducible exact Same.refl _ _
    | with_reducible assumption
    | ((with_reducible apply Same.step ?_ (hopRelease_same _ _ _) ?_); on_goal 1 => rfl)
    | ((with_reducible apply Same.step ?_ (setFod_same _ _ _) ?_); on_goal 1 => rfl)
    | ((with_reducible apply Same.step ?_ (atCyc_same _ _) ?_); on_goal 1 => rfl)
    | (extract_lets +onlyGivenNames x; (with_reducible apply Same.cut x ?_ ?_); (on_goal 1 => (unfold x; clear x)); (on_goal 2 => (intro hx; clear_value x)))
    | (extract_lets +onlyGivenNames x; clear_value x)
    | (extract_lets +onlyGivenNames x; unfold x; clear x)
    | split)

theorem execIdent_same (s : State) :
    ∃ t, execIdent s = .next t ∧ Same 140737488355328 s t := by
  delta execIdent
  repeat' (first
    | refine ⟨_, rfl, ?_⟩
    | with_reducible exact Same.refl _ _
    | with_reducible assumption
    | ((with_reducible apply Same.step ?_ (smbAnswer_same _ _ _ _) ?_); on_goal 1 => rfl)
    | (extract_lets +onlyGivenNames x; (with_reducible apply Same.cut x ?_ ?_); (on_goal 1 => (unfold x; clear x)); (on_goal 2 => (intro hx; clear_value x)))
    | (extract_lets +onlyGivenNames x; clear_value x)
    | (extract_lets +onlyGivenNames x; unfold x; clear x)
    | split)

theorem execImage_same (a0 : ImageMsg) (a1 : Bool) (s : State) :
    ∃ t, execImage a0 a1 s = .next t ∧ Same 17179869184 s t := by
  delta execImage
  repeat' (first
    | refine ⟨_, rfl, ?_⟩
    | with_reducible exact Same.refl _ _
    | with_reducible assumption
    | ((with_reducible apply Same.step ?_ (imageTake_same _ _ _) ?_); on_goal 1 => rfl)
    | (extract_lets +onlyGivenNames x; (with_reducible apply Same.cut x ?_ ?_); (on_goal 1 => (unfold x; clear x)); (on_goal 2 => (intro hx; clear_value x)))
    | (extract_lets +onlyGivenNames x; clear_value x)
    | (extract_lets +onlyGivenNames x; unfold x; clear x)
    | split)

theorem execImageVerifyDone_same (a0 : CoreIx) (s : State) :
    ∃ t, execImageVerifyDone a0 s = .next t ∧ Same 1099511635984 s t := by
  delta execImageVerifyDone
  repeat' (first
    | refine ⟨_, rfl, ?_⟩
    | with_reducible exact Same.refl _ _
    | with_reducible assumption
    | ((with_reducible apply Same.step ?_ (verifyEnd_same _ _) ?_); on_goal 1 => rfl)
    | (extract_lets +onlyGivenNames x; (with_reducible apply Same.cut x ?_ ?_); (on_goal 1 => (unfold x; clear x)); (on_goal 2 => (intro hx; clear_value x)))
    | (extract_lets +onlyGivenNames x; clear_value x)
    | (extract_lets +onlyGivenNames x; unfold x; clear x)
    | split)

theorem execIngressAgeRetire_same (a0 : BitVec 16) (a1 : Bool) (a2 : CycIx) (s : State) :
    ∃ t, execIngressAgeRetire a0 a1 a2 s = .next t ∧ Same 141029650998292 s t := by
  delta execIngressAgeRetire
  repeat' (first
    | refine ⟨_, rfl, ?_⟩
    | with_reducible exact Same.refl _ _
    | with_reducible assumption
    | ((with_reducible apply Same.step ?_ (atCyc_same _ _) ?_); on_goal 1 => rfl)
    | ((with_reducible apply Same.step ?_ (ageRetire_same _ _ _) ?_); on_goal 1 => rfl)
    | (extract_lets +onlyGivenNames x; (with_reducible apply Same.cut x ?_ ?_); (on_goal 1 => (unfold x; clear x)); (on_goal 2 => (intro hx; clear_value x)))
    | (extract_lets +onlyGivenNames x; clear_value x)
    | (extract_lets +onlyGivenNames x; unfold x; clear x)
    | split)

theorem execInputInRange_same (a0 : Bool) (s : State) :
    ∃ t, execInputInRange a0 s = .next t ∧ Same 2199023255552 s t := by
  delta execInputInRange
  repeat' (first
    | refine ⟨_, rfl, ?_⟩
    | with_reducible exact Same.refl _ _
    | with_reducible assumption
    | ((with_reducible apply Same.step ?_ (chargeRun_same _) ?_); on_goal 1 => rfl)
    | (extract_lets +onlyGivenNames x; (with_reducible apply Same.cut x ?_ ?_); (on_goal 1 => (unfold x; clear x)); (on_goal 2 => (intro hx; clear_value x)))
    | (extract_lets +onlyGivenNames x; clear_value x)
    | (extract_lets +onlyGivenNames x; unfold x; clear x)
    | split)

theorem execIrigInFrame_same (a0 : Fin 2) (a1 : IrigFrame) (s : State) :
    ∃ t, execIrigInFrame a0 a1 s = .next t ∧ Same 401424 s t := by
  delta execIrigInFrame
  repeat' (first
    | refine ⟨_, rfl, ?_⟩
    | with_reducible exact Same.refl _ _
    | with_reducible assumption
    | ((with_reducible apply Same.step ?_ (irigIn_same _ _ _) ?_); on_goal 1 => rfl)
    | (extract_lets +onlyGivenNames x; (with_reducible apply Same.cut x ?_ ?_); (on_goal 1 => (unfold x; clear x)); (on_goal 2 => (intro hx; clear_value x)))
    | (extract_lets +onlyGivenNames x; clear_value x)
    | (extract_lets +onlyGivenNames x; unfold x; clear x)
    | split)

theorem execJalr_same (a0 : CoreIx) (s : State) :
    ∃ t, execJalr a0 s = .next t ∧ Same 197360932093946 s t := by
  delta execJalr
  repeat' (first
    | refine ⟨_, rfl, ?_⟩
    | with_reducible exact Same.refl _ _
    | with_reducible assumption
    | ((with_reducible apply Same.step ?_ (seqOp_same _ _ _) ?_); on_goal 1 => rfl)
    | (extract_lets +onlyGivenNames x; (with_reducible apply Same.cut x ?_ ?_); (on_goal 1 => (unfold x; clear x)); (on_goal 2 => (intro hx; clear_value x)))
    | (extract_lets +onlyGivenNames x; clear_value x)
    | (extract_lets +onlyGivenNames x; unfold x; clear x)
    | split)

theorem execJr_same (a0 : CoreIx) (s : State) :
    ∃ t, execJr a0 s = .next t ∧ Same 197360932093946 s t := by
  delta execJr
  repeat' (first
    | refine ⟨_, rfl, ?_⟩
    | with_reducible exact Same.refl _ _
    | with_reducible assumption
    | ((with_reducible apply Same.step ?_ (seqOp_same _ _ _) ?_); on_goal 1 => rfl)
    | (extract_lets +onlyGivenNames x; (with_reducible apply Same.cut x ?_ ?_); (on_goal 1 => (unfold x; clear x)); (on_goal 2 => (intro hx; clear_value x)))
    | (extract_lets +onlyGivenNames x; clear_value x)
    | (extract_lets +onlyGivenNames x; unfold x; clear x)
    | split)

theorem execLaneDown_same (a0 : LaneIx) (a1 : Bool) (s : State) :
    ∃ t, execLaneDown a0 a1 s = .next t ∧ Same 1056784 s t := by
  delta execLaneDown
  repeat' (first
    | refine ⟨_, rfl, ?_⟩
    | with_reducible exact Same.refl _ _
    | with_reducible assumption
    | ((with_reducible apply Same.step ?_ (lockLost_same _ _ _) ?_); on_goal 1 => rfl)
    | (extract_lets +onlyGivenNames x; (with_reducible apply Same.cut x ?_ ?_); (on_goal 1 => (unfold x; clear x)); (on_goal 2 => (intro hx; clear_value x)))
    | (extract_lets +onlyGivenNames x; clear_value x)
    | (extract_lets +onlyGivenNames x; unfold x; clear x)
    | split)

theorem execLdb_same (a0 : CoreIx) (a1 : Bool) (s : State) :
    ∃ t, execLdb a0 a1 s = .next t ∧ Same 197360932093946 s t := by
  delta execLdb
  repeat' (first
    | refine ⟨_, rfl, ?_⟩
    | with_reducible exact Same.refl _ _
    | with_reducible assumption
    | ((with_reducible apply Same.step ?_ (seqIssue_same _ _ _ _) ?_); on_goal 1 => rfl)
    | (extract_lets +onlyGivenNames x; (with_reducible apply Same.cut x ?_ ?_); (on_goal 1 => (unfold x; clear x)); (on_goal 2 => (intro hx; clear_value x)))
    | (extract_lets +onlyGivenNames x; clear_value x)
    | (extract_lets +onlyGivenNames x; unfold x; clear x)
    | split)

theorem execLdbu_same (a0 : CoreIx) (a1 : Bool) (s : State) :
    ∃ t, execLdbu a0 a1 s = .next t ∧ Same 197360932093946 s t := by
  delta execLdbu
  repeat' (first
    | refine ⟨_, rfl, ?_⟩
    | with_reducible exact Same.refl _ _
    | with_reducible assumption
    | ((with_reducible apply Same.step ?_ (seqIssue_same _ _ _ _) ?_); on_goal 1 => rfl)
    | (extract_lets +onlyGivenNames x; (with_reducible apply Same.cut x ?_ ?_); (on_goal 1 => (unfold x; clear x)); (on_goal 2 => (intro hx; clear_value x)))
    | (extract_lets +onlyGivenNames x; clear_value x)
    | (extract_lets +onlyGivenNames x; unfold x; clear x)
    | split)

theorem execLdh_same (a0 : CoreIx) (a1 : Bool) (s : State) :
    ∃ t, execLdh a0 a1 s = .next t ∧ Same 197360932093946 s t := by
  delta execLdh
  repeat' (first
    | refine ⟨_, rfl, ?_⟩
    | with_reducible exact Same.refl _ _
    | with_reducible assumption
    | ((with_reducible apply Same.step ?_ (seqIssue_same _ _ _ _) ?_); on_goal 1 => rfl)
    | (extract_lets +onlyGivenNames x; (with_reducible apply Same.cut x ?_ ?_); (on_goal 1 => (unfold x; clear x)); (on_goal 2 => (intro hx; clear_value x)))
    | (extract_lets +onlyGivenNames x; clear_value x)
    | (extract_lets +onlyGivenNames x; unfold x; clear x)
    | split)

theorem execLdhu_same (a0 : CoreIx) (a1 : Bool) (s : State) :
    ∃ t, execLdhu a0 a1 s = .next t ∧ Same 197360932093946 s t := by
  delta execLdhu
  repeat' (first
    | refine ⟨_, rfl, ?_⟩
    | with_reducible exact Same.refl _ _
    | with_reducible assumption
    | ((with_reducible apply Same.step ?_ (seqIssue_same _ _ _ _) ?_); on_goal 1 => rfl)
    | (extract_lets +onlyGivenNames x; (with_reducible apply Same.cut x ?_ ?_); (on_goal 1 => (unfold x; clear x)); (on_goal 2 => (intro hx; clear_value x)))
    | (extract_lets +onlyGivenNames x; clear_value x)
    | (extract_lets +onlyGivenNames x; unfold x; clear x)
    | split)

theorem execLdw_same (a0 : CoreIx) (a1 : Bool) (s : State) :
    ∃ t, execLdw a0 a1 s = .next t ∧ Same 197360932093946 s t := by
  delta execLdw
  repeat' (first
    | refine ⟨_, rfl, ?_⟩
    | with_reducible exact Same.refl _ _
    | with_reducible assumption
    | ((with_reducible apply Same.step ?_ (seqIssue_same _ _ _ _) ?_); on_goal 1 => rfl)
    | (extract_lets +onlyGivenNames x; (with_reducible apply Same.cut x ?_ ?_); (on_goal 1 => (unfold x; clear x)); (on_goal 2 => (intro hx; clear_value x)))
    | (extract_lets +onlyGivenNames x; clear_value x)
    | (extract_lets +onlyGivenNames x; unfold x; clear x)
    | split)

theorem execLeapApply_same (s : State) :
    ∃ t, execLeapApply s = .next t ∧ Same 2064 s t := by
  delta execLeapApply
  repeat' (first
    | refine ⟨_, rfl, ?_⟩
    | with_reducible exact Same.refl _ _
    | with_reducible assumption
    | ((with_reducible apply Same.step ?_ (leapRun_same _) ?_); on_goal 1 => rfl)
    | (extract_lets +onlyGivenNames x; (with_reducible apply Same.cut x ?_ ?_); (on_goal 1 => (unfold x; clear x)); (on_goal 2 => (intro hx; clear_value x)))
    | (extract_lets +onlyGivenNames x; clear_value x)
    | (extract_lets +onlyGivenNames x; unfold x; clear x)
    | split)

theorem execLeapArm_same (a0 : Fin 4) (s : State) :
    ∃ t, execLeapArm a0 s = .next t ∧ Same 10256 s t := by
  delta execLeapArm
  repeat' (first
    | refine ⟨_, rfl, ?_⟩
    | with_reducible exact Same.refl _ _
    | with_reducible assumption
    | ((with_reducible apply Same.step ?_ (wb_same _ _ _ _ _) ?_); on_goal 1 => rfl)
    | ((with_reducible apply Same.step ?_ (leapFx_same _ _) ?_); on_goal 1 => rfl)
    | (extract_lets +onlyGivenNames x; (with_reducible apply Same.cut x ?_ ?_); (on_goal 1 => (unfold x; clear x)); (on_goal 2 => (intro hx; clear_value x)))
    | (extract_lets +onlyGivenNames x; clear_value x)
    | (extract_lets +onlyGivenNames x; unfold x; clear x)
    | split)

theorem execLedger_same (a0 : FodIx) (a1 : LedgerRec) (s : State) :
    ∃ t, execLedger a0 a1 s = .next t ∧ Same 17179869184 s t := by
  delta execLedger
  repeat' (first
    | refine ⟨_, rfl, ?_⟩
    | with_reducible exact Same.refl _ _
    | with_reducible assumption
    | ((with_reducible apply Same.step ?_ (ledgerTake_same _ _ _) ?_); on_goal 1 => rfl)
    | (extract_lets +onlyGivenNames x; (with_reducible apply Same.cut x ?_ ?_); (on_goal 1 => (unfold x; clear x)); (on_goal 2 => (intro hx; clear_value x)))
    | (extract_lets +onlyGivenNames x; clear_value x)
    | (extract_lets +onlyGivenNames x; unfold x; clear x)
    | split)

theorem execLockDeadlineMiss_same (a0 : ScIx) (s : State) :
    ∃ t, execLockDeadlineMiss a0 s = .next t ∧ Same 40976 s t := by
  delta execLockDeadlineMiss
  repeat' (first
    | refine ⟨_, rfl, ?_⟩
    | with_reducible exact Same.refl _ _
    | with_reducible assumption
    | ((with_reducible apply Same.step ?_ (lockMiss_same _ _) ?_); on_goal 1 => rfl)
    | (extract_lets +onlyGivenNames x; (with_reducible apply Same.cut x ?_ ?_); (on_goal 1 => (unfold x; clear x)); (on_goal 2 => (intro hx; clear_value x)))
    | (extract_lets +onlyGivenNames x; clear_value x)
    | (extract_lets +onlyGivenNames x; unfold x; clear x)
    | split)

theorem execLockFastClear_same (a0 : ScIx) (s : State) :
    ∃ t, execLockFastClear a0 s = .next t ∧ Same 32768 s t := by
  delta execLockFastClear
  repeat' (first
    | refine ⟨_, rfl, ?_⟩
    | with_reducible exact Same.refl _ _
    | with_reducible assumption
    | ((with_reducible apply Same.step ?_ (setSc_same _ _ _) ?_); on_goal 1 => rfl)
    | (extract_lets +onlyGivenNames x; (with_reducible apply Same.cut x ?_ ?_); (on_goal 1 => (unfold x; clear x)); (on_goal 2 => (intro hx; clear_value x)))
    | (extract_lets +onlyGivenNames x; clear_value x)
    | (extract_lets +onlyGivenNames x; unfold x; clear x)
    | split)

theorem execLockFastSet_same (a0 : ScIx) (s : State) :
    ∃ t, execLockFastSet a0 s = .next t ∧ Same 32768 s t := by
  delta execLockFastSet
  repeat' (first
    | refine ⟨_, rfl, ?_⟩
    | with_reducible exact Same.refl _ _
    | with_reducible assumption
    | ((with_reducible apply Same.step ?_ (setSc_same _ _ _) ?_); on_goal 1 => rfl)
    | (extract_lets +onlyGivenNames x; (with_reducible apply Same.cut x ?_ ?_); (on_goal 1 => (unfold x; clear x)); (on_goal 2 => (intro hx; clear_value x)))
    | (extract_lets +onlyGivenNames x; clear_value x)
    | (extract_lets +onlyGivenNames x; unfold x; clear x)
    | split)

theorem execLockSetRise_same (a0 : ScIx) (a1 : CycIx) (s : State) :
    ∃ t, execLockSetRise a0 a1 s = .next t ∧ Same 140754669379604 s t := by
  delta execLockSetRise
  repeat' (first
    | refine ⟨_, rfl, ?_⟩
    | with_reducible exact Same.refl _ _
    | with_reducible assumption
    | ((with_reducible apply Same.step ?_ (atCyc_same _ _) ?_); on_goal 1 => rfl)
    | ((with_reducible apply Same.step ?_ (lockRise_same _ _) ?_); on_goal 1 => rfl)
    | (extract_lets +onlyGivenNames x; (with_reducible apply Same.cut x ?_ ?_); (on_goal 1 => (unfold x; clear x)); (on_goal 2 => (intro hx; clear_value x)))
    | (extract_lets +onlyGivenNames x; clear_value x)
    | (extract_lets +onlyGivenNames x; unfold x; clear x)
    | split)

theorem execLockWrite_same (a0 : Master) (a1 : Word) (s : State) :
    ∃ t, execLockWrite a0 a1 s = .next t ∧ Same 197360932093690 s t := by
  delta execLockWrite
  repeat' (first
    | refine ⟨_, rfl, ?_⟩
    | with_reducible exact Same.refl _ _
    | with_reducible assumption
    | ((with_reducible apply Same.step ?_ (regPut_same _ _ _ _) ?_); on_goal 1 => rfl)
    | (extract_lets +onlyGivenNames x; (with_reducible apply Same.cut x ?_ ?_); (on_goal 1 => (unfold x; clear x)); (on_goal 2 => (intro hx; clear_value x)))
    | (extract_lets +onlyGivenNames x; clear_value x)
    | (extract_lets +onlyGivenNames x; unfold x; clear x)
    | split)

theorem execLossOfLock_same (a0 : ScIx) (s : State) :
    ∃ t, execLossOfLock a0 s = .next t ∧ Same 140754668265488 s t := by
  delta execLossOfLock
  repeat' (first
    | refine ⟨_, rfl, ?_⟩
    | with_reducible exact Same.refl _ _
    | with_reducible assumption
    | ((with_reducible apply Same.step ?_ (lockLoss_same _ _) ?_); on_goal 1 => rfl)
    | (extract_lets +onlyGivenNames x; (with_reducible apply Same.cut x ?_ ?_); (on_goal 1 => (unfold x; clear x)); (on_goal 2 => (intro hx; clear_value x)))
    | (extract_lets +onlyGivenNames x; clear_value x)
    | (extract_lets +onlyGivenNames x; unfold x; clear x)
    | split)

theorem execLui_same (a0 : CoreIx) (s : State) :
    ∃ t, execLui a0 s = .next t ∧ Same 197360932093946 s t := by
  delta execLui
  repeat' (first
    | refine ⟨_, rfl, ?_⟩
    | with_reducible exact Same.refl _ _
    | with_reducible assumption
    | ((with_reducible apply Same.step ?_ (seqOp_same _ _ _) ?_); on_goal 1 => rfl)
    | (extract_lets +onlyGivenNames x; (with_reducible apply Same.cut x ?_ ?_); (on_goal 1 => (unfold x; clear x)); (on_goal 2 => (intro hx; clear_value x)))
    | (extract_lets +onlyGivenNames x; clear_value x)
    | (extract_lets +onlyGivenNames x; unfold x; clear x)
    | split)

theorem execMateLaneDown_same (a0 : Fin 2) (s : State) :
    ∃ t, execMateLaneDown a0 s = .next t ∧ Same 140763258363922 s t := by
  delta execMateLaneDown
  repeat' (first
    | refine ⟨_, rfl, ?_⟩
    | with_reducible exact Same.refl _ _
    | with_reducible assumption
    | ((with_reducible apply Same.step ?_ (mateLane_same _ _ _) ?_); on_goal 1 => rfl)
    | (extract_lets +onlyGivenNames x; (with_reducible apply Same.cut x ?_ ?_); (on_goal 1 => (unfold x; clear x)); (on_goal 2 => (intro hx; clear_value x)))
    | (extract_lets +onlyGivenNames x; clear_value x)
    | (extract_lets +onlyGivenNames x; unfold x; clear x)
    | split)

theorem execMateLaneUp_same (a0 : Fin 2) (s : State) :
    ∃ t, execMateLaneUp a0 s = .next t ∧ Same 140763258363922 s t := by
  delta execMateLaneUp
  repeat' (first
    | refine ⟨_, rfl, ?_⟩
    | with_reducible exact Same.refl _ _
    | with_reducible assumption
    | ((with_reducible apply Same.step ?_ (laneGain_same _ _) ?_); on_goal 1 => rfl)
    | (extract_lets +onlyGivenNames x; (with_reducible apply Same.cut x ?_ ?_); (on_goal 1 => (unfold x; clear x)); (on_goal 2 => (intro hx; clear_value x)))
    | (extract_lets +onlyGivenNames x; clear_value x)
    | (extract_lets +onlyGivenNames x; unfold x; clear x)
    | split)

theorem execMateLineChange_same (a0 : Bool) (a1 : Bool) (s : State) :
    ∃ t, execMateLineChange a0 a1 s = .next t ∧ Same 183030098899994 s t := by
  delta execMateLineChange
  repeat' (first
    | refine ⟨_, rfl, ?_⟩
    | with_reducible exact Same.refl _ _
    | with_reducible assumption
    | ((with_reducible apply Same.step ?_ (smbEval_same _) ?_); on_goal 1 => rfl)
    | ((with_reducible apply Same.step ?_ (mateLine_same _ _ _) ?_); on_goal 1 => rfl)
    | (extract_lets +onlyGivenNames x; (with_reducible apply Same.cut x ?_ ?_); (on_goal 1 => (unfold x; clear x)); (on_goal 2 => (intro hx; clear_value x)))
    | (extract_lets +onlyGivenNames x; clear_value x)
    | (extract_lets +onlyGivenNames x; unfold x; clear x)
    | split)

theorem execMateStatusStale_same (s : State) :
    ∃ t, execMateStatusStale s = .next t ∧ Same 140763258224658 s t := by
  delta execMateStatusStale
  repeat' (first
    | refine ⟨_, rfl, ?_⟩
    | with_reducible exact Same.refl _ _
    | with_reducible assumption
    | ((with_reducible apply Same.step ?_ (statusStale_same _) ?_); on_goal 1 => rfl)
    | (extract_lets +onlyGivenNames x; (with_reducible apply Same.cut x ?_ ?_); (on_goal 1 => (unfold x; clear x)); (on_goal 2 => (intro hx; clear_value x)))
    | (extract_lets +onlyGivenNames x; clear_value x)
    | (extract_lets +onlyGivenNames x; unfold x; clear x)
    | split)

theorem execMateSync_same (a0 : Master) (a1 : Bool) (s : State) :
    ∃ t, execMateSync a0 a1 s = .next t ∧ Same 143368222942232 s t := by
  delta execMateSync
  repeat' (first
    | refine ⟨_, rfl, ?_⟩
    | with_reducible exact Same.refl _ _
    | with_reducible assumption
    | ((with_reducible apply Same.step ?_ (cmdAccess_same _ _ _ _ _ _) ?_); on_goal 1 => rfl)
    | (extract_lets +onlyGivenNames x; (with_reducible apply Same.cut x ?_ ?_); (on_goal 1 => (unfold x; clear x)); (on_goal 2 => (intro hx; clear_value x)))
    | (extract_lets +onlyGivenNames x; clear_value x)
    | (extract_lets +onlyGivenNames x; unfold x; clear x)
    | split)

theorem execMateSyncApply_same (s : State) :
    ∃ t, execMateSyncApply s = .next t ∧ Same 184164645076602 s t := by
  delta execMateSyncApply
  repeat' (first
    | refine ⟨_, rfl, ?_⟩
    | with_reducible exact Same.refl _ _
    | with_reducible assumption
    | ((with_reducible apply Same.step ?_ (smbEval_same _) ?_); on_goal 1 => rfl)
    | ((with_reducible apply Same.step ?_ (imageRun_same _) ?_); on_goal 1 => rfl)
    | (extract_lets +onlyGivenNames x; (with_reducible apply Same.cut x ?_ ?_); (on_goal 1 => (unfold x; clear x)); (on_goal 2 => (intro hx; clear_value x)))
    | (extract_lets +onlyGivenNames x; clear_value x)
    | (extract_lets +onlyGivenNames x; unfold x; clear x)
    | split)

theorem execMrstNAssert_same (s : State) :
    ∃ t, execMrstNAssert s = .next t ∧ Same 219902057117808 s t := by
  delta execMrstNAssert
  repeat' (first
    | refine ⟨_, rfl, ?_⟩
    | with_reducible exact Same.refl _ _
    | with_reducible assumption
    | ((with_reducible apply Same.step ?_ (mrstLow_same _) ?_); on_goal 1 => rfl)
    | ((with_reducible apply Same.step ?_ (smbEval_same _) ?_); on_goal 1 => rfl)
    | (extract_lets +onlyGivenNames x; (with_reducible apply Same.cut x ?_ ?_); (on_goal 1 => (unfold x; clear x)); (on_goal 2 => (intro hx; clear_value x)))
    | (extract_lets +onlyGivenNames x; clear_value x)
    | (extract_lets +onlyGivenNames x; unfold x; clear x)
    | split)

theorem execMrstNRelease_same (s : State) :
    ∃ t, execMrstNRelease s = .next t ∧ Same 144411900453906 s t := by
  delta execMrstNRelease
  repeat' (first
    | refine ⟨_, rfl, ?_⟩
    | with_reducible exact Same.refl _ _
    | with_reducible assumption
    | ((with_reducible apply Same.step ?_ (mrstHigh_same _) ?_); on_goal 1 => rfl)
    | (extract_lets +onlyGivenNames x; (with_reducible apply Same.cut x ?_ ?_); (on_goal 1 => (unfold x; clear x)); (on_goal 2 => (intro hx; clear_value x)))
    | (extract_lets +onlyGivenNames x; clear_value x)
    | (extract_lets +onlyGivenNames x; unfold x; clear x)
    | split)

theorem execMsBoundary_same (s : State) :
    ∃ t, execMsBoundary s = .next t ∧ Same 140754802454544 s t := by
  delta execMsBoundary
  repeat' (first
    | refine ⟨_, rfl, ?_⟩
    | with_reducible exact Same.refl _ _
    | with_reducible assumption
    | ((with_reducible apply Same.step ?_ (sendCkpt_same _) ?_); on_goal 1 => rfl)
    | ((with_reducible apply Same.step ?_ (ckptCheck_same _) ?_); on_goal 1 => rfl)
    | ((with_reducible apply Same.step ?_ (event_same _ _) ?_); on_goal 1 => rfl)
    | ((with_reducible apply Same.step ?_ (sealStart_same _) ?_); on_goal 1 => rfl)
    | (extract_lets +onlyGivenNames x; (with_reducible apply Same.cut x ?_ ?_); (on_goal 1 => (unfold x; clear x)); (on_goal 2 => (intro hx; clear_value x)))
    | (extract_lets +onlyGivenNames x; clear_value x)
    | (extract_lets +onlyGivenNames x; unfold x; clear x)
    | split
    | ((with_reducible apply Same.put_corrPause ?_ ?_) <;> [rfl; skip]))

theorem execMul_same (a0 : CoreIx) (s : State) :
    ∃ t, execMul a0 s = .next t ∧ Same 197360932093946 s t := by
  delta execMul
  repeat' (first
    | refine ⟨_, rfl, ?_⟩
    | with_reducible exact Same.refl _ _
    | with_reducible assumption
    | ((with_reducible apply Same.step ?_ (seqOp_same _ _ _) ?_); on_goal 1 => rfl)
    | (extract_lets +onlyGivenNames x; (with_reducible apply Same.cut x ?_ ?_); (on_goal 1 => (unfold x; clear x)); (on_goal 2 => (intro hx; clear_value x)))
    | (extract_lets +onlyGivenNames x; clear_value x)
    | (extract_lets +onlyGivenNames x; unfold x; clear x)
    | split)

theorem execMulhs_same (a0 : CoreIx) (s : State) :
    ∃ t, execMulhs a0 s = .next t ∧ Same 197360932093946 s t := by
  delta execMulhs
  repeat' (first
    | refine ⟨_, rfl, ?_⟩
    | with_reducible exact Same.refl _ _
    | with_reducible assumption
    | ((with_reducible apply Same.step ?_ (seqOp_same _ _ _) ?_); on_goal 1 => rfl)
    | (extract_lets +onlyGivenNames x; (with_reducible apply Same.cut x ?_ ?_); (on_goal 1 => (unfold x; clear x)); (on_goal 2 => (intro hx; clear_value x)))
    | (extract_lets +onlyGivenNames x; clear_value x)
    | (extract_lets +onlyGivenNames x; unfold x; clear x)
    | split)

theorem execMulhu_same (a0 : CoreIx) (s : State) :
    ∃ t, execMulhu a0 s = .next t ∧ Same 197360932093946 s t := by
  delta execMulhu
  repeat' (first
    | refine ⟨_, rfl, ?_⟩
    | with_reducible exact Same.refl _ _
    | with_reducible assumption
    | ((with_reducible apply Same.step ?_ (seqOp_same _ _ _) ?_); on_goal 1 => rfl)
    | (extract_lets +onlyGivenNames x; (with_reducible apply Same.cut x ?_ ?_); (on_goal 1 => (unfold x; clear x)); (on_goal 2 => (intro hx; clear_value x)))
    | (extract_lets +onlyGivenNames x; clear_value x)
    | (extract_lets +onlyGivenNames x; unfold x; clear x)
    | split)

theorem execNop_same (a0 : CoreIx) (a1 : Bool) (s : State) :
    ∃ t, execNop a0 a1 s = .next t ∧ Same 197360932093946 s t := by
  delta execNop
  repeat' (first
    | refine ⟨_, rfl, ?_⟩
    | with_reducible exact Same.refl _ _
    | with_reducible assumption
    | ((with_reducible apply Same.step ?_ (seqOp_same _ _ _) ?_); on_goal 1 => rfl)
    | ((with_reducible apply Same.step ?_ (seqFault_same _ _ _) ?_); on_goal 1 => rfl)
    | (extract_lets +onlyGivenNames x; (with_reducible apply Same.cut x ?_ ?_); (on_goal 1 => (unfold x; clear x)); (on_goal 2 => (intro hx; clear_value x)))
    | (extract_lets +onlyGivenNames x; clear_value x)
    | (extract_lets +onlyGivenNames x; unfold x; clear x)
    | split)

theorem execNotWarm_same (s : State) :
    ∃ t, execNotWarm s = .next t ∧ Same 8208 s t := by
  delta execNotWarm
  repeat' (first
    | refine ⟨_, rfl, ?_⟩
    | with_reducible exact Same.refl _ _
    | with_reducible assumption
    | ((with_reducible apply Same.step ?_ (raise_same _ _ _ _ _ _) ?_); on_goal 1 => rfl)
    | (extract_lets +onlyGivenNames x; (with_reducible apply Same.cut x ?_ ?_); (on_goal 1 => (unfold x; clear x)); (on_goal 2 => (intro hx; clear_value x)))
    | (extract_lets +onlyGivenNames x; clear_value x)
    | (extract_lets +onlyGivenNames x; unfold x; clear x)
    | split)

theorem execNvsLoad_same (a0 : Master) (a1 : ℕ) (a2 : CoreIx) (a3 : Bool) (s : State) :
    ∃ t, execNvsLoad a0 a1 a2 a3 s = .next t ∧ Same 143368222942232 s t := by
  delta execNvsLoad
  repeat' (first
    | refine ⟨_, rfl, ?_⟩
    | with_reducible exact Same.refl _ _
    | with_reducible assumption
    | ((with_reducible apply Same.step ?_ (cmdAccess_same _ _ _ _ _ _) ?_); on_goal 1 => rfl)
    | (extract_lets +onlyGivenNames x; (with_reducible apply Same.cut x ?_ ?_); (on_goal 1 => (unfold x; clear x)); (on_goal 2 => (intro hx; clear_value x)))
    | (extract_lets +onlyGivenNames x; clear_value x)
    | (extract_lets +onlyGivenNames x; unfold x; clear x)
    | split)

theorem execNvsLoadComplete_same (s : State) :
    ∃ t, execNvsLoadComplete s = .next t ∧ Same 250135342743162 s t := by
  delta execNvsLoadComplete
  repeat' (first
    | refine ⟨_, rfl, ?_⟩
    | with_reducible exact Same.refl _ _
    | with_reducible assumption
    | ((with_reducible apply Same.step ?_ (loadDone_same _) ?_); on_goal 1 => rfl)
    | (extract_lets +onlyGivenNames x; (with_reducible apply Same.cut x ?_ ?_); (on_goal 1 => (unfold x; clear x)); (on_goal 2 => (intro hx; clear_value x)))
    | (extract_lets +onlyGivenNames x; clear_value x)
    | (extract_lets +onlyGivenNames x; unfold x; clear x)
    | split)

theorem execNvsStore_same (a0 : Master) (a1 : ℕ) (a2 : CoreIx) (a3 : Bool) (s : State) :
    ∃ t, execNvsStore a0 a1 a2 a3 s = .next t ∧ Same 143368222942232 s t := by
  delta execNvsStore
  repeat' (first
    | refine ⟨_, rfl, ?_⟩
    | with_reducible exact Same.refl _ _
    | with_reducible assumption
    | ((with_reducible apply Same.step ?_ (cmdAccess_same _ _ _ _ _ _) ?_); on_goal 1 => rfl)
    | (extract_lets +onlyGivenNames x; (with_reducible apply Same.cut x ?_ ?_); (on_goal 1 => (unfold x; clear x)); (on_goal 2 => (intro hx; clear_value x)))
    | (extract_lets +onlyGivenNames x; clear_value x)
    | (extract_lets +onlyGivenNames x; unfold x; clear x)
    | split)

theorem execOcxoReady_same (s : State) :
    ∃ t, execOcxoReady s = .next t ∧ Same 4398046511120 s t := by
  delta execOcxoReady
  repeat' (first
    | refine ⟨_, rfl, ?_⟩
    | with_reducible exact Same.refl _ _
    | with_reducible assumption
    | ((with_reducible apply Same.step ?_ (smbEval_same _) ?_); on_goal 1 => rfl)
    | ((with_reducible apply Same.step ?_ (ovenReady_same _) ?_); on_goal 1 => rfl)
    | (extract_lets +onlyGivenNames x; (with_reducible apply Same.cut x ?_ ?_); (on_goal 1 => (unfold x; clear x)); (on_goal 2 => (intro hx; clear_value x)))
    | (extract_lets +onlyGivenNames x; clear_value x)
    | (extract_lets +onlyGivenNames x; unfold x; clear x)
    | split)

theorem execOenAt_same (a0 : CoreIx) (a1 : CycIx) (s : State) :
    ∃ t, execOenAt a0 a1 s = .next t ∧ Same 197360932093950 s t := by
  delta execOenAt
  repeat' (first
    | refine ⟨_, rfl, ?_⟩
    | with_reducible exact Same.refl _ _
    | with_reducible assumption
    | ((with_reducible apply Same.step ?_ (atCyc_same _ _) ?_); on_goal 1 => rfl)
    | ((with_reducible apply Same.step ?_ (seqOp_same _ _ _) ?_); on_goal 1 => rfl)
    | (extract_lets +onlyGivenNames x; (with_reducible apply Same.cut x ?_ ?_); (on_goal 1 => (unfold x; clear x)); (on_goal 2 => (intro hx; clear_value x)))
    | (extract_lets +onlyGivenNames x; clear_value x)
    | (extract_lets +onlyGivenNames x; unfold x; clear x)
    | split)

theorem execOr_same (a0 : CoreIx) (s : State) :
    ∃ t, execOr a0 s = .next t ∧ Same 197360932093946 s t := by
  delta execOr
  repeat' (first
    | refine ⟨_, rfl, ?_⟩
    | with_reducible exact Same.refl _ _
    | with_reducible assumption
    | ((with_reducible apply Same.step ?_ (seqOp_same _ _ _) ?_); on_goal 1 => rfl)
    | (extract_lets +onlyGivenNames x; (with_reducible apply Same.cut x ?_ ?_); (on_goal 1 => (unfold x; clear x)); (on_goal 2 => (intro hx; clear_value x)))
    | (extract_lets +onlyGivenNames x; clear_value x)
    | (extract_lets +onlyGivenNames x; unfold x; clear x)
    | split)

theorem execOrderedShutdown_same (s : State) :
    ∃ t, execOrderedShutdown s = .next t ∧ Same 140737488355324 s t := by
  delta execOrderedShutdown
  repeat' (first
    | refine ⟨_, rfl, ?_⟩
    | with_reducible exact Same.refl _ _
    | with_reducible assumption
    | ((with_reducible apply Same.step ?_ (shutdownRun_same _) ?_); on_goal 1 => rfl)
    | (extract_lets +onlyGivenNames x; (with_reducible apply Same.cut x ?_ ?_); (on_goal 1 => (unfold x; clear x)); (on_goal 2 => (intro hx; clear_value x)))
    | (extract_lets +onlyGivenNames x; clear_value x)
    | (extract_lets +onlyGivenNames x; unfold x; clear x)
    | split)

theorem execOri_same (a0 : CoreIx) (s : State) :
    ∃ t, execOri a0 s = .next t ∧ Same 197360932093946 s t := by
  delta execOri
  repeat' (first
    | refine ⟨_, rfl, ?_⟩
    | with_reducible exact Same.refl _ _
    | with_reducible assumption
    | ((with_reducible apply Same.step ?_ (seqOp_same _ _ _) ?_); on_goal 1 => rfl)
    | (extract_lets +onlyGivenNames x; (with_reducible apply Same.cut x ?_ ?_); (on_goal 1 => (unfold x; clear x)); (on_goal 2 => (intro hx; clear_value x)))
    | (extract_lets +onlyGivenNames x; clear_value x)
    | (extract_lets +onlyGivenNames x; unfold x; clear x)
    | split)

theorem execOutputDisable_same (a0 : FodIx) (s : State) :
    ∃ t, execOutputDisable a0 s = .next t ∧ Same 73744 s t := by
  delta execOutputDisable
  repeat' (first
    | refine ⟨_, rfl, ?_⟩
    | with_reducible exact Same.refl _ _
    | with_reducible assumption
    | ((with_reducible apply Same.step ?_ (driverStop_same _ _) ?_); on_goal 1 => rfl)
    | (extract_lets +onlyGivenNames x; (with_reducible apply Same.cut x ?_ ?_); (on_goal 1 => (unfold x; clear x)); (on_goal 2 => (intro hx; clear_value x)))
    | (extract_lets +onlyGivenNames x; clear_value x)
    | (extract_lets +onlyGivenNames x; unfold x; clear x)
    | split)

theorem execOutputDriverStart_same (a0 : FodIx) (s : State) :
    ∃ t, execOutputDriverStart a0 s = .next t ∧ Same 140823388823568 s t := by
  delta execOutputDriverStart
  repeat' (first
    | refine ⟨_, rfl, ?_⟩
    | with_reducible exact Same.refl _ _
    | with_reducible assumption
    | ((with_reducible apply Same.step ?_ (driverStart_same _ _) ?_); on_goal 1 => rfl)
    | (extract_lets +onlyGivenNames x; (with_reducible apply Same.cut x ?_ ?_); (on_goal 1 => (unfold x; clear x)); (on_goal 2 => (intro hx; clear_value x)))
    | (extract_lets +onlyGivenNames x; clear_value x)
    | (extract_lets +onlyGivenNames x; unfold x; clear x)
    | split)

theorem execOvenFail_same (s : State) :
    ∃ t, execOvenFail s = .next t ∧ Same 4398046519312 s t := by
  delta execOvenFail
  repeat' (first
    | refine ⟨_, rfl, ?_⟩
    | with_reducible exact Same.refl _ _
    | with_reducible assumption
    | ((with_reducible apply Same.step ?_ (smbEval_same _) ?_); on_goal 1 => rfl)
    | ((with_reducible apply Same.step ?_ (ovenLost_same _) ?_); on_goal 1 => rfl)
    | (extract_lets +onlyGivenNames x; (with_reducible apply Same.cut x ?_ ?_); (on_goal 1 => (unfold x; clear x)); (on_goal 2 => (intro hx; clear_value x)))
    | (extract_lets +onlyGivenNames x; clear_value x)
    | (extract_lets +onlyGivenNames x; unfold x; clear x)
    | split)

theorem execOwnRefresh_same (a0 : Fin 16) (s : State) :
    ∃ t, execOwnRefresh a0 s = .next t ∧ Same 140754668224512 s t := by
  delta execOwnRefresh
  repeat' (first
    | refine ⟨_, rfl, ?_⟩
    | with_reducible exact Same.refl _ _
    | with_reducible assumption
    | ((with_reducible apply Same.step ?_ (sendGroup_same _ _) ?_); on_goal 1 => rfl)
    | (extract_lets +onlyGivenNames x; (with_reducible apply Same.cut x ?_ ?_); (on_goal 1 => (unfold x; clear x)); (on_goal 2 => (intro hx; clear_value x)))
    | (extract_lets +onlyGivenNames x; clear_value x)
    | (extract_lets +onlyGivenNames x; unfold x; clear x)
    | split)

theorem execPairWaitExpiry_same (a0 : LaneIx) (a1 : BitVec 16) (a2 : Bool) (s : State) :
    ∃ t, execPairWaitExpiry a0 a1 a2 s = .next t ∧ Same 1048576 s t := by
  delta execPairWaitExpiry
  repeat' (first
    | refine ⟨_, rfl, ?_⟩
    | with_reducible exact Same.refl _ _
    | with_reducible assumption
    | ((with_reducible apply Same.step ?_ (waitEnd_same _ _ _ _) ?_); on_goal 1 => rfl)
    | (extract_lets +onlyGivenNames x; (with_reducible apply Same.cut x ?_ ?_); (on_goal 1 => (unfold x; clear x)); (on_goal 2 => (intro hx; clear_value x)))
    | (extract_lets +onlyGivenNames x; clear_value x)
    | (extract_lets +onlyGivenNames x; unfold x; clear x)
    | split)

theorem execParity_same (a0 : Fin 512) (s : State) :
    ∃ t, execParity a0 s = .next t ∧ Same 8208 s t := by
  delta execParity
  repeat' (first
    | refine ⟨_, rfl, ?_⟩
    | with_reducible exact Same.refl _ _
    | with_reducible assumption
    | ((with_reducible apply Same.step ?_ (parityBad_same _ _) ?_); on_goal 1 => rfl)
    | (extract_lets +onlyGivenNames x; (with_reducible apply Same.cut x ?_ ?_); (on_goal 1 => (unfold x; clear x)); (on_goal 2 => (intro hx; clear_value x)))
    | (extract_lets +onlyGivenNames x; clear_value x)
    | (extract_lets +onlyGivenNames x; unfold x; clear x)
    | split)

theorem execParkRelease_same (a0 : Master) (s : State) :
    ∃ t, execParkRelease a0 s = .next t ∧ Same 197360932093690 s t := by
  delta execParkRelease
  repeat' (first
    | refine ⟨_, rfl, ?_⟩
    | with_reducible exact Same.refl _ _
    | with_reducible assumption
    | ((with_reducible apply Same.step ?_ (regPut_same _ _ _ _) ?_); on_goal 1 => rfl)
    | (extract_lets +onlyGivenNames x; (with_reducible apply Same.cut x ?_ ?_); (on_goal 1 => (unfold x; clear x)); (on_goal 2 => (intro hx; clear_value x)))
    | (extract_lets +onlyGivenNames x; clear_value x)
    | (extract_lets +onlyGivenNames x; unfold x; clear x)
    | split)

theorem execPcieLinkDown_same (s : State) :
    ∃ t, execPcieLinkDown s = .next t ∧ Same 26388279074832 s t := by
  delta execPcieLinkDown
  repeat' (first
    | refine ⟨_, rfl, ?_⟩
    | with_reducible exact Same.refl _ _
    | with_reducible assumption
    | ((with_reducible apply Same.step ?_ (endpointReset_same _ _) ?_); on_goal 1 => rfl)
    | (extract_lets +onlyGivenNames x; (with_reducible apply Same.cut x ?_ ?_); (on_goal 1 => (unfold x; clear x)); (on_goal 2 => (intro hx; clear_value x)))
    | (extract_lets +onlyGivenNames x; clear_value x)
    | (extract_lets +onlyGivenNames x; unfold x; clear x)
    | split)

theorem execPcieLinkUp_same (s : State) :
    ∃ t, execPcieLinkUp s = .next t ∧ Same 184717953466368 s t := by
  delta execPcieLinkUp
  repeat' (first
    | refine ⟨_, rfl, ?_⟩
    | with_reducible exact Same.refl _ _
    | with_reducible assumption
    | ((with_reducible apply Same.step ?_ (msixFlush_same _) ?_); on_goal 1 => rfl)
    | (extract_lets +onlyGivenNames x; (with_reducible apply Same.cut x ?_ ?_); (on_goal 1 => (unfold x; clear x)); (on_goal 2 => (intro hx; clear_value x)))
    | (extract_lets +onlyGivenNames x; clear_value x)
    | (extract_lets +onlyGivenNames x; unfold x; clear x)
    | split
    | ((with_reducible apply Same.put_pcieUp ?_ ?_) <;> [rfl; skip]))

theorem execPendClear_same (a0 : Master) (a1 : SrcIx) (s : State) :
    ∃ t, execPendClear a0 a1 s = .next t ∧ Same 197360932093690 s t := by
  delta execPendClear
  repeat' (first
    | refine ⟨_, rfl, ?_⟩
    | with_reducible exact Same.refl _ _
    | with_reducible assumption
    | ((with_reducible apply Same.step ?_ (regPut_same _ _ _ _) ?_); on_goal 1 => rfl)
    | (extract_lets +onlyGivenNames x; (with_reducible apply Same.cut x ?_ ?_); (on_goal 1 => (unfold x; clear x)); (on_goal 2 => (intro hx; clear_value x)))
    | (extract_lets +onlyGivenNames x; clear_value x)
    | (extract_lets +onlyGivenNames x; unfold x; clear x)
    | split)

theorem execPerst_same (s : State) :
    ∃ t, execPerst s = .next t ∧ Same 26388279074832 s t := by
  delta execPerst
  repeat' (first
    | refine ⟨_, rfl, ?_⟩
    | with_reducible exact Same.refl _ _
    | with_reducible assumption
    | ((with_reducible apply Same.step ?_ (endpointReset_same _ _) ?_); on_goal 1 => rfl)
    | (extract_lets +onlyGivenNames x; (with_reducible apply Same.cut x ?_ ?_); (on_goal 1 => (unfold x; clear x)); (on_goal 2 => (intro hx; clear_value x)))
    | (extract_lets +onlyGivenNames x; clear_value x)
    | (extract_lets +onlyGivenNames x; unfold x; clear x)
    | split)

theorem execPhaseWalk_same (a0 : Master) (a1 : Fin 16) (a2 : ℤ) (a3 : Word) (a4 : Bool) (s : State) :
    ∃ t, execPhaseWalk a0 a1 a2 a3 a4 s = .next t ∧ Same 143368222942232 s t := by
  delta execPhaseWalk
  repeat' (first
    | refine ⟨_, rfl, ?_⟩
    | with_reducible exact Same.refl _ _
    | with_reducible assumption
    | ((with_reducible apply Same.step ?_ (cmdAccess_same _ _ _ _ _ _) ?_); on_goal 1 => rfl)
    | (extract_lets +onlyGivenNames x; (with_reducible apply Same.cut x ?_ ?_); (on_goal 1 => (unfold x; clear x)); (on_goal 2 => (intro hx; clear_value x)))
    | (extract_lets +onlyGivenNames x; clear_value x)
    | (extract_lets +onlyGivenNames x; unfold x; clear x)
    | split)

theorem execPhsAt_same (a0 : CoreIx) (a1 : CycIx) (s : State) :
    ∃ t, execPhsAt a0 a1 s = .next t ∧ Same 197360932093950 s t := by
  delta execPhsAt
  repeat' (first
    | refine ⟨_, rfl, ?_⟩
    | with_reducible exact Same.refl _ _
    | with_reducible assumption
    | ((with_reducible apply Same.step ?_ (atCyc_same _ _) ?_); on_goal 1 => rfl)
    | ((with_reducible apply Same.step ?_ (seqOp_same _ _ _) ?_); on_goal 1 => rfl)
    | (extract_lets +onlyGivenNames x; (with_reducible apply Same.cut x ?_ ?_); (on_goal 1 => (unfold x; clear x)); (on_goal 2 => (intro hx; clear_value x)))
    | (extract_lets +onlyGivenNames x; clear_value x)
    | (extract_lets +onlyGivenNames x; unfold x; clear x)
    | split)

theorem execPor_same (s : State) :
    ∃ t, execPor s = .next t ∧ Same 140737488355326 s t := by
  delta execPor
  repeat' (first
    | refine ⟨_, rfl, ?_⟩
    | with_reducible exact Same.refl _ _
    | with_reducible assumption
    | ((with_reducible apply Same.step ?_ (porRun_same _) ?_); on_goal 1 => rfl)
    | (extract_lets +onlyGivenNames x; (with_reducible apply Same.cut x ?_ ?_); (on_goal 1 => (unfold x; clear x)); (on_goal 2 => (intro hx; clear_value x)))
    | (extract_lets +onlyGivenNames x; clear_value x)
    | (extract_lets +onlyGivenNames x; unfold x; clear x)
    | split)

theorem execPortCal_same (a0 : Master) (a1 : PortIx) (a2 : Bool) (s : State) :
    ∃ t, execPortCal a0 a1 a2 s = .next t ∧ Same 143368222942232 s t := by
  delta execPortCal
  repeat' (first
    | refine ⟨_, rfl, ?_⟩
    | with_reducible exact Same.refl _ _
    | with_reducible assumption
    | ((with_reducible apply Same.step ?_ (cmdAccess_same _ _ _ _ _ _) ?_); on_goal 1 => rfl)
    | (extract_lets +onlyGivenNames x; (with_reducible apply Same.cut x ?_ ?_); (on_goal 1 => (unfold x; clear x)); (on_goal 2 => (intro hx; clear_value x)))
    | (extract_lets +onlyGivenNames x; clear_value x)
    | (extract_lets +onlyGivenNames x; unfold x; clear x)
    | split)

theorem execPortCalDefer_same (a0 : PortIx) (s : State) :
    ∃ t, execPortCalDefer a0 s = .next t ∧ Same 68719476752 s t := by
  delta execPortCalDefer
  repeat' (first
    | refine ⟨_, rfl, ?_⟩
    | with_reducible exact Same.refl _ _
    | with_reducible assumption
    | ((with_reducible apply Same.step ?_ (portCalDefer_same _ _) ?_); on_goal 1 => rfl)
    | (extract_lets +onlyGivenNames x; (with_reducible apply Same.cut x ?_ ?_); (on_goal 1 => (unfold x; clear x)); (on_goal 2 => (intro hx; clear_value x)))
    | (extract_lets +onlyGivenNames x; clear_value x)
    | (extract_lets +onlyGivenNames x; unfold x; clear x)
    | split)

theorem execPortFodWrite_same (a0 : Master) (a1 : PortIx) (a2 : FodIx) (a3 : CycIx) (s : State) :
    ∃ t, execPortFodWrite a0 a1 a2 a3 s = .next t ∧ Same 197360932093694 s t := by
  delta execPortFodWrite
  repeat' (first
    | refine ⟨_, rfl, ?_⟩
    | with_reducible exact Same.refl _ _
    | with_reducible assumption
    | ((with_reducible apply Same.step ?_ (regPutM_same _ _ _ _ _) ?_); on_goal 1 => rfl)
    | ((with_reducible apply Same.step ?_ (atCyc_same _ _) ?_); on_goal 1 => rfl)
    | (extract_lets +onlyGivenNames x; (with_reducible apply Same.cut x ?_ ?_); (on_goal 1 => (unfold x; clear x)); (on_goal 2 => (intro hx; clear_value x)))
    | (extract_lets +onlyGivenNames x; clear_value x)
    | (extract_lets +onlyGivenNames x; unfold x; clear x)
    | split)

theorem execPost_same (a0 : CoreIx) (a1 : CycIx) (s : State) :
    ∃ t, execPost a0 a1 s = .next t ∧ Same 197360932093950 s t := by
  delta execPost
  repeat' (first
    | refine ⟨_, rfl, ?_⟩
    | with_reducible exact Same.refl _ _
    | with_reducible assumption
    | ((with_reducible apply Same.step ?_ (atCyc_same _ _) ?_); on_goal 1 => rfl)
    | ((with_reducible apply Same.step ?_ (seqOp_same _ _ _) ?_); on_goal 1 => rfl)
    | (extract_lets +onlyGivenNames x; (with_reducible apply Same.cut x ?_ ?_); (on_goal 1 => (unfold x; clear x)); (on_goal 2 => (intro hx; clear_value x)))
    | (extract_lets +onlyGivenNames x; clear_value x)
    | (extract_lets +onlyGivenNames x; unfold x; clear x)
    | split)

theorem execPostedWriteLand_same (a0 : PostLand) (s : State) :
    ∃ t, execPostedWriteLand a0 s = .next t ∧ Same 179766598565882 s t := by
  delta execPostedWriteLand
  repeat' (first
    | refine ⟨_, rfl, ?_⟩
    | with_reducible exact Same.refl _ _
    | with_reducible assumption
    | ((with_reducible apply Same.step ?_ (postLandTie_same _ _ _) ?_); on_goal 1 => rfl)
    | (extract_lets +onlyGivenNames x; (with_reducible apply Same.cut x ?_ ?_); (on_goal 1 => (unfold x; clear x)); (on_goal 2 => (intro hx; clear_value x)))
    | (extract_lets +onlyGivenNames x; clear_value x)
    | (extract_lets +onlyGivenNames x; unfold x; clear x)
    | split)

theorem execPowerupCalStart_same (s : State) :
    ∃ t, execPowerupCalStart s = .next t ∧ Same 143300040369168 s t := by
  delta execPowerupCalStart
  repeat' (first
    | refine ⟨_, rfl, ?_⟩
    | with_reducible exact Same.refl _ _
    | with_reducible assumption
    | ((with_reducible apply Same.step ?_ (calPower_same _) ?_); on_goal 1 => rfl)
    | (extract_lets +onlyGivenNames x; (with_reducible apply Same.cut x ?_ ?_); (on_goal 1 => (unfold x; clear x)); (on_goal 2 => (intro hx; clear_value x)))
    | (extract_lets +onlyGivenNames x; clear_value x)
    | (extract_lets +onlyGivenNames x; unfold x; clear x)
    | split)

theorem execPpsEvent_same (s : State) :
    ∃ t, execPpsEvent s = .next t ∧ Same 143230784007186 s t := by
  delta execPpsEvent
  repeat' (first
    | refine ⟨_, rfl, ?_⟩
    | with_reducible exact Same.refl _ _
    | with_reducible assumption
    | ((with_reducible apply Same.step ?_ (ppsNext_same _) ?_); on_goal 1 => rfl)
    | (extract_lets +onlyGivenNames x; (with_reducible apply Same.cut x ?_ ?_); (on_goal 1 => (unfold x; clear x)); (on_goal 2 => (intro hx; clear_value x)))
    | (extract_lets +onlyGivenNames x; clear_value x)
    | (extract_lets +onlyGivenNames x; unfold x; clear x)
    | split)

theorem execPpsPulseEnd_same (a0 : Fin 8) (s : State) :
    ∃ t, execPpsPulseEnd a0 s = .next t ∧ Same 140737488357376 s t := by
  delta execPpsPulseEnd
  repeat' (first
    | refine ⟨_, rfl, ?_⟩
    | with_reducible exact Same.refl _ _
    | with_reducible assumption
    | ((with_reducible apply Same.step ?_ (ppsEnd_same _ _) ?_); on_goal 1 => rfl)
    | (extract_lets +onlyGivenNames x; (with_reducible apply Same.cut x ?_ ?_); (on_goal 1 => (unfold x; clear x)); (on_goal 2 => (intro hx; clear_value x)))
    | (extract_lets +onlyGivenNames x; clear_value x)
    | (extract_lets +onlyGivenNames x; unfold x; clear x)
    | split)

theorem execPrevNumberingExpiry_same (a0 : FodIx) (s : State) :
    ∃ t, execPrevNumberingExpiry a0 s = .next t ∧ Same 65536 s t := by
  delta execPrevNumberingExpiry
  repeat' (first
    | refine ⟨_, rfl, ?_⟩
    | with_reducible exact Same.refl _ _
    | with_reducible assumption
    | ((with_reducible apply Same.step ?_ (prevDrop_same _ _) ?_); on_goal 1 => rfl)
    | (extract_lets +onlyGivenNames x; (with_reducible apply Same.cut x ?_ ?_); (on_goal 1 => (unfold x; clear x)); (on_goal 2 => (intro hx; clear_value x)))
    | (extract_lets +onlyGivenNames x; clear_value x)
    | (extract_lets +onlyGivenNames x; unfold x; clear x)
    | split)

theorem execPslew_same (a0 : Master) (a1 : FodIx) (a2 : CycIx) (s : State) :
    ∃ t, execPslew a0 a1 a2 s = .next t ∧ Same 197360932093694 s t := by
  delta execPslew
  repeat' (first
    | refine ⟨_, rfl, ?_⟩
    | with_reducible exact Same.refl _ _
    | with_reducible assumption
    | ((with_reducible apply Same.step ?_ (regPutM_same _ _ _ _ _) ?_); on_goal 1 => rfl)
    | ((with_reducible apply Same.step ?_ (atCyc_same _ _) ?_); on_goal 1 => rfl)
    | (extract_lets +onlyGivenNames x; (with_reducible apply Same.cut x ?_ ?_); (on_goal 1 => (unfold x; clear x)); (on_goal 2 => (intro hx; clear_value x)))
    | (extract_lets +onlyGivenNames x; clear_value x)
    | (extract_lets +onlyGivenNames x; unfold x; clear x)
    | split)

theorem execPstep_same (a0 : Master) (a1 : FodIx) (a2 : CycIx) (s : State) :
    ∃ t, execPstep a0 a1 a2 s = .next t ∧ Same 197360932093694 s t := by
  delta execPstep
  repeat' (first
    | refine ⟨_, rfl, ?_⟩
    | with_reducible exact Same.refl _ _
    | with_reducible assumption
    | ((with_reducible apply Same.step ?_ (regPutM_same _ _ _ _ _) ?_); on_goal 1 => rfl)
    | ((with_reducible apply Same.step ?_ (atCyc_same _ _) ?_); on_goal 1 => rfl)
    | (extract_lets +onlyGivenNames x; (with_reducible apply Same.cut x ?_ ?_); (on_goal 1 => (unfold x; clear x)); (on_goal 2 => (intro hx; clear_value x)))
    | (extract_lets +onlyGivenNames x; clear_value x)
    | (extract_lets +onlyGivenNames x; unfold x; clear x)
    | split)

theorem execPstop_same (a0 : Master) (a1 : FodIx) (a2 : CycIx) (s : State) :
    ∃ t, execPstop a0 a1 a2 s = .next t ∧ Same 197360932093694 s t := by
  delta execPstop
  repeat' (first
    | refine ⟨_, rfl, ?_⟩
    | with_reducible exact Same.refl _ _
    | with_reducible assumption
    | ((with_reducible apply Same.step ?_ (regPutM_same _ _ _ _ _) ?_); on_goal 1 => rfl)
    | ((with_reducible apply Same.step ?_ (atCyc_same _ _) ?_); on_goal 1 => rfl)
    | (extract_lets +onlyGivenNames x; (with_reducible apply Same.cut x ?_ ?_); (on_goal 1 => (unfold x; clear x)); (on_goal 2 => (intro hx; clear_value x)))
    | (extract_lets +onlyGivenNames x; clear_value x)
    | (extract_lets +onlyGivenNames x; unfold x; clear x)
    | split)

theorem execQnow_same (a0 : Master) (a1 : RefIx) (s : State) :
    ∃ t, execQnow a0 a1 s = .next t ∧ Same 197360932093690 s t := by
  delta execQnow
  repeat' (first
    | refine ⟨_, rfl, ?_⟩
    | with_reducible exact Same.refl _ _
    | with_reducible assumption
    | ((with_reducible apply Same.step ?_ (regPutM_same _ _ _ _ _) ?_); on_goal 1 => rfl)
    | (extract_lets +onlyGivenNames x; (with_reducible apply Same.cut x ?_ ?_); (on_goal 1 => (unfold x; clear x)); (on_goal 2 => (intro hx; clear_value x)))
    | (extract_lets +onlyGivenNames x; clear_value x)
    | (extract_lets +onlyGivenNames x; unfold x; clear x)
    | split)

theorem execQueuedHop_same (a0 : FodIx) (s : State) :
    ∃ t, execQueuedHop a0 s = .next t ∧ Same 140754669346832 s t := by
  delta execQueuedHop
  repeat' (first
    | refine ⟨_, rfl, ?_⟩
    | with_reducible exact Same.refl _ _
    | with_reducible assumption
    | ((with_reducible apply Same.step ?_ (fodDue_same _ _ _) ?_); on_goal 1 => rfl)
    | (extract_lets +onlyGivenNames x; (with_reducible apply Same.cut x ?_ ?_); (on_goal 1 => (unfold x; clear x)); (on_goal 2 => (intro hx; clear_value x)))
    | (extract_lets +onlyGivenNames x; clear_value x)
    | (extract_lets +onlyGivenNames x; unfold x; clear x)
    | split)

theorem execQueuedOen_same (a0 : FodIx) (s : State) :
    ∃ t, execQueuedOen a0 s = .next t ∧ Same 140754669346832 s t := by
  delta execQueuedOen
  repeat' (first
    | refine ⟨_, rfl, ?_⟩
    | with_reducible exact Same.refl _ _
    | with_reducible assumption
    | ((with_reducible apply Same.step ?_ (fodDue_same _ _ _) ?_); on_goal 1 => rfl)
    | (extract_lets +onlyGivenNames x; (with_reducible apply Same.cut x ?_ ?_); (on_goal 1 => (unfold x; clear x)); (on_goal 2 => (intro hx; clear_value x)))
    | (extract_lets +onlyGivenNames x; clear_value x)
    | (extract_lets +onlyGivenNames x; unfold x; clear x)
    | split)

theorem execQueuedPhaseMove_same (a0 : FodIx) (s : State) :
    ∃ t, execQueuedPhaseMove a0 s = .next t ∧ Same 140754669346832 s t := by
  delta execQueuedPhaseMove
  repeat' (first
    | refine ⟨_, rfl, ?_⟩
    | with_reducible exact Same.refl _ _
    | with_reducible assumption
    | ((with_reducible apply Same.step ?_ (fodDue_same _ _ _) ?_); on_goal 1 => rfl)
    | (extract_lets +onlyGivenNames x; (with_reducible apply Same.cut x ?_ ?_); (on_goal 1 => (unfold x; clear x)); (on_goal 2 => (intro hx; clear_value x)))
    | (extract_lets +onlyGivenNames x; clear_value x)
    | (extract_lets +onlyGivenNames x; unfold x; clear x)
    | split)

theorem execQueuedRate_same (s : State) :
    ∃ t, execQueuedRate s = .next t ∧ Same 184166792560510 s t := by
  delta execQueuedRate
  repeat' (first
    | refine ⟨_, rfl, ?_⟩
    | with_reducible exact Same.refl _ _
    | with_reducible assumption
    | ((with_reducible apply Same.step ?_ (queuedTime_same _ _) ?_); on_goal 1 => rfl)
    | (extract_lets +onlyGivenNames x; (with_reducible apply Same.cut x ?_ ?_); (on_goal 1 => (unfold x; clear x)); (on_goal 2 => (intro hx; clear_value x)))
    | (extract_lets +onlyGivenNames x; clear_value x)
    | (extract_lets +onlyGivenNames x; unfold x; clear x)
    | split)

theorem execQueuedRetune_same (a0 : ScIx) (s : State) :
    ∃ t, execQueuedRetune a0 s = .next t ∧ Same 140754669398032 s t := by
  delta execQueuedRetune
  repeat' (first
    | refine ⟨_, rfl, ?_⟩
    | with_reducible exact Same.refl _ _
    | with_reducible assumption
    | ((with_reducible apply Same.step ?_ (retuneDue_same _ _) ?_); on_goal 1 => rfl)
    | (extract_lets +onlyGivenNames x; (with_reducible apply Same.cut x ?_ ?_); (on_goal 1 => (unfold x; clear x)); (on_goal 2 => (intro hx; clear_value x)))
    | (extract_lets +onlyGivenNames x; clear_value x)
    | (extract_lets +onlyGivenNames x; unfold x; clear x)
    | split)

theorem execQueuedSlew_same (s : State) :
    ∃ t, execQueuedSlew s = .next t ∧ Same 184166792560510 s t := by
  delta execQueuedSlew
  repeat' (first
    | refine ⟨_, rfl, ?_⟩
    | with_reducible exact Same.refl _ _
    | with_reducible assumption
    | ((with_reducible apply Same.step ?_ (queuedTime_same _ _) ?_); on_goal 1 => rfl)
    | (extract_lets +onlyGivenNames x; (with_reducible apply Same.cut x ?_ ?_); (on_goal 1 => (unfold x; clear x)); (on_goal 2 => (intro hx; clear_value x)))
    | (extract_lets +onlyGivenNames x; clear_value x)
    | (extract_lets +onlyGivenNames x; unfold x; clear x)
    | split)

theorem execQueuedSlewStop_same (s : State) :
    ∃ t, execQueuedSlewStop s = .next t ∧ Same 184166792560510 s t := by
  delta execQueuedSlewStop
  repeat' (first
    | refine ⟨_, rfl, ?_⟩
    | with_reducible exact Same.refl _ _
    | with_reducible assumption
    | ((with_reducible apply Same.step ?_ (queuedTime_same _ _) ?_); on_goal 1 => rfl)
    | (extract_lets +onlyGivenNames x; (with_reducible apply Same.cut x ?_ ?_); (on_goal 1 => (unfold x; clear x)); (on_goal 2 => (intro hx; clear_value x)))
    | (extract_lets +onlyGivenNames x; clear_value x)
    | (extract_lets +onlyGivenNames x; unfold x; clear x)
    | split)

theorem execQueuedSnap_same (a0 : CycIx) (s : State) :
    ∃ t, execQueuedSnap a0 s = .next t ∧ Same 143230784105492 s t := by
  delta execQueuedSnap
  repeat' (first
    | refine ⟨_, rfl, ?_⟩
    | with_reducible exact Same.refl _ _
    | with_reducible assumption
    | ((with_reducible apply Same.step ?_ (snapDue_same _) ?_); on_goal 1 => rfl)
    | ((with_reducible apply Same.step ?_ (atCyc_same _ _) ?_); on_goal 1 => rfl)
    | (extract_lets +onlyGivenNames x; (with_reducible apply Same.cut x ?_ ?_); (on_goal 1 => (unfold x; clear x)); (on_goal 2 => (intro hx; clear_value x)))
    | (extract_lets +onlyGivenNames x; clear_value x)
    | (extract_lets +onlyGivenNames x; unfold x; clear x)
    | split)

theorem execQueuedStep_same (s : State) :
    ∃ t, execQueuedStep s = .next t ∧ Same 184166792560510 s t := by
  delta execQueuedStep
  repeat' (first
    | refine ⟨_, rfl, ?_⟩
    | with_reducible exact Same.refl _ _
    | with_reducible assumption
    | ((with_reducible apply Same.step ?_ (queuedTime_same _ _) ?_); on_goal 1 => rfl)
    | (extract_lets +onlyGivenNames x; (with_reducible apply Same.cut x ?_ ?_); (on_goal 1 => (unfold x; clear x)); (on_goal 2 => (intro hx; clear_value x)))
    | (extract_lets +onlyGivenNames x; clear_value x)
    | (extract_lets +onlyGivenNames x; unfold x; clear x)
    | split)

theorem execRatAt_same (a0 : CoreIx) (a1 : CycIx) (s : State) :
    ∃ t, execRatAt a0 a1 s = .next t ∧ Same 197360932093950 s t := by
  delta execRatAt
  repeat' (first
    | refine ⟨_, rfl, ?_⟩
    | with_reducible exact Same.refl _ _
    | with_reducible assumption
    | ((with_reducible apply Same.step ?_ (atCyc_same _ _) ?_); on_goal 1 => rfl)
    | ((with_reducible apply Same.step ?_ (seqOp_same _ _ _) ?_); on_goal 1 => rfl)
    | (extract_lets +onlyGivenNames x; (with_reducible apply Same.cut x ?_ ?_); (on_goal 1 => (unfold x; clear x)); (on_goal 2 => (intro hx; clear_value x)))
    | (extract_lets +onlyGivenNames x; clear_value x)
    | (extract_lets +onlyGivenNames x; unfold x; clear x)
    | split)

theorem execRdreg_same (a0 : CoreIx) (a1 : CycIx) (s : State) :
    ∃ t, execRdreg a0 a1 s = .next t ∧ Same 197360932093950 s t := by
  delta execRdreg
  repeat' (first
    | refine ⟨_, rfl, ?_⟩
    | with_reducible exact Same.refl _ _
    | with_reducible assumption
    | ((with_reducible apply Same.step ?_ (atCyc_same _ _) ?_); on_goal 1 => rfl)
    | ((with_reducible apply Same.step ?_ (seqOp_same _ _ _) ?_); on_goal 1 => rfl)
    | (extract_lets +onlyGivenNames x; (with_reducible apply Same.cut x ?_ ?_); (on_goal 1 => (unfold x; clear x)); (on_goal 2 => (intro hx; clear_value x)))
    | (extract_lets +onlyGivenNames x; clear_value x)
    | (extract_lets +onlyGivenNames x; unfold x; clear x)
    | split)

theorem execReadTimeout_same (a0 : CoreIx) (s : State) :
    ∃ t, execReadTimeout a0 s = .next t ∧ Same 1099511635986 s t := by
  delta execReadTimeout
  repeat' (first
    | refine ⟨_, rfl, ?_⟩
    | with_reducible exact Same.refl _ _
    | with_reducible assumption
    | ((with_reducible apply Same.step ?_ (readLate_same _ _) ?_); on_goal 1 => rfl)
    | (extract_lets +onlyGivenNames x; (with_reducible apply Same.cut x ?_ ?_); (on_goal 1 => (unfold x; clear x)); (on_goal 2 => (intro hx; clear_value x)))
    | (extract_lets +onlyGivenNames x; clear_value x)
    | (extract_lets +onlyGivenNames x; unfold x; clear x)
    | split)

theorem execRefDisqTimer_same (a0 : RefIx) (a1 : Monitor) (s : State) :
    ∃ t, execRefDisqTimer a0 a1 s = .next t ∧ Same 139280 s t := by
  delta execRefDisqTimer
  repeat' (first
    | refine ⟨_, rfl, ?_⟩
    | with_reducible exact Same.refl _ _
    | with_reducible assumption
    | ((with_reducible apply Same.step ?_ (disqTimer_same _ _ _) ?_); on_goal 1 => rfl)
    | (extract_lets +onlyGivenNames x; (with_reducible apply Same.cut x ?_ ?_); (on_goal 1 => (unfold x; clear x)); (on_goal 2 => (intro hx; clear_value x)))
    | (extract_lets +onlyGivenNames x; clear_value x)
    | (extract_lets +onlyGivenNames x; unfold x; clear x)
    | split)

theorem execRefFreqGate_same (a0 : RefIx) (a1 : ℤ) (s : State) :
    ∃ t, execRefFreqGate a0 a1 s = .next t ∧ Same 139280 s t := by
  delta execRefFreqGate
  repeat' (first
    | refine ⟨_, rfl, ?_⟩
    | with_reducible exact Same.refl _ _
    | with_reducible assumption
    | ((with_reducible apply Same.step ?_ (freqGate_same _ _ _) ?_); on_goal 1 => rfl)
    | (extract_lets +onlyGivenNames x; (with_reducible apply Same.cut x ?_ ?_); (on_goal 1 => (unfold x; clear x)); (on_goal 2 => (intro hx; clear_value x)))
    | (extract_lets +onlyGivenNames x; clear_value x)
    | (extract_lets +onlyGivenNames x; unfold x; clear x)
    | split)

theorem execRefFreqSample_same (a0 : RefIx) (a1 : ℤ) (s : State) :
    ∃ t, execRefFreqSample a0 a1 s = .next t ∧ Same 401424 s t := by
  delta execRefFreqSample
  repeat' (first
    | refine ⟨_, rfl, ?_⟩
    | with_reducible exact Same.refl _ _
    | with_reducible assumption
    | ((with_reducible apply Same.step ?_ (freqSample_same _ _ _) ?_); on_goal 1 => rfl)
    | (extract_lets +onlyGivenNames x; (with_reducible apply Same.cut x ?_ ?_); (on_goal 1 => (unfold x; clear x)); (on_goal 2 => (intro hx; clear_value x)))
    | (extract_lets +onlyGivenNames x; clear_value x)
    | (extract_lets +onlyGivenNames x; unfold x; clear x)
    | split)

theorem execRefLos_same (a0 : RefIx) (s : State) :
    ∃ t, execRefLos a0 s = .next t ∧ Same 139280 s t := by
  delta execRefLos
  repeat' (first
    | refine ⟨_, rfl, ?_⟩
    | with_reducible exact Same.refl _ _
    | with_reducible assumption
    | ((with_reducible apply Same.step ?_ (setLevel_same _ _ _ _) ?_); on_goal 1 => rfl)
    | (extract_lets +onlyGivenNames x; (with_reducible apply Same.cut x ?_ ?_); (on_goal 1 => (unfold x; clear x)); (on_goal 2 => (intro hx; clear_value x)))
    | (extract_lets +onlyGivenNames x; clear_value x)
    | (extract_lets +onlyGivenNames x; unfold x; clear x)
    | split)

theorem execRefQualTimer_same (a0 : RefIx) (s : State) :
    ∃ t, execRefQualTimer a0 s = .next t ∧ Same 131088 s t := by
  delta execRefQualTimer
  repeat' (first
    | refine ⟨_, rfl, ?_⟩
    | with_reducible exact Same.refl _ _
    | with_reducible assumption
    | ((with_reducible apply Same.step ?_ (qualTimer_same _ _) ?_); on_goal 1 => rfl)
    | (extract_lets +onlyGivenNames x; (with_reducible apply Same.cut x ?_ ?_); (on_goal 1 => (unfold x; clear x)); (on_goal 2 => (intro hx; clear_value x)))
    | (extract_lets +onlyGivenNames x; clear_value x)
    | (extract_lets +onlyGivenNames x; unfold x; clear x)
    | split)

theorem execRefQualify_same (a0 : Master) (a1 : ℕ) (a2 : Bool) (a3 : ℕ) (a4 : Bool) (s : State) :
    ∃ t, execRefQualify a0 a1 a2 a3 a4 s = .next t ∧ Same 143368222942232 s t := by
  delta execRefQualify
  repeat' (first
    | refine ⟨_, rfl, ?_⟩
    | with_reducible exact Same.refl _ _
    | with_reducible assumption
    | ((with_reducible apply Same.step ?_ (cmdAccess_same _ _ _ _ _ _) ?_); on_goal 1 => rfl)
    | (extract_lets +onlyGivenNames x; (with_reducible apply Same.cut x ?_ ?_); (on_goal 1 => (unfold x; clear x)); (on_goal 2 => (intro hx; clear_value x)))
    | (extract_lets +onlyGivenNames x; clear_value x)
    | (extract_lets +onlyGivenNames x; unfold x; clear x)
    | split)

theorem execRefTimeEvent_same (a0 : RefIx) (a1 : ℤ) (a2 : Option ℕ) (a3 : ℕ) (s : State) :
    ∃ t, execRefTimeEvent a0 a1 a2 a3 s = .next t ∧ Same 401424 s t := by
  delta execRefTimeEvent
  repeat' (first
    | refine ⟨_, rfl, ?_⟩
    | with_reducible exact Same.refl _ _
    | with_reducible assumption
    | ((with_reducible apply Same.step ?_ (timeEdge_same _ _ _ _ _) ?_); on_goal 1 => rfl)
    | (extract_lets +onlyGivenNames x; (with_reducible apply Same.cut x ?_ ?_); (on_goal 1 => (unfold x; clear x)); (on_goal 2 => (intro hx; clear_value x)))
    | (extract_lets +onlyGivenNames x; clear_value x)
    | (extract_lets +onlyGivenNames x; unfold x; clear x)
    | split)

theorem execRegisterWrite_same (a0 : Master) (a1 : ℕ) (a2 : ℕ) (a3 : ℕ) (a4 : WriteAt) (s : State) :
    ∃ t, execRegisterWrite a0 a1 a2 a3 a4 s = .next t ∧ Same 197360932093694 s t := by
  delta execRegisterWrite
  repeat' (first
    | refine ⟨_, rfl, ?_⟩
    | with_reducible exact Same.refl _ _
    | with_reducible assumption
    | ((with_reducible apply Same.step ?_ (busWriteTie_same _ _ _ _ _ _) ?_); on_goal 1 => rfl)
    | ((with_reducible apply Same.step ?_ (atCyc_same _ _) ?_); on_goal 1 => rfl)
    | (extract_lets +onlyGivenNames x; (with_reducible apply Same.cut x ?_ ?_); (on_goal 1 => (unfold x; clear x)); (on_goal 2 => (intro hx; clear_value x)))
    | (extract_lets +onlyGivenNames x; clear_value x)
    | (extract_lets +onlyGivenNames x; unfold x; clear x)
    | split)

theorem execRehomeSwitch_same (a0 : ScIx) (a1 : CycIx) (s : State) :
    ∃ t, execRehomeSwitch a0 a1 s = .next t ∧ Same 140754669379604 s t := by
  delta execRehomeSwitch
  repeat' (first
    | refine ⟨_, rfl, ?_⟩
    | with_reducible exact Same.refl _ _
    | with_reducible assumption
    | ((with_reducible apply Same.step ?_ (atCyc_same _ _) ?_); on_goal 1 => rfl)
    | ((with_reducible apply Same.step ?_ (rehomeRun_same _ _) ?_); on_goal 1 => rfl)
    | (extract_lets +onlyGivenNames x; (with_reducible apply Same.cut x ?_ ?_); (on_goal 1 => (unfold x; clear x)); (on_goal 2 => (intro hx; clear_value x)))
    | (extract_lets +onlyGivenNames x; clear_value x)
    | (extract_lets +onlyGivenNames x; unfold x; clear x)
    | split)

theorem execRequal_same (a0 : Master) (a1 : RefIx) (s : State) :
    ∃ t, execRequal a0 a1 s = .next t ∧ Same 197360932093690 s t := by
  delta execRequal
  repeat' (first
    | refine ⟨_, rfl, ?_⟩
    | with_reducible exact Same.refl _ _
    | with_reducible assumption
    | ((with_reducible apply Same.step ?_ (regPutM_same _ _ _ _ _) ?_); on_goal 1 => rfl)
    | (extract_lets +onlyGivenNames x; (with_reducible apply Same.cut x ?_ ?_); (on_goal 1 => (unfold x; clear x)); (on_goal 2 => (intro hx; clear_value x)))
    | (extract_lets +onlyGivenNames x; clear_value x)
    | (extract_lets +onlyGivenNames x; unfold x; clear x)
    | split)

theorem execResel_same (a0 : Master) (a1 : DpIx) (s : State) :
    ∃ t, execResel a0 a1 s = .next t ∧ Same 197360932093690 s t := by
  delta execResel
  repeat' (first
    | refine ⟨_, rfl, ?_⟩
    | with_reducible exact Same.refl _ _
    | with_reducible assumption
    | ((with_reducible apply Same.step ?_ (regPutM_same _ _ _ _ _) ?_); on_goal 1 => rfl)
    | (extract_lets +onlyGivenNames x; (with_reducible apply Same.cut x ?_ ?_); (on_goal 1 => (unfold x; clear x)); (on_goal 2 => (intro hx; clear_value x)))
    | (extract_lets +onlyGivenNames x; clear_value x)
    | (extract_lets +onlyGivenNames x; unfold x; clear x)
    | split)

theorem execResync_same (a0 : Master) (a1 : PortIx) (a2 : CycIx) (s : State) :
    ∃ t, execResync a0 a1 a2 s = .next t ∧ Same 197360932093694 s t := by
  delta execResync
  repeat' (first
    | refine ⟨_, rfl, ?_⟩
    | with_reducible exact Same.refl _ _
    | with_reducible assumption
    | ((with_reducible apply Same.step ?_ (regPutM_same _ _ _ _ _) ?_); on_goal 1 => rfl)
    | ((with_reducible apply Same.step ?_ (atCyc_same _ _) ?_); on_goal 1 => rfl)
    | (extract_lets +onlyGivenNames x; (with_reducible apply Same.cut x ?_ ?_); (on_goal 1 => (unfold x; clear x)); (on_goal 2 => (intro hx; clear_value x)))
    | (extract_lets +onlyGivenNames x; clear_value x)
    | (extract_lets +onlyGivenNames x; unfold x; clear x)
    | split)

theorem execRetune_same (a0 : Master) (a1 : ScIx) (a2 : Fin 4) (a3 : Bool) (a4 : CycIx) (s : State) :
    ∃ t, execRetune a0 a1 a2 a3 a4 s = .next t ∧ Same 197360932093694 s t := by
  delta execRetune
  repeat' (first
    | refine ⟨_, rfl, ?_⟩
    | with_reducible exact Same.refl _ _
    | with_reducible assumption
    | ((with_reducible apply Same.step ?_ (regPutM_same _ _ _ _ _) ?_); on_goal 1 => rfl)
    | ((with_reducible apply Same.step ?_ (atCyc_same _ _) ?_); on_goal 1 => rfl)
    | (extract_lets +onlyGivenNames x; (with_reducible apply Same.cut x ?_ ?_); (on_goal 1 => (unfold x; clear x)); (on_goal 2 => (intro hx; clear_value x)))
    | (extract_lets +onlyGivenNames x; clear_value x)
    | (extract_lets +onlyGivenNames x; unfold x; clear x)
    | split)

theorem execRideExit_same (s : State) :
    ∃ t, execRideExit s = .next t ∧ Same 147626683016208 s t := by
  delta execRideExit
  repeat' (first
    | refine ⟨_, rfl, ?_⟩
    | with_reducible exact Same.refl _ _
    | with_reducible assumption
    | ((with_reducible apply Same.step ?_ (smbEval_same _) ?_); on_goal 1 => rfl)
    | ((with_reducible apply Same.step ?_ (rideLeave_same _) ?_); on_goal 1 => rfl)
    | (extract_lets +onlyGivenNames x; (with_reducible apply Same.cut x ?_ ?_); (on_goal 1 => (unfold x; clear x)); (on_goal 2 => (intro hx; clear_value x)))
    | (extract_lets +onlyGivenNames x; clear_value x)
    | (extract_lets +onlyGivenNames x; unfold x; clear x)
    | split)

theorem execRideStores_same (a0 : Bool) (s : State) :
    ∃ t, execRideStores a0 s = .next t ∧ Same 178550447551512 s t := by
  delta execRideStores
  repeat' (first
    | refine ⟨_, rfl, ?_⟩
    | with_reducible exact Same.refl _ _
    | with_reducible assumption
    | ((with_reducible apply Same.step ?_ (rideStore_same _ _) ?_); on_goal 1 => rfl)
    | (extract_lets +onlyGivenNames x; (with_reducible apply Same.cut x ?_ ?_); (on_goal 1 => (unfold x; clear x)); (on_goal 2 => (intro hx; clear_value x)))
    | (extract_lets +onlyGivenNames x; clear_value x)
    | (extract_lets +onlyGivenNames x; unfold x; clear x)
    | split)

theorem execRideYield_same (s : State) :
    ∃ t, execRideYield s = .next t ∧ Same 178563332846616 s t := by
  delta execRideYield
  repeat' (first
    | refine ⟨_, rfl, ?_⟩
    | with_reducible exact Same.refl _ _
    | with_reducible assumption
    | ((with_reducible apply Same.step ?_ (rideHand_same _) ?_); on_goal 1 => rfl)
    | (extract_lets +onlyGivenNames x; (with_reducible apply Same.cut x ?_ ?_); (on_goal 1 => (unfold x; clear x)); (on_goal 2 => (intro hx; clear_value x)))
    | (extract_lets +onlyGivenNames x; clear_value x)
    | (extract_lets +onlyGivenNames x; unfold x; clear x)
    | split)

theorem execRingCfgWrite_same (a0 : Master) (a1 : RingIx) (a2 : Word) (s : State) :
    ∃ t, execRingCfgWrite a0 a1 a2 s = .next t ∧ Same 197360932093690 s t := by
  delta execRingCfgWrite
  repeat' (first
    | refine ⟨_, rfl, ?_⟩
    | with_reducible exact Same.refl _ _
    | with_reducible assumption
    | ((with_reducible apply Same.step ?_ (regPut_same _ _ _ _) ?_); on_goal 1 => rfl)
    | (extract_lets +onlyGivenNames x; (with_reducible apply Same.cut x ?_ ?_); (on_goal 1 => (unfold x; clear x)); (on_goal 2 => (intro hx; clear_value x)))
    | (extract_lets +onlyGivenNames x; clear_value x)
    | (extract_lets +onlyGivenNames x; unfold x; clear x)
    | split)

theorem execRingRdWrite_same (a0 : Master) (a1 : RingIx) (a2 : Word) (s : State) :
    ∃ t, execRingRdWrite a0 a1 a2 s = .next t ∧ Same 197360932093690 s t := by
  delta execRingRdWrite
  repeat' (first
    | refine ⟨_, rfl, ?_⟩
    | with_reducible exact Same.refl _ _
    | with_reducible assumption
    | ((with_reducible apply Same.step ?_ (regPut_same _ _ _ _) ?_); on_goal 1 => rfl)
    | (extract_lets +onlyGivenNames x; (with_reducible apply Same.cut x ?_ ?_); (on_goal 1 => (unfold x; clear x)); (on_goal 2 => (intro hx; clear_value x)))
    | (extract_lets +onlyGivenNames x; clear_value x)
    | (extract_lets +onlyGivenNames x; unfold x; clear x)
    | split)

theorem execSar_same (a0 : CoreIx) (s : State) :
    ∃ t, execSar a0 s = .next t ∧ Same 197360932093946 s t := by
  delta execSar
  repeat' (first
    | refine ⟨_, rfl, ?_⟩
    | with_reducible exact Same.refl _ _
    | with_reducible assumption
    | ((with_reducible apply Same.step ?_ (seqOp_same _ _ _) ?_); on_goal 1 => rfl)
    | (extract_lets +onlyGivenNames x; (with_reducible apply Same.cut x ?_ ?_); (on_goal 1 => (unfold x; clear x)); (on_goal 2 => (intro hx; clear_value x)))
    | (extract_lets +onlyGivenNames x; clear_value x)
    | (extract_lets +onlyGivenNames x; unfold x; clear x)
    | split)

theorem execSari_same (a0 : CoreIx) (s : State) :
    ∃ t, execSari a0 s = .next t ∧ Same 197360932093946 s t := by
  delta execSari
  repeat' (first
    | refine ⟨_, rfl, ?_⟩
    | with_reducible exact Same.refl _ _
    | with_reducible assumption
    | ((with_reducible apply Same.step ?_ (seqOp_same _ _ _) ?_); on_goal 1 => rfl)
    | (extract_lets +onlyGivenNames x; (with_reducible apply Same.cut x ?_ ?_); (on_goal 1 => (unfold x; clear x)); (on_goal 2 => (intro hx; clear_value x)))
    | (extract_lets +onlyGivenNames x; clear_value x)
    | (extract_lets +onlyGivenNames x; unfold x; clear x)
    | split)

theorem execScRampEnd_same (a0 : ScIx) (a1 : CycIx) (s : State) :
    ∃ t, execScRampEnd a0 a1 s = .next t ∧ Same 140754669379604 s t := by
  delta execScRampEnd
  repeat' (first
    | refine ⟨_, rfl, ?_⟩
    | with_reducible exact Same.refl _ _
    | with_reducible assumption
    | ((with_reducible apply Same.step ?_ (rampEnd_same _ _) ?_); on_goal 1 => rfl)
    | ((with_reducible apply Same.step ?_ (atCyc_same _ _) ?_); on_goal 1 => rfl)
    | (extract_lets +onlyGivenNames x; (with_reducible apply Same.cut x ?_ ?_); (on_goal 1 => (unfold x; clear x)); (on_goal 2 => (intro hx; clear_value x)))
    | (extract_lets +onlyGivenNames x; clear_value x)
    | (extract_lets +onlyGivenNames x; unfold x; clear x)
    | split)

theorem execScRetune_same (a0 : Master) (a1 : ScIx) (a2 : Fin 4) (a3 : BitVec 64) (a4 : Bool) (s : State) :
    ∃ t, execScRetune a0 a1 a2 a3 a4 s = .next t ∧ Same 143368222942232 s t := by
  delta execScRetune
  repeat' (first
    | refine ⟨_, rfl, ?_⟩
    | with_reducible exact Same.refl _ _
    | with_reducible assumption
    | ((with_reducible apply Same.step ?_ (cmdAccess_same _ _ _ _ _ _) ?_); on_goal 1 => rfl)
    | (extract_lets +onlyGivenNames x; (with_reducible apply Same.cut x ?_ ?_); (on_goal 1 => (unfold x; clear x)); (on_goal 2 => (intro hx; clear_value x)))
    | (extract_lets +onlyGivenNames x; clear_value x)
    | (extract_lets +onlyGivenNames x; unfold x; clear x)
    | split)

theorem execScreedClear_same (a0 : Master) (s : State) :
    ∃ t, execScreedClear a0 s = .next t ∧ Same 197360932093690 s t := by
  delta execScreedClear
  repeat' (first
    | refine ⟨_, rfl, ?_⟩
    | with_reducible exact Same.refl _ _
    | with_reducible assumption
    | ((with_reducible apply Same.step ?_ (regPut_same _ _ _ _) ?_); on_goal 1 => rfl)
    | (extract_lets +onlyGivenNames x; (with_reducible apply Same.cut x ?_ ?_); (on_goal 1 => (unfold x; clear x)); (on_goal 2 => (intro hx; clear_value x)))
    | (extract_lets +onlyGivenNames x; clear_value x)
    | (extract_lets +onlyGivenNames x; unfold x; clear x)
    | split)

theorem execScreedSample_same (a0 : ℤ) (s : State) :
    ∃ t, execScreedSample a0 s = .next t ∧ Same 532498 s t := by
  delta execScreedSample
  repeat' (first
    | refine ⟨_, rfl, ?_⟩
    | with_reducible exact Same.refl _ _
    | with_reducible assumption
    | ((with_reducible apply Same.step ?_ (scrInterval_same _ _) ?_); on_goal 1 => rfl)
    | (extract_lets +onlyGivenNames x; (with_reducible apply Same.cut x ?_ ?_); (on_goal 1 => (unfold x; clear x)); (on_goal 2 => (intro hx; clear_value x)))
    | (extract_lets +onlyGivenNames x; clear_value x)
    | (extract_lets +onlyGivenNames x; unfold x; clear x)
    | split)

theorem execScreedSave_same (a0 : Master) (a1 : Bool) (s : State) :
    ∃ t, execScreedSave a0 a1 s = .next t ∧ Same 143368222942232 s t := by
  delta execScreedSave
  repeat' (first
    | refine ⟨_, rfl, ?_⟩
    | with_reducible exact Same.refl _ _
    | with_reducible assumption
    | ((with_reducible apply Same.step ?_ (cmdAccess_same _ _ _ _ _ _) ?_); on_goal 1 => rfl)
    | (extract_lets +onlyGivenNames x; (with_reducible apply Same.cut x ?_ ?_); (on_goal 1 => (unfold x; clear x)); (on_goal 2 => (intro hx; clear_value x)))
    | (extract_lets +onlyGivenNames x; clear_value x)
    | (extract_lets +onlyGivenNames x; unfold x; clear x)
    | split)

theorem execScreedTeUpdate_same (a0 : ℤ) (s : State) :
    ∃ t, execScreedTeUpdate a0 s = .next t ∧ Same 532496 s t := by
  delta execScreedTeUpdate
  repeat' (first
    | refine ⟨_, rfl, ?_⟩
    | with_reducible exact Same.refl _ _
    | with_reducible assumption
    | ((with_reducible apply Same.step ?_ (scrSecond_same _ _) ?_); on_goal 1 => rfl)
    | (extract_lets +onlyGivenNames x; (with_reducible apply Same.cut x ?_ ?_); (on_goal 1 => (unfold x; clear x)); (on_goal 2 => (intro hx; clear_value x)))
    | (extract_lets +onlyGivenNames x; clear_value x)
    | (extract_lets +onlyGivenNames x; unfold x; clear x)
    | split)

theorem execSealCommit_same (a0 : Master) (a1 : Bool) (s : State) :
    ∃ t, execSealCommit a0 a1 s = .next t ∧ Same 143368222942232 s t := by
  delta execSealCommit
  repeat' (first
    | refine ⟨_, rfl, ?_⟩
    | with_reducible exact Same.refl _ _
    | with_reducible assumption
    | ((with_reducible apply Same.step ?_ (cmdAccess_same _ _ _ _ _ _) ?_); on_goal 1 => rfl)
    | (extract_lets +onlyGivenNames x; (with_reducible apply Same.cut x ?_ ?_); (on_goal 1 => (unfold x; clear x)); (on_goal 2 => (intro hx; clear_value x)))
    | (extract_lets +onlyGivenNames x; clear_value x)
    | (extract_lets +onlyGivenNames x; unfold x; clear x)
    | split)

theorem execSealHold_same (a0 : Master) (s : State) :
    ∃ t, execSealHold a0 s = .next t ∧ Same 197360932093690 s t := by
  delta execSealHold
  repeat' (first
    | refine ⟨_, rfl, ?_⟩
    | with_reducible exact Same.refl _ _
    | with_reducible assumption
    | ((with_reducible apply Same.step ?_ (regPut_same _ _ _ _) ?_); on_goal 1 => rfl)
    | (extract_lets +onlyGivenNames x; (with_reducible apply Same.cut x ?_ ?_); (on_goal 1 => (unfold x; clear x)); (on_goal 2 => (intro hx; clear_value x)))
    | (extract_lets +onlyGivenNames x; clear_value x)
    | (extract_lets +onlyGivenNames x; unfold x; clear x)
    | split)

theorem execSealPassEnd_same (s : State) :
    ∃ t, execSealPassEnd s = .next t ∧ Same 178550447551512 s t := by
  delta execSealPassEnd
  repeat' (first
    | refine ⟨_, rfl, ?_⟩
    | with_reducible exact Same.refl _ _
    | with_reducible assumption
    | ((with_reducible apply Same.step ?_ (sealEnd_same _) ?_); on_goal 1 => rfl)
    | (extract_lets +onlyGivenNames x; (with_reducible apply Same.cut x ?_ ?_); (on_goal 1 => (unfold x; clear x)); (on_goal 2 => (intro hx; clear_value x)))
    | (extract_lets +onlyGivenNames x; clear_value x)
    | (extract_lets +onlyGivenNames x; unfold x; clear x)
    | split)

theorem execSelftest_same (a0 : Master) (a1 : ℕ) (a2 : Bool) (s : State) :
    ∃ t, execSelftest a0 a1 a2 s = .next t ∧ Same 143368222942232 s t := by
  delta execSelftest
  repeat' (first
    | refine ⟨_, rfl, ?_⟩
    | with_reducible exact Same.refl _ _
    | with_reducible assumption
    | ((with_reducible apply Same.step ?_ (cmdAccess_same _ _ _ _ _ _) ?_); on_goal 1 => rfl)
    | (extract_lets +onlyGivenNames x; (with_reducible apply Same.cut x ?_ ?_); (on_goal 1 => (unfold x; clear x)); (on_goal 2 => (intro hx; clear_value x)))
    | (extract_lets +onlyGivenNames x; clear_value x)
    | (extract_lets +onlyGivenNames x; unfold x; clear x)
    | split)

theorem execSemaphoreRead_same (a0 : Master) (a1 : BarRead) (s : State) :
    ∃ t, execSemaphoreRead a0 a1 s = .next t ∧ Same 143230783988754 s t := by
  delta execSemaphoreRead
  dsimp only
  split
  · exact ⟨_, rfl, Same.refl _ _⟩
  · split
    · exact ⟨_, rfl, Same.step (by rfl) (emit_same _ _) (Same.step (by rfl) (bar2Bad_same _ _ _) (Same.refl _ _))⟩
    · refine ⟨_, rfl, Same.step (by rfl) (emit_same _ _) (Same.step (by rfl) (bar2Get_same _ _ _ _) ?_)⟩
      split
      · exact Same.step (by rfl) (bump_same _ _ _) (Same.refl _ _)
      · exact Same.refl _ _

theorem execSeqDoorbell_same (a0 : Master) (a1 : CoreIx) (s : State) :
    ∃ t, execSeqDoorbell a0 a1 s = .next t ∧ Same 197360932093690 s t := by
  delta execSeqDoorbell
  repeat' (first
    | refine ⟨_, rfl, ?_⟩
    | with_reducible exact Same.refl _ _
    | with_reducible assumption
    | ((with_reducible apply Same.step ?_ (regPut_same _ _ _ _) ?_); on_goal 1 => rfl)
    | (extract_lets +onlyGivenNames x; (with_reducible apply Same.cut x ?_ ?_); (on_goal 1 => (unfold x; clear x)); (on_goal 2 => (intro hx; clear_value x)))
    | (extract_lets +onlyGivenNames x; clear_value x)
    | (extract_lets +onlyGivenNames x; unfold x; clear x)
    | split)

theorem execSeqExcClr_same (a0 : Master) (a1 : CoreIx) (s : State) :
    ∃ t, execSeqExcClr a0 a1 s = .next t ∧ Same 197360932093690 s t := by
  delta execSeqExcClr
  repeat' (first
    | refine ⟨_, rfl, ?_⟩
    | with_reducible exact Same.refl _ _
    | with_reducible assumption
    | ((with_reducible apply Same.step ?_ (regPut_same _ _ _ _) ?_); on_goal 1 => rfl)
    | (extract_lets +onlyGivenNames x; (with_reducible apply Same.cut x ?_ ?_); (on_goal 1 => (unfold x; clear x)); (on_goal 2 => (intro hx; clear_value x)))
    | (extract_lets +onlyGivenNames x; clear_value x)
    | (extract_lets +onlyGivenNames x; unfold x; clear x)
    | split)

theorem execSeqHalt_same (a0 : Master) (a1 : CoreIx) (s : State) :
    ∃ t, execSeqHalt a0 a1 s = .next t ∧ Same 197360932093690 s t := by
  delta execSeqHalt
  repeat' (first
    | refine ⟨_, rfl, ?_⟩
    | with_reducible exact Same.refl _ _
    | with_reducible assumption
    | ((with_reducible apply Same.step ?_ (regPut_same _ _ _ _) ?_); on_goal 1 => rfl)
    | (extract_lets +onlyGivenNames x; (with_reducible apply Same.cut x ?_ ?_); (on_goal 1 => (unfold x; clear x)); (on_goal 2 => (intro hx; clear_value x)))
    | (extract_lets +onlyGivenNames x; clear_value x)
    | (extract_lets +onlyGivenNames x; unfold x; clear x)
    | split)

theorem execSeqResume_same (a0 : Master) (a1 : CoreIx) (s : State) :
    ∃ t, execSeqResume a0 a1 s = .next t ∧ Same 197360932093690 s t := by
  delta execSeqResume
  repeat' (first
    | refine ⟨_, rfl, ?_⟩
    | with_reducible exact Same.refl _ _
    | with_reducible assumption
    | ((with_reducible apply Same.step ?_ (regPut_same _ _ _ _) ?_); on_goal 1 => rfl)
    | (extract_lets +onlyGivenNames x; (with_reducible apply Same.cut x ?_ ?_); (on_goal 1 => (unfold x; clear x)); (on_goal 2 => (intro hx; clear_value x)))
    | (extract_lets +onlyGivenNames x; clear_value x)
    | (extract_lets +onlyGivenNames x; unfold x; clear x)
    | split)

theorem execSeqStart_same (a0 : Master) (a1 : CoreIx) (s : State) :
    ∃ t, execSeqStart a0 a1 s = .next t ∧ Same 197360932093690 s t := by
  delta execSeqStart
  repeat' (first
    | refine ⟨_, rfl, ?_⟩
    | with_reducible exact Same.refl _ _
    | with_reducible assumption
    | ((with_reducible apply Same.step ?_ (regPut_same _ _ _ _) ?_); on_goal 1 => rfl)
    | (extract_lets +onlyGivenNames x; (with_reducible apply Same.cut x ?_ ?_); (on_goal 1 => (unfold x; clear x)); (on_goal 2 => (intro hx; clear_value x)))
    | (extract_lets +onlyGivenNames x; clear_value x)
    | (extract_lets +onlyGivenNames x; unfold x; clear x)
    | split)

theorem execSeqStep_same (a0 : Master) (a1 : CoreIx) (s : State) :
    ∃ t, execSeqStep a0 a1 s = .next t ∧ Same 197360932093690 s t := by
  delta execSeqStep
  repeat' (first
    | refine ⟨_, rfl, ?_⟩
    | with_reducible exact Same.refl _ _
    | with_reducible assumption
    | ((with_reducible apply Same.step ?_ (regPut_same _ _ _ _) ?_); on_goal 1 => rfl)
    | (extract_lets +onlyGivenNames x; (with_reducible apply Same.cut x ?_ ?_); (on_goal 1 => (unfold x; clear x)); (on_goal 2 => (intro hx; clear_value x)))
    | (extract_lets +onlyGivenNames x; clear_value x)
    | (extract_lets +onlyGivenNames x; unfold x; clear x)
    | split)

theorem execSeqVerify_same (a0 : Master) (a1 : CoreIx) (s : State) :
    ∃ t, execSeqVerify a0 a1 s = .next t ∧ Same 197360932093690 s t := by
  delta execSeqVerify
  repeat' (first
    | refine ⟨_, rfl, ?_⟩
    | with_reducible exact Same.refl _ _
    | with_reducible assumption
    | ((with_reducible apply Same.step ?_ (regPut_same _ _ _ _) ?_); on_goal 1 => rfl)
    | (extract_lets +onlyGivenNames x; (with_reducible apply Same.cut x ?_ ?_); (on_goal 1 => (unfold x; clear x)); (on_goal 2 => (intro hx; clear_value x)))
    | (extract_lets +onlyGivenNames x; clear_value x)
    | (extract_lets +onlyGivenNames x; unfold x; clear x)
    | split)

theorem execSevParityCheck_same (a0 : Option (Fin 4)) (s : State) :
    ∃ t, execSevParityCheck a0 s = .next t ∧ Same 8208 s t := by
  delta execSevParityCheck
  repeat' (first
    | refine ⟨_, rfl, ?_⟩
    | with_reducible exact Same.refl _ _
    | with_reducible assumption
    | ((with_reducible apply Same.step ?_ (raise_same _ _ _ _ _ _) ?_); on_goal 1 => rfl)
    | (extract_lets +onlyGivenNames x; (with_reducible apply Same.cut x ?_ ?_); (on_goal 1 => (unfold x; clear x)); (on_goal 2 => (intro hx; clear_value x)))
    | (extract_lets +onlyGivenNames x; clear_value x)
    | (extract_lets +onlyGivenNames x; unfold x; clear x)
    | split)

theorem execShadowLatchRead_same (a0 : Master) (a1 : ℕ) (a2 : ℕ) (a3 : CycIx) (s : State) :
    ∃ t, execShadowLatchRead a0 a1 a2 a3 s = .next t ∧ Same 143230783988788 s t := by
  delta execShadowLatchRead
  repeat' (first
    | refine ⟨_, rfl, ?_⟩
    | with_reducible exact Same.refl _ _
    | with_reducible assumption
    | ((with_reducible apply Same.step ?_ (atCyc_same _ _) ?_); on_goal 1 => rfl)
    | ((with_reducible apply Same.step ?_ (readOut_same _ _ _ _) ?_); on_goal 1 => rfl)
    | (extract_lets +onlyGivenNames x; (with_reducible apply Same.cut x ?_ ?_); (on_goal 1 => (unfold x; clear x)); (on_goal 2 => (intro hx; clear_value x)))
    | (extract_lets +onlyGivenNames x; clear_value x)
    | (extract_lets +onlyGivenNames x; unfold x; clear x)
    | split)

theorem execShadowWindowExpiry_same (a0 : SrcIx) (s : State) :
    ∃ t, execShadowWindowExpiry a0 s = .next t ∧ Same 8192 s t := by
  delta execShadowWindowExpiry
  repeat' (first
    | refine ⟨_, rfl, ?_⟩
    | with_reducible exact Same.refl _ _
    | with_reducible assumption
    | ((with_reducible apply Same.step ?_ (closeWindow_same _ _) ?_); on_goal 1 => rfl)
    | (extract_lets +onlyGivenNames x; (with_reducible apply Same.cut x ?_ ?_); (on_goal 1 => (unfold x; clear x)); (on_goal 2 => (intro hx; clear_value x)))
    | (extract_lets +onlyGivenNames x; clear_value x)
    | (extract_lets +onlyGivenNames x; unfold x; clear x)
    | split)

theorem execShl_same (a0 : CoreIx) (s : State) :
    ∃ t, execShl a0 s = .next t ∧ Same 197360932093946 s t := by
  delta execShl
  repeat' (first
    | refine ⟨_, rfl, ?_⟩
    | with_reducible exact Same.refl _ _
    | with_reducible assumption
    | ((with_reducible apply Same.step ?_ (seqOp_same _ _ _) ?_); on_goal 1 => rfl)
    | (extract_lets +onlyGivenNames x; (with_reducible apply Same.cut x ?_ ?_); (on_goal 1 => (unfold x; clear x)); (on_goal 2 => (intro hx; clear_value x)))
    | (extract_lets +onlyGivenNames x; clear_value x)
    | (extract_lets +onlyGivenNames x; unfold x; clear x)
    | split)

theorem execShli_same (a0 : CoreIx) (s : State) :
    ∃ t, execShli a0 s = .next t ∧ Same 197360932093946 s t := by
  delta execShli
  repeat' (first
    | refine ⟨_, rfl, ?_⟩
    | with_reducible exact Same.refl _ _
    | with_reducible assumption
    | ((with_reducible apply Same.step ?_ (seqOp_same _ _ _) ?_); on_goal 1 => rfl)
    | (extract_lets +onlyGivenNames x; (with_reducible apply Same.cut x ?_ ?_); (on_goal 1 => (unfold x; clear x)); (on_goal 2 => (intro hx; clear_value x)))
    | (extract_lets +onlyGivenNames x; clear_value x)
    | (extract_lets +onlyGivenNames x; unfold x; clear x)
    | split)

theorem execShr_same (a0 : CoreIx) (s : State) :
    ∃ t, execShr a0 s = .next t ∧ Same 197360932093946 s t := by
  delta execShr
  repeat' (first
    | refine ⟨_, rfl, ?_⟩
    | with_reducible exact Same.refl _ _
    | with_reducible assumption
    | ((with_reducible apply Same.step ?_ (seqOp_same _ _ _) ?_); on_goal 1 => rfl)
    | (extract_lets +onlyGivenNames x; (with_reducible apply Same.cut x ?_ ?_); (on_goal 1 => (unfold x; clear x)); (on_goal 2 => (intro hx; clear_value x)))
    | (extract_lets +onlyGivenNames x; clear_value x)
    | (extract_lets +onlyGivenNames x; unfold x; clear x)
    | split)

theorem execShri_same (a0 : CoreIx) (s : State) :
    ∃ t, execShri a0 s = .next t ∧ Same 197360932093946 s t := by
  delta execShri
  repeat' (first
    | refine ⟨_, rfl, ?_⟩
    | with_reducible exact Same.refl _ _
    | with_reducible assumption
    | ((with_reducible apply Same.step ?_ (seqOp_same _ _ _) ?_); on_goal 1 => rfl)
    | (extract_lets +onlyGivenNames x; (with_reducible apply Same.cut x ?_ ?_); (on_goal 1 => (unfold x; clear x)); (on_goal 2 => (intro hx; clear_value x)))
    | (extract_lets +onlyGivenNames x; clear_value x)
    | (extract_lets +onlyGivenNames x; unfold x; clear x)
    | split)

theorem execSig_same (a0 : CoreIx) (s : State) :
    ∃ t, execSig a0 s = .next t ∧ Same 197360932093946 s t := by
  delta execSig
  repeat' (first
    | refine ⟨_, rfl, ?_⟩
    | with_reducible exact Same.refl _ _
    | with_reducible assumption
    | ((with_reducible apply Same.step ?_ (seqOp_same _ _ _) ?_); on_goal 1 => rfl)
    | (extract_lets +onlyGivenNames x; (with_reducible apply Same.cut x ?_ ?_); (on_goal 1 => (unfold x; clear x)); (on_goal 2 => (intro hx; clear_value x)))
    | (extract_lets +onlyGivenNames x; clear_value x)
    | (extract_lets +onlyGivenNames x; unfold x; clear x)
    | split)

theorem execSkimForcedSwap_same (a0 : FodIx) (s : State) :
    ∃ t, execSkimForcedSwap a0 s = .next t ∧ Same 140754669346832 s t := by
  delta execSkimForcedSwap
  repeat' (first
    | refine ⟨_, rfl, ?_⟩
    | with_reducible exact Same.refl _ _
    | with_reducible assumption
    | ((with_reducible apply Same.step ?_ (skimForced_same _ _) ?_); on_goal 1 => rfl)
    | (extract_lets +onlyGivenNames x; (with_reducible apply Same.cut x ?_ ?_); (on_goal 1 => (unfold x; clear x)); (on_goal 2 => (intro hx; clear_value x)))
    | (extract_lets +onlyGivenNames x; clear_value x)
    | (extract_lets +onlyGivenNames x; unfold x; clear x)
    | split)

theorem execSkimMeasure_same (a0 : FodIx) (a1 : List ℤ) (s : State) :
    ∃ t, execSkimMeasure a0 a1 s = .next t ∧ Same 69793292304 s t := by
  delta execSkimMeasure
  repeat' (first
    | refine ⟨_, rfl, ?_⟩
    | with_reducible exact Same.refl _ _
    | with_reducible assumption
    | ((with_reducible apply Same.step ?_ (skimRun_same _ _ _) ?_); on_goal 1 => rfl)
    | (extract_lets +onlyGivenNames x; (with_reducible apply Same.cut x ?_ ?_); (on_goal 1 => (unfold x; clear x)); (on_goal 2 => (intro hx; clear_value x)))
    | (extract_lets +onlyGivenNames x; clear_value x)
    | (extract_lets +onlyGivenNames x; unfold x; clear x)
    | split)

theorem execSkimNaturalSwap_same (a0 : FodIx) (s : State) :
    ∃ t, execSkimNaturalSwap a0 s = .next t ∧ Same 73744 s t := by
  delta execSkimNaturalSwap
  repeat' (first
    | refine ⟨_, rfl, ?_⟩
    | with_reducible exact Same.refl _ _
    | with_reducible assumption
    | ((with_reducible apply Same.step ?_ (skimNatural_same _ _) ?_); on_goal 1 => rfl)
    | (extract_lets +onlyGivenNames x; (with_reducible apply Same.cut x ?_ ?_); (on_goal 1 => (unfold x; clear x)); (on_goal 2 => (intro hx; clear_value x)))
    | (extract_lets +onlyGivenNames x; clear_value x)
    | (extract_lets +onlyGivenNames x; unfold x; clear x)
    | split)

theorem execSlewEnd_same (s : State) :
    ∃ t, execSlewEnd s = .next t ∧ Same 184166792560510 s t := by
  delta execSlewEnd
  repeat' (first
    | refine ⟨_, rfl, ?_⟩
    | with_reducible exact Same.refl _ _
    | with_reducible assumption
    | ((with_reducible apply Same.step ?_ (aonRun_same _ _ _) ?_); on_goal 1 => rfl)
    | (extract_lets +onlyGivenNames x; (with_reducible apply Same.cut x ?_ ?_); (on_goal 1 => (unfold x; clear x)); (on_goal 2 => (intro hx; clear_value x)))
    | (extract_lets +onlyGivenNames x; clear_value x)
    | (extract_lets +onlyGivenNames x; unfold x; clear x)
    | split)

theorem execSlotFree_same (a0 : LaneIx) (a1 : BitVec 16) (a2 : Bool) (s : State) :
    ∃ t, execSlotFree a0 a1 a2 s = .next t ∧ Same 140737489403904 s t := by
  delta execSlotFree
  repeat' (first
    | refine ⟨_, rfl, ?_⟩
    | with_reducible exact Same.refl _ _
    | with_reducible assumption
    | ((with_reducible apply Same.step ?_ (slotRelease_same _ _ _ _) ?_); on_goal 1 => rfl)
    | (extract_lets +onlyGivenNames x; (with_reducible apply Same.cut x ?_ ?_); (on_goal 1 => (unfold x; clear x)); (on_goal 2 => (intro hx; clear_value x)))
    | (extract_lets +onlyGivenNames x; clear_value x)
    | (extract_lets +onlyGivenNames x; unfold x; clear x)
    | split)

theorem execSmbStatus_same (s : State) :
    ∃ t, execSmbStatus s = .next t ∧ Same 140737488355328 s t := by
  delta execSmbStatus
  repeat' (first
    | refine ⟨_, rfl, ?_⟩
    | with_reducible exact Same.refl _ _
    | with_reducible assumption
    | ((with_reducible apply Same.step ?_ (smbAnswer_same _ _ _ _) ?_); on_goal 1 => rfl)
    | (extract_lets +onlyGivenNames x; (with_reducible apply Same.cut x ?_ ?_); (on_goal 1 => (unfold x; clear x)); (on_goal 2 => (intro hx; clear_value x)))
    | (extract_lets +onlyGivenNames x; clear_value x)
    | (extract_lets +onlyGivenNames x; unfold x; clear x)
    | split)

theorem execSnap_same (a0 : SnapMsg) (a1 : BitVec 16) (a2 : CycIx) (s : State) :
    ∃ t, execSnap a0 a1 a2 s = .next t ∧ Same 143230784005140 s t := by
  delta execSnap
  repeat' (first
    | refine ⟨_, rfl, ?_⟩
    | with_reducible exact Same.refl _ _
    | with_reducible assumption
    | ((with_reducible apply Same.step ?_ (snapTake_same _ _ _) ?_); on_goal 1 => rfl)
    | ((with_reducible apply Same.step ?_ (atCyc_same _ _) ?_); on_goal 1 => rfl)
    | (extract_lets +onlyGivenNames x; (with_reducible apply Same.cut x ?_ ?_); (on_goal 1 => (unfold x; clear x)); (on_goal 2 => (intro hx; clear_value x)))
    | (extract_lets +onlyGivenNames x; clear_value x)
    | (extract_lets +onlyGivenNames x; unfold x; clear x)
    | split)

theorem execSnapAt_same (a0 : CoreIx) (a1 : CycIx) (s : State) :
    ∃ t, execSnapAt a0 a1 s = .next t ∧ Same 197360932093950 s t := by
  delta execSnapAt
  repeat' (first
    | refine ⟨_, rfl, ?_⟩
    | with_reducible exact Same.refl _ _
    | with_reducible assumption
    | ((with_reducible apply Same.step ?_ (atCyc_same _ _) ?_); on_goal 1 => rfl)
    | ((with_reducible apply Same.step ?_ (seqOp_same _ _ _) ?_); on_goal 1 => rfl)
    | (extract_lets +onlyGivenNames x; (with_reducible apply Same.cut x ?_ ?_); (on_goal 1 => (unfold x; clear x)); (on_goal 2 => (intro hx; clear_value x)))
    | (extract_lets +onlyGivenNames x; clear_value x)
    | (extract_lets +onlyGivenNames x; unfold x; clear x)
    | split)

theorem execSnapComplete_same (a0 : List (ℕ × ℕ)) (s : State) :
    ∃ t, execSnapComplete a0 s = .next t ∧ Same 175939040337936 s t := by
  delta execSnapComplete
  repeat' (first
    | refine ⟨_, rfl, ?_⟩
    | with_reducible exact Same.refl _ _
    | with_reducible assumption
    | ((with_reducible apply Same.step ?_ (snapEnd_same _ _) ?_); on_goal 1 => rfl)
    | (extract_lets +onlyGivenNames x; (with_reducible apply Same.cut x ?_ ?_); (on_goal 1 => (unfold x; clear x)); (on_goal 2 => (intro hx; clear_value x)))
    | (extract_lets +onlyGivenNames x; clear_value x)
    | (extract_lets +onlyGivenNames x; unfold x; clear x)
    | split)

theorem execSnapEnq_same (a0 : Master) (a1 : CycIx) (s : State) :
    ∃ t, execSnapEnq a0 a1 s = .next t ∧ Same 197360932093694 s t := by
  delta execSnapEnq
  repeat' (first
    | refine ⟨_, rfl, ?_⟩
    | with_reducible exact Same.refl _ _
    | with_reducible assumption
    | ((with_reducible apply Same.step ?_ (atCyc_same _ _) ?_); on_goal 1 => rfl)
    | ((with_reducible apply Same.step ?_ (regPut_same _ _ _ _) ?_); on_goal 1 => rfl)
    | (extract_lets +onlyGivenNames x; (with_reducible apply Same.cut x ?_ ?_); (on_goal 1 => (unfold x; clear x)); (on_goal 2 => (intro hx; clear_value x)))
    | (extract_lets +onlyGivenNames x; clear_value x)
    | (extract_lets +onlyGivenNames x; unfold x; clear x)
    | split)

theorem execSnapHold_same (a0 : Master) (s : State) :
    ∃ t, execSnapHold a0 s = .next t ∧ Same 197360932093690 s t := by
  delta execSnapHold
  repeat' (first
    | refine ⟨_, rfl, ?_⟩
    | with_reducible exact Same.refl _ _
    | with_reducible assumption
    | ((with_reducible apply Same.step ?_ (regPut_same _ _ _ _) ?_); on_goal 1 => rfl)
    | (extract_lets +onlyGivenNames x; (with_reducible apply Same.cut x ?_ ?_); (on_goal 1 => (unfold x; clear x)); (on_goal 2 => (intro hx; clear_value x)))
    | (extract_lets +onlyGivenNames x; clear_value x)
    | (extract_lets +onlyGivenNames x; unfold x; clear x)
    | split)

theorem execSnapInEdge_same (a0 : ℤ) (a1 : CycIx) (s : State) :
    ∃ t, execSnapInEdge a0 a1 s = .next t ∧ Same 143230784005140 s t := by
  delta execSnapInEdge
  repeat' (first
    | refine ⟨_, rfl, ?_⟩
    | with_reducible exact Same.refl _ _
    | with_reducible assumption
    | ((with_reducible apply Same.step ?_ (snapIn_same _ _) ?_); on_goal 1 => rfl)
    | ((with_reducible apply Same.step ?_ (atCyc_same _ _) ?_); on_goal 1 => rfl)
    | (extract_lets +onlyGivenNames x; (with_reducible apply Same.cut x ?_ ?_); (on_goal 1 => (unfold x; clear x)); (on_goal 2 => (intro hx; clear_value x)))
    | (extract_lets +onlyGivenNames x; clear_value x)
    | (extract_lets +onlyGivenNames x; unfold x; clear x)
    | split)

theorem execSnapNow_same (a0 : Master) (a1 : CycIx) (s : State) :
    ∃ t, execSnapNow a0 a1 s = .next t ∧ Same 197360932093694 s t := by
  delta execSnapNow
  repeat' (first
    | refine ⟨_, rfl, ?_⟩
    | with_reducible exact Same.refl _ _
    | with_reducible assumption
    | ((with_reducible apply Same.step ?_ (atCyc_same _ _) ?_); on_goal 1 => rfl)
    | ((with_reducible apply Same.step ?_ (regPut_same _ _ _ _) ?_); on_goal 1 => rfl)
    | (extract_lets +onlyGivenNames x; (with_reducible apply Same.cut x ?_ ?_); (on_goal 1 => (unfold x; clear x)); (on_goal 2 => (intro hx; clear_value x)))
    | (extract_lets +onlyGivenNames x; clear_value x)
    | (extract_lets +onlyGivenNames x; unfold x; clear x)
    | split)

theorem execSoftAge_same (a0 : FodIx) (s : State) :
    ∃ t, execSoftAge a0 s = .next t ∧ Same 8208 s t := by
  delta execSoftAge
  repeat' (first
    | refine ⟨_, rfl, ?_⟩
    | with_reducible exact Same.refl _ _
    | with_reducible assumption
    | ((with_reducible apply Same.step ?_ (softAgeRun_same _ _) ?_); on_goal 1 => rfl)
    | (extract_lets +onlyGivenNames x; (with_reducible apply Same.cut x ?_ ?_); (on_goal 1 => (unfold x; clear x)); (on_goal 2 => (intro hx; clear_value x)))
    | (extract_lets +onlyGivenNames x; clear_value x)
    | (extract_lets +onlyGivenNames x; unfold x; clear x)
    | split)

theorem execSoftReset_same (a0 : Master) (s : State) :
    ∃ t, execSoftReset a0 s = .next t ∧ Same 197360932093690 s t := by
  delta execSoftReset
  repeat' (first
    | refine ⟨_, rfl, ?_⟩
    | with_reducible exact Same.refl _ _
    | with_reducible assumption
    | ((with_reducible apply Same.step ?_ (regPut_same _ _ _ _) ?_); on_goal 1 => rfl)
    | (extract_lets +onlyGivenNames x; (with_reducible apply Same.cut x ?_ ?_); (on_goal 1 => (unfold x; clear x)); (on_goal 2 => (intro hx; clear_value x)))
    | (extract_lets +onlyGivenNames x; clear_value x)
    | (extract_lets +onlyGivenNames x; unfold x; clear x)
    | split)

theorem execStatus_same (a0 : StatusMsg) (s : State) :
    ∃ t, execStatus a0 s = .next t ∧ Same 145298743697434 s t := by
  delta execStatus
  repeat' (first
    | refine ⟨_, rfl, ?_⟩
    | with_reducible exact Same.refl _ _
    | with_reducible assumption
    | ((with_reducible apply Same.step ?_ (statusTake_same _ _) ?_); on_goal 1 => rfl)
    | ((with_reducible apply Same.step ?_ (smbEval_same _) ?_); on_goal 1 => rfl)
    | (extract_lets +onlyGivenNames x; (with_reducible apply Same.cut x ?_ ?_); (on_goal 1 => (unfold x; clear x)); (on_goal 2 => (intro hx; clear_value x)))
    | (extract_lets +onlyGivenNames x; clear_value x)
    | (extract_lets +onlyGivenNames x; unfold x; clear x)
    | split)

theorem execStatusSend_same (s : State) :
    ∃ t, execStatusSend s = .next t ∧ Same 140754668224512 s t := by
  delta execStatusSend
  repeat' (first
    | refine ⟨_, rfl, ?_⟩
    | with_reducible exact Same.refl _ _
    | with_reducible assumption
    | ((with_reducible apply Same.step ?_ (statusSend_same _) ?_); on_goal 1 => rfl)
    | (extract_lets +onlyGivenNames x; (with_reducible apply Same.cut x ?_ ?_); (on_goal 1 => (unfold x; clear x)); (on_goal 2 => (intro hx; clear_value x)))
    | (extract_lets +onlyGivenNames x; clear_value x)
    | (extract_lets +onlyGivenNames x; unfold x; clear x)
    | split)

theorem execStb_same (a0 : CoreIx) (s : State) :
    ∃ t, execStb a0 s = .next t ∧ Same 197360932093946 s t := by
  delta execStb
  repeat' (first
    | refine ⟨_, rfl, ?_⟩
    | with_reducible exact Same.refl _ _
    | with_reducible assumption
    | ((with_reducible apply Same.step ?_ (seqOp_same _ _ _) ?_); on_goal 1 => rfl)
    | (extract_lets +onlyGivenNames x; (with_reducible apply Same.cut x ?_ ?_); (on_goal 1 => (unfold x; clear x)); (on_goal 2 => (intro hx; clear_value x)))
    | (extract_lets +onlyGivenNames x; clear_value x)
    | (extract_lets +onlyGivenNames x; unfold x; clear x)
    | split)

theorem execSth_same (a0 : CoreIx) (s : State) :
    ∃ t, execSth a0 s = .next t ∧ Same 197360932093946 s t := by
  delta execSth
  repeat' (first
    | refine ⟨_, rfl, ?_⟩
    | with_reducible exact Same.refl _ _
    | with_reducible assumption
    | ((with_reducible apply Same.step ?_ (seqOp_same _ _ _) ?_); on_goal 1 => rfl)
    | (extract_lets +onlyGivenNames x; (with_reducible apply Same.cut x ?_ ?_); (on_goal 1 => (unfold x; clear x)); (on_goal 2 => (intro hx; clear_value x)))
    | (extract_lets +onlyGivenNames x; clear_value x)
    | (extract_lets +onlyGivenNames x; unfold x; clear x)
    | split)

theorem execStoreFull_same (s : State) :
    ∃ t, execStoreFull s = .next t ∧ Same 4398046511120 s t := by
  delta execStoreFull
  repeat' (first
    | refine ⟨_, rfl, ?_⟩
    | with_reducible exact Same.refl _ _
    | with_reducible assumption
    | ((with_reducible apply Same.step ?_ (orBits_same _ _ _) ?_); on_goal 1 => rfl)
    | ((with_reducible apply Same.step ?_ (smbEval_same _) ?_); on_goal 1 => rfl)
    | (extract_lets +onlyGivenNames x; (with_reducible apply Same.cut x ?_ ?_); (on_goal 1 => (unfold x; clear x)); (on_goal 2 => (intro hx; clear_value x)))
    | (extract_lets +onlyGivenNames x; clear_value x)
    | (extract_lets +onlyGivenNames x; unfold x; clear x)
    | split)

theorem execStw_same (a0 : CoreIx) (s : State) :
    ∃ t, execStw a0 s = .next t ∧ Same 197360932093946 s t := by
  delta execStw
  repeat' (first
    | refine ⟨_, rfl, ?_⟩
    | with_reducible exact Same.refl _ _
    | with_reducible assumption
    | ((with_reducible apply Same.step ?_ (seqOp_same _ _ _) ?_); on_goal 1 => rfl)
    | (extract_lets +onlyGivenNames x; (with_reducible apply Same.cut x ?_ ?_); (on_goal 1 => (unfold x; clear x)); (on_goal 2 => (intro hx; clear_value x)))
    | (extract_lets +onlyGivenNames x; clear_value x)
    | (extract_lets +onlyGivenNames x; unfold x; clear x)
    | split)

theorem execSub_same (a0 : CoreIx) (s : State) :
    ∃ t, execSub a0 s = .next t ∧ Same 197360932093946 s t := by
  delta execSub
  repeat' (first
    | refine ⟨_, rfl, ?_⟩
    | with_reducible exact Same.refl _ _
    | with_reducible assumption
    | ((with_reducible apply Same.step ?_ (seqOp_same _ _ _) ?_); on_goal 1 => rfl)
    | (extract_lets +onlyGivenNames x; (with_reducible apply Same.cut x ?_ ?_); (on_goal 1 => (unfold x; clear x)); (on_goal 2 => (intro hx; clear_value x)))
    | (extract_lets +onlyGivenNames x; clear_value x)
    | (extract_lets +onlyGivenNames x; unfold x; clear x)
    | split)

theorem execSubc_same (a0 : CoreIx) (s : State) :
    ∃ t, execSubc a0 s = .next t ∧ Same 197360932093946 s t := by
  delta execSubc
  repeat' (first
    | refine ⟨_, rfl, ?_⟩
    | with_reducible exact Same.refl _ _
    | with_reducible assumption
    | ((with_reducible apply Same.step ?_ (seqOp_same _ _ _) ?_); on_goal 1 => rfl)
    | (extract_lets +onlyGivenNames x; (with_reducible apply Same.cut x ?_ ?_); (on_goal 1 => (unfold x; clear x)); (on_goal 2 => (intro hx; clear_value x)))
    | (extract_lets +onlyGivenNames x; clear_value x)
    | (extract_lets +onlyGivenNames x; unfold x; clear x)
    | split)

theorem execSupply_same (s : State) :
    ∃ t, execSupply s = .next t ∧ Same 140737488355328 s t := by
  delta execSupply
  repeat' (first
    | refine ⟨_, rfl, ?_⟩
    | with_reducible exact Same.refl _ _
    | with_reducible assumption
    | ((with_reducible apply Same.step ?_ (smbAnswer_same _ _ _ _) ?_); on_goal 1 => rfl)
    | (extract_lets +onlyGivenNames x; (with_reducible apply Same.cut x ?_ ?_); (on_goal 1 => (unfold x; clear x)); (on_goal 2 => (intro hx; clear_value x)))
    | (extract_lets +onlyGivenNames x; clear_value x)
    | (extract_lets +onlyGivenNames x; unfold x; clear x)
    | split)

theorem execSupplyCollapse_same (s : State) :
    ∃ t, execSupplyCollapse s = .next t ∧ Same 140737488355326 s t := by
  delta execSupplyCollapse
  repeat' (first
    | refine ⟨_, rfl, ?_⟩
    | with_reducible exact Same.refl _ _
    | with_reducible assumption
    | ((with_reducible apply Same.step ?_ (collapseRun_same _) ?_); on_goal 1 => rfl)
    | (extract_lets +onlyGivenNames x; (with_reducible apply Same.cut x ?_ ?_); (on_goal 1 => (unfold x; clear x)); (on_goal 2 => (intro hx; clear_value x)))
    | (extract_lets +onlyGivenNames x; clear_value x)
    | (extract_lets +onlyGivenNames x; unfold x; clear x)
    | split)

theorem execSupplyMeasure_same (a0 : Bool) (a1 : ℕ) (a2 : ℕ) (a3 : ℕ) (a4 : ℕ) (a5 : LoadMsg) (a6 : CycIx) (s : State) :
    ∃ t, execSupplyMeasure a0 a1 a2 a3 a4 a5 a6 s = .next t ∧ Same 147764121969684 s t := by
  delta execSupplyMeasure
  repeat' (first
    | refine ⟨_, rfl, ?_⟩
    | with_reducible exact Same.refl _ _
    | with_reducible assumption
    | ((with_reducible apply Same.step ?_ (smbEval_same _) ?_); on_goal 1 => rfl)
    | ((with_reducible apply Same.step ?_ (supplyRun_same _ _ _ _ _ _ _) ?_); on_goal 1 => rfl)
    | ((with_reducible apply Same.step ?_ (atCyc_same _ _) ?_); on_goal 1 => rfl)
    | (extract_lets +onlyGivenNames x; (with_reducible apply Same.cut x ?_ ?_); (on_goal 1 => (unfold x; clear x)); (on_goal 2 => (intro hx; clear_value x)))
    | (extract_lets +onlyGivenNames x; clear_value x)
    | (extract_lets +onlyGivenNames x; unfold x; clear x)
    | split)

theorem execSupplySummary_same (a0 : ℕ) (s : State) :
    ∃ t, execSupplySummary a0 s = .next t ∧ Same 141029613249552 s t := by
  delta execSupplySummary
  repeat' (first
    | refine ⟨_, rfl, ?_⟩
    | with_reducible exact Same.refl _ _
    | with_reducible assumption
    | ((with_reducible apply Same.step ?_ (summaryRun_same _ _) ?_); on_goal 1 => rfl)
    | (extract_lets +onlyGivenNames x; (with_reducible apply Same.cut x ?_ ?_); (on_goal 1 => (unfold x; clear x)); (on_goal 2 => (intro hx; clear_value x)))
    | (extract_lets +onlyGivenNames x; clear_value x)
    | (extract_lets +onlyGivenNames x; unfold x; clear x)
    | split)

theorem execSwrefSample_same (a0 : Master) (a1 : Fin 4) (a2 : BitVec 64) (a3 : ℤ) (a4 : CycIx) (s : State) :
    ∃ t, execSwrefSample a0 a1 a2 a3 a4 s = .next t ∧ Same 197360932093694 s t := by
  delta execSwrefSample
  repeat' (first
    | refine ⟨_, rfl, ?_⟩
    | with_reducible exact Same.refl _ _
    | with_reducible assumption
    | ((with_reducible apply Same.step ?_ (atCyc_same _ _) ?_); on_goal 1 => rfl)
    | ((with_reducible apply Same.step ?_ (swrefPut_same _ _ _ _ _) ?_); on_goal 1 => rfl)
    | (extract_lets +onlyGivenNames x; (with_reducible apply Same.cut x ?_ ?_); (on_goal 1 => (unfold x; clear x)); (on_goal 2 => (intro hx; clear_value x)))
    | (extract_lets +onlyGivenNames x; clear_value x)
    | (extract_lets +onlyGivenNames x; unfold x; clear x)
    | split)

theorem execTap_same (a0 : LaneIx) (a1 : TapMsg) (a2 : CycIx) (s : State) :
    ∃ t, execTap a0 a1 a2 s = .next t ∧ Same 141098398786582 s t := by
  delta execTap
  repeat' (first
    | refine ⟨_, rfl, ?_⟩
    | with_reducible exact Same.refl _ _
    | with_reducible assumption
    | ((with_reducible apply Same.step ?_ (laneTurns_same _ _) ?_); on_goal 1 => rfl)
    | ((with_reducible apply Same.step ?_ (tapIn_same _ _ _) ?_); on_goal 1 => rfl)
    | ((with_reducible apply Same.step ?_ (atCyc_same _ _) ?_); on_goal 1 => rfl)
    | (extract_lets +onlyGivenNames x; (with_reducible apply Same.cut x ?_ ?_); (on_goal 1 => (unfold x; clear x)); (on_goal 2 => (intro hx; clear_value x)))
    | (extract_lets +onlyGivenNames x; clear_value x)
    | (extract_lets +onlyGivenNames x; unfold x; clear x)
    | split)

theorem execTemps_same (s : State) :
    ∃ t, execTemps s = .next t ∧ Same 143230783988752 s t := by
  delta execTemps
  repeat' (first
    | refine ⟨_, rfl, ?_⟩
    | with_reducible exact Same.refl _ _
    | with_reducible assumption
    | ((with_reducible apply Same.step ?_ (coreTouch_same _ _ _) ?_); on_goal 1 => rfl)
    | ((with_reducible apply Same.step ?_ (smbAnswer_same _ _ _ _) ?_); on_goal 1 => rfl)
    | (extract_lets +onlyGivenNames x; (with_reducible apply Same.cut x ?_ ?_); (on_goal 1 => (unfold x; clear x)); (on_goal 2 => (intro hx; clear_value x)))
    | (extract_lets +onlyGivenNames x; clear_value x)
    | (extract_lets +onlyGivenNames x; unfold x; clear x)
    | split)

theorem execThermalAlarm_same (a0 : ℤ) (a1 : ℤ) (s : State) :
    ∃ t, execThermalAlarm a0 a1 s = .next t ∧ Same 8208 s t := by
  delta execThermalAlarm
  repeat' (first
    | refine ⟨_, rfl, ?_⟩
    | with_reducible exact Same.refl _ _
    | with_reducible assumption
    | ((with_reducible apply Same.step ?_ (tempRun_same _ _ _) ?_); on_goal 1 => rfl)
    | (extract_lets +onlyGivenNames x; (with_reducible apply Same.cut x ?_ ?_); (on_goal 1 => (unfold x; clear x)); (on_goal 2 => (intro hx; clear_value x)))
    | (extract_lets +onlyGivenNames x; clear_value x)
    | (extract_lets +onlyGivenNames x; unfold x; clear x)
    | split)

theorem execTimeEnq_same (a0 : Master) (s : State) :
    ∃ t, execTimeEnq a0 s = .next t ∧ Same 197360932093690 s t := by
  delta execTimeEnq
  repeat' (first
    | refine ⟨_, rfl, ?_⟩
    | with_reducible exact Same.refl _ _
    | with_reducible assumption
    | ((with_reducible apply Same.step ?_ (regPut_same _ _ _ _) ?_); on_goal 1 => rfl)
    | (extract_lets +onlyGivenNames x; (with_reducible apply Same.cut x ?_ ?_); (on_goal 1 => (unfold x; clear x)); (on_goal 2 => (intro hx; clear_value x)))
    | (extract_lets +onlyGivenNames x; clear_value x)
    | (extract_lets +onlyGivenNames x; unfold x; clear x)
    | split)

theorem execTimeRead_same (a0 : Master) (a1 : CycIx) (s : State) :
    ∃ t, execTimeRead a0 a1 s = .next t ∧ Same 143230783988788 s t := by
  delta execTimeRead
  repeat' (first
    | refine ⟨_, rfl, ?_⟩
    | with_reducible exact Same.refl _ _
    | with_reducible assumption
    | ((with_reducible apply Same.step ?_ (atCyc_same _ _) ?_); on_goal 1 => rfl)
    | ((with_reducible apply Same.step ?_ (readOut_same _ _ _ _) ?_); on_goal 1 => rfl)
    | (extract_lets +onlyGivenNames x; (with_reducible apply Same.cut x ?_ ?_); (on_goal 1 => (unfold x; clear x)); (on_goal 2 => (intro hx; clear_value x)))
    | (extract_lets +onlyGivenNames x; clear_value x)
    | (extract_lets +onlyGivenNames x; unfold x; clear x)
    | split)

theorem execTimeSet_same (a0 : Master) (s : State) :
    ∃ t, execTimeSet a0 s = .next t ∧ Same 197360932093690 s t := by
  delta execTimeSet
  repeat' (first
    | refine ⟨_, rfl, ?_⟩
    | with_reducible exact Same.refl _ _
    | with_reducible assumption
    | ((with_reducible apply Same.step ?_ (regPut_same _ _ _ _) ?_); on_goal 1 => rfl)
    | (extract_lets +onlyGivenNames x; (with_reducible apply Same.cut x ?_ ?_); (on_goal 1 => (unfold x; clear x)); (on_goal 2 => (intro hx; clear_value x)))
    | (extract_lets +onlyGivenNames x; clear_value x)
    | (extract_lets +onlyGivenNames x; unfold x; clear x)
    | split)

theorem execTimeSlew_same (a0 : Master) (s : State) :
    ∃ t, execTimeSlew a0 s = .next t ∧ Same 197360932093690 s t := by
  delta execTimeSlew
  repeat' (first
    | refine ⟨_, rfl, ?_⟩
    | with_reducible exact Same.refl _ _
    | with_reducible assumption
    | ((with_reducible apply Same.step ?_ (regPut_same _ _ _ _) ?_); on_goal 1 => rfl)
    | (extract_lets +onlyGivenNames x; (with_reducible apply Same.cut x ?_ ?_); (on_goal 1 => (unfold x; clear x)); (on_goal 2 => (intro hx; clear_value x)))
    | (extract_lets +onlyGivenNames x; clear_value x)
    | (extract_lets +onlyGivenNames x; unfold x; clear x)
    | split)

theorem execTimeSlewStop_same (a0 : Master) (s : State) :
    ∃ t, execTimeSlewStop a0 s = .next t ∧ Same 197360932093690 s t := by
  delta execTimeSlewStop
  repeat' (first
    | refine ⟨_, rfl, ?_⟩
    | with_reducible exact Same.refl _ _
    | with_reducible assumption
    | ((with_reducible apply Same.step ?_ (regPut_same _ _ _ _) ?_); on_goal 1 => rfl)
    | (extract_lets +onlyGivenNames x; (with_reducible apply Same.cut x ?_ ?_); (on_goal 1 => (unfold x; clear x)); (on_goal 2 => (intro hx; clear_value x)))
    | (extract_lets +onlyGivenNames x; clear_value x)
    | (extract_lets +onlyGivenNames x; unfold x; clear x)
    | split)

theorem execTimeStep_same (a0 : Master) (s : State) :
    ∃ t, execTimeStep a0 s = .next t ∧ Same 197360932093690 s t := by
  delta execTimeStep
  repeat' (first
    | refine ⟨_, rfl, ?_⟩
    | with_reducible exact Same.refl _ _
    | with_reducible assumption
    | ((with_reducible apply Same.step ?_ (regPut_same _ _ _ _) ?_); on_goal 1 => rfl)
    | (extract_lets +onlyGivenNames x; (with_reducible apply Same.cut x ?_ ?_); (on_goal 1 => (unfold x; clear x)); (on_goal 2 => (intro hx; clear_value x)))
    | (extract_lets +onlyGivenNames x; clear_value x)
    | (extract_lets +onlyGivenNames x; unfold x; clear x)
    | split)

theorem execTnow_same (a0 : CoreIx) (a1 : CycIx) (s : State) :
    ∃ t, execTnow a0 a1 s = .next t ∧ Same 197360932093950 s t := by
  delta execTnow
  repeat' (first
    | refine ⟨_, rfl, ?_⟩
    | with_reducible exact Same.refl _ _
    | with_reducible assumption
    | ((with_reducible apply Same.step ?_ (atCyc_same _ _) ?_); on_goal 1 => rfl)
    | ((with_reducible apply Same.step ?_ (seqOp_same _ _ _) ?_); on_goal 1 => rfl)
    | (extract_lets +onlyGivenNames x; (with_reducible apply Same.cut x ?_ ?_); (on_goal 1 => (unfold x; clear x)); (on_goal 2 => (intro hx; clear_value x)))
    | (extract_lets +onlyGivenNames x; clear_value x)
    | (extract_lets +onlyGivenNames x; unfold x; clear x)
    | split)

theorem execTokenRefill_same (a0 : RingIx) (s : State) :
    ∃ t, execTokenRefill a0 s = .next t ∧ Same 67108864 s t := by
  delta execTokenRefill
  repeat' (first
    | refine ⟨_, rfl, ?_⟩
    | with_reducible exact Same.refl _ _
    | with_reducible assumption
    | ((with_reducible apply Same.step ?_ (tokensAdd_same _ _) ?_); on_goal 1 => rfl)
    | (extract_lets +onlyGivenNames x; (with_reducible apply Same.cut x ?_ ?_); (on_goal 1 => (unfold x; clear x)); (on_goal 2 => (intro hx; clear_value x)))
    | (extract_lets +onlyGivenNames x; clear_value x)
    | (extract_lets +onlyGivenNames x; unfold x; clear x)
    | split)

theorem execTrailEntry_same (a0 : ScIx) (s : State) :
    ∃ t, execTrailEntry a0 s = .next t ∧ Same 32768 s t := by
  delta execTrailEntry
  repeat' (first
    | refine ⟨_, rfl, ?_⟩
    | with_reducible exact Same.refl _ _
    | with_reducible assumption
    | ((with_reducible apply Same.step ?_ (trailPush_same _ _) ?_); on_goal 1 => rfl)
    | (extract_lets +onlyGivenNames x; (with_reducible apply Same.cut x ?_ ?_); (on_goal 1 => (unfold x; clear x)); (on_goal 2 => (intro hx; clear_value x)))
    | (extract_lets +onlyGivenNames x; clear_value x)
    | (extract_lets +onlyGivenNames x; unfold x; clear x)
    | split)

theorem execTrap_same (a0 : CoreIx) (s : State) :
    ∃ t, execTrap a0 s = .next t ∧ Same 197360932093946 s t := by
  delta execTrap
  repeat' (first
    | refine ⟨_, rfl, ?_⟩
    | with_reducible exact Same.refl _ _
    | with_reducible assumption
    | ((with_reducible apply Same.step ?_ (seqOp_same _ _ _) ?_); on_goal 1 => rfl)
    | (extract_lets +onlyGivenNames x; (with_reducible apply Same.cut x ?_ ?_); (on_goal 1 => (unfold x; clear x)); (on_goal 2 => (intro hx; clear_value x)))
    | (extract_lets +onlyGivenNames x; clear_value x)
    | (extract_lets +onlyGivenNames x; unfold x; clear x)
    | split)

theorem execTst_same (a0 : CoreIx) (s : State) :
    ∃ t, execTst a0 s = .next t ∧ Same 197360932093946 s t := by
  delta execTst
  repeat' (first
    | refine ⟨_, rfl, ?_⟩
    | with_reducible exact Same.refl _ _
    | with_reducible assumption
    | ((with_reducible apply Same.step ?_ (seqOp_same _ _ _) ?_); on_goal 1 => rfl)
    | (extract_lets +onlyGivenNames x; (with_reducible apply Same.cut x ?_ ?_); (on_goal 1 => (unfold x; clear x)); (on_goal 2 => (intro hx; clear_value x)))
    | (extract_lets +onlyGivenNames x; clear_value x)
    | (extract_lets +onlyGivenNames x; unfold x; clear x)
    | split)

theorem execTwtReq_same (a0 : Fin 2) (a1 : ℤ) (a2 : ℤ) (a3 : ℤ) (s : State) :
    ∃ t, execTwtReq a0 a1 a2 a3 s = .next t ∧ Same 140754668224512 s t := by
  delta execTwtReq
  repeat' (first
    | refine ⟨_, rfl, ?_⟩
    | with_reducible exact Same.refl _ _
    | with_reducible assumption
    | ((with_reducible apply Same.step ?_ (twtAnswer_same _ _ _ _) ?_); on_goal 1 => rfl)
    | (extract_lets +onlyGivenNames x; (with_reducible apply Same.cut x ?_ ?_); (on_goal 1 => (unfold x; clear x)); (on_goal 2 => (intro hx; clear_value x)))
    | (extract_lets +onlyGivenNames x; clear_value x)
    | (extract_lets +onlyGivenNames x; unfold x; clear x)
    | split)

theorem execTwtReqSend_same (a0 : Fin 2) (a1 : CycIx) (s : State) :
    ∃ t, execTwtReqSend a0 a1 s = .next t ∧ Same 140754668224516 s t := by
  delta execTwtReqSend
  repeat' (first
    | refine ⟨_, rfl, ?_⟩
    | with_reducible exact Same.refl _ _
    | with_reducible assumption
    | ((with_reducible apply Same.step ?_ (twtSend_same _ _) ?_); on_goal 1 => rfl)
    | ((with_reducible apply Same.step ?_ (atCyc_same _ _) ?_); on_goal 1 => rfl)
    | (extract_lets +onlyGivenNames x; (with_reducible apply Same.cut x ?_ ?_); (on_goal 1 => (unfold x; clear x)); (on_goal 2 => (intro hx; clear_value x)))
    | (extract_lets +onlyGivenNames x; clear_value x)
    | (extract_lets +onlyGivenNames x; unfold x; clear x)
    | split)

theorem execTwtResp_same (a0 : Fin 2) (a1 : ℤ) (a2 : ℤ) (a3 : ℤ) (a4 : ℤ) (s : State) :
    ∃ t, execTwtResp a0 a1 a2 a3 a4 s = .next t ∧ Same 401424 s t := by
  delta execTwtResp
  repeat' (first
    | refine ⟨_, rfl, ?_⟩
    | with_reducible exact Same.refl _ _
    | with_reducible assumption
    | ((with_reducible apply Same.step ?_ (twtTake_same _ _ _ _ _ _) ?_); on_goal 1 => rfl)
    | (extract_lets +onlyGivenNames x; (with_reducible apply Same.cut x ?_ ?_); (on_goal 1 => (unfold x; clear x)); (on_goal 2 => (intro hx; clear_value x)))
    | (extract_lets +onlyGivenNames x; clear_value x)
    | (extract_lets +onlyGivenNames x; unfold x; clear x)
    | split)

theorem execUncorr_same (s : State) :
    ∃ t, execUncorr s = .next t ∧ Same 8208 s t := by
  delta execUncorr
  repeat' (first
    | refine ⟨_, rfl, ?_⟩
    | with_reducible exact Same.refl _ _
    | with_reducible assumption
    | ((with_reducible apply Same.step ?_ (raise_same _ _ _ _ _ _) ?_); on_goal 1 => rfl)
    | (extract_lets +onlyGivenNames x; (with_reducible apply Same.cut x ?_ ?_); (on_goal 1 => (unfold x; clear x)); (on_goal 2 => (intro hx; clear_value x)))
    | (extract_lets +onlyGivenNames x; clear_value x)
    | (extract_lets +onlyGivenNames x; unfold x; clear x)
    | split)

theorem execUnfenceRequest_same (a0 : Master) (a1 : SrcIx) (s : State) :
    ∃ t, execUnfenceRequest a0 a1 s = .next t ∧ Same 197360932093690 s t := by
  delta execUnfenceRequest
  repeat' (first
    | refine ⟨_, rfl, ?_⟩
    | with_reducible exact Same.refl _ _
    | with_reducible assumption
    | ((with_reducible apply Same.step ?_ (regPut_same _ _ _ _) ?_); on_goal 1 => rfl)
    | (extract_lets +onlyGivenNames x; (with_reducible apply Same.cut x ?_ ?_); (on_goal 1 => (unfold x; clear x)); (on_goal 2 => (intro hx; clear_value x)))
    | (extract_lets +onlyGivenNames x; clear_value x)
    | (extract_lets +onlyGivenNames x; unfold x; clear x)
    | split)

theorem execWaitE_same (a0 : CoreIx) (s : State) :
    ∃ t, execWaitE a0 s = .next t ∧ Same 197360932093946 s t := by
  delta execWaitE
  repeat' (first
    | refine ⟨_, rfl, ?_⟩
    | with_reducible exact Same.refl _ _
    | with_reducible assumption
    | ((with_reducible apply Same.step ?_ (seqOp_same _ _ _) ?_); on_goal 1 => rfl)
    | (extract_lets +onlyGivenNames x; (with_reducible apply Same.cut x ?_ ?_); (on_goal 1 => (unfold x; clear x)); (on_goal 2 => (intro hx; clear_value x)))
    | (extract_lets +onlyGivenNames x; clear_value x)
    | (extract_lets +onlyGivenNames x; unfold x; clear x)
    | split)

theorem execWaitEResume_same (a0 : CoreIx) (s : State) :
    ∃ t, execWaitEResume a0 s = .next t ∧ Same 1099511627792 s t := by
  delta execWaitEResume
  repeat' (first
    | refine ⟨_, rfl, ?_⟩
    | with_reducible exact Same.refl _ _
    | with_reducible assumption
    | ((with_reducible apply Same.step ?_ (waitEEnd_same _ _) ?_); on_goal 1 => rfl)
    | (extract_lets +onlyGivenNames x; (with_reducible apply Same.cut x ?_ ?_); (on_goal 1 => (unfold x; clear x)); (on_goal 2 => (intro hx; clear_value x)))
    | (extract_lets +onlyGivenNames x; clear_value x)
    | (extract_lets +onlyGivenNames x; unfold x; clear x)
    | split)

theorem execWaitT_same (a0 : CoreIx) (a1 : CycIx) (s : State) :
    ∃ t, execWaitT a0 a1 s = .next t ∧ Same 197360932093950 s t := by
  delta execWaitT
  repeat' (first
    | refine ⟨_, rfl, ?_⟩
    | with_reducible exact Same.refl _ _
    | with_reducible assumption
    | ((with_reducible apply Same.step ?_ (atCyc_same _ _) ?_); on_goal 1 => rfl)
    | ((with_reducible apply Same.step ?_ (seqOp_same _ _ _) ?_); on_goal 1 => rfl)
    | (extract_lets +onlyGivenNames x; (with_reducible apply Same.cut x ?_ ?_); (on_goal 1 => (unfold x; clear x)); (on_goal 2 => (intro hx; clear_value x)))
    | (extract_lets +onlyGivenNames x; clear_value x)
    | (extract_lets +onlyGivenNames x; unfold x; clear x)
    | split)

theorem execWaitTResume_same (a0 : CoreIx) (a1 : CycIx) (s : State) :
    ∃ t, execWaitTResume a0 a1 s = .next t ∧ Same 1099511627796 s t := by
  delta execWaitTResume
  repeat' (first
    | refine ⟨_, rfl, ?_⟩
    | with_reducible exact Same.refl _ _
    | with_reducible assumption
    | ((with_reducible apply Same.step ?_ (waitTEnd_same _ _) ?_); on_goal 1 => rfl)
    | ((with_reducible apply Same.step ?_ (atCyc_same _ _) ?_); on_goal 1 => rfl)
    | (extract_lets +onlyGivenNames x; (with_reducible apply Same.cut x ?_ ?_); (on_goal 1 => (unfold x; clear x)); (on_goal 2 => (intro hx; clear_value x)))
    | (extract_lets +onlyGivenNames x; clear_value x)
    | (extract_lets +onlyGivenNames x; unfold x; clear x)
    | split)

theorem execWatchdogExpiry_same (a0 : Bool) (s : State) :
    ∃ t, execWatchdogExpiry a0 s = .next t ∧ Same 179753174709368 s t := by
  delta execWatchdogExpiry
  repeat' (first
    | refine ⟨_, rfl, ?_⟩
    | with_reducible exact Same.refl _ _
    | with_reducible assumption
    | ((with_reducible apply Same.step ?_ (wdRun_same _ _) ?_); on_goal 1 => rfl)
    | (extract_lets +onlyGivenNames x; (with_reducible apply Same.cut x ?_ ?_); (on_goal 1 => (unfold x; clear x)); (on_goal 2 => (intro hx; clear_value x)))
    | (extract_lets +onlyGivenNames x; clear_value x)
    | (extract_lets +onlyGivenNames x; unfold x; clear x)
    | split)

theorem execWatchdogKick_same (a0 : Master) (s : State) :
    ∃ t, execWatchdogKick a0 s = .next t ∧ Same 197360932093690 s t := by
  delta execWatchdogKick
  repeat' (first
    | refine ⟨_, rfl, ?_⟩
    | with_reducible exact Same.refl _ _
    | with_reducible assumption
    | ((with_reducible apply Same.step ?_ (regPut_same _ _ _ _) ?_); on_goal 1 => rfl)
    | (extract_lets +onlyGivenNames x; (with_reducible apply Same.cut x ?_ ?_); (on_goal 1 => (unfold x; clear x)); (on_goal 2 => (intro hx; clear_value x)))
    | (extract_lets +onlyGivenNames x; clear_value x)
    | (extract_lets +onlyGivenNames x; unfold x; clear x)
    | split)

theorem execWitnessVisit_same (a0 : FodIx) (a1 : Bool) (a2 : ℚ) (s : State) :
    ∃ t, execWitnessVisit a0 a1 a2 s = .next t ∧ Same 140756010475536 s t := by
  delta execWitnessVisit
  repeat' (first
    | refine ⟨_, rfl, ?_⟩
    | with_reducible exact Same.refl _ _
    | with_reducible assumption
    | ((with_reducible apply Same.step ?_ (witVisit_same _ _ _ _) ?_); on_goal 1 => rfl)
    | (extract_lets +onlyGivenNames x; (with_reducible apply Same.cut x ?_ ?_); (on_goal 1 => (unfold x; clear x)); (on_goal 2 => (intro hx; clear_value x)))
    | (extract_lets +onlyGivenNames x; clear_value x)
    | (extract_lets +onlyGivenNames x; unfold x; clear x)
    | split)

theorem execWords_same (a0 : WordsMsg) (a1 : Option WordMsg) (a2 : Option WordMsg) (s : State) :
    ∃ t, execWords a0 a1 a2 s = .next t ∧ Same 17180131328 s t := by
  delta execWords
  repeat' (first
    | refine ⟨_, rfl, ?_⟩
    | with_reducible exact Same.refl _ _
    | with_reducible assumption
    | ((with_reducible apply Same.step ?_ (wordsTake_same _ _ _ _) ?_); on_goal 1 => rfl)
    | (extract_lets +onlyGivenNames x; (with_reducible apply Same.cut x ?_ ?_); (on_goal 1 => (unfold x; clear x)); (on_goal 2 => (intro hx; clear_value x)))
    | (extract_lets +onlyGivenNames x; clear_value x)
    | (extract_lets +onlyGivenNames x; unfold x; clear x)
    | split)

theorem execWrreg_same (a0 : CoreIx) (a1 : CycIx) (s : State) :
    ∃ t, execWrreg a0 a1 s = .next t ∧ Same 197360932093950 s t := by
  delta execWrreg
  repeat' (first
    | refine ⟨_, rfl, ?_⟩
    | with_reducible exact Same.refl _ _
    | with_reducible assumption
    | ((with_reducible apply Same.step ?_ (atCyc_same _ _) ?_); on_goal 1 => rfl)
    | ((with_reducible apply Same.step ?_ (seqOp_same _ _ _) ?_); on_goal 1 => rfl)
    | (extract_lets +onlyGivenNames x; (with_reducible apply Same.cut x ?_ ?_); (on_goal 1 => (unfold x; clear x)); (on_goal 2 => (intro hx; clear_value x)))
    | (extract_lets +onlyGivenNames x; clear_value x)
    | (extract_lets +onlyGivenNames x; unfold x; clear x)
    | split)

theorem execWtrExpiry_same (a0 : DpIx) (s : State) :
    ∃ t, execWtrExpiry a0 s = .next t ∧ Same 140754669021202 s t := by
  delta execWtrExpiry
  repeat' (first
    | refine ⟨_, rfl, ?_⟩
    | with_reducible exact Same.refl _ _
    | with_reducible assumption
    | ((with_reducible apply Same.step ?_ (wtrEnd_same _ _) ?_); on_goal 1 => rfl)
    | (extract_lets +onlyGivenNames x; (with_reducible apply Same.cut x ?_ ?_); (on_goal 1 => (unfold x; clear x)); (on_goal 2 => (intro hx; clear_value x)))
    | (extract_lets +onlyGivenNames x; clear_value x)
    | (extract_lets +onlyGivenNames x; unfold x; clear x)
    | split)

theorem execXor_same (a0 : CoreIx) (s : State) :
    ∃ t, execXor a0 s = .next t ∧ Same 197360932093946 s t := by
  delta execXor
  repeat' (first
    | refine ⟨_, rfl, ?_⟩
    | with_reducible exact Same.refl _ _
    | with_reducible assumption
    | ((with_reducible apply Same.step ?_ (seqOp_same _ _ _) ?_); on_goal 1 => rfl)
    | (extract_lets +onlyGivenNames x; (with_reducible apply Same.cut x ?_ ?_); (on_goal 1 => (unfold x; clear x)); (on_goal 2 => (intro hx; clear_value x)))
    | (extract_lets +onlyGivenNames x; clear_value x)
    | (extract_lets +onlyGivenNames x; unfold x; clear x)
    | split)

theorem execXori_same (a0 : CoreIx) (s : State) :
    ∃ t, execXori a0 s = .next t ∧ Same 197360932093946 s t := by
  delta execXori
  repeat' (first
    | refine ⟨_, rfl, ?_⟩
    | with_reducible exact Same.refl _ _
    | with_reducible assumption
    | ((with_reducible apply Same.step ?_ (seqOp_same _ _ _) ?_); on_goal 1 => rfl)
    | (extract_lets +onlyGivenNames x; (with_reducible apply Same.cut x ?_ ?_); (on_goal 1 => (unfold x; clear x)); (on_goal 2 => (intro hx; clear_value x)))
    | (extract_lets +onlyGivenNames x; clear_value x)
    | (extract_lets +onlyGivenNames x; unfold x; clear x)
    | split)

theorem execYield_same (a0 : Master) (s : State) :
    ∃ t, execYield a0 s = .next t ∧ Same 201758978604794 s t := by
  delta execYield
  repeat' (first
    | refine ⟨_, rfl, ?_⟩
    | with_reducible exact Same.refl _ _
    | with_reducible assumption
    | ((with_reducible apply Same.step ?_ (smbEval_same _) ?_); on_goal 1 => rfl)
    | ((with_reducible apply Same.step ?_ (regPut_same _ _ _ _) ?_); on_goal 1 => rfl)
    | (extract_lets +onlyGivenNames x; (with_reducible apply Same.cut x ?_ ?_); (on_goal 1 => (unfold x; clear x)); (on_goal 2 => (intro hx; clear_value x)))
    | (extract_lets +onlyGivenNames x; clear_value x)
    | (extract_lets +onlyGivenNames x; unfold x; clear x)
    | split)

theorem execZdaSentence_same (a0 : Fin 4) (a1 : List Byte) (s : State) :
    ∃ t, execZdaSentence a0 a1 s = .next t ∧ Same 401424 s t := by
  delta execZdaSentence
  repeat' (first
    | refine ⟨_, rfl, ?_⟩
    | with_reducible exact Same.refl _ _
    | with_reducible assumption
    | ((with_reducible apply Same.step ?_ (zdaIn_same _ _ _) ?_); on_goal 1 => rfl)
    | (extract_lets +onlyGivenNames x; (with_reducible apply Same.cut x ?_ ?_); (on_goal 1 => (unfold x; clear x)); (on_goal 2 => (intro hx; clear_value x)))
    | (extract_lets +onlyGivenNames x; clear_value x)
    | (extract_lets +onlyGivenNames x; unfold x; clear x)
    | split)

theorem execZeroCrossing_same (a0 : ℤ) (s : State) :
    ∃ t, execZeroCrossing a0 s = .next t ∧ Same 141029613249552 s t := by
  delta execZeroCrossing
  repeat' (first
    | refine ⟨_, rfl, ?_⟩
    | with_reducible exact Same.refl _ _
    | with_reducible assumption
    | ((with_reducible apply Same.step ?_ (zeroRun_same _ _) ?_); on_goal 1 => rfl)
    | (extract_lets +onlyGivenNames x; (with_reducible apply Same.cut x ?_ ?_); (on_goal 1 => (unfold x; clear x)); (on_goal 2 => (intro hx; clear_value x)))
    | (extract_lets +onlyGivenNames x; clear_value x)
    | (extract_lets +onlyGivenNames x; unfold x; clear x)
    | split)


end Sys2Proof.Machine
end

