-- ==== Sys2Proof/Laws/Map.lean ====
section
/-!
SUPPORT. The laws of the sparse maps in which State holds its sparse data: a read after a write, and the canonical form.
-/
namespace Sys2Proof.Machine

open Sys2Proof

variable {α : Type}

@[simp] theorem mget_nil (d : Nat → α) (k : Nat) : mget d [] k = d k := rfl

theorem mget_mdel_same (d : Nat → α) (m : List (Nat × α)) (k : Nat) : mget d (mdel m k) k = d k := by
  induction m with
  | nil => rfl
  | cons p t ih =>
    obtain ⟨a, x⟩ := p
    unfold mdel
    split
    · exact ih
    · rename_i h
      rw [mget, if_neg h, ih]

theorem mget_mdel_ne (d : Nat → α) (m : List (Nat × α)) {j k : Nat} (h : j ≠ k) : mget d (mdel m k) j = mget d m j := by
  induction m with
  | nil => rfl
  | cons p t ih =>
    obtain ⟨a, x⟩ := p
    unfold mdel
    by_cases e : a = k
    · subst e
      rw [if_pos rfl, ih, mget, if_neg (Ne.symm h)]
    · rw [if_neg e, mget, mget, ih]

theorem mget_mins_same (d : Nat → α) (m : List (Nat × α)) (k : Nat) (v : α) (h : mdel m k = m) : mget d (mins m k v) k = v := by
  induction m with
  | nil => simp [mins, mget]
  | cons p t ih =>
    obtain ⟨a, x⟩ := p
    unfold mins
    have ha : a ≠ k := by
      intro e
      subst e
      have hl : (mdel t a).length ≤ t.length := by
        clear ih h
        induction t with
        | nil => simp [mdel]
        | cons q u iu =>
          obtain ⟨b, y⟩ := q
          unfold mdel
          split
          · simp only [List.length_cons]; omega
          · simp only [List.length_cons]; omega
      have := congrArg List.length h
      simp only [mdel, if_pos, List.length_cons] at this
      omega
    split
    · simp [mget]
    · rw [mget, if_neg ha]
      apply ih
      simpa [mdel, ha] using h

theorem mget_mins_ne (d : Nat → α) (m : List (Nat × α)) {j k : Nat} (v : α) (h : j ≠ k) : mget d (mins m k v) j = mget d m j := by
  induction m with
  | nil => simp [mins, mget, Ne.symm h]
  | cons p t ih =>
    obtain ⟨a, x⟩ := p
    unfold mins
    split
    · rw [mget, if_neg (Ne.symm h)]
    · rw [mget, mget, ih]

theorem mdel_mdel (m : List (Nat × α)) (k : Nat) : mdel (mdel m k) k = mdel m k := by
  induction m with
  | nil => rfl
  | cons p t ih =>
    obtain ⟨a, x⟩ := p
    by_cases e : a = k
    · simp [mdel, e, ih]
    · simp [mdel, e, ih]

/-- A read of the key that was written gives the value written. -/
@[simp] theorem mget_mput_same [DecidableEq α] (d : Nat → α) (m : List (Nat × α)) (k : Nat) (v : α) :
    mget d (mput d m k v) k = v := by
  unfold mput
  split
  · rename_i h
    rw [mget_mdel_same, h]
  · exact mget_mins_same d _ k v (mdel_mdel m k)

/-- A write leaves every other key. -/
theorem mget_mput_ne [DecidableEq α] (d : Nat → α) (m : List (Nat × α)) {j k : Nat} (v : α) (h : j ≠ k) :
    mget d (mput d m k v) j = mget d m j := by
  unfold mput
  split
  · exact mget_mdel_ne d m h
  · rw [mget_mins_ne d _ v h, mget_mdel_ne d m h]

/-- A read after a write, in one line. -/
theorem mget_mput [DecidableEq α] (d : Nat → α) (m : List (Nat × α)) (j k : Nat) (v : α) :
    mget d (mput d m k v) j = if j = k then v else mget d m j := by
  split
  · rename_i h
    rw [h, mget_mput_same]
  · rename_i h
    exact mget_mput_ne d m v h

theorem mem_mdel {m : List (Nat × α)} {k : Nat} {p : Nat × α} (h : p ∈ mdel m k) : p ∈ m ∧ p.1 ≠ k := by
  induction m with
  | nil => simp [mdel] at h
  | cons q t ih =>
    obtain ⟨a, x⟩ := q
    unfold mdel at h
    split at h
    · exact ⟨List.mem_cons_of_mem _ (ih h).1, (ih h).2⟩
    · rename_i e
      rcases List.mem_cons.mp h with rfl | h
      · exact ⟨List.mem_cons_self, e⟩
      · exact ⟨List.mem_cons_of_mem _ (ih h).1, (ih h).2⟩

theorem mwf_mdel [DecidableEq α] (d : Nat → α) (m : List (Nat × α)) (k : Nat) (h : mwf d m = true) : mwf d (mdel m k) = true := by
  induction m with
  | nil => rfl
  | cons p t ih =>
    obtain ⟨a, x⟩ := p
    simp only [mwf, Bool.and_eq_true, List.all_eq_true, decide_eq_true_eq] at h
    obtain ⟨⟨h1, h2⟩, h3⟩ := h
    unfold mdel
    split
    · exact ih h3
    · simp only [mwf, Bool.and_eq_true, List.all_eq_true, decide_eq_true_eq]
      exact ⟨⟨h1, fun q hq => h2 q (mem_mdel hq).1⟩, ih h3⟩

theorem mem_mins {m : List (Nat × α)} {k : Nat} {v : α} {p : Nat × α} (h : p ∈ mins m k v) : p = (k, v) ∨ p ∈ m := by
  induction m with
  | nil => simpa [mins] using h
  | cons q t ih =>
    obtain ⟨a, x⟩ := q
    unfold mins at h
    split at h
    · rcases List.mem_cons.mp h with h | h
      · exact .inl h
      · exact .inr h
    · rcases List.mem_cons.mp h with h | h
      · exact .inr (h ▸ List.mem_cons_self)
      · rcases ih h with h | h
        · exact .inl h
        · exact .inr (List.mem_cons_of_mem _ h)

theorem mwf_mins [DecidableEq α] (d : Nat → α) (m : List (Nat × α)) (k : Nat) (v : α) (hv : v ≠ d k) (hk : ∀ p ∈ m, p.1 ≠ k)
    (h : mwf d m = true) : mwf d (mins m k v) = true := by
  induction m with
  | nil => simp [mins, mwf, hv]
  | cons p t ih =>
    obtain ⟨a, x⟩ := p
    have ha : a ≠ k := hk (a, x) List.mem_cons_self
    have h' := h
    simp only [mwf, Bool.and_eq_true, List.all_eq_true, decide_eq_true_eq] at h
    obtain ⟨⟨h1, h2⟩, h3⟩ := h
    unfold mins
    split
    · rename_i hlt
      rw [mwf, Bool.and_eq_true, Bool.and_eq_true, List.all_eq_true]
      refine ⟨⟨decide_eq_true hv, fun q hq => decide_eq_true ?_⟩, h'⟩
      rcases List.mem_cons.mp hq with rfl | hq
      · exact hlt
      · exact lt_trans hlt (h2 q hq)
    · rename_i hlt
      rw [mwf, Bool.and_eq_true, Bool.and_eq_true, List.all_eq_true]
      refine ⟨⟨decide_eq_true h1, fun q hq => decide_eq_true ?_⟩, ih (fun q hq => hk q (List.mem_cons_of_mem _ hq)) h3⟩
      rcases mem_mins hq with rfl | hq
      · show a < k
        omega
      · exact h2 q hq

/-- A write keeps the canonical form. -/
theorem mwf_mput [DecidableEq α] (d : Nat → α) (m : List (Nat × α)) (k : Nat) (v : α) (h : mwf d m = true) :
    mwf d (mput d m k v) = true := by
  unfold mput
  split
  · exact mwf_mdel d m k h
  · rename_i hv
    exact mwf_mins d _ k v hv (fun p hp => (mem_mdel hp).2) (mwf_mdel d m k h)

end Sys2Proof.Machine
end

