-- ==== Sys2Proof/Laws/State.lean ====
section
/-!
SUPPORT. What each update of the state leaves and gives, one line for each field and each update.
-/
namespace Sys2Proof.Machine

open Sys2Proof

@[simp] theorem wr_pending (s : State) (o v : Nat) : (wr s o v).pending = s.pending := rfl
@[simp] theorem wr_free (s : State) (o v : Nat) : (wr s o v).free = s.free := rfl
@[simp] theorem wr_cyc (s : State) (o v : Nat) : (wr s o v).cyc = s.cyc := rfl
@[simp] theorem wr_order (s : State) (o v : Nat) : (wr s o v).order = s.order := rfl
@[simp] theorem wr_shadow (s : State) (o v : Nat) : (wr s o v).shadow = s.shadow := rfl
@[simp] theorem wr_staging (s : State) (o v : Nat) : (wr s o v).staging = s.staging := rfl
@[simp] theorem wr_posted (s : State) (o v : Nat) : (wr s o v).posted = s.posted := rfl
@[simp] theorem wr_mem (s : State) (o v : Nat) : (wr s o v).mem = s.mem := rfl
@[simp] theorem wr_time (s : State) (o v : Nat) : (wr s o v).time = s.time := rfl
@[simp] theorem wr_seal (s : State) (o v : Nat) : (wr s o v).seal_ = s.seal_ := rfl
@[simp] theorem wr_fcol (s : State) (o v : Nat) : (wr s o v).fcol = s.fcol := rfl
@[simp] theorem wr_snap (s : State) (o v : Nat) : (wr s o v).snap = s.snap := rfl
@[simp] theorem wr_scs (s : State) (o v : Nat) : (wr s o v).scs = s.scs := rfl
@[simp] theorem wr_fods (s : State) (o v : Nat) : (wr s o v).fods = s.fods := rfl
@[simp] theorem wr_refs (s : State) (o v : Nat) : (wr s o v).refs = s.refs := rfl
@[simp] theorem wr_dps (s : State) (o v : Nat) : (wr s o v).dps = s.dps := rfl
@[simp] theorem wr_scr (s : State) (o v : Nat) : (wr s o v).scr = s.scr := rfl
@[simp] theorem wr_lanes (s : State) (o v : Nat) : (wr s o v).lanes = s.lanes := rfl
@[simp] theorem wr_ports (s : State) (o v : Nat) : (wr s o v).ports = s.ports := rfl
@[simp] theorem wr_ingress (s : State) (o v : Nat) : (wr s o v).ingress = s.ingress := rfl
@[simp] theorem wr_gone (s : State) (o v : Nat) : (wr s o v).gone = s.gone := rfl
@[simp] theorem wr_rings (s : State) (o v : Nat) : (wr s o v).rings = s.rings := rfl
@[simp] theorem wr_corrPause (s : State) (o v : Nat) : (wr s o v).corrPause = s.corrPause := rfl
@[simp] theorem wr_tdcFail (s : State) (o v : Nat) : (wr s o v).tdcFail = s.tdcFail := rfl
@[simp] theorem wr_groups (s : State) (o v : Nat) : (wr s o v).groups = s.groups := rfl
@[simp] theorem wr_coreAwake (s : State) (o v : Nat) : (wr s o v).coreAwake = s.coreAwake := rfl
@[simp] theorem wr_standby (s : State) (o v : Nat) : (wr s o v).standby = s.standby := rfl
@[simp] theorem wr_mateReady (s : State) (o v : Nat) : (wr s o v).mateReady = s.mateReady := rfl
@[simp] theorem wr_mate (s : State) (o v : Nat) : (wr s o v).mate = s.mate := rfl
@[simp] theorem wr_nvs (s : State) (o v : Nat) : (wr s o v).nvs = s.nvs := rfl
@[simp] theorem wr_cal (s : State) (o v : Nat) : (wr s o v).cal = s.cal := rfl
@[simp] theorem wr_cmd (s : State) (o v : Nat) : (wr s o v).cmd = s.cmd := rfl
@[simp] theorem wr_dmas (s : State) (o v : Nat) : (wr s o v).dmas = s.dmas := rfl
@[simp] theorem wr_dmaLast (s : State) (o v : Nat) : (wr s o v).dmaLast = s.dmaLast := rfl
@[simp] theorem wr_seqs (s : State) (o v : Nat) : (wr s o v).seqs = s.seqs := rfl
@[simp] theorem wr_pwr (s : State) (o v : Nat) : (wr s o v).pwr = s.pwr := rfl
@[simp] theorem wr_smb (s : State) (o v : Nat) : (wr s o v).smb = s.smb := rfl
@[simp] theorem wr_pcieUp (s : State) (o v : Nat) : (wr s o v).pcieUp = s.pcieUp := rfl
@[simp] theorem wr_msix (s : State) (o v : Nat) : (wr s o v).msix = s.msix := rfl
@[simp] theorem wr_pba (s : State) (o v : Nat) : (wr s o v).pba = s.pba := rfl
@[simp] theorem wr_nvsLoaded (s : State) (o v : Nat) : (wr s o v).nvsLoaded = s.nvsLoaded := rfl
@[simp] theorem wr_out (s : State) (o v : Nat) : (wr s o v).out = s.out := rfl
@[simp] theorem sc_wr (s : State) (o v : Nat) (k : Nat) : sc (wr s o v) k = sc s k := rfl
@[simp] theorem fod_wr (s : State) (o v : Nat) (k : Nat) : fod (wr s o v) k = fod s k := rfl
@[simp] theorem ref_wr (s : State) (o v : Nat) (k : Nat) : ref (wr s o v) k = ref s k := rfl
@[simp] theorem dp_wr (s : State) (o v : Nat) (k : Nat) : dp (wr s o v) k = dp s k := rfl
@[simp] theorem lane_wr (s : State) (o v : Nat) (k : Nat) : lane (wr s o v) k = lane s k := rfl
@[simp] theorem port_wr (s : State) (o v : Nat) (k : Nat) : port (wr s o v) k = port s k := rfl
@[simp] theorem ring_wr (s : State) (o v : Nat) (k : Nat) : ring (wr s o v) k = ring s k := rfl
@[simp] theorem dma_wr (s : State) (o v : Nat) (k : Nat) : dma (wr s o v) k = dma s k := rfl
@[simp] theorem seqc_wr (s : State) (o v : Nat) (k : Nat) : seqc (wr s o v) k = seqc s k := rfl

@[simp] theorem emit_pending (s : State) (o : Out) : (emit s o).pending = s.pending := rfl
@[simp] theorem emit_free (s : State) (o : Out) : (emit s o).free = s.free := rfl
@[simp] theorem emit_cyc (s : State) (o : Out) : (emit s o).cyc = s.cyc := rfl
@[simp] theorem emit_order (s : State) (o : Out) : (emit s o).order = s.order := rfl
@[simp] theorem emit_regs (s : State) (o : Out) : (emit s o).regs = s.regs := rfl
@[simp] theorem emit_shadow (s : State) (o : Out) : (emit s o).shadow = s.shadow := rfl
@[simp] theorem emit_staging (s : State) (o : Out) : (emit s o).staging = s.staging := rfl
@[simp] theorem emit_posted (s : State) (o : Out) : (emit s o).posted = s.posted := rfl
@[simp] theorem emit_mem (s : State) (o : Out) : (emit s o).mem = s.mem := rfl
@[simp] theorem emit_time (s : State) (o : Out) : (emit s o).time = s.time := rfl
@[simp] theorem emit_seal (s : State) (o : Out) : (emit s o).seal_ = s.seal_ := rfl
@[simp] theorem emit_fcol (s : State) (o : Out) : (emit s o).fcol = s.fcol := rfl
@[simp] theorem emit_snap (s : State) (o : Out) : (emit s o).snap = s.snap := rfl
@[simp] theorem emit_scs (s : State) (o : Out) : (emit s o).scs = s.scs := rfl
@[simp] theorem emit_fods (s : State) (o : Out) : (emit s o).fods = s.fods := rfl
@[simp] theorem emit_refs (s : State) (o : Out) : (emit s o).refs = s.refs := rfl
@[simp] theorem emit_dps (s : State) (o : Out) : (emit s o).dps = s.dps := rfl
@[simp] theorem emit_scr (s : State) (o : Out) : (emit s o).scr = s.scr := rfl
@[simp] theorem emit_lanes (s : State) (o : Out) : (emit s o).lanes = s.lanes := rfl
@[simp] theorem emit_ports (s : State) (o : Out) : (emit s o).ports = s.ports := rfl
@[simp] theorem emit_ingress (s : State) (o : Out) : (emit s o).ingress = s.ingress := rfl
@[simp] theorem emit_gone (s : State) (o : Out) : (emit s o).gone = s.gone := rfl
@[simp] theorem emit_rings (s : State) (o : Out) : (emit s o).rings = s.rings := rfl
@[simp] theorem emit_corrPause (s : State) (o : Out) : (emit s o).corrPause = s.corrPause := rfl
@[simp] theorem emit_tdcFail (s : State) (o : Out) : (emit s o).tdcFail = s.tdcFail := rfl
@[simp] theorem emit_groups (s : State) (o : Out) : (emit s o).groups = s.groups := rfl
@[simp] theorem emit_coreAwake (s : State) (o : Out) : (emit s o).coreAwake = s.coreAwake := rfl
@[simp] theorem emit_standby (s : State) (o : Out) : (emit s o).standby = s.standby := rfl
@[simp] theorem emit_mateReady (s : State) (o : Out) : (emit s o).mateReady = s.mateReady := rfl
@[simp] theorem emit_mate (s : State) (o : Out) : (emit s o).mate = s.mate := rfl
@[simp] theorem emit_nvs (s : State) (o : Out) : (emit s o).nvs = s.nvs := rfl
@[simp] theorem emit_cal (s : State) (o : Out) : (emit s o).cal = s.cal := rfl
@[simp] theorem emit_cmd (s : State) (o : Out) : (emit s o).cmd = s.cmd := rfl
@[simp] theorem emit_dmas (s : State) (o : Out) : (emit s o).dmas = s.dmas := rfl
@[simp] theorem emit_dmaLast (s : State) (o : Out) : (emit s o).dmaLast = s.dmaLast := rfl
@[simp] theorem emit_seqs (s : State) (o : Out) : (emit s o).seqs = s.seqs := rfl
@[simp] theorem emit_pwr (s : State) (o : Out) : (emit s o).pwr = s.pwr := rfl
@[simp] theorem emit_smb (s : State) (o : Out) : (emit s o).smb = s.smb := rfl
@[simp] theorem emit_pcieUp (s : State) (o : Out) : (emit s o).pcieUp = s.pcieUp := rfl
@[simp] theorem emit_msix (s : State) (o : Out) : (emit s o).msix = s.msix := rfl
@[simp] theorem emit_pba (s : State) (o : Out) : (emit s o).pba = s.pba := rfl
@[simp] theorem emit_nvsLoaded (s : State) (o : Out) : (emit s o).nvsLoaded = s.nvsLoaded := rfl
@[simp] theorem sc_emit (s : State) (o : Out) (k : Nat) : sc (emit s o) k = sc s k := rfl
@[simp] theorem fod_emit (s : State) (o : Out) (k : Nat) : fod (emit s o) k = fod s k := rfl
@[simp] theorem ref_emit (s : State) (o : Out) (k : Nat) : ref (emit s o) k = ref s k := rfl
@[simp] theorem dp_emit (s : State) (o : Out) (k : Nat) : dp (emit s o) k = dp s k := rfl
@[simp] theorem lane_emit (s : State) (o : Out) (k : Nat) : lane (emit s o) k = lane s k := rfl
@[simp] theorem port_emit (s : State) (o : Out) (k : Nat) : port (emit s o) k = port s k := rfl
@[simp] theorem ring_emit (s : State) (o : Out) (k : Nat) : ring (emit s o) k = ring s k := rfl
@[simp] theorem dma_emit (s : State) (o : Out) (k : Nat) : dma (emit s o) k = dma s k := rfl
@[simp] theorem seqc_emit (s : State) (o : Out) (k : Nat) : seqc (emit s o) k = seqc s k := rfl
@[simp] theorem rd_emit (s : State) (o : Out) (k : Nat) : rd (emit s o) k = rd s k := rfl
@[simp] theorem rn_emit (s : State) (o : Out) (k : Nat) : rn (emit s o) k = rn s k := rfl

@[simp] theorem enqueue_pending (s : State) (r : Report) : (enqueue s r).pending = s.pending := rfl
@[simp] theorem enqueue_free (s : State) (r : Report) : (enqueue s r).free = s.free := rfl
@[simp] theorem enqueue_cyc (s : State) (r : Report) : (enqueue s r).cyc = s.cyc := rfl
@[simp] theorem enqueue_order (s : State) (r : Report) : (enqueue s r).order = s.order := rfl
@[simp] theorem enqueue_regs (s : State) (r : Report) : (enqueue s r).regs = s.regs := rfl
@[simp] theorem enqueue_shadow (s : State) (r : Report) : (enqueue s r).shadow = s.shadow := rfl
@[simp] theorem enqueue_staging (s : State) (r : Report) : (enqueue s r).staging = s.staging := rfl
@[simp] theorem enqueue_posted (s : State) (r : Report) : (enqueue s r).posted = s.posted := rfl
@[simp] theorem enqueue_mem (s : State) (r : Report) : (enqueue s r).mem = s.mem := rfl
@[simp] theorem enqueue_time (s : State) (r : Report) : (enqueue s r).time = s.time := rfl
@[simp] theorem enqueue_seal (s : State) (r : Report) : (enqueue s r).seal_ = s.seal_ := rfl
@[simp] theorem enqueue_snap (s : State) (r : Report) : (enqueue s r).snap = s.snap := rfl
@[simp] theorem enqueue_scs (s : State) (r : Report) : (enqueue s r).scs = s.scs := rfl
@[simp] theorem enqueue_fods (s : State) (r : Report) : (enqueue s r).fods = s.fods := rfl
@[simp] theorem enqueue_refs (s : State) (r : Report) : (enqueue s r).refs = s.refs := rfl
@[simp] theorem enqueue_dps (s : State) (r : Report) : (enqueue s r).dps = s.dps := rfl
@[simp] theorem enqueue_scr (s : State) (r : Report) : (enqueue s r).scr = s.scr := rfl
@[simp] theorem enqueue_lanes (s : State) (r : Report) : (enqueue s r).lanes = s.lanes := rfl
@[simp] theorem enqueue_ports (s : State) (r : Report) : (enqueue s r).ports = s.ports := rfl
@[simp] theorem enqueue_ingress (s : State) (r : Report) : (enqueue s r).ingress = s.ingress := rfl
@[simp] theorem enqueue_gone (s : State) (r : Report) : (enqueue s r).gone = s.gone := rfl
@[simp] theorem enqueue_rings (s : State) (r : Report) : (enqueue s r).rings = s.rings := rfl
@[simp] theorem enqueue_corrPause (s : State) (r : Report) : (enqueue s r).corrPause = s.corrPause := rfl
@[simp] theorem enqueue_tdcFail (s : State) (r : Report) : (enqueue s r).tdcFail = s.tdcFail := rfl
@[simp] theorem enqueue_groups (s : State) (r : Report) : (enqueue s r).groups = s.groups := rfl
@[simp] theorem enqueue_coreAwake (s : State) (r : Report) : (enqueue s r).coreAwake = s.coreAwake := rfl
@[simp] theorem enqueue_standby (s : State) (r : Report) : (enqueue s r).standby = s.standby := rfl
@[simp] theorem enqueue_mateReady (s : State) (r : Report) : (enqueue s r).mateReady = s.mateReady := rfl
@[simp] theorem enqueue_mate (s : State) (r : Report) : (enqueue s r).mate = s.mate := rfl
@[simp] theorem enqueue_nvs (s : State) (r : Report) : (enqueue s r).nvs = s.nvs := rfl
@[simp] theorem enqueue_cal (s : State) (r : Report) : (enqueue s r).cal = s.cal := rfl
@[simp] theorem enqueue_cmd (s : State) (r : Report) : (enqueue s r).cmd = s.cmd := rfl
@[simp] theorem enqueue_dmas (s : State) (r : Report) : (enqueue s r).dmas = s.dmas := rfl
@[simp] theorem enqueue_dmaLast (s : State) (r : Report) : (enqueue s r).dmaLast = s.dmaLast := rfl
@[simp] theorem enqueue_seqs (s : State) (r : Report) : (enqueue s r).seqs = s.seqs := rfl
@[simp] theorem enqueue_pwr (s : State) (r : Report) : (enqueue s r).pwr = s.pwr := rfl
@[simp] theorem enqueue_smb (s : State) (r : Report) : (enqueue s r).smb = s.smb := rfl
@[simp] theorem enqueue_pcieUp (s : State) (r : Report) : (enqueue s r).pcieUp = s.pcieUp := rfl
@[simp] theorem enqueue_msix (s : State) (r : Report) : (enqueue s r).msix = s.msix := rfl
@[simp] theorem enqueue_pba (s : State) (r : Report) : (enqueue s r).pba = s.pba := rfl
@[simp] theorem enqueue_nvsLoaded (s : State) (r : Report) : (enqueue s r).nvsLoaded = s.nvsLoaded := rfl
@[simp] theorem enqueue_out (s : State) (r : Report) : (enqueue s r).out = s.out := rfl
@[simp] theorem sc_enqueue (s : State) (r : Report) (k : Nat) : sc (enqueue s r) k = sc s k := rfl
@[simp] theorem fod_enqueue (s : State) (r : Report) (k : Nat) : fod (enqueue s r) k = fod s k := rfl
@[simp] theorem ref_enqueue (s : State) (r : Report) (k : Nat) : ref (enqueue s r) k = ref s k := rfl
@[simp] theorem dp_enqueue (s : State) (r : Report) (k : Nat) : dp (enqueue s r) k = dp s k := rfl
@[simp] theorem lane_enqueue (s : State) (r : Report) (k : Nat) : lane (enqueue s r) k = lane s k := rfl
@[simp] theorem port_enqueue (s : State) (r : Report) (k : Nat) : port (enqueue s r) k = port s k := rfl
@[simp] theorem ring_enqueue (s : State) (r : Report) (k : Nat) : ring (enqueue s r) k = ring s k := rfl
@[simp] theorem dma_enqueue (s : State) (r : Report) (k : Nat) : dma (enqueue s r) k = dma s k := rfl
@[simp] theorem seqc_enqueue (s : State) (r : Report) (k : Nat) : seqc (enqueue s r) k = seqc s k := rfl
@[simp] theorem rd_enqueue (s : State) (r : Report) (k : Nat) : rd (enqueue s r) k = rd s k := rfl
@[simp] theorem rn_enqueue (s : State) (r : Report) (k : Nat) : rn (enqueue s r) k = rn s k := rfl

@[simp] theorem setSc_pending (s : State) (n : Nat) (x : Sc) : (setSc s n x).pending = s.pending := rfl
@[simp] theorem setSc_free (s : State) (n : Nat) (x : Sc) : (setSc s n x).free = s.free := rfl
@[simp] theorem setSc_cyc (s : State) (n : Nat) (x : Sc) : (setSc s n x).cyc = s.cyc := rfl
@[simp] theorem setSc_order (s : State) (n : Nat) (x : Sc) : (setSc s n x).order = s.order := rfl
@[simp] theorem setSc_regs (s : State) (n : Nat) (x : Sc) : (setSc s n x).regs = s.regs := rfl
@[simp] theorem setSc_shadow (s : State) (n : Nat) (x : Sc) : (setSc s n x).shadow = s.shadow := rfl
@[simp] theorem setSc_staging (s : State) (n : Nat) (x : Sc) : (setSc s n x).staging = s.staging := rfl
@[simp] theorem setSc_posted (s : State) (n : Nat) (x : Sc) : (setSc s n x).posted = s.posted := rfl
@[simp] theorem setSc_mem (s : State) (n : Nat) (x : Sc) : (setSc s n x).mem = s.mem := rfl
@[simp] theorem setSc_time (s : State) (n : Nat) (x : Sc) : (setSc s n x).time = s.time := rfl
@[simp] theorem setSc_seal (s : State) (n : Nat) (x : Sc) : (setSc s n x).seal_ = s.seal_ := rfl
@[simp] theorem setSc_fcol (s : State) (n : Nat) (x : Sc) : (setSc s n x).fcol = s.fcol := rfl
@[simp] theorem setSc_snap (s : State) (n : Nat) (x : Sc) : (setSc s n x).snap = s.snap := rfl
@[simp] theorem setSc_fods (s : State) (n : Nat) (x : Sc) : (setSc s n x).fods = s.fods := rfl
@[simp] theorem setSc_refs (s : State) (n : Nat) (x : Sc) : (setSc s n x).refs = s.refs := rfl
@[simp] theorem setSc_dps (s : State) (n : Nat) (x : Sc) : (setSc s n x).dps = s.dps := rfl
@[simp] theorem setSc_scr (s : State) (n : Nat) (x : Sc) : (setSc s n x).scr = s.scr := rfl
@[simp] theorem setSc_lanes (s : State) (n : Nat) (x : Sc) : (setSc s n x).lanes = s.lanes := rfl
@[simp] theorem setSc_ports (s : State) (n : Nat) (x : Sc) : (setSc s n x).ports = s.ports := rfl
@[simp] theorem setSc_ingress (s : State) (n : Nat) (x : Sc) : (setSc s n x).ingress = s.ingress := rfl
@[simp] theorem setSc_gone (s : State) (n : Nat) (x : Sc) : (setSc s n x).gone = s.gone := rfl
@[simp] theorem setSc_rings (s : State) (n : Nat) (x : Sc) : (setSc s n x).rings = s.rings := rfl
@[simp] theorem setSc_corrPause (s : State) (n : Nat) (x : Sc) : (setSc s n x).corrPause = s.corrPause := rfl
@[simp] theorem setSc_tdcFail (s : State) (n : Nat) (x : Sc) : (setSc s n x).tdcFail = s.tdcFail := rfl
@[simp] theorem setSc_groups (s : State) (n : Nat) (x : Sc) : (setSc s n x).groups = s.groups := rfl
@[simp] theorem setSc_coreAwake (s : State) (n : Nat) (x : Sc) : (setSc s n x).coreAwake = s.coreAwake := rfl
@[simp] theorem setSc_standby (s : State) (n : Nat) (x : Sc) : (setSc s n x).standby = s.standby := rfl
@[simp] theorem setSc_mateReady (s : State) (n : Nat) (x : Sc) : (setSc s n x).mateReady = s.mateReady := rfl
@[simp] theorem setSc_mate (s : State) (n : Nat) (x : Sc) : (setSc s n x).mate = s.mate := rfl
@[simp] theorem setSc_nvs (s : State) (n : Nat) (x : Sc) : (setSc s n x).nvs = s.nvs := rfl
@[simp] theorem setSc_cal (s : State) (n : Nat) (x : Sc) : (setSc s n x).cal = s.cal := rfl
@[simp] theorem setSc_cmd (s : State) (n : Nat) (x : Sc) : (setSc s n x).cmd = s.cmd := rfl
@[simp] theorem setSc_dmas (s : State) (n : Nat) (x : Sc) : (setSc s n x).dmas = s.dmas := rfl
@[simp] theorem setSc_dmaLast (s : State) (n : Nat) (x : Sc) : (setSc s n x).dmaLast = s.dmaLast := rfl
@[simp] theorem setSc_seqs (s : State) (n : Nat) (x : Sc) : (setSc s n x).seqs = s.seqs := rfl
@[simp] theorem setSc_pwr (s : State) (n : Nat) (x : Sc) : (setSc s n x).pwr = s.pwr := rfl
@[simp] theorem setSc_smb (s : State) (n : Nat) (x : Sc) : (setSc s n x).smb = s.smb := rfl
@[simp] theorem setSc_pcieUp (s : State) (n : Nat) (x : Sc) : (setSc s n x).pcieUp = s.pcieUp := rfl
@[simp] theorem setSc_msix (s : State) (n : Nat) (x : Sc) : (setSc s n x).msix = s.msix := rfl
@[simp] theorem setSc_pba (s : State) (n : Nat) (x : Sc) : (setSc s n x).pba = s.pba := rfl
@[simp] theorem setSc_nvsLoaded (s : State) (n : Nat) (x : Sc) : (setSc s n x).nvsLoaded = s.nvsLoaded := rfl
@[simp] theorem setSc_out (s : State) (n : Nat) (x : Sc) : (setSc s n x).out = s.out := rfl
@[simp] theorem sc_setSc_same (s : State) (n : Nat) (x : Sc) : sc (setSc s n x) n = x := mget_mput_same _ _ _ _
theorem sc_setSc_ne (s : State) (n : Nat) (x : Sc) {k : Nat} (h : k ≠ n) : sc (setSc s n x) k = sc s k := mget_mput_ne _ _ _ h
@[simp] theorem fod_setSc (s : State) (n : Nat) (x : Sc) (k : Nat) : fod (setSc s n x) k = fod s k := rfl
@[simp] theorem ref_setSc (s : State) (n : Nat) (x : Sc) (k : Nat) : ref (setSc s n x) k = ref s k := rfl
@[simp] theorem dp_setSc (s : State) (n : Nat) (x : Sc) (k : Nat) : dp (setSc s n x) k = dp s k := rfl
@[simp] theorem lane_setSc (s : State) (n : Nat) (x : Sc) (k : Nat) : lane (setSc s n x) k = lane s k := rfl
@[simp] theorem port_setSc (s : State) (n : Nat) (x : Sc) (k : Nat) : port (setSc s n x) k = port s k := rfl
@[simp] theorem ring_setSc (s : State) (n : Nat) (x : Sc) (k : Nat) : ring (setSc s n x) k = ring s k := rfl
@[simp] theorem dma_setSc (s : State) (n : Nat) (x : Sc) (k : Nat) : dma (setSc s n x) k = dma s k := rfl
@[simp] theorem seqc_setSc (s : State) (n : Nat) (x : Sc) (k : Nat) : seqc (setSc s n x) k = seqc s k := rfl
@[simp] theorem rd_setSc (s : State) (n : Nat) (x : Sc) (k : Nat) : rd (setSc s n x) k = rd s k := rfl
@[simp] theorem rn_setSc (s : State) (n : Nat) (x : Sc) (k : Nat) : rn (setSc s n x) k = rn s k := rfl

@[simp] theorem setFod_pending (s : State) (n : Nat) (x : Fod) : (setFod s n x).pending = s.pending := rfl
@[simp] theorem setFod_free (s : State) (n : Nat) (x : Fod) : (setFod s n x).free = s.free := rfl
@[simp] theorem setFod_cyc (s : State) (n : Nat) (x : Fod) : (setFod s n x).cyc = s.cyc := rfl
@[simp] theorem setFod_order (s : State) (n : Nat) (x : Fod) : (setFod s n x).order = s.order := rfl
@[simp] theorem setFod_regs (s : State) (n : Nat) (x : Fod) : (setFod s n x).regs = s.regs := rfl
@[simp] theorem setFod_shadow (s : State) (n : Nat) (x : Fod) : (setFod s n x).shadow = s.shadow := rfl
@[simp] theorem setFod_staging (s : State) (n : Nat) (x : Fod) : (setFod s n x).staging = s.staging := rfl
@[simp] theorem setFod_posted (s : State) (n : Nat) (x : Fod) : (setFod s n x).posted = s.posted := rfl
@[simp] theorem setFod_mem (s : State) (n : Nat) (x : Fod) : (setFod s n x).mem = s.mem := rfl
@[simp] theorem setFod_time (s : State) (n : Nat) (x : Fod) : (setFod s n x).time = s.time := rfl
@[simp] theorem setFod_seal (s : State) (n : Nat) (x : Fod) : (setFod s n x).seal_ = s.seal_ := rfl
@[simp] theorem setFod_fcol (s : State) (n : Nat) (x : Fod) : (setFod s n x).fcol = s.fcol := rfl
@[simp] theorem setFod_snap (s : State) (n : Nat) (x : Fod) : (setFod s n x).snap = s.snap := rfl
@[simp] theorem setFod_scs (s : State) (n : Nat) (x : Fod) : (setFod s n x).scs = s.scs := rfl
@[simp] theorem setFod_refs (s : State) (n : Nat) (x : Fod) : (setFod s n x).refs = s.refs := rfl
@[simp] theorem setFod_dps (s : State) (n : Nat) (x : Fod) : (setFod s n x).dps = s.dps := rfl
@[simp] theorem setFod_scr (s : State) (n : Nat) (x : Fod) : (setFod s n x).scr = s.scr := rfl
@[simp] theorem setFod_lanes (s : State) (n : Nat) (x : Fod) : (setFod s n x).lanes = s.lanes := rfl
@[simp] theorem setFod_ports (s : State) (n : Nat) (x : Fod) : (setFod s n x).ports = s.ports := rfl
@[simp] theorem setFod_ingress (s : State) (n : Nat) (x : Fod) : (setFod s n x).ingress = s.ingress := rfl
@[simp] theorem setFod_gone (s : State) (n : Nat) (x : Fod) : (setFod s n x).gone = s.gone := rfl
@[simp] theorem setFod_rings (s : State) (n : Nat) (x : Fod) : (setFod s n x).rings = s.rings := rfl
@[simp] theorem setFod_corrPause (s : State) (n : Nat) (x : Fod) : (setFod s n x).corrPause = s.corrPause := rfl
@[simp] theorem setFod_tdcFail (s : State) (n : Nat) (x : Fod) : (setFod s n x).tdcFail = s.tdcFail := rfl
@[simp] theorem setFod_groups (s : State) (n : Nat) (x : Fod) : (setFod s n x).groups = s.groups := rfl
@[simp] theorem setFod_coreAwake (s : State) (n : Nat) (x : Fod) : (setFod s n x).coreAwake = s.coreAwake := rfl
@[simp] theorem setFod_standby (s : State) (n : Nat) (x : Fod) : (setFod s n x).standby = s.standby := rfl
@[simp] theorem setFod_mateReady (s : State) (n : Nat) (x : Fod) : (setFod s n x).mateReady = s.mateReady := rfl
@[simp] theorem setFod_mate (s : State) (n : Nat) (x : Fod) : (setFod s n x).mate = s.mate := rfl
@[simp] theorem setFod_nvs (s : State) (n : Nat) (x : Fod) : (setFod s n x).nvs = s.nvs := rfl
@[simp] theorem setFod_cal (s : State) (n : Nat) (x : Fod) : (setFod s n x).cal = s.cal := rfl
@[simp] theorem setFod_cmd (s : State) (n : Nat) (x : Fod) : (setFod s n x).cmd = s.cmd := rfl
@[simp] theorem setFod_dmas (s : State) (n : Nat) (x : Fod) : (setFod s n x).dmas = s.dmas := rfl
@[simp] theorem setFod_dmaLast (s : State) (n : Nat) (x : Fod) : (setFod s n x).dmaLast = s.dmaLast := rfl
@[simp] theorem setFod_seqs (s : State) (n : Nat) (x : Fod) : (setFod s n x).seqs = s.seqs := rfl
@[simp] theorem setFod_pwr (s : State) (n : Nat) (x : Fod) : (setFod s n x).pwr = s.pwr := rfl
@[simp] theorem setFod_smb (s : State) (n : Nat) (x : Fod) : (setFod s n x).smb = s.smb := rfl
@[simp] theorem setFod_pcieUp (s : State) (n : Nat) (x : Fod) : (setFod s n x).pcieUp = s.pcieUp := rfl
@[simp] theorem setFod_msix (s : State) (n : Nat) (x : Fod) : (setFod s n x).msix = s.msix := rfl
@[simp] theorem setFod_pba (s : State) (n : Nat) (x : Fod) : (setFod s n x).pba = s.pba := rfl
@[simp] theorem setFod_nvsLoaded (s : State) (n : Nat) (x : Fod) : (setFod s n x).nvsLoaded = s.nvsLoaded := rfl
@[simp] theorem setFod_out (s : State) (n : Nat) (x : Fod) : (setFod s n x).out = s.out := rfl
@[simp] theorem sc_setFod (s : State) (n : Nat) (x : Fod) (k : Nat) : sc (setFod s n x) k = sc s k := rfl
@[simp] theorem fod_setFod_same (s : State) (n : Nat) (x : Fod) : fod (setFod s n x) n = x := mget_mput_same _ _ _ _
theorem fod_setFod_ne (s : State) (n : Nat) (x : Fod) {k : Nat} (h : k ≠ n) : fod (setFod s n x) k = fod s k := mget_mput_ne _ _ _ h
@[simp] theorem ref_setFod (s : State) (n : Nat) (x : Fod) (k : Nat) : ref (setFod s n x) k = ref s k := rfl
@[simp] theorem dp_setFod (s : State) (n : Nat) (x : Fod) (k : Nat) : dp (setFod s n x) k = dp s k := rfl
@[simp] theorem lane_setFod (s : State) (n : Nat) (x : Fod) (k : Nat) : lane (setFod s n x) k = lane s k := rfl
@[simp] theorem port_setFod (s : State) (n : Nat) (x : Fod) (k : Nat) : port (setFod s n x) k = port s k := rfl
@[simp] theorem ring_setFod (s : State) (n : Nat) (x : Fod) (k : Nat) : ring (setFod s n x) k = ring s k := rfl
@[simp] theorem dma_setFod (s : State) (n : Nat) (x : Fod) (k : Nat) : dma (setFod s n x) k = dma s k := rfl
@[simp] theorem seqc_setFod (s : State) (n : Nat) (x : Fod) (k : Nat) : seqc (setFod s n x) k = seqc s k := rfl
@[simp] theorem rd_setFod (s : State) (n : Nat) (x : Fod) (k : Nat) : rd (setFod s n x) k = rd s k := rfl
@[simp] theorem rn_setFod (s : State) (n : Nat) (x : Fod) (k : Nat) : rn (setFod s n x) k = rn s k := rfl

@[simp] theorem setRef_pending (s : State) (n : Nat) (x : Ref) : (setRef s n x).pending = s.pending := rfl
@[simp] theorem setRef_free (s : State) (n : Nat) (x : Ref) : (setRef s n x).free = s.free := rfl
@[simp] theorem setRef_cyc (s : State) (n : Nat) (x : Ref) : (setRef s n x).cyc = s.cyc := rfl
@[simp] theorem setRef_order (s : State) (n : Nat) (x : Ref) : (setRef s n x).order = s.order := rfl
@[simp] theorem setRef_regs (s : State) (n : Nat) (x : Ref) : (setRef s n x).regs = s.regs := rfl
@[simp] theorem setRef_shadow (s : State) (n : Nat) (x : Ref) : (setRef s n x).shadow = s.shadow := rfl
@[simp] theorem setRef_staging (s : State) (n : Nat) (x : Ref) : (setRef s n x).staging = s.staging := rfl
@[simp] theorem setRef_posted (s : State) (n : Nat) (x : Ref) : (setRef s n x).posted = s.posted := rfl
@[simp] theorem setRef_mem (s : State) (n : Nat) (x : Ref) : (setRef s n x).mem = s.mem := rfl
@[simp] theorem setRef_time (s : State) (n : Nat) (x : Ref) : (setRef s n x).time = s.time := rfl
@[simp] theorem setRef_seal (s : State) (n : Nat) (x : Ref) : (setRef s n x).seal_ = s.seal_ := rfl
@[simp] theorem setRef_fcol (s : State) (n : Nat) (x : Ref) : (setRef s n x).fcol = s.fcol := rfl
@[simp] theorem setRef_snap (s : State) (n : Nat) (x : Ref) : (setRef s n x).snap = s.snap := rfl
@[simp] theorem setRef_scs (s : State) (n : Nat) (x : Ref) : (setRef s n x).scs = s.scs := rfl
@[simp] theorem setRef_fods (s : State) (n : Nat) (x : Ref) : (setRef s n x).fods = s.fods := rfl
@[simp] theorem setRef_dps (s : State) (n : Nat) (x : Ref) : (setRef s n x).dps = s.dps := rfl
@[simp] theorem setRef_scr (s : State) (n : Nat) (x : Ref) : (setRef s n x).scr = s.scr := rfl
@[simp] theorem setRef_lanes (s : State) (n : Nat) (x : Ref) : (setRef s n x).lanes = s.lanes := rfl
@[simp] theorem setRef_ports (s : State) (n : Nat) (x : Ref) : (setRef s n x).ports = s.ports := rfl
@[simp] theorem setRef_ingress (s : State) (n : Nat) (x : Ref) : (setRef s n x).ingress = s.ingress := rfl
@[simp] theorem setRef_gone (s : State) (n : Nat) (x : Ref) : (setRef s n x).gone = s.gone := rfl
@[simp] theorem setRef_rings (s : State) (n : Nat) (x : Ref) : (setRef s n x).rings = s.rings := rfl
@[simp] theorem setRef_corrPause (s : State) (n : Nat) (x : Ref) : (setRef s n x).corrPause = s.corrPause := rfl
@[simp] theorem setRef_tdcFail (s : State) (n : Nat) (x : Ref) : (setRef s n x).tdcFail = s.tdcFail := rfl
@[simp] theorem setRef_groups (s : State) (n : Nat) (x : Ref) : (setRef s n x).groups = s.groups := rfl
@[simp] theorem setRef_coreAwake (s : State) (n : Nat) (x : Ref) : (setRef s n x).coreAwake = s.coreAwake := rfl
@[simp] theorem setRef_standby (s : State) (n : Nat) (x : Ref) : (setRef s n x).standby = s.standby := rfl
@[simp] theorem setRef_mateReady (s : State) (n : Nat) (x : Ref) : (setRef s n x).mateReady = s.mateReady := rfl
@[simp] theorem setRef_mate (s : State) (n : Nat) (x : Ref) : (setRef s n x).mate = s.mate := rfl
@[simp] theorem setRef_nvs (s : State) (n : Nat) (x : Ref) : (setRef s n x).nvs = s.nvs := rfl
@[simp] theorem setRef_cal (s : State) (n : Nat) (x : Ref) : (setRef s n x).cal = s.cal := rfl
@[simp] theorem setRef_cmd (s : State) (n : Nat) (x : Ref) : (setRef s n x).cmd = s.cmd := rfl
@[simp] theorem setRef_dmas (s : State) (n : Nat) (x : Ref) : (setRef s n x).dmas = s.dmas := rfl
@[simp] theorem setRef_dmaLast (s : State) (n : Nat) (x : Ref) : (setRef s n x).dmaLast = s.dmaLast := rfl
@[simp] theorem setRef_seqs (s : State) (n : Nat) (x : Ref) : (setRef s n x).seqs = s.seqs := rfl
@[simp] theorem setRef_pwr (s : State) (n : Nat) (x : Ref) : (setRef s n x).pwr = s.pwr := rfl
@[simp] theorem setRef_smb (s : State) (n : Nat) (x : Ref) : (setRef s n x).smb = s.smb := rfl
@[simp] theorem setRef_pcieUp (s : State) (n : Nat) (x : Ref) : (setRef s n x).pcieUp = s.pcieUp := rfl
@[simp] theorem setRef_msix (s : State) (n : Nat) (x : Ref) : (setRef s n x).msix = s.msix := rfl
@[simp] theorem setRef_pba (s : State) (n : Nat) (x : Ref) : (setRef s n x).pba = s.pba := rfl
@[simp] theorem setRef_nvsLoaded (s : State) (n : Nat) (x : Ref) : (setRef s n x).nvsLoaded = s.nvsLoaded := rfl
@[simp] theorem setRef_out (s : State) (n : Nat) (x : Ref) : (setRef s n x).out = s.out := rfl
@[simp] theorem sc_setRef (s : State) (n : Nat) (x : Ref) (k : Nat) : sc (setRef s n x) k = sc s k := rfl
@[simp] theorem fod_setRef (s : State) (n : Nat) (x : Ref) (k : Nat) : fod (setRef s n x) k = fod s k := rfl
@[simp] theorem ref_setRef_same (s : State) (n : Nat) (x : Ref) : ref (setRef s n x) n = x := mget_mput_same _ _ _ _
theorem ref_setRef_ne (s : State) (n : Nat) (x : Ref) {k : Nat} (h : k ≠ n) : ref (setRef s n x) k = ref s k := mget_mput_ne _ _ _ h
@[simp] theorem dp_setRef (s : State) (n : Nat) (x : Ref) (k : Nat) : dp (setRef s n x) k = dp s k := rfl
@[simp] theorem lane_setRef (s : State) (n : Nat) (x : Ref) (k : Nat) : lane (setRef s n x) k = lane s k := rfl
@[simp] theorem port_setRef (s : State) (n : Nat) (x : Ref) (k : Nat) : port (setRef s n x) k = port s k := rfl
@[simp] theorem ring_setRef (s : State) (n : Nat) (x : Ref) (k : Nat) : ring (setRef s n x) k = ring s k := rfl
@[simp] theorem dma_setRef (s : State) (n : Nat) (x : Ref) (k : Nat) : dma (setRef s n x) k = dma s k := rfl
@[simp] theorem seqc_setRef (s : State) (n : Nat) (x : Ref) (k : Nat) : seqc (setRef s n x) k = seqc s k := rfl
@[simp] theorem rd_setRef (s : State) (n : Nat) (x : Ref) (k : Nat) : rd (setRef s n x) k = rd s k := rfl
@[simp] theorem rn_setRef (s : State) (n : Nat) (x : Ref) (k : Nat) : rn (setRef s n x) k = rn s k := rfl

@[simp] theorem setDp_pending (s : State) (n : Nat) (x : Dp) : (setDp s n x).pending = s.pending := rfl
@[simp] theorem setDp_free (s : State) (n : Nat) (x : Dp) : (setDp s n x).free = s.free := rfl
@[simp] theorem setDp_cyc (s : State) (n : Nat) (x : Dp) : (setDp s n x).cyc = s.cyc := rfl
@[simp] theorem setDp_order (s : State) (n : Nat) (x : Dp) : (setDp s n x).order = s.order := rfl
@[simp] theorem setDp_regs (s : State) (n : Nat) (x : Dp) : (setDp s n x).regs = s.regs := rfl
@[simp] theorem setDp_shadow (s : State) (n : Nat) (x : Dp) : (setDp s n x).shadow = s.shadow := rfl
@[simp] theorem setDp_staging (s : State) (n : Nat) (x : Dp) : (setDp s n x).staging = s.staging := rfl
@[simp] theorem setDp_posted (s : State) (n : Nat) (x : Dp) : (setDp s n x).posted = s.posted := rfl
@[simp] theorem setDp_mem (s : State) (n : Nat) (x : Dp) : (setDp s n x).mem = s.mem := rfl
@[simp] theorem setDp_time (s : State) (n : Nat) (x : Dp) : (setDp s n x).time = s.time := rfl
@[simp] theorem setDp_seal (s : State) (n : Nat) (x : Dp) : (setDp s n x).seal_ = s.seal_ := rfl
@[simp] theorem setDp_fcol (s : State) (n : Nat) (x : Dp) : (setDp s n x).fcol = s.fcol := rfl
@[simp] theorem setDp_snap (s : State) (n : Nat) (x : Dp) : (setDp s n x).snap = s.snap := rfl
@[simp] theorem setDp_scs (s : State) (n : Nat) (x : Dp) : (setDp s n x).scs = s.scs := rfl
@[simp] theorem setDp_fods (s : State) (n : Nat) (x : Dp) : (setDp s n x).fods = s.fods := rfl
@[simp] theorem setDp_refs (s : State) (n : Nat) (x : Dp) : (setDp s n x).refs = s.refs := rfl
@[simp] theorem setDp_scr (s : State) (n : Nat) (x : Dp) : (setDp s n x).scr = s.scr := rfl
@[simp] theorem setDp_lanes (s : State) (n : Nat) (x : Dp) : (setDp s n x).lanes = s.lanes := rfl
@[simp] theorem setDp_ports (s : State) (n : Nat) (x : Dp) : (setDp s n x).ports = s.ports := rfl
@[simp] theorem setDp_ingress (s : State) (n : Nat) (x : Dp) : (setDp s n x).ingress = s.ingress := rfl
@[simp] theorem setDp_gone (s : State) (n : Nat) (x : Dp) : (setDp s n x).gone = s.gone := rfl
@[simp] theorem setDp_rings (s : State) (n : Nat) (x : Dp) : (setDp s n x).rings = s.rings := rfl
@[simp] theorem setDp_corrPause (s : State) (n : Nat) (x : Dp) : (setDp s n x).corrPause = s.corrPause := rfl
@[simp] theorem setDp_tdcFail (s : State) (n : Nat) (x : Dp) : (setDp s n x).tdcFail = s.tdcFail := rfl
@[simp] theorem setDp_groups (s : State) (n : Nat) (x : Dp) : (setDp s n x).groups = s.groups := rfl
@[simp] theorem setDp_coreAwake (s : State) (n : Nat) (x : Dp) : (setDp s n x).coreAwake = s.coreAwake := rfl
@[simp] theorem setDp_standby (s : State) (n : Nat) (x : Dp) : (setDp s n x).standby = s.standby := rfl
@[simp] theorem setDp_mateReady (s : State) (n : Nat) (x : Dp) : (setDp s n x).mateReady = s.mateReady := rfl
@[simp] theorem setDp_mate (s : State) (n : Nat) (x : Dp) : (setDp s n x).mate = s.mate := rfl
@[simp] theorem setDp_nvs (s : State) (n : Nat) (x : Dp) : (setDp s n x).nvs = s.nvs := rfl
@[simp] theorem setDp_cal (s : State) (n : Nat) (x : Dp) : (setDp s n x).cal = s.cal := rfl
@[simp] theorem setDp_cmd (s : State) (n : Nat) (x : Dp) : (setDp s n x).cmd = s.cmd := rfl
@[simp] theorem setDp_dmas (s : State) (n : Nat) (x : Dp) : (setDp s n x).dmas = s.dmas := rfl
@[simp] theorem setDp_dmaLast (s : State) (n : Nat) (x : Dp) : (setDp s n x).dmaLast = s.dmaLast := rfl
@[simp] theorem setDp_seqs (s : State) (n : Nat) (x : Dp) : (setDp s n x).seqs = s.seqs := rfl
@[simp] theorem setDp_pwr (s : State) (n : Nat) (x : Dp) : (setDp s n x).pwr = s.pwr := rfl
@[simp] theorem setDp_smb (s : State) (n : Nat) (x : Dp) : (setDp s n x).smb = s.smb := rfl
@[simp] theorem setDp_pcieUp (s : State) (n : Nat) (x : Dp) : (setDp s n x).pcieUp = s.pcieUp := rfl
@[simp] theorem setDp_msix (s : State) (n : Nat) (x : Dp) : (setDp s n x).msix = s.msix := rfl
@[simp] theorem setDp_pba (s : State) (n : Nat) (x : Dp) : (setDp s n x).pba = s.pba := rfl
@[simp] theorem setDp_nvsLoaded (s : State) (n : Nat) (x : Dp) : (setDp s n x).nvsLoaded = s.nvsLoaded := rfl
@[simp] theorem setDp_out (s : State) (n : Nat) (x : Dp) : (setDp s n x).out = s.out := rfl
@[simp] theorem sc_setDp (s : State) (n : Nat) (x : Dp) (k : Nat) : sc (setDp s n x) k = sc s k := rfl
@[simp] theorem fod_setDp (s : State) (n : Nat) (x : Dp) (k : Nat) : fod (setDp s n x) k = fod s k := rfl
@[simp] theorem ref_setDp (s : State) (n : Nat) (x : Dp) (k : Nat) : ref (setDp s n x) k = ref s k := rfl
@[simp] theorem dp_setDp_same (s : State) (n : Nat) (x : Dp) : dp (setDp s n x) n = x := mget_mput_same _ _ _ _
theorem dp_setDp_ne (s : State) (n : Nat) (x : Dp) {k : Nat} (h : k ≠ n) : dp (setDp s n x) k = dp s k := mget_mput_ne _ _ _ h
@[simp] theorem lane_setDp (s : State) (n : Nat) (x : Dp) (k : Nat) : lane (setDp s n x) k = lane s k := rfl
@[simp] theorem port_setDp (s : State) (n : Nat) (x : Dp) (k : Nat) : port (setDp s n x) k = port s k := rfl
@[simp] theorem ring_setDp (s : State) (n : Nat) (x : Dp) (k : Nat) : ring (setDp s n x) k = ring s k := rfl
@[simp] theorem dma_setDp (s : State) (n : Nat) (x : Dp) (k : Nat) : dma (setDp s n x) k = dma s k := rfl
@[simp] theorem seqc_setDp (s : State) (n : Nat) (x : Dp) (k : Nat) : seqc (setDp s n x) k = seqc s k := rfl
@[simp] theorem rd_setDp (s : State) (n : Nat) (x : Dp) (k : Nat) : rd (setDp s n x) k = rd s k := rfl
@[simp] theorem rn_setDp (s : State) (n : Nat) (x : Dp) (k : Nat) : rn (setDp s n x) k = rn s k := rfl

@[simp] theorem setLane_pending (s : State) (n : Nat) (x : LaneSt) : (setLane s n x).pending = s.pending := rfl
@[simp] theorem setLane_free (s : State) (n : Nat) (x : LaneSt) : (setLane s n x).free = s.free := rfl
@[simp] theorem setLane_cyc (s : State) (n : Nat) (x : LaneSt) : (setLane s n x).cyc = s.cyc := rfl
@[simp] theorem setLane_order (s : State) (n : Nat) (x : LaneSt) : (setLane s n x).order = s.order := rfl
@[simp] theorem setLane_regs (s : State) (n : Nat) (x : LaneSt) : (setLane s n x).regs = s.regs := rfl
@[simp] theorem setLane_shadow (s : State) (n : Nat) (x : LaneSt) : (setLane s n x).shadow = s.shadow := rfl
@[simp] theorem setLane_staging (s : State) (n : Nat) (x : LaneSt) : (setLane s n x).staging = s.staging := rfl
@[simp] theorem setLane_posted (s : State) (n : Nat) (x : LaneSt) : (setLane s n x).posted = s.posted := rfl
@[simp] theorem setLane_mem (s : State) (n : Nat) (x : LaneSt) : (setLane s n x).mem = s.mem := rfl
@[simp] theorem setLane_time (s : State) (n : Nat) (x : LaneSt) : (setLane s n x).time = s.time := rfl
@[simp] theorem setLane_seal (s : State) (n : Nat) (x : LaneSt) : (setLane s n x).seal_ = s.seal_ := rfl
@[simp] theorem setLane_fcol (s : State) (n : Nat) (x : LaneSt) : (setLane s n x).fcol = s.fcol := rfl
@[simp] theorem setLane_snap (s : State) (n : Nat) (x : LaneSt) : (setLane s n x).snap = s.snap := rfl
@[simp] theorem setLane_scs (s : State) (n : Nat) (x : LaneSt) : (setLane s n x).scs = s.scs := rfl
@[simp] theorem setLane_fods (s : State) (n : Nat) (x : LaneSt) : (setLane s n x).fods = s.fods := rfl
@[simp] theorem setLane_refs (s : State) (n : Nat) (x : LaneSt) : (setLane s n x).refs = s.refs := rfl
@[simp] theorem setLane_dps (s : State) (n : Nat) (x : LaneSt) : (setLane s n x).dps = s.dps := rfl
@[simp] theorem setLane_scr (s : State) (n : Nat) (x : LaneSt) : (setLane s n x).scr = s.scr := rfl
@[simp] theorem setLane_ports (s : State) (n : Nat) (x : LaneSt) : (setLane s n x).ports = s.ports := rfl
@[simp] theorem setLane_ingress (s : State) (n : Nat) (x : LaneSt) : (setLane s n x).ingress = s.ingress := rfl
@[simp] theorem setLane_gone (s : State) (n : Nat) (x : LaneSt) : (setLane s n x).gone = s.gone := rfl
@[simp] theorem setLane_rings (s : State) (n : Nat) (x : LaneSt) : (setLane s n x).rings = s.rings := rfl
@[simp] theorem setLane_corrPause (s : State) (n : Nat) (x : LaneSt) : (setLane s n x).corrPause = s.corrPause := rfl
@[simp] theorem setLane_tdcFail (s : State) (n : Nat) (x : LaneSt) : (setLane s n x).tdcFail = s.tdcFail := rfl
@[simp] theorem setLane_groups (s : State) (n : Nat) (x : LaneSt) : (setLane s n x).groups = s.groups := rfl
@[simp] theorem setLane_coreAwake (s : State) (n : Nat) (x : LaneSt) : (setLane s n x).coreAwake = s.coreAwake := rfl
@[simp] theorem setLane_standby (s : State) (n : Nat) (x : LaneSt) : (setLane s n x).standby = s.standby := rfl
@[simp] theorem setLane_mateReady (s : State) (n : Nat) (x : LaneSt) : (setLane s n x).mateReady = s.mateReady := rfl
@[simp] theorem setLane_mate (s : State) (n : Nat) (x : LaneSt) : (setLane s n x).mate = s.mate := rfl
@[simp] theorem setLane_nvs (s : State) (n : Nat) (x : LaneSt) : (setLane s n x).nvs = s.nvs := rfl
@[simp] theorem setLane_cal (s : State) (n : Nat) (x : LaneSt) : (setLane s n x).cal = s.cal := rfl
@[simp] theorem setLane_cmd (s : State) (n : Nat) (x : LaneSt) : (setLane s n x).cmd = s.cmd := rfl
@[simp] theorem setLane_dmas (s : State) (n : Nat) (x : LaneSt) : (setLane s n x).dmas = s.dmas := rfl
@[simp] theorem setLane_dmaLast (s : State) (n : Nat) (x : LaneSt) : (setLane s n x).dmaLast = s.dmaLast := rfl
@[simp] theorem setLane_seqs (s : State) (n : Nat) (x : LaneSt) : (setLane s n x).seqs = s.seqs := rfl
@[simp] theorem setLane_pwr (s : State) (n : Nat) (x : LaneSt) : (setLane s n x).pwr = s.pwr := rfl
@[simp] theorem setLane_smb (s : State) (n : Nat) (x : LaneSt) : (setLane s n x).smb = s.smb := rfl
@[simp] theorem setLane_pcieUp (s : State) (n : Nat) (x : LaneSt) : (setLane s n x).pcieUp = s.pcieUp := rfl
@[simp] theorem setLane_msix (s : State) (n : Nat) (x : LaneSt) : (setLane s n x).msix = s.msix := rfl
@[simp] theorem setLane_pba (s : State) (n : Nat) (x : LaneSt) : (setLane s n x).pba = s.pba := rfl
@[simp] theorem setLane_nvsLoaded (s : State) (n : Nat) (x : LaneSt) : (setLane s n x).nvsLoaded = s.nvsLoaded := rfl
@[simp] theorem setLane_out (s : State) (n : Nat) (x : LaneSt) : (setLane s n x).out = s.out := rfl
@[simp] theorem sc_setLane (s : State) (n : Nat) (x : LaneSt) (k : Nat) : sc (setLane s n x) k = sc s k := rfl
@[simp] theorem fod_setLane (s : State) (n : Nat) (x : LaneSt) (k : Nat) : fod (setLane s n x) k = fod s k := rfl
@[simp] theorem ref_setLane (s : State) (n : Nat) (x : LaneSt) (k : Nat) : ref (setLane s n x) k = ref s k := rfl
@[simp] theorem dp_setLane (s : State) (n : Nat) (x : LaneSt) (k : Nat) : dp (setLane s n x) k = dp s k := rfl
@[simp] theorem lane_setLane_same (s : State) (n : Nat) (x : LaneSt) : lane (setLane s n x) n = x := mget_mput_same _ _ _ _
theorem lane_setLane_ne (s : State) (n : Nat) (x : LaneSt) {k : Nat} (h : k ≠ n) : lane (setLane s n x) k = lane s k := mget_mput_ne _ _ _ h
@[simp] theorem port_setLane (s : State) (n : Nat) (x : LaneSt) (k : Nat) : port (setLane s n x) k = port s k := rfl
@[simp] theorem ring_setLane (s : State) (n : Nat) (x : LaneSt) (k : Nat) : ring (setLane s n x) k = ring s k := rfl
@[simp] theorem dma_setLane (s : State) (n : Nat) (x : LaneSt) (k : Nat) : dma (setLane s n x) k = dma s k := rfl
@[simp] theorem seqc_setLane (s : State) (n : Nat) (x : LaneSt) (k : Nat) : seqc (setLane s n x) k = seqc s k := rfl
@[simp] theorem rd_setLane (s : State) (n : Nat) (x : LaneSt) (k : Nat) : rd (setLane s n x) k = rd s k := rfl
@[simp] theorem rn_setLane (s : State) (n : Nat) (x : LaneSt) (k : Nat) : rn (setLane s n x) k = rn s k := rfl

@[simp] theorem setPort_pending (s : State) (n : Nat) (x : PortSt) : (setPort s n x).pending = s.pending := rfl
@[simp] theorem setPort_free (s : State) (n : Nat) (x : PortSt) : (setPort s n x).free = s.free := rfl
@[simp] theorem setPort_cyc (s : State) (n : Nat) (x : PortSt) : (setPort s n x).cyc = s.cyc := rfl
@[simp] theorem setPort_order (s : State) (n : Nat) (x : PortSt) : (setPort s n x).order = s.order := rfl
@[simp] theorem setPort_regs (s : State) (n : Nat) (x : PortSt) : (setPort s n x).regs = s.regs := rfl
@[simp] theorem setPort_shadow (s : State) (n : Nat) (x : PortSt) : (setPort s n x).shadow = s.shadow := rfl
@[simp] theorem setPort_staging (s : State) (n : Nat) (x : PortSt) : (setPort s n x).staging = s.staging := rfl
@[simp] theorem setPort_posted (s : State) (n : Nat) (x : PortSt) : (setPort s n x).posted = s.posted := rfl
@[simp] theorem setPort_mem (s : State) (n : Nat) (x : PortSt) : (setPort s n x).mem = s.mem := rfl
@[simp] theorem setPort_time (s : State) (n : Nat) (x : PortSt) : (setPort s n x).time = s.time := rfl
@[simp] theorem setPort_seal (s : State) (n : Nat) (x : PortSt) : (setPort s n x).seal_ = s.seal_ := rfl
@[simp] theorem setPort_fcol (s : State) (n : Nat) (x : PortSt) : (setPort s n x).fcol = s.fcol := rfl
@[simp] theorem setPort_snap (s : State) (n : Nat) (x : PortSt) : (setPort s n x).snap = s.snap := rfl
@[simp] theorem setPort_scs (s : State) (n : Nat) (x : PortSt) : (setPort s n x).scs = s.scs := rfl
@[simp] theorem setPort_fods (s : State) (n : Nat) (x : PortSt) : (setPort s n x).fods = s.fods := rfl
@[simp] theorem setPort_refs (s : State) (n : Nat) (x : PortSt) : (setPort s n x).refs = s.refs := rfl
@[simp] theorem setPort_dps (s : State) (n : Nat) (x : PortSt) : (setPort s n x).dps = s.dps := rfl
@[simp] theorem setPort_scr (s : State) (n : Nat) (x : PortSt) : (setPort s n x).scr = s.scr := rfl
@[simp] theorem setPort_lanes (s : State) (n : Nat) (x : PortSt) : (setPort s n x).lanes = s.lanes := rfl
@[simp] theorem setPort_ingress (s : State) (n : Nat) (x : PortSt) : (setPort s n x).ingress = s.ingress := rfl
@[simp] theorem setPort_gone (s : State) (n : Nat) (x : PortSt) : (setPort s n x).gone = s.gone := rfl
@[simp] theorem setPort_rings (s : State) (n : Nat) (x : PortSt) : (setPort s n x).rings = s.rings := rfl
@[simp] theorem setPort_corrPause (s : State) (n : Nat) (x : PortSt) : (setPort s n x).corrPause = s.corrPause := rfl
@[simp] theorem setPort_tdcFail (s : State) (n : Nat) (x : PortSt) : (setPort s n x).tdcFail = s.tdcFail := rfl
@[simp] theorem setPort_groups (s : State) (n : Nat) (x : PortSt) : (setPort s n x).groups = s.groups := rfl
@[simp] theorem setPort_coreAwake (s : State) (n : Nat) (x : PortSt) : (setPort s n x).coreAwake = s.coreAwake := rfl
@[simp] theorem setPort_standby (s : State) (n : Nat) (x : PortSt) : (setPort s n x).standby = s.standby := rfl
@[simp] theorem setPort_mateReady (s : State) (n : Nat) (x : PortSt) : (setPort s n x).mateReady = s.mateReady := rfl
@[simp] theorem setPort_mate (s : State) (n : Nat) (x : PortSt) : (setPort s n x).mate = s.mate := rfl
@[simp] theorem setPort_nvs (s : State) (n : Nat) (x : PortSt) : (setPort s n x).nvs = s.nvs := rfl
@[simp] theorem setPort_cal (s : State) (n : Nat) (x : PortSt) : (setPort s n x).cal = s.cal := rfl
@[simp] theorem setPort_cmd (s : State) (n : Nat) (x : PortSt) : (setPort s n x).cmd = s.cmd := rfl
@[simp] theorem setPort_dmas (s : State) (n : Nat) (x : PortSt) : (setPort s n x).dmas = s.dmas := rfl
@[simp] theorem setPort_dmaLast (s : State) (n : Nat) (x : PortSt) : (setPort s n x).dmaLast = s.dmaLast := rfl
@[simp] theorem setPort_seqs (s : State) (n : Nat) (x : PortSt) : (setPort s n x).seqs = s.seqs := rfl
@[simp] theorem setPort_pwr (s : State) (n : Nat) (x : PortSt) : (setPort s n x).pwr = s.pwr := rfl
@[simp] theorem setPort_smb (s : State) (n : Nat) (x : PortSt) : (setPort s n x).smb = s.smb := rfl
@[simp] theorem setPort_pcieUp (s : State) (n : Nat) (x : PortSt) : (setPort s n x).pcieUp = s.pcieUp := rfl
@[simp] theorem setPort_msix (s : State) (n : Nat) (x : PortSt) : (setPort s n x).msix = s.msix := rfl
@[simp] theorem setPort_pba (s : State) (n : Nat) (x : PortSt) : (setPort s n x).pba = s.pba := rfl
@[simp] theorem setPort_nvsLoaded (s : State) (n : Nat) (x : PortSt) : (setPort s n x).nvsLoaded = s.nvsLoaded := rfl
@[simp] theorem setPort_out (s : State) (n : Nat) (x : PortSt) : (setPort s n x).out = s.out := rfl
@[simp] theorem sc_setPort (s : State) (n : Nat) (x : PortSt) (k : Nat) : sc (setPort s n x) k = sc s k := rfl
@[simp] theorem fod_setPort (s : State) (n : Nat) (x : PortSt) (k : Nat) : fod (setPort s n x) k = fod s k := rfl
@[simp] theorem ref_setPort (s : State) (n : Nat) (x : PortSt) (k : Nat) : ref (setPort s n x) k = ref s k := rfl
@[simp] theorem dp_setPort (s : State) (n : Nat) (x : PortSt) (k : Nat) : dp (setPort s n x) k = dp s k := rfl
@[simp] theorem lane_setPort (s : State) (n : Nat) (x : PortSt) (k : Nat) : lane (setPort s n x) k = lane s k := rfl
@[simp] theorem port_setPort_same (s : State) (n : Nat) (x : PortSt) : port (setPort s n x) n = x := mget_mput_same _ _ _ _
theorem port_setPort_ne (s : State) (n : Nat) (x : PortSt) {k : Nat} (h : k ≠ n) : port (setPort s n x) k = port s k := mget_mput_ne _ _ _ h
@[simp] theorem ring_setPort (s : State) (n : Nat) (x : PortSt) (k : Nat) : ring (setPort s n x) k = ring s k := rfl
@[simp] theorem dma_setPort (s : State) (n : Nat) (x : PortSt) (k : Nat) : dma (setPort s n x) k = dma s k := rfl
@[simp] theorem seqc_setPort (s : State) (n : Nat) (x : PortSt) (k : Nat) : seqc (setPort s n x) k = seqc s k := rfl
@[simp] theorem rd_setPort (s : State) (n : Nat) (x : PortSt) (k : Nat) : rd (setPort s n x) k = rd s k := rfl
@[simp] theorem rn_setPort (s : State) (n : Nat) (x : PortSt) (k : Nat) : rn (setPort s n x) k = rn s k := rfl

@[simp] theorem setRing_pending (s : State) (n : Nat) (x : RingSt) : (setRing s n x).pending = s.pending := rfl
@[simp] theorem setRing_free (s : State) (n : Nat) (x : RingSt) : (setRing s n x).free = s.free := rfl
@[simp] theorem setRing_cyc (s : State) (n : Nat) (x : RingSt) : (setRing s n x).cyc = s.cyc := rfl
@[simp] theorem setRing_order (s : State) (n : Nat) (x : RingSt) : (setRing s n x).order = s.order := rfl
@[simp] theorem setRing_regs (s : State) (n : Nat) (x : RingSt) : (setRing s n x).regs = s.regs := rfl
@[simp] theorem setRing_shadow (s : State) (n : Nat) (x : RingSt) : (setRing s n x).shadow = s.shadow := rfl
@[simp] theorem setRing_staging (s : State) (n : Nat) (x : RingSt) : (setRing s n x).staging = s.staging := rfl
@[simp] theorem setRing_posted (s : State) (n : Nat) (x : RingSt) : (setRing s n x).posted = s.posted := rfl
@[simp] theorem setRing_mem (s : State) (n : Nat) (x : RingSt) : (setRing s n x).mem = s.mem := rfl
@[simp] theorem setRing_time (s : State) (n : Nat) (x : RingSt) : (setRing s n x).time = s.time := rfl
@[simp] theorem setRing_seal (s : State) (n : Nat) (x : RingSt) : (setRing s n x).seal_ = s.seal_ := rfl
@[simp] theorem setRing_fcol (s : State) (n : Nat) (x : RingSt) : (setRing s n x).fcol = s.fcol := rfl
@[simp] theorem setRing_snap (s : State) (n : Nat) (x : RingSt) : (setRing s n x).snap = s.snap := rfl
@[simp] theorem setRing_scs (s : State) (n : Nat) (x : RingSt) : (setRing s n x).scs = s.scs := rfl
@[simp] theorem setRing_fods (s : State) (n : Nat) (x : RingSt) : (setRing s n x).fods = s.fods := rfl
@[simp] theorem setRing_refs (s : State) (n : Nat) (x : RingSt) : (setRing s n x).refs = s.refs := rfl
@[simp] theorem setRing_dps (s : State) (n : Nat) (x : RingSt) : (setRing s n x).dps = s.dps := rfl
@[simp] theorem setRing_scr (s : State) (n : Nat) (x : RingSt) : (setRing s n x).scr = s.scr := rfl
@[simp] theorem setRing_lanes (s : State) (n : Nat) (x : RingSt) : (setRing s n x).lanes = s.lanes := rfl
@[simp] theorem setRing_ports (s : State) (n : Nat) (x : RingSt) : (setRing s n x).ports = s.ports := rfl
@[simp] theorem setRing_ingress (s : State) (n : Nat) (x : RingSt) : (setRing s n x).ingress = s.ingress := rfl
@[simp] theorem setRing_gone (s : State) (n : Nat) (x : RingSt) : (setRing s n x).gone = s.gone := rfl
@[simp] theorem setRing_corrPause (s : State) (n : Nat) (x : RingSt) : (setRing s n x).corrPause = s.corrPause := rfl
@[simp] theorem setRing_tdcFail (s : State) (n : Nat) (x : RingSt) : (setRing s n x).tdcFail = s.tdcFail := rfl
@[simp] theorem setRing_groups (s : State) (n : Nat) (x : RingSt) : (setRing s n x).groups = s.groups := rfl
@[simp] theorem setRing_coreAwake (s : State) (n : Nat) (x : RingSt) : (setRing s n x).coreAwake = s.coreAwake := rfl
@[simp] theorem setRing_standby (s : State) (n : Nat) (x : RingSt) : (setRing s n x).standby = s.standby := rfl
@[simp] theorem setRing_mateReady (s : State) (n : Nat) (x : RingSt) : (setRing s n x).mateReady = s.mateReady := rfl
@[simp] theorem setRing_mate (s : State) (n : Nat) (x : RingSt) : (setRing s n x).mate = s.mate := rfl
@[simp] theorem setRing_nvs (s : State) (n : Nat) (x : RingSt) : (setRing s n x).nvs = s.nvs := rfl
@[simp] theorem setRing_cal (s : State) (n : Nat) (x : RingSt) : (setRing s n x).cal = s.cal := rfl
@[simp] theorem setRing_cmd (s : State) (n : Nat) (x : RingSt) : (setRing s n x).cmd = s.cmd := rfl
@[simp] theorem setRing_dmas (s : State) (n : Nat) (x : RingSt) : (setRing s n x).dmas = s.dmas := rfl
@[simp] theorem setRing_dmaLast (s : State) (n : Nat) (x : RingSt) : (setRing s n x).dmaLast = s.dmaLast := rfl
@[simp] theorem setRing_seqs (s : State) (n : Nat) (x : RingSt) : (setRing s n x).seqs = s.seqs := rfl
@[simp] theorem setRing_pwr (s : State) (n : Nat) (x : RingSt) : (setRing s n x).pwr = s.pwr := rfl
@[simp] theorem setRing_smb (s : State) (n : Nat) (x : RingSt) : (setRing s n x).smb = s.smb := rfl
@[simp] theorem setRing_pcieUp (s : State) (n : Nat) (x : RingSt) : (setRing s n x).pcieUp = s.pcieUp := rfl
@[simp] theorem setRing_msix (s : State) (n : Nat) (x : RingSt) : (setRing s n x).msix = s.msix := rfl
@[simp] theorem setRing_pba (s : State) (n : Nat) (x : RingSt) : (setRing s n x).pba = s.pba := rfl
@[simp] theorem setRing_nvsLoaded (s : State) (n : Nat) (x : RingSt) : (setRing s n x).nvsLoaded = s.nvsLoaded := rfl
@[simp] theorem setRing_out (s : State) (n : Nat) (x : RingSt) : (setRing s n x).out = s.out := rfl
@[simp] theorem sc_setRing (s : State) (n : Nat) (x : RingSt) (k : Nat) : sc (setRing s n x) k = sc s k := rfl
@[simp] theorem fod_setRing (s : State) (n : Nat) (x : RingSt) (k : Nat) : fod (setRing s n x) k = fod s k := rfl
@[simp] theorem ref_setRing (s : State) (n : Nat) (x : RingSt) (k : Nat) : ref (setRing s n x) k = ref s k := rfl
@[simp] theorem dp_setRing (s : State) (n : Nat) (x : RingSt) (k : Nat) : dp (setRing s n x) k = dp s k := rfl
@[simp] theorem lane_setRing (s : State) (n : Nat) (x : RingSt) (k : Nat) : lane (setRing s n x) k = lane s k := rfl
@[simp] theorem port_setRing (s : State) (n : Nat) (x : RingSt) (k : Nat) : port (setRing s n x) k = port s k := rfl
@[simp] theorem ring_setRing_same (s : State) (n : Nat) (x : RingSt) : ring (setRing s n x) n = x := mget_mput_same _ _ _ _
theorem ring_setRing_ne (s : State) (n : Nat) (x : RingSt) {k : Nat} (h : k ≠ n) : ring (setRing s n x) k = ring s k := mget_mput_ne _ _ _ h
@[simp] theorem dma_setRing (s : State) (n : Nat) (x : RingSt) (k : Nat) : dma (setRing s n x) k = dma s k := rfl
@[simp] theorem seqc_setRing (s : State) (n : Nat) (x : RingSt) (k : Nat) : seqc (setRing s n x) k = seqc s k := rfl
@[simp] theorem rd_setRing (s : State) (n : Nat) (x : RingSt) (k : Nat) : rd (setRing s n x) k = rd s k := rfl
@[simp] theorem rn_setRing (s : State) (n : Nat) (x : RingSt) (k : Nat) : rn (setRing s n x) k = rn s k := rfl

@[simp] theorem setDma_pending (s : State) (n : Nat) (x : DmaSt) : (setDma s n x).pending = s.pending := rfl
@[simp] theorem setDma_free (s : State) (n : Nat) (x : DmaSt) : (setDma s n x).free = s.free := rfl
@[simp] theorem setDma_cyc (s : State) (n : Nat) (x : DmaSt) : (setDma s n x).cyc = s.cyc := rfl
@[simp] theorem setDma_order (s : State) (n : Nat) (x : DmaSt) : (setDma s n x).order = s.order := rfl
@[simp] theorem setDma_regs (s : State) (n : Nat) (x : DmaSt) : (setDma s n x).regs = s.regs := rfl
@[simp] theorem setDma_shadow (s : State) (n : Nat) (x : DmaSt) : (setDma s n x).shadow = s.shadow := rfl
@[simp] theorem setDma_staging (s : State) (n : Nat) (x : DmaSt) : (setDma s n x).staging = s.staging := rfl
@[simp] theorem setDma_posted (s : State) (n : Nat) (x : DmaSt) : (setDma s n x).posted = s.posted := rfl
@[simp] theorem setDma_mem (s : State) (n : Nat) (x : DmaSt) : (setDma s n x).mem = s.mem := rfl
@[simp] theorem setDma_time (s : State) (n : Nat) (x : DmaSt) : (setDma s n x).time = s.time := rfl
@[simp] theorem setDma_seal (s : State) (n : Nat) (x : DmaSt) : (setDma s n x).seal_ = s.seal_ := rfl
@[simp] theorem setDma_fcol (s : State) (n : Nat) (x : DmaSt) : (setDma s n x).fcol = s.fcol := rfl
@[simp] theorem setDma_snap (s : State) (n : Nat) (x : DmaSt) : (setDma s n x).snap = s.snap := rfl
@[simp] theorem setDma_scs (s : State) (n : Nat) (x : DmaSt) : (setDma s n x).scs = s.scs := rfl
@[simp] theorem setDma_fods (s : State) (n : Nat) (x : DmaSt) : (setDma s n x).fods = s.fods := rfl
@[simp] theorem setDma_refs (s : State) (n : Nat) (x : DmaSt) : (setDma s n x).refs = s.refs := rfl
@[simp] theorem setDma_dps (s : State) (n : Nat) (x : DmaSt) : (setDma s n x).dps = s.dps := rfl
@[simp] theorem setDma_scr (s : State) (n : Nat) (x : DmaSt) : (setDma s n x).scr = s.scr := rfl
@[simp] theorem setDma_lanes (s : State) (n : Nat) (x : DmaSt) : (setDma s n x).lanes = s.lanes := rfl
@[simp] theorem setDma_ports (s : State) (n : Nat) (x : DmaSt) : (setDma s n x).ports = s.ports := rfl
@[simp] theorem setDma_ingress (s : State) (n : Nat) (x : DmaSt) : (setDma s n x).ingress = s.ingress := rfl
@[simp] theorem setDma_gone (s : State) (n : Nat) (x : DmaSt) : (setDma s n x).gone = s.gone := rfl
@[simp] theorem setDma_rings (s : State) (n : Nat) (x : DmaSt) : (setDma s n x).rings = s.rings := rfl
@[simp] theorem setDma_corrPause (s : State) (n : Nat) (x : DmaSt) : (setDma s n x).corrPause = s.corrPause := rfl
@[simp] theorem setDma_tdcFail (s : State) (n : Nat) (x : DmaSt) : (setDma s n x).tdcFail = s.tdcFail := rfl
@[simp] theorem setDma_groups (s : State) (n : Nat) (x : DmaSt) : (setDma s n x).groups = s.groups := rfl
@[simp] theorem setDma_coreAwake (s : State) (n : Nat) (x : DmaSt) : (setDma s n x).coreAwake = s.coreAwake := rfl
@[simp] theorem setDma_standby (s : State) (n : Nat) (x : DmaSt) : (setDma s n x).standby = s.standby := rfl
@[simp] theorem setDma_mateReady (s : State) (n : Nat) (x : DmaSt) : (setDma s n x).mateReady = s.mateReady := rfl
@[simp] theorem setDma_mate (s : State) (n : Nat) (x : DmaSt) : (setDma s n x).mate = s.mate := rfl
@[simp] theorem setDma_nvs (s : State) (n : Nat) (x : DmaSt) : (setDma s n x).nvs = s.nvs := rfl
@[simp] theorem setDma_cal (s : State) (n : Nat) (x : DmaSt) : (setDma s n x).cal = s.cal := rfl
@[simp] theorem setDma_cmd (s : State) (n : Nat) (x : DmaSt) : (setDma s n x).cmd = s.cmd := rfl
@[simp] theorem setDma_dmaLast (s : State) (n : Nat) (x : DmaSt) : (setDma s n x).dmaLast = s.dmaLast := rfl
@[simp] theorem setDma_seqs (s : State) (n : Nat) (x : DmaSt) : (setDma s n x).seqs = s.seqs := rfl
@[simp] theorem setDma_pwr (s : State) (n : Nat) (x : DmaSt) : (setDma s n x).pwr = s.pwr := rfl
@[simp] theorem setDma_smb (s : State) (n : Nat) (x : DmaSt) : (setDma s n x).smb = s.smb := rfl
@[simp] theorem setDma_pcieUp (s : State) (n : Nat) (x : DmaSt) : (setDma s n x).pcieUp = s.pcieUp := rfl
@[simp] theorem setDma_msix (s : State) (n : Nat) (x : DmaSt) : (setDma s n x).msix = s.msix := rfl
@[simp] theorem setDma_pba (s : State) (n : Nat) (x : DmaSt) : (setDma s n x).pba = s.pba := rfl
@[simp] theorem setDma_nvsLoaded (s : State) (n : Nat) (x : DmaSt) : (setDma s n x).nvsLoaded = s.nvsLoaded := rfl
@[simp] theorem setDma_out (s : State) (n : Nat) (x : DmaSt) : (setDma s n x).out = s.out := rfl
@[simp] theorem sc_setDma (s : State) (n : Nat) (x : DmaSt) (k : Nat) : sc (setDma s n x) k = sc s k := rfl
@[simp] theorem fod_setDma (s : State) (n : Nat) (x : DmaSt) (k : Nat) : fod (setDma s n x) k = fod s k := rfl
@[simp] theorem ref_setDma (s : State) (n : Nat) (x : DmaSt) (k : Nat) : ref (setDma s n x) k = ref s k := rfl
@[simp] theorem dp_setDma (s : State) (n : Nat) (x : DmaSt) (k : Nat) : dp (setDma s n x) k = dp s k := rfl
@[simp] theorem lane_setDma (s : State) (n : Nat) (x : DmaSt) (k : Nat) : lane (setDma s n x) k = lane s k := rfl
@[simp] theorem port_setDma (s : State) (n : Nat) (x : DmaSt) (k : Nat) : port (setDma s n x) k = port s k := rfl
@[simp] theorem ring_setDma (s : State) (n : Nat) (x : DmaSt) (k : Nat) : ring (setDma s n x) k = ring s k := rfl
@[simp] theorem dma_setDma_same (s : State) (n : Nat) (x : DmaSt) : dma (setDma s n x) n = x := mget_mput_same _ _ _ _
theorem dma_setDma_ne (s : State) (n : Nat) (x : DmaSt) {k : Nat} (h : k ≠ n) : dma (setDma s n x) k = dma s k := mget_mput_ne _ _ _ h
@[simp] theorem seqc_setDma (s : State) (n : Nat) (x : DmaSt) (k : Nat) : seqc (setDma s n x) k = seqc s k := rfl
@[simp] theorem rd_setDma (s : State) (n : Nat) (x : DmaSt) (k : Nat) : rd (setDma s n x) k = rd s k := rfl
@[simp] theorem rn_setDma (s : State) (n : Nat) (x : DmaSt) (k : Nat) : rn (setDma s n x) k = rn s k := rfl

@[simp] theorem setSeqc_pending (s : State) (n : Nat) (x : SeqSt) : (setSeqc s n x).pending = s.pending := rfl
@[simp] theorem setSeqc_free (s : State) (n : Nat) (x : SeqSt) : (setSeqc s n x).free = s.free := rfl
@[simp] theorem setSeqc_cyc (s : State) (n : Nat) (x : SeqSt) : (setSeqc s n x).cyc = s.cyc := rfl
@[simp] theorem setSeqc_order (s : State) (n : Nat) (x : SeqSt) : (setSeqc s n x).order = s.order := rfl
@[simp] theorem setSeqc_regs (s : State) (n : Nat) (x : SeqSt) : (setSeqc s n x).regs = s.regs := rfl
@[simp] theorem setSeqc_shadow (s : State) (n : Nat) (x : SeqSt) : (setSeqc s n x).shadow = s.shadow := rfl
@[simp] theorem setSeqc_staging (s : State) (n : Nat) (x : SeqSt) : (setSeqc s n x).staging = s.staging := rfl
@[simp] theorem setSeqc_posted (s : State) (n : Nat) (x : SeqSt) : (setSeqc s n x).posted = s.posted := rfl
@[simp] theorem setSeqc_mem (s : State) (n : Nat) (x : SeqSt) : (setSeqc s n x).mem = s.mem := rfl
@[simp] theorem setSeqc_time (s : State) (n : Nat) (x : SeqSt) : (setSeqc s n x).time = s.time := rfl
@[simp] theorem setSeqc_seal (s : State) (n : Nat) (x : SeqSt) : (setSeqc s n x).seal_ = s.seal_ := rfl
@[simp] theorem setSeqc_fcol (s : State) (n : Nat) (x : SeqSt) : (setSeqc s n x).fcol = s.fcol := rfl
@[simp] theorem setSeqc_snap (s : State) (n : Nat) (x : SeqSt) : (setSeqc s n x).snap = s.snap := rfl
@[simp] theorem setSeqc_scs (s : State) (n : Nat) (x : SeqSt) : (setSeqc s n x).scs = s.scs := rfl
@[simp] theorem setSeqc_fods (s : State) (n : Nat) (x : SeqSt) : (setSeqc s n x).fods = s.fods := rfl
@[simp] theorem setSeqc_refs (s : State) (n : Nat) (x : SeqSt) : (setSeqc s n x).refs = s.refs := rfl
@[simp] theorem setSeqc_dps (s : State) (n : Nat) (x : SeqSt) : (setSeqc s n x).dps = s.dps := rfl
@[simp] theorem setSeqc_scr (s : State) (n : Nat) (x : SeqSt) : (setSeqc s n x).scr = s.scr := rfl
@[simp] theorem setSeqc_lanes (s : State) (n : Nat) (x : SeqSt) : (setSeqc s n x).lanes = s.lanes := rfl
@[simp] theorem setSeqc_ports (s : State) (n : Nat) (x : SeqSt) : (setSeqc s n x).ports = s.ports := rfl
@[simp] theorem setSeqc_ingress (s : State) (n : Nat) (x : SeqSt) : (setSeqc s n x).ingress = s.ingress := rfl
@[simp] theorem setSeqc_gone (s : State) (n : Nat) (x : SeqSt) : (setSeqc s n x).gone = s.gone := rfl
@[simp] theorem setSeqc_rings (s : State) (n : Nat) (x : SeqSt) : (setSeqc s n x).rings = s.rings := rfl
@[simp] theorem setSeqc_corrPause (s : State) (n : Nat) (x : SeqSt) : (setSeqc s n x).corrPause = s.corrPause := rfl
@[simp] theorem setSeqc_tdcFail (s : State) (n : Nat) (x : SeqSt) : (setSeqc s n x).tdcFail = s.tdcFail := rfl
@[simp] theorem setSeqc_groups (s : State) (n : Nat) (x : SeqSt) : (setSeqc s n x).groups = s.groups := rfl
@[simp] theorem setSeqc_coreAwake (s : State) (n : Nat) (x : SeqSt) : (setSeqc s n x).coreAwake = s.coreAwake := rfl
@[simp] theorem setSeqc_standby (s : State) (n : Nat) (x : SeqSt) : (setSeqc s n x).standby = s.standby := rfl
@[simp] theorem setSeqc_mateReady (s : State) (n : Nat) (x : SeqSt) : (setSeqc s n x).mateReady = s.mateReady := rfl
@[simp] theorem setSeqc_mate (s : State) (n : Nat) (x : SeqSt) : (setSeqc s n x).mate = s.mate := rfl
@[simp] theorem setSeqc_nvs (s : State) (n : Nat) (x : SeqSt) : (setSeqc s n x).nvs = s.nvs := rfl
@[simp] theorem setSeqc_cal (s : State) (n : Nat) (x : SeqSt) : (setSeqc s n x).cal = s.cal := rfl
@[simp] theorem setSeqc_cmd (s : State) (n : Nat) (x : SeqSt) : (setSeqc s n x).cmd = s.cmd := rfl
@[simp] theorem setSeqc_dmas (s : State) (n : Nat) (x : SeqSt) : (setSeqc s n x).dmas = s.dmas := rfl
@[simp] theorem setSeqc_dmaLast (s : State) (n : Nat) (x : SeqSt) : (setSeqc s n x).dmaLast = s.dmaLast := rfl
@[simp] theorem setSeqc_pwr (s : State) (n : Nat) (x : SeqSt) : (setSeqc s n x).pwr = s.pwr := rfl
@[simp] theorem setSeqc_smb (s : State) (n : Nat) (x : SeqSt) : (setSeqc s n x).smb = s.smb := rfl
@[simp] theorem setSeqc_pcieUp (s : State) (n : Nat) (x : SeqSt) : (setSeqc s n x).pcieUp = s.pcieUp := rfl
@[simp] theorem setSeqc_msix (s : State) (n : Nat) (x : SeqSt) : (setSeqc s n x).msix = s.msix := rfl
@[simp] theorem setSeqc_pba (s : State) (n : Nat) (x : SeqSt) : (setSeqc s n x).pba = s.pba := rfl
@[simp] theorem setSeqc_nvsLoaded (s : State) (n : Nat) (x : SeqSt) : (setSeqc s n x).nvsLoaded = s.nvsLoaded := rfl
@[simp] theorem setSeqc_out (s : State) (n : Nat) (x : SeqSt) : (setSeqc s n x).out = s.out := rfl
@[simp] theorem sc_setSeqc (s : State) (n : Nat) (x : SeqSt) (k : Nat) : sc (setSeqc s n x) k = sc s k := rfl
@[simp] theorem fod_setSeqc (s : State) (n : Nat) (x : SeqSt) (k : Nat) : fod (setSeqc s n x) k = fod s k := rfl
@[simp] theorem ref_setSeqc (s : State) (n : Nat) (x : SeqSt) (k : Nat) : ref (setSeqc s n x) k = ref s k := rfl
@[simp] theorem dp_setSeqc (s : State) (n : Nat) (x : SeqSt) (k : Nat) : dp (setSeqc s n x) k = dp s k := rfl
@[simp] theorem lane_setSeqc (s : State) (n : Nat) (x : SeqSt) (k : Nat) : lane (setSeqc s n x) k = lane s k := rfl
@[simp] theorem port_setSeqc (s : State) (n : Nat) (x : SeqSt) (k : Nat) : port (setSeqc s n x) k = port s k := rfl
@[simp] theorem ring_setSeqc (s : State) (n : Nat) (x : SeqSt) (k : Nat) : ring (setSeqc s n x) k = ring s k := rfl
@[simp] theorem dma_setSeqc (s : State) (n : Nat) (x : SeqSt) (k : Nat) : dma (setSeqc s n x) k = dma s k := rfl
@[simp] theorem seqc_setSeqc_same (s : State) (n : Nat) (x : SeqSt) : seqc (setSeqc s n x) n = x := mget_mput_same _ _ _ _
theorem seqc_setSeqc_ne (s : State) (n : Nat) (x : SeqSt) {k : Nat} (h : k ≠ n) : seqc (setSeqc s n x) k = seqc s k := mget_mput_ne _ _ _ h
@[simp] theorem rd_setSeqc (s : State) (n : Nat) (x : SeqSt) (k : Nat) : rd (setSeqc s n x) k = rd s k := rfl
@[simp] theorem rn_setSeqc (s : State) (n : Nat) (x : SeqSt) (k : Nat) : rn (setSeqc s n x) k = rn s k := rfl

@[simp] theorem setMb_pending (s : State) (a : Nat) (b : Byte) : (setMb s a b).pending = s.pending := rfl
@[simp] theorem setMb_free (s : State) (a : Nat) (b : Byte) : (setMb s a b).free = s.free := rfl
@[simp] theorem setMb_cyc (s : State) (a : Nat) (b : Byte) : (setMb s a b).cyc = s.cyc := rfl
@[simp] theorem setMb_order (s : State) (a : Nat) (b : Byte) : (setMb s a b).order = s.order := rfl
@[simp] theorem setMb_regs (s : State) (a : Nat) (b : Byte) : (setMb s a b).regs = s.regs := rfl
@[simp] theorem setMb_shadow (s : State) (a : Nat) (b : Byte) : (setMb s a b).shadow = s.shadow := rfl
@[simp] theorem setMb_staging (s : State) (a : Nat) (b : Byte) : (setMb s a b).staging = s.staging := rfl
@[simp] theorem setMb_posted (s : State) (a : Nat) (b : Byte) : (setMb s a b).posted = s.posted := rfl
@[simp] theorem setMb_time (s : State) (a : Nat) (b : Byte) : (setMb s a b).time = s.time := rfl
@[simp] theorem setMb_seal (s : State) (a : Nat) (b : Byte) : (setMb s a b).seal_ = s.seal_ := rfl
@[simp] theorem setMb_fcol (s : State) (a : Nat) (b : Byte) : (setMb s a b).fcol = s.fcol := rfl
@[simp] theorem setMb_snap (s : State) (a : Nat) (b : Byte) : (setMb s a b).snap = s.snap := rfl
@[simp] theorem setMb_scs (s : State) (a : Nat) (b : Byte) : (setMb s a b).scs = s.scs := rfl
@[simp] theorem setMb_fods (s : State) (a : Nat) (b : Byte) : (setMb s a b).fods = s.fods := rfl
@[simp] theorem setMb_refs (s : State) (a : Nat) (b : Byte) : (setMb s a b).refs = s.refs := rfl
@[simp] theorem setMb_dps (s : State) (a : Nat) (b : Byte) : (setMb s a b).dps = s.dps := rfl
@[simp] theorem setMb_scr (s : State) (a : Nat) (b : Byte) : (setMb s a b).scr = s.scr := rfl
@[simp] theorem setMb_lanes (s : State) (a : Nat) (b : Byte) : (setMb s a b).lanes = s.lanes := rfl
@[simp] theorem setMb_ports (s : State) (a : Nat) (b : Byte) : (setMb s a b).ports = s.ports := rfl
@[simp] theorem setMb_ingress (s : State) (a : Nat) (b : Byte) : (setMb s a b).ingress = s.ingress := rfl
@[simp] theorem setMb_gone (s : State) (a : Nat) (b : Byte) : (setMb s a b).gone = s.gone := rfl
@[simp] theorem setMb_rings (s : State) (a : Nat) (b : Byte) : (setMb s a b).rings = s.rings := rfl
@[simp] theorem setMb_corrPause (s : State) (a : Nat) (b : Byte) : (setMb s a b).corrPause = s.corrPause := rfl
@[simp] theorem setMb_tdcFail (s : State) (a : Nat) (b : Byte) : (setMb s a b).tdcFail = s.tdcFail := rfl
@[simp] theorem setMb_groups (s : State) (a : Nat) (b : Byte) : (setMb s a b).groups = s.groups := rfl
@[simp] theorem setMb_coreAwake (s : State) (a : Nat) (b : Byte) : (setMb s a b).coreAwake = s.coreAwake := rfl
@[simp] theorem setMb_standby (s : State) (a : Nat) (b : Byte) : (setMb s a b).standby = s.standby := rfl
@[simp] theorem setMb_mateReady (s : State) (a : Nat) (b : Byte) : (setMb s a b).mateReady = s.mateReady := rfl
@[simp] theorem setMb_mate (s : State) (a : Nat) (b : Byte) : (setMb s a b).mate = s.mate := rfl
@[simp] theorem setMb_nvs (s : State) (a : Nat) (b : Byte) : (setMb s a b).nvs = s.nvs := rfl
@[simp] theorem setMb_cal (s : State) (a : Nat) (b : Byte) : (setMb s a b).cal = s.cal := rfl
@[simp] theorem setMb_cmd (s : State) (a : Nat) (b : Byte) : (setMb s a b).cmd = s.cmd := rfl
@[simp] theorem setMb_dmas (s : State) (a : Nat) (b : Byte) : (setMb s a b).dmas = s.dmas := rfl
@[simp] theorem setMb_dmaLast (s : State) (a : Nat) (b : Byte) : (setMb s a b).dmaLast = s.dmaLast := rfl
@[simp] theorem setMb_seqs (s : State) (a : Nat) (b : Byte) : (setMb s a b).seqs = s.seqs := rfl
@[simp] theorem setMb_pwr (s : State) (a : Nat) (b : Byte) : (setMb s a b).pwr = s.pwr := rfl
@[simp] theorem setMb_smb (s : State) (a : Nat) (b : Byte) : (setMb s a b).smb = s.smb := rfl
@[simp] theorem setMb_pcieUp (s : State) (a : Nat) (b : Byte) : (setMb s a b).pcieUp = s.pcieUp := rfl
@[simp] theorem setMb_msix (s : State) (a : Nat) (b : Byte) : (setMb s a b).msix = s.msix := rfl
@[simp] theorem setMb_pba (s : State) (a : Nat) (b : Byte) : (setMb s a b).pba = s.pba := rfl
@[simp] theorem setMb_nvsLoaded (s : State) (a : Nat) (b : Byte) : (setMb s a b).nvsLoaded = s.nvsLoaded := rfl
@[simp] theorem setMb_out (s : State) (a : Nat) (b : Byte) : (setMb s a b).out = s.out := rfl
@[simp] theorem sc_setMb (s : State) (a : Nat) (b : Byte) (k : Nat) : sc (setMb s a b) k = sc s k := rfl
@[simp] theorem fod_setMb (s : State) (a : Nat) (b : Byte) (k : Nat) : fod (setMb s a b) k = fod s k := rfl
@[simp] theorem ref_setMb (s : State) (a : Nat) (b : Byte) (k : Nat) : ref (setMb s a b) k = ref s k := rfl
@[simp] theorem dp_setMb (s : State) (a : Nat) (b : Byte) (k : Nat) : dp (setMb s a b) k = dp s k := rfl
@[simp] theorem lane_setMb (s : State) (a : Nat) (b : Byte) (k : Nat) : lane (setMb s a b) k = lane s k := rfl
@[simp] theorem port_setMb (s : State) (a : Nat) (b : Byte) (k : Nat) : port (setMb s a b) k = port s k := rfl
@[simp] theorem ring_setMb (s : State) (a : Nat) (b : Byte) (k : Nat) : ring (setMb s a b) k = ring s k := rfl
@[simp] theorem dma_setMb (s : State) (a : Nat) (b : Byte) (k : Nat) : dma (setMb s a b) k = dma s k := rfl
@[simp] theorem seqc_setMb (s : State) (a : Nat) (b : Byte) (k : Nat) : seqc (setMb s a b) k = seqc s k := rfl
@[simp] theorem rd_setMb (s : State) (a : Nat) (b : Byte) (k : Nat) : rd (setMb s a b) k = rd s k := rfl
@[simp] theorem rn_setMb (s : State) (a : Nat) (b : Byte) (k : Nat) : rn (setMb s a b) k = rn s k := rfl

@[simp] theorem atCyc_pending (s : State) (c : CycIx) : (atCyc s c).pending = s.pending := rfl
@[simp] theorem atCyc_free (s : State) (c : CycIx) : (atCyc s c).free = s.free := rfl
@[simp] theorem atCyc_order (s : State) (c : CycIx) : (atCyc s c).order = s.order := rfl
@[simp] theorem atCyc_regs (s : State) (c : CycIx) : (atCyc s c).regs = s.regs := rfl
@[simp] theorem atCyc_shadow (s : State) (c : CycIx) : (atCyc s c).shadow = s.shadow := rfl
@[simp] theorem atCyc_staging (s : State) (c : CycIx) : (atCyc s c).staging = s.staging := rfl
@[simp] theorem atCyc_posted (s : State) (c : CycIx) : (atCyc s c).posted = s.posted := rfl
@[simp] theorem atCyc_mem (s : State) (c : CycIx) : (atCyc s c).mem = s.mem := rfl
@[simp] theorem atCyc_time (s : State) (c : CycIx) : (atCyc s c).time = s.time := rfl
@[simp] theorem atCyc_seal (s : State) (c : CycIx) : (atCyc s c).seal_ = s.seal_ := rfl
@[simp] theorem atCyc_fcol (s : State) (c : CycIx) : (atCyc s c).fcol = s.fcol := rfl
@[simp] theorem atCyc_snap (s : State) (c : CycIx) : (atCyc s c).snap = s.snap := rfl
@[simp] theorem atCyc_scs (s : State) (c : CycIx) : (atCyc s c).scs = s.scs := rfl
@[simp] theorem atCyc_fods (s : State) (c : CycIx) : (atCyc s c).fods = s.fods := rfl
@[simp] theorem atCyc_refs (s : State) (c : CycIx) : (atCyc s c).refs = s.refs := rfl
@[simp] theorem atCyc_dps (s : State) (c : CycIx) : (atCyc s c).dps = s.dps := rfl
@[simp] theorem atCyc_scr (s : State) (c : CycIx) : (atCyc s c).scr = s.scr := rfl
@[simp] theorem atCyc_lanes (s : State) (c : CycIx) : (atCyc s c).lanes = s.lanes := rfl
@[simp] theorem atCyc_ports (s : State) (c : CycIx) : (atCyc s c).ports = s.ports := rfl
@[simp] theorem atCyc_ingress (s : State) (c : CycIx) : (atCyc s c).ingress = s.ingress := rfl
@[simp] theorem atCyc_gone (s : State) (c : CycIx) : (atCyc s c).gone = s.gone := rfl
@[simp] theorem atCyc_rings (s : State) (c : CycIx) : (atCyc s c).rings = s.rings := rfl
@[simp] theorem atCyc_corrPause (s : State) (c : CycIx) : (atCyc s c).corrPause = s.corrPause := rfl
@[simp] theorem atCyc_tdcFail (s : State) (c : CycIx) : (atCyc s c).tdcFail = s.tdcFail := rfl
@[simp] theorem atCyc_groups (s : State) (c : CycIx) : (atCyc s c).groups = s.groups := rfl
@[simp] theorem atCyc_coreAwake (s : State) (c : CycIx) : (atCyc s c).coreAwake = s.coreAwake := rfl
@[simp] theorem atCyc_standby (s : State) (c : CycIx) : (atCyc s c).standby = s.standby := rfl
@[simp] theorem atCyc_mateReady (s : State) (c : CycIx) : (atCyc s c).mateReady = s.mateReady := rfl
@[simp] theorem atCyc_mate (s : State) (c : CycIx) : (atCyc s c).mate = s.mate := rfl
@[simp] theorem atCyc_nvs (s : State) (c : CycIx) : (atCyc s c).nvs = s.nvs := rfl
@[simp] theorem atCyc_cal (s : State) (c : CycIx) : (atCyc s c).cal = s.cal := rfl
@[simp] theorem atCyc_cmd (s : State) (c : CycIx) : (atCyc s c).cmd = s.cmd := rfl
@[simp] theorem atCyc_dmas (s : State) (c : CycIx) : (atCyc s c).dmas = s.dmas := rfl
@[simp] theorem atCyc_dmaLast (s : State) (c : CycIx) : (atCyc s c).dmaLast = s.dmaLast := rfl
@[simp] theorem atCyc_seqs (s : State) (c : CycIx) : (atCyc s c).seqs = s.seqs := rfl
@[simp] theorem atCyc_pwr (s : State) (c : CycIx) : (atCyc s c).pwr = s.pwr := rfl
@[simp] theorem atCyc_smb (s : State) (c : CycIx) : (atCyc s c).smb = s.smb := rfl
@[simp] theorem atCyc_pcieUp (s : State) (c : CycIx) : (atCyc s c).pcieUp = s.pcieUp := rfl
@[simp] theorem atCyc_msix (s : State) (c : CycIx) : (atCyc s c).msix = s.msix := rfl
@[simp] theorem atCyc_pba (s : State) (c : CycIx) : (atCyc s c).pba = s.pba := rfl
@[simp] theorem atCyc_nvsLoaded (s : State) (c : CycIx) : (atCyc s c).nvsLoaded = s.nvsLoaded := rfl
@[simp] theorem atCyc_out (s : State) (c : CycIx) : (atCyc s c).out = s.out := rfl
@[simp] theorem sc_atCyc (s : State) (c : CycIx) (k : Nat) : sc (atCyc s c) k = sc s k := rfl
@[simp] theorem fod_atCyc (s : State) (c : CycIx) (k : Nat) : fod (atCyc s c) k = fod s k := rfl
@[simp] theorem ref_atCyc (s : State) (c : CycIx) (k : Nat) : ref (atCyc s c) k = ref s k := rfl
@[simp] theorem dp_atCyc (s : State) (c : CycIx) (k : Nat) : dp (atCyc s c) k = dp s k := rfl
@[simp] theorem lane_atCyc (s : State) (c : CycIx) (k : Nat) : lane (atCyc s c) k = lane s k := rfl
@[simp] theorem port_atCyc (s : State) (c : CycIx) (k : Nat) : port (atCyc s c) k = port s k := rfl
@[simp] theorem ring_atCyc (s : State) (c : CycIx) (k : Nat) : ring (atCyc s c) k = ring s k := rfl
@[simp] theorem dma_atCyc (s : State) (c : CycIx) (k : Nat) : dma (atCyc s c) k = dma s k := rfl
@[simp] theorem seqc_atCyc (s : State) (c : CycIx) (k : Nat) : seqc (atCyc s c) k = seqc s k := rfl
@[simp] theorem rd_atCyc (s : State) (c : CycIx) (k : Nat) : rd (atCyc s c) k = rd s k := rfl
@[simp] theorem rn_atCyc (s : State) (c : CycIx) (k : Nat) : rn (atCyc s c) k = rn s k := rfl

@[simp] theorem bumpOrder_pending (s : State) : (bumpOrder s).pending = s.pending := rfl
@[simp] theorem bumpOrder_free (s : State) : (bumpOrder s).free = s.free := rfl
@[simp] theorem bumpOrder_cyc (s : State) : (bumpOrder s).cyc = s.cyc := rfl
@[simp] theorem bumpOrder_regs (s : State) : (bumpOrder s).regs = s.regs := rfl
@[simp] theorem bumpOrder_shadow (s : State) : (bumpOrder s).shadow = s.shadow := rfl
@[simp] theorem bumpOrder_staging (s : State) : (bumpOrder s).staging = s.staging := rfl
@[simp] theorem bumpOrder_posted (s : State) : (bumpOrder s).posted = s.posted := rfl
@[simp] theorem bumpOrder_mem (s : State) : (bumpOrder s).mem = s.mem := rfl
@[simp] theorem bumpOrder_time (s : State) : (bumpOrder s).time = s.time := rfl
@[simp] theorem bumpOrder_seal (s : State) : (bumpOrder s).seal_ = s.seal_ := rfl
@[simp] theorem bumpOrder_fcol (s : State) : (bumpOrder s).fcol = s.fcol := rfl
@[simp] theorem bumpOrder_snap (s : State) : (bumpOrder s).snap = s.snap := rfl
@[simp] theorem bumpOrder_scs (s : State) : (bumpOrder s).scs = s.scs := rfl
@[simp] theorem bumpOrder_fods (s : State) : (bumpOrder s).fods = s.fods := rfl
@[simp] theorem bumpOrder_refs (s : State) : (bumpOrder s).refs = s.refs := rfl
@[simp] theorem bumpOrder_dps (s : State) : (bumpOrder s).dps = s.dps := rfl
@[simp] theorem bumpOrder_scr (s : State) : (bumpOrder s).scr = s.scr := rfl
@[simp] theorem bumpOrder_lanes (s : State) : (bumpOrder s).lanes = s.lanes := rfl
@[simp] theorem bumpOrder_ports (s : State) : (bumpOrder s).ports = s.ports := rfl
@[simp] theorem bumpOrder_ingress (s : State) : (bumpOrder s).ingress = s.ingress := rfl
@[simp] theorem bumpOrder_gone (s : State) : (bumpOrder s).gone = s.gone := rfl
@[simp] theorem bumpOrder_rings (s : State) : (bumpOrder s).rings = s.rings := rfl
@[simp] theorem bumpOrder_corrPause (s : State) : (bumpOrder s).corrPause = s.corrPause := rfl
@[simp] theorem bumpOrder_tdcFail (s : State) : (bumpOrder s).tdcFail = s.tdcFail := rfl
@[simp] theorem bumpOrder_groups (s : State) : (bumpOrder s).groups = s.groups := rfl
@[simp] theorem bumpOrder_coreAwake (s : State) : (bumpOrder s).coreAwake = s.coreAwake := rfl
@[simp] theorem bumpOrder_standby (s : State) : (bumpOrder s).standby = s.standby := rfl
@[simp] theorem bumpOrder_mateReady (s : State) : (bumpOrder s).mateReady = s.mateReady := rfl
@[simp] theorem bumpOrder_mate (s : State) : (bumpOrder s).mate = s.mate := rfl
@[simp] theorem bumpOrder_nvs (s : State) : (bumpOrder s).nvs = s.nvs := rfl
@[simp] theorem bumpOrder_cal (s : State) : (bumpOrder s).cal = s.cal := rfl
@[simp] theorem bumpOrder_cmd (s : State) : (bumpOrder s).cmd = s.cmd := rfl
@[simp] theorem bumpOrder_dmas (s : State) : (bumpOrder s).dmas = s.dmas := rfl
@[simp] theorem bumpOrder_dmaLast (s : State) : (bumpOrder s).dmaLast = s.dmaLast := rfl
@[simp] theorem bumpOrder_seqs (s : State) : (bumpOrder s).seqs = s.seqs := rfl
@[simp] theorem bumpOrder_pwr (s : State) : (bumpOrder s).pwr = s.pwr := rfl
@[simp] theorem bumpOrder_smb (s : State) : (bumpOrder s).smb = s.smb := rfl
@[simp] theorem bumpOrder_pcieUp (s : State) : (bumpOrder s).pcieUp = s.pcieUp := rfl
@[simp] theorem bumpOrder_msix (s : State) : (bumpOrder s).msix = s.msix := rfl
@[simp] theorem bumpOrder_pba (s : State) : (bumpOrder s).pba = s.pba := rfl
@[simp] theorem bumpOrder_nvsLoaded (s : State) : (bumpOrder s).nvsLoaded = s.nvsLoaded := rfl
@[simp] theorem bumpOrder_out (s : State) : (bumpOrder s).out = s.out := rfl
@[simp] theorem sc_bumpOrder (s : State) (k : Nat) : sc (bumpOrder s) k = sc s k := rfl
@[simp] theorem fod_bumpOrder (s : State) (k : Nat) : fod (bumpOrder s) k = fod s k := rfl
@[simp] theorem ref_bumpOrder (s : State) (k : Nat) : ref (bumpOrder s) k = ref s k := rfl
@[simp] theorem dp_bumpOrder (s : State) (k : Nat) : dp (bumpOrder s) k = dp s k := rfl
@[simp] theorem lane_bumpOrder (s : State) (k : Nat) : lane (bumpOrder s) k = lane s k := rfl
@[simp] theorem port_bumpOrder (s : State) (k : Nat) : port (bumpOrder s) k = port s k := rfl
@[simp] theorem ring_bumpOrder (s : State) (k : Nat) : ring (bumpOrder s) k = ring s k := rfl
@[simp] theorem dma_bumpOrder (s : State) (k : Nat) : dma (bumpOrder s) k = dma s k := rfl
@[simp] theorem seqc_bumpOrder (s : State) (k : Nat) : seqc (bumpOrder s) k = seqc s k := rfl
@[simp] theorem rd_bumpOrder (s : State) (k : Nat) : rd (bumpOrder s) k = rd s k := rfl
@[simp] theorem rn_bumpOrder (s : State) (k : Nat) : rn (bumpOrder s) k = rn s k := rfl

end Sys2Proof.Machine
end

