-- ==== Sys2Proof/Laws/Regs.lean ====
section
/-!
SUPPORT. What writes of registers, counters, reports and events do to the registers: each lemma says once which
register an operation changes, and that a read of every other one is unchanged.
-/
namespace Sys2Proof.Machine

open Sys2Proof

theorem rd_congr {s t : State} (h : t.regs = s.regs) (o : Nat) : rd t o = rd s o := by
  unfold rd
  rw [h]

theorem rn_congr {s t : State} (h : t.regs = s.regs) (o : Nat) : rn t o = rn s o := by
  unfold rn
  rw [rd_congr h]

@[simp] theorem rd_wr_same (s : State) (o v : Nat) : rd (wr s o v) o = wd v := mget_mput_same _ _ _ _

theorem rd_wr_ne (s : State) {o k : Nat} (v : Nat) (h : k ≠ o) : rd (wr s o v) k = rd s k := mget_mput_ne _ _ _ h

@[simp] theorem rn_wr_same (s : State) (o v : Nat) : rn (wr s o v) o = v % 2 ^ 32 := by
  unfold rn
  rw [rd_wr_same]
  simp [wd]

theorem rn_wr_ne (s : State) {o k : Nat} (v : Nat) (h : k ≠ o) : rn (wr s o v) k = rn s k := by
  unfold rn
  rw [rd_wr_ne s v h]

theorem rn_lt (s : State) (o : Nat) : rn s o < 2 ^ 32 := (rd s o).isLt

theorem rd_orBits_ne (s : State) {o k : Nat} (m : Nat) (h : k ≠ o) : rd (orBits s o m) k = rd s k := rd_wr_ne _ _ h
theorem rd_clrBits_ne (s : State) {o k : Nat} (m : Nat) (h : k ≠ o) : rd (clrBits s o m) k = rd s k := rd_wr_ne _ _ h
theorem rd_wb_ne (s : State) {o k : Nat} (lo n v : Nat) (h : k ≠ o) : rd (wb s o lo n v) k = rd s k := rd_wr_ne _ _ h

theorem rn_orBits_same (s : State) (o m : Nat) (hm : m < 2 ^ 32) : rn (orBits s o m) o = rn s o ||| m := by
  unfold orBits
  rw [rn_wr_same]
  exact Nat.mod_eq_of_lt (Nat.or_lt_two_pow (rn_lt s o) hm)

/-- The bits of a register after some of them are set. -/
theorem rbit_orBits_same (s : State) (o m n : Nat) (hm : m < 2 ^ 32) :
    rbit (orBits s o m) o n = (rbit s o n || m.testBit n) := by
  unfold rbit
  rw [rn_orBits_same s o m hm, Nat.testBit_or]

/-- Numbers without a common bit add as they join. -/
theorem add_eq_or_of_and {x y : Nat} (h : x &&& y = 0) : x + y = x ||| y := by
  obtain ⟨w, hw⟩ : ∃ w, x + y < 2 ^ w := ⟨x + y, Nat.lt_two_pow_self⟩
  have hx : x < 2 ^ w := by omega
  have hy : y < 2 ^ w := by omega
  have e := BitVec.add_eq_or_of_and_eq_zero (BitVec.ofNat w x) (BitVec.ofNat w y) (by
    apply BitVec.eq_of_toNat_eq
    simp [Nat.mod_eq_of_lt hx, Nat.mod_eq_of_lt hy, h])
  have := congrArg BitVec.toNat e
  simpa [Nat.mod_eq_of_lt hx, Nat.mod_eq_of_lt hy, Nat.mod_eq_of_lt hw] using this

theorem clr_testBit (a m n : Nat) : (clr a m).testBit n = (a.testBit n && !m.testBit n) := by
  have h : clr a m = Nat.ldiff a m := by
    have e : (a &&& m) ||| Nat.ldiff a m = a := by
      apply Nat.eq_of_testBit_eq
      intro i
      rw [Nat.testBit_or, Nat.testBit_and, Nat.testBit_ldiff]
      cases a.testBit i <;> cases m.testBit i <;> rfl
    have z : (a &&& m) &&& Nat.ldiff a m = 0 := by
      apply Nat.eq_of_testBit_eq
      intro i
      rw [Nat.testBit_and, Nat.testBit_and, Nat.testBit_ldiff, Nat.zero_testBit]
      cases a.testBit i <;> cases m.testBit i <;> rfl
    have d := add_eq_or_of_and z
    unfold clr
    omega
  rw [h, Nat.testBit_ldiff]

theorem ones_testBit (n i : Nat) : (ones n).testBit i = decide (i < n) := Nat.testBit_two_pow_sub_one n i

theorem bits_testBit (v lo n i : Nat) : (bits v lo n).testBit i = (decide (i < n) && v.testBit (lo + i)) := by
  unfold bits
  rw [Nat.testBit_mod_two_pow, Nat.testBit_shiftRight]

/-- The bits of a value of which n bits at lo were replaced. -/
theorem setBits_testBit (v lo n x i : Nat) :
    (setBits v lo n x).testBit i = if lo ≤ i ∧ i < lo + n then x.testBit (i - lo) else v.testBit i := by
  have e : bits v lo n <<< lo = v &&& (ones n <<< lo) := by
    apply Nat.eq_of_testBit_eq
    intro i
    rw [Nat.testBit_shiftLeft, Nat.testBit_and, Nat.testBit_shiftLeft, bits_testBit, ones_testBit]
    by_cases h : lo ≤ i
    · simp only [h, decide_true, Bool.true_and]
      rw [show lo + (i - lo) = i by omega, Bool.and_comm]
    · simp [h]
  have c : setBits v lo n x = clr v (ones n <<< lo) ||| ((x % 2 ^ n) <<< lo) := by
    unfold setBits
    rw [e]
    apply add_eq_or_of_and
    apply Nat.eq_of_testBit_eq
    intro i
    rw [Nat.testBit_and, Nat.zero_testBit]
    show ((clr v (ones n <<< lo)).testBit i && _) = false
    rw [clr_testBit, Nat.testBit_shiftLeft, Nat.testBit_shiftLeft, ones_testBit, Nat.testBit_mod_two_pow]
    by_cases h : lo ≤ i <;> by_cases k : i - lo < n <;> simp [h, k]
  rw [c, Nat.testBit_or, clr_testBit, Nat.testBit_shiftLeft, Nat.testBit_shiftLeft, ones_testBit, Nat.testBit_mod_two_pow]
  by_cases h : lo ≤ i
  · by_cases k : i < lo + n
    · have : i - lo < n := by omega
      simp [h, k, this]
    · have : ¬ i - lo < n := by omega
      simp [h, k, this]
  · simp [h]

theorem setBits_lt (v lo n x : Nat) (hv : v < 2 ^ 32) (h : lo + n ≤ 32) : setBits v lo n x < 2 ^ 32 := by
  apply Nat.lt_pow_two_of_testBit
  intro i hi
  rw [setBits_testBit, if_neg (by omega)]
  exact Nat.testBit_lt_two_pow (lt_of_lt_of_le hv (Nat.pow_le_pow_right (by omega) hi))

theorem bits_setBits_same (v lo n x : Nat) : bits (setBits v lo n x) lo n = x % 2 ^ n := by
  apply Nat.eq_of_testBit_eq
  intro i
  rw [bits_testBit, setBits_testBit, Nat.testBit_mod_two_pow]
  by_cases h : i < n
  · rw [if_pos ⟨by omega, by omega⟩]
    simp [h, show lo + i - lo = i by omega]
  · simp [h]

theorem rn_wb_same (s : State) (o lo n v : Nat) (h : lo + n ≤ 32) : rn (wb s o lo n v) o = setBits (rn s o) lo n v := by
  unfold wb
  rw [rn_wr_same]
  exact Nat.mod_eq_of_lt (setBits_lt _ _ _ _ (rn_lt s o) h)

/-- A field after it is written. -/
theorem rb_wb_same (s : State) (o lo n v : Nat) (h : lo + n ≤ 32) : rb (wb s o lo n v) o lo n = v % 2 ^ n := by
  unfold rb
  rw [rn_wb_same s o lo n v h, bits_setBits_same]

/-- A bit outside a field that is written. -/
theorem rbit_wb_ne (s : State) (o lo n v i : Nat) (h : lo + n ≤ 32) (hi : ¬ (lo ≤ i ∧ i < lo + n)) :
    rbit (wb s o lo n v) o i = rbit s o i := by
  unfold rbit
  rw [rn_wb_same s o lo n v h, setBits_testBit, if_neg hi]

theorem rn_clrBits_same (s : State) (o m : Nat) : rn (clrBits s o m) o = clr (rn s o) m := by
  unfold clrBits
  rw [rn_wr_same]
  exact Nat.mod_eq_of_lt (lt_of_le_of_lt (Nat.sub_le _ _) (rn_lt s o))

/-- The bits of a register after some of them are cleared. -/
theorem rbit_clrBits_same (s : State) (o m n : Nat) : rbit (clrBits s o m) o n = (rbit s o n && !m.testBit n) := by
  unfold rbit
  rw [rn_clrBits_same, clr_testBit]

theorem rd_noteSat {s : State} {o k : Nat} (hk : faultReg k = false) : rd (noteSat s o) k = rd s k := by
  simp only [faultReg, decide_eq_false_iff_not, not_or] at hk
  obtain ⟨h1, h2, h3, -⟩ := hk
  have a : rd (orBits s 0x180 1) k = rd s k := rd_orBits_ne s 1 h1
  have b : ∀ x : State, rd (if rn x 0x188 = 0 then wr x 0x184 o else x) k = rd x k := by
    intro x
    split
    · exact rd_wr_ne _ _ h2
    · rfl
  have c : ∀ x : State, rd (if rn x 0x188 = ones 32 then x else wr x 0x188 (rn x 0x188 + 1)) k = rd x k := by
    intro x
    split
    · rfl
    · exact rd_wr_ne _ _ h3
  exact (c _).trans ((b _).trans a)

theorem rd_cntSet {s : State} {o v k : Nat} {wm : Bool} (h : k ≠ o) (h4 : wm = true → k ≠ o + 4) :
    rd (cntSet s o wm v) k = rd s k := by
  unfold cntSet
  cases wm with
  | true =>
    show rd (wr (wr s o _) (o + 4) _) k = _
    rw [rd_wr_ne _ _ (h4 rfl), rd_wr_ne _ _ h]
  | false => exact rd_wr_ne _ _ h

theorem rd_bumpRaw {s : State} {o n k : Nat} {wm : Bool} (hk : faultReg k = false) (h : k ≠ o) (h4 : wm = true → k ≠ o + 4) :
    rd (bumpRaw s o n wm).1 k = rd s k := by
  unfold bumpRaw
  dsimp only
  split
  · rfl
  · split
    · rw [rd_noteSat hk, rd_cntSet h h4]
    · exact rd_cntSet h h4

/-- Filing a report changes only the registers of `faultReg`. -/
theorem rd_fileReport {fuel : Nat} {s : State} {r : Report} {k : Nat} (hs : r.src < 0x1000) (hk : faultReg k = false) :
    rd (fileReport fuel s r) k = rd s k := by
  induction fuel generalizing s r with
  | zero => rfl
  | succ f ih =>
    have ho : ∀ o, faultReg o = true → k ≠ o := by
      intro o h e
      rw [e, h] at hk
      cases hk
    have b (x : State) (o : Nat) (h : faultReg o = true) (q : Report) (hq : q.src < 0x1000) :
        rd (if (bumpRaw x o 1 false).2 then fileReport f (bumpRaw x o 1 false).1 q else (bumpRaw x o 1 false).1) k = rd x k := by
      split
      · rw [ih hq, rd_bumpRaw hk (ho o h) (by simp)]
      · exact rd_bumpRaw hk (ho o h) (by simp)
    have f1 : faultReg (rFCOL (0x4000 + 4 * r.src)) = true := by
      apply decide_eq_true
      right
      right
      right
      unfold rFCOL
      omega
    unfold fileReport
    split
    · dsimp only
      have hc : srcCnt < 0x1000 := by decide
      rw [rd_orBits_ne _ _ (ho _ (by decide)), b _ _ (by decide) _ hc, b _ _ f1 _ hc]
    · rfl

/-- A report changes only the registers of `faultReg`. -/
theorem rd_raise {s : State} {src kind addr m a k : Nat} (hs : src < 0x1000) (hk : faultReg k = false) :
    rd (raise s src kind addr m a) k = rd s k := rd_fileReport hs hk

/-- The same for a report that names the write which caused it. -/
theorem rd_raiseC {s : State} {src kind stat k : Nat} {cz : Cause} (hs : src < 0x1000) (hk : faultReg k = false) :
    rd (raiseC s src kind stat cz) k = rd s k := by
  cases cz <;> exact rd_raise hs hk

/-- A report is queued while its source's queue has room (R416). -/
theorem raise_eq {s : State} {src kind addr m a : Nat} (h : queueFull s src = false) :
    raise s src kind addr m a = enqueue s (mkReport s src kind addr m a false) := by
  show (if queueFull s src = true then _ else _) = _
  rw [h]
  rfl

/-- A count changes its counter, and the registers of `faultReg` where it saturates. -/
theorem rd_bump {s : State} {o n k : Nat} (hk : faultReg k = false) (h : k ≠ o) : rd (bump s o n) k = rd s k := by
  unfold bump
  dsimp only
  split
  · rw [rd_raise (by decide) hk, rd_bumpRaw hk h (by simp)]
  · exact rd_bumpRaw hk h (by simp)

theorem rd_bumpM {s : State} {o n k : Nat} (hk : faultReg k = false) (h : k ≠ o) (h4 : k ≠ o + 4) :
    rd (bumpM s o n) k = rd s k := by
  unfold bumpM
  dsimp only
  split
  · rw [rd_raise (by decide) hk, rd_bumpRaw hk h (fun _ => h4)]
  · exact rd_bumpRaw hk h (fun _ => h4)

/-- A 32-bit counter counts and saturates (R453). -/
theorem rn_bump_same {s : State} {o n : Nat} (ho : faultReg o = false) : rn (bump s o n) o = min (rn s o + n) (2 ^ 32 - 1) := by
  have hl := rn_lt s o
  have q : rn (bump s o n) o = rn (bumpRaw s o n false).1 o := by
    unfold bump
    dsimp only
    split
    · unfold rn
      rw [rd_raise (by decide) ho]
    · rfl
  rw [q]
  unfold bumpRaw
  simp only [cntGet, Bool.false_eq_true, if_false, ones]
  split
  · rename_i h
    rw [h]
    omega
  · have hm : min (rn s o + n) (2 ^ 32 - 1) % 2 ^ 32 = min (rn s o + n) (2 ^ 32 - 1) := Nat.mod_eq_of_lt (by omega)
    have c : rn (cntSet s o false (min (rn s o + n) (2 ^ 32 - 1))) o = min (rn s o + n) (2 ^ 32 - 1) := by
      show rn (wr s o _) o = _
      rw [rn_wr_same, hm]
    split
    · show (rd (noteSat _ _) o).toNat = _
      rw [rd_noteSat ho]
      exact c
    · exact c

theorem rd_evtBit {s : State} {n b k : Nat} (hb : b < 64) (hk : faultReg k = false) (he : evtReg n k = false) :
    rd (evtBit s n b) k = rd s k := by
  simp only [evtReg, decide_eq_false_iff_not, not_or] at he
  obtain ⟨h0, h4, h8⟩ := he
  have ho : k ≠ rSEQ n (0x30 + 4 * (b / 32)) := by
    have : b / 32 = 0 ∨ b / 32 = 1 := by omega
    rcases this with e | e <;> rw [e] <;> assumption
  unfold evtBit
  dsimp only
  split
  · exact rd_bump hk h8
  · exact rd_orBits_ne _ _ ho

end Sys2Proof.Machine
end

