-- ==== Sys2Proof/Laws/Bus.lean ====
section
/-!
SUPPORT. The register bus in the cases that the commands meet: what a 32-bit aligned write comes to when the bus is open,
SAFE does not hold and the offset is not the endpoint's; a write of a single-word register without locks and held bits.
-/
namespace Sys2Proof.Machine

open Sys2Proof

/-- Outside AON_ONLY an access wakes nothing (R505, R506). -/
theorem coreTouch_awake {s : State} {off : Nat} {r : Bool} (h : pwrState s ≠ 1) : coreTouch s off r = s := by
  unfold coreTouch
  rw [if_pos (Or.inl h)]

/-- An access that the AON answers wakes nothing (R506). -/
theorem coreTouch_aon {s : State} {off : Nat} {r : Bool} (h : aonAnswers off r = true) : coreTouch s off r = s := by
  unfold coreTouch
  rw [if_pos (Or.inr h)]

/-- An aligned 32-bit write with the bus open, which wakes nothing, is the write of a register word. -/
theorem busWrite_open {s : State} {m addr v : Nat} (hn : s.nvsLoaded = true) (hs : s.fcol.safe = false)
    (hc : coreTouch s (addr % 2 ^ 24) false = s)
    (ha : addr % 4 = 0) (hb : addr < 2 ^ 26) (hx : inMsix (addr % 2 ^ 24) = false) (hv : v < 2 ^ 32) :
    busWrite s m addr 32 v = regWrite s m addr v := by
  unfold busWrite busWrite1 busWrite32
  have e1 : addr % 67108864 = addr := Nat.mod_eq_of_lt hb
  have e2 : v % 4294967296 = v := Nat.mod_eq_of_lt hv
  have e3 : inMsix (addr % 16777216) = false := hx
  have e4 : coreTouch s (addr % 16777216) false = s := hc
  simp [hn, hs, ha, e1, e2, e3, e4]

/-- The write of a single-word register of the normal view that is not posted. -/
theorem regWrite_one {s : State} {m off v : Nat} {i : RegInfo} (hi : regInfo off = some i) (ho : off < 2 ^ 24)
    (hw : i.row.words = 1) (h0 : i.word = 0) (hp : i.row.posted = false) (hr : allRo i = false)
    (hc : i.blk ≠ .cmd) :
    regWrite s m off v = busAccept (forwardTaken s m off off v i 0 v) m off 0 v i := by
  unfold regWrite
  have h1 : off / 16777216 = 0 := Nat.div_eq_of_lt ho
  have e : off % 16777216 = off := Nat.mod_eq_of_lt ho
  simp [e, hi, hw, h0, hp, hr, hc, h1, stagedL, topBit]

/-- A write that nothing posts, locks or holds: the register takes its value, what follows from it happens, and a pass over
a sealed register is void. -/
theorem busAccept_free {s : State} {m off view v : Nat} {i : RegInfo} (hl : lockedBits s i = 0)
    (hh : heldBits s i &&& aimedBits i view v = 0) (hp : i.row.posted = false) :
    busAccept s m off view v i =
      (applyVal (if i.row.slm ≠ 0 then passVoidMark s (some (off, m)) else s) i view v m (some (off, m)), false) := by
  have hu : unlock i view v (oldVal s m i) 0 = v := by
    unfold unlock
    by_cases hw : i.row.wm <;> simp [hw, clr, Nat.mod_add_div, Nat.mul_comm]
  unfold busAccept
  by_cases hw : i.row.wm <;> by_cases hz : i.row.slm = 0 <;> simp [hl, hu, hh, hp, hw, hz]

/-- A report of a register-bus or counter source leaves the registers that no report writes. -/
theorem rd_loadSat {s : State} {i : RegInfo} {old k : Nat} (hk : faultReg k = false) :
    rd (loadSat s i old) k = rd s k := by
  unfold loadSat
  split
  · rw [rd_raise (by decide) hk, rd_noteSat hk]
  · rfl

/-- Noting a write changes no register. -/
theorem rd_noteWrite (s : State) (off k : Nat) : rd (noteWrite s off) k = rd s k := by
  unfold noteWrite
  split <;> rfl

/-- What a write leaves in a single-word register whose write has no further effect. -/
theorem applyVal_word {s : State} {i : RegInfo} {view v m : Nat} {cz : Cause} (hw : i.row.words = 1)
    (hv : isVirtual i = false) (hfx : ∀ t old new hit, regFx t i old new hit m cz = t) {k : Nat} (hk : faultReg k = false) :
    rd (applyVal s i view v m cz) k =
      if k = i.base then wd (clr (newVal i view (rn s i.base) v) (hitVal i v &&& i.row.w1c)) else rd s k := by
  have ho : oldVal s m i = rn s i.base := by simp [oldVal, hv, hw, rL]
  unfold applyVal storeVal
  simp only [ho, hfx, hv, hw, if_false, Bool.false_eq_true, wL]
  rw [rd_noteWrite, rd_loadSat hk]
  split
  · rename_i e
    rw [e, rd_wr_same]
    apply BitVec.eq_of_toNat_eq
    simp [wd]
  · rename_i e
    rw [rd_wr_ne _ _ e]

/-- The write, in any view, of a single-word 32-bit register that is not posted. -/
theorem regWrite_view {s : State} {m addr off view v : Nat} {i : RegInfo} (ho : addr % 2 ^ 24 = off)
    (hv : addr / 2 ^ 24 % 4 = view) (hi : regInfo off = some i) (hw : i.row.words = 1) (h0 : i.word = 0)
    (hp : i.row.posted = false) (hr : allRo i = false) (hm : i.row.wm = false) (hc : i.blk ≠ .cmd) :
    regWrite s m addr v = busAccept (forwardTaken s m addr off v i view v) m off view v i := by
  unfold regWrite
  simp only [ho, hv, hi]
  simp [hw, h0, hp, hr, hc, hm, stagedL, topBit]

/-- What the map gives for an offset: the word lies in its register, which starts that many words before. -/
theorem regInfo_word {off : Nat} {i : RegInfo} (h : regInfo off = some i) :
    i.word < i.row.words ∧ i.base = off - 4 * i.word := by
  have hf : ∀ (l : List RegRow) (o : Nat) r k w, findRow l o = some (r, k, w) → w < r.words := by
    intro l
    induction l with
    | nil => intro o r k w h; simp [findRow] at h
    | cons a t ih =>
      intro o r k w h
      unfold findRow at h
      split at h
      · rename_i k' w' e
        simp only [Option.some.injEq, Prod.mk.injEq] at h
        obtain ⟨rfl, rfl, rfl⟩ := h
        unfold rowHit at e
        split at e
        · cases e
        · by_cases c : (if a.rep = 1 then 0 else (o - a.off) / a.step) < a.rep ∧
              (o - a.off - (if a.rep = 1 then 0 else (o - a.off) / a.step) * a.step) / 4 < a.words
          · rw [if_pos c] at e
            simp only [Option.some.injEq, Prod.mk.injEq] at e
            obtain ⟨-, rfl⟩ := e
            exact c.2
          · rw [if_neg c] at e
            cases e
      · exact ih _ _ _ _ h
  unfold regInfo at h
  split at h
  · split at h
    · rename_i e
      cases h
      exact ⟨by simpa [RegRow.only] using hf _ _ _ _ _ e, rfl⟩
    · cases h
  · split at h
    · split at h
      · rename_i e
        cases h
        refine ⟨?_, rfl⟩
        dsimp only
        split
        · simpa [RegRow.only] using hf _ _ _ _ _ e
        · exact hf _ _ _ _ _ e
      · cases h
    · cases h

/-- A register word of another block than the references' is a row of its block's table. -/
theorem regInfo_row {off : Nat} {i : RegInfo} (h : regInfo off = some i) (hr : i.blk ≠ .ref) :
    ∃ b ∈ blocks, b.blk = i.blk ∧ i.row ∈ b.rows ∧ b.base ≤ off ∧ off < b.base + b.stride * b.count := by
  have hf : ∀ (l : List RegRow) (o : Nat) r k w, findRow l o = some (r, k, w) → r ∈ l := by
    intro l
    induction l with
    | nil => intro o r k w h; simp [findRow] at h
    | cons a t ih =>
      intro o r k w h
      unfold findRow at h
      split at h
      · simp only [Option.some.injEq, Prod.mk.injEq] at h
        exact h.1 ▸ List.mem_cons_self
      · exact List.mem_cons_of_mem _ (ih _ _ _ _ h)
  have hb : ∀ (l : List BlkRow) (o : Nat) b n, findBlk l o = some (b, n) →
      b ∈ l ∧ b.base ≤ o ∧ o < b.base + b.stride * b.count := by
    intro l
    induction l with
    | nil => intro o b n h; simp [findBlk] at h
    | cons a t ih =>
      intro o b n h
      unfold findBlk at h
      split at h
      · rename_i c
        simp only [Option.some.injEq, Prod.mk.injEq] at h
        rw [← h.1]
        exact ⟨List.mem_cons_self, c⟩
      · exact ⟨List.mem_cons_of_mem _ (ih _ _ _ h).1, (ih _ _ _ h).2⟩
  unfold regInfo at h
  split at h
  · split at h
    · cases h
      exact absurd rfl hr
    · cases h
  · split at h
    · rename_i e
      split at h
      · rename_i e'
        cases h
        dsimp only at hr ⊢
        refine ⟨_, (hb _ _ _ _ e).1, rfl, ?_, (hb _ _ _ _ e).2⟩
        rw [if_neg hr]
        exact hf _ _ _ _ _ e'
      · cases h
    · cases h

/-- A write of a whole single-word register that nothing posts, locks or holds. -/
theorem regPut_word {s : State} {m off v : Nat} {i : RegInfo} (hn : s.nvsLoaded = true) (hs : s.fcol.safe = false)
    (hi : regInfo off = some i) (ha : off % 4 = 0) (ho : off < 2 ^ 24) (hx : inMsix off = false) (hv : v < 2 ^ 32)
    (hw : i.row.words = 1) (h0 : i.word = 0) (hp : i.row.posted = false) (hr : allRo i = false) (hc : i.blk ≠ .cmd)
    (ht : coreTouch s off false = s) (hl : lockedBits (forwardTaken s m off off v i 0 v) i = 0)
    (hh : heldBits (forwardTaken s m off off v i 0 v) i &&& aimedBits i 0 v = 0) :
    regPut s m off v = applyVal (if i.row.slm ≠ 0 then passVoidMark (forwardTaken s m off off v i 0 v) (some (off, m))
      else forwardTaken s m off off v i 0 v) i 0 v m (some (off, m)) := by
  unfold regPut
  rw [busWrite_open hn hs (by rw [Nat.mod_eq_of_lt ho]; exact ht) ha (by omega) (by rw [Nat.mod_eq_of_lt ho]; exact hx) hv,
    regWrite_one hi ho hw h0 hp hr hc, busAccept_free hl hh hp]

/-- A write of a single-word posted register whose block is not BUSY posts (R48); none of these is the host's alone. -/
theorem regPut_posted {s : State} {m off v : Nat} {i : RegInfo} (hn : s.nvsLoaded = true) (hs : s.fcol.safe = false)
    (hi : regInfo off = some i) (ha : off % 4 = 0) (ho : off < 2 ^ 24) (hx : inMsix off = false) (hv : v < 2 ^ 32)
    (hw : i.row.words = 1) (h0 : i.word = 0) (hp : i.row.posted = true) (hb : postBusy s (postKey i.blk i.inst) = false)
    (hr : allRo i = false) (hc : i.blk ≠ .cmd) (hl : i.row.lk = 0) (hm : i.row.wm = false) (hsl : i.row.slm = 0)
    (ht : coreTouch s off false = s) (hf : forwarded off = false) (hh : heldBits s i = 0) :
    regPut s m off v =
      { s with posted := s.posted ++ [(postKey i.blk i.inst, ⟨m, off, 0, [v]⟩)] } := by
  have hfw (a b : Nat) : forwardTaken s m off off v i a b = s := by simp [forwardTaken, hostForward, hf]
  unfold regPut
  rw [busWrite_open hn hs (by rw [Nat.mod_eq_of_lt ho]; exact ht) ha (by omega) (by rw [Nat.mod_eq_of_lt ho]; exact hx) hv]
  have e : off % 16777216 = off := Nat.mod_eq_of_lt ho
  have h1 : off / 16777216 = 0 := Nat.div_eq_of_lt ho
  unfold regWrite
  have hlk : lockedBits s i = 0 := by simp [lockedBits, hl]
  have hvm : v % 4294967296 = v := Nat.mod_eq_of_lt hv
  simp [e, hi, hw, h0, hp, hr, hc, h1, hb, hfw, stagedL, topBit, busAccept, hlk, hh, hm, hsl, unlock, clr, bits, hvm,
    Nat.mod_one]

/-- No register word lies in the range that the PCIe endpoint serves itself (R540). -/
theorem regInfo_inMsix {off : Nat} {i : RegInfo} (h : regInfo off = some i) : inMsix off = false := by
  by_contra hx
  simp only [inMsix, Bool.not_eq_false, decide_eq_true_eq] at hx
  have e : regInfo off = none := by
    unfold regInfo
    rw [if_neg (by omega)]
    have : findBlk blocks off = none := by
      simp only [blocks, findBlk]
      repeat (rw [if_neg (by omega)])
    rw [this]
  rw [e] at h
  cases h

/-- A forwarded write changes only the messages to the mate. -/
theorem rd_hostForward (s : State) (m addr off v o : Nat) : rd (hostForward s m addr off v) o = rd s o :=
  rd_congr ((hostForward_same s m addr off v).get_regs rfl) o

/-- The same of a write of which some bits are taken. -/
theorem rd_forwardTaken (s : State) (m addr off v : Nat) (i : RegInfo) (view raw o : Nat) :
    rd (forwardTaken s m addr off v i view raw) o = rd s o := by
  unfold forwardTaken
  split
  · exact rd_hostForward s m addr off v o
  · rfl

/-- What a void pass changes among the registers (R59). -/
theorem rd_passVoidMark {s : State} {cz : Cause} {k : Nat} (hk : faultReg k = false) (h4 : k ≠ rSEAL 4) (h8 : k ≠ rSEAL 0x18) :
    rd (passVoidMark s cz) k = rd s k := by
  unfold passVoidMark
  split
  · dsimp only
    split
    · rw [rd_raiseC (by decide) hk, rd_orBits_ne _ _ h4, rd_bump hk h8]
      rfl
    · rw [rd_bump hk h8]
      rfl
  · rfl

end Sys2Proof.Machine
end

