-- ==== Sys2Proof/Laws/Loop.lean ====
section
/-!
SUPPORT. The bound of R214 on the jitter peaking of the loop filter of R196.
-/
namespace Sys2Proof.Machine

open Sys2Proof

/-- R214: with DP_DAMP ≥ 40, that is ζ ≥ 5, the squared gain of the closed loop is at most 51/50, which lies below 0.2 dB, at
every frequency x in units of ω_n. -/
theorem loopGainSq_le (z x : Rat) (hz : 5 ≤ z) : loopGainSq z x ≤ 51 / 50 := by
  have hd : 0 < (1 - x ^ 2) ^ 2 + (2 * z * x) ^ 2 := by
    by_cases hx : x = 0
    · subst hx; norm_num
    · have : 0 < (2 * z * x) ^ 2 := by positivity
      nlinarith [sq_nonneg (1 - x ^ 2)]
  unfold loopGainSq
  rw [div_le_iff₀ hd]
  have h1 : 25 ≤ z ^ 2 := by nlinarith
  nlinarith [mul_nonneg (sub_nonneg.2 h1) (sq_nonneg x), sq_nonneg (x ^ 2 - 1 / 51)]

end Sys2Proof.Machine
end

