-- ==== Sys2Proof/Laws/Mem.lean ====
section
/-!
SUPPORT. Memory keeps its canonical form: the relation, and what keeps it.
-/
set_option linter.all false
set_option linter.unusedTactic false
set_option linter.unreachableTactic false
namespace Sys2Proof.Machine

open Sys2Proof

/-- Canonical memory stays canonical. -/
@[irreducible] def MemOk (s t : State) : Prop := Memory.wf s.mem → Memory.wf t.mem

theorem MemOk.refl (s : State) : MemOk s s := by unfold MemOk; exact id

theorem MemOk.trans {s t u : State} (h : MemOk s t) (k : MemOk t u) : MemOk s u := by
  unfold MemOk at *
  exact fun w => k (h w)

theorem MemOk.step {s x y : State} (h : MemOk x y) (hx : MemOk s x) : MemOk s y := hx.trans h

/-- What leaves the memory alone keeps its form. -/
theorem MemOk.ofMem {s x y : State} (e : y.mem = x.mem) (hx : MemOk s x) : MemOk s y := by
  unfold MemOk at *
  rw [e]
  exact hx

theorem MemOk.ofSame {M : Nat} {s x y : State} (e : M.testBit 10 = false) (h : Same M x y) (hx : MemOk s x) : MemOk s y :=
  MemOk.ofMem (h.get_mem e) hx

theorem MemOk.cut {s t : State} (x : State) (hx : MemOk s x) (k : MemOk s x → MemOk s t) : MemOk s t := k hx

theorem MemOk.cutF {α : Type} {s t : State} (f : State → α → State) (hf : ∀ x a, MemOk x (f x a)) (k : (∀ x a, MemOk x (f x a)) → MemOk s t) :
    MemOk s t := k hf

theorem MemOk.cutF1 {s t : State} (f : State → State) (hf : ∀ x, MemOk x (f x)) (k : (∀ x, MemOk x (f x)) → MemOk s t) : MemOk s t := k hf

theorem MemOk.cutG {α : Type} {s t : State} (f : α → State) (hf : ∀ a, MemOk s (f a)) (k : (∀ a, MemOk s (f a)) → MemOk s t) : MemOk s t := k hf

theorem MemOk.viaF {α : Type} {s x : State} {a : α} {f : State → α → State} (hf : ∀ x a, MemOk x (f x a)) (hx : MemOk s x) : MemOk s (f x a) :=
  hx.trans (hf x a)

theorem MemOk.viaF1 {s x : State} {f : State → State} (hf : ∀ x, MemOk x (f x)) (hx : MemOk s x) : MemOk s (f x) := hx.trans (hf x)

theorem MemOk.viaG {α : Type} {s : State} {a : α} {f : α → State} (hf : ∀ a, MemOk s (f a)) : MemOk s (f a) := hf a

theorem MemOk.upto {n : Nat} {s x : State} {f : State → Nat → State} (h : ∀ x i, MemOk x (f x i)) (hx : MemOk s x) :
    MemOk s (Machine.upto n f x) := by
  unfold Machine.upto
  induction List.range n generalizing x with
  | nil => exact hx
  | cons a l ih => exact ih (hx.trans (h x a))

theorem MemOk.foldl {α : Type} {l : List α} {s x : State} {f : State → α → State} (h : ∀ x i, MemOk x (f x i)) (hx : MemOk s x) :
    MemOk s (l.foldl f x) := by
  induction l generalizing x with
  | nil => exact hx
  | cons a l ih => exact ih (hx.trans (h x a))

theorem MemOk.ofFst {α : Type} {s a : State} {b : α} {e : State × α} (h : e = (a, b)) (k : MemOk s e.1) : MemOk s a := by
  subst h
  exact k

theorem MemOk.ofSnd {α : Type} {s b : State} {a : α} {e : α × State} (h : e = (a, b)) (k : MemOk s e.2) : MemOk s b := by
  subst h
  exact k

/-- Filtering a canonical map keeps it canonical. -/
theorem mwf_filter {α : Type} [DecidableEq α] (d : Nat → α) (p : Nat × α → Bool) (m : List (Nat × α)) (h : mwf d m = true) :
    mwf d (m.filter p) = true := by
  induction m with
  | nil => rfl
  | cons c t ih =>
    obtain ⟨a, x⟩ := c
    simp only [mwf, Bool.and_eq_true, List.all_eq_true, decide_eq_true_eq] at h
    obtain ⟨⟨h1, h2⟩, h3⟩ := h
    rw [List.filter_cons]
    split
    · simp only [mwf, Bool.and_eq_true, List.all_eq_true, decide_eq_true_eq]
      exact ⟨⟨h1, fun q hq => h2 q (List.mem_of_mem_filter hq)⟩, ih h3⟩
    · exact ih h3

theorem MemOk.filter {s x : State} (p : Host.Cell → Bool) (hx : MemOk s x) : MemOk s { x with mem := x.mem.filter p } := by
  unfold MemOk at *
  exact fun w => mwf_filter _ p _ (hx w)

theorem hwUpdate_memOk {s x : State} {a1 a2 a3 : Nat} {f : State → State} (hx : MemOk s x) (hf : ∀ y, MemOk y (f y)) :
    MemOk s (hwUpdate x a1 a2 a3 f) := by
  delta hwUpdate
  split
  · exact MemOk.ofSame (by rfl) (orBits_same _ _ _) hx
  · exact hx.trans (hf _)

theorem hopUpdate_memOk {s x : State} {a1 a2 : Nat} {f : State → State} (hx : MemOk s x) (hf : ∀ y, MemOk y (f y)) :
    MemOk s (hopUpdate x a1 a2 f) := hwUpdate_memOk hx hf

theorem setMb_memOk (s : State) (a : Nat) (b : Byte) : MemOk s (setMb s a b) := by
  unfold MemOk setMb
  exact fun w => mwf_mput _ _ _ _ w

theorem setMbs_memOk (s : State) (a : Nat) (l : List Byte) : MemOk s (setMbs s a l) := by
  induction l generalizing s a with
  | nil => exact MemOk.refl _
  | cons b t ih => exact (setMb_memOk _ _ _).trans (ih _ _)

theorem MemOk.put_free {s x : State} {v1 : Nat} (h : MemOk s x) :
    MemOk s ⟨x.pending, v1, x.cyc, x.order, x.regs, x.shadow, x.staging, x.posted, x.landed, x.cycle, x.mem, x.time, x.seal_, x.fcol, x.snap, x.scs, x.fods, x.refs, x.dps, x.scr, x.lanes, x.ports, x.ingress, x.gone, x.early, x.owed, x.rings, x.corrPause, x.tdcFail, x.groups, x.wits, x.coreAwake, x.standby, x.mateReady, x.mate, x.nvs, x.cal, x.cmd, x.dmas, x.dmaLast, x.seqs, x.pwr, x.smb, x.pcieUp, x.msix, x.pba, x.nvsLoaded, x.out⟩ := MemOk.ofMem (x := x) rfl h

theorem MemOk.put_posted {s x : State} {v7 : List (Nat × Posted)} (h : MemOk s x) :
    MemOk s ⟨x.pending, x.free, x.cyc, x.order, x.regs, x.shadow, x.staging, v7, x.landed, x.cycle, x.mem, x.time, x.seal_, x.fcol, x.snap, x.scs, x.fods, x.refs, x.dps, x.scr, x.lanes, x.ports, x.ingress, x.gone, x.early, x.owed, x.rings, x.corrPause, x.tdcFail, x.groups, x.wits, x.coreAwake, x.standby, x.mateReady, x.mate, x.nvs, x.cal, x.cmd, x.dmas, x.dmaLast, x.seqs, x.pwr, x.smb, x.pcieUp, x.msix, x.pba, x.nvsLoaded, x.out⟩ := MemOk.ofMem (x := x) rfl h

theorem MemOk.put_landed {s x : State} {v8 : List Landed} (h : MemOk s x) :
    MemOk s ⟨x.pending, x.free, x.cyc, x.order, x.regs, x.shadow, x.staging, x.posted, v8, x.cycle, x.mem, x.time, x.seal_, x.fcol, x.snap, x.scs, x.fods, x.refs, x.dps, x.scr, x.lanes, x.ports, x.ingress, x.gone, x.early, x.owed, x.rings, x.corrPause, x.tdcFail, x.groups, x.wits, x.coreAwake, x.standby, x.mateReady, x.mate, x.nvs, x.cal, x.cmd, x.dmas, x.dmaLast, x.seqs, x.pwr, x.smb, x.pcieUp, x.msix, x.pba, x.nvsLoaded, x.out⟩ := MemOk.ofMem (x := x) rfl h

theorem MemOk.put_cycle {s x : State} {v9 : CycLog} (h : MemOk s x) :
    MemOk s ⟨x.pending, x.free, x.cyc, x.order, x.regs, x.shadow, x.staging, x.posted, x.landed, v9, x.mem, x.time, x.seal_, x.fcol, x.snap, x.scs, x.fods, x.refs, x.dps, x.scr, x.lanes, x.ports, x.ingress, x.gone, x.early, x.owed, x.rings, x.corrPause, x.tdcFail, x.groups, x.wits, x.coreAwake, x.standby, x.mateReady, x.mate, x.nvs, x.cal, x.cmd, x.dmas, x.dmaLast, x.seqs, x.pwr, x.smb, x.pcieUp, x.msix, x.pba, x.nvsLoaded, x.out⟩ := MemOk.ofMem (x := x) rfl h

theorem MemOk.put_time {s x : State} {v11 : TimeSt} (h : MemOk s x) :
    MemOk s ⟨x.pending, x.free, x.cyc, x.order, x.regs, x.shadow, x.staging, x.posted, x.landed, x.cycle, x.mem, v11, x.seal_, x.fcol, x.snap, x.scs, x.fods, x.refs, x.dps, x.scr, x.lanes, x.ports, x.ingress, x.gone, x.early, x.owed, x.rings, x.corrPause, x.tdcFail, x.groups, x.wits, x.coreAwake, x.standby, x.mateReady, x.mate, x.nvs, x.cal, x.cmd, x.dmas, x.dmaLast, x.seqs, x.pwr, x.smb, x.pcieUp, x.msix, x.pba, x.nvsLoaded, x.out⟩ := MemOk.ofMem (x := x) rfl h

theorem MemOk.put_seal {s x : State} {v12 : SealSt} (h : MemOk s x) :
    MemOk s ⟨x.pending, x.free, x.cyc, x.order, x.regs, x.shadow, x.staging, x.posted, x.landed, x.cycle, x.mem, x.time, v12, x.fcol, x.snap, x.scs, x.fods, x.refs, x.dps, x.scr, x.lanes, x.ports, x.ingress, x.gone, x.early, x.owed, x.rings, x.corrPause, x.tdcFail, x.groups, x.wits, x.coreAwake, x.standby, x.mateReady, x.mate, x.nvs, x.cal, x.cmd, x.dmas, x.dmaLast, x.seqs, x.pwr, x.smb, x.pcieUp, x.msix, x.pba, x.nvsLoaded, x.out⟩ := MemOk.ofMem (x := x) rfl h

theorem MemOk.put_fcol {s x : State} {v13 : FcolSt} (h : MemOk s x) :
    MemOk s ⟨x.pending, x.free, x.cyc, x.order, x.regs, x.shadow, x.staging, x.posted, x.landed, x.cycle, x.mem, x.time, x.seal_, v13, x.snap, x.scs, x.fods, x.refs, x.dps, x.scr, x.lanes, x.ports, x.ingress, x.gone, x.early, x.owed, x.rings, x.corrPause, x.tdcFail, x.groups, x.wits, x.coreAwake, x.standby, x.mateReady, x.mate, x.nvs, x.cal, x.cmd, x.dmas, x.dmaLast, x.seqs, x.pwr, x.smb, x.pcieUp, x.msix, x.pba, x.nvsLoaded, x.out⟩ := MemOk.ofMem (x := x) rfl h

theorem MemOk.put_snap {s x : State} {v14 : SnapSt} (h : MemOk s x) :
    MemOk s ⟨x.pending, x.free, x.cyc, x.order, x.regs, x.shadow, x.staging, x.posted, x.landed, x.cycle, x.mem, x.time, x.seal_, x.fcol, v14, x.scs, x.fods, x.refs, x.dps, x.scr, x.lanes, x.ports, x.ingress, x.gone, x.early, x.owed, x.rings, x.corrPause, x.tdcFail, x.groups, x.wits, x.coreAwake, x.standby, x.mateReady, x.mate, x.nvs, x.cal, x.cmd, x.dmas, x.dmaLast, x.seqs, x.pwr, x.smb, x.pcieUp, x.msix, x.pba, x.nvsLoaded, x.out⟩ := MemOk.ofMem (x := x) rfl h

theorem MemOk.put_scr {s x : State} {v19 : Scr} (h : MemOk s x) :
    MemOk s ⟨x.pending, x.free, x.cyc, x.order, x.regs, x.shadow, x.staging, x.posted, x.landed, x.cycle, x.mem, x.time, x.seal_, x.fcol, x.snap, x.scs, x.fods, x.refs, x.dps, v19, x.lanes, x.ports, x.ingress, x.gone, x.early, x.owed, x.rings, x.corrPause, x.tdcFail, x.groups, x.wits, x.coreAwake, x.standby, x.mateReady, x.mate, x.nvs, x.cal, x.cmd, x.dmas, x.dmaLast, x.seqs, x.pwr, x.smb, x.pcieUp, x.msix, x.pba, x.nvsLoaded, x.out⟩ := MemOk.ofMem (x := x) rfl h

theorem MemOk.put_free_scr {s x : State} {v1 : Nat} {v19 : Scr} (h : MemOk s x) :
    MemOk s ⟨x.pending, v1, x.cyc, x.order, x.regs, x.shadow, x.staging, x.posted, x.landed, x.cycle, x.mem, x.time, x.seal_, x.fcol, x.snap, x.scs, x.fods, x.refs, x.dps, v19, x.lanes, x.ports, x.ingress, x.gone, x.early, x.owed, x.rings, x.corrPause, x.tdcFail, x.groups, x.wits, x.coreAwake, x.standby, x.mateReady, x.mate, x.nvs, x.cal, x.cmd, x.dmas, x.dmaLast, x.seqs, x.pwr, x.smb, x.pcieUp, x.msix, x.pba, x.nvsLoaded, x.out⟩ := MemOk.ofMem (x := x) rfl h

theorem MemOk.put_ingress {s x : State} {v22 : List Ing} (h : MemOk s x) :
    MemOk s ⟨x.pending, x.free, x.cyc, x.order, x.regs, x.shadow, x.staging, x.posted, x.landed, x.cycle, x.mem, x.time, x.seal_, x.fcol, x.snap, x.scs, x.fods, x.refs, x.dps, x.scr, x.lanes, x.ports, v22, x.gone, x.early, x.owed, x.rings, x.corrPause, x.tdcFail, x.groups, x.wits, x.coreAwake, x.standby, x.mateReady, x.mate, x.nvs, x.cal, x.cmd, x.dmas, x.dmaLast, x.seqs, x.pwr, x.smb, x.pcieUp, x.msix, x.pba, x.nvsLoaded, x.out⟩ := MemOk.ofMem (x := x) rfl h

theorem MemOk.put_gone {s x : State} {v23 : List (Nat × Bool × Nat × Int)} (h : MemOk s x) :
    MemOk s ⟨x.pending, x.free, x.cyc, x.order, x.regs, x.shadow, x.staging, x.posted, x.landed, x.cycle, x.mem, x.time, x.seal_, x.fcol, x.snap, x.scs, x.fods, x.refs, x.dps, x.scr, x.lanes, x.ports, x.ingress, v23, x.early, x.owed, x.rings, x.corrPause, x.tdcFail, x.groups, x.wits, x.coreAwake, x.standby, x.mateReady, x.mate, x.nvs, x.cal, x.cmd, x.dmas, x.dmaLast, x.seqs, x.pwr, x.smb, x.pcieUp, x.msix, x.pba, x.nvsLoaded, x.out⟩ := MemOk.ofMem (x := x) rfl h

theorem MemOk.put_early {s x : State} {v24 : List (Nat × Bool × Nat × Nat)} (h : MemOk s x) :
    MemOk s ⟨x.pending, x.free, x.cyc, x.order, x.regs, x.shadow, x.staging, x.posted, x.landed, x.cycle, x.mem, x.time, x.seal_, x.fcol, x.snap, x.scs, x.fods, x.refs, x.dps, x.scr, x.lanes, x.ports, x.ingress, x.gone, v24, x.owed, x.rings, x.corrPause, x.tdcFail, x.groups, x.wits, x.coreAwake, x.standby, x.mateReady, x.mate, x.nvs, x.cal, x.cmd, x.dmas, x.dmaLast, x.seqs, x.pwr, x.smb, x.pcieUp, x.msix, x.pba, x.nvsLoaded, x.out⟩ := MemOk.ofMem (x := x) rfl h

theorem MemOk.put_owed {s x : State} {v25 : List Owed} (h : MemOk s x) :
    MemOk s ⟨x.pending, x.free, x.cyc, x.order, x.regs, x.shadow, x.staging, x.posted, x.landed, x.cycle, x.mem, x.time, x.seal_, x.fcol, x.snap, x.scs, x.fods, x.refs, x.dps, x.scr, x.lanes, x.ports, x.ingress, x.gone, x.early, v25, x.rings, x.corrPause, x.tdcFail, x.groups, x.wits, x.coreAwake, x.standby, x.mateReady, x.mate, x.nvs, x.cal, x.cmd, x.dmas, x.dmaLast, x.seqs, x.pwr, x.smb, x.pcieUp, x.msix, x.pba, x.nvsLoaded, x.out⟩ := MemOk.ofMem (x := x) rfl h

theorem MemOk.put_ingress_owed {s x : State} {v22 : List Ing} {v25 : List Owed} (h : MemOk s x) :
    MemOk s ⟨x.pending, x.free, x.cyc, x.order, x.regs, x.shadow, x.staging, x.posted, x.landed, x.cycle, x.mem, x.time, x.seal_, x.fcol, x.snap, x.scs, x.fods, x.refs, x.dps, x.scr, x.lanes, x.ports, v22, x.gone, x.early, v25, x.rings, x.corrPause, x.tdcFail, x.groups, x.wits, x.coreAwake, x.standby, x.mateReady, x.mate, x.nvs, x.cal, x.cmd, x.dmas, x.dmaLast, x.seqs, x.pwr, x.smb, x.pcieUp, x.msix, x.pba, x.nvsLoaded, x.out⟩ := MemOk.ofMem (x := x) rfl h

theorem MemOk.put_shadow_staging_corrPause {s x : State} {v5 : List (Nat × Word)} {v6 : List (Nat × Word)} {v27 : Bool} (h : MemOk s x) :
    MemOk s ⟨x.pending, x.free, x.cyc, x.order, x.regs, v5, v6, x.posted, x.landed, x.cycle, x.mem, x.time, x.seal_, x.fcol, x.snap, x.scs, x.fods, x.refs, x.dps, x.scr, x.lanes, x.ports, x.ingress, x.gone, x.early, x.owed, x.rings, v27, x.tdcFail, x.groups, x.wits, x.coreAwake, x.standby, x.mateReady, x.mate, x.nvs, x.cal, x.cmd, x.dmas, x.dmaLast, x.seqs, x.pwr, x.smb, x.pcieUp, x.msix, x.pba, x.nvsLoaded, x.out⟩ := MemOk.ofMem (x := x) rfl h

theorem MemOk.put_coreAwake {s x : State} {v31 : Bool} (h : MemOk s x) :
    MemOk s ⟨x.pending, x.free, x.cyc, x.order, x.regs, x.shadow, x.staging, x.posted, x.landed, x.cycle, x.mem, x.time, x.seal_, x.fcol, x.snap, x.scs, x.fods, x.refs, x.dps, x.scr, x.lanes, x.ports, x.ingress, x.gone, x.early, x.owed, x.rings, x.corrPause, x.tdcFail, x.groups, x.wits, v31, x.standby, x.mateReady, x.mate, x.nvs, x.cal, x.cmd, x.dmas, x.dmaLast, x.seqs, x.pwr, x.smb, x.pcieUp, x.msix, x.pba, x.nvsLoaded, x.out⟩ := MemOk.ofMem (x := x) rfl h

theorem MemOk.put_mateReady {s x : State} {v33 : Bool} (h : MemOk s x) :
    MemOk s ⟨x.pending, x.free, x.cyc, x.order, x.regs, x.shadow, x.staging, x.posted, x.landed, x.cycle, x.mem, x.time, x.seal_, x.fcol, x.snap, x.scs, x.fods, x.refs, x.dps, x.scr, x.lanes, x.ports, x.ingress, x.gone, x.early, x.owed, x.rings, x.corrPause, x.tdcFail, x.groups, x.wits, x.coreAwake, x.standby, v33, x.mate, x.nvs, x.cal, x.cmd, x.dmas, x.dmaLast, x.seqs, x.pwr, x.smb, x.pcieUp, x.msix, x.pba, x.nvsLoaded, x.out⟩ := MemOk.ofMem (x := x) rfl h

theorem MemOk.put_mate {s x : State} {v34 : MateSt} (h : MemOk s x) :
    MemOk s ⟨x.pending, x.free, x.cyc, x.order, x.regs, x.shadow, x.staging, x.posted, x.landed, x.cycle, x.mem, x.time, x.seal_, x.fcol, x.snap, x.scs, x.fods, x.refs, x.dps, x.scr, x.lanes, x.ports, x.ingress, x.gone, x.early, x.owed, x.rings, x.corrPause, x.tdcFail, x.groups, x.wits, x.coreAwake, x.standby, x.mateReady, v34, x.nvs, x.cal, x.cmd, x.dmas, x.dmaLast, x.seqs, x.pwr, x.smb, x.pcieUp, x.msix, x.pba, x.nvsLoaded, x.out⟩ := MemOk.ofMem (x := x) rfl h

theorem MemOk.put_cal {s x : State} {v36 : CalSt} (h : MemOk s x) :
    MemOk s ⟨x.pending, x.free, x.cyc, x.order, x.regs, x.shadow, x.staging, x.posted, x.landed, x.cycle, x.mem, x.time, x.seal_, x.fcol, x.snap, x.scs, x.fods, x.refs, x.dps, x.scr, x.lanes, x.ports, x.ingress, x.gone, x.early, x.owed, x.rings, x.corrPause, x.tdcFail, x.groups, x.wits, x.coreAwake, x.standby, x.mateReady, x.mate, x.nvs, v36, x.cmd, x.dmas, x.dmaLast, x.seqs, x.pwr, x.smb, x.pcieUp, x.msix, x.pba, x.nvsLoaded, x.out⟩ := MemOk.ofMem (x := x) rfl h

theorem MemOk.put_groups_cal {s x : State} {v29 : Nat} {v36 : CalSt} (h : MemOk s x) :
    MemOk s ⟨x.pending, x.free, x.cyc, x.order, x.regs, x.shadow, x.staging, x.posted, x.landed, x.cycle, x.mem, x.time, x.seal_, x.fcol, x.snap, x.scs, x.fods, x.refs, x.dps, x.scr, x.lanes, x.ports, x.ingress, x.gone, x.early, x.owed, x.rings, x.corrPause, x.tdcFail, v29, x.wits, x.coreAwake, x.standby, x.mateReady, x.mate, x.nvs, v36, x.cmd, x.dmas, x.dmaLast, x.seqs, x.pwr, x.smb, x.pcieUp, x.msix, x.pba, x.nvsLoaded, x.out⟩ := MemOk.ofMem (x := x) rfl h

theorem MemOk.put_cmd {s x : State} {v37 : CmdSt} (h : MemOk s x) :
    MemOk s ⟨x.pending, x.free, x.cyc, x.order, x.regs, x.shadow, x.staging, x.posted, x.landed, x.cycle, x.mem, x.time, x.seal_, x.fcol, x.snap, x.scs, x.fods, x.refs, x.dps, x.scr, x.lanes, x.ports, x.ingress, x.gone, x.early, x.owed, x.rings, x.corrPause, x.tdcFail, x.groups, x.wits, x.coreAwake, x.standby, x.mateReady, x.mate, x.nvs, x.cal, v37, x.dmas, x.dmaLast, x.seqs, x.pwr, x.smb, x.pcieUp, x.msix, x.pba, x.nvsLoaded, x.out⟩ := MemOk.ofMem (x := x) rfl h

theorem MemOk.put_pwr {s x : State} {v41 : PwrSt} (h : MemOk s x) :
    MemOk s ⟨x.pending, x.free, x.cyc, x.order, x.regs, x.shadow, x.staging, x.posted, x.landed, x.cycle, x.mem, x.time, x.seal_, x.fcol, x.snap, x.scs, x.fods, x.refs, x.dps, x.scr, x.lanes, x.ports, x.ingress, x.gone, x.early, x.owed, x.rings, x.corrPause, x.tdcFail, x.groups, x.wits, x.coreAwake, x.standby, x.mateReady, x.mate, x.nvs, x.cal, x.cmd, x.dmas, x.dmaLast, x.seqs, v41, x.smb, x.pcieUp, x.msix, x.pba, x.nvsLoaded, x.out⟩ := MemOk.ofMem (x := x) rfl h

theorem MemOk.put_free_time_pwr {s x : State} {v1 : Nat} {v11 : TimeSt} {v41 : PwrSt} (h : MemOk s x) :
    MemOk s ⟨x.pending, v1, x.cyc, x.order, x.regs, x.shadow, x.staging, x.posted, x.landed, x.cycle, x.mem, v11, x.seal_, x.fcol, x.snap, x.scs, x.fods, x.refs, x.dps, x.scr, x.lanes, x.ports, x.ingress, x.gone, x.early, x.owed, x.rings, x.corrPause, x.tdcFail, x.groups, x.wits, x.coreAwake, x.standby, x.mateReady, x.mate, x.nvs, x.cal, x.cmd, x.dmas, x.dmaLast, x.seqs, v41, x.smb, x.pcieUp, x.msix, x.pba, x.nvsLoaded, x.out⟩ := MemOk.ofMem (x := x) rfl h

theorem MemOk.put_coreAwake_pwr {s x : State} {v31 : Bool} {v41 : PwrSt} (h : MemOk s x) :
    MemOk s ⟨x.pending, x.free, x.cyc, x.order, x.regs, x.shadow, x.staging, x.posted, x.landed, x.cycle, x.mem, x.time, x.seal_, x.fcol, x.snap, x.scs, x.fods, x.refs, x.dps, x.scr, x.lanes, x.ports, x.ingress, x.gone, x.early, x.owed, x.rings, x.corrPause, x.tdcFail, x.groups, x.wits, v31, x.standby, x.mateReady, x.mate, x.nvs, x.cal, x.cmd, x.dmas, x.dmaLast, x.seqs, v41, x.smb, x.pcieUp, x.msix, x.pba, x.nvsLoaded, x.out⟩ := MemOk.ofMem (x := x) rfl h

theorem MemOk.put_mate_nvs_cal_pwr {s x : State} {v34 : MateSt} {v35 : NvsSt} {v36 : CalSt} {v41 : PwrSt} (h : MemOk s x) :
    MemOk s ⟨x.pending, x.free, x.cyc, x.order, x.regs, x.shadow, x.staging, x.posted, x.landed, x.cycle, x.mem, x.time, x.seal_, x.fcol, x.snap, x.scs, x.fods, x.refs, x.dps, x.scr, x.lanes, x.ports, x.ingress, x.gone, x.early, x.owed, x.rings, x.corrPause, x.tdcFail, x.groups, x.wits, x.coreAwake, x.standby, x.mateReady, v34, v35, v36, x.cmd, x.dmas, x.dmaLast, x.seqs, v41, x.smb, x.pcieUp, x.msix, x.pba, x.nvsLoaded, x.out⟩ := MemOk.ofMem (x := x) rfl h

theorem MemOk.put_cmd_pwr {s x : State} {v37 : CmdSt} {v41 : PwrSt} (h : MemOk s x) :
    MemOk s ⟨x.pending, x.free, x.cyc, x.order, x.regs, x.shadow, x.staging, x.posted, x.landed, x.cycle, x.mem, x.time, x.seal_, x.fcol, x.snap, x.scs, x.fods, x.refs, x.dps, x.scr, x.lanes, x.ports, x.ingress, x.gone, x.early, x.owed, x.rings, x.corrPause, x.tdcFail, x.groups, x.wits, x.coreAwake, x.standby, x.mateReady, x.mate, x.nvs, x.cal, v37, x.dmas, x.dmaLast, x.seqs, v41, x.smb, x.pcieUp, x.msix, x.pba, x.nvsLoaded, x.out⟩ := MemOk.ofMem (x := x) rfl h

theorem MemOk.put_pwr_nvsLoaded {s x : State} {v41 : PwrSt} {v46 : Bool} (h : MemOk s x) :
    MemOk s ⟨x.pending, x.free, x.cyc, x.order, x.regs, x.shadow, x.staging, x.posted, x.landed, x.cycle, x.mem, x.time, x.seal_, x.fcol, x.snap, x.scs, x.fods, x.refs, x.dps, x.scr, x.lanes, x.ports, x.ingress, x.gone, x.early, x.owed, x.rings, x.corrPause, x.tdcFail, x.groups, x.wits, x.coreAwake, x.standby, x.mateReady, x.mate, x.nvs, x.cal, x.cmd, x.dmas, x.dmaLast, x.seqs, v41, x.smb, x.pcieUp, x.msix, x.pba, v46, x.out⟩ := MemOk.ofMem (x := x) rfl h


end Sys2Proof.Machine
end

