-- ==== Sys2Proof/Laws/MemOps.lean ====
section
/-!
SUPPORT. Memory keeps its canonical form, operation by operation; the operations that FrameSeq shows to leave memory are not
listed again.
-/
set_option linter.all false
set_option linter.unusedTactic false
set_option linter.unreachableTactic false
namespace Sys2Proof.Machine

open Sys2Proof

theorem ringVoid_memOk (s : State) (a1 : ℕ) (a2 : ℕ) :
    MemOk s (ringVoid s a1 a2) := by
  delta ringVoid
  repeat' (first
    | with_reducible exact MemOk.refl _
    | with_reducible assumption
    | ((with_reducible apply MemOk.ofSame ?_ (setRing_same _ _ _) ?_); on_goal 1 => rfl)
    | with_reducible apply MemOk.step (setMb_memOk _ _ _) ?_
    | (extract_lets +onlyGivenNames x; (with_reducible apply MemOk.cut x ?_ ?_); (on_goal 1 => (unfold x; clear x)); (on_goal 2 => (intro hx; clear_value x)))
    | (extract_lets +onlyGivenNames x; clear_value x)
    | (extract_lets +onlyGivenNames x; unfold x; clear x)
    | split)

theorem voidPair_memOk (s : State) (a1 : ℕ) (a2 : Bool) :
    MemOk s (voidPair s a1 a2) := by
  delta voidPair
  repeat' (first
    | with_reducible exact MemOk.refl _
    | with_reducible assumption
    | with_reducible apply MemOk.step (ringVoid_memOk _ _ _) ?_
    | with_reducible apply MemOk.upto ?_ ?_
    | (extract_lets +onlyGivenNames x; (with_reducible apply MemOk.cut x ?_ ?_); (on_goal 1 => (unfold x; clear x)); (on_goal 2 => (intro hx; clear_value x)))
    | (extract_lets +onlyGivenNames x; clear_value x)
    | (extract_lets +onlyGivenNames x; unfold x; clear x)
    | intro _
    | split)

theorem ringPresent_memOk (s : State) (a1 : ℕ) (a2 : ℕ) (a3 : ℕ → ℕ → ℕ → List Byte) :
    MemOk s (ringPresent s a1 a2 a3).1 := by
  delta ringPresent
  repeat' (first
    | with_reducible exact MemOk.refl _
    | with_reducible assumption
    | with_reducible apply MemOk.step (setMbs_memOk _ _ _) ?_
    | ((with_reducible apply MemOk.ofSame ?_ (orBits_same _ _ _) ?_); on_goal 1 => rfl)
    | ((with_reducible apply MemOk.ofSame ?_ (setRing_same _ _ _) ?_); on_goal 1 => rfl)
    | ((with_reducible apply MemOk.ofSame ?_ (ringOver_same _ _) ?_); on_goal 1 => rfl)
    | (extract_lets +onlyGivenNames x; (with_reducible apply MemOk.cut x ?_ ?_); (on_goal 1 => (unfold x; clear x)); (on_goal 2 => (intro hx; clear_value x)))
    | (extract_lets +onlyGivenNames x; clear_value x)
    | (extract_lets +onlyGivenNames x; unfold x; clear x)
    | split)

theorem presentDelivery_memOk (s : State) (a1 : Owed) :
    MemOk s (presentDelivery s a1) := by
  delta presentDelivery
  repeat' (first
    | with_reducible exact MemOk.refl _
    | with_reducible assumption
    | with_reducible apply MemOk.step (ringPresent_memOk _ _ _ _) ?_
    | (extract_lets +onlyGivenNames x; (with_reducible apply MemOk.cut x ?_ ?_); (on_goal 1 => (unfold x; clear x)); (on_goal 2 => (intro hx; clear_value x)))
    | (extract_lets +onlyGivenNames x; (with_reducible apply MemOk.cut x.1 ?_ ?_); (on_goal 1 => (unfold x; clear x)); (on_goal 2 => (intro hx; clear_value x)))
    | (extract_lets +onlyGivenNames x; clear_value x)
    | (extract_lets +onlyGivenNames x; unfold x; clear x)
    | with_reducible refine MemOk.ofFst (by assumption) ?_
    | split)

theorem owedRun_memOk (s : State) :
    MemOk s (owedRun s) := by
  delta owedRun
  repeat' (first
    | with_reducible exact MemOk.refl _
    | with_reducible assumption
    | with_reducible apply MemOk.step (presentDelivery_memOk _ _) ?_
    | with_reducible apply MemOk.foldl ?_ ?_
    | (extract_lets +onlyGivenNames x; (with_reducible apply MemOk.cut x ?_ ?_); (on_goal 1 => (unfold x; clear x)); (on_goal 2 => (intro hx; clear_value x)))
    | (extract_lets +onlyGivenNames x; clear_value x)
    | (extract_lets +onlyGivenNames x; unfold x; clear x)
    | intro _
    | split
    | with_reducible apply MemOk.put_owed ?_)

theorem retire_memOk (s : State) (a1 : Ing) (a2 : ℕ) :
    MemOk s (retire s a1 a2) := by
  delta retire
  repeat' (first
    | with_reducible exact MemOk.refl _
    | with_reducible assumption
    | with_reducible apply MemOk.step (owedRun_memOk _) ?_
    | (extract_lets +onlyGivenNames x; (with_reducible apply MemOk.cut x ?_ ?_); (on_goal 1 => (unfold x; clear x)); (on_goal 2 => (intro hx; clear_value x)))
    | (extract_lets +onlyGivenNames x; clear_value x)
    | (extract_lets +onlyGivenNames x; unfold x; clear x)
    | split
    | with_reducible apply MemOk.put_ingress_owed ?_)

theorem pairIng_memOk (s : State) (a1 : Ing) (a2 : EventMsg) (a3 : ℕ) :
    MemOk s (pairIng s a1 a2 a3) := by
  delta pairIng
  repeat' (first
    | with_reducible exact MemOk.refl _
    | with_reducible assumption
    | ((with_reducible apply MemOk.ofSame ?_ (setIng_same _ _) ?_); on_goal 1 => rfl)
    | with_reducible apply MemOk.step (retire_memOk _ _ _) ?_
    | (extract_lets +onlyGivenNames x; (with_reducible apply MemOk.cut x ?_ ?_); (on_goal 1 => (unfold x; clear x)); (on_goal 2 => (intro hx; clear_value x)))
    | (extract_lets +onlyGivenNames x; clear_value x)
    | (extract_lets +onlyGivenNames x; unfold x; clear x)
    | split)

theorem pairWaiting_memOk (s : State) (a1 : Ing) :
    MemOk s (pairWaiting s a1) := by
  delta pairWaiting
  repeat' (first
    | with_reducible exact MemOk.refl _
    | with_reducible assumption
    | ((with_reducible apply MemOk.ofSame ?_ (setCorr_same _ _ _ _) ?_); on_goal 1 => rfl)
    | with_reducible apply MemOk.step (pairIng_memOk _ _ _ _) ?_
    | with_reducible apply MemOk.foldl ?_ ?_
    | (extract_lets +onlyGivenNames x; (with_reducible apply MemOk.cut x ?_ ?_); (on_goal 1 => (unfold x; clear x)); (on_goal 2 => (intro hx; clear_value x)))
    | (extract_lets +onlyGivenNames x; clear_value x)
    | (extract_lets +onlyGivenNames x; unfold x; clear x)
    | intro _
    | split)

theorem holdIng_memOk (s : State) (a1 : Ing) :
    MemOk s (holdIng s a1) := by
  delta holdIng
  repeat' (first
    | with_reducible exact MemOk.refl _
    | with_reducible assumption
    | ((with_reducible apply MemOk.ofSame ?_ (orBits_same _ _ _) ?_); on_goal 1 => rfl)
    | ((with_reducible apply MemOk.ofSame ?_ (setCorr_same _ _ _ _) ?_); on_goal 1 => rfl)
    | ((with_reducible apply MemOk.ofSame ?_ (keepGone_same _ _ _ _ _) ?_); on_goal 1 => rfl)
    | with_reducible apply MemOk.step (pairWaiting_memOk _ _) ?_
    | with_reducible apply MemOk.foldl ?_ ?_
    | (extract_lets +onlyGivenNames x; (with_reducible apply MemOk.cut x ?_ ?_); (on_goal 1 => (unfold x; clear x)); (on_goal 2 => (intro hx; clear_value x)))
    | (extract_lets +onlyGivenNames x; clear_value x)
    | (extract_lets +onlyGivenNames x; unfold x; clear x)
    | intro _
    | split
    | with_reducible apply MemOk.put_gone ?_
    | with_reducible apply MemOk.put_early ?_
    | with_reducible apply MemOk.put_ingress ?_)

theorem finishSlot_memOk (s : State) (a1 : ℕ) (a2 : ESlot) :
    MemOk s (finishSlot s a1 a2) := by
  delta finishSlot
  repeat' (first
    | with_reducible exact MemOk.refl _
    | with_reducible assumption
    | with_reducible apply MemOk.step (holdIng_memOk _ _) ?_
    | ((with_reducible apply MemOk.ofSame ?_ (bump_same _ _ _) ?_); on_goal 1 => rfl)
    | ((with_reducible apply MemOk.ofSame ?_ (calEvent_same _ _ _ _) ?_); on_goal 1 => rfl)
    | ((with_reducible apply MemOk.ofSame ?_ (setLane_same _ _ _) ?_); on_goal 1 => rfl)
    | ((with_reducible apply MemOk.ofSame ?_ (raise_same _ _ _ _ _ _) ?_); on_goal 1 => rfl)
    | with_reducible apply MemOk.step (retire_memOk _ _ _) ?_
    | with_reducible apply MemOk.step (pairIng_memOk _ _ _ _) ?_
    | (extract_lets +onlyGivenNames x; (with_reducible apply MemOk.cut x ?_ ?_); (on_goal 1 => (unfold x; clear x)); (on_goal 2 => (intro hx; clear_value x)))
    | (extract_lets +onlyGivenNames x; (with_reducible apply MemOk.cutF x ?_ ?_); (on_goal 1 => (unfold x; clear x; intro _ _)); (on_goal 2 => (intro hx; clear_value x)))
    | (extract_lets +onlyGivenNames x; (with_reducible apply MemOk.cutF1 x ?_ ?_); (on_goal 1 => (unfold x; clear x; intro _)); (on_goal 2 => (intro hx; clear_value x)))
    | (extract_lets +onlyGivenNames x; (with_reducible apply MemOk.cutG x ?_ ?_); (on_goal 1 => (unfold x; clear x; intro _)); (on_goal 2 => (intro hx; clear_value x)))
    | (extract_lets +onlyGivenNames x; clear_value x)
    | (extract_lets +onlyGivenNames x; unfold x; clear x)
    | intro _
    | split
    | ((with_reducible apply MemOk.viaF ?_ ?_); on_goal 1 => with_reducible assumption)
    | ((with_reducible apply MemOk.viaF1 ?_ ?_); on_goal 1 => with_reducible assumption)
    | ((with_reducible apply MemOk.viaG ?_); on_goal 1 => with_reducible assumption))

theorem closePend_memOk (s : State) (a1 : ℕ) :
    MemOk s (closePend s a1) := by
  delta closePend
  repeat' (first
    | with_reducible exact MemOk.refl _
    | with_reducible assumption
    | ((with_reducible apply MemOk.ofSame ?_ (setLane_same _ _ _) ?_); on_goal 1 => rfl)
    | ((with_reducible apply MemOk.ofSame ?_ (badBlk_same _ _) ?_); on_goal 1 => rfl)
    | with_reducible apply MemOk.step (finishSlot_memOk _ _ _) ?_
    | (extract_lets +onlyGivenNames x; (with_reducible apply MemOk.cut x ?_ ?_); (on_goal 1 => (unfold x; clear x)); (on_goal 2 => (intro hx; clear_value x)))
    | (extract_lets +onlyGivenNames x; clear_value x)
    | (extract_lets +onlyGivenNames x; unfold x; clear x)
    | split)

theorem abortIn_memOk (s : State) (a1 : ℕ) (a2 : ℕ) (a3 : Bool) :
    MemOk s (abortIn s a1 a2 a3) := by
  delta abortIn
  repeat' (first
    | with_reducible exact MemOk.refl _
    | with_reducible assumption
    | ((with_reducible apply MemOk.ofSame ?_ (bump_same _ _ _) ?_); on_goal 1 => rfl)
    | with_reducible apply MemOk.step (voidPair_memOk _ _ _) ?_
    | ((with_reducible apply MemOk.ofSame ?_ (keepGone_same _ _ _ _ _) ?_); on_goal 1 => rfl)
    | with_reducible apply MemOk.step (closePend_memOk _ _) ?_
    | with_reducible apply MemOk.step (retire_memOk _ _ _) ?_
    | (extract_lets +onlyGivenNames x; (with_reducible apply MemOk.cut x ?_ ?_); (on_goal 1 => (unfold x; clear x)); (on_goal 2 => (intro hx; clear_value x)))
    | (extract_lets +onlyGivenNames x; clear_value x)
    | (extract_lets +onlyGivenNames x; unfold x; clear x)
    | split)

theorem ageRetire_memOk (s : State) (a1 : ℕ) (a2 : Bool) :
    MemOk s (ageRetire s a1 a2) := by
  delta ageRetire
  repeat' (first
    | with_reducible exact MemOk.refl _
    | with_reducible assumption
    | with_reducible apply MemOk.step (retire_memOk _ _ _) ?_
    | (extract_lets +onlyGivenNames x; (with_reducible apply MemOk.cut x ?_ ?_); (on_goal 1 => (unfold x; clear x)); (on_goal 2 => (intro hx; clear_value x)))
    | (extract_lets +onlyGivenNames x; clear_value x)
    | (extract_lets +onlyGivenNames x; unfold x; clear x)
    | split)

theorem mailboxTake_memOk (s : State) (a1 : List (ℕ × Byte)) :
    MemOk s (mailboxTake s a1) := by
  delta mailboxTake
  repeat' (first
    | with_reducible exact MemOk.refl _
    | with_reducible assumption
    | with_reducible apply MemOk.step (setMb_memOk _ _ _) ?_
    | with_reducible apply MemOk.foldl ?_ ?_
    | (extract_lets +onlyGivenNames x; (with_reducible apply MemOk.cut x ?_ ?_); (on_goal 1 => (unfold x; clear x)); (on_goal 2 => (intro hx; clear_value x)))
    | (extract_lets +onlyGivenNames x; clear_value x)
    | (extract_lets +onlyGivenNames x; unfold x; clear x)
    | intro _
    | split
    | with_reducible apply MemOk.filter _ ?_)

theorem claimRole_memOk (s : State) :
    MemOk s (claimRole s) := by
  delta claimRole
  repeat' (first
    | with_reducible exact MemOk.refl _
    | with_reducible assumption
    | ((with_reducible apply MemOk.ofSame ?_ (bump_same _ _ _) ?_); on_goal 1 => rfl)
    | ((with_reducible apply MemOk.ofSame ?_ (setDp_same _ _ _) ?_); on_goal 1 => rfl)
    | ((with_reducible apply MemOk.ofSame ?_ (becomeActive_same _) ?_); on_goal 1 => rfl)
    | with_reducible apply MemOk.step (mailboxTake_memOk _ _) ?_
    | (extract_lets +onlyGivenNames x; (with_reducible apply MemOk.cut x ?_ ?_); (on_goal 1 => (unfold x; clear x)); (on_goal 2 => (intro hx; clear_value x)))
    | (extract_lets +onlyGivenNames x; clear_value x)
    | (extract_lets +onlyGivenNames x; unfold x; clear x)
    | split
    | with_reducible apply MemOk.put_mate ?_)

theorem claimAtOnce_memOk (s : State) :
    MemOk s (claimAtOnce s) := by
  delta claimAtOnce
  repeat' (first
    | with_reducible exact MemOk.refl _
    | with_reducible assumption
    | with_reducible apply MemOk.step (claimRole_memOk _) ?_
    | (extract_lets +onlyGivenNames x; (with_reducible apply MemOk.cut x ?_ ?_); (on_goal 1 => (unfold x; clear x)); (on_goal 2 => (intro hx; clear_value x)))
    | (extract_lets +onlyGivenNames x; clear_value x)
    | (extract_lets +onlyGivenNames x; unfold x; clear x)
    | split)

theorem drainFaults_memOk (s : State) :
    MemOk s (drainFaults s) := by
  delta drainFaults
  repeat' (first
    | with_reducible exact MemOk.refl _
    | with_reducible assumption
    | with_reducible apply MemOk.step (ringPresent_memOk _ _ _ _) ?_
    | with_reducible apply MemOk.foldl ?_ ?_
    | (extract_lets +onlyGivenNames x; (with_reducible apply MemOk.cut x ?_ ?_); (on_goal 1 => (unfold x; clear x)); (on_goal 2 => (intro hx; clear_value x)))
    | (extract_lets +onlyGivenNames x; (with_reducible apply MemOk.cut x.1 ?_ ?_); (on_goal 1 => (unfold x; clear x)); (on_goal 2 => (intro hx; clear_value x)))
    | (extract_lets +onlyGivenNames x; clear_value x)
    | (extract_lets +onlyGivenNames x; unfold x; clear x)
    | intro _
    | with_reducible refine MemOk.ofFst (by assumption) ?_
    | split
    | with_reducible apply MemOk.put_fcol ?_)

theorem startRow_memOk (s : State) :
    MemOk s (startRow s) := by
  delta startRow
  repeat' (first
    | with_reducible exact MemOk.refl _
    | with_reducible assumption
    | with_reducible apply MemOk.step (claimAtOnce_memOk _) ?_
    | with_reducible apply MemOk.step (drainFaults_memOk _) ?_
    | ((with_reducible apply MemOk.ofSame ?_ (setPwrState_same _ _) ?_); on_goal 1 => rfl)
    | ((with_reducible apply MemOk.ofSame ?_ (mateEval_same _) ?_); on_goal 1 => rfl)
    | ((with_reducible apply MemOk.ofSame ?_ (lineEval_same _) ?_); on_goal 1 => rfl)
    | (extract_lets +onlyGivenNames x; (with_reducible apply MemOk.cut x ?_ ?_); (on_goal 1 => (unfold x; clear x)); (on_goal 2 => (intro hx; clear_value x)))
    | (extract_lets +onlyGivenNames x; clear_value x)
    | (extract_lets +onlyGivenNames x; unfold x; clear x)
    | split
    | with_reducible apply MemOk.put_coreAwake_pwr ?_)

theorem aonReadyRun_memOk (s : State) :
    MemOk s (aonReadyRun s) := by
  delta aonReadyRun
  repeat' (first
    | with_reducible exact MemOk.refl _
    | with_reducible assumption
    | with_reducible apply MemOk.step (startRow_memOk _) ?_
    | ((with_reducible apply MemOk.ofSame ?_ (setPwrState_same _ _) ?_); on_goal 1 => rfl)
    | (extract_lets +onlyGivenNames x; (with_reducible apply MemOk.cut x ?_ ?_); (on_goal 1 => (unfold x; clear x)); (on_goal 2 => (intro hx; clear_value x)))
    | (extract_lets +onlyGivenNames x; clear_value x)
    | (extract_lets +onlyGivenNames x; unfold x; clear x)
    | split
    | with_reducible apply MemOk.put_free_time_pwr ?_)

theorem coreWake_memOk (s : State) :
    MemOk s (coreWake s) := by
  delta coreWake
  repeat' (first
    | with_reducible exact MemOk.refl _
    | with_reducible assumption
    | with_reducible apply MemOk.step (drainFaults_memOk _) ?_
    | (extract_lets +onlyGivenNames x; (with_reducible apply MemOk.cut x ?_ ?_); (on_goal 1 => (unfold x; clear x)); (on_goal 2 => (intro hx; clear_value x)))
    | (extract_lets +onlyGivenNames x; clear_value x)
    | (extract_lets +onlyGivenNames x; unfold x; clear x)
    | split
    | with_reducible apply MemOk.put_coreAwake ?_)

theorem snapWake_memOk (s : State) :
    MemOk s (snapWake s) := by
  delta snapWake
  repeat' (first
    | with_reducible exact MemOk.refl _
    | with_reducible assumption
    | with_reducible apply MemOk.step (coreWake_memOk _) ?_
    | (extract_lets +onlyGivenNames x; (with_reducible apply MemOk.cut x ?_ ?_); (on_goal 1 => (unfold x; clear x)); (on_goal 2 => (intro hx; clear_value x)))
    | (extract_lets +onlyGivenNames x; clear_value x)
    | (extract_lets +onlyGivenNames x; unfold x; clear x)
    | split
    | with_reducible apply MemOk.put_pwr ?_)

theorem presentInternal_memOk (s : State) (a1 : ℕ) (a2 : ℕ) (a3 : ℕ) (a4 : ℕ) (a5 : ℕ) (a6 : ℕ) (a7 : ℕ) (a8 : ℕ) (a9 : ℕ) (a10 : List Byte) :
    MemOk s (presentInternal s a1 a2 a3 a4 a5 a6 a7 a8 a9 a10) := by
  delta presentInternal
  repeat' (first
    | with_reducible exact MemOk.refl _
    | with_reducible assumption
    | with_reducible apply MemOk.step (ringPresent_memOk _ _ _ _) ?_
    | (extract_lets +onlyGivenNames x; (with_reducible apply MemOk.cut x ?_ ?_); (on_goal 1 => (unfold x; clear x)); (on_goal 2 => (intro hx; clear_value x)))
    | (extract_lets +onlyGivenNames x; (with_reducible apply MemOk.cut x.1 ?_ ?_); (on_goal 1 => (unfold x; clear x)); (on_goal 2 => (intro hx; clear_value x)))
    | (extract_lets +onlyGivenNames x; clear_value x)
    | (extract_lets +onlyGivenNames x; unfold x; clear x)
    | with_reducible refine MemOk.ofFst (by assumption) ?_
    | split)

theorem cmdReport_memOk (s : State) (a1 : ℕ) (a2 : Slot) (a3 : ℕ) (a4 : ℕ) :
    MemOk s (cmdReport s a1 a2 a3 a4) := by
  delta cmdReport
  repeat' (first
    | with_reducible exact MemOk.refl _
    | with_reducible assumption
    | ((with_reducible apply MemOk.ofSame ?_ (sendMsix_same _ _) ?_); on_goal 1 => rfl)
    | with_reducible apply MemOk.step (presentInternal_memOk _ _ _ _ _ _ _ _ _ _ _) ?_
    | ((with_reducible apply MemOk.ofSame ?_ (event_same _ _) ?_); on_goal 1 => rfl)
    | ((with_reducible apply MemOk.ofSame ?_ (wr_same _ _ _) ?_); on_goal 1 => rfl)
    | ((with_reducible apply MemOk.ofSame ?_ (raise_same _ _ _ _ _ _) ?_); on_goal 1 => rfl)
    | (extract_lets +onlyGivenNames x; (with_reducible apply MemOk.cut x ?_ ?_); (on_goal 1 => (unfold x; clear x)); (on_goal 2 => (intro hx; clear_value x)))
    | (extract_lets +onlyGivenNames x; clear_value x)
    | (extract_lets +onlyGivenNames x; unfold x; clear x)
    | split)

theorem cmdComplete_memOk (s : State) (a1 : ℕ) (a2 : Slot) (a3 : ℕ) (a4 : ℕ) :
    MemOk s (cmdComplete s a1 a2 a3 a4) := by
  delta cmdComplete
  repeat' (first
    | with_reducible exact MemOk.refl _
    | with_reducible assumption
    | ((with_reducible apply MemOk.ofSame ?_ (ownDrain_same _ _) ?_); on_goal 1 => rfl)
    | ((with_reducible apply MemOk.ofSame ?_ (holdClear_same _) ?_); on_goal 1 => rfl)
    | ((with_reducible apply MemOk.ofSame ?_ (rideStored_same _ _) ?_); on_goal 1 => rfl)
    | ((with_reducible apply MemOk.ofSame ?_ (slotFree_same _ _) ?_); on_goal 1 => rfl)
    | with_reducible apply MemOk.step (cmdReport_memOk _ _ _ _ _) ?_
    | (extract_lets +onlyGivenNames x; (with_reducible apply MemOk.cut x ?_ ?_); (on_goal 1 => (unfold x; clear x)); (on_goal 2 => (intro hx; clear_value x)))
    | (extract_lets +onlyGivenNames x; clear_value x)
    | (extract_lets +onlyGivenNames x; unfold x; clear x)
    | split)

theorem cmdEnd_memOk (s : State) (a1 : Slot → Bool) (a2 : ℕ) :
    MemOk s (cmdEnd s a1 a2) := by
  delta cmdEnd
  repeat' (first
    | with_reducible exact MemOk.refl _
    | with_reducible assumption
    | with_reducible apply MemOk.step (cmdComplete_memOk _ _ _ _ _) ?_
    | with_reducible apply MemOk.foldl ?_ ?_
    | (extract_lets +onlyGivenNames x; (with_reducible apply MemOk.cut x ?_ ?_); (on_goal 1 => (unfold x; clear x)); (on_goal 2 => (intro hx; clear_value x)))
    | (extract_lets +onlyGivenNames x; clear_value x)
    | (extract_lets +onlyGivenNames x; unfold x; clear x)
    | intro _
    | split)

theorem becomeStandby_memOk (s : State) :
    MemOk s (becomeStandby s) := by
  delta becomeStandby
  repeat' (first
    | with_reducible exact MemOk.refl _
    | with_reducible assumption
    | ((with_reducible apply MemOk.ofSame ?_ (roleChange_same _ _) ?_); on_goal 1 => rfl)
    | with_reducible apply MemOk.step (cmdEnd_memOk _ _ _) ?_
    | (extract_lets +onlyGivenNames x; (with_reducible apply MemOk.cut x ?_ ?_); (on_goal 1 => (unfold x; clear x)); (on_goal 2 => (intro hx; clear_value x)))
    | (extract_lets +onlyGivenNames x; clear_value x)
    | (extract_lets +onlyGivenNames x; unfold x; clear x)
    | split
    | with_reducible apply MemOk.put_mateReady ?_)

theorem giveActivity_memOk (s : State) :
    MemOk s (giveActivity s) := by
  delta giveActivity
  repeat' (first
    | with_reducible exact MemOk.refl _
    | with_reducible assumption
    | ((with_reducible apply MemOk.ofSame ?_ (mateSend_same _ _ _) ?_); on_goal 1 => rfl)
    | with_reducible apply MemOk.step (becomeStandby_memOk _) ?_
    | (extract_lets +onlyGivenNames x; (with_reducible apply MemOk.cut x ?_ ?_); (on_goal 1 => (unfold x; clear x)); (on_goal 2 => (intro hx; clear_value x)))
    | (extract_lets +onlyGivenNames x; clear_value x)
    | (extract_lets +onlyGivenNames x; unfold x; clear x)
    | split)

theorem mateYield_memOk (s : State) :
    MemOk s (mateYield s) := by
  delta mateYield
  repeat' (first
    | with_reducible exact MemOk.refl _
    | with_reducible assumption
    | with_reducible apply MemOk.step (giveActivity_memOk _) ?_
    | (extract_lets +onlyGivenNames x; (with_reducible apply MemOk.cut x ?_ ?_); (on_goal 1 => (unfold x; clear x)); (on_goal 2 => (intro hx; clear_value x)))
    | (extract_lets +onlyGivenNames x; clear_value x)
    | (extract_lets +onlyGivenNames x; unfold x; clear x)
    | split)

theorem splitCheck_memOk (s : State) :
    MemOk s (splitCheck s) := by
  delta splitCheck
  repeat' (first
    | with_reducible exact MemOk.refl _
    | with_reducible assumption
    | ((with_reducible apply MemOk.ofSame ?_ (orBits_same _ _ _) ?_); on_goal 1 => rfl)
    | with_reducible apply MemOk.step (becomeStandby_memOk _) ?_
    | ((with_reducible apply MemOk.ofSame ?_ (raise_same _ _ _ _ _ _) ?_); on_goal 1 => rfl)
    | (extract_lets +onlyGivenNames x; (with_reducible apply MemOk.cut x ?_ ?_); (on_goal 1 => (unfold x; clear x)); (on_goal 2 => (intro hx; clear_value x)))
    | (extract_lets +onlyGivenNames x; clear_value x)
    | (extract_lets +onlyGivenNames x; unfold x; clear x)
    | split)

theorem mateFx_memOk (s : State) (a1 : ℕ) (a2 : ℕ) (a3 : ℕ) (a4 : ℕ) :
    MemOk s (mateFx s a1 a2 a3 a4) := by
  delta mateFx
  repeat' (first
    | with_reducible exact MemOk.refl _
    | with_reducible assumption
    | ((with_reducible apply MemOk.ofSame ?_ (mateEval_same _) ?_); on_goal 1 => rfl)
    | with_reducible apply MemOk.step (mateYield_memOk _) ?_
    | ((with_reducible apply MemOk.ofSame ?_ (nrEval_same _) ?_); on_goal 1 => rfl)
    | with_reducible apply MemOk.step (splitCheck_memOk _) ?_
    | (extract_lets +onlyGivenNames x; (with_reducible apply MemOk.cut x ?_ ?_); (on_goal 1 => (unfold x; clear x)); (on_goal 2 => (intro hx; clear_value x)))
    | (extract_lets +onlyGivenNames x; clear_value x)
    | (extract_lets +onlyGivenNames x; unfold x; clear x)
    | split)

theorem sealLockFx_memOk (s : State) (a1 : ℕ) (a2 : ℕ) :
    MemOk s (sealLockFx s a1 a2) := by
  delta sealLockFx
  repeat' (first
    | with_reducible exact MemOk.refl _
    | with_reducible assumption
    | with_reducible apply MemOk.step (cmdComplete_memOk _ _ _ _ _) ?_
    | with_reducible apply MemOk.foldl ?_ ?_
    | (extract_lets +onlyGivenNames x; (with_reducible apply MemOk.cut x ?_ ?_); (on_goal 1 => (unfold x; clear x)); (on_goal 2 => (intro hx; clear_value x)))
    | (extract_lets +onlyGivenNames x; clear_value x)
    | (extract_lets +onlyGivenNames x; unfold x; clear x)
    | intro _
    | split)

theorem ringFlush_memOk (s : State) (a1 : ℕ) :
    MemOk s (ringFlush s a1) := by
  delta ringFlush
  repeat' (first
    | with_reducible exact MemOk.refl _
    | with_reducible assumption
    | ((with_reducible apply MemOk.ofSame ?_ (setRing_same _ _ _) ?_); on_goal 1 => rfl)
    | with_reducible apply MemOk.step (ringVoid_memOk _ _ _) ?_
    | ((with_reducible apply MemOk.ofSame ?_ (ringOver_same _ _) ?_); on_goal 1 => rfl)
    | with_reducible apply MemOk.upto ?_ ?_
    | (extract_lets +onlyGivenNames x; (with_reducible apply MemOk.cut x ?_ ?_); (on_goal 1 => (unfold x; clear x)); (on_goal 2 => (intro hx; clear_value x)))
    | (extract_lets +onlyGivenNames x; clear_value x)
    | (extract_lets +onlyGivenNames x; unfold x; clear x)
    | intro _
    | split)

theorem ringCfgFx_memOk (s : State) (a1 : ℕ) (a2 : ℕ) (a3 : ℕ) (a4 : Cause) :
    MemOk s (ringCfgFx s a1 a2 a3 a4) := by
  delta ringCfgFx
  repeat' (first
    | with_reducible exact MemOk.refl _
    | with_reducible assumption
    | with_reducible apply MemOk.step (ringFlush_memOk _ _) ?_
    | ((with_reducible apply MemOk.ofSame ?_ (ringOver_same _ _) ?_); on_goal 1 => rfl)
    | ((with_reducible apply MemOk.ofSame ?_ (raiseC_same _ _ _ _ _) ?_); on_goal 1 => rfl)
    | ((with_reducible apply MemOk.ofSame ?_ (wr_same _ _ _) ?_); on_goal 1 => rfl)
    | (extract_lets +onlyGivenNames x; (with_reducible apply MemOk.cut x ?_ ?_); (on_goal 1 => (unfold x; clear x)); (on_goal 2 => (intro hx; clear_value x)))
    | (extract_lets +onlyGivenNames x; (with_reducible apply MemOk.cutF x ?_ ?_); (on_goal 1 => (unfold x; clear x; intro _ _)); (on_goal 2 => (intro hx; clear_value x)))
    | (extract_lets +onlyGivenNames x; (with_reducible apply MemOk.cutF1 x ?_ ?_); (on_goal 1 => (unfold x; clear x; intro _)); (on_goal 2 => (intro hx; clear_value x)))
    | (extract_lets +onlyGivenNames x; (with_reducible apply MemOk.cutG x ?_ ?_); (on_goal 1 => (unfold x; clear x; intro _)); (on_goal 2 => (intro hx; clear_value x)))
    | (extract_lets +onlyGivenNames x; clear_value x)
    | (extract_lets +onlyGivenNames x; unfold x; clear x)
    | intro _
    | split
    | ((with_reducible apply MemOk.viaF ?_ ?_); on_goal 1 => with_reducible assumption)
    | ((with_reducible apply MemOk.viaF1 ?_ ?_); on_goal 1 => with_reducible assumption)
    | ((with_reducible apply MemOk.viaG ?_); on_goal 1 => with_reducible assumption))

theorem cmdReset_memOk (s : State) :
    MemOk s (cmdReset s) := by
  delta cmdReset
  repeat' (first
    | with_reducible exact MemOk.refl _
    | with_reducible assumption
    | with_reducible apply MemOk.step (cmdEnd_memOk _ _ _) ?_
    | with_reducible apply MemOk.foldl ?_ ?_
    | (extract_lets +onlyGivenNames x; (with_reducible apply MemOk.cut x ?_ ?_); (on_goal 1 => (unfold x; clear x)); (on_goal 2 => (intro hx; clear_value x)))
    | (extract_lets +onlyGivenNames x; clear_value x)
    | (extract_lets +onlyGivenNames x; unfold x; clear x)
    | intro _
    | split
    | with_reducible apply MemOk.put_cmd ?_)

theorem softReset_memOk (s : State) (a1 : ℕ) (a2 : ℕ) (a3 : Bool) :
    MemOk s (softReset s a1 a2 a3) := by
  delta softReset
  repeat' (first
    | with_reducible exact MemOk.refl _
    | with_reducible assumption
    | ((with_reducible apply MemOk.ofSame ?_ (seqRestart_same _ _ _) ?_); on_goal 1 => rfl)
    | with_reducible apply MemOk.step (cmdReset_memOk _) ?_
    | ((with_reducible apply MemOk.ofSame ?_ (calAbort_same _) ?_); on_goal 1 => rfl)
    | ((with_reducible apply MemOk.ofSame ?_ (calDropRun_same _) ?_); on_goal 1 => rfl)
    | ((with_reducible apply MemOk.ofSame ?_ (syncDrop_same _) ?_); on_goal 1 => rfl)
    | ((with_reducible apply MemOk.ofSame ?_ (storeCommit_same _) ?_); on_goal 1 => rfl)
    | ((with_reducible apply MemOk.ofSame ?_ (rstRecord_same _ _ _ _ _) ?_); on_goal 1 => rfl)
    | with_reducible apply MemOk.upto ?_ ?_
    | (extract_lets +onlyGivenNames x; (with_reducible apply MemOk.cut x ?_ ?_); (on_goal 1 => (unfold x; clear x)); (on_goal 2 => (intro hx; clear_value x)))
    | (extract_lets +onlyGivenNames x; clear_value x)
    | (extract_lets +onlyGivenNames x; unfold x; clear x)
    | intro _
    | split
    | with_reducible apply MemOk.put_shadow_staging_corrPause ?_
    | with_reducible apply MemOk.put_pwr ?_)

theorem softKey_memOk (s : State) (a1 : ℕ) (a2 : ℕ) :
    MemOk s (softKey s a1 a2) := by
  delta softKey
  repeat' (first
    | with_reducible exact MemOk.refl _
    | with_reducible assumption
    | with_reducible apply MemOk.step (softReset_memOk _ _ _ _) ?_
    | (extract_lets +onlyGivenNames x; (with_reducible apply MemOk.cut x ?_ ?_); (on_goal 1 => (unfold x; clear x)); (on_goal 2 => (intro hx; clear_value x)))
    | (extract_lets +onlyGivenNames x; clear_value x)
    | (extract_lets +onlyGivenNames x; unfold x; clear x)
    | split)

theorem regFx_memOk (s : State) (a1 : RegInfo) (a2 : ℕ) (a3 : ℕ) (a4 : ℕ) (a5 : ℕ) (a6 : Cause) :
    MemOk s (regFx s a1 a2 a3 a4 a5 a6) := by
  delta regFx
  repeat' (first
    | with_reducible exact MemOk.refl _
    | with_reducible assumption
    | ((with_reducible apply MemOk.ofSame ?_ (refQnow_same _ _) ?_); on_goal 1 => rfl)
    | ((with_reducible apply MemOk.ofSame ?_ (injectFx_same _ _) ?_); on_goal 1 => rfl)
    | ((with_reducible apply MemOk.ofSame ?_ (seqFx_same _ _ _ _ _ _) ?_); on_goal 1 => rfl)
    | with_reducible apply MemOk.step (mateFx_memOk _ _ _ _ _) ?_
    | ((with_reducible apply MemOk.ofSame ?_ (groupEval_same _) ?_); on_goal 1 => rfl)
    | ((with_reducible apply MemOk.ofSame ?_ (resyncPort_same _ _) ?_); on_goal 1 => rfl)
    | with_reducible apply MemOk.step (sealLockFx_memOk _ _ _) ?_
    | with_reducible apply MemOk.step (ringCfgFx_memOk _ _ _ _ _) ?_
    | ((with_reducible apply MemOk.ofSame ?_ (scCtrlFx_same _ _ _ _ _) ?_); on_goal 1 => rfl)
    | ((with_reducible apply MemOk.ofSame ?_ (refCtrlFx_same _ _ _ _) ?_); on_goal 1 => rfl)
    | ((with_reducible apply MemOk.ofSame ?_ (outChange_same _ _ _ _) ?_); on_goal 1 => rfl)
    | ((with_reducible apply MemOk.ofSame ?_ (pwrFx_same _ _ _ _ _) ?_); on_goal 1 => rfl)
    | ((with_reducible apply MemOk.ofSame ?_ (leapFx_same _ _) ?_); on_goal 1 => rfl)
    | ((with_reducible apply MemOk.ofSame ?_ (prioFx_same _ _ _ _) ?_); on_goal 1 => rfl)
    | ((with_reducible apply MemOk.ofSame ?_ (laneOff_same _ _ _) ?_); on_goal 1 => rfl)
    | ((with_reducible apply MemOk.ofSame ?_ (sealCtrlFx_same _ _ _) ?_); on_goal 1 => rfl)
    | ((with_reducible apply MemOk.ofSame ?_ (snapCmdFx_same _ _ _) ?_); on_goal 1 => rfl)
    | ((with_reducible apply MemOk.ofSame ?_ (scCmdFx_same _ _ _ _) ?_); on_goal 1 => rfl)
    | ((with_reducible apply MemOk.ofSame ?_ (ringOver_same _ _) ?_); on_goal 1 => rfl)
    | ((with_reducible apply MemOk.ofSame ?_ (dpCmdFx_same _ _ _) ?_); on_goal 1 => rfl)
    | ((with_reducible apply MemOk.ofSame ?_ (pendFx_same _ _ _) ?_); on_goal 1 => rfl)
    | ((with_reducible apply MemOk.ofSame ?_ (cmdIn_same _ _ _ _ _ _) ?_); on_goal 1 => rfl)
    | ((with_reducible apply MemOk.ofSame ?_ (timeCmdFx_same _ _ _) ?_); on_goal 1 => rfl)
    | ((with_reducible apply MemOk.ofSame ?_ (fodFx_same _ _ _ _ _ _ _) ?_); on_goal 1 => rfl)
    | ((with_reducible apply MemOk.ofSame ?_ (wr_same _ _ _) ?_); on_goal 1 => rfl)
    | ((with_reducible apply MemOk.ofSame ?_ (genSwitchFx_same _ _) ?_); on_goal 1 => rfl)
    | ((with_reducible apply MemOk.ofSame ?_ (portFodSet_same _ _) ?_); on_goal 1 => rfl)
    | ((with_reducible apply MemOk.ofSame ?_ (dmaFx_same _ _ _ _ _ _) ?_); on_goal 1 => rfl)
    | ((with_reducible apply MemOk.ofSame ?_ (refRequal_same _ _) ?_); on_goal 1 => rfl)
    | ((with_reducible apply MemOk.ofSame ?_ (swrefFx_same _ _) ?_); on_goal 1 => rfl)
    | ((with_reducible apply MemOk.ofSame ?_ (ecamEntFx_same _ _ _ _ _ _) ?_); on_goal 1 => rfl)
    | ((with_reducible apply MemOk.ofSame ?_ (scrClear_same _) ?_); on_goal 1 => rfl)
    | ((with_reducible apply MemOk.ofSame ?_ (ringRdFx_same _ _ _ _) ?_); on_goal 1 => rfl)
    | with_reducible apply MemOk.step (softKey_memOk _ _ _) ?_
    | (extract_lets +onlyGivenNames x; (with_reducible apply MemOk.cut x ?_ ?_); (on_goal 1 => (unfold x; clear x)); (on_goal 2 => (intro hx; clear_value x)))
    | (extract_lets +onlyGivenNames x; clear_value x)
    | (extract_lets +onlyGivenNames x; unfold x; clear x)
    | split
    | with_reducible apply MemOk.put_scr ?_)

theorem landedRun_memOk (s : State) :
    MemOk s (landedRun s) := by
  delta landedRun
  repeat' (first
    | with_reducible exact MemOk.refl _
    | with_reducible assumption
    | with_reducible apply MemOk.step (regFx_memOk _ _ _ _ _ _ _) ?_
    | with_reducible apply MemOk.foldl ?_ ?_
    | (extract_lets +onlyGivenNames x; (with_reducible apply MemOk.cut x ?_ ?_); (on_goal 1 => (unfold x; clear x)); (on_goal 2 => (intro hx; clear_value x)))
    | (extract_lets +onlyGivenNames x; clear_value x)
    | (extract_lets +onlyGivenNames x; unfold x; clear x)
    | intro _
    | split
    | with_reducible apply MemOk.put_landed ?_)

theorem aonStep_memOk (s : State) (a1 : Bool) :
    MemOk s (aonStep s a1) := by
  delta aonStep
  repeat' (first
    | with_reducible exact MemOk.refl _
    | with_reducible assumption
    | ((with_reducible apply MemOk.ofSame ?_ (aonDomains_same _) ?_); on_goal 1 => rfl)
    | ((with_reducible apply MemOk.ofSame ?_ (aonWords_same _) ?_); on_goal 1 => rfl)
    | ((with_reducible apply MemOk.ofSame ?_ (aonTick_same _) ?_); on_goal 1 => rfl)
    | ((with_reducible apply MemOk.ofSame ?_ (steerSet_same _ _) ?_); on_goal 1 => rfl)
    | with_reducible apply MemOk.step (snapWake_memOk _) ?_
    | ((with_reducible apply MemOk.ofSame ?_ (aonInterp_same _ _) ?_); on_goal 1 => rfl)
    | ((with_reducible apply MemOk.ofSame ?_ (holdsEnd_same _) ?_); on_goal 1 => rfl)
    | with_reducible apply MemOk.step (landedRun_memOk _) ?_
    | ((with_reducible apply MemOk.ofSame ?_ (slowsDue_same _) ?_); on_goal 1 => rfl)
    | ((with_reducible apply MemOk.ofSame ?_ (aonRate_same _ _) ?_); on_goal 1 => rfl)
    | ((with_reducible apply MemOk.ofSame ?_ (masterSet_same _ _) ?_); on_goal 1 => rfl)
    | ((with_reducible apply MemOk.ofSame ?_ (noteFlags_same _) ?_); on_goal 1 => rfl)
    | ((with_reducible apply MemOk.ofSame ?_ (snapLater_same _) ?_); on_goal 1 => rfl)
    | with_reducible apply MemOk.upto ?_ ?_
    | (extract_lets +onlyGivenNames x; (with_reducible apply MemOk.cut x ?_ ?_); (on_goal 1 => (unfold x; clear x)); (on_goal 2 => (intro hx; clear_value x)))
    | (extract_lets +onlyGivenNames x; clear_value x)
    | (extract_lets +onlyGivenNames x; unfold x; clear x)
    | intro _
    | split)

theorem aonSteps_memOk (a0 : ℕ) (s : State) :
    MemOk s (aonSteps a0 s) := by
  induction a0 generalizing s with
  | zero => exact MemOk.refl _
  | succ k ih => exact (aonStep_memOk _ _).trans (ih _)

theorem aonRun_memOk (a0 : ℕ) (a1 : Bool) (s : State) :
    MemOk s (aonRun a0 a1 s) := by
  delta aonRun
  repeat' (first
    | with_reducible exact MemOk.refl _
    | with_reducible assumption
    | ((with_reducible apply MemOk.ofSame ?_ (aonAfter_same _) ?_); on_goal 1 => rfl)
    | with_reducible apply MemOk.step (aonSteps_memOk _ _) ?_
    | with_reducible apply MemOk.step (aonStep_memOk _ _) ?_
    | (extract_lets +onlyGivenNames x; (with_reducible apply MemOk.cut x ?_ ?_); (on_goal 1 => (unfold x; clear x)); (on_goal 2 => (intro hx; clear_value x)))
    | (extract_lets +onlyGivenNames x; clear_value x)
    | (extract_lets +onlyGivenNames x; unfold x; clear x)
    | split)

theorem applyMerged_memOk (s : State) (a1 : ℕ) (a2 : List (RegInfo × ℕ × ℕ × Bool)) :
    MemOk s (applyMerged s a1 a2) := by
  delta applyMerged
  repeat' (first
    | with_reducible exact MemOk.refl _
    | with_reducible assumption
    | ((with_reducible apply MemOk.ofSame ?_ (bump_same _ _ _) ?_); on_goal 1 => rfl)
    | ((with_reducible apply MemOk.ofSame ?_ (busFault_same _ _ _ _) ?_); on_goal 1 => rfl)
    | ((with_reducible apply MemOk.ofSame ?_ (passVoidMark_same _ _) ?_); on_goal 1 => rfl)
    | ((with_reducible apply MemOk.ofSame ?_ (wL_same _ _ _ _) ?_); on_goal 1 => rfl)
    | with_reducible apply MemOk.step (regFx_memOk _ _ _ _ _ _ _) ?_
    | with_reducible apply MemOk.foldl ?_ ?_
    | (extract_lets +onlyGivenNames x; (with_reducible apply MemOk.cut x ?_ ?_); (on_goal 1 => (unfold x; clear x)); (on_goal 2 => (intro hx; clear_value x)))
    | (extract_lets +onlyGivenNames x; clear_value x)
    | (extract_lets +onlyGivenNames x; unfold x; clear x)
    | intro _
    | split)

theorem applyVal_memOk (s : State) (a1 : RegInfo) (a2 : ℕ) (a3 : ℕ) (a4 : ℕ) (a5 : Cause) :
    MemOk s (applyVal s a1 a2 a3 a4 a5) := by
  delta applyVal
  repeat' (first
    | with_reducible exact MemOk.refl _
    | with_reducible assumption
    | ((with_reducible apply MemOk.ofSame ?_ (storeVal_same _ _ _ _ _) ?_); on_goal 1 => rfl)
    | with_reducible apply MemOk.step (regFx_memOk _ _ _ _ _ _ _) ?_
    | (extract_lets +onlyGivenNames x; (with_reducible apply MemOk.cut x ?_ ?_); (on_goal 1 => (unfold x; clear x)); (on_goal 2 => (intro hx; clear_value x)))
    | (extract_lets +onlyGivenNames x; (with_reducible apply MemOk.cut x.1 ?_ ?_); (on_goal 1 => (unfold x; clear x)); (on_goal 2 => (intro hx; clear_value x)))
    | (extract_lets +onlyGivenNames x; clear_value x)
    | (extract_lets +onlyGivenNames x; unfold x; clear x)
    | with_reducible refine MemOk.ofFst (by assumption) ?_
    | split)

theorem imageApply_memOk (s : State) (a1 : ℕ) (a2 : Bank) :
    MemOk s (imageApply s a1 a2) := by
  delta imageApply
  repeat' (first
    | with_reducible exact MemOk.refl _
    | with_reducible assumption
    | with_reducible apply MemOk.step (setMbs_memOk _ _ _) ?_
    | ((with_reducible apply MemOk.ofSame ?_ (imgClear_same _ _) ?_); on_goal 1 => rfl)
    | ((with_reducible apply MemOk.ofSame ?_ (wr_same _ _ _) ?_); on_goal 1 => rfl)
    | ((with_reducible apply MemOk.ofSame ?_ (raise_same _ _ _ _ _ _) ?_); on_goal 1 => rfl)
    | with_reducible apply MemOk.foldl ?_ ?_
    | (extract_lets +onlyGivenNames x; (with_reducible apply MemOk.cut x ?_ ?_); (on_goal 1 => (unfold x; clear x)); (on_goal 2 => (intro hx; clear_value x)))
    | (extract_lets +onlyGivenNames x; clear_value x)
    | (extract_lets +onlyGivenNames x; unfold x; clear x)
    | intro _
    | split)

theorem autoStart_memOk (s : State) (a1 : ℕ) :
    MemOk s (autoStart s a1) := by
  delta autoStart
  repeat' (first
    | with_reducible exact MemOk.refl _
    | with_reducible assumption
    | ((with_reducible apply MemOk.ofSame ?_ (seqVerified_same _ _) ?_); on_goal 1 => rfl)
    | ((with_reducible apply MemOk.ofSame ?_ (orBits_same _ _ _) ?_); on_goal 1 => rfl)
    | ((with_reducible apply MemOk.ofSame ?_ (seqStartCmd_same _ _) ?_); on_goal 1 => rfl)
    | with_reducible apply MemOk.step (imageApply_memOk _ _ _) ?_
    | ((with_reducible apply MemOk.ofSame ?_ (raise_same _ _ _ _ _ _) ?_); on_goal 1 => rfl)
    | (extract_lets +onlyGivenNames x; (with_reducible apply MemOk.cut x ?_ ?_); (on_goal 1 => (unfold x; clear x)); (on_goal 2 => (intro hx; clear_value x)))
    | (extract_lets +onlyGivenNames x; clear_value x)
    | (extract_lets +onlyGivenNames x; unfold x; clear x)
    | split)

theorem badIn_memOk (s : State) (a1 : ℕ) :
    MemOk s (badIn s a1) := by
  delta badIn
  repeat' (first
    | with_reducible exact MemOk.refl _
    | with_reducible assumption
    | with_reducible apply MemOk.step (closePend_memOk _ _) ?_
    | ((with_reducible apply MemOk.ofSame ?_ (badBlk_same _ _) ?_); on_goal 1 => rfl)
    | (extract_lets +onlyGivenNames x; (with_reducible apply MemOk.cut x ?_ ?_); (on_goal 1 => (unfold x; clear x)); (on_goal 2 => (intro hx; clear_value x)))
    | (extract_lets +onlyGivenNames x; clear_value x)
    | (extract_lets +onlyGivenNames x; unfold x; clear x)
    | split)

theorem coreTouch_memOk (s : State) (a1 : ℕ) (a2 : Bool) :
    MemOk s (coreTouch s a1 a2) := by
  delta coreTouch
  repeat' (first
    | with_reducible exact MemOk.refl _
    | with_reducible assumption
    | with_reducible apply MemOk.step (coreWake_memOk _) ?_
    | (extract_lets +onlyGivenNames x; (with_reducible apply MemOk.cut x ?_ ?_); (on_goal 1 => (unfold x; clear x)); (on_goal 2 => (intro hx; clear_value x)))
    | (extract_lets +onlyGivenNames x; clear_value x)
    | (extract_lets +onlyGivenNames x; unfold x; clear x)
    | split
    | with_reducible apply MemOk.put_pwr ?_)

theorem eccBad_memOk (s : State) (a1 : ℕ) :
    MemOk s (eccBad s a1) := by
  delta eccBad
  repeat' (first
    | with_reducible exact MemOk.refl _
    | with_reducible assumption
    | ((with_reducible apply MemOk.ofSame ?_ (bump_same _ _ _) ?_); on_goal 1 => rfl)
    | with_reducible apply MemOk.step (ringVoid_memOk _ _ _) ?_
    | ((with_reducible apply MemOk.ofSame ?_ (raise_same _ _ _ _ _ _) ?_); on_goal 1 => rfl)
    | with_reducible apply MemOk.upto ?_ ?_
    | with_reducible apply MemOk.foldl ?_ ?_
    | (extract_lets +onlyGivenNames x; (with_reducible apply MemOk.cut x ?_ ?_); (on_goal 1 => (unfold x; clear x)); (on_goal 2 => (intro hx; clear_value x)))
    | (extract_lets +onlyGivenNames x; clear_value x)
    | (extract_lets +onlyGivenNames x; unfold x; clear x)
    | intro _
    | split)

theorem bar2Bad_memOk (s : State) (a1 : ℕ) (a2 : ℕ) :
    MemOk s (bar2Bad s a1 a2) := by
  delta bar2Bad
  repeat' (first
    | with_reducible exact MemOk.refl _
    | with_reducible assumption
    | with_reducible apply MemOk.step (coreTouch_memOk _ _ _) ?_
    | ((with_reducible apply MemOk.ofSame ?_ (orBits_same _ _ _) ?_); on_goal 1 => rfl)
    | with_reducible apply MemOk.step (eccBad_memOk _ _) ?_
    | ((with_reducible apply MemOk.ofSame ?_ (raise_same _ _ _ _ _ _) ?_); on_goal 1 => rfl)
    | (extract_lets +onlyGivenNames x; (with_reducible apply MemOk.cut x ?_ ?_); (on_goal 1 => (unfold x; clear x)); (on_goal 2 => (intro hx; clear_value x)))
    | (extract_lets +onlyGivenNames x; clear_value x)
    | (extract_lets +onlyGivenNames x; unfold x; clear x)
    | split)

theorem bar2Get_memOk (s : State) (a1 : ℕ) (a2 : ℕ) (a3 : List ℕ) :
    MemOk s (bar2Get s a1 a2 a3).1 := by
  delta bar2Get
  repeat' (first
    | with_reducible exact MemOk.refl _
    | with_reducible assumption
    | with_reducible apply MemOk.step (setMbs_memOk _ _ _) ?_
    | with_reducible apply MemOk.step (coreTouch_memOk _ _ _) ?_
    | with_reducible apply MemOk.upto ?_ ?_
    | (extract_lets +onlyGivenNames x; (with_reducible apply MemOk.cut x ?_ ?_); (on_goal 1 => (unfold x; clear x)); (on_goal 2 => (intro hx; clear_value x)))
    | (extract_lets +onlyGivenNames x; clear_value x)
    | (extract_lets +onlyGivenNames x; unfold x; clear x)
    | intro _
    | split
    | with_reducible apply MemOk.put_free ?_)

theorem bar2Put_memOk (s : State) (a1 : ℕ) (a2 : ℕ) (a3 : List (Option Byte)) :
    MemOk s (bar2Put s a1 a2 a3) := by
  delta bar2Put
  repeat' (first
    | with_reducible exact MemOk.refl _
    | with_reducible assumption
    | with_reducible apply MemOk.step (coreTouch_memOk _ _ _) ?_
    | ((with_reducible apply MemOk.ofSame ?_ (imgClear_same _ _) ?_); on_goal 1 => rfl)
    | ((with_reducible apply MemOk.ofSame ?_ (raise_same _ _ _ _ _ _) ?_); on_goal 1 => rfl)
    | with_reducible apply MemOk.step (setMb_memOk _ _ _) ?_
    | with_reducible apply MemOk.foldl ?_ ?_
    | (extract_lets +onlyGivenNames x; (with_reducible apply MemOk.cut x ?_ ?_); (on_goal 1 => (unfold x; clear x)); (on_goal 2 => (intro hx; clear_value x)))
    | (extract_lets +onlyGivenNames x; clear_value x)
    | (extract_lets +onlyGivenNames x; unfold x; clear x)
    | intro _
    | split)

theorem beaconIn_memOk (s : State) (a1 : ℕ) (a2 : BeaconMsg) :
    MemOk s (beaconIn s a1 a2) := by
  delta beaconIn
  repeat' (first
    | with_reducible exact MemOk.refl _
    | with_reducible assumption
    | ((with_reducible apply MemOk.ofSame ?_ (orBits_same _ _ _) ?_); on_goal 1 => rfl)
    | ((with_reducible apply MemOk.ofSame ?_ (wb_same _ _ _ _ _) ?_); on_goal 1 => rfl)
    | ((with_reducible apply MemOk.ofSame ?_ (refSample_same _ _ _ _) ?_); on_goal 1 => rfl)
    | ((with_reducible apply MemOk.ofSame ?_ (bumpM_same _ _ _) ?_); on_goal 1 => rfl)
    | ((with_reducible apply MemOk.ofSame ?_ (rfreq_same _ _) ?_); on_goal 1 => rfl)
    | with_reducible apply MemOk.step (closePend_memOk _ _) ?_
    | ((with_reducible apply MemOk.ofSame ?_ (slowSettle_same _ _) ?_); on_goal 1 => rfl)
    | ((with_reducible apply MemOk.ofSame ?_ (raise_same _ _ _ _ _ _) ?_); on_goal 1 => rfl)
    | ((with_reducible apply MemOk.ofSame ?_ (setPort_same _ _ _) ?_); on_goal 1 => rfl)
    | ((with_reducible apply MemOk.ofSame ?_ (beaconTurn_same _ _ _) ?_); on_goal 1 => rfl)
    | (extract_lets +onlyGivenNames x; (with_reducible apply MemOk.cut x ?_ ?_); (on_goal 1 => (unfold x; clear x)); (on_goal 2 => (intro hx; clear_value x)))
    | (extract_lets +onlyGivenNames x; (with_reducible apply MemOk.cutF x ?_ ?_); (on_goal 1 => (unfold x; clear x; intro _ _)); (on_goal 2 => (intro hx; clear_value x)))
    | (extract_lets +onlyGivenNames x; (with_reducible apply MemOk.cutF1 x ?_ ?_); (on_goal 1 => (unfold x; clear x; intro _)); (on_goal 2 => (intro hx; clear_value x)))
    | (extract_lets +onlyGivenNames x; (with_reducible apply MemOk.cutG x ?_ ?_); (on_goal 1 => (unfold x; clear x; intro _)); (on_goal 2 => (intro hx; clear_value x)))
    | (extract_lets +onlyGivenNames x; clear_value x)
    | (extract_lets +onlyGivenNames x; unfold x; clear x)
    | intro _
    | split
    | ((with_reducible apply MemOk.viaF ?_ ?_); on_goal 1 => with_reducible assumption)
    | ((with_reducible apply MemOk.viaF1 ?_ ?_); on_goal 1 => with_reducible assumption)
    | ((with_reducible apply MemOk.viaG ?_); on_goal 1 => with_reducible assumption))

theorem busAccept_memOk (s : State) (a1 : ℕ) (a2 : ℕ) (a3 : ℕ) (a4 : ℕ) (a5 : RegInfo) :
    MemOk s (busAccept s a1 a2 a3 a4 a5).1 := by
  delta busAccept
  repeat' (first
    | with_reducible exact MemOk.refl _
    | with_reducible assumption
    | ((with_reducible apply MemOk.ofSame ?_ (bump_same _ _ _) ?_); on_goal 1 => rfl)
    | ((with_reducible apply MemOk.ofSame ?_ (busFault_same _ _ _ _) ?_); on_goal 1 => rfl)
    | ((with_reducible apply MemOk.ofSame ?_ (passVoidMark_same _ _) ?_); on_goal 1 => rfl)
    | with_reducible apply MemOk.step (applyVal_memOk _ _ _ _ _ _) ?_
    | ((with_reducible apply MemOk.ofSame ?_ (bumpRejected_same _ _ _) ?_); on_goal 1 => rfl)
    | (extract_lets +onlyGivenNames x; (with_reducible apply MemOk.cut x ?_ ?_); (on_goal 1 => (unfold x; clear x)); (on_goal 2 => (intro hx; clear_value x)))
    | (extract_lets +onlyGivenNames x; clear_value x)
    | (extract_lets +onlyGivenNames x; unfold x; clear x)
    | split
    | with_reducible apply MemOk.put_posted ?_)

theorem busRead32_memOk (s : State) (a1 : ℕ) (a2 : ℕ) (a3 : ℕ) :
    MemOk s (busRead32 s a1 a2 a3).1 := by
  delta busRead32
  repeat' (first
    | with_reducible exact MemOk.refl _
    | with_reducible assumption
    | ((with_reducible apply MemOk.ofSame ?_ (readWord_same _ _ _ _) ?_); on_goal 1 => rfl)
    | with_reducible apply MemOk.step (coreTouch_memOk _ _ _) ?_
    | (extract_lets +onlyGivenNames x; (with_reducible apply MemOk.cut x ?_ ?_); (on_goal 1 => (unfold x; clear x)); (on_goal 2 => (intro hx; clear_value x)))
    | (extract_lets +onlyGivenNames x; (with_reducible apply MemOk.cut x.1 ?_ ?_); (on_goal 1 => (unfold x; clear x)); (on_goal 2 => (intro hx; clear_value x)))
    | (extract_lets +onlyGivenNames x; clear_value x)
    | (extract_lets +onlyGivenNames x; unfold x; clear x)
    | with_reducible refine MemOk.ofFst (by assumption) ?_
    | split)

theorem busRead_memOk (s : State) (a1 : ℕ) (a2 : ℕ) (a3 : ℕ) :
    MemOk s (busRead s a1 a2 a3).1 := by
  delta busRead
  repeat' (first
    | with_reducible exact MemOk.refl _
    | with_reducible assumption
    | with_reducible apply MemOk.step (busRead32_memOk _ _ _ _) ?_
    | (extract_lets +onlyGivenNames x; (with_reducible apply MemOk.cut x ?_ ?_); (on_goal 1 => (unfold x; clear x)); (on_goal 2 => (intro hx; clear_value x)))
    | (extract_lets +onlyGivenNames x; (with_reducible apply MemOk.cut x.1 ?_ ?_); (on_goal 1 => (unfold x; clear x)); (on_goal 2 => (intro hx; clear_value x)))
    | (extract_lets +onlyGivenNames x; clear_value x)
    | (extract_lets +onlyGivenNames x; unfold x; clear x)
    | with_reducible refine MemOk.ofFst (by assumption) ?_
    | split)

theorem regBytes_memOk (s : State) (a1 : ℕ) (a2 : ℕ) :
    MemOk s (regBytes s a1 a2).1 := by
  induction a2 generalizing s a1 with
  | zero => exact MemOk.refl _
  | succ k ih => exact MemOk.trans (busRead_memOk _ _ _ _) (ih _ _)

theorem dmaRead_memOk (s : State) (a1 : ℕ) (a2 : ℕ) (a3 : ℕ) (a4 : List Byte) :
    MemOk s (dmaRead s a1 a2 a3 a4).1 := by
  delta dmaRead
  repeat' (first
    | with_reducible exact MemOk.refl _
    | with_reducible assumption
    | with_reducible apply MemOk.step (bar2Get_memOk _ _ _ _) ?_
    | with_reducible apply MemOk.step (regBytes_memOk _ _ _) ?_
    | ((with_reducible apply MemOk.ofSame ?_ (emit_same _ _) ?_); on_goal 1 => rfl)
    | (extract_lets +onlyGivenNames x; (with_reducible apply MemOk.cut x ?_ ?_); (on_goal 1 => (unfold x; clear x)); (on_goal 2 => (intro hx; clear_value x)))
    | (extract_lets +onlyGivenNames x; (with_reducible apply MemOk.cut x.1 ?_ ?_); (on_goal 1 => (unfold x; clear x)); (on_goal 2 => (intro hx; clear_value x)))
    | (extract_lets +onlyGivenNames x; clear_value x)
    | (extract_lets +onlyGivenNames x; unfold x; clear x)
    | with_reducible refine MemOk.ofFst (by assumption) ?_
    | split)

theorem regWrite_memOk (s : State) (a1 : ℕ) (a2 : ℕ) (a3 : ℕ) :
    MemOk s (regWrite s a1 a2 a3).1 := by
  delta regWrite
  repeat' (first
    | with_reducible exact MemOk.refl _
    | with_reducible assumption
    | ((with_reducible apply MemOk.ofSame ?_ (busFault_same _ _ _ _) ?_); on_goal 1 => rfl)
    | ((with_reducible apply MemOk.ofSame ?_ (setStaged_same _ _ _ _) ?_); on_goal 1 => rfl)
    | with_reducible apply MemOk.step (busAccept_memOk _ _ _ _ _ _) ?_
    | ((with_reducible apply MemOk.ofSame ?_ (hostForward_same _ _ _ _ _) ?_); on_goal 1 => rfl)
    | ((with_reducible apply MemOk.ofSame ?_ (forwardTaken_same _ _ _ _ _ _ _ _) ?_); on_goal 1 => rfl)
    | (extract_lets +onlyGivenNames x; (with_reducible apply MemOk.cut x ?_ ?_); (on_goal 1 => (unfold x; clear x)); (on_goal 2 => (intro hx; clear_value x)))
    | (extract_lets +onlyGivenNames x; (with_reducible apply MemOk.cut x.1 ?_ ?_); (on_goal 1 => (unfold x; clear x)); (on_goal 2 => (intro hx; clear_value x)))
    | (extract_lets +onlyGivenNames x; clear_value x)
    | (extract_lets +onlyGivenNames x; unfold x; clear x)
    | with_reducible refine MemOk.ofFst (by assumption) ?_
    | split)

theorem busWrite32_memOk (s : State) (a1 : ℕ) (a2 : ℕ) (a3 : ℕ) :
    MemOk s (busWrite32 s a1 a2 a3).1 := by
  delta busWrite32
  repeat' (first
    | with_reducible exact MemOk.refl _
    | with_reducible assumption
    | with_reducible apply MemOk.step (coreTouch_memOk _ _ _) ?_
    | with_reducible apply MemOk.step (regWrite_memOk _ _ _ _) ?_
    | ((with_reducible apply MemOk.ofSame ?_ (msixWrite_same _ _ _) ?_); on_goal 1 => rfl)
    | ((with_reducible apply MemOk.ofSame ?_ (safeRefuse_same _ _) ?_); on_goal 1 => rfl)
    | (extract_lets +onlyGivenNames x; (with_reducible apply MemOk.cut x ?_ ?_); (on_goal 1 => (unfold x; clear x)); (on_goal 2 => (intro hx; clear_value x)))
    | (extract_lets +onlyGivenNames x; (with_reducible apply MemOk.cut x.1 ?_ ?_); (on_goal 1 => (unfold x; clear x)); (on_goal 2 => (intro hx; clear_value x)))
    | (extract_lets +onlyGivenNames x; clear_value x)
    | (extract_lets +onlyGivenNames x; unfold x; clear x)
    | with_reducible refine MemOk.ofFst (by assumption) ?_
    | split)

theorem busWrite1_memOk (s : State) (a1 : ℕ) (a2 : ℕ) (a3 : ℕ) (a4 : ℕ) :
    MemOk s (busWrite1 s a1 a2 a3 a4).1 := by
  delta busWrite1
  repeat' (first
    | with_reducible exact MemOk.refl _
    | with_reducible assumption
    | with_reducible apply MemOk.step (coreTouch_memOk _ _ _) ?_
    | ((with_reducible apply MemOk.ofSame ?_ (busFault_same _ _ _ _) ?_); on_goal 1 => rfl)
    | with_reducible apply MemOk.step (busWrite32_memOk _ _ _ _) ?_
    | (extract_lets +onlyGivenNames x; (with_reducible apply MemOk.cut x ?_ ?_); (on_goal 1 => (unfold x; clear x)); (on_goal 2 => (intro hx; clear_value x)))
    | (extract_lets +onlyGivenNames x; (with_reducible apply MemOk.cut x.1 ?_ ?_); (on_goal 1 => (unfold x; clear x)); (on_goal 2 => (intro hx; clear_value x)))
    | (extract_lets +onlyGivenNames x; clear_value x)
    | (extract_lets +onlyGivenNames x; unfold x; clear x)
    | with_reducible refine MemOk.ofFst (by assumption) ?_
    | split)

theorem busWrite_memOk (s : State) (a1 : ℕ) (a2 : ℕ) (a3 : ℕ) (a4 : ℕ) :
    MemOk s (busWrite s a1 a2 a3 a4).1 := by
  delta busWrite
  repeat' (first
    | with_reducible exact MemOk.refl _
    | with_reducible assumption
    | with_reducible apply MemOk.step (busWrite1_memOk _ _ _ _ _) ?_
    | (extract_lets +onlyGivenNames x; (with_reducible apply MemOk.cut x ?_ ?_); (on_goal 1 => (unfold x; clear x)); (on_goal 2 => (intro hx; clear_value x)))
    | (extract_lets +onlyGivenNames x; (with_reducible apply MemOk.cut x.1 ?_ ?_); (on_goal 1 => (unfold x; clear x)); (on_goal 2 => (intro hx; clear_value x)))
    | (extract_lets +onlyGivenNames x; clear_value x)
    | (extract_lets +onlyGivenNames x; unfold x; clear x)
    | with_reducible refine MemOk.ofFst (by assumption) ?_
    | split)

theorem regPutBytes_memOk (s : State) (a1 : ℕ) (a2 : List Byte) (a3 : ℕ) :
    MemOk s (regPutBytes s a1 a2 a3).1 := by
  induction a3 generalizing s a1 a2 with
  | zero => exact MemOk.refl _
  | succ k ih => exact MemOk.trans (busWrite_memOk _ _ _ _ _) (ih _ _ _)

theorem dmaPut_memOk (s : State) (a1 : ℕ) (a2 : ℕ) (a3 : List Byte) :
    MemOk s (dmaPut s a1 a2 a3).1 := by
  delta dmaPut
  repeat' (first
    | with_reducible exact MemOk.refl _
    | with_reducible assumption
    | with_reducible apply MemOk.step (bar2Put_memOk _ _ _ _) ?_
    | with_reducible apply MemOk.step (regPutBytes_memOk _ _ _ _) ?_
    | ((with_reducible apply MemOk.ofSame ?_ (hostWrite_same _ _ _) ?_); on_goal 1 => rfl)
    | (extract_lets +onlyGivenNames x; (with_reducible apply MemOk.cut x ?_ ?_); (on_goal 1 => (unfold x; clear x)); (on_goal 2 => (intro hx; clear_value x)))
    | (extract_lets +onlyGivenNames x; (with_reducible apply MemOk.cut x.1 ?_ ?_); (on_goal 1 => (unfold x; clear x)); (on_goal 2 => (intro hx; clear_value x)))
    | (extract_lets +onlyGivenNames x; clear_value x)
    | (extract_lets +onlyGivenNames x; unfold x; clear x)
    | with_reducible refine MemOk.ofFst (by assumption) ?_
    | split)

theorem dmaStore_memOk (s : State) (a1 : ℕ) (a2 : Desc) (a3 : ℕ) (a4 : List Byte) :
    MemOk s (dmaStore s a1 a2 a3 a4).1 := by
  delta dmaStore
  have h (l : List (Nat × List Byte)) (r : State × Bool) : MemOk r.1 (l.foldl (fun r p =>
      ((dmaPut r.1 (dstLoc a2) p.1 p.2).1, r.2 || (dmaPut r.1 (dstLoc a2) p.1 p.2).2)) r).1 := by
    induction l generalizing r with
    | nil => exact MemOk.refl _
    | cons p t ih =>
      rw [List.foldl_cons]
      exact MemOk.trans (dmaPut_memOk r.1 (dstLoc a2) p.1 p.2)
        (ih ((dmaPut r.1 (dstLoc a2) p.1 p.2).1, r.2 || (dmaPut r.1 (dstLoc a2) p.1 p.2).2))
  exact h _ (s, false)

theorem dmaData_memOk (s : State) (a1 : ℕ) (a2 : Desc) (a3 : ℕ) (a4 : ℕ) (a5 : List Byte) (a6 : List Byte) :
    MemOk s (dmaData s a1 a2 a3 a4 a5 a6).1 := by
  delta dmaData
  repeat' (first
    | with_reducible exact MemOk.refl _
    | with_reducible assumption
    | with_reducible apply MemOk.step (dmaRead_memOk _ _ _ _ _) ?_
    | with_reducible apply MemOk.step (dmaStore_memOk _ _ _ _ _) ?_
    | (extract_lets +onlyGivenNames x; (with_reducible apply MemOk.cut x ?_ ?_); (on_goal 1 => (unfold x; clear x)); (on_goal 2 => (intro hx; clear_value x)))
    | (extract_lets +onlyGivenNames x; (with_reducible apply MemOk.cut x.1 ?_ ?_); (on_goal 1 => (unfold x; clear x)); (on_goal 2 => (intro hx; clear_value x)))
    | (extract_lets +onlyGivenNames x; clear_value x)
    | (extract_lets +onlyGivenNames x; unfold x; clear x)
    | with_reducible refine MemOk.ofFst (by assumption) ?_
    | split)

theorem dmaBurst_memOk (s : State) (a1 : ℕ) (a2 : Desc) (a3 : ℕ) (a4 : ℕ) (a5 : List Byte) (a6 : List Byte) (a7 : Bool) :
    MemOk s (dmaBurst s a1 a2 a3 a4 a5 a6 a7).1 := by
  delta dmaBurst
  repeat' (first
    | with_reducible exact MemOk.refl _
    | with_reducible assumption
    | ((with_reducible apply MemOk.ofSame ?_ (curSet_same _ _ _ _) ?_); on_goal 1 => rfl)
    | ((with_reducible apply MemOk.ofSame ?_ (setDma_same _ _ _) ?_); on_goal 1 => rfl)
    | ((with_reducible apply MemOk.ofSame ?_ (dmaGrant_same _ _) ?_); on_goal 1 => rfl)
    | with_reducible apply MemOk.step (dmaData_memOk _ _ _ _ _ _ _) ?_
    | (extract_lets +onlyGivenNames x; (with_reducible apply MemOk.cut x ?_ ?_); (on_goal 1 => (unfold x; clear x)); (on_goal 2 => (intro hx; clear_value x)))
    | (extract_lets +onlyGivenNames x; (with_reducible apply MemOk.cut x.1 ?_ ?_); (on_goal 1 => (unfold x; clear x)); (on_goal 2 => (intro hx; clear_value x)))
    | (extract_lets +onlyGivenNames x; clear_value x)
    | (extract_lets +onlyGivenNames x; unfold x; clear x)
    | with_reducible refine MemOk.ofFst (by assumption) ?_
    | split)

theorem dmaLoop_memOk (a0 : ℕ) (s : State) (a2 : ℕ) (a3 : ℕ) (a4 : List Byte) (a5 : List Byte) :
    MemOk s (dmaLoop a0 s a2 a3 a4 a5) := by
  induction a0 generalizing s a3 a4 a5 with
  | zero => exact MemOk.refl _
  | succ k ih =>
    unfold dmaLoop
    split
    · exact MemOk.refl _
    · dsimp only
      split
      · exact MemOk.refl _
      · split
        · exact MemOk.ofSame (by rfl) (dmaEnd_same _ _ _ _) (MemOk.refl _)
        · split
          · exact MemOk.refl _
          · split
            · exact MemOk.trans (dmaBurst_memOk _ _ _ _ _ _ _ _) (MemOk.ofSame (by rfl) (dmaEnd_same _ _ _ _) (MemOk.refl _))
            · exact MemOk.trans (dmaBurst_memOk _ _ _ _ _ _ _ _) (ih _ _ _ _)

theorem dmaRun_memOk (s : State) (a1 : ℕ) (a2 : ℕ) (a3 : DmaSide) (a4 : DmaSide) :
    MemOk s (dmaRun s a1 a2 a3 a4) := by
  delta dmaRun
  repeat' (first
    | with_reducible exact MemOk.refl _
    | with_reducible assumption
    | ((with_reducible apply MemOk.ofSame ?_ (dmaFixed_same _ _ _ _) ?_); on_goal 1 => rfl)
    | with_reducible apply MemOk.step (dmaLoop_memOk _ _ _ _ _ _) ?_
    | (extract_lets +onlyGivenNames x; (with_reducible apply MemOk.cut x ?_ ?_); (on_goal 1 => (unfold x; clear x)); (on_goal 2 => (intro hx; clear_value x)))
    | (extract_lets +onlyGivenNames x; clear_value x)
    | (extract_lets +onlyGivenNames x; unfold x; clear x)
    | split)

theorem readFail_memOk (s : State) (a1 : ℕ) (a2 : ℕ) (a3 : ℕ) (a4 : Bool) :
    MemOk s (readFail s a1 a2 a3 a4) := by
  delta readFail
  repeat' (first
    | with_reducible exact MemOk.refl _
    | with_reducible assumption
    | ((with_reducible apply MemOk.ofSame ?_ (setDma_same _ _ _) ?_); on_goal 1 => rfl)
    | ((with_reducible apply MemOk.ofSame ?_ (bump_same _ _ _) ?_); on_goal 1 => rfl)
    | ((with_reducible apply MemOk.ofSame ?_ (orBits_same _ _ _) ?_); on_goal 1 => rfl)
    | ((with_reducible apply MemOk.ofSame ?_ (dmaGrant_same _ _) ?_); on_goal 1 => rfl)
    | ((with_reducible apply MemOk.ofSame ?_ (wL_same _ _ _ _) ?_); on_goal 1 => rfl)
    | with_reducible apply MemOk.step (bar2Bad_memOk _ _ _) ?_
    | ((with_reducible apply MemOk.ofSame ?_ (wr_same _ _ _) ?_); on_goal 1 => rfl)
    | ((with_reducible apply MemOk.ofSame ?_ (raiseDma_same _ _ _ _) ?_); on_goal 1 => rfl)
    | (extract_lets +onlyGivenNames x; (with_reducible apply MemOk.cut x ?_ ?_); (on_goal 1 => (unfold x; clear x)); (on_goal 2 => (intro hx; clear_value x)))
    | (extract_lets +onlyGivenNames x; clear_value x)
    | (extract_lets +onlyGivenNames x; unfold x; clear x)
    | split)

theorem busErr_memOk (s : State) (a1 : ℕ) (a2 : ℕ) (a3 : ℕ) (a4 : Bool) (a5 : DmaData) :
    MemOk s (busErr s a1 a2 a3 a4 a5) := by
  delta busErr
  repeat' (first
    | with_reducible exact MemOk.refl _
    | with_reducible assumption
    | with_reducible apply MemOk.step (coreTouch_memOk _ _ _) ?_
    | with_reducible apply MemOk.step (eccBad_memOk _ _) ?_
    | with_reducible apply MemOk.step (dmaRun_memOk _ _ _ _ _) ?_
    | with_reducible apply MemOk.step (readFail_memOk _ _ _ _ _) ?_
    | (extract_lets +onlyGivenNames x; (with_reducible apply MemOk.cut x ?_ ?_); (on_goal 1 => (unfold x; clear x)); (on_goal 2 => (intro hx; clear_value x)))
    | (extract_lets +onlyGivenNames x; clear_value x)
    | (extract_lets +onlyGivenNames x; unfold x; clear x)
    | split)

theorem busWriteTie_memOk (s : State) (a1 : ℕ) (a2 : ℕ) (a3 : ℕ) (a4 : ℕ) (a5 : Bool) :
    MemOk s (busWriteTie s a1 a2 a3 a4 a5) := by
  delta busWriteTie
  repeat' (first
    | with_reducible exact MemOk.refl _
    | with_reducible assumption
    | with_reducible apply MemOk.step (busWrite_memOk _ _ _ _ _) ?_
    | (extract_lets +onlyGivenNames x; (with_reducible apply MemOk.cut x ?_ ?_); (on_goal 1 => (unfold x; clear x)); (on_goal 2 => (intro hx; clear_value x)))
    | (extract_lets +onlyGivenNames x; (with_reducible apply MemOk.cut x.1 ?_ ?_); (on_goal 1 => (unfold x; clear x)); (on_goal 2 => (intro hx; clear_value x)))
    | (extract_lets +onlyGivenNames x; clear_value x)
    | (extract_lets +onlyGivenNames x; unfold x; clear x)
    | with_reducible refine MemOk.ofFst (by assumption) ?_
    | split
    | with_reducible apply MemOk.put_cycle ?_)

theorem powerEnd_memOk (s : State) :
    MemOk s (powerEnd s) := by
  delta powerEnd
  repeat' (first
    | with_reducible exact MemOk.refl _
    | with_reducible assumption
    | ((with_reducible apply MemOk.ofSame ?_ (groupEval_same _) ?_); on_goal 1 => rfl)
    | ((with_reducible apply MemOk.ofSame ?_ (takeRole_same _) ?_); on_goal 1 => rfl)
    | ((with_reducible apply MemOk.ofSame ?_ (scWakeEval_same _) ?_); on_goal 1 => rfl)
    | with_reducible apply MemOk.step (autoStart_memOk _ _) ?_
    | ((with_reducible apply MemOk.ofSame ?_ (twinsYoung_same _) ?_); on_goal 1 => rfl)
    | with_reducible apply MemOk.upto ?_ ?_
    | (extract_lets +onlyGivenNames x; (with_reducible apply MemOk.cut x ?_ ?_); (on_goal 1 => (unfold x; clear x)); (on_goal 2 => (intro hx; clear_value x)))
    | (extract_lets +onlyGivenNames x; clear_value x)
    | (extract_lets +onlyGivenNames x; unfold x; clear x)
    | intro _
    | split
    | with_reducible apply MemOk.put_pwr ?_)

theorem calApplyRun_memOk (s : State) (a1 : List CalUnit) :
    MemOk s (calApplyRun s a1) := by
  delta calApplyRun
  repeat' (first
    | with_reducible exact MemOk.refl _
    | with_reducible assumption
    | with_reducible apply MemOk.step (powerEnd_memOk _) ?_
    | ((with_reducible apply MemOk.ofSame ?_ (calStamp_same _) ?_); on_goal 1 => rfl)
    | ((with_reducible apply MemOk.ofSame ?_ (calTake_same _ _) ?_); on_goal 1 => rfl)
    | ((with_reducible apply MemOk.ofSame ?_ (setSlot_same _ _ _) ?_); on_goal 1 => rfl)
    | with_reducible apply MemOk.foldl ?_ ?_
    | (extract_lets +onlyGivenNames x; (with_reducible apply MemOk.cut x ?_ ?_); (on_goal 1 => (unfold x; clear x)); (on_goal 2 => (intro hx; clear_value x)))
    | (extract_lets +onlyGivenNames x; clear_value x)
    | (extract_lets +onlyGivenNames x; unfold x; clear x)
    | intro _
    | split
    | with_reducible apply MemOk.put_cal ?_)

theorem calPower_memOk (s : State) :
    MemOk s (calPower s) := by
  delta calPower
  repeat' (first
    | with_reducible exact MemOk.refl _
    | with_reducible assumption
    | with_reducible apply MemOk.step (drainFaults_memOk _) ?_
    | ((with_reducible apply MemOk.ofSame ?_ (scWakeEval_same _) ?_); on_goal 1 => rfl)
    | ((with_reducible apply MemOk.ofSame ?_ (setPwrState_same _ _) ?_); on_goal 1 => rfl)
    | ((with_reducible apply MemOk.ofSame ?_ (setSc_same _ _ _) ?_); on_goal 1 => rfl)
    | with_reducible apply MemOk.upto ?_ ?_
    | (extract_lets +onlyGivenNames x; (with_reducible apply MemOk.cut x ?_ ?_); (on_goal 1 => (unfold x; clear x)); (on_goal 2 => (intro hx; clear_value x)))
    | (extract_lets +onlyGivenNames x; clear_value x)
    | (extract_lets +onlyGivenNames x; unfold x; clear x)
    | intro _
    | split
    | with_reducible apply MemOk.put_coreAwake_pwr ?_
    | with_reducible apply MemOk.put_groups_cal ?_)

theorem ckptTake_memOk (s : State) (a1 : CkptMsg) :
    MemOk s (ckptTake s a1) := by
  delta ckptTake
  repeat' (first
    | with_reducible exact MemOk.refl _
    | with_reducible assumption
    | ((with_reducible apply MemOk.ofSame ?_ (rxNote_same _ _) ?_); on_goal 1 => rfl)
    | ((with_reducible apply MemOk.ofSame ?_ (renumber_same _ _) ?_); on_goal 1 => rfl)
    | ((with_reducible apply MemOk.ofSame ?_ (alignTake_same _) ?_); on_goal 1 => rfl)
    | ((with_reducible apply MemOk.ofSame ?_ (event_same _ _) ?_); on_goal 1 => rfl)
    | with_reducible apply MemOk.step (mailboxTake_memOk _ _) ?_
    | ((with_reducible apply MemOk.ofSame ?_ (wr_same _ _ _) ?_); on_goal 1 => rfl)
    | ((with_reducible apply MemOk.ofSame ?_ (nrEval_same _) ?_); on_goal 1 => rfl)
    | ((with_reducible apply MemOk.ofSame ?_ (screedTake_same _ _ _ _) ?_); on_goal 1 => rfl)
    | ((with_reducible apply MemOk.ofSame ?_ (hopsTake_same _ _ _) ?_); on_goal 1 => rfl)
    | with_reducible apply MemOk.upto ?_ ?_
    | with_reducible apply MemOk.foldl ?_ ?_
    | (extract_lets +onlyGivenNames x; (with_reducible apply MemOk.cut x ?_ ?_); (on_goal 1 => (unfold x; clear x)); (on_goal 2 => (intro hx; clear_value x)))
    | (extract_lets +onlyGivenNames x; clear_value x)
    | (extract_lets +onlyGivenNames x; unfold x; clear x)
    | intro _
    | split
    | with_reducible apply MemOk.put_mate ?_)

theorem cmdAccess_memOk (s : State) (a1 : ℕ) (a2 : ℕ) (a3 : ℕ) (a4 : ℕ) (a5 : ℕ) :
    MemOk s (cmdAccess s a1 a2 a3 a4 a5) := by
  delta cmdAccess
  repeat' (first
    | with_reducible exact MemOk.refl _
    | with_reducible assumption
    | with_reducible apply MemOk.step (coreTouch_memOk _ _ _) ?_
    | ((with_reducible apply MemOk.ofSame ?_ (cmdIn_same _ _ _ _ _ _) ?_); on_goal 1 => rfl)
    | (extract_lets +onlyGivenNames x; (with_reducible apply MemOk.cut x ?_ ?_); (on_goal 1 => (unfold x; clear x)); (on_goal 2 => (intro hx; clear_value x)))
    | (extract_lets +onlyGivenNames x; clear_value x)
    | (extract_lets +onlyGivenNames x; unfold x; clear x)
    | split)

theorem startWalk_memOk (s : State) (a1 : ℕ) (a2 : Slot) :
    MemOk s (startWalk s a1 a2) := by
  delta startWalk
  repeat' (first
    | with_reducible exact MemOk.refl _
    | with_reducible assumption
    | ((with_reducible apply MemOk.ofSame ?_ (gangEnter_same _ _ _ _ _) ?_); on_goal 1 => rfl)
    | ((with_reducible apply MemOk.ofSame ?_ (setRunning_same _ _ _) ?_); on_goal 1 => rfl)
    | with_reducible apply MemOk.step (cmdComplete_memOk _ _ _ _ _) ?_
    | (extract_lets +onlyGivenNames x; (with_reducible apply MemOk.cut x ?_ ?_); (on_goal 1 => (unfold x; clear x)); (on_goal 2 => (intro hx; clear_value x)))
    | (extract_lets +onlyGivenNames x; (with_reducible apply MemOk.cut x.1 ?_ ?_); (on_goal 1 => (unfold x; clear x)); (on_goal 2 => (intro hx; clear_value x)))
    | (extract_lets +onlyGivenNames x; clear_value x)
    | (extract_lets +onlyGivenNames x; unfold x; clear x)
    | with_reducible refine MemOk.ofFst (by assumption) ?_
    | split)

theorem startQual_memOk (s : State) (a1 : ℕ) (a2 : Slot) :
    MemOk s (startQual s a1 a2) := by
  delta startQual
  repeat' (first
    | with_reducible exact MemOk.refl _
    | with_reducible assumption
    | ((with_reducible apply MemOk.ofSame ?_ (refQnow_same _ _) ?_); on_goal 1 => rfl)
    | ((with_reducible apply MemOk.ofSame ?_ (setRunning_same _ _ _) ?_); on_goal 1 => rfl)
    | with_reducible apply MemOk.step (cmdComplete_memOk _ _ _ _ _) ?_
    | ((with_reducible apply MemOk.ofSame ?_ (refRequal_same _ _) ?_); on_goal 1 => rfl)
    | (extract_lets +onlyGivenNames x; (with_reducible apply MemOk.cut x ?_ ?_); (on_goal 1 => (unfold x; clear x)); (on_goal 2 => (intro hx; clear_value x)))
    | (extract_lets +onlyGivenNames x; clear_value x)
    | (extract_lets +onlyGivenNames x; unfold x; clear x)
    | split)

theorem startStore_memOk (s : State) (a1 : ℕ) (a2 : Slot) :
    MemOk s (startStore s a1 a2) := by
  delta startStore
  repeat' (first
    | with_reducible exact MemOk.refl _
    | with_reducible assumption
    | ((with_reducible apply MemOk.ofSame ?_ (storeBegin_same _ _ _ _) ?_); on_goal 1 => rfl)
    | ((with_reducible apply MemOk.ofSame ?_ (setRunning_same _ _ _) ?_); on_goal 1 => rfl)
    | with_reducible apply MemOk.step (cmdComplete_memOk _ _ _ _ _) ?_
    | (extract_lets +onlyGivenNames x; (with_reducible apply MemOk.cut x ?_ ?_); (on_goal 1 => (unfold x; clear x)); (on_goal 2 => (intro hx; clear_value x)))
    | (extract_lets +onlyGivenNames x; clear_value x)
    | (extract_lets +onlyGivenNames x; unfold x; clear x)
    | split)

theorem startRetune_memOk (s : State) (a1 : ℕ) (a2 : Slot) :
    MemOk s (startRetune s a1 a2) := by
  delta startRetune
  repeat' (first
    | with_reducible exact MemOk.refl _
    | with_reducible assumption
    | exact MemOk.ofSame (by rfl) (scEnter_same (by with_reducible assumption)) (by with_reducible first | assumption | exact MemOk.refl _)
    | ((with_reducible apply MemOk.ofSame ?_ (setRunning_same _ _ _) ?_); on_goal 1 => rfl)
    | with_reducible apply MemOk.step (cmdComplete_memOk _ _ _ _ _) ?_
    | ((with_reducible apply MemOk.ofSame ?_ (raise_same _ _ _ _ _ _) ?_); on_goal 1 => rfl)
    | (extract_lets +onlyGivenNames x; (with_reducible apply MemOk.cut x ?_ ?_); (on_goal 1 => (unfold x; clear x)); (on_goal 2 => (intro hx; clear_value x)))
    | (extract_lets +onlyGivenNames x; clear_value x)
    | (extract_lets +onlyGivenNames x; unfold x; clear x)
    | split)

theorem startSync_memOk (s : State) (a1 : ℕ) (a2 : Slot) :
    MemOk s (startSync s a1 a2) := by
  delta startSync
  repeat' (first
    | with_reducible exact MemOk.refl _
    | with_reducible assumption
    | ((with_reducible apply MemOk.ofSame ?_ (setRunning_same _ _ _) ?_); on_goal 1 => rfl)
    | with_reducible apply MemOk.step (cmdComplete_memOk _ _ _ _ _) ?_
    | ((with_reducible apply MemOk.ofSame ?_ (sendImage_same _) ?_); on_goal 1 => rfl)
    | (extract_lets +onlyGivenNames x; (with_reducible apply MemOk.cut x ?_ ?_); (on_goal 1 => (unfold x; clear x)); (on_goal 2 => (intro hx; clear_value x)))
    | (extract_lets +onlyGivenNames x; clear_value x)
    | (extract_lets +onlyGivenNames x; unfold x; clear x)
    | split
    | with_reducible apply MemOk.put_mate ?_)

theorem startLoad_memOk (s : State) (a1 : ℕ) (a2 : Slot) :
    MemOk s (startLoad s a1 a2) := by
  delta startLoad
  repeat' (first
    | with_reducible exact MemOk.refl _
    | with_reducible assumption
    | ((with_reducible apply MemOk.ofSame ?_ (setRunning_same _ _ _) ?_); on_goal 1 => rfl)
    | with_reducible apply MemOk.step (cmdComplete_memOk _ _ _ _ _) ?_
    | (extract_lets +onlyGivenNames x; (with_reducible apply MemOk.cut x ?_ ?_); (on_goal 1 => (unfold x; clear x)); (on_goal 2 => (intro hx; clear_value x)))
    | (extract_lets +onlyGivenNames x; clear_value x)
    | (extract_lets +onlyGivenNames x; unfold x; clear x)
    | split)

theorem cmdBegin_memOk (s : State) (a1 : ℕ) (a2 : Slot) :
    MemOk s (cmdBegin s a1 a2) := by
  delta cmdBegin
  repeat' (first
    | with_reducible exact MemOk.refl _
    | with_reducible assumption
    | with_reducible apply MemOk.step (startWalk_memOk _ _ _) ?_
    | with_reducible apply MemOk.step (startQual_memOk _ _ _) ?_
    | ((with_reducible apply MemOk.ofSame ?_ (startCal_same _ _ _) ?_); on_goal 1 => rfl)
    | with_reducible apply MemOk.step (startStore_memOk _ _ _) ?_
    | with_reducible apply MemOk.step (startRetune_memOk _ _ _) ?_
    | ((with_reducible apply MemOk.ofSame ?_ (setRunning_same _ _ _) ?_); on_goal 1 => rfl)
    | with_reducible apply MemOk.step (startSync_memOk _ _ _) ?_
    | with_reducible apply MemOk.step (cmdComplete_memOk _ _ _ _ _) ?_
    | ((with_reducible apply MemOk.ofSame ?_ (calStart_same _ _) ?_); on_goal 1 => rfl)
    | with_reducible apply MemOk.step (startLoad_memOk _ _ _) ?_
    | (extract_lets +onlyGivenNames x; (with_reducible apply MemOk.cut x ?_ ?_); (on_goal 1 => (unfold x; clear x)); (on_goal 2 => (intro hx; clear_value x)))
    | (extract_lets +onlyGivenNames x; clear_value x)
    | (extract_lets +onlyGivenNames x; unfold x; clear x)
    | split)

theorem cmdExpire_memOk (s : State) (a1 : ℕ) :
    MemOk s (cmdExpire s a1) := by
  delta cmdExpire
  repeat' (first
    | with_reducible exact MemOk.refl _
    | with_reducible assumption
    | ((with_reducible apply MemOk.ofSame ?_ (calDropRun_same _) ?_); on_goal 1 => rfl)
    | ((with_reducible apply MemOk.ofSame ?_ (storeDrop_same _) ?_); on_goal 1 => rfl)
    | ((with_reducible apply MemOk.ofSame ?_ (retuneForget_same _ _ _) ?_); on_goal 1 => rfl)
    | with_reducible apply MemOk.step (cmdComplete_memOk _ _ _ _ _) ?_
    | (extract_lets +onlyGivenNames x; (with_reducible apply MemOk.cut x ?_ ?_); (on_goal 1 => (unfold x; clear x)); (on_goal 2 => (intro hx; clear_value x)))
    | (extract_lets +onlyGivenNames x; clear_value x)
    | (extract_lets +onlyGivenNames x; unfold x; clear x)
    | split
    | with_reducible apply MemOk.put_mate ?_)

theorem endRetune_memOk (s : State) (a1 : ℕ) (a2 : Slot) :
    MemOk s (endRetune s a1 a2) := by
  delta endRetune
  repeat' (first
    | with_reducible exact MemOk.refl _
    | with_reducible assumption
    | with_reducible apply MemOk.step (cmdComplete_memOk _ _ _ _ _) ?_
    | ((with_reducible apply MemOk.ofSame ?_ (setSc_same _ _ _) ?_); on_goal 1 => rfl)
    | (extract_lets +onlyGivenNames x; (with_reducible apply MemOk.cut x ?_ ?_); (on_goal 1 => (unfold x; clear x)); (on_goal 2 => (intro hx; clear_value x)))
    | (extract_lets +onlyGivenNames x; clear_value x)
    | (extract_lets +onlyGivenNames x; unfold x; clear x)
    | split)

theorem endQual_memOk (s : State) (a1 : ℕ) (a2 : Slot) (a3 : Bool) :
    MemOk s (endQual s a1 a2 a3) := by
  delta endQual
  repeat' (first
    | with_reducible exact MemOk.refl _
    | with_reducible assumption
    | with_reducible apply MemOk.step (cmdComplete_memOk _ _ _ _ _) ?_
    | (extract_lets +onlyGivenNames x; (with_reducible apply MemOk.cut x ?_ ?_); (on_goal 1 => (unfold x; clear x)); (on_goal 2 => (intro hx; clear_value x)))
    | (extract_lets +onlyGivenNames x; clear_value x)
    | (extract_lets +onlyGivenNames x; unfold x; clear x)
    | split)

theorem endStore_memOk (s : State) (a1 : ℕ) (a2 : Slot) (a3 : Bool) :
    MemOk s (endStore s a1 a2 a3) := by
  delta endStore
  repeat' (first
    | with_reducible exact MemOk.refl _
    | with_reducible assumption
    | ((with_reducible apply MemOk.ofSame ?_ (orBits_same _ _ _) ?_); on_goal 1 => rfl)
    | ((with_reducible apply MemOk.ofSame ?_ (storeDrop_same _) ?_); on_goal 1 => rfl)
    | ((with_reducible apply MemOk.ofSame ?_ (storeCommit_same _) ?_); on_goal 1 => rfl)
    | ((with_reducible apply MemOk.ofSame ?_ (storeStop_same _ _) ?_); on_goal 1 => rfl)
    | with_reducible apply MemOk.step (cmdComplete_memOk _ _ _ _ _) ?_
    | ((with_reducible apply MemOk.ofSame ?_ (raise_same _ _ _ _ _ _) ?_); on_goal 1 => rfl)
    | (extract_lets +onlyGivenNames x; (with_reducible apply MemOk.cut x ?_ ?_); (on_goal 1 => (unfold x; clear x)); (on_goal 2 => (intro hx; clear_value x)))
    | (extract_lets +onlyGivenNames x; clear_value x)
    | (extract_lets +onlyGivenNames x; unfold x; clear x)
    | split)

theorem screedApply_memOk (s : State) (a1 : Bank) :
    MemOk s (screedApply s a1) := by
  delta screedApply
  repeat' (first
    | with_reducible exact MemOk.refl _
    | with_reducible assumption
    | with_reducible apply MemOk.step (applyMerged_memOk _ _ _) ?_
    | ((with_reducible apply MemOk.ofSame ?_ (wr_same _ _ _) ?_); on_goal 1 => rfl)
    | ((with_reducible apply MemOk.ofSame ?_ (scrShow_same _) ?_); on_goal 1 => rfl)
    | with_reducible apply MemOk.foldl ?_ ?_
    | (extract_lets +onlyGivenNames x; (with_reducible apply MemOk.cut x ?_ ?_); (on_goal 1 => (unfold x; clear x)); (on_goal 2 => (intro hx; clear_value x)))
    | (extract_lets +onlyGivenNames x; clear_value x)
    | (extract_lets +onlyGivenNames x; unfold x; clear x)
    | intro _
    | split
    | with_reducible apply MemOk.put_free_scr ?_)

theorem configApply_memOk (s : State) (a1 : List (ℕ × Word)) :
    MemOk s (configApply s a1) := by
  delta configApply
  repeat' (first
    | with_reducible exact MemOk.refl _
    | with_reducible assumption
    | with_reducible apply MemOk.step (applyMerged_memOk _ _ _) ?_
    | (extract_lets +onlyGivenNames x; (with_reducible apply MemOk.cut x ?_ ?_); (on_goal 1 => (unfold x; clear x)); (on_goal 2 => (intro hx; clear_value x)))
    | (extract_lets +onlyGivenNames x; clear_value x)
    | (extract_lets +onlyGivenNames x; unfold x; clear x)
    | split)

theorem regionApply_memOk (s : State) (a1 : ℕ) (a2 : ℕ) (a3 : Bank) :
    MemOk s (regionApply s a1 a2 a3) := by
  delta regionApply
  repeat' (first
    | with_reducible exact MemOk.refl _
    | with_reducible assumption
    | ((with_reducible apply MemOk.ofSame ?_ (portDlyApply_same _ _) ?_); on_goal 1 => rfl)
    | with_reducible apply MemOk.step (screedApply_memOk _ _) ?_
    | with_reducible apply MemOk.step (imageApply_memOk _ _ _) ?_
    | with_reducible apply MemOk.step (configApply_memOk _ _) ?_
    | (extract_lets +onlyGivenNames x; (with_reducible apply MemOk.cut x ?_ ?_); (on_goal 1 => (unfold x; clear x)); (on_goal 2 => (intro hx; clear_value x)))
    | (extract_lets +onlyGivenNames x; clear_value x)
    | (extract_lets +onlyGivenNames x; unfold x; clear x)
    | split)

theorem endLoad_memOk (s : State) (a1 : ℕ) (a2 : Slot) (a3 : Bool) :
    MemOk s (endLoad s a1 a2 a3) := by
  delta endLoad
  repeat' (first
    | with_reducible exact MemOk.refl _
    | with_reducible assumption
    | with_reducible apply MemOk.step (regionApply_memOk _ _ _ _) ?_
    | with_reducible apply MemOk.step (cmdComplete_memOk _ _ _ _ _) ?_
    | (extract_lets +onlyGivenNames x; (with_reducible apply MemOk.cut x ?_ ?_); (on_goal 1 => (unfold x; clear x)); (on_goal 2 => (intro hx; clear_value x)))
    | (extract_lets +onlyGivenNames x; clear_value x)
    | (extract_lets +onlyGivenNames x; unfold x; clear x)
    | split)

theorem endPortCal_memOk (s : State) (a1 : ℕ) (a2 : Slot) (a3 : ℕ) :
    MemOk s (endPortCal s a1 a2 a3) := by
  delta endPortCal
  repeat' (first
    | with_reducible exact MemOk.refl _
    | with_reducible assumption
    | with_reducible apply MemOk.step (cmdComplete_memOk _ _ _ _ _) ?_
    | (extract_lets +onlyGivenNames x; (with_reducible apply MemOk.cut x ?_ ?_); (on_goal 1 => (unfold x; clear x)); (on_goal 2 => (intro hx; clear_value x)))
    | (extract_lets +onlyGivenNames x; clear_value x)
    | (extract_lets +onlyGivenNames x; unfold x; clear x)
    | split)

theorem endWalk_memOk (s : State) (a1 : ℕ) (a2 : Slot) :
    MemOk s (endWalk s a1 a2) := by
  delta endWalk
  repeat' (first
    | with_reducible exact MemOk.refl _
    | with_reducible assumption
    | with_reducible apply MemOk.step (cmdComplete_memOk _ _ _ _ _) ?_
    | (extract_lets +onlyGivenNames x; (with_reducible apply MemOk.cut x ?_ ?_); (on_goal 1 => (unfold x; clear x)); (on_goal 2 => (intro hx; clear_value x)))
    | (extract_lets +onlyGivenNames x; clear_value x)
    | (extract_lets +onlyGivenNames x; unfold x; clear x)
    | split)

theorem cmdFinish_memOk (s : State) (a1 : ℕ) (a2 : OpOutcome) :
    MemOk s (cmdFinish s a1 a2) := by
  delta cmdFinish
  repeat' (first
    | with_reducible exact MemOk.refl _
    | with_reducible assumption
    | with_reducible apply MemOk.step (endRetune_memOk _ _ _) ?_
    | with_reducible apply MemOk.step (endQual_memOk _ _ _ _) ?_
    | with_reducible apply MemOk.step (endStore_memOk _ _ _ _) ?_
    | with_reducible apply MemOk.step (endLoad_memOk _ _ _ _) ?_
    | with_reducible apply MemOk.step (cmdComplete_memOk _ _ _ _ _) ?_
    | with_reducible apply MemOk.step (endPortCal_memOk _ _ _ _) ?_
    | with_reducible apply MemOk.step (endWalk_memOk _ _ _) ?_
    | (extract_lets +onlyGivenNames x; (with_reducible apply MemOk.cut x ?_ ?_); (on_goal 1 => (unfold x; clear x)); (on_goal 2 => (intro hx; clear_value x)))
    | (extract_lets +onlyGivenNames x; clear_value x)
    | (extract_lets +onlyGivenNames x; unfold x; clear x)
    | split)

theorem cmdStart_memOk (s : State) (a1 : ℕ) :
    MemOk s (cmdStart s a1) := by
  delta cmdStart
  repeat' (first
    | with_reducible exact MemOk.refl _
    | with_reducible assumption
    | with_reducible apply MemOk.step (cmdBegin_memOk _ _ _) ?_
    | with_reducible apply MemOk.step (cmdComplete_memOk _ _ _ _ _) ?_
    | (extract_lets +onlyGivenNames x; (with_reducible apply MemOk.cut x ?_ ?_); (on_goal 1 => (unfold x; clear x)); (on_goal 2 => (intro hx; clear_value x)))
    | (extract_lets +onlyGivenNames x; clear_value x)
    | (extract_lets +onlyGivenNames x; unfold x; clear x)
    | split)

theorem coldState_memOk (s : State) (a1 : ℕ) :
    MemOk s (coldState s a1) := by
  unfold MemOk
  exact fun _ => rfl

theorem powerOff_memOk (s : State) :
    MemOk s (powerOff s) := by
  delta powerOff
  repeat' (first
    | with_reducible exact MemOk.refl _
    | with_reducible assumption
    | with_reducible apply MemOk.step (coldState_memOk _ _) ?_
    | (extract_lets +onlyGivenNames x; (with_reducible apply MemOk.cut x ?_ ?_); (on_goal 1 => (unfold x; clear x)); (on_goal 2 => (intro hx; clear_value x)))
    | (extract_lets +onlyGivenNames x; clear_value x)
    | (extract_lets +onlyGivenNames x; unfold x; clear x)
    | split)

theorem collapseRun_memOk (s : State) :
    MemOk s (collapseRun s) := by
  delta collapseRun
  repeat' (first
    | with_reducible exact MemOk.refl _
    | with_reducible assumption
    | with_reducible apply MemOk.step (powerOff_memOk _) ?_
    | ((with_reducible apply MemOk.ofSame ?_ (storeDrop_same _) ?_); on_goal 1 => rfl)
    | (extract_lets +onlyGivenNames x; (with_reducible apply MemOk.cut x ?_ ?_); (on_goal 1 => (unfold x; clear x)); (on_goal 2 => (intro hx; clear_value x)))
    | (extract_lets +onlyGivenNames x; clear_value x)
    | (extract_lets +onlyGivenNames x; unfold x; clear x)
    | split)

theorem corrDue_memOk (s : State) (a1 : ℕ) (a2 : ℕ) (a3 : Bool) (a4 : ℕ) :
    MemOk s (corrDue s a1 a2 a3 a4) := by
  delta corrDue
  repeat' (first
    | with_reducible exact MemOk.refl _
    | with_reducible assumption
    | ((with_reducible apply MemOk.ofSame ?_ (corrSend_same _ _ _ _) ?_); on_goal 1 => rfl)
    | with_reducible apply MemOk.step (owedRun_memOk _) ?_
    | ((with_reducible apply MemOk.ofSame ?_ (setLane_same _ _ _) ?_); on_goal 1 => rfl)
    | (extract_lets +onlyGivenNames x; (with_reducible apply MemOk.cut x ?_ ?_); (on_goal 1 => (unfold x; clear x)); (on_goal 2 => (intro hx; clear_value x)))
    | (extract_lets +onlyGivenNames x; clear_value x)
    | (extract_lets +onlyGivenNames x; unfold x; clear x)
    | split)

theorem dmaExec_memOk (s : State) (a1 : ℕ) (a2 : DmaSide) (a3 : DmaSide) :
    MemOk s (dmaExec s a1 a2 a3) := by
  delta dmaExec
  repeat' (first
    | with_reducible exact MemOk.refl _
    | with_reducible assumption
    | with_reducible apply MemOk.step (dmaRun_memOk _ _ _ _ _) ?_
    | (extract_lets +onlyGivenNames x; (with_reducible apply MemOk.cut x ?_ ?_); (on_goal 1 => (unfold x; clear x)); (on_goal 2 => (intro hx; clear_value x)))
    | (extract_lets +onlyGivenNames x; clear_value x)
    | (extract_lets +onlyGivenNames x; unfold x; clear x)
    | split)

theorem dmaFetch_memOk (s : State) (a1 : ℕ) (a2 : List Byte) :
    MemOk s (dmaFetch s a1 a2) := by
  delta dmaFetch
  repeat' (first
    | with_reducible exact MemOk.refl _
    | with_reducible assumption
    | ((with_reducible apply MemOk.ofSame ?_ (curSet_same _ _ _ _) ?_); on_goal 1 => rfl)
    | ((with_reducible apply MemOk.ofSame ?_ (setDma_same _ _ _) ?_); on_goal 1 => rfl)
    | ((with_reducible apply MemOk.ofSame ?_ (bump_same _ _ _) ?_); on_goal 1 => rfl)
    | with_reducible apply MemOk.step (dmaRead_memOk _ _ _ _ _) ?_
    | ((with_reducible apply MemOk.ofSame ?_ (orBits_same _ _ _) ?_); on_goal 1 => rfl)
    | ((with_reducible apply MemOk.ofSame ?_ (dmaGrant_same _ _) ?_); on_goal 1 => rfl)
    | ((with_reducible apply MemOk.ofSame ?_ (wL_same _ _ _ _) ?_); on_goal 1 => rfl)
    | ((with_reducible apply MemOk.ofSame ?_ (raiseDma_same _ _ _ _) ?_); on_goal 1 => rfl)
    | (extract_lets +onlyGivenNames x; (with_reducible apply MemOk.cut x ?_ ?_); (on_goal 1 => (unfold x; clear x)); (on_goal 2 => (intro hx; clear_value x)))
    | (extract_lets +onlyGivenNames x; (with_reducible apply MemOk.cut x.1 ?_ ?_); (on_goal 1 => (unfold x; clear x)); (on_goal 2 => (intro hx; clear_value x)))
    | (extract_lets +onlyGivenNames x; clear_value x)
    | (extract_lets +onlyGivenNames x; unfold x; clear x)
    | with_reducible refine MemOk.ofFst (by assumption) ?_
    | split)

theorem enterSafe_memOk (s : State) (a1 : ℕ) (a2 : ℕ) :
    MemOk s (enterSafe s a1 a2) := by
  delta enterSafe
  repeat' (first
    | with_reducible exact MemOk.refl _
    | with_reducible assumption
    | ((with_reducible apply MemOk.ofSame ?_ (clrBits_same _ _ _) ?_); on_goal 1 => rfl)
    | ((with_reducible apply MemOk.ofSame ?_ (holdoverOff_same _) ?_); on_goal 1 => rfl)
    | ((with_reducible apply MemOk.ofSame ?_ (dmaPauseOn_same _ _) ?_); on_goal 1 => rfl)
    | ((with_reducible apply MemOk.ofSame ?_ (wb_same _ _ _ _ _) ?_); on_goal 1 => rfl)
    | ((with_reducible apply MemOk.ofSame ?_ (calReq_same _ _ _ _) ?_); on_goal 1 => rfl)
    | ((with_reducible apply MemOk.ofSame ?_ (syncDrop_same _) ?_); on_goal 1 => rfl)
    | ((with_reducible apply MemOk.ofSame ?_ (setDp_same _ _ _) ?_); on_goal 1 => rfl)
    | ((with_reducible apply MemOk.ofSame ?_ (storeCommit_same _) ?_); on_goal 1 => rfl)
    | ((with_reducible apply MemOk.ofSame ?_ (scSafe_same _ _) ?_); on_goal 1 => rfl)
    | ((with_reducible apply MemOk.ofSame ?_ (fodSafe_same _ _) ?_); on_goal 1 => rfl)
    | ((with_reducible apply MemOk.ofSame ?_ (wr_same _ _ _) ?_); on_goal 1 => rfl)
    | ((with_reducible apply MemOk.ofSame ?_ (slewHalt_same _) ?_); on_goal 1 => rfl)
    | with_reducible apply MemOk.step (cmdEnd_memOk _ _ _) ?_
    | ((with_reducible apply MemOk.ofSame ?_ (lineEval_same _) ?_); on_goal 1 => rfl)
    | ((with_reducible apply MemOk.ofSame ?_ (setPort_same _ _ _) ?_); on_goal 1 => rfl)
    | ((with_reducible apply MemOk.ofSame ?_ (seqHaltAs_same _ _ _) ?_); on_goal 1 => rfl)
    | with_reducible apply MemOk.upto ?_ ?_
    | with_reducible apply MemOk.foldl ?_ ?_
    | (extract_lets +onlyGivenNames x; (with_reducible apply MemOk.cut x ?_ ?_); (on_goal 1 => (unfold x; clear x)); (on_goal 2 => (intro hx; clear_value x)))
    | (extract_lets +onlyGivenNames x; clear_value x)
    | (extract_lets +onlyGivenNames x; unfold x; clear x)
    | intro _
    | split
    | with_reducible apply MemOk.put_fcol ?_
    | with_reducible apply MemOk.put_cal ?_)

theorem eventIn_memOk (s : State) (a1 : ℕ) (a2 : EventMsg) :
    MemOk s (eventIn s a1 a2) := by
  delta eventIn
  repeat' (first
    | with_reducible exact MemOk.refl _
    | with_reducible assumption
    | ((with_reducible apply MemOk.ofSame ?_ (bump_same _ _ _) ?_); on_goal 1 => rfl)
    | ((with_reducible apply MemOk.ofSame ?_ (noteEgress_same _ _ _) ?_); on_goal 1 => rfl)
    | ((with_reducible apply MemOk.ofSame ?_ (stampEvent_same _ _ _) ?_); on_goal 1 => rfl)
    | ((with_reducible apply MemOk.ofSame ?_ (setLane_same _ _ _) ?_); on_goal 1 => rfl)
    | with_reducible apply MemOk.step (closePend_memOk _ _) ?_
    | with_reducible apply MemOk.step (finishSlot_memOk _ _ _) ?_
    | ((with_reducible apply MemOk.ofSame ?_ (raise_same _ _ _ _ _ _) ?_); on_goal 1 => rfl)
    | (extract_lets +onlyGivenNames x; (with_reducible apply MemOk.cut x ?_ ?_); (on_goal 1 => (unfold x; clear x)); (on_goal 2 => (intro hx; clear_value x)))
    | (extract_lets +onlyGivenNames x; (with_reducible apply MemOk.cut x.1 ?_ ?_); (on_goal 1 => (unfold x; clear x)); (on_goal 2 => (intro hx; clear_value x)))
    | (extract_lets +onlyGivenNames x; (with_reducible apply MemOk.cut x.2 ?_ ?_); (on_goal 1 => (unfold x; clear x)); (on_goal 2 => (intro hx; clear_value x)))
    | (extract_lets +onlyGivenNames x; clear_value x)
    | (extract_lets +onlyGivenNames x; unfold x; clear x)
    | intro _
    | with_reducible refine MemOk.ofFst (by assumption) ?_
    | with_reducible refine MemOk.ofSnd (by assumption) ?_
    | split)

theorem supplyRec_memOk (s : State) (a1 : ℕ) (a2 : ℕ) (a3 : ℕ) (a4 : ℕ) (a5 : ℕ) (a6 : ℕ) (a7 : ℕ) (a8 : ℕ) :
    MemOk s (supplyRec s a1 a2 a3 a4 a5 a6 a7 a8) := by
  delta supplyRec
  repeat' (first
    | with_reducible exact MemOk.refl _
    | with_reducible assumption
    | with_reducible apply MemOk.step (presentInternal_memOk _ _ _ _ _ _ _ _ _ _ _) ?_
    | ((with_reducible apply MemOk.ofSame ?_ (event_same _ _) ?_); on_goal 1 => rfl)
    | (extract_lets +onlyGivenNames x; (with_reducible apply MemOk.cut x ?_ ?_); (on_goal 1 => (unfold x; clear x)); (on_goal 2 => (intro hx; clear_value x)))
    | (extract_lets +onlyGivenNames x; clear_value x)
    | (extract_lets +onlyGivenNames x; unfold x; clear x)
    | split)

theorem evtEnd_memOk (s : State) :
    MemOk s (evtEnd s) := by
  delta evtEnd
  repeat' (first
    | with_reducible exact MemOk.refl _
    | with_reducible assumption
    | ((with_reducible apply MemOk.ofSame ?_ (bump_same _ _ _) ?_); on_goal 1 => rfl)
    | ((with_reducible apply MemOk.ofSame ?_ (orBits_same _ _ _) ?_); on_goal 1 => rfl)
    | with_reducible apply MemOk.step (supplyRec_memOk _ _ _ _ _ _ _ _ _) ?_
    | (extract_lets +onlyGivenNames x; (with_reducible apply MemOk.cut x ?_ ?_); (on_goal 1 => (unfold x; clear x)); (on_goal 2 => (intro hx; clear_value x)))
    | (extract_lets +onlyGivenNames x; clear_value x)
    | (extract_lets +onlyGivenNames x; unfold x; clear x)
    | split
    | with_reducible apply MemOk.put_pwr ?_)

theorem evtStart_memOk (s : State) (a1 : ℕ) (a2 : ℕ) :
    MemOk s (evtStart s a1 a2) := by
  delta evtStart
  repeat' (first
    | with_reducible exact MemOk.refl _
    | with_reducible assumption
    | with_reducible apply MemOk.step (supplyRec_memOk _ _ _ _ _ _ _ _ _) ?_
    | (extract_lets +onlyGivenNames x; (with_reducible apply MemOk.cut x ?_ ?_); (on_goal 1 => (unfold x; clear x)); (on_goal 2 => (intro hx; clear_value x)))
    | (extract_lets +onlyGivenNames x; clear_value x)
    | (extract_lets +onlyGivenNames x; unfold x; clear x)
    | split
    | with_reducible apply MemOk.put_pwr ?_)

theorem evtCheck_memOk (s : State) :
    MemOk s (evtCheck s) := by
  delta evtCheck
  repeat' (first
    | with_reducible exact MemOk.refl _
    | with_reducible assumption
    | with_reducible apply MemOk.step (evtEnd_memOk _) ?_
    | with_reducible apply MemOk.step (evtStart_memOk _ _ _) ?_
    | (extract_lets +onlyGivenNames x; (with_reducible apply MemOk.cut x ?_ ?_); (on_goal 1 => (unfold x; clear x)); (on_goal 2 => (intro hx; clear_value x)))
    | (extract_lets +onlyGivenNames x; clear_value x)
    | (extract_lets +onlyGivenNames x; unfold x; clear x)
    | split
    | with_reducible apply MemOk.put_pwr ?_)

theorem fwdTake_memOk (s : State) (a1 : FwdMsg) :
    MemOk s (fwdTake s a1) := by
  delta fwdTake
  repeat' (first
    | with_reducible exact MemOk.refl _
    | with_reducible assumption
    | ((with_reducible apply MemOk.ofSame ?_ (bump_same _ _ _) ?_); on_goal 1 => rfl)
    | ((with_reducible apply MemOk.ofSame ?_ (rxNote_same _ _) ?_); on_goal 1 => rfl)
    | with_reducible apply MemOk.step (busWrite_memOk _ _ _ _ _) ?_
    | with_reducible apply MemOk.step (cmdAccess_memOk _ _ _ _ _ _) ?_
    | (extract_lets +onlyGivenNames x; (with_reducible apply MemOk.cut x ?_ ?_); (on_goal 1 => (unfold x; clear x)); (on_goal 2 => (intro hx; clear_value x)))
    | (extract_lets +onlyGivenNames x; (with_reducible apply MemOk.cut x.1 ?_ ?_); (on_goal 1 => (unfold x; clear x)); (on_goal 2 => (intro hx; clear_value x)))
    | (extract_lets +onlyGivenNames x; clear_value x)
    | (extract_lets +onlyGivenNames x; unfold x; clear x)
    | with_reducible refine MemOk.ofFst (by assumption) ?_
    | split)

theorem handover_memOk (s : State) :
    MemOk s (handover s) := by
  delta handover
  repeat' (first
    | with_reducible exact MemOk.refl _
    | with_reducible assumption
    | ((with_reducible apply MemOk.ofSame ?_ (orBits_same _ _ _) ?_); on_goal 1 => rfl)
    | with_reducible apply MemOk.step (giveActivity_memOk _) ?_
    | ((with_reducible apply MemOk.ofSame ?_ (nrEval_same _) ?_); on_goal 1 => rfl)
    | (extract_lets +onlyGivenNames x; (with_reducible apply MemOk.cut x ?_ ?_); (on_goal 1 => (unfold x; clear x)); (on_goal 2 => (intro hx; clear_value x)))
    | (extract_lets +onlyGivenNames x; clear_value x)
    | (extract_lets +onlyGivenNames x; unfold x; clear x)
    | split
    | with_reducible apply MemOk.put_mate ?_)

theorem itemApply_memOk (s : State) (a1 : ImageItem) :
    MemOk s (itemApply s a1) := by
  delta itemApply
  repeat' (first
    | with_reducible exact MemOk.refl _
    | with_reducible assumption
    | with_reducible apply MemOk.step (setMb_memOk _ _ _) ?_
    | ((with_reducible apply MemOk.ofSame ?_ (screedTake_same _ _ _ _) ?_); on_goal 1 => rfl)
    | ((with_reducible apply MemOk.ofSame ?_ (hopsTake_same _ _ _) ?_); on_goal 1 => rfl)
    | (extract_lets +onlyGivenNames x; (with_reducible apply MemOk.cut x ?_ ?_); (on_goal 1 => (unfold x; clear x)); (on_goal 2 => (intro hx; clear_value x)))
    | (extract_lets +onlyGivenNames x; clear_value x)
    | (extract_lets +onlyGivenNames x; unfold x; clear x)
    | split
    | with_reducible apply MemOk.put_scr ?_)

theorem memoryApply_memOk (s : State) (a1 : List ImageItem) :
    MemOk s (memoryApply s a1) := by
  delta memoryApply
  repeat' (first
    | with_reducible exact MemOk.refl _
    | with_reducible assumption
    | with_reducible apply MemOk.step (itemApply_memOk _ _) ?_
    | with_reducible apply MemOk.foldl ?_ ?_
    | (extract_lets +onlyGivenNames x; (with_reducible apply MemOk.cut x ?_ ?_); (on_goal 1 => (unfold x; clear x)); (on_goal 2 => (intro hx; clear_value x)))
    | (extract_lets +onlyGivenNames x; clear_value x)
    | (extract_lets +onlyGivenNames x; unfold x; clear x)
    | intro _
    | split
    | with_reducible apply MemOk.filter _ ?_)

theorem imageRun_memOk (s : State) :
    MemOk s (imageRun s) := by
  delta imageRun
  repeat' (first
    | with_reducible exact MemOk.refl _
    | with_reducible assumption
    | with_reducible apply MemOk.step (applyMerged_memOk _ _ _) ?_
    | with_reducible apply MemOk.step (memoryApply_memOk _ _) ?_
    | ((with_reducible apply MemOk.ofSame ?_ (renumber_same _ _) ?_); on_goal 1 => rfl)
    | ((with_reducible apply MemOk.ofSame ?_ (coreRestart_same _ _) ?_); on_goal 1 => rfl)
    | ((with_reducible apply MemOk.ofSame ?_ (nrEval_same _) ?_); on_goal 1 => rfl)
    | ((with_reducible apply MemOk.ofSame ?_ (seqHaltAs_same _ _ _) ?_); on_goal 1 => rfl)
    | with_reducible apply MemOk.upto ?_ ?_
    | (extract_lets +onlyGivenNames x; (with_reducible apply MemOk.cut x ?_ ?_); (on_goal 1 => (unfold x; clear x)); (on_goal 2 => (intro hx; clear_value x)))
    | (extract_lets +onlyGivenNames x; clear_value x)
    | (extract_lets +onlyGivenNames x; unfold x; clear x)
    | intro _
    | split
    | with_reducible apply MemOk.put_mate ?_)

theorem postLand_memOk (s : State) (a1 : ℕ) :
    MemOk s (postLand s a1) := by
  delta postLand
  repeat' (first
    | with_reducible exact MemOk.refl _
    | with_reducible assumption
    | ((with_reducible apply MemOk.ofSame ?_ (storeVal_same _ _ _ _ _) ?_); on_goal 1 => rfl)
    | with_reducible apply MemOk.step (regFx_memOk _ _ _ _ _ _ _) ?_
    | (extract_lets +onlyGivenNames x; (with_reducible apply MemOk.cut x ?_ ?_); (on_goal 1 => (unfold x; clear x)); (on_goal 2 => (intro hx; clear_value x)))
    | (extract_lets +onlyGivenNames x; (with_reducible apply MemOk.cut x.1 ?_ ?_); (on_goal 1 => (unfold x; clear x)); (on_goal 2 => (intro hx; clear_value x)))
    | (extract_lets +onlyGivenNames x; clear_value x)
    | (extract_lets +onlyGivenNames x; unfold x; clear x)
    | with_reducible refine MemOk.ofFst (by assumption) ?_
    | split
    | with_reducible apply MemOk.put_posted ?_
    | with_reducible apply MemOk.put_landed ?_)

theorem regPut_memOk (s : State) (a1 : ℕ) (a2 : ℕ) (a3 : ℕ) :
    MemOk s (regPut s a1 a2 a3) := by
  delta regPut
  repeat' (first
    | with_reducible exact MemOk.refl _
    | with_reducible assumption
    | with_reducible apply MemOk.step (busWrite_memOk _ _ _ _ _) ?_
    | (extract_lets +onlyGivenNames x; (with_reducible apply MemOk.cut x ?_ ?_); (on_goal 1 => (unfold x; clear x)); (on_goal 2 => (intro hx; clear_value x)))
    | (extract_lets +onlyGivenNames x; (with_reducible apply MemOk.cut x.1 ?_ ?_); (on_goal 1 => (unfold x; clear x)); (on_goal 2 => (intro hx; clear_value x)))
    | (extract_lets +onlyGivenNames x; clear_value x)
    | (extract_lets +onlyGivenNames x; unfold x; clear x)
    | with_reducible refine MemOk.ofFst (by assumption) ?_
    | split)

theorem injectWrites_memOk (s : State) (a1 : ℕ) (a2 : ℕ) (a3 : ℕ) (a4 : ℕ) :
    MemOk s (injectWrites s a1 a2 a3 a4) := by
  delta injectWrites
  repeat' (first
    | with_reducible exact MemOk.refl _
    | with_reducible assumption
    | with_reducible apply MemOk.step (postLand_memOk _ _) ?_
    | with_reducible apply MemOk.step (regPut_memOk _ _ _ _) ?_
    | (extract_lets +onlyGivenNames x; (with_reducible apply MemOk.cut x ?_ ?_); (on_goal 1 => (unfold x; clear x)); (on_goal 2 => (intro hx; clear_value x)))
    | (extract_lets +onlyGivenNames x; clear_value x)
    | (extract_lets +onlyGivenNames x; unfold x; clear x)
    | split)

theorem presentFault_memOk (s : State) (a1 : Report) (a2 : ℕ) (a3 : Bool) (a4 : Bool) (a5 : ℕ) :
    MemOk s (presentFault s a1 a2 a3 a4 a5) := by
  delta presentFault
  repeat' (first
    | with_reducible exact MemOk.refl _
    | with_reducible assumption
    | ((with_reducible apply MemOk.ofSame ?_ (bump_same _ _ _) ?_); on_goal 1 => rfl)
    | ((with_reducible apply MemOk.ofSame ?_ (orBits_same _ _ _) ?_); on_goal 1 => rfl)
    | with_reducible apply MemOk.step (ringPresent_memOk _ _ _ _) ?_
    | (extract_lets +onlyGivenNames x; (with_reducible apply MemOk.cut x ?_ ?_); (on_goal 1 => (unfold x; clear x)); (on_goal 2 => (intro hx; clear_value x)))
    | (extract_lets +onlyGivenNames x; (with_reducible apply MemOk.cut x.1 ?_ ?_); (on_goal 1 => (unfold x; clear x)); (on_goal 2 => (intro hx; clear_value x)))
    | (extract_lets +onlyGivenNames x; clear_value x)
    | (extract_lets +onlyGivenNames x; unfold x; clear x)
    | with_reducible refine MemOk.ofFst (by assumption) ?_
    | split
    | with_reducible apply MemOk.put_fcol ?_)

theorem react_memOk (s : State) (a1 : Report) (a2 : ℕ) (a3 : ℕ) (a4 : Bool) :
    MemOk s (react s a1 a2 a3 a4) := by
  delta react
  repeat' (first
    | with_reducible exact MemOk.refl _
    | with_reducible assumption
    | ((with_reducible apply MemOk.ofSame ?_ (sendMsix_same _ _) ?_); on_goal 1 => rfl)
    | with_reducible apply MemOk.step (presentFault_memOk _ _ _ _ _ _) ?_
    | ((with_reducible apply MemOk.ofSame ?_ (fence_same _ _) ?_); on_goal 1 => rfl)
    | with_reducible apply MemOk.step (enterSafe_memOk _ _ _) ?_
    | with_reducible apply MemOk.step (handover_memOk _) ?_
    | ((with_reducible apply MemOk.ofSame ?_ (noteKind_same _ _) ?_); on_goal 1 => rfl)
    | ((with_reducible apply MemOk.ofSame ?_ (setPend_same _ _ _) ?_); on_goal 1 => rfl)
    | ((with_reducible apply MemOk.ofSame ?_ (event_same _ _) ?_); on_goal 1 => rfl)
    | ((with_reducible apply MemOk.ofSame ?_ (firstError_same _ _ _) ?_); on_goal 1 => rfl)
    | (extract_lets +onlyGivenNames x; (with_reducible apply MemOk.cut x ?_ ?_); (on_goal 1 => (unfold x; clear x)); (on_goal 2 => (intro hx; clear_value x)))
    | (extract_lets +onlyGivenNames x; (with_reducible apply MemOk.cut x.1 ?_ ?_); (on_goal 1 => (unfold x; clear x)); (on_goal 2 => (intro hx; clear_value x)))
    | (extract_lets +onlyGivenNames x; clear_value x)
    | (extract_lets +onlyGivenNames x; unfold x; clear x)
    | with_reducible refine MemOk.ofFst (by assumption) ?_
    | split)

theorem shadowReact_memOk (s : State) (a1 : Report) (a2 : ℕ) (a3 : ℕ) :
    MemOk s (shadowReact s a1 a2 a3) := by
  delta shadowReact
  repeat' (first
    | with_reducible exact MemOk.refl _
    | with_reducible assumption
    | ((with_reducible apply MemOk.ofSame ?_ (bump_same _ _ _) ?_); on_goal 1 => rfl)
    | with_reducible apply MemOk.step (presentFault_memOk _ _ _ _ _ _) ?_
    | ((with_reducible apply MemOk.ofSame ?_ (noteKind_same _ _) ?_); on_goal 1 => rfl)
    | (extract_lets +onlyGivenNames x; (with_reducible apply MemOk.cut x ?_ ?_); (on_goal 1 => (unfold x; clear x)); (on_goal 2 => (intro hx; clear_value x)))
    | (extract_lets +onlyGivenNames x; clear_value x)
    | (extract_lets +onlyGivenNames x; unfold x; clear x)
    | split)

theorem intake_memOk (s : State) :
    MemOk s (intake s) := by
  delta intake
  repeat' (first
    | with_reducible exact MemOk.refl _
    | with_reducible assumption
    | ((with_reducible apply MemOk.ofSame ?_ (bump_same _ _ _) ?_); on_goal 1 => rfl)
    | ((with_reducible apply MemOk.ofSame ?_ (orBits_same _ _ _) ?_); on_goal 1 => rfl)
    | with_reducible apply MemOk.step (react_memOk _ _ _ _ _) ?_
    | ((with_reducible apply MemOk.ofSame ?_ (openWindow_same _ _) ?_); on_goal 1 => rfl)
    | with_reducible apply MemOk.step (shadowReact_memOk _ _ _ _) ?_
    | with_reducible apply MemOk.foldl ?_ ?_
    | (extract_lets +onlyGivenNames x; (with_reducible apply MemOk.cut x ?_ ?_); (on_goal 1 => (unfold x; clear x)); (on_goal 2 => (intro hx; clear_value x)))
    | (extract_lets +onlyGivenNames x; clear_value x)
    | (extract_lets +onlyGivenNames x; unfold x; clear x)
    | intro _
    | split
    | with_reducible apply MemOk.put_fcol ?_)

theorem landAll_memOk (s : State) (a1 : ℕ) :
    MemOk s (landAll s a1) := by
  delta landAll
  repeat' (first
    | with_reducible exact MemOk.refl _
    | with_reducible assumption
    | with_reducible apply MemOk.step (postLand_memOk _ _) ?_
    | with_reducible apply MemOk.foldl ?_ ?_
    | (extract_lets +onlyGivenNames x; (with_reducible apply MemOk.cut x ?_ ?_); (on_goal 1 => (unfold x; clear x)); (on_goal 2 => (intro hx; clear_value x)))
    | (extract_lets +onlyGivenNames x; clear_value x)
    | (extract_lets +onlyGivenNames x; unfold x; clear x)
    | intro _
    | split)

theorem loadDone_memOk (s : State) :
    MemOk s (loadDone s) := by
  delta loadDone
  repeat' (first
    | with_reducible exact MemOk.refl _
    | with_reducible assumption
    | ((with_reducible apply MemOk.ofSame ?_ (groupEval_same _) ?_); on_goal 1 => rfl)
    | ((with_reducible apply MemOk.ofSame ?_ (planCopy_same _) ?_); on_goal 1 => rfl)
    | ((with_reducible apply MemOk.ofSame ?_ (orBits_same _ _ _) ?_); on_goal 1 => rfl)
    | ((with_reducible apply MemOk.ofSame ?_ (portDlyApply_same _ _) ?_); on_goal 1 => rfl)
    | ((with_reducible apply MemOk.ofSame ?_ (loadReport_same _ _) ?_); on_goal 1 => rfl)
    | ((with_reducible apply MemOk.ofSame ?_ (scWakeEval_same _) ?_); on_goal 1 => rfl)
    | with_reducible apply MemOk.step (screedApply_memOk _ _) ?_
    | ((with_reducible apply MemOk.ofSame ?_ (logStart_same _) ?_); on_goal 1 => rfl)
    | ((with_reducible apply MemOk.ofSame ?_ (nvsShow_same _) ?_); on_goal 1 => rfl)
    | with_reducible apply MemOk.step (configApply_memOk _ _) ?_
    | with_reducible apply MemOk.foldl ?_ ?_
    | (extract_lets +onlyGivenNames x; (with_reducible apply MemOk.cut x ?_ ?_); (on_goal 1 => (unfold x; clear x)); (on_goal 2 => (intro hx; clear_value x)))
    | (extract_lets +onlyGivenNames x; clear_value x)
    | (extract_lets +onlyGivenNames x; unfold x; clear x)
    | intro _
    | split
    | with_reducible apply MemOk.put_cal ?_
    | with_reducible apply MemOk.put_pwr_nvsLoaded ?_)

theorem presentCapture_memOk (s : State) (a1 : ℕ) (a2 : ESlot) (a3 : Option ℕ) (a4 : ℕ) (a5 : Option Parsed) :
    MemOk s (presentCapture s a1 a2 a3 a4 a5) := by
  delta presentCapture
  repeat' (first
    | with_reducible exact MemOk.refl _
    | with_reducible assumption
    | ((with_reducible apply MemOk.ofSame ?_ (setIng_same _ _) ?_); on_goal 1 => rfl)
    | with_reducible apply MemOk.step (ringPresent_memOk _ _ _ _) ?_
    | (extract_lets +onlyGivenNames x; (with_reducible apply MemOk.cut x ?_ ?_); (on_goal 1 => (unfold x; clear x)); (on_goal 2 => (intro hx; clear_value x)))
    | (extract_lets +onlyGivenNames x; (with_reducible apply MemOk.cut x.1 ?_ ?_); (on_goal 1 => (unfold x; clear x)); (on_goal 2 => (intro hx; clear_value x)))
    | (extract_lets +onlyGivenNames x; clear_value x)
    | (extract_lets +onlyGivenNames x; unfold x; clear x)
    | with_reducible refine MemOk.ofFst (by assumption) ?_
    | split)

theorem lookup_memOk (s : State) (a1 : ℕ) (a2 : ESlot) :
    MemOk s (lookup s a1 a2) := by
  delta lookup
  repeat' (first
    | with_reducible exact MemOk.refl _
    | with_reducible assumption
    | ((with_reducible apply MemOk.ofSame ?_ (bump_same _ _ _) ?_); on_goal 1 => rfl)
    | with_reducible apply MemOk.step (presentCapture_memOk _ _ _ _ _ _) ?_
    | ((with_reducible apply MemOk.ofSame ?_ (setIng_same _ _) ?_); on_goal 1 => rfl)
    | (extract_lets +onlyGivenNames x; (with_reducible apply MemOk.cut x ?_ ?_); (on_goal 1 => (unfold x; clear x)); (on_goal 2 => (intro hx; clear_value x)))
    | (extract_lets +onlyGivenNames x; clear_value x)
    | (extract_lets +onlyGivenNames x; unfold x; clear x)
    | split)

theorem lookupRun_memOk (s : State) (a1 : ℕ) (a2 : ℕ) (a3 : Bool) :
    MemOk s (lookupRun s a1 a2 a3) := by
  delta lookupRun
  repeat' (first
    | with_reducible exact MemOk.refl _
    | with_reducible assumption
    | with_reducible apply MemOk.step (lookup_memOk _ _ _) ?_
    | ((with_reducible apply MemOk.ofSame ?_ (setLane_same _ _ _) ?_); on_goal 1 => rfl)
    | (extract_lets +onlyGivenNames x; (with_reducible apply MemOk.cut x ?_ ?_); (on_goal 1 => (unfold x; clear x)); (on_goal 2 => (intro hx; clear_value x)))
    | (extract_lets +onlyGivenNames x; clear_value x)
    | (extract_lets +onlyGivenNames x; unfold x; clear x)
    | split)

theorem mateLine_memOk (s : State) (a1 : Bool) (a2 : Bool) :
    MemOk s (mateLine s a1 a2) := by
  delta mateLine
  repeat' (first
    | with_reducible exact MemOk.refl _
    | with_reducible assumption
    | ((with_reducible apply MemOk.ofSame ?_ (ownAll_same _) ?_); on_goal 1 => rfl)
    | ((with_reducible apply MemOk.ofSame ?_ (mateEval_same _) ?_); on_goal 1 => rfl)
    | ((with_reducible apply MemOk.ofSame ?_ (event_same _ _) ?_); on_goal 1 => rfl)
    | with_reducible apply MemOk.step (claimRole_memOk _) ?_
    | with_reducible apply MemOk.step (splitCheck_memOk _) ?_
    | (extract_lets +onlyGivenNames x; (with_reducible apply MemOk.cut x ?_ ?_); (on_goal 1 => (unfold x; clear x)); (on_goal 2 => (intro hx; clear_value x)))
    | (extract_lets +onlyGivenNames x; clear_value x)
    | (extract_lets +onlyGivenNames x; unfold x; clear x)
    | split
    | with_reducible apply MemOk.put_mate ?_)

theorem mrstHigh_memOk (s : State) :
    MemOk s (mrstHigh s) := by
  delta mrstHigh
  repeat' (first
    | with_reducible exact MemOk.refl _
    | with_reducible assumption
    | with_reducible apply MemOk.step (startRow_memOk _) ?_
    | ((with_reducible apply MemOk.ofSame ?_ (seqStartCmd_same _ _) ?_); on_goal 1 => rfl)
    | with_reducible apply MemOk.upto ?_ ?_
    | (extract_lets +onlyGivenNames x; (with_reducible apply MemOk.cut x ?_ ?_); (on_goal 1 => (unfold x; clear x)); (on_goal 2 => (intro hx; clear_value x)))
    | (extract_lets +onlyGivenNames x; clear_value x)
    | (extract_lets +onlyGivenNames x; unfold x; clear x)
    | intro _
    | split
    | with_reducible apply MemOk.put_pwr ?_)

theorem porRun_memOk (s : State) :
    MemOk s (porRun s) := by
  delta porRun
  repeat' (first
    | with_reducible exact MemOk.refl _
    | with_reducible assumption
    | ((with_reducible apply MemOk.ofSame ?_ (storeDrop_same _) ?_); on_goal 1 => rfl)
    | ((with_reducible apply MemOk.ofSame ?_ (wr_same _ _ _) ?_); on_goal 1 => rfl)
    | with_reducible apply MemOk.step (coldState_memOk _ _) ?_
    | (extract_lets +onlyGivenNames x; (with_reducible apply MemOk.cut x ?_ ?_); (on_goal 1 => (unfold x; clear x)); (on_goal 2 => (intro hx; clear_value x)))
    | (extract_lets +onlyGivenNames x; clear_value x)
    | (extract_lets +onlyGivenNames x; unfold x; clear x)
    | split
    | with_reducible apply MemOk.put_pwr ?_)

theorem postLandTie_memOk (s : State) (a1 : ℕ) (a2 : Bool) :
    MemOk s (postLandTie s a1 a2) := by
  delta postLandTie
  repeat' (first
    | with_reducible exact MemOk.refl _
    | with_reducible assumption
    | with_reducible apply MemOk.step (postLand_memOk _ _) ?_
    | (extract_lets +onlyGivenNames x; (with_reducible apply MemOk.cut x ?_ ?_); (on_goal 1 => (unfold x; clear x)); (on_goal 2 => (intro hx; clear_value x)))
    | (extract_lets +onlyGivenNames x; clear_value x)
    | (extract_lets +onlyGivenNames x; unfold x; clear x)
    | split
    | with_reducible apply MemOk.put_cycle ?_)

theorem ppsEvent_memOk (s : State) (a1 : ℕ) (a2 : Bool) :
    MemOk s (ppsEvent s a1 a2) := by
  delta ppsEvent
  repeat' (first
    | with_reducible exact MemOk.refl _
    | with_reducible assumption
    | ((with_reducible apply MemOk.ofSame ?_ (bump_same _ _ _) ?_); on_goal 1 => rfl)
    | with_reducible apply MemOk.step (snapWake_memOk _) ?_
    | ((with_reducible apply MemOk.ofSame ?_ (emit_same _ _) ?_); on_goal 1 => rfl)
    | ((with_reducible apply MemOk.ofSame ?_ (event_same _ _) ?_); on_goal 1 => rfl)
    | ((with_reducible apply MemOk.ofSame ?_ (wr_same _ _ _) ?_); on_goal 1 => rfl)
    | ((with_reducible apply MemOk.ofSame ?_ (snapTrigger_same _ _ _ _) ?_); on_goal 1 => rfl)
    | with_reducible apply MemOk.upto ?_ ?_
    | (extract_lets +onlyGivenNames x; (with_reducible apply MemOk.cut x ?_ ?_); (on_goal 1 => (unfold x; clear x)); (on_goal 2 => (intro hx; clear_value x)))
    | (extract_lets +onlyGivenNames x; clear_value x)
    | (extract_lets +onlyGivenNames x; unfold x; clear x)
    | intro _
    | split
    | with_reducible apply MemOk.put_time ?_
    | with_reducible apply MemOk.put_snap ?_
    | with_reducible apply MemOk.put_free ?_)

theorem ppsNext_memOk (s : State) :
    MemOk s (ppsNext s) := by
  delta ppsNext
  repeat' (first
    | with_reducible exact MemOk.refl _
    | with_reducible assumption
    | with_reducible apply MemOk.step (ppsEvent_memOk _ _ _) ?_
    | (extract_lets +onlyGivenNames x; (with_reducible apply MemOk.cut x ?_ ?_); (on_goal 1 => (unfold x; clear x)); (on_goal 2 => (intro hx; clear_value x)))
    | (extract_lets +onlyGivenNames x; clear_value x)
    | (extract_lets +onlyGivenNames x; unfold x; clear x)
    | split
    | with_reducible apply MemOk.put_time ?_)

theorem regPutM_memOk (s : State) (a1 : ℕ) (a2 : ℕ) (a3 : ℕ) (a4 : ℕ) :
    MemOk s (regPutM s a1 a2 a3 a4) := by
  delta regPutM
  repeat' (first
    | with_reducible exact MemOk.refl _
    | with_reducible assumption
    | with_reducible apply MemOk.step (regPut_memOk _ _ _ _) ?_
    | (extract_lets +onlyGivenNames x; (with_reducible apply MemOk.cut x ?_ ?_); (on_goal 1 => (unfold x; clear x)); (on_goal 2 => (intro hx; clear_value x)))
    | (extract_lets +onlyGivenNames x; clear_value x)
    | (extract_lets +onlyGivenNames x; unfold x; clear x)
    | split)

theorem putHop_memOk (s : State) (a1 : ℕ) (a2 : ℕ) (a3 : ℕ) :
    MemOk s (putHop s a1 a2 a3) := by
  delta putHop
  repeat' (first
    | with_reducible exact MemOk.refl _
    | with_reducible assumption
    | with_reducible apply MemOk.step (regPutM_memOk _ _ _ _ _) ?_
    | with_reducible apply MemOk.upto ?_ ?_
    | (extract_lets +onlyGivenNames x; (with_reducible apply MemOk.cut x ?_ ?_); (on_goal 1 => (unfold x; clear x)); (on_goal 2 => (intro hx; clear_value x)))
    | (extract_lets +onlyGivenNames x; clear_value x)
    | (extract_lets +onlyGivenNames x; unfold x; clear x)
    | intro _
    | split)

theorem putM_memOk (s : State) (a1 : ℕ) (a2 : ℕ) (a3 : ℕ) (a4 : ℕ) :
    MemOk s (putM s a1 a2 a3 a4) := by
  induction a3 generalizing s a2 a4 with
  | zero => exact MemOk.refl _
  | succ k ih => exact (regPutM_memOk _ _ _ _ _).trans (ih _ _ _)

theorem queuedTime_memOk (a0 : ActKind → Bool) (s : State) :
    MemOk s (queuedTime a0 s) := by
  delta queuedTime
  repeat' (first
    | with_reducible exact MemOk.refl _
    | with_reducible assumption
    | with_reducible apply MemOk.step (aonRun_memOk _ _ _) ?_
    | (extract_lets +onlyGivenNames x; (with_reducible apply MemOk.cut x ?_ ?_); (on_goal 1 => (unfold x; clear x)); (on_goal 2 => (intro hx; clear_value x)))
    | (extract_lets +onlyGivenNames x; clear_value x)
    | (extract_lets +onlyGivenNames x; unfold x; clear x)
    | split)

theorem readOut_memOk (s : State) (a1 : ℕ) (a2 : ℕ) (a3 : ℕ) :
    MemOk s (readOut s a1 a2 a3) := by
  delta readOut
  repeat' (first
    | with_reducible exact MemOk.refl _
    | with_reducible assumption
    | ((with_reducible apply MemOk.ofSame ?_ (emit_same _ _) ?_); on_goal 1 => rfl)
    | with_reducible apply MemOk.step (busRead_memOk _ _ _ _) ?_
    | (extract_lets +onlyGivenNames x; (with_reducible apply MemOk.cut x ?_ ?_); (on_goal 1 => (unfold x; clear x)); (on_goal 2 => (intro hx; clear_value x)))
    | (extract_lets +onlyGivenNames x; (with_reducible apply MemOk.cut x.1 ?_ ?_); (on_goal 1 => (unfold x; clear x)); (on_goal 2 => (intro hx; clear_value x)))
    | (extract_lets +onlyGivenNames x; clear_value x)
    | (extract_lets +onlyGivenNames x; unfold x; clear x)
    | with_reducible refine MemOk.ofFst (by assumption) ?_
    | split)

theorem rideEnter_memOk (s : State) :
    MemOk s (rideEnter s) := by
  have h : MemOk s (orBits { s with
      pwr := { s.pwr with ride := some s.time.aon, yielded := false, stores := false, storesLeft := 0 }
      cmd := { s.cmd with own := s.cmd.own.filter (fun p => decide (p.1 ≠ 10)) } } (rPWR 4) 0x80020) :=
    MemOk.ofSame (by rfl) (orBits_same _ _ _) (MemOk.put_cmd_pwr (MemOk.refl _))
  refine MemOk.step (supplyRec_memOk _ _ _ _ _ _ _ _ _) (MemOk.ofSame (by rfl) (raise_same _ _ _ _ _ _) (MemOk.ofSame (by rfl) (bump_same _ _ _) ?_))
  split
  · exact h
  · exact MemOk.ofSame (by rfl) (setPwrState_same _ _) h

theorem rideCheck_memOk (s : State) (a1 : Bool) :
    MemOk s (rideCheck s a1) := by
  delta rideCheck
  repeat' (first
    | with_reducible exact MemOk.refl _
    | with_reducible assumption
    | ((with_reducible apply MemOk.ofSame ?_ (clrBits_same _ _ _) ?_); on_goal 1 => rfl)
    | ((with_reducible apply MemOk.ofSame ?_ (orBits_same _ _ _) ?_); on_goal 1 => rfl)
    | ((with_reducible apply MemOk.ofSame ?_ (raise_same _ _ _ _ _ _) ?_); on_goal 1 => rfl)
    | with_reducible apply MemOk.step (rideEnter_memOk _) ?_
    | (extract_lets +onlyGivenNames x; (with_reducible apply MemOk.cut x ?_ ?_); (on_goal 1 => (unfold x; clear x)); (on_goal 2 => (intro hx; clear_value x)))
    | (extract_lets +onlyGivenNames x; clear_value x)
    | (extract_lets +onlyGivenNames x; unfold x; clear x)
    | split)

theorem rideHand_memOk (s : State) :
    MemOk s (rideHand s) := by
  delta rideHand
  repeat' (first
    | with_reducible exact MemOk.refl _
    | with_reducible assumption
    | ((with_reducible apply MemOk.ofSame ?_ (orBits_same _ _ _) ?_); on_goal 1 => rfl)
    | with_reducible apply MemOk.step (mateYield_memOk _) ?_
    | (extract_lets +onlyGivenNames x; (with_reducible apply MemOk.cut x ?_ ?_); (on_goal 1 => (unfold x; clear x)); (on_goal 2 => (intro hx; clear_value x)))
    | (extract_lets +onlyGivenNames x; clear_value x)
    | (extract_lets +onlyGivenNames x; unfold x; clear x)
    | split
    | with_reducible apply MemOk.put_pwr ?_)

theorem rideLeave_memOk (s : State) :
    MemOk s (rideLeave s) := by
  delta rideLeave
  repeat' (first
    | with_reducible exact MemOk.refl _
    | with_reducible assumption
    | ((with_reducible apply MemOk.ofSame ?_ (clrBits_same _ _ _) ?_); on_goal 1 => rfl)
    | ((with_reducible apply MemOk.ofSame ?_ (setPwrState_same _ _) ?_); on_goal 1 => rfl)
    | with_reducible apply MemOk.step (supplyRec_memOk _ _ _ _ _ _ _ _ _) ?_
    | (extract_lets +onlyGivenNames x; (with_reducible apply MemOk.cut x ?_ ?_); (on_goal 1 => (unfold x; clear x)); (on_goal 2 => (intro hx; clear_value x)))
    | (extract_lets +onlyGivenNames x; clear_value x)
    | (extract_lets +onlyGivenNames x; unfold x; clear x)
    | split
    | with_reducible apply MemOk.put_pwr ?_)

theorem rideStore_memOk (s : State) (a1 : Bool) :
    MemOk s (rideStore s a1) := by
  delta rideStore
  repeat' (first
    | with_reducible exact MemOk.refl _
    | with_reducible assumption
    | ((with_reducible apply MemOk.ofSame ?_ (ownIssue_same _ _ _) ?_); on_goal 1 => rfl)
    | ((with_reducible apply MemOk.ofSame ?_ (raise_same _ _ _ _ _ _) ?_); on_goal 1 => rfl)
    | with_reducible apply MemOk.step (cmdEnd_memOk _ _ _) ?_
    | (extract_lets +onlyGivenNames x; (with_reducible apply MemOk.cut x ?_ ?_); (on_goal 1 => (unfold x; clear x)); (on_goal 2 => (intro hx; clear_value x)))
    | (extract_lets +onlyGivenNames x; clear_value x)
    | (extract_lets +onlyGivenNames x; unfold x; clear x)
    | split
    | with_reducible apply MemOk.put_cmd_pwr ?_)

theorem sealTake_memOk (s : State) (a1 : ℕ) (a2 : ℕ × Slot) :
    MemOk s (sealTake s a1 a2) := by
  delta sealTake
  repeat' (first
    | with_reducible exact MemOk.refl _
    | with_reducible assumption
    | with_reducible apply hwUpdate_memOk ?_ ?_
    | ((with_reducible apply MemOk.ofSame ?_ (wr_same _ _ _) ?_); on_goal 1 => rfl)
    | with_reducible apply MemOk.step (cmdComplete_memOk _ _ _ _ _) ?_
    | (extract_lets +onlyGivenNames x; (with_reducible apply MemOk.cut x ?_ ?_); (on_goal 1 => (unfold x; clear x)); (on_goal 2 => (intro hx; clear_value x)))
    | (extract_lets +onlyGivenNames x; clear_value x)
    | (extract_lets +onlyGivenNames x; unfold x; clear x)
    | intro _
    | split)

theorem sealEnd_memOk (s : State) :
    MemOk s (sealEnd s) := by
  delta sealEnd
  repeat' (first
    | with_reducible exact MemOk.refl _
    | with_reducible assumption
    | ((with_reducible apply MemOk.ofSame ?_ (wr_same _ _ _) ?_); on_goal 1 => rfl)
    | with_reducible apply MemOk.step (sealTake_memOk _ _ _) ?_
    | ((with_reducible apply MemOk.ofSame ?_ (sealCompare_same _ _) ?_); on_goal 1 => rfl)
    | with_reducible apply MemOk.foldl ?_ ?_
    | (extract_lets +onlyGivenNames x; (with_reducible apply MemOk.cut x ?_ ?_); (on_goal 1 => (unfold x; clear x)); (on_goal 2 => (intro hx; clear_value x)))
    | (extract_lets +onlyGivenNames x; clear_value x)
    | (extract_lets +onlyGivenNames x; unfold x; clear x)
    | intro _
    | split
    | with_reducible apply MemOk.put_seal ?_)

theorem seqRead_memOk (s : State) (a1 : ℕ) (a2 : ℕ) :
    MemOk s (seqRead s a1 a2).1 := by
  delta seqRead
  repeat' (first
    | with_reducible exact MemOk.refl _
    | with_reducible assumption
    | with_reducible apply MemOk.step (busRead_memOk _ _ _ _) ?_
    | (extract_lets +onlyGivenNames x; (with_reducible apply MemOk.cut x ?_ ?_); (on_goal 1 => (unfold x; clear x)); (on_goal 2 => (intro hx; clear_value x)))
    | (extract_lets +onlyGivenNames x; (with_reducible apply MemOk.cut x.1 ?_ ?_); (on_goal 1 => (unfold x; clear x)); (on_goal 2 => (intro hx; clear_value x)))
    | (extract_lets +onlyGivenNames x; clear_value x)
    | (extract_lets +onlyGivenNames x; unfold x; clear x)
    | with_reducible refine MemOk.ofFst (by assumption) ?_
    | split)

theorem shutdownRun_memOk (s : State) :
    MemOk s (shutdownRun s) := by
  delta shutdownRun
  repeat' (first
    | with_reducible exact MemOk.refl _
    | with_reducible assumption
    | with_reducible apply MemOk.step (powerOff_memOk _) ?_
    | ((with_reducible apply MemOk.ofSame ?_ (storeCommit_same _) ?_); on_goal 1 => rfl)
    | ((with_reducible apply MemOk.ofSame ?_ (rstRecord_same _ _ _ _ _) ?_); on_goal 1 => rfl)
    | ((with_reducible apply MemOk.ofSame ?_ (logWrite_same _) ?_); on_goal 1 => rfl)
    | (extract_lets +onlyGivenNames x; (with_reducible apply MemOk.cut x ?_ ?_); (on_goal 1 => (unfold x; clear x)); (on_goal 2 => (intro hx; clear_value x)))
    | (extract_lets +onlyGivenNames x; clear_value x)
    | (extract_lets +onlyGivenNames x; unfold x; clear x)
    | split)

theorem snapDue_memOk (s : State) :
    MemOk s (snapDue s) := by
  delta snapDue
  repeat' (first
    | with_reducible exact MemOk.refl _
    | with_reducible assumption
    | with_reducible apply MemOk.step (snapWake_memOk _) ?_
    | ((with_reducible apply MemOk.ofSame ?_ (snapActRun_same _ _ _ _ _) ?_); on_goal 1 => rfl)
    | ((with_reducible apply MemOk.ofSame ?_ (dropAct_same _ _ _) ?_); on_goal 1 => rfl)
    | (extract_lets +onlyGivenNames x; (with_reducible apply MemOk.cut x ?_ ?_); (on_goal 1 => (unfold x; clear x)); (on_goal 2 => (intro hx; clear_value x)))
    | (extract_lets +onlyGivenNames x; clear_value x)
    | (extract_lets +onlyGivenNames x; unfold x; clear x)
    | split)

theorem snapIn_memOk (s : State) (a1 : ℤ) :
    MemOk s (snapIn s a1) := by
  delta snapIn
  repeat' (first
    | with_reducible exact MemOk.refl _
    | with_reducible assumption
    | ((with_reducible apply MemOk.ofSame ?_ (bump_same _ _ _) ?_); on_goal 1 => rfl)
    | ((with_reducible apply MemOk.ofSame ?_ (snapAt_same _ _ _) ?_); on_goal 1 => rfl)
    | with_reducible apply MemOk.step (snapWake_memOk _) ?_
    | (extract_lets +onlyGivenNames x; (with_reducible apply MemOk.cut x ?_ ?_); (on_goal 1 => (unfold x; clear x)); (on_goal 2 => (intro hx; clear_value x)))
    | (extract_lets +onlyGivenNames x; clear_value x)
    | (extract_lets +onlyGivenNames x; unfold x; clear x)
    | split
    | with_reducible apply MemOk.put_snap ?_)

theorem snapTake_memOk (s : State) (a1 : SnapMsg) (a2 : ℕ) :
    MemOk s (snapTake s a1 a2) := by
  delta snapTake
  repeat' (first
    | with_reducible exact MemOk.refl _
    | with_reducible assumption
    | ((with_reducible apply MemOk.ofSame ?_ (rxNote_same _ _) ?_); on_goal 1 => rfl)
    | ((with_reducible apply MemOk.ofSame ?_ (snapAt_same _ _ _) ?_); on_goal 1 => rfl)
    | with_reducible apply MemOk.step (snapWake_memOk _) ?_
    | ((with_reducible apply MemOk.ofSame ?_ (wr_same _ _ _) ?_); on_goal 1 => rfl)
    | (extract_lets +onlyGivenNames x; (with_reducible apply MemOk.cut x ?_ ?_); (on_goal 1 => (unfold x; clear x)); (on_goal 2 => (intro hx; clear_value x)))
    | (extract_lets +onlyGivenNames x; clear_value x)
    | (extract_lets +onlyGivenNames x; unfold x; clear x)
    | split)

theorem summaryRun_memOk (s : State) (a1 : ℕ) :
    MemOk s (summaryRun s a1) := by
  delta summaryRun
  repeat' (first
    | with_reducible exact MemOk.refl _
    | with_reducible assumption
    | with_reducible apply MemOk.step (supplyRec_memOk _ _ _ _ _ _ _ _ _) ?_
    | (extract_lets +onlyGivenNames x; (with_reducible apply MemOk.cut x ?_ ?_); (on_goal 1 => (unfold x; clear x)); (on_goal 2 => (intro hx; clear_value x)))
    | (extract_lets +onlyGivenNames x; clear_value x)
    | (extract_lets +onlyGivenNames x; unfold x; clear x)
    | split)

theorem supplyRun_memOk (s : State) (a1 : Bool) (a2 : ℕ) (a3 : ℕ) (a4 : ℕ) (a5 : ℕ) (a6 : LoadMsg) :
    MemOk s (supplyRun s a1 a2 a3 a4 a5 a6) := by
  delta supplyRun
  repeat' (first
    | with_reducible exact MemOk.refl _
    | with_reducible assumption
    | ((with_reducible apply MemOk.ofSame ?_ (wb_same _ _ _ _ _) ?_); on_goal 1 => rfl)
    | ((with_reducible apply MemOk.ofSame ?_ (okUpdate_same _) ?_); on_goal 1 => rfl)
    | with_reducible apply MemOk.step (rideCheck_memOk _ _) ?_
    | ((with_reducible apply MemOk.ofSame ?_ (wr_same _ _ _) ?_); on_goal 1 => rfl)
    | with_reducible apply MemOk.step (evtCheck_memOk _) ?_
    | with_reducible apply MemOk.step (supplyRec_memOk _ _ _ _ _ _ _ _ _) ?_
    | (extract_lets +onlyGivenNames x; (with_reducible apply MemOk.cut x ?_ ?_); (on_goal 1 => (unfold x; clear x)); (on_goal 2 => (intro hx; clear_value x)))
    | (extract_lets +onlyGivenNames x; clear_value x)
    | (extract_lets +onlyGivenNames x; unfold x; clear x)
    | split
    | with_reducible apply MemOk.put_pwr ?_)

theorem swrefPut_memOk (s : State) (a1 : ℕ) (a2 : ℕ) (a3 : ℕ) (a4 : ℤ) :
    MemOk s (swrefPut s a1 a2 a3 a4) := by
  delta swrefPut
  repeat' (first
    | with_reducible exact MemOk.refl _
    | with_reducible assumption
    | with_reducible apply MemOk.step (regPutM_memOk _ _ _ _ _) ?_
    | with_reducible apply MemOk.upto ?_ ?_
    | (extract_lets +onlyGivenNames x; (with_reducible apply MemOk.cut x ?_ ?_); (on_goal 1 => (unfold x; clear x)); (on_goal 2 => (intro hx; clear_value x)))
    | (extract_lets +onlyGivenNames x; clear_value x)
    | (extract_lets +onlyGivenNames x; unfold x; clear x)
    | intro _
    | split)

theorem tapIn_memOk (s : State) (a1 : ℕ) (a2 : TapMsg) :
    MemOk s (tapIn s a1 a2) := by
  delta tapIn
  repeat' (first
    | with_reducible exact MemOk.refl _
    | with_reducible assumption
    | ((with_reducible apply MemOk.ofSame ?_ (bump_same _ _ _) ?_); on_goal 1 => rfl)
    | ((with_reducible apply MemOk.ofSame ?_ (setLane_same _ _ _) ?_); on_goal 1 => rfl)
    | ((with_reducible apply MemOk.ofSame ?_ (badBlk_same _ _) ?_); on_goal 1 => rfl)
    | with_reducible apply MemOk.step (finishSlot_memOk _ _ _) ?_
    | (extract_lets +onlyGivenNames x; (with_reducible apply MemOk.cut x ?_ ?_); (on_goal 1 => (unfold x; clear x)); (on_goal 2 => (intro hx; clear_value x)))
    | (extract_lets +onlyGivenNames x; clear_value x)
    | (extract_lets +onlyGivenNames x; unfold x; clear x)
    | split)

theorem wakeRun_memOk (s : State) :
    MemOk s (wakeRun s) := by
  delta wakeRun
  repeat' (first
    | with_reducible exact MemOk.refl _
    | with_reducible assumption
    | with_reducible apply MemOk.step (coreWake_memOk _) ?_
    | (extract_lets +onlyGivenNames x; (with_reducible apply MemOk.cut x ?_ ?_); (on_goal 1 => (unfold x; clear x)); (on_goal 2 => (intro hx; clear_value x)))
    | (extract_lets +onlyGivenNames x; clear_value x)
    | (extract_lets +onlyGivenNames x; unfold x; clear x)
    | split
    | with_reducible apply MemOk.put_pwr ?_)

theorem wdRun_memOk (s : State) (a1 : Bool) :
    MemOk s (wdRun s a1) := by
  delta wdRun
  repeat' (first
    | with_reducible exact MemOk.refl _
    | with_reducible assumption
    | ((with_reducible apply MemOk.ofSame ?_ (bump_same _ _ _) ?_); on_goal 1 => rfl)
    | with_reducible apply MemOk.step (softReset_memOk _ _ _ _) ?_
    | (extract_lets +onlyGivenNames x; (with_reducible apply MemOk.cut x ?_ ?_); (on_goal 1 => (unfold x; clear x)); (on_goal 2 => (intro hx; clear_value x)))
    | (extract_lets +onlyGivenNames x; clear_value x)
    | (extract_lets +onlyGivenNames x; unfold x; clear x)
    | split)

theorem zeroRun_memOk (s : State) (a1 : ℤ) :
    MemOk s (zeroRun s a1) := by
  delta zeroRun
  repeat' (first
    | with_reducible exact MemOk.refl _
    | with_reducible assumption
    | with_reducible apply MemOk.step (supplyRec_memOk _ _ _ _ _ _ _ _ _) ?_
    | (extract_lets +onlyGivenNames x; (with_reducible apply MemOk.cut x ?_ ?_); (on_goal 1 => (unfold x; clear x)); (on_goal 2 => (intro hx; clear_value x)))
    | (extract_lets +onlyGivenNames x; clear_value x)
    | (extract_lets +onlyGivenNames x; unfold x; clear x)
    | split)


end Sys2Proof.Machine
end

