-- ==== Sys2Proof/Laws/MemSeq.lean ====
section
/-!
SUPPORT. Memory keeps its canonical form through the instructions of the sequencers.
-/
set_option linter.all false
set_option linter.unusedTactic false
set_option linter.unreachableTactic false
namespace Sys2Proof.Machine

open Sys2Proof

/-- The outcome of an instruction keeps canonical memory. -/
def MemOkOut (s : State) : SeqOut → Prop
  | .ok t => MemOk s t
  | .exc _ t => MemOk s t

theorem MemOkOut.ok {s t : State} (h : MemOk s t) : MemOkOut s (.ok t) := h

theorem MemOkOut.exc {s t : State} {c : Cause310} (h : MemOk s t) : MemOkOut s (.exc c t) := h

theorem MemOkOut.cut {s : State} {o : SeqOut} (x : State) (hx : MemOk s x) (k : MemOk s x → MemOkOut s o) : MemOkOut s o := k hx

theorem MemOkOut.ofSame {M : Nat} {s : State} {o : SeqOut} (e : M.testBit 10 = false) (h : SameOut M s o) : MemOkOut s o := by
  cases o with
  | ok t => exact MemOk.ofSame e h (MemOk.refl _)
  | exc c t => exact MemOk.ofSame e h (MemOk.refl _)

theorem MemOkOut.from {s x : State} {o : SeqOut} (hx : MemOk s x) (h : MemOkOut x o) : MemOkOut s o := by
  cases o <;> exact MemOk.trans hx h

theorem seqWrreg_memOk (s : State) (a1 : ℕ) (a2 : ℕ) (a3 : ℕ) (a4 : ℕ) :
    MemOkOut s (seqWrreg s a1 a2 a3 a4) := by
  delta seqWrreg
  repeat' (first
    | with_reducible exact MemOk.refl _
    | with_reducible assumption
    | with_reducible apply MemOkOut.ok
    | with_reducible apply MemOkOut.exc
    | (extract_lets +onlyGivenNames x; (with_reducible apply MemOkOut.cut x ?_ ?_); (on_goal 1 => (unfold x; clear x)); (on_goal 2 => (intro hx; clear_value x)))
    | (extract_lets +onlyGivenNames x; (with_reducible apply MemOkOut.cut x.1 ?_ ?_); (on_goal 1 => (unfold x; clear x)); (on_goal 2 => (intro hx; clear_value x)))
    | ((with_reducible apply MemOk.ofSame ?_ (pcNext_same _ _ _) ?_); on_goal 1 => rfl)
    | with_reducible apply MemOk.step (busWrite_memOk _ _ _ _ _) ?_
    | (extract_lets +onlyGivenNames x; (with_reducible apply MemOk.cut x ?_ ?_); (on_goal 1 => (unfold x; clear x)); (on_goal 2 => (intro hx; clear_value x)))
    | (extract_lets +onlyGivenNames x; (with_reducible apply MemOk.cut x.1 ?_ ?_); (on_goal 1 => (unfold x; clear x)); (on_goal 2 => (intro hx; clear_value x)))
    | (extract_lets +onlyGivenNames x; clear_value x)
    | (extract_lets +onlyGivenNames x; unfold x; clear x)
    | with_reducible refine MemOk.ofFst (by assumption) ?_
    | split)

theorem seqLoad_memOk (s : State) (a1 : ℕ) (a2 : ℕ) (a3 : LoadOp) (a4 : ℕ) (a5 : ℕ) (a6 : ℕ) (a7 : Bool) :
    MemOkOut s (seqLoad s a1 a2 a3 a4 a5 a6 a7) := by
  delta seqLoad
  repeat' (first
    | with_reducible exact MemOk.refl _
    | with_reducible assumption
    | with_reducible apply MemOkOut.ok
    | with_reducible apply MemOkOut.exc
    | (extract_lets +onlyGivenNames x; (with_reducible apply MemOkOut.cut x ?_ ?_); (on_goal 1 => (unfold x; clear x)); (on_goal 2 => (intro hx; clear_value x)))
    | with_reducible apply MemOk.step (setMbs_memOk _ _ _) ?_
    | ((with_reducible apply MemOk.ofSame ?_ (pcNext_same _ _ _) ?_); on_goal 1 => rfl)
    | ((with_reducible apply MemOk.ofSame ?_ (setSreg_same _ _ _ _) ?_); on_goal 1 => rfl)
    | (extract_lets +onlyGivenNames x; (with_reducible apply MemOk.cut x ?_ ?_); (on_goal 1 => (unfold x; clear x)); (on_goal 2 => (intro hx; clear_value x)))
    | (extract_lets +onlyGivenNames x; clear_value x)
    | (extract_lets +onlyGivenNames x; unfold x; clear x)
    | split)

theorem seqSys_memOk (s : State) (a1 : ℕ) (a2 : ℕ) (a3 : SysOp) :
    MemOkOut s (seqSys s a1 a2 a3) := by
  delta seqSys
  repeat' (first
    | with_reducible exact MemOk.refl _
    | with_reducible assumption
    | with_reducible apply MemOkOut.ok
    | with_reducible apply MemOkOut.exc
    | (extract_lets +onlyGivenNames x; (with_reducible apply MemOkOut.cut x ?_ ?_); (on_goal 1 => (unfold x; clear x)); (on_goal 2 => (intro hx; clear_value x)))
    | ((with_reducible apply MemOk.ofSame ?_ (pcNext_same _ _ _) ?_); on_goal 1 => rfl)
    | ((with_reducible apply MemOk.ofSame ?_ (setSeqState_same _ _ _) ?_); on_goal 1 => rfl)
    | with_reducible apply MemOk.step (landAll_memOk _ _) ?_
    | ((with_reducible apply MemOk.ofSame ?_ (seqHaltAs_same _ _ _) ?_); on_goal 1 => rfl)
    | (extract_lets +onlyGivenNames x; (with_reducible apply MemOk.cut x ?_ ?_); (on_goal 1 => (unfold x; clear x)); (on_goal 2 => (intro hx; clear_value x)))
    | (extract_lets +onlyGivenNames x; clear_value x)
    | (extract_lets +onlyGivenNames x; unfold x; clear x)
    | split)

theorem seqPost_memOk (s : State) (a1 : ℕ) (a2 : ℕ) (a3 : ℕ) (a4 : ℕ) (a5 : ℕ) :
    MemOkOut s (seqPost s a1 a2 a3 a4 a5) := by
  delta seqPost
  repeat' (first
    | with_reducible exact MemOk.refl _
    | with_reducible assumption
    | with_reducible apply MemOkOut.ok
    | with_reducible apply MemOkOut.exc
    | (extract_lets +onlyGivenNames x; (with_reducible apply MemOkOut.cut x ?_ ?_); (on_goal 1 => (unfold x; clear x)); (on_goal 2 => (intro hx; clear_value x)))
    | ((with_reducible apply MemOk.ofSame ?_ (pcNext_same _ _ _) ?_); on_goal 1 => rfl)
    | ((with_reducible apply MemOk.ofSame ?_ (bump_same _ _ _) ?_); on_goal 1 => rfl)
    | with_reducible apply MemOk.step (presentInternal_memOk _ _ _ _ _ _ _ _ _ _ _) ?_
    | (extract_lets +onlyGivenNames x; (with_reducible apply MemOk.cut x ?_ ?_); (on_goal 1 => (unfold x; clear x)); (on_goal 2 => (intro hx; clear_value x)))
    | (extract_lets +onlyGivenNames x; clear_value x)
    | (extract_lets +onlyGivenNames x; unfold x; clear x)
    | split)

theorem seqStore_memOk (s : State) (a1 : ℕ) (a2 : ℕ) (a3 : StoreOp) (a4 : ℕ) (a5 : ℕ) (a6 : ℕ) :
    MemOkOut s (seqStore s a1 a2 a3 a4 a5 a6) := by
  delta seqStore
  repeat' (first
    | with_reducible exact MemOk.refl _
    | with_reducible assumption
    | with_reducible apply MemOkOut.ok
    | with_reducible apply MemOkOut.exc
    | (extract_lets +onlyGivenNames x; (with_reducible apply MemOkOut.cut x ?_ ?_); (on_goal 1 => (unfold x; clear x)); (on_goal 2 => (intro hx; clear_value x)))
    | with_reducible apply MemOk.step (setMbs_memOk _ _ _) ?_
    | ((with_reducible apply MemOk.ofSame ?_ (pcNext_same _ _ _) ?_); on_goal 1 => rfl)
    | (extract_lets +onlyGivenNames x; (with_reducible apply MemOk.cut x ?_ ?_); (on_goal 1 => (unfold x; clear x)); (on_goal 2 => (intro hx; clear_value x)))
    | (extract_lets +onlyGivenNames x; clear_value x)
    | (extract_lets +onlyGivenNames x; unfold x; clear x)
    | split)

theorem seqDo_memOk (s : State) (n pc : ℕ) (ecc : Bool) (i : OInstr) : MemOkOut s (seqDo s n pc ecc i) := by
  have res (d : ℕ) (a : Word × Flg) : MemOkOut s (.ok (setResult s n pc d a)) :=
    MemOkOut.ok (MemOk.ofSame (by rfl) (setResult_same _ _ _ _ _) (MemOk.refl _))
  have next {t : State} (h : MemOk s t) : MemOkOut s (.ok (pcNext t n pc)) :=
    MemOkOut.ok (MemOk.ofSame (by rfl) (pcNext_same _ _ _) h)
  have jump {t : State} (h : MemOk s t) (p : ℕ) : MemOkOut s (.ok (setPc t n p)) :=
    MemOkOut.ok (MemOk.ofSame (by rfl) (setPc_same _ _ _) h)
  have sreg {t : State} (h : MemOk s t) (d : ℕ) (v : Word) : MemOk s (setSreg t n d v) :=
    MemOk.ofSame (by rfl) (setSreg_same _ _ _ _) h
  cases i with
  | alu op rd ra rb => exact res _ _
  | imm op rd ra v => exact res _ _
  | cmpi ra v => exact res _ _
  | lui rd v => exact next (sreg (MemOk.refl _) _ _)
  | shift op rd ra sh => exact res _ _
  | load op rd ra v => exact seqLoad_memOk _ _ _ _ _ _ _ _
  | store op rd ra v => exact seqStore_memOk _ _ _ _ _ _ _
  | bcc c t => exact jump (MemOk.refl _) _
  | bl t => exact jump (sreg (MemOk.refl _) _ _) _
  | jr ra => exact jump (MemOk.refl _) _
  | jalr rd ra => exact jump (sreg (MemOk.refl _) _ _) _
  | rdreg rd ra view v => exact next (sreg (seqRead_memOk _ _ _) _ _)
  | wrreg rd ra view v => exact seqWrreg_memOk _ _ _ _ _
  | hopAt rt rn e tgt => exact MemOkOut.ofSame (by rfl) (seqFod_same _ _ _ _ _ _)
  | phsFod rt ra rn slew tgt => exact MemOkOut.ofSame (by rfl) (seqFod_same _ _ _ _ _ _)
  | phsPlain rt ra slew => exact MemOkOut.ofSame (by rfl) (seqPlain_same _ _ _ _ _)
  | ratSc rt rn slot comp tgt => exact MemOkOut.ofSame (by rfl) (seqSc_same _ _ _ _ _ _)
  | ratRate rt ra => exact MemOkOut.ofSame (by rfl) (seqPlain_same _ _ _ _ _)
  | ratStop rt => exact MemOkOut.ofSame (by rfl) (seqPlain_same _ _ _ _ _)
  | oenAt rt rn v tgt => exact MemOkOut.ofSame (by rfl) (seqFod_same _ _ _ _ _ _)
  | gangAt rt ra rn k tgt => exact MemOkOut.ofSame (by rfl) (seqGang_same _ _ _ _ _ _)
  | snapAt rt =>
    exact MemOkOut.ofSame (M := 24600) (by rfl) (seqEnter_same _ _ _ _ _ _ _ (by rfl)
      (fun t h => Same.mono (by rfl) (snapEnter_same h)) (Same.refl _ _))
  | tnow rd => exact next (MemOk.ofSame (by rfl) (setSpair_same _ _ _ _) (MemOk.refl _))
  | waitT rt => exact MemOkOut.ok (MemOk.ofSame (by rfl) (seqWaitT_same _ _ _ _) (MemOk.refl _))
  | waitE rd ra => exact MemOkOut.ok (MemOk.ofSame (by rfl) (seqWaitE_same _ _ _ _ _) (MemOk.refl _))
  | post ra k code => exact seqPost_memOk _ _ _ _ _ _
  | sig ra k => exact next (MemOk.ofSame (by rfl) (evtBit_same _ _ _) (MemOk.refl _))
  | sys op => exact seqSys_memOk _ _ _ _
  | coreid rd => exact next (sreg (MemOk.refl _) _ _)

theorem seqAfter_memOk {s : State} (a0 a1 a2 : ℕ) (a3 : Option ℕ) (o : SeqOut) (h : MemOkOut s o) :
    MemOk s (seqAfter a0 a1 a2 a3 o) := by
  have c (t : State) (k : Nat) (ht : MemOk s t) : MemOk s (seqCount t a0 k a3) :=
    MemOk.ofSame (by rfl) (seqCount_same _ _ _ _) ht
  cases o with
  | ok t =>
    dsimp only [seqAfter]
    split
    · exact h
    · exact MemOk.ofSame (by rfl) (stepEnd_same _ _) (c t a2 h)
  | exc x t => exact MemOk.ofSame (by rfl) (stepEnd_same _ _) (MemOk.ofSame (by rfl) (seqExcept_same _ _ _ _) (c t (a2 + 3) h))

theorem seqIssue_memOk (s : State) (a1 : ℕ) (a2 : Mn) (a3 : Bool) :
    MemOk s (seqIssue s a1 a2 a3) := by
  delta seqIssue
  repeat' split
  all_goals first
    | exact MemOk.refl _
    | exact seqAfter_memOk _ _ _ _ _ (MemOkOut.from (MemOk.ofSame (by rfl) (bpDone_same _ _) (MemOk.refl _)) (seqDo_memOk _ _ _ _ _))

theorem seqOp_memOk (s : State) (a1 : ℕ) (a2 : Mn) :
    MemOk s (seqOp s a1 a2) := by
  exact seqIssue_memOk _ _ _ _


end Sys2Proof.Machine
end

