-- ==== Sys2Proof/Laws/MemExec.lean ====
section
/-!
SUPPORT. Memory keeps its canonical form through every command that can write it.
-/
set_option linter.all false
set_option linter.unusedTactic false
set_option linter.unreachableTactic false
namespace Sys2Proof.Machine

open Sys2Proof

theorem execAbort_memOk (a0 : LaneIx) (a1 : Fin 8) (a2 : BitVec 16) (a3 : Bool) (a4 : CycIx) (s : State) :
    ∃ t, execAbort a0 a1 a2 a3 a4 s = .next t ∧ MemOk s t := by
  delta execAbort
  repeat' (first
    | refine ⟨_, rfl, ?_⟩
    | with_reducible exact MemOk.refl _
    | with_reducible assumption
    | with_reducible apply MemOk.step (abortIn_memOk _ _ _ _) ?_
    | ((with_reducible apply MemOk.ofSame ?_ (atCyc_same _ _) ?_); on_goal 1 => rfl)
    | (extract_lets +onlyGivenNames x; (with_reducible apply MemOk.cut x ?_ ?_); (on_goal 1 => (unfold x; clear x)); (on_goal 2 => (intro hx; clear_value x)))
    | (extract_lets +onlyGivenNames x; clear_value x)
    | (extract_lets +onlyGivenNames x; unfold x; clear x)
    | split)

theorem execAdd_memOk (a0 : CoreIx) (s : State) :
    ∃ t, execAdd a0 s = .next t ∧ MemOk s t := by
  delta execAdd
  repeat' (first
    | refine ⟨_, rfl, ?_⟩
    | with_reducible exact MemOk.refl _
    | with_reducible assumption
    | with_reducible apply MemOk.step (seqOp_memOk _ _ _) ?_
    | (extract_lets +onlyGivenNames x; (with_reducible apply MemOk.cut x ?_ ?_); (on_goal 1 => (unfold x; clear x)); (on_goal 2 => (intro hx; clear_value x)))
    | (extract_lets +onlyGivenNames x; clear_value x)
    | (extract_lets +onlyGivenNames x; unfold x; clear x)
    | split)

theorem execAddc_memOk (a0 : CoreIx) (s : State) :
    ∃ t, execAddc a0 s = .next t ∧ MemOk s t := by
  delta execAddc
  repeat' (first
    | refine ⟨_, rfl, ?_⟩
    | with_reducible exact MemOk.refl _
    | with_reducible assumption
    | with_reducible apply MemOk.step (seqOp_memOk _ _ _) ?_
    | (extract_lets +onlyGivenNames x; (with_reducible apply MemOk.cut x ?_ ?_); (on_goal 1 => (unfold x; clear x)); (on_goal 2 => (intro hx; clear_value x)))
    | (extract_lets +onlyGivenNames x; clear_value x)
    | (extract_lets +onlyGivenNames x; unfold x; clear x)
    | split)

theorem execAddi_memOk (a0 : CoreIx) (s : State) :
    ∃ t, execAddi a0 s = .next t ∧ MemOk s t := by
  delta execAddi
  repeat' (first
    | refine ⟨_, rfl, ?_⟩
    | with_reducible exact MemOk.refl _
    | with_reducible assumption
    | with_reducible apply MemOk.step (seqOp_memOk _ _ _) ?_
    | (extract_lets +onlyGivenNames x; (with_reducible apply MemOk.cut x ?_ ?_); (on_goal 1 => (unfold x; clear x)); (on_goal 2 => (intro hx; clear_value x)))
    | (extract_lets +onlyGivenNames x; clear_value x)
    | (extract_lets +onlyGivenNames x; unfold x; clear x)
    | split)

theorem execAnd_memOk (a0 : CoreIx) (s : State) :
    ∃ t, execAnd a0 s = .next t ∧ MemOk s t := by
  delta execAnd
  repeat' (first
    | refine ⟨_, rfl, ?_⟩
    | with_reducible exact MemOk.refl _
    | with_reducible assumption
    | with_reducible apply MemOk.step (seqOp_memOk _ _ _) ?_
    | (extract_lets +onlyGivenNames x; (with_reducible apply MemOk.cut x ?_ ?_); (on_goal 1 => (unfold x; clear x)); (on_goal 2 => (intro hx; clear_value x)))
    | (extract_lets +onlyGivenNames x; clear_value x)
    | (extract_lets +onlyGivenNames x; unfold x; clear x)
    | split)

theorem execAndi_memOk (a0 : CoreIx) (s : State) :
    ∃ t, execAndi a0 s = .next t ∧ MemOk s t := by
  delta execAndi
  repeat' (first
    | refine ⟨_, rfl, ?_⟩
    | with_reducible exact MemOk.refl _
    | with_reducible assumption
    | with_reducible apply MemOk.step (seqOp_memOk _ _ _) ?_
    | (extract_lets +onlyGivenNames x; (with_reducible apply MemOk.cut x ?_ ?_); (on_goal 1 => (unfold x; clear x)); (on_goal 2 => (intro hx; clear_value x)))
    | (extract_lets +onlyGivenNames x; clear_value x)
    | (extract_lets +onlyGivenNames x; unfold x; clear x)
    | split)

theorem execAndn_memOk (a0 : CoreIx) (s : State) :
    ∃ t, execAndn a0 s = .next t ∧ MemOk s t := by
  delta execAndn
  repeat' (first
    | refine ⟨_, rfl, ?_⟩
    | with_reducible exact MemOk.refl _
    | with_reducible assumption
    | with_reducible apply MemOk.step (seqOp_memOk _ _ _) ?_
    | (extract_lets +onlyGivenNames x; (with_reducible apply MemOk.cut x ?_ ?_); (on_goal 1 => (unfold x; clear x)); (on_goal 2 => (intro hx; clear_value x)))
    | (extract_lets +onlyGivenNames x; clear_value x)
    | (extract_lets +onlyGivenNames x; unfold x; clear x)
    | split)

theorem execAonBoundary_memOk (a0 : ℕ) (a1 : Bool) (s : State) :
    ∃ t, execAonBoundary a0 a1 s = .next t ∧ MemOk s t := by
  delta execAonBoundary
  repeat' (first
    | refine ⟨_, rfl, ?_⟩
    | with_reducible exact MemOk.refl _
    | with_reducible assumption
    | with_reducible apply MemOk.step (aonRun_memOk _ _ _) ?_
    | (extract_lets +onlyGivenNames x; (with_reducible apply MemOk.cut x ?_ ?_); (on_goal 1 => (unfold x; clear x)); (on_goal 2 => (intro hx; clear_value x)))
    | (extract_lets +onlyGivenNames x; clear_value x)
    | (extract_lets +onlyGivenNames x; unfold x; clear x)
    | split)

theorem execAonReady_memOk (s : State) :
    ∃ t, execAonReady s = .next t ∧ MemOk s t := by
  delta execAonReady
  repeat' (first
    | refine ⟨_, rfl, ?_⟩
    | with_reducible exact MemOk.refl _
    | with_reducible assumption
    | with_reducible apply MemOk.step (aonReadyRun_memOk _) ?_
    | (extract_lets +onlyGivenNames x; (with_reducible apply MemOk.cut x ?_ ?_); (on_goal 1 => (unfold x; clear x)); (on_goal 2 => (intro hx; clear_value x)))
    | (extract_lets +onlyGivenNames x; clear_value x)
    | (extract_lets +onlyGivenNames x; unfold x; clear x)
    | split)

theorem execBadBlock_memOk (a0 : LaneIx) (s : State) :
    ∃ t, execBadBlock a0 s = .next t ∧ MemOk s t := by
  delta execBadBlock
  repeat' (first
    | refine ⟨_, rfl, ?_⟩
    | with_reducible exact MemOk.refl _
    | with_reducible assumption
    | with_reducible apply MemOk.step (badIn_memOk _ _) ?_
    | (extract_lets +onlyGivenNames x; (with_reducible apply MemOk.cut x ?_ ?_); (on_goal 1 => (unfold x; clear x)); (on_goal 2 => (intro hx; clear_value x)))
    | (extract_lets +onlyGivenNames x; clear_value x)
    | (extract_lets +onlyGivenNames x; unfold x; clear x)
    | split)

theorem execBandcal_memOk (a0 : Master) (a1 : ScIx) (s : State) :
    ∃ t, execBandcal a0 a1 s = .next t ∧ MemOk s t := by
  delta execBandcal
  repeat' (first
    | refine ⟨_, rfl, ?_⟩
    | with_reducible exact MemOk.refl _
    | with_reducible assumption
    | with_reducible apply MemOk.step (regPutM_memOk _ _ _ _ _) ?_
    | (extract_lets +onlyGivenNames x; (with_reducible apply MemOk.cut x ?_ ?_); (on_goal 1 => (unfold x; clear x)); (on_goal 2 => (intro hx; clear_value x)))
    | (extract_lets +onlyGivenNames x; clear_value x)
    | (extract_lets +onlyGivenNames x; unfold x; clear x)
    | split)

theorem execBar2Write_memOk (a0 : Master) (a1 : ℕ) (a2 : List (Option Byte)) (s : State) :
    ∃ t, execBar2Write a0 a1 a2 s = .next t ∧ MemOk s t := by
  delta execBar2Write
  repeat' (first
    | refine ⟨_, rfl, ?_⟩
    | with_reducible exact MemOk.refl _
    | with_reducible assumption
    | with_reducible apply MemOk.step (bar2Put_memOk _ _ _ _) ?_
    | (extract_lets +onlyGivenNames x; (with_reducible apply MemOk.cut x ?_ ?_); (on_goal 1 => (unfold x; clear x)); (on_goal 2 => (intro hx; clear_value x)))
    | (extract_lets +onlyGivenNames x; clear_value x)
    | (extract_lets +onlyGivenNames x; unfold x; clear x)
    | split)

theorem execBcc_memOk (a0 : CoreIx) (s : State) :
    ∃ t, execBcc a0 s = .next t ∧ MemOk s t := by
  delta execBcc
  repeat' (first
    | refine ⟨_, rfl, ?_⟩
    | with_reducible exact MemOk.refl _
    | with_reducible assumption
    | with_reducible apply MemOk.step (seqOp_memOk _ _ _) ?_
    | (extract_lets +onlyGivenNames x; (with_reducible apply MemOk.cut x ?_ ?_); (on_goal 1 => (unfold x; clear x)); (on_goal 2 => (intro hx; clear_value x)))
    | (extract_lets +onlyGivenNames x; clear_value x)
    | (extract_lets +onlyGivenNames x; unfold x; clear x)
    | split)

theorem execBeacon_memOk (a0 : LaneIx) (a1 : BeaconMsg) (a2 : CycIx) (s : State) :
    ∃ t, execBeacon a0 a1 a2 s = .next t ∧ MemOk s t := by
  delta execBeacon
  repeat' (first
    | refine ⟨_, rfl, ?_⟩
    | with_reducible exact MemOk.refl _
    | with_reducible assumption
    | with_reducible apply MemOk.step (beaconIn_memOk _ _ _) ?_
    | ((with_reducible apply MemOk.ofSame ?_ (atCyc_same _ _) ?_); on_goal 1 => rfl)
    | (extract_lets +onlyGivenNames x; (with_reducible apply MemOk.cut x ?_ ?_); (on_goal 1 => (unfold x; clear x)); (on_goal 2 => (intro hx; clear_value x)))
    | (extract_lets +onlyGivenNames x; clear_value x)
    | (extract_lets +onlyGivenNames x; unfold x; clear x)
    | split)

theorem execBl_memOk (a0 : CoreIx) (s : State) :
    ∃ t, execBl a0 s = .next t ∧ MemOk s t := by
  delta execBl
  repeat' (first
    | refine ⟨_, rfl, ?_⟩
    | with_reducible exact MemOk.refl _
    | with_reducible assumption
    | with_reducible apply MemOk.step (seqOp_memOk _ _ _) ?_
    | (extract_lets +onlyGivenNames x; (with_reducible apply MemOk.cut x ?_ ?_); (on_goal 1 => (unfold x; clear x)); (on_goal 2 => (intro hx; clear_value x)))
    | (extract_lets +onlyGivenNames x; clear_value x)
    | (extract_lets +onlyGivenNames x; unfold x; clear x)
    | split)

theorem execCalApply_memOk (a0 : List CalUnit) (a1 : CycIx) (s : State) :
    ∃ t, execCalApply a0 a1 s = .next t ∧ MemOk s t := by
  delta execCalApply
  repeat' (first
    | refine ⟨_, rfl, ?_⟩
    | with_reducible exact MemOk.refl _
    | with_reducible assumption
    | ((with_reducible apply MemOk.ofSame ?_ (atCyc_same _ _) ?_); on_goal 1 => rfl)
    | with_reducible apply MemOk.step (calApplyRun_memOk _ _) ?_
    | (extract_lets +onlyGivenNames x; (with_reducible apply MemOk.cut x ?_ ?_); (on_goal 1 => (unfold x; clear x)); (on_goal 2 => (intro hx; clear_value x)))
    | (extract_lets +onlyGivenNames x; clear_value x)
    | (extract_lets +onlyGivenNames x; unfold x; clear x)
    | split)

theorem execCalRun_memOk (a0 : Master) (a1 : ℕ) (a2 : Bool) (s : State) :
    ∃ t, execCalRun a0 a1 a2 s = .next t ∧ MemOk s t := by
  delta execCalRun
  repeat' (first
    | refine ⟨_, rfl, ?_⟩
    | with_reducible exact MemOk.refl _
    | with_reducible assumption
    | with_reducible apply MemOk.step (cmdAccess_memOk _ _ _ _ _ _) ?_
    | (extract_lets +onlyGivenNames x; (with_reducible apply MemOk.cut x ?_ ?_); (on_goal 1 => (unfold x; clear x)); (on_goal 2 => (intro hx; clear_value x)))
    | (extract_lets +onlyGivenNames x; clear_value x)
    | (extract_lets +onlyGivenNames x; unfold x; clear x)
    | split)

theorem execCkpt_memOk (a0 : CkptMsg) (s : State) :
    ∃ t, execCkpt a0 s = .next t ∧ MemOk s t := by
  delta execCkpt
  repeat' (first
    | refine ⟨_, rfl, ?_⟩
    | with_reducible exact MemOk.refl _
    | with_reducible assumption
    | with_reducible apply MemOk.step (ckptTake_memOk _ _) ?_
    | ((with_reducible apply MemOk.ofSame ?_ (smbEval_same _) ?_); on_goal 1 => rfl)
    | (extract_lets +onlyGivenNames x; (with_reducible apply MemOk.cut x ?_ ?_); (on_goal 1 => (unfold x; clear x)); (on_goal 2 => (intro hx; clear_value x)))
    | (extract_lets +onlyGivenNames x; clear_value x)
    | (extract_lets +onlyGivenNames x; unfold x; clear x)
    | split)

theorem execClaim_memOk (s : State) :
    ∃ t, execClaim s = .next t ∧ MemOk s t := by
  delta execClaim
  repeat' (first
    | refine ⟨_, rfl, ?_⟩
    | with_reducible exact MemOk.refl _
    | with_reducible assumption
    | ((with_reducible apply MemOk.ofSame ?_ (smbEval_same _) ?_); on_goal 1 => rfl)
    | with_reducible apply MemOk.step (claimRole_memOk _) ?_
    | (extract_lets +onlyGivenNames x; (with_reducible apply MemOk.cut x ?_ ?_); (on_goal 1 => (unfold x; clear x)); (on_goal 2 => (intro hx; clear_value x)))
    | (extract_lets +onlyGivenNames x; clear_value x)
    | (extract_lets +onlyGivenNames x; unfold x; clear x)
    | split)

theorem execClrhist_memOk (a0 : Master) (a1 : DpIx) (s : State) :
    ∃ t, execClrhist a0 a1 s = .next t ∧ MemOk s t := by
  delta execClrhist
  repeat' (first
    | refine ⟨_, rfl, ?_⟩
    | with_reducible exact MemOk.refl _
    | with_reducible assumption
    | with_reducible apply MemOk.step (regPutM_memOk _ _ _ _ _) ?_
    | (extract_lets +onlyGivenNames x; (with_reducible apply MemOk.cut x ?_ ?_); (on_goal 1 => (unfold x; clear x)); (on_goal 2 => (intro hx; clear_value x)))
    | (extract_lets +onlyGivenNames x; clear_value x)
    | (extract_lets +onlyGivenNames x; unfold x; clear x)
    | split)

theorem execCmp_memOk (a0 : CoreIx) (s : State) :
    ∃ t, execCmp a0 s = .next t ∧ MemOk s t := by
  delta execCmp
  repeat' (first
    | refine ⟨_, rfl, ?_⟩
    | with_reducible exact MemOk.refl _
    | with_reducible assumption
    | with_reducible apply MemOk.step (seqOp_memOk _ _ _) ?_
    | (extract_lets +onlyGivenNames x; (with_reducible apply MemOk.cut x ?_ ?_); (on_goal 1 => (unfold x; clear x)); (on_goal 2 => (intro hx; clear_value x)))
    | (extract_lets +onlyGivenNames x; clear_value x)
    | (extract_lets +onlyGivenNames x; unfold x; clear x)
    | split)

theorem execCmpi_memOk (a0 : CoreIx) (s : State) :
    ∃ t, execCmpi a0 s = .next t ∧ MemOk s t := by
  delta execCmpi
  repeat' (first
    | refine ⟨_, rfl, ?_⟩
    | with_reducible exact MemOk.refl _
    | with_reducible assumption
    | with_reducible apply MemOk.step (seqOp_memOk _ _ _) ?_
    | (extract_lets +onlyGivenNames x; (with_reducible apply MemOk.cut x ?_ ?_); (on_goal 1 => (unfold x; clear x)); (on_goal 2 => (intro hx; clear_value x)))
    | (extract_lets +onlyGivenNames x; clear_value x)
    | (extract_lets +onlyGivenNames x; unfold x; clear x)
    | split)

theorem execCommandComplete_memOk (a0 : Fin 64) (a1 : OpOutcome) (a2 : CycIx) (s : State) :
    ∃ t, execCommandComplete a0 a1 a2 s = .next t ∧ MemOk s t := by
  delta execCommandComplete
  repeat' (first
    | refine ⟨_, rfl, ?_⟩
    | with_reducible exact MemOk.refl _
    | with_reducible assumption
    | with_reducible apply MemOk.step (cmdFinish_memOk _ _ _) ?_
    | ((with_reducible apply MemOk.ofSame ?_ (atCyc_same _ _) ?_); on_goal 1 => rfl)
    | (extract_lets +onlyGivenNames x; (with_reducible apply MemOk.cut x ?_ ?_); (on_goal 1 => (unfold x; clear x)); (on_goal 2 => (intro hx; clear_value x)))
    | (extract_lets +onlyGivenNames x; clear_value x)
    | (extract_lets +onlyGivenNames x; unfold x; clear x)
    | split)

theorem execCommandStart_memOk (a0 : Fin 64) (a1 : CycIx) (s : State) :
    ∃ t, execCommandStart a0 a1 s = .next t ∧ MemOk s t := by
  delta execCommandStart
  repeat' (first
    | refine ⟨_, rfl, ?_⟩
    | with_reducible exact MemOk.refl _
    | with_reducible assumption
    | ((with_reducible apply MemOk.ofSame ?_ (atCyc_same _ _) ?_); on_goal 1 => rfl)
    | with_reducible apply MemOk.step (cmdStart_memOk _ _) ?_
    | (extract_lets +onlyGivenNames x; (with_reducible apply MemOk.cut x ?_ ?_); (on_goal 1 => (unfold x; clear x)); (on_goal 2 => (intro hx; clear_value x)))
    | (extract_lets +onlyGivenNames x; clear_value x)
    | (extract_lets +onlyGivenNames x; unfold x; clear x)
    | split)

theorem execCommandTimeout_memOk (a0 : Fin 64) (a1 : CycIx) (s : State) :
    ∃ t, execCommandTimeout a0 a1 s = .next t ∧ MemOk s t := by
  delta execCommandTimeout
  repeat' (first
    | refine ⟨_, rfl, ?_⟩
    | with_reducible exact MemOk.refl _
    | with_reducible assumption
    | with_reducible apply MemOk.step (cmdExpire_memOk _ _) ?_
    | ((with_reducible apply MemOk.ofSame ?_ (atCyc_same _ _) ?_); on_goal 1 => rfl)
    | (extract_lets +onlyGivenNames x; (with_reducible apply MemOk.cut x ?_ ?_); (on_goal 1 => (unfold x; clear x)); (on_goal 2 => (intro hx; clear_value x)))
    | (extract_lets +onlyGivenNames x; clear_value x)
    | (extract_lets +onlyGivenNames x; unfold x; clear x)
    | split)

theorem execConfigStore_memOk (a0 : Master) (a1 : Bool) (s : State) :
    ∃ t, execConfigStore a0 a1 s = .next t ∧ MemOk s t := by
  delta execConfigStore
  repeat' (first
    | refine ⟨_, rfl, ?_⟩
    | with_reducible exact MemOk.refl _
    | with_reducible assumption
    | with_reducible apply MemOk.step (cmdAccess_memOk _ _ _ _ _ _) ?_
    | (extract_lets +onlyGivenNames x; (with_reducible apply MemOk.cut x ?_ ?_); (on_goal 1 => (unfold x; clear x)); (on_goal 2 => (intro hx; clear_value x)))
    | (extract_lets +onlyGivenNames x; clear_value x)
    | (extract_lets +onlyGivenNames x; unfold x; clear x)
    | split)

theorem execCoreWake_memOk (s : State) :
    ∃ t, execCoreWake s = .next t ∧ MemOk s t := by
  delta execCoreWake
  repeat' (first
    | refine ⟨_, rfl, ?_⟩
    | with_reducible exact MemOk.refl _
    | with_reducible assumption
    | with_reducible apply MemOk.step (wakeRun_memOk _) ?_
    | (extract_lets +onlyGivenNames x; (with_reducible apply MemOk.cut x ?_ ?_); (on_goal 1 => (unfold x; clear x)); (on_goal 2 => (intro hx; clear_value x)))
    | (extract_lets +onlyGivenNames x; clear_value x)
    | (extract_lets +onlyGivenNames x; unfold x; clear x)
    | split)

theorem execCoreid_memOk (a0 : CoreIx) (s : State) :
    ∃ t, execCoreid a0 s = .next t ∧ MemOk s t := by
  delta execCoreid
  repeat' (first
    | refine ⟨_, rfl, ?_⟩
    | with_reducible exact MemOk.refl _
    | with_reducible assumption
    | with_reducible apply MemOk.step (seqOp_memOk _ _ _) ?_
    | (extract_lets +onlyGivenNames x; (with_reducible apply MemOk.cut x ?_ ?_); (on_goal 1 => (unfold x; clear x)); (on_goal 2 => (intro hx; clear_value x)))
    | (extract_lets +onlyGivenNames x; clear_value x)
    | (extract_lets +onlyGivenNames x; unfold x; clear x)
    | split)

theorem execCorrection_memOk (a0 : LaneIx) (a1 : BitVec 16) (a2 : Bool) (a3 : ℕ) (s : State) :
    ∃ t, execCorrection a0 a1 a2 a3 s = .next t ∧ MemOk s t := by
  delta execCorrection
  repeat' (first
    | refine ⟨_, rfl, ?_⟩
    | with_reducible exact MemOk.refl _
    | with_reducible assumption
    | with_reducible apply MemOk.step (corrDue_memOk _ _ _ _ _) ?_
    | (extract_lets +onlyGivenNames x; (with_reducible apply MemOk.cut x ?_ ?_); (on_goal 1 => (unfold x; clear x)); (on_goal 2 => (intro hx; clear_value x)))
    | (extract_lets +onlyGivenNames x; clear_value x)
    | (extract_lets +onlyGivenNames x; unfold x; clear x)
    | split)

theorem execCreditSyncEcho_memOk (a0 : LaneIx) (a1 : BitVec 8) (a2 : ℕ) (a3 : ℕ) (s : State) :
    ∃ t, execCreditSyncEcho a0 a1 a2 a3 s = .next t ∧ MemOk s t := by
  delta execCreditSyncEcho
  repeat' (first
    | refine ⟨_, rfl, ?_⟩
    | with_reducible exact MemOk.refl _
    | with_reducible assumption
    | ((with_reducible apply MemOk.ofSame ?_ (echoIn_same _ _ _ _ _) ?_); on_goal 1 => rfl)
    | with_reducible apply MemOk.step (closePend_memOk _ _) ?_
    | (extract_lets +onlyGivenNames x; (with_reducible apply MemOk.cut x ?_ ?_); (on_goal 1 => (unfold x; clear x)); (on_goal 2 => (intro hx; clear_value x)))
    | (extract_lets +onlyGivenNames x; clear_value x)
    | (extract_lets +onlyGivenNames x; unfold x; clear x)
    | split)

theorem execDescFetch_memOk (a0 : DmaIx) (a1 : List Byte) (s : State) :
    ∃ t, execDescFetch a0 a1 s = .next t ∧ MemOk s t := by
  delta execDescFetch
  repeat' (first
    | refine ⟨_, rfl, ?_⟩
    | with_reducible exact MemOk.refl _
    | with_reducible assumption
    | with_reducible apply MemOk.step (dmaFetch_memOk _ _ _) ?_
    | (extract_lets +onlyGivenNames x; (with_reducible apply MemOk.cut x ?_ ?_); (on_goal 1 => (unfold x; clear x)); (on_goal 2 => (intro hx; clear_value x)))
    | (extract_lets +onlyGivenNames x; clear_value x)
    | (extract_lets +onlyGivenNames x; unfold x; clear x)
    | split)

theorem execDescWriteBack_memOk (a0 : DmaIx) (a1 : DmaSide) (a2 : DmaSide) (s : State) :
    ∃ t, execDescWriteBack a0 a1 a2 s = .next t ∧ MemOk s t := by
  delta execDescWriteBack
  repeat' (first
    | refine ⟨_, rfl, ?_⟩
    | with_reducible exact MemOk.refl _
    | with_reducible assumption
    | with_reducible apply MemOk.step (dmaExec_memOk _ _ _ _) ?_
    | (extract_lets +onlyGivenNames x; (with_reducible apply MemOk.cut x ?_ ?_); (on_goal 1 => (unfold x; clear x)); (on_goal 2 => (intro hx; clear_value x)))
    | (extract_lets +onlyGivenNames x; clear_value x)
    | (extract_lets +onlyGivenNames x; unfold x; clear x)
    | split)

theorem execDmaAbort_memOk (a0 : Master) (a1 : DmaIx) (s : State) :
    ∃ t, execDmaAbort a0 a1 s = .next t ∧ MemOk s t := by
  delta execDmaAbort
  repeat' (first
    | refine ⟨_, rfl, ?_⟩
    | with_reducible exact MemOk.refl _
    | with_reducible assumption
    | with_reducible apply MemOk.step (regPut_memOk _ _ _ _) ?_
    | (extract_lets +onlyGivenNames x; (with_reducible apply MemOk.cut x ?_ ?_); (on_goal 1 => (unfold x; clear x)); (on_goal 2 => (intro hx; clear_value x)))
    | (extract_lets +onlyGivenNames x; clear_value x)
    | (extract_lets +onlyGivenNames x; unfold x; clear x)
    | split)

theorem execDmaBusError_memOk (a0 : DmaIx) (a1 : BitVec 64) (a2 : Fin 4) (a3 : Bool) (a4 : DmaData) (s : State) :
    ∃ t, execDmaBusError a0 a1 a2 a3 a4 s = .next t ∧ MemOk s t := by
  delta execDmaBusError
  repeat' (first
    | refine ⟨_, rfl, ?_⟩
    | with_reducible exact MemOk.refl _
    | with_reducible assumption
    | with_reducible apply MemOk.step (busErr_memOk _ _ _ _ _ _) ?_
    | (extract_lets +onlyGivenNames x; (with_reducible apply MemOk.cut x ?_ ?_); (on_goal 1 => (unfold x; clear x)); (on_goal 2 => (intro hx; clear_value x)))
    | (extract_lets +onlyGivenNames x; clear_value x)
    | (extract_lets +onlyGivenNames x; unfold x; clear x)
    | split)

theorem execDmaDoorbell_memOk (a0 : Master) (a1 : DmaIx) (s : State) :
    ∃ t, execDmaDoorbell a0 a1 s = .next t ∧ MemOk s t := by
  delta execDmaDoorbell
  repeat' (first
    | refine ⟨_, rfl, ?_⟩
    | with_reducible exact MemOk.refl _
    | with_reducible assumption
    | with_reducible apply MemOk.step (regPut_memOk _ _ _ _) ?_
    | (extract_lets +onlyGivenNames x; (with_reducible apply MemOk.cut x ?_ ?_); (on_goal 1 => (unfold x; clear x)); (on_goal 2 => (intro hx; clear_value x)))
    | (extract_lets +onlyGivenNames x; clear_value x)
    | (extract_lets +onlyGivenNames x; unfold x; clear x)
    | split)

theorem execDmaEnable_memOk (a0 : Master) (a1 : DmaIx) (a2 : Word) (s : State) :
    ∃ t, execDmaEnable a0 a1 a2 s = .next t ∧ MemOk s t := by
  delta execDmaEnable
  repeat' (first
    | refine ⟨_, rfl, ?_⟩
    | with_reducible exact MemOk.refl _
    | with_reducible assumption
    | with_reducible apply MemOk.step (regPut_memOk _ _ _ _) ?_
    | (extract_lets +onlyGivenNames x; (with_reducible apply MemOk.cut x ?_ ?_); (on_goal 1 => (unfold x; clear x)); (on_goal 2 => (intro hx; clear_value x)))
    | (extract_lets +onlyGivenNames x; clear_value x)
    | (extract_lets +onlyGivenNames x; unfold x; clear x)
    | split)

theorem execDmaHrdWrite_memOk (a0 : Master) (a1 : DmaIx) (a2 : Word) (s : State) :
    ∃ t, execDmaHrdWrite a0 a1 a2 s = .next t ∧ MemOk s t := by
  delta execDmaHrdWrite
  repeat' (first
    | refine ⟨_, rfl, ?_⟩
    | with_reducible exact MemOk.refl _
    | with_reducible assumption
    | with_reducible apply MemOk.step (regPut_memOk _ _ _ _) ?_
    | (extract_lets +onlyGivenNames x; (with_reducible apply MemOk.cut x ?_ ?_); (on_goal 1 => (unfold x; clear x)); (on_goal 2 => (intro hx; clear_value x)))
    | (extract_lets +onlyGivenNames x; clear_value x)
    | (extract_lets +onlyGivenNames x; unfold x; clear x)
    | split)

theorem execDmaPause_memOk (a0 : Master) (a1 : DmaIx) (s : State) :
    ∃ t, execDmaPause a0 a1 s = .next t ∧ MemOk s t := by
  delta execDmaPause
  repeat' (first
    | refine ⟨_, rfl, ?_⟩
    | with_reducible exact MemOk.refl _
    | with_reducible assumption
    | with_reducible apply MemOk.step (regPut_memOk _ _ _ _) ?_
    | (extract_lets +onlyGivenNames x; (with_reducible apply MemOk.cut x ?_ ?_); (on_goal 1 => (unfold x; clear x)); (on_goal 2 => (intro hx; clear_value x)))
    | (extract_lets +onlyGivenNames x; clear_value x)
    | (extract_lets +onlyGivenNames x; unfold x; clear x)
    | split)

theorem execDmaResume_memOk (a0 : Master) (a1 : DmaIx) (s : State) :
    ∃ t, execDmaResume a0 a1 s = .next t ∧ MemOk s t := by
  delta execDmaResume
  repeat' (first
    | refine ⟨_, rfl, ?_⟩
    | with_reducible exact MemOk.refl _
    | with_reducible assumption
    | with_reducible apply MemOk.step (regPut_memOk _ _ _ _) ?_
    | (extract_lets +onlyGivenNames x; (with_reducible apply MemOk.cut x ?_ ?_); (on_goal 1 => (unfold x; clear x)); (on_goal 2 => (intro hx; clear_value x)))
    | (extract_lets +onlyGivenNames x; clear_value x)
    | (extract_lets +onlyGivenNames x; unfold x; clear x)
    | split)

theorem execEcamEntryWrite_memOk (a0 : Master) (a1 : Fin 512) (a2 : Fin 22) (a3 : Word) (s : State) :
    ∃ t, execEcamEntryWrite a0 a1 a2 a3 s = .next t ∧ MemOk s t := by
  delta execEcamEntryWrite
  repeat' (first
    | refine ⟨_, rfl, ?_⟩
    | with_reducible exact MemOk.refl _
    | with_reducible assumption
    | with_reducible apply MemOk.step (regPut_memOk _ _ _ _) ?_
    | (extract_lets +onlyGivenNames x; (with_reducible apply MemOk.cut x ?_ ?_); (on_goal 1 => (unfold x; clear x)); (on_goal 2 => (intro hx; clear_value x)))
    | (extract_lets +onlyGivenNames x; clear_value x)
    | (extract_lets +onlyGivenNames x; unfold x; clear x)
    | split)

theorem execEcamLookup_memOk (a0 : LaneIx) (a1 : BitVec 16) (a2 : Bool) (a3 : CycIx) (s : State) :
    ∃ t, execEcamLookup a0 a1 a2 a3 s = .next t ∧ MemOk s t := by
  delta execEcamLookup
  repeat' (first
    | refine ⟨_, rfl, ?_⟩
    | with_reducible exact MemOk.refl _
    | with_reducible assumption
    | with_reducible apply MemOk.step (lookupRun_memOk _ _ _ _) ?_
    | ((with_reducible apply MemOk.ofSame ?_ (atCyc_same _ _) ?_); on_goal 1 => rfl)
    | (extract_lets +onlyGivenNames x; (with_reducible apply MemOk.cut x ?_ ?_); (on_goal 1 => (unfold x; clear x)); (on_goal 2 => (intro hx; clear_value x)))
    | (extract_lets +onlyGivenNames x; clear_value x)
    | (extract_lets +onlyGivenNames x; unfold x; clear x)
    | split)

theorem execEccUncorr_memOk (a0 : Fin 65536) (s : State) :
    ∃ t, execEccUncorr a0 s = .next t ∧ MemOk s t := by
  delta execEccUncorr
  repeat' (first
    | refine ⟨_, rfl, ?_⟩
    | with_reducible exact MemOk.refl _
    | with_reducible assumption
    | with_reducible apply MemOk.step (eccBad_memOk _ _) ?_
    | (extract_lets +onlyGivenNames x; (with_reducible apply MemOk.cut x ?_ ?_); (on_goal 1 => (unfold x; clear x)); (on_goal 2 => (intro hx; clear_value x)))
    | (extract_lets +onlyGivenNames x; clear_value x)
    | (extract_lets +onlyGivenNames x; unfold x; clear x)
    | split)

theorem execEvent_memOk (a0 : LaneIx) (a1 : EventMsg) (a2 : CycIx) (s : State) :
    ∃ t, execEvent a0 a1 a2 s = .next t ∧ MemOk s t := by
  delta execEvent
  repeat' (first
    | refine ⟨_, rfl, ?_⟩
    | with_reducible exact MemOk.refl _
    | with_reducible assumption
    | ((with_reducible apply MemOk.ofSame ?_ (laneTurns_same _ _) ?_); on_goal 1 => rfl)
    | ((with_reducible apply MemOk.ofSame ?_ (atCyc_same _ _) ?_); on_goal 1 => rfl)
    | with_reducible apply MemOk.step (eventIn_memOk _ _ _) ?_
    | (extract_lets +onlyGivenNames x; (with_reducible apply MemOk.cut x ?_ ?_); (on_goal 1 => (unfold x; clear x)); (on_goal 2 => (intro hx; clear_value x)))
    | (extract_lets +onlyGivenNames x; clear_value x)
    | (extract_lets +onlyGivenNames x; unfold x; clear x)
    | split)

theorem execFaultInject_memOk (a0 : Master) (a1 : SrcIx) (a2 : Fin 64) (a3 : BitVec 24) (s : State) :
    ∃ t, execFaultInject a0 a1 a2 a3 s = .next t ∧ MemOk s t := by
  delta execFaultInject
  repeat' (first
    | refine ⟨_, rfl, ?_⟩
    | with_reducible exact MemOk.refl _
    | with_reducible assumption
    | with_reducible apply MemOk.step (injectWrites_memOk _ _ _ _ _) ?_
    | (extract_lets +onlyGivenNames x; (with_reducible apply MemOk.cut x ?_ ?_); (on_goal 1 => (unfold x; clear x)); (on_goal 2 => (intro hx; clear_value x)))
    | (extract_lets +onlyGivenNames x; clear_value x)
    | (extract_lets +onlyGivenNames x; unfold x; clear x)
    | split)

theorem execFaultIntake_memOk (s : State) :
    ∃ t, execFaultIntake s = .next t ∧ MemOk s t := by
  delta execFaultIntake
  repeat' (first
    | refine ⟨_, rfl, ?_⟩
    | with_reducible exact MemOk.refl _
    | with_reducible assumption
    | with_reducible apply MemOk.step (intake_memOk _) ?_
    | ((with_reducible apply MemOk.ofSame ?_ (smbEval_same _) ?_); on_goal 1 => rfl)
    | (extract_lets +onlyGivenNames x; (with_reducible apply MemOk.cut x ?_ ?_); (on_goal 1 => (unfold x; clear x)); (on_goal 2 => (intro hx; clear_value x)))
    | (extract_lets +onlyGivenNames x; clear_value x)
    | (extract_lets +onlyGivenNames x; unfold x; clear x)
    | split)

theorem execFence_memOk (a0 : CoreIx) (s : State) :
    ∃ t, execFence a0 s = .next t ∧ MemOk s t := by
  delta execFence
  repeat' (first
    | refine ⟨_, rfl, ?_⟩
    | with_reducible exact MemOk.refl _
    | with_reducible assumption
    | with_reducible apply MemOk.step (seqOp_memOk _ _ _) ?_
    | (extract_lets +onlyGivenNames x; (with_reducible apply MemOk.cut x ?_ ?_); (on_goal 1 => (unfold x; clear x)); (on_goal 2 => (intro hx; clear_value x)))
    | (extract_lets +onlyGivenNames x; clear_value x)
    | (extract_lets +onlyGivenNames x; unfold x; clear x)
    | split)

theorem execFirstErrorRearm_memOk (a0 : Master) (s : State) :
    ∃ t, execFirstErrorRearm a0 s = .next t ∧ MemOk s t := by
  delta execFirstErrorRearm
  repeat' (first
    | refine ⟨_, rfl, ?_⟩
    | with_reducible exact MemOk.refl _
    | with_reducible assumption
    | with_reducible apply MemOk.step (regPut_memOk _ _ _ _) ?_
    | (extract_lets +onlyGivenNames x; (with_reducible apply MemOk.cut x ?_ ?_); (on_goal 1 => (unfold x; clear x)); (on_goal 2 => (intro hx; clear_value x)))
    | (extract_lets +onlyGivenNames x; clear_value x)
    | (extract_lets +onlyGivenNames x; unfold x; clear x)
    | split)

theorem execFlush_memOk (a0 : Master) (a1 : RingIx) (s : State) :
    ∃ t, execFlush a0 a1 s = .next t ∧ MemOk s t := by
  delta execFlush
  repeat' (first
    | refine ⟨_, rfl, ?_⟩
    | with_reducible exact MemOk.refl _
    | with_reducible assumption
    | with_reducible apply MemOk.step (regPut_memOk _ _ _ _) ?_
    | (extract_lets +onlyGivenNames x; (with_reducible apply MemOk.cut x ?_ ?_); (on_goal 1 => (unfold x; clear x)); (on_goal 2 => (intro hx; clear_value x)))
    | (extract_lets +onlyGivenNames x; clear_value x)
    | (extract_lets +onlyGivenNames x; unfold x; clear x)
    | split)

theorem execFodDivCommit_memOk (a0 : Master) (a1 : FodIx) (a2 : DivField) (a3 : ℕ) (a4 : CycIx) (s : State) :
    ∃ t, execFodDivCommit a0 a1 a2 a3 a4 s = .next t ∧ MemOk s t := by
  delta execFodDivCommit
  repeat' (first
    | refine ⟨_, rfl, ?_⟩
    | with_reducible exact MemOk.refl _
    | with_reducible assumption
    | with_reducible apply MemOk.step (putM_memOk _ _ _ _ _) ?_
    | ((with_reducible apply MemOk.ofSame ?_ (atCyc_same _ _) ?_); on_goal 1 => rfl)
    | (extract_lets +onlyGivenNames x; (with_reducible apply MemOk.cut x ?_ ?_); (on_goal 1 => (unfold x; clear x)); (on_goal 2 => (intro hx; clear_value x)))
    | (extract_lets +onlyGivenNames x; clear_value x)
    | (extract_lets +onlyGivenNames x; unfold x; clear x)
    | split)

theorem execFodInselWrite_memOk (a0 : Master) (a1 : FodIx) (a2 : ScIx) (a3 : Bool) (a4 : CycIx) (s : State) :
    ∃ t, execFodInselWrite a0 a1 a2 a3 a4 s = .next t ∧ MemOk s t := by
  delta execFodInselWrite
  repeat' (first
    | refine ⟨_, rfl, ?_⟩
    | with_reducible exact MemOk.refl _
    | with_reducible assumption
    | with_reducible apply MemOk.step (regPutM_memOk _ _ _ _ _) ?_
    | ((with_reducible apply MemOk.ofSame ?_ (atCyc_same _ _) ?_); on_goal 1 => rfl)
    | (extract_lets +onlyGivenNames x; (with_reducible apply MemOk.cut x ?_ ?_); (on_goal 1 => (unfold x; clear x)); (on_goal 2 => (intro hx; clear_value x)))
    | (extract_lets +onlyGivenNames x; clear_value x)
    | (extract_lets +onlyGivenNames x; unfold x; clear x)
    | split)

theorem execFwd_memOk (a0 : FwdMsg) (s : State) :
    ∃ t, execFwd a0 s = .next t ∧ MemOk s t := by
  delta execFwd
  repeat' (first
    | refine ⟨_, rfl, ?_⟩
    | with_reducible exact MemOk.refl _
    | with_reducible assumption
    | with_reducible apply MemOk.step (fwdTake_memOk _ _) ?_
    | (extract_lets +onlyGivenNames x; (with_reducible apply MemOk.cut x ?_ ?_); (on_goal 1 => (unfold x; clear x)); (on_goal 2 => (intro hx; clear_value x)))
    | (extract_lets +onlyGivenNames x; clear_value x)
    | (extract_lets +onlyGivenNames x; unfold x; clear x)
    | split)

theorem execGangAt_memOk (a0 : CoreIx) (a1 : CycIx) (s : State) :
    ∃ t, execGangAt a0 a1 s = .next t ∧ MemOk s t := by
  delta execGangAt
  repeat' (first
    | refine ⟨_, rfl, ?_⟩
    | with_reducible exact MemOk.refl _
    | with_reducible assumption
    | ((with_reducible apply MemOk.ofSame ?_ (atCyc_same _ _) ?_); on_goal 1 => rfl)
    | with_reducible apply MemOk.step (seqOp_memOk _ _ _) ?_
    | (extract_lets +onlyGivenNames x; (with_reducible apply MemOk.cut x ?_ ?_); (on_goal 1 => (unfold x; clear x)); (on_goal 2 => (intro hx; clear_value x)))
    | (extract_lets +onlyGivenNames x; clear_value x)
    | (extract_lets +onlyGivenNames x; unfold x; clear x)
    | split)

theorem execGenSwitch_memOk (a0 : Master) (s : State) :
    ∃ t, execGenSwitch a0 s = .next t ∧ MemOk s t := by
  delta execGenSwitch
  repeat' (first
    | refine ⟨_, rfl, ?_⟩
    | with_reducible exact MemOk.refl _
    | with_reducible assumption
    | with_reducible apply MemOk.step (regPut_memOk _ _ _ _) ?_
    | (extract_lets +onlyGivenNames x; (with_reducible apply MemOk.cut x ?_ ?_); (on_goal 1 => (unfold x; clear x)); (on_goal 2 => (intro hx; clear_value x)))
    | (extract_lets +onlyGivenNames x; clear_value x)
    | (extract_lets +onlyGivenNames x; unfold x; clear x)
    | split)

theorem execHalt_memOk (a0 : CoreIx) (s : State) :
    ∃ t, execHalt a0 s = .next t ∧ MemOk s t := by
  delta execHalt
  repeat' (first
    | refine ⟨_, rfl, ?_⟩
    | with_reducible exact MemOk.refl _
    | with_reducible assumption
    | with_reducible apply MemOk.step (seqOp_memOk _ _ _) ?_
    | (extract_lets +onlyGivenNames x; (with_reducible apply MemOk.cut x ?_ ?_); (on_goal 1 => (unfold x; clear x)); (on_goal 2 => (intro hx; clear_value x)))
    | (extract_lets +onlyGivenNames x; clear_value x)
    | (extract_lets +onlyGivenNames x; unfold x; clear x)
    | split)

theorem execHopAt_memOk (a0 : CoreIx) (a1 : CycIx) (s : State) :
    ∃ t, execHopAt a0 a1 s = .next t ∧ MemOk s t := by
  delta execHopAt
  repeat' (first
    | refine ⟨_, rfl, ?_⟩
    | with_reducible exact MemOk.refl _
    | with_reducible assumption
    | ((with_reducible apply MemOk.ofSame ?_ (atCyc_same _ _) ?_); on_goal 1 => rfl)
    | with_reducible apply MemOk.step (seqOp_memOk _ _ _) ?_
    | (extract_lets +onlyGivenNames x; (with_reducible apply MemOk.cut x ?_ ?_); (on_goal 1 => (unfold x; clear x)); (on_goal 2 => (intro hx; clear_value x)))
    | (extract_lets +onlyGivenNames x; clear_value x)
    | (extract_lets +onlyGivenNames x; unfold x; clear x)
    | split)

theorem execHopEntryCommit_memOk (a0 : Master) (a1 : FodIx) (a2 : Fin 16) (a3 : HopFields) (s : State) :
    ∃ t, execHopEntryCommit a0 a1 a2 a3 s = .next t ∧ MemOk s t := by
  delta execHopEntryCommit
  repeat' (first
    | refine ⟨_, rfl, ?_⟩
    | with_reducible exact MemOk.refl _
    | with_reducible assumption
    | with_reducible apply MemOk.step (putHop_memOk _ _ _ _) ?_
    | (extract_lets +onlyGivenNames x; (with_reducible apply MemOk.cut x ?_ ?_); (on_goal 1 => (unfold x; clear x)); (on_goal 2 => (intro hx; clear_value x)))
    | (extract_lets +onlyGivenNames x; clear_value x)
    | (extract_lets +onlyGivenNames x; unfold x; clear x)
    | split)

theorem execHopGo_memOk (a0 : Master) (a1 : FodIx) (a2 : Fin 16) (a3 : CycIx) (s : State) :
    ∃ t, execHopGo a0 a1 a2 a3 s = .next t ∧ MemOk s t := by
  delta execHopGo
  repeat' (first
    | refine ⟨_, rfl, ?_⟩
    | with_reducible exact MemOk.refl _
    | with_reducible assumption
    | with_reducible apply MemOk.step (regPutM_memOk _ _ _ _ _) ?_
    | ((with_reducible apply MemOk.ofSame ?_ (atCyc_same _ _) ?_); on_goal 1 => rfl)
    | (extract_lets +onlyGivenNames x; (with_reducible apply MemOk.cut x ?_ ?_); (on_goal 1 => (unfold x; clear x)); (on_goal 2 => (intro hx; clear_value x)))
    | (extract_lets +onlyGivenNames x; clear_value x)
    | (extract_lets +onlyGivenNames x; unfold x; clear x)
    | split)

theorem execIngressAgeRetire_memOk (a0 : BitVec 16) (a1 : Bool) (a2 : CycIx) (s : State) :
    ∃ t, execIngressAgeRetire a0 a1 a2 s = .next t ∧ MemOk s t := by
  delta execIngressAgeRetire
  repeat' (first
    | refine ⟨_, rfl, ?_⟩
    | with_reducible exact MemOk.refl _
    | with_reducible assumption
    | ((with_reducible apply MemOk.ofSame ?_ (atCyc_same _ _) ?_); on_goal 1 => rfl)
    | with_reducible apply MemOk.step (ageRetire_memOk _ _ _) ?_
    | (extract_lets +onlyGivenNames x; (with_reducible apply MemOk.cut x ?_ ?_); (on_goal 1 => (unfold x; clear x)); (on_goal 2 => (intro hx; clear_value x)))
    | (extract_lets +onlyGivenNames x; clear_value x)
    | (extract_lets +onlyGivenNames x; unfold x; clear x)
    | split)

theorem execJalr_memOk (a0 : CoreIx) (s : State) :
    ∃ t, execJalr a0 s = .next t ∧ MemOk s t := by
  delta execJalr
  repeat' (first
    | refine ⟨_, rfl, ?_⟩
    | with_reducible exact MemOk.refl _
    | with_reducible assumption
    | with_reducible apply MemOk.step (seqOp_memOk _ _ _) ?_
    | (extract_lets +onlyGivenNames x; (with_reducible apply MemOk.cut x ?_ ?_); (on_goal 1 => (unfold x; clear x)); (on_goal 2 => (intro hx; clear_value x)))
    | (extract_lets +onlyGivenNames x; clear_value x)
    | (extract_lets +onlyGivenNames x; unfold x; clear x)
    | split)

theorem execJr_memOk (a0 : CoreIx) (s : State) :
    ∃ t, execJr a0 s = .next t ∧ MemOk s t := by
  delta execJr
  repeat' (first
    | refine ⟨_, rfl, ?_⟩
    | with_reducible exact MemOk.refl _
    | with_reducible assumption
    | with_reducible apply MemOk.step (seqOp_memOk _ _ _) ?_
    | (extract_lets +onlyGivenNames x; (with_reducible apply MemOk.cut x ?_ ?_); (on_goal 1 => (unfold x; clear x)); (on_goal 2 => (intro hx; clear_value x)))
    | (extract_lets +onlyGivenNames x; clear_value x)
    | (extract_lets +onlyGivenNames x; unfold x; clear x)
    | split)

theorem execLdb_memOk (a0 : CoreIx) (a1 : Bool) (s : State) :
    ∃ t, execLdb a0 a1 s = .next t ∧ MemOk s t := by
  delta execLdb
  repeat' (first
    | refine ⟨_, rfl, ?_⟩
    | with_reducible exact MemOk.refl _
    | with_reducible assumption
    | with_reducible apply MemOk.step (seqIssue_memOk _ _ _ _) ?_
    | (extract_lets +onlyGivenNames x; (with_reducible apply MemOk.cut x ?_ ?_); (on_goal 1 => (unfold x; clear x)); (on_goal 2 => (intro hx; clear_value x)))
    | (extract_lets +onlyGivenNames x; clear_value x)
    | (extract_lets +onlyGivenNames x; unfold x; clear x)
    | split)

theorem execLdbu_memOk (a0 : CoreIx) (a1 : Bool) (s : State) :
    ∃ t, execLdbu a0 a1 s = .next t ∧ MemOk s t := by
  delta execLdbu
  repeat' (first
    | refine ⟨_, rfl, ?_⟩
    | with_reducible exact MemOk.refl _
    | with_reducible assumption
    | with_reducible apply MemOk.step (seqIssue_memOk _ _ _ _) ?_
    | (extract_lets +onlyGivenNames x; (with_reducible apply MemOk.cut x ?_ ?_); (on_goal 1 => (unfold x; clear x)); (on_goal 2 => (intro hx; clear_value x)))
    | (extract_lets +onlyGivenNames x; clear_value x)
    | (extract_lets +onlyGivenNames x; unfold x; clear x)
    | split)

theorem execLdh_memOk (a0 : CoreIx) (a1 : Bool) (s : State) :
    ∃ t, execLdh a0 a1 s = .next t ∧ MemOk s t := by
  delta execLdh
  repeat' (first
    | refine ⟨_, rfl, ?_⟩
    | with_reducible exact MemOk.refl _
    | with_reducible assumption
    | with_reducible apply MemOk.step (seqIssue_memOk _ _ _ _) ?_
    | (extract_lets +onlyGivenNames x; (with_reducible apply MemOk.cut x ?_ ?_); (on_goal 1 => (unfold x; clear x)); (on_goal 2 => (intro hx; clear_value x)))
    | (extract_lets +onlyGivenNames x; clear_value x)
    | (extract_lets +onlyGivenNames x; unfold x; clear x)
    | split)

theorem execLdhu_memOk (a0 : CoreIx) (a1 : Bool) (s : State) :
    ∃ t, execLdhu a0 a1 s = .next t ∧ MemOk s t := by
  delta execLdhu
  repeat' (first
    | refine ⟨_, rfl, ?_⟩
    | with_reducible exact MemOk.refl _
    | with_reducible assumption
    | with_reducible apply MemOk.step (seqIssue_memOk _ _ _ _) ?_
    | (extract_lets +onlyGivenNames x; (with_reducible apply MemOk.cut x ?_ ?_); (on_goal 1 => (unfold x; clear x)); (on_goal 2 => (intro hx; clear_value x)))
    | (extract_lets +onlyGivenNames x; clear_value x)
    | (extract_lets +onlyGivenNames x; unfold x; clear x)
    | split)

theorem execLdw_memOk (a0 : CoreIx) (a1 : Bool) (s : State) :
    ∃ t, execLdw a0 a1 s = .next t ∧ MemOk s t := by
  delta execLdw
  repeat' (first
    | refine ⟨_, rfl, ?_⟩
    | with_reducible exact MemOk.refl _
    | with_reducible assumption
    | with_reducible apply MemOk.step (seqIssue_memOk _ _ _ _) ?_
    | (extract_lets +onlyGivenNames x; (with_reducible apply MemOk.cut x ?_ ?_); (on_goal 1 => (unfold x; clear x)); (on_goal 2 => (intro hx; clear_value x)))
    | (extract_lets +onlyGivenNames x; clear_value x)
    | (extract_lets +onlyGivenNames x; unfold x; clear x)
    | split)

theorem execLockWrite_memOk (a0 : Master) (a1 : Word) (s : State) :
    ∃ t, execLockWrite a0 a1 s = .next t ∧ MemOk s t := by
  delta execLockWrite
  repeat' (first
    | refine ⟨_, rfl, ?_⟩
    | with_reducible exact MemOk.refl _
    | with_reducible assumption
    | with_reducible apply MemOk.step (regPut_memOk _ _ _ _) ?_
    | (extract_lets +onlyGivenNames x; (with_reducible apply MemOk.cut x ?_ ?_); (on_goal 1 => (unfold x; clear x)); (on_goal 2 => (intro hx; clear_value x)))
    | (extract_lets +onlyGivenNames x; clear_value x)
    | (extract_lets +onlyGivenNames x; unfold x; clear x)
    | split)

theorem execLui_memOk (a0 : CoreIx) (s : State) :
    ∃ t, execLui a0 s = .next t ∧ MemOk s t := by
  delta execLui
  repeat' (first
    | refine ⟨_, rfl, ?_⟩
    | with_reducible exact MemOk.refl _
    | with_reducible assumption
    | with_reducible apply MemOk.step (seqOp_memOk _ _ _) ?_
    | (extract_lets +onlyGivenNames x; (with_reducible apply MemOk.cut x ?_ ?_); (on_goal 1 => (unfold x; clear x)); (on_goal 2 => (intro hx; clear_value x)))
    | (extract_lets +onlyGivenNames x; clear_value x)
    | (extract_lets +onlyGivenNames x; unfold x; clear x)
    | split)

theorem execMateLineChange_memOk (a0 : Bool) (a1 : Bool) (s : State) :
    ∃ t, execMateLineChange a0 a1 s = .next t ∧ MemOk s t := by
  delta execMateLineChange
  repeat' (first
    | refine ⟨_, rfl, ?_⟩
    | with_reducible exact MemOk.refl _
    | with_reducible assumption
    | ((with_reducible apply MemOk.ofSame ?_ (smbEval_same _) ?_); on_goal 1 => rfl)
    | with_reducible apply MemOk.step (mateLine_memOk _ _ _) ?_
    | (extract_lets +onlyGivenNames x; (with_reducible apply MemOk.cut x ?_ ?_); (on_goal 1 => (unfold x; clear x)); (on_goal 2 => (intro hx; clear_value x)))
    | (extract_lets +onlyGivenNames x; clear_value x)
    | (extract_lets +onlyGivenNames x; unfold x; clear x)
    | split)

theorem execMateSync_memOk (a0 : Master) (a1 : Bool) (s : State) :
    ∃ t, execMateSync a0 a1 s = .next t ∧ MemOk s t := by
  delta execMateSync
  repeat' (first
    | refine ⟨_, rfl, ?_⟩
    | with_reducible exact MemOk.refl _
    | with_reducible assumption
    | with_reducible apply MemOk.step (cmdAccess_memOk _ _ _ _ _ _) ?_
    | (extract_lets +onlyGivenNames x; (with_reducible apply MemOk.cut x ?_ ?_); (on_goal 1 => (unfold x; clear x)); (on_goal 2 => (intro hx; clear_value x)))
    | (extract_lets +onlyGivenNames x; clear_value x)
    | (extract_lets +onlyGivenNames x; unfold x; clear x)
    | split)

theorem execMateSyncApply_memOk (s : State) :
    ∃ t, execMateSyncApply s = .next t ∧ MemOk s t := by
  delta execMateSyncApply
  repeat' (first
    | refine ⟨_, rfl, ?_⟩
    | with_reducible exact MemOk.refl _
    | with_reducible assumption
    | ((with_reducible apply MemOk.ofSame ?_ (smbEval_same _) ?_); on_goal 1 => rfl)
    | with_reducible apply MemOk.step (imageRun_memOk _) ?_
    | (extract_lets +onlyGivenNames x; (with_reducible apply MemOk.cut x ?_ ?_); (on_goal 1 => (unfold x; clear x)); (on_goal 2 => (intro hx; clear_value x)))
    | (extract_lets +onlyGivenNames x; clear_value x)
    | (extract_lets +onlyGivenNames x; unfold x; clear x)
    | split)

theorem execMrstNRelease_memOk (s : State) :
    ∃ t, execMrstNRelease s = .next t ∧ MemOk s t := by
  delta execMrstNRelease
  repeat' (first
    | refine ⟨_, rfl, ?_⟩
    | with_reducible exact MemOk.refl _
    | with_reducible assumption
    | with_reducible apply MemOk.step (mrstHigh_memOk _) ?_
    | (extract_lets +onlyGivenNames x; (with_reducible apply MemOk.cut x ?_ ?_); (on_goal 1 => (unfold x; clear x)); (on_goal 2 => (intro hx; clear_value x)))
    | (extract_lets +onlyGivenNames x; clear_value x)
    | (extract_lets +onlyGivenNames x; unfold x; clear x)
    | split)

theorem execMul_memOk (a0 : CoreIx) (s : State) :
    ∃ t, execMul a0 s = .next t ∧ MemOk s t := by
  delta execMul
  repeat' (first
    | refine ⟨_, rfl, ?_⟩
    | with_reducible exact MemOk.refl _
    | with_reducible assumption
    | with_reducible apply MemOk.step (seqOp_memOk _ _ _) ?_
    | (extract_lets +onlyGivenNames x; (with_reducible apply MemOk.cut x ?_ ?_); (on_goal 1 => (unfold x; clear x)); (on_goal 2 => (intro hx; clear_value x)))
    | (extract_lets +onlyGivenNames x; clear_value x)
    | (extract_lets +onlyGivenNames x; unfold x; clear x)
    | split)

theorem execMulhs_memOk (a0 : CoreIx) (s : State) :
    ∃ t, execMulhs a0 s = .next t ∧ MemOk s t := by
  delta execMulhs
  repeat' (first
    | refine ⟨_, rfl, ?_⟩
    | with_reducible exact MemOk.refl _
    | with_reducible assumption
    | with_reducible apply MemOk.step (seqOp_memOk _ _ _) ?_
    | (extract_lets +onlyGivenNames x; (with_reducible apply MemOk.cut x ?_ ?_); (on_goal 1 => (unfold x; clear x)); (on_goal 2 => (intro hx; clear_value x)))
    | (extract_lets +onlyGivenNames x; clear_value x)
    | (extract_lets +onlyGivenNames x; unfold x; clear x)
    | split)

theorem execMulhu_memOk (a0 : CoreIx) (s : State) :
    ∃ t, execMulhu a0 s = .next t ∧ MemOk s t := by
  delta execMulhu
  repeat' (first
    | refine ⟨_, rfl, ?_⟩
    | with_reducible exact MemOk.refl _
    | with_reducible assumption
    | with_reducible apply MemOk.step (seqOp_memOk _ _ _) ?_
    | (extract_lets +onlyGivenNames x; (with_reducible apply MemOk.cut x ?_ ?_); (on_goal 1 => (unfold x; clear x)); (on_goal 2 => (intro hx; clear_value x)))
    | (extract_lets +onlyGivenNames x; clear_value x)
    | (extract_lets +onlyGivenNames x; unfold x; clear x)
    | split)

theorem execNop_memOk (a0 : CoreIx) (a1 : Bool) (s : State) :
    ∃ t, execNop a0 a1 s = .next t ∧ MemOk s t := by
  delta execNop
  repeat' (first
    | refine ⟨_, rfl, ?_⟩
    | with_reducible exact MemOk.refl _
    | with_reducible assumption
    | with_reducible apply MemOk.step (seqOp_memOk _ _ _) ?_
    | ((with_reducible apply MemOk.ofSame ?_ (seqFault_same _ _ _) ?_); on_goal 1 => rfl)
    | (extract_lets +onlyGivenNames x; (with_reducible apply MemOk.cut x ?_ ?_); (on_goal 1 => (unfold x; clear x)); (on_goal 2 => (intro hx; clear_value x)))
    | (extract_lets +onlyGivenNames x; clear_value x)
    | (extract_lets +onlyGivenNames x; unfold x; clear x)
    | split)

theorem execNvsLoad_memOk (a0 : Master) (a1 : ℕ) (a2 : CoreIx) (a3 : Bool) (s : State) :
    ∃ t, execNvsLoad a0 a1 a2 a3 s = .next t ∧ MemOk s t := by
  delta execNvsLoad
  repeat' (first
    | refine ⟨_, rfl, ?_⟩
    | with_reducible exact MemOk.refl _
    | with_reducible assumption
    | with_reducible apply MemOk.step (cmdAccess_memOk _ _ _ _ _ _) ?_
    | (extract_lets +onlyGivenNames x; (with_reducible apply MemOk.cut x ?_ ?_); (on_goal 1 => (unfold x; clear x)); (on_goal 2 => (intro hx; clear_value x)))
    | (extract_lets +onlyGivenNames x; clear_value x)
    | (extract_lets +onlyGivenNames x; unfold x; clear x)
    | split)

theorem execNvsLoadComplete_memOk (s : State) :
    ∃ t, execNvsLoadComplete s = .next t ∧ MemOk s t := by
  delta execNvsLoadComplete
  repeat' (first
    | refine ⟨_, rfl, ?_⟩
    | with_reducible exact MemOk.refl _
    | with_reducible assumption
    | with_reducible apply MemOk.step (loadDone_memOk _) ?_
    | (extract_lets +onlyGivenNames x; (with_reducible apply MemOk.cut x ?_ ?_); (on_goal 1 => (unfold x; clear x)); (on_goal 2 => (intro hx; clear_value x)))
    | (extract_lets +onlyGivenNames x; clear_value x)
    | (extract_lets +onlyGivenNames x; unfold x; clear x)
    | split)

theorem execNvsStore_memOk (a0 : Master) (a1 : ℕ) (a2 : CoreIx) (a3 : Bool) (s : State) :
    ∃ t, execNvsStore a0 a1 a2 a3 s = .next t ∧ MemOk s t := by
  delta execNvsStore
  repeat' (first
    | refine ⟨_, rfl, ?_⟩
    | with_reducible exact MemOk.refl _
    | with_reducible assumption
    | with_reducible apply MemOk.step (cmdAccess_memOk _ _ _ _ _ _) ?_
    | (extract_lets +onlyGivenNames x; (with_reducible apply MemOk.cut x ?_ ?_); (on_goal 1 => (unfold x; clear x)); (on_goal 2 => (intro hx; clear_value x)))
    | (extract_lets +onlyGivenNames x; clear_value x)
    | (extract_lets +onlyGivenNames x; unfold x; clear x)
    | split)

theorem execOenAt_memOk (a0 : CoreIx) (a1 : CycIx) (s : State) :
    ∃ t, execOenAt a0 a1 s = .next t ∧ MemOk s t := by
  delta execOenAt
  repeat' (first
    | refine ⟨_, rfl, ?_⟩
    | with_reducible exact MemOk.refl _
    | with_reducible assumption
    | ((with_reducible apply MemOk.ofSame ?_ (atCyc_same _ _) ?_); on_goal 1 => rfl)
    | with_reducible apply MemOk.step (seqOp_memOk _ _ _) ?_
    | (extract_lets +onlyGivenNames x; (with_reducible apply MemOk.cut x ?_ ?_); (on_goal 1 => (unfold x; clear x)); (on_goal 2 => (intro hx; clear_value x)))
    | (extract_lets +onlyGivenNames x; clear_value x)
    | (extract_lets +onlyGivenNames x; unfold x; clear x)
    | split)

theorem execOr_memOk (a0 : CoreIx) (s : State) :
    ∃ t, execOr a0 s = .next t ∧ MemOk s t := by
  delta execOr
  repeat' (first
    | refine ⟨_, rfl, ?_⟩
    | with_reducible exact MemOk.refl _
    | with_reducible assumption
    | with_reducible apply MemOk.step (seqOp_memOk _ _ _) ?_
    | (extract_lets +onlyGivenNames x; (with_reducible apply MemOk.cut x ?_ ?_); (on_goal 1 => (unfold x; clear x)); (on_goal 2 => (intro hx; clear_value x)))
    | (extract_lets +onlyGivenNames x; clear_value x)
    | (extract_lets +onlyGivenNames x; unfold x; clear x)
    | split)

theorem execOrderedShutdown_memOk (s : State) :
    ∃ t, execOrderedShutdown s = .next t ∧ MemOk s t := by
  delta execOrderedShutdown
  repeat' (first
    | refine ⟨_, rfl, ?_⟩
    | with_reducible exact MemOk.refl _
    | with_reducible assumption
    | with_reducible apply MemOk.step (shutdownRun_memOk _) ?_
    | (extract_lets +onlyGivenNames x; (with_reducible apply MemOk.cut x ?_ ?_); (on_goal 1 => (unfold x; clear x)); (on_goal 2 => (intro hx; clear_value x)))
    | (extract_lets +onlyGivenNames x; clear_value x)
    | (extract_lets +onlyGivenNames x; unfold x; clear x)
    | split)

theorem execOri_memOk (a0 : CoreIx) (s : State) :
    ∃ t, execOri a0 s = .next t ∧ MemOk s t := by
  delta execOri
  repeat' (first
    | refine ⟨_, rfl, ?_⟩
    | with_reducible exact MemOk.refl _
    | with_reducible assumption
    | with_reducible apply MemOk.step (seqOp_memOk _ _ _) ?_
    | (extract_lets +onlyGivenNames x; (with_reducible apply MemOk.cut x ?_ ?_); (on_goal 1 => (unfold x; clear x)); (on_goal 2 => (intro hx; clear_value x)))
    | (extract_lets +onlyGivenNames x; clear_value x)
    | (extract_lets +onlyGivenNames x; unfold x; clear x)
    | split)

theorem execParkRelease_memOk (a0 : Master) (s : State) :
    ∃ t, execParkRelease a0 s = .next t ∧ MemOk s t := by
  delta execParkRelease
  repeat' (first
    | refine ⟨_, rfl, ?_⟩
    | with_reducible exact MemOk.refl _
    | with_reducible assumption
    | with_reducible apply MemOk.step (regPut_memOk _ _ _ _) ?_
    | (extract_lets +onlyGivenNames x; (with_reducible apply MemOk.cut x ?_ ?_); (on_goal 1 => (unfold x; clear x)); (on_goal 2 => (intro hx; clear_value x)))
    | (extract_lets +onlyGivenNames x; clear_value x)
    | (extract_lets +onlyGivenNames x; unfold x; clear x)
    | split)

theorem execPendClear_memOk (a0 : Master) (a1 : SrcIx) (s : State) :
    ∃ t, execPendClear a0 a1 s = .next t ∧ MemOk s t := by
  delta execPendClear
  repeat' (first
    | refine ⟨_, rfl, ?_⟩
    | with_reducible exact MemOk.refl _
    | with_reducible assumption
    | with_reducible apply MemOk.step (regPut_memOk _ _ _ _) ?_
    | (extract_lets +onlyGivenNames x; (with_reducible apply MemOk.cut x ?_ ?_); (on_goal 1 => (unfold x; clear x)); (on_goal 2 => (intro hx; clear_value x)))
    | (extract_lets +onlyGivenNames x; clear_value x)
    | (extract_lets +onlyGivenNames x; unfold x; clear x)
    | split)

theorem execPhaseWalk_memOk (a0 : Master) (a1 : Fin 16) (a2 : ℤ) (a3 : Word) (a4 : Bool) (s : State) :
    ∃ t, execPhaseWalk a0 a1 a2 a3 a4 s = .next t ∧ MemOk s t := by
  delta execPhaseWalk
  repeat' (first
    | refine ⟨_, rfl, ?_⟩
    | with_reducible exact MemOk.refl _
    | with_reducible assumption
    | with_reducible apply MemOk.step (cmdAccess_memOk _ _ _ _ _ _) ?_
    | (extract_lets +onlyGivenNames x; (with_reducible apply MemOk.cut x ?_ ?_); (on_goal 1 => (unfold x; clear x)); (on_goal 2 => (intro hx; clear_value x)))
    | (extract_lets +onlyGivenNames x; clear_value x)
    | (extract_lets +onlyGivenNames x; unfold x; clear x)
    | split)

theorem execPhsAt_memOk (a0 : CoreIx) (a1 : CycIx) (s : State) :
    ∃ t, execPhsAt a0 a1 s = .next t ∧ MemOk s t := by
  delta execPhsAt
  repeat' (first
    | refine ⟨_, rfl, ?_⟩
    | with_reducible exact MemOk.refl _
    | with_reducible assumption
    | ((with_reducible apply MemOk.ofSame ?_ (atCyc_same _ _) ?_); on_goal 1 => rfl)
    | with_reducible apply MemOk.step (seqOp_memOk _ _ _) ?_
    | (extract_lets +onlyGivenNames x; (with_reducible apply MemOk.cut x ?_ ?_); (on_goal 1 => (unfold x; clear x)); (on_goal 2 => (intro hx; clear_value x)))
    | (extract_lets +onlyGivenNames x; clear_value x)
    | (extract_lets +onlyGivenNames x; unfold x; clear x)
    | split)

theorem execPor_memOk (s : State) :
    ∃ t, execPor s = .next t ∧ MemOk s t := by
  delta execPor
  repeat' (first
    | refine ⟨_, rfl, ?_⟩
    | with_reducible exact MemOk.refl _
    | with_reducible assumption
    | with_reducible apply MemOk.step (porRun_memOk _) ?_
    | (extract_lets +onlyGivenNames x; (with_reducible apply MemOk.cut x ?_ ?_); (on_goal 1 => (unfold x; clear x)); (on_goal 2 => (intro hx; clear_value x)))
    | (extract_lets +onlyGivenNames x; clear_value x)
    | (extract_lets +onlyGivenNames x; unfold x; clear x)
    | split)

theorem execPortCal_memOk (a0 : Master) (a1 : PortIx) (a2 : Bool) (s : State) :
    ∃ t, execPortCal a0 a1 a2 s = .next t ∧ MemOk s t := by
  delta execPortCal
  repeat' (first
    | refine ⟨_, rfl, ?_⟩
    | with_reducible exact MemOk.refl _
    | with_reducible assumption
    | with_reducible apply MemOk.step (cmdAccess_memOk _ _ _ _ _ _) ?_
    | (extract_lets +onlyGivenNames x; (with_reducible apply MemOk.cut x ?_ ?_); (on_goal 1 => (unfold x; clear x)); (on_goal 2 => (intro hx; clear_value x)))
    | (extract_lets +onlyGivenNames x; clear_value x)
    | (extract_lets +onlyGivenNames x; unfold x; clear x)
    | split)

theorem execPortFodWrite_memOk (a0 : Master) (a1 : PortIx) (a2 : FodIx) (a3 : CycIx) (s : State) :
    ∃ t, execPortFodWrite a0 a1 a2 a3 s = .next t ∧ MemOk s t := by
  delta execPortFodWrite
  repeat' (first
    | refine ⟨_, rfl, ?_⟩
    | with_reducible exact MemOk.refl _
    | with_reducible assumption
    | with_reducible apply MemOk.step (regPutM_memOk _ _ _ _ _) ?_
    | ((with_reducible apply MemOk.ofSame ?_ (atCyc_same _ _) ?_); on_goal 1 => rfl)
    | (extract_lets +onlyGivenNames x; (with_reducible apply MemOk.cut x ?_ ?_); (on_goal 1 => (unfold x; clear x)); (on_goal 2 => (intro hx; clear_value x)))
    | (extract_lets +onlyGivenNames x; clear_value x)
    | (extract_lets +onlyGivenNames x; unfold x; clear x)
    | split)

theorem execPost_memOk (a0 : CoreIx) (a1 : CycIx) (s : State) :
    ∃ t, execPost a0 a1 s = .next t ∧ MemOk s t := by
  delta execPost
  repeat' (first
    | refine ⟨_, rfl, ?_⟩
    | with_reducible exact MemOk.refl _
    | with_reducible assumption
    | ((with_reducible apply MemOk.ofSame ?_ (atCyc_same _ _) ?_); on_goal 1 => rfl)
    | with_reducible apply MemOk.step (seqOp_memOk _ _ _) ?_
    | (extract_lets +onlyGivenNames x; (with_reducible apply MemOk.cut x ?_ ?_); (on_goal 1 => (unfold x; clear x)); (on_goal 2 => (intro hx; clear_value x)))
    | (extract_lets +onlyGivenNames x; clear_value x)
    | (extract_lets +onlyGivenNames x; unfold x; clear x)
    | split)

theorem execPostedWriteLand_memOk (a0 : PostLand) (s : State) :
    ∃ t, execPostedWriteLand a0 s = .next t ∧ MemOk s t := by
  delta execPostedWriteLand
  repeat' (first
    | refine ⟨_, rfl, ?_⟩
    | with_reducible exact MemOk.refl _
    | with_reducible assumption
    | with_reducible apply MemOk.step (postLandTie_memOk _ _ _) ?_
    | (extract_lets +onlyGivenNames x; (with_reducible apply MemOk.cut x ?_ ?_); (on_goal 1 => (unfold x; clear x)); (on_goal 2 => (intro hx; clear_value x)))
    | (extract_lets +onlyGivenNames x; clear_value x)
    | (extract_lets +onlyGivenNames x; unfold x; clear x)
    | split)

theorem execPowerupCalStart_memOk (s : State) :
    ∃ t, execPowerupCalStart s = .next t ∧ MemOk s t := by
  delta execPowerupCalStart
  repeat' (first
    | refine ⟨_, rfl, ?_⟩
    | with_reducible exact MemOk.refl _
    | with_reducible assumption
    | with_reducible apply MemOk.step (calPower_memOk _) ?_
    | (extract_lets +onlyGivenNames x; (with_reducible apply MemOk.cut x ?_ ?_); (on_goal 1 => (unfold x; clear x)); (on_goal 2 => (intro hx; clear_value x)))
    | (extract_lets +onlyGivenNames x; clear_value x)
    | (extract_lets +onlyGivenNames x; unfold x; clear x)
    | split)

theorem execPpsEvent_memOk (s : State) :
    ∃ t, execPpsEvent s = .next t ∧ MemOk s t := by
  delta execPpsEvent
  repeat' (first
    | refine ⟨_, rfl, ?_⟩
    | with_reducible exact MemOk.refl _
    | with_reducible assumption
    | with_reducible apply MemOk.step (ppsNext_memOk _) ?_
    | (extract_lets +onlyGivenNames x; (with_reducible apply MemOk.cut x ?_ ?_); (on_goal 1 => (unfold x; clear x)); (on_goal 2 => (intro hx; clear_value x)))
    | (extract_lets +onlyGivenNames x; clear_value x)
    | (extract_lets +onlyGivenNames x; unfold x; clear x)
    | split)

theorem execPslew_memOk (a0 : Master) (a1 : FodIx) (a2 : CycIx) (s : State) :
    ∃ t, execPslew a0 a1 a2 s = .next t ∧ MemOk s t := by
  delta execPslew
  repeat' (first
    | refine ⟨_, rfl, ?_⟩
    | with_reducible exact MemOk.refl _
    | with_reducible assumption
    | with_reducible apply MemOk.step (regPutM_memOk _ _ _ _ _) ?_
    | ((with_reducible apply MemOk.ofSame ?_ (atCyc_same _ _) ?_); on_goal 1 => rfl)
    | (extract_lets +onlyGivenNames x; (with_reducible apply MemOk.cut x ?_ ?_); (on_goal 1 => (unfold x; clear x)); (on_goal 2 => (intro hx; clear_value x)))
    | (extract_lets +onlyGivenNames x; clear_value x)
    | (extract_lets +onlyGivenNames x; unfold x; clear x)
    | split)

theorem execPstep_memOk (a0 : Master) (a1 : FodIx) (a2 : CycIx) (s : State) :
    ∃ t, execPstep a0 a1 a2 s = .next t ∧ MemOk s t := by
  delta execPstep
  repeat' (first
    | refine ⟨_, rfl, ?_⟩
    | with_reducible exact MemOk.refl _
    | with_reducible assumption
    | with_reducible apply MemOk.step (regPutM_memOk _ _ _ _ _) ?_
    | ((with_reducible apply MemOk.ofSame ?_ (atCyc_same _ _) ?_); on_goal 1 => rfl)
    | (extract_lets +onlyGivenNames x; (with_reducible apply MemOk.cut x ?_ ?_); (on_goal 1 => (unfold x; clear x)); (on_goal 2 => (intro hx; clear_value x)))
    | (extract_lets +onlyGivenNames x; clear_value x)
    | (extract_lets +onlyGivenNames x; unfold x; clear x)
    | split)

theorem execPstop_memOk (a0 : Master) (a1 : FodIx) (a2 : CycIx) (s : State) :
    ∃ t, execPstop a0 a1 a2 s = .next t ∧ MemOk s t := by
  delta execPstop
  repeat' (first
    | refine ⟨_, rfl, ?_⟩
    | with_reducible exact MemOk.refl _
    | with_reducible assumption
    | with_reducible apply MemOk.step (regPutM_memOk _ _ _ _ _) ?_
    | ((with_reducible apply MemOk.ofSame ?_ (atCyc_same _ _) ?_); on_goal 1 => rfl)
    | (extract_lets +onlyGivenNames x; (with_reducible apply MemOk.cut x ?_ ?_); (on_goal 1 => (unfold x; clear x)); (on_goal 2 => (intro hx; clear_value x)))
    | (extract_lets +onlyGivenNames x; clear_value x)
    | (extract_lets +onlyGivenNames x; unfold x; clear x)
    | split)

theorem execQnow_memOk (a0 : Master) (a1 : RefIx) (s : State) :
    ∃ t, execQnow a0 a1 s = .next t ∧ MemOk s t := by
  delta execQnow
  repeat' (first
    | refine ⟨_, rfl, ?_⟩
    | with_reducible exact MemOk.refl _
    | with_reducible assumption
    | with_reducible apply MemOk.step (regPutM_memOk _ _ _ _ _) ?_
    | (extract_lets +onlyGivenNames x; (with_reducible apply MemOk.cut x ?_ ?_); (on_goal 1 => (unfold x; clear x)); (on_goal 2 => (intro hx; clear_value x)))
    | (extract_lets +onlyGivenNames x; clear_value x)
    | (extract_lets +onlyGivenNames x; unfold x; clear x)
    | split)

theorem execQueuedRate_memOk (s : State) :
    ∃ t, execQueuedRate s = .next t ∧ MemOk s t := by
  delta execQueuedRate
  repeat' (first
    | refine ⟨_, rfl, ?_⟩
    | with_reducible exact MemOk.refl _
    | with_reducible assumption
    | with_reducible apply MemOk.step (queuedTime_memOk _ _) ?_
    | (extract_lets +onlyGivenNames x; (with_reducible apply MemOk.cut x ?_ ?_); (on_goal 1 => (unfold x; clear x)); (on_goal 2 => (intro hx; clear_value x)))
    | (extract_lets +onlyGivenNames x; clear_value x)
    | (extract_lets +onlyGivenNames x; unfold x; clear x)
    | split)

theorem execQueuedSlew_memOk (s : State) :
    ∃ t, execQueuedSlew s = .next t ∧ MemOk s t := by
  delta execQueuedSlew
  repeat' (first
    | refine ⟨_, rfl, ?_⟩
    | with_reducible exact MemOk.refl _
    | with_reducible assumption
    | with_reducible apply MemOk.step (queuedTime_memOk _ _) ?_
    | (extract_lets +onlyGivenNames x; (with_reducible apply MemOk.cut x ?_ ?_); (on_goal 1 => (unfold x; clear x)); (on_goal 2 => (intro hx; clear_value x)))
    | (extract_lets +onlyGivenNames x; clear_value x)
    | (extract_lets +onlyGivenNames x; unfold x; clear x)
    | split)

theorem execQueuedSlewStop_memOk (s : State) :
    ∃ t, execQueuedSlewStop s = .next t ∧ MemOk s t := by
  delta execQueuedSlewStop
  repeat' (first
    | refine ⟨_, rfl, ?_⟩
    | with_reducible exact MemOk.refl _
    | with_reducible assumption
    | with_reducible apply MemOk.step (queuedTime_memOk _ _) ?_
    | (extract_lets +onlyGivenNames x; (with_reducible apply MemOk.cut x ?_ ?_); (on_goal 1 => (unfold x; clear x)); (on_goal 2 => (intro hx; clear_value x)))
    | (extract_lets +onlyGivenNames x; clear_value x)
    | (extract_lets +onlyGivenNames x; unfold x; clear x)
    | split)

theorem execQueuedSnap_memOk (a0 : CycIx) (s : State) :
    ∃ t, execQueuedSnap a0 s = .next t ∧ MemOk s t := by
  delta execQueuedSnap
  repeat' (first
    | refine ⟨_, rfl, ?_⟩
    | with_reducible exact MemOk.refl _
    | with_reducible assumption
    | with_reducible apply MemOk.step (snapDue_memOk _) ?_
    | ((with_reducible apply MemOk.ofSame ?_ (atCyc_same _ _) ?_); on_goal 1 => rfl)
    | (extract_lets +onlyGivenNames x; (with_reducible apply MemOk.cut x ?_ ?_); (on_goal 1 => (unfold x; clear x)); (on_goal 2 => (intro hx; clear_value x)))
    | (extract_lets +onlyGivenNames x; clear_value x)
    | (extract_lets +onlyGivenNames x; unfold x; clear x)
    | split)

theorem execQueuedStep_memOk (s : State) :
    ∃ t, execQueuedStep s = .next t ∧ MemOk s t := by
  delta execQueuedStep
  repeat' (first
    | refine ⟨_, rfl, ?_⟩
    | with_reducible exact MemOk.refl _
    | with_reducible assumption
    | with_reducible apply MemOk.step (queuedTime_memOk _ _) ?_
    | (extract_lets +onlyGivenNames x; (with_reducible apply MemOk.cut x ?_ ?_); (on_goal 1 => (unfold x; clear x)); (on_goal 2 => (intro hx; clear_value x)))
    | (extract_lets +onlyGivenNames x; clear_value x)
    | (extract_lets +onlyGivenNames x; unfold x; clear x)
    | split)

theorem execRatAt_memOk (a0 : CoreIx) (a1 : CycIx) (s : State) :
    ∃ t, execRatAt a0 a1 s = .next t ∧ MemOk s t := by
  delta execRatAt
  repeat' (first
    | refine ⟨_, rfl, ?_⟩
    | with_reducible exact MemOk.refl _
    | with_reducible assumption
    | ((with_reducible apply MemOk.ofSame ?_ (atCyc_same _ _) ?_); on_goal 1 => rfl)
    | with_reducible apply MemOk.step (seqOp_memOk _ _ _) ?_
    | (extract_lets +onlyGivenNames x; (with_reducible apply MemOk.cut x ?_ ?_); (on_goal 1 => (unfold x; clear x)); (on_goal 2 => (intro hx; clear_value x)))
    | (extract_lets +onlyGivenNames x; clear_value x)
    | (extract_lets +onlyGivenNames x; unfold x; clear x)
    | split)

theorem execRdreg_memOk (a0 : CoreIx) (a1 : CycIx) (s : State) :
    ∃ t, execRdreg a0 a1 s = .next t ∧ MemOk s t := by
  delta execRdreg
  repeat' (first
    | refine ⟨_, rfl, ?_⟩
    | with_reducible exact MemOk.refl _
    | with_reducible assumption
    | ((with_reducible apply MemOk.ofSame ?_ (atCyc_same _ _) ?_); on_goal 1 => rfl)
    | with_reducible apply MemOk.step (seqOp_memOk _ _ _) ?_
    | (extract_lets +onlyGivenNames x; (with_reducible apply MemOk.cut x ?_ ?_); (on_goal 1 => (unfold x; clear x)); (on_goal 2 => (intro hx; clear_value x)))
    | (extract_lets +onlyGivenNames x; clear_value x)
    | (extract_lets +onlyGivenNames x; unfold x; clear x)
    | split)

theorem execRefQualify_memOk (a0 : Master) (a1 : ℕ) (a2 : Bool) (a3 : ℕ) (a4 : Bool) (s : State) :
    ∃ t, execRefQualify a0 a1 a2 a3 a4 s = .next t ∧ MemOk s t := by
  delta execRefQualify
  repeat' (first
    | refine ⟨_, rfl, ?_⟩
    | with_reducible exact MemOk.refl _
    | with_reducible assumption
    | with_reducible apply MemOk.step (cmdAccess_memOk _ _ _ _ _ _) ?_
    | (extract_lets +onlyGivenNames x; (with_reducible apply MemOk.cut x ?_ ?_); (on_goal 1 => (unfold x; clear x)); (on_goal 2 => (intro hx; clear_value x)))
    | (extract_lets +onlyGivenNames x; clear_value x)
    | (extract_lets +onlyGivenNames x; unfold x; clear x)
    | split)

theorem execRegisterWrite_memOk (a0 : Master) (a1 : ℕ) (a2 : ℕ) (a3 : ℕ) (a4 : WriteAt) (s : State) :
    ∃ t, execRegisterWrite a0 a1 a2 a3 a4 s = .next t ∧ MemOk s t := by
  delta execRegisterWrite
  repeat' (first
    | refine ⟨_, rfl, ?_⟩
    | with_reducible exact MemOk.refl _
    | with_reducible assumption
    | with_reducible apply MemOk.step (busWriteTie_memOk _ _ _ _ _ _) ?_
    | ((with_reducible apply MemOk.ofSame ?_ (atCyc_same _ _) ?_); on_goal 1 => rfl)
    | (extract_lets +onlyGivenNames x; (with_reducible apply MemOk.cut x ?_ ?_); (on_goal 1 => (unfold x; clear x)); (on_goal 2 => (intro hx; clear_value x)))
    | (extract_lets +onlyGivenNames x; clear_value x)
    | (extract_lets +onlyGivenNames x; unfold x; clear x)
    | split)

theorem execRequal_memOk (a0 : Master) (a1 : RefIx) (s : State) :
    ∃ t, execRequal a0 a1 s = .next t ∧ MemOk s t := by
  delta execRequal
  repeat' (first
    | refine ⟨_, rfl, ?_⟩
    | with_reducible exact MemOk.refl _
    | with_reducible assumption
    | with_reducible apply MemOk.step (regPutM_memOk _ _ _ _ _) ?_
    | (extract_lets +onlyGivenNames x; (with_reducible apply MemOk.cut x ?_ ?_); (on_goal 1 => (unfold x; clear x)); (on_goal 2 => (intro hx; clear_value x)))
    | (extract_lets +onlyGivenNames x; clear_value x)
    | (extract_lets +onlyGivenNames x; unfold x; clear x)
    | split)

theorem execResel_memOk (a0 : Master) (a1 : DpIx) (s : State) :
    ∃ t, execResel a0 a1 s = .next t ∧ MemOk s t := by
  delta execResel
  repeat' (first
    | refine ⟨_, rfl, ?_⟩
    | with_reducible exact MemOk.refl _
    | with_reducible assumption
    | with_reducible apply MemOk.step (regPutM_memOk _ _ _ _ _) ?_
    | (extract_lets +onlyGivenNames x; (with_reducible apply MemOk.cut x ?_ ?_); (on_goal 1 => (unfold x; clear x)); (on_goal 2 => (intro hx; clear_value x)))
    | (extract_lets +onlyGivenNames x; clear_value x)
    | (extract_lets +onlyGivenNames x; unfold x; clear x)
    | split)

theorem execResync_memOk (a0 : Master) (a1 : PortIx) (a2 : CycIx) (s : State) :
    ∃ t, execResync a0 a1 a2 s = .next t ∧ MemOk s t := by
  delta execResync
  repeat' (first
    | refine ⟨_, rfl, ?_⟩
    | with_reducible exact MemOk.refl _
    | with_reducible assumption
    | with_reducible apply MemOk.step (regPutM_memOk _ _ _ _ _) ?_
    | ((with_reducible apply MemOk.ofSame ?_ (atCyc_same _ _) ?_); on_goal 1 => rfl)
    | (extract_lets +onlyGivenNames x; (with_reducible apply MemOk.cut x ?_ ?_); (on_goal 1 => (unfold x; clear x)); (on_goal 2 => (intro hx; clear_value x)))
    | (extract_lets +onlyGivenNames x; clear_value x)
    | (extract_lets +onlyGivenNames x; unfold x; clear x)
    | split)

theorem execRetune_memOk (a0 : Master) (a1 : ScIx) (a2 : Fin 4) (a3 : Bool) (a4 : CycIx) (s : State) :
    ∃ t, execRetune a0 a1 a2 a3 a4 s = .next t ∧ MemOk s t := by
  delta execRetune
  repeat' (first
    | refine ⟨_, rfl, ?_⟩
    | with_reducible exact MemOk.refl _
    | with_reducible assumption
    | with_reducible apply MemOk.step (regPutM_memOk _ _ _ _ _) ?_
    | ((with_reducible apply MemOk.ofSame ?_ (atCyc_same _ _) ?_); on_goal 1 => rfl)
    | (extract_lets +onlyGivenNames x; (with_reducible apply MemOk.cut x ?_ ?_); (on_goal 1 => (unfold x; clear x)); (on_goal 2 => (intro hx; clear_value x)))
    | (extract_lets +onlyGivenNames x; clear_value x)
    | (extract_lets +onlyGivenNames x; unfold x; clear x)
    | split)

theorem execRideExit_memOk (s : State) :
    ∃ t, execRideExit s = .next t ∧ MemOk s t := by
  delta execRideExit
  repeat' (first
    | refine ⟨_, rfl, ?_⟩
    | with_reducible exact MemOk.refl _
    | with_reducible assumption
    | ((with_reducible apply MemOk.ofSame ?_ (smbEval_same _) ?_); on_goal 1 => rfl)
    | with_reducible apply MemOk.step (rideLeave_memOk _) ?_
    | (extract_lets +onlyGivenNames x; (with_reducible apply MemOk.cut x ?_ ?_); (on_goal 1 => (unfold x; clear x)); (on_goal 2 => (intro hx; clear_value x)))
    | (extract_lets +onlyGivenNames x; clear_value x)
    | (extract_lets +onlyGivenNames x; unfold x; clear x)
    | split)

theorem execRideStores_memOk (a0 : Bool) (s : State) :
    ∃ t, execRideStores a0 s = .next t ∧ MemOk s t := by
  delta execRideStores
  repeat' (first
    | refine ⟨_, rfl, ?_⟩
    | with_reducible exact MemOk.refl _
    | with_reducible assumption
    | with_reducible apply MemOk.step (rideStore_memOk _ _) ?_
    | (extract_lets +onlyGivenNames x; (with_reducible apply MemOk.cut x ?_ ?_); (on_goal 1 => (unfold x; clear x)); (on_goal 2 => (intro hx; clear_value x)))
    | (extract_lets +onlyGivenNames x; clear_value x)
    | (extract_lets +onlyGivenNames x; unfold x; clear x)
    | split)

theorem execRideYield_memOk (s : State) :
    ∃ t, execRideYield s = .next t ∧ MemOk s t := by
  delta execRideYield
  repeat' (first
    | refine ⟨_, rfl, ?_⟩
    | with_reducible exact MemOk.refl _
    | with_reducible assumption
    | with_reducible apply MemOk.step (rideHand_memOk _) ?_
    | (extract_lets +onlyGivenNames x; (with_reducible apply MemOk.cut x ?_ ?_); (on_goal 1 => (unfold x; clear x)); (on_goal 2 => (intro hx; clear_value x)))
    | (extract_lets +onlyGivenNames x; clear_value x)
    | (extract_lets +onlyGivenNames x; unfold x; clear x)
    | split)

theorem execRingCfgWrite_memOk (a0 : Master) (a1 : RingIx) (a2 : Word) (s : State) :
    ∃ t, execRingCfgWrite a0 a1 a2 s = .next t ∧ MemOk s t := by
  delta execRingCfgWrite
  repeat' (first
    | refine ⟨_, rfl, ?_⟩
    | with_reducible exact MemOk.refl _
    | with_reducible assumption
    | with_reducible apply MemOk.step (regPut_memOk _ _ _ _) ?_
    | (extract_lets +onlyGivenNames x; (with_reducible apply MemOk.cut x ?_ ?_); (on_goal 1 => (unfold x; clear x)); (on_goal 2 => (intro hx; clear_value x)))
    | (extract_lets +onlyGivenNames x; clear_value x)
    | (extract_lets +onlyGivenNames x; unfold x; clear x)
    | split)

theorem execRingRdWrite_memOk (a0 : Master) (a1 : RingIx) (a2 : Word) (s : State) :
    ∃ t, execRingRdWrite a0 a1 a2 s = .next t ∧ MemOk s t := by
  delta execRingRdWrite
  repeat' (first
    | refine ⟨_, rfl, ?_⟩
    | with_reducible exact MemOk.refl _
    | with_reducible assumption
    | with_reducible apply MemOk.step (regPut_memOk _ _ _ _) ?_
    | (extract_lets +onlyGivenNames x; (with_reducible apply MemOk.cut x ?_ ?_); (on_goal 1 => (unfold x; clear x)); (on_goal 2 => (intro hx; clear_value x)))
    | (extract_lets +onlyGivenNames x; clear_value x)
    | (extract_lets +onlyGivenNames x; unfold x; clear x)
    | split)

theorem execSar_memOk (a0 : CoreIx) (s : State) :
    ∃ t, execSar a0 s = .next t ∧ MemOk s t := by
  delta execSar
  repeat' (first
    | refine ⟨_, rfl, ?_⟩
    | with_reducible exact MemOk.refl _
    | with_reducible assumption
    | with_reducible apply MemOk.step (seqOp_memOk _ _ _) ?_
    | (extract_lets +onlyGivenNames x; (with_reducible apply MemOk.cut x ?_ ?_); (on_goal 1 => (unfold x; clear x)); (on_goal 2 => (intro hx; clear_value x)))
    | (extract_lets +onlyGivenNames x; clear_value x)
    | (extract_lets +onlyGivenNames x; unfold x; clear x)
    | split)

theorem execSari_memOk (a0 : CoreIx) (s : State) :
    ∃ t, execSari a0 s = .next t ∧ MemOk s t := by
  delta execSari
  repeat' (first
    | refine ⟨_, rfl, ?_⟩
    | with_reducible exact MemOk.refl _
    | with_reducible assumption
    | with_reducible apply MemOk.step (seqOp_memOk _ _ _) ?_
    | (extract_lets +onlyGivenNames x; (with_reducible apply MemOk.cut x ?_ ?_); (on_goal 1 => (unfold x; clear x)); (on_goal 2 => (intro hx; clear_value x)))
    | (extract_lets +onlyGivenNames x; clear_value x)
    | (extract_lets +onlyGivenNames x; unfold x; clear x)
    | split)

theorem execScRetune_memOk (a0 : Master) (a1 : ScIx) (a2 : Fin 4) (a3 : BitVec 64) (a4 : Bool) (s : State) :
    ∃ t, execScRetune a0 a1 a2 a3 a4 s = .next t ∧ MemOk s t := by
  delta execScRetune
  repeat' (first
    | refine ⟨_, rfl, ?_⟩
    | with_reducible exact MemOk.refl _
    | with_reducible assumption
    | with_reducible apply MemOk.step (cmdAccess_memOk _ _ _ _ _ _) ?_
    | (extract_lets +onlyGivenNames x; (with_reducible apply MemOk.cut x ?_ ?_); (on_goal 1 => (unfold x; clear x)); (on_goal 2 => (intro hx; clear_value x)))
    | (extract_lets +onlyGivenNames x; clear_value x)
    | (extract_lets +onlyGivenNames x; unfold x; clear x)
    | split)

theorem execScreedClear_memOk (a0 : Master) (s : State) :
    ∃ t, execScreedClear a0 s = .next t ∧ MemOk s t := by
  delta execScreedClear
  repeat' (first
    | refine ⟨_, rfl, ?_⟩
    | with_reducible exact MemOk.refl _
    | with_reducible assumption
    | with_reducible apply MemOk.step (regPut_memOk _ _ _ _) ?_
    | (extract_lets +onlyGivenNames x; (with_reducible apply MemOk.cut x ?_ ?_); (on_goal 1 => (unfold x; clear x)); (on_goal 2 => (intro hx; clear_value x)))
    | (extract_lets +onlyGivenNames x; clear_value x)
    | (extract_lets +onlyGivenNames x; unfold x; clear x)
    | split)

theorem execScreedSave_memOk (a0 : Master) (a1 : Bool) (s : State) :
    ∃ t, execScreedSave a0 a1 s = .next t ∧ MemOk s t := by
  delta execScreedSave
  repeat' (first
    | refine ⟨_, rfl, ?_⟩
    | with_reducible exact MemOk.refl _
    | with_reducible assumption
    | with_reducible apply MemOk.step (cmdAccess_memOk _ _ _ _ _ _) ?_
    | (extract_lets +onlyGivenNames x; (with_reducible apply MemOk.cut x ?_ ?_); (on_goal 1 => (unfold x; clear x)); (on_goal 2 => (intro hx; clear_value x)))
    | (extract_lets +onlyGivenNames x; clear_value x)
    | (extract_lets +onlyGivenNames x; unfold x; clear x)
    | split)

theorem execSealCommit_memOk (a0 : Master) (a1 : Bool) (s : State) :
    ∃ t, execSealCommit a0 a1 s = .next t ∧ MemOk s t := by
  delta execSealCommit
  repeat' (first
    | refine ⟨_, rfl, ?_⟩
    | with_reducible exact MemOk.refl _
    | with_reducible assumption
    | with_reducible apply MemOk.step (cmdAccess_memOk _ _ _ _ _ _) ?_
    | (extract_lets +onlyGivenNames x; (with_reducible apply MemOk.cut x ?_ ?_); (on_goal 1 => (unfold x; clear x)); (on_goal 2 => (intro hx; clear_value x)))
    | (extract_lets +onlyGivenNames x; clear_value x)
    | (extract_lets +onlyGivenNames x; unfold x; clear x)
    | split)

theorem execSealHold_memOk (a0 : Master) (s : State) :
    ∃ t, execSealHold a0 s = .next t ∧ MemOk s t := by
  delta execSealHold
  repeat' (first
    | refine ⟨_, rfl, ?_⟩
    | with_reducible exact MemOk.refl _
    | with_reducible assumption
    | with_reducible apply MemOk.step (regPut_memOk _ _ _ _) ?_
    | (extract_lets +onlyGivenNames x; (with_reducible apply MemOk.cut x ?_ ?_); (on_goal 1 => (unfold x; clear x)); (on_goal 2 => (intro hx; clear_value x)))
    | (extract_lets +onlyGivenNames x; clear_value x)
    | (extract_lets +onlyGivenNames x; unfold x; clear x)
    | split)

theorem execSealPassEnd_memOk (s : State) :
    ∃ t, execSealPassEnd s = .next t ∧ MemOk s t := by
  delta execSealPassEnd
  repeat' (first
    | refine ⟨_, rfl, ?_⟩
    | with_reducible exact MemOk.refl _
    | with_reducible assumption
    | with_reducible apply MemOk.step (sealEnd_memOk _) ?_
    | (extract_lets +onlyGivenNames x; (with_reducible apply MemOk.cut x ?_ ?_); (on_goal 1 => (unfold x; clear x)); (on_goal 2 => (intro hx; clear_value x)))
    | (extract_lets +onlyGivenNames x; clear_value x)
    | (extract_lets +onlyGivenNames x; unfold x; clear x)
    | split)

theorem execSelftest_memOk (a0 : Master) (a1 : ℕ) (a2 : Bool) (s : State) :
    ∃ t, execSelftest a0 a1 a2 s = .next t ∧ MemOk s t := by
  delta execSelftest
  repeat' (first
    | refine ⟨_, rfl, ?_⟩
    | with_reducible exact MemOk.refl _
    | with_reducible assumption
    | with_reducible apply MemOk.step (cmdAccess_memOk _ _ _ _ _ _) ?_
    | (extract_lets +onlyGivenNames x; (with_reducible apply MemOk.cut x ?_ ?_); (on_goal 1 => (unfold x; clear x)); (on_goal 2 => (intro hx; clear_value x)))
    | (extract_lets +onlyGivenNames x; clear_value x)
    | (extract_lets +onlyGivenNames x; unfold x; clear x)
    | split)

theorem execSemaphoreRead_memOk (a0 : Master) (a1 : BarRead) (s : State) :
    ∃ t, execSemaphoreRead a0 a1 s = .next t ∧ MemOk s t := by
  delta execSemaphoreRead
  dsimp only
  split
  · exact ⟨_, rfl, MemOk.refl _⟩
  · split
    · exact ⟨_, rfl, MemOk.ofSame (by rfl) (emit_same _ _) (bar2Bad_memOk _ _ _)⟩
    · refine ⟨_, rfl, MemOk.ofSame (by rfl) (emit_same _ _) (MemOk.step (bar2Get_memOk _ _ _ _) ?_)⟩
      split
      · exact MemOk.ofSame (by rfl) (bump_same _ _ _) (MemOk.refl _)
      · exact MemOk.refl _

theorem execSeqDoorbell_memOk (a0 : Master) (a1 : CoreIx) (s : State) :
    ∃ t, execSeqDoorbell a0 a1 s = .next t ∧ MemOk s t := by
  delta execSeqDoorbell
  repeat' (first
    | refine ⟨_, rfl, ?_⟩
    | with_reducible exact MemOk.refl _
    | with_reducible assumption
    | with_reducible apply MemOk.step (regPut_memOk _ _ _ _) ?_
    | (extract_lets +onlyGivenNames x; (with_reducible apply MemOk.cut x ?_ ?_); (on_goal 1 => (unfold x; clear x)); (on_goal 2 => (intro hx; clear_value x)))
    | (extract_lets +onlyGivenNames x; clear_value x)
    | (extract_lets +onlyGivenNames x; unfold x; clear x)
    | split)

theorem execSeqExcClr_memOk (a0 : Master) (a1 : CoreIx) (s : State) :
    ∃ t, execSeqExcClr a0 a1 s = .next t ∧ MemOk s t := by
  delta execSeqExcClr
  repeat' (first
    | refine ⟨_, rfl, ?_⟩
    | with_reducible exact MemOk.refl _
    | with_reducible assumption
    | with_reducible apply MemOk.step (regPut_memOk _ _ _ _) ?_
    | (extract_lets +onlyGivenNames x; (with_reducible apply MemOk.cut x ?_ ?_); (on_goal 1 => (unfold x; clear x)); (on_goal 2 => (intro hx; clear_value x)))
    | (extract_lets +onlyGivenNames x; clear_value x)
    | (extract_lets +onlyGivenNames x; unfold x; clear x)
    | split)

theorem execSeqHalt_memOk (a0 : Master) (a1 : CoreIx) (s : State) :
    ∃ t, execSeqHalt a0 a1 s = .next t ∧ MemOk s t := by
  delta execSeqHalt
  repeat' (first
    | refine ⟨_, rfl, ?_⟩
    | with_reducible exact MemOk.refl _
    | with_reducible assumption
    | with_reducible apply MemOk.step (regPut_memOk _ _ _ _) ?_
    | (extract_lets +onlyGivenNames x; (with_reducible apply MemOk.cut x ?_ ?_); (on_goal 1 => (unfold x; clear x)); (on_goal 2 => (intro hx; clear_value x)))
    | (extract_lets +onlyGivenNames x; clear_value x)
    | (extract_lets +onlyGivenNames x; unfold x; clear x)
    | split)

theorem execSeqResume_memOk (a0 : Master) (a1 : CoreIx) (s : State) :
    ∃ t, execSeqResume a0 a1 s = .next t ∧ MemOk s t := by
  delta execSeqResume
  repeat' (first
    | refine ⟨_, rfl, ?_⟩
    | with_reducible exact MemOk.refl _
    | with_reducible assumption
    | with_reducible apply MemOk.step (regPut_memOk _ _ _ _) ?_
    | (extract_lets +onlyGivenNames x; (with_reducible apply MemOk.cut x ?_ ?_); (on_goal 1 => (unfold x; clear x)); (on_goal 2 => (intro hx; clear_value x)))
    | (extract_lets +onlyGivenNames x; clear_value x)
    | (extract_lets +onlyGivenNames x; unfold x; clear x)
    | split)

theorem execSeqStart_memOk (a0 : Master) (a1 : CoreIx) (s : State) :
    ∃ t, execSeqStart a0 a1 s = .next t ∧ MemOk s t := by
  delta execSeqStart
  repeat' (first
    | refine ⟨_, rfl, ?_⟩
    | with_reducible exact MemOk.refl _
    | with_reducible assumption
    | with_reducible apply MemOk.step (regPut_memOk _ _ _ _) ?_
    | (extract_lets +onlyGivenNames x; (with_reducible apply MemOk.cut x ?_ ?_); (on_goal 1 => (unfold x; clear x)); (on_goal 2 => (intro hx; clear_value x)))
    | (extract_lets +onlyGivenNames x; clear_value x)
    | (extract_lets +onlyGivenNames x; unfold x; clear x)
    | split)

theorem execSeqStep_memOk (a0 : Master) (a1 : CoreIx) (s : State) :
    ∃ t, execSeqStep a0 a1 s = .next t ∧ MemOk s t := by
  delta execSeqStep
  repeat' (first
    | refine ⟨_, rfl, ?_⟩
    | with_reducible exact MemOk.refl _
    | with_reducible assumption
    | with_reducible apply MemOk.step (regPut_memOk _ _ _ _) ?_
    | (extract_lets +onlyGivenNames x; (with_reducible apply MemOk.cut x ?_ ?_); (on_goal 1 => (unfold x; clear x)); (on_goal 2 => (intro hx; clear_value x)))
    | (extract_lets +onlyGivenNames x; clear_value x)
    | (extract_lets +onlyGivenNames x; unfold x; clear x)
    | split)

theorem execSeqVerify_memOk (a0 : Master) (a1 : CoreIx) (s : State) :
    ∃ t, execSeqVerify a0 a1 s = .next t ∧ MemOk s t := by
  delta execSeqVerify
  repeat' (first
    | refine ⟨_, rfl, ?_⟩
    | with_reducible exact MemOk.refl _
    | with_reducible assumption
    | with_reducible apply MemOk.step (regPut_memOk _ _ _ _) ?_
    | (extract_lets +onlyGivenNames x; (with_reducible apply MemOk.cut x ?_ ?_); (on_goal 1 => (unfold x; clear x)); (on_goal 2 => (intro hx; clear_value x)))
    | (extract_lets +onlyGivenNames x; clear_value x)
    | (extract_lets +onlyGivenNames x; unfold x; clear x)
    | split)

theorem execShadowLatchRead_memOk (a0 : Master) (a1 : ℕ) (a2 : ℕ) (a3 : CycIx) (s : State) :
    ∃ t, execShadowLatchRead a0 a1 a2 a3 s = .next t ∧ MemOk s t := by
  delta execShadowLatchRead
  repeat' (first
    | refine ⟨_, rfl, ?_⟩
    | with_reducible exact MemOk.refl _
    | with_reducible assumption
    | ((with_reducible apply MemOk.ofSame ?_ (atCyc_same _ _) ?_); on_goal 1 => rfl)
    | with_reducible apply MemOk.step (readOut_memOk _ _ _ _) ?_
    | (extract_lets +onlyGivenNames x; (with_reducible apply MemOk.cut x ?_ ?_); (on_goal 1 => (unfold x; clear x)); (on_goal 2 => (intro hx; clear_value x)))
    | (extract_lets +onlyGivenNames x; clear_value x)
    | (extract_lets +onlyGivenNames x; unfold x; clear x)
    | split)

theorem execShl_memOk (a0 : CoreIx) (s : State) :
    ∃ t, execShl a0 s = .next t ∧ MemOk s t := by
  delta execShl
  repeat' (first
    | refine ⟨_, rfl, ?_⟩
    | with_reducible exact MemOk.refl _
    | with_reducible assumption
    | with_reducible apply MemOk.step (seqOp_memOk _ _ _) ?_
    | (extract_lets +onlyGivenNames x; (with_reducible apply MemOk.cut x ?_ ?_); (on_goal 1 => (unfold x; clear x)); (on_goal 2 => (intro hx; clear_value x)))
    | (extract_lets +onlyGivenNames x; clear_value x)
    | (extract_lets +onlyGivenNames x; unfold x; clear x)
    | split)

theorem execShli_memOk (a0 : CoreIx) (s : State) :
    ∃ t, execShli a0 s = .next t ∧ MemOk s t := by
  delta execShli
  repeat' (first
    | refine ⟨_, rfl, ?_⟩
    | with_reducible exact MemOk.refl _
    | with_reducible assumption
    | with_reducible apply MemOk.step (seqOp_memOk _ _ _) ?_
    | (extract_lets +onlyGivenNames x; (with_reducible apply MemOk.cut x ?_ ?_); (on_goal 1 => (unfold x; clear x)); (on_goal 2 => (intro hx; clear_value x)))
    | (extract_lets +onlyGivenNames x; clear_value x)
    | (extract_lets +onlyGivenNames x; unfold x; clear x)
    | split)

theorem execShr_memOk (a0 : CoreIx) (s : State) :
    ∃ t, execShr a0 s = .next t ∧ MemOk s t := by
  delta execShr
  repeat' (first
    | refine ⟨_, rfl, ?_⟩
    | with_reducible exact MemOk.refl _
    | with_reducible assumption
    | with_reducible apply MemOk.step (seqOp_memOk _ _ _) ?_
    | (extract_lets +onlyGivenNames x; (with_reducible apply MemOk.cut x ?_ ?_); (on_goal 1 => (unfold x; clear x)); (on_goal 2 => (intro hx; clear_value x)))
    | (extract_lets +onlyGivenNames x; clear_value x)
    | (extract_lets +onlyGivenNames x; unfold x; clear x)
    | split)

theorem execShri_memOk (a0 : CoreIx) (s : State) :
    ∃ t, execShri a0 s = .next t ∧ MemOk s t := by
  delta execShri
  repeat' (first
    | refine ⟨_, rfl, ?_⟩
    | with_reducible exact MemOk.refl _
    | with_reducible assumption
    | with_reducible apply MemOk.step (seqOp_memOk _ _ _) ?_
    | (extract_lets +onlyGivenNames x; (with_reducible apply MemOk.cut x ?_ ?_); (on_goal 1 => (unfold x; clear x)); (on_goal 2 => (intro hx; clear_value x)))
    | (extract_lets +onlyGivenNames x; clear_value x)
    | (extract_lets +onlyGivenNames x; unfold x; clear x)
    | split)

theorem execSig_memOk (a0 : CoreIx) (s : State) :
    ∃ t, execSig a0 s = .next t ∧ MemOk s t := by
  delta execSig
  repeat' (first
    | refine ⟨_, rfl, ?_⟩
    | with_reducible exact MemOk.refl _
    | with_reducible assumption
    | with_reducible apply MemOk.step (seqOp_memOk _ _ _) ?_
    | (extract_lets +onlyGivenNames x; (with_reducible apply MemOk.cut x ?_ ?_); (on_goal 1 => (unfold x; clear x)); (on_goal 2 => (intro hx; clear_value x)))
    | (extract_lets +onlyGivenNames x; clear_value x)
    | (extract_lets +onlyGivenNames x; unfold x; clear x)
    | split)

theorem execSlewEnd_memOk (s : State) :
    ∃ t, execSlewEnd s = .next t ∧ MemOk s t := by
  delta execSlewEnd
  repeat' (first
    | refine ⟨_, rfl, ?_⟩
    | with_reducible exact MemOk.refl _
    | with_reducible assumption
    | with_reducible apply MemOk.step (aonRun_memOk _ _ _) ?_
    | (extract_lets +onlyGivenNames x; (with_reducible apply MemOk.cut x ?_ ?_); (on_goal 1 => (unfold x; clear x)); (on_goal 2 => (intro hx; clear_value x)))
    | (extract_lets +onlyGivenNames x; clear_value x)
    | (extract_lets +onlyGivenNames x; unfold x; clear x)
    | split)

theorem execSnap_memOk (a0 : SnapMsg) (a1 : BitVec 16) (a2 : CycIx) (s : State) :
    ∃ t, execSnap a0 a1 a2 s = .next t ∧ MemOk s t := by
  delta execSnap
  repeat' (first
    | refine ⟨_, rfl, ?_⟩
    | with_reducible exact MemOk.refl _
    | with_reducible assumption
    | with_reducible apply MemOk.step (snapTake_memOk _ _ _) ?_
    | ((with_reducible apply MemOk.ofSame ?_ (atCyc_same _ _) ?_); on_goal 1 => rfl)
    | (extract_lets +onlyGivenNames x; (with_reducible apply MemOk.cut x ?_ ?_); (on_goal 1 => (unfold x; clear x)); (on_goal 2 => (intro hx; clear_value x)))
    | (extract_lets +onlyGivenNames x; clear_value x)
    | (extract_lets +onlyGivenNames x; unfold x; clear x)
    | split)

theorem execSnapAt_memOk (a0 : CoreIx) (a1 : CycIx) (s : State) :
    ∃ t, execSnapAt a0 a1 s = .next t ∧ MemOk s t := by
  delta execSnapAt
  repeat' (first
    | refine ⟨_, rfl, ?_⟩
    | with_reducible exact MemOk.refl _
    | with_reducible assumption
    | ((with_reducible apply MemOk.ofSame ?_ (atCyc_same _ _) ?_); on_goal 1 => rfl)
    | with_reducible apply MemOk.step (seqOp_memOk _ _ _) ?_
    | (extract_lets +onlyGivenNames x; (with_reducible apply MemOk.cut x ?_ ?_); (on_goal 1 => (unfold x; clear x)); (on_goal 2 => (intro hx; clear_value x)))
    | (extract_lets +onlyGivenNames x; clear_value x)
    | (extract_lets +onlyGivenNames x; unfold x; clear x)
    | split)

theorem execSnapEnq_memOk (a0 : Master) (a1 : CycIx) (s : State) :
    ∃ t, execSnapEnq a0 a1 s = .next t ∧ MemOk s t := by
  delta execSnapEnq
  repeat' (first
    | refine ⟨_, rfl, ?_⟩
    | with_reducible exact MemOk.refl _
    | with_reducible assumption
    | ((with_reducible apply MemOk.ofSame ?_ (atCyc_same _ _) ?_); on_goal 1 => rfl)
    | with_reducible apply MemOk.step (regPut_memOk _ _ _ _) ?_
    | (extract_lets +onlyGivenNames x; (with_reducible apply MemOk.cut x ?_ ?_); (on_goal 1 => (unfold x; clear x)); (on_goal 2 => (intro hx; clear_value x)))
    | (extract_lets +onlyGivenNames x; clear_value x)
    | (extract_lets +onlyGivenNames x; unfold x; clear x)
    | split)

theorem execSnapHold_memOk (a0 : Master) (s : State) :
    ∃ t, execSnapHold a0 s = .next t ∧ MemOk s t := by
  delta execSnapHold
  repeat' (first
    | refine ⟨_, rfl, ?_⟩
    | with_reducible exact MemOk.refl _
    | with_reducible assumption
    | with_reducible apply MemOk.step (regPut_memOk _ _ _ _) ?_
    | (extract_lets +onlyGivenNames x; (with_reducible apply MemOk.cut x ?_ ?_); (on_goal 1 => (unfold x; clear x)); (on_goal 2 => (intro hx; clear_value x)))
    | (extract_lets +onlyGivenNames x; clear_value x)
    | (extract_lets +onlyGivenNames x; unfold x; clear x)
    | split)

theorem execSnapInEdge_memOk (a0 : ℤ) (a1 : CycIx) (s : State) :
    ∃ t, execSnapInEdge a0 a1 s = .next t ∧ MemOk s t := by
  delta execSnapInEdge
  repeat' (first
    | refine ⟨_, rfl, ?_⟩
    | with_reducible exact MemOk.refl _
    | with_reducible assumption
    | with_reducible apply MemOk.step (snapIn_memOk _ _) ?_
    | ((with_reducible apply MemOk.ofSame ?_ (atCyc_same _ _) ?_); on_goal 1 => rfl)
    | (extract_lets +onlyGivenNames x; (with_reducible apply MemOk.cut x ?_ ?_); (on_goal 1 => (unfold x; clear x)); (on_goal 2 => (intro hx; clear_value x)))
    | (extract_lets +onlyGivenNames x; clear_value x)
    | (extract_lets +onlyGivenNames x; unfold x; clear x)
    | split)

theorem execSnapNow_memOk (a0 : Master) (a1 : CycIx) (s : State) :
    ∃ t, execSnapNow a0 a1 s = .next t ∧ MemOk s t := by
  delta execSnapNow
  repeat' (first
    | refine ⟨_, rfl, ?_⟩
    | with_reducible exact MemOk.refl _
    | with_reducible assumption
    | ((with_reducible apply MemOk.ofSame ?_ (atCyc_same _ _) ?_); on_goal 1 => rfl)
    | with_reducible apply MemOk.step (regPut_memOk _ _ _ _) ?_
    | (extract_lets +onlyGivenNames x; (with_reducible apply MemOk.cut x ?_ ?_); (on_goal 1 => (unfold x; clear x)); (on_goal 2 => (intro hx; clear_value x)))
    | (extract_lets +onlyGivenNames x; clear_value x)
    | (extract_lets +onlyGivenNames x; unfold x; clear x)
    | split)

theorem execSoftReset_memOk (a0 : Master) (s : State) :
    ∃ t, execSoftReset a0 s = .next t ∧ MemOk s t := by
  delta execSoftReset
  repeat' (first
    | refine ⟨_, rfl, ?_⟩
    | with_reducible exact MemOk.refl _
    | with_reducible assumption
    | with_reducible apply MemOk.step (regPut_memOk _ _ _ _) ?_
    | (extract_lets +onlyGivenNames x; (with_reducible apply MemOk.cut x ?_ ?_); (on_goal 1 => (unfold x; clear x)); (on_goal 2 => (intro hx; clear_value x)))
    | (extract_lets +onlyGivenNames x; clear_value x)
    | (extract_lets +onlyGivenNames x; unfold x; clear x)
    | split)

theorem execStb_memOk (a0 : CoreIx) (s : State) :
    ∃ t, execStb a0 s = .next t ∧ MemOk s t := by
  delta execStb
  repeat' (first
    | refine ⟨_, rfl, ?_⟩
    | with_reducible exact MemOk.refl _
    | with_reducible assumption
    | with_reducible apply MemOk.step (seqOp_memOk _ _ _) ?_
    | (extract_lets +onlyGivenNames x; (with_reducible apply MemOk.cut x ?_ ?_); (on_goal 1 => (unfold x; clear x)); (on_goal 2 => (intro hx; clear_value x)))
    | (extract_lets +onlyGivenNames x; clear_value x)
    | (extract_lets +onlyGivenNames x; unfold x; clear x)
    | split)

theorem execSth_memOk (a0 : CoreIx) (s : State) :
    ∃ t, execSth a0 s = .next t ∧ MemOk s t := by
  delta execSth
  repeat' (first
    | refine ⟨_, rfl, ?_⟩
    | with_reducible exact MemOk.refl _
    | with_reducible assumption
    | with_reducible apply MemOk.step (seqOp_memOk _ _ _) ?_
    | (extract_lets +onlyGivenNames x; (with_reducible apply MemOk.cut x ?_ ?_); (on_goal 1 => (unfold x; clear x)); (on_goal 2 => (intro hx; clear_value x)))
    | (extract_lets +onlyGivenNames x; clear_value x)
    | (extract_lets +onlyGivenNames x; unfold x; clear x)
    | split)

theorem execStw_memOk (a0 : CoreIx) (s : State) :
    ∃ t, execStw a0 s = .next t ∧ MemOk s t := by
  delta execStw
  repeat' (first
    | refine ⟨_, rfl, ?_⟩
    | with_reducible exact MemOk.refl _
    | with_reducible assumption
    | with_reducible apply MemOk.step (seqOp_memOk _ _ _) ?_
    | (extract_lets +onlyGivenNames x; (with_reducible apply MemOk.cut x ?_ ?_); (on_goal 1 => (unfold x; clear x)); (on_goal 2 => (intro hx; clear_value x)))
    | (extract_lets +onlyGivenNames x; clear_value x)
    | (extract_lets +onlyGivenNames x; unfold x; clear x)
    | split)

theorem execSub_memOk (a0 : CoreIx) (s : State) :
    ∃ t, execSub a0 s = .next t ∧ MemOk s t := by
  delta execSub
  repeat' (first
    | refine ⟨_, rfl, ?_⟩
    | with_reducible exact MemOk.refl _
    | with_reducible assumption
    | with_reducible apply MemOk.step (seqOp_memOk _ _ _) ?_
    | (extract_lets +onlyGivenNames x; (with_reducible apply MemOk.cut x ?_ ?_); (on_goal 1 => (unfold x; clear x)); (on_goal 2 => (intro hx; clear_value x)))
    | (extract_lets +onlyGivenNames x; clear_value x)
    | (extract_lets +onlyGivenNames x; unfold x; clear x)
    | split)

theorem execSubc_memOk (a0 : CoreIx) (s : State) :
    ∃ t, execSubc a0 s = .next t ∧ MemOk s t := by
  delta execSubc
  repeat' (first
    | refine ⟨_, rfl, ?_⟩
    | with_reducible exact MemOk.refl _
    | with_reducible assumption
    | with_reducible apply MemOk.step (seqOp_memOk _ _ _) ?_
    | (extract_lets +onlyGivenNames x; (with_reducible apply MemOk.cut x ?_ ?_); (on_goal 1 => (unfold x; clear x)); (on_goal 2 => (intro hx; clear_value x)))
    | (extract_lets +onlyGivenNames x; clear_value x)
    | (extract_lets +onlyGivenNames x; unfold x; clear x)
    | split)

theorem execSupplyCollapse_memOk (s : State) :
    ∃ t, execSupplyCollapse s = .next t ∧ MemOk s t := by
  delta execSupplyCollapse
  repeat' (first
    | refine ⟨_, rfl, ?_⟩
    | with_reducible exact MemOk.refl _
    | with_reducible assumption
    | with_reducible apply MemOk.step (collapseRun_memOk _) ?_
    | (extract_lets +onlyGivenNames x; (with_reducible apply MemOk.cut x ?_ ?_); (on_goal 1 => (unfold x; clear x)); (on_goal 2 => (intro hx; clear_value x)))
    | (extract_lets +onlyGivenNames x; clear_value x)
    | (extract_lets +onlyGivenNames x; unfold x; clear x)
    | split)

theorem execSupplyMeasure_memOk (a0 : Bool) (a1 : ℕ) (a2 : ℕ) (a3 : ℕ) (a4 : ℕ) (a5 : LoadMsg) (a6 : CycIx) (s : State) :
    ∃ t, execSupplyMeasure a0 a1 a2 a3 a4 a5 a6 s = .next t ∧ MemOk s t := by
  delta execSupplyMeasure
  repeat' (first
    | refine ⟨_, rfl, ?_⟩
    | with_reducible exact MemOk.refl _
    | with_reducible assumption
    | ((with_reducible apply MemOk.ofSame ?_ (smbEval_same _) ?_); on_goal 1 => rfl)
    | with_reducible apply MemOk.step (supplyRun_memOk _ _ _ _ _ _ _) ?_
    | ((with_reducible apply MemOk.ofSame ?_ (atCyc_same _ _) ?_); on_goal 1 => rfl)
    | (extract_lets +onlyGivenNames x; (with_reducible apply MemOk.cut x ?_ ?_); (on_goal 1 => (unfold x; clear x)); (on_goal 2 => (intro hx; clear_value x)))
    | (extract_lets +onlyGivenNames x; clear_value x)
    | (extract_lets +onlyGivenNames x; unfold x; clear x)
    | split)

theorem execSupplySummary_memOk (a0 : ℕ) (s : State) :
    ∃ t, execSupplySummary a0 s = .next t ∧ MemOk s t := by
  delta execSupplySummary
  repeat' (first
    | refine ⟨_, rfl, ?_⟩
    | with_reducible exact MemOk.refl _
    | with_reducible assumption
    | with_reducible apply MemOk.step (summaryRun_memOk _ _) ?_
    | (extract_lets +onlyGivenNames x; (with_reducible apply MemOk.cut x ?_ ?_); (on_goal 1 => (unfold x; clear x)); (on_goal 2 => (intro hx; clear_value x)))
    | (extract_lets +onlyGivenNames x; clear_value x)
    | (extract_lets +onlyGivenNames x; unfold x; clear x)
    | split)

theorem execSwrefSample_memOk (a0 : Master) (a1 : Fin 4) (a2 : BitVec 64) (a3 : ℤ) (a4 : CycIx) (s : State) :
    ∃ t, execSwrefSample a0 a1 a2 a3 a4 s = .next t ∧ MemOk s t := by
  delta execSwrefSample
  repeat' (first
    | refine ⟨_, rfl, ?_⟩
    | with_reducible exact MemOk.refl _
    | with_reducible assumption
    | ((with_reducible apply MemOk.ofSame ?_ (atCyc_same _ _) ?_); on_goal 1 => rfl)
    | with_reducible apply MemOk.step (swrefPut_memOk _ _ _ _ _) ?_
    | (extract_lets +onlyGivenNames x; (with_reducible apply MemOk.cut x ?_ ?_); (on_goal 1 => (unfold x; clear x)); (on_goal 2 => (intro hx; clear_value x)))
    | (extract_lets +onlyGivenNames x; clear_value x)
    | (extract_lets +onlyGivenNames x; unfold x; clear x)
    | split)

theorem execTap_memOk (a0 : LaneIx) (a1 : TapMsg) (a2 : CycIx) (s : State) :
    ∃ t, execTap a0 a1 a2 s = .next t ∧ MemOk s t := by
  delta execTap
  repeat' (first
    | refine ⟨_, rfl, ?_⟩
    | with_reducible exact MemOk.refl _
    | with_reducible assumption
    | ((with_reducible apply MemOk.ofSame ?_ (laneTurns_same _ _) ?_); on_goal 1 => rfl)
    | with_reducible apply MemOk.step (tapIn_memOk _ _ _) ?_
    | ((with_reducible apply MemOk.ofSame ?_ (atCyc_same _ _) ?_); on_goal 1 => rfl)
    | (extract_lets +onlyGivenNames x; (with_reducible apply MemOk.cut x ?_ ?_); (on_goal 1 => (unfold x; clear x)); (on_goal 2 => (intro hx; clear_value x)))
    | (extract_lets +onlyGivenNames x; clear_value x)
    | (extract_lets +onlyGivenNames x; unfold x; clear x)
    | split)

theorem execTemps_memOk (s : State) :
    ∃ t, execTemps s = .next t ∧ MemOk s t := by
  delta execTemps
  repeat' (first
    | refine ⟨_, rfl, ?_⟩
    | with_reducible exact MemOk.refl _
    | with_reducible assumption
    | with_reducible apply MemOk.step (coreTouch_memOk _ _ _) ?_
    | ((with_reducible apply MemOk.ofSame ?_ (smbAnswer_same _ _ _ _) ?_); on_goal 1 => rfl)
    | (extract_lets +onlyGivenNames x; (with_reducible apply MemOk.cut x ?_ ?_); (on_goal 1 => (unfold x; clear x)); (on_goal 2 => (intro hx; clear_value x)))
    | (extract_lets +onlyGivenNames x; clear_value x)
    | (extract_lets +onlyGivenNames x; unfold x; clear x)
    | split)

theorem execTimeEnq_memOk (a0 : Master) (s : State) :
    ∃ t, execTimeEnq a0 s = .next t ∧ MemOk s t := by
  delta execTimeEnq
  repeat' (first
    | refine ⟨_, rfl, ?_⟩
    | with_reducible exact MemOk.refl _
    | with_reducible assumption
    | with_reducible apply MemOk.step (regPut_memOk _ _ _ _) ?_
    | (extract_lets +onlyGivenNames x; (with_reducible apply MemOk.cut x ?_ ?_); (on_goal 1 => (unfold x; clear x)); (on_goal 2 => (intro hx; clear_value x)))
    | (extract_lets +onlyGivenNames x; clear_value x)
    | (extract_lets +onlyGivenNames x; unfold x; clear x)
    | split)

theorem execTimeRead_memOk (a0 : Master) (a1 : CycIx) (s : State) :
    ∃ t, execTimeRead a0 a1 s = .next t ∧ MemOk s t := by
  delta execTimeRead
  repeat' (first
    | refine ⟨_, rfl, ?_⟩
    | with_reducible exact MemOk.refl _
    | with_reducible assumption
    | ((with_reducible apply MemOk.ofSame ?_ (atCyc_same _ _) ?_); on_goal 1 => rfl)
    | with_reducible apply MemOk.step (readOut_memOk _ _ _ _) ?_
    | (extract_lets +onlyGivenNames x; (with_reducible apply MemOk.cut x ?_ ?_); (on_goal 1 => (unfold x; clear x)); (on_goal 2 => (intro hx; clear_value x)))
    | (extract_lets +onlyGivenNames x; clear_value x)
    | (extract_lets +onlyGivenNames x; unfold x; clear x)
    | split)

theorem execTimeSet_memOk (a0 : Master) (s : State) :
    ∃ t, execTimeSet a0 s = .next t ∧ MemOk s t := by
  delta execTimeSet
  repeat' (first
    | refine ⟨_, rfl, ?_⟩
    | with_reducible exact MemOk.refl _
    | with_reducible assumption
    | with_reducible apply MemOk.step (regPut_memOk _ _ _ _) ?_
    | (extract_lets +onlyGivenNames x; (with_reducible apply MemOk.cut x ?_ ?_); (on_goal 1 => (unfold x; clear x)); (on_goal 2 => (intro hx; clear_value x)))
    | (extract_lets +onlyGivenNames x; clear_value x)
    | (extract_lets +onlyGivenNames x; unfold x; clear x)
    | split)

theorem execTimeSlew_memOk (a0 : Master) (s : State) :
    ∃ t, execTimeSlew a0 s = .next t ∧ MemOk s t := by
  delta execTimeSlew
  repeat' (first
    | refine ⟨_, rfl, ?_⟩
    | with_reducible exact MemOk.refl _
    | with_reducible assumption
    | with_reducible apply MemOk.step (regPut_memOk _ _ _ _) ?_
    | (extract_lets +onlyGivenNames x; (with_reducible apply MemOk.cut x ?_ ?_); (on_goal 1 => (unfold x; clear x)); (on_goal 2 => (intro hx; clear_value x)))
    | (extract_lets +onlyGivenNames x; clear_value x)
    | (extract_lets +onlyGivenNames x; unfold x; clear x)
    | split)

theorem execTimeSlewStop_memOk (a0 : Master) (s : State) :
    ∃ t, execTimeSlewStop a0 s = .next t ∧ MemOk s t := by
  delta execTimeSlewStop
  repeat' (first
    | refine ⟨_, rfl, ?_⟩
    | with_reducible exact MemOk.refl _
    | with_reducible assumption
    | with_reducible apply MemOk.step (regPut_memOk _ _ _ _) ?_
    | (extract_lets +onlyGivenNames x; (with_reducible apply MemOk.cut x ?_ ?_); (on_goal 1 => (unfold x; clear x)); (on_goal 2 => (intro hx; clear_value x)))
    | (extract_lets +onlyGivenNames x; clear_value x)
    | (extract_lets +onlyGivenNames x; unfold x; clear x)
    | split)

theorem execTimeStep_memOk (a0 : Master) (s : State) :
    ∃ t, execTimeStep a0 s = .next t ∧ MemOk s t := by
  delta execTimeStep
  repeat' (first
    | refine ⟨_, rfl, ?_⟩
    | with_reducible exact MemOk.refl _
    | with_reducible assumption
    | with_reducible apply MemOk.step (regPut_memOk _ _ _ _) ?_
    | (extract_lets +onlyGivenNames x; (with_reducible apply MemOk.cut x ?_ ?_); (on_goal 1 => (unfold x; clear x)); (on_goal 2 => (intro hx; clear_value x)))
    | (extract_lets +onlyGivenNames x; clear_value x)
    | (extract_lets +onlyGivenNames x; unfold x; clear x)
    | split)

theorem execTnow_memOk (a0 : CoreIx) (a1 : CycIx) (s : State) :
    ∃ t, execTnow a0 a1 s = .next t ∧ MemOk s t := by
  delta execTnow
  repeat' (first
    | refine ⟨_, rfl, ?_⟩
    | with_reducible exact MemOk.refl _
    | with_reducible assumption
    | ((with_reducible apply MemOk.ofSame ?_ (atCyc_same _ _) ?_); on_goal 1 => rfl)
    | with_reducible apply MemOk.step (seqOp_memOk _ _ _) ?_
    | (extract_lets +onlyGivenNames x; (with_reducible apply MemOk.cut x ?_ ?_); (on_goal 1 => (unfold x; clear x)); (on_goal 2 => (intro hx; clear_value x)))
    | (extract_lets +onlyGivenNames x; clear_value x)
    | (extract_lets +onlyGivenNames x; unfold x; clear x)
    | split)

theorem execTrap_memOk (a0 : CoreIx) (s : State) :
    ∃ t, execTrap a0 s = .next t ∧ MemOk s t := by
  delta execTrap
  repeat' (first
    | refine ⟨_, rfl, ?_⟩
    | with_reducible exact MemOk.refl _
    | with_reducible assumption
    | with_reducible apply MemOk.step (seqOp_memOk _ _ _) ?_
    | (extract_lets +onlyGivenNames x; (with_reducible apply MemOk.cut x ?_ ?_); (on_goal 1 => (unfold x; clear x)); (on_goal 2 => (intro hx; clear_value x)))
    | (extract_lets +onlyGivenNames x; clear_value x)
    | (extract_lets +onlyGivenNames x; unfold x; clear x)
    | split)

theorem execTst_memOk (a0 : CoreIx) (s : State) :
    ∃ t, execTst a0 s = .next t ∧ MemOk s t := by
  delta execTst
  repeat' (first
    | refine ⟨_, rfl, ?_⟩
    | with_reducible exact MemOk.refl _
    | with_reducible assumption
    | with_reducible apply MemOk.step (seqOp_memOk _ _ _) ?_
    | (extract_lets +onlyGivenNames x; (with_reducible apply MemOk.cut x ?_ ?_); (on_goal 1 => (unfold x; clear x)); (on_goal 2 => (intro hx; clear_value x)))
    | (extract_lets +onlyGivenNames x; clear_value x)
    | (extract_lets +onlyGivenNames x; unfold x; clear x)
    | split)

theorem execUnfenceRequest_memOk (a0 : Master) (a1 : SrcIx) (s : State) :
    ∃ t, execUnfenceRequest a0 a1 s = .next t ∧ MemOk s t := by
  delta execUnfenceRequest
  repeat' (first
    | refine ⟨_, rfl, ?_⟩
    | with_reducible exact MemOk.refl _
    | with_reducible assumption
    | with_reducible apply MemOk.step (regPut_memOk _ _ _ _) ?_
    | (extract_lets +onlyGivenNames x; (with_reducible apply MemOk.cut x ?_ ?_); (on_goal 1 => (unfold x; clear x)); (on_goal 2 => (intro hx; clear_value x)))
    | (extract_lets +onlyGivenNames x; clear_value x)
    | (extract_lets +onlyGivenNames x; unfold x; clear x)
    | split)

theorem execWaitE_memOk (a0 : CoreIx) (s : State) :
    ∃ t, execWaitE a0 s = .next t ∧ MemOk s t := by
  delta execWaitE
  repeat' (first
    | refine ⟨_, rfl, ?_⟩
    | with_reducible exact MemOk.refl _
    | with_reducible assumption
    | with_reducible apply MemOk.step (seqOp_memOk _ _ _) ?_
    | (extract_lets +onlyGivenNames x; (with_reducible apply MemOk.cut x ?_ ?_); (on_goal 1 => (unfold x; clear x)); (on_goal 2 => (intro hx; clear_value x)))
    | (extract_lets +onlyGivenNames x; clear_value x)
    | (extract_lets +onlyGivenNames x; unfold x; clear x)
    | split)

theorem execWaitT_memOk (a0 : CoreIx) (a1 : CycIx) (s : State) :
    ∃ t, execWaitT a0 a1 s = .next t ∧ MemOk s t := by
  delta execWaitT
  repeat' (first
    | refine ⟨_, rfl, ?_⟩
    | with_reducible exact MemOk.refl _
    | with_reducible assumption
    | ((with_reducible apply MemOk.ofSame ?_ (atCyc_same _ _) ?_); on_goal 1 => rfl)
    | with_reducible apply MemOk.step (seqOp_memOk _ _ _) ?_
    | (extract_lets +onlyGivenNames x; (with_reducible apply MemOk.cut x ?_ ?_); (on_goal 1 => (unfold x; clear x)); (on_goal 2 => (intro hx; clear_value x)))
    | (extract_lets +onlyGivenNames x; clear_value x)
    | (extract_lets +onlyGivenNames x; unfold x; clear x)
    | split)

theorem execWatchdogExpiry_memOk (a0 : Bool) (s : State) :
    ∃ t, execWatchdogExpiry a0 s = .next t ∧ MemOk s t := by
  delta execWatchdogExpiry
  repeat' (first
    | refine ⟨_, rfl, ?_⟩
    | with_reducible exact MemOk.refl _
    | with_reducible assumption
    | with_reducible apply MemOk.step (wdRun_memOk _ _) ?_
    | (extract_lets +onlyGivenNames x; (with_reducible apply MemOk.cut x ?_ ?_); (on_goal 1 => (unfold x; clear x)); (on_goal 2 => (intro hx; clear_value x)))
    | (extract_lets +onlyGivenNames x; clear_value x)
    | (extract_lets +onlyGivenNames x; unfold x; clear x)
    | split)

theorem execWatchdogKick_memOk (a0 : Master) (s : State) :
    ∃ t, execWatchdogKick a0 s = .next t ∧ MemOk s t := by
  delta execWatchdogKick
  repeat' (first
    | refine ⟨_, rfl, ?_⟩
    | with_reducible exact MemOk.refl _
    | with_reducible assumption
    | with_reducible apply MemOk.step (regPut_memOk _ _ _ _) ?_
    | (extract_lets +onlyGivenNames x; (with_reducible apply MemOk.cut x ?_ ?_); (on_goal 1 => (unfold x; clear x)); (on_goal 2 => (intro hx; clear_value x)))
    | (extract_lets +onlyGivenNames x; clear_value x)
    | (extract_lets +onlyGivenNames x; unfold x; clear x)
    | split)

theorem execWrreg_memOk (a0 : CoreIx) (a1 : CycIx) (s : State) :
    ∃ t, execWrreg a0 a1 s = .next t ∧ MemOk s t := by
  delta execWrreg
  repeat' (first
    | refine ⟨_, rfl, ?_⟩
    | with_reducible exact MemOk.refl _
    | with_reducible assumption
    | ((with_reducible apply MemOk.ofSame ?_ (atCyc_same _ _) ?_); on_goal 1 => rfl)
    | with_reducible apply MemOk.step (seqOp_memOk _ _ _) ?_
    | (extract_lets +onlyGivenNames x; (with_reducible apply MemOk.cut x ?_ ?_); (on_goal 1 => (unfold x; clear x)); (on_goal 2 => (intro hx; clear_value x)))
    | (extract_lets +onlyGivenNames x; clear_value x)
    | (extract_lets +onlyGivenNames x; unfold x; clear x)
    | split)

theorem execXor_memOk (a0 : CoreIx) (s : State) :
    ∃ t, execXor a0 s = .next t ∧ MemOk s t := by
  delta execXor
  repeat' (first
    | refine ⟨_, rfl, ?_⟩
    | with_reducible exact MemOk.refl _
    | with_reducible assumption
    | with_reducible apply MemOk.step (seqOp_memOk _ _ _) ?_
    | (extract_lets +onlyGivenNames x; (with_reducible apply MemOk.cut x ?_ ?_); (on_goal 1 => (unfold x; clear x)); (on_goal 2 => (intro hx; clear_value x)))
    | (extract_lets +onlyGivenNames x; clear_value x)
    | (extract_lets +onlyGivenNames x; unfold x; clear x)
    | split)

theorem execXori_memOk (a0 : CoreIx) (s : State) :
    ∃ t, execXori a0 s = .next t ∧ MemOk s t := by
  delta execXori
  repeat' (first
    | refine ⟨_, rfl, ?_⟩
    | with_reducible exact MemOk.refl _
    | with_reducible assumption
    | with_reducible apply MemOk.step (seqOp_memOk _ _ _) ?_
    | (extract_lets +onlyGivenNames x; (with_reducible apply MemOk.cut x ?_ ?_); (on_goal 1 => (unfold x; clear x)); (on_goal 2 => (intro hx; clear_value x)))
    | (extract_lets +onlyGivenNames x; clear_value x)
    | (extract_lets +onlyGivenNames x; unfold x; clear x)
    | split)

theorem execYield_memOk (a0 : Master) (s : State) :
    ∃ t, execYield a0 s = .next t ∧ MemOk s t := by
  delta execYield
  repeat' (first
    | refine ⟨_, rfl, ?_⟩
    | with_reducible exact MemOk.refl _
    | with_reducible assumption
    | ((with_reducible apply MemOk.ofSame ?_ (smbEval_same _) ?_); on_goal 1 => rfl)
    | with_reducible apply MemOk.step (regPut_memOk _ _ _ _) ?_
    | (extract_lets +onlyGivenNames x; (with_reducible apply MemOk.cut x ?_ ?_); (on_goal 1 => (unfold x; clear x)); (on_goal 2 => (intro hx; clear_value x)))
    | (extract_lets +onlyGivenNames x; clear_value x)
    | (extract_lets +onlyGivenNames x; unfold x; clear x)
    | split)

theorem execZeroCrossing_memOk (a0 : ℤ) (s : State) :
    ∃ t, execZeroCrossing a0 s = .next t ∧ MemOk s t := by
  delta execZeroCrossing
  repeat' (first
    | refine ⟨_, rfl, ?_⟩
    | with_reducible exact MemOk.refl _
    | with_reducible assumption
    | with_reducible apply MemOk.step (zeroRun_memOk _ _) ?_
    | (extract_lets +onlyGivenNames x; (with_reducible apply MemOk.cut x ?_ ?_); (on_goal 1 => (unfold x; clear x)); (on_goal 2 => (intro hx; clear_value x)))
    | (extract_lets +onlyGivenNames x; clear_value x)
    | (extract_lets +onlyGivenNames x; unfold x; clear x)
    | split)


end Sys2Proof.Machine
end

