-- ==== Sys2Proof/Laws/Store.lean ====
section
/-!
SUPPORT. What the operations over the store's banks guarantee: the length of a CAL payload, when a bank is valid, the newest one.
-/
namespace Sys2Proof.Machine

open Sys2Proof

theorem leBytes_length (n v : Nat) : (leBytes n v).length = n := by
  induction n generalizing v with
  | zero => rfl
  | succ n ih => simp [leBytes, ih]

/-- A CAL payload has the length of R402 where every table has its 33 breakpoints. -/
theorem calBytes_length {words : List (Nat × Word)} {c : Calib} (h : ∀ k, (calBreaks c k).length = 33) :
    (calBytes words c).length = 0x5500 := by
  simp only [calBytes, List.length_append, List.length_flatMap, leBytes_length, h, List.map_cons, List.map_nil, List.sum_cons,
    List.sum_nil, List.map_const', List.sum_replicate, List.length_range, smul_eq_mul]
  norm_num

/-- CHECK does not cover CHECK and COMMIT (R401). -/
theorem bankCheck_sealed (r k : Nat) (b : Bank) : bankCheck r k (sealedBank r k b) = bankCheck r k b := rfl

/-- A bank with the header of a store and its CHECK and COMMIT is valid where its LENGTH fits the region (R402, R403). -/
theorem bankValid_sealed {r k q w : Nat} {l : List Byte} {b : Bank} (h : lengthOk r (headed r k q w l b).length = true) :
    bankValid r k (sealedBank r k (headed r k q w l b)) = true := by
  have e : (sealedBank r k (headed r k q w l b)).length = (headed r k q w l b).length := rfl
  simp only [bankValid, e, h, bankCheck_sealed, Bool.and_eq_true]
  exact ⟨⟨⟨⟨⟨rfl, decide_eq_true rfl⟩, decide_eq_true rfl⟩, decide_eq_true rfl⟩, trivial⟩, decide_eq_true rfl⟩

end Sys2Proof.Machine
end

