-- ==== Sys2Proof/WellFormed.lean ====
section
/-!
DEFINITION. Which commands are well formed: whose operands fit the fields that the spec gives them. Operands whose types say
it already are not checked again.
-/
namespace Sys2Proof

/-- An access of the register bus (R34, R36, R37): 26 bits of address, a width that the bus has. -/
def accessOk (addr width : Nat) : Bool :=
  decide (addr < 2 ^ 26) && (width == 8 || width == 16 || width == 32 || width == 64)

/-- A signed value of 48 bits (R40). -/
def signed48 (v : Int) : Bool := decide (-(2 ^ 47) ≤ v) && decide (v < 2 ^ 47)

/-- A divide value in its field's width (R127, R156). -/
def divFits (d : DivField) (v : Nat) : Bool :=
  match d with
  | .n => decide (v < 2 ^ 12)
  | .f => decide (v < 2 ^ 40)
  | .m => decide (v < 2 ^ 40)
  | .o => decide (v < 2 ^ 32)

/-- A hop entry in its fields' widths (R159). -/
def hopFits (e : HopFields) : Bool :=
  divFits .n e.n && divFits .f e.f && divFits .m e.m && divFits .o e.o && signed48 e.phase

/-- An EVENT in its fields' widths (R222): a transmit event has PICODE 0. -/
def eventFits (e : EventMsg) : Bool := decide (e.bitofs < 4096 ∧ e.picode < 256) && (!e.tx || e.picode == 0)

/-- A forwarded item (R473): the address of a write is one of the bus. -/
def fwdFits (i : FwdItem) : Bool :=
  match i with
  | .write addr _ => decide (addr < 2 ^ 26 ∧ addr % 4 = 0)
  | .command _ _ _ _ => true

/-- Whether a command's operands fit the fields that the spec gives them. -/
def wellFormed (i : Instr) : Bool :=
  match i with
  | .registerWrite _ addr width v _ => accessOk addr width && decide (v < 2 ^ width)
  | .shadowLatchRead _ addr width _ => accessOk addr width
  | .timeRead _ _ | .postedWriteLand _ | .lockWrite _ _ | .sealHold _ | .holdExpired | .msBoundary | .sealPassEnd
  | .sealCommit _ _ => true
  | .aonBoundary n _ => decide (1 ≤ n)
  | .timeSet _ | .timeStep _ | .timeSlew _ | .timeSlewStop _ | .timeEnq _ | .queuedStep | .queuedSlew | .queuedRate
  | .queuedSlewStop | .slewEnd | .leapArm _ | .leapApply | .ppsEvent | .ppsPulseEnd _ | .retune _ _ _ _ _
  | .bandcal _ _ | .queuedRetune _ | .scRampEnd _ _ => true
  | .bandCalDone _ found lo hi band => !found || decide (lo ≤ hi ∧ hi < 65536 ∧ band < 64)
  | .lockFastSet _ | .lockFastClear _ | .lockSetRise _ _ | .lossOfLock _ | .lockDeadlineMiss _ | .trailEntry _
  | .rehomeSwitch _ _ => true
  | .fodDivCommit _ _ fld v _ => divFits fld v
  | .fodInselWrite _ _ _ _ _ | .pstep _ _ _ | .pslew _ _ _ | .pstop _ _ _ | .fodSlewEnd _ | .witnessVisit _ _ _
  | .fodStart _ _ | .fodGroupWake _ | .outputDriverStart _ | .outputDisable _ | .queuedHop _ | .queuedPhaseMove _
  | .queuedOen _ => true
  | .hopEntryCommit _ _ _ e => hopFits e
  | .hopGo _ _ _ _ | .hopReloadDone _ _ | .hopRateRelease _ _ | .refTimeEvent _ _ _ _ | .refFreqSample _ _
  | .zdaSentence _ _ | .binaryTodFrame _ _ => true
  | .irigInFrame _ f => decide (f.second ≤ 60 ∧ f.minute < 60 ∧ f.hour < 24 ∧ 1 ≤ f.day ∧ f.day ≤ 366)
  | .swrefSample _ _ _ theta _ => signed48 theta
  | .refLos _ | .refFreqGate _ _ | .refQualTimer _ | .refDisqTimer _ _ | .requal _ _ | .qnow _ _ | .wtrExpiry _
  | .resel _ _ | .clrhist _ _ => true
  | .screedSample theta => decide (-32768 ≤ theta ∧ theta < 32768)
  | .screedTeUpdate theta => decide (-32768 ≤ theta ∧ theta < 32768)
  | .screedClear _ => true
  | .event _ e _ => eventFits e
  | .tap _ t _ => decide (1 ≤ t.bytes.length ∧ t.bytes.length ≤ 96 ∧ t.flen < 65536)
  | .beacon _ b _ => decide (b.picode < 256)
  | .abort _ _ _ _ _ => true
  | .creditSyncEcho _ _ fg fr => decide (fg ≤ 24 ∧ fr ≤ 8)
  | .badBlock _ | .creditSyncMarker _ | .creditAuditTimeout _ | .slotFree _ _ _ | .creditLinkUp _ | .laneDown _ _
  | .correction _ _ _ _ | .pairWaitExpiry _ _ _ | .ingressAgeRetire _ _ _ | .prevNumberingExpiry _ | .resync _ _ _
  | .portFodWrite _ _ _ _ | .calStopTimeout _ _ | .ecamLookup _ _ _ _ | .ecamEntryWrite _ _ _ _ | .genSwitch _
  | .drainComplete | .ringCfgWrite _ _ _ | .flush _ _ | .ringRdWrite _ _ _ | .tokenRefill _ | .eccUncorr _
  | .parity _ | .ecamSigUpdate | .addi _ | .add _ | .addc _ | .sub _ | .subc _ | .and _ | .or _ | .xor _ | .andn _
  | .shl _ | .shr _ | .sar _ | .mul _ | .mulhu _ | .mulhs _ | .cmp _ | .tst _ | .cmpi _ | .andi _ | .ori _ | .xori _
  | .lui _ | .shli _ | .shri _ | .sari _ | .ldw _ _ | .ldh _ _ | .ldhu _ _ | .ldb _ _ | .ldbu _ _ | .stw _ | .sth _
  | .stb _ | .bcc _ | .bl _ | .jr _ | .jalr _ | .rdreg _ _ | .wrreg _ _ | .hopAt _ _ | .phsAt _ _ | .ratAt _ _
  | .oenAt _ _ | .gangAt _ _ | .snapAt _ _ | .tnow _ _ | .waitT _ _ | .waitTResume _ _ | .waitE _ | .waitEResume _
  | .post _ _ | .sig _ | .nop _ _ | .halt _ | .trap _ | .fence _ | .coreid _ | .readTimeout _ | .breakpointHit _
  | .seqStart _ _ | .seqHalt _ _ | .seqResume _ _ | .seqStep _ _ | .seqVerify _ _ | .imageVerifyDone _
  | .seqDoorbell _ _ | .seqExcClr _ _ => true
  | .nvsStore _ region _ _ => decide (region < 16)
  | .nvsLoad _ region _ _ => decide (region < 16)
  | .configStore _ _ => true
  | .calRun _ blocks _ => decide (blocks < 16)
  | .portCal _ _ _ => true
  | .refQualify _ index _ limit _ => decide (index < 256 ∧ limit < 2 ^ 32)
  | .scRetune _ _ _ _ _ => true
  | .phaseWalk _ _ amount _ _ => signed48 amount
  | .selftest _ scope _ => decide (scope < 2 ^ 32)
  | .mateSync _ _ | .screedSave _ _ | .commandStart _ _ | .commandComplete _ _ _ | .commandTimeout _ _
  | .dmaEnable _ _ _ | .dmaPause _ _ | .dmaPaused _ | .dmaDoorbell _ _ | .dmaResume _ _ | .dmaAbort _ _
  | .descFetch _ _ | .descWriteBack _ _ _ | .drainBurst _ | .drainFlushTimer _ | .dmaPromotion _
  | .dmaBusError _ _ _ _ _ | .dmaHrdWrite _ _ _ | .aonReady | .nvsLoadComplete | .powerupCalStart | .calApply _ _
  | .portCalDefer _ | .skimMeasure _ _ | .skimNaturalSwap _ | .softAge _ | .skimForcedSwap _ | .faultIntake
  | .faultInject _ _ _ _ | .unfenceRequest _ _ | .fenceClear _ | .pendClear _ _ | .firstErrorRearm _
  | .shadowWindowExpiry _ | .sevParityCheck _ | .snapNow _ _ | .snapEnq _ _ | .queuedSnap _ | .snapInEdge _ _ => true
  | .snapComplete offsets => offsets.all (fun p => decide (p.1 < 26 ∧ p.2 < 2 ^ 32))
  | .snapHold _ | .mateLineChange _ _ | .claim | .mateLaneUp _ | .mateLaneDown _ | .twtReqSend _ _ | .twtReq _ _ _ _
  | .twtResp _ _ _ _ _ => true
  | .ckpt c => decide (c.seqNo < 2 ^ 32 ∧ c.integrators.length = 4) && c.mailbox.all (fun p => decide (p.1 < 4096))
  | .ckptMiss | .statusSend => true
  | .status st => decide (st.node < 2 ^ 14 ∧ st.nrWhy ≤ 8 ∧ st.ownMap.length = 4 ∧ st.ckptSeq < 2 ^ 32)
  | .handover | .events _ => true
  | .fwd i => fwdFits i.item
  | .words _ _ _ | .ledger _ _ => true
  | .snap t _ _ => decide (t.t < 2 ^ 112)
  | .image _ _ | .mateSyncApply | .yield _ | .ownRefresh _ | .por | .mrstNAssert | .mrstNRelease | .softReset _
  | .watchdogKick _ | .watchdogExpiry _ | .parkRelease _ | .coreWake | .coreSleep => true
  | .supplyMeasure _ value freq store load a _ =>
    decide (value < 65536 ∧ freq < 65536 ∧ store < 65536 ∧ load < 65536 ∧ a.asic < 65536 ∧ a.draw < 65536)
  | .zeroCrossing _ | .rideExit => true
  | .supplySummary mean => decide (mean < 65536)
  | .storeFull | .chargeSlow | .rideYield | .rideStores _ | .orderedShutdown | .ocxoReady | .notWarm | .ovenFail
  | .baseLol | .converter => true
  | .thermalAlarm asic iface => decide (-32768 ≤ asic ∧ asic < 32768 ∧ -32768 ≤ iface ∧ iface < 32768)
  | .driver _ | .ident | .smbStatus | .supply | .temps | .faults | .fences | .alertClr | .alertResponse | .perst
  | .pcieLinkDown => true
  | .bar2Write _ addr bytes => decide (1 ≤ bytes.length ∧ bytes.length ≤ 512 ∧ addr + bytes.length ≤ 2 ^ 24)
  | .semaphoreRead _ r => decide (1 ≤ r.len ∧ r.len ≤ 512 ∧ r.addr + r.len ≤ 2 ^ 24) && r.skip.all (fun k => decide (k < r.len)) &&
      r.bad.all (fun k => decide (k < r.len ∧ k ∉ r.skip))
  | .inputInRange _ | .supplyCollapse | .blockLock _ _ | .mateStatusStale | .pcieLinkUp | .configurationRequest
  | .uncorr => true

end Sys2Proof
end

