-- ==== Sys2Proof/Tests/Slice0.lean ====
section
/-!
SUPPORT. Tests: the well-formedness checks refuse ill-formed terms; for every statement with hypotheses, concrete states and
operands that meet them, clause by clause, with a key part of what the statement says of them; worked examples of the spec.
-/
namespace Sys2Proof.Tests

open Sys2Proof Sys2Proof.Machine

set_option Elab.async false

/-- The state after a command. -/
def after (c : Instr) (s : State) : State :=
  match exec c s with
  | .next t => t
  | _ => s

/-- A module that runs: the load is over, the core domain is awake, Plain has started, ACTIVE, in RUN. -/
def base : State :=
  { setPwrState State.reset 3 with
    nvsLoaded := true, coreAwake := true, standby := false, time := { timeInit with started := true }
    pwr := { pwrInit with phase := 4, cold := false } }

/-- The same module in AON_ONLY, its core domain asleep. -/
def asleep : State := setPwrState { base with coreAwake := false } 1

/-- A state with register words. -/
def withRegs (s : State) (l : List (Nat × Nat)) : State := l.foldl (fun s p => wr s p.1 p.2) s

-- ill-formed terms

theorem test_wf_address : wellFormed (.registerWrite 1 (2 ^ 26) 32 0 ⟨0, false⟩) = false := by decide
theorem test_wf_width : wellFormed (.shadowLatchRead 1 0 24 0) = false := by decide
theorem test_wf_data : wellFormed (.registerWrite 1 0 8 256 ⟨0, false⟩) = false := by decide
theorem test_wf_boundaries : wellFormed (.aonBoundary 0 false) = false := by decide
theorem test_wf_divide : wellFormed (.fodDivCommit 1 0 .n 4096 0) = false := by decide
theorem test_wf_hop : wellFormed (.hopEntryCommit 1 0 0 ⟨true, false, 40, 0, 1, 1, 2 ^ 47⟩) = false := by decide
theorem test_wf_tap : wellFormed (.tap 0 ⟨0, 0, false, 0, []⟩ 0) = false := by decide
theorem test_wf_region : wellFormed (.nvsStore 1 16 0 false) = false := by decide
theorem test_wf_walk : wellFormed (.phaseWalk 1 1 (2 ^ 47) 0 false) = false := by decide
theorem test_wf_temperature : wellFormed (.screedSample 32768) = false := by decide
theorem test_wf_echo : wellFormed (.creditSyncEcho 0 0 25 0) = false := by decide
theorem test_wf_forward : wellFormed (.fwd ⟨0, .write 2 0⟩) = false := by decide
theorem test_wf_bar2 : wellFormed (.bar2Write 1 (2 ^ 24) [some 0]) = false := by decide
theorem test_wf_accepts : wellFormed (.registerWrite 1 0x30FFFFC 32 0xFFFFFFFF ⟨0, false⟩) = true := by decide

-- registers

theorem witness_MisalignedWriteOnlyRaisesAccessWidth :
    base.nvsLoaded = true ∧ pwrState base ≠ 1 ∧ (2 : Nat) % 4 ≠ 0 ∧ inMsix 0xEFFFC = false ∧ queueFull base 0xD2 = false ∧
    pwrState asleep = 1 ∧ queueFull asleep 0xD2 = false ∧ aonAnswers (rTIME 8) false = true ∧ aonAnswers 0 false = false ∧
    asleep.pwr.power = 2 ∧ asleep.pwr.mrst = false ∧ asleep.pwr.phase ≠ 0 ∧
    (after (.registerWrite 1 2 32 7 ⟨5, false⟩) asleep).coreAwake = true ∧
    (after (.registerWrite 1 (rTIME 9) 32 7 ⟨5, false⟩) asleep).coreAwake = false ∧
    (after (.registerWrite 1 2 32 7 ⟨5, false⟩) base).fcol.queues.length = 1 ∧
    (after (.registerWrite 1 0 16 7 ⟨5, false⟩) base).regs = base.regs ∧ inMsix 6 = false ∧
    ((mget (fun _ => []) (after (.registerWrite 1 2 64 7 ⟨5, true⟩) base).fcol.queues 0xD2).map (·.addr)) = [2, 6] := by
  decide +kernel

/-- R41: TGL flips RW bits; a 1 in a W1C bit clears it. -/
theorem witness_PlainRegisterTakesTheWrite :
    BusOpen base ∧ (∃ i, regInfo 0x508000 = some i ∧ i.blk = .corr ∧ i.row.words = 1 ∧ allRo i = false) ∧
    rn (after (.registerWrite 1 0x3508000 32 0xFFFF ⟨0, false⟩) base) 0x508000 = 0xFFFF - 2000 ∧
    rn (after (.registerWrite 1 0x50800C 32 1 ⟨0, false⟩) (withRegs base [(0x50800C, 3)])) 0x50800C = 2 := by
  refine ⟨⟨⟨rfl, rfl⟩, by decide +kernel⟩, ⟨(regInfo 0x508000).get (by decide +kernel), ?_⟩, ?_⟩ <;> decide +kernel

/-- A state in which a write to TIME is in flight. -/
def busyTime : State := { base with posted := [(0, ⟨1, rTIME 0x08, 0, [9]⟩)] }

theorem witness_PostedWriteWhileBusyIsRefused :
    BusOpen busyTime ∧ postBusy busyTime 0 = true ∧ queueFull busyTime 0xD2 = false ∧
    ((regInfo (rTIME 0x44)).map (fun i => (i.row.posted, i.word + 1 = i.row.words))) = some (true, True) ∧
    ((regInfo (rTIME 0x40)).map (fun i => (i.row.posted, allRo i, i.word))) = some (true, false, 0) ∧
    (after (.registerWrite 1 (rTIME 0x44) 32 1 ⟨0, false⟩) busyTime).posted = busyTime.posted ∧
    stagedOf (after (.registerWrite 1 (rTIME 0x40) 32 77 ⟨0, false⟩) busyTime) 1 (rTIME 0x40) = 77 := by
  refine ⟨⟨⟨rfl, rfl⟩, by decide +kernel⟩, ?_, ?_, ?_, ?_, ?_⟩ <;> first | decide +kernel | (simp; decide +kernel)

theorem witness_ReadsAnswerLiveWordAndShadow :
    base.nvsLoaded = true ∧ ((regInfo (rTIME 0x18)).map (·.word)) = some 2 ∧
    shadowOf (after (.timeRead 1 3) { base with time := { base.time with plain := 5 * 65536 * 10 ^ 9 * 2 ^ 32 } }) 1 (rTIME 0x18) =
      5 ∧
    pwrState base ≠ 1 ∧ ((regInfo (rTIME 0x18)).map (·.word)) ≠ some 0 ∧ ((regInfo (rTIME 0x10)).map (·.word)) = some 0 ∧
    aonAnswers (rTIME 0x10) true = true ∧
    (after (.shadowLatchRead 1 (rTIME 0x10) 32 9) (setPwrState { base with coreAwake := false } 1)).cyc = 9 ∧
    inMsix (rTIME 0x18) = false ∧ inMsix (rTIME 0x18 + 4) = false := by
  decide +kernel

theorem witness_LockAndHoldWritesOnlySetBits :
    BusOpen base ∧ rn (after (.lockWrite 1 2) (withRegs base [(0x40, 1)])) 0x40 = 3 ∧ rn (after (.sealHold 1) base) (rSEAL 0) = 3 ∧
    (base.cmd.slots = [] ∧ rbit base (rSEAL 0) 1 = false) := by
  decide +kernel

/-- A hold of seal checking at its limit. -/
def heldLong : State := { withRegs base [(rSEAL 0, 3)] with time := { base.time with aon := 10 ^ 9 } }

theorem witness_HoldsAndSealPassesEnd :
    (rbit heldLong (rSEAL 0) 1 = true ∧ 0 + max 1 (rb heldLong (rSEAL 0x10) 0 16) * 10000 ≤ heldLong.time.aon ∧
      softWrote heldLong (rSEAL 0) = false ∧ queueFull heldLong 0xD3 = false ∧ heldLong.coreAwake = true ∧
      rn (after .holdExpired heldLong) (rSEAL 0) = 1) ∧ rbit base (rSEAL 0) 1 = false ∧
    heldLong.seal_.holdFrom = 0 ∧
    (after .sealPassEnd { base with seal_ := { base.seal_ with passOn := true, passVoid := true } }).seal_.passOn = false ∧
    base.coreAwake = true ∧ (after .msBoundary base).seal_.passOn = true ∧
    sealCommits { base with seal_ := { base.seal_ with passOn := true } } = [] := by
  decide +kernel

/-- R342, R343: the first submission of the host takes slot 0 with generation 1; a fifth of a core has code 1. -/
theorem witness_SubmissionIsAcceptedOrRefused :
    pwrState base ≠ 1 ∧ submission (.selftest 1 3 false) = some (1, 9, 3, 0, 0) ∧ cmdMay base 1 = true ∧ cmdHeld base 1 = 0 ∧
    srcFenced base 0xDD = false ∧ base.cmd.frees.head? = some 0 ∧ (∀ j ∈ base.cmd.frees.tail, j ≠ 0) ∧ base.fcol.safe = false ∧
    handleOf (after (.selftest 1 3 false) base) 1 = 0x11000 ∧
    cmdRefusal { base with fcol := { base.fcol with safe := true } } 1 9 = 3 ∧
    cmdMay base 4 = false ∧ cmdRefusal base 4 9 = 4 ∧
    handleOf (after (.selftest 1 3 false) { base with fcol := { base.fcol with safe := true } }) 1 = 3 * 2 ^ 17 := by
  decide +kernel

-- the time scale

/-- The 40-bit rate word 65 536 with no slew; and a slew of 5 ticks whose extra rate is 42 950. -/
def slewing : State :=
  { base with time := { base.time with y := 42950, ybase := 0, yslew := 42950, slewRem := 4000000 } }

theorem witness_BoundaryAdvancesPlainAndEndsSlews :
    QuietBoundary base false ∧ base.time.slewRem = 0 ∧
    (after (.aonBoundary 1 false) base).time.plain = 6553600 * 2 ^ 32 ∧ (after (.aonBoundary 3 false) base).time.aon = 3 ∧
    QuietBoundary slewing false ∧ (after .slewEnd slewing).time.slewRem = 0 ∧
    (after .slewEnd slewing).time.plain = 6553600 * 2 ^ 32 + 4000000 ∧
    slewing.time.slewRem.natAbs ≤ (100 * (slewing.time.y - slewing.time.ybase)).natAbs ∧
    (after (.aonBoundary 1 false) { slewing with fcol := { base.fcol with safe := true } }).time.slewRem = 4000000 ∧
    after (.aonBoundary 2 true) State.reset = State.reset := by
  decide +kernel

theorem witness_TimeCommandsPostAndLand :
    BusOpen base ∧ postBusy base 0 = false ∧ (after (.timeStep 1) base).posted = [(0, ⟨1, rTIME 0x08, 0, [2]⟩)] ∧
    busyTime.posted.find? (fun q => decide (q.1 = 0)) = some (0, ⟨1, rTIME 0x08, 0, [9]⟩) ∧ AonOpen base ∧
    (after (.postedWriteLand ⟨.time, true⟩) busyTime).landed.map (·.hit) = [9] := by
  decide +kernel

/-- A state whose time-scale queue holds one action. -/
def timeQ (due : Int) (k : ActKind) : State := { base with time := { base.time with queue := [⟨due, none, 0, none, k, false, false⟩] } }

theorem witness_QueuedTimeActionActsAtItsBoundary :
    (PlainBoundary (timeQ 0 (.timeStep 5)) false ∧
      0 ≤ (nextT (timeQ 0 (.timeStep 5)) : Int) ∧
      (after .queuedStep (timeQ 0 (.timeStep 5))).time.plain = (6553600 + 5) * 2 ^ 32) ∧
    (after .queuedSlew (timeQ 0 (.timeSlew 7 0))).time.slewRem = 7 * 2 ^ 32 ∧
    rL (after .queuedRate (timeQ 0 (.timeRate (-1)))) (rTIME 0x38) 2 = 2 ^ 40 - 1 ∧
    (after .queuedSlewStop (timeQ 0 .timeSlewStop)).time.queue = [] ∧
    (nextT (timeQ (10 ^ 12) .timeSlewStop) : Int) < 10 ^ 12 ∧
    after .queuedSlewStop (timeQ (10 ^ 12) .timeSlewStop) = timeQ (10 ^ 12) .timeSlewStop := by
  decide +kernel

/-- R87's example: the offset 40, TIME_LEAP_AT 1 798 761 641. -/
def leapEx : State := withRegs base [(rTIME 0x70, 40), (rTIME 0x78, 0x6B36ECA9), (rTIME 0x74, 1)]

theorem witness_LeapArmsOrIsInvalid :
    tSec (leapEx.time.plain / 2 ^ 32) < rL leapEx (rTIME 0x78) 2 ∧
    ((rL leapEx (rTIME 0x78) 2 : Int) - (sx 16 (rn leapEx (rTIME 0x70)) + 1)) % 86400 = 0 ∧
    (after (.leapArm 1) leapEx).time.leapPend = true ∧
    ((rL leapEx (rTIME 0x78) 2 : Int) - (sx 16 (rn leapEx (rTIME 0x70)) + -1)) % 86400 ≠ 0 ∧
    queueFull leapEx 0xD6 = false ∧ rb (after (.leapArm 2) leapEx) (rTIME 0x74) 0 2 = 0 ∧
    (after (.leapArm 2) leapEx).time.leapPend = false := by
  decide +kernel

/-- The same leap, armed, with Plain at TIME_LEAP_AT. -/
def leapDue : State := { leapEx with time := { leapEx.time with leapPend := true, plain := 1798761641 * secTicks * 2 ^ 32 } }

/-- Two device seconds wait for their PPS events, and the pulse of output 2 has lasted its width. -/
def ppsAt (notSet : Bool) : State :=
  { base with time := { base.time with notSet := notSet, ppsOwed := [7, 8], ppsPulse := 4, aon := 10 ^ 9 } }

theorem witness_LeapAndPpsActAtTheirSecond :
    rL leapDue (rTIME 0x78) 2 ≤ tSec (leapDue.time.plain / 2 ^ 32) ∧ rn (after .leapApply leapDue) (rTIME 0x70) = 41 ∧
    base.time.leapPend = false ∧ leapDue.landed = [] ∧ softWrote leapDue (rTIME 0x70) = false ∧
    softWrote leapDue (rTIME 0x74) = false ∧
    rbit (after .leapApply { leapDue with cycle := ⟨false, 0, 0, [rTIME 0x70]⟩ }) (rTIME 4) 9 = true ∧
    base.time.ppsOwed = [] ∧
    (rbit (ppsAt true) (rTIME 0xA0) 31 && (ppsAt true).time.notSet) = true ∧
    (after .ppsEvent (ppsAt true)).time.ppsOwed = [8] ∧
    rn (after .ppsEvent (ppsAt false)) (rTIME 0xB0) = 7 ∧ (ppsAt false).coreAwake = true ∧
    (ppsAt false).time.ppsPulse.testBit 2 = true ∧ (after (.ppsPulseEnd 2) (ppsAt false)).time.ppsPulse = 0 ∧
    after (.ppsPulseEnd 3) (ppsAt false) = ppsAt false := by
  decide +kernel

-- synthesis cores

/-- SC 0 awake and locked, within its band or outside it. -/
def scOn (lo hi : Nat) : State :=
  withRegs (setSc base 0 { scInit with awake := true, lockFast := true, lockSet := true }) [(rSC 0 0x104, lo), (rSC 0 0x108, hi)]

theorem witness_RetuneStartsOrIsRefused :
    BusOpen (scOn 25000 40000) ∧ retuneRefusal (scOn 25000 40000) 0 1 false true = none ∧
    (rn (scOn 25000 40000) (rSC 0 0x104) : Rat) ≤ ratioVal (ratioAt (scOn 25000 40000) (rSC 0 0x60)) * 256 ∧
    ratioVal (ratioAt (scOn 25000 40000) (rSC 0 0x60)) * 256 ≤ (rn (scOn 25000 40000) (rSC 0 0x108) : Rat) ∧
    ((sc (after (.retune 1 0 1 false 0) (scOn 25000 40000)) 0).retune.map (·.band)) = some false ∧
    ((sc (after (.retune 1 0 1 false 0) (scOn 0 0)) 0).retune.map (·.band)) = some true ∧
    (sc (after (.retune 1 0 1 false 0) base) 0).slot = 1 ∧
    ratioOk (ratioAt (withRegs base [(rSC 0 0x60, 0)]) (rSC 0 0x60)) = false ∧
    retuneRefusal (withRegs base [(rSC 0 0x60, 0)]) 0 1 false true = some 1 ∧
    retuneRefusal (setSc base 0 { scInit with fenced := true }) 0 1 false true = some 2 ∧
    retuneRefusal (after (.retune 1 0 1 false 0) (scOn 0 0)) 0 1 false true = some 3 ∧
    (sc (after (.retune 1 0 1 false 0) (setSc base 0 { scInit with fenced := true })) 0).refuse = 2 ∧
    (sc (after (.retune 1 0 1 false 0) (withRegs (scOn 0 0) [(rFOD 5 0, 7)])) 0).refuse = 4 ∧
    (sc (after (.retune 1 0 1 true 0) (setFod (scOn 25000 40000) 5 { fodInit 5 with n := 1, f := 1, m := 2 ^ 40 - 1 })) 0).refuse = 5 := by
  decide +kernel

theorem witness_BandCalibrationStartsAndEnds :
    scRetuning (scOn 0 0) 0 = false ∧ scUsed (scOn 0 0) 0 = false ∧
    (sc (after (.bandcal 1 0) (scOn 0 0)) 0).bandcal = some .command ∧ (sc base 0).awake = false ∧
    scRetuning (after (.retune 1 0 1 false 0) (scOn 0 0)) 0 = true ∧
    (sc (after (.bandcal 1 0) (after (.retune 1 0 1 false 0) (scOn 0 0))) 0).refuse = 3 ∧
    scUsed (withRegs (scOn 0 0) [(rFOD 5 0, 7)]) 0 = true ∧
    queueFull (scOn 0 0) (srcSc 0) = false ∧
    rn (after (.bandCalDone 0 true 100 200 5) (after (.bandcal 1 0) (scOn 0 0))) (rSC 0 0x108) = 200 ∧
    (sc (after (.bandcal 1 0) (scOn 0 0)) 0).deadline = some .command ∧
    (sc (after (.lockDeadlineMiss 0) (after (.bandcal 1 0) (scOn 0 0))) 0).deadline = none := by
  decide +kernel

/-- A queued retune of SC 0 to slot 1. -/
def scQueued (s : State) (due : Int) : State :=
  setSc s 0 { sc s 0 with queue := [⟨due, none, 0, none, .retune 1 false none, false, false⟩] }

theorem witness_QueuedRetuneAndRampEndActWhenDue :
    (nextT (scQueued (scOn 0 0) (10 ^ 12)) : Int) < 10 ^ 12 ∧ 0 ≤ (nextT (scQueued (scOn 0 0) 0) : Int) ∧
    after (.queuedRetune 0) (scQueued (scOn 0 0) (10 ^ 12)) = scQueued (scOn 0 0) (10 ^ 12) ∧
    retuneRefusal (scQueued (scOn 25000 40000) 0) 0 1 false false = none ∧
    ((sc (after (.queuedRetune 0) (scQueued (scOn 25000 40000) 0)) 0).retune.map (·.slot)) = some 1 ∧
    (sc (after (.queuedRetune 0) (scQueued (after (.retune 1 0 1 false 0) (scOn 0 0)) 0)) 0).queue.map (·.held) = [true] ∧
    (sc (after (.scRampEnd 0 0) (after (.retune 1 0 1 false 0) (scOn 25000 40000))) 0).slot = 1 ∧
    (sc (scOn 0 0) 0).retune = none := by
  decide +kernel

/-- SC 0 with a trail whose last 1 023 entries were zero, and with a move to SC 7. -/
def scTrail : State := setSc (withRegs base [(rFOD 5 0, 7)]) 0 { scInit with awake := true, trailOn := true, trailZeros := 1023 }

theorem witness_DetectorsTrailAndRehomingFollow :
    (sc scTrail 0).awake = true ∧ (sc scTrail 0).bandcal = none ∧ (sc scTrail 0).lockSet = false ∧ (sc scTrail 0).retune = none ∧
    (∀ f < 128, (fod scTrail f).insel ≠ some 0) ∧ scWanted scTrail 0 = true ∧ (sc (after (.lockSetRise 0 0) scTrail) 0).lockSet = true ∧
    rM (after (.lossOfLock 0) (scOn 0 0)) (rSC 0 0xF0) 2 = 1 ∧
    (sc (after (.trailEntry 0) scTrail) 0).trailOn = false ∧ (sc base 0).trailOn = false ∧
    (sc (setSc base 0 { scInit with rehome := some (7, [5]) }) 0).rehome = some (7, [5]) ∧
    (convertDiv (fod base 5).n (fod base 5).f (fod base 5).m (scQ base 7 / scQ base 0)).isSome = true ∧
    (fod (after (.rehomeSwitch 0 0) (setSc base 0 { scInit with rehome := some (7, [5]) })) 5).sc = 7 ∧ (fod base 5).sc = 0 ∧
    (sc base 0).rehome = none ∧ base.fcol.safe = false ∧ (sc scTrail 0).awake = true ∧ (sc (after (.lockFastSet 0) scTrail) 0).lockFast = true ∧
    (after (.lockFastClear 0) (scOn 0 0)).scs = [(0, { scInit with awake := true, lockSet := true })] ∧
    (sc (scOn 0 0) 0).lockSet = true ∧ (sc base 0).awake = false := by
  decide +kernel

-- output dividers, phase and hopping

/-- FOD 5 as given. -/
def fodIs (x : Fod) : State := setFod base 5 x

/-- A start record. -/
def rec0 : ChRec := ⟨1, 0, 0, 0, 0, 1600000, 0, 0, 0, 0⟩

theorem fodFree_base : FodFree (atCyc base 0) 5 := by
  refine ⟨by decide +kernel, by decide +kernel, fun c h => ?_, .inl (by decide +kernel)⟩
  have e : (fod (atCyc base 0) 5).insel = none := by decide +kernel
  rw [e] at h; cases h

/-- The FOD 5 of the reset, and SC 7 awake and locked. -/
def fodInit5 : Fod := fodInit 5
def sc7Up (x : Fod) : State := setSc (fodIs x) 7 { scInit with awake := true, lockFast := true, lockSet := true }

theorem witness_DivideAndInputChangesAreChecked :
    FodFree (atCyc base 0) 5 ∧ divRegs base 5 = (40, 0, 1, 1) ∧ comboOk 41 0 1 1 (scQ base (fod base 5).sc) = true ∧
    (fod (after (.fodDivCommit 1 5 .n 41 0) base) 5).n = 41 ∧ comboOk 2 0 1 1 (scQ base (fod base 5).sc) = false ∧
    (fod (after (.fodDivCommit 1 5 .n 2 0) base) 5).divInvalid = true ∧ (fod (after (.fodDivCommit 1 5 .n 2 0) base) 5).n = 40 ∧
    rn base (rFOD 5 0x10) % 16 = 0 ∧ (fod base 5).running = false ∧ (fod (after (.fodInselWrite 1 5 7 false 0) base) 5).sc = 7 ∧
    (fod (fodIs { fodInit 5 with running := true }) 5).running = true ∧ (sc base 7).awake = false ∧
    (fod (after (.fodInselWrite 1 5 7 false 0) (fodIs { fodInit 5 with running := true })) 5).insel = some 7 ∧
    candidateOk base 7 (fod base 5).sc = false ∧ rb (after (.fodInselWrite 1 5 7 true 0) base) (rFOD 5 4) 11 2 = 1 ∧
    candidateOk (sc7Up fodInit5) 7 0 = true ∧ (fod (after (.fodInselWrite 1 5 7 true 0) (sc7Up fodInit5)) 5).sc = 7 ∧
    convertDiv 2 1 (2 ^ 40 - 1) (scQ base 7 / scQ base 0) = none ∧
    rb (after (.fodInselWrite 1 5 7 true 0) (sc7Up { fodInit5 with n := 2, f := 1, m := 2 ^ 40 - 1 })) (rFOD 5 4) 11 2 = 2 := by
  refine ⟨fodFree_base, ?_⟩; decide +kernel

theorem witness_PhaseCommandsMoveThePhase :
    sx 48 (rM (withRegs base [(rFOD 5 0x4C, 1000)]) (rFOD 5 0x4C) 3) = 1000 ∧
    (foldSlew (fod base 5) (nowR (atCyc base 0))).phi = 0 ∧
    (fod (after (.pstep 1 5 0) (withRegs base [(rFOD 5 0x4C, 1000)])) 5).phi = 1000 ∧
    (fod (after (.pslew 1 5 0) (withRegs base [(rFOD 5 0x4C, 1000)])) 5).pRem = 1000 ∧
    queueFull base (srcFod 5) = false ∧
    (2 : Rat) ^ 47 ≤ (foldSlew (fod (fodIs { fodInit 5 with phi := 2 ^ 47 - 1 }) 5) 0).phi + 1000 ∧
    (fod (after (.pstep 1 5 0) (withRegs (fodIs { fodInit 5 with phi := 2 ^ 47 - 1 }) [(rFOD 5 0x4C, 1000)])) 5).phi = 2 ^ 47 - 1 ∧
    (fod (after (.pstop 1 5 0) (fodIs { fodInit 5 with pRem := 9, pRate := 1 / 1000 })) 5).pRem = 0 ∧
    (fod (after (.fodSlewEnd 5) (fodIs { fodInit 5 with pRem := 9, pRate := 1 / 1000 })) 5).phi = 9 ∧
    (fod base 5).pRem = 0 ∧ (fod base 5).tRem = 0 ∧ (fod base 5).fenced = false ∧ (fod base 5).queue = [] := by
  decide +kernel

/-- FOD 5 runs, aligned, on a group that is awake. -/
def running5 (frozen : Bool) : State :=
  { fodIs { fodInit 5 with running := true, frozen := frozen, recs := [rec0] } with groups := 1 }

theorem witness_WitnessVisitCorrectsTheOutput :
    (fod base 5).running = false ∧ (running5 false).groups.testBit (5 / 8) = true ∧ (running5 false).tdcFail = 0 ∧ witMay (running5 false) 5 = true ∧
    witMay { running5 false with wits := [(0, { witInit with last := 5, end_ := some 0 })] } 5 = false ∧
    (fod (running5 false) 5).frozen = false ∧ base.fcol.safe = false ∧ base.corrPause = false ∧
    (after (.witnessVisit 5 false 1) (running5 false)).tdcFail = 1 ∧ (fod (running5 false) 5).recs ≠ [] ∧
    alignMode (running5 false) 5 (fod (running5 false) 5) = true ∧
    -((atLeast1 (rb base 0x408008 12 8) : Nat) : Rat) * psT ≤ 2 / 2 ^ rb base 0x408008 8 4 ∧
    2 / 2 ^ rb base 0x408008 8 4 ≤ ((atLeast1 (rb base 0x408008 12 8) : Nat) : Rat) * psT ∧
    ((fod (after (.witnessVisit 5 true 2) (running5 false)) 5).anchors.map (·.step)) = [-(2 / 2 ^ rb base 0x408008 8 4)] ∧
    ((fod (after (.witnessVisit 5 true 2) (running5 true)) 5).anchors.map (·.step)) = [0] := by
  decide +kernel

/-- FOD 5 enabled on SC 0, which is locked. -/
def starts : State := { withRegs (scOn 0 0) [(rFOD 5 0, 7), (rFOD 5 0x0C, 6)] with groups := 1 }
/-- Its driver due. -/
def drives : State :=
  { setFod starts 5 { fodInit 5 with running := true, startDue := some 100, recs := [rec0] } with standby := false }
/-- FOD 5 with one queued action. -/
def fodQ (due : Int) (k : ActKind) : State :=
  fodIs { fodInit 5 with queue := [⟨due, none, 0, none, k, false, false⟩], hops := [(3, ⟨true, false, 50, 0, 1, 2, 0⟩)] }

theorem witness_OutputsStartStopAndActWhenDue :
    startReady starts 5 = true ∧ (fod (after (.fodStart 5 0) starts) 5).running = true ∧ startReady base 5 = false ∧
    groupWanted { starts with groups := 0 } 0 = true ∧ 2 ≤ pwrState { starts with groups := 0 } ∧ calHolds drives = false ∧ (after (.fodGroupWake 0) { starts with groups := 0 }).groups = 1 ∧
    (fod drives 5).startDue = some 100 ∧ rbit drives (rFOD 5 0x0C) 2 = true ∧ (fod drives 5).driving = false ∧
    (fod (after (.outputDriverStart 5) drives) 5).driving = true ∧
    (fod (after (.outputDisable 5) (fodIs { fodInit 5 with running := true, driving := true, recs := [rec0] })) 5).prev.isSome = true ∧
    (nextT (fodQ (10 ^ 12) (.oen true)) : Int) < 10 ^ 12 ∧ after (.queuedOen 5) (fodQ (10 ^ 12) (.oen true)) = fodQ (10 ^ 12) (.oen true) ∧
    0 ≤ (nextT (fodQ 0 (.oen true)) : Int) ∧ rbit (after (.queuedOen 5) (fodQ 0 (.oen true))) (rFOD 5 0x0C) 2 = true ∧
    (fod (after (.queuedPhaseMove 5) (fodQ 0 (.phStep (-3)))) 5).phi = -3 ∧
    (fod (fodQ 0 (.hop 3)) 5).hopHeld = [] ∧ rbit base 0x40 0 = false ∧ hopBlocked (fodQ 0 (.hop 3)) 5 0 = false ∧
    hopRateFull (fodQ 0 (.hop 3)) 5 0 = false ∧ hopWouldRun (fodQ 0 (.hop 3)) 5 3 = true ∧ (hopBefore (fodQ 0 (.hop 3)) 5 3).n = 50 ∧ (fod (after (.queuedHop 5) (fodQ 0 (.hop 3))) 5).n = 50 := by
  decide +kernel

/-- FOD 5 holds a hop to a valid entry. -/
def heldHop (busy : Bool) : State :=
  fodIs { fodInit 5 with hopBusy := busy, hopHeld := [(3, none, false)], hops := [(3, ⟨true, false, 50, 0, 1, 2, 0⟩)] }

theorem witness_HopEntriesAreStoredAndTaken :
    rb (withRegs base [(rFOD 5 0xA0, 3)]) (rFOD 5 0xA0) 0 4 = 3 ∧
    hopEnt (fod (after (.hopEntryCommit 1 5 3 ⟨true, true, 50, 1, 3, 2, -7⟩) (withRegs base [(rFOD 5 0xA0, 3)])) 5) 3 =
      ⟨true, true, 50, 1, 3, 2, -7⟩ ∧
    (hopEnt (fod (after (.hopEntryCommit 1 5 3 ⟨true, true, 2, 1, 3, 2, -7⟩) (withRegs base [(rFOD 5 0xA0, 3)])) 5) 3).valid = false ∧
    (fod (after (.hopGo 1 5 3 0) (fodQ 0 .snap)) 5).n = 50 ∧ (fod (after (.hopGo 1 5 3 0) (fodQ 0 .snap)) 5).hopBusy = true ∧
    hopBlocked (atCyc (fodQ 0 .snap) 0) 5 (nowR (atCyc (fodQ 0 .snap) 0)) = false ∧ (fod (fodQ 0 .snap) 5).hopHeld = [] ∧
    hopRateFull (fodQ 0 .snap) 5 (nowR (atCyc (fodQ 0 .snap) 0)) = false ∧ hopWouldRun (atCyc (fodQ 0 .snap) 0) 5 3 = true ∧
    (hopBefore (atCyc base 0) 5 3).valid = false ∧ hopBlocked (atCyc base 0) 5 (nowR (atCyc base 0)) = false ∧ rbit (after (.hopGo 1 5 3 0) base) (rFOD 5 0xDC) 8 = true ∧
    hopBlocked (atCyc (fodIs { fodInit 5 with hopBusy := true }) 0) 5 (nowR (atCyc base 0)) = true ∧
    (fod (after (.hopGo 1 5 3 0) (fodIs { fodInit 5 with hopBusy := true })) 5).hopHeld = [(3, none, false)] ∧
    (fod (after (.hopReloadDone 5 0) (fodIs { fodInit 5 with hopBusy := true })) 5).hopBusy = false ∧
    (fod (after (.hopReloadDone 5 0) (fodIs { fodInit 5 with hopBusy := true, hopHeld := [(3, none, false)] })) 5).hopHeld = [] ∧
    (fod (after (.hopRateRelease 5 0) (fodIs { fodInit 5 with hopHeld := [(3, none, false)] })) 5).hopHeld = [] ∧
    hopWouldRun (heldHop true) 5 3 = true ∧ hopRateFull (heldHop true) 5 0 = false ∧ 
    hopBlocked (atCyc (heldHop false) 0) 5 (nowR (atCyc base 0)) = false ∧ (heldHop true).fcol.safe = false ∧
    (fod (after (.hopReloadDone 5 0) (heldHop true)) 5).n = 50 ∧ (fod (after (.hopRateRelease 5 0) (heldHop false)) 5).n = 50 := by
  decide +kernel

-- references

/-- A time of 100 s, with the references of the tests enabled. -/
def refsOn : State :=
  { withRegs base ((List.range 16).map (fun i => (rREF i 0, 1))) with
    time := { base.time with plain := 100 * secTicks * 2 ^ 32 } }

theorem witness_ReferenceEventsAndSamplesAreMeasured :
    refOn refsOn 0 = true ∧ (ref (after (.refTimeEvent 0 (50 * secTicks + 3) (some 50) 100000) refsOn) 0).lastE = some (-3) ∧
    (ref (after (.refFreqSample 5 77) refsOn) 5).lastE = some 77 ∧ refOn base 5 = false ∧
    resolveDue (atCyc refsOn 0) (100 * 2 ^ 48 / 2 ^ 16) ≤ (nowT (atCyc refsOn 0) : Int) ∧
    (ref (after (.swrefSample 1 0 (BitVec.ofNat 64 (100 * secTicks - 1)) 9 0) refsOn) 12).lastE = some 9 ∧
    (ref (after (.swrefSample 1 0 (BitVec.ofNat 64 (100 * secTicks + 1)) 9 0) refsOn) 12).lastE = none ∧
    rM (after (.swrefSample 1 0 (BitVec.ofNat 64 (100 * secTicks + 1)) 9 0) refsOn) (rREF 12 0x120) 2 = 1 := by
  decide +kernel

/-- ASCII. -/
def ascii (x : String) : List Byte := x.toList.map (fun c => BitVec.ofNat 8 c.toNat)
/-- A ZDA sentence of 1970-01-01 00:01:00 UTC. -/
def zda : List Byte := ascii "$GPZDA,000100.00,01,01,1970,00,00*68\r\n"
/-- A reference that awaits its label 100 ms after an edge, and one that takes it for the next edge. -/
def todRef (mode : Nat) : State :=
  setRef (withRegs refsOn [(rREF 0 0, mode)]) 0 { refInit with seen := true, edge := some ((100 * secTicks - 6553600000000 : Nat) : Int) }
/-- A binary time-of-day frame: TAI second 1 000, offset 37, VALID, LI 0. -/
def todBytes : List Byte :=
  let b : List Byte := [0x01, 0x10] ++ leBytes 6 1000 ++ leBytes 2 37 ++ leBytes 8 1
  [0xC3, 0x3C] ++ b ++ leBytes 4 (crc32c b)

theorem witness_TimeCodesLabelTheEdge :
    isZda zda = true ∧ zdaLabel refsOn zda = some 97 ∧ rbit (todRef 1) (rREF 0 0) 7 = false ∧
    (ref (after (.zdaSentence 0 zda) (todRef 1)) 0).label = some 97 ∧ rbit (todRef 0x41) (rREF 0 0) 6 = true ∧
    (ref (after (.zdaSentence 0 zda) (todRef 0x41)) 0).next = some 97 ∧
    zdaLabel refsOn (ascii "$GPZDA,000100.00,01,01,1970,00,00*67\r\n") = none ∧
    rn (after (.zdaSentence 0 (ascii "$GPZDA,000100.00,01,01,1970,00,00*67\r\n")) (todRef 1)) 0x250 = 1 ∧
    todFrame todBytes = some (1000, 37, 1) ∧ (ref (after (.binaryTodFrame 0 todBytes) (todRef 0xC1)) 0).next = some 1000 ∧
    todFrame (todBytes.take 23) = none ∧ rn (after (.binaryTodFrame 0 (todBytes.take 23)) (todRef 0xC1)) 0x250 = 1 ∧
    refOn refsOn 8 = true ∧ rbit (withRegs refsOn [(0x230, 0)]) 0x230 0 = false ∧ (ref refsOn 8).edge = none ∧
    (ref (after (.irigInFrame 0 ⟨0, 1, 0, 1, 1970, 0, false, false, true, false⟩) (withRegs refsOn [(0x230, 0)])) 8).next = some 97 := by
  decide +kernel

/-- Reference 2 with status bits. -/
def refSt (v : Nat) : State := withRegs refsOn [(rREF 2 4, v)]

theorem witness_ReferencesQualifyAndDpllsFollow :
    refBit (after (.refLos 2) refsOn) 2 4 = true ∧
    atLeast1 (rb refsOn (rREF 5 0x20) 0 16) * 2 ^ 48 < (2 ^ 40 - 1) * 1000000000 ∧
    refBit (after (.refFreqGate 5 (2 ^ 39 - 1)) refsOn) 5 5 = true ∧ refBit (after (.refFreqGate 5 0) refsOn) 5 5 = false ∧
    refBit (refSt 5) 2 0 = true ∧ refBit (refSt 5) 2 2 = true ∧ refBit (after (.refQualTimer 2) (refSt 5)) 2 1 = true ∧
    refBit (refSt 0x12) 2 4 = true ∧ refBit (after (.refDisqTimer 2 .los) (refSt 0x12)) 2 1 = false ∧
    refBit (refSt 3) 2 1 = true ∧ refMayQual (refSt 3) 2 = true ∧ refBit (after (.requal 1 2) (refSt 3)) 2 1 = false ∧
    base.coreAwake = true ∧
    refBit (after (.qnow 1 2) (refSt 1)) 2 1 = true ∧ refBit (after (.qnow 1 2) (refSt 0)) 2 1 = false ∧
    (dp (after (.resel 1 0) base) 0).waitOver = true ∧
    (dp (after (.clrhist 1 0) (setDp base 0 { dpInit with words := [(0, 1)] })) 0).hoFrom = some 0 ∧ (dp base 0).wait = none ∧
    (dp (setDp base 0 { dpInit with wait := some 3 }) 0).st ≠ 4 ∧
    (dp (after (.wtrExpiry 0) (setDp base 0 { dpInit with wait := some 3 })) 0).sel = none := by
  decide +kernel

theorem witness_ScreedKeepsItsIntervals :
    rbit (withRegs base [(rSCR 0, 0)]) (rSCR 0) 0 = false ∧ rbit base (rSCR 0) 0 = true ∧ base.scr.good = false ∧
    (after (.screedSample 0) base).scr.good = true ∧ base.coreAwake = true ∧ State.reset.coreAwake = false ∧ base.scr.entry = none ∧ rn (after (.screedTeUpdate (-1)) base) (rSCR 0x30) = 65535 ∧
    rn (after (.screedTeUpdate 0) { refsOn with scr := { scrInit with entry := some 0, e0 := 7, sf := 1 / 10 ^ 12 } }) (rSCR 0x40) = 107 ∧
    rn (after (.screedClear 1) (withRegs base [(rSCR 8, 5)])) (rSCR 8) = 0 := by
  decide +kernel

-- port timestamping and corrections

/-- Lane pair 0 with lock both ways and its credit link up. -/
def laneOn : State := setLane base 0 { laneInit with el := true, cl := true, up := true, ready := true }
/-- Lane pair 0 with a part replaced. -/
def laneIs (x : LaneSt) : State := setLane base 0 { x with el := true, cl := true, up := true, ready := true }
/-- A receive event of pair (5, 0) on port 0, with a TAP to come. -/
def ev5 : EventMsg := ⟨0, false, 0, true, 5, false, false, false, false, false, 0, 0, 0⟩
/-- The slot of that event. -/
def slot5 (waits : Bool) : ESlot := ⟨ev5, none, 0, ⟨none, 2, false⟩, none, none, 0, false, waits⟩
/-- A TAP of 14 bytes for it. -/
def tap5 : TapMsg := ⟨0, 5, false, 64, List.replicate 14 0⟩
/-- The ingress entry of the pair. -/
def ing5 : Ing := ⟨5, false, 0, 0, 0, ⟨some 100, 0, false⟩, 0, false, false, 0, 0, 0, none, 0, 0, []⟩

theorem witness_EventsAndTapsPairUp :
    (lane laneOn 0).el = true ∧ (∀ y ∈ (lane laneOn 0).slots, y.open_ = false) ∧ laneTakes laneOn 0 = true ∧
    ((lane (after (.event 0 ev5 0) laneOn) 0).slots.map (·.open_)) = [true] ∧
    ((lane (after (.event 0 { ev5 with tapf := false } 0) laneOn) 0).slots.map (·.open_)) = [false] ∧
    slotsIn (lane (laneIs { laneInit with slots := List.replicate 24 (slot5 true) }) 0) false = 24 ∧
    (lane (after (.event 0 ev5 0) (laneIs { laneInit with slots := List.replicate 24 (slot5 true) })) 0).dropTap = true ∧
    laneTakes (setLane base 0 { laneInit with el := true }) 0 = false ∧
    rn (after (.event 0 ev5 0) (setLane base 0 { laneInit with el := true })) (rEL 0 0x14) = 1 ∧
    ((lane (after (.tap 0 tap5 0) (after (.event 0 ev5 0) laneOn)) 0).slots.map (·.open_)) = [false] ∧
    (lane (after (.tap 0 tap5 0) (laneIs { laneInit with dropTap := true })) 0).dropTap = false ∧
    rn (after (.tap 0 tap5 0) laneOn) (rEL 0 0x18) = 1 := by
  decide +kernel

/-- The lane with that entry held. -/
def held5 : State := { laneOn with ingress := [ing5] }

theorem witness_BeaconsAbortsAndAgeActOnPorts :
    elFenced laneOn 0 = false ∧ rbit (after (.beacon 0 ⟨0, true, false, 0, 0, 0⟩ 0) laneOn) (rPORT 0 4) 0 = true ∧
    after (.beacon 0 ⟨0, true, false, 0, 0, 0⟩ 3) base = { base with cyc := max base.cyc 3 } ∧
    (port (after (.beacon 0 ⟨0, true, false, 0, 0, 0⟩ 0) (setPort laneOn 0 { portInit with samples := [(1, 1)] })) 0).samples = [] ∧
    held5.owed = [] ∧ ing5.action.testBit 10 = false ∧
    ingOf held5 5 false = some ing5 ∧ (nowT (atCyc held5 0) : Int) ≤ ing5.sfd + 65536000000 ∧
    (∀ n < 16, ringFill (ring held5 n) = 0) ∧ goneWhy (after (.abort 0 0 5 false 0) held5) 5 false = some 6 ∧
    ingOf laneOn 5 false = none ∧ rn (after (.abort 0 0 5 false 0) laneOn) (rEL 0 0x18) = 1 ∧
    ingOf (after (.ingressAgeRetire 5 false 0) held5) 5 false = none ∧ held5.coreAwake = true ∧ asleep.coreAwake = false ∧
    after (.ingressAgeRetire 5 false 0) { held5 with coreAwake := false } = { held5 with coreAwake := false } := by
  decide +kernel

theorem witness_LanesKeepTheirCredit :
    ((lane (setLane base 0 { laneInit with el := true, cl := true }) 0).up = false ∧
      (after (.creditLinkUp 0) (setLane base 0 { laneInit with el := true, cl := true })).out =
        [.cl 0 [0x72, 0, 0, 0, 0, 0, 0, 0], .cl 0 [0x71, 1, 24, 8, 0, 0, 0, 0]]) ∧
    (after (.creditLinkUp 0) { setLane base 0 { laneInit with el := true, cl := true } with cal := { base.cal with stops := [3, 9] } }).out =
      [.cl 0 [0x72, 0, 0, 0, 0, 0, 0, 0], .cl 0 [0x71, 1, 24, 8, 0, 0, 0, 0], .cl 0 [0x73, 3, 2, 0, 0, 0, 0, 0]] ∧
    (lane (after (.creditSyncMarker 0) laneOn) 0).marker = some (0, 0, 0) ∧ (lane base 0).up = false ∧
    rbit (after (.creditSyncEcho 0 0 24 8) (laneIs { laneInit with marker := some (0, 0, 0) })) (rEL 0 4) 3 = false ∧
    rbit (after (.creditSyncEcho 0 0 23 8) (laneIs { laneInit with marker := some (0, 0, 0) })) (rEL 0 4) 3 = true ∧
    (lane laneOn 0).marker = none ∧
    rbit (after (.creditAuditTimeout 0) (laneIs { laneInit with marker := some (0, 0, 0) })) (rEL 0 4) 3 = true ∧
    rn (after (.badBlock 0) laneOn) (rEL 0 0x18) = 1 ∧
    ((lane (laneIs { laneInit with slots := [slot5 false] }) 0).slots.find? (slotDone 5 false)) = some (slot5 false) ∧
    (after (.slotFree 0 5 false) (laneIs { laneInit with slots := [slot5 false] })).out = [.cl 0 [0x71, 0, 1, 0, 0, 0, 0, 0]] ∧
    queueFull laneOn (srcCl 0) = false ∧ (lane (after (.laneDown 0 true) laneOn) 0).cl = false := by
  decide +kernel

/-- A correction that is due: a transmit event at 350 against a receive event at 100. -/
def corr5 : Corr := ⟨{ ev5 with tx := true }, 0, ⟨some 350, 0, false⟩, false, some ing5, 0, 0, 0⟩

theorem witness_CorrectionIsFormedAndSent :
    corrOf (laneIs { laneInit with corrs := [corr5] }) 0 5 false = some corr5 ∧ corr5.ev.cls ≠ 1 ∧
    rbit (laneIs { laneInit with corrs := [corr5] }) (rPORT 0 0) 1 = false ∧ clFenced laneOn 0 = false ∧ laneOn.owed = [] ∧
    laneOn.corrPause = false ∧ softWrote laneOn 0x508008 = false ∧
    (after (.correction 0 5 false 480) (laneIs { laneInit with corrs := [corr5] })).out =
      [.cl 0 (leBytes 8 (0x70 + 2 ^ 11 + 5 * 2 ^ 16) ++ leBytes 8 250)] ∧
    (lane (setLane base 0 { laneInit with corrs := [corr5] }) 0).cl = false ∧
    rn (after (.correction 0 5 false 480) (setLane base 0 { laneInit with corrs := [corr5] })) (rCL 0 0x0C) = 1 ∧
    (after (.correction 0 5 false 480) { laneIs { laneInit with corrs := [corr5] } with
      fcol := { base.fcol with safe := true } }).out = [] ∧
    ((lane (after (.pairWaitExpiry 0 5 false) (laneIs { laneInit with corrs := [{ corr5 with wait := true, ing := none }] })) 0).corrs.map
      (·.why)) = [1] := by
  decide +kernel

/-- A calibration of port 0 in which 16 frames took q ticks each. -/
def cal16 (q : Rat) : PortCal :=
  ⟨0, 16, (List.range 16).map (fun i => (i, 0)), (List.range 16).map (fun i => (i, q))⟩
/-- Port 0 while it calibrates. -/
def calOn (c : PortCal) : State := setPort base 0 { portInit with cal := some c }

theorem witness_PortCommandsAndCalibration :
    (fod (fodIs { fodInit 5 with driving := true, prev := some ⟨[], [], 0⟩ }) 5).driving = true ∧
    (fod (after (.prevNumberingExpiry 5) (fodIs { fodInit 5 with driving := true, prev := some ⟨[], [], 0⟩ })) 5).prev = none ∧
    BusOpen base ∧ rbit (after (.resync 1 0 0) (withRegs base [(rPORT 0 4, 16)])) (rPORT 0 4) 4 = false ∧
    portFod (after (.portFodWrite 1 0 7 0) base) 0 = 7 ∧ (∀ q ∈ base.cal.turns, q < 128) ∧
    calMean ⟨0, 0, [], []⟩ = none ∧ (port (after (.calStopTimeout 0 0) (calOn ⟨0, 0, [], []⟩)) 0).calDone = some (false, none) ∧
    calMean (cal16 10) = some 10 ∧
    rM (calOn (cal16 10)) (rPORT 0 0x30) 2 = 0 ∧ rM (calOn (cal16 10)) (rPORT 0 0x38) 2 = 2 ^ 32 - 1 ∧
    rM (after (.calStopTimeout 0 0) (calOn (cal16 10))) (rPORT 0 0x50) 2 = 10 := by
  decide +kernel

-- the classifier and the rings

/-- A slot that waits for its lookup, and a classifier with the entry 7 in GEN 0, which matches every key. -/
def waiting5 : State := laneIs { laneInit with slots := [slot5 true] }

/-- The slot waits behind one of another pair. -/
def second5 : State :=
  laneIs { laneInit with slots := [{ slot5 true with ev := { ev5 with tag := 6 } }, slot5 true] }

/-- The slot waits behind a transmit slot of its own pair. -/
def behind5 : State :=
  laneIs { laneInit with slots := [{ slot5 true with ev := { ev5 with tx := true } }, { slot5 true with tap := some tap5 }] }

theorem witness_LookupCountsAndKeepsTheRings :
    (lane behind5 0).slots.find? (fun y => slotWaits 5 false y && slotFirst y) = some { slot5 true with tap := some tap5 } ∧
    slotNext behind5 0 { slot5 true with tap := some tap5 } = true ∧ rn (after (.ecamLookup 0 5 false 0) behind5) 0x600024 = 1 ∧
    (lane waiting5 0).slots.find? (slotWaits 5 false) = some (slot5 true) ∧ slotNext waiting5 0 (slot5 true) = true ∧
    slotNext second5 0 (slot5 true) = false ∧ (lane second5 0).slots.find? (slotWaits 5 false) = some (slot5 true) ∧
    (lane (after (.ecamLookup 0 5 false 0) second5) 0).slots = (lane second5 0).slots ∧
    (ecamAction (withRegs waiting5 [(rENT 7 0x54, 1), (rENT 7 0x50, 0x200)]) (some 7)).testBit 9 = true ∧
    ev5.cal = false ∧ waiting5.standby = false ∧ (lane base 0).slots.find? (slotWaits 5 false) = none ∧
    ecamFind waiting5 (keyWords ev5 0 none) 0 = none ∧ rn (after (.ecamLookup 0 5 false 0) waiting5) 0x600024 = 1 ∧
    ecamFind (withRegs waiting5 [(rENT 7 0x54, 1)]) (keyWords ev5 0 none) 0 = some 7 ∧
    rn (after (.ecamLookup 0 5 false 0) (withRegs waiting5 [(rENT 7 0x54, 1)])) (rENT 7 0x58) = 1 ∧
    ecamDraining waiting5 = false ∧ ecamActive (withRegs waiting5 [(0x600004, 1)]) = 1 ∧
    rn (after (.ecamLookup 0 5 false 0) (withRegs waiting5 [(0x600004, 1)])) 0x600030 = 1 ∧
    ringConserved (ring waiting5 0) ∧ (ecamAction (withRegs waiting5 [(rENT 7 0x54, 1)]) (some 7)).testBit 9 = false := by
  decide +kernel

theorem witness_ClassifierRulesAndGenerations :
    BusOpen base ∧ rbit base (rENT 7 0x54) 0 = false ∧ rd (after (.ecamEntryWrite 1 7 3 9) base) (rENT 7 12) = 9 ∧
    rb (after (.ecamEntryWrite 1 7 21 3) base) (rENT 7 0x54) 0 2 = 3 ∧ ecamActive base = 0 ∧ ecamDraining base = false ∧
    (rb (withRegs base [(rENT 7 0x54, 3)]) (rENT 7 0x54) 1 1 = 1 ∧
      rb (after (.ecamEntryWrite 1 7 21 2) (withRegs base [(rENT 7 0x54, 3)])) (rENT 7 0x54) 0 2 = 2) ∧
    (rbit (withRegs base [(rENT 7 0x54, 1)]) (rENT 7 0x54) 0 = true ∧ queueFull base 0xB8 = false ∧
      (after (.ecamEntryWrite 1 7 21 0) (withRegs base [(rENT 7 0x54, 1)])).fcol.queues.length = 1 ∧
      (after (.ecamEntryWrite 1 7 3 9) (withRegs base [(rENT 7 0x54, 1)])).fcol.queues.length = 1) ∧
    (ecamActive (after (.genSwitch 1) base) = 1 ∧ ecamDraining (after (.genSwitch 1) base) = true ∧
      (after (.genSwitch 1) (after (.genSwitch 1) base)).fcol.queues.length = 1) ∧
    inFlightOf (after (.genSwitch 1) base) 0 = 0 ∧ softWrote base (rENT 7 0x54) = false ∧
    rn (after (.parity 7) { base with cycle := ⟨false, 0, 0, [rENT 7 0x54]⟩ }) 0x600034 = 1 ∧ ecamDraining (after .drainComplete (after (.genSwitch 1) base)) = false ∧
    rbit (after (.parity 7) (withRegs base [(rENT 7 0x54, 1)])) (rENT 7 0x54) 2 = true ∧
    rn (after .ecamSigUpdate base) 0x600014 = ecamSig base 0 % 2 ^ 32 := by
  decide +kernel

/-- Ring 2 with one record of type 1 in its first slot, disabled or not. -/
def ring2 (en : Nat) : State :=
  setMb (setRing (withRegs base [(rRING 2 0, 0x200000C2 + en)]) 2 { ringInit with wr := 1, admitted := 1, inFlight := 1 })
    (0x80 * 0x2000) 1

theorem witness_RingCommandsActOnTheirRing :
    BusOpen (ring2 0) ∧ (1 : Word).getLsbD 2 = false ∧ (ring (ring2 0) 2).overTh = decide (rb (ring2 0) (rRING 2 0x2C) 0 17 ≤ 1) ∧
    queueFull (ring2 0) 0xB9 = false ∧ ringSlot (ring2 0) 2 0 = 0x2000 ∧ ringFill (ring (ring2 0) 2) = 1 ∧
    rn (after (.ringCfgWrite 1 2 0x200000C3) (ring2 0)) (rRING 2 0) = 0x200000C3 ∧
    ringCfgOk (wr (ring2 0) (rRING 2 0) 0x200000F3) 2 = false ∧
    rn (after (.ringCfgWrite 1 2 0x200000F3) (ring2 0)) (rRING 2 0) = 0x200000F2 ∧
    rn (after (.ringCfgWrite 1 2 0x20000001) (ring2 1)) (rRING 2 0) = 0x200000C1 ∧
    (ring (after (.flush 1 2) (ring2 0)) 2).rd = 1 ∧ (ring (after (.flush 1 2) (ring2 0)) 2).abandoned = 1 ∧
    (ring (after (.flush 1 2) (ring2 1)) 2).rd = 0 ∧
    (ring (after (.ringRdWrite 1 2 1) (ring2 1)) 2).delivered = 1 ∧
    rbit (after (.ringRdWrite 1 2 2) (ring2 1)) (rRING 2 4) 10 = true ∧
    (ring (after (.tokenRefill 2) (ring2 1)) 2).tokens = 65536 ∧ rbit (withRegs base [(rRING 2 0, 0)]) (rRING 2 0) 1 = false ∧
    slotType (after (.eccUncorr 0x2000) (ring2 1)) 0x2000 = 0 ∧ rn (after (.eccUncorr 0x2000) (ring2 1)) 0x70804C = 1 := by
  decide +kernel

-- Oarva words, written out from the formats of R321 and the tables of R327 to R339

theorem test_decode_registers :
    oarvaDecode 0b00001000011000010001000000000000 = some (.alu .add 3 1 2) ∧
    oarvaDecode 0b00001000011000010001000000001101 = some (.alu .mulhs 3 1 2) ∧
    oarvaDecode 0b00001000000000010001000000001110 = some (.alu .cmp 0 1 2) ∧
    oarvaDecode 0b00000100101001001111111111111111 = some (.imm .addi 5 4 0xFFFF) ∧
    oarvaDecode 0b00001100000111110000000000000001 = some (.cmpi 31 1) ∧
    oarvaDecode 0b00011100010000001010101111001101 = some (.lui 2 0xABCD) ∧
    oarvaDecode 0b00101000010000110000000000011111 = some (.shift .sari 2 3 31) := by decide +kernel

theorem test_decode_jumps_and_memory :
    oarvaDecode 0b10000001110000000000000000000101 = some (.bcc 7 5) ∧
    oarvaDecode 0b10000100000000000000111111111111 = some (.bl 0xFFF) ∧
    oarvaDecode 0b10001000000111110000000000000000 = some (.jr 31) ∧
    oarvaDecode 0b10001100001000100000000000000000 = some (.jalr 1 2) ∧
    oarvaDecode 0b01001100011000011111111111111111 = some (.load .ldb 3 1 0xFFFF) ∧
    oarvaDecode 0b01100100011000010000000000000010 = some (.store .sth 3 1 2) ∧
    oarvaDecode 0b10100100010000010100000000001000 = some (.wrreg 2 1 1 8) := by decide +kernel

theorem test_decode_actions_and_system :
    oarvaDecode 0b11000000100000000001101110000101 = some (.hopAt 2 3 7 5) ∧
    oarvaDecode 0b11000100100001100000000010000000 = some (.phsPlain 2 3 false) ∧
    oarvaDecode 0b11001000100000000000011000000010 = some (.ratSc 2 0 2 true 2) ∧
    oarvaDecode 0b11010000100001100000000100000001 = some (.gangAt 2 3 0 2 1) ∧
    oarvaDecode 0b11101000010001000000000000000000 = some (.waitE 1 2) ∧
    oarvaDecode 0b11110000001000010000001100000000 = some (.post 1 1 3) ∧
    oarvaDecode 0b11110100000000110000000000000110 = some (.sig 3 6) ∧
    oarvaDecode 0b11111000000000000000000000000010 = some (.sys .trap) ∧
    oarvaDecode 0b11111000011000000000000000000100 = some (.coreid 3) := by decide +kernel

/-- R322: undefined opcode, func or condition, a field that is not zero, an odd pair. -/
theorem test_decode_refuses :
    oarvaDecode 0 = none ∧ oarvaDecode 0b11111000000000000000000000000101 = none ∧
    oarvaDecode 0b10000011110000000000000000000101 = none ∧ oarvaDecode 0b00001000011000010001000010000000 = none ∧
    oarvaDecode 0b00001000001000010001000000001110 = none ∧ oarvaDecode 0b11100000011000000000000000000000 = none ∧
    oarvaDecode 0b11110000001110010000001100000000 = none := by decide +kernel

-- the Oarva cores

/-- Core 1 runs at PC 0 with an instruction there, and registers. -/
def oar (i : OInstr) (r : List (Nat × Nat)) : State :=
  withRegs (setMbs base (imemBase 1) (leBytes 4 (oarvaEncode i))) ((rSEQ 1 4, 1) :: r)
/-- Sk of core 1. -/
def sR (k v : Nat) : Nat × Nat := (rSEQ 1 (0x100 + 4 * k), v)
/-- The state that an instruction leaves, before the cycles that it took. -/
def did (i : OInstr) (r : List (Nat × Nat)) : State :=
  match seqDo (oar i r) 1 0 false i with
  | .ok t => t
  | .exc _ t => t
/-- The exception that an instruction raises. -/
def raised (i : OInstr) (r : List (Nat × Nat)) : Option Cause310 :=
  match seqDo (oar i r) 1 0 false i with
  | .ok _ => none
  | .exc c _ => some c

theorem witness_OarvaWordsDecodeToTheirInstruction :
    (OInstr.alu .cmp 0 1 2).wf = true ∧ (OInstr.alu .cmp 3 1 2).wf = false := by decide +kernel

/-- Core 1 issues an instruction that works on its own registers alone. -/
def issued (i : OInstr) : Bool :=
  decide (SeqIssues (oar i []) 1 i) && (regRule (atCyc (oar i []) 0) 1 i).isSome

/-- R326: the largest signed number plus 1 overflows; a shift by 0 keeps C; R330: JALR jumps to ra as it was. -/
theorem witness_RegisterInstructionsGiveResultFlagsAndPc :
    SeqIssues (oar (.alu .add 3 1 2) [sR 1 0x7FFFFFFF, sR 2 1]) 1 (.alu .add 3 1 2) ∧
    regRule (atCyc (oar (.alu .add 3 1 2) [sR 1 0x7FFFFFFF, sR 2 1]) 0) 1 (.alu .add 3 1 2) =
      some ([(3, 0x80000000)], ⟨false, true, false, true⟩, 1) ∧
    regRule (oar (.alu .sub 3 1 2) [sR 1 1, sR 2 2]) 1 (.alu .sub 3 1 2) = some ([(3, 0xFFFFFFFF)], ⟨false, true, true, false⟩, 1) ∧
    regRule (oar (.shift .shli 3 1 0) [sR 1 5, (rSEQ 1 0x10, 4)]) 1 (.shift .shli 3 1 0) =
      some ([(3, 5)], ⟨false, false, true, false⟩, 1) ∧
    regRule (oar (.alu .mulhs 3 1 2) [sR 1 0xFFFFFFFF, sR 2 1]) 1 (.alu .mulhs 3 1 2) =
      some ([(3, 0xFFFFFFFF)], ⟨false, true, false, false⟩, 1) ∧
    regRule (oar (.jalr 1 1) [sR 1 9]) 1 (.jalr 1 1) = some ([(1, 1)], ⟨false, false, false, false⟩, 9) ∧
    (sreg (did (.jalr 1 1) [sR 1 9]) 1 1 = 1 ∧ seqPc (did (.jalr 1 1) [sR 1 9]) 1 = 9) ∧
    (∀ op ∈ [AluOp.add, .addc, .sub, .subc, .and, .or, .xor, .andn, .shl, .shr, .sar, .mul, .mulhu, .mulhs],
      issued (.alu op 3 1 2) = true) ∧
    ∀ i ∈ [OInstr.alu .cmp 0 1 2, .alu .tst 0 1 2, .imm .addi 3 1 0xFFFF, .imm .andi 3 1 7, .imm .ori 3 1 7, .imm .xori 3 1 7,
      .cmpi 1 5, .lui 3 8, .shift .shli 3 1 31, .shift .shri 3 1 31, .shift .sari 3 1 31, .bcc 0 9, .bl 9, .jr 1, .jalr 3 1,
      .tnow 2, .sys .nop, .coreid 3], issued i = true := by
  refine ⟨?_, ?_, ?_, ?_, ?_, ?_, ?_, ?_, ?_⟩ <;> decide +kernel

theorem witness_LoadsAndStoresAccessTheDataSpace :
    SeqIssues (oar (.load .ldb 3 1 0xFFFF) [sR 1 1]) 1 (.load .ldb 3 1 0xFFFF) ∧
    (sreg (oar (.load .ldb 3 1 0xFFFF) [sR 1 1]) 1 1 + (BitVec.ofNat 16 0xFFFF).signExtend 32).toNat = 0 ∧
    (mb (did (.load .ldw 3 1 0) [sR 1 0x2FC4]) 0x880FC4, mb (did (.load .ldw 3 1 0) [sR 1 0x2FC4]) 0x880FC5) = (1, 0) ∧
    SeqIssues (oar (.store .sth 3 1 2) [sR 1 0, sR 3 0x12345678]) 1 (.store .sth 3 1 2) ∧
    mb (did (.store .sth 3 1 2) [sR 1 0, sR 3 0x12345678]) 0x818002 = 0x78 ∧
    mb (did (.store .sth 3 1 2) [sR 1 0, sR 3 0x12345678]) 0x818003 = 0x56 ∧
    (∀ op ∈ [LoadOp.ldw, .ldh, .ldhu, .ldb, .ldbu], SeqIssues (oar (.load op 3 1 0) []) 1 (.load op 3 1 0)) ∧
    ∀ op ∈ [StoreOp.stw, .sth, .stb], SeqIssues (oar (.store op 3 1 0) []) 1 (.store op 3 1 0) := by
  decide +kernel

theorem witness_OarvaExceptionsAreTaken :
    SeqGoes (oar (.sys .trap) []) 1 ∧ SeqGoes (withRegs base [(rSEQ 1 4, 1)]) 1 ∧ queueFull base 0xCB = false ∧ queueFull (oar (.sys .trap) []) 0xCB = false ∧
    seqFetch (oar (.sys .trap) []) 1 = some (.sys .trap) ∧ raised (.sys .trap) [] = some ⟨6, 0, 0, true⟩ ∧
    seqFetch (withRegs base [(rSEQ 1 4, 1)]) 1 = none ∧
    raised (.load .ldw 3 1 2) [] = some ⟨2, 2, 1, false⟩ ∧ raised (.store .stb 3 1 0x3000) [] = some ⟨2, 0x3000, 2, false⟩ ∧
    seqFetch (oar (.rdreg 3 1 0 8) []) 1 = some (.rdreg 3 1 0 8) ∧ queueFull (oar (.rdreg 3 1 0 8) []) 0xD2 = false := by
  decide +kernel

/-- Core 1 shadows its mate and reads TIME_STATUS, whose word the mate has sent. -/
def shadows : State :=
  { oar (.rdreg 3 1 0 0) [sR 1 (rTIME 4), (rSEQ 1 0, 8)] with
    standby := true, mate := { mateInit with mirror := [(rTIME 4, 5)] } }

theorem witness_CoresReadAndWriteRegisters :
    SeqIssues (oar (.rdreg 3 1 0 0) []) 1 (.rdreg 3 1 0 0) ∧ seqShadow (oar (.rdreg 3 1 0 0) []) 1 = false ∧
    SeqIssues shadows 1 (.rdreg 3 1 0 0) ∧ seqShadow shadows 1 = true ∧ ((regInfo (rTIME 4)).map mirrored) = some true ∧
    ((seqRead shadows 1 (rTIME 4)).2 = 5 ∧ regAddr shadows 1 1 0 0 = rTIME 4) ∧
    sreg (did (.rdreg 3 1 0 0) []) 1 3 = 0x00012802 ∧
    SeqIssues (oar (.wrreg 3 1 0 0) [sR 1 0x508000, sR 3 77]) 1 (.wrreg 3 1 0 0) ∧
    BusOpen (oar (.wrreg 3 1 0 0) [sR 1 0x508000, sR 3 77]) ∧
    ((regInfo 0x508000).map (fun i => (i.blk = .corr, i.row.words, allRo i))) = some (True, 1, false) ∧
    rn (did (.wrreg 3 1 0 0) [sR 1 0x508000, sR 3 77]) 0x508000 = 77 ∧
    SeqIssues (oar (.wrreg 3 1 0 2) []) 1 (.wrreg 3 1 0 2) ∧ queueFull (oar (.wrreg 3 1 0 2) []) 0xCB = false ∧
    raised (.wrreg 3 1 0 2) [] = some ⟨3, 2, 2, false⟩ := by
  refine ⟨?_, ?_, ?_, ?_, ?_, ?_, ?_, ?_, ?_, ?_, ?_, ?_, ?_, ?_⟩ <;> first | decide +kernel | (simp; decide +kernel)

/-- FOD 5 with a full queue, for a hop that core 1 issues. -/
def fullFod : State :=
  setFod (oar (.hopAt 2 0 3 5) []) 5 { fodInit 5 with queue := List.replicate 8 ⟨0, none, 0, none, .snap, false, false⟩ }

/-- Core 1 issues a timed action that its target takes. -/
def entersAt (i : OInstr) (r : List (Nat × Nat)) : Bool :=
  decide (SeqIssues (oar i r) 1 i) && (match timedRule (oar i r) 1 i with
    | some (_, x, _) => targetTakes (oar i r) x
    | none => false)

theorem witness_TimedActionsEnterTheirQueue :
    SeqIssues (oar (.hopAt 2 0 3 5) [sR 5 1]) 1 (.hopAt 2 0 3 5) ∧
    timedRule (oar (.hopAt 2 0 3 5) [sR 5 1]) 1 (.hopAt 2 0 3 5) = some (2 ^ 32, .one (.fod 5), .hop 3) ∧
    targetTakes (oar (.hopAt 2 0 3 5) [sR 5 1]) (.one (.fod 5)) = true ∧
    ((fod (did (.hopAt 2 0 3 5) [sR 5 1]) 5).queue.map (fun a => (a.core, a.kind))) = [(some 1, .hop 3)] ∧
    ((did (.phsPlain 2 3 false) [sR 6 9]).time.queue.map (·.kind)) = [.timeStep 9] ∧
    targetTakes base (.gang 0) = false ∧ targetTakes (withRegs base [(rFOD 5 0, 0x36)]) (.gang 3) = true ∧
    (∀ i ∈ [OInstr.phsFod 2 3 0 true 5, .phsPlain 2 3 false, .ratSc 2 0 1 true 3, .ratRate 2 3, .ratStop 2, .oenAt 2 0 true 5,
      .snapAt 2], entersAt i [] = true) ∧ entersAt (.gangAt 2 3 0 1 3) [(rFOD 5 0, 0x36)] = true ∧
    SeqIssues fullFod 1 (.hopAt 2 0 3 5) ∧ targetTakes fullFod (.one (.fod 5)) = false ∧ queueFull fullFod 0xCB = false := by
  decide +kernel

/-- A FENCE with a posted write to SC 0, which sleeps; the same core STALLED with no write in flight. -/
def fenceWaits : State := { oar (.sys .fence) [] with posted := [(5, ⟨6, rSC 0 8, 0, [1]⟩)] }
def fenceGoes : State := withRegs (oar (.sys .fence) []) [(rSEQ 1 4, 4)]

theorem witness_WaitsSignalsAndPosts :
    (SeqIssues fenceWaits 1 (.sys .fence) ∧ (sc fenceWaits 0).awake = false ∧ rb (after (.fence 1) fenceWaits) (rSEQ 1 4) 0 3 = 4 ∧
      (after (.fence 1) fenceWaits).posted = fenceWaits.posted) ∧
    (fenceGoes.coreAwake = true ∧ rb fenceGoes (rSEQ 1 4) 0 3 = 4 ∧ seqFetch fenceGoes 1 = some (.sys .fence) ∧
      fenceGoes.posted = [] ∧ (seqc fenceGoes 1).stepping = false) ∧
    (SeqIssues (oar (.waitT 2) []) 1 (.waitT 2) ∧
      resolveDue (atCyc (oar (.waitT 2) []) 0) (spair (oar (.waitT 2) []) 1 2) ≤ nowT (atCyc (oar (.waitT 2) []) 0) ∧
      (nowT (oar (.waitT 2) [sR 4 1]) : Int) < resolveDue (oar (.waitT 2) [sR 4 1]) (spair (oar (.waitT 2) [sR 4 1]) 1 2) ∧
      (seqc (did (.waitT 2) [sR 4 1]) 1).waitT.isSome = true) ∧
    (SeqIssues (oar (.waitE 1 2) [sR 4 6, (rSEQ 1 0x30, 3)]) 1 (.waitE 1 2) ∧
      seqPend (oar (.waitE 1 2) [sR 4 6, (rSEQ 1 0x30, 3)]) 1 &&& spair (oar (.waitE 1 2) [sR 4 6, (rSEQ 1 0x30, 3)]) 1 2 = 2 ∧
      sreg (did (.waitE 1 2) [sR 4 6, (rSEQ 1 0x30, 3)]) 1 2 = 2 ∧ (seqc (did (.waitE 1 2) [sR 4 6]) 1).waitE = some (6, 1)) ∧
    (rb (setSeqc (withRegs base [(rSEQ 1 4, 2)]) 1 { seqInit with waitT := some 0 }) (rSEQ 1 4) 0 3 = 2 ∧
      seqPc (after (.waitTResume 1 0) (setSeqc (withRegs base [(rSEQ 1 4, 2)]) 1 { seqInit with waitT := some 0 })) 1 = 1 ∧
      after (.waitTResume 1 0) (setSeqc (withRegs base [(rSEQ 1 4, 2)]) 1 { seqInit with waitT := some 7 }) =
        setSeqc (withRegs base [(rSEQ 1 4, 2)]) 1 { seqInit with waitT := some 7 }) ∧
    (rb (setSeqc (withRegs base [(rSEQ 1 4, 3), (rSEQ 1 0x30, 3)]) 1 { seqInit with waitE := some (6, 1) }) (rSEQ 1 4) 0 3 = 3 ∧
      sreg (after (.waitEResume 1)
        (setSeqc (withRegs base [(rSEQ 1 4, 3), (rSEQ 1 0x30, 3)]) 1 { seqInit with waitE := some (6, 1) })) 1 2 = 2 ∧
      seqPend (setSeqc (withRegs base [(rSEQ 1 4, 3)]) 1 { seqInit with waitE := some (6, 1) }) 1 &&& 6 = 0) ∧
    (SeqIssues (oar (.sys .halt) []) 1 (.sys .halt) ∧ rb (did (.sys .halt) []) (rSEQ 1 4) 4 3 = 1) ∧
    (SeqIssues (oar (.sig 3 6) [sR 3 7]) 1 (.sig 3 6) ∧ rbit (did (.sig 3 6) [sR 3 7]) (rSEQ 5 0x30) 1 = true ∧
      rn (did (.sig 3 6) [sR 3 7, (rSEQ 5 0x30, 2)]) (rSEQ 5 0x38) = 1) ∧
    (SeqIssues (oar (.sys .fence) []) 1 (.sys .fence) ∧ (∀ p ∈ (oar (.sys .fence) []).posted, p.2.master ≠ 5 + 1) ∧
      ({ oar (.sys .fence) [] with posted := [(0, ⟨6, rTIME 0x08, 0, [9]⟩)] } : State).posted = [(0, ⟨6, rTIME 0x08, 0, [9]⟩)] ∧
      SeqIssues { oar (.sys .fence) [] with posted := [(0, ⟨6, rTIME 0x08, 0, [9]⟩)] } 1 (.sys .fence)) ∧
    (SeqIssues (oar (.post 1 24 3) [sR 1 0x1FA0]) 1 (.post 1 24 3) ∧ 0x1FA0 + 4 * 24 ≤ 0x2000 ∧
      ringRoute (oar (.post 1 24 3) [sR 1 0x1FA0]) 2 = 14 ∧
      (ring (did (.post 1 24 3) [sR 1 0x1FA0]) 14).admitted = 1 ∧ raised (.post 1 24 3) [sR 1 0x1FA4] = some ⟨2, 0x1FA4, 1, false⟩) := by
  refine ⟨?_, ?_, ?_, ?_, ?_, ?_, ?_, ?_, ?_, ?_⟩ <;> decide +kernel

/-- Core 1 with a state word. -/
def seqIs (v : Nat) : State := withRegs base [(rSEQ 1 4, v), (rSEQ 1 0x2C, 0x123), (rSEQ 1 0x104, 9)]

theorem witness_SequencerCommandsActOnTheirCore :
    BusOpen (seqIs 0x100) ∧ srcFenced (seqIs 0x100) 0xCB = false ∧ seqPc (after (.seqStart 1 1) (seqIs 0x100)) 1 = 0x123 ∧
    sreg (after (.seqStart 1 1) (seqIs 0x100)) 1 1 = 0 ∧
    rbit (after (.seqStart 1 1) (seqIs 0)) (rSEQ 1 4) 17 = true ∧ rbit (after (.seqStart 1 1) (seqIs 0x101)) (rSEQ 1 4) 17 = true ∧
    rb (after (.seqHalt 1 1) (seqIs 0x102)) (rSEQ 1 4) 4 3 = 2 ∧ rb (after (.seqResume 1 1) (seqIs 0x100)) (rSEQ 1 4) 0 3 = 1 ∧
    (seqc (after (.seqStep 1 1) (seqIs 0x100)) 1).stepping = true ∧ (seqc (after (.seqVerify 1 1) (seqIs 0)) 1).verify = true ∧
    (∀ n < 8, rbit { base with standby := false } (rSEQ n 0x30) 10 = false) ∧
    rbit (after (.seqDoorbell 1 1) { base with standby := false }) (rSEQ 7 0x30) 10 = true ∧
    rbit (after (.seqExcClr 1 1) (seqIs 0x180)) (rSEQ 1 4) 7 = false ∧
    seqAtBp (withRegs (seqIs 0x101) [(rSEQ 1 0x40, 2 ^ 31)]) 1 = true ∧
    rb (after (.breakpointHit 1) (withRegs (seqIs 0x101) [(rSEQ 1 0x40, 2 ^ 31)])) (rSEQ 1 4) 4 3 = 3 ∧
    (setSeqc base 1 { seqInit with verify := true }).coreAwake = true ∧
    rbit (after (.imageVerifyDone 1) (setSeqc base 1 { seqInit with verify := true })) (rSEQ 1 4) 8 = false ∧
    queueFull base 0xCB = false := by
  decide +kernel

-- the command engine and the DMA engine

/-- An outstanding command of the host with words 0 and 1. -/
def cmdW (w0 w1 : Nat) : Slot := ⟨1, 1, w0, w1, 0, 0, 0, 0, false, none, none, []⟩
/-- The module with one command in slot 0. -/
def cmdOn (x : Slot) : State := { base with cmd := { base.cmd with slots := [(0, x)], frees := base.cmd.frees.tail } }
/-- The bank of a store that runs. -/
def bank1 : Bank := { bankInit with full := true, seqNo := 7 }
/-- The module with one running command in slot 0 and a store of PORTCAL's bank 1. -/
def cmdRunning (x : Slot) : State :=
  { cmdOn { x with running := true } with nvs := { base.nvs with job := some (1025, bank1) } }

theorem witness_CommandStartsAndCompletes :
    (slotOf base 0 = none ∧ slotOf (cmdOn (cmdW 9 3)) 0 = some (cmdW 9 3) ∧ mayStart (cmdOn (cmdW 9 3)) 0 (cmdW 9 3) = true ∧
      mayStart (cmdRunning (cmdW 9 3)) 0 { cmdW 9 3 with running := true } = false) ∧ (cmdOn (cmdW 9 3)).cmd.own = [] ∧
    (cmdArgsOk (cmdW 0x90001 0) = false ∧ rn (after (.commandStart 0 0) (cmdOn (cmdW 0x90001 0))) (rCPL 0) = 0x1011000) ∧
    (cmdArgsOk (cmdW 3 0) = true ∧ rbit (withRegs base [(rNVS 0, 0)]) (rNVS 0) 0 = false ∧
      rn (after (.commandStart 0 0) (withRegs (cmdOn (cmdW 3 0)) [(rNVS 0, 0)])) (rCPL 0) = 0x1031000) ∧
    (cmdArgsOk (cmdW 11 0) = true ∧ rbit (withRegs (cmdOn (cmdW 11 0)) [(0x40, 16)]) 0x40 4 = true ∧
      rn (after (.commandStart 0 0) (withRegs (cmdOn (cmdW 11 0)) [(0x40, 16)])) (rCPL 0) = 0x1021000) ∧
    (cmdArgsOk (cmdW 9 3) = true ∧ (slotOf (after (.commandStart 0 0) (cmdOn (cmdW 9 3))) 0).map (·.running) = some true) ∧
    (rbit (withRegs (cmdOn (cmdW 3 0)) [(rNVS 0, 1)]) (rNVS 0) 0 = true ∧ srcFenced (cmdOn (cmdW 3 0)) 0xD4 = false ∧
      (bankOf (after (.commandStart 0 0) (withRegs (cmdOn (cmdW 3 0)) [(rNVS 0, 1)])) 2 0).full = false) ∧
    (asleep.coreAwake = false ∧ base.coreAwake = true) ∧
    (bankOf (after (.commandComplete 0 (.ok 0) 0) (cmdRunning (cmdW 0x10001 0))) 1 1).seqNo = 7 ∧
    (queueFull (cmdRunning (cmdW 0x10001 0)) 0xD4 = false ∧
      rn (after (.commandComplete 0 (.failed 0) 0) (cmdRunning (cmdW 0x10001 0))) (rCPL 0) = 0x1061000) ∧
    (rn (after (.commandComplete 0 (.ok 0) 0) (cmdRunning (cmdW 9 3))) (rCPL 0) = 0x1001000 ∧
      rn (after (.commandComplete 0 (.failed 9) 0) (cmdRunning (cmdW 9 3))) (rCPL 0 + 4) = 1) ∧
    rn (after (.commandComplete 0 (.ok 0) 0) (cmdRunning { cmdW 4 3 with done := some (0, 5) })) (rCPL 0 + 4) = 5 ∧
    (queueFull base 0xDD = false ∧ rn (after (.commandTimeout 0 0) (cmdRunning (cmdW 9 3))) (rCPL 0) = 0x1071000) ∧
    (BusOpen (cmdOn { cmdW 11 0 with running := true }) ∧ rbit base 0x40 4 = false ∧
      rn (after (.lockWrite 1 16) (cmdOn { cmdW 11 0 with running := true })) (rCPL 0) = 0x1021000) ∧
    cmdW 8 0 = ⟨1, 1, 8, 0, 0, 0, 0, 0, false, none, none, []⟩ ∧
    after (.commandTimeout 0 0) (cmdRunning (cmdW 8 0)) = cmdRunning (cmdW 8 0) := by
  refine ⟨?_, ?_, ?_, ?_, ?_, ?_, ?_, ?_, ?_, ?_, ?_, ?_, ?_, ?_, ?_, ?_⟩ <;> decide +kernel

/-- DMA channel 2 with a control word, its own state, and the PCIe link up. -/
def dmaOn (ctl : Nat) (x : DmaSt) : State :=
  { setDma (withRegs base [(rDMA 2 0, ctl), (rDMA 2 0x68, 4)]) 2 x with pcieUp := true }
/-- The bytes of a descriptor of four bytes from 0x1000 to 0x2000. -/
def descBytes (ctrl : Nat) : List Byte := leBytes 4 ctrl ++ leBytes 4 4 ++ leBytes 8 0x1000 ++ leBytes 8 0x2000 ++ leBytes 8 0x40

theorem witness_DmaChannelsObeySoftware :
    BusOpen (dmaOn 8 dmaInit) ∧
    (rn (after (.dmaEnable 1 2 9) (dmaOn 8 dmaInit)) (rDMA 2 0) = 9 ∧ drainCfgOk (wr (dmaOn 8 dmaInit) (rDMA 2 0) 11) 2 = true ∧
      (dma (after (.dmaEnable 1 2 11) (dmaOn 8 dmaInit)) 2).st = 1 ∧
      drainCfgOk (wr (withRegs (dmaOn 8 dmaInit) [(rDMA 2 0x68, 3)]) (rDMA 2 0) 11) 2 = false ∧
      rn (after (.dmaEnable 1 2 11) (withRegs (dmaOn 8 dmaInit) [(rDMA 2 0x68, 3)])) (rDMA 2 0) = 10 ∧
      queueFull (dmaOn 8 dmaInit) (0xBA + 2) = false) ∧
    (bits 11 1 5 ≠ bits 9 1 5 ∧ rn (after (.dmaEnable 1 2 11) (dmaOn 9 dmaInit)) (rDMA 2 0) = 9) ∧
    (dma (after (.dmaPause 1 2) (dmaOn 9 dmaInit)) 2).st = 3 ∧
    (dma (after (.dmaPaused 2) (dmaOn 9 { dmaInit with st := 3 })) 2).st = 4 ∧
    (isChain (dmaOn 9 dmaInit) 2 = true ∧ (dma (after (.dmaDoorbell 1 2) (dmaOn 9 dmaInit)) 2).st = 1 ∧
      (dma (after (.dmaDoorbell 1 2) (dmaOn 73 dmaInit)) 2).st = 3 ∧
      (dma (after (.dmaDoorbell 1 2) (dmaOn 9 { dmaInit with st := 1 })) 2).dbPend = true ∧
      (dma (after (.dmaDoorbell 1 2)
        { dmaOn 9 dmaInit with fcol := { base.fcol with fenced := [0xBC] } }) 2).dbPend = true) ∧
    (dma (after (.dmaResume 1 2) (dmaOn 9 { dmaInit with st := 5, before := 1 })) 2).st = 1 ∧
    (dma (after (.dmaAbort 1 2) (dmaOn 9 { dmaInit with st := 5 })) 2).st = 0 ∧
    rn (after (.dmaHrdWrite 1 2 3) (withRegs (dmaOn 11 dmaInit) [(rDMA 2 0x6C, 3)])) (rDMA 2 0x70) = 3 ∧
    rbit (after (.dmaHrdWrite 1 2 4) (withRegs (dmaOn 11 dmaInit) [(rDMA 2 0x6C, 3)])) (rDMA 2 4) 15 = true := by
  refine ⟨⟨⟨rfl, rfl⟩, by decide +kernel⟩, ?_, ?_, ?_, ?_, ?_, ?_, ?_, ?_, ?_⟩ <;> decide +kernel

/-- The descriptor with a control word. -/
def desc2 (ctrl : Nat) : Desc := descOf 0 (descBytes ctrl)
/-- A chain that has fetched that descriptor. -/
def chain2 (ctrl : Nat) : State := withRegs (dmaOn 9 { dmaInit with st := 1, desc := some (desc2 ctrl) }) [(rDMA 2 0x30, 4)]
/-- A drain of a ring that holds one record of type 1. -/
def drain2 (x : DmaSt) : State :=
  setMb (setRing (dmaOn 11 x) 2 { ringInit with wr := 1, admitted := 1, inFlight := 1 }) (0x80 * ringSlot base 2 0) 1
/-- What a read brings, without an error that the capture RAM corrects. -/
def reads (b : List Byte) : DmaSide := ⟨b, 0⟩

theorem witness_DmaChannelsRunChainsAndDrains :
    (descOf 0 (descBytes (2 ^ 31)) = ⟨0, 2 ^ 31, 4, 0x1000, 0x2000, 0x40⟩ ∧ dmaMay (dmaOn 9 { dmaInit with st := 1 }) 2 = true ∧
      descOk (dmaOn 9 { dmaInit with st := 1 }) 2 (desc2 (2 ^ 31)) = true ∧
      (dma (after (.descFetch 2 (descBytes (2 ^ 31))) (dmaOn 9 { dmaInit with st := 1 })) 2).desc = some (desc2 (2 ^ 31)) ∧
      descOk (dmaOn 9 { dmaInit with st := 1 }) 2 (desc2 (2 ^ 31 + 2 ^ 30)) = false ∧
      (dma (after (.descFetch 2 (descBytes (2 ^ 31 + 2 ^ 30))) (dmaOn 9 { dmaInit with st := 1 })) 2).st = 5 ∧
      (dma (after (.descFetch 2 (descBytes 1)) (dmaOn 9 { dmaInit with st := 1 })) 2).st = 2) ∧
    (isChain (chain2 (2 ^ 31)) 2 = true ∧ dmaMay (chain2 (2 ^ 31)) 2 = true ∧ 0x1000 % 512 + 4 ≤ 512 ∧
      (dma (after (.descWriteBack 2 (reads [1, 2, 3, 4]) (reads [])) (chain2 (2 ^ 31 + 2 ^ 19))) 2).st = 0 ∧
      (after (.descWriteBack 2 (reads [1, 2, 3, 4]) (reads [])) (chain2 (2 ^ 31))).out =
        [.host 0 [0, 0, 0, 2, 4, 0, 0, 0], .host 0x2000 [1, 2, 3, 4], .hostRead 0x1000 64] ∧
      rL (after (.descWriteBack 2 (reads [1, 2, 3, 4]) (reads [])) (chain2 (2 ^ 31))) (rDMA 2 0x10) 2 = 0x40) ∧
    (dmaTurn (drain2 { dmaInit with st := 1, flush := true }) = some 2 ∧ dmaTurn base = none ∧
      (ring (after (.drainBurst ⟨2, 3⟩) (drain2 { dmaInit with st := 1, flush := true })) 2).rd = 1 ∧
      rn (after (.drainBurst ⟨2, 3⟩) (drain2 { dmaInit with st := 1, flush := true })) 0x708048 = 3 ∧
      rbit (after (.drainBurst ⟨2, 0⟩) { drain2 { dmaInit with st := 1, flush := true } with
        cycle := ⟨false, 0, 0, [rRING 2 0x0C]⟩ }) (rRING 2 4) 8 = true) ∧
    (isDrain (drain2 { dmaInit with st := 1 }) 2 = true ∧ rb (drain2 { dmaInit with st := 1 }) (rDMA 2 0x58) 0 16 ≠ 0 ∧
      (dma (after (.drainFlushTimer 2) (drain2 { dmaInit with st := 1 })) 2).flush = true ∧ isDrain base 2 = false) ∧
    (dmaWants (chain2 (2 ^ 31)) 2 = true ∧ (dma (after (.dmaPromotion 2) (chain2 (2 ^ 31))) 2).promoted = true) ∧
    (0 < bits (rn (dmaOn (9 + 2 ^ 14) { dmaInit with st := 1 }) (rDMA 2 0)) 14 3 ∧
      rL (dmaOn (9 + 2 ^ 14) { dmaInit with st := 1 }) (rDMA 2 0x10) 2 = 0 ∧ wideLen 0 32 = 64 ∧
      (dma (after (.dmaBusError 2 32 0 true ⟨reads [], reads []⟩) (dmaOn (9 + 2 ^ 14) { dmaInit with st := 1 })) 2).retries =
        [((0, 32), 1)] ∧
      (dma (after (.dmaBusError 2 32 0 true ⟨reads [], reads []⟩) (dmaOn 9 { dmaInit with st := 1 })) 2).st = 5) ∧
    (isFill (desc2 (2 ^ 31)) = false ∧ srcLoc (desc2 (2 ^ 31)) = 0 ∧ dmaPos (chain2 (2 ^ 31)) 2 (desc2 (2 ^ 31)) = 0 ∧
      (dma (after (.dmaBusError 2 0x1000 0 false ⟨reads [], reads []⟩) (chain2 (2 ^ 31))) 2).st = 5) := by
  refine ⟨?_, ?_, ?_, ?_, ?_, ?_, ?_⟩ <;> decide +kernel

-- start, calibration, Skim, faults and snapshots

/-- A module at a place of the start sequence. -/
def atPhase (n : Nat) : State := { base with pwr := { pwrInit with phase := n } }
/-- A calibration run with its blocks. -/
def calRuns (power : Bool) (blocks : Nat) : State := { base with cal := { base.cal with on := true, power := power, blocks := blocks } }

/-- Delays of 0.25 ps a tap, in 1/64 ps. -/
def ramp : List Int := (List.range 33).map (fun i => (2048 * i : Int))

/-- Stored results: an offset of 0 and a gain of 1 for TDC 3, and the table of FOD 5's second twin. -/
def calib1 : Calib := ⟨[(3, 0, 2 ^ 24)], [], [(11, ramp)]⟩

/-- The CAL bank that holds them. -/
def calBank : Bank := sealedBank 1 0 (headed 1 0 1 1 [] { bankInit with calib := calib1 })

theorem calBank_valid : bankValid 1 0 calBank = true := by
  have hl : (calBytes [] calib1).length = 0x5500 := calBytes_length fun k => by
    simp only [calBreaks, calib1, List.find?]
    by_cases h : 11 = k <;> simp [h, ramp]
  apply bankValid_sealed
  simp [headed, payBytes, lengthOk, bankInit, hl]

theorem storedCal_calBank {s : State} (h : s.nvs.banks = [(1024, calBank)]) : storedCal s = calib1 := by
  have e0 : bankOf s 1 0 = calBank := by simp only [bankOf, h]; rfl
  have e1 : bankOf s 1 1 = bankInit := by simp only [bankOf, h]; rfl
  have e2 : bankValid 1 1 bankInit = false := rfl
  have e3 : newestBank s 1 0 = some (0, calBank) := by
    simp only [newestBank, show List.range (bankCount 1) = [0, 1] from rfl, List.foldl, e0, e1, e2, calBank_valid]
    simp
  simp only [storedCal, e3]
  rfl

/-- A state whose store holds that bank. -/
def stored (s : State) : State := { s with nvs := { s.nvs with banks := [(1024, calBank)] } }

theorem witness_StartSequenceAndCalibration :
    (State.reset.pwr.power = 2 ∧ State.reset.time.started = false ∧ State.reset.pwr.mrst = false ∧
      pwrState (after .aonReady { State.reset with pwr := { pwrInit with mrst := true } }) = 1 ∧ (after .aonReady State.reset).time.started = true ∧ pwrState (after .aonReady State.reset) = 1) ∧
    (atPhase 1).pwr.phase = 1 ∧
    (rbit (atPhase 2) (rPWR 0) 0 = false ∧ (after .powerupCalStart (atPhase 2)).groups = 0xFFFF ∧
      rbit (withRegs (atPhase 2) [(rPWR 0, 1)]) (rPWR 0) 0 = true) ∧
    (base.cal.on = false ∧ (calRuns true 7).cal.on = true ∧ (after (.calApply [] 0) (calRuns true 7)).pwr.phase = 4) ∧
    (calTdc (storedCal (stored (calRuns false 4))) 3 = (0, 2 ^ 24) ∧ (stored (calRuns false 4)).cal.on = true ∧
      (stored (calRuns false 4)).cal.blocks = 4 ∧ tdcOk (0, 2 ^ 24) 1000 (2 ^ 24) = true ∧ tdcOk (0, 2 ^ 24) 2000 (2 ^ 24) = false) ∧
    rbit (after (.portCalDefer 9) { base with cal := { base.cal with turns := [9] } }) (rPORT 9 4) 2 = true := by
  refine ⟨?_, ?_, ?_, ?_, ?_, ?_⟩ <;> first | decide +kernel | (rw [storedCal_calBank rfl]; decide +kernel)

/-- FOD 5 with its twins, Skim on, at 1 000 s. -/
def skims (x : Fod) : State :=
  { setFod base 5 x with time := { base.time with plain := 1000 * secTicks * 2 ^ 32 } }

/-- FOD 5 past the hard limit, a hop in its output period: executed, or queued. -/
def hopsAway (done : Bool) : State :=
  skims { fodInit 5 with
    running := true, twinBee := ⟨false, true, 0, 0⟩, recs := [rec0], hops := [(3, ⟨true, false, 50, 0, 1, 2, 0⟩)],
    trans := if done then some (0, 10 ^ 18, 0) else none,
    queue := if done then [] else [⟨1000 * secTicks + 5, none, 0, none, .hop 3, false, false⟩] }

theorem witness_SkimMeasuresAndSwapsTwins :
    (hopAhead (hopsAway true) 5 = true ∧ hopAhead (hopsAway false) 5 = false ∧ hopInPeriod (hopsAway false) 5 = true ∧
      rn (after (.skimForcedSwap 5) (hopsAway true)) 0x128 = 1 ∧
      (fod (after (.skimForcedSwap 5) (hopsAway false)) 5).swapDue = true) ∧
    skimMay (skims { fodInit 5 with running := true }) 5 = true ∧
    skimNext (skims { fodInit 5 with running := true }) 0 = some 5 ∧ skimNext (skims { fodInit 5 with running := true }) 1 ≠ some 9 ∧
    (dtcOk (calBreaks (storedCal (stored (skims { fodInit 5 with running := true }))) 11) ramp = true ∧
      dtcOk (calBreaks (storedCal (stored (skims { fodInit 5 with running := true }))) 11) (ramp.map (· + 193)) = false ∧
      skimMay (stored (skims { fodInit 5 with running := true })) 5 = true ∧
      skimNext (stored (skims { fodInit 5 with running := true })) 0 = some 5) ∧
    (skimReady { fodInit 5 with twinBee := ⟨false, true, 65536000000000, 0⟩ } = true ∧
      inGap (skims { fodInit 5 with twinBee := ⟨false, true, 65536000000000, 0⟩ }) 5 = true ∧
      (fod (after (.skimNaturalSwap 5) (skims { fodInit 5 with twinBee := ⟨false, true, 65536000000000, 0⟩ })) 5).twinB = true) ∧
    ((skimHard (skims { fodInit 5 with running := true, twinBee := ⟨false, true, 0, 0⟩ }) * 65536000000000 : Nat) ≤
        activeAge (skims { fodInit 5 with running := true, twinBee := ⟨false, true, 0, 0⟩ }) 5 ∧
      (fod (after (.skimForcedSwap 5) (skims { fodInit 5 with running := true, twinBee := ⟨false, true, 0, 0⟩ })) 5).twinB = true ∧
      hopAhead (skims { fodInit 5 with running := true, twinBee := ⟨false, true, 0, 0⟩ }) 5 = false ∧
      hopInPeriod (skims { fodInit 5 with running := true, twinBee := ⟨false, true, 0, 0⟩ }) 5 = false) ∧
    (rbit (skims (fodInit 5)) (0x140 + 4 * (5 / 32)) 5 = false ∧ queueFull (skims (fodInit 5)) 0xD5 = false ∧
      rbit (after (.softAge 5) (skims (fodInit 5))) 0x140 5 = true) ∧
    skimMay (skims { fodInit 5 with fenced := true }) 5 = false := by
  refine ⟨?_, ?_, ?_, ?_, ?_, ?_, ?_, ?_⟩ <;> first | decide +kernel | (rw [storedCal_calBank rfl]; decide +kernel)

/-- A report that waits, of a kind of source 0x30. -/
def report (kind : Nat) : Report := ⟨0x30, kind, 0x123, 4, 0, false, 0, 0⟩
/-- The collector with that report, whose severity is `sev`. -/
def reported (sev : Nat) : State :=
  withRegs { base with fcol := { base.fcol with queues := [(0x30, [report 0x01])] }, standby := false }
    [(rFCOL (0x1000 + 0x20 * 0x30), sev * 16)]

theorem witness_IntakeReactsBySeverity :
    (∀ p ∈ base.fcol.queues, p.2 = []) ∧ sevOf (sevNibble (reported 2) 0x30 1) = 2 ∧
    shadowed (reported 2) 0x30 1 0x123 = false ∧ pendOf (after .faultIntake (reported 0)) 0x30 = 0 ∧
    pendOf (after .faultIntake (reported 1)) 0x30 = 1 ∧ rb (after .faultIntake (reported 1)) (rFCOL 0x10) 0 8 = 0x30 ∧
    srcFenced (after .faultIntake (reported 2)) 0x30 = true ∧ (after .faultIntake (reported 4)).fcol.safe = true ∧
    rbit (withRegs (reported 1) [(rFCOL 0x10, 2 ^ 31)]) (rFCOL 0x10) 31 = true ∧
    queueFull base 0xFF = false ∧ (after (.sevParityCheck (some 2)) base).fcol.queues.length = 1 := by
  refine ⟨?_, ?_, ?_, ?_, ?_, ?_, ?_, ?_, ?_, ?_, ?_⟩ <;> decide +kernel

/-- A fenced source 0xC0 with an unfence request. -/
def fencedDma : State :=
  withRegs { base with fcol := { base.fcol with fenced := [0xC0] } } [(rFCOL (0x80 + 4 * (0xC0 / 32)), 1)]

theorem witness_CollectorCommandsPostAndClear :
    BusOpen base ∧ postBusy base 1 = false ∧
    (after (.faultInject 1 0x30 2 0x123) base).posted = [(1, ⟨1, rFCOL 8, 0, [0x30 + 2 * 2 ^ 8 + 2 ^ 31]⟩)] ∧
    (after (.firstErrorRearm 1) base).posted = [(1, ⟨1, rFCOL 0x10, 0, [2 ^ 31]⟩)] ∧
    (rbit base (rFCOL (0x80 + 4 * (0xC0 / 32))) (0xC0 % 32) = false ∧
      rbit fencedDma (rFCOL (0x80 + 4 * (0xC0 / 32))) (0xC0 % 32) = true ∧ srcFenced fencedDma 0xC0 = true ∧
      mayUnfence fencedDma 0xC0 = true ∧ srcFenced (after (.fenceClear 0xC0) fencedDma) 0xC0 = false ∧
      softWrote fencedDma (rFCOL (0x80 + 4 * (0xC0 / 32))) = false ∧
      rbit (after (.fenceClear 0xC0) { withRegs base [(rFCOL (0x80 + 4 * (0xC0 / 32)), 1)] with
        cycle := ⟨false, 0, 0, [rFCOL (0x80 + 4 * (0xC0 / 32))]⟩ }) (rFCOL 4) 12 = true) ∧
    (srcFenced (withRegs base [(rFCOL (0x80 + 4 * (0xC0 / 32)), 1)]) 0xC0 = false ∧
      mayUnfence { fencedDma with fcol := { base.fcol with fenced := [0x98] } } 0x98 = false) ∧
    (after (.shadowWindowExpiry 3) { base with fcol := { base.fcol with windows := [⟨3, 0, []⟩, ⟨4, 5, []⟩] } }).fcol.windows =
      [⟨4, 5, []⟩] := by
  refine ⟨⟨⟨rfl, rfl⟩, by decide +kernel⟩, ?_, ?_, ?_, ?_, ?_, ?_⟩ <;> decide +kernel

/-- An action of the snapshot queue. -/
def snapQ (due : Int) : State := { base with snap := { base.snap with queue := [⟨due, none, 0, none, .snap, false, false⟩] } }

/-- A snapshot that is not complete yet, with source NOW. -/
def snapBusy : State := after (.snapNow 1 0) base

theorem witness_SnapshotsLatchAndComplete :
    (BusOpen base ∧ rbit base (rSNAP 0) 20 = false ∧ base.snap.busy = false ∧ (after (.snapNow 1 0) base).snap.id = 1 ∧
      (after (.snapNow 1 0) { base with snap := { base.snap with id := 0xFFFF } }).snap.id = 1) ∧
    rbit (after (.snapNow 1 0) (withRegs base [(rSNAP 0, 2 ^ 20)])) (rSNAP 4) 25 = true ∧
    (after (.snapEnq 1 0) (withRegs base [(rSNAP 0x10, 9)])).snap.queue.length = 1 ∧
    rbit (after (.snapHold 1) base) (rSNAP 0) 20 = true ∧
    ((0 : Int) ≤ nextT (snapQ 0) ∧ (after (.queuedSnap 0) (snapQ 0)).snap.busy = true ∧
      (nextT (snapQ (10 ^ 12)) : Int) < 10 ^ 12 ∧ after (.queuedSnap 0) (snapQ (10 ^ 12)) = snapQ (10 ^ 12)) ∧
    (rbit base (rSNAP 0) 1 = false ∧ rn (after (.snapInEdge 0 0) (withRegs base [(rSNAP 0, 2)])) (rSNAP 0x30) = 8 ∧
      (after (.snapInEdge 5 0) (withRegs base [(rSNAP 0, 2)])).snap.later = [(5, 8)] ∧
      rn (after (.snapInEdge 6 0) (after (.snapInEdge 5 0) (withRegs base [(rSNAP 0, 2)]))) (rSNAP 0x44) = 1) ∧
    (snapBusy.snap.busy = true ∧ snapBusy.snap.inst ≠ cycNo (atCyc snapBusy 3) ∧
      rn (after (.snapNow 1 3) snapBusy) (rSNAP 0x44) = 1 ∧ rbit (after (.snapNow 1 3) snapBusy) (rSNAP 4) 24 = true ∧
      snapBusy.snap.inst = cycNo (atCyc snapBusy 0) ∧ rn (after (.snapNow 1 0) snapBusy) (rSNAP 0x44) = 0) ∧
    ((mget (fun _ => []) base.fcol.queues srcCnt).length < 3 ∧ (withRegs base [(rSNAP 0, 2)]).snap.lastIn = none ∧
      (nowT (atCyc base 0) : Int) < 5 - sx 32 (rn base (rSNAP 0x38)) ∧ 0 - sx 32 (rn base (rSNAP 0x38)) ≤ (nowT (atCyc base 0) : Int)) ∧
    (base.coreAwake = true ∧ (after (.snapComplete []) (after (.snapNow 1 0) base)).snap.busy = false) := by
  refine ⟨?_, ?_, ?_, ?_, ?_, ?_, ?_, ?_, ?_⟩ <;> decide +kernel

-- the mirrored pair

/-- A module of a pair whose lane 0 is up, in a role. -/
def pairIs (standby : Bool) : State :=
  { withRegs base [(rMATE 0, 1)] with standby := standby, mate := { mateInit with lane0 := true } }

/-- A standby that has just taken a message with sequence number 0. -/
def heard : State := { pairIs true with mate := { mateInit with lane0 := true, rx := [(0, 0)] } }

theorem witness_RoleFollowsLinesLanesAndMessages :
    (mayClaim (pairIs true) = true ∧ (after .claim (pairIs true)).standby = false ∧ mayClaim base = false) ∧
    (mateHears (pairIs true) = true ∧ (after .handover (pairIs true)).standby = false ∧ mateHears base = false) ∧
    (after .mateStatusStale { pairIs true with mate := { mateInit with lane0 := true, fresh := true } }).mate.fresh = false ∧
    ((pairIs true).mate.lineActive = false ∧ ownAlive (pairIs true) = true ∧ paired (pairIs true) = true ∧
      (after (.mateLineChange true false) (pairIs true)).standby = false) ∧
    (3 ≤ (pairIs true).pwr.phase ∧ (after (.mateLaneUp 1) (pairIs true)).mate.lane1 = true ∧ paired (withRegs base [(rMATE 0, 0)]) = false ∧
      queueFull (pairIs true) 0xD7 = false ∧ (after (.mateLaneDown 0) (pairIs true)).mate.lane0 = false ∧
      (after (.mateLaneDown 0) { pairIs true with mate := { mateInit with lane0 := true, lane1 := true } }).mate.lane1 = true) ∧
    (BusOpen { pairIs false with mateReady := true } ∧
      (after (.yield 1) { pairIs false with mateReady := true }).standby = true ∧ (pairIs true).standby = true) ∧
    (rxNew (pairIs true) 0 = true ∧ rxNew heard 0 = false ∧
      (after (.status ⟨0, 3, true, false, 0, 0, false, [0, 0, 0, 0], 0⟩) (pairIs true)).mate.fresh = true ∧
      (after (.status ⟨0, 3, true, false, 0, 0, false, [0, 0, 0, 0], 0⟩) heard).mate.fresh = false) ∧
    (drivesOwn { base with mate := { mateInit with lineAct := true } } = true ∧ drivesOwn base = false ∧
      (after (.ownRefresh 3) { base with mate := { mateInit with lineAct := true } }).mate.ownSeq = 1) := by
  refine ⟨?_, ?_, ?_, ?_, ?_, ?_, ?_, ?_⟩ <;> decide +kernel

/-- A checkpoint of one mailbox byte. -/
def ckpt1 : CkptMsg := ⟨0, 7, 0, 0, [], [], 0, [0, 0, 0, 0], [], [], [(5, 9)], []⟩

theorem witness_MateMessagesTakeEffectInTheirRole :
    (mateHears (pairIs true) = true ∧ mateLaneOn (pairIs true) 0 = true ∧ mateLaneOn (pairIs true) 1 = false ∧
      (after (.twtReqSend 0 0) (pairIs true)).out = [.mate 0 0x80 [(nodeId (pairIs true) : Int), 0, nowT (pairIs true)]]) ∧
    (mateHears (pairIs false) = true ∧
      (after (.twtReq 0 10 30 35) (pairIs false)).out = [.mate 0 0x81 [(nodeId (pairIs false) : Int), 0, 30, 35]] ∧
      rL (after (.twtResp 0 10 30 35 45) (pairIs true)) (rMATE 0x30) 2 = 5) ∧
    (mb (after (.ckpt ckpt1) (pairIs true)) 0x880005 = 9 ∧ rn (after (.ckpt ckpt1) (pairIs true)) (rMATE 0x4C) = 7) ∧
    (queueFull (pairIs true) 0xD7 = false ∧ paired (pairIs true) = true ∧ rxNew (pairIs true) ckpt1.q = true ∧
      (after .ckptMiss { pairIs true with mate := { mateInit with ckptFresh := true } }).mate.ckptFresh = false) ∧
    ((pairIs true).pwr.power = 2 ∧ (pairIs true).pwr.mrst = false ∧ (after .statusSend (pairIs true)).out.length = 1) ∧
    (({ pairIs true with mate := { mateInit with imageDone := true, lane0 := true } } : State).mate.imageDone = true) ∧
    (rbit (withRegs (pairIs true) [(rSEQ 2 0, 8)]) (rSEQ 2 0) 3 = true ∧ evtMirrored 10 = true ∧
      (seqPend (after (.events ⟨0, 0x400, [(rTIME 4, 5)]⟩) (withRegs (pairIs true) [(rSEQ 2 0, 8)])) 2).testBit 10 = true ∧
      (after (.events ⟨0, 0x400, [(rTIME 4, 5)]⟩) (pairIs true)).mate.mirror = [(rTIME 4, 5)] ∧
      rbit (withRegs base [(rSEQ 3 0, 0)]) (rSEQ 3 0) 3 = false) ∧
    (BusOpen (pairIs true) ∧ ((regInfo 0x508000).map (fun i => (i.row.words, allRo i))) = some (1, false) ∧
      rn (after (.fwd ⟨0, .write 0x508000 77⟩) (pairIs true)) 0x508000 = 77 ∧ cmdRefusal (pairIs true) 3 9 = 0 ∧
      (pairIs true).cmd.frees ≠ [] ∧ ((slotOf (after (.fwd ⟨0, .command 9 3 0 0⟩) (pairIs true)) 0).map (·.master)) = some 3 ∧
      (dp (after (.words ⟨0, some ⟨6553600, 5⟩⟩ none none) (pairIs true)) 1).received = [(boundaryAt (pairIs true) 6553600, 5)] ∧
      (after (.image ⟨0, .memory 0x800000 1⟩ true) (pairIs true)).mate.imageDone = true) ∧
    ((mget (fun _ => []) (after (.ledger 5 ⟨0, none, 1, 0, 0, 0, 100, 0⟩) (pairIs false)).mate.ledger 5).length = 1 ∧
      (mget (fun _ => []) (after (.ledger 5 ⟨0, some 2, 0, 0, 7, 9, 0, 0⟩) (pairIs false)).mate.anchors 5) = [⟨7, 2, 9, 0, 0⟩] ∧
      rbit (withRegs (pairIs false) [(rSNAP 0, 8)]) (rSNAP 0) 3 = true ∧
      rn (after (.snap ⟨0, 0⟩ 5 0) (withRegs (pairIs false) [(rSNAP 0, 8)])) (rSNAP 0x34) = 5 ∧
      (after (.snap ⟨0, 99⟩ 5 0) (withRegs (pairIs false) [(rSNAP 0, 8)])).snap.later = [(99, 16)] ∧
      rbit (withRegs base [(rSNAP 0, 0)]) (rSNAP 0) 3 = false) := by
  refine ⟨?_, ?_, ?_, ?_, ?_, ?_, ?_, ?_, ?_⟩ <;> decide +kernel

-- power, supply and resets

/-- RIDE since the boundary 0, at the boundary `aon`. -/
def riding (aon : Nat) (p : PwrSt) : State :=
  { withRegs base [(rPWR 4, 0x20), (rPWR 0, 6)] with
    time := { base.time with aon := aon }, pwr := { p with ride := some 0, phase := 4 }, standby := false, mateReady := true }

/-- A module in AON_ONLY, 10 ms after the last access that needed the core domain. -/
def parked : State := { withRegs base [(rPWR 4, 2)] with time := { base.time with aon := 100000 } }

theorem witness_ResetsAndSupplyLossKeepWhatTheySay :
    (base.pwr.power ≠ 0 ∧ rn (after .por base) (rPWR 0x40) = 1 ∧ base.cmd.slots = [] ∧ base.pwr.lost = (0, 0) ∧
      (cmdOn (cmdW 9 3)).cmd.slots ≠ [] ∧ rn (after .por (cmdOn (cmdW 9 3))) (rPWR 0x40) = 1 + 9 * 256 + 65536) ∧
    (({ base with pwr := { pwrInit with power := 0 } } : State).pwr.power = 0 ∧
      (after (.inputInRange true) { base with pwr := { pwrInit with power := 0 } }).pwr.power = 1 ∧
      (after .supplyCollapse base).pwr.power = 0 ∧ base.nvs.job = none ∧ (cmdRunning (cmdW 9 3)).nvs.job = some (1025, bank1) ∧
      (after .supplyCollapse (cmdRunning (cmdW 9 3))).nvs.job = none) ∧
    (rbit (riding 0 pwrInit) (rPWR 4) 5 = true ∧ (after .orderedShutdown (riding 0 pwrInit)).pwr.power = 0 ∧
      (riding 0 pwrInit).nvs.job = none ∧ rbit (withRegs (riding 0 pwrInit) [(rNVS 0, 1)]) (rNVS 0) 0 = true ∧
      rbit (withRegs (riding 0 pwrInit) [(rNVS 0, 0)]) (rNVS 0) 0 = false ∧ srcFenced (riding 0 pwrInit) 0xD4 = false ∧
      rbit base (rPWR 4) 5 = false) ∧
    (base.pwr.mrst = false ∧ (after .mrstNAssert base).standby = true ∧ rb (after .mrstNAssert base) (rPWR 0x40) 0 4 = 2 ∧
      ({ base with pwr := { pwrInit with mrst := true } } : State).pwr.mrst = true ∧ base.time.started = true ∧
      (after .mrstNRelease { base with pwr := { pwrInit with mrst := true } }).pwr.phase = 1 ∧
      State.reset.time.started = false ∧
      (after .mrstNRelease { State.reset with pwr := { pwrInit with mrst := true } }).pwr.phase = 0) ∧
    (BusOpen base ∧ (after (.softReset 1) base).corrPause = true ∧ rb (after (.softReset 1) base) (rPWR 0x40) 24 4 = 1 ∧
      rb (withRegs base [(rSEQ 1 4, 0x101)]) (rSEQ 1 4) 0 3 ≠ 0 ∧ rbit (withRegs base [(rSEQ 1 4, 0x101)]) (rSEQ 1 4) 8 = true ∧
      srcFenced base 0xCB = false) ∧
    (postBusy base 3 = false ∧ (after (.watchdogKick 1) base).posted = [(3, ⟨1, rPWR 0x34, 0, [0x4B1C]⟩)] ∧
      (after (.parkRelease 1) base).posted = [(3, ⟨1, rPWR 0, 2, [1]⟩)]) ∧
    (rb (after (.watchdogExpiry false) base) (rPWR 0x40) 0 4 = 4 ∧ rbit (withRegs base [(rPWR 0x30, 0x10001)]) (rPWR 0x30) 16 = true ∧
      base.pwr.wdAt + 1 * 10000 ≤ ({ base.time with aon := 10000 } : TimeSt).aon ∧
      rbit base (rPWR 0x30) 16 = false) ∧
    ((after .coreWake { base with coreAwake := false }).coreAwake = true ∧ base.pwr.phase ≠ 0 ∧
      pwrState parked = 1 ∧ parked.pwr.coreAt + 100000 ≤ parked.time.aon ∧ (after .coreSleep parked).coreAwake = false ∧
      aonAnswers 0x508000 true = false ∧ inMsix 0x508000 = false ∧
      (after (.shadowLatchRead 1 0x508000 32 0) { parked with coreAwake := false }).coreAwake = true) := by
  refine ⟨?_, ?_, ?_, ?_, ⟨⟨⟨rfl, rfl⟩, by decide +kernel⟩, ?_, ?_, ?_, ?_, ?_⟩, ?_, ?_, ?_⟩ <;> decide +kernel

/-- A module in RUN with a supply event in progress. -/
def supplied (evt : Nat) : State := { withRegs base [(rPWR 4, 6)] with pwr := { pwrInit with phase := 4, evt := evt } }

theorem witness_SupplyIsMonitoredAndRiddenThrough :
    (State.reset.time.started = false ∧ (supplied 0).time.started = true ∧ 2 ≤ pwrState (supplied 0)) ∧
    ((after (.supplyMeasure true 7999 0 15000 0 ⟨0, 0⟩ 0) (supplied 0)).pwr.ride = some 0 ∧
      (after (.supplyMeasure true 8000 0 15000 0 ⟨0, 0⟩ 0) (supplied 0)).pwr.ride = none ∧
      (after (.supplyMeasure false 29001 50 15000 0 ⟨0, 0⟩ 0) (supplied 0)).pwr.ride = some 0) ∧
    ((after (.supplyMeasure false 20000 50 15000 0 ⟨0, 0⟩ 0) (supplied 0)).pwr.evt = 1 ∧
      (after (.supplyMeasure false 26000 50 15000 0 ⟨0, 0⟩ 0) (supplied 0)).pwr.evt = 2 ∧
      (after (.supplyMeasure false 2000 50 15000 0 ⟨0, 0⟩ 0) (supplied 1)).pwr.evt = 3 ∧
      rn (after (.supplyMeasure false 23000 50 15000 0 ⟨0, 0⟩ 0) (supplied 1)) (rPWR 0x64) = 1 ∧
      (supplied 3).pwr.evtDeep = false ∧ rn (after (.supplyMeasure false 3000 50 15000 0 ⟨0, 0⟩ 0) (supplied 3)) (rPWR 0x6C) = 1) ∧
    (rbit (withRegs base [(rPWR 0, 8), (rPWR 4, 6)]) (rPWR 0) 3 = true ∧
      (ring (after (.zeroCrossing 5) (withRegs base [(rPWR 0, 8), (rPWR 4, 6)])) (ringRoute base 0)).admitted = 1 ∧
      rbit base (rPWR 0) 3 = false ∧ rb base (rPWR 0x24) 0 16 ≠ 0 ∧
      (ring (after (.supplySummary 5) base) (ringRoute base 0)).admitted = 1 ∧ rb (withRegs base [(rPWR 0x24, 0)]) (rPWR 0x24) 0 16 = 0) ∧
    ((riding 0 pwrInit).pwr.ride.isSome = true ∧ (riding 1000000 { pwrInit with okSince := some 0 }).pwr.okSince = some 0 ∧
      (after .rideExit (riding 1000000 { pwrInit with okSince := some 0 })).pwr.ride = none ∧ base.pwr.ride.isNone = true) ∧
    (rbit (riding 200000000 pwrInit) (rPWR 0) 1 = true ∧ (after .rideYield (riding 200000000 pwrInit)).standby = true ∧
      rbit (riding 300000000 pwrInit) (rPWR 0) 2 = true ∧ (riding 300000000 pwrInit).cmd.own = [] ∧
      (∀ p ∈ (riding 300000000 pwrInit).cmd.slots, p.1 < 62) ∧
      ((slotOf (after (.rideStores false) (riding 300000000 pwrInit)) 62).map (·.w0)) = some 12 ∧
      queueFull (riding 0 pwrInit) 0xD8 = false ∧
      ((slotOf (after (.rideStores true) (riding 0 pwrInit)) 63).map (·.w0)) = some 3) := by
  refine ⟨?_, ?_, ?_, ?_, ?_, ?_⟩ <;> decide +kernel

/-- The example of chapter 18: 24.0 W from the store at 16.20 V, 12.90 V, 10.88 V and 8.00 V. -/
theorem test_ride_estimate :
    [16200, 12900, 10880, 8000].map (fun v => rideEst v 2400) = [41, 21, 11, 0] := by decide +kernel

theorem witness_OvenStoreAndTemperaturesAreReported :
    (rbit (withRegs base [(rPWR 4, 4)]) (rPWR 4) 6 = false ∧ pwrState (after .ocxoReady (withRegs base [(rPWR 4, 4)])) = 3) ∧
    (rbit (withRegs base [(rPWR 4, 0x46)]) (rPWR 4) 6 = true ∧ queueFull base 0xD9 = false ∧ queueFull base 0xD8 = false ∧
      rbit (after .ovenFail (withRegs base [(rPWR 4, 0x46)])) (rPWR 4) 6 = false ∧
      rbit (after .storeFull base) (rPWR 4) 7 = true ∧ rbit base (rPWR 4) 6 = false ∧
      (after .notWarm { base with time := { base.time with aon := 3600000000 } }).fcol.queues.length = 1 ∧
      (after .baseLol base).fcol.queues.length = 1 ∧ (after .chargeSlow base).fcol.queues.length = 1 ∧
      (after .converter base).fcol.queues.length = 1 ∧ rbit (withRegs base [(rPWR 4, 0x86)]) (rPWR 4) 7 = true) ∧
    (queueFull base 5 = false ∧ (after (.driver 5) base).fcol.queues.length = 1) ∧
    (mget (fun _ => []) base.fcol.queues 0xDA = [] ∧
      (mget (fun _ => []) (after (.thermalAlarm (106 * 256) (76 * 256)) base).fcol.queues 0xDA).map (·.kind) = [1, 3]) := by
  refine ⟨?_, ?_, ?_, ?_⟩ <;> decide +kernel

-- the external interfaces

/-- The module with SMB_ALERT_N low. -/
def alerted : State := { base with smb := { base.smb with alert := true } }

theorem witness_ExternalInterfacesAnswer :
    (base.pwr.power = 2 ∧ base.time.started = true ∧ (after .ident base).out.length = 1 ∧ (after .smbStatus base).out.length = 1 ∧
      (after .supply base).out.length = 1 ∧ (after .temps base).out.length = 1 ∧ (after .faults base).out.length = 1 ∧
      (after .fences base).out.length = 1 ∧ pwrState asleep = 1 ∧ (after .temps asleep).coreAwake = true ∧ rbit base 0x270 0 = false ∧
      rbit (withRegs base [(0x270, 1)]) 0x270 0 = true) ∧
    ((after .alertClr alerted).smb.alert = false ∧ (after .alertResponse alerted).out = [.smb [0x34]] ∧ base.smb.alert = false) ∧
    State.reset.time.started = false ∧
    (queueFull base 0xDB = false ∧ (after .perst base).fcol.queues.length = 1 ∧ (after .uncorr base).fcol.queues.length = 1 ∧
      (after .pcieLinkDown { base with pcieUp := true }).pcieUp = false) ∧
    ((after .pcieLinkUp { base with pcieUp := false }).pcieUp = true ∧ base.msix = [] ∧
      (after .configurationRequest base).out = [.cfg false [0x01281F6B, 0x11100000, 4, 0, 4, 0]] ∧
      (after .configurationRequest State.reset).out = [.cfg true []]) ∧
    ((∀ k < 2, isDataMem (0x880010 + k) = true) ∧ mb (after (.bar2Write 1 0x880010 [some 5, some 6]) base) 0x880011 = 6) ∧
    ((∀ k < 2, imemOf (0x810000 + k) = some 1) ∧ seqHalted base 1 = true ∧ mb (after (.bar2Write 1 0x810000 [some 5, some 6]) base) 0x810001 = 6 ∧
      seqHalted (withRegs base [(rSEQ 1 4, 1)]) 1 = false ∧ queueFull base 0xCB = false ∧
      mb (after (.bar2Write 1 0x810000 [some 5, some 6]) (withRegs base [(rSEQ 1 4, 1)])) 0x810001 = 0) ∧
    (mb (after (.bar2Write 1 0x880010 [none, some 6]) base) 0x880010 = 0 ∧
      (after (.semaphoreRead 1 ⟨0x880FC4, 4, [], some 0, false⟩) base).out = [.poisoned 1] ∧ pwrState base ≠ 1 ∧
      imemOf (0x810000 + 3) = some 1 ∧ queueFull base 0xCA = false ∧ queueFull base 0xD4 = false ∧ storeAt (0xC0A004 - 0xC00000) = some (1, 0, 4) ∧
      (mget (fun _ => []) (after (.semaphoreRead 1 ⟨0xC0A000, 8, [], some 4, false⟩) base).fcol.queues 0xD4).map (·.addr) = [1]) ∧
    (isDataMem 0 = false ∧ imemOf 0 = none ∧ after (.bar2Write 1 0 [some 5]) base = base) ∧
    (mb (after (.semaphoreRead 1 ⟨0x880FC4, 4, [], none, true⟩) base) 0x880FC4 = 1 ∧
      mb (after (.semaphoreRead 1 ⟨0x880FC4, 4, [1], none, true⟩) base) 0x880FC4 = 0 ∧ State.reset.nvsLoaded = false ∧
      rn base 0x708048 + 1 < 0xFFFFFFFF ∧ rn (after (.semaphoreRead 1 ⟨0x80, 4, [], none, true⟩) base) 0x708048 = 1) ∧
    (3 ≤ base.pwr.phase ∧ rbit base (rEL 2 0) 0 = true ∧ (lane (after (.blockLock 2 false) base) 2).el = true ∧
      (lane (after (.blockLock 2 true) (after (.blockLock 2 false) base)) 2).up = true ∧
      rbit (withRegs base [(rEL 2 0, 0)]) (rEL 2 0) 0 = false) := by
  refine ⟨?_, ?_, ?_, ?_, ?_, ?_, ?_, ?_, ?_, ?_, ?_⟩ <;> decide +kernel

-- the statements over every state

theorem witness_StepKeepsTheMemoriesCanonical : Memory.wf State.reset.mem := by decide +kernel

theorem witness_StepKeepsTheRingIdentity (n : Nat) : ringConserved (ring State.reset n) := rfl
end Sys2Proof.Tests
end

section
/-!
PROOFS. O60: what State.reset holds.
-/
namespace Sys2Proof.Machine
open Sys2Proof

/-- At reset the cores are HALTED without an image, and the SCs sleep with an empty queue. -/
theorem reset_coresAndScs : ∀ n < 8, seqHalted State.reset n = true ∧ rbit State.reset (rSEQ n 4) 8 = false ∧
    (sc State.reset n).awake = false ∧ (sc State.reset n).queue = [] := by
  decide +kernel

/-- At reset the FODs stand at the divide of R127's factory values; every port is driven by the FOD of its number. -/
theorem reset_fodsAndPorts : ∀ n < 128, (fod State.reset n).running = false ∧ (fod State.reset n).queue = [] ∧
    ((fod State.reset n).n, (fod State.reset n).f, (fod State.reset n).m, (fod State.reset n).o) = (40, 0, 1, 1) ∧
    rn State.reset (rFOD n 0) = 6 ∧ rn State.reset (rPORT n 0) = 9 ∧ rn State.reset (rPORT n 0x0C) = n := by
  decide +kernel

/-- At reset the rings are empty, the DMA channels idle and the lanes down; RING_CFG and DMA_CTRL differ by ring and channel. -/
theorem reset_ringsDmasAndLanes : ∀ n < 16, (ring State.reset n).admitted = 0 ∧ (ring State.reset n).inFlight = 0 ∧
    (dma State.reset n).st = 0 ∧ (lane State.reset n).up = false ∧ rn State.reset (rEL n 0) = 0xA01 ∧
    rn State.reset (rCL n 0) = 1 ∧ rn State.reset (rRING n 0) = (if n < 12 then 0xC3 else 0xC1) + n * 2 ^ 28 ∧
    rn State.reset (rDMA n 0) = n * 4 + (32 + n) * 2 ^ 8 + 3 * 2 ^ 14 + 12 * 2 ^ 17 := by
  decide +kernel

/-- No register has been written at reset: each reads as its table gives (R20). -/
theorem rn_reset (o : Nat) : rn State.reset o = (regReset o).toNat := rfl

/-- Settles O60: State.reset lists nothing, so that each part reads as its initial value and each register as its table
gives it. -/
theorem resetIsThatOfTheTables : Obligations.ResetIsThatOfTheTables := by
  refine ⟨rfl, rfl, rfl, rfl, rfl, fun _ => rfl, rfl, rfl, rfl, rfl, rfl, rfl, rfl, rfl, rfl, rfl, rfl,
    reset_coresAndScs, reset_fodsAndPorts, reset_ringsDmasAndLanes, ?_⟩
  simp only [rn_reset]
  decide +kernel

end Sys2Proof.Machine
end

section
/-!
PROOFS. O36: the write of an ECAM entry's word, ECAM_GEN's SWITCH and drain, the parity error and the signatures; with the write of
a single-word register in any view.
-/
namespace Sys2Proof.Machine
open Sys2Proof

/-! ## Single-word registers on the bus -/

theorem wr_mod (s : State) (o v : Nat) : wr s o (v % 2 ^ 32) = wr s o v := by
  have h : wd (v % 2 ^ 32) = wd v := BitVec.eq_of_toNat_eq (by simp [wd])
  rw [wr, wr, h]

/-- The registers are as before when the only one that changed takes its old word again. -/
theorem rd_wr_restored {s t : State} {o : Nat} (h : ∀ k, k ≠ o → rd t k = rd s k) (k : Nat) :
    rd (wr t o (rn s o)) k = rd s k := by
  by_cases hk : k = o
  · rw [hk, rd_wr_same]
    exact BitVec.eq_of_toNat_eq (by simp [wd, rn])
  · rw [rd_wr_ne _ _ hk, h k hk]

theorem newVal_word {i : RegInfo} (hw : i.row.words = 1) (hm : i.row.wm = false) (hg : i.blk ≠ .glb) (view old raw : Nat) :
    newVal i view old raw = clr old i.row.rw ||| (viewApply view old raw &&& i.row.rw) := by
  simp [newVal, hm, hg, topBit, hw, Nat.mod_one]

theorem hitVal_word {i : RegInfo} (hm : i.row.wm = false) (raw : Nat) : hitVal i raw = raw &&& (i.row.w1c ||| i.row.sc) := by
  simp [hitVal, hm]

/-- What a write does to a single-word register that is no counter and whose word stands in `regs` (R39, R41). -/
theorem applyVal_one {s : State} {i : RegInfo} {view raw m : Nat} {cz : Cause} (hw : i.row.words = 1)
    (hv : isVirtual i = false) (hc : i.row.cnt = false) :
    applyVal s i view raw m cz =
      let new := clr (newVal i view (rn s i.base) raw) (hitVal i raw &&& i.row.w1c)
      regFx (noteWrite (wr s i.base new) i.base) i (rn s i.base) new (hitVal i raw) m cz := by
  have old : oldVal s m i = rn s i.base := by simp [oldVal, hv, hw, rL]
  simp only [applyVal, storeVal, old, hv, hw, wL, wr_mod, Bool.false_eq_true, if_false]
  rw [loadSat, if_neg (by simp [hc])]

/-! ## The words of an ECAM entry -/

/-- The RW bits of the words of an ECAM entry (R290). -/
def ecamEntRw : List Nat :=
  let key := [0x3FFFFFFF, 0x7FFFFFFF, 0xFFFF0FFF, 0xFFFFFFFF, 0xFFFF3FFF, 0xFFFFFFFF, 0xFFFFFFFF, 0xFFFFFFFF, 0xFFFFFFFF,
    0xFF]
  key ++ key ++ [0x1FFF, 3]

/-- The repetition of its row that word w of an ECAM entry is: the key and the mask have four words each under one row. -/
def ecamEntRep (w : Nat) : Nat := if 5 ≤ w ∧ w < 9 then w - 5 else if 15 ≤ w ∧ w < 19 then w - 15 else 0

/-- The row of word w of an ECAM entry, up to ECAM_ENT (R290). -/
def ecamEntRow (w : Nat) : RegRow :=
  let four := decide (5 ≤ w ∧ w < 9 ∨ 15 ≤ w ∧ w < 19)
  { off := 4 * (w - ecamEntRep w), rep := if four then 4 else 1, step := if four then 4 else 0,
    rw := ecamEntRw.getD w 0, w1c := if w = 21 then 4 else 0 }

/-- What the map says of word w of ECAM entry e. -/
def ecamEntInfo (e w : Nat) : RegInfo := ⟨.ecamEnt, e, ecamEntRow w, ecamEntRep w, 0, rENT e (4 * w)⟩

theorem findRow_ecamEnt : ∀ w : Fin 22, findRow ecamEntRegs (4 * w.val) = some (ecamEntRow w, ecamEntRep w, 0) := by
  decide +kernel

/-- The block of R538 that holds the ECAM entries. -/
def ecamEntBlk : BlkRow := ⟨.ecamEnt, 0x610000, 0x80, 512, ecamEntRegs⟩

theorem findBlk_ecamEnt {e o : Nat} (he : e < 512) (ho : o < 0x80) : findBlk blocks (rENT e o) = some (ecamEntBlk, e) := by
  unfold rENT
  simp only [blocks, findBlk]
  repeat rw [if_neg (by omega)]
  rw [if_pos (by omega), show (0x610000 + 0x80 * e + o - 0x610000) / 0x80 = e by omega]
  rfl

/-- The register word of an offset of a block other than the references'. -/
theorem regInfo_of_row {off i k w : Nat} {b : BlkRow} {r : RegRow} (hx : ¬ (0x330000 ≤ off ∧ off < 0x330040))
    (hb : findBlk blocks off = some (b, i)) (hr : findRow b.rows (off - b.base - b.stride * i) = some (r, k, w))
    (hn : b.blk ≠ .ref) : regInfo off = some ⟨b.blk, i, r, k, w, off - 4 * w⟩ := by
  unfold regInfo
  rw [if_neg hx]
  simp only [hb, hr, if_neg hn]

theorem regInfo_ecamEnt (e : Fin 512) (w : Fin 22) : regInfo (rENT e (4 * w)) = some (ecamEntInfo e w) := by
  have ho : 4 * w.val < 0x80 := by omega
  have hx : ¬ (0x330000 ≤ rENT e (4 * w) ∧ rENT e (4 * w) < 0x330040) := by unfold rENT; omega
  have hd : rENT e (4 * w) - ecamEntBlk.base - ecamEntBlk.stride * e = 4 * w := by
    simp only [ecamEntBlk, rENT]
    omega
  exact regInfo_of_row hx (findBlk_ecamEnt e.isLt ho) (by rw [hd]; exact findRow_ecamEnt w) (by decide)

theorem allRo_ecamEntInfo (e : Nat) (w : Fin 22) : allRo (ecamEntInfo e w) = false := by
  have h : ∀ w : Fin 22, decide ((ecamEntRow w).rw ||| (ecamEntRow w).w1c ||| (ecamEntRow w).sc = 0) = false := by decide
  exact h w

/-- Nothing locks or holds a word of an ECAM entry, and it is not posted, so a write takes effect at once. -/
theorem regPut_ecamEnt {s : State} (h : BusOpen s) (m : Nat) (e : Fin 512) (w : Fin 22) (v : Word) :
    regPut s m (rENT e (4 * w)) v.toNat = applyVal (forwardTaken s m (rENT e (4 * w)) (rENT e (4 * w)) v.toNat
      (ecamEntInfo e w) 0 v.toNat) (ecamEntInfo e w) 0 v.toNat m (some (rENT e (4 * w), m)) := by
  obtain ⟨⟨hn, hs⟩, hp⟩ := h
  have hi := regInfo_ecamEnt e w
  have ha : rENT e (4 * w) % 4 = 0 := by unfold rENT; omega
  have ho : rENT e (4 * w) < 2 ^ 24 := by unfold rENT; omega
  rw [regPut_word hn hs hi ha ho (regInfo_inMsix hi) v.isLt rfl rfl rfl (allRo_ecamEntInfo e w) Blk.noConfusion
    (coreTouch_awake hp) rfl (Nat.zero_and _), if_neg (by exact fun h => h rfl)]

/-- What a write of v leaves in word w of an ECAM entry that held `old`, where R271 lets it (R41). -/
def ecamEntWord (w old v : Nat) : Nat :=
  clr (clr old (ecamEntRow w).rw ||| (v &&& (ecamEntRow w).rw)) (v &&& (ecamEntRow w).w1c)

/-- The state at the judgement of R271 on a write of v to word w of entry e: the host's write has been forwarded, and the word
holds what was written. -/
def ecamEntPut (s : State) (m : Nat) (e : Fin 512) (w : Fin 22) (v : Word) : State :=
  let o := rENT e (4 * w)
  noteWrite (wr (forwardTaken s m o o v.toNat (ecamEntInfo e w) 0 v.toNat) o (ecamEntWord w (rn s o) v.toNat)) o

theorem exec_ecamEntryWrite {s : State} (h : BusOpen s) (m : Master) (e : Fin 512) (w : Fin 22) (v : Word) :
    exec (.ecamEntryWrite m e w v) s = .next (ecamEntFx (ecamEntPut s m e w v) e (ecamEntRow w).off (rENT e (4 * w))
      (rn s (rENT e (4 * w))) (some (rENT e (4 * w), m.val))) := by
  have hr (o : Nat) : rn (forwardTaken s m o o v.toNat (ecamEntInfo e w) 0 v.toNat) o = rn s o := by
    rw [rn, rd_forwardTaken, rn]
  have hb : (ecamEntInfo e w).base = rENT e (4 * w) := rfl
  have ht : hitVal (ecamEntInfo e w) v.toNat &&& (ecamEntRow w).w1c = v.toNat &&& (ecamEntRow w).w1c := by
    rw [hitVal_word rfl]
    show v.toNat &&& ((ecamEntRow w).w1c ||| 0) &&& _ = _
    rw [Nat.or_zero, Nat.and_assoc, Nat.and_self]
  show Host.Outcome.next (regPut s m (rENT e (4 * w)) v.toNat) = _
  rw [regPut_ecamEnt h, applyVal_one rfl rfl rfl, newVal_word rfl rfl Blk.noConfusion, hb, hr]
  show Host.Outcome.next (ecamEntFx (noteWrite (wr _ _ (clr _ (hitVal (ecamEntInfo e w) v.toNat &&& (ecamEntRow w).w1c))) _)
    _ _ _ _ _) = _
  rw [ht]
  rfl

theorem rd_ecamEntPut_ne (s : State) (m : Nat) (e : Fin 512) (w : Fin 22) (v : Word) {k : Nat} (h : k ≠ rENT e (4 * w)) :
    rd (ecamEntPut s m e w v) k = rd s k := by
  rw [ecamEntPut, rd_noteWrite, rd_wr_ne _ _ h, rd_forwardTaken]

theorem rn_ecamEntPut_same (s : State) (m : Nat) (e : Fin 512) (w : Fin 22) (v : Word) :
    rn (ecamEntPut s m e w v) (rENT e (4 * w)) = ecamEntWord w (rn s (rENT e (4 * w))) v.toNat := by
  rw [ecamEntPut, rn, rd_noteWrite, ← rn, rn_wr_same]
  apply Nat.mod_eq_of_lt
  refine lt_of_le_of_lt (Nat.sub_le _ _) (Nat.or_lt_two_pow ?_ (Nat.and_lt_two_pow _ ?_))
  · exact lt_of_le_of_lt (Nat.sub_le _ _) (rn_lt s _)
  · have : ∀ w : Fin 22, (ecamEntRow w).rw < 2 ^ 32 := by decide
    exact this w

theorem ecamEntPut_same (s : State) (m : Nat) (e : Fin 512) (w : Fin 22) (v : Word) :
    Same 140754668225040 s (ecamEntPut s m e w v) :=
  (Same.step rfl (noteWrite_same _ _) (Same.step rfl (wr_same _ _ _) ((forwardTaken_same s m _ _ _ _ _ _).mono rfl)))

theorem ecamEntRow_off (w : Fin 22) : ((ecamEntRow w).off = 0x54 ↔ w.val = 21) ∧ (ecamEntRow w).off ≠ 0x58 := by
  have h : ∀ w : Fin 22, ((ecamEntRow w).off = 0x54 ↔ w.val = 21) ∧ (ecamEntRow w).off ≠ 0x58 := by decide
  exact h w

/-- The bits of ECAM_ENT after a write: VALID and GEN as written, PARITY cleared by a 1, the others as they were (R290). -/
theorem ecamEntWord_testBit (old v i : Nat) : (ecamEntWord 21 old v).testBit i =
    if i < 2 then v.testBit i else if i = 2 then old.testBit 2 && !v.testBit 2 else old.testBit i := by
  have h3 : Nat.testBit 3 i = decide (i < 2) := ones_testBit 2 i
  have h4 : Nat.testBit 4 i = decide (2 = i) := Nat.testBit_two_pow (n := 2)
  show (clr (clr old 3 ||| (v &&& 3)) (v &&& 4)).testBit i = _
  rw [clr_testBit, Nat.testBit_or, clr_testBit, Nat.testBit_and, Nat.testBit_and, h3, h4]
  rcases (by omega : i < 2 ∨ i = 2 ∨ 2 < i) with h | rfl | h
  · simp [h, show ¬ 2 = i by omega]
  · simp
  · simp [show ¬ i < 2 by omega, show ¬ 2 = i by omega, show ¬ i = 2 by omega]

/-- R271 on a write of a word of an entry: a VALID entry refuses it, but for a write that clears VALID while GEN is neither
active nor draining. -/
theorem ecamRefuses_put (s : State) (m : Nat) (e : Fin 512) (w : Fin 22) (v : Word) :
    ecamRefuses (ecamEntPut s m e w v) e (ecamEntRow w).off (rn s (rENT e (4 * w)))
        (rn (ecamEntPut s m e w v) (rENT e (4 * w))) =
      (rbit s (rENT e 0x54) 0 && !(decide (w.val = 21) && !v.getLsbD 0 &&
        !decide (rb s (rENT e 0x54) 1 1 = ecamActive s) && !ecamDraining s)) := by
  obtain ⟨h54, h58⟩ := ecamEntRow_off w
  have hg : rn (ecamEntPut s m e w v) 0x600004 = rn s 0x600004 := by
    rw [rn, rd_ecamEntPut_ne _ _ _ _ _ (by unfold rENT; omega), rn]
  have ha : ecamActive (ecamEntPut s m e w v) = ecamActive s := by simp only [ecamActive, rb, hg]
  have hd : ecamDraining (ecamEntPut s m e w v) = ecamDraining s := by simp only [ecamDraining, rbit, hg]
  by_cases hw : w.val = 21
  · have hv : (ecamEntWord w (rn s (rENT e (4 * w))) v.toNat).testBit 0 = v.getLsbD 0 := by
      rw [hw, ecamEntWord_testBit]
      rfl
    have ho : rENT e (4 * w) = rENT e 0x54 := by rw [hw]
    rw [rn_ecamEntPut_same]
    simp only [ecamRefuses, h54.2 hw, ha, hd, hv, rbit, rb, if_true]
    rw [ho]
    by_cases hg : bits (rn s (rENT e 0x54)) 1 1 = ecamActive s <;> simp [hw, hg]
  · have ho : rENT e 0x54 ≠ rENT e (4 * w) := by unfold rENT; omega
    have he : rn (ecamEntPut s m e w v) (rENT e 0x54) = rn s (rENT e 0x54) := by
      rw [rn, rd_ecamEntPut_ne _ _ _ _ _ ho, rn]
    simp [ecamRefuses, h58, mt h54.1 hw, hw, he, rbit]

/-- A report's queue depends on the queues, the time scale and the core cycle alone. -/
theorem enqueue_mkReport_fcol {s t : State} (hf : t.fcol = s.fcol) (ht : t.time = s.time) (hc : t.cyc = s.cyc)
    (src kind addr m a : Nat) (f : Bool) :
    (enqueue t (mkReport t src kind addr m a f)).fcol = (enqueue s (mkReport s src kind addr m a f)).fcol := by
  simp only [enqueue, mkReport, readT, nowT, nowSub, timeFlags, hf, ht, hc]

theorem queueFull_congr {s t : State} (hf : t.fcol = s.fcol) (src : Nat) : queueFull t src = queueFull s src := by
  rw [queueFull, queueFull, hf]

theorem memKept_of_mem {s t : State} (h : t.mem = s.mem) : MemKept s t := fun a => by rw [mb, mb, h]

/-- A write that R271 lets leaves the word as ECAM_ENT's or its own bits say, and every other register (R41, R290). -/
theorem exec_ecamEntryWrite_taken {s : State} (h : BusOpen s) (m : Master) (e : Fin 512) (w : Fin 22) (v : Word)
    (hr : rbit s (rENT e 0x54) 0 = false ∨ (w.val = 21 ∧ v.getLsbD 0 = false ∧
      rb s (rENT e 0x54) 1 1 ≠ ecamActive s ∧ ecamDraining s = false)) :
    exec (.ecamEntryWrite m e w v) s = .next (ecamEntPut s m e w v) := by
  have hf : (rbit s (rENT e 0x54) 0 && !(decide (w.val = 21) && !v.getLsbD 0 &&
      !decide (rb s (rENT e 0x54) 1 1 = ecamActive s) && !ecamDraining s)) = false := by
    rcases hr with h0 | ⟨hw, hv, hg, hd⟩
    · rw [h0, Bool.false_and]
    · rw [hv, hd, decide_eq_false hg, decide_eq_true hw, Bool.and_eq_false_iff]
      exact .inr rfl
  rw [exec_ecamEntryWrite h, ecamEntFx, ecamRefuses_put, hf, if_neg Bool.false_ne_true]

/-- A write that R271 refuses leaves the word as it was and reports RULE_LIVE with the word's address and the writer. -/
theorem exec_ecamEntryWrite_refused {s : State} (h : BusOpen s) (m : Master) (e : Fin 512) (w : Fin 22) (v : Word)
    (hv : rbit s (rENT e 0x54) 0 = true)
    (hr : w.val = 21 → v.getLsbD 0 = true ∨ rb s (rENT e 0x54) 1 1 = ecamActive s ∨ ecamDraining s = true) :
    exec (.ecamEntryWrite m e w v) s = .next (raise (wr (ecamEntPut s m e w v) (rENT e (4 * w)) (rn s (rENT e (4 * w))))
      0xB8 0x01 (rENT e (4 * w)) m 2) := by
  have hf : (rbit s (rENT e 0x54) 0 && !(decide (w.val = 21) && !v.getLsbD 0 &&
      !decide (rb s (rENT e 0x54) 1 1 = ecamActive s) && !ecamDraining s)) = true := by
    rw [hv, Bool.true_and]
    by_cases hw : w.val = 21
    · rcases hr hw with h | h | h <;> simp [h]
    · simp [hw]
  rw [exec_ecamEntryWrite h, ecamEntFx, ecamRefuses_put, hf, if_pos rfl]
  rfl

theorem faultReg_false_of_ge {o : Nat} (h : 0x038000 ≤ o) : faultReg o = false := by
  simp only [faultReg, decide_eq_false_iff_not]
  omega

/-- A report that its queue takes leaves every register and the memories, and stands in its queue as raised in the state
before (R416). -/
theorem raise_queued {s t : State} {src kind addr m a : Nat} (hq : queueFull s src = false) (hf : t.fcol = s.fcol)
    (ht : t.time = s.time) (hc : t.cyc = s.cyc) :
    raise t src kind addr m a = enqueue t (mkReport t src kind addr m a false) ∧
    (raise t src kind addr m a).fcol = (enqueue s (mkReport s src kind addr m a false)).fcol := by
  have e := raise_eq (kind := kind) (addr := addr) (m := m) (a := a) ((queueFull_congr hf src).trans hq)
  exact ⟨e, e ▸ enqueue_mkReport_fcol hf ht hc ..⟩

/-- A word of an entry that is not VALID takes what is written in its RW bits (R22, R290). -/
theorem ecamEntryWrite_notValid {s : State} (h : BusOpen s) (m : Master) (e : Fin 512) (w : Fin 22) (v : Word)
    (hw : w.val ≠ 21) (h0 : rbit s (rENT e 0x54) 0 = false) :
    ∃ t, exec (.ecamEntryWrite m e w v) s = .next t ∧
      rn t (rENT e (4 * w)) = clr (rn s (rENT e (4 * w))) (ecamEntRw.getD w 0) ||| (v.toNat &&& ecamEntRw.getD w 0) ∧
      RegsKept s t [rENT e (4 * w)] ∧ MemKept s t := by
  have hc : (ecamEntRow w).w1c = 0 := if_neg hw
  refine ⟨_, exec_ecamEntryWrite_taken h m e w v (.inl h0), ?_, fun o _ ho => ?_,
    memKept_of_mem ((ecamEntPut_same s m e w v).get_mem rfl)⟩
  · rw [rn_ecamEntPut_same, ecamEntWord, hc]
    simp [clr, ecamEntRow]
  · exact rd_ecamEntPut_ne _ _ _ _ _ (by simpa using ho)

/-- ECAM_ENT takes VALID and GEN, and a 1 clears PARITY, where R271 lets the write. -/
theorem ecamEntryWrite_ecamEnt {s : State} (h : BusOpen s) (m : Master) (e : Fin 512) (v : Word)
    (hr : rbit s (rENT e 0x54) 0 = false ∨
      (v.getLsbD 0 = false ∧ rb s (rENT e 0x54) 1 1 ≠ ecamActive s ∧ ecamDraining s = false)) :
    ∃ t, exec (.ecamEntryWrite m e 21 v) s = .next t ∧ rb t (rENT e 0x54) 0 2 = v.toNat % 4 ∧
      rbit t (rENT e 0x54) 2 = (rbit s (rENT e 0x54) 2 && !v.getLsbD 2) ∧
      RegsKept s t [rENT e 0x54] ∧ MemKept s t := by
  have hn : rn (ecamEntPut s m e 21 v) (rENT e 0x54) = ecamEntWord 21 (rn s (rENT e 0x54)) v.toNat :=
    rn_ecamEntPut_same s m e 21 v
  refine ⟨_, exec_ecamEntryWrite_taken h m e 21 v (hr.imp_right fun h => ⟨rfl, h⟩), ?_, ?_, fun o _ ho => ?_,
    memKept_of_mem ((ecamEntPut_same s m e 21 v).get_mem rfl)⟩
  · rw [rb, hn]
    apply Nat.eq_of_testBit_eq
    intro i
    rw [bits_testBit, ecamEntWord_testBit, show 4 = 2 ^ 2 from rfl, Nat.testBit_mod_two_pow]
    by_cases hi : i < 2 <;> simp [hi]
  · rw [rbit, hn, ecamEntWord_testBit]
    rfl
  · exact rd_ecamEntPut_ne s m e 21 v (by simpa using ho)

/-- While an entry is VALID its words keep what they hold and RULE_LIVE is raised, but for the one write of R271. -/
theorem ecamEntryWrite_valid {s : State} (h : BusOpen s) (m : Master) (e : Fin 512) (w : Fin 22) (v : Word)
    (hv : rbit s (rENT e 0x54) 0 = true)
    (hr : w.val = 21 → v.getLsbD 0 = true ∨ rb s (rENT e 0x54) 1 1 = ecamActive s ∨ ecamDraining s = true)
    (hq : queueFull s 0xB8 = false) :
    ∃ t, exec (.ecamEntryWrite m e w v) s = .next t ∧ RegsKept s t [] ∧ MemKept s t ∧
      t.fcol = (enqueue s (mkReport s 0xB8 0x01 (rENT e (4 * w)) m.val 2 false)).fcol := by
  have hs := ecamEntPut_same s m e w v
  obtain ⟨he, hf⟩ := raise_queued (t := wr (ecamEntPut s m e w v) (rENT e (4 * w)) (rn s (rENT e (4 * w))))
    (kind := 0x01) (addr := rENT e (4 * w)) (m := m) (a := 2) hq (hs.get_fcol rfl) (hs.get_time rfl) (hs.get_cyc rfl)
  refine ⟨_, exec_ecamEntryWrite_refused h m e w v hv hr, fun o ho _ => ?_, memKept_of_mem ?_, hf⟩
  · rw [rd_raise (by decide) ho]
    exact rd_wr_restored (fun k hk => rd_ecamEntPut_ne _ _ _ _ _ hk) o
  · rw [he]
    exact hs.get_mem rfl

/-! ## ECAM_GEN -/

/-- The write, in any view, of a single-word 32-bit register that nothing posts, seals, locks or holds. -/
theorem regPut_view {s : State} {m addr off view v : Nat} {i : RegInfo} (h : BusOpen s) (hi : regInfo off = some i)
    (ho : addr % 2 ^ 24 = off) (hview : addr / 2 ^ 24 % 4 = view) (ha : addr % 4 = 0) (hb : addr < 2 ^ 26) (hv : v < 2 ^ 32)
    (hw : i.row.words = 1) (h0 : i.word = 0) (hp : i.row.posted = false) (hr : allRo i = false) (hm : i.row.wm = false)
    (hc : i.blk ≠ .cmd) (hsl : i.row.slm = 0) (hl : ∀ t, lockedBits t i = 0) (hh : ∀ t, heldBits t i = 0) :
    regPut s m addr v = applyVal (forwardTaken s m addr off v i view v) i view v m (some (off, m)) := by
  obtain ⟨⟨hn, hs⟩, hpw⟩ := h
  unfold regPut
  rw [busWrite_open hn hs (coreTouch_awake hpw) ha hb (by rw [ho]; exact regInfo_inMsix hi) hv,
    regWrite_view ho hview hi hw h0 hp hr hm hc, busAccept_free (hl _) (by rw [hh, Nat.zero_and]) hp,
    if_neg (not_not_intro hsl)]

/-- What the map says of ECAM_GEN (R290). -/
def ecamGenInfo : RegInfo := ⟨.ecam, 0, { off := 0x04, w1c := 0x100, sc := 4 }, 0, 0, 0x600004⟩

theorem regInfo_ecamGen : regInfo 0x600004 = some ecamGenInfo := by decide +kernel

/-- SWITCH stands in no bit of ECAM_GEN that the write keeps. -/
theorem ecamGen_switchWord (old : Nat) :
    clr (newVal ecamGenInfo 1 old 4) (hitVal ecamGenInfo 4 &&& ecamGenInfo.row.w1c) = old := by
  rw [newVal_word rfl rfl Blk.noConfusion]
  show clr (clr old 0 ||| (_ &&& 0)) 0 = _
  simp [clr]

/-- The state at GEN_SWITCH's judgement of R273: the host's write has been forwarded; ECAM_GEN holds what it held. -/
def genSwitchPut (s : State) (m : Nat) : State :=
  noteWrite (wr (forwardTaken s m (0x1000000 + 0x600004) 0x600004 4 ecamGenInfo 1 4) 0x600004 (rn s 0x600004)) 0x600004

theorem exec_genSwitch {s : State} (h : BusOpen s) (m : Master) :
    exec (.genSwitch m) s = .next (genSwitchFx (genSwitchPut s m) (some (0x600004, m.val))) := by
  have hf : rn (forwardTaken s m (0x1000000 + 0x600004) 0x600004 4 ecamGenInfo 1 4) 0x600004 = rn s 0x600004 := by
    rw [rn, rd_forwardTaken, rn]
  have hb : ecamGenInfo.base = 0x600004 := rfl
  show Host.Outcome.next (regPut s m (0x1000000 + 0x600004) 4) = _
  rw [regPut_view (view := 1) h regInfo_ecamGen rfl rfl rfl (by decide) (by decide) rfl rfl rfl rfl rfl Blk.noConfusion rfl
    (fun _ => rfl) (fun _ => rfl), applyVal_one rfl rfl rfl, hb, hf, ecamGen_switchWord]
  rfl

theorem rd_genSwitchPut (s : State) (m k : Nat) : rd (genSwitchPut s m) k = rd s k := by
  rw [genSwitchPut, rd_noteWrite]
  exact rd_wr_restored (fun k _ => rd_forwardTaken ..) k

theorem genSwitchPut_same (s : State) (m : Nat) : Same 140754668225040 s (genSwitchPut s m) :=
  Same.step rfl (noteWrite_same _ _) (Same.step rfl (wr_same _ _ _) ((forwardTaken_same s m _ _ _ _ _ _).mono rfl))

theorem rb_congr {s t : State} {o : Nat} (h : rd t o = rd s o) (lo n : Nat) : rb t o lo n = rb s o lo n := by
  rw [rb, rn, h, rb, rn]

theorem rbit_congr {s t : State} {o : Nat} (h : rd t o = rd s o) (n : Nat) : rbit t o n = rbit s o n := by
  rw [rbit, rn, h, rbit, rn]

/-- A field that a write of another field of its register leaves. -/
theorem rb_wb_ne (s : State) (o : Nat) {lo n v lo' n' : Nat} (h : lo + n ≤ 32) (hd : lo' + n' ≤ lo ∨ lo + n ≤ lo') :
    rb (wb s o lo n v) o lo' n' = rb s o lo' n' := by
  rw [rb, rn_wb_same s o lo n v h, rb]
  apply Nat.eq_of_testBit_eq
  intro i
  rw [bits_testBit, bits_testBit, setBits_testBit]
  by_cases hi : i < n'
  · rw [if_neg (by omega)]
  · simp [hi]

/-- SWITCH with no drain running inverts ACTIVE and starts a drain (R273). -/
theorem genSwitch_switches {s : State} (h : BusOpen s) (m : Master) (hd : ecamDraining s = false) :
    ∃ t, exec (.genSwitch m) s = .next t ∧ ecamActive t = 1 - ecamActive s ∧ ecamDraining t = true ∧
      RegsKept s t [0x600004] ∧ MemKept s t := by
  have hp : ecamDraining (genSwitchPut s m) = false := (rbit_congr (rd_genSwitchPut s m _) _).trans hd
  have ha : ecamActive (genSwitchPut s m) = ecamActive s := rb_congr (rd_genSwitchPut s m _) _ _
  have he : exec (.genSwitch m) s =
      .next (wb (wb (genSwitchPut s m) 0x600004 0 1 (1 - ecamActive (genSwitchPut s m))) 0x600004 1 1 1) := by
    rw [exec_genSwitch h, genSwitchFx, hp, if_neg Bool.false_ne_true]
  refine ⟨_, he, ?_, ?_, fun o _ ho => ?_, memKept_of_mem ((genSwitchPut_same s m).get_mem rfl)⟩
  · have hl : 1 - ecamActive s < 2 ^ 1 := by omega
    rw [ecamActive, rb_wb_ne _ _ (by decide) (.inl (by decide)), rb_wb_same _ _ _ _ _ (by decide), ha, Nat.mod_eq_of_lt hl]
  · rw [ecamDraining, rbit, rn_wb_same _ _ _ _ _ (by decide), setBits_testBit]
    rfl
  · have ho : o ≠ 0x600004 := by simpa using ho
    rw [rd_wb_ne _ _ _ _ ho, rd_wb_ne _ _ _ _ ho, rd_genSwitchPut]

/-- SWITCH while a drain runs changes no register and reports GEN_BUSY (R273). -/
theorem genSwitch_busy {s : State} (h : BusOpen s) (m : Master) (hd : ecamDraining s = true)
    (hq : queueFull s 0xB8 = false) :
    ∃ t, exec (.genSwitch m) s = .next t ∧ RegsKept s t [] ∧ MemKept s t ∧
      t.fcol = (enqueue s (mkReport s 0xB8 0x02 0x600004 m.val 2 false)).fcol := by
  have hs := genSwitchPut_same s m
  have hp : ecamDraining (genSwitchPut s m) = true := (rbit_congr (rd_genSwitchPut s m _) _).trans hd
  have he : exec (.genSwitch m) s = .next (raise (genSwitchPut s m) 0xB8 0x02 0x600004 m 2) := by
    rw [exec_genSwitch h, genSwitchFx, hp, if_pos rfl]
    rfl
  obtain ⟨hr, hf⟩ := raise_queued (kind := 0x02) (addr := 0x600004) (m := m) (a := 2) hq (hs.get_fcol rfl)
    (hs.get_time rfl) (hs.get_cyc rfl)
  refine ⟨_, he, fun o ho _ => ?_, memKept_of_mem ?_, hf⟩
  · rw [rd_raise (by decide) ho, rd_genSwitchPut]
  · rw [hr]
    exact hs.get_mem rfl

/-- A drain ends at a DRAIN_COMPLETE at which the old generation has nothing in flight (R273). -/
theorem drainComplete_ends {s : State} (hc : s.coreAwake = true) (hd : ecamDraining s = true)
    (hf : inFlightOf s (1 - ecamActive s) = 0) :
    ∃ t, exec .drainComplete s = .next t ∧ ecamDraining t = false ∧ rbit t 0x600004 8 = true ∧
      ecamActive t = ecamActive s ∧ (∀ o, o ≠ 0x600004 → rd t o = rd s o) ∧ t = { s with regs := t.regs } := by
  have he : exec .drainComplete s = .next (orBits (wb s 0x600004 1 1 0) 0x600004 0x100) := by
    show Host.Outcome.next (if s.coreAwake then drainEnd s else s) = _
    rw [if_pos hc, drainEnd, if_pos ⟨hd, hf⟩]
  have hn : rn (orBits (wb s 0x600004 1 1 0) 0x600004 0x100) 0x600004 = setBits (rn s 0x600004) 1 1 0 ||| 0x100 := by
    rw [rn_orBits_same _ _ _ (by decide), rn_wb_same _ _ _ _ _ (by decide)]
  refine ⟨_, he, ?_, ?_, ?_, fun o ho => ?_, rfl⟩
  · rw [ecamDraining, rbit, hn, Nat.testBit_or, setBits_testBit]
    rfl
  · rw [rbit, hn, Nat.testBit_or]
    exact Bool.or_true _
  · rw [ecamActive, ecamActive, rb, rb, hn]
    apply Nat.eq_of_testBit_eq
    intro i
    rw [bits_testBit, bits_testBit, Nat.testBit_or, setBits_testBit]
    by_cases hi : i < 1
    · obtain rfl : i = 0 := by omega
      simp
    · simp [hi]
  · rw [rd_orBits_ne _ _ ho, rd_wb_ne _ _ _ _ ho]

/-- Without a drain that can end, or with the core domain asleep, a DRAIN_COMPLETE changes nothing (R273). -/
theorem drainComplete_idle {s : State}
    (h : s.coreAwake = false ∨ ecamDraining s = false ∨ inFlightOf s (1 - ecamActive s) ≠ 0) :
    exec .drainComplete s = .next s := by
  show Host.Outcome.next (if s.coreAwake then drainEnd s else s) = _
  unfold drainEnd
  rcases h with h | h | h <;> simp [h]

/-! ## Parity and the signatures -/

theorem faultReg_rENT (e o : Nat) : faultReg (rENT e o) = false := faultReg_false_of_ge (by unfold rENT; omega)

/-- The REJECTED count of a software write of ECAM_ENT in the cycle of its parity error (R21, R288). -/
def parityCounted (s : State) (e : Nat) : State := if softWrote s (rENT e 0x54) then bump s 0x600034 else s

theorem rd_parityCounted {s : State} {e o : Nat} (ho : faultReg o = false) (h : o ≠ 0x600034) :
    rd (parityCounted s e) o = rd s o := by
  unfold parityCounted
  split
  · exact rd_bump ho h
  · rfl

theorem rn_parityCounted (s : State) (e : Nat) : rn (parityCounted s e) 0x600034 =
    if softWrote s (rENT e 0x54) then min (rn s 0x600034 + 1) (2 ^ 32 - 1) else rn s 0x600034 := by
  unfold parityCounted
  split
  · exact rn_bump_same (by decide)
  · rfl

/-- PARITY clears VALID, sets PARITY, counts a software write of the same cycle, and reports (R288). -/
theorem exec_parity {s : State} (hc : s.coreAwake = true) (e : Fin 512) :
    exec (.parity e) s = .next (raise (orBits (clrBits (parityCounted s e) (rENT e 0x54) 1) (rENT e 0x54) 4) 0xB8 0x03
      (rENT e 0x54)) := by
  show Host.Outcome.next (if s.coreAwake then parityBad s e else s) = _
  rw [if_pos hc]
  rfl

/-- A parity error makes the entry invalid and leaves every other register but the REJECTED count (R288). -/
theorem parity_invalidates {s : State} (hc : s.coreAwake = true) (e : Fin 512) (hq : queueFull s 0xB8 = false) :
    ∃ t, exec (.parity e) s = .next t ∧ rbit t (rENT e 0x54) 0 = false ∧ rbit t (rENT e 0x54) 2 = true ∧
      (∀ o, faultReg o = false → o ≠ rENT e 0x54 → o ≠ 0x600034 → rd t o = rd s o) ∧
      rn t 0x600034 = (if softWrote s (rENT e 0x54) then min (rn s 0x600034 + 1) (2 ^ 32 - 1) else rn s 0x600034) ∧
      (softWrote s (rENT e 0x54) = false →
        t = { enqueue s (mkReport s 0xB8 0x03 (rENT e 0x54) 0 0 false) with regs := t.regs }) := by
  have hr (o : Nat) (ho : faultReg o = false) (x : State) : rd (raise x 0xB8 0x03 (rENT e 0x54)) o = rd x o :=
    rd_raise (by decide) ho
  have hbit (n : Nat) : rbit (raise (orBits (clrBits (parityCounted s e) (rENT e 0x54) 1) (rENT e 0x54) 4) 0xB8 0x03
      (rENT e 0x54)) (rENT e 0x54) n = (rbit s (rENT e 0x54) n && !Nat.testBit 1 n || Nat.testBit 4 n) := by
    rw [rbit_congr (hr _ (faultReg_rENT e _) _), rbit_orBits_same _ _ _ _ (by decide), rbit_clrBits_same,
      rbit_congr (rd_parityCounted (faultReg_rENT e _) (by unfold rENT; omega))]
  refine ⟨_, exec_parity hc e, ?_, ?_, fun o ho h54 h34 => ?_, ?_, fun hw => ?_⟩
  · rw [hbit]
    exact Bool.or_eq_false_iff.2 ⟨Bool.and_false _, rfl⟩
  · rw [hbit]
    exact Bool.or_true _
  · rw [hr o ho, rd_orBits_ne _ _ h54, rd_clrBits_ne _ _ h54, rd_parityCounted ho h34]
  · have h : (0x600034 : Nat) ≠ rENT e 0x54 := by unfold rENT; omega
    rw [rn, hr _ (by decide), rd_orBits_ne _ _ h, rd_clrBits_ne _ _ h, ← rn, rn_parityCounted]
  · have hp : parityCounted s e = s := if_neg (by rw [hw]; exact Bool.false_ne_true)
    rw [hp, raise_eq (s := orBits (clrBits s _ _) _ _) hq]
    rfl

/-- The signatures are those of the entries as they stand (R290). -/
theorem ecamSigUpdate_writesSignatures {s : State} (hc : s.coreAwake = true) :
    ∃ t, exec .ecamSigUpdate s = .next t ∧ rn t 0x600014 = ecamSig s 0 % 2 ^ 32 ∧ rn t 0x600018 = ecamSig s 1 % 2 ^ 32 ∧
      (∀ o, o ≠ 0x600014 → o ≠ 0x600018 → rd t o = rd s o) ∧ t = { s with regs := t.regs } := by
  have he : exec .ecamSigUpdate s = .next (wr (wr s 0x600014 (ecamSig s 0)) 0x600018 (ecamSig s 1)) := by
    show Host.Outcome.next (if s.coreAwake then sigUpdate s else s) = _
    rw [if_pos hc, sigUpdate]
  refine ⟨_, he, ?_, rn_wr_same _ _ _, fun o h14 h18 => ?_, rfl⟩
  · rw [rn_wr_ne _ _ (by decide), rn_wr_same]
  · rw [rd_wr_ne _ _ h18, rd_wr_ne _ _ h14]

/-- Settles O36: the entries' words by R271's judgement of a write, SWITCH and the drain by ECAM_GEN's two bits, the parity
error and the signatures by the registers that they write. -/
theorem classifierRulesAndGenerations : Obligations.ClassifierRulesAndGenerations := by
  refine ⟨fun m e w v s h => ⟨fun hw h0 => ?_, fun hw hr => ?_, fun hv hr hq => ecamEntryWrite_valid h m e w v hv hr hq⟩,
    fun m s h => ⟨genSwitch_switches h m, genSwitch_busy h m⟩, fun s => ⟨drainComplete_ends, drainComplete_idle⟩,
    fun e s hc hq => parity_invalidates hc e hq, fun s hc => ecamSigUpdate_writesSignatures hc⟩
  · obtain ⟨t, ht, hn, hk⟩ := ecamEntryWrite_notValid h m e w v hw h0
    have hl : ∀ w : Fin 22, w.val ≠ 21 → ecamEntRw.getD w 0 = (ecamEntRw.take 21).getD w 0 := by decide
    refine ⟨t, ht, ?_, hk⟩
    rintro k rfl
    rw [hn, hl w hw]
    rfl
  · obtain rfl : w = 21 := Fin.ext hw
    exact ecamEntryWrite_ecamEnt h m e v hr

end Sys2Proof.Machine
end

section
/-!
PROOFS. O56: the refutation, by a command in a slot that R342 does not have.
-/
namespace Sys2Proof.Machine
open Sys2Proof

/-- A module in RUN with one command outstanding, in a slot of number 64. It is an ill-formed state: the slots are 0 to 63
(R342), and the command engine allocates no other. -/
def strayCommand : State :=
  { State.reset with
    nvsLoaded := true, regs := [(rPWR 4, 6)]
    cmd := { State.reset.cmd with slots := [(64, ⟨1, 1, 0, 0, 0, 0, 0, 0, false, none, none, []⟩)] } }

theorem busOpen_strayCommand : BusOpen strayCommand := ⟨⟨rfl, rfl⟩, by decide⟩

/-- The reset ends the commands of slots 0 to 63, and the command stays. -/
theorem softReset_strayCommand :
    ∃ t, exec (.softReset 1) strayCommand = .next t ∧ t.cmd.slots.map (·.1) = [64] :=
  ⟨regPut strayCommand 1 0x50 0x5AF7, rfl, by decide +kernel⟩

/-- Refutes O56 in its clause on a SOFT reset, which leaves no command outstanding where none of the module's own waits: the
statement is over every state and does not ask that the slots be those of R342, and a command in a slot of number 64 is
outstanding after the reset too. -/
theorem not_resetsAndSupplyLossKeepWhatTheySay : ¬ Obligations.ResetsAndSupplyLossKeepWhatTheySay := by
  rintro ⟨-, -, hsoft, -⟩
  obtain ⟨t, ht, -, -, -, -, -, -, hslots, -⟩ := hsoft 1 strayCommand busOpen_strayCommand
  obtain ⟨t', ht', hstray⟩ := softReset_strayCommand
  obtain rfl : t = t' := Host.Outcome.next.inj (ht.symm.trans ht')
  have hnone : t.cmd.slots = [] := hslots rfl
  rw [hnone] at hstray
  exact absurd hstray (List.cons_ne_nil _ _).symm

end Sys2Proof.Machine
end

section
/-!
PROOFS. What a report, an event and a record in a ring leave: the intake queues of the other sources, the registers but a few.
-/
namespace Sys2Proof.Machine
open Sys2Proof

/-! ## Folds -/

theorem foldl_kept {α β : Type} {g : State → β} {f : State → α → State} (h : ∀ x a, g (f x a) = g x) (l : List α) (s : State) :
    g (l.foldl f s) = g s := by
  induction l generalizing s with
  | nil => rfl
  | cons a l ih => exact (ih _).trans (h s a)

theorem upto_kept {β : Type} {g : State → β} {f : State → Nat → State} (n : Nat) (h : ∀ x, ∀ i < n, g (f x i) = g x) (s : State) :
    g (upto n f s) = g s := by
  have fold : ∀ (l : List Nat) (x : State), (∀ i ∈ l, i < n) → g (l.foldl f x) = g x := by
    intro l
    induction l with
    | nil => exact fun _ _ => rfl
    | cons a l ih =>
      intro x hl
      exact (ih _ fun i hi => hl i (List.mem_cons_of_mem _ hi)).trans (h x a (hl a List.mem_cons_self))
  exact fold _ s fun i hi => List.mem_range.1 hi

/-! ## The registers of events -/

/-- An event of all cores changes their event registers and those of reports (R305). -/
theorem rd_event {s : State} {b k : Nat} (hb : b < 64) (hk : faultReg k = false) (he : evtRegs k = false) :
    rd (event s b) k = rd s k := by
  have bits : rd (upto 8 (fun s n => if evtMirrored b ∧ s.standby ∧ rbit s (rSEQ n 0) 3 then s else evtBit s n b) s) k = rd s k := by
    refine upto_kept (g := fun s => rd s k) 8 (fun x n hn => ?_) s
    have hne : evtReg n k = false := Bool.eq_false_iff.2 fun h =>
      Bool.false_ne_true (he.symm.trans (List.any_eq_true.2 ⟨n, List.mem_range.2 hn, h⟩))
    split
    · rfl
    · exact rd_evtBit hb hk hne
  unfold event
  dsimp only
  split
  · exact (rd_congr ((mateSend_same _ _ _).get_regs rfl) k).trans bits
  · exact bits

/-! ## The intake queue of a source -/

/-- The intake queue of a source (R416). -/
def intakeOf (s : State) (q : Nat) : List Report := mget (fun _ => []) s.fcol.queues q

theorem intakeOf_congr {s t : State} (h : t.fcol = s.fcol) (q : Nat) : intakeOf t q = intakeOf s q := by
  rw [intakeOf, intakeOf, h]

theorem intakeOf_enqueue (s : State) (r : Report) (q : Nat) :
    intakeOf (enqueue s r) q = if q = r.src then intakeOf s r.src ++ [r] else intakeOf s q := mget_mput ..

theorem intakeOf_enqueue_same (s : State) {r : Report} {q : Nat} (h : r.src = q) :
    intakeOf (enqueue s r) q = intakeOf s q ++ [r] := by
  rw [intakeOf_enqueue, if_pos h.symm, h]

theorem queueFull_iff (s : State) (q : Nat) : queueFull s q = true ↔ 4 ≤ (intakeOf s q).length := decide_eq_true_iff

theorem queueFull_of_intakeOf {s t : State} {q : Nat} (h : intakeOf t q = intakeOf s q) : queueFull t q = queueFull s q := by
  rw [Bool.eq_iff_iff, queueFull_iff, queueFull_iff, h]

/-- A report leaves the queues of the other sources; counters that saturate on the way report as 0xDC (R416, R453). -/
theorem intakeOf_fileReport {fuel : Nat} {s : State} {r : Report} {q : Nat} (hr : r.src ≠ q) (hq : q ≠ srcCnt) :
    intakeOf (fileReport fuel s r) q = intakeOf s q := by
  induction fuel generalizing s r with
  | zero => rfl
  | succ f ih =>
    have counted (x : State) (o : Nat) (p : Report) (hp : p.src ≠ q) :
        intakeOf (if (bumpRaw x o 1 false).2 then fileReport f (bumpRaw x o 1 false).1 p else (bumpRaw x o 1 false).1) q =
          intakeOf x q := by
      have h := intakeOf_congr ((bumpRaw_same x o 1 false).get_fcol rfl) q
      split
      · rw [ih hp, h]
      · exact h
    unfold fileReport
    split
    · exact (counted _ _ _ hq.symm).trans (counted _ _ _ hq.symm)
    · rw [intakeOf_enqueue, if_neg hr.symm]

theorem intakeOf_raise_ne {s : State} {src kind addr m a q : Nat} (hr : src ≠ q) (hq : q ≠ srcCnt) :
    intakeOf (raise s src kind addr m a) q = intakeOf s q := intakeOf_fileReport hr hq

theorem intakeOf_bump {s : State} {o n q : Nat} (hq : q ≠ srcCnt) : intakeOf (bump s o n) q = intakeOf s q := by
  have h := intakeOf_congr ((bumpRaw_same s o n false).get_fcol rfl) q
  unfold bump
  dsimp only
  split
  · rw [intakeOf_raise_ne hq.symm hq, h]
  · exact h

theorem intakeOf_evtBit {s : State} {n b q : Nat} (hq : q ≠ srcCnt) : intakeOf (evtBit s n b) q = intakeOf s q := by
  unfold evtBit
  dsimp only
  split
  · exact intakeOf_bump hq
  · rfl

/-- An event leaves the queues of every source but the counters'. -/
theorem intakeOf_event {s : State} {b q : Nat} (hq : q ≠ srcCnt) : intakeOf (event s b) q = intakeOf s q := by
  have bits (x : State) : intakeOf (upto 8 (fun s n => if evtMirrored b ∧ s.standby ∧ rbit s (rSEQ n 0) 3 then s
      else evtBit s n b) x) q = intakeOf x q := by
    refine upto_kept (g := fun s => intakeOf s q) 8 (fun x n _ => ?_) x
    split
    · rfl
    · exact intakeOf_evtBit hq
  unfold event
  dsimp only
  split
  · rw [intakeOf_congr ((mateSend_same _ _ _).get_fcol rfl), bits]
  · exact bits s

theorem intakeOf_ringOver {s : State} {n q : Nat} (hq : q ≠ srcCnt) : intakeOf (ringOver s n) q = intakeOf s q := by
  have drains (l : List Nat) : intakeOf (l.foldl drainEval s) q = intakeOf s q :=
    foldl_kept (f := drainEval) (g := fun s => intakeOf s q) (fun _ _ => rfl) l s
  unfold ringOver
  dsimp only
  split
  · exact drains _
  · split
    · rw [intakeOf_event hq]
      exact drains _
    · exact drains _

/-- A record in a ring leaves the queues of every source but the counters'. -/
theorem intakeOf_ringPresent {s : State} {n c q : Nat} {mk : Nat → Nat → Nat → List Byte} (hq : q ≠ srcCnt) :
    intakeOf (ringPresent s n c mk).1 q = intakeOf s q := by
  unfold ringPresent
  dsimp only
  split
  · rw [intakeOf_ringOver hq]
    rename_i c' _
    have h (l : List Byte) (x : State) (a : Nat) : intakeOf (setMbs x a l) q = intakeOf x q := by
      induction l generalizing x a with
      | nil => rfl
      | cons b l ih => exact ih _ _
    rw [h]
    rfl
  · rfl

theorem intakeOf_drainFaults {s : State} {q : Nat} (hq : q ≠ srcCnt) : intakeOf (drainFaults s) q = intakeOf s q :=
  foldl_kept (g := fun s => intakeOf s q) (fun _ _ => intakeOf_ringPresent hq) _ _

/-! ## The wake of the core domain -/

theorem intakeOf_coreWake {s : State} {q : Nat} (hq : q ≠ srcCnt) : intakeOf (coreWake s) q = intakeOf s q := by
  unfold coreWake
  split
  · rfl
  · exact intakeOf_drainFaults hq

theorem intakeOf_coreTouch {s : State} {off q : Nat} {r : Bool} (hq : q ≠ srcCnt) :
    intakeOf (coreTouch s off r) q = intakeOf s q := by
  unfold coreTouch
  split
  · rfl
  · exact intakeOf_coreWake hq

/-- A powered module with its AON ready wakes the core domain for an access that needs it, and counts 10 ms from it (R505,
R506). -/
theorem coreTouch_wakes {s : State} {off : Nat} {r : Bool} (hp : pwrState s = 1) (ha : aonAnswers off r = false)
    (h2 : s.pwr.power = 2) (hm : s.pwr.mrst = false) (h0 : s.pwr.phase ≠ 0) :
    (coreTouch s off r).coreAwake = true ∧ (coreTouch s off r).pwr.coreAt = s.time.aon := by
  unfold coreTouch coreWake
  rw [if_neg (by simp [hp, ha])]
  split
  · rename_i h
    exact ⟨by simpa [h2, hm, h0] using h, rfl⟩
  · have h := drainFaults_same { { s with pwr := { s.pwr with coreAt := s.time.aon } } with coreAwake := true }
    exact ⟨h.get_coreAwake rfl, by rw [h.get_pwr rfl]⟩

end Sys2Proof.Machine
end

section
/-!
PROOFS. O5: a write that is not 32 or 64 bits wide and aligned; with the instant of a REGISTER_WRITE.
-/
namespace Sys2Proof.Machine
open Sys2Proof

/-! ## The instant of a write -/

/-- The state in which a REGISTER_WRITE meets the bus: at its core cycle, noted as one that hardware updates of the same cycle
meet where `tie` says so (R56). -/
def putAt (s : State) (k : WriteAt) : State :=
  let s := atCyc s k.cycle
  if k.tie then { s with cycle := ⟨true, s.time.aon, s.cyc, []⟩ } else s

/-- The state after the write is over: writes are noted no more. -/
def putDone (t : State) (k : WriteAt) : State := if k.tie then { t with cycle := { t.cycle with on := false } } else t

theorem exec_registerWrite (m : Master) (addr width v : Nat) (k : WriteAt) (s : State) :
    exec (.registerWrite m addr width v k) s = .next (putDone (busWrite (putAt s k) m addr width v).1 k) := by
  show Host.Outcome.next (busWriteTie (atCyc s k.cycle) m addr width v k.tie) = _
  rw [busWriteTie, putDone, putAt]
  dsimp only
  split <;> rfl

theorem putAt_same (s : State) (k : WriteAt) : Same 516 s (putAt s k) := by
  unfold putAt
  dsimp only
  split
  · exact Same.put_cycle rfl (Same.put_cyc rfl (Same.refl _ _))
  · exact Same.put_cyc rfl (Same.refl _ _)

theorem putDone_same (t : State) (k : WriteAt) : Same 512 t (putDone t k) := by
  unfold putDone
  split
  · exact Same.put_cycle rfl (Same.refl _ _)
  · exact Same.refl _ _

theorem rd_putAt (s : State) (k : WriteAt) (o : Nat) : rd (putAt s k) o = rd s o := rd_congr ((putAt_same s k).get_regs rfl) o

theorem rd_putDone (t : State) (k : WriteAt) (o : Nat) : rd (putDone t k) o = rd t o := rd_congr ((putDone_same t k).get_regs rfl) o

theorem pwrState_congr {s t : State} (h : ∀ o, rd t o = rd s o) : pwrState t = pwrState s := rb_congr (h _) _ _

theorem pwrState_putAt (s : State) (k : WriteAt) : pwrState (putAt s k) = pwrState s := pwrState_congr (rd_putAt s k)

theorem busOpen_putAt {s : State} (h : BusOpen s) (k : WriteAt) : BusOpen (putAt s k) := by
  obtain ⟨⟨hn, hs⟩, hp⟩ := h
  have e := putAt_same s k
  exact ⟨⟨(e.get_nvsLoaded rfl).trans hn, (congrArg FcolSt.safe (e.get_fcol rfl)).trans hs⟩, by rwa [pwrState_putAt]⟩

theorem intakeOf_putAt (s : State) (k : WriteAt) (q : Nat) : intakeOf (putAt s k) q = intakeOf s q :=
  intakeOf_congr ((putAt_same s k).get_fcol rfl) q

theorem intakeOf_putDone (t : State) (k : WriteAt) (q : Nat) : intakeOf (putDone t k) q = intakeOf t q :=
  intakeOf_congr ((putDone_same t k).get_fcol rfl) q

/-- Reports that a write files are those filed in the state of `atWrite`. -/
theorem putDone_enqueue (s : State) (k : WriteAt) (r : Report) : putDone (enqueue (putAt s k) r) k = enqueue (atWrite s k) r := by
  obtain ⟨c, tie⟩ := k
  cases tie <;> rfl

theorem putDone_enqueue₂ (s : State) (k : WriteAt) (r r' : Report) :
    putDone (enqueue (enqueue (putAt s k) r) r') k = enqueue (enqueue (atWrite s k) r) r' := by
  obtain ⟨c, tie⟩ := k
  cases tie <;> rfl

theorem mkReport_congr {s t : State} (ht : t.time = s.time) (hc : t.cyc = s.cyc) (src kind addr m a : Nat) (f : Bool) :
    mkReport t src kind addr m a f = mkReport s src kind addr m a f := by
  simp only [mkReport, readT, nowT, nowSub, timeFlags, ht, hc]

/-- The report of a register-bus fault on a write (R57), as raised at a write's instant. -/
def busReport (s : State) (k : WriteAt) (kind a m : Nat) : Report :=
  { src := srcBus, kind := kind, addr := a % 2 ^ 24, master := m, access := 2, forced := false,
    time := readT (atWrite s k), tflags := timeFlags s }

theorem mkReport_putAt (s : State) (k : WriteAt) (kind a m : Nat) :
    mkReport (putAt s k) srcBus kind a m 2 false = busReport s k kind a m := by
  obtain ⟨c, tie⟩ := k
  cases tie <;> rfl

theorem busReport_mod (s : State) (k : WriteAt) (kind a m : Nat) : busReport s k kind (a % 2 ^ 24) m = busReport s k kind a m := by
  rw [busReport, Nat.mod_mod, busReport]

/-! ## ACCESS_WIDTH -/

/-- A write of at most 32 bits that is not an aligned one of 32 is a fault alone, wherever the endpoint does not take it (R37). -/
theorem busWrite1_misaligned {s : State} {m addr width v : Nat} (hx : ¬ (m = 1 ∧ addr < 2 ^ 24 ∧ inMsix addr = true))
    (h : addr % 4 ≠ 0 ∨ width ≠ 32) :
    busWrite1 s m addr width v =
      (busFault (coreTouch s (addr % 2 ^ 24 / 4 * 4) false) kAccessWidth (addr % 2 ^ 24) m, true) := by
  rw [busWrite1, if_pos h, if_neg hx]

theorem busWrite_misaligned {s : State} {m addr width v : Nat} (hn : s.nvsLoaded = true) (hb : addr < 2 ^ 26)
    (hx : ¬ (m = 1 ∧ addr < 2 ^ 24 ∧ inMsix addr = true)) (h64 : width ≠ 64) (h : addr % 4 ≠ 0 ∨ width ≠ 32) :
    (busWrite s m addr width v).1 = busFault (coreTouch s (addr % 2 ^ 24 / 4 * 4) false) kAccessWidth (addr % 2 ^ 24) m := by
  simp only [busWrite, Nat.mod_eq_of_lt hb, hn, not_true_eq_false, if_false, if_neg h64, busWrite1_misaligned hx h]

/-- A misaligned write of 64 bits is two of 32, the lower address first (R38). -/
theorem busWrite_misaligned64 {s : State} {m addr v : Nat} (hn : s.nvsLoaded = true) (hp : pwrState s ≠ 1) (hb : addr < 2 ^ 26)
    (hx : ¬ (m = 1 ∧ addr < 2 ^ 24 ∧ inMsix addr = true))
    (hx4 : ¬ (m = 1 ∧ (addr + 4) % 2 ^ 26 < 2 ^ 24 ∧ inMsix ((addr + 4) % 2 ^ 26) = true)) (h : addr % 4 ≠ 0)
    (hq : (intakeOf s srcBus).length < 3) :
    (busWrite s m addr 64 v).1 =
      enqueue (enqueue s (mkReport s srcBus kAccessWidth (addr % 2 ^ 24) m 2 false))
        (mkReport s srcBus kAccessWidth ((addr + 4) % 2 ^ 26 % 2 ^ 24) m 2 false) := by
  have room : queueFull s srcBus = false := by
    rw [← Bool.not_eq_true, queueFull_iff]
    omega
  have first : busFault s kAccessWidth (addr % 2 ^ 24) m =
      enqueue s (mkReport s srcBus kAccessWidth (addr % 2 ^ 24) m 2 false) := raise_eq room
  have room' : queueFull (enqueue s (mkReport s srcBus kAccessWidth (addr % 2 ^ 24) m 2 false)) srcBus = false := by
    rw [← Bool.not_eq_true, queueFull_iff, intakeOf_enqueue_same (q := srcBus) _ rfl, List.length_append]
    show ¬ 4 ≤ (intakeOf s srcBus).length + 1
    omega
  have second : busFault (enqueue s (mkReport s srcBus kAccessWidth (addr % 2 ^ 24) m 2 false)) kAccessWidth
      ((addr + 4) % 2 ^ 26 % 2 ^ 24) m = _ := raise_eq room'
  have h4 : (addr + 4) % 2 ^ 26 % 4 ≠ 0 := by omega
  simp only [busWrite, Nat.mod_eq_of_lt hb, hn, not_true_eq_false, if_false, if_true, busWrite1_misaligned hx (.inl h),
    busWrite1_misaligned hx4 (.inl h4), coreTouch_awake hp, first]
  rw [coreTouch_awake (s := enqueue s _) hp, second]
  rfl

/-- Outside AON_ONLY, and where the AON answers, the fault is all that the write does. -/
theorem registerWrite_misaligned {s : State} {m : Master} {addr width v : Nat} {k : WriteAt} (hn : s.nvsLoaded = true)
    (hb : addr < 2 ^ 26) (hx : ¬ (m.val = 1 ∧ addr < 2 ^ 24 ∧ inMsix addr = true)) (h64 : width ≠ 64)
    (h : addr % 4 ≠ 0 ∨ width ≠ 32) (hq : queueFull s srcBus = false)
    (ht : coreTouch (putAt s k) (addr % 2 ^ 24 / 4 * 4) false = putAt s k) :
    exec (.registerWrite m addr width v k) s = .next (enqueue (atWrite s k) (busReport s k kAccessWidth addr m)) := by
  have e := putAt_same s k
  rw [exec_registerWrite, busWrite_misaligned ((e.get_nvsLoaded rfl).trans hn) hb hx h64 h, ht, busFault,
    raise_eq ((queueFull_of_intakeOf (intakeOf_putAt s k _)).trans hq), mkReport_putAt, busReport_mod, putDone_enqueue]

/-- In AON_ONLY the fault is reported whether the access wakes the core domain or not (R506). -/
theorem registerWrite_misaligned_reports {s : State} {m : Master} {addr width v : Nat} {k : WriteAt} (hn : s.nvsLoaded = true)
    (hb : addr < 2 ^ 26) (hx : ¬ (m.val = 1 ∧ addr < 2 ^ 24 ∧ inMsix addr = true)) (h64 : width ≠ 64)
    (h : addr % 4 ≠ 0 ∨ width ≠ 32) (hq : queueFull s srcBus = false) :
    ∃ t, exec (.registerWrite m addr width v k) s = .next t ∧ busReport s k kAccessWidth addr m ∈ intakeOf t srcBus ∧
      t.coreAwake = (coreTouch (putAt s k) (addr % 2 ^ 24 / 4 * 4) false).coreAwake ∧
      t.pwr = (coreTouch (putAt s k) (addr % 2 ^ 24 / 4 * 4) false).pwr := by
  have e := putAt_same s k
  have c := coreTouch_same (putAt s k) (addr % 2 ^ 24 / 4 * 4) false
  have room : queueFull (coreTouch (putAt s k) (addr % 2 ^ 24 / 4 * 4) false) srcBus = false :=
    (queueFull_of_intakeOf ((intakeOf_coreTouch (by decide)).trans (intakeOf_putAt s k _))).trans hq
  have d := putDone_same (raise (coreTouch (putAt s k) (addr % 2 ^ 24 / 4 * 4) false) srcBus kAccessWidth (addr % 2 ^ 24) m 2) k
  refine ⟨_, by rw [exec_registerWrite, busWrite_misaligned ((e.get_nvsLoaded rfl).trans hn) hb hx h64 h, busFault], ?_, ?_, ?_⟩
  · rw [intakeOf_putDone, raise_eq room, mkReport_congr (c.get_time rfl) (c.get_cyc rfl), mkReport_putAt, busReport_mod,
      intakeOf_enqueue_same (q := srcBus) _ rfl]
    exact List.mem_append_right _ List.mem_cons_self
  · rw [d.get_coreAwake rfl, raise_eq room, enqueue_coreAwake]
  · rw [d.get_pwr rfl, raise_eq room, enqueue_pwr]

/-- Settles O5: the bus ignores the write but for the fault; what the access wakes, it wakes first. -/
theorem misalignedWriteOnlyRaisesAccessWidth : Obligations.MisalignedWriteOnlyRaisesAccessWidth := by
  intro m addr width v k s report hn hb hx
  refine ⟨fun hp h64 h hq => ⟨_, registerWrite_misaligned hn hb hx h64 h hq (coreTouch_awake ?_), rfl⟩,
    fun hp h64 h hq => ?_, fun hp h64 h hx4 hq => ?_⟩
  · rwa [pwrState_putAt]
  · obtain ⟨t, ht, hr, hc, hw⟩ := registerWrite_misaligned_reports (v := v) (k := k) hn hb hx h64 h hq
    refine ⟨t, ht, hr, fun ha => ?_, fun ha h2 hm h0 => ?_⟩
    · exact Host.Outcome.next.inj (ht.symm.trans (registerWrite_misaligned hn hb hx h64 h hq (coreTouch_aon ha)))
    · have e := putAt_same s k
      obtain ⟨hawake, hat⟩ := coreTouch_wakes (s := putAt s k) ((pwrState_putAt s k).trans hp) ha
        ((congrArg PwrSt.power (e.get_pwr rfl)).trans h2) ((congrArg PwrSt.mrst (e.get_pwr rfl)).trans hm)
        (by rwa [e.get_pwr rfl])
      exact ⟨hc.trans hawake, by rw [hw, hat, e.get_time rfl]⟩
  · subst h64
    refine ⟨_, exec_registerWrite .., ?_⟩
    rw [busWrite_misaligned64 (((putAt_same s k).get_nvsLoaded rfl).trans hn) (by rwa [pwrState_putAt]) hb hx hx4 h
      (by rw [intakeOf_putAt]; exact hq), mkReport_putAt, mkReport_putAt, busReport_mod, busReport_mod, putDone_enqueue₂]
    rfl

end Sys2Proof.Machine
end

section
/-!
PROOFS. O13: the time commands post, and the write of TIME_CMD lands.
-/
namespace Sys2Proof.Machine
open Sys2Proof

/-! ## A write of command bits -/

/-- A write of a register that holds command bits alone leaves the register (R41). -/
theorem storeVal_commands {s : State} {i : RegInfo} {view raw m : Nat} (hw : i.row.words = 1) (hm : i.row.wm = false)
    (hv : isVirtual i = false) (hg : i.blk ≠ .glb) (hc : i.row.cnt = false) (hrw : i.row.rw = 0) (h1 : i.row.w1c = 0) :
    storeVal s i view raw m = (noteWrite (wr s i.base (rn s i.base)) i.base, rn s i.base, rn s i.base, raw &&& i.row.sc) := by
  have old : oldVal s m i = rn s i.base := by simp [oldVal, hv, hw, rL]
  have keep : clr (newVal i view (rn s i.base) raw) (hitVal i raw &&& i.row.w1c) = rn s i.base := by
    simp [newVal_word hw hm hg, hrw, h1, clr]
  have hit : hitVal i raw = raw &&& i.row.sc := by rw [hitVal_word hm, h1, Nat.zero_or]
  simp only [storeVal, old, keep, hv, Bool.false_eq_true, if_false, hw, wL, wr_mod]
  rw [loadSat, if_neg (by simp [hc]), hit]

/-! ## The writes in flight -/

theorem postBusy_landed (s : State) (key k : Nat) (f : State → State) (hf : ∀ x, (f x).posted = x.posted) :
    postBusy (f { s with posted := s.posted.filter (fun q => decide (q.1 ≠ key)) }) k = (decide (k ≠ key) && postBusy s k) := by
  rw [postBusy, hf, postBusy, Bool.eq_iff_iff]
  simp only [List.any_filter, List.any_eq_true, Bool.and_eq_true, decide_eq_true_eq]
  constructor
  · rintro ⟨p, hp, hne, rfl⟩
    exact ⟨hne, p, hp, rfl⟩
  · rintro ⟨hne, p, hp, rfl⟩
    exact ⟨p, hp, hne, rfl⟩

/-- What the map says of TIME_CMD (R78). -/
def timeCmdInfo : RegInfo := ⟨.time, 0, { off := 0x08, sc := 0x1F, posted := true }, 0, 0, rTIME 0x08⟩

theorem regInfo_timeCmd : regInfo (rTIME 0x08) = some timeCmdInfo := by decide +kernel

/-- A write of bits of TIME_CMD with BUSY of TIME clear posts, whether the core domain is awake or not (R48, R506). -/
theorem regPut_timeCmd {s : State} (h : AonOpen s) (hb : postBusy s 0 = false) {v : Nat} (hv : v < 2 ^ 32) (m : Nat) :
    regPut s m (rTIME 0x08) v = { s with posted := s.posted ++ [(0, ⟨m, rTIME 0x08, 0, [v]⟩)] } :=
  regPut_posted h.1 h.2 regInfo_timeCmd (by decide) (by decide) (by decide) hv rfl rfl rfl hb (by decide) (by decide) rfl rfl rfl
    (coreTouch_aon (by decide +kernel)) (by decide +kernel) rfl

/-- The write of TIME_CMD in flight lands: its bits wait for the next AON boundary (R48, R78). -/
theorem postLand_timeCmd {s : State} {p : Posted} {v : Nat} (hf : s.posted.find? (fun q => decide (q.1 = 0)) = some (0, p))
    (ho : p.off = rTIME 0x08) (hw : p.words = [v]) :
    postLand s 0 =
      let old := rn s (rTIME 0x08)
      let x := noteWrite (wr { s with posted := s.posted.filter (fun q => decide (q.1 ≠ 0)) } (rTIME 0x08) old) (rTIME 0x08)
      { x with landed := x.landed ++ [⟨rTIME 0x08, old, old, v % 32, p.master⟩] } := by
  have hit : v &&& timeCmdInfo.row.sc = v % 32 := Nat.and_two_pow_sub_one_eq_mod v 5
  rw [postLand, hf]
  simp only [ho, hw, regInfo_timeCmd, joinWords, Nat.mul_zero, Nat.add_zero,
    storeVal_commands (i := timeCmdInfo) rfl rfl rfl (by decide) rfl rfl rfl, hit]
  rfl

/-- What the landing leaves and changes. -/
theorem postLand_timeCmd_keeps {s : State} {p : Posted} {v : Nat} (hf : s.posted.find? (fun q => decide (q.1 = 0)) = some (0, p))
    (ho : p.off = rTIME 0x08) (hw : p.words = [v]) :
    (∀ k, postBusy (postLand s 0) k = (decide (k ≠ 0) && postBusy s k)) ∧
      (∃ old new, (postLand s 0).landed = s.landed ++ [⟨rTIME 0x08, old, new, v % 32, p.master⟩]) ∧
      (postLand s 0).time = s.time ∧ (∀ o, rd (postLand s 0) o = rd s o) ∧ (postLand s 0).mem = s.mem := by
  rw [postLand_timeCmd hf ho hw]
  have n (x : State) : Same 512 x (noteWrite x (rTIME 0x08)) := noteWrite_same x _
  dsimp only
  refine ⟨fun k => ?_, ⟨_, _, by rw [(n _).get_landed rfl]; rfl⟩, (n _).get_time rfl, fun o => ?_, (n _).get_mem rfl⟩
  · exact postBusy_landed s 0 k (fun x => noteWrite (wr x (rTIME 0x08) (rn s (rTIME 0x08))) (rTIME 0x08))
      (fun x => (n _).get_posted rfl)
  · exact (rd_congr ((n _).get_regs rfl) o).trans (rd_wr_restored (fun _ _ => rfl) o)

/-- Settles O13: each command is a write of TIME_CMD, and a landing writes no register. -/
theorem timeCommandsPostAndLand : Obligations.TimeCommandsPostAndLand := by
  have post {s : State} (h : AonOpen s) (hb : postBusy s 0 = false) (m : Master) {v : Nat} (hv : v < 2 ^ 32) :
      ∃ t, (Host.Outcome.next (regPut s m (rTIME 0x08) v) : Host.Outcome State Fault Refusal) = .next t ∧
        t = { s with posted := s.posted ++ [(0, ⟨m, rTIME 0x08, 0, [v]⟩)] } := ⟨_, rfl, regPut_timeCmd h hb hv m⟩
  refine ⟨fun m s h hb => ⟨post h hb m (v := 1) (by decide), post h hb m (v := 2) (by decide), post h hb m (v := 4) (by decide),
    post h hb m (v := 8) (by decide), post h hb m (v := 0x10) (by decide)⟩, fun s tie p v hf ho hw _ => ?_⟩
  cases tie with
  | false =>
    obtain ⟨hbusy, ⟨old, new, hland⟩, htime, hregs, hmem⟩ := postLand_timeCmd_keeps hf ho hw
    exact ⟨postLand s 0, old, new, rfl, by simp [hbusy], fun k hk => by simp [hbusy, hk], hland, htime, fun o _ _ => hregs o,
      memKept_of_mem hmem⟩
  | true =>
    obtain ⟨hbusy, ⟨old, new, hland⟩, htime, hregs, hmem⟩ :=
      postLand_timeCmd_keeps (s := { s with cycle := ⟨true, s.time.aon, s.cyc, []⟩ }) hf ho hw
    have busy (k : Nat) : postBusy (postLandTie s 0 true) k = _ := hbusy k
    exact ⟨postLandTie s 0 true, old, new, rfl, by simp [busy], fun k hk => by rw [busy]; simp [hk]; rfl, hland, htime,
      fun o _ _ => hregs o, memKept_of_mem hmem⟩

end Sys2Proof.Machine
end

section
/-!
PROOFS. O7: a write of a posted register while its block is BUSY, and one of its lower words.
-/
namespace Sys2Proof.Machine
open Sys2Proof

/-- An aligned write of 32 bits with the bus open is the write of its register word (R37, R506). -/
theorem exec_registerWrite_open {s : State} {off view v : Nat} {i : RegInfo} (h : BusOpen s) (ha : off % 4 = 0) (ho : off < 2 ^ 24)
    (hview : view < 4) (hv : v < 2 ^ 32) (hi : regInfo off = some i) (m : Master) (k : WriteAt) :
    exec (.registerWrite m (off + view * 2 ^ 24) 32 v k) s =
      .next (putDone (regWrite (putAt s k) m (off + view * 2 ^ 24) v).1 k) := by
  have ho' : (off + view * 2 ^ 24) % 2 ^ 24 = off := by omega
  obtain ⟨⟨hn, hs⟩, hp⟩ := busOpen_putAt h k
  rw [exec_registerWrite, busWrite_open hn hs (coreTouch_awake hp) (by omega) (by omega) (by rw [ho']; exact regInfo_inMsix hi) hv]

/-- A committing write of a posted register of a BUSY block is a fault alone (R49). -/
theorem regWrite_busy {s : State} {off v : Nat} {i : RegInfo} (ho : off < 2 ^ 24) (hi : regInfo off = some i)
    (hp : i.row.posted = true) (hw : i.word + 1 = i.row.words) (hb : postBusy s (postKey i.blk i.inst) = true) (m : Nat) :
    regWrite s m off v = (busFault s kPostOverrun off m, true) := by
  have hd : off / 2 ^ 24 = 0 := Nat.div_eq_of_lt ho
  rw [regWrite, Nat.mod_eq_of_lt ho, hd]
  simp only [hi]
  rw [if_neg (fun h => h.1 rfl), if_pos ⟨hp, decide_eq_true hw, hb⟩]

/-- A lower word of a multi-word register is staged as it stands (R45), forwarded where the mate has the register (R473). -/
theorem regWrite_lower {s : State} {off v : Nat} {i : RegInfo} (ho : off < 2 ^ 24) (hi : regInfo off = some i)
    (hr : allRo i = false) (hw : i.word + 1 ≠ i.row.words) (m : Nat) :
    regWrite s m off v = (setStaged (hostForward s m off off v) m off v, false) := by
  have hd : off / 2 ^ 24 = 0 := Nat.div_eq_of_lt ho
  rw [regWrite, Nat.mod_eq_of_lt ho, hd]
  simp only [hi]
  rw [if_neg (fun h => h.1 rfl), if_neg (fun h => hw (of_decide_eq_true h.2.1)), if_neg (by rw [hr]; exact Bool.false_ne_true),
    if_pos (by simp [hw])]
  rfl

theorem stagedOf_setStaged (s : State) (m off : Nat) {v : Nat} (hv : v < 2 ^ 32) : stagedOf (setStaged s m off v) m off = v := by
  rw [stagedOf, setStaged, mget_mput_same]
  exact Nat.mod_eq_of_lt hv

/-- Settles O7: the faulting write is the report alone, the staging one touches staging and the mate's channel alone. -/
theorem postedWriteWhileBusyIsRefused : Obligations.PostedWriteWhileBusyIsRefused := by
  intro m off v k s i h ha ho hv hi hp
  have run := exec_registerWrite_open (view := 0) h ha ho (by decide) hv hi m k
  rw [Nat.zero_mul, Nat.add_zero] at run
  have e := putAt_same s k
  refine ⟨fun hw hb hq => ⟨_, run, ?_⟩, fun hw hr => ⟨_, run, ?_⟩⟩
  · have busy : postBusy (putAt s k) (postKey i.blk i.inst) = true := by rw [postBusy, e.get_posted rfl]; exact hb
    have room : queueFull (putAt s k) srcBus = false := (queueFull_of_intakeOf (intakeOf_putAt s k _)).trans hq
    rw [regWrite_busy ho hi hp hw busy, busFault, raise_eq room, mkReport_putAt, putDone_enqueue, busReport, Nat.mod_eq_of_lt ho]
    rfl
  · rw [regWrite_lower ho hi hr hw]
    have a := (((e.mono (K := 140754668225092) rfl).trans ((hostForward_same (putAt s k) m off off v).mono rfl)).trans
      ((setStaged_same _ m off v).mono rfl)).trans ((putDone_same (setStaged (hostForward (putAt s k) m off off v) m off v) k).mono rfl)
    refine ⟨?_, a.get_posted rfl, a.get_regs rfl, memKept_of_mem (a.get_mem rfl)⟩
    rw [stagedOf, (putDone_same _ k).get_staging rfl]
    exact stagedOf_setStaged _ _ _ hv

end Sys2Proof.Machine
end

section
/-!
PROOFS. O9: the writes of GLB_LOCK and of SEAL_CTRL.HOLD.
-/
namespace Sys2Proof.Machine
open Sys2Proof

/-- Where no outstanding command is picked, the commands picked are none. -/
theorem slotsOf_eq_nil {s : State} {p : Slot → Bool} (h : ∀ q ∈ s.cmd.slots, p q.2 = false) : slotsOf s p = [] := by
  refine List.filterMap_eq_nil_iff.2 fun k _ => ?_
  cases hf : s.cmd.slots.find? (fun q => decide (q.1 = k)) with
  | none => simp [slotOf, hf]
  | some q => simp [slotOf, hf, h q (List.mem_of_find?_eq_some hf)]

/-! ## GLB_LOCK -/

/-- What the map says of GLB_LOCK (R53). -/
def glbLockInfo : RegInfo := ⟨.glb, 0, rF 0x040 0x1F, 0, 0, 0x40⟩

theorem regInfo_glbLock : regInfo 0x40 = some glbLockInfo := by decide +kernel

/-- GLB_LOCK after a write: a bit written as 1 is set, and none clears (R53). -/
def lockNew (s : State) (b : Word) : Nat := clr (rn s 0x40) 0x1F ||| (b.toNat &&& 0x1F) ||| rn s 0x40

theorem lockNew_lt (s : State) (b : Word) : lockNew s b < 2 ^ 32 :=
  Nat.or_lt_two_pow (Nat.or_lt_two_pow (lt_of_le_of_lt (Nat.sub_le _ _) (rn_lt s 0x40)) (Nat.and_lt_two_pow _ (by decide)))
    (rn_lt s 0x40)

/-- SEALREF stands in GLB_LOCK where it stood, and where the write sets it. -/
theorem lockNew_sealref (s : State) (b : Word) : (lockNew s b).testBit 4 = (b.getLsbD 4 || rbit s 0x40 4) := by
  have b4 : Nat.testBit 0x1F 4 = true := rfl
  simp only [lockNew, Nat.testBit_or, Nat.testBit_and, clr_testBit, b4, Bool.not_true, Bool.and_false, Bool.false_or, Bool.and_true]
  rfl

theorem newVal_glbLock (s : State) (b : Word) : newVal glbLockInfo 0 (rn s 0x40) b.toNat = lockNew s b := by
  simp [newVal, glbLockInfo, rF, topBit, viewApply, lockNew, Nat.mod_one]

/-- A write of GLB_LOCK with the bus open: the new word, and what a new SEALREF does (R53, R55). -/
theorem exec_lockWrite {s : State} (h : BusOpen s) (m : Master) (b : Word) :
    exec (.lockWrite m b) s =
      .next (sealLockFx (noteWrite (wr s 0x40 (lockNew s b)) 0x40) (rn s 0x40) (lockNew s b)) := by
  obtain ⟨⟨hn, hs⟩, hp⟩ := h
  have unforwarded (i : RegInfo) (a c : Nat) : forwardTaken s m 0x40 0x40 b.toNat i a c = s := by
    have : forwarded 0x40 = false := by decide +kernel
    simp [forwardTaken, hostForward, this]
  have run := regPut_word (m := m) hn hs regInfo_glbLock (by decide) (by decide) (by decide) b.isLt rfl rfl rfl (by decide)
    (by decide) (coreTouch_awake hp) rfl (Nat.zero_and _)
  rw [unforwarded, if_neg (show ¬ glbLockInfo.row.slm ≠ 0 from not_not_intro rfl), applyVal_one rfl rfl rfl] at run
  have base : glbLockInfo.base = 0x40 := rfl
  have keep : clr (lockNew s b) (hitVal glbLockInfo b.toNat &&& glbLockInfo.row.w1c) = lockNew s b := by
    show clr _ (_ &&& 0) = _
    simp [clr]
  rw [base, newVal_glbLock, keep] at run
  exact congrArg Host.Outcome.next run

/-- A write that sets no SEALREF, or meets no SEAL_COMMIT, changes GLB_LOCK alone (R55). -/
theorem sealLockFx_idle {s x : State} {b : Word} (hx : x.cmd = s.cmd)
    (h : b.getLsbD 4 = false ∨ rbit s 0x40 4 = true ∨ ∀ p ∈ s.cmd.slots, p.2.w0 % 256 ≠ 0x0B) :
    sealLockFx x (rn s 0x40) (lockNew s b) = x := by
  have none (hp : ∀ p ∈ s.cmd.slots, p.2.w0 % 256 ≠ 0x0B) :
      slotsOf x (fun y => y.running && decide (y.w0 % 256 = 0x0B)) = [] :=
    slotsOf_eq_nil fun q hq => by simp [hp q (hx ▸ hq)]
  unfold sealLockFx
  split
  next hset =>
    obtain ⟨hnew, hold⟩ := hset
    rw [lockNew_sealref] at hnew
    rcases h with h | h | h
    · rw [h, Bool.false_or] at hnew
      exact absurd hnew hold
    · exact absurd h hold
    · rw [none h]
      rfl
  next => rfl

/-! ## SEAL_CTRL.HOLD -/

/-- What the map says of SEAL_CTRL (R61). -/
def sealCtrlInfo : RegInfo := ⟨.scrim, 0, { off := 0x00, rw := 3, nv := 1, reset := 1 }, 0, 0, rSEAL 0⟩

theorem regInfo_sealCtrl : regInfo (rSEAL 0) = some sealCtrlInfo := by decide +kernel

/-- SEAL_CTRL after SEAL_HOLD. -/
def holdNew (s : State) : Nat := clr (rn s (rSEAL 0)) 3 ||| ((rn s (rSEAL 0) ||| 2) &&& 3)

theorem holdNew_hold (s : State) : (holdNew s).testBit 1 = true := by
  rw [holdNew, Nat.testBit_or, Nat.testBit_and, Nat.testBit_or, show Nat.testBit 2 1 = true from rfl, Bool.or_true]
  exact Bool.or_true _

theorem holdNew_enable (s : State) : (holdNew s).testBit 0 = rbit s (rSEAL 0) 0 := by
  rw [holdNew, Nat.testBit_or, clr_testBit, Nat.testBit_and, Nat.testBit_or, show Nat.testBit 2 0 = false from rfl,
    show Nat.testBit 3 0 = true from rfl, Bool.not_true, Bool.and_false, Bool.false_or, Bool.or_false, Bool.and_true, rbit]

theorem holdNew_lt (s : State) : holdNew s < 2 ^ 32 :=
  Nat.or_lt_two_pow (lt_of_le_of_lt (Nat.sub_le _ _) (rn_lt s (rSEAL 0))) (Nat.and_lt_two_pow _ (by decide))

theorem exec_sealHold {s : State} (h : BusOpen s) (m : Master) :
    exec (.sealHold m) s =
      .next (sealCtrlFx (noteWrite (wr s (rSEAL 0) (holdNew s)) (rSEAL 0)) (rn s (rSEAL 0)) (holdNew s)) := by
  have unforwarded (i : RegInfo) (a c : Nat) : forwardTaken s m (0x1000000 + rSEAL 0) (rSEAL 0) 2 i a c = s := by
    have : forwarded (rSEAL 0) = false := by decide +kernel
    simp [forwardTaken, hostForward, this]
  have run := regPut_view (m := m) (view := 1) h regInfo_sealCtrl (addr := 0x1000000 + rSEAL 0) (by decide) (by decide)
    (by decide) (by decide) (v := 2) (by decide) rfl rfl rfl (by decide) rfl (by decide) rfl (fun _ => rfl) (fun _ => rfl)
  have base : sealCtrlInfo.base = rSEAL 0 := rfl
  have new : clr (newVal sealCtrlInfo 1 (rn s (rSEAL 0)) 2) (hitVal sealCtrlInfo 2 &&& sealCtrlInfo.row.w1c) = holdNew s := by
    rw [newVal_word rfl rfl (by decide)]
    show clr (clr _ 3 ||| (_ &&& 3)) (_ &&& 0) = _
    simp [clr, holdNew, viewApply]
  rw [unforwarded, applyVal_one rfl rfl rfl, base, new] at run
  exact congrArg Host.Outcome.next run

/-- Settles O9: each is the write of one register, whose word keeps the bits that stood in it. -/
theorem lockAndHoldWritesOnlySetBits : Obligations.LockAndHoldWritesOnlySetBits := by
  have note (s : State) (o v : Nat) : Same 528 s (noteWrite (wr s o v) o) :=
    (Same.put_regs rfl (Same.refl 528 s)).trans ((noteWrite_same _ _).mono rfl)
  have reads (s : State) (o v k : Nat) : rd (noteWrite (wr s o v) o) k = rd (wr s o v) k := rd_noteWrite ..
  have kept (s : State) (o v : Nat) : RegsKept s (noteWrite (wr s o v) o) [o] := fun k _ hk => by
    rw [reads, rd_wr_ne _ _ (fun e => hk (by simp [e]))]
  constructor
  · intro m b s h hb
    have n := note s 0x40 (lockNew s b)
    refine ⟨_, exec_lockWrite h m b, ?_⟩
    rw [sealLockFx_idle (n.get_cmd rfl) hb]
    refine ⟨?_, kept s _ _, memKept_of_mem (n.get_mem rfl)⟩
    show (rd _ 0x40).toNat = _
    rw [reads, rd_wr_same]
    exact Nat.mod_eq_of_lt (lockNew_lt s b)
  · intro m s h
    have n := note s (rSEAL 0) (holdNew s)
    have f := sealCtrlFx_same (noteWrite (wr s (rSEAL 0) (holdNew s)) (rSEAL 0)) (rn s (rSEAL 0)) (holdNew s)
    have word : rn (sealCtrlFx (noteWrite (wr s (rSEAL 0) (holdNew s)) (rSEAL 0)) (rn s (rSEAL 0)) (holdNew s)) (rSEAL 0) =
        holdNew s := by
      show (rd _ _).toNat = _
      rw [rd_congr (f.get_regs rfl), reads, rd_wr_same]
      exact Nat.mod_eq_of_lt (holdNew_lt s)
    refine ⟨_, exec_sealHold h m, ?_, ?_, fun h1 => ?_, fun o ho hk => ?_, memKept_of_mem ((f.get_mem rfl).trans (n.get_mem rfl))⟩
    · rw [rbit, word, holdNew_hold]
    · rw [rbit, word, holdNew_enable]
    · rw [rbit] at h1
      rw [sealCtrlFx, if_pos ⟨holdNew_hold s, by simp [h1]⟩]
      exact congrArg TimeSt.aon (n.get_time rfl)
    · rw [rd_congr (f.get_regs rfl)]
      exact kept s _ _ o ho hk

end Sys2Proof.Machine
end

section
/-!
PROOFS. O6: a write of a single-word register that nothing follows from.
-/
namespace Sys2Proof.Machine
open Sys2Proof

/-- The blocks of the correction path, of the block-wide ring registers and of the Lath window. -/
def PlainBlk (b : Blk) : Prop := b = .corr ∨ b = .ringWide ∨ b = .lath

/-- Their single-word registers carry no mask, are neither posted nor locked, and lie past the registers of faults and the seal. -/
theorem plainBlk_row : ∀ b ∈ blocks, (b.blk = .corr ∨ b.blk = .ringWide ∨ b.blk = .lath) →
    0x508000 ≤ b.base ∧ ∀ r ∈ b.rows, r.words = 1 → r.wm = false ∧ r.posted = false ∧ r.lk = 0 := by
  decide +kernel

theorem regInfo_plain {off : Nat} {i : RegInfo} (h : regInfo off = some i) (hb : PlainBlk i.blk) (hw : i.row.words = 1) :
    0x508000 ≤ off ∧ i.word = 0 ∧ i.base = off ∧ i.row.wm = false ∧ i.row.posted = false ∧ i.row.lk = 0 := by
  have hr : i.blk ≠ .ref := by rcases hb with hb | hb | hb <;> rw [hb] <;> decide
  obtain ⟨b, hm, he, hrow, hle, -⟩ := regInfo_row h hr
  obtain ⟨hbase, hrows⟩ := plainBlk_row b hm (by rw [he]; exact hb)
  obtain ⟨hword, hreg⟩ := regInfo_word h
  have h0 : i.word = 0 := by omega
  exact ⟨hbase.trans hle, h0, by rw [hreg, h0]; rfl, hrows _ hrow hw⟩

/-- Nothing follows from a write of them, and hardware holds none of their bits. -/
theorem plainBlk_fx {i : RegInfo} (hb : PlainBlk i.blk) :
    isVirtual i = false ∧ (∀ t, heldBits t i = 0) ∧ ∀ t old new hit m cz, regFx t i old new hit m cz = t := by
  obtain ⟨blk, inst, row, rep, word, base⟩ := i
  rcases hb with hb | hb | hb <;> cases hb <;> exact ⟨rfl, fun _ => rfl, fun _ _ _ _ _ _ => rfl⟩

theorem applyVal_mem {s : State} {i : RegInfo} {view v m : Nat} {cz : Cause} (hw : i.row.words = 1)
    (hv : isVirtual i = false) (hfx : ∀ t old new hit, regFx t i old new hit m cz = t) :
    (applyVal s i view v m cz).mem = s.mem := by
  simp only [applyVal, storeVal, hfx, hv, hw, if_false, Bool.false_eq_true, wL]
  rw [(noteWrite_same _ _).get_mem rfl, (loadSat_same _ _ _).get_mem rfl, wr_mem]

/-- The state in which a write that is let through stores its word: forwarded (R473), and the pass void where the register is
sealed (R59). -/
def letThrough (s : State) (m addr off v : Nat) (i : RegInfo) (view : Nat) : State :=
  let t := forwardTaken s m addr off v i view v
  if i.row.slm ≠ 0 then passVoidMark t (some (off, m)) else t

theorem rd_letThrough (s : State) (m addr off v : Nat) (i : RegInfo) (view : Nat) {o : Nat} (hf : faultReg o = false)
    (h4 : o ≠ rSEAL 4) (h8 : o ≠ rSEAL 0x18) : rd (letThrough s m addr off v i view) o = rd s o := by
  unfold letThrough
  dsimp only
  split
  · rw [rd_passVoidMark hf h4 h8, rd_forwardTaken]
  · exact rd_forwardTaken ..

theorem letThrough_mem (s : State) (m addr off v : Nat) (i : RegInfo) (view : Nat) :
    (letThrough s m addr off v i view).mem = s.mem := by
  have e := (forwardTaken_same s m addr off v i view v).get_mem rfl
  unfold letThrough
  dsimp only
  split
  · rw [(passVoidMark_same _ _).get_mem rfl, e]
  · exact e

/-- A write of such a register in any view is let through and stores its word (R41, R42). -/
theorem regWrite_plain {off view v : Nat} {i : RegInfo} (ho : off < 2 ^ 24) (hview : view < 4) (hi : regInfo off = some i)
    (hb : PlainBlk i.blk) (hw : i.row.words = 1) (hr : allRo i = false) (s : State) (m : Nat) :
    regWrite s m (off + view * 2 ^ 24) v =
      (applyVal (letThrough s m (off + view * 2 ^ 24) off v i view) i view v m (some (off, m)), false) := by
  obtain ⟨-, h0, -, hm, hp, hlk⟩ := regInfo_plain hi hb hw
  obtain ⟨-, hheld, -⟩ := plainBlk_fx hb
  have hc : i.blk ≠ .cmd := by rcases hb with hb | hb | hb <;> rw [hb] <;> decide
  rw [regWrite_view (off := off) (view := view) (by omega) (by omega) hi hw h0 hp hr hm hc,
    busAccept_free (by simp [lockedBits, hlk]) (by rw [hheld, Nat.zero_and]) hp, letThrough]

/-- The W1C bits that a write hits are those that it writes as 1 (R41). -/
theorem hitVal_w1c {i : RegInfo} (hm : i.row.wm = false) (v : Nat) : hitVal i v &&& i.row.w1c = v &&& i.row.w1c := by
  rw [hitVal_word hm]
  refine Nat.eq_of_testBit_eq fun j => ?_
  simp only [Nat.testBit_and, Nat.testBit_or]
  cases i.row.w1c.testBit j <;> simp

/-- Settles O6: the write is let through and stores its word. -/
theorem plainRegisterTakesTheWrite : Obligations.PlainRegisterTakesTheWrite := by
  intro m off view v k s i h ha ho hview hv hi hb hw hr
  obtain ⟨hge, -, hbase, hm, -, -⟩ := regInfo_plain hi hb hw
  obtain ⟨hvirt, -, hfx⟩ := plainBlk_fx hb
  have hg : i.blk ≠ .glb := by rcases hb with hb | hb | hb <;> rw [hb] <;> decide
  have fx (t : State) (old new hit : Nat) : regFx t i old new hit m (some (off, m.val)) = t := hfx ..
  have hfault : faultReg off = false := by
    simp only [faultReg, decide_eq_false_iff_not]
    omega
  have before {o : Nat} (hf : faultReg o = false) (h4 : o ≠ rSEAL 4) (h8 : o ≠ rSEAL 0x18) :
      rd (letThrough (putAt s k) m (off + view * 2 ^ 24) off v i view) o = rd s o :=
    (rd_letThrough _ _ _ _ _ _ _ hf h4 h8).trans (rd_putAt s k o)
  refine ⟨_, exec_registerWrite_open h ha ho hview hv hi m k, ?_⟩
  rw [regWrite_plain ho hview hi hb hw hr]
  refine ⟨?_, fun o hf hk => ?_, memKept_of_mem ?_⟩
  · have old := before hfault (by unfold rSEAL; omega) (by unfold rSEAL; omega)
    rw [rd_putDone, applyVal_word hw hvirt fx hfault, if_pos hbase.symm, newVal_word hw hm hg, hitVal_w1c hm, hbase, rn, old, rn]
  · simp only [List.mem_cons, List.not_mem_nil, or_false, not_or] at hk
    obtain ⟨hoff, h4, h8⟩ := hk
    rw [rd_putDone, applyVal_word hw hvirt fx hf, if_neg (by rwa [hbase]), before hf h4 h8]
  · rw [(putDone_same _ _).get_mem rfl, applyVal_mem hw hvirt fx, letThrough_mem, (putAt_same s k).get_mem rfl]

end Sys2Proof.Machine
end

section
/-!
PROOFS. O10: the end of a hold, the millisecond boundary and the end of a seal pass.
-/
namespace Sys2Proof.Machine
open Sys2Proof

/-! ## The end of a hold -/

theorem atLeast1_eq_max (v : Nat) : atLeast1 v = max 1 v := by
  unfold atLeast1
  split <;> omega

/-- SEAL_CTRL and SEAL_STATUS once a hold has reached its limit: HOLD clear, EXPIRED set (R61). -/
def holdOver (s : State) : State := orBits (wb s (rSEAL 0) 1 1 0) (rSEAL 4) 4

/-- A hold ends at its limit (R61). -/
theorem holdEnd_due {s : State} (h : rbit s (rSEAL 0) 1 = true)
    (hdue : s.seal_.holdFrom + max 1 (rb s (rSEAL 0x10) 0 16) * 10000 ≤ s.time.aon) (hw : softWrote s (rSEAL 0) = false)
    (hq : queueFull s srcSeal = false) :
    holdEnd s = enqueue (holdOver s) (mkReport (holdOver s) srcSeal kHoldExpired (rSEAL 4) 0 0 false) := by
  have due : holdDue s = true := by
    rw [holdDue, atLeast1_eq_max, h, Bool.true_and]
    exact decide_eq_true hdue
  have clear : holdClear s = wb s (rSEAL 0) 1 1 0 := by
    rw [holdClear, hw]
    rfl
  rw [holdEnd, if_pos due, clear, ← holdOver]
  exact raise_eq ((queueFull_congr rfl srcSeal).trans hq)

theorem holdEnd_idle {s : State}
    (h : rbit s (rSEAL 0) 1 = false ∨ s.time.aon < s.seal_.holdFrom + max 1 (rb s (rSEAL 0x10) 0 16) * 10000) :
    holdEnd s = s := by
  have idle : holdDue s = false := by
    rw [holdDue, atLeast1_eq_max, Bool.and_eq_false_iff, decide_eq_false_iff_not, not_le]
    exact h
  rw [holdEnd, idle]
  rfl

theorem rd_holdOver_ctrl (s : State) : rd (holdOver s) (rSEAL 0) = rd (wb s (rSEAL 0) 1 1 0) (rSEAL 0) :=
  rd_orBits_ne _ _ (by decide)

theorem holdOver_hold (s : State) : rbit (holdOver s) (rSEAL 0) 1 = false := by
  rw [rbit_congr (rd_holdOver_ctrl s), rbit, rn_wb_same _ _ _ _ _ (by decide), setBits_testBit]
  rfl

theorem holdOver_enable (s : State) : rbit (holdOver s) (rSEAL 0) 0 = rbit s (rSEAL 0) 0 :=
  (rbit_congr (rd_holdOver_ctrl s) 0).trans (rbit_wb_ne _ _ _ _ _ _ (by decide) (by decide))

theorem holdOver_expired (s : State) : rbit (holdOver s) (rSEAL 4) 2 = true := by
  rw [holdOver, rbit_orBits_same _ _ _ _ (by decide)]
  exact Bool.or_true _

theorem rd_holdOver {s : State} {k : Nat} (h0 : k ≠ rSEAL 0) (h4 : k ≠ rSEAL 4) : rd (holdOver s) k = rd s k := by
  rw [holdOver, rd_orBits_ne _ _ h4, rd_wb_ne _ _ _ _ h0]

/-! ## Seal passes -/

/-- The millisecond boundary: the event, a pass where the core domain is awake, a checkpoint (R58, R258, R305, R476). -/
theorem exec_msBoundary {s : State} (h : s.coreAwake = true) :
    exec .msBoundary s = .next { sendCkpt (ckptCheck (sealStart (event s 9))) with corrPause := false } := by
  have awake : (event s 9).coreAwake = true := ((event_same s 9).get_coreAwake rfl).trans h
  show Host.Outcome.next { sendCkpt (ckptCheck (if (event s 9).coreAwake then sealStart (event s 9) else event s 9)) with
    corrPause := false } = _
  rw [if_pos awake]

theorem rd_ckptCheck {s : State} {k : Nat} (hk : faultReg k = false) (h : k ≠ rMATE 0x58) : rd (ckptCheck s) k = rd s k := by
  unfold ckptCheck
  split
  · rfl
  · dsimp only
    split
    · rfl
    · exact rd_bump hk h

theorem exec_sealPassEnd {s : State} (h : s.coreAwake = true) : exec .sealPassEnd s = .next (sealEnd s) := by
  show Host.Outcome.next (if s.coreAwake then sealEnd s else s) = _
  rw [if_pos h]

/-- The state with a pass over and its CRC in SEAL_CUR (R59). -/
def passDone (s : State) : State :=
  wr { s with seal_ := { s.seal_ with passOn := false, voidRun := 0 } } (rSEAL 0x0C) (sealCrc s)

theorem passDone_mem (s : State) : (passDone s).mem = s.mem := by
  rw [passDone, wr_mem]

/-- A pass that no commit awaits leaves its CRC, and compares it where comparison is on (R59, R60). -/
theorem sealEnd_uncommitted {s : State} (ho : s.seal_.passOn = true) (hv : s.seal_.passVoid = false) (hc : sealCommits s = []) :
    sealEnd s = passDone s ∨ sealEnd s = sealCompare (passDone s) (sealCrc s) := by
  unfold sealEnd
  rw [if_neg (not_not_intro ho), if_neg (by rw [hv]; exact Bool.false_ne_true), hc]
  dsimp only [List.foldl_nil]
  split
  · exact Or.inr rfl
  · exact Or.inl rfl

/-- A comparison counts, and writes SEAL_STATUS where it finds a mismatch (R60). -/
theorem rd_sealCompare {s : State} {crc k : Nat} (hk : faultReg k = false) (h4 : k ≠ rSEAL 4) (h14 : k ≠ rSEAL 0x14)
    (h1c : k ≠ rSEAL 0x1C) : rd (sealCompare s crc) k = rd s k := by
  unfold sealCompare
  dsimp only
  split
  · exact rd_bump hk h1c
  · split
    · rw [rd_raise (by decide) hk, rd_orBits_ne _ _ h4, rd_bump hk h14]
      exact rd_bump hk h1c
    · rw [rd_bump hk h14]
      exact rd_bump hk h1c

/-- A comparison leaves the pass and the run of void passes. -/
theorem sealCompare_pass (s : State) (crc : Nat) :
    (sealCompare s crc).seal_.passOn = s.seal_.passOn ∧ (sealCompare s crc).seal_.voidRun = s.seal_.voidRun := by
  have counted (x : State) (o : Nat) : (bump x o).seal_ = x.seal_ := (bump_same x o 1).get_seal_ rfl
  have kept : (bump s (rSEAL 0x1C)).seal_.passOn = s.seal_.passOn ∧ (bump s (rSEAL 0x1C)).seal_.voidRun = s.seal_.voidRun := by
    rw [counted]
    exact ⟨rfl, rfl⟩
  unfold sealCompare
  dsimp only
  split
  · exact kept
  · split
    · rw [(raise_same _ _ _ _ 0 0).get_seal_ rfl, show ∀ x : State, (orBits x (rSEAL 4) 2).seal_ = x.seal_ from fun _ => rfl,
        counted]
      exact kept
    · rw [counted]
      exact kept

/-- Settles O10: the hold by its limit, the pass by its start, its void and its CRC. -/
theorem holdsAndSealPassesEnd : Obligations.HoldsAndSealPassesEnd := by
  have holdRun (s : State) : exec .holdExpired s = .next (if s.coreAwake then holdEnd s else s) := rfl
  refine ⟨fun s => ⟨fun ha h hdue hw hq => ?_, fun h => ?_⟩, fun s ha => ?_, fun s ha ho hv => ?_, fun s ha ho hv hc => ?_⟩
  · refine ⟨enqueue (holdOver s) (mkReport (holdOver s) srcSeal kHoldExpired (rSEAL 4) 0 0 false), ?_, holdOver_hold s, holdOver_enable s, holdOver_expired s,
      fun o _ hk => ?_, ?_, ?_⟩
    · rw [holdRun, if_pos ha, holdEnd_due h hdue hw hq]
    · simp only [List.mem_cons, List.not_mem_nil, or_false, not_or] at hk
      exact rd_holdOver hk.1 hk.2
    · exact enqueue_mkReport_fcol rfl rfl rfl srcSeal kHoldExpired (rSEAL 4) 0 0 false
    · rfl
  · rw [holdRun]
    rcases h with h | h
    · rw [h]
      rfl
    · rw [holdEnd_idle h, ite_self]
  · have c := ckptCheck_same (sealStart (event s 9))
    have d := sendCkpt_same (ckptCheck (sealStart (event s 9)))
    have e := event_same s 9
    have pass : (sendCkpt (ckptCheck (sealStart (event s 9)))).seal_ = (sealStart (event s 9)).seal_ :=
      (d.get_seal_ rfl).trans (c.get_seal_ rfl)
    refine ⟨_, exec_msBoundary ha, congrArg SealSt.passOn pass, congrArg SealSt.passVoid pass, rfl, fun o hf he hm => ?_,
      memKept_of_mem ((d.get_mem rfl).trans ((c.get_mem rfl).trans (e.get_mem rfl)))⟩
    show rd (sendCkpt (ckptCheck (sealStart (event s 9)))) o = _
    rw [rd_congr (d.get_regs rfl), rd_ckptCheck hf hm, show rd (sealStart (event s 9)) o = rd (event s 9) o from rfl,
      rd_event (by decide) hf he]
  · refine ⟨_, exec_sealPassEnd ha, ?_⟩
    rw [sealEnd, if_neg (not_not_intro ho), if_pos hv]
  · have crc : rd (passDone s) (rSEAL 0x0C) = wd (sealCrc s) := rd_wr_same ..
    have regs {k : Nat} (hk : k ≠ rSEAL 0x0C) : rd (passDone s) k = rd s k := rd_wr_ne _ _ hk
    refine ⟨_, exec_sealPassEnd ha, ?_⟩
    rcases sealEnd_uncommitted ho hv hc with e | e
    · rw [e]
      exact ⟨crc, rfl, rfl, fun o _ hk => regs (List.ne_of_not_mem_cons hk), memKept_of_mem (passDone_mem s)⟩
    · obtain ⟨hon, hrun⟩ := sealCompare_pass (passDone s) (sealCrc s)
      have mem : (sealCompare (passDone s) (sealCrc s)).mem = (passDone s).mem := (sealCompare_same _ _).get_mem rfl
      rw [e]
      refine ⟨?_, hon, hrun, fun o hf hk => ?_, memKept_of_mem (mem.trans (passDone_mem s))⟩
      · rw [rd_sealCompare (k := rSEAL 0x0C) (by decide) (by decide) (by decide) (by decide), crc]
      · simp only [List.mem_cons, List.not_mem_nil, or_false, not_or] at hk
        obtain ⟨hC, h4, h14, h1C⟩ := hk
        rw [rd_sealCompare hf h4 h14 h1C, regs hC]

end Sys2Proof.Machine
end

section
/-!
PROOFS. O8: reads of register words, and the shadow that a read of a lowest word latches.
-/
namespace Sys2Proof.Machine
open Sys2Proof

/-! ## The range of the register map -/

theorem findRow_mem {l : List RegRow} {o : Nat} {r : RegRow} {k w : Nat} (h : findRow l o = some (r, k, w)) : r ∈ l := by
  induction l with
  | nil => cases h
  | cons a l ih =>
    rw [findRow] at h
    split at h
    · cases h
      exact List.mem_cons_self
    · exact List.mem_cons_of_mem _ (ih h)

theorem findBlk_mem {l : List BlkRow} {o : Nat} {b : BlkRow} {n : Nat} (h : findBlk l o = some (b, n)) :
    b ∈ l ∧ o < b.base + b.stride * b.count := by
  induction l with
  | nil => cases h
  | cons a l ih =>
    rw [findBlk] at h
    split at h
    next hin =>
      cases h
      exact ⟨List.mem_cons_self, hin.2⟩
    next =>
      obtain ⟨hm, hlt⟩ := ih h
      exact ⟨List.mem_cons_of_mem _ hm, hlt⟩

theorem blocks_bound : ∀ b ∈ blocks, b.base + b.stride * b.count ≤ 0x980000 ∧ ∀ r ∈ b.rows, r.words ≤ 16 := by decide +kernel

theorem only_words (r : RegRow) (m : Nat) : (r.only m).words = r.words := rfl

/-- A register lies within the 16 MiB of a view, however many words it has (R8, R538). -/
theorem regInfo_bound {off : Nat} {i : RegInfo} (h : regInfo off = some i) : off + 4 * i.row.words < 2 ^ 24 := by
  have refs : ∀ r ∈ refRegs, r.words ≤ 16 := by decide +kernel
  unfold regInfo at h
  split at h
  next hin =>
    split at h
    next e =>
      cases h
      have hwords := refs _ (findRow_mem e)
      rw [only_words]
      omega
    next => cases h
  next =>
    split at h
    next hb =>
      split at h
      next e =>
        cases h
        obtain ⟨hm, hlt⟩ := findBlk_mem hb
        obtain ⟨hend, hrows⟩ := blocks_bound _ hm
        have hwords := hrows _ (findRow_mem e)
        dsimp only
        split
        · rw [only_words]
          omega
        · omega
      next => cases h
    next => cases h

/-! ## The shadow -/

theorem shadowOf_setShadow_same (s : State) (m o v : Nat) : shadowOf (setShadow s m o v) m o = v % 2 ^ 32 := by
  rw [shadowOf, setShadow, mget_mput_same]
  rfl

theorem shadowOf_setShadow_ne (s : State) {m o m' o' : Nat} (v : Nat) (h : copyKey m' o' ≠ copyKey m o) :
    shadowOf (setShadow s m o v) m' o' = shadowOf s m' o' := by
  rw [shadowOf, setShadow, mget_mput_ne _ _ _ h, shadowOf]

/-- The copies of different masters are different (R44, R45). -/
theorem copyKey_ne {m m' o o' : Nat} (hm : m' ≠ m) (ho : o < 2 ^ 24) (ho' : o' < 2 ^ 24) : copyKey m' o' ≠ copyKey m o := by
  unfold copyKey
  omega

theorem shadowOf_congr {s t : State} (h : t.shadow = s.shadow) (m o : Nat) : shadowOf t m o = shadowOf s m o := by
  rw [shadowOf, h, shadowOf]

/-- Latching leaves the words outside those that it latches. -/
theorem shadowOf_latchL_ne {s : State} {m o k v m' o' : Nat} (h : ∀ j < k, copyKey m' o' ≠ copyKey m (o + 4 * j)) :
    shadowOf (latchL s m o k v) m' o' = shadowOf s m' o' := by
  induction k generalizing s o v with
  | zero => rfl
  | succ k ih =>
    rw [latchL, ih fun j hj => by rw [Nat.add_assoc, Nat.add_comm 4, ← Nat.mul_succ]; exact h (j + 1) (by omega)]
    exact shadowOf_setShadow_ne _ _ (h 0 (by omega))

/-- Latching puts word after word of the value (R44). -/
theorem shadowOf_latchL {s : State} {m o k v j : Nat} (h : j < k) :
    shadowOf (latchL s m o k v) m (o + 4 * j) = v / 2 ^ (32 * j) % 2 ^ 32 := by
  induction k generalizing s o v j with
  | zero => omega
  | succ k ih =>
    rw [latchL]
    cases j with
    | zero =>
      rw [shadowOf_latchL_ne fun j _ => by unfold copyKey; omega, Nat.mul_zero, Nat.add_zero, shadowOf_setShadow_same, Nat.mod_mod]
      simp
    | succ j =>
      rw [show o + 4 * (j + 1) = o + 4 + 4 * j by omega, ih (by omega), Nat.div_div_eq_div_mul, ← pow_add]
      congr 3
      omega

/-! ## Reads -/

/-- The state after a read of the lowest word of a register: its higher words in the reading master's shadow, and of TIME the
R74 flags (R44, R72, R74). -/
def latched (s : State) (m off : Nat) (i : RegInfo) : State :=
  let t := latchL s m (off + 4) (i.row.words - 1) (masterVal s m i / 2 ^ 32)
  if off = rTIME 0x10 then setShadow t m (rTIME 0x20) (timeFlags s) else t

theorem readWord_lowest {off : Nat} {i : RegInfo} (hi : regInfo off = some i) (h0 : i.word = 0) (hf : off ≠ rTIME 0x20) (s : State)
    (m : Nat) : readWord s m off true = (latched s m off i, masterVal s m i % 2 ^ 32) := by
  have latch : (if ¬ i.row.words = 1 then latchL s m (off + 4) (i.row.words - 1) (masterVal s m i / 2 ^ 32) else s) =
      latchL s m (off + 4) (i.row.words - 1) (masterVal s m i / 2 ^ 32) := by
    split
    · rfl
    next h =>
      rw [not_not.1 h]
      rfl
  have flags (k v : Nat) : timeFlags (latchL s m (off + 4) k v) = timeFlags s := by
    rw [timeFlags, (latchL_same s m (off + 4) k v).get_time rfl, timeFlags]
  simp only [readWord, hi, if_neg hf, h0, ne_eq, not_true_eq_false, if_false, latch, flags, latched, true_and]

/-- A read of a higher word, and of the word at TIME_FLAGS, answers the shadow (R36, R74). -/
theorem readWord_shadow {off : Nat} {i : RegInfo} (hi : regInfo off = some i) (h : off = rTIME 0x20 ∨ i.word ≠ 0) (s : State)
    (m : Nat) (low : Bool) : readWord s m off low = (s, shadowOf s m off) := by
  simp only [readWord, hi]
  by_cases hf : off = rTIME 0x20
  · rw [if_pos hf]
  · rw [if_neg hf, if_pos (h.resolve_left hf)]

/-- An aligned read of 32 bits that wakes nothing is the read of its register word (R36). -/
theorem busRead_word {s : State} {off : Nat} (hx : inMsix off = false) (ha : off % 4 = 0) (ho : off < 2 ^ 24)
    (ht : coreTouch s off true = s) (m : Nat) :
    busRead s m off 32 = ((readWord s m off true).1, (readWord s m off true).2 % 2 ^ 32) := by
  have hw : off / 4 * 4 = off := by omega
  have e : busRead s m off 32 = busRead32 s m off 4 := rfl
  rw [e, busRead32]
  simp only [Nat.mod_eq_of_lt ho, hx, Bool.false_eq_true, and_false, if_false, hw, ht, ha, decide_true]
  rw [if_neg (by decide)]
  simp

/-- The address within its view decides what a read answers, but for the host's read of the endpoint's own range (R42, R540). -/
theorem busRead32_view {m a b bytes : Nat} (h : a % 2 ^ 24 = b % 2 ^ 24) (hx : ¬ (m = 1 ∧ inMsix (a % 2 ^ 24) = true)) (s : State) :
    busRead32 s m a bytes = busRead32 s m b bytes := by
  have one (c : Nat) (hc : ¬ (m = 1 ∧ inMsix (c % 2 ^ 24) = true)) : ¬ (m = 1 ∧ c < 2 ^ 24 ∧ inMsix (c % 2 ^ 24) = true) :=
    fun g => hc ⟨g.1, g.2.2⟩
  unfold busRead32
  dsimp only
  rw [if_neg (one a hx), if_neg (one b (by rw [← h]; exact hx)), h]

theorem busRead_view {m off view width : Nat} (ho : off < 2 ^ 24)
    (hx : ¬ (m = 1 ∧ (inMsix off = true ∨ inMsix ((off + 4) % 2 ^ 24) = true))) (s : State) :
    busRead s m (off + view * 2 ^ 24) width = busRead s m off width := by
  have first : (off + view * 2 ^ 24) % 2 ^ 24 = off := by omega
  have next : (off + view * 2 ^ 24 + 4) % 2 ^ 24 = (off + 4) % 2 ^ 24 := by omega
  have low (x : State) (bytes : Nat) : busRead32 x m (off + view * 2 ^ 24) bytes = busRead32 x m off bytes :=
    busRead32_view (by rw [first, Nat.mod_eq_of_lt ho]) (by rw [first]; exact fun g => hx ⟨g.1, .inl g.2⟩) x
  have high (x : State) : busRead32 x m (off + view * 2 ^ 24 + 4) 4 = busRead32 x m (off + 4) 4 :=
    busRead32_view next (by rw [next]; exact fun g => hx ⟨g.1, .inr g.2⟩) x
  unfold busRead
  simp only [low, high]

/-- A read of a register word with the NVS load over, which wakes nothing. -/
theorem readOut_word {s : State} {off : Nat} {i : RegInfo} (hn : s.nvsLoaded = true) (hi : regInfo off = some i) (ha : off % 4 = 0)
    (hp : pwrState s ≠ 1 ∨ aonAnswers off true = true) (m : Nat) :
    readOut s m off 32 = emit (readWord s m off true).1 (.data m ((readWord s m off true).2 % 2 ^ 32) 32) := by
  have ho : off < 2 ^ 24 := Nat.lt_of_le_of_lt (Nat.le_add_right _ _) (regInfo_bound hi)
  have ht : coreTouch s off true = s := hp.elim coreTouch_awake coreTouch_aon
  rw [readOut, if_neg (not_not_intro hn), busRead_word (regInfo_inMsix hi) ha ho ht]

/-- What a read of a lowest word latches: the higher words (R44). -/
theorem shadowOf_latched {s : State} {off : Nat} {i : RegInfo} {m j : Nat} (hj : j + 1 < i.row.words)
    (hf : off ≠ rTIME 0x10 ∨ j < 3) : shadowOf (latched s m off i) m (off + 4 * (j + 1)) = masterVal s m i / 2 ^ (32 * (j + 1)) % 2 ^ 32 := by
  have words : shadowOf (latchL s m (off + 4) (i.row.words - 1) (masterVal s m i / 2 ^ 32)) m (off + 4 * (j + 1)) =
      masterVal s m i / 2 ^ (32 * (j + 1)) % 2 ^ 32 := by
    rw [show off + 4 * (j + 1) = off + 4 + 4 * j by omega, shadowOf_latchL (by omega), Nat.div_div_eq_div_mul, ← pow_add,
      show 32 + 32 * j = 32 * (j + 1) by omega]
  unfold latched
  dsimp only
  split
  next ht =>
    rw [shadowOf_setShadow_ne _ _ fun e => by
      have h20 : rTIME 0x20 = rTIME 0x10 + 16 := rfl
      unfold copyKey at e
      omega]
    exact words
  next => exact words

/-- It leaves the shadows of the other masters. -/
theorem shadowOf_latched_other {s : State} {off : Nat} {i : RegInfo} {m m' o : Nat} (hi : regInfo off = some i) (hm : m' ≠ m)
    (ho : o < 2 ^ 24) : shadowOf (latched s m off i) m' o = shadowOf s m' o := by
  have hb := regInfo_bound hi
  have words : shadowOf (latchL s m (off + 4) (i.row.words - 1) (masterVal s m i / 2 ^ 32)) m' o = shadowOf s m' o :=
    shadowOf_latchL_ne fun j hj => copyKey_ne hm (by omega) ho
  unfold latched
  dsimp only
  split
  · rw [shadowOf_setShadow_ne _ _ (copyKey_ne hm (by decide) ho)]
    exact words
  · exact words

/-- It changes the shadow alone. -/
theorem latched_eq (s : State) (m off : Nat) (i : RegInfo) : latched s m off i = { s with shadow := (latched s m off i).shadow } := by
  have only (k v o : Nat) (x : State) : latchL x m o k v = { x with shadow := (latchL x m o k v).shadow } := by
    induction k generalizing x o v with
    | zero => rfl
    | succ k ih => rw [latchL, ih]; rfl
  unfold latched
  dsimp only
  split
  · rw [only]; rfl
  · exact only ..

/-- What the map says of TIME (R71). -/
def timeInfo : RegInfo := ⟨.time, 0, { off := 0x10, words := 4, posted := true }, 0, 0, rTIME 0x10⟩

theorem regInfo_time : regInfo (rTIME 0x10) = some timeInfo := by decide +kernel

/-- What the map says of TIME_FLAGS (R74). -/
theorem regInfo_timeFlags : regInfo (rTIME 0x20) = some ⟨.time, 0, { off := 0x20, posted := true }, 0, 0, rTIME 0x20⟩ := by
  decide +kernel

/-- A read of TIME latches the R74 flags. -/
theorem shadowOf_latched_flags (s : State) (m : Nat) : shadowOf (latched s m (rTIME 0x10) timeInfo) m (rTIME 0x20) = timeFlags s := by
  have bit (b : Bool) : b2n b ≤ 1 := by cases b <;> decide
  have fits : timeFlags s < 2 ^ 32 := by
    have h0 := bit (!s.time.interp)
    have h1 := bit s.time.notSet
    have h2 := bit s.time.holdover
    have h3 := bit (decide (s.time.slewRem ≠ 0))
    unfold timeFlags
    omega
  unfold latched
  dsimp only
  rw [if_pos rfl, shadowOf_setShadow_same, Nat.mod_eq_of_lt fits]

/-- TIME shows device time in the T format, no core reading another module's (R71, R474). -/
theorem masterVal_time (s : State) (m : Nat) : masterVal s m timeInfo = tFormat (readT s) 0 := by
  rw [masterVal, if_neg (by simp [mirrored, timeInfo])]
  rfl

/-- A read of a lowest word: the answer, and the shadow (R44). -/
theorem readOut_lowest {s : State} {off : Nat} {i : RegInfo} (hn : s.nvsLoaded = true) (hi : regInfo off = some i) (ha : off % 4 = 0)
    (h0 : i.word = 0) (hf : off ≠ rTIME 0x20) (hp : pwrState s ≠ 1 ∨ aonAnswers off true = true) (m : Nat) :
    readOut s m off 32 =
      { s with shadow := (latched s m off i).shadow, out := .data m (masterVal s m i % 2 ^ 32) 32 :: s.out } := by
  rw [readOut_word hn hi ha hp, readWord_lowest hi h0 hf, Nat.mod_mod]
  exact congrArg (emit · _) (latched_eq s m off i)

/-- A read that answers the shadow. -/
theorem readOut_shadow {s : State} {off : Nat} {i : RegInfo} (hn : s.nvsLoaded = true) (hi : regInfo off = some i) (ha : off % 4 = 0)
    (h : off = rTIME 0x20 ∨ i.word ≠ 0) (hp : pwrState s ≠ 1 ∨ aonAnswers off true = true) (m : Nat) :
    readOut s m off 32 = { s with out := .data m (shadowOf s m off) 32 :: s.out } := by
  have fits : shadowOf s m off % 2 ^ 32 = shadowOf s m off := Nat.mod_eq_of_lt (BitVec.isLt _)
  rw [readOut_word hn hi ha hp, readWord_shadow hi h, fits]
  rfl

/-- Settles O8: a lowest word latches, a higher one answers the shadow, and the view does not matter. -/
theorem readsAnswerLiveWordAndShadow : Obligations.ReadsAnswerLiveWordAndShadow := by
  have runs (m : Master) (a w : Nat) (k : CycIx) (s : State) :
      exec (.shadowLatchRead m a w k) s = .next (readOut (atCyc s k) m a w) := rfl
  refine ⟨⟨fun m k s hn => ⟨?_, ?_⟩, fun m off k s i hn ha ho hi h0 hf hp => ?_⟩,
    fun m off k s i hn ha _ hi hw hp => ?_, fun m off view width k s ho _ hx => ?_⟩
  · have run := readOut_lowest (s := atCyc s k) hn regInfo_time (by decide) rfl (by decide) (.inr (by decide +kernel)) m
    have words (j : Nat) (hj : j < 3) := shadowOf_latched (s := atCyc s k) (m := m) (off := rTIME 0x10) (i := timeInfo)
      (j := j) (Nat.succ_lt_succ hj) (.inr hj)
    rw [masterVal_time] at run words
    refine ⟨_, congrArg Host.Outcome.next run, rfl, fun j hj => ?_, ?_, fun m' hm o ho => ?_, rfl⟩
    · rw [show rTIME (0x14 + 4 * j) = rTIME 0x10 + 4 * (j + 1) by unfold rTIME; omega]
      exact words j hj
    · exact shadowOf_latched_flags (atCyc s k) m
    · exact shadowOf_latched_other regInfo_time (fun e => hm (Fin.ext e)) ho
  · exact ⟨_, runs .., readOut_shadow (s := atCyc s k) hn regInfo_timeFlags (by decide) (.inl rfl) (.inr (by decide +kernel)) m⟩
  · refine ⟨_, (runs ..).trans (congrArg Host.Outcome.next (readOut_lowest (s := atCyc s k) hn hi ha h0 hf hp m)), rfl,
      fun j hj => ?_, fun m' hm o ho => shadowOf_latched_other hi (fun e => hm (Fin.ext e)) ho, rfl⟩
    refine shadowOf_latched (s := atCyc s k) hj ?_
    by_cases ht : off = rTIME 0x10
    · rw [ht, regInfo_time] at hi
      cases hi
      exact .inr (Nat.lt_of_succ_lt_succ hj)
    · exact .inl ht
  · exact ⟨_, runs .., readOut_shadow (s := atCyc s k) hn hi ha (.inr hw) hp m⟩
  · rw [runs, runs, readOut, readOut, busRead_view ho hx]

end Sys2Proof.Machine
end

section
/-!
PROOFS. What the completion of a command shows and leaves (R346): the event, the record in its ring, the slot.
-/
namespace Sys2Proof.Machine
open Sys2Proof

/-! ## The event of all cores -/

/-- Steps of which one establishes a property that every one keeps. -/
theorem upto_establishes (P : State → Prop) {f : State → Nat → State} {n m : Nat} (keep : ∀ x a, P x → P (f x a))
    (make : ∀ x, P (f x n)) (hn : n < m) (s : State) : P (upto m f s) := by
  have kept : ∀ (l : List Nat) (x : State), P x → P (l.foldl f x) := by
    intro l
    induction l with
    | nil => exact fun _ h => h
    | cons a l ih => exact fun x h => ih _ (keep x a h)
  have made : ∀ (l : List Nat) (x : State), n ∈ l → P (l.foldl f x) := by
    intro l
    induction l with
    | nil => exact fun _ h => nomatch h
    | cons a l ih =>
      intro x h
      rcases List.mem_cons.1 h with rfl | h
      · exact kept l _ (make x)
      · exact ih _ h
  exact made _ s (List.mem_range.2 hn)

theorem rbit_orBits_of_set {s : State} {o k m i : Nat} (hm : m < 2 ^ 32) (h : rbit s k i = true) : rbit (orBits s o m) k i = true := by
  by_cases e : k = o
  · rw [e, rbit_orBits_same _ _ _ _ hm, ← e, h, Bool.true_or]
  · rw [rbit_congr (rd_orBits_ne _ _ e), h]

/-- The registers of an event bit are none of those of the counts of events, and no report's. -/
theorem evtOff_plain (n b m : Nat) : faultReg (rSEQ n (0x30 + 4 * (b / 32))) = false ∧
    (b < 64 → rSEQ n (0x30 + 4 * (b / 32)) ≠ rSEQ m 0x38) := by
  unfold rSEQ
  refine ⟨?_, fun hb => by omega⟩
  simp only [faultReg, decide_eq_false_iff_not]
  omega

/-- An event bit that is set stays set while others are set (R305). -/
theorem evtBit_keeps {s : State} {n m b : Nat} (hb : b < 64) (h : rbit s (rSEQ n (0x30 + 4 * (b / 32))) (b % 32) = true) :
    rbit (evtBit s m b) (rSEQ n (0x30 + 4 * (b / 32))) (b % 32) = true := by
  obtain ⟨hf, hc⟩ := evtOff_plain n b m
  unfold evtBit
  dsimp only
  split
  · rw [rbit_congr (rd_bump hf (hc hb)), h]
  · exact rbit_orBits_of_set (Nat.pow_lt_pow_right (by decide) (by omega)) h

theorem evtBit_sets {s : State} {n b : Nat} (hb : b < 64) :
    rbit (evtBit s n b) (rSEQ n (0x30 + 4 * (b / 32))) (b % 32) = true := by
  obtain ⟨hf, hc⟩ := evtOff_plain n b n
  unfold evtBit
  dsimp only
  split
  next h => rw [rbit_congr (rd_bump hf (hc hb)), h]
  next =>
    rw [rbit_orBits_same _ _ _ _ (Nat.pow_lt_pow_right (by decide) (by omega)), Nat.testBit_two_pow_self, Bool.or_true]

/-- An event that no mate mirrors is pending at every core (R305). -/
theorem event_sets {s : State} {b n : Nat} (hb : b < 64) (hm : evtMirrored b = false) (hn : n < 8) :
    rbit (event s b) (rSEQ n (0x30 + 4 * (b / 32))) (b % 32) = true := by
  have every (x : State) (a : Nat) :
      (if evtMirrored b = true ∧ x.standby = true ∧ rbit x (rSEQ a 0) 3 = true then x else evtBit x a b) = evtBit x a b :=
    if_neg fun h => Bool.false_ne_true (hm.symm.trans h.1)
  unfold event
  dsimp only
  rw [if_neg fun h => Bool.false_ne_true (hm.symm.trans h.1)]
  refine upto_establishes (fun x => rbit x (rSEQ n (0x30 + 4 * (b / 32))) (b % 32) = true) (fun x a h => ?_) (fun x => ?_) hn s
  · rw [every]
    exact evtBit_keeps hb h
  · rw [every]
    exact evtBit_sets hb

/-! ## A record that is presented to a ring -/

theorem ring_setRing (s : State) (n m : Nat) (x : RingSt) : ring (setRing s n x) m = if m = n then x else ring s m := mget_mput ..

theorem ring_congr {s t : State} (h : t.rings = s.rings) (n : Nat) : ring t n = ring s n := by
  rw [ring, h, ring]

/-- What a ring counts as presented is not changed by OVER_TH and the requests of the channels that drain it. -/
theorem admitted_ringOver (s : State) (n m : Nat) : (ring (ringOver s n) m).admitted = (ring s m).admitted := by
  have drains : ((drainsOf s n).foldl drainEval s).rings = s.rings :=
    foldl_kept (f := drainEval) (g := State.rings) (fun _ _ => rfl) _ s
  have kept (x : State) (ov : Bool) (hx : x.rings = s.rings) :
      (ring (setRing x n { ring x n with overTh := ov }) m).admitted = (ring s m).admitted := by
    rw [ring_setRing]
    split
    next e => rw [ring_congr hx, e]
    next => rw [ring_congr hx]
  unfold ringOver
  dsimp only
  split
  · rw [ring_congr drains]
  · split
    · rw [ring_congr ((event_same _ _).get_rings rfl), kept _ _ drains]
    · exact kept _ _ drains

/-- A record that is presented is counted, whatever its fate (R279, R284). -/
theorem admitted_ringTake (x : RingSt) (f : RingFate) (token : Bool) :
    (ringTake x f token).admitted = (x.admitted + 1) % 2 ^ 64 := by
  cases f <;> rfl

theorem admitted_ringPresent (s : State) (n colour : Nat) (mk : Nat → Nat → Nat → List Byte) :
    (ring (ringPresent s n colour mk).1 n).admitted = ((ring s n).admitted + 1) % 2 ^ 64 := by
  have taken (f : RingFate) (token : Bool) :
      (ring (setRing s n (ringTake (ring s n) f token)) n).admitted = ((ring s n).admitted + 1) % 2 ^ 64 := by
    rw [ring_setRing, if_pos rfl, admitted_ringTake]
  unfold ringPresent
  dsimp only
  split
  · rw [admitted_ringOver, ring_congr ((setMbs_same _ _ _).get_rings rfl), taken]
  · exact taken _ _

theorem rd_ringOver {s : State} {n o : Nat} (hn : n < 32) (hf : faultReg o = false) (he : evtRegs o = false) :
    rd (ringOver s n) o = rd s o := by
  have drains : ((drainsOf s n).foldl drainEval s).regs = s.regs :=
    foldl_kept (f := drainEval) (g := State.regs) (fun _ _ => rfl) _ s
  unfold ringOver
  dsimp only
  split
  · exact rd_congr drains o
  · split
    · rw [rd_event (by omega) hf he]
      exact rd_congr drains o
    · exact rd_congr drains o

/-- A record that is presented changes the ring's status and the registers of events. -/
theorem rd_ringPresent {s : State} {n colour o : Nat} {mk : Nat → Nat → Nat → List Byte} (hn : n < 32) (hf : faultReg o = false)
    (he : evtRegs o = false) (h4 : o ≠ rRING n 4) : rd (ringPresent s n colour mk).1 o = rd s o := by
  unfold ringPresent
  dsimp only
  split
  · rw [rd_ringOver hn hf he, rd_congr ((setMbs_same _ _ _).get_regs rfl)]
    rfl
  · exact rd_orBits_ne _ _ h4

theorem ringRoute_lt (s : State) (kind : Nat) : ringRoute s kind < 16 := Nat.mod_lt _ (by decide)

theorem ringRoute_congr {s t : State} (h : rd t 0x708040 = rd s 0x708040) (kind : Nat) : ringRoute t kind = ringRoute s kind :=
  rb_congr h _ _

/-- Registers that no report, event or ring changes. -/
structure Quiet (o : Nat) : Prop where
  fault : faultReg o = false
  evt : evtRegs o = false
  ring : ∀ n < 16, o ≠ rRING n 4

theorem rd_presentInternal {s : State} {kind type len time flags w10 w14 w18 w1c o : Nat} {hdr : List Byte} (h : Quiet o) :
    rd (presentInternal s kind type len time flags w10 w14 w18 w1c hdr) o = rd s o :=
  rd_ringPresent (Nat.lt_trans (ringRoute_lt s kind) (by decide)) h.fault h.evt (h.ring _ (ringRoute_lt s kind))

theorem admitted_presentInternal (s : State) (kind type len time flags w10 w14 w18 w1c : Nat) (hdr : List Byte) :
    (ring (presentInternal s kind type len time flags w10 w14 w18 w1c hdr) (ringRoute s kind)).admitted =
      ((ring s (ringRoute s kind)).admitted + 1) % 2 ^ 64 := admitted_ringPresent ..

/-! ## What a completion shows -/

/-- The command's completion register shows the completion (R346, R354). -/
def cmdCpl (s : State) (k : Nat) (x : Slot) (status result : Nat) : State :=
  wr (wr s (rCPL k) (k + x.gen * 4096 + status * 65536 + 0x1000000)) (rCPL k + 4) (result % 2 ^ 32)

theorem cmdCpl_same (s : State) (k : Nat) (x : Slot) (status result : Nat) : Same 16 s (cmdCpl s k x status result) :=
  (wr_same _ _ _).trans (wr_same _ _ _)

/-- The completion register and the record. -/
def cmdRecord (s : State) (k : Nat) (x : Slot) (status result : Nat) : State :=
  let t := cmdCpl s k x status result
  presentInternal t 3 6 0 (readT t) (timeFlags t) (k + x.gen * 4096 + status * 65536 + x.w0 % 256 * 2 ^ 24)
    (result % 2 ^ 32) x.master (tNs x.acc) []

theorem cmdRecord_same (s : State) (k : Nat) (x : Slot) (status result : Nat) :
    Same 141029613249552 s (cmdRecord s k x status result) :=
  ((cmdCpl_same s k x status result).mono rfl).trans (presentInternal_same ..)

theorem rd_cmdRecord {s : State} {k o : Nat} {x : Slot} {status result : Nat} (h : Quiet o) :
    rd (cmdRecord s k x status result) o = rd (cmdCpl s k x status result) o := rd_presentInternal h

/-- The completion register, the record and the message (R346, R347, R532). -/
def cmdShown (s : State) (k : Nat) (x : Slot) (status result : Nat) : State :=
  let t := cmdRecord s k x status result
  if x.w0.testBit 8 ∧ x.master = 1 then sendMsix t (rb t (rCMD 0x18) 0 6) else t

/-- The message changes the PBA or what leaves the module. -/
theorem cmdShown_ofRecord (s : State) (k : Nat) (x : Slot) (status result : Nat) :
    Same 175921860444160 (cmdRecord s k x status result) (cmdShown s k x status result) := by
  unfold cmdShown
  dsimp only
  split
  · exact sendMsix_same _ _
  · exact Same.refl _ _

theorem cmdShown_same (s : State) (k : Nat) (x : Slot) (status result : Nat) :
    Same 176213985338384 s (cmdShown s k x status result) :=
  ((cmdRecord_same s k x status result).mono rfl).trans ((cmdShown_ofRecord s k x status result).mono rfl)

theorem rd_cmdShown {s : State} {k o : Nat} {x : Slot} {status result : Nat} (h : Quiet o) :
    rd (cmdShown s k x status result) o = rd (cmdCpl s k x status result) o := by
  rw [rd_congr ((cmdShown_ofRecord s k x status result).get_regs rfl), rd_cmdRecord h]

/-- The faults of TIMEOUT and FAILED. -/
def cmdFaults (s : State) (k : Nat) (x : Slot) (status : Nat) : State :=
  let t := if status = 7 then raise s srcCmd kTimeout (x.w0 % 256 + k * 256) else s
  if status = 6 then raise t srcCmd kFailed (x.w0 % 256 + k * 256) else t

theorem cmdReport_eq (s : State) (k : Nat) (x : Slot) (status result : Nat) :
    cmdReport s k x status result = cmdFaults (event (cmdShown s k x status result) 63) k x status := rfl

theorem rd_cmdFaults {s : State} {k o : Nat} {x : Slot} {status : Nat} (h : faultReg o = false) :
    rd (cmdFaults s k x status) o = rd s o := by
  have timeout : rd (if status = 7 then raise s srcCmd kTimeout (x.w0 % 256 + k * 256) else s) o = rd s o := by
    split
    · exact rd_raise (by decide) h
    · rfl
  unfold cmdFaults
  dsimp only
  split
  · rw [rd_raise (by decide) h, timeout]
  · exact timeout

theorem cmdFaults_same (s : State) (k : Nat) (x : Slot) (status : Nat) : Same 8208 s (cmdFaults s k x status) := by
  have timeout : Same 8208 s (if status = 7 then raise s srcCmd kTimeout (x.w0 % 256 + k * 256) else s) := by
    split
    · exact raise_same s srcCmd kTimeout (x.w0 % 256 + k * 256) 0 0
    · exact Same.refl _ _
  unfold cmdFaults
  dsimp only
  split
  · exact timeout.trans (raise_same _ srcCmd kFailed (x.w0 % 256 + k * 256) 0 0)
  · exact timeout

theorem rd_cmdReport {s : State} {k o : Nat} {x : Slot} {status result : Nat} (h : Quiet o) :
    rd (cmdReport s k x status result) o = rd (cmdCpl s k x status result) o := by
  rw [cmdReport_eq, rd_cmdFaults h.fault, rd_event (by decide) h.fault h.evt, rd_cmdShown h]

theorem rd_cmdReport_ne {s : State} {k o : Nat} {x : Slot} {status result : Nat} (h : Quiet o) (h0 : o ≠ rCPL k)
    (h4 : o ≠ rCPL k + 4) : rd (cmdReport s k x status result) o = rd s o := by
  rw [rd_cmdReport h, cmdCpl, rd_wr_ne _ _ h4, rd_wr_ne _ _ h0]

theorem evtRegs_of_lt {o : Nat} (h : o < 0x900000) : evtRegs o = false := by
  refine Bool.eq_false_iff.2 fun he => ?_
  obtain ⟨n, -, hn⟩ := List.any_eq_true.1 he
  have hn := of_decide_eq_true hn
  unfold rSEQ at hn
  omega

/-- The registers below the fault collector's and those between it and the rings' are quiet, the fault injection's apart. -/
theorem quiet_of_lt {o : Nat} (h : 0x18C ≤ o) (h1 : o < 0x30000 ∨ 0x38000 ≤ o) (h2 : o < 0x700000) : Quiet o where
  fault := by
    simp only [faultReg, decide_eq_false_iff_not]
    omega
  evt := evtRegs_of_lt (by omega)
  ring n _ := by
    unfold rRING
    omega

theorem quiet_ringRoute : Quiet 0x708040 where
  fault := by decide
  evt := evtRegs_of_lt (by decide)
  ring n _ := by
    unfold rRING
    omega

theorem quiet_rCPL {k j : Nat} (hk : k < 64) (hj : j ≤ 4) : Quiet (rCPL k + j) :=
  quiet_of_lt (by unfold rCPL rCMD; omega) (by unfold rCPL rCMD; omega) (by unfold rCPL rCMD; omega)

/-- CMD_CPL after a completion (R346, R354). -/
theorem rn_cmdReport_cpl {s : State} {k : Nat} {x : Slot} {status result : Nat} (hk : k < 64) :
    rn (cmdReport s k x status result) (rCPL k) = (k + x.gen * 4096 + status * 65536 + 2 ^ 24) % 2 ^ 32 ∧
      rn (cmdReport s k x status result) (rCPL k + 4) = result % 2 ^ 32 := by
  constructor
  · rw [rn, rd_cmdReport (o := rCPL k) (quiet_rCPL (j := 0) hk (by decide)), cmdCpl, rd_wr_ne _ _ (by omega), rd_wr_same, wd,
      BitVec.toNat_ofNat, show (0x1000000 : Nat) = 2 ^ 24 by decide]
  · rw [rn, rd_cmdReport (quiet_rCPL hk le_rfl), cmdCpl, rd_wr_same]
    exact Nat.mod_mod _ _

/-- The record counts as presented to the ring of RING_ROUTE.COMPLETION (R278, R279). -/
theorem admitted_cmdReport (s : State) {k : Nat} (hk : k < 64) (x : Slot) (status result : Nat) :
    (ring (cmdReport s k x status result) (ringRoute s 3)).admitted = ((ring s (ringRoute s 3)).admitted + 1) % 2 ^ 64 := by
  have route : ringRoute (cmdCpl s k x status result) 3 = ringRoute s 3 :=
    ringRoute_congr (by rw [cmdCpl, rd_wr_ne _ _ (by unfold rCPL rCMD; omega), rd_wr_ne _ _ (by unfold rCPL rCMD; omega)]) 3
  have record : (ring (cmdRecord s k x status result) (ringRoute (cmdCpl s k x status result) 3)).admitted = _ :=
    admitted_presentInternal ..
  rw [route, ring_congr ((cmdCpl_same s k x status result).get_rings rfl)] at record
  rw [cmdReport_eq, ring_congr ((cmdFaults_same _ _ _ _).get_rings rfl), ring_congr ((event_same _ _).get_rings rfl),
    ring_congr ((cmdShown_ofRecord s k x status result).get_rings rfl), record]

/-- CMD_DONE is pending at every core (R305, R346). -/
theorem cmdReport_event (s : State) (k : Nat) (x : Slot) (status result : Nat) {n : Nat} (hn : n < 8) :
    rbit (cmdReport s k x status result) (rSEQ n 0x34) 31 = true := by
  have hf : faultReg (rSEQ n 0x34) = false := (evtOff_plain n 63 0).1
  rw [cmdReport_eq, rbit_congr (rd_cmdFaults hf)]
  exact event_sets (b := 63) (by decide) rfl hn

end Sys2Proof.Machine
end

section
/-!
PROOFS. What a completed command leaves behind: its slot, its fault, the hold that it ends.
-/
namespace Sys2Proof.Machine
open Sys2Proof

/-! ## The reports of a completion -/

theorem intakeOf_cmdShown {s : State} {k q : Nat} {x : Slot} {status result : Nat} (hq : q ≠ srcCnt) :
    intakeOf (cmdShown s k x status result) q = intakeOf s q := by
  have record : intakeOf (cmdRecord s k x status result) q = intakeOf (cmdCpl s k x status result) q := intakeOf_ringPresent hq
  rw [intakeOf_congr ((cmdShown_ofRecord s k x status result).get_fcol rfl), record,
    intakeOf_congr ((cmdCpl_same s k x status result).get_fcol rfl)]

/-- A completion reports as 0xDD alone. -/
theorem intakeOf_cmdReport {s : State} {k q : Nat} {x : Slot} {status result : Nat} (hq : q ≠ srcCnt) (hc : srcCmd ≠ q) :
    intakeOf (cmdReport s k x status result) q = intakeOf s q := by
  have faults (t : State) : intakeOf (cmdFaults t k x status) q = intakeOf t q := by
    unfold cmdFaults
    dsimp only
    split
    · rw [intakeOf_raise_ne hc hq]
      split
      · exact intakeOf_raise_ne hc hq
      · rfl
    · split
      · exact intakeOf_raise_ne hc hq
      · rfl
  rw [cmdReport_eq, faults, intakeOf_event hq, intakeOf_cmdShown hq]

/-- TIMEOUT is reported where 0xDD has room (R348, R416). -/
theorem cmdReport_timeout {s : State} {k : Nat} {x : Slot} {result : Nat} (hq : queueFull s srcCmd = false) :
    mkReport s srcCmd kTimeout (x.w0 % 256 + k * 256) 0 0 false ∈ intakeOf (cmdReport s k x 7 result) srcCmd := by
  have shown := cmdShown_same s k x 7 result
  have ev := event_same (cmdShown s k x 7 result) 63
  have room : queueFull (event (cmdShown s k x 7 result) 63) srcCmd = false :=
    (queueFull_of_intakeOf ((intakeOf_event (by decide)).trans (intakeOf_cmdShown (by decide)))).trans hq
  have fault : cmdReport s k x 7 result = raise (event (cmdShown s k x 7 result) 63) srcCmd kTimeout (x.w0 % 256 + k * 256) := rfl
  rw [fault, raise_eq room, intakeOf_enqueue_same (q := srcCmd) _ rfl,
    mkReport_congr ((ev.get_time rfl).trans (shown.get_time rfl)) ((ev.get_cyc rfl).trans (shown.get_cyc rfl))]
  exact List.mem_append_right _ List.mem_cons_self

/-! ## The slot and the hold -/

theorem ownDrain_nil {s : State} (n : Nat) (h : s.cmd.own = []) : ownDrain n s = s := by
  cases n with
  | zero => rfl
  | succ n => rw [ownDrain, h]

/-- The state at the completion of a command: reported, its slot free, the hold over where it was a SEAL_COMMIT that ended with OK
or LOCKED (R61, R346). -/
def cmdEnded (s : State) (k : Nat) (x : Slot) (status result : Nat) : State :=
  let t := slotFree (cmdReport s k x status result) k
  if x.w0 % 256 = 0x0B ∧ (status = 0 ∨ status = 2) then holdClear t else t

theorem cmdEnded_same (s : State) (k : Nat) (x : Slot) (status result : Nat) :
    Same 4112 (slotFree (cmdReport s k x status result) k) (cmdEnded s k x status result) := by
  unfold cmdEnded
  dsimp only
  split
  · exact holdClear_same _
  · exact Same.refl _ _

/-- A completion while the module has no command of its own waiting (R350). -/
theorem cmdComplete_eq {s : State} {k : Nat} {x : Slot} {status result : Nat} (h : s.cmd.own = []) :
    cmdComplete s k x status result = rideStored (cmdEnded s k x status result) x := by
  have own : (rideStored (cmdEnded s k x status result) x).cmd.own = [] := by
    rw [(rideStored_same _ x).get_cmd rfl, (cmdEnded_same s k x status result).get_cmd rfl]
    show (cmdReport s k x status result).cmd.own = []
    rw [(cmdReport_same s k x status result).get_cmd rfl, h]
  exact ownDrain_nil 2 own

/-- A completion changes, behind its report, registers of the seal and of the power alone. -/
theorem cmdComplete_afterReport {s : State} {k : Nat} {x : Slot} {status result : Nat} (h : s.cmd.own = []) :
    Same 2199023259664 (slotFree (cmdReport s k x status result) k) (cmdComplete s k x status result) := by
  rw [cmdComplete_eq h]
  exact ((cmdEnded_same s k x status result).mono rfl).trans ((rideStored_same _ x).mono rfl)

theorem rd_rideStored {s : State} {x : Slot} {o : Nat} (h : o ≠ rPWR 4) : rd (rideStored s x) o = rd s o := by
  unfold rideStored
  split
  · dsimp only
    split
    · exact rd_orBits_ne _ _ h
    · rfl
  · rfl

theorem rd_holdClear {s : State} {o : Nat} (h0 : o ≠ rSEAL 0) (h4 : o ≠ rSEAL 4) : rd (holdClear s) o = rd s o := by
  unfold holdClear
  split
  · exact rd_orBits_ne _ _ h4
  · exact rd_wb_ne _ _ _ _ h0

theorem rd_cmdComplete {s : State} {k o : Nat} {x : Slot} {status result : Nat} (h : s.cmd.own = []) (hp : o ≠ rPWR 4)
    (h0 : o ≠ rSEAL 0) (h4 : o ≠ rSEAL 4) : rd (cmdComplete s k x status result) o = rd (cmdReport s k x status result) o := by
  rw [cmdComplete_eq h, rd_rideStored hp]
  unfold cmdEnded
  dsimp only
  split
  · exact rd_holdClear h0 h4
  · rfl

theorem intakeOf_cmdComplete {s : State} {k : Nat} {x : Slot} {status result : Nat} (h : s.cmd.own = []) (q : Nat) :
    intakeOf (cmdComplete s k x status result) q = intakeOf (cmdReport s k x status result) q :=
  intakeOf_congr ((cmdComplete_afterReport h).get_fcol rfl) q

/-- SEAL_REF stands as it stood. -/
theorem rd_cmdComplete_sealRef {s : State} {k : Nat} {x : Slot} {status result : Nat} (hk : k < 64) (h : s.cmd.own = []) :
    rd (cmdComplete s k x status result) (rSEAL 8) = rd s (rSEAL 8) := by
  have quiet : Quiet (rSEAL 8) := quiet_of_lt (by decide) (by decide) (by decide)
  rw [rd_cmdComplete h (by decide) (by decide) (by decide),
    rd_cmdReport_ne quiet (by unfold rCPL rCMD rSEAL; omega) (by unfold rCPL rCMD rSEAL; omega)]

/-- A SEAL_COMMIT that ends with LOCKED ends the hold, where software does not write SEAL_CTRL in the same cycle (R61). -/
theorem cmdComplete_endsHold {s : State} {k : Nat} {x : Slot} {result : Nat} (h : s.cmd.own = []) (hop : x.w0 % 256 = 0x0B)
    (hw : softWrote s (rSEAL 0) = false) :
    (cmdComplete s k x 2 result).seal_ = s.seal_ ∧ rbit (cmdComplete s k x 2 result) (rSEAL 0) 1 = false := by
  have report := cmdReport_same s k x 2 result
  have hw' : softWrote (slotFree (cmdReport s k x 2 result) k) (rSEAL 0) = false := by
    show softWrote (cmdReport s k x 2 result) (rSEAL 0) = false
    rw [softWrote, report.get_cycle rfl, report.get_time rfl, report.get_cyc rfl]
    exact hw
  have ended : cmdEnded s k x 2 result = wb (slotFree (cmdReport s k x 2 result) k) (rSEAL 0) 1 1 0 := by
    unfold cmdEnded
    dsimp only
    rw [if_pos ⟨hop, .inr rfl⟩, holdClear, hw']
    rfl
  rw [cmdComplete_eq h, (rideStored_same _ x).get_seal_ rfl, rbit_congr (rd_rideStored (by decide)), ended]
  refine ⟨report.get_seal_ rfl, ?_⟩
  rw [rbit, rn_wb_same _ _ _ _ _ (by decide), setBits_testBit]
  rfl

/-! ## Completed slots -/

/-- What of a state the report of a completion rests on. -/
structure CmdAgree (s u : State) : Prop where
  cmd : u.cmd = s.cmd
  rings : u.rings = s.rings
  route : rd u 0x708040 = rd s 0x708040

theorem CmdAgree.of_same {M : Nat} {s u : State} (h : Same M s u) (e4 : M.testBit 4 = false) (e26 : M.testBit 26 = false)
    (e37 : M.testBit 37 = false) : CmdAgree s u := ⟨h.get_cmd e37, h.get_rings e26, rd_congr (h.get_regs e4) _⟩

theorem CmdAgree.trans {s t u : State} (h : CmdAgree s t) (g : CmdAgree t u) : CmdAgree s u :=
  ⟨g.cmd.trans h.cmd, g.rings.trans h.rings, g.route.trans h.route⟩

theorem CmdAgree.atCyc (s : State) (c : CycIx) : CmdAgree s (atCyc s c) := ⟨rfl, rfl, rfl⟩

/-- A completion shows all that R346 says of it. -/
theorem cmdComplete_completed {s u : State} {k : Nat} (hk : k < 64) (ho : s.cmd.own = []) (h : CmdAgree s u) (x : Slot)
    (status result : Nat) : SlotCompleted s (cmdComplete u k x status result) k x status result := by
  have hu : u.cmd.own = [] := by rw [h.cmd, ho]
  have after := cmdComplete_afterReport (k := k) (x := x) (status := status) (result := result) hu
  have report := cmdReport_same u k x status result
  obtain ⟨word0, word1⟩ := rn_cmdReport_cpl (s := u) (x := x) (status := status) (result := result) hk
  have cmd : (cmdComplete u k x status result).cmd = (slotFree u k).cmd := by
    rw [after.get_cmd rfl, slotFree, report.get_cmd rfl, slotFree]
  have route : ringRoute u 3 = ringRoute s 3 := ringRoute_congr h.route 3
  refine ⟨?_, ?_, ?_, ?_, ?_, fun n hn => ?_⟩
  · rw [rn, rd_cmdComplete hu (by unfold rCPL rCMD rPWR; omega) (by unfold rCPL rCMD rSEAL; omega)
      (by unfold rCPL rCMD rSEAL; omega)]
    exact word0
  · rw [rn, rd_cmdComplete hu (by unfold rCPL rCMD rPWR; omega) (by unfold rCPL rCMD rSEAL; omega)
      (by unfold rCPL rCMD rSEAL; omega)]
    exact word1
  · rw [cmd, ← h.cmd]
    rfl
  · rw [cmd, ← h.cmd]
    rfl
  · rw [ring_congr (after.get_rings rfl), ring_congr (t := slotFree _ k) (s := cmdReport u k x status result) rfl, ← route,
      admitted_cmdReport u hk, ring_congr h.rings]
  · rw [rbit_congr (rd_cmdComplete hu (by unfold rSEQ rPWR; omega) (by unfold rSEQ rSEAL; omega) (by unfold rSEQ rSEAL; omega)),
      cmdReport_event _ _ _ _ _ hn]

end Sys2Proof.Machine
end

section
/-!
PROOFS. O46: the start, the end and the limit of a command; with the store's banks (R403).
-/
namespace Sys2Proof.Machine
open Sys2Proof

/-! ## The store -/

theorem bankOf_congr {s t : State} (h : t.nvs = s.nvs) (r k : Nat) : bankOf t r k = bankOf s r k := by
  rw [bankOf, h, bankOf]

theorem newestBank_congr {s t : State} (h : t.nvs = s.nvs) (r core : Nat) : newestBank t r core = newestBank s r core := by
  simp only [newestBank, bankOf_congr h]

/-- The target of a store is a matter of the banks (R404). -/
theorem storeTarget_congr {s t : State} (h : t.nvs = s.nvs) (r : Nat) : storeTarget t r = storeTarget s r := by
  simp only [storeTarget, newestBank_congr h, bankOf_congr h]

theorem bankOf_setBank (s : State) (key : Nat) (b : Bank) : bankOf (setBank s (key / 1024) (key % 1024) b) (key / 1024) (key % 1024) = b :=
  mget_mput_same ..

theorem bankOf_setBank_ne (s : State) {key j : Nat} (b : Bank) (h : j ≠ key) :
    mget (fun _ => bankInit) (setBank s (key / 1024) (key % 1024) b).nvs.banks j = mget (fun _ => bankInit) s.nvs.banks j := by
  refine mget_mput_ne _ _ _ ?_
  rw [Nat.div_add_mod]
  exact h

/-- The target bank of a store that begins: the header of what it will hold, COMMIT 0 (R403). -/
def begunBank (b old : Bank) : Bank :=
  { bankInit with
    magic := b.magic, seqNo := b.seqNo, length := b.length, check := old.check, format := 1, core := b.core, writes := b.writes
    rest := b.rest }

/-- What a store of region `r` will leave in its bank: the copy `c` under a header of the next SEQ (R401, R403). -/
def storedBank (s : State) (r core : Nat) (c : Bank) : Bank :=
  let k := storeTarget s r
  headed r k ((newestBank s r core).elim 1 fun p => (p.2.seqNo + 1) % 2 ^ 32) (min ((bankOf s r k).writes + 1) (ones 32))
    (bankArea r k (bankOf s r k)) c

/-- A store that begins: its target is begun, its job waits for the end (R403). -/
theorem storeBegin_nvs (s : State) (r core : Nat) (c : Bank) :
    (storeBegin s r core c).nvs =
      ⟨mput (fun _ => bankInit) s.nvs.banks (1024 * r + storeTarget s r)
        (begunBank (storedBank s r core c) (bankOf s r (storeTarget s r))),
        some (1024 * r + storeTarget s r, storedBank s r core c)⟩ := by
  have worn (a : Nat) (p : Prop) [Decidable p] : (if p then raise s srcNvs kWear a else s).nvs = s.nvs := by
    split
    · exact (raise_same _ _ _ _ 0 0).get_nvs rfl
    · rfl
  have next : (newestBank s r core).elim 1 (fun p => (p.2.seqNo + 1) % 2 ^ 32) =
      match newestBank s r core with
      | some p => (p.2.seqNo + 1) % 2 ^ 32
      | none => 1 := by
    cases newestBank s r core <;> rfl
  unfold storeBegin
  dsimp only
  rw [(nvsShow_same _).get_nvs rfl]
  unfold setBank storedBank
  dsimp only
  rw [worn, next]
  rfl

/-- The banks behind the start of a store: those of before but for the target (R403, R404). -/
theorem storeBegin_banks {s u : State} (h : u.nvs = s.nvs) (r core : Nat) (c : Bank) :
    bankOf (storeBegin u r core c) r (storeTarget s r) = begunBank (storedBank u r core c) (bankOf s r (storeTarget s r)) ∧
      ∀ key, key ≠ 1024 * r + storeTarget s r →
        mget (fun _ => bankInit) (storeBegin u r core c).nvs.banks key = mget (fun _ => bankInit) s.nvs.banks key := by
  have nvs := storeBegin_nvs u r core c
  rw [storeTarget_congr h, bankOf_congr h, h] at nvs
  refine ⟨?_, fun key hk => ?_⟩
  · rw [bankOf, nvs]
    exact mget_mput_same ..
  · rw [nvs]
    exact mget_mput_ne _ _ _ hk

theorem storeBegin_job {s u : State} (h : u.nvs = s.nvs) (r core : Nat) (c : Bank) :
    (storeBegin u r core c).nvs.job = some (1024 * r + storeTarget s r, storedBank u r core c) := by
  rw [storeBegin_nvs, storeTarget_congr h]

theorem storeCommit_nvs {s : State} {key : Nat} {b : Bank} (h : s.nvs.job = some (key, b)) :
    (storeCommit s).nvs.job = none ∧
      bankOf (storeCommit s) (key / 1024) (key % 1024) = sealedBank (key / 1024) (key % 1024) b := by
  have nvs : (storeCommit s).nvs =
      { (setBank s (key / 1024) (key % 1024) (sealedBank (key / 1024) (key % 1024) b)).nvs with job := none } := by
    simp only [storeCommit, h]
    rw [(nvsShow_same _).get_nvs rfl, (bump_same _ _ _).get_nvs rfl]
  exact ⟨by rw [nvs], (congrArg (fun n : NvsSt => mget (fun _ => bankInit) n.banks _) nvs).trans (bankOf_setBank s key _)⟩

/-- A store that stops leaves its bank unfinished, and the others (R403, R404). -/
theorem storeStop_nvs {s : State} {key : Nat} {b : Bank} (fail : Bool) (h : s.nvs.job = some (key, b)) :
    (storeStop s fail).nvs.job = none ∧
      (∃ l, bankOf (storeStop s fail) (key / 1024) (key % 1024) = { bankOf s (key / 1024) (key % 1024) with rest := l }) ∧
      ∀ j, j ≠ key → mget (fun _ => bankInit) (storeStop s fail).nvs.banks j = mget (fun _ => bankInit) s.nvs.banks j := by
  have nvs : ∃ l, (storeStop s fail).nvs =
      { (setBank s (key / 1024) (key % 1024) { bankOf s (key / 1024) (key % 1024) with rest := l }).nvs with job := none } := by
    simp only [storeStop, h]
    exact ⟨_, rfl⟩
  obtain ⟨l, nvs⟩ := nvs
  refine ⟨by rw [nvs], ⟨l, ?_⟩, fun j hj => ?_⟩
  · rw [bankOf, nvs]
    exact bankOf_setBank s key _
  · rw [nvs]
    exact bankOf_setBank_ne s _ hj

theorem rd_nvsShow {s : State} {o : Nat} (h : o < rNVS 0 ∨ rNVS 0x40 ≤ o) : rd (nvsShow s) o = rd s o := by
  have ne (j : Nat) (hj : j < 0x40) : o ≠ rNVS j := by
    unfold rNVS at h ⊢
    omega
  unfold nvsShow
  simp (disch := exact ne _ (by decide)) only [rd_wr_ne]

theorem CmdAgree.storeCommit (s : State) : CmdAgree s (storeCommit s) where
  cmd := (storeCommit_same s).get_cmd rfl
  rings := (storeCommit_same s).get_rings rfl
  route := by
    unfold Machine.storeCommit
    split
    · rfl
    · dsimp only
      rw [rd_nvsShow (.inr (by decide)), rd_bump (by decide) (by decide)]
      rfl

/-! ## Starts -/

theorem cmdStart_idle {s : State} {k : Nat} {x : Slot} (hx : slotOf s k = some x)
    (h : mayStart s k x = false ∨ s.coreAwake = false) : cmdStart s k = s := by
  simp only [cmdStart, hx]
  rw [if_pos]
  rcases h with h | h
  · exact .inl (by rw [h]; exact Bool.false_ne_true)
  · exact .inr (by rw [h]; exact Bool.false_ne_true)

/-- A command that may start is judged by its arguments first (R345). -/
theorem cmdStart_may {s : State} {k : Nat} {x : Slot} (hx : slotOf s k = some x) (hm : mayStart s k x = true)
    (ha : s.coreAwake = true) : cmdStart s k = if cmdArgsOk x = true then cmdBegin s k x else cmdComplete s k x 1 0 := by
  simp only [cmdStart, hx]
  rw [if_neg (by simp [hm, ha])]
  cases cmdArgsOk x <;> rfl

theorem cmdBegin_store {s : State} {k : Nat} {x : Slot} (h : x.w0 % 256 = 3 ∨ x.w0 % 256 = 12) : cmdBegin s k x = startStore s k x := by
  rcases h with h | h <;> simp only [cmdBegin, h]

/-- A store of the configuration or of Screed has no image to judge (R348): with NVS writes disabled it ends at once (R405). -/
theorem cmdBegin_storeProtected {s : State} {k : Nat} {x : Slot} (h : x.w0 % 256 = 3 ∨ x.w0 % 256 = 12)
    (hen : rbit s (rNVS 0) 0 = false) : cmdBegin s k x = cmdComplete s k x 3 0 := by
  rw [cmdBegin_store h, startStore]
  rw [if_neg (by omega), if_pos (by rw [hen]; exact Bool.false_ne_true)]

/-- With them enabled, and its source not fenced, it begins (R403). -/
theorem cmdBegin_storeBegins {s : State} {k : Nat} {x : Slot} (h : x.w0 % 256 = 3 ∨ x.w0 % 256 = 12)
    (hen : rbit s (rNVS 0) 0 = true) (hf : srcFenced s srcNvs = false) : cmdBegin s k x =
      storeBegin (setRunning s k x) (cmdRegion x) (cmdF x 20 3) (regionCopy s (cmdRegion x) (cmdF x 20 3)) := by
  rw [cmdBegin_store h, startStore]
  rw [if_neg (by omega), if_neg (not_not_intro hen), if_neg (by rw [hf]; exact Bool.false_ne_true)]

theorem cmdBegin_sealCommit {s : State} {k : Nat} {x : Slot} (h : x.w0 % 256 = 11) (hl : rbit s 0x40 4 = true) :
    cmdBegin s k x = cmdComplete s k x 2 (rn s (rSEAL 8)) := by
  simp only [cmdBegin, h, hl, if_true]

theorem cmdBegin_selftest {s : State} {k : Nat} {x : Slot} (h : x.w0 % 256 = 9) : cmdBegin s k x = setRunning s k x := by
  simp only [cmdBegin, h]

/-- The command of a slot that runs (R346, R354). -/
theorem slotOf_setRunning {s : State} {k : Nat} {x y : Slot} (h : slotOf s k = some y) :
    slotOf (setRunning s k x) k = some { x with running := true } := by
  obtain ⟨p, hp, -⟩ := Option.map_eq_some_iff.1 h
  have hk : p.1 = k := by simpa using List.find?_some hp
  have slots : (setRunning s k x).cmd.slots =
      s.cmd.slots.map (fun q => if q.1 = k then (k, { x with running := true }) else q) := rfl
  have same : (fun q : Nat × Slot => decide (q.1 = k)) ∘ (fun q => if q.1 = k then (k, { x with running := true }) else q) =
      fun q => decide (q.1 = k) := by
    funext q
    by_cases e : q.1 = k <;> simp [e]
  rw [slotOf, slots, List.find?_map, same, hp]
  simp [hk]

theorem filterMap_range_single {α : Type} {n k : Nat} (hk : k < n) (a : α) :
    (List.range n).filterMap (fun j => if j = k then some a else none) = [a] := by
  induction n with
  | zero => omega
  | succ n ih =>
    rw [List.range_succ, List.filterMap_append]
    by_cases e : n = k
    · have before : (List.range n).filterMap (fun j => if j = k then some a else none) = [] :=
        List.filterMap_eq_nil_iff.2 fun j hj => if_neg (by have := List.mem_range.1 hj; omega)
      rw [before, e]
      simp
    · rw [ih (by omega)]
      simp [e]

/-- A write that sets SEALREF ends a SEAL_COMMIT that runs as the only command (R55). -/
theorem sealLockFx_running {s : State} {k : Nat} {x : Slot} {old new : Nat} (hk : k < 64) (hs : s.cmd.slots = [(k, x)])
    (hr : x.running = true) (hop : x.w0 % 256 = 0x0B) (hn : new.testBit 4 = true) (ho : old.testBit 4 = false) :
    sealLockFx s old new = cmdComplete s k x 2 (rn s (rSEAL 8)) := by
  have one (j : Nat) : (slotOf s j).bind (fun y => if (y.running && decide (y.w0 % 256 = 0x0B)) = true then some (j, y) else none) =
      if j = k then some (k, x) else none := by
    by_cases e : k = j
    · simp [slotOf, hs, e, hr, hop]
    · simp [slotOf, hs, e, Ne.symm e]
  have picked : slotsOf s (fun y => y.running && decide (y.w0 % 256 = 0x0B)) = [(k, x)] := by
    rw [slotsOf, funext one, filterMap_range_single hk]
  rw [sealLockFx, if_pos ⟨hn, by rw [ho]; exact Bool.false_ne_true⟩, picked]
  rfl

/-! ## Ends -/

theorem cmdFinish_idle {s : State} {k : Nat} {x : Slot} (r : OpOutcome) (hx : slotOf s k = some x) (hr : x.running = false) :
    cmdFinish s k r = s := by
  cases r <;> simp [cmdFinish, hx, hr]

theorem cmdFinish_store {s : State} {k : Nat} {x : Slot} (v : Nat) (hx : slotOf s k = some x) (hr : x.running = true)
    (h : x.w0 % 256 = 1 ∨ x.w0 % 256 = 3 ∨ x.w0 % 256 = 12) :
    cmdFinish s k (.ok v) = endStore s k x true ∧ cmdFinish s k (.failed v) = endStore s k x false := by
  rcases h with h | h | h <;> simp [cmdFinish, hx, hr, h]

theorem cmdFinish_selftest {s : State} {k : Nat} {x : Slot} (v : Nat) (hx : slotOf s k = some x) (hr : x.running = true)
    (h : x.w0 % 256 = 9) : cmdFinish s k (.ok v) = cmdComplete s k x 0 0 ∧ cmdFinish s k (.failed v) = cmdComplete s k x 6 (v % 8) := by
  simp [cmdFinish, hx, hr, h]

theorem cmdFinish_done {s : State} {k st res : Nat} {x : Slot} (r : OpOutcome) (hx : slotOf s k = some x) (hr : x.running = true)
    (h : x.w0 % 256 = 4 ∨ x.w0 % 256 = 10) (hd : x.done = some (st, res)) : cmdFinish s k r = cmdComplete s k x st res := by
  rcases h with h | h <;> cases r <;> simp [cmdFinish, hx, hr, h, hd]

/-- A read-back that differed ends the store (R403). -/
def verifyFailed (s : State) (key : Nat) : State :=
  raise (orBits (storeStop s true) (rNVS 4) 0x20) srcNvs kVerifyFail (key / 1024 + key % 1024 * 16)

theorem verifyFailed_nvs (s : State) (key : Nat) : (verifyFailed s key).nvs = (storeStop s true).nvs :=
  (raise_same _ _ _ _ 0 0).get_nvs rfl

theorem CmdAgree.verifyFailed (s : State) (key : Nat) : CmdAgree s (verifyFailed s key) := by
  have fault := raise_same (orBits (storeStop s true) (rNVS 4) 0x20) srcNvs kVerifyFail (key / 1024 + key % 1024 * 16) 0 0
  refine (CmdAgree.of_same (storeStop_same s true) rfl rfl rfl).trans ⟨fault.get_cmd rfl, fault.get_rings rfl, ?_⟩
  rw [Machine.verifyFailed, rd_raise (by decide) (by decide), rd_orBits_ne _ _ (by decide)]

/-- VERIFY_FAIL is reported where the store's queue has room (R403, R416). -/
theorem verifyFailed_reports {s : State} (key : Nat) (hq : queueFull s srcNvs = false) :
    mkReport s srcNvs kVerifyFail (key / 1024 + key % 1024 * 16) 0 0 false ∈ intakeOf (verifyFailed s key) srcNvs := by
  have halted := storeStop_same s true
  have room : queueFull (orBits (storeStop s true) (rNVS 4) 0x20) srcNvs = false :=
    (queueFull_congr (t := storeStop s true) (halted.get_fcol rfl) _).trans hq
  rw [verifyFailed, raise_eq room, intakeOf_enqueue_same (q := srcNvs) _ rfl,
    mkReport_congr (t := orBits (storeStop s true) (rNVS 4) 0x20) (halted.get_time rfl) (halted.get_cyc rfl)]
  exact List.mem_append_right _ List.mem_cons_self

/-- A store's end where its source is not fenced (R346, R403). -/
theorem endStore_eq {s : State} {k key : Nat} {x : Slot} {b : Bank} (hj : s.nvs.job = some (key, b)) (hf : srcFenced s srcNvs = false)
    (ok : Bool) : endStore s k x ok = if ok = true then cmdComplete (storeCommit s) k x 0 b.seqNo
      else cmdComplete (verifyFailed s key) k x 6 0 := by
  simp only [endStore, verifyFailed, hj, hf, Bool.false_eq_true, if_false]

/-! ## Limits -/

/-- What a command drops at its maximum (R348). -/
def expireDrop (s : State) (k : Nat) (x : Slot) : State :=
  if x.w0 % 256 = 1 ∨ x.w0 % 256 = 3 ∨ x.w0 % 256 = 12 then storeDrop s
  else if x.w0 % 256 = 4 then calDropRun s
  else if x.w0 % 256 = 7 then retuneForget s k x
  else if x.w0 % 256 = 10 then { s with mate := { s.mate with failAt := some (nowT s) } }
  else s

theorem expireDrop_same (s : State) (k : Nat) (x : Slot) : Same 120259117058 s (expireDrop s k x) := by
  unfold expireDrop
  split
  · exact (storeDrop_same s).mono rfl
  · split
    · exact (calDropRun_same s).mono rfl
    · split
      · exact (retuneForget_same s k x).mono rfl
      · split
        · exact Same.put_mate rfl (Same.refl _ _)
        · exact Same.refl _ _

theorem cmdExpire_eq {s : State} {k : Nat} {x : Slot} (hx : slotOf s k = some x) :
    cmdExpire s k = if x.running = false ∨ x.w0 % 256 = 8 then s else cmdComplete (expireDrop s k x) k x 7 0 := by
  simp only [cmdExpire, hx, expireDrop, Bool.not_eq_true]

/-! ## The commands -/

/-- What the start of an outstanding command does (R345, R349). -/
theorem exec_commandStart (k : Fin 64) (c : CycIx) {s : State} {x : Slot} (hx : slotOf s k.val = some x)
    (hm : mayStart s k.val x = true) (ha : s.coreAwake = true) :
    exec (.commandStart k c) s =
      .next (if cmdArgsOk x = true then cmdBegin (atCyc s c) k x else cmdComplete (atCyc s c) k x 1 0) :=
  congrArg Host.Outcome.next (cmdStart_may (s := atCyc s c) hx hm ha)

theorem exec_commandComplete (k : Fin 64) (r : OpOutcome) (c : CycIx) {s : State} (ha : s.coreAwake = true) :
    exec (.commandComplete k r c) s = .next (cmdFinish (atCyc s c) k r) := by
  show Host.Outcome.next (if s.coreAwake then cmdFinish (atCyc s c) k r else s) = _
  rw [if_pos ha]

theorem exec_commandTimeout (k : Fin 64) (c : CycIx) {s : State} {x : Slot} (ha : s.coreAwake = true)
    (hx : slotOf s k.val = some x) : exec (.commandTimeout k c) s =
      .next (if x.running = false ∨ x.w0 % 256 = 8 then atCyc s c else cmdComplete (expireDrop (atCyc s c) k x) k x 7 0) := by
  show Host.Outcome.next (if s.coreAwake then cmdExpire (atCyc s c) k else s) = _
  rw [if_pos ha, cmdExpire_eq (s := atCyc s c) hx]

/-- A store of the configuration or of Screed starts to run, its target begun (R348, R403). -/
theorem commandStart_beginsStore {k : Fin 64} {c : CycIx} {s : State} {x : Slot} (hx : slotOf s k.val = some x)
    (hm : mayStart s k.val x = true) (ha : s.coreAwake = true) (hargs : cmdArgsOk x = true)
    (hop : x.w0 % 256 = 3 ∨ x.w0 % 256 = 12) (hen : rbit s (rNVS 0) 0 = true) (hf : srcFenced s srcNvs = false) :
    ∃ t b, exec (.commandStart k c) s = .next t ∧ slotOf t k.val = some { x with running := true } ∧
      t.nvs.job = some (1024 * cmdRegion x + storeTarget s (cmdRegion x), b) ∧
      bankOf t (cmdRegion x) (storeTarget s (cmdRegion x)) = begunBank b (bankOf s (cmdRegion x) (storeTarget s (cmdRegion x))) ∧
      b.magic = bankMagic (cmdRegion x) ∧
      (∀ key, key ≠ 1024 * cmdRegion x + storeTarget s (cmdRegion x) →
        mget (fun _ => bankInit) t.nvs.banks key = mget (fun _ => bankInit) s.nvs.banks key) ∧ MemKept s t := by
  have begins := storeBegin_same (setRunning (atCyc s c) k x) (cmdRegion x) (cmdF x 20 3)
    (regionCopy (atCyc s c) (cmdRegion x) (cmdF x 20 3))
  have nvs : (setRunning (atCyc s c) k x).nvs = s.nvs := (setRunning_same _ _ _).get_nvs rfl
  have slot := slotOf_setRunning (s := atCyc s c) (x := x) hx
  obtain ⟨target, others⟩ := storeBegin_banks nvs (cmdRegion x) (cmdF x 20 3)
    (regionCopy (atCyc s c) (cmdRegion x) (cmdF x 20 3))
  have run := exec_commandStart k c hx hm ha
  rw [if_pos hargs, cmdBegin_storeBegins (s := atCyc s c) hop hen hf] at run
  refine ⟨_, _, run, ?_, storeBegin_job nvs _ _ _, target, rfl, others, memKept_of_mem (begins.get_mem rfl)⟩
  rw [slotOf, begins.get_cmd rfl]
  exact slot

/-- A write that sets SEALREF completes a SEAL_COMMIT that runs, and SEAL_REF keeps its value (R55). -/
theorem lockWrite_completesCommit {m : Master} {b : Word} {k : Fin 64} {x : Slot} {s : State} (h : BusOpen s)
    (hb : b.getLsbD 4 = true) (hl : rbit s 0x40 4 = false) (hs : s.cmd.slots = [(k.val, x)]) (ho : s.cmd.own = [])
    (hr : x.running = true) (hop : x.w0 % 256 = 11) :
    ∃ t, exec (.lockWrite m b) s = .next t ∧ SlotCompleted s t k.val x 2 (rn s (rSEAL 8)) ∧ rd t (rSEAL 8) = rd s (rSEAL 8) := by
  have word : (lockNew s b).testBit 4 = true := by rw [lockNew_sealref, hb, Bool.true_or]
  have note := noteWrite_same (wr s 0x40 (lockNew s b)) 0x40
  have regs {o : Nat} (h0 : o ≠ 0x40) : rd (noteWrite (wr s 0x40 (lockNew s b)) 0x40) o = rd s o :=
    (rd_congr (note.get_regs rfl) o).trans (rd_wr_ne _ _ h0)
  have agree : CmdAgree s (noteWrite (wr s 0x40 (lockNew s b)) 0x40) := ⟨note.get_cmd rfl, note.get_rings rfl, regs (by decide)⟩
  have ref : rn (noteWrite (wr s 0x40 (lockNew s b)) 0x40) (rSEAL 8) = rn s (rSEAL 8) :=
    congrArg BitVec.toNat (regs (by decide))
  refine ⟨_, exec_lockWrite h m b, ?_⟩
  rw [sealLockFx_running k.isLt (by rw [agree.cmd, hs]) hr hop word hl, ref]
  exact ⟨cmdComplete_completed k.isLt ho agree x 2 _,
    (rd_cmdComplete_sealRef k.isLt (by rw [agree.cmd, ho])).trans (regs (by decide))⟩

section
variable {k : Fin 64} {c : CycIx} {s : State} {x : Slot} (hx : slotOf s k.val = some x) (ha : s.coreAwake = true)
  (hr : x.running = true) (ho : s.cmd.own = [])
include hx ha hr ho

/-- A store whose read-back agreed ends with OK, its bank valid (R346, R403). -/
theorem commandComplete_storeOk {key : Nat} {b : Bank} (v : Nat) (hop : x.w0 % 256 = 1 ∨ x.w0 % 256 = 3 ∨ x.w0 % 256 = 12)
    (hj : s.nvs.job = some (key, b)) (hf : srcFenced s srcNvs = false) :
    ∃ t, exec (.commandComplete k (.ok v) c) s = .next t ∧ SlotCompleted s t k.val x 0 b.seqNo ∧ t.nvs.job = none ∧
      bankOf t (key / 1024) (key % 1024) = sealedBank (key / 1024) (key % 1024) b := by
  have nvs := (cmdComplete_same (storeCommit (atCyc s c)) k x 0 b.seqNo).get_nvs rfl
  obtain ⟨job, bank⟩ := storeCommit_nvs (s := atCyc s c) hj
  refine ⟨_, exec_commandComplete k _ c ha, ?_⟩
  rw [(cmdFinish_store (s := atCyc s c) v hx hr hop).1, endStore_eq (s := atCyc s c) hj hf, if_pos rfl]
  exact ⟨cmdComplete_completed k.isLt ho ((CmdAgree.atCyc s c).trans (.storeCommit _)) x 0 _, by rw [nvs, job],
    by rw [bankOf_congr nvs, bank]⟩

/-- A store whose read-back differed ends with FAILED and VERIFY_FAIL, its bank unfinished (R346, R403). -/
theorem commandComplete_storeFailed {key : Nat} {b : Bank} (v : Nat)
    (hop : x.w0 % 256 = 1 ∨ x.w0 % 256 = 3 ∨ x.w0 % 256 = 12) (hj : s.nvs.job = some (key, b))
    (hf : srcFenced s srcNvs = false) (hq : queueFull s srcNvs = false) :
    ∃ t l, exec (.commandComplete k (.failed v) c) s = .next t ∧ SlotCompleted s t k.val x 6 0 ∧ t.nvs.job = none ∧
      (∀ j, j ≠ key → mget (fun _ => bankInit) t.nvs.banks j = mget (fun _ => bankInit) s.nvs.banks j) ∧
      bankOf t (key / 1024) (key % 1024) = { bankOf s (key / 1024) (key % 1024) with rest := l } ∧
      mkReport (atCyc s c) srcNvs kVerifyFail (key / 1024 + key % 1024 * 16) 0 0 false ∈ intakeOf t srcNvs := by
  have agree := (CmdAgree.atCyc s c).trans (.verifyFailed _ key)
  have nvs := ((cmdComplete_same (verifyFailed (atCyc s c) key) k x 6 0).get_nvs rfl).trans (verifyFailed_nvs _ key)
  obtain ⟨job, ⟨l, bank⟩, others⟩ := storeStop_nvs (s := atCyc s c) true hj
  refine ⟨_, l, exec_commandComplete k _ c ha, ?_⟩
  rw [(cmdFinish_store (s := atCyc s c) v hx hr hop).2, endStore_eq (s := atCyc s c) hj hf, if_neg Bool.false_ne_true]
  refine ⟨cmdComplete_completed k.isLt ho agree x 6 0, by rw [nvs, job], by rw [nvs]; exact others,
    (bankOf_congr nvs _ _).trans bank, ?_⟩
  rw [intakeOf_cmdComplete (by rw [agree.cmd, ho]), intakeOf_cmdReport (by decide) (by decide)]
  exact verifyFailed_reports key hq

/-- A command at its maximum ends with TIMEOUT, which is reported (R346, R348). -/
theorem commandTimeout_completes (hop : x.w0 % 256 ≠ 8) (hq : queueFull s srcCmd = false) :
    ∃ t, exec (.commandTimeout k c) s = .next t ∧ SlotCompleted s t k.val x 7 0 ∧
      mkReport (atCyc s c) srcCmd kTimeout (x.w0 % 256 + k.val * 256) 0 0 false ∈ intakeOf t srcCmd := by
  have drop := expireDrop_same (atCyc s c) k x
  refine ⟨_, exec_commandTimeout k c ha hx, ?_⟩
  rw [if_neg (by simp [hr, hop])]
  refine ⟨cmdComplete_completed k.isLt ho ((CmdAgree.atCyc s c).trans (.of_same drop rfl rfl rfl)) x 7 0, ?_⟩
  rw [intakeOf_cmdComplete (by rw [drop.get_cmd rfl]; exact ho), ← mkReport_congr (drop.get_time rfl) (drop.get_cyc rfl)]
  exact cmdReport_timeout (by rw [queueFull_congr (drop.get_fcol rfl)]; exact hq)

end

/-- Settles O46: each start and each end is one completion, or the beginning of the command's work. -/
theorem commandStartsAndCompletes : Obligations.CommandStartsAndCompletes := by
  refine ⟨fun k c s => ⟨fun hx => ?_, fun x hx => ⟨fun h => ?_, fun hm ha ho => ⟨fun hargs => ?_, fun hargs hop hen => ?_,
    fun hargs hop hl => ?_, fun hargs hop => ?_, fun hargs hop hen hf => ?_⟩⟩⟩,
    fun m b k x s h hb hl hs ho hr hop => lockWrite_completesCommit h hb hl hs ho hr hop,
    fun k c r s ha => ⟨?_, ?_⟩, fun k c r s x ha hx => ⟨fun hr => ⟨?_, ?_⟩, fun hr ho => ⟨fun key b v hop hj hv hf => ?_,
      fun key b v hop hj hv hf hq => ?_, fun v hop hv => ?_, fun v hop hv => ?_, fun st res hop hd => ?_,
      fun hop hq => commandTimeout_completes hx ha hr ho hop hq, fun hop => ?_⟩⟩⟩
  · have hx' : slotOf (atCyc s c) k = none := hx
    show Host.Outcome.next (cmdStart (atCyc s c) k) = _
    simp only [cmdStart, hx']
  · exact congrArg Host.Outcome.next (cmdStart_idle (s := atCyc s c) hx h)
  · refine ⟨_, exec_commandStart k c hx hm ha, ?_⟩
    rw [hargs]
    exact cmdComplete_completed k.isLt ho (.atCyc s c) x 1 0
  · refine ⟨_, exec_commandStart k c hx hm ha, ?_⟩
    rw [if_pos hargs, cmdBegin_storeProtected (s := atCyc s c) hop hen]
    exact ⟨cmdComplete_completed k.isLt ho (.atCyc s c) x 3 0, (cmdComplete_same (atCyc s c) k x 3 0).get_nvs rfl⟩
  · refine ⟨_, exec_commandStart k c hx hm ha, ?_⟩
    rw [if_pos hargs, cmdBegin_sealCommit (s := atCyc s c) hop hl]
    exact ⟨cmdComplete_completed k.isLt ho (.atCyc s c) x 2 _, fun hw => cmdComplete_endsHold (s := atCyc s c) ho hop hw,
      rd_cmdComplete_sealRef (s := atCyc s c) k.isLt ho⟩
  · refine ⟨_, exec_commandStart k c hx hm ha, ?_⟩
    rw [if_pos hargs, cmdBegin_selftest hop]
    exact ⟨slotOf_setRunning (s := atCyc s c) hx, rn_orBits_same _ _ _ (by decide), fun o h => rd_orBits_ne _ _ h, rfl⟩
  · obtain ⟨t, b, run, slot, job, target, magic, others, mem⟩ := commandStart_beginsStore (c := c) hx hm ha hargs hop hen hf
    exact ⟨t, b, run, slot, job, by rw [target]; rfl, by rw [target]; rfl, by rw [target]; rfl, by rw [target]; exact magic,
      others, mem⟩
  · show Host.Outcome.next (if s.coreAwake then cmdFinish (atCyc s c) k r else s) = _
    rw [ha]
    rfl
  · show Host.Outcome.next (if s.coreAwake then cmdExpire (atCyc s c) k else s) = _
    rw [ha]
    rfl
  · rw [exec_commandComplete k r c ha, cmdFinish_idle (s := atCyc s c) r hx hr]
  · rw [exec_commandTimeout k c ha hx, if_pos (.inl hr)]
  · rw [hv]
    exact commandComplete_storeOk hx ha hr ho v hop hj hf
  · obtain ⟨t, l, run, done, job, others, bank, report⟩ := commandComplete_storeFailed (c := c) hx ha hr ho v hop hj hf hq
    exact ⟨t, by rw [hv, run], done, job, others, by rw [bank], by rw [bank], report⟩
  · refine ⟨_, exec_commandComplete k r c ha, ?_⟩
    rw [hv, (cmdFinish_selftest (s := atCyc s c) v hx hr hop).1]
    exact cmdComplete_completed k.isLt ho (.atCyc s c) x 0 0
  · refine ⟨_, exec_commandComplete k r c ha, ?_⟩
    rw [hv, (cmdFinish_selftest (s := atCyc s c) v hx hr hop).2]
    exact cmdComplete_completed k.isLt ho (.atCyc s c) x 6 (v % 8)
  · refine ⟨_, exec_commandComplete k r c ha, ?_⟩
    rw [cmdFinish_done (s := atCyc s c) r hx hr hop hd]
    exact cmdComplete_completed k.isLt ho (.atCyc s c) x st res
  · rw [exec_commandTimeout k c ha hx, if_pos (.inr hop)]

end Sys2Proof.Machine
end

section
/-!
PROOFS. O15: the write of TIME_LEAP_CTRL.LEAP.
-/
namespace Sys2Proof.Machine
open Sys2Proof

theorem rn_wb_ne (s : State) {o k : Nat} (lo n v : Nat) (h : k ≠ o) : rn (wb s o lo n v) k = rn s k := rn_wr_ne _ _ h

/-- The state with a leap armed or not (R86). -/
def leapArmed (s : State) (b : Bool) : State := { s with time := { s.time with leapPend := b } }

theorem rd_leapArmed (s : State) (v : Nat) (b : Bool) {o : Nat} (h : o ≠ rTIME 0x74) :
    rd (leapArmed (wb s (rTIME 0x74) 0 2 v) b) o = rd s o := rd_wb_ne s 0 2 v h

/-- The field LEAP is no part of R86's condition but for its own value. -/
theorem leapOk_wb (s : State) (w v : Nat) : leapOk (wb s (rTIME 0x74) 0 2 w) v = leapOk s v := by
  have at_ (k : Nat) (h : k ≠ rTIME 0x74) : rn (wb s (rTIME 0x74) 0 2 w) k = rn s k := rn_wb_ne _ _ _ _ h
  simp only [leapOk, rL, at_ (rTIME 0x78) (by decide), at_ (rTIME 0x78 + 4) (by decide), at_ (rTIME 0x70) (by decide)]
  rfl

theorem leapOk_iff (s : State) (v : Nat) : leapOk s v = true ↔ (v = 1 ∨ v = 2) ∧ tSec (s.time.plain / 2 ^ 32) < rL s (rTIME 0x78) 2 ∧
    ((rL s (rTIME 0x78) 2 : Int) - (sx 16 (rn s (rTIME 0x70)) + (if v = 1 then 1 else -1))) % 86400 = 0 := by
  simp only [leapOk, Bool.and_eq_true, decide_eq_true_eq, and_assoc]

/-- The LEAP that a write of it leaves. -/
theorem rb_leap (s : State) (v : Fin 4) : rb (wb s (rTIME 0x74) 0 2 v) (rTIME 0x74) 0 2 = v.val := by
  rw [rb_wb_same _ _ _ _ _ (by decide)]
  exact Nat.mod_eq_of_lt v.isLt

/-- The state in which LEAP is clear and no leap armed. -/
def leapCleared (s : State) (v : Nat) : State := leapArmed (wr (wb s (rTIME 0x74) 0 2 v) (rTIME 0x74) 0) false

theorem exec_leapArm (s : State) (v : Fin 4) : exec (.leapArm v) s =
    .next (if v.val = 0 then leapArmed (wb s (rTIME 0x74) 0 2 v) false
      else if leapOk s v = true then leapArmed (wb s (rTIME 0x74) 0 2 v) true
      else raise (leapCleared s v) 0xD6 0x05 (rTIME 4)) := by
  show Host.Outcome.next (leapFx (wb s (rTIME 0x74) 0 2 v) none) = _
  simp only [leapFx, rb_leap, leapOk_wb]
  rfl

/-- A leap that R86 does not allow leaves LEAP clear and LEAP_INVALID reported. -/
theorem leapArm_refused {s : State} {v : Fin 4} (h0 : v.val ≠ 0) (h : leapOk s v ≠ true) (hq : queueFull s 0xD6 = false) :
    ∃ t, exec (.leapArm v) s = .next t ∧ rb t (rTIME 0x74) 0 2 = 0 ∧
      t.fcol = (enqueue s
        { src := 0xD6, kind := 0x05, addr := rTIME 4, master := 0, access := 0, forced := false, time := readT s,
          tflags := timeFlags s }).fcol ∧
      (∀ o, o ≠ rTIME 0x74 → rd t o = rd s o) ∧ t = { s with regs := t.regs, fcol := t.fcol, time := t.time } := by
  refine ⟨enqueue (leapCleared s v) (mkReport (leapCleared s v) 0xD6 0x05 (rTIME 4) 0 0 false), ?_, ?_, rfl, fun o ho => ?_, rfl⟩
  · rw [exec_leapArm, if_neg h0, if_neg h, raise_eq (s := leapCleared s v) hq]
  · show rb (wr (wb s (rTIME 0x74) 0 2 v) (rTIME 0x74) 0) (rTIME 0x74) 0 2 = 0
    rw [rb, rn_wr_same]
    rfl
  · exact (rd_wr_ne (wb s (rTIME 0x74) 0 2 v) 0 ho).trans (rd_wb_ne _ _ _ _ ho)

/-- Settles O15: the three ends of a write of LEAP are those of R86. -/
theorem leapArmsOrIsInvalid : Obligations.LeapArmsOrIsInvalid := by
  refine ⟨fun v s hv => ⟨fun hat hday => ?_, fun hbad hq => ?_⟩, fun s hq => ?_, fun s => ?_⟩
  · refine ⟨leapArmed (wb s (rTIME 0x74) 0 2 v) true, ?_, rfl, rb_leap s v, fun o ho => rd_leapArmed s v true ho, rfl⟩
    rw [exec_leapArm, if_neg (by omega), if_pos ((leapOk_iff s v).2 ⟨hv, hat, hday⟩)]
  · refine leapArm_refused (by omega) (fun hok => ?_) hq
    obtain ⟨-, hat, hday⟩ := (leapOk_iff s v).1 hok
    exact hbad.elim (fun h => absurd hat (by omega)) (fun h => h hday)
  · exact leapArm_refused (by decide) (fun hok => absurd ((leapOk_iff s 3).1 hok).1 (by decide)) hq
  · exact ⟨leapArmed (wb s (rTIME 0x74) 0 2 (0 : Fin 4).val) false, exec_leapArm s 0, rfl, rb_leap s 0,
      fun o ho => rd_leapArmed s _ _ ho, rfl⟩

end Sys2Proof.Machine
end

section
/-!
PROOFS. O14: the refutation, by an output of a number that the block does not have.
-/
namespace Sys2Proof.Machine
open Sys2Proof

/-- The number of the output whose bit of SKIM_OLD_MAP (R396), taken beyond the map's four words, is bit 1 of TIME_SLEW_RATE. -/
def strayNumber : Nat := (rTIME 0x50 - 0x140) / 4 * 32 + 1

/-- An output that runs, with a hop held until the next boundary and a natural swap kept for it (R181). -/
def strayOutput : Fod :=
  { fodInit strayNumber with
    running := true, sc := 0, recs := [⟨0, 0, 0, 0, 0, 524288, 0, 0, 0, 0⟩], hopHeld := [(0, none, false)], swapDue := true
    holdUntil := some 0, hops := [(0, ⟨true, false, 40, 0, 1, 1, 0⟩)], twinBee := ⟨false, true, 0, 0⟩ }

/-- A queued slew by 0 that names no rate, due at 0. -/
def idleSlew : QAct := ⟨0, none, 0, none, .timeSlew 0 0, false, false⟩

/-- A started module with Skim on, the idle slew queued, and the stray output. It is an ill-formed state: the outputs are FOD0 to
FOD127, and no command adds another. -/
def strayState : State :=
  { State.reset with
    time := { timeInit with started := true, queue := [idleSlew] }, fods := [(strayNumber, strayOutput)]
    pwr := { pwrInit with phase := 4 }, regs := [(0x120, 1)] }

/-- Nothing but the slew acts at the next boundary. -/
theorem plainBoundary_strayState : PlainBoundary strayState false := ⟨rfl, rfl, by decide +kernel, by decide +kernel⟩

/-- The exchange of the stray output's twins clears a bit of TIME_SLEW_RATE. -/
theorem queuedSlew_strayState :
    ∃ t, exec .queuedSlew strayState = .next t ∧ rn t (rTIME 0x50) ≠ rn strayState (rTIME 0x50) :=
  ⟨queuedTime (fun k => match k with
    | .timeSlew _ _ => true
    | _ => false) strayState, rfl, by decide +kernel⟩

/-- Refutes O14 in its clause on a slew that loads no rate, which leaves TIME_SLEW_RATE: the statement is over every state and does
not ask that the outputs be FOD0 to FOD127. An output beyond these whose twins Skim exchanges at the same boundary (R181, R396) has its
bit of SKIM_OLD_MAP in TIME_SLEW_RATE. -/
theorem not_queuedTimeActionActsAtItsBoundary : ¬ Obligations.QueuedTimeActionActsAtItsBoundary := by
  intro h
  obtain ⟨due, -⟩ := h idleSlew strayState rfl rfl rfl plainBoundary_strayState
  obtain ⟨-, slew, -⟩ := due (by decide +kernel)
  obtain ⟨t, ht, -, -, hrate, -⟩ := slew 0 0 rfl (by decide +kernel)
  obtain ⟨t', ht', hne⟩ := queuedSlew_strayState
  obtain rfl : t = t' := Host.Outcome.next.inj (ht.symm.trans ht')
  exact hne (hrate.trans (if_pos rfl))

end Sys2Proof.Machine
end

section
/-!
PROOFS. O16: the armed leap, PPS events and the ends of their pulses; with the registers of Plain that a snapshot leaves.
-/
namespace Sys2Proof.Machine
open Sys2Proof

/-! ## The armed leap -/

/-- TIME_UTC_OFF moved by the leap of LEAP (R87). -/
def utcMoved (s : State) : State :=
  wb s (rTIME 0x70) 0 16 (tw 16 (utcOff s + (if rb s (rTIME 0x74) 0 2 = 1 then 1 else -1)))

theorem exec_leapApply (s : State) : exec .leapApply s =
    .next (if s.time.leapPend = true ∧ rL s (rTIME 0x78) 2 ≤ tSec (s.time.plain / 2 ^ 32) then
      hwUpdate (leapArmed (hwUpdate s (rTIME 0x70) (rTIME 4) 0x200 utcMoved) false) (rTIME 0x74) (rTIME 4) 0x200
        (fun x => wb x (rTIME 0x74) 0 2 0)
    else s) := rfl

theorem hwUpdate_free {s : State} {off stat flag : Nat} {f : State → State} (h : softWrote s off = false) :
    hwUpdate s off stat flag f = f s := if_neg (by rw [h]; exact Bool.false_ne_true)

theorem hwUpdate_soft {s : State} {off stat flag : Nat} {f : State → State} (h : softWrote s off = true) :
    hwUpdate s off stat flag f = orBits s stat flag := if_pos h

/-- A 16-bit two's complement value moves modulo 2^16. -/
theorem tw_sx_16 (v : Nat) : tw 16 (sx 16 v + 1) = (v % 2 ^ 16 + 1) % 2 ^ 16 ∧ tw 16 (sx 16 v + -1) = (v % 2 ^ 16 + 65535) % 2 ^ 16 := by
  unfold tw sx
  split <;> omega

/-- What the leap leaves in TIME_UTC_OFF (R87). -/
theorem rb_utcMoved (s : State) : rb (utcMoved s) (rTIME 0x70) 0 16 =
    (rb s (rTIME 0x70) 0 16 + (if rb s (rTIME 0x74) 0 2 = 1 then 1 else 65535)) % 2 ^ 16 := by
  obtain ⟨up, down⟩ := tw_sx_16 (rn s (rTIME 0x70))
  have field : rb s (rTIME 0x70) 0 16 = rn s (rTIME 0x70) % 2 ^ 16 := rfl
  rw [utcMoved, rb_wb_same _ _ _ _ _ (by decide), utcOff, field]
  split
  · rw [up, Nat.mod_mod]
  · rw [down, Nat.mod_mod]

/-- The leap acts on both registers where software writes neither (R87). -/
theorem leapApply_moves {s : State} (hp : s.time.leapPend = true) (hat : rL s (rTIME 0x78) 2 ≤ tSec (s.time.plain / 2 ^ 32))
    (h70 : softWrote s (rTIME 0x70) = false) (h74 : softWrote s (rTIME 0x74) = false) :
    exec .leapApply s = .next (wb (leapArmed (utcMoved s) false) (rTIME 0x74) 0 2 0) := by
  have h74' : softWrote (leapArmed (utcMoved s) false) (rTIME 0x74) = false := h74
  rw [exec_leapApply, if_pos ⟨hp, hat⟩, hwUpdate_free h70, hwUpdate_free h74']

/-- Where software writes TIME_UTC_OFF in the same cycle, its value stands, flagged (R56, R91). -/
theorem leapApply_discarded {s : State} (hp : s.time.leapPend = true) (hat : rL s (rTIME 0x78) 2 ≤ tSec (s.time.plain / 2 ^ 32))
    (h70 : softWrote s (rTIME 0x70) = true) :
    ∃ t, exec .leapApply s = .next t ∧ t.time = { s.time with leapPend := false } ∧ rd t (rTIME 0x70) = rd s (rTIME 0x70) ∧
      rbit t (rTIME 4) 9 = true := by
  have flagged : rbit (leapArmed (orBits s (rTIME 4) 0x200) false) (rTIME 4) 9 = true := by
    show rbit (orBits s (rTIME 4) 0x200) (rTIME 4) 9 = true
    rw [rbit_orBits_same _ _ _ _ (by decide)]
    exact Bool.or_true _
  have kept : rd (leapArmed (orBits s (rTIME 4) 0x200) false) (rTIME 0x70) = rd s (rTIME 0x70) :=
    rd_orBits_ne s 0x200 (by decide)
  refine ⟨_, by rw [exec_leapApply, if_pos ⟨hp, hat⟩, hwUpdate_soft h70], ?_⟩
  by_cases h74 : softWrote (leapArmed (orBits s (rTIME 4) 0x200) false) (rTIME 0x74) = true
  · rw [hwUpdate_soft h74]
    exact ⟨rfl, (rd_orBits_ne _ _ (by decide)).trans kept, rbit_orBits_of_set (by decide) flagged⟩
  · rw [hwUpdate_free (Bool.not_eq_true _ ▸ h74)]
    exact ⟨rfl, (rd_wb_ne _ _ _ _ (by decide)).trans kept, (rbit_congr (rd_wb_ne _ _ _ _ (by decide)) _).trans flagged⟩

/-! ## The registers of Plain -/

/-- The registers of the block TIME. -/
structure TimeReg (o : Nat) : Prop where
  above : 0x020000 ≤ o
  below : o < 0x030000

theorem TimeReg.fault {o : Nat} (h : TimeReg o) : faultReg o = false := by
  obtain ⟨lo, hi⟩ := h
  simp only [faultReg, decide_eq_false_iff_not]
  omega

theorem TimeReg.evt {o : Nat} (h : TimeReg o) : evtRegs o = false := evtRegs_of_lt (Nat.lt_trans h.below (by decide))

theorem rTIME_timeReg {o : Nat} (h : o < 0x10000) : TimeReg (rTIME o) := ⟨by unfold rTIME; omega, by unfold rTIME; omega⟩

/-- A write of a block behind TIME. -/
theorem TimeReg.rd_wr {o k : Nat} (h : TimeReg k) (ho : 0x030000 ≤ o) (s : State) (v : Nat) : rd (wr s o v) k = rd s k :=
  rd_wr_ne s v (by have := h.below; omega)

theorem TimeReg.rd_orBits {o k : Nat} (h : TimeReg k) (ho : 0x030000 ≤ o) (s : State) (m : Nat) : rd (orBits s o m) k = rd s k :=
  h.rd_wr ho s _

theorem TimeReg.rd_wL {o k : Nat} (h : TimeReg k) (ho : 0x030000 ≤ o) (s : State) (n v : Nat) : rd (wL s o n v) k = rd s k := by
  induction n generalizing s o v with
  | zero => rfl
  | succ n ih => exact (ih (by omega) _ _).trans (h.rd_wr ho s _)

/-! ## Snapshots -/

theorem rd_snapSend (s : State) (k : Nat) : rd (snapSend s) k = rd s k := rd_congr ((snapSend_same s).get_regs rfl) k

section
variable {k : Nat} (h : TimeReg k)
include h

theorem TimeReg.rd_snapFod (s : State) (n id : Nat) (t : Rat) : rd (snapFod s n id t) k = rd s k := by
  have ho (o : Nat) : 0x030000 ≤ rSNAP (0x200 + 0x20 * n) + o := by unfold rSNAP; omega
  unfold snapFod
  dsimp only
  rw [h.rd_wr (ho _), h.rd_wr (ho _)]
  split
  all_goals exact (h.rd_wL (ho _) _ _ _).trans (h.rd_wL (ho 0) _ _ _)

theorem TimeReg.rd_snapUnit (s : State) (id : Nat) (t : Rat) (u : Nat) : rd (snapUnit s id t u) k = rd s k := by
  have snap (o : Nat) : 0x030000 ≤ rSNAP o := by unfold rSNAP; omega
  have snapPlus (o j : Nat) : 0x030000 ≤ rSNAP o + j := Nat.le_add_right_of_le (snap o)
  have ring (n o : Nat) : 0x030000 ≤ rRING n o := by unfold rRING; omega
  unfold snapUnit
  dsimp only
  rw [h.rd_wr (snap _)]
  split
  · rw [h.rd_wr (snap _)]
    exact upto_kept (g := fun x => rd x k) 8 (fun x w _ => by rw [h.rd_wr (snap _), h.rd_wr (snap _)]) s
  split
  · refine (upto_kept (g := fun x => rd x k) 16 (fun x r _ => ?_) _).trans
      (upto_kept (g := fun x => rd x k) 4 (fun x d _ => ?_) s)
    · rw [h.rd_wr (ring _ _), h.rd_wr (ring _ _), h.rd_wL (ring _ _), h.rd_wL (ring _ _), h.rd_wL (ring _ _), h.rd_wL (ring _ _),
        h.rd_wL (ring _ _)]
    · rw [h.rd_wr (snapPlus _ _), h.rd_wL (snapPlus _ _), h.rd_wL (snap _)]
  split
  · rw [h.rd_wr (snapPlus _ _), h.rd_wL (snap _)]
  · exact upto_kept (g := fun x => rd x k) 8 (fun x i _ => h.rd_snapFod x _ id t) s

theorem TimeReg.rd_snapLatch (s : State) (id : Nat) (t : Rat) : rd (snapLatch s id t) k = rd s k :=
  foldl_kept (g := fun x => rd x k) (fun x u => h.rd_snapUnit x id t u) _ s

/-- A snapshot changes no register of Plain. -/
theorem TimeReg.rd_snapTrigger (s : State) (info : Nat) (t : Rat) (cz : Cause) : rd (snapTrigger s info t cz) k = rd s k := by
  have snap (o : Nat) : 0x030000 ≤ rSNAP o := by unfold rSNAP; omega
  have counted (x : State) (o : Nat) : rd (bump x (rSNAP o)) k = rd x k :=
    rd_bump h.fault (by have := snap o; have := h.below; omega)
  unfold snapTrigger
  dsimp only
  split
  · rw [rd_raiseC (by decide) h.fault, counted, h.rd_orBits (snap _)]
  split
  · split
    · split
      · rw [rd_snapSend, h.rd_snapLatch, h.rd_wL (snap _)]
        exact h.rd_orBits (snap _) _ _
      · exact h.rd_orBits (snap _) _ _
    · rw [counted, h.rd_orBits (snap _), h.rd_orBits (snap _)]
  · rw [rd_snapSend, h.rd_snapLatch, h.rd_wr (snap _), h.rd_wL (snap _)]
    rfl

end

/-! ## PPS events -/

/-- The label of a PPS event (R90). -/
def ppsLabel (s : State) (sec : Nat) (again : Bool) : State :=
  let six := decide (armedLeap s = 1 ∧ sec + 1 = leapAt s)
  let s := wr (wr s (rTIME 0xB0) sec) (rTIME 0xB4) (sec / 2 ^ 32 % 65536 + rb s (rTIME 0x70) 0 16 * 65536)
  wr s (rTIME 0xB8) (b2n six + 2 * b2n again + 4 * flagsAt s (sec * secTicks : Nat))

/-- The pulse of a PPS event begins on output n, where that carries PPS (R89, R526). -/
def ppsPulseOn (t : Nat) (s : State) (n : Nat) : State :=
  if rb s (0x200 + 4 * n) 0 2 = 1 ∧ ¬ s.pwr.mrst then
    let inv := rbit s (0x200 + 4 * n) 2
    let ofs := sx 32 (rn s (rTIME (0xC0 + 4 * n)))
    let rise := (cycNo s : Int) + ((t : Int) + ofs - (nowT s : Int)) / 65536
    let s := emit s (.pps n ((t : Int) + ofs) (!inv))
    { s with time := { s.time with
        ppsPulse := s.time.ppsPulse ||| 2 ^ n, ppsFrom := mput (fun _ => 0) s.time.ppsFrom n rise
        ppsInv := clr s.time.ppsInv (2 ^ n) ||| 2 ^ n * b2n inv, outHigh := clr s.time.outHigh (2 ^ n) } }
  else s

/-- The frame of a PPS event on IRIG-B output m, where that is on (R527). -/
def irigFrame (sec : Nat) (six : Bool) (s : State) (m : Nat) : State :=
  if rbit s (0x220 + 4 * m) 0 then
    let s := emit s (.irig m (irigFields s m sec six))
    { s with free := s.free + 1 }
  else s

/-- The snapshot of every PPS_DIV-th PPS event (R441). -/
def ppsSnap (s : State) (sec : Nat) : State :=
  if rbit s (rSNAP 0) 0 then
    let n := s.snap.ppsCount + 1
    if atLeast1 (rb s (rSNAP 0) 24 8) ≤ n then
      snapWake (snapTrigger { s with snap := { s.snap with ppsCount := 0 } } 4 ((sec * secTicks : Nat) : Rat) none)
    else { s with snap := { s.snap with ppsCount := n } }
  else s

/-- A PPS event before its snapshot. -/
def ppsShown (s : State) (sec : Nat) (again : Bool) : State :=
  let six := decide (armedLeap s = 1 ∧ sec + 1 = leapAt s)
  event (upto 2 (irigFrame sec six) (upto 8 (ppsPulseOn (sec * secTicks)) (bump (ppsLabel s sec again) (rTIME 0xBC)))) 8

theorem ppsEvent_eq (s : State) (sec : Nat) (again : Bool) : ppsEvent s sec again = ppsSnap (ppsShown s sec again) sec := rfl

/-- The outputs of a PPS event leave what does not look at them. -/
theorem ppsOutputs_kept {β : Type} {g : State → β} (pulse : ∀ t x n, g (ppsPulseOn t x n) = g x)
    (frame : ∀ sec six x m, g (irigFrame sec six x m) = g x) (sec : Nat) (six : Bool) (s : State) :
    g (upto 2 (irigFrame sec six) (upto 8 (ppsPulseOn (sec * secTicks)) s)) = g s :=
  (upto_kept 2 (fun x m _ => frame sec six x m) _).trans (upto_kept 8 (fun x n _ => pulse _ x n) s)

theorem ppsPulseOn_kept (t : Nat) (s : State) (n : Nat) : (ppsPulseOn t s n).regs = s.regs ∧ (ppsPulseOn t s n).mem = s.mem ∧
    (ppsPulseOn t s n).coreAwake = s.coreAwake ∧ (ppsPulseOn t s n).time.ppsOwed = s.time.ppsOwed ∧
    (ppsPulseOn t s n).time.ppsMax = s.time.ppsMax := by
  unfold ppsPulseOn
  dsimp only
  split <;> exact ⟨rfl, rfl, rfl, rfl, rfl⟩

theorem irigFrame_kept (sec : Nat) (six : Bool) (s : State) (m : Nat) : (irigFrame sec six s m).regs = s.regs ∧
    (irigFrame sec six s m).mem = s.mem ∧ (irigFrame sec six s m).coreAwake = s.coreAwake ∧
    (irigFrame sec six s m).time = s.time := by
  unfold irigFrame
  dsimp only
  split <;> exact ⟨rfl, rfl, rfl, rfl⟩

theorem ppsOutputs_frame (sec : Nat) (six : Bool) (s : State) :
    let t := upto 2 (irigFrame sec six) (upto 8 (ppsPulseOn (sec * secTicks)) s)
    t.regs = s.regs ∧ t.mem = s.mem ∧ t.coreAwake = s.coreAwake ∧ t.time.ppsOwed = s.time.ppsOwed ∧
      t.time.ppsMax = s.time.ppsMax := by
  have h := ppsOutputs_kept (g := fun x => (x.regs, x.mem, x.coreAwake, x.time.ppsOwed, x.time.ppsMax))
    (fun t x n => by simp only [ppsPulseOn_kept]) (fun sec six x m => by simp only [irigFrame_kept]) sec six s
  simpa only [Prod.mk.injEq] using h

/-- REPEAT of a label (R90). -/
theorem label_repeat (six again : Bool) (flags : Nat) : ((b2n six + 2 * b2n again + 4 * flags) % 2 ^ 32).testBit 1 = again := by
  rw [Nat.testBit_mod_two_pow, Nat.testBit_eq_decide_div_mod_eq]
  cases six <;> cases again <;> simp [b2n] <;> omega

/-- A PPS event changes among Plain's registers those of its label and its count. -/
theorem rd_ppsShown (s : State) (sec : Nat) (again : Bool) {k : Nat} (h : TimeReg k) :
    rd (ppsShown s sec again) k = rd (bump (ppsLabel s sec again) (rTIME 0xBC)) k :=
  (rd_event (by decide) h.fault h.evt).trans (rd_congr (ppsOutputs_frame ..).1 k)

/-- What a PPS event shows (R90). -/
theorem ppsShown_shows (s : State) (sec : Nat) (again : Bool) :
    rn (ppsShown s sec again) (rTIME 0xB0) = sec % 2 ^ 32 ∧
    rn (ppsShown s sec again) (rTIME 0xBC) = min (rn s (rTIME 0xBC) + 1) (2 ^ 32 - 1) ∧
    rbit (ppsShown s sec again) (rTIME 0xB8) 1 = again := by
  have shown {o : Nat} (ho : o < 0x10000) := rd_ppsShown s sec again (rTIME_timeReg ho)
  refine ⟨?_, ?_, ?_⟩
  · rw [rn, shown (by decide), rd_bump (by decide) (by decide), ← rn, ppsLabel]
    rw [rn_wr_ne _ _ (by decide), rn_wr_ne _ _ (by decide), rn_wr_same]
  · rw [rn, shown (by decide), ← rn, rn_bump_same (by decide), ppsLabel]
    rw [rn_wr_ne _ _ (by decide), rn_wr_ne _ _ (by decide), rn_wr_ne _ _ (by decide)]
  · rw [rbit_congr (shown (by decide)), rbit_congr (rd_bump (by decide) (by decide)), ppsLabel]
    rw [rbit, rn_wr_same, label_repeat]

/-- What a PPS event leaves before its snapshot. -/
theorem ppsShown_keeps (s : State) (sec : Nat) (again : Bool) :
    (ppsShown s sec again).mem = s.mem ∧ (ppsShown s sec again).coreAwake = s.coreAwake ∧
    (ppsShown s sec again).time.ppsOwed = s.time.ppsOwed ∧ (ppsShown s sec again).time.ppsMax = s.time.ppsMax := by
  have e := event_same (upto 2 (irigFrame sec (decide (armedLeap s = 1 ∧ sec + 1 = leapAt s)))
    (upto 8 (ppsPulseOn (sec * secTicks)) (bump (ppsLabel s sec again) (rTIME 0xBC)))) 8
  obtain ⟨-, mem, awake, owed, latest⟩ := ppsOutputs_frame sec (decide (armedLeap s = 1 ∧ sec + 1 = leapAt s))
    (bump (ppsLabel s sec again) (rTIME 0xBC))
  have b := bump_same (ppsLabel s sec again) (rTIME 0xBC)
  refine ⟨?_, ?_, ?_, ?_⟩
  · exact (e.get_mem rfl).trans (mem.trans (b.get_mem rfl))
  · exact (e.get_coreAwake rfl).trans (awake.trans (b.get_coreAwake rfl))
  · exact (congrArg TimeSt.ppsOwed (e.get_time rfl)).trans (owed.trans (congrArg TimeSt.ppsOwed (b.get_time rfl)))
  · exact (congrArg TimeSt.ppsMax (e.get_time rfl)).trans (latest.trans (congrArg TimeSt.ppsMax (b.get_time rfl)))

theorem snapWake_awake {s : State} (h : s.coreAwake = true) : snapWake s = s := if_neg fun hs => hs.2 h

/-- The snapshot of a PPS event leaves time and, while the core domain is awake, memory. -/
theorem ppsSnap_keeps {s : State} (h : s.coreAwake = true) (sec : Nat) :
    (ppsSnap s sec).mem = s.mem ∧ (ppsSnap s sec).time = s.time ∧ ∀ k, TimeReg k → rd (ppsSnap s sec) k = rd s k := by
  unfold ppsSnap
  dsimp only
  split
  · split
    · have e := snapTrigger_same { s with snap := { s.snap with ppsCount := 0 } } 4 ((sec * secTicks : Nat) : Rat) none
      rw [snapWake_awake ((e.get_coreAwake rfl).trans h)]
      exact ⟨e.get_mem rfl, e.get_time rfl, fun k hk => hk.rd_snapTrigger _ _ _ _⟩
    · exact ⟨rfl, rfl, fun _ _ => rfl⟩
  · exact ⟨rfl, rfl, fun _ _ => rfl⟩

/-- A device second that Plain has passed and that nothing holds gives its PPS event (R88, R90). -/
theorem ppsEvent_acts {n : Nat} {rest : List Nat} {s : State} (ho : s.time.ppsOwed = n :: rest) (ha : s.coreAwake = true)
    (hg : (rbit s (rTIME 0xA0) 31 && s.time.notSet) = false) :
    ∃ t, exec .ppsEvent s = .next t ∧ t.time.ppsOwed = rest ∧ t.time.ppsMax = max s.time.ppsMax n ∧
      rn t (rTIME 0xB0) = n % 2 ^ 32 ∧ rn t (rTIME 0xBC) = min (rn s (rTIME 0xBC) + 1) (2 ^ 32 - 1) ∧
      rbit t (rTIME 0xB8) 1 = decide (n ≤ s.time.ppsMax) ∧ MemKept s t := by
  let x : State := { s with time := { s.time with ppsOwed := rest, ppsMax := max s.time.ppsMax n } }
  let y := ppsShown x n (decide (n ≤ s.time.ppsMax))
  have next : exec .ppsEvent s = .next (ppsSnap y n) := by
    have gate : ¬ (rbit s (rTIME 0xA0) 31 = true ∧ s.time.notSet = true) := by
      rw [← Bool.and_eq_true, hg]
      exact Bool.false_ne_true
    show Host.Outcome.next (ppsNext s) = _
    unfold ppsNext
    rw [ho]
    exact congrArg Host.Outcome.next (if_neg gate)
  obtain ⟨mem, awake, owed, latest⟩ := ppsShown_keeps x n (decide (n ≤ s.time.ppsMax))
  obtain ⟨hsec, hcnt, hagain⟩ := ppsShown_shows x n (decide (n ≤ s.time.ppsMax))
  obtain ⟨snapMem, snapTime, snapRegs⟩ := ppsSnap_keeps (s := y) (awake.trans ha) n
  have reg {o : Nat} (h : o < 0x10000) : rd (ppsSnap y n) (rTIME o) = rd y (rTIME o) := snapRegs _ (rTIME_timeReg h)
  refine ⟨_, next, ?_, ?_, ?_, ?_, ?_, memKept_of_mem (snapMem.trans mem)⟩
  · rw [snapTime, owed]
  · rw [snapTime, latest]
  · rw [rn, reg (by decide), ← rn, hsec]
  · rw [rn, reg (by decide), ← rn, hcnt]
    rfl
  · rw [rbit_congr (reg (by decide)), hagain]

/-! ## The end of a pulse -/

theorem ppsOver_iff (s : State) (n : Nat) : ppsOver s n = true ↔ mget (fun _ => (0 : Int)) s.time.ppsFrom n +
    (min (max 1 (rb s (rTIME 0xA0) 0 19)) 500000 * 1000 : Nat) ≤ (cycNo s : Int) := by
  have w : atLeast1 (rb s (rTIME 0xA0) 0 19) = max 1 (rb s (rTIME 0xA0) 0 19) := by
    unfold atLeast1
    split <;> omega
  rw [ppsOver, decide_eq_true_iff, ppsWidth, w]

/-- A set of outputs with the bit of one of them replaced. -/
theorem testBit_clr_or (a n j : Nat) (b : Bool) : (clr a (2 ^ n) ||| 2 ^ n * b2n b).testBit j = if j = n then b else a.testBit j := by
  rw [Nat.testBit_or, clr_testBit, Nat.testBit_two_pow]
  cases b <;> by_cases h : j = n <;> simp [b2n, h, Ne.symm]

theorem exec_ppsPulseEnd (s : State) (n : Fin 8) : exec (.ppsPulseEnd n) s =
    .next (if s.time.ppsPulse.testBit n = true ∧ ppsOver s n = true then ppsEnd s n else s) := rfl

/-- Settles O16: the armed leap, the events of the seconds owed, and the ends of pulses, each by its condition. -/
theorem leapAndPpsActAtTheirSecond : Obligations.LeapAndPpsActAtTheirSecond := by
  refine ⟨fun s => ⟨fun hp hat h70 h74 => ?_, fun hp hat h70 => leapApply_discarded hp hat h70, fun h => ?_⟩,
    fun s ho => ?_, fun n rest s ho hg => ?_, fun n rest s ho ha hg => ppsEvent_acts ho ha hg,
    fun n s => ⟨fun hpulse hlasted => ?_, fun h => ?_⟩⟩
  · have utc : rb (wb (leapArmed (utcMoved s) false) (rTIME 0x74) 0 2 0) (rTIME 0x70) 0 16 =
        (rb s (rTIME 0x70) 0 16 + (if rb s (rTIME 0x74) 0 2 = 1 then 1 else 65535)) % 2 ^ 16 :=
      (rb_congr (rd_wb_ne _ _ _ _ (by decide)) 0 16).trans (rb_utcMoved s)
    refine ⟨_, leapApply_moves hp hat h70 h74, rfl, rb_wb_same _ _ _ _ _ (by decide), fun h1 => ?_, fun h2 => ?_,
      fun o h h' => ?_, rfl⟩
    · rw [utc, if_pos h1]
    · rw [utc, if_neg (by omega)]
    · exact (rd_wb_ne _ _ _ _ h').trans (rd_wb_ne s _ _ _ h)
  · rw [exec_leapApply, if_neg]
    rintro ⟨hp, hat⟩
    exact h.elim (fun h => Bool.false_ne_true (h.symm.trans hp)) (fun h => absurd hat (by omega))
  · show Host.Outcome.next (ppsNext s) = _
    rw [ppsNext, ho]
  · refine ⟨{ s with time := { s.time with ppsOwed := rest } }, ?_, rfl⟩
    show Host.Outcome.next (ppsNext s) = _
    unfold ppsNext
    rw [ho]
    exact congrArg Host.Outcome.next (if_pos (Bool.and_eq_true_iff.1 hg))
  · refine ⟨_, by rw [exec_ppsPulseEnd, if_pos ⟨hpulse, (ppsOver_iff s n).2 hlasted⟩], ?_, fun j hj => ⟨?_, ?_⟩, ?_, rfl, rfl⟩
    · exact (clr_testBit ..).trans (by rw [Nat.testBit_two_pow_self]; exact Bool.and_false _)
    · exact (clr_testBit ..).trans (by rw [Nat.testBit_two_pow_of_ne hj.symm]; exact Bool.and_true _)
    · exact (testBit_clr_or ..).trans (if_neg hj)
    · exact (testBit_clr_or ..).trans (if_pos rfl)
  · rw [exec_ppsPulseEnd, if_neg]
    rintro ⟨hpulse, hover⟩
    exact h.elim (fun h => Bool.false_ne_true (h.symm.trans hpulse)) (fun h => h ((ppsOver_iff s n).1 hover))

end Sys2Proof.Machine
end

section
/-!
PROOFS. The entry of an action in the queues that its target names (R80, R148, R299, R301).
-/
namespace Sys2Proof.Machine
open Sys2Proof

/-! ## One queue -/

/-- The state with a queue of timed actions. -/
def putQueue (s : State) (y : QueueIx) (q : List QAct) : State :=
  match y with
  | .fod n => setFod s n.val { fod s n.val with queue := q }
  | .sc n => setSc s n.val { sc s n.val with queue := q }
  | .plain => { s with time := { s.time with queue := q } }
  | .snap => { s with snap := { s.snap with queue := q } }

/-- The fields of the state that hold the queues, and the order of entry: order, time, snap, scs, fods. -/
def queueFields : Nat := 116744

theorem putQueue_same (s : State) (y : QueueIx) (q : List QAct) : Same queueFields s (putQueue s y q) := by
  cases y with
  | fod n => exact (setFod_same s n.val _).mono rfl
  | sc n => exact (setSc_same s n.val _).mono rfl
  | plain => exact Same.put_time rfl (Same.refl _ s)
  | snap => exact Same.put_snap rfl (Same.refl _ s)

theorem queueOf_putQueue (s : State) (y z : QueueIx) (q : List QAct) :
    queueOf (putQueue s y q) z = if z = y then q else queueOf s z := by
  cases y with
  | fod n =>
    cases z with
    | fod m =>
      by_cases h : m = n
      · subst h
        simp [queueOf, putQueue]
      · simp [queueOf, putQueue, h, fod_setFod_ne s n.val _ (Fin.val_ne_of_ne h)]
    | _ => rfl
  | sc n =>
    cases z with
    | sc m =>
      by_cases h : m = n
      · subst h
        simp [queueOf, putQueue]
      · simp [queueOf, putQueue, h, sc_setSc_ne s n.val _ (Fin.val_ne_of_ne h)]
    | _ => rfl
  | plain => cases z <;> rfl
  | snap => cases z <;> rfl

/-- A queue is that of a state which agrees in the fields that hold it. -/
theorem queueOf_of_same {M : Nat} {s t : State} (h : Same M s t) (e : M &&& queueFields = 0) (y : QueueIx) :
    queueOf t y = queueOf s y := by
  have bit (i : Nat) (hi : queueFields.testBit i = true) : M.testBit i = false := by
    have := congrArg (fun v => v.testBit i) e
    simpa [Nat.testBit_and, hi] using this
  cases y with
  | fod n => rw [queueOf, fod, h.get_fods (bit 16 rfl), ← fod, queueOf]
  | sc n => rw [queueOf, sc, h.get_scs (bit 15 rfl), ← sc, queueOf]
  | plain => rw [queueOf, h.get_time (bit 11 rfl), queueOf]
  | snap => rw [queueOf, h.get_snap (bit 14 rfl), queueOf]

theorem queueOf_bumpOrder (s : State) (y : QueueIx) : queueOf (bumpOrder s) y = queueOf s y := by cases y <;> rfl

/-- The entry of an action in one queue. -/
def enterOne (s : State) (y : QueueIx) (st : Nat) (core : Option Nat) (k : ActKind) : Option State :=
  (qEnter s (queueOf s y) (queueCap y) st core k).map (fun q => bumpOrder (putQueue s y q))

theorem enterOne_takes {s : State} {y : QueueIx} (h : (queueOf s y).length < queueCap y) (st : Nat) (core : Option Nat)
    (k : ActKind) : enterOne s y st core k = some (bumpOrder (putQueue s y (queueOf s y ++ [mkAct s st core k]))) := by
  rw [enterOne, qEnter, if_neg (by omega)]
  rfl

theorem enterOne_full {s : State} {y : QueueIx} (h : ¬ (queueOf s y).length < queueCap y) (st : Nat) (core : Option Nat)
    (k : ActKind) : enterOne s y st core k = none := by
  rw [enterOne, qEnter, if_pos (by omega)]
  rfl

/-! ## The queues of a gang -/

/-- An action behind the actions of every FOD of a list. -/
def gangPut (s : State) (a : QAct) (l : List Nat) : State :=
  l.foldl (fun s m => setFod s m { fod s m with queue := (fod s m).queue ++ [a] }) s

theorem gangPut_same (s : State) (a : QAct) (l : List Nat) : Same 65536 s (gangPut s a l) :=
  Same.foldl (fun x m => setFod_same x m _) (Same.refl _ s)

theorem queue_gangPut (s : State) (a : QAct) {l : List Nat} (hl : l.Nodup) (m : Nat) :
    (fod (gangPut s a l) m).queue = (fod s m).queue ++ if m ∈ l then [a] else [] := by
  induction l generalizing s with
  | nil => simp [gangPut]
  | cons n l ih =>
    obtain ⟨hn, hl⟩ := List.nodup_cons.1 hl
    have step := ih (setFod s n { fod s n with queue := (fod s n).queue ++ [a] }) hl
    rw [gangPut, List.foldl_cons, ← gangPut, step]
    by_cases h : m = n
    · subst h
      simp [hn]
    · simp [h, fod_setFod_ne s n _ h]

theorem nodup_gangMembers (s : State) (g : Nat) : (gangMembers s g).Nodup := by
  unfold gangMembers
  split
  · exact List.nodup_nil
  · exact List.nodup_range.filter _

/-- The members of a gang are the FODs whose queues it names (R148). -/
theorem mem_gangMembers (s : State) (g : Fin 16) (n : Fin 128) :
    n.val ∈ gangMembers s g.val ↔ targetHas s (.gang g) (.fod n) = true := by
  unfold gangMembers
  by_cases h : g.val = 0
  · simp [h, targetHas]
  · simp [h, targetHas]

theorem lt_of_mem_gangMembers {s : State} {g n : Nat} (h : n ∈ gangMembers s g) : n < 128 := by
  unfold gangMembers at h
  split at h
  · cases h
  · exact List.mem_range.1 (List.mem_filter.1 h).1

theorem queueOf_gangPut (s : State) (a : QAct) (g : Fin 16) (y : QueueIx) :
    queueOf (gangPut s a (gangMembers s g)) y = queueOf s y ++ if targetHas s (.gang g) y then [a] else [] := by
  have e := gangPut_same s a (gangMembers s g)
  cases y with
  | fod n =>
    rw [queueOf, queue_gangPut s a (nodup_gangMembers s g)]
    simp only [mem_gangMembers]
    rfl
  | sc n => rw [queueOf, sc, e.get_scs rfl]; exact (List.append_nil _).symm
  | plain => rw [queueOf, e.get_time rfl]; exact (List.append_nil _).symm
  | snap => rw [queueOf, e.get_snap rfl]; exact (List.append_nil _).symm

/-- A gang takes an action where it has members of which none refuses it (R148). -/
theorem targetTakes_gang (s : State) (g : Fin 16) : targetTakes s (.gang g) = true ↔
    gangMembers s g ≠ [] ∧ gangRefused s (gangMembers s g) = false := by
  have any : (List.finRange 128).any (fun n => targetHas s (.gang g) (.fod n)) = true ↔ gangMembers s g ≠ [] := by
    rw [List.any_eq_true]
    constructor
    · rintro ⟨n, -, hn⟩
      exact List.ne_nil_of_mem ((mem_gangMembers s g n).2 hn)
    · intro h
      obtain ⟨n, hn⟩ := List.exists_mem_of_ne_nil _ h
      exact ⟨⟨n, lt_of_mem_gangMembers hn⟩, List.mem_finRange _, (mem_gangMembers s g ⟨n, _⟩).1 hn⟩
  have all : (List.finRange 128).all (fun n => !targetHas s (.gang g) (.fod n) ||
      (decide ((fod s n.val).queue.length < 8) && !(fod s n.val).fenced)) = true ↔ gangRefused s (gangMembers s g) = false := by
    rw [List.all_eq_true, gangRefused, List.any_eq_false]
    constructor
    · intro h n hn
      have hn' := (mem_gangMembers s g ⟨n, lt_of_mem_gangMembers hn⟩).1 hn
      have := h ⟨n, lt_of_mem_gangMembers hn⟩ (List.mem_finRange _)
      simp only [hn', Bool.not_true, Bool.false_or, Bool.and_eq_true, decide_eq_true_eq, Bool.not_eq_true'] at this
      simp [this.1, this.2]
    · intro h n _
      by_cases hn : targetHas s (.gang g) (.fod n) = true
      · have := h n.val ((mem_gangMembers s g n).2 hn)
        simp only [Bool.or_eq_true, decide_eq_true_eq, not_or, Bool.not_eq_true] at this
        simp [hn, this.2, Nat.lt_of_not_le this.1]
      · simp [hn]
  rw [targetTakes, Bool.and_eq_true, any, all]

theorem gangEnter_takes {s : State} {g : Fin 16} (h : targetTakes s (.gang g) = true) (st : Nat) (core : Option Nat) (k : ActKind) :
    gangEnter s g st core k = (bumpOrder (gangPut s (mkAct s st core k) (gangMembers s g)), true) := by
  obtain ⟨hne, hok⟩ := (targetTakes_gang s g).1 h
  unfold gangEnter
  split
  · rename_i e
    exact absurd e hne
  · rename_i n ms e
    rw [if_neg (by rw [← e, hok]; exact Bool.false_ne_true), ← e]
    rfl

/-- A gang that does not take an action changes no more than a report does. -/
theorem gangEnter_refuses {s : State} {g : Fin 16} (h : targetTakes s (.gang g) = false) (st : Nat) (core : Option Nat) (k : ActKind) :
    (gangEnter s g st core k).2 = false ∧ Same 8208 s (gangEnter s g st core k).1 ∧
      ∀ o, faultReg o = false → rd (gangEnter s g st core k).1 o = rd s o := by
  have hno : gangMembers s g = [] ∨ gangRefused s (gangMembers s g) = true := by
    by_contra hc
    obtain ⟨hne, hok⟩ := not_or.1 hc
    exact Bool.false_ne_true (h.symm.trans ((targetTakes_gang s g).2 ⟨hne, Bool.not_eq_true _ ▸ hok⟩))
  unfold gangEnter
  split
  · exact ⟨rfl, Same.refl _ s, fun _ _ => rfl⟩
  · rename_i n ms e
    rw [e] at hno
    have hr : gangRefused s (n :: ms) = true := hno.resolve_left (List.cons_ne_nil n ms)
    have hn : n < 128 := lt_of_mem_gangMembers (e ▸ List.mem_cons_self)
    rw [if_pos hr]
    exact ⟨rfl, raise_same s _ _ _ _ _, fun o ho => rd_raise (by unfold srcFod; omega) ho⟩

/-! ## The target of a timed-action instruction -/

/-- The entry of core n's action in the queues that its target names, none where the target refuses it. -/
def timedEnter (s : State) (n st : Nat) (x : ActTarget) (k : ActKind) : Option State :=
  match x with
  | .one y => enterOne s y st (some n) k
  | .gang g => let r := gangEnter s g st (some n) k; if r.2 then some r.1 else none

/-- What a refusal of the target leaves. -/
def timedFull (s : State) (n st : Nat) (x : ActTarget) (k : ActKind) : State :=
  match x with
  | .one (.fod f) => raise s (srcFod f) kFodQueueFull (rFOD f 4)
  | .one (.sc c) => raise s (srcSc c) kScQueueFull (rSC c 4)
  | .one .plain => s
  | .one .snap => s
  | .gang g => (gangEnter s g st (some n) k).1

/-- The first register of the target (R310). -/
def timedFirst (s : State) (x : ActTarget) : Nat :=
  match x with
  | .one (.fod f) => rFOD f 0
  | .one (.sc c) => rSC c 0
  | .one .plain => rTIME 0
  | .one .snap => rSNAP 0
  | .gang g => rFOD ((gangMembers s g).headD 0) 0

/-- A timed-action instruction is the entry of R333's action in the queue of R333's target. -/
theorem seqDo_timed {s : State} {n st : Nat} {i : OInstr} {x : ActTarget} {k : ActKind} (h : timedRule s n i = some (st, x, k))
    (pc : Nat) (ecc : Bool) : seqDo s n pc ecc i = seqEnter s n pc st (timedEnter s n st x k) (timedFirst s x) (timedFull s n st x k) := by
  cases i with
  | hopAt | phsFod | phsPlain | ratSc | ratRate | ratStop | oenAt | gangAt | snapAt =>
    simp only [timedRule, Option.some.injEq, Prod.mk.injEq] at h
    obtain ⟨rfl, rfl, rfl⟩ := h
    rfl
  | _ => cases (show none = some (st, x, k) from h)

theorem timedEnter_takes {s : State} {x : ActTarget} (h : targetTakes s x = true) (n st : Nat) (k : ActKind) :
    ∃ t, timedEnter s n st x k = some t ∧ Same queueFields s t ∧
      ∀ y, queueOf t y = queueOf s y ++ if targetHas s x y then [mkAct s st (some n) k] else [] := by
  cases x with
  | one y =>
    refine ⟨_, enterOne_takes (of_decide_eq_true h) st (some n) k, (putQueue_same s y _).trans ((bumpOrder_same _).mono rfl), fun z => ?_⟩
    rw [queueOf_bumpOrder, queueOf_putQueue]
    by_cases e : z = y
    · simp [targetHas, e]
    · simp [targetHas, e]
  | gang g =>
    refine ⟨bumpOrder (gangPut s (mkAct s st (some n) k) (gangMembers s g)), ?_,
      ((gangPut_same s _ _).mono rfl).trans ((bumpOrder_same _).mono rfl), fun y => queueOf_gangPut s _ g y⟩
    simp [timedEnter, gangEnter_takes h]

theorem timedEnter_full {s : State} {x : ActTarget} (h : targetTakes s x = false) (n st : Nat) (k : ActKind) :
    timedEnter s n st x k = none ∧ Same 8208 s (timedFull s n st x k) ∧
      ∀ o, faultReg o = false → rd (timedFull s n st x k) o = rd s o := by
  cases x with
  | one y =>
    refine ⟨enterOne_full (of_decide_eq_false h) st (some n) k, ?_⟩
    cases y with
    | fod f => exact ⟨raise_same s _ _ _ _ _, fun o ho => rd_raise (by unfold srcFod; omega) ho⟩
    | sc c => exact ⟨raise_same s _ _ _ _ _, fun o ho => rd_raise (by unfold srcSc; omega) ho⟩
    | plain => exact ⟨Same.refl _ s, fun _ _ => rfl⟩
    | snap => exact ⟨Same.refl _ s, fun _ _ => rfl⟩
  | gang g =>
    obtain ⟨no, same, regs⟩ := gangEnter_refuses h st (some n) k
    exact ⟨by simp [timedEnter, no], same, regs⟩

end Sys2Proof.Machine
end

section
/-!
PROOFS. What follows an instruction of an Oarva core: the count of its cycles, the end of a step, what an exception saves (R304,
R310, R311, R316).
-/
namespace Sys2Proof.Machine
open Sys2Proof

theorem faultReg_rSEQ (n o : Nat) : faultReg (rSEQ n o) = false := faultReg_false_of_ge (by unfold rSEQ; omega)

theorem rSEQ_ne (n : Nat) {a b : Nat} (h : a ≠ b) : rSEQ n a ≠ rSEQ n b := fun e => h (Nat.add_left_cancel e)

/-- A core issues the instruction at its PC where the row names it. -/
theorem seqOp_issues {s : State} {n : Nat} {i : OInstr} {mn : Mn} (hm : i.mn = mn) (h : SeqIssues s n i) :
    seqOp s n mn = seqAfter n (seqPc s n) (seqCycles s n i) (seqStallMax s n i) (seqDo (bpDone s n) n (seqPc s n) false i) := by
  obtain ⟨⟨-, runs⟩, fetch⟩ := h
  rw [seqOp, seqIssue, if_pos runs, fetch]
  exact if_pos hm

/-! ## PC, the count of cycles, the halt -/

theorem seqPc_setPc (s : State) (n v : Nat) : seqPc (setPc s n v) n = v % 4096 := by
  rw [seqPc, rb, setPc, rn_wr_same]
  show v % 4096 % 2 ^ 32 % 2 ^ 12 = v % 4096
  omega

theorem seqPc_congr {s t : State} {n : Nat} (h : rd t (rSEQ n 0x0C) = rd s (rSEQ n 0x0C)) : seqPc t n = seqPc s n := rb_congr h _ _

theorem seqc_congr {s t : State} (h : t.seqs = s.seqs) (n : Nat) : seqc t n = seqc s n := by rw [seqc, h, seqc]

theorem rd_seqCount {s : State} {n c o : Nat} {stall : Option Nat} (hf : faultReg o = false) (h : o ≠ rSEQ n 0x50) :
    rd (seqCount s n c stall) o = rd s o := by
  unfold seqCount
  split
  · exact rd_bump hf h
  · exact rd_bump (s := { s with free := s.free + 1 }) hf h
  · exact rd_bump (s := { s with free := s.free + 1 }) hf h

theorem rd_seqHaltAs {s : State} {n why o : Nat} (h : o ≠ rSEQ n 4) : rd (seqHaltAs s n why) o = rd s o :=
  (rd_wb_ne _ _ _ _ h).trans (rd_wb_ne _ _ _ _ h)

/-- A core that halts is HALTED, for its reason (R319). -/
theorem seqHaltAs_halts (s : State) (n : Nat) {why : Nat} (h : why < 8) :
    rb (seqHaltAs s n why) (rSEQ n 4) 0 3 = 0 ∧ rb (seqHaltAs s n why) (rSEQ n 4) 4 3 = why := by
  unfold seqHaltAs
  dsimp only
  constructor
  · rw [rb_wb_ne _ _ (by decide) (.inl (by decide)), rb_wb_same _ _ _ _ _ (by decide), Nat.zero_mod]
  · rw [rb_wb_same _ _ _ _ _ (by decide)]
    exact Nat.mod_eq_of_lt h

theorem seqc_seqHaltAs_ne (s : State) {n k : Nat} (why : Nat) (h : k ≠ n) : seqc (seqHaltAs s n why) k = seqc s k :=
  seqc_setSeqc_ne s n _ h

theorem rd_stepEnd {s : State} {n o : Nat} (h : o ≠ rSEQ n 4) : rd (stepEnd s n) o = rd s o := by
  unfold stepEnd
  split
  · exact rd_seqHaltAs h
  · rfl

theorem seqc_stepEnd_ne (s : State) {n k : Nat} (h : k ≠ n) : seqc (stepEnd s n) k = seqc s k := by
  unfold stepEnd
  split
  · exact seqc_seqHaltAs_ne s 4 h
  · rfl

theorem stepEnd_running {s : State} {n : Nat} (h : (seqc s n).stepping = false) : stepEnd s n = s :=
  if_neg fun hs => Bool.false_ne_true (h.symm.trans hs.1)

/-- An instruction that completes retires its core (R304, R316, R324). `w` is the state in which it has acted: PC stands at the next
instruction, and the core is RUNNING and steps as before. -/
theorem seqAfter_retires {s w : State} {n pc next c : Nat} {stall : Option Nat} {but : List Nat} (hs : rb s (rSEQ n 4) 0 3 = 1)
    (h4 : rd w (rSEQ n 4) = rd s (rSEQ n 4)) (hpc : seqPc w n = next % 4096) (hr : RegsKept s w ([rSEQ n 0x0C] ++ but))
    (hq : w.seqs = (bpDone s n).seqs) : SeqRetired s (seqAfter n pc c stall (.ok w)) n next but := by
  let u := seqCount w n c stall
  have runs : rb w (rSEQ n 4) 0 3 = 1 := (rb_congr h4 0 3).trans hs
  have after : seqAfter n pc c stall (.ok w) = stepEnd u n := if_neg (by rw [runs]; decide)
  have seqs : u.seqs = (bpDone s n).seqs := ((seqCount_same w n c stall).get_seqs rfl).trans hq
  have stepping : (seqc u n).stepping = (seqc s n).stepping := by
    rw [seqc_congr seqs, bpDone, seqc_setSeqc_same]
  have u4 : rd u (rSEQ n 4) = rd s (rSEQ n 4) := (rd_seqCount (faultReg_rSEQ n 4) (rSEQ_ne n (by decide))).trans h4
  rw [after]
  refine ⟨?_, fun o ho hb => ?_, fun hn => ?_, fun hy => ?_, fun k hk => ?_⟩
  · rw [seqPc_congr ((rd_stepEnd (rSEQ_ne n (by decide))).trans (rd_seqCount (faultReg_rSEQ n _) (rSEQ_ne n (by decide)))), hpc]
  · simp only [List.mem_append, List.mem_cons, List.not_mem_nil, or_false, not_or] at hb
    obtain ⟨⟨h0C, h50, h04⟩, hbut⟩ := hb
    rw [rd_stepEnd h04, rd_seqCount ho h50]
    exact hr o ho (by simp [h0C, hbut])
  · rw [stepEnd_running (stepping.trans hn), u4]
  · rw [stepEnd, if_pos ⟨stepping.trans hy, (rb_congr u4 0 3).trans hs⟩]
    exact seqHaltAs_halts u n (by decide)
  · rw [seqc_stepEnd_ne u hk, seqc_congr seqs, bpDone, seqc_setSeqc_ne s n _ hk]

/-! ## Exceptions -/

/-- The registers of core n that an exception changes (R311). -/
def excRegs (n : Nat) : List Nat := [rSEQ n 4, rSEQ n 0x0C, rSEQ n 0x14, rSEQ n 0x18, rSEQ n 0x1C, rSEQ n 0x20]

theorem rd_seqExcept {s : State} {n pc o : Nat} {c : Cause310} (hn : n < 8) (hf : faultReg o = false) (h : o ∉ excRegs n) :
    rd (seqExcept s n pc c) o = rd s o := by
  simp only [excRegs, List.mem_cons, List.not_mem_nil, or_false, not_or] at h
  obtain ⟨h04, h0C, h14, h18, h1C, h20⟩ := h
  have filed (kind addr m a : Nat) : rd (raise s (srcSeq n) kind addr m a) o = rd s o :=
    rd_raise (by unfold srcSeq; omega) hf
  have pcKept (x : State) (v : Nat) : rd (setPc x n v) o = rd x o := rd_wr_ne _ _ h0C
  unfold seqExcept
  dsimp only
  split
  · rw [rd_seqHaltAs h04, pcKept, filed]
  split
  · rw [rd_seqHaltAs h04, pcKept, rd_wr_ne _ _ h14, filed]
  split
  · rw [pcKept, rd_wb_ne _ _ _ _ h04, rd_wr_ne _ _ h20, rd_wr_ne _ _ h1C, rd_wr_ne _ _ h18, rd_wr_ne _ _ h14, filed]
  · rw [rd_seqHaltAs h04, pcKept, rd_wb_ne _ _ _ _ h04, rd_wr_ne _ _ h20, rd_wr_ne _ _ h1C, rd_wr_ne _ _ h18, rd_wr_ne _ _ h14,
      filed]

/-- What an exception that is neither DOUBLE nor ECC files and saves (R311). -/
def excSaved (s : State) (n pc : Nat) (c : Cause310) : State :=
  let s := wr (raise s (srcSeq n) c.kind (c.addr % 2 ^ 24) (5 + n) c.access) (rSEQ n 0x14) ((pc + b2n c.after) % 4096)
  let s := wr (wr (wr s (rSEQ n 0x18) c.kind) (rSEQ n 0x1C) (c.addr % 2 ^ 24)) (rSEQ n 0x20) (seqFlg s n).word
  wb s (rSEQ n 4) 7 1 1

theorem seqExcept_saved {s : State} {n : Nat} {c : Cause310} (pc : Nat) (hd : rbit s (rSEQ n 4) 7 = false) (hk : c.kind ≠ kEcc) :
    seqExcept s n pc c =
      if rbit (excSaved s n pc c) (rSEQ n 0) 0 then
        setPc (excSaved s n pc c) n (rb (excSaved s n pc c) (rSEQ n 0x28) 0 12)
      else seqHaltAs (setPc (excSaved s n pc c) n ((pc + b2n c.after) % 4096)) n 5 := by
  simp only [seqExcept, hd, Bool.false_eq_true, if_false, hk]
  rfl

theorem rn_excSaved (s : State) (n pc : Nat) (c : Cause310) : rn (excSaved s n pc c) (rSEQ n 0x18) = c.kind % 2 ^ 32 ∧
    rn (excSaved s n pc c) (rSEQ n 0x14) = (pc + b2n c.after) % 4096 := by
  have ne {a b : Nat} (h : a ≠ b) := rSEQ_ne n h
  unfold excSaved
  dsimp only
  constructor
  · rw [rn_wb_ne _ _ _ _ (ne (by decide)), rn_wr_ne _ _ (ne (by decide)), rn_wr_ne _ _ (ne (by decide)), rn_wr_same]
  · rw [rn_wb_ne _ _ _ _ (ne (by decide)), rn_wr_ne _ _ (ne (by decide)), rn_wr_ne _ _ (ne (by decide)),
      rn_wr_ne _ _ (ne (by decide)), rn_wr_same]
    omega

/-- An exception that is neither DOUBLE nor ECC saves its kind and EPC (R311). -/
theorem seqExcept_saves {s : State} {n : Nat} {c : Cause310} (pc : Nat) (hd : rbit s (rSEQ n 4) 7 = false) (hk : c.kind ≠ kEcc) :
    rn (seqExcept s n pc c) (rSEQ n 0x18) = c.kind % 2 ^ 32 ∧
      rn (seqExcept s n pc c) (rSEQ n 0x14) = (pc + b2n c.after) % 4096 := by
  have kept {o : Nat} (h4 : o ≠ rSEQ n 4) (hC : o ≠ rSEQ n 0x0C) : rn (seqExcept s n pc c) o = rn (excSaved s n pc c) o := by
    rw [seqExcept_saved pc hd hk]
    split
    · exact rn_wr_ne _ _ hC
    · rw [rn, rd_seqHaltAs h4, ← rn]
      exact rn_wr_ne _ _ hC
  rw [kept (rSEQ_ne n (by decide)) (rSEQ_ne n (by decide)), kept (rSEQ_ne n (by decide)) (rSEQ_ne n (by decide))]
  exact rn_excSaved s n pc c

/-- The fields of the state that what follows an instruction can change: free, regs, fcol, seqs. -/
theorem seqAfter_exc_same (w : State) (n pc c : Nat) (stall : Option Nat) (e : Cause310) :
    Same 1099511635986 w (seqAfter n pc c stall (.exc e w)) :=
  ((seqCount_same w n _ stall).mono rfl).trans (((seqExcept_same _ n pc e).mono rfl).trans ((stepEnd_same _ n).mono rfl))

theorem seqAfter_ok_same (w : State) (n pc c : Nat) (stall : Option Nat) :
    Same 1099511635986 w (seqAfter n pc c stall (.ok w)) := by
  unfold seqAfter
  dsimp only
  split
  · exact Same.refl _ w
  · exact ((seqCount_same w n _ stall).mono rfl).trans ((stepEnd_same _ n).mono rfl)

theorem rd_seqAfter_exc {w : State} {n pc c o : Nat} {stall : Option Nat} {e : Cause310} (hn : n < 8) (hf : faultReg o = false)
    (h50 : o ≠ rSEQ n 0x50) (h : o ∉ excRegs n) : rd (seqAfter n pc c stall (.exc e w)) o = rd w o :=
  (rd_stepEnd fun h4 => h (by rw [h4]; exact List.mem_cons_self)).trans ((rd_seqExcept hn hf h).trans (rd_seqCount hf h50))

theorem rd_seqAfter_ok {w : State} {n pc c o : Nat} {stall : Option Nat} (hf : faultReg o = false) (h50 : o ≠ rSEQ n 0x50)
    (h04 : o ≠ rSEQ n 4) : rd (seqAfter n pc c stall (.ok w)) o = rd w o := by
  unfold seqAfter
  dsimp only
  split
  · rfl
  · exact (rd_stepEnd h04).trans (rd_seqCount hf h50)

/-- What an exception that is neither DOUBLE nor ECC leaves once its instruction is over. -/
theorem seqAfter_exc_saves {w : State} {n pc c : Nat} {stall : Option Nat} {e : Cause310}
    (hd : rbit w (rSEQ n 4) 7 = false) (hk : e.kind ≠ kEcc) :
    rn (seqAfter n pc c stall (.exc e w)) (rSEQ n 0x18) = e.kind % 2 ^ 32 ∧
      rn (seqAfter n pc c stall (.exc e w)) (rSEQ n 0x14) = (pc + b2n e.after) % 4096 := by
  have hd' : rbit (seqCount w n (c + 3) stall) (rSEQ n 4) 7 = false :=
    (rbit_congr (rd_seqCount (faultReg_rSEQ n 4) (rSEQ_ne n (by decide))) 7).trans hd
  obtain ⟨kind, epc⟩ := seqExcept_saves pc hd' hk
  show rn (stepEnd _ n) _ = _ ∧ rn (stepEnd _ n) _ = _
  rw [rn, rd_stepEnd (rSEQ_ne n (by decide)), ← rn, kind, rn, rd_stepEnd (rSEQ_ne n (by decide)), ← rn, epc]
  exact ⟨rfl, rfl⟩

end Sys2Proof.Machine
end

section
/-!
PROOFS. O43: the timed-action instructions of the Oarva cores.
-/
namespace Sys2Proof.Machine
open Sys2Proof

section
variable {core : CoreIx} {k : CycIx} {i : OInstr} {st : Nat} {kind : ActKind} {x : ActTarget} {s : State}

/-- The instruction of a timed action that its target takes (R80, R299, R335). -/
theorem timedAction_enters {mn : Mn} (hm : i.mn = mn) (hi : SeqIssues s core.val i)
    (hr : timedRule s core.val i = some (st, x, kind)) (hx : targetTakes s x = true) :
    (∀ y : QueueIx, queueOf (seqOp (atCyc s k) core.val mn) y = queueOf s y ++
      if targetHas s x y then [mkAct (atCyc s k) st (some core.val) kind] else []) ∧
    rn (seqOp (atCyc s k) core.val mn) (rSEQ core.val 0x58) = min (rn s (rSEQ core.val 0x58) + 1) (2 ^ 32 - 1) ∧
    MemKept s (seqOp (atCyc s k) core.val mn) ∧
    ((entryLate (atCyc s k) st && rbit s (rSEQ core.val 0) 1) = false →
      SeqRetired s (seqOp (atCyc s k) core.val mn) core.val (seqPc s core.val + 1) [rSEQ core.val 0x58]) ∧
    (entryLate (atCyc s k) st = true → rbit s (rSEQ core.val 0) 1 = true → rbit s (rSEQ core.val 4) 7 = false →
      rn (seqOp (atCyc s k) core.val mn) (rSEQ core.val 0x18) = 0x05 ∧
      rn (seqOp (atCyc s k) core.val mn) (rSEQ core.val 0x14) = (seqPc s core.val + 1) % 4096) := by
  obtain ⟨n, hn⟩ := core
  let u := bpDone (atCyc s k) n
  obtain ⟨e, he, same, queues⟩ := timedEnter_takes (s := u) hx n st kind
  let t := bump e (rSEQ n 0x58)
  have ne {a b : Nat} (h : a ≠ b) := rSEQ_ne n h
  have tSame : Same 8208 e t := bump_same e _
  have regs : e.regs = s.regs := same.get_regs rfl
  have reg {o : Nat} (hf : faultReg o = false) (h : o ≠ rSEQ n 0x58) : rd t o = rd s o :=
    (rd_bump hf h).trans (rd_congr regs o)
  have count : rn t (rSEQ n 0x58) = min (rn s (rSEQ n 0x58) + 1) (2 ^ 32 - 1) := by
    rw [rn_bump_same (faultReg_rSEQ n _), rn_congr regs]
  have tQueues (y : QueueIx) : queueOf t y = queueOf s y ++
      if targetHas s x y then [mkAct (atCyc s k) st (some n) kind] else [] := (queueOf_of_same tSame rfl y).trans (queues y)
  have mem : t.mem = s.mem := (tSame.get_mem rfl).trans (same.get_mem rfl)
  have seqs : t.seqs = u.seqs := (tSame.get_seqs rfl).trans (same.get_seqs rfl)
  have op : seqOp (atCyc s k) n mn = seqAfter n (seqPc s n) (seqCycles (atCyc s k) n i) (seqStallMax (atCyc s k) n i)
      (if entryLate (atCyc s k) st = true ∧ rbit s (rSEQ n 0) 1 = true then .exc ⟨kLate, seqPc s n * 4, 0, true⟩ t
        else .ok (pcNext t n (seqPc s n))) := by
    have rule : timedRule u n i = some (st, x, kind) := hr
    rw [seqOp_issues hm (s := atCyc s k) hi, seqDo_timed rule, he]
    rfl
  rw [op]
  by_cases hl : entryLate (atCyc s k) st = true ∧ rbit s (rSEQ n 0) 1 = true
  · rw [if_pos hl]
    have after := seqAfter_exc_same t n (seqPc s n) (seqCycles (atCyc s k) n i) (seqStallMax (atCyc s k) n i)
      ⟨kLate, seqPc s n * 4, 0, true⟩
    refine ⟨fun y => (queueOf_of_same after rfl y).trans (tQueues y), ?_, memKept_of_mem ((after.get_mem rfl).trans mem),
      fun h => ?_, fun _ _ h7 => ?_⟩
    · rw [rn, rd_seqAfter_exc hn (faultReg_rSEQ n _) (ne (by decide)) (by simp [excRegs, rSEQ]), ← rn, count]
    · exact absurd (Bool.and_eq_true_iff.2 hl) (by rw [h]; exact Bool.false_ne_true)
    · exact seqAfter_exc_saves ((rbit_congr (reg (faultReg_rSEQ n 4) (ne (by decide))) 7).trans h7) (show kLate ≠ kEcc by decide)
  · rw [if_neg hl]
    have after := seqAfter_ok_same (pcNext t n (seqPc s n)) n (seqPc s n) (seqCycles (atCyc s k) n i)
      (seqStallMax (atCyc s k) n i)
    have pcSame : Same 16 t (pcNext t n (seqPc s n)) := pcNext_same t n _
    have retired : SeqRetired s (seqAfter n (seqPc s n) (seqCycles (atCyc s k) n i) (seqStallMax (atCyc s k) n i)
        (.ok (pcNext t n (seqPc s n)))) n (seqPc s n + 1) [rSEQ n 0x58] := by
      refine seqAfter_retires hi.1.1 ?_ (seqPc_setPc t n _) (fun o ho hb => ?_) seqs
      · exact (rd_wr_ne _ _ (ne (by decide))).trans (reg (faultReg_rSEQ n 4) (ne (by decide)))
      · have hb : o ≠ rSEQ n 0x0C ∧ o ≠ rSEQ n 0x58 := by simpa using hb
        exact (rd_wr_ne _ _ hb.1).trans (reg ho hb.2)
    refine ⟨fun y => ?_, ?_, memKept_of_mem ?_, fun _ => retired, fun h h1 => absurd ⟨h, h1⟩ hl⟩
    · exact (queueOf_of_same after rfl y).trans ((queueOf_of_same pcSame rfl y).trans (tQueues y))
    · rw [rn, rd_seqAfter_ok (faultReg_rSEQ n _) (ne (by decide)) (ne (by decide)), ← rn, pcNext, setPc,
        rn_wr_ne _ _ (ne (by decide)), count]
    · exact (after.get_mem rfl).trans ((pcSame.get_mem rfl).trans mem)

/-- The instruction of a timed action that its target does not take (R80, R335). -/
theorem timedAction_refused {mn : Mn} (hm : i.mn = mn) (hi : SeqIssues s core.val i)
    (hr : timedRule s core.val i = some (st, x, kind)) (hx : targetTakes s x = false) :
    (∀ y : QueueIx, queueOf (seqOp (atCyc s k) core.val mn) y = queueOf s y) ∧
    (rbit s (rSEQ core.val 4) 7 = false → rn (seqOp (atCyc s k) core.val mn) (rSEQ core.val 0x18) = 0x04 ∧
      rn (seqOp (atCyc s k) core.val mn) (rSEQ core.val 0x14) = seqPc s core.val) ∧
    MemKept s (seqOp (atCyc s k) core.val mn) := by
  let n := core.val
  let u := bpDone (atCyc s k) n
  let full := timedFull u n st x kind
  let cause : Cause310 := ⟨kSeqQueueFull, timedFirst u x, 0, false⟩
  obtain ⟨none, same, regs⟩ := timedEnter_full (s := u) hx n st kind
  have op : seqOp (atCyc s k) n mn = seqAfter n (seqPc s n) (seqCycles (atCyc s k) n i) (seqStallMax (atCyc s k) n i)
      (.exc cause full) := by
    have rule : timedRule u n i = some (st, x, kind) := hr
    rw [seqOp_issues hm (s := atCyc s k) hi, seqDo_timed rule, none]
    rfl
  have after := seqAfter_exc_same full n (seqPc s n) (seqCycles (atCyc s k) n i) (seqStallMax (atCyc s k) n i) cause
  rw [op]
  refine ⟨fun y => (queueOf_of_same after rfl y).trans (queueOf_of_same same rfl y), fun h7 => ?_,
    memKept_of_mem ((after.get_mem rfl).trans (same.get_mem rfl))⟩
  have saves := seqAfter_exc_saves (pc := seqPc s n) (c := seqCycles (atCyc s k) n i) (stall := seqStallMax (atCyc s k) n i)
    (e := cause) ((rbit_congr (regs _ (faultReg_rSEQ n 4)) 7).trans h7) (show kSeqQueueFull ≠ kEcc by decide)
  have pcFits : (seqPc s n + 0) % 4096 = seqPc s n := Nat.mod_eq_of_lt (Nat.mod_lt _ (by decide))
  exact ⟨saves.1, saves.2.trans pcFits⟩

end

/-- Settles O43: a timed action is one entry in the queues its target names, and what follows the instruction leaves every queue. -/
theorem timedActionsEnterTheirQueue : Obligations.TimedActionsEnterTheirQueue := by
  intro core k enters
  have row (c : Instr) (mn : Mn) (hc : ∀ s, exec c s = .next (seqOp (atCyc s k) core.val mn)) : enters c mn := by
    intro i st kind x s hm hi hr
    refine ⟨fun hx => ?_, fun hx _ => ?_⟩
    · obtain ⟨queues, count, mem, goesOn, late⟩ := timedAction_enters (k := k) hm hi hr hx
      exact ⟨_, hc s, queues, count, mem, goesOn, fun hl h1 h7 _ => late hl h1 h7⟩
    · exact ⟨_, hc s, timedAction_refused hm hi hr hx⟩
  exact ⟨row _ _ fun _ => rfl, row _ _ fun _ => rfl, row _ _ fun _ => rfl, row _ _ fun _ => rfl, row _ _ fun _ => rfl,
    row _ _ fun _ => rfl⟩

end Sys2Proof.Machine
end

section
/-!
PROOFS. The clock of Plain: what an AON boundary leaves of it outside the advance and the changes that act (R65, R77, R79, R88).
-/
namespace Sys2Proof.Machine
open Sys2Proof

/-- What a boundary at which nothing acts leaves as the advance has set it: Plain, the count of boundaries, the remaining slew,
the bits that wait, the queue, the seconds that wait for their PPS events. -/
structure Clock where
  plain : Nat
  aon : Nat
  slewRem : Int
  landed : Nat
  queue : List QAct
  ppsOwed : List Nat

/-- The clock of a state. -/
def clock (s : State) : Clock :=
  ⟨s.time.plain, s.time.aon, s.time.slewRem, s.time.landed, s.time.queue, s.time.ppsOwed⟩

theorem clock_of_same {M : Nat} {s t : State} (h : Same M s t) (e : M.testBit 11 = false) : clock t = clock s := by
  rw [clock, h.get_time e, clock]

theorem aon_of_clock {s t : State} (h : clock t = clock s) : t.time.aon = s.time.aon := congrArg Clock.aon h

/-! ## The flags of the readings (R74) -/

@[simp] theorem clock_pushFlags (s : State) : clock (pushFlags s) = clock s := rfl

@[simp] theorem clock_noteFlags (s : State) : clock (noteFlags s) = clock s := by
  unfold noteFlags
  split
  · split
    · rfl
    · rfl
  · rfl

/-! ## DPLLs and the interpolator -/

@[simp] theorem clock_wr (s : State) (o v : Nat) : clock (wr s o v) = clock s := rfl

@[simp] theorem clock_setDp (s : State) (d : Nat) (x : Dp) : clock (setDp s d x) = clock s := rfl

@[simp] theorem clock_scr (s : State) (x : Scr) : clock { s with scr := x } = clock s := rfl

@[simp] theorem clock_free_scr (s : State) (n : Nat) (x : Scr) : clock { s with free := n, scr := x } = clock s := rfl

@[simp] theorem clock_holdover (s : State) (b : Bool) : clock { s with time := { s.time with holdover := b } } = clock s := rfl

@[simp] theorem clock_orBits (s : State) (o v : Nat) : clock (orBits s o v) = clock s := rfl

@[simp] theorem clock_wL (s : State) (o n v : Nat) : clock (wL s o n v) = clock s := clock_of_same (wL_same s o n v) rfl

@[simp] theorem clock_wM (s : State) (o n v : Nat) : clock (wM s o n v) = clock s := clock_of_same (wM_same s o n v) rfl

@[simp] theorem clock_bumpM (s : State) (o n : Nat) : clock (bumpM s o n) = clock s := clock_of_same (bumpM_same s o n) rfl

@[simp] theorem clock_event (s : State) (b : Nat) : clock (event s b) = clock s := clock_of_same (event_same s b) rfl

@[simp] theorem clock_raise (s : State) (src kind addr m a : Nat) : clock (raise s src kind addr m a) = clock s :=
  clock_of_same (raise_same s src kind addr m a) rfl

@[simp] theorem clock_dpSwitch (s : State) (d : Nat) (new : Option (Nat × Nat)) : clock (dpSwitch s d new) = clock s :=
  clock_of_same (dpSwitch_same s d new) rfl

@[simp] theorem clock_enterFreerun (s : State) (d : Nat) : clock (enterFreerun s d) = clock s :=
  clock_of_same (enterFreerun_same s d) rfl

@[simp] theorem clock_holdoverOff (s : State) : clock (holdoverOff s) = clock s := by
  unfold holdoverOff
  exact (clock_noteFlags _).trans rfl

@[simp] theorem clock_enterHoldover (s : State) (d : Nat) (sel : Option (Nat × Nat)) : clock (enterHoldover s d sel) = clock s := by
  simp only [enterHoldover, apply_ite clock, clock_free_scr, clock_wL, clock_raise, clock_noteFlags, clock_holdover, clock_event,
    clock_bumpM, clock_orBits, clock_wM, clock_setDp, ite_self]

@[simp] theorem clock_dpEval (s : State) (d : Nat) : clock (dpEval s d) = clock s := by
  unfold dpEval
  generalize dpChoose s d = choice
  obtain ⟨new, wait⟩ := choice
  simp only [apply_ite clock, clock_wr, clock_setDp, clock_event, clock_raise, clock_dpSwitch, clock_enterFreerun,
    clock_holdoverOff, clock_enterHoldover, ite_self]

@[simp] theorem clock_dpPublish (s : State) (d : Nat) : clock (dpPublish s d) = clock s :=
  clock_of_same (dpPublish_same s d) rfl

@[simp] theorem clock_aonInterp (s : State) (slip : Bool) : clock (aonInterp s slip) = clock s := by
  have interp (x : State) (b : Bool) : clock { x with time := { x.time with interp := b } } = clock x := rfl
  simp only [aonInterp, apply_ite clock, clock_raise, interp, ite_self]

@[simp] theorem clock_aonWords (s : State) : clock (aonWords s) = clock s := by
  have word (x : State) (w : Int) : clock { x with time := { x.time with dpWord := w } } = clock x := rfl
  have watch (x : State) : clock (scrWatch x) = clock x := clock_of_same (scrWatch_same x) rfl
  simp only [aonWords, apply_ite clock, word, watch, clock_dpPublish, clock_dpEval, ite_self]

@[simp] theorem clock_aonDomains (s : State) : clock (aonDomains s) = clock s := by
  unfold aonDomains
  split
  · exact (clock_of_same (sendWords_same _) rfl).trans
      (upto_kept 3 (fun x d _ => (clock_dpPublish _ _).trans (clock_dpEval x (d + 1))) s)
  · rfl

/-! ## The rate word -/

@[simp] theorem clock_rateSet (s : State) : clock (rateSet s).1 = clock s := by
  have rates (x : State) (yb y ys : Int) (c : Bool) :
      clock { x with time := { x.time with ybase := yb, y := y, yslew := ys, clamped := c } } = clock x := rfl
  simp only [rateSet, apply_ite clock, clock_raise, clock_orBits, rates, ite_self]

@[simp] theorem clock_rateEntries (s : State) (facts : List (Nat × Rat)) (since : Option Nat) :
    clock (rateEntries s facts since) = clock s := clock_of_same (rateEntries_same s facts since) rfl

end Sys2Proof.Machine
end

section
/-!
PROOFS. The change of Plain at an AON boundary (R75 to R83): every change keeps the count of boundaries, and a boundary at which
nothing sets, steps or is due does no more than set the rate word.
-/
namespace Sys2Proof.Machine
open Sys2Proof

/-! ## The count of boundaries -/

theorem aon_of_same {M : Nat} {s t : State} (h : Same M s t) (e : M.testBit 11 = false) : t.time.aon = s.time.aon := by
  rw [h.get_time e]

@[simp] theorem aon_dropAct (s : State) (q : QId) (a : QAct) : (dropAct s q a).time.aon = s.time.aon := by cases q <;> rfl

@[simp] theorem aon_slewAdd (s : State) (amt : Int) (since : Option Nat) : (slewAdd s amt since).time.aon = s.time.aon := by
  unfold slewAdd
  split
  · rfl
  · exact aon_of_same (raise_same s _ _ _ _ _) rfl

@[simp] theorem aon_timeActRun (s : State) (a : QAct) (stepped : Bool) : (timeActRun s a stepped).time.aon = s.time.aon := by
  unfold timeActRun
  extract_lets _ acted late marked
  have hActed : acted.time.aon = s.time.aon := by
    unfold acted
    split
    · split
      · rfl
      · exact aon_of_same (raise_same s _ _ _ _ _) rfl
    · exact (aon_slewAdd _ _ _).trans (by split <;> rfl)
    · exact aon_of_same (wL_same s _ _ _) rfl
    · rfl
    · rfl
  have hLate : late.time.aon = acted.time.aon := by
    unfold late
    split <;> rfl
  have hMarked : marked.time.aon = late.time.aon := by
    unfold marked
    split <;> rfl
  rw [aon_of_same (actEvents_same marked a _ _) rfl, hMarked, hLate, hActed]

@[simp] theorem aon_actRun (s : State) (q : QId) (a : QAct) (t : Rat) (late : Option Int) (stepped : Bool) :
    (actRun s q a t late stepped).time.aon = s.time.aon := by
  cases q with
  | time => exact aon_dropAct s .time a
  | snap => exact (aon_of_same (snapActRun_same _ a t late stepped) rfl).trans (aon_dropAct s .snap a)
  | fod n => exact aon_of_same (fodActRun_same s n a t late stepped) rfl
  | sc n => exact (aon_of_same (scActRun_same _ n a t late stepped) rfl).trans (aon_dropAct s (.sc n) a)

@[simp] theorem aon_steppedActs (s : State) (d : Rat) (delta : Int) : (steppedActs s d delta).time.aon = s.time.aon := by
  unfold steppedActs
  refine foldl_kept (g := fun x => x.time.aon) (fun x p => ?_) _ s
  dsimp only
  split
  · split
    · exact aon_of_same (holdAct_same x p.2 p.1 _) rfl
    · exact aon_actRun x p.2 p.1 _ _ _
  · exact aon_actRun x p.2 p.1 _ _ _

@[simp] theorem aon_flushQueues (s : State) : (flushQueues s).time.aon = s.time.aon := by
  unfold flushQueues
  extract_lets _ cnt _ own fods scs _ snaps
  have hOwn : own.time.aon = s.time.aon := by
    unfold own
    split <;> rfl
  have hFods : fods.time.aon = own.time.aon := foldl_kept (g := fun x => x.time.aon) (fun x p => by split <;> rfl) _ own
  have hScs : scs.time.aon = fods.time.aon := foldl_kept (g := fun x => x.time.aon) (fun x p => by split <;> rfl) _ fods
  have hSnaps : snaps.time.aon = scs.time.aon := by
    unfold snaps
    split <;> rfl
  have kept : snaps.time.aon = s.time.aon := by rw [hSnaps, hScs, hFods, hOwn]
  split
  · exact kept
  · exact (aon_of_same (((bump_same snaps _ _).mono rfl).trans (raise_same _ _ _ _ _ _)) rfl).trans kept

@[simp] theorem aon_plainJump (s : State) (new : Nat) (facts : List (Nat × Rat)) (since : Option Nat) :
    (plainJump s new facts since).time.aon = s.time.aon := by
  unfold plainJump
  extract_lets d0 d1 delta a b _ moved skipped entered shifted tracked
  have hSkipped : skipped.time.aon = s.time.aon := by
    unfold skipped
    split
    · exact (aon_of_same (bump_same moved _ _) rfl).trans rfl
    · rfl
  have hEntered : entered.time.aon = skipped.time.aon :=
    foldl_kept (g := fun x => x.time.aon) (fun x n => aon_of_same (timeEntry_same x n _ _ _ _) rfl) _ skipped
  have hShifted : shifted.time.aon = entered.time.aon := aon_of_same (shiftTimes_same entered _) rfl
  have hTracked : tracked.time.aon = shifted.time.aon := by
    refine foldl_kept (g := fun x => x.time.aon) (fun x n => ?_) _ shifted
    dsimp only
    split
    · exact aon_of_same (trackMove_same x n _ _ _) rfl
    · rfl
  have hUnheld : (if delta < 0 then unholdAll tracked else tracked).time.aon = tracked.time.aon := by
    split
    · exact aon_of_same (unholdAll_same tracked) rfl
    · rfl
  rw [aon_of_clock (clock_event _ _), aon_of_clock (clock_pushFlags _), hUnheld, hTracked, hShifted, hEntered, hSkipped]

@[simp] theorem aon_timeChange (s : State) (facts : List (Nat × Rat)) : (timeChange s facts).time.aon = s.time.aon := by
  unfold timeChange
  extract_lets d _ x0 cmd cmdSet cmdStep dpSet dpStep hasSet cStep live due out joined inn total since run acted stepped ranged target counted _ cleared _ flushed slewed _ stopped _

  have hActed : acted.time.aon = s.time.aon := foldl_kept (g := fun x => x.time.aon)
    (fun x a => (aon_timeActRun _ a _).trans (aon_dropAct x .time a)) run s
  have hStepped : stepped.time.aon = acted.time.aon := by
    unfold stepped
    split
    · split
      · rfl
      · exact aon_of_clock (clock_raise _ _ _ _ _ _)
    · rfl
  have hRanged : ranged.time.aon = stepped.time.aon := by
    unfold ranged
    split
    · exact aon_of_clock (clock_raise _ _ _ _ _ _)
    · rfl
  have hCounted : counted.time.aon = ranged.time.aon := by
    unfold counted
    split
    · exact aon_of_clock (clock_raise _ _ _ _ _ _)
    · split
      · exact aon_of_same (bump_same _ _ _) rfl
      · rfl
  have hFlushed : flushed.time.aon = cleared.time.aon := by
    unfold flushed
    clear_value target
    cases target with
    | some v => exact aon_flushQueues _
    | none => rfl
  have hSlewed : slewed.time.aon = flushed.time.aon := by
    unfold slewed
    split
    · exact aon_slewAdd _ _ _
    · rfl
  have hStopped : stopped.time.aon = slewed.time.aon := by
    unfold stopped
    split <;> rfl
  have hRated (x : State) : (rateSet { x with time := { x.time with landed := 0 } }).1.time.aon = x.time.aon :=
    (aon_of_clock (clock_rateSet _)).trans rfl
  have kept : (rateSet { stopped with time := { stopped.time with landed := 0 } }).1.time.aon = s.time.aon := by
    rw [hRated, hStopped, hSlewed, hFlushed, ← hActed, ← hStepped, ← hRanged, ← hCounted]
    rfl
  clear_value target
  generalize rateSet { stopped with time := { stopped.time with landed := 0 } } = rated at kept ⊢
  have hOwn (x : State) (e : Int) : (ownStep x e).time.aon = x.time.aon := aon_of_same (ownStep_same x e) rfl
  cases target with
  | some v => exact (hOwn _ _).trans ((aon_plainJump _ _ _ _).trans kept)
  | none =>
    dsimp only
    split
    · split
      · exact (hOwn _ _).trans ((aon_plainJump _ _ _ _).trans kept)
      · exact (aon_steppedActs _ _ _).trans ((hOwn _ _).trans ((aon_plainJump _ _ _ _).trans kept))
    · split
      · exact (aon_of_clock (clock_rateEntries _ _ _)).trans kept
      · exact kept

/-! ## A boundary at which nothing sets, steps or is due -/

/-- No action joins a change that steps nothing where none is due. -/
theorem joinActs_nil {d : Rat} {out : List QAct} (h : ∀ a ∈ out, d < (a.due : Rat)) (k : Nat) : joinActs d 0 k [] out = [] := by
  cases k with
  | zero => rfl
  | succ k =>
    have none : out.filter (fun a => decide ((a.due : Rat) ≤ d + ((0 : Int) : Rat))) = [] := by
      rw [List.filter_eq_nil_iff]
      intro a ha
      simpa using h a ha
    rw [joinActs]
    exact if_pos none

/-- Where nothing sets, steps or is due, the change of a boundary sets the rate word (R66, R77, R79). -/
theorem clock_timeChange_quiet {s : State} (facts : List (Nat × Rat)) (hl : s.time.landed = 0) (hset : (dp s 0).setBy = none)
    (hstep : (dp s 0).stepBy = none) (hq : ∀ a ∈ s.time.queue, (s.time.plain : Rat) / 2 ^ 32 < (a.due : Rat)) :
    clock (timeChange s facts) = clock s := by
  unfold timeChange
  extract_lets d _ x0 cmd cmdSet cmdStep dpSet dpStep hasSet cStep live due out joined inn total since run acted stepped ranged target
    counted _ cleared _ flushed slewed _ stopped _
  have hx0 : x0.setBy = none ∧ x0.stepBy = none := by
    unfold x0
    split
    · exact ⟨hset, hstep⟩
    · exact ⟨rfl, rfl⟩
  have hbit (i : Nat) : cmd.testBit i = false := by
    unfold cmd
    rw [hl, Nat.zero_testBit]
  have hcmdSet : cmdSet = none := if_neg (by simp [hbit])
  have hdpSet : dpSet = none := by
    unfold dpSet
    rw [hx0.1]
  have htarget : target = none := by
    unfold target
    rw [hcmdSet, hdpSet]
  have hrest : dpStep + cStep = 0 := by
    unfold dpStep cStep
    rw [hx0.2, hbit]
    simp
  have hlive : ∀ a ∈ live, d < (a.due : Rat) := by
    unfold live
    split
    · simp
    · exact hq
  have hdue : due = [] := by
    unfold due
    rw [List.filter_eq_nil_iff.2 (by simpa using hlive), List.map_nil]
  have hjoined : joined = [] := by
    unfold joined
    rw [hrest, hdue]
    split
    · rfl
    · exact joinActs_nil (fun a ha => hlive a (List.mem_filter.1 ha).1) 5
  have htotal : total = 0 := by
    unfold total inn
    rw [hjoined, hrest]
    rfl
  have hacted : acted = s := by
    unfold acted run inn
    rw [hjoined]
    rfl
  have hcounted : counted = s := by
    unfold counted ranged stepped
    simp [hbit, hx0.2, hacted]
  have hstopped : clock stopped = clock s := by
    unfold stopped slewed flushed cleared
    simp [hbit, htarget, hcounted]
  have hRated (x : State) (h : clock x = clock s) : clock (rateSet { x with time := { x.time with landed := 0 } }).1 = clock s := by
    have cleared : clock { x with time := { x.time with landed := 0 } } = { clock x with landed := 0 } := rfl
    rw [clock_rateSet, cleared, h]
    simp [clock, hl]
  have kept := hRated stopped hstopped
  generalize rateSet { stopped with time := { stopped.time with landed := 0 } } = rated at kept ⊢
  rw [htarget]
  dsimp only
  rw [if_neg (not_not.2 htotal)]
  split
  · exact (clock_rateEntries _ _ _).trans kept
  · exact kept

end Sys2Proof.Machine
end

section
/-!
PROOFS. One AON boundary: the advance, what is made ready for the changes, the changes and what follows them (R65, R67, R77, R447).
-/
namespace Sys2Proof.Machine
open Sys2Proof

/-- What a boundary does before its changes, at which no write has landed. -/
def aonReady (s : State) (slip : Bool) : State := aonWords (aonInterp (slowsDue (holdsEnd s)) slip)

/-- The changes of a boundary and what follows them, up to the wake by a snapshot. -/
def aonSettle (s : State) (facts : List (Nat × Rat)) : State :=
  snapLater (noteFlags (upto 8 (fun s k => steerSet (masterSet s k) k) (aonDomains (timeChange s facts))))

/-- The slew factors of the running FODs at a boundary (R68). -/
def aonFacts (s : State) : List (Nat × Rat) := (runningFods s).map (fun n => (n, plainFactor s n (fod s n)))

theorem landedRun_none {s : State} (h : s.landed = []) : landedRun s = s := by
  unfold landedRun
  rw [h]
  show { s with landed := [] } = s
  rw [← h]

/-- A boundary at which no write has landed. -/
theorem aonStep_none {s : State} (h : s.landed = []) (slip : Bool) :
    aonStep s slip = snapWake (aonSettle (aonReady (aonTick s) slip) (aonFacts s)) := by
  have none : (slowsDue (holdsEnd (aonTick s))).landed = [] := by
    rw [(slowsDue_same _).get_landed rfl, (holdsEnd_same _).get_landed rfl, (aonTick_same s).get_landed rfl, h]
  unfold aonStep
  rw [landedRun_none none]
  rfl

/-! ## What each part changes -/

/-- Neither what a boundary makes ready nor its changes touch the position in the AON period, the writes that have landed, the
memories or the sleep of the core domain. -/
theorem aonReady_same (s : State) (slip : Bool) : Same 140754670135314 s (aonReady s slip) :=
  ((holdsEnd_same s).mono rfl).trans (((slowsDue_same _).mono rfl).trans (((aonInterp_same _ slip).mono rfl).trans
    ((aonWords_same _).mono rfl)))

theorem aonSettle_same (s : State) (facts : List (Nat × Rat)) : Same 143228571478034 s (aonSettle s facts) := by
  have steer (x : State) (k : Nat) : Same 143228571478034 x (steerSet (masterSet x k) k) :=
    ((masterSet_same x k).mono rfl).trans ((steerSet_same _ k).mono rfl)
  exact ((timeChange_same s facts).mono rfl).trans (((aonDomains_same _).mono rfl).trans
    ((Same.upto steer (Same.refl _ _)).trans (((noteFlags_same _).mono rfl).trans ((snapLater_same _).mono rfl))))

theorem clock_aonReady (s : State) (slip : Bool) : clock (aonReady s slip) = clock s := by
  rw [aonReady, clock_aonWords, clock_aonInterp, clock_of_same (slowsDue_same _) rfl]
  unfold holdsEnd
  refine foldl_kept (fun x n => ?_) _ s
  dsimp only
  split
  · rfl
  · split
    · exact clock_of_same (((setFod_same x n _).mono rfl).trans (hopRelease_same _ n _)) rfl
    · rfl

theorem clock_aonSettle (s : State) (facts : List (Nat × Rat)) : clock (aonSettle s facts) = clock (timeChange s facts) := by
  have steer (x : State) (k : Nat) : clock (steerSet (masterSet x k) k) = clock x :=
    clock_of_same (((masterSet_same x k).mono rfl).trans ((steerSet_same _ k).mono rfl) : Same 140754669379600 x _) rfl
  rw [aonSettle, clock_of_same (snapLater_same _) rfl, clock_noteFlags, upto_kept 8 (fun x k _ => steer x k), clock_aonDomains]

/-- The advance of a boundary (R65, R77, R88). -/
theorem clock_aonTick (s : State) : clock (aonTick s) =
    ⟨plainAdd s.time.plain (tickInc s).1, s.time.aon + 1, (tickInc s).2, s.time.landed, s.time.queue,
      s.time.ppsOwed ++ secsPassed s.time.plain (plainAdd s.time.plain (tickInc s).1)⟩ := by
  unfold aonTick
  extract_lets r hi trailed ticked p _
  have time : ticked.time = s.time := by
    have run : Same 327680 s trailed := Same.foldl (fun x n => (dtcRun_same x n _).mono rfl) (Same.refl _ s)
    have ds (x : State) (k : Nat) : Same 360448 x (dsRun (trailTick x k) k) :=
      ((trailTick_same x k).mono rfl).trans ((dsRun_same _ k).mono rfl)
    have acc (x : State) (k : Nat) : Same 360448 x (accTick x (k + 1)) := (accTick_same x _).mono rfl
    exact ((run.mono rfl).trans ((Same.upto ds (Same.refl _ _)).trans (Same.upto acc (Same.refl _ _)))).get_time rfl
  have hr : r = tickInc s := rfl
  clear_value ticked r
  subst hr
  show Clock.mk p _ _ ticked.time.landed ticked.time.queue _ = _
  unfold p
  rw [time]

end Sys2Proof.Machine
end

section
/-!
PROOFS. O12: the run of AON boundaries.
-/
namespace Sys2Proof.Machine
open Sys2Proof

/-! ## Every boundary -/

/-- A boundary at which no write has landed counts one, begins its AON period anew, leaves no write landed, and leaves the memories
while the core domain is awake. -/
theorem aonStep_counts {s : State} (h : s.landed = []) (slip : Bool) :
    (aonStep s slip).landed = [] ∧ (aonStep s slip).cyc = 0 ∧ (aonStep s slip).time.aon = s.time.aon + 1 ∧
      (s.coreAwake = true → (aonStep s slip).coreAwake = true ∧ (aonStep s slip).mem = s.mem) := by
  have ready := aonReady_same (aonTick s) slip
  have settle := aonSettle_same (aonReady (aonTick s) slip) (aonFacts s)
  have woken := snapWake_same (aonSettle (aonReady (aonTick s) slip) (aonFacts s))
  have tick := aonTick_same s
  rw [aonStep_none h]
  refine ⟨?_, ?_, ?_, fun awake => ?_⟩
  · rw [woken.get_landed rfl, settle.get_landed rfl, ready.get_landed rfl, tick.get_landed rfl, h]
  · rw [woken.get_cyc rfl, settle.get_cyc rfl, ready.get_cyc rfl]
    rfl
  · rw [aon_of_same woken rfl, aon_of_clock (clock_aonSettle _ _), aon_timeChange, aon_of_clock (clock_aonReady _ _)]
    exact congrArg Clock.aon (clock_aonTick s)
  · have still : (aonSettle (aonReady (aonTick s) slip) (aonFacts s)).coreAwake = true := by
      rw [settle.get_coreAwake rfl, ready.get_coreAwake rfl, tick.get_coreAwake rfl, awake]
    rw [snapWake_awake still]
    exact ⟨still, by rw [settle.get_mem rfl, ready.get_mem rfl, tick.get_mem rfl]⟩

theorem aonSteps_count (n : Nat) {s : State} (h : s.landed = []) :
    (s.cyc = 0 → (aonSteps n s).cyc = 0) ∧ (aonSteps n s).time.aon = s.time.aon + n ∧
      (s.coreAwake = true → (aonSteps n s).mem = s.mem) := by
  induction n generalizing s with
  | zero => exact ⟨id, rfl, fun _ => rfl⟩
  | succ n ih =>
    obtain ⟨landed, cyc, aon, keeps⟩ := aonStep_counts h false
    obtain ⟨hcyc, haon, hmem⟩ := ih landed
    rw [aonSteps]
    refine ⟨fun _ => hcyc cyc, by rw [haon, aon]; omega, fun awake => ?_⟩
    obtain ⟨awake', mem⟩ := keeps awake
    exact (hmem awake').trans mem

/-- n boundaries from Plain's start on, at the first of which no write has landed (R65, R67). -/
theorem aonRun_counts {s : State} (hs : s.time.started = true) (h : s.landed = []) (n : Nat) (slip : Bool) :
    (aonRun n slip s).time.aon = s.time.aon + n ∧ (n ≠ 0 → (aonRun n slip s).cyc = 0) ∧
      (s.coreAwake = true → MemKept s (aonRun n slip s)) := by
  cases n with
  | zero => exact ⟨rfl, fun hn => absurd rfl hn, fun _ => memKept_of_mem rfl⟩
  | succ n =>
    obtain ⟨landed, cyc, aon, keeps⟩ := aonStep_counts h slip
    obtain ⟨hcyc, haon, hmem⟩ := aonSteps_count n landed
    have after := aonAfter_same (aonSteps n (aonStep s slip))
    rw [aonRun, if_pos hs]
    refine ⟨?_, fun _ => ?_, fun awake => ?_⟩
    · rw [aon_of_same after rfl, haon, aon]
      omega
    · rw [after.get_cyc rfl, hcyc cyc]
    · obtain ⟨awake', mem⟩ := keeps awake
      exact memKept_of_mem ((after.get_mem rfl).trans ((hmem awake').trans mem))

/-! ## A quiet boundary -/

/-- A count of ticks that is later than the whole ticks of a count of sub-ticks is later than that count. -/
theorem subTicks_lt_of_div_lt {p : Nat} {due : Int} (h : ((p / 2 ^ 32 : Nat) : Int) < due) : (p : Rat) / 2 ^ 32 < (due : Rat) := by
  have whole : (p : Int) < due * 2 ^ 32 := by omega
  rw [div_lt_iff₀ (by norm_num)]
  exact_mod_cast whole

/-- At a quiet boundary nothing but the advance acts (R65, R79). -/
theorem clock_aonRun_quiet {s : State} {slip : Bool} (hs : s.time.started = true) (h : QuietBoundary s slip) :
    clock (aonRun 1 slip s) = clock (aonTick s) := by
  obtain ⟨⟨landed, waiting, noSet, noStep⟩, later⟩ := h
  have same : { s with landed := [] } = s := by rw [← landed]
  rw [same] at noSet noStep
  have ready : clock (aonReady (aonTick s) slip) = clock (aonTick s) := clock_aonReady _ slip
  have ticked := ready.trans (clock_aonTick s)
  have none : (aonReady (aonTick s) slip).time.landed = 0 := (congrArg Clock.landed ticked).trans waiting
  have notDue : ∀ a ∈ (aonReady (aonTick s) slip).time.queue,
      ((aonReady (aonTick s) slip).time.plain : Rat) / 2 ^ 32 < (a.due : Rat) := by
    have queue : (aonReady (aonTick s) slip).time.queue = s.time.queue := congrArg Clock.queue ticked
    have plain : (aonReady (aonTick s) slip).time.plain = plainAdd s.time.plain (tickInc s).1 := congrArg Clock.plain ticked
    rw [queue, plain]
    exact fun a ha => subTicks_lt_of_div_lt (later a ha)
  rw [aonRun, if_pos hs, clock_of_same (aonAfter_same _) rfl, aonSteps, aonStep_none landed, clock_of_same (snapWake_same _) rfl,
    clock_aonSettle, clock_timeChange_quiet _ none noSet noStep notDue, ready]

/-- Plain's increment while no slew is under way (R65). -/
theorem tickInc_noSlew {s : State} (hs : s.fcol.safe = false) (hr : s.time.slewRem = 0) :
    tickInc s = (6553600 * 2 ^ 32 + 100 * s.time.y, 0) := by
  rw [tickInc, hs, if_neg Bool.false_ne_true, boundaryInc, if_pos hr, aonSub]

/-- Plain's increment in SAFE (R69). -/
theorem tickInc_safe {s : State} (hs : s.fcol.safe = true) :
    tickInc s = (6553600 * 2 ^ 32 + 100 * s.time.ybase, s.time.slewRem) := by
  rw [tickInc, if_pos hs, aonSub]

/-- The increment of the boundary at which a slew ends (R77). -/
theorem tickInc_slewEnd {s : State} (hs : s.fcol.safe = false) (hr : s.time.slewRem ≠ 0)
    (sign : 0 < s.time.slewRem ↔ 0 < s.time.y - s.time.ybase)
    (last : s.time.slewRem.natAbs ≤ (100 * (s.time.y - s.time.ybase)).natAbs) :
    tickInc s = (6553600 * 2 ^ 32 + 100 * s.time.ybase + s.time.slewRem, 0) := by
  have extra : slewExtra s.time = 100 * (s.time.y - s.time.ybase) := by
    unfold slewExtra
    exact if_pos (by omega)
  rw [tickInc, hs, if_neg Bool.false_ne_true, boundaryInc, extra, if_neg hr]
  split
  · rfl
  · rename_i more
    have whole : s.time.slewRem = 100 * (s.time.y - s.time.ybase) := by omega
    rw [aonSub, whole]
    ext <;> dsimp only <;> omega

/-! ## The obligation -/

/-- Settles O12: no part of a boundary but its changes moves the clock that the advance has set, and no part but the writes that have
landed and the wake of a sleeping core domain touches the memories. -/
theorem boundaryAdvancesPlainAndEndsSlews : Obligations.BoundaryAdvancesPlainAndEndsSlews := by
  refine ⟨⟨fun n slip s hs => ?_, fun n slip s hs h => ⟨_, rfl, aonRun_counts hs h n slip⟩, fun slip s hs h => ?_⟩,
    fun s hs safe h hr sign last => ?_⟩
  · cases n with
    | zero => rfl
    | succ n =>
      have stays : aonRun (n + 1) slip s = s := if_neg (by rw [hs]; exact Bool.false_ne_true)
      exact congrArg Host.Outcome.next stays
  · have ticked := (clock_aonRun_quiet hs h).trans (clock_aonTick s)
    have plain : (aonRun 1 slip s).time.plain = plainAdd s.time.plain (tickInc s).1 := congrArg Clock.plain ticked
    have slewRem : (aonRun 1 slip s).time.slewRem = (tickInc s).2 := congrArg Clock.slewRem ticked
    have queue : (aonRun 1 slip s).time.queue = s.time.queue := congrArg Clock.queue ticked
    have owed := congrArg Clock.ppsOwed ticked
    refine ⟨_, rfl, plain, fun safe hr => ?_, fun safe => ?_, queue, ?_⟩
    · rw [plain, slewRem, tickInc_noSlew safe hr]
      exact ⟨rfl, rfl⟩
    · rw [plain, slewRem, tickInc_safe safe]
      exact ⟨rfl, rfl⟩
    · rw [plain]
      exact owed
  · have inc := tickInc_slewEnd safe hr sign last
    have ticked := (clock_aonRun_quiet hs h).trans (clock_aonTick s)
    have runs : exec .slewEnd s = .next (aonRun 1 false s) :=
      congrArg Host.Outcome.next (if_pos ⟨hr, congrArg Prod.snd inc⟩)
    obtain ⟨⟨landed, -⟩, -⟩ := h
    obtain ⟨-, -, mem⟩ := aonRun_counts hs landed 1 false
    rw [inc] at ticked
    exact ⟨_, runs, congrArg Clock.slewRem ticked, congrArg Clock.plain ticked, mem⟩

end Sys2Proof.Machine
end

section
/-!
PROOFS. O18: BANDCAL as a write of SC_CMD, the end of a band calibration, the lock deadline.
-/
namespace Sys2Proof.Machine
open Sys2Proof

theorem sc_congr {s t : State} (h : t.scs = s.scs) (n : Nat) : sc t n = sc s n := by rw [sc, h, sc]

theorem fod_congr {s t : State} (h : t.fods = s.fods) (n : Nat) : fod t n = fod s n := by rw [fod, h, fod]

theorem faultReg_rSC (n o : Nat) : faultReg (rSC n o) = false := faultReg_false_of_ge (by unfold rSC; omega)

theorem rSC_ne (n : Nat) {a b : Nat} (h : a ≠ b) : rSC n a ≠ rSC n b := fun e => h (Nat.add_left_cancel e)

theorem srcSc_lt (n : ScIx) : srcSc n < 0x1000 := by unfold srcSc; omega

/-! ## BANDCAL on the bus -/

/-- What the map says of SC_CMD (R123). -/
def scCmdInfo (n : Nat) : RegInfo := ⟨.sc, n, { off := 0x08, wm := true, rw := 0xE, sc := 0x11 }, 0, 0, rSC n 0x08⟩

theorem regInfo_scCmd : ∀ n : ScIx, regInfo (rSC n 8) = some (scCmdInfo n) := by decide +kernel

theorem allRo_scCmdInfo (n : Nat) : allRo (scCmdInfo n) = false := by simp [allRo, scCmdInfo]

theorem heldBits_scCmdInfo (s : State) (n : Nat) : heldBits s (scCmdInfo n) = 0 := ite_self _

theorem regFx_scCmd (s : State) (n old new hit m : Nat) (cz : Cause) :
    regFx s (scCmdInfo n) old new hit m cz = scCmdFx s n hit cz := rfl

theorem scCmdFx_bandcal (s : State) (n : Nat) (cz : Cause) : scCmdFx s n 0x10 cz = bandcalStart s n cz := by
  have hit : Nat.testBit 0x10 0 = false ∧ Nat.testBit 0x10 4 = true := by decide
  simp [scCmdFx, hit]

/-- The state in which BANDCAL acts: the host's write has been forwarded and SC_CMD written. -/
def bandcalPut (s : State) (m : Nat) (n : ScIx) : State :=
  let t := forwardTaken s m (rSC n 8) (rSC n 8) 0x100010 (scCmdInfo n) 0 0x100010
  noteWrite (wr t (rSC n 8) (clr (newVal (scCmdInfo n) 0 (rn t (rSC n 8)) 0x100010) 0)) (rSC n 8)

theorem exec_bandcal {s : State} (h : BusOpen s) (m : Master) (n : ScIx) :
    exec (.bandcal m n) s = .next (bandcalStart (bandcalPut s m n) n (some (rSC n 8, m.val))) := by
  have hoff : rSC n 8 % 4 = 0 ∧ rSC n 8 < 2 ^ 24 := by unfold rSC; omega
  have hit : ∀ n : ScIx, hitVal (scCmdInfo n) 0x100010 = 0x10 := by decide
  have run := regPut_word (m := m) h.1.1 h.1.2 (regInfo_scCmd n) hoff.1 hoff.2 (regInfo_inMsix (regInfo_scCmd n))
    (v := 0x100010) (by decide) rfl rfl rfl (allRo_scCmdInfo n) Blk.noConfusion (coreTouch_awake h.2) rfl
    (by rw [heldBits_scCmdInfo, Nat.zero_and])
  have base : (scCmdInfo n).base = rSC n 8 := rfl
  have w1c : (scCmdInfo n).row.w1c = 0 := rfl
  rw [if_neg (show ¬ (scCmdInfo n).row.slm ≠ 0 from not_not_intro rfl), applyVal_one rfl rfl rfl, hit,
    regFx_scCmd, scCmdFx_bandcal, base, w1c, Nat.and_zero] at run
  exact congrArg Host.Outcome.next run

theorem bandcalPut_same (s : State) (m : Nat) (n : ScIx) : Same 140754668225040 s (bandcalPut s m n) :=
  Same.step rfl (noteWrite_same _ _) (Same.step rfl (wr_same _ _ _) ((forwardTaken_same s m _ _ _ _ _ _).mono rfl))

theorem rd_bandcalPut (s : State) (m : Nat) (n : ScIx) {k : Nat} (h : k ≠ rSC n 8) : rd (bandcalPut s m n) k = rd s k := by
  rw [bandcalPut, rd_noteWrite, rd_wr_ne _ _ h, rd_forwardTaken]

theorem scRetuning_bandcalPut (s : State) (m : Nat) (n : ScIx) : scRetuning (bandcalPut s m n) n = scRetuning s n := by
  rw [scRetuning, sc_congr ((bandcalPut_same s m n).get_scs rfl), scRetuning]

theorem scUsed_bandcalPut (s : State) (m : Nat) (n : ScIx) : scUsed (bandcalPut s m n) n = scUsed s n := by
  have enabled (f : Nat) : fodEn (bandcalPut s m n) f = fodEn s f :=
    rbit_congr (rd_bandcalPut s m n (by unfold rFOD rSC; omega)) 0
  simp only [scUsed, enabled, fod_congr ((bandcalPut_same s m n).get_fods rfl)]

/-! ## What BANDCAL does -/

theorem bandcalStart_asleep {s : State} {n : Nat} (h : (sc s n).awake = false) (cz : Cause) : bandcalStart s n cz = s :=
  if_pos (by rw [h]; exact Bool.false_ne_true)

theorem bandcalStart_refused {s : State} {n : Nat} (h : (sc s n).awake = true) (hr : scRetuning s n = true ∨ scUsed s n = true)
    (cz : Cause) : bandcalStart s n cz = scRefuse s n (if scRetuning s n then 3 else 4) cz := by
  rw [bandcalStart, if_neg (not_not_intro h)]
  split
  · rfl
  · next idle => rw [if_pos (hr.resolve_left idle)]

theorem bandcalStart_idle {s : State} {n : Nat} (h : (sc s n).awake = true) (hr : scRetuning s n = false)
    (hu : scUsed s n = false) (cz : Cause) :
    bandcalStart s n cz = setSc s n { sc s n with
      bandcal := some .command, lockSet := false, lockFast := false, deadline := some .command, ds := [] } := by
  simp [bandcalStart, h, hr, hu]

theorem sc_scRefuse (s : State) (n code : Nat) (cz : Cause) : sc (scRefuse s n code cz) n = { sc s n with refuse := code } := by
  unfold scRefuse
  rw [sc_congr ((raiseC_same _ _ _ _ _).get_scs rfl), sc_setSc_same]
  rfl

theorem rd_scRefuse (s : State) (n : ScIx) (code : Nat) (cz : Cause) {k : Nat} (hk : faultReg k = false) :
    rd (scRefuse s n code cz) k = rd (orBits s (rSC n 4) 0x1000) k :=
  rd_raiseC (srcSc_lt n) hk

/-! ## Ends -/

/-- The VCO's band after a calibration: that of SC_ANA where BAND_MAN is set, else the one selected (R105). -/
def bandAfter (s : State) (n band : Nat) : Nat := if rbit s (rSC n 0x100) 6 then rb s (rSC n 0x100) 0 6 else band % 64

/-- The state with a band's limits in SC_BAND_LO and SC_BAND_HI. -/
def bandLimits (s : State) (n lo hi : Nat) : State := wr (wr s (rSC n 0x104) (lo % 65536)) (rSC n 0x108) (hi % 65536)

/-- A calibration's end changes its band's registers and the SC alone. -/
theorem setSc_bandLimits (s : State) (n lo hi : Nat) (x : Sc) :
    setSc (bandLimits s n lo hi) n x = { s with regs := (bandLimits s n lo hi).regs, scs := (setSc s n x).scs } := by
  dsimp only [bandLimits, setSc, wr]

theorem setSc_bandLimits_same (s : State) (n lo hi : Nat) (x : Sc) : Same 32784 s (setSc (bandLimits s n lo hi) n x) :=
  Same.step rfl (setSc_same _ _ _) (Same.step rfl (wr_same _ _ _) ((wr_same _ _ _).mono rfl))

theorem rd_bandLimits_ne (s : State) (n lo hi : Nat) {k : Nat} (h : k ∉ [rSC n 0x104, rSC n 0x108]) :
    rd (bandLimits s n lo hi) k = rd s k := by
  simp only [List.mem_cons, List.not_mem_nil, or_false, not_or] at h
  rw [bandLimits, rd_wr_ne _ _ h.2, rd_wr_ne _ _ h.1]

theorem rn_bandLimits (s : State) (n lo hi : Nat) :
    rn (bandLimits s n lo hi) (rSC n 0x104) = lo % 65536 ∧ rn (bandLimits s n lo hi) (rSC n 0x108) = hi % 65536 := by
  constructor
  · rw [bandLimits, rn, rd_wr_ne _ _ (rSC_ne n (by decide)), ← rn, rn_wr_same]
    omega
  · rw [bandLimits, rn_wr_same]
    omega

theorem bandEnd_found {s : State} {n lo hi band : Nat} {w : BandWhy} (h : (sc s n).bandcal = some w) :
    bandEnd s n true lo hi band =
      setSc (bandLimits s n lo hi) n { sc s n with bandcal := none, band := bandAfter s n band, ds := [] } := by
  simp only [bandEnd, h, sc_wr, if_true, bandLimits, bandAfter]

theorem bandEnd_none {s : State} {n lo hi band : Nat} {w : BandWhy} (h : (sc s n).bandcal = some w) :
    bandEnd s n false lo hi band =
      raise (setSc (bandLimits s n lo hi) n { sc s n with bandcal := some w, band := bandAfter s n band })
        (srcSc n) kBandCalFail (rSC n 4) := by
  simp only [bandEnd, h, sc_wr, Bool.false_eq_true, if_false, bandLimits, bandAfter]

theorem lockMiss_running {s : State} {n : Nat} {w : BandWhy} (h : (sc s n).deadline = some w) :
    lockMiss s n = raise (setSc s n { sc s n with deadline := none }) (srcSc n)
      (if w = .wake then kWakeTimeout else kLossOfLock) (rSC n 4) := by
  simp only [lockMiss, h]
  cases w <;> rfl

/-! ## The obligation -/

theorem bandcal_starts {s : State} (h : BusOpen s) (m : Master) (n : ScIx) (ha : (sc s n).awake = true)
    (hr : scRetuning s n = false) (hu : scUsed s n = false) :
    ∃ t, exec (.bandcal m n) s = .next t ∧ sc t n = { sc s n with
        bandcal := some .command, lockSet := false, lockFast := false, deadline := some .command, ds := [] } ∧
      (∀ j, j ≠ n.val → sc t j = sc s j) ∧ RegsKept s t [rSC n 8] ∧ MemKept s t := by
  have put := bandcalPut_same s m n
  have scs := sc_congr (put.get_scs rfl)
  have start := bandcalStart_idle ((congrArg Sc.awake (scs n)).trans ha) ((scRetuning_bandcalPut s m n).trans hr)
    ((scUsed_bandcalPut s m n).trans hu) (some (rSC n 8, m.val))
  rw [scs] at start
  refine ⟨_, (exec_bandcal h m n).trans (congrArg Host.Outcome.next start), sc_setSc_same .., fun j hj => ?_, fun k _ hk => ?_,
    memKept_of_mem (put.get_mem rfl)⟩
  · rw [sc_setSc_ne _ _ _ hj, scs]
  · exact rd_bandcalPut s m n (List.ne_of_not_mem_cons hk)

theorem bandcal_asleep {s : State} (h : BusOpen s) (m : Master) (n : ScIx) (ha : (sc s n).awake = false) :
    ∃ t, exec (.bandcal m n) s = .next t ∧ t.scs = s.scs ∧ RegsKept s t [rSC n 8] ∧ MemKept s t := by
  have put := bandcalPut_same s m n
  have start := bandcalStart_asleep ((congrArg Sc.awake (sc_congr (put.get_scs rfl) n)).trans ha) (some (rSC n 8, m.val))
  exact ⟨_, (exec_bandcal h m n).trans (congrArg Host.Outcome.next start), put.get_scs rfl,
    fun k _ hk => rd_bandcalPut s m n (List.ne_of_not_mem_cons hk), memKept_of_mem (put.get_mem rfl)⟩

theorem bandcal_refused {s : State} (h : BusOpen s) (m : Master) (n : ScIx) (ha : (sc s n).awake = true)
    (hr : scRetuning s n = true ∨ scUsed s n = true) :
    ∃ t, exec (.bandcal m n) s = .next t ∧ rbit t (rSC n 4) 12 = true ∧
      sc t n = { sc s n with refuse := if scRetuning s n then 3 else 4 } ∧ RegsKept s t [rSC n 4, rSC n 8] ∧ MemKept s t := by
  have put := bandcalPut_same s m n
  have scs := sc_congr (put.get_scs rfl)
  have start := bandcalStart_refused ((congrArg Sc.awake (scs n)).trans ha)
    (by rwa [scRetuning_bandcalPut, scUsed_bandcalPut]) (some (rSC n 8, m.val))
  rw [scRetuning_bandcalPut] at start
  refine ⟨_, (exec_bandcal h m n).trans (congrArg Host.Outcome.next start), ?_, by rw [sc_scRefuse, scs], fun k hf hk => ?_,
    memKept_of_mem (((scRefuse_same _ _ _ _).get_mem rfl).trans (put.get_mem rfl))⟩
  · rw [rbit_congr (rd_scRefuse _ n _ _ (faultReg_rSC n 4)), rbit_orBits_same _ _ _ _ (by decide)]
    exact Bool.or_true _
  · simp only [List.mem_cons, List.not_mem_nil, or_false, not_or] at hk
    rw [rd_scRefuse _ n _ _ hf, rd_orBits_ne _ _ hk.1, rd_bandcalPut s m n hk.2]

theorem bandCalDone_found {s : State} {n : ScIx} {w : BandWhy} (hb : (sc s n).bandcal = some w) (lo hi band : Nat) :
    ∃ t, exec (.bandCalDone n true lo hi band) s = .next t ∧ (sc t n).bandcal = none ∧
      (sc t n).band = (if rbit s (rSC n 0x100) 6 then rb s (rSC n 0x100) 0 6 else band % 64) ∧
      sc t n = { sc s n with bandcal := none, band := (sc t n).band, ds := [] } ∧
      rn t (rSC n 0x104) = lo % 65536 ∧ rn t (rSC n 0x108) = hi % 65536 ∧
      RegsKept s t [rSC n 0x104, rSC n 0x108] ∧ t = { s with regs := t.regs, scs := t.scs } := by
  obtain ⟨hlo, hhi⟩ := rn_bandLimits s n lo hi
  refine ⟨_, congrArg Host.Outcome.next (bandEnd_found hb), ?_⟩
  rw [sc_setSc_same, rn_setSc, rn_setSc]
  refine ⟨rfl, rfl, rfl, hlo, hhi, fun k _ hk => ?_, ?_⟩
  · rw [rd_setSc, rd_bandLimits_ne s n lo hi hk]
  · rw [setSc_bandLimits]

theorem bandCalDone_none {s : State} {n : ScIx} {w : BandWhy} (hb : (sc s n).bandcal = some w)
    (hq : queueFull s (srcSc n) = false) (lo hi band : Nat) :
    ∃ t, exec (.bandCalDone n false lo hi band) s = .next t ∧ (sc t n).bandcal = some w ∧
      rn t (rSC n 0x104) = lo % 65536 ∧ rn t (rSC n 0x108) = hi % 65536 ∧
      t.fcol = (enqueue s (mkReport s (srcSc n) 0x02 (rSC n 4) 0 0 false)).fcol ∧
      RegsKept s t [rSC n 0x104, rSC n 0x108] ∧ MemKept s t := by
  obtain ⟨hlo, hhi⟩ := rn_bandLimits s n lo hi
  have put := setSc_bandLimits_same s n lo hi { sc s n with bandcal := some w, band := bandAfter s n band }
  obtain ⟨taken, files⟩ := raise_queued (kind := kBandCalFail) (addr := rSC n 4) (m := 0) (a := 0) hq
    (put.get_fcol rfl) (put.get_time rfl) (put.get_cyc rfl)
  rw [taken] at files
  refine ⟨_, congrArg Host.Outcome.next ((bandEnd_none hb).trans taken), ?_⟩
  rw [sc_enqueue, sc_setSc_same, rn_enqueue, rn_enqueue, rn_setSc, rn_setSc]
  refine ⟨rfl, hlo, hhi, files, fun k _ hk => ?_, memKept_of_mem ?_⟩
  · rw [rd_enqueue, rd_setSc, rd_bandLimits_ne s n lo hi hk]
  · rw [enqueue_mem, put.get_mem rfl]

theorem lockDeadlineMiss_ends {s : State} {n : ScIx} {w : BandWhy} (hd : (sc s n).deadline = some w)
    (hq : queueFull s (srcSc n) = false) :
    ∃ t, exec (.lockDeadlineMiss n) s = .next t ∧ (sc t n).deadline = none ∧
      t.fcol = (enqueue s (mkReport s (srcSc n) (if w = .wake then 0x09 else 0x01) (rSC n 4) 0 0 false)).fcol ∧
      RegsKept s t [] ∧ MemKept s t := by
  obtain ⟨taken, files⟩ := raise_queued (t := setSc s n { sc s n with deadline := none })
    (kind := if w = .wake then kWakeTimeout else kLossOfLock) (addr := rSC n 4) (m := 0) (a := 0) hq
    (setSc_fcol ..) (setSc_time ..) (setSc_cyc ..)
  rw [taken] at files
  refine ⟨_, congrArg Host.Outcome.next ((lockMiss_running hd).trans taken), ?_, files, fun k _ _ => ?_, memKept_of_mem ?_⟩
  · rw [sc_enqueue, sc_setSc_same]
  · rw [rd_enqueue, rd_setSc]
  · rw [enqueue_mem, setSc_mem]

/-- Settles O18: BANDCAL by the SC's state, the end of a band calibration by whether it found a band, the deadline by its cause. -/
theorem bandCalibrationStartsAndEnds : Obligations.BandCalibrationStartsAndEnds :=
  ⟨fun m n _ h => ⟨bandcal_starts h m n, bandcal_asleep h m n, bandcal_refused h m n⟩,
    fun _ lo hi band _ _ hb => bandCalDone_found hb lo hi band, fun _ lo hi band _ _ hb hq => bandCalDone_none hb hq lo hi band,
    fun _ _ _ hd hq => lockDeadlineMiss_ends hd hq⟩

end Sys2Proof.Machine
end

section
/-!
PROOFS. O17 and O19: the refutations, by a transmit count of a port that the block does not have.
-/
namespace Sys2Proof.Machine
open Sys2Proof

/-- The number of the lane whose count of lost reports in FCOL_CNT (R416), taken beyond that table, is the register at offset o. -/
def strayLane (o : Nat) : Nat := (o - rFCOL (0x4000 + 4 * srcEl 0)) / 4

/-- A module in RUN whose FOD0 holds a converted transmit count of a port of that lane, the intake queue of the lane's reports being
full; SC0 is as given, in a band that holds Q = 125. It is an ill-formed state: the ports are 0 to 127, those of lanes 0 to 15. -/
def strayCount (o : Nat) (x : Sc) : State :=
  { State.reset with
    nvsLoaded := true, regs := [(rPWR 4, 6), (rSC 0 0x104, 25000), (rSC 0 0x108, 40000)], scs := [(0, x)]
    fods := [(0, { fodInit 0 with leads := [(8 * strayLane o, 10 ^ 9, 0)] })]
    fcol := { fcolInit with
      queues := [(srcEl (strayLane o), List.replicate 4 (mkReport State.reset (srcEl (strayLane o)) kLeadMiss 0 0 0 false))] } }

/-! ## A retune -/

/-- SC0 awake, the lost reports of the stray lane counting in its SC_RAMP_ACT. -/
def strayRetune : State := strayCount (rSC 0 0x110) { scInit with awake := true }

theorem busOpen_strayRetune : BusOpen strayRetune := ⟨⟨rfl, rfl⟩, by decide⟩

theorem retuneRefusal_strayRetune : retuneRefusal strayRetune 0 0 false true = none := by decide +kernel

/-- The plan of slot 0 at reset, Q = 125, lies in the band. -/
theorem inBand_strayRetune :
    (rn strayRetune (rSC 0 0x104) : Rat) ≤ ratioVal (ratioAt strayRetune (rSC 0 0x40)) * 256 ∧
      ratioVal (ratioAt strayRetune (rSC 0 0x40)) * 256 ≤ (rn strayRetune (rSC 0 0x108) : Rat) := by
  decide +kernel

/-- The ramp's record misses the stray count's lead (R235), and the report's loss counts on top of J. -/
theorem retune_strayRetune :
    ∃ t, exec (.retune 1 0 0 false 0) strayRetune = .next t ∧ rn t (rSC 0 0x110) ≠
      min (rampJ strayRetune 0 (scQ strayRetune 0) (ratioVal (ratioAt strayRetune (rSC 0 0x40)))) 0xFFFF :=
  ⟨regPutM (atCyc strayRetune 0) 1 (rSC 0 8) 0xF 1, rfl, by decide +kernel⟩

/-- Refutes O17 in its clause on a retune within the band, after which SC_RAMP_ACT holds J: the statement is over every state
and does not ask that an output's counts be of ports 0 to 127. The ramp's record raises LEAD_MISS for a count of another port
(R235), and where the queue of that port's lane is full the lost report counts beyond FCOL_CNT, in SC_RAMP_ACT. -/
theorem not_retuneStartsOrIsRefused : ¬ Obligations.RetuneStartsOrIsRefused := by
  rintro ⟨starts, -⟩
  obtain ⟨t, ht, -, ramp, -⟩ := starts 1 0 0 false 0 strayRetune busOpen_strayRetune retuneRefusal_strayRetune
  obtain ⟨-, -, -, -, hJ, -⟩ := ramp rfl inBand_strayRetune
  obtain ⟨t', ht', hne⟩ := retune_strayRetune
  obtain rfl : t = t' := Host.Outcome.next.inj (ht.symm.trans ht')
  exact hne hJ

/-! ## The end of a ramp -/

/-- An uncompensated ramp of SC0 from 120 to the plan of slot 1. -/
def strayRamp : Retune := ⟨1, 125, 125, 0, 1, false, false, 0, 1200, 120, 1200, none⟩

/-- SC0 at the end of the ramp, the lost reports of the stray lane counting in SC_RATIO's NI. -/
def strayRampEnd : State := strayCount (rSC 0 0x10) { scInit with awake := true, retune := some strayRamp }

/-- The record of the new period misses the stray count's lead (R235), and the report's loss counts on top of NI. -/
theorem scRampEnd_strayRampEnd :
    ∃ t, exec (.scRampEnd 0 0) strayRampEnd = .next t ∧ rn t (rSC 0 0x10) ≠ strayRamp.ni % 65536 :=
  ⟨rampEnd (atCyc strayRampEnd 0) 0, rfl, by decide +kernel⟩

/-- Refutes O19 in its clause on the end of a ramp, after which SC_RATIO holds the new ratio: the statement is over every state
and does not ask that an output's counts be of ports 0 to 127. The new period's record raises LEAD_MISS for a count of another
port (R235), and where the queue of that port's lane is full the lost report counts beyond FCOL_CNT, in SC_RATIO. -/
theorem not_queuedRetuneAndRampEndActWhenDue : ¬ Obligations.QueuedRetuneAndRampEndActWhenDue := by
  rintro ⟨-, ends⟩
  obtain ⟨ramp, -⟩ := ends 0 0 strayRampEnd
  obtain ⟨t, ht, -, -, hni, -⟩ := ramp strayRamp rfl rfl
  obtain ⟨t', ht', hne⟩ := scRampEnd_strayRampEnd
  obtain rfl : t = t' := Host.Outcome.next.inj (ht.symm.trans ht')
  exact hne hni

end Sys2Proof.Machine
end

section
/-!
PROOFS. O20: the refutation, by a re-homing to an SC that the block does not have.
-/
namespace Sys2Proof.Machine
open Sys2Proof

/-- FOD0 and FOD1, which divides by 3, under a move from SC0 to an SC of number 768, whose SC_RATIO would be the registers of FOD0's
input and divide. It is an ill-formed state: the SCs are SC0 to SC7, and R118 finds no other target. -/
def strayMove : State :=
  { State.reset with
    regs := [(rFOD 0 0x10, 127)], fods := [(0, { fodInit 0 with sc := 0 }), (1, { fodInit 1 with sc := 0, n := 3 })]
    scs := [(0, { scInit with rehome := some (768, [0, 1]) })] }

/-- FOD1's divide is representable on the target. -/
theorem convertDiv_strayMove :
    (convertDiv (fod strayMove 1).n (fod strayMove 1).f (fod strayMove 1).m (scQ strayMove 768 / scQ strayMove 0)).isSome = true := by
  decide +kernel

/-- The move of FOD0 lowers the target's ratio, and FOD1 stays. -/
theorem rehomeSwitch_strayMove :
    ∃ t, exec (.rehomeSwitch 0 0) strayMove = .next t ∧ (fod t 1).sc ≠ 768 :=
  ⟨rehomeRun (atCyc strayMove 0) 0, rfl, by decide +kernel⟩

/-- Refutes O20 in its clause on the FODs that a fence moves: the statement is over every state and does not ask that the target
be one of SC0 to SC7. SC_RATIO of an SC of number 768 would be FOD0's FOD_INSEL and divide, which FOD0's own move writes (R119),
so that FOD1, whose divide was representable on the target, meets another ratio there, on which it is not, and stays. -/
theorem not_detectorsTrailAndRehomingFollow : ¬ Obligations.DetectorsTrailAndRehomingFollow := by
  rintro ⟨-, -, moves, -⟩
  obtain ⟨t, ht, -, moved, -⟩ := moves 0 0 768 [0, 1] strayMove rfl (by decide) rfl
  obtain ⟨t', ht', hne⟩ := rehomeSwitch_strayMove
  obtain rfl : t = t' := Host.Outcome.next.inj (ht.symm.trans ht')
  exact hne (moved 1 (by decide) rfl convertDiv_strayMove)

end Sys2Proof.Machine
end

section
/-!
PROOFS. O21 and O22: the refutations, by a transmit count of a port that the block does not have.
-/
namespace Sys2Proof.Machine
open Sys2Proof

/-- A module in RUN whose FOD0 runs from device time 0 on its divide of reset, and holds a transmit count as `strayCount` says, the rest of
FOD0 being that of `x`. It is an ill-formed state: the ports are 0 to 127. -/
def strayFod0 (o : Nat) (x : Fod) : State :=
  setFod (strayCount o scInit) 0
    { x with
      running := true, leads := (fod (strayCount o scInit) 0).leads
      recs := [{ kind := 1, info := 0, seqNo := 0, cycle := 0, time := 0, period := nomPeriod 40 0 1 1 125, slope := 0, trail := 0
                 inst := 0, on := 0 }] }

/-! ## A divide commit -/

/-- FOD0 with the lost reports of the stray lane counting in its FOD_N. -/
def strayDivide : State := strayFod0 (rFOD 0 0x14) (fodInit 0)

theorem busOpen_strayDivide : BusOpen strayDivide := ⟨⟨rfl, rfl⟩, by decide +kernel⟩

theorem fodFree_strayDivide : FodFree (atCyc strayDivide 0) 0 :=
  ⟨by decide +kernel, by decide +kernel, by simp [strayDivide, strayFod0, fodInit], .inl rfl⟩

/-- The record of the new divide misses the stray count's lead (R235), and the report's loss counts on top of N. -/
theorem fodDivCommit_strayDivide :
    ∃ t, exec (.fodDivCommit 1 0 .n 41 0) strayDivide = .next t ∧ divRegs t 0 ≠ divWith .n 41 (divRegs strayDivide 0) :=
  ⟨putM (atCyc strayDivide 0) 1 (rFOD 0 0x14) 1 41, rfl, by decide +kernel⟩

/-- Refutes O21 in its clause on a commit, after which the divide registers hold the values written: the statement is over every state
and does not ask that an output's counts be of ports 0 to 127. The new divide's record raises LEAD_MISS for a count of another port
(R127, R235), and where the queue of that port's lane is full the lost report counts beyond FCOL_CNT, in FOD_N. -/
theorem not_divideAndInputChangesAreChecked : ¬ Obligations.DivideAndInputChangesAreChecked := by
  rintro ⟨commits, -⟩
  obtain ⟨t, ht, hd, -⟩ := commits 1 0 .n 41 0 strayDivide busOpen_strayDivide fodFree_strayDivide (by decide)
  obtain ⟨t', ht', hne⟩ := fodDivCommit_strayDivide
  obtain rfl : t = t' := Host.Outcome.next.inj (ht.symm.trans ht')
  exact hne hd

/-! ## A phase slew -/

/-- FOD0 at the end of a tracking slew, the lost reports of the stray lane counting in its FOD_PSLEW_RATE, with an FOD_PDELTA of 1 000. -/
def strayPslew : State :=
  wr (strayFod0 (rFOD 0 0x58) { fodInit 0 with tRem := 1, tRate := 1, tFrom := -1 }) (rFOD 0 0x4C) 1000

theorem busOpen_strayPslew : BusOpen strayPslew := ⟨⟨rfl, rfl⟩, by decide +kernel⟩

/-- The record of the tracking slew's end misses the stray count's lead (R235), and the report's loss counts on top of the rate. -/
theorem pslew_strayPslew :
    ∃ t, exec (.pslew 1 0 0) strayPslew = .next t ∧ (fod t 0).pRate ≠ pslewRate strayPslew 0 :=
  ⟨regPutM (atCyc strayPslew 0) 1 (rFOD 0 8) 2 2, rfl, by decide +kernel⟩

/-- Refutes O22 in its clause on PSLEW, after which the slew has the rate that FOD_PSLEW_RATE held: the statement is over every state
and does not ask that an output's counts be of ports 0 to 127. The record at the end of the tracking slew raises LEAD_MISS for a count of
another port (R136, R235), and where the queue of that port's lane is full the lost report counts beyond FCOL_CNT, in FOD_PSLEW_RATE,
from which the slew then takes its rate. -/
theorem not_phaseCommandsMoveThePhase : ¬ Obligations.PhaseCommandsMoveThePhase := by
  rintro ⟨commands, -⟩
  obtain ⟨-, -, slews, -⟩ := commands 1 0 0 strayPslew busOpen_strayPslew (by decide +kernel) (by decide +kernel)
  obtain ⟨t, ht, -, -, hr, -⟩ := slews (by decide +kernel) (by decide +kernel)
  obtain ⟨t', ht', hne⟩ := pslew_strayPslew
  obtain rfl : t = t' := Host.Outcome.next.inj (ht.symm.trans ht')
  exact hne hr

end Sys2Proof.Machine
end

section
/-!
PROOFS. O23: the visits of a witness TDC.
-/
namespace Sys2Proof.Machine
open Sys2Proof

theorem nowR_congr {s t : State} (ht : t.time = s.time) (hc : t.cyc = s.cyc) : nowR t = nowR s := by
  simp only [nowR, nowSub, ht, hc]

/-! ## Values of two WM words -/

theorem rd_wM_two {s : State} {o v k : Nat} (h : k ≠ o) (h4 : k ≠ o + 4) : rd (wM s o 2 v) k = rd s k := by
  rw [wM, wM, wM, rd_wr_ne _ _ h4, rd_wr_ne _ _ h]

theorem rM_two_congr {s t : State} {o : Nat} (h : rd t o = rd s o) (h4 : rd t (o + 4) = rd s (o + 4)) : rM t o 2 = rM s o 2 := by
  simp only [rM, rn, h, h4]

theorem rM_wM_two (s : State) (o : Nat) {v : Nat} (h : v < 2 ^ 32) : rM (wM s o 2 v) o 2 = v := by
  have low : rn (wM s o 2 v) o = v % 65536 := by
    rw [wM, wM, wM, rn_wr_ne _ _ (by omega), rn_wr_same]
    omega
  have high : rn (wM s o 2 v) (o + 4) = v / 65536 := by
    rw [wM, wM, wM, rn_wr_same]
    omega
  simp only [rM, low, high]
  omega

theorem tw_lt (n : Nat) (i : Int) : tw n i < 2 ^ n := by
  have := Int.emod_lt_of_pos i (show (0 : Int) < 2 ^ n by positivity)
  have := Int.emod_nonneg i (show (2 : Int) ^ n ≠ 0 by positivity)
  rw [tw]
  zify
  omega

/-! ## A visit that is not due -/

theorem witVisit_undue {s : State} {n : Nat} (h : (fod s n).running = false ∨ s.groups.testBit (n / 8) = false ∨ witMay s n = false)
    (ok : Bool) (e : Rat) : witVisit s n ok e = s :=
  if_pos (by simpa only [Bool.not_eq_true] using h)

/-! ## A failed self-check -/

/-- An output whose witness has failed at device time t, where it had not failed before (R141). -/
def failedAt (t : Rat) (x : Fod) : Fod := if x.tdcAt = none then { x with tdcAt := some t } else x

/-- The mark of a failed witness at output i of group g (R141). -/
def witMark (g : Nat) (s : State) (i : Nat) : State :=
  if (fod s (8 * g + i)).tdcAt.isNone then setFod s (8 * g + i) { fod s (8 * g + i) with tdcAt := some (nowR s) } else s

/-- The same with the report of WITNESS_FAIL where the output runs (R141). -/
def witFail (g : Nat) (s : State) (i : Nat) : State :=
  if (fod (witMark g s i) (8 * g + i)).running then raiseFod (witMark g s i) (8 * g + i) kWitnessFail none else witMark g s i

/-- The state whose witness TDC of FOD n's group has ended a visit and failed. -/
def witFailed (s : State) (n : Nat) : State := { witDone s n with tdcFail := (witDone s n).tdcFail ||| 2 ^ (n / 8) }

theorem witVisit_failed {s : State} {n : Nat} (hr : (fod s n).running = true) (hg : s.groups.testBit (n / 8) = true)
    (hm : witMay s n = true) (e : Rat) : witVisit s n false e = upto 8 (witFail (n / 8)) (witFailed s n) := by
  rw [witVisit, if_neg (by simp [hr, hg, hm]), if_pos Bool.false_ne_true]
  rfl

theorem witMark_same (g : Nat) (s : State) (i : Nat) : Same 65536 s (witMark g s i) := by
  unfold witMark
  split
  · exact setFod_same _ _ _
  · exact Same.refl _ _

theorem witFail_same (g : Nat) (s : State) (i : Nat) : Same 73744 s (witFail g s i) := by
  have mark : Same 73744 s (witMark g s i) := (witMark_same g s i).mono rfl
  unfold witFail
  split
  · exact Same.step rfl (raiseFod_same _ _ _ _) mark
  · exact mark

theorem fod_raiseFod (s : State) (n kind : Nat) (cz : Cause) (k : Nat) : fod (raiseFod s n kind cz) k = fod s k :=
  fod_congr ((raiseFod_same _ _ _ _).get_fods rfl) k

theorem fod_witMark_same (g : Nat) (s : State) (i : Nat) :
    fod (witMark g s i) (8 * g + i) = failedAt (nowR s) (fod s (8 * g + i)) := by
  simp only [witMark, failedAt, Option.isNone_iff_eq_none]
  split
  · exact fod_setFod_same _ _ _
  · rfl

theorem fod_witMark_ne (g : Nat) (s : State) {i k : Nat} (h : k ≠ 8 * g + i) : fod (witMark g s i) k = fod s k := by
  unfold witMark
  split
  · exact fod_setFod_ne _ _ _ h
  · rfl

theorem fod_witFail (g : Nat) (s : State) (i k : Nat) : fod (witFail g s i) k = fod (witMark g s i) k := by
  unfold witFail
  split
  · exact fod_raiseFod _ _ _ _ _
  · rfl

theorem fod_upto_witFail (g : Nat) (s : State) (n k : Nat) :
    fod (upto n (witFail g) s) k = if 8 * g ≤ k ∧ k < 8 * g + n then failedAt (nowR s) (fod s k) else fod s k := by
  induction n with
  | zero => rw [if_neg (by omega)]; rfl
  | succ n ih =>
    have same : Same 73744 s (upto n (witFail g) s) := Same.upto (witFail_same g) (Same.refl _ _)
    have next : upto (n + 1) (witFail g) s = witFail g (upto n (witFail g) s) n := by
      rw [upto, List.range_succ, List.foldl_append]; rfl
    rw [next, fod_witFail]
    by_cases hk : k = 8 * g + n
    · rw [if_neg (by omega)] at ih
      rw [if_pos (by omega), hk, fod_witMark_same, ← hk, ih, nowR_congr (same.get_time rfl) (same.get_cyc rfl)]
    · rw [fod_witMark_ne _ _ hk, ih]
      exact if_congr (by omega) rfl rfl

theorem witFailed_same (s : State) (n : Nat) : Same 1342177280 s (witFailed s n) :=
  Same.put_tdcFail rfl ((witDone_same s n).mono rfl)

/-- The failed self-check marks the group's witness and every output of the group that it had not failed before (R141). -/
theorem witnessVisit_fails {s : State} {f : FodIx} (hr : (fod s f).running = true) (hg : s.groups.testBit (f.val / 8) = true)
    (hm : witMay s f = true) (e : Rat) :
    ∃ t, exec (.witnessVisit f false e) s = .next t ∧ t.tdcFail = s.tdcFail ||| 2 ^ (f.val / 8) ∧
      (∀ g, fod t g = if g / 8 = f.val / 8 ∧ (fod s g).tdcAt = none then { fod s g with tdcAt := some (nowR s) } else fod s g) ∧
      MemKept s t := by
  have failed := witFailed_same s f
  have marks : Same 73744 (witFailed s f) (upto 8 (witFail (f / 8)) (witFailed s f)) :=
    Same.upto (witFail_same _) (Same.refl _ _)
  refine ⟨witVisit s f false e, rfl, ?_, fun g => ?_, memKept_of_mem ((witVisit_same s f false e).get_mem rfl)⟩
  · rw [witVisit_failed hr hg hm, marks.get_tdcFail rfl, witFailed, (witDone_same s f).get_tdcFail rfl]
  · have group : (8 * (f.val / 8) ≤ g ∧ g < 8 * (f.val / 8) + 8) ↔ g / 8 = f.val / 8 := by omega
    rw [witVisit_failed hr hg hm, fod_upto_witFail, fod_congr (failed.get_fods rfl),
      nowR_congr (failed.get_time rfl) (failed.get_cyc rfl), failedAt, ← ite_and]
    exact if_congr (and_congr_left' group) rfl rfl

/-! ## A visit whose self-check holds -/

/-- The state whose witness TDC has ended a visit of FOD n, its error e shown in FOD_WIT_ERR (R139). -/
def witShown (s : State) (n : Nat) (e : Rat) : State := wM (witDone s n) (rFOD n 0x94) 2 (tw 32 (rfloor e))

/-- The correction of a visit with the error that the module uses, where there is one (R140, R470). -/
def witCorr (s : State) (n : Nat) (e : Rat) : Rat :=
  match witErr s n e with
  | some v => witStep s n v
  | none => 0

/-- The ends of a re-homing gap and of DEGRADED after a visit (R119, R154, R240). -/
def witRecovered (s : State) (n : Nat) : State :=
  darkEval (setFod s n { fod s n with
    rehomeGap := (fod s n).rehomeGap && (sc s (fod s n).sc).rehome.isSome, degraded := (fod s n).degraded && (fod s n).fenced }) n

/-- The greatest magnitude of an error, as visits with one of magnitude a leave it for the mate's check of alignment. -/
def witGreatest (s : State) (a : Rat) : State :=
  if s.mate.maxErr < a then { s with mate := { s.mate with maxErr := a } } else s

theorem witVisit_passed {s : State} {n : Nat} {e : Rat} {c : Int} {at_ : Rat} (hr : (fod s n).running = true)
    (hg : s.groups.testBit (n / 8) = true) (hm : witMay s n = true) (ht : s.tdcFail.testBit (n / 8) = false)
    (edge : edgeAfter (witShown s n e) (fod (witShown s n e) n).recs (fod (witShown s n e) n).anchors (nowR (witDone s n)) =
      some (c, at_)) :
    ∃ a, witVisit s n true e = witJudge (witGreatest (witRecovered
      (pushAnchor (witShown s n e) n c (witCorr (witShown s n e) n e) (nowR (witDone s n))) n) a) n e := by
  have passes : ¬ (witDone s n).tdcFail.testBit (n / 8) = true := by rw [(witDone_same s n).get_tdcFail rfl, ht]; decide
  rw [witVisit, if_neg (by simp [hr, hg, hm])]
  extract_lets u _ now v err step w y x _ a _ z
  have shown : v = witShown s n e := rfl
  have corr : step = witCorr v n e := rfl
  have anchor : w = pushAnchor v n c step (nowR (witDone s n)) := by simp only [w, shown, now, u, edge]
  clear_value w
  have recovered : x = witRecovered w n := rfl
  have greatest : z = witGreatest x a := rfl
  exact ⟨a, by rw [if_neg (by decide), if_neg passes, greatest, recovered, anchor, corr, shown]⟩

/-! ## What a visit leaves -/

theorem witShown_same (s : State) (n : Nat) (e : Rat) : Same 1073741840 s (witShown s n e) :=
  Same.step rfl (wM_same _ _ _ _) ((witDone_same s n).mono rfl)

theorem rd_witShown (s : State) {n k : Nat} (e : Rat) (h : k ≠ rFOD n 0x94) (h4 : k ≠ rFOD n 0x94 + 4) :
    rd (witShown s n e) k = rd s k := by
  rw [witShown, rd_wM_two h h4, rd_congr ((witDone_same s n).get_regs rfl)]

theorem edgeAfter_isSome (s : State) {recs : List ChRec} (h : recs ≠ []) (as : List Anchor) (t : Rat) :
    ∃ c u, edgeAfter s recs as t = some (c, u) := by
  obtain ⟨r, rest, rfl⟩ := List.exists_cons_of_ne_nil h
  obtain ⟨c, u, from_⟩ : ∃ c u, edgeFrom s (r :: rest) as t = some (c, u) := by
    simp only [edgeFrom]
    split
    · exact ⟨_, _, rfl⟩
    · exact ⟨_, _, rfl⟩
  simp only [edgeAfter, from_]
  split
  · exact ⟨_, _, rfl⟩
  · exact ⟨_, _, rfl⟩

theorem anchors_flagsWere (t : Rat) (o x : Fod) : (flagsWere t o x).anchors = x.anchors := by
  unfold flagsWere
  split <;> rfl

theorem anchors_pushAnchor (s : State) (n : Nat) (c : Int) (step t : Rat) :
    ∃ a rest, (fod (pushAnchor s n c step t) n).anchors = a :: rest ∧ a.step = step := by
  refine ⟨⟨c, step, t, trailSum s (fod s n).sc, (fod s n).recSeq % 65536⟩, anchorsKept (fod s n).recs (fod s n).anchors, ?_, rfl⟩
  rw [pushAnchor, fod_congr ((ledgerOut_same _ _ _).get_fods rfl), fod_setFod_same]

theorem fod_pushAnchor_ne (s : State) {n g : Nat} (h : g ≠ n) (c : Int) (step t : Rat) :
    fod (pushAnchor s n c step t) g = fod s g := by
  rw [pushAnchor, fod_congr ((ledgerOut_same _ _ _).get_fods rfl), fod_setFod_ne _ _ _ h]

theorem anchors_witRecovered (s : State) (n : Nat) : (fod (witRecovered s n) n).anchors = (fod s n).anchors := by
  rw [witRecovered, darkEval, fod_setFod_same, fod_setFod_same]

theorem fod_witRecovered_ne (s : State) {n g : Nat} (h : g ≠ n) : fod (witRecovered s n) g = fod s g := by
  rw [witRecovered, darkEval, fod_setFod_ne _ _ _ h, fod_setFod_ne _ _ _ h]

theorem rd_witRecovered (s : State) (n k : Nat) : rd (witRecovered s n) k = rd s k :=
  rd_congr ((darkEval_same _ _).get_regs rfl) k

theorem witGreatest_keeps (s : State) (a : Rat) : (witGreatest s a).fods = s.fods ∧ (witGreatest s a).regs = s.regs := by
  unfold witGreatest
  split
  · exact ⟨rfl, rfl⟩
  · exact ⟨rfl, rfl⟩

/-- What the judging of ALIGNED can do: nothing, or a change of the output that leaves its anchors, with a report or without (R140). -/
theorem witJudge_cases (s : State) (n : Nat) (e : Rat) :
    witJudge s n e = s ∨ ∃ x : Fod, x.anchors = (fod s n).anchors ∧
      (witJudge s n e = setFod s n x ∨ witJudge s n e = raiseFod (setFod s n x) n kAlignLost none) := by
  rw [witJudge]
  extract_lets x
  split
  · exact .inl rfl
  · split
    · exact .inr ⟨_, by exact anchors_flagsWere _ _ _, .inr rfl⟩
    · exact .inr ⟨_, by exact anchors_flagsWere _ _ _, .inl rfl⟩

theorem anchors_witJudge (s : State) (n : Nat) (e : Rat) : (fod (witJudge s n e) n).anchors = (fod s n).anchors := by
  obtain h | ⟨x, hx, h | h⟩ := witJudge_cases s n e
  · rw [h]
  · rw [h, fod_setFod_same, hx]
  · rw [h, fod_raiseFod, fod_setFod_same, hx]

theorem fod_witJudge_ne (s : State) {n g : Nat} (hg : g ≠ n) (e : Rat) : fod (witJudge s n e) g = fod s g := by
  obtain h | ⟨x, -, h | h⟩ := witJudge_cases s n e
  · rw [h]
  · rw [h, fod_setFod_ne _ _ _ hg]
  · rw [h, fod_raiseFod, fod_setFod_ne _ _ _ hg]

theorem rd_witJudge (s : State) (n : FodIx) (e : Rat) {k : Nat} (hk : faultReg k = false) : rd (witJudge s n e) k = rd s k := by
  obtain h | ⟨x, -, h | h⟩ := witJudge_cases s n e
  · rw [h]
  · rw [h, rd_setFod]
  · rw [h, raiseFod, rd_raiseC (show srcFod n < 0x1000 by unfold srcFod; omega) hk, rd_setFod]

/-! ## The correction -/

theorem witStep_frozen {s : State} {n : Nat} (h : (fod s n).frozen = true) (v : Rat) : witStep s n v = 0 :=
  if_pos (.inl h)

theorem witCorr_frozen {s : State} {n : Nat} (h : (fod s n).frozen = true) (e : Rat) : witCorr s n e = 0 := by
  unfold witCorr
  split
  · exact witStep_frozen h _
  · rfl

/-- An aligned output that neither a fence, a freeze, SAFE nor a pause holds is corrected by the error over the filter's power of two
where that stays in the limit (R139, R140). -/
theorem witCorr_aligned {s : State} {n : Nat} {e : Rat} (hz : (fod s n).frozen = false) (hf : (fod s n).fenced = false)
    (hs : s.fcol.safe = false) (hp : s.corrPause = false) (ha : alignMode s n (fod s n) = true)
    (lo : -((atLeast1 (rb s 0x408008 12 8) : Nat) : Rat) * psT ≤ e / 2 ^ rb s 0x408008 8 4)
    (hi : e / 2 ^ rb s 0x408008 8 4 ≤ ((atLeast1 (rb s 0x408008 12 8) : Nat) : Rat) * psT) :
    witCorr s n e = -(e / 2 ^ rb s 0x408008 8 4) := by
  have err : witErr s n e = some e := if_pos (.inl ha)
  have free : ¬ ((fod s n).frozen = true ∨ (fod s n).fenced = true ∨ s.fcol.safe = true ∨ s.corrPause = true ∨
      ¬ (alignMode s n (fod s n) = true ∨ s.standby = true)) := by simp [hz, hf, hs, hp, ha]
  rw [neg_mul] at lo
  simp only [witCorr, err]
  rw [witStep]
  exact (if_neg free).trans ((if_neg (not_lt.2 lo)).trans (if_neg (not_lt.2 hi)))

theorem rFOD_ne_witErr {n a : Nat} (k : Nat) (h : a < 0x94) : rFOD n a ≠ rFOD n 0x94 + k := by unfold rFOD; omega

theorem alignMode_witShown (s : State) (n : Nat) (e : Rat) (x : Fod) : alignMode (witShown s n e) n x = alignMode s n x := by
  rw [alignMode, alignMode, rbit_congr (rd_witShown s e (rFOD_ne_witErr 0 (by decide)) (rFOD_ne_witErr 4 (by decide))),
    sc_congr ((witShown_same s n e).get_scs rfl)]

/-- The configuration of the witnesses lies outside the outputs' registers. -/
theorem rb_witShown_config (s : State) (n : FodIx) (e : Rat) (lo w : Nat) :
    rb (witShown s n e) 0x408008 lo w = rb s 0x408008 lo w :=
  rb_congr (rd_witShown s e (by unfold rFOD; omega) (by unfold rFOD; omega)) lo w

/-! ## The obligation -/

theorem witnessVisit_corrects {s : State} {f : FodIx} {e : Rat} (hr : (fod s f).running = true)
    (hg : s.groups.testBit (f.val / 8) = true) (hm : witMay s f = true) (ht : s.tdcFail.testBit (f.val / 8) = false)
    (hl : (fod s f).recs ≠ []) :
    ∃ t a rest, exec (.witnessVisit f true e) s = .next t ∧ rM t (rFOD f 0x94) 2 = tw 32 (rfloor e) ∧
      (fod t f).anchors = a :: rest ∧ a.step = witCorr (witShown s f e) f e ∧ (∀ g, g ≠ f.val → fod t g = fod s g) ∧
      MemKept s t := by
  have shown := witShown_same s f e
  have fods := fod_congr (shown.get_fods rfl)
  obtain ⟨c, u, edge⟩ := edgeAfter_isSome (witShown s f e) (fods f ▸ hl) (fod (witShown s f e) f).anchors (nowR (witDone s f))
  obtain ⟨_, run⟩ := witVisit_passed hr hg hm ht edge
  obtain ⟨a, rest, anchors, step⟩ := anchors_pushAnchor (witShown s f e) f c (witCorr (witShown s f e) f e) (nowR (witDone s f))
  refine ⟨witVisit s f true e, a, rest, rfl, ?_, ?_, step, fun g hne => ?_, memKept_of_mem ((witVisit_same s f true e).get_mem rfl)⟩
  · have kept (k : Nat) (hk : faultReg k = false) : rd (witVisit s f true e) k = rd (witShown s f e) k := by
      rw [run, rd_witJudge _ _ _ hk, rd_congr (witGreatest_keeps _ _).2, rd_witRecovered,
        rd_congr ((pushAnchor_same _ _ _ _ _).get_regs rfl)]
    rw [rM_two_congr (kept _ (faultReg_false_of_ge (by unfold rFOD; omega))) (kept _ (faultReg_false_of_ge (by unfold rFOD; omega)))]
    exact rM_wM_two _ _ (tw_lt 32 _)
  · rw [run, anchors_witJudge, fod_congr (witGreatest_keeps _ _).1, anchors_witRecovered, anchors]
  · rw [run, fod_witJudge_ne _ hne, fod_congr (witGreatest_keeps _ _).1, fod_witRecovered_ne _ hne, fod_pushAnchor_ne _ hne, fods]

/-- Settles O23: a visit that is not due, one whose self-check fails, and one that corrects by the limits of R140. -/
theorem witnessVisitCorrectsTheOutput : Obligations.WitnessVisitCorrectsTheOutput := by
  refine ⟨fun f ok e s h => congrArg Host.Outcome.next (witVisit_undue h ok e), fun f e s hr hg hm => witnessVisit_fails hr hg hm e,
    fun f e s hr hg hm ht hl => ?_⟩
  obtain ⟨t, a, rest, run, error, anchors, step, others, mem⟩ := witnessVisit_corrects (e := e) hr hg hm ht hl
  have shown := witShown_same s f e
  have fods := fod_congr (shown.get_fods rfl) f
  refine ⟨t, a, rest, run, error, anchors, fun hz => ?_, fun hz hf hs hp ha lo hi => ?_, others, mem⟩
  · rw [step, witCorr_frozen (fods ▸ hz)]
  · rw [step, witCorr_aligned (fods ▸ hz) (fods ▸ hf) (by rwa [shown.get_fcol rfl]) (by rwa [shown.get_corrPause rfl])
      (by rwa [alignMode_witShown, fods]) (by simpa only [rb_witShown_config] using lo) (by simpa only [rb_witShown_config] using hi),
      rb_witShown_config]

end Sys2Proof.Machine
end

section
/-!
PROOFS. O25: the refutation, by a transmit count of a port that the block does not have.
-/
namespace Sys2Proof.Machine
open Sys2Proof

/-- A VALID entry at R126's shortest period under Q = 125: 40 960 ticks, 1.6 GHz. -/
def strayEntry : HopEnt := ⟨true, false, 3, 29, 32, 1, 0⟩

/-- FOD0 at the end of a tracking slew with that entry as its entry 0, the lost reports of the stray lane counting in the NI of SC0's
SC_RATIO. -/
def strayHop : State := strayFod0 (rSC 0 0x10) { fodInit 0 with tRem := 1, tRate := 1, tFrom := -1, hops := [(0, strayEntry)] }

theorem busOpen_strayHop : BusOpen strayHop := ⟨⟨rfl, rfl⟩, by decide +kernel⟩

/-- Nothing blocks or limits a hop of FOD0 in the GO's cycle. -/
theorem hopFree_strayHop :
    hopBlocked (atCyc strayHop 0) 0 (nowR (atCyc strayHop 0)) = false ∧ hopRateFull strayHop 0 (nowR (atCyc strayHop 0)) = false := by
  decide +kernel

/-- The entry is VALID and its combination valid under the ratio that is in force when the GO comes. -/
theorem hopWouldRun_strayHop : hopWouldRun (atCyc strayHop 0) 0 0 = true := by decide +kernel

/-- The record of the slew's end misses the stray count's lead (R235), the report's loss raises the ratio to 126, and the hop is skipped
(R164): FOD0 keeps its N of 40. -/
theorem hopGo_strayHop :
    ∃ t, exec (.hopGo 1 0 0 0) strayHop = .next t ∧ (fod t 0).n ≠ (hopBefore (atCyc strayHop 0) 0 0).n :=
  ⟨regPutM (atCyc strayHop 0) 1 (rFOD 0 0xE0) 0xF1 1, rfl, by decide +kernel⟩

/-- Refutes O25 in its clause on a GO that nothing holds, which takes the divide of an entry valid under the ratio in force: the statement
is over every state and does not ask that an output's counts be of ports 0 to 127. The record at the end of a tracking slew raises
LEAD_MISS for a count of another port (R136, R235), and where the queue of that port's lane is full the lost report counts beyond
FCOL_CNT, in SC_RATIO, under which the entry's output would be too fast and the hop is skipped (R126, R164). -/
theorem not_hopEntriesAreStoredAndTaken : ¬ Obligations.HopEntriesAreStoredAndTaken := by
  rintro ⟨-, goes, -⟩
  obtain ⟨taken, -⟩ := goes 1 0 0 0 strayHop busOpen_strayHop (by decide +kernel)
  obtain ⟨free, unlimited⟩ := hopFree_strayHop
  obtain ⟨t, ht, hn, -⟩ := taken free (by decide +kernel) unlimited hopWouldRun_strayHop
  obtain ⟨t', ht', hne⟩ := hopGo_strayHop
  obtain rfl : t = t' := Host.Outcome.next.inj (ht.symm.trans ht')
  exact hne hn

end Sys2Proof.Machine
end

section
/-!
PROOFS. The monitors of a reference and what a sample of it shows.
-/
namespace Sys2Proof.Machine
open Sys2Proof

/-! ## Values of WM words -/

theorem rd_wM {s : State} {o n v k : Nat} (h : k < o ∨ o + 4 * n ≤ k) : rd (wM s o n v) k = rd s k := by
  induction n generalizing s o v with
  | zero => rfl
  | succ n ih => rw [wM, ih (by omega), rd_wr_ne _ _ (by omega)]

theorem rM_congr {s t : State} {o n : Nat} (h : ∀ k, o ≤ k → k < o + 4 * n → rd t k = rd s k) : rM t o n = rM s o n := by
  induction n generalizing o with
  | zero => rfl
  | succ n ih => rw [rM, rM, ih fun k lo hi => h k (by omega) (by omega), rn, h o (by omega) (by omega), rn]

/-- A value of n WM words reads as it was written, cut to their data (R40). -/
theorem rM_wM (s : State) (o n v : Nat) : rM (wM s o n v) o n = v % 65536 ^ n := by
  induction n generalizing s o v with
  | zero => rw [pow_zero, Nat.mod_one, rM]
  | succ n ih =>
    have low : rn (wM s o (n + 1) v) o = v % 65536 := by
      rw [wM, rn, rd_wM (.inl (by omega)), ← rn, rn_wr_same]
      omega
    have high : rM (wM s o (n + 1) v) (o + 4) n = v / 65536 % 65536 ^ n := ih ..
    rw [rM, low, high, Nat.mod_mod, pow_succ', Nat.mod_mul]

/-- A counter of two WM words counts and saturates (R453). -/
theorem rM_bumpM_same {s : State} {o : Nat} (ho : ∀ k, o ≤ k → k < o + 8 → faultReg k = false) :
    rM (bumpM s o) o 2 = min (rM s o 2 + 1) (2 ^ 32 - 1) := by
  have bound : rM s o 2 < 2 ^ 32 := by
    simp only [rM]
    omega
  have counted : rM (bumpM s o) o 2 = rM (bumpRaw s o 1 true).1 o 2 := by
    rw [bumpM]
    split
    · exact rM_congr fun k lo hi => rd_raise (by decide) (ho k lo hi)
    · rfl
  have set : rM (cntSet s o true (min (rM s o 2 + 1) (2 ^ 32 - 1))) o 2 = min (rM s o 2 + 1) (2 ^ 32 - 1) :=
    rM_wM_two s o (by omega)
  rw [counted]
  simp only [bumpRaw, cntGet, ones, if_true]
  split
  next full => rw [full]; omega
  next =>
    split
    · exact (rM_congr fun k lo hi => rd_noteSat (ho k lo hi)).trans set
    · exact set

theorem s32_congr {s t : State} {o : Nat} (h : ∀ k, o ≤ k → k < o + 8 → rd t k = rd s k) : s32 t o = s32 s o := by
  rw [s32, rM_congr h, s32]

/-! ## What the judgement of a reference leaves -/

theorem ref_congr {s t : State} (h : t.refs = s.refs) (i : Nat) : ref t i = ref s i := by rw [ref, h, ref]

theorem faultReg_rREF (i o : Nat) : faultReg (rREF i o) = false := faultReg_false_of_ge (by unfold rREF; split <;> omega)

/-- Only the first 0x40 bytes of a reference are ever moved (R541). -/
theorem rREF_high {i o : Nat} (h : 0x40 ≤ o) : rREF i o = 0x300000 + 0x400 * i + o := if_neg (by omega)

/-- What a reference has seen: all that is kept of it but its standing, which its monitors decide (R190, R191). -/
def Ref.sight (r : Ref) : Ref := { r with qualFrom := none, dropped := false }

/-- REF_STATUS and the counters of reference i (R216). -/
def refShown (i : Nat) : List Nat := [rREF i 4, rREF i 0x6C, rREF i 0x6C + 4, rREF i 0x74, rREF i 0x74 + 4]

/-- Between two states reference i has been judged: it has seen what it had seen, and no register but its status and counters has
changed but for a report. -/
structure Judged (i : Nat) (s t : State) : Prop where
  sight : (ref t i).sight = (ref s i).sight
  others : ∀ j, j ≠ i → ref t j = ref s j
  regs : ∀ k, faultReg k = false → k ∉ refShown i → rd t k = rd s k

namespace Judged

theorem refl (i : Nat) (s : State) : Judged i s s := ⟨rfl, fun _ _ => rfl, fun _ _ _ => rfl⟩

theorem trans {i : Nat} {s t u : State} (h : Judged i s t) (g : Judged i t u) : Judged i s u :=
  ⟨g.sight.trans h.sight, fun j hj => (g.others j hj).trans (h.others j hj), fun k hk hs => (g.regs k hk hs).trans (h.regs k hk hs)⟩

theorem of_refs {i : Nat} {s t : State} (h : t.refs = s.refs) (hr : ∀ k, faultReg k = false → k ∉ refShown i → rd t k = rd s k) :
    Judged i s t := ⟨by rw [ref_congr h], fun j _ => ref_congr h j, hr⟩

theorem setRefBit (s : State) (i b : Nat) (v : Bool) : Judged i s (setRefBit s i b v) :=
  .of_refs rfl fun k _ hk => rd_wr_ne _ _ fun e => hk (by simp [refShown, e])

theorem orStatus (s : State) (i m : Nat) : Judged i s (orBits s (rREF i 4) m) :=
  .of_refs rfl fun k _ hk => rd_orBits_ne _ _ fun e => hk (by simp [refShown, e])

theorem count {i o : Nat} (h : rREF i o ∈ refShown i) (h4 : rREF i o + 4 ∈ refShown i) (s : State) :
    Judged i s (bumpM s (rREF i o)) :=
  .of_refs ((bumpM_same _ _ _).get_refs rfl) fun _ hf hk => rd_bumpM hf (fun e => hk (e ▸ h)) fun e => hk (e ▸ h4)

theorem setRef {s : State} {i : Nat} {x : Ref} (h : x.sight = (ref s i).sight) : Judged i s (setRef s i x) where
  sight := by rw [ref_setRef_same, h]
  others j hj := ref_setRef_ne s i x hj
  regs _ _ _ := rfl

theorem raise (s : State) (i : RefIx) (k : Nat) : Judged i s (raiseRef s i k) := by
  have src (a k o : Nat) (ha : a < 0x1000) : Judged i s (Machine.raise s a k o) :=
    .of_refs ((raise_same ..).get_refs rfl) fun _ hf _ => rd_raise ha hf
  unfold raiseRef
  split
  · exact src _ _ _ (by omega)
  · split
    · exact src _ _ _ (by omega)
    · exact src _ _ _ (by omega)

theorem qualRun (s : State) (i : Nat) (on : Bool) : Judged i s (qualRun s i on) :=
  (setRefBit s i 2 _).trans (setRef rfl)

/-- GOOD follows the monitors (R190). -/
theorem refEval (s : State) (i : Nat) : Judged i s (refEval s i) := by
  unfold Machine.refEval
  dsimp only
  split
  · exact refl i s
  · split
    · exact (setRefBit s i 0 true).trans (qualRun ..)
    · have lost : Judged i s (Machine.qualRun (Machine.setRefBit s i 0 false) i false) := (setRefBit s i 0 false).trans (qualRun ..)
      split
      · exact lost
      · exact lost.trans (setRefBit ..)

theorem disqualify (s : State) (i : RefIx) (k : Nat) : Judged i s (disqualify s i k) := by
  unfold Machine.disqualify
  dsimp only
  refine (setRef ?_).trans (((setRefBit ..).trans (qualRun ..)).trans (((orStatus ..).trans
    (count (by simp [refShown]) (by simp [refShown]) _)).trans (raise ..)))
  rfl

theorem setLevel (s : State) (i : RefIx) (m : Monitor) (fail : Bool) : Judged i s (setLevel s i m fail) := by
  have level := (setRefBit s i (monBits m).1 fail).trans (refEval ..)
  unfold Machine.setLevel
  dsimp only
  split
  · exact level.trans (disqualify ..)
  · exact level

theorem widthCheck (s : State) (i : RefIx) (w : Nat) : Judged i s (widthCheck s i w) := by
  unfold Machine.widthCheck
  split
  · exact setLevel ..
  · exact refl i s

theorem pjumpCheck (s : State) (i : RefIx) (t e : Int) : Judged i s (pjumpCheck s i t e) := by
  unfold Machine.pjumpCheck
  dsimp only
  split
  · split
    · exact ((orStatus ..).trans (count (by simp [refShown]) (by simp [refShown]) _)).trans (disqualify ..)
    · exact refl i s
  · exact refl i s

end Judged

/-! ## LOS -/

theorem refBit_setRefBit_same (s : State) (i : Nat) {b : Nat} (v : Bool) (hb : b < 32) : refBit (setRefBit s i b v) i b = v := by
  rw [refBit, rbit, setRefBit, rn_wb_same _ _ _ _ _ (by omega), setBits_testBit, if_pos (by omega), Nat.sub_self]
  cases v <;> rfl

theorem refBit_setRefBit_ne (s : State) (i : Nat) {b c : Nat} (v : Bool) (hb : b < 32) (h : c ≠ b) :
    refBit (setRefBit s i b v) i c = refBit s i c := rbit_wb_ne _ _ _ _ _ _ (by omega) (by omega)

theorem refBit_qualRun {b : Nat} (h : b ≠ 2) (s : State) (i : Nat) (on : Bool) : refBit (qualRun s i on) i b = refBit s i b :=
  refBit_setRefBit_ne s i _ (by decide) h

/-- A judgement of GOOD leaves the monitors' bits. -/
theorem refBit_refEval {b : Nat} (hb : 2 < b) (s : State) (i : Nat) : refBit (refEval s i) i b = refBit s i b := by
  have bit (x : State) (c : Nat) (hc : c < 3) (v : Bool) : refBit (setRefBit x i c v) i b = refBit x i b :=
    refBit_setRefBit_ne x i v (by omega) (by omega)
  unfold refEval
  dsimp only
  split
  · rfl
  · split
    · rw [refBit_qualRun (by omega), bit _ _ (by decide)]
    · split
      · rw [refBit_qualRun (by omega), bit _ _ (by decide)]
      · rw [bit _ _ (by decide), refBit_qualRun (by omega), bit _ _ (by decide)]

theorem setLevel_clear (s : State) (i : Nat) (m : Monitor) : setLevel s i m false = refEval (setRefBit s i (monBits m).1 false) i :=
  by simp [setLevel]

theorem refBit_losEnds (s : State) (i : Nat) : refBit (setLevel s i .los false) i 4 = false := by
  rw [setLevel_clear, refBit_refEval (by decide)]
  exact refBit_setRefBit_same s i false (by decide)

/-! ## Samples -/

/-- A sample reaches DPLLs alone: their registers lie below the references'. -/
theorem rd_refFeed {k : Nat} (hk : 0x204000 ≤ k) (s : State) (i : Nat) (t e : Int) : rd (refFeed s i t e) k = rd s k := by
  refine upto_kept (g := fun x => rd x k) 4 (fun x d hd => ?_) s
  show rd (if (dp x d).sel.map (·.2) = some i then dpSample x d i t e else x) k = rd x k
  split
  · unfold dpSample
    dsimp only
    split
    · rfl
    · rw [rd_wM (.inr (by unfold rDP; omega)), rd_wM (.inr (by unfold rDP; omega))]
      rfl
  · rfl

/-- A reference with an event at t of error e noted (R187). -/
def Ref.noting (r : Ref) (t e : Int) : Ref := { r with seen := true, lastT := some t, lastE := some e, times := t :: r.times.take 15 }

/-- Reference i shows a sample at t of error e: it has seen it, besides what it is known by in r; REF_PHASE_ERR shows the error, and
LOS has ended (R187, R190). -/
structure Sampled (i : Nat) (r : Ref) (t e : Int) (s u : State) : Prop where
  sight : (ref u i).sight = r.sight.noting t e
  shows : rM u (rREF i 0x50) 3 = tw 48 e
  los : refBit u i 4 = false
  others : ∀ j, j ≠ i → ref u j = ref s j

theorem Sampled.fields {i : Nat} {r : Ref} {t e : Int} {s u : State} (h : Sampled i r t e s u) :
    (ref u i).seen = true ∧ (ref u i).lastT = some t ∧ (ref u i).lastE = some e ∧ (ref u i).label = r.label ∧
      (ref u i).edge = r.edge ∧ (ref u i).swT = r.swT :=
  ⟨(congrArg Ref.seen h.sight :), (congrArg Ref.lastT h.sight :), (congrArg Ref.lastE h.sight :), (congrArg Ref.label h.sight :),
    (congrArg Ref.edge h.sight :), (congrArg Ref.swT h.sight :)⟩

/-- The registers from 0x40 on that stand before the counters of reference i are not among those that show its judgement. -/
theorem not_mem_refShown {i k : Nat} (lo : rREF i 0x40 ≤ k) (hi : k < rREF i 0x6C) : k ∉ refShown i := by
  simp only [rREF, refShown, List.mem_cons, List.not_mem_nil, or_false] at *
  split_ifs at * <;> omega

/-- A judgement leaves REF_CAL_DLY, REF_PHASE_ERR and what stands between. -/
theorem Judged.word {i k : Nat} {s t : State} (h : Judged i s t) (lo : rREF i 0x40 ≤ k) (hi : k < rREF i 0x6C) : rd t k = rd s k := by
  refine h.regs k (faultReg_false_of_ge ?_) (not_mem_refShown lo hi)
  rw [rREF_high (Nat.le_refl _)] at lo
  omega

theorem Judged.calDly {i : Nat} {s t : State} (h : Judged i s t) : s32 t (rREF i 0x48) = s32 s (rREF i 0x48) := by
  have base {o : Nat} : 0x40 ≤ o → rREF i o = 0x300000 + 0x400 * i + o := rREF_high
  refine s32_congr fun k lo hi => h.word ?_ ?_ <;> simp only [base, Nat.reduceLeDiff] at * <;> omega

theorem Judged.phaseErr {i : Nat} {s t : State} (h : Judged i s t) : rM t (rREF i 0x50) 3 = rM s (rREF i 0x50) 3 := by
  have base {o : Nat} : 0x40 ≤ o → rREF i o = 0x300000 + 0x400 * i + o := rREF_high
  refine rM_congr fun k lo hi => h.word ?_ ?_ <;> simp only [base, Nat.reduceLeDiff] at * <;> omega

/-- What led up to the sample has left reference i's sight r, and the others. -/
theorem Sampled.after {i : Nat} {r r' : Ref} {t e : Int} {s x u : State} (h : Sampled i r' t e x u) (hr : r'.sight = r.sight)
    (ho : ∀ j, j ≠ i → ref x j = ref s j) : Sampled i r t e s u where
  sight := by rw [h.sight, hr]
  shows := h.shows
  los := h.los
  others j hj := (h.others j hj).trans (ho j hj)

theorem refEvent_sampled (s : State) (i : RefIx) (t e : Int) : Sampled i (ref s i) t e s (refEvent s i t (some e)) := by
  have ends : Judged i (wM (setRef s i ((ref s i).noting t e)) (rREF i 0x50) 3 (tw 48 e)) (refEvent s i t (some e)) :=
    Judged.setLevel (wM (setRef s i ((ref s i).noting t e)) (rREF i 0x50) 3 (tw 48 e)) i .los false
  have refs (j : Nat) : ref (wM (setRef s i ((ref s i).noting t e)) (rREF i 0x50) 3 (tw 48 e)) j =
      ref (setRef s i ((ref s i).noting t e)) j := ref_congr ((wM_same _ _ _ _).get_refs rfl) j
  constructor
  case sight =>
    rw [ends.sight, refs, ref_setRef_same]
    rfl
  case shows =>
    rw [ends.phaseErr, rM_wM]
    exact Nat.mod_eq_of_lt (tw_lt 48 e)
  case los => exact refBit_losEnds ..
  case others => exact fun j hj => by rw [ends.others j hj, refs, ref_setRef_ne _ _ _ hj]

/-- A sample of a reference, whatever PJUMP makes of it and whichever DPLL takes it. -/
theorem refSample_sampled (s : State) (i : RefIx) (t e : Int) : Sampled i (ref s i) t e s (refSample s i t e) := by
  have jump := Judged.pjumpCheck s i t e
  have noted := (refEvent_sampled (pjumpCheck s i t e) i t e).after jump.sight jump.others
  have refs (j : Nat) : ref (refSample s i t e) j = ref (refEvent (pjumpCheck s i t e) i t (some e)) j :=
    ref_congr ((refFeed_same _ _ _ _).get_refs rfl) j
  have above (o : Nat) : 0x300000 ≤ rREF i o := by unfold rREF; split <;> omega
  have regs {k : Nat} (hk : 0x300000 ≤ k) : rd (refSample s i t e) k = rd (refEvent (pjumpCheck s i t e) i t (some e)) k :=
    rd_refFeed (by omega) ..
  constructor
  case sight => rw [refs, noted.sight]
  case shows => rw [rM_congr fun k lo _ => regs ((above _).trans lo), noted.shows]
  case los => rw [refBit, rbit_congr (regs (above 4)), ← refBit, noted.los]
  case others => exact fun j hj => by rw [refs, noted.others j hj]

/-- A reference whose event has got its label: neither an edge nor a label waits (R187). -/
def Ref.labelled (r : Ref) (v : Nat) : Ref := { r with label := some v, edge := none, next := none }

/-- A labelled event is a sample of (label − REF_CAL_DLY) − t_edge (R187). -/
theorem refLabel_sampled (s : State) (i : RefIx) (t : Int) (v : Nat) :
    Sampled i ((ref s i).labelled v) t ((v * secTicks : Nat) - s32 s (rREF i 0x48) - t) s (refLabel s i t v) := by
  have refs (j : Nat) : ref (wM (setRef s i ((ref s i).labelled v)) (rREF i 0x80) 3 v) j =
      ref (setRef s i ((ref s i).labelled v)) j := ref_congr ((wM_same _ _ _ _).get_refs rfl) j
  have tod (bad : Bool) := Judged.setLevel (wM (setRef s i ((ref s i).labelled v)) (rREF i 0x80) 3 v) i .tod bad
  refine (refSample_sampled _ i t _).after (((tod _).sight).trans ?_) fun j hj => ((tod _).others j hj).trans ?_
  · rw [refs, ref_setRef_same]
  · rw [refs, ref_setRef_ne _ _ _ hj]

/-! ## What comes in at a reference -/

theorem timeEdge_labelled {s : State} {i : Nat} (h : refOn s i = true) (hi : i < 4 ∨ i = 8 ∨ i = 9) (t : Int) (v w : Nat) :
    timeEdge s i t (some v) w = refLabel (widthCheck s i w) i t v := by
  rw [timeEdge, if_neg (not_not_intro ⟨h, hi⟩)]

theorem timeEdge_sampled {s : State} {i : RefIx} (h : refOn s i = true) (hi : i.val < 4 ∨ i.val = 8 ∨ i.val = 9) (t : Int) (v w : Nat) :
    Sampled i ((ref s i).labelled v) t ((v * secTicks : Nat) - s32 s (rREF i 0x48) - t) s (timeEdge s i t (some v) w) := by
  have width := Judged.widthCheck s i w
  have labelled := refLabel_sampled (widthCheck s i w) i t v
  rw [width.calDly] at labelled
  rw [timeEdge_labelled h hi]
  exact labelled.after (congrArg (fun r : Ref => r.labelled v) width.sight) width.others

theorem freqSample_on {s : State} {i : Nat} (h : refOn s i = true) (lo : 4 ≤ i) (hi : i < 8) (e : Int) :
    freqSample s i e = refSample s i (nowT s) e := if_pos ⟨h, lo, hi⟩

theorem refOff_ignores {s : State} {i : RefIx} (h : refOn s i = false) (t e : Int) (l : Option Nat) (w : Nat) :
    exec (.refTimeEvent i t l w) s = .next s ∧ exec (.refFreqSample i e) s = .next s ∧ exec (.refLos i) s = .next s ∧
      exec (.refFreqGate i e) s = .next s := by
  have off : ¬ refOn s i = true := by simp [h]
  refine ⟨congrArg Host.Outcome.next (if_pos fun on => off on.1), congrArg Host.Outcome.next (if_neg fun on => off on.1),
    congrArg Host.Outcome.next (if_neg off), congrArg Host.Outcome.next (if_pos off)⟩

end Sys2Proof.Machine
end

section
/-!
PROOFS. O26: the write of SWREF_SAMPLE, and the samples of the references.
-/
namespace Sys2Proof.Machine
open Sys2Proof

/-! ## A value of seven WM words, all their bits enabled -/

/-- The word of a WM write that enables all 16 bits of its data (R39). -/
def fullWord (x : Nat) : Nat := 0xFFFF * 65536 + x % 65536

theorem fullWord_lt (x : Nat) : fullWord x < 2 ^ 32 := by unfold fullWord; omega

theorem fullWord_testBit {x b : Nat} (h : b < 16) :
    (fullWord x).testBit b = x.testBit b ∧ (fullWord x).testBit (b + 16) = true := by
  have shape : fullWord x = 2 ^ 16 * 0xFFFF + x % 65536 := by
    unfold fullWord
    omega
  have split (j : Nat) : (fullWord x).testBit j = if j < 16 then (x % 65536).testBit j else Nat.testBit 0xFFFF (j - 16) := by
    rw [shape, Nat.testBit_two_pow_mul_add _ (by omega)]
  refine ⟨by rw [split, if_pos h, show 65536 = 2 ^ 16 from rfl, Nat.testBit_mod_two_pow, decide_eq_true h, Bool.true_and], ?_⟩
  rw [split, if_neg (by omega), Nat.add_sub_cancel]
  exact (ones_testBit 16 b).trans (decide_eq_true h)

/-- Bit b of word j of joined words. -/
theorem joinWords_testBit {l : List Nat} (hl : ∀ w ∈ l, w < 2 ^ 32) {j b : Nat} (hb : b < 32) :
    (joinWords l).testBit (32 * j + b) = (l.getD j 0).testBit b := by
  induction l generalizing j with
  | nil => simp [joinWords]
  | cons w l ih =>
    have split (k : Nat) : (joinWords (w :: l)).testBit k = if k < 32 then w.testBit k else (joinWords l).testBit (k - 32) := by
      rw [joinWords, Nat.add_comm]
      exact Nat.testBit_two_pow_mul_add _ (hl w List.mem_cons_self) k
    cases j with
    | zero => rw [split, if_pos (by omega), Nat.mul_zero, Nat.zero_add, List.getD_cons_zero]
    | succ j =>
      rw [split, if_neg (by omega), show 32 * (j + 1) + b - 32 = 32 * j + b by omega, List.getD_cons_succ,
        ih fun w h => hl w (List.mem_cons_of_mem _ h)]

theorem rd_wL {s : State} {o n v k : Nat} (h : k < o ∨ o + 4 * n ≤ k) : rd (wL s o n v) k = rd s k := by
  induction n generalizing s o v with
  | zero => rfl
  | succ n ih => rw [wL, ih (by omega), rd_wr_ne _ _ (by omega)]

/-- Word j of a value of 32-bit words (R8). -/
theorem rn_wL {s : State} {o n v j : Nat} (h : j < n) : rn (wL s o n v) (o + 4 * j) = v / 2 ^ (32 * j) % 2 ^ 32 := by
  induction n generalizing s o v j with
  | zero => omega
  | succ n ih =>
    cases j with
    | zero => rw [wL, rn, rd_wL (.inl (by omega)), ← rn, Nat.mul_zero, Nat.add_zero, rn_wr_same, Nat.mod_mod, pow_zero, Nat.div_one]
    | succ j =>
      rw [wL, show o + 4 * (j + 1) = o + 4 + 4 * j by omega, ih (by omega), Nat.div_div_eq_div_mul, ← pow_add,
        show 32 + 32 * j = 32 * (j + 1) by omega]

/-- The value of n words whose data are the 16-bit pieces of v. -/
theorem rM_of_pieces {s : State} {o n v : Nat} (h : ∀ j < n, rn s (o + 4 * j) % 65536 = v / 65536 ^ j % 65536) :
    rM s o n = v % 65536 ^ n := by
  induction n generalizing o v with
  | zero => rw [pow_zero, Nat.mod_one, rM]
  | succ n ih =>
    have tail : rM s (o + 4) n = v / 65536 % 65536 ^ n := ih fun j hj => by
      rw [Nat.div_div_eq_div_mul, ← pow_succ', ← h (j + 1) (by omega)]
      congr 2
      omega
    have low : rn s o % 65536 = v % 65536 := by simpa using h 0 (by omega)
    rw [rM, tail, low, pow_succ', Nat.mod_mul]

/-! ## SWREF_SAMPLE on the bus -/

/-- What the map says of word w of SWREF_SAMPLE of software reference i (R216). -/
def swrefInfo (i w : Nat) : RegInfo :=
  ⟨.ref, 12 + i, { off := 0x100, words := 7, wm := true, rw := spread 7 (ones 112) }, 0, w, rREF (12 + i) 0x100⟩

theorem regInfo_swref : ∀ i : Fin 4, ∀ w : Fin 7, regInfo (rREF (12 + i) (0x100 + 4 * w)) = some (swrefInfo i w) := by decide +kernel

theorem forwarded_swref : ∀ i : Fin 4, ∀ w : Fin 7, forwarded (rREF (12 + i) (0x100 + 4 * w)) = false := by decide +kernel

theorem allRo_swrefInfo (i w : Nat) : allRo (swrefInfo i w) = false := by
  have : spread 7 (ones 112) ≠ 0 := by decide
  simp [allRo, swrefInfo, this]

/-- The offset of word j of SWREF_SAMPLE. -/
theorem rREF_swref (i j : Nat) : rREF (12 + i) (0x100 + 4 * j) = 0x303100 + 0x400 * i + 4 * j := by
  rw [rREF_high (by omega)]
  omega

/-- A lower word is staged (R45). -/
theorem regPutM_swref_lower {s : State} (h : BusOpen s) (m : Nat) (i : Fin 4) {j : Nat} (hj : j < 6) (v : Nat) :
    regPutM s m (rREF (12 + i) (0x100 + 4 * j)) 0xFFFF v = setStaged s m (rREF (12 + i) (0x100 + 4 * j)) (fullWord v) := by
  have info := regInfo_swref i ⟨j, by omega⟩
  have unforwarded := forwarded_swref i ⟨j, by omega⟩
  have off : rREF (12 + i) (0x100 + 4 * j) % 4 = 0 ∧ rREF (12 + i) (0x100 + 4 * j) < 2 ^ 24 := by
    rw [rREF_swref]
    omega
  have ho := Nat.mod_eq_of_lt off.2
  rw [regPutM, ← fullWord, regPut, busWrite_open h.1.1 h.1.2 (coreTouch_awake h.2) off.1 (by omega)
    (by rw [ho]; exact regInfo_inMsix info) (fullWord_lt v), regWrite_lower off.2 info (allRo_swrefInfo ..) (by simp [swrefInfo]; omega),
    hostForward, if_neg (by simp [unforwarded])]

/-- The highest word of a multi-word register commits the staged ones with it (R45). -/
theorem regWrite_top {s : State} {off v : Nat} {i : RegInfo} (ho : off < 2 ^ 24) (hi : regInfo off = some i)
    (hr : allRo i = false) (hw : i.word + 1 = i.row.words) (hp : i.row.posted = false) (hc : i.blk ≠ .cmd)
    (hf : forwarded off = false) (m : Nat) :
    regWrite s m off v = busAccept s m off 0 (stagedL s m i.base (i.row.words - 1) + v * 2 ^ topBit i) i := by
  have hd : off / 2 ^ 24 = 0 := Nat.div_eq_of_lt ho
  rw [regWrite, Nat.mod_eq_of_lt ho, hd]
  simp [hi, hr, hw, hp, hc, forwardTaken, hostForward, hf]

/-- What is stored at the commit: its bits stand in SWREF_SAMPLE, which has no others. -/
def swrefStored (s : State) (i : Fin 4) (raw : Nat) : State :=
  noteWrite (wL s (rREF (12 + i) 0x100) 7 (newVal (swrefInfo i 6) 0 (rL s (rREF (12 + i) 0x100) 7) raw)) (rREF (12 + i) 0x100)

theorem applyVal_swref (s : State) (i : Fin 4) (raw m : Nat) (cz : Cause) :
    applyVal s (swrefInfo i 6) 0 raw m cz = swrefFx (swrefStored s i raw) (12 + i) := by
  have hit : hitVal (swrefInfo i 6) raw = 0 := by simp [hitVal, swrefInfo]
  have keep (v : Nat) : clr v (0 &&& (swrefInfo i 6).row.w1c) = v := by simp [clr]
  have stored : storeVal s (swrefInfo i 6) 0 raw m = (swrefStored s i raw, rL s (rREF (12 + i) 0x100) 7,
      newVal (swrefInfo i 6) 0 (rL s (rREF (12 + i) 0x100) 7) raw, 0) := by
    rw [storeVal, hit, keep]
    rfl
  rw [applyVal, stored]
  rfl

theorem regPutM_swref_top {s : State} (h : BusOpen s) (m : Nat) (i : Fin 4) (v : Nat) :
    regPutM s m (rREF (12 + i) 0x118) 0xFFFF v =
      swrefFx (swrefStored s i (stagedL s m (rREF (12 + i) 0x100) 6 + fullWord v * 2 ^ 192)) (12 + i) := by
  have info := regInfo_swref i 6
  have off : rREF (12 + i) 0x118 % 4 = 0 ∧ rREF (12 + i) 0x118 < 2 ^ 24 := by
    rw [rREF_high (by decide)]
    omega
  have ho := Nat.mod_eq_of_lt off.2
  rw [regPutM, ← fullWord, regPut, busWrite_open h.1.1 h.1.2 (coreTouch_awake h.2) off.1 (by omega)
    (by rw [ho]; exact regInfo_inMsix info) (fullWord_lt v),
    regWrite_top off.2 info (allRo_swrefInfo ..) rfl rfl Blk.noConfusion (forwarded_swref i 6),
    busAccept_free rfl (by rw [show heldBits s (swrefInfo i _) = 0 from rfl, Nat.zero_and]) rfl,
    if_neg (not_not_intro rfl : ¬ (swrefInfo i (6 : Fin 7)).row.slm ≠ 0)]
  exact applyVal_swref s i _ m (some (rREF (12 + i) 0x118, m))

/-! ## The seven words -/

/-- The staging of the first k words x of SWREF_SAMPLE. -/
def swrefStaged (s : State) (m i : Nat) (x : Nat → Nat) (k : Nat) : State :=
  upto k (fun t j => setStaged t m (rREF (12 + i) (0x100 + 4 * j)) (fullWord (x j))) s

theorem upto_succ {σ : Type} (n : Nat) (f : σ → Nat → σ) (s : σ) : upto (n + 1) f s = f (upto n f s) n := by
  rw [upto, List.range_succ, List.foldl_append]
  rfl

theorem swrefStaged_same (s : State) (m i : Nat) (x : Nat → Nat) (k : Nat) : Same 64 s (swrefStaged s m i x k) := by
  induction k with
  | zero => exact Same.refl ..
  | succ k ih =>
    rw [swrefStaged, upto_succ]
    exact ih.trans (setStaged_same ..)

theorem busOpen_of_same {s t : State} (h : Same 64 s t) (ho : BusOpen s) : BusOpen t :=
  ⟨⟨(h.get_nvsLoaded rfl).trans ho.1.1, (congrArg FcolSt.safe (h.get_fcol rfl)).trans ho.1.2⟩,
    by rw [pwrState_congr fun o => rd_congr (h.get_regs rfl) o]; exact ho.2⟩

theorem upto_swref_lower {s : State} (h : BusOpen s) (m : Nat) (i : Fin 4) (x : Nat → Nat) {k : Nat} (hk : k ≤ 6) :
    upto k (fun t j => regPutM t m (rREF (12 + i) (0x100 + 4 * j)) 0xFFFF (x j)) s = swrefStaged s m i x k := by
  induction k with
  | zero => rfl
  | succ k ih =>
    rw [upto_succ, ih (by omega), regPutM_swref_lower (busOpen_of_same (swrefStaged_same ..) h) m i (by omega), swrefStaged,
      swrefStaged, upto_succ]

theorem stagedOf_swrefStaged (s : State) (m i : Nat) (x : Nat → Nat) {k j : Nat} (h : j < k) :
    stagedOf (swrefStaged s m i x k) m (rREF (12 + i) (0x100 + 4 * j)) = fullWord (x j) := by
  induction k with
  | zero => omega
  | succ k ih =>
    rw [swrefStaged, upto_succ]
    by_cases hj : j = k
    · rw [hj]
      exact stagedOf_setStaged _ _ _ (fullWord_lt _)
    · rw [stagedOf, setStaged, mget_mput_ne _ _ _ (by simp only [copyKey, rREF_swref]; omega), ← ih (by omega)]
      rfl

/-- The seven words as they reach SWREF_SAMPLE. -/
def swrefRaw (x : Nat → Nat) : Nat := joinWords ((List.range 7).map (fun j => fullWord (x j)))

/-- The staged words and the one that commits them, joined. -/
theorem stagedL_join (s : State) (m o k v : Nat) :
    stagedL s m o k + v * 2 ^ (32 * k) = joinWords ((List.range k).map (fun j => stagedOf s m (o + 4 * j)) ++ [v]) := by
  induction k generalizing o with
  | zero => simp [stagedL, joinWords]
  | succ k ih =>
    have next (j : Nat) : o + 4 * (j + 1) = o + 4 + 4 * j := by omega
    have tail := ih (o + 4)
    rw [List.range_succ_eq_map, List.map_cons, List.map_map, List.cons_append, joinWords, stagedL]
    simp only [Function.comp_def, Nat.succ_eq_add_one, next, Nat.mul_zero, Nat.add_zero]
    rw [← tail, Nat.mul_succ, pow_add]
    ring

theorem staged_swrefRaw (s : State) (m i : Nat) (x : Nat → Nat) :
    stagedL (swrefStaged s m i x 6) m (rREF (12 + i) 0x100) 6 + fullWord (x 6) * 2 ^ 192 = swrefRaw x := by
  have word (j : Nat) (hj : j ∈ List.range 6) :
      stagedOf (swrefStaged s m i x 6) m (rREF (12 + i) 0x100 + 4 * j) = fullWord (x j) := by
    rw [← stagedOf_swrefStaged s m i x (List.mem_range.1 hj), rREF_swref, rREF_high (by decide)]
    congr 1
    omega
  rw [swrefRaw, List.range_succ, List.map_append, ← List.map_congr_left word]
  exact stagedL_join ..

theorem swrefRaw_testBit (x : Nat → Nat) {j b : Nat} (hj : j < 7) (hb : b < 32) :
    (swrefRaw x).testBit (32 * j + b) = (fullWord (x j)).testBit b := by
  have small : ∀ w ∈ (List.range 7).map (fun j => fullWord (x j)), w < 2 ^ 32 := by
    simp only [List.mem_map]
    rintro w ⟨k, -, rfl⟩
    exact fullWord_lt _
  rw [swrefRaw, joinWords_testBit small hb]
  simp [List.getD_eq_getElem?_getD, hj]

theorem newVal_wm {i : RegInfo} (h : i.row.wm = true) (view old raw : Nat) :
    newVal i view old raw = clr old (wmMask i raw &&& i.row.rw) ||| (raw &&& (wmMask i raw &&& i.row.rw)) := if_pos h

/-- The masks of R39 let all data of the seven words through. -/
theorem newVal_swrefRaw (i : Fin 4) (old : Nat) (x : Nat → Nat) {j : Nat} (hj : j < 7) :
    newVal (swrefInfo i 6) 0 old (swrefRaw x) / 2 ^ (32 * j) % 65536 = x j % 65536 := by
  have data : ∀ j : Fin 7, ∀ b : Fin 16, (spread 7 (ones 112)).testBit (32 * j + b) = true ∧
    (lowHalves 7).testBit (32 * j + b) = true := by decide
  apply Nat.eq_of_testBit_eq
  intro b
  rw [show 65536 = 2 ^ 16 from rfl, Nat.testBit_mod_two_pow, Nat.testBit_mod_two_pow, Nat.testBit_div_two_pow]
  by_cases hb : b < 16
  · obtain ⟨low, mask⟩ := fullWord_testBit (x := x j) hb
    obtain ⟨taken, half⟩ := data ⟨j, hj⟩ ⟨b, hb⟩
    have written : (swrefRaw x).testBit (32 * j + b) = (x j).testBit b := by rw [swrefRaw_testBit x hj (by omega), low]
    have masked : (swrefRaw x / 65536).testBit (32 * j + b) = true := by
      rw [show 65536 = 2 ^ 16 from rfl, Nat.testBit_div_two_pow, Nat.add_assoc, swrefRaw_testBit x hj (by omega), mask]
    have enabled : (wmMask (swrefInfo i 6) (swrefRaw x) &&& (swrefInfo i 6).row.rw).testBit (32 * j + b) = true := by
      rw [wmMask, Nat.testBit_and, Nat.testBit_and, masked, Bool.true_and]
      exact Bool.and_eq_true_iff.2 ⟨half, taken⟩
    rw [Nat.add_comm b, newVal_wm rfl, Nat.testBit_or, clr_testBit, enabled, Nat.testBit_and, enabled, written]
    simp
  · rw [decide_eq_false hb, Bool.false_and, Bool.false_and]

/-- The state in which the commit acts: T_m and θ, x words of 16 bits, stand in SWREF_SAMPLE (R189). -/
def swrefShown (s : State) (m : Nat) (i : Fin 4) (x : Nat → Nat) : State := swrefStored (swrefStaged s m i x 6) i (swrefRaw x)

/-- The 16-bit pieces of T_m and θ as SWREF_SAMPLE has them (R189). -/
def swrefPiece (tm : Nat) (th : Int) (j : Nat) : Nat := bits (tm + tw 48 th * 2 ^ 64) (16 * j) 16

theorem swrefPut_eq {s : State} (h : BusOpen s) (m : Nat) (i : Fin 4) (tm : Nat) (th : Int) :
    swrefPut s m (12 + i) tm th = swrefFx (swrefShown s m i (swrefPiece tm th)) (12 + i) := by
  have put : swrefPut s m (12 + i) tm th =
      upto 7 (fun t j => regPutM t m (rREF (12 + i) (0x100 + 4 * j)) 0xFFFF (swrefPiece tm th j)) s := rfl
  rw [put, upto_succ, upto_swref_lower h m i (swrefPiece tm th) (Nat.le_refl 6),
    regPutM_swref_top (busOpen_of_same (swrefStaged_same ..) h), staged_swrefRaw, swrefShown]

theorem swrefShown_same (s : State) (m : Nat) (i : Fin 4) (x : Nat → Nat) : Same 592 s (swrefShown s m i x) :=
  Same.step rfl (noteWrite_same _ _) (Same.step rfl (wL_same _ _ _ _) ((swrefStaged_same s m i x 6).mono rfl))

theorem rd_swrefShown (s : State) (m : Nat) (i : Fin 4) (x : Nat → Nat) {k : Nat} (hk : rREF (12 + i) 0x11C ≤ k) :
    rd (swrefShown s m i x) k = rd s k := by
  rw [rREF_high (by decide)] at hk
  rw [swrefShown, swrefStored, rd_noteWrite, rd_wL (.inr (by rw [rREF_high (by decide)]; omega)),
    rd_congr ((swrefStaged_same s m i x 6).get_regs rfl)]

theorem sx_tw_48 {th : Int} (lo : -(2 ^ 47 : Int) ≤ th) (hi : th < 2 ^ 47) : sx 48 (tw 48 th) = th := by
  unfold sx tw
  split_ifs <;> omega

/-- SWREF_SAMPLE holds the value whose pieces were written. -/
theorem rn_swrefShown (s : State) (m : Nat) (i : Fin 4) (x : Nat → Nat) {j : Nat} (hj : j < 7) :
    rn (swrefShown s m i x) (rREF (12 + i) 0x100 + 4 * j) % 65536 = x j % 65536 := by
  rw [swrefShown, swrefStored, rn, rd_noteWrite, ← rn, rn_wL hj, show (2 : Nat) ^ 32 = 65536 * 65536 from rfl,
    Nat.mod_mul_left_mod, newVal_swrefRaw i _ x hj]

theorem swrefShown_shows (s : State) (m : Nat) (i : Fin 4) (tm : BitVec 64) {th : Int} (lo : -(2 ^ 47 : Int) ≤ th) (hi : th < 2 ^ 47) :
    let t := swrefShown s m i (swrefPiece tm.toNat th)
    rM t (rREF (12 + i) 0x100) 4 = tm.toNat ∧ sx 48 (rM t (rREF (12 + i) 0x110) 3) = th := by
  intro t
  have small := tm.isLt
  have low := tw_lt 48 th
  have piece (j : Nat) : swrefPiece tm.toNat th j % 65536 =
      (tm.toNat + tw 48 th * 2 ^ 64) / 65536 ^ j % 65536 := by
    rw [swrefPiece, bits, Nat.shiftRight_eq_div_pow, pow_mul, show (2 : Nat) ^ 16 = 65536 from rfl, Nat.mod_mod]
  constructor
  · rw [rM_of_pieces (v := tm.toNat + tw 48 th * 2 ^ 64) fun j hj => (rn_swrefShown s m i _ (by omega)).trans (piece j)]
    omega
  · have theta (j : Nat) (hj : j < 3) : rn t (rREF (12 + i) 0x110 + 4 * j) % 65536 = tw 48 th / 65536 ^ j % 65536 := by
      have word := (rn_swrefShown s m i (swrefPiece tm.toNat th) (j := j + 4) (by omega)).trans (piece (j + 4))
      rw [show (65536 : Nat) ^ (j + 4) = 2 ^ 64 * 65536 ^ j by ring, ← Nat.div_div_eq_div_mul,
        show (tm.toNat + tw 48 th * 2 ^ 64) / 2 ^ 64 = tw 48 th by omega] at word
      rw [← word, rREF_high (by decide), rREF_high (by decide)]
      congr 2
      omega
    rw [rM_of_pieces theta, show tw 48 th % 65536 ^ 3 = tw 48 th from Nat.mod_eq_of_lt low, sx_tw_48 lo hi]

/-! ## What the commit does -/

theorem swrefFx_takes {s : State} {i : Nat} {t e : Int} (ht : resolveDue s (rM s (rREF i 0x100) 4) = t)
    (he : sx 48 (rM s (rREF i 0x110) 3) = e) (past : t ≤ (nowT s : Int))
    (young : (nowT s : Int) - (atLeast1 (rb s (rREF i 0x11C) 0 16) : Int) * 65536000000 ≤ t)
    (later : ∀ p, (ref s i).swT = some p → p < t) :
    swrefFx s i = refSample (setRef s i { ref s i with swT := some t }) i t e := by
  unfold swrefFx
  simp only [ht, he]
  refine if_neg ?_
  rintro (h | h | h)
  · omega
  · omega
  · split at h
    next p hp => exact absurd (of_decide_eq_true h) (not_le_of_gt (later p hp))
    next => exact Bool.false_ne_true h

theorem swrefFx_counts {s : State} {i : Nat} {t : Int} (ht : resolveDue s (rM s (rREF i 0x100) 4) = t)
    (h : (nowT s : Int) < t ∨ t < (nowT s : Int) - (atLeast1 (rb s (rREF i 0x11C) 0 16) : Int) * 65536000000 ∨
      ∃ p, (ref s i).swT = some p ∧ t ≤ p) :
    swrefFx s i = bumpM s (rREF i 0x120) := by
  unfold swrefFx
  simp only [ht]
  refine if_pos (h.imp_right (Or.imp_right ?_))
  rintro ⟨p, hp, hle⟩
  rw [hp]
  exact decide_eq_true hle

/-- The state y in which SWREF_SAMPLE of reference 12 + i acts, the write having begun in s: T_m is tT and θ is th, and what they are
judged by is what it was (R189). -/
structure SwrefReady (i : Fin 4) (now : Nat) (tT th : Int) (s y : State) : Prop where
  due : resolveDue y (rM y (rREF (12 + i) 0x100) 4) = tT
  theta : sx 48 (rM y (rREF (12 + i) 0x110) 3) = th
  now : nowT y = now
  age : rb y (rREF (12 + i) 0x11C) 0 16 = rb s (rREF (12 + i) 0x11C) 0 16
  count : rM y (rREF (12 + i) 0x120) 2 = rM s (rREF (12 + i) 0x120) 2
  refs : y.refs = s.refs
  mem : y.mem = s.mem

theorem swrefShown_ready (s : State) (m : Nat) (i : Fin 4) (tm : BitVec 64) {th : Int} (lo : -(2 ^ 47 : Int) ≤ th) (hi : th < 2 ^ 47) :
    SwrefReady i (nowT s) (resolveDue s tm.toNat) th s (swrefShown s m i (swrefPiece tm.toNat th)) := by
  obtain ⟨hT, hE⟩ := swrefShown_shows s m i tm lo hi
  have same := swrefShown_same s m i (swrefPiece tm.toNat th)
  have now : nowT (swrefShown s m i (swrefPiece tm.toNat th)) = nowT s := by
    simp only [nowT, nowSub, same.get_time rfl, same.get_cyc rfl]
  have behind {o : Nat} (h : rREF (12 + i) 0x120 ≤ o) : rREF (12 + i) 0x11C ≤ o := by
    rw [rREF_high (by decide)] at *
    omega
  exact ⟨by rw [hT, resolveDue, now, resolveDue], hE, now, rb_congr (rd_swrefShown s m i _ (Nat.le_refl _)) 0 16,
    rM_congr fun o ho _ => rd_swrefShown s m i _ (behind ho), same.get_refs rfl, same.get_mem rfl⟩

theorem swrefSample_commits {s : State} (h : BusOpen s) (m : Master) (i : Fin 4) (tm : BitVec 64) {th : Int} (k : CycIx)
    (lo : -(2 ^ 47 : Int) ≤ th) (hi : th < 2 ^ 47) :
    ∃ y, exec (.swrefSample m i tm th k) s = .next (swrefFx y (12 + i)) ∧
      SwrefReady i (nowT (atCyc s k)) (resolveDue (atCyc s k) tm.toNat) th s y :=
  have ready := swrefShown_ready (atCyc s k) m i tm lo hi
  ⟨_, congrArg Host.Outcome.next (swrefPut_eq (s := atCyc s k) h m i tm.toNat th),
    ⟨ready.due, ready.theta, ready.now, ready.age, ready.count, ready.refs, ready.mem⟩⟩

/-- A software sample that R189 takes. -/
theorem swrefFx_sampled {i : Fin 4} {now : Nat} {tT th : Int} {s y : State} (r : SwrefReady i now tT th s y) (past : tT ≤ (now : Int))
    (young : (now : Int) - (atLeast1 (rb s (rREF (12 + i) 0x11C) 0 16) : Int) * 65536000000 ≤ tT)
    (later : ∀ p, (ref s (12 + i)).swT = some p → p < tT) :
    Sampled (12 + i) { ref s (12 + i) with swT := some tT } tT th s (swrefFx y (12 + i)) := by
  have refs := ref_congr r.refs
  rw [swrefFx_takes r.due r.theta (by rwa [r.now]) (by rwa [r.now, r.age]) (by rwa [refs]), refs]
  refine (refSample_sampled _ ⟨12 + i, by omega⟩ _ _).after ?_ fun j hj => ?_
  · rw [ref_setRef_same]
  · rw [ref_setRef_ne _ _ _ hj, refs]

/-- A software sample that R189 does not take. -/
theorem swrefFx_counted {i : Fin 4} {now : Nat} {tT th : Int} {s y : State} (r : SwrefReady i now tT th s y)
    (out : (now : Int) < tT ∨ tT < (now : Int) - (atLeast1 (rb s (rREF (12 + i) 0x11C) 0 16) : Int) * 65536000000 ∨
      ∃ p, (ref s (12 + i)).swT = some p ∧ tT ≤ p) :
    (swrefFx y (12 + i)).refs = s.refs ∧
      rM (swrefFx y (12 + i)) (rREF (12 + i) 0x120) 2 = min (rM s (rREF (12 + i) 0x120) 2 + 1) (2 ^ 32 - 1) := by
  rw [swrefFx_counts r.due (by rwa [r.now, r.age, ref_congr r.refs])]
  refine ⟨((bumpM_same y (rREF (12 + i) 0x120) 1).get_refs rfl).trans r.refs, ?_⟩
  rw [rM_bumpM_same fun o ho _ => faultReg_false_of_ge ?_, r.count]
  rw [rREF_high (by decide)] at ho
  omega

/-- A sample of a frequency reference that is on is taken at the present instant (R188). -/
theorem exec_refFreqSample_on {s : State} {i : RefIx} (h : refOn s i = true) (lo : 4 ≤ i.val) (hi : i.val < 8) (e : Int) :
    exec (.refFreqSample i e) s = .next (refSample s i (nowT s) e) := by
  show Host.Outcome.next (freqSample s i e) = _
  rw [freqSample_on h lo hi]

/-- Settles O26: each sample that is taken is `Sampled`; what is not taken ends before it or counts. -/
theorem referenceEventsAndSamplesAreMeasured : Obligations.ReferenceEventsAndSamplesAreMeasured := by
  refine ⟨⟨fun i tE v w s on hi => ?_, fun i e s on lo hi => ?_, fun i tE e l w s off => refOff_ignores off tE e l w⟩,
    fun m i tm th k s h lo hi => ?_⟩
  · have taken := timeEdge_sampled on hi tE v w
    obtain ⟨seen, lastT, lastE, label, -, -⟩ := taken.fields
    exact ⟨timeEdge s i tE (some v) w, rfl, seen, lastT, lastE, label, taken.shows, taken.los, taken.others,
      memKept_of_mem ((timeEdge_same ..).get_mem rfl)⟩
  · have taken := refSample_sampled s i (nowT s) e
    obtain ⟨seen, lastT, lastE, -, -, -⟩ := taken.fields
    exact ⟨_, exec_refFreqSample_on on lo hi e, seen, lastT, lastE, taken.shows, taken.los, taken.others,
      memKept_of_mem ((refSample_same ..).get_mem rfl)⟩
  · obtain ⟨y, run, ready⟩ := swrefSample_commits h m i tm k lo hi
    have kept := memKept_of_mem (((swrefFx_same y (12 + i)).get_mem rfl).trans ready.mem)
    refine ⟨fun past young later => ?_, fun out => ?_⟩
    · obtain ⟨seen, lastT, lastE, -, -, swT⟩ := (swrefFx_sampled ready past young later).fields
      exact ⟨_, run, swT, lastT, lastE, seen, kept⟩
    · obtain ⟨refs, count⟩ := swrefFx_counted ready out
      exact ⟨_, run, refs, count, kept⟩

end Sys2Proof.Machine
end

section
/-!
PROOFS. O27: the labels of ToD messages and IRIG-B frames.
-/
namespace Sys2Proof.Machine
open Sys2Proof

/-! ## The label of a ToD message -/

theorem refOn_congr {s t : State} {i : Nat} (ha : t.coreAwake = s.coreAwake) (hr : t.refs = s.refs)
    (h0 : rd t (rREF i 0) = rd s (rREF i 0)) : refOn t i = refOn s i := by
  rw [refOn, ha, rbit_congr h0, ref_congr hr, refOn]

/-- With TODLBL = 1 the label is kept for the edge to come (R187). -/
theorem todLabel_next {s : State} {i : Nat} (h : refOn s i = true) (hm : rbit s (rREF i 0) 6 = true) (v : Nat) :
    todLabel s i v = setRef s i { ref s i with next := some v } := by
  rw [todLabel, if_neg (not_not_intro h), if_pos hm]

/-- With TODLBL = 0 the label is that of the edge 10 ms to 900 ms before it (R187). -/
theorem todLabel_edge {s : State} {i : Nat} (h : refOn s i = true) (hm : rbit s (rREF i 0) 6 = false) {t : Int}
    (he : (ref s i).edge = some t) (lo : 10000000 * 65536 ≤ (nowT s : Int) - t) (hi : (nowT s : Int) - t ≤ 900000000 * 65536)
    (v : Nat) : todLabel s i v = refLabel s i t v := by
  rw [todLabel, if_neg (not_not_intro h), if_neg (by simp [hm])]
  simp only [he]
  exact if_pos ⟨lo, hi⟩

/-! ## What a message of the form in use does -/

theorem exec_zda_label {s : State} {i : Fin 4} {l : List Byte} {v : Nat} (hf : rbit s (rREF i 0) 7 = false) (hz : isZda l = true)
    (hl : zdaLabel s l = some v) : exec (.zdaSentence i l) s = .next (todLabel s i v) := by
  show Host.Outcome.next (zdaIn s i l) = _
  rw [zdaIn, if_neg (by simp [hf, hz])]
  simp only [hl]

theorem exec_zda_bad {s : State} {i : Fin 4} {l : List Byte} (hf : rbit s (rREF i 0) 7 = false) (hz : isZda l = true)
    (hl : zdaLabel s l = none) : exec (.zdaSentence i l) s = .next (bump s (0x250 + 4 * i)) := by
  show Host.Outcome.next (zdaIn s i l) = _
  rw [zdaIn, if_neg (by simp [hf, hz])]
  simp only [hl]

theorem exec_tod_bad {s : State} {i : Fin 4} {l : List Byte} (hf : rbit s (rREF i 0) 7 = true) (hs : l.take 2 = [0xC3, 0x3C])
    (hl : todFrame l = none) : exec (.binaryTodFrame i l) s = .next (bump s (0x250 + 4 * i)) := by
  show Host.Outcome.next (binaryIn s i l) = _
  rw [binaryIn, if_neg (by simp [hf, hs])]
  simp only [hl]

/-- FP_STATUS notes a frame whose UTC offset is not TIME_UTC_OFF (R530). -/
def offsetNoted (s : State) (i fl : Nat) (off : Int) : State :=
  if fl.testBit 1 ∧ off ≠ utcOff s then orBits s 0x260 (2 ^ (8 + i)) else s

theorem exec_tod_label {s : State} {i : Fin 4} {l : List Byte} {tai fl : Nat} {off : Int} (hf : rbit s (rREF i 0) 7 = true)
    (hs : l.take 2 = [0xC3, 0x3C]) (hl : todFrame l = some (tai, off, fl)) (hv : fl.testBit 0 = true) (hli : bits fl 4 4 ≠ 15) :
    exec (.binaryTodFrame i l) s = .next (todLabel (offsetNoted s i fl off) i tai) := by
  show Host.Outcome.next (binaryIn s i l) = _
  rw [binaryIn, if_neg (by simp [hf, hs])]
  simp only [hl]
  rw [if_pos ⟨hv, hli⟩, offsetNoted]

theorem offsetNoted_keeps (s : State) (i fl : Nat) (off : Int) :
    Same 16 s (offsetNoted s i fl off) ∧ ∀ j, rd (offsetNoted s i fl off) (rREF j 0) = rd s (rREF j 0) := by
  unfold offsetNoted
  split
  · exact ⟨orBits_same .., fun j => rd_orBits_ne _ _ (by unfold rREF; split <;> omega)⟩
  · exact ⟨Same.refl .., fun _ => rfl⟩

/-- A bad message counts in FP_TOD_ERR_CNT (R530). -/
theorem badTod_counts (s : State) (i : Fin 4) :
    rn (bump s (0x250 + 4 * i)) (0x250 + 4 * i) = min (rn s (0x250 + 4 * i) + 1) (2 ^ 32 - 1) ∧
      (bump s (0x250 + 4 * i)).refs = s.refs ∧ MemKept s (bump s (0x250 + 4 * i)) := by
  have same := bump_same s (0x250 + 4 * i) 1
  refine ⟨rn_bump_same ?_, same.get_refs rfl, memKept_of_mem (same.get_mem rfl)⟩
  simp only [faultReg, decide_eq_false_iff_not]
  omega

/-- An IRIG-B frame of an input without the control functions of C37.118.1, before its marker (R187, R529). -/
theorem exec_irig_next {s : State} {k : Fin 2} (hon : refOn s (8 + k) = true) (hc : rbit s (0x230 + 4 * k) 1 = false)
    (he : (ref s (8 + k)).edge = none) (f : IrigFrame) :
    exec (.irigInFrame k f) s = .next (setRef s (8 + k)
      { ref s (8 + k) with next := some (taiOf s (irigUtc f) (decide (f.second = 60))).toNat }) := by
  show Host.Outcome.next (irigIn s k f) = _
  rw [irigIn]
  simp [hon, hc, he]

/-- Settles O27: a label goes to the edge that came or is kept for the one to come; a bad message counts. -/
theorem timeCodesLabelTheEdge : Obligations.TimeCodesLabelTheEdge := by
  refine ⟨fun i l v s hf hz hl hon => ⟨fun hm => ?_, fun t0 hm he lo hi => ?_⟩, fun i l s hf hz hl => ⟨_, exec_zda_bad hf hz hl,
    badTod_counts s i⟩, fun i l tai off fl s hf hs hl hv hli hon hm => ?_, fun i l s hf hs hl => ⟨_, exec_tod_bad hf hs hl,
    badTod_counts s i⟩, fun k f s hon hc he => ⟨_, exec_irig_next hon hc he f, ref_setRef_same .., rfl⟩⟩
  · exact ⟨_, by rw [exec_zda_label hf hz hl, todLabel_next hon hm], ref_setRef_same .., rfl⟩
  · have taken := refLabel_sampled s ⟨i, by omega⟩ t0 v
    obtain ⟨-, lastT, -, label, edge, -⟩ := taken.fields
    exact ⟨_, by rw [exec_zda_label hf hz hl, todLabel_edge hon hm he lo hi], label, lastT, edge,
      memKept_of_mem ((refLabel_same ..).get_mem rfl)⟩
  · obtain ⟨same, mode⟩ := offsetNoted_keeps s i fl off
    have on : refOn (offsetNoted s i fl off) i = true :=
      (refOn_congr (same.get_coreAwake rfl) (same.get_refs rfl) (mode i)).trans hon
    have next : rbit (offsetNoted s i fl off) (rREF i 0) 6 = true := (rbit_congr (mode i) 6).trans hm
    refine ⟨_, by rw [exec_tod_label hf hs hl hv hli, todLabel_next on next], ?_, ?_⟩
    · rw [ref_setRef_same, ref_congr (same.get_refs rfl)]
    · unfold offsetNoted
      split <;> rfl

end Sys2Proof.Machine
end

section
/-!
PROOFS. O29: the intervals of Screed, its seconds of holdover, and CLEAR.
-/
namespace Sys2Proof.Machine
open Sys2Proof

/-! ## Intervals -/

theorem scrFit_scr (s : State) (l : List (Int × Int × Int × Nat)) : (scrFit s l).1.scr = s.scr := (scrFit_same s l).get_scr rfl

/-- A fit that is stored changes neither the interval nor what holdover has summed. -/
theorem scrStore_interval (s : State) (cs : List Rat) (l : List (Int × Int × Int × Nat)) (tref : Int) :
    (scrStore s cs l tref).scr.from_ = s.scr.from_ ∧ (scrStore s cs l tref).scr.good = s.scr.good := by
  have words (x : State) (o v : Nat) : (wL x o 2 v).scr = x.scr := (wL_same x o 2 v).get_scr rfl
  simp only [scrStore, words, and_self]

/-- Of Screed's state a sample changes the samples and the fit, not the interval. -/
theorem scrTake_interval (s : State) (p : Int × Int × Int × Nat) :
    (scrTake s p).scr.from_ = s.scr.from_ ∧ (scrTake s p).scr.good = s.scr.good := by
  have shown (x : State) : (scrShow x).scr = x.scr := (scrShow_same x).get_scr rfl
  have counted (x : State) (o : Nat) : (bump x o).scr = x.scr := (bump_same x o 1).get_scr rfl
  unfold scrTake
  dsimp only
  split
  · rw [shown]
    simp only [scrFit_scr, and_self]
  · split
    · rw [counted]
      exact ⟨congrArg Scr.from_ (scrFit_scr ..), congrArg Scr.good (scrFit_scr ..)⟩
    · rw [shown, (scrStore_interval ..).1, (scrStore_interval ..).2, scrFit_scr]
      exact ⟨rfl, rfl⟩

/-- What a new interval starts with (R207). -/
def scrNext (s : State) : State := { s with scr := { s.scr with from_ := nowT s, good := rbit s (rSCR 0) 0 } }

/-- An interval that was not good, or that ends with LEARN = 0, gives no sample (R207). -/
theorem scrInterval_noSample {s : State} (ha : s.coreAwake = true) (h : s.scr.good = false ∨ rbit s (rSCR 0) 0 = false) (th : Int) :
    scrInterval s th = scrNext s := by
  rw [scrInterval, if_neg (not_not_intro ha)]
  dsimp only
  split
  next q hq => rcases h with h | h <;> simp [h] at hq
  next => rfl

theorem scrInterval_starts {s : State} (ha : s.coreAwake = true) (th : Int) :
    (scrInterval s th).scr.from_ = nowT s ∧ (scrInterval s th).scr.good = rbit s (rSCR 0) 0 := by
  rw [scrInterval, if_neg (not_not_intro ha)]
  dsimp only
  split
  · exact scrTake_interval ..
  · exact ⟨rfl, rfl⟩

/-- While the core domain sleeps Screed does nothing (log entry 168). -/
theorem screed_asleep {s : State} (h : s.coreAwake = false) (th : Int) :
    exec (.screedSample th) s = .next s ∧ exec (.screedTeUpdate th) s = .next s :=
  ⟨congrArg Host.Outcome.next (if_pos (by simp [h])), congrArg Host.Outcome.next (if_neg (by simp [h]))⟩

/-! ## Seconds -/

/-- What Screed takes of a temperature: SCR_TEMP shows it (R209, R217). -/
def scrTempTaken (s : State) (th : Int) : State :=
  wr { s with scr := { s.scr with temps := ((nowT s : Int), sx 16 (tw 16 th)) :: s.scr.temps } } (rSCR 0x30) (tw 16 th)

/-- R210's integral after a second at θ. -/
def scrArea (s : State) (th : Int) : Rat := s.scr.area + ((th - sx 16 (rn s (rSCR 0x34) % 65536)).natAbs : Rat) / 256

/-- The temperature of a second of holdover counts (R210). -/
def scrSummed (s : State) (th : Int) : State :=
  let x := scrTempTaken s th
  { x with scr := { x.scr with area := scrArea x th } }

/-- E(t) after dt seconds of holdover shows, cut to its register (R210). -/
def scrEstShown (s : State) (th : Int) (dt : Rat) : State :=
  wr (scrSummed s th) (rSCR 0x40) (min (rfloor (scrEst (scrSummed s th) dt)).toNat (ones 32))

theorem exec_screedTeUpdate {s : State} (ha : s.coreAwake = true) (th : Int) :
    exec (.screedTeUpdate th) s = .next (scrSecond s th) := congrArg Host.Outcome.next (if_pos ha)

theorem scrSecond_tempOnly {s : State} (h : s.scr.entry = none) (th : Int) : scrSecond s th = scrTempTaken s th := by
  unfold scrSecond
  dsimp only
  split
  next => rfl
  next t0 ht => cases h.symm.trans ht

/-- The limit of E(t) has been reported (R210). -/
def scrLimited (s : State) : State := raise { s with scr := { s.scr with limRaised := true } } (srcDp 0) kHoldoverLimit (rDP 0 4)

/-- In holdover, besides what shows, the limit is reported once (R210). -/
theorem scrSecond_holdover {s : State} {t0 : Int} (h : s.scr.entry = some t0) (th : Int) :
    let y := scrEstShown s th ((((nowT s : Int) - t0 : Int) : Rat) / (secTicks : Rat))
    scrSecond s th = y ∨ scrSecond s th = scrLimited y := by
  unfold scrSecond
  dsimp only
  split
  next hn => cases h.symm.trans hn
  next t1 ht =>
    obtain rfl : t0 = t1 := Option.some.inj (h.symm.trans ht)
    split
    · exact .inr rfl
    · exact .inl rfl

theorem area_scrLimited (s : State) : (scrLimited s).scr.area = s.scr.area := by
  rw [scrLimited, (raise_same ..).get_scr rfl]

/-- The report of the limit leaves what a second of holdover shows and has summed. -/
theorem scrSecond_shows {s : State} {t0 : Int} (h : s.scr.entry = some t0) (th : Int) :
    let y := scrEstShown s th ((((nowT s : Int) - t0 : Int) : Rat) / (secTicks : Rat))
    (scrSecond s th).scr.area = y.scr.area ∧ ∀ o, faultReg o = false → rd (scrSecond s th) o = rd y o := by
  intro y
  rcases scrSecond_holdover h th with e | e <;> rw [e]
  · exact ⟨rfl, fun _ _ => rfl⟩
  · exact ⟨area_scrLimited y, fun o ho => rd_raise (by decide) ho⟩

theorem rn_scrTempTaken (s : State) (th : Int) : rn (scrTempTaken s th) (rSCR 0x30) = tw 16 th := by
  rw [scrTempTaken, rn_wr_same]
  exact Nat.mod_eq_of_lt (lt_trans (tw_lt 16 th) (by decide))

theorem rd_scrTempTaken (s : State) (th : Int) {o : Nat} (h : o ≠ rSCR 0x30) : rd (scrTempTaken s th) o = rd s o := rd_wr_ne _ _ h

theorem area_scrSummed (s : State) (th : Int) : (scrSummed s th).scr.area = scrArea s th := by
  show scrArea (scrTempTaken s th) th = _
  rw [scrArea, rn, rd_scrTempTaken s th (by decide), ← rn]
  rfl

theorem rn_scrEstShown (s : State) (th : Int) (dt : Rat) :
    rn (scrEstShown s th dt) (rSCR 0x40) = min (rfloor (scrEst (scrSummed s th) dt)).toNat (2 ^ 32 - 1) := by
  rw [scrEstShown, rn_wr_same]
  exact Nat.mod_eq_of_lt (by unfold ones; omega)

theorem rd_scrEstShown (s : State) (th : Int) (dt : Rat) {o : Nat} (h : o ≠ rSCR 0x40) :
    rd (scrEstShown s th dt) o = rd (scrTempTaken s th) o := rd_wr_ne _ _ h

theorem faultReg_rSCR (o : Nat) : faultReg (rSCR o) = false := faultReg_false_of_ge (by unfold rSCR; omega)

/-! ## CLEAR -/

/-- What the map says of SCR_CTRL (R217). -/
def scrCtrlInfo : RegInfo := ⟨.screed, 0, { off := 0x00, rw := 0xFF07, sc := 0x8, slm := 0xFF07, nv := 0xFF07, reset := 0x3C07 },
  0, 0, rSCR 0⟩

theorem regInfo_scrCtrl : regInfo (rSCR 0) = some scrCtrlInfo := by decide +kernel

/-- The write of SCR_CTRL in any view: the seal notes it, and its bits act (R41, R59). -/
theorem regPut_scrCtrl {s : State} (h : BusOpen s) (m v : Nat) (hv : v < 2 ^ 32) :
    regPut s m (0x1000000 + rSCR 0) v = applyVal (passVoidMark (forwardTaken s m (0x1000000 + rSCR 0) (rSCR 0) v scrCtrlInfo 1 v)
      (some (rSCR 0, m))) scrCtrlInfo 1 v m (some (rSCR 0, m)) := by
  have off : (0x1000000 + rSCR 0) % 2 ^ 24 = rSCR 0 := by decide
  have sealed : scrCtrlInfo.row.slm ≠ 0 := by decide
  rw [regPut, busWrite_open h.1.1 h.1.2 (coreTouch_awake h.2) (by decide) (by decide) (by rw [off]; exact regInfo_inMsix regInfo_scrCtrl)
    hv, regWrite_view off (view := 1) (by decide) regInfo_scrCtrl rfl rfl rfl (by decide) rfl Blk.noConfusion,
    busAccept_free rfl (by rw [show heldBits _ scrCtrlInfo = 0 from rfl, Nat.zero_and]) rfl, if_pos sealed]

/-- Without LEARN the interval is not good (R207). -/
def scrLearns (s : State) (new : Nat) : State := if new.testBit 0 then s else { s with scr := { s.scr with good := false } }

theorem scrLearns_mem (s : State) (new : Nat) : (scrLearns s new).mem = s.mem := by
  unfold scrLearns
  split <;> rfl

/-- A write of SCR_CTRL that sets CLEAR ends in R211's clear. -/
theorem regFx_scrClear (s : State) (old new m : Nat) (cz : Cause) :
    regFx s scrCtrlInfo old new 8 m cz = scrClear (scrLearns s new) := by
  have run : regFx s scrCtrlInfo old new 8 m cz =
      if Nat.testBit 8 3 then scrClear (scrLearns s new) else scrLearns s new := rfl
  rw [run, if_pos (by decide)]

theorem screedClear_runs {s : State} (h : BusOpen s) (m : Master) :
    ∃ x, exec (.screedClear m) s = .next (scrClear x) ∧ x.mem = s.mem := by
  have run := regPut_scrCtrl h m 8 (by decide)
  have hit : hitVal scrCtrlInfo 8 = 8 := by decide
  rw [applyVal_one rfl rfl rfl, hit, regFx_scrClear] at run
  refine ⟨_, congrArg Host.Outcome.next run, ?_⟩
  exact (scrLearns_mem ..).trans (((noteWrite_same _ _).get_mem rfl).trans
    (((passVoidMark_same _ _).get_mem rfl).trans ((forwardTaken_same s m _ _ _ _ _ _).get_mem rfl)))

theorem rn_wL_zero (s : State) (o k : Nat) : rn (wL s o 2 0) k = if k = o ∨ k = o + 4 then 0 else rn s k := by
  split
  next h =>
    rcases h with rfl | rfl
    · exact (rn_wL (j := 0) (by decide)).trans (by simp)
    · exact (rn_wL (j := 1) (by decide)).trans (by simp)
  next h =>
    rw [wL, wL, wL, rn_wr_ne _ _ (fun e => h (.inr e)), rn_wr_ne _ _ (fun e => h (.inl e))]

/-- SCR_C0 to SCR_C3 set to 0 (R211). -/
def scrCoefZero (s : State) : State := wL (wL (wL (wL s (rSCR 0x10) 2 0) (rSCR 0x18) 2 0) (rSCR 0x20) 2 0) (rSCR 0x28) 2 0

theorem rL_scrCoefZero (s : State) : ∀ c ∈ [0x10, 0x18, 0x20, 0x28], rL (scrCoefZero s) (rSCR c) 2 = 0 := by
  simp [scrCoefZero, rL, rn_wL_zero, rSCR]

theorem rd_scrShow (s : State) {o : Nat} (h4 : o ≠ rSCR 4) (h8 : o ≠ rSCR 8) (hC : o ≠ rSCR 0xC) : rd (scrShow s) o = rd s o := by
  rw [scrShow, rd_wb_ne _ _ _ _ h4, rd_wr_ne _ _ hC, rd_wr_ne _ _ h8]

theorem rn_scrShow_count (s : State) (h : s.scr.samples = []) : rn (scrShow s) (rSCR 8) = 0 := by
  rw [scrShow, rn_wb_ne _ _ _ _ (by decide), rn_wr_ne _ _ (by decide), rn_wr_same, h]
  rfl

/-- CLEAR forgets the samples and sets the coefficients to 0 (R211). -/
theorem scrClear_clears (s : State) :
    (scrClear s).scr.samples = [] ∧ (scrClear s).scr.tref = 0 ∧ (∀ c ∈ [0x10, 0x18, 0x20, 0x28], rL (scrClear s) (rSCR c) 2 = 0) ∧
      rn (scrClear s) (rSCR 8) = 0 ∧ (scrClear s).mem = s.mem := by
  have scr : (scrClear s).scr = { (scrCoefZero s).scr with samples := [], tref := 0, sig := none } := (scrShow_same _).get_scr rfl
  refine ⟨by rw [scr], by rw [scr], fun c hc => ?_, rn_scrShow_count _ rfl, ?_⟩
  · have shown {k : Nat} (hk : rSCR 0x10 ≤ k) : rd (scrClear s) k = rd (scrCoefZero s) k := by
      unfold rSCR at hk
      exact rd_scrShow _ (by unfold rSCR; omega) (by unfold rSCR; omega) (by unfold rSCR; omega)
    have above : rSCR 0x10 ≤ rSCR c := by
      fin_cases hc <;> decide
    rw [← rL_scrCoefZero s c hc]
    simp only [rL, rn, shown above, shown (above.trans (Nat.le_add_right _ 4))]
  · exact (scrClear_same s).get_mem rfl

/-- Settles O29: Screed's interval, its second and its clear, each with what it leaves. -/
theorem screedKeepsItsIntervals : Obligations.ScreedKeepsItsIntervals := by
  refine ⟨fun th s h => screed_asleep h th, fun th s ha => ?_, fun th s ha h => ?_, fun th t0 s ha h => ?_, fun m s h => ?_⟩
  · obtain ⟨starts, learns⟩ := scrInterval_starts ha th
    exact ⟨scrInterval s th, rfl, starts, learns, memKept_of_mem ((scrInterval_same ..).get_mem rfl),
      fun none => scrInterval_noSample ha none th⟩
  · exact ⟨_, by rw [exec_screedTeUpdate ha, scrSecond_tempOnly h], rn_scrTempTaken s th, fun o ho => rd_scrTempTaken s th ho, rfl⟩
  · intro dt
    obtain ⟨area, regs⟩ := scrSecond_shows h th
    have summed : (scrSecond s th).scr.area = scrArea s th := area.trans (area_scrSummed s th)
    refine ⟨_, exec_screedTeUpdate ha th, ?_, summed, ?_, fun o hf ho => ?_, memKept_of_mem ((scrSecond_same ..).get_mem rfl)⟩
    · rw [rn, regs _ (faultReg_rSCR _), rd_scrEstShown _ _ _ (by decide), ← rn, rn_scrTempTaken]
    · rw [rn, regs _ (faultReg_rSCR _), ← rn, rn_scrEstShown, summed, ← area_scrSummed s th]
      rfl
    · simp only [List.mem_cons, List.not_mem_nil, or_false, not_or] at ho
      rw [regs o hf, rd_scrEstShown _ _ _ ho.2, rd_scrTempTaken _ _ ho.1]
  · obtain ⟨x, run, mem⟩ := screedClear_runs h m
    obtain ⟨samples, tref, coefs, count, kept⟩ := scrClear_clears x
    exact ⟨_, run, samples, tref, coefs _ (by decide), coefs _ (by decide), coefs _ (by decide), coefs _ (by decide), count,
      memKept_of_mem (kept.trans mem)⟩

end Sys2Proof.Machine
end

section
/-!
PROOFS. What closes a slot of a lane, the slots that what follows an EVENT leaves (R222, R225, R229), the turns of a lane's ports.
-/
namespace Sys2Proof.Machine
open Sys2Proof

theorem lane_congr {s t : State} (h : t.lanes = s.lanes) (l : Nat) : lane t l = lane s l := by rw [lane, h, lane]

theorem port_congr {s t : State} (h : t.ports = s.ports) (p : Nat) : port t p = port s p := by rw [port, h, port]

theorem lane_of_same {M : Nat} {s t : State} (h : Same M s t) (e : M.testBit 20 = false) (l : Nat) : lane t l = lane s l :=
  lane_congr (h.get_lanes e) l

theorem faultReg_rEL (l o : Nat) : faultReg (rEL l o) = false := faultReg_false_of_ge (by unfold rEL; omega)

theorem faultReg_rCL (l o : Nat) : faultReg (rCL l o) = false := faultReg_false_of_ge (by unfold rCL; omega)

theorem faultReg_rPORT (p o : Nat) : faultReg (rPORT p o) = false := faultReg_false_of_ge (by unfold rPORT; omega)

theorem rPORT_ne (p : Nat) {a b : Nat} (h : a ≠ b) : rPORT p a ≠ rPORT p b := fun e => h (Nat.add_left_cancel e)

theorem rPORT_inj {p q a b : Nat} (ha : a < 0x100) (hb : b < 0x100) (h : rPORT p a = rPORT q b) : p = q ∧ a = b := by
  unfold rPORT at h
  omega

/-! ## The EVENT that waits for its TAP -/

theorem find_open_none {s : State} {l : Nat} (h : ∀ y ∈ (lane s l).slots, y.open_ = false) :
    (lane s l).slots.find? (·.open_) = none := List.find?_eq_none.2 fun y hy => by simp [h y hy]

/-- With no EVENT waiting, what another message ends is the TAP of a discarded EVENT alone (R225). -/
theorem closePend_closed {s : State} {l : Nat} (h : ∀ y ∈ (lane s l).slots, y.open_ = false) :
    closePend s l = if (lane s l).dropTap then setLane s l { lane s l with dropTap := false } else s := by
  have none := find_open_none h
  unfold closePend
  split <;> simp [none]

theorem closePend_idle {s : State} {l : Nat} (h : ∀ y ∈ (lane s l).slots, y.open_ = false) (hd : (lane s l).dropTap = false) :
    closePend s l = s := by
  rw [closePend_closed h, hd, if_neg Bool.false_ne_true]

theorem closePend_closed_same {s : State} {l : Nat} (h : ∀ y ∈ (lane s l).slots, y.open_ = false) :
    Same 1048576 s (closePend s l) := by
  rw [closePend_closed h]
  split
  · exact setLane_same ..
  · exact Same.refl ..

theorem lane_closePend_closed {s : State} {l : Nat} (h : ∀ y ∈ (lane s l).slots, y.open_ = false) :
    lane (closePend s l) l = { lane s l with dropTap := false } := by
  rw [closePend_closed h]
  split
  · exact lane_setLane_same ..
  next hd => rw [← Bool.eq_false_iff.2 hd]

/-! ## The slots -/

theorem slots_setCorr (s : State) (l k : Nat) (c : Corr) (j : Nat) : (lane (setCorr s l k c) j).slots = (lane s j).slots := by
  by_cases h : j = l
  · rw [h, setCorr, lane_setLane_same]
  · rw [setCorr, lane_setLane_ne _ _ _ h]

theorem slots_pairIng (s : State) (i : Ing) (e : EventMsg) (p j : Nat) : (lane (pairIng s i e p) j).slots = (lane s j).slots := by
  rw [lane_of_same (pairIng_same s i e p) rfl]

theorem slots_pairWaiting (s : State) (i : Ing) (j : Nat) : (lane (pairWaiting s i) j).slots = (lane s j).slots := by
  refine foldl_kept (g := fun x => (lane x j).slots) (fun x q => ?_) _ s
  dsimp only
  split
  · rw [slots_pairIng, slots_setCorr]
  · rfl

theorem slots_holdIng (s : State) (i : Ing) (j : Nat) : (lane (holdIng s i) j).slots = (lane s j).slots := by
  unfold holdIng
  extract_lets res gen c0 s1 s2 mine young i' s3
  have kept : (lane s3 j).slots = (lane s j).slots := by
    show (lane s1 j).slots = _
    unfold s1
    split <;> rfl
  split
  · exact (slots_pairWaiting ..).trans kept
  · split
    · exact (slots_pairWaiting ..).trans kept
    · split
      · exact (foldl_kept (g := fun x => (lane x j).slots) (fun x q => slots_setCorr ..) _ _).trans kept
      · exact kept

/-- The open slot of a lane is replaced. -/
def slotPut (s : State) (l : Nat) (y : ESlot) : State :=
  setLane s l { lane s l with slots := (lane s l).slots.map (fun w => if w.open_ then y else w) }

theorem slots_slotPut (s : State) (l : Nat) (y : ESlot) :
    (lane (slotPut s l y) l).slots = (lane s l).slots.map (fun w => if w.open_ then y else w) := by
  rw [slotPut, lane_setLane_same]

/-- The parse of a tap is counted (R263, R264). -/
def parseCounted (s : State) (q : Option Parsed) : State :=
  match q with
  | some q =>
    let s := if q.depth then bump s 0x600028 else s
    if q.lenconf then bump s 0x60002C else s
  | none => s

theorem parseCounted_same (s : State) (q : Option Parsed) : Same 8208 s (parseCounted s q) := by
  have count (x : State) (b : Bool) (o : Nat) : Same 8208 x (if b then bump x o else x) := by
    split
    · exact bump_same ..
    · exact Same.refl ..
  cases q with
  | none => exact Same.refl ..
  | some q => exact (count s q.depth 0x600028).trans (count _ q.lenconf 0x60002C)

/-- The verdict on a slot's tap (R266). -/
def slotVerdict (s : State) (q : Option Parsed) (act : Nat) : Nat :=
  match q with
  | some q => tapVerdict s q (act.testBit 11)
  | none => 5

/-- The ingress entry of a whole receive EVENT (R249, R255). -/
def ingressHeld (s : State) (l : Nat) (x : ESlot) (q : Option Parsed) (act : Nat) : State :=
  let e := x.ev
  let p := 8 * l + e.pil.val
  let verdict := slotVerdict s q act
  if e.recirc then s
  else
    let s := match ingOf s e.tag.toNat e.gen with
      | some old => raise (retire s old 3) (srcEl l) kTagReuse p
      | none => s
    let sync := match q with
      | some q => decide (q.msgW % 16 = 0)
      | none => false
    holdIng s
      { tag := e.tag.toNat, tgen := e.gen, port := p, cls := e.cls.val, gen := x.gen, stamp := x.stamp
        verdict := if e.cls = 0 then verdict else 0, sync := sync, reserve := false
        sfd := x.stamp.t.getD (x.arrival : Int)
        action := act, ring := ringOf s (bits act 5 4) (flowHash s q), cap := none, egress := 0, applied := 0
        caps := [] }

/-- A correction joins those of a lane. -/
def corrAdd (s : State) (l : Nat) (c : Corr) : State := setLane s l { lane s l with corrs := (lane s l).corrs ++ [c] }

theorem slots_corrAdd (s : State) (l : Nat) (c : Corr) : (lane (corrAdd s l c) l).slots = (lane s l).slots := by
  rw [corrAdd, lane_setLane_same]

/-- A whole transmit EVENT's correction, if it is to have one, joins those of the lane (R250, R251). -/
def egressCorr (s : State) (l : Nat) (c : Corr) (held : Option Ing) (q : Option Parsed) (verdict : Nat) : State :=
  if c.ev.cls = 0 then
    match held with
    | some _ => corrAdd s l c
    | none => match goneWhy s c.ev.tag.toNat c.ev.gen with
      | some w => corrAdd s l { c with why := w }
      | none => if rb s 0x508000 0 16 = 0 then corrAdd s l { c with why := 1 } else corrAdd s l { c with wait := true }
  else if c.ev.cls = 1 then
    corrAdd s l { c with
      verdict := verdict
      origin := match q with
        | some q => (q.origin : Int) * 65536
        | none => 0 }
  else s

/-- A whole transmit EVENT pairs with the entry held for it (R251, R254). -/
def egressPaired (s : State) (l : Nat) (x : ESlot) (q : Option Parsed) (act : Nat) : State :=
  let held := ingOf s x.ev.tag.toNat x.ev.gen
  let s := egressCorr s l ⟨x.ev, x.arrival, x.stamp, false, held, 0, 0, 0⟩ held q (slotVerdict s q act)
  match held with
  | some i => pairIng s i x.ev (8 * l + x.ev.pil.val)
  | none => s

/-- What a whole EVENT comes to (R245, R248 to R251, R258, R272). -/
theorem finishSlot_eq (s : State) (l : Nat) (x : ESlot) :
    finishSlot s l x =
      let q := slotParse x.ev x.tap
      let s := parseCounted s q
      if s.fcol.safe then slotPut s l { x with open_ := false, waits := !x.ev.cal }
      else if x.ev.cal then
        calEvent (slotPut s l { x with open_ := false, waits := false }) (8 * l + x.ev.pil.val) x.ev x.raw
      else
        let s := slotPut s l { x with open_ := false, waits := true }
        let act := ecamAction s (ecamFind s (keyWords x.ev (8 * l + x.ev.pil.val) q) x.gen)
        if ¬ x.ev.tx then ingressHeld s l x q act else egressPaired s l x q act := rfl

theorem slots_ingressHeld (s : State) (l : Nat) (x : ESlot) (q : Option Parsed) (act : Nat) :
    (lane (ingressHeld s l x q act) l).slots = (lane s l).slots := by
  unfold ingressHeld
  extract_lets e p verdict s1 sync
  have kept : lane s1 l = lane s l := by
    unfold s1
    split
    · rw [lane_of_same (raise_same ..) rfl, lane_of_same (retire_same ..) rfl]
    · rfl
  split
  · rfl
  · rw [slots_holdIng, kept]

theorem slots_egressCorr (s : State) (l : Nat) (c : Corr) (held : Option Ing) (q : Option Parsed) (verdict : Nat) :
    (lane (egressCorr s l c held q verdict) l).slots = (lane s l).slots := by
  unfold egressCorr
  split
  · split
    · exact slots_corrAdd ..
    · split
      · exact slots_corrAdd ..
      · split <;> exact slots_corrAdd ..
  · split
    · exact slots_corrAdd ..
    · rfl

theorem slots_egressPaired (s : State) (l : Nat) (x : ESlot) (q : Option Parsed) (act : Nat) :
    (lane (egressPaired s l x q act) l).slots = (lane s l).slots := by
  unfold egressPaired
  dsimp only
  split
  · rw [slots_pairIng, slots_egressCorr]
  · exact slots_egressCorr ..

/-- A whole EVENT closes the lane's open slot and leaves the others. -/
theorem slots_finishSlot (s : State) (l : Nat) (x : ESlot) : ∃ y, y.open_ = false ∧
    (lane (finishSlot s l x) l).slots = (lane s l).slots.map (fun w => if w.open_ then y else w) := by
  have counted := lane_of_same (parseCounted_same s (slotParse x.ev x.tap)) rfl l
  have put (y : ESlot) : (lane (slotPut (parseCounted s (slotParse x.ev x.tap)) l y) l).slots =
      (lane s l).slots.map (fun w => if w.open_ then y else w) := by rw [slots_slotPut, counted]
  rw [finishSlot_eq]
  dsimp only
  split
  · exact ⟨_, rfl, put _⟩
  · split
    · exact ⟨_, rfl, by rw [lane_of_same (calEvent_same ..) rfl, put]⟩
    · split
      · exact ⟨_, rfl, by rw [slots_ingressHeld, put]⟩
      · exact ⟨_, rfl, by rw [slots_egressPaired, put]⟩

/-- A whole EVENT leaves no slot open, and no fewer and no more slots. -/
theorem finishSlot_closes (s : State) (l : Nat) (x : ESlot) :
    (lane (finishSlot s l x) l).slots.length = (lane s l).slots.length ∧
      ∀ z ∈ (lane (finishSlot s l x) l).slots, z.open_ = false := by
  obtain ⟨y, hy, slots⟩ := slots_finishSlot s l x
  rw [slots]
  refine ⟨List.length_map _, fun z hz => ?_⟩
  obtain ⟨w, -, rfl⟩ := List.mem_map.1 hz
  split
  · exact hy
  next open_ => exact Bool.eq_false_iff.2 open_

/-! ## The turns of a lane's ports -/

theorem rd_turnTake {s : State} {l k : Nat} (h : ∀ i < 8, k ≠ rPORT (8 * l + i) 4) : rd (turnTake s l) k = rd s k := by
  unfold turnTake
  split
  · rfl
  · split
    · rfl
    next p hp =>
      obtain ⟨i, hi, rfl⟩ := List.mem_map.1 (List.mem_of_find?_eq_some hp)
      have ne := h i (List.mem_range.1 hi)
      dsimp only
      split
      · exact rd_orBits_ne _ _ ne
      · exact (rd_congr ((calReq_same ..).get_regs rfl) k).trans (rd_orBits_ne _ _ ne)

/-- The turns of a lane's ports change PORT_STATUS of these ports alone (R389). -/
theorem rd_laneTurns {s : State} {l k : Nat} (h : ∀ i < 8, k ≠ rPORT (8 * l + i) 4) : rd (laneTurns s l) k = rd s k :=
  upto_kept (g := fun x => rd x k) 8 (fun _ _ _ => rd_turnTake h) s

/-- Setting other bits, of whatever register, leaves a bit. -/
theorem rbit_orBits_of_clear {s : State} {o k m b : Nat} (hm : m < 2 ^ 32) (h : m.testBit b = false) :
    rbit (orBits s o m) k b = rbit s k b := by
  by_cases hk : k = o
  · rw [hk, rbit_orBits_same _ _ _ _ hm, h, Bool.or_false]
  · exact rbit_congr (rd_orBits_ne _ _ hk) b

/-- Clearing other bits, of whatever register, leaves a bit. -/
theorem rbit_clrBits_of_clear {s : State} {o k m b : Nat} (h : m.testBit b = false) : rbit (clrBits s o m) k b = rbit s k b := by
  by_cases hk : k = o
  · rw [hk, rbit_clrBits_same, h, Bool.not_false, Bool.and_true]
  · exact rbit_congr (rd_clrBits_ne _ _ hk) b

/-- A turn taken sets DEFERRED or CALIBRATING and leaves the other bits of PORT_STATUS (R244). -/
theorem rbit_turnTake {b : Nat} (h2 : b ≠ 2) (h3 : b ≠ 3) (s : State) (l k : Nat) : rbit (turnTake s l) k b = rbit s k b := by
  have deferred : Nat.testBit 4 b = false := Nat.testBit_two_pow_of_ne (n := 2) h2.symm
  have calibrating : Nat.testBit 8 b = false := Nat.testBit_two_pow_of_ne (n := 3) h3.symm
  unfold turnTake
  split
  · rfl
  · split
    · rfl
    next q _ =>
      dsimp only
      split
      · exact rbit_orBits_of_clear (by decide) deferred
      · exact (rbit_congr (rd_congr ((calReq_same ..).get_regs rfl) _) b).trans (rbit_orBits_of_clear (by decide) calibrating)

theorem rbit_laneTurns {b : Nat} (h2 : b ≠ 2) (h3 : b ≠ 3) (s : State) (l k : Nat) : rbit (laneTurns s l) k b = rbit s k b :=
  upto_kept (g := fun x => rbit x k b) 8 (fun _ _ _ => rbit_turnTake h2 h3 ..) s

theorem lane_laneTurns (s : State) (l j : Nat) : lane (laneTurns s l) j = lane s j := lane_of_same (laneTurns_same s l) rfl j

theorem rPORT_ne_rEL (p l : Nat) {a : Nat} (hp : p < 128) (ha : a < 0x100) (o : Nat) : rEL l o ≠ rPORT p a := by
  unfold rEL rPORT
  omega

theorem rn_rEL_laneTurns (s : State) (l : LaneIx) (j o : Nat) : rn (laneTurns s l) (rEL j o) = rn s (rEL j o) := by
  rw [rn, rd_laneTurns fun i hi => rPORT_ne_rEL _ _ (by omega) (by decide) _, rn]

end Sys2Proof.Machine
end

section
/-!
PROOFS. O30: an EVENT takes a slot or is discarded, its TAP closes the slot.
-/
namespace Sys2Proof.Machine
open Sys2Proof

/-! ## EVENTs -/

/-- The stamp of an EVENT (R258): in SAFE there is none. -/
def eventStamp (s : State) (l : Nat) (e : EventMsg) : State × Stamp × Option Rat × Option Rat :=
  if s.fcol.safe then (s, ⟨none, 0, false⟩, none, none) else stampEvent s (8 * l + e.pil.val) e

/-- The state in which an EVENT is stamped and, where it transmits, noted (R282). -/
def eventNoted (s : State) (l : Nat) (e : EventMsg) : State :=
  let t := (eventStamp s l e).1
  if e.tx ∧ ¬ e.cal ∧ ¬ t.fcol.safe then noteEgress t e (8 * l + e.pil.val) else t

/-- The slot that an EVENT takes (R222, R229). -/
def eventSlot (s : State) (l : Nat) (e : EventMsg) : ESlot :=
  let r := (eventStamp s l e).2
  let t := eventNoted s l e
  ⟨e, none, nowT t, r.1, r.2.2, r.2.1, genFor t e, true, false⟩

/-- The state in which an EVENT has its slot. -/
def eventEntered (s : State) (l : Nat) (e : EventMsg) : State :=
  let t := eventNoted s l e
  setLane t l { lane t l with slots := (lane t l).slots ++ [eventSlot s l e], dropTap := false }

theorem eventIn_taken {s : State} {l : Nat} {e : EventMsg} (hel : (lane (closePend s l) l).el = true)
    (ht : laneTakes (closePend s l) l = true)
    (hroom : slotsIn (lane (closePend s l) l) e.reserve < (if e.reserve then 8 else 24)) :
    eventIn s l e =
      let t := closePend s l
      if e.tapf then eventEntered t l e else finishSlot (eventEntered t l e) l (eventSlot t l e) := by
  unfold eventIn
  dsimp only
  rw [if_neg (not_not_intro hel), if_neg (not_not_intro ht), if_neg (Nat.not_le.2 hroom)]
  rfl

theorem eventIn_full {s : State} {l : Nat} {e : EventMsg} (hel : (lane (closePend s l) l).el = true)
    (ht : laneTakes (closePend s l) l = true)
    (hfull : (if e.reserve then 8 else 24) ≤ slotsIn (lane (closePend s l) l) e.reserve) :
    eventIn s l e =
      let t := bump (setLane (closePend s l) l { lane (closePend s l) l with dropTap := e.tapf }) (rEL l 0x14)
      if t.standby then t else raise t (srcEl l) kCreditOverrun (rEL l 4) := by
  unfold eventIn
  dsimp only
  rw [if_neg (not_not_intro hel), if_neg (not_not_intro ht), if_pos hfull]

theorem eventIn_refused {s : State} {l : Nat} {e : EventMsg} (hel : (lane (closePend s l) l).el = true)
    (ht : laneTakes (closePend s l) l = false) : eventIn s l e = bump (closePend s l) (rEL l 0x14) := by
  unfold eventIn
  dsimp only
  rw [if_neg (not_not_intro hel), if_pos (by rw [ht]; exact Bool.false_ne_true)]

/-- A stamp touches no lane: the actions ahead of a transmit count are run beside the state (R234). -/
theorem stampEvent_lanes (s : State) (p : Nat) (e : EventMsg) : (stampEvent s p e).1.lanes = s.lanes := by
  have settled := (slowSettle_same s (portFod s p)).get_lanes rfl
  have counted (x : State) (o : Nat) : (bumpM x o).lanes = x.lanes := (bumpM_same x o 1).get_lanes rfl
  unfold stampEvent
  dsimp only
  split
  · exact settled
  · split
    · exact (counted ..).trans settled
    · split
      · exact settled
      · split
        · exact ((raise_same ..).get_lanes rfl).trans ((counted ..).trans settled)
        · dsimp only
          split
          · exact (counted ..).trans settled
          · exact (counted ..).trans settled

/-- What the stamp of an EVENT leaves. -/
theorem eventNoted_keeps (s : State) (l : Nat) (e : EventMsg) :
    (eventNoted s l e).lanes = s.lanes ∧ (eventNoted s l e).mem = s.mem ∧ (eventNoted s l e).time = s.time ∧
      (eventNoted s l e).cyc = s.cyc := by
  have stamped : (eventStamp s l e).1.lanes = s.lanes ∧ (eventStamp s l e).1.mem = s.mem ∧
      (eventStamp s l e).1.time = s.time ∧ (eventStamp s l e).1.cyc = s.cyc := by
    unfold eventStamp
    split
    · exact ⟨rfl, rfl, rfl, rfl⟩
    · have same := stampEvent_same s (8 * l + e.pil.val) e
      exact ⟨stampEvent_lanes .., same.get_mem rfl, same.get_time rfl, same.get_cyc rfl⟩
  unfold eventNoted
  dsimp only
  split
  · have same := noteEgress_same (eventStamp s l e).1 e (8 * l + e.pil.val)
    rw [same.get_lanes rfl, same.get_mem rfl, same.get_time rfl, same.get_cyc rfl]
    exact stamped
  · exact stamped

theorem lane_eventEntered (s : State) (l : Nat) (e : EventMsg) :
    (lane (eventEntered s l e) l).slots = (lane s l).slots ++ [eventSlot s l e] := by
  rw [eventEntered, lane_setLane_same, lane_congr (eventNoted_keeps s l e).1]

theorem eventEntered_mem (s : State) (l : Nat) (e : EventMsg) : (eventEntered s l e).mem = s.mem := (eventNoted_keeps s l e).2.1

theorem eventSlot_arrival (s : State) (l : Nat) (e : EventMsg) : (eventSlot s l e).arrival = nowT s := by
  obtain ⟨-, -, htime, hcyc⟩ := eventNoted_keeps s l e
  show nowT (eventNoted s l e) = _
  simp only [nowT, nowSub, htime, hcyc]

theorem exec_event (l : LaneIx) (e : EventMsg) (k : CycIx) (s : State) :
    exec (.event l e k) s = .next (laneTurns (eventIn (atCyc s k) l e) l) := rfl

theorem laneTakes_congr {s t : State} {l : Nat} (h : (lane t l).ready = (lane s l).ready) (hf : t.fcol = s.fcol) :
    laneTakes t l = laneTakes s l := by
  simp only [laneTakes, elFenced, clFenced, srcFenced, h, hf]

section
variable {l : LaneIx} {e : EventMsg} {s : State} (hel : (lane s l).el = true) (hc : ∀ y ∈ (lane s l).slots, y.open_ = false)
include hc

theorem laneTakes_closePend : laneTakes (closePend s l) l = laneTakes s l :=
  laneTakes_congr (by rw [lane_closePend_closed hc]) ((closePend_closed_same hc).get_fcol rfl)

theorem slotsIn_closePend (r : Bool) : slotsIn (lane (closePend s l) l) r = slotsIn (lane s l) r := by
  rw [slotsIn, lane_closePend_closed hc, slotsIn]

include hel

theorem event_takesSlot (k : CycIx) (ht : laneTakes s l = true)
    (hroom : slotsIn (lane s l) e.reserve < (if e.reserve then 8 else 24)) :
    ∃ t, exec (.event l e k) s = .next t ∧ (lane t l).slots.length = (lane s l).slots.length + 1 ∧
      (e.tapf = true → MemKept s t ∧ ∃ y, (lane t l).slots = (lane s l).slots ++ [y] ∧ y.ev = e ∧ y.tap = none ∧ y.open_ = true ∧
        y.arrival = nowT (atCyc s k)) ∧
      (e.tapf = false → ∀ y ∈ (lane t l).slots, y.open_ = false) := by
  have hc' : ∀ y ∈ (lane (atCyc s k) l).slots, y.open_ = false := hc
  have same := closePend_closed_same hc'
  have slots : (lane (closePend (atCyc s k) l) l).slots = (lane s l).slots := by rw [lane_closePend_closed hc']; rfl
  have entered := lane_eventEntered (closePend (atCyc s k) l) l e
  rw [slots] at entered
  have run := eventIn_taken (s := atCyc s k) (l := l) (e := e) (by rw [lane_closePend_closed hc']; exact hel)
    ((laneTakes_closePend hc').trans ht) (lt_of_eq_of_lt (slotsIn_closePend hc' _) hroom)
  refine ⟨_, exec_event .., ?_⟩
  rw [lane_laneTurns, run]
  cases tapf : e.tapf with
  | true =>
    dsimp only
    rw [if_pos rfl, entered]
    refine ⟨List.length_append, fun _ => ⟨?_, _, rfl, rfl, rfl, rfl, ?_⟩, Bool.noConfusion⟩
    · exact memKept_of_mem (((laneTurns_same ..).get_mem rfl).trans ((eventEntered_mem ..).trans (same.get_mem rfl)))
    · rw [eventSlot_arrival]
      simp only [nowT, nowSub, same.get_time rfl, same.get_cyc rfl]
  | false =>
    dsimp only
    rw [if_neg Bool.false_ne_true]
    obtain ⟨length, closed⟩ := finishSlot_closes (eventEntered (closePend (atCyc s k) l) l e) l (eventSlot (closePend (atCyc s k) l) l e)
    refine ⟨?_, Bool.noConfusion, fun _ => closed⟩
    rw [length, entered]
    exact List.length_append

theorem event_findsPoolFull (k : CycIx) (ht : laneTakes s l = true)
    (hfull : (if e.reserve then 8 else 24) ≤ slotsIn (lane s l) e.reserve) :
    ∃ t, exec (.event l e k) s = .next t ∧ (lane t l).slots = (lane s l).slots ∧ (lane t l).dropTap = e.tapf ∧
      rn t (rEL l 0x14) = min (rn s (rEL l 0x14) + 1) (2 ^ 32 - 1) ∧ MemKept s t := by
  have hc' : ∀ y ∈ (lane (atCyc s k) l).slots, y.open_ = false := hc
  have closed := closePend_closed_same hc'
  have run := eventIn_full (s := atCyc s k) (l := l) (e := e) (by rw [lane_closePend_closed hc']; exact hel)
    ((laneTakes_closePend hc').trans ht) (le_of_le_of_eq hfull (slotsIn_closePend hc' _).symm)
  generalize hd : setLane (closePend (atCyc s k) l) l { lane (closePend (atCyc s k) l) l with dropTap := e.tapf } = d at run
  have lane_d : lane d l = { lane s l with dropTap := e.tapf } := by
    rw [← hd, lane_setLane_same, lane_closePend_closed hc']
    rfl
  have regs_d (o : Nat) : rn d o = rn s o := by
    rw [← hd]
    exact rn_congr (closed.get_regs rfl) o
  have reported : Same 8208 (bump d (rEL l 0x14)) (eventIn (atCyc s k) l e) ∧
      rn (eventIn (atCyc s k) l e) (rEL l 0x14) = rn (bump d (rEL l 0x14)) (rEL l 0x14) := by
    rw [run]
    dsimp only
    split
    · exact ⟨Same.refl .., rfl⟩
    · exact ⟨raise_same .., congrArg BitVec.toNat (rd_raise (by unfold srcEl; omega) (faultReg_rEL ..))⟩
  have same : Same 8208 d (eventIn (atCyc s k) l e) := (bump_same ..).trans reported.1
  refine ⟨_, exec_event .., ?_, ?_, ?_, memKept_of_mem ?_⟩
  · rw [lane_laneTurns, lane_of_same same rfl, lane_d]
  · rw [lane_laneTurns, lane_of_same same rfl, lane_d]
  · rw [rn_rEL_laneTurns, reported.2, rn_bump_same (faultReg_rEL ..), regs_d]
  · rw [(laneTurns_same ..).get_mem rfl, same.get_mem rfl, ← hd]
    exact closed.get_mem rfl

theorem event_refused (k : CycIx) (ht : laneTakes s l = false) :
    ∃ t, exec (.event l e k) s = .next t ∧ (lane t l).slots = (lane s l).slots ∧
      rn t (rEL l 0x14) = min (rn s (rEL l 0x14) + 1) (2 ^ 32 - 1) ∧ MemKept s t := by
  have hc' : ∀ y ∈ (lane (atCyc s k) l).slots, y.open_ = false := hc
  have closed := closePend_closed_same hc'
  have run := eventIn_refused (s := atCyc s k) (l := l) (e := e) (by rw [lane_closePend_closed hc']; exact hel)
    ((laneTakes_closePend hc').trans ht)
  refine ⟨_, exec_event .., ?_, ?_, memKept_of_mem ?_⟩
  · rw [lane_laneTurns, run, lane_of_same (bump_same ..) rfl, lane_closePend_closed hc']
    rfl
  · rw [rn_rEL_laneTurns, run, rn_bump_same (faultReg_rEL ..), rn_congr (closed.get_regs rfl)]
    rfl
  · rw [(laneTurns_same ..).get_mem rfl, run, (bump_same ..).get_mem rfl, closed.get_mem rfl]
    rfl

end

/-! ## TAPs -/

theorem exec_tap (l : LaneIx) (m : TapMsg) (k : CycIx) (s : State) :
    exec (.tap l m k) s = .next (laneTurns (tapIn (atCyc s k) l m) l) := rfl

section
variable {l : Nat} {m : TapMsg} {s : State} (ht : laneTakes s l = true) (hel : (lane s l).el = true)
include ht hel

theorem tapIn_dropped (hd : (lane s l).dropTap = true) : tapIn s l m = setLane s l { lane s l with dropTap := false } := by
  unfold tapIn
  dsimp only
  rw [if_neg (not_not_intro hel), if_neg (not_not_intro ht), if_pos hd]

theorem tapIn_paired {y : ESlot} (hd : (lane s l).dropTap = false) (hy : (lane s l).slots.find? (·.open_) = some y)
    (hp : y.ev.pil = m.pil ∧ y.ev.tag = m.tag ∧ y.ev.gen = m.gen) :
    tapIn s l m = finishSlot s l { y with tap := some { m with bytes := m.bytes.take 96 }, gen := genFor s y.ev } := by
  unfold tapIn
  dsimp only
  rw [if_neg (not_not_intro hel), if_neg (not_not_intro ht), hd, if_neg Bool.false_ne_true, hy]
  exact if_pos hp

theorem tapIn_alone (hd : (lane s l).dropTap = false) (hc : ∀ y ∈ (lane s l).slots, y.open_ = false) : tapIn s l m = badBlk s l := by
  unfold tapIn
  dsimp only
  rw [if_neg (not_not_intro hel), if_neg (not_not_intro ht), hd, if_neg Bool.false_ne_true, find_open_none hc]

end

section
variable {l : LaneIx} {m : TapMsg} {s : State} (ht : laneTakes s l = true) (hel : (lane s l).el = true)
include ht hel

theorem tap_closesSlot (k : CycIx) {y : ESlot} (hd : (lane s l).dropTap = false)
    (hy : (lane s l).slots.find? (·.open_) = some y) (hp : y.ev.pil = m.pil) (htag : y.ev.tag = m.tag) (hg : y.ev.gen = m.gen) :
    ∃ t, exec (.tap l m k) s = .next t ∧ (lane t l).slots.length = (lane s l).slots.length ∧
      ∀ z ∈ (lane t l).slots, z.open_ = false := by
  refine ⟨_, exec_tap .., ?_⟩
  rw [lane_laneTurns, tapIn_paired (s := atCyc s k) ht hel hd hy ⟨hp, htag, hg⟩]
  exact finishSlot_closes ..

theorem tap_goesWithDiscarded (k : CycIx) (hd : (lane s l).dropTap = true) :
    ∃ t, exec (.tap l m k) s = .next t ∧ (lane t l).slots = (lane s l).slots ∧ (lane t l).dropTap = false ∧ MemKept s t := by
  refine ⟨_, exec_tap .., ?_⟩
  rw [lane_laneTurns, tapIn_dropped (s := atCyc s k) ht hel hd, lane_setLane_same]
  exact ⟨rfl, rfl, memKept_of_mem ((laneTurns_same ..).get_mem rfl)⟩

theorem tap_withoutEvent (k : CycIx) (hd : (lane s l).dropTap = false) (hc : ∀ y ∈ (lane s l).slots, y.open_ = false) :
    ∃ t, exec (.tap l m k) s = .next t ∧ (lane t l).slots = (lane s l).slots ∧
      rn t (rEL l 0x18) = min (rn s (rEL l 0x18) + 1) (2 ^ 32 - 1) ∧ MemKept s t := by
  refine ⟨_, exec_tap .., ?_⟩
  rw [lane_laneTurns, rn_rEL_laneTurns, tapIn_alone (s := atCyc s k) ht hel hd hc]
  have bad := badBlk_same (atCyc s k) l
  refine ⟨by rw [lane_of_same bad rfl]; rfl, ?_, memKept_of_mem (((laneTurns_same ..).get_mem rfl).trans (bad.get_mem rfl))⟩
  rw [badBlk, rn, rd_raise (by unfold srcEl; omega) (faultReg_rEL ..), ← rn, rn_bump_same (faultReg_rEL ..)]
  rfl

end

/-- Settles O30: the cases of the slot's pool for an EVENT, of the slot that waits for a TAP. -/
theorem eventsAndTapsPairUp : Obligations.EventsAndTapsPairUp :=
  ⟨fun _ _ k _ hel hc => ⟨event_takesSlot hel hc k, event_findsPoolFull hel hc k, event_refused hel hc k⟩,
    fun _ _ k _ ht hel => ⟨fun _ hd hy => tap_closesSlot ht hel k hd hy, tap_goesWithDiscarded ht hel k, tap_withoutEvent ht hel k⟩⟩

end Sys2Proof.Machine
end

section
/-!
PROOFS. O31: what a BEACON shows, how ABORT and age retire an ingress entry.
-/
namespace Sys2Proof.Machine
open Sys2Proof

/-! ## The ingress table -/

theorem ingOf_congr {s t : State} (h : t.ingress = s.ingress) (b : Nat) (c : Bool) : ingOf t b c = ingOf s b c := by rw [ingOf, h, ingOf]

theorem ingOf_pair {s : State} {tag : Nat} {g : Bool} {i : Ing} (h : ingOf s tag g = some i) : i.tag = tag ∧ i.tgen = g := by
  simpa using List.find?_some h

/-- A retired entry's pair has no entry; the entries of other pairs stay. -/
theorem ingOf_retire (s : State) (i : Ing) (code b : Nat) (c : Bool) :
    ingOf (retire s i code) b c = if b = i.tag ∧ c = i.tgen then none else ingOf s b c := by
  have filtered : (retire s i code).ingress = s.ingress.filter fun j => !(decide (j.tag = i.tag) && decide (j.tgen = i.tgen)) :=
    (owedRun_same _).get_ingress rfl
  rw [ingOf, filtered, List.find?_filter]
  split
  next h =>
    obtain ⟨rfl, rfl⟩ := h
    refine List.find?_eq_none.2 fun j _ => ?_
    cases decide (j.tag = i.tag) && decide (j.tgen = i.tgen) <;> decide
  next h =>
    refine congrArg (List.find? · s.ingress) (funext fun j => Bool.eq_iff_iff.2 ?_)
    simp only [Bool.and_eq_true, Bool.not_eq_true', decide_eq_true_eq, Bool.and_eq_false_iff, decide_eq_false_iff_not]
    constructor
    · exact fun q => q.2
    · rintro ⟨rfl, rfl⟩
      exact ⟨Decidable.not_and_iff_not_or_not.1 h, rfl, rfl⟩

/-- A frame that asks for no DELIVERY record gets none, nor does any in SAFE or standby (R280, R289, R484). -/
theorem presentDelivery_none {s : State} {w : Owed} (h : w.i.action.testBit 10 = false ∨ s.fcol.safe = true ∨ s.standby = true) :
    presentDelivery s w = s := by
  unfold presentDelivery
  refine if_pos ?_
  rwa [Bool.not_eq_true]

/-- Steps that each leave the state leave it. -/
theorem foldl_fixed {α : Type} {f : State → α → State} {s : State} : ∀ {l : List α}, (∀ a ∈ l, f s a = s) → l.foldl f s = s
  | [], _ => rfl
  | a :: l, h => by rw [List.foldl_cons, h a List.mem_cons_self, foldl_fixed fun b hb => h b (List.mem_cons_of_mem a hb)]

/-- Where no frame gets a DELIVERY record, those owed are dropped as they fall due (R281). -/
theorem owedRun_none {s : State} (h : ∀ w ∈ s.owed, w.i.action.testBit 10 = false ∨ s.fcol.safe = true ∨ s.standby = true) :
    owedRun s = { s with owed := s.owed.filter fun w => corrsLeft s w.i } :=
  foldl_fixed fun w hw => presentDelivery_none (h w (List.mem_of_mem_filter hw))

/-- The retirement of an entry whose frame gets no DELIVERY record, where none is owed, leaves the memory. -/
theorem retire_mem {s : State} {i : Ing} (code : Nat) (owed : s.owed = [])
    (h : i.action.testBit 10 = false ∨ s.fcol.safe = true ∨ s.standby = true) : (retire s i code).mem = s.mem := by
  unfold retire
  rw [owedRun_none]
  simpa [owed] using h

/-! ## ABORT -/

theorem upto_fixed {s : State} {f : State → Nat → State} : ∀ {n : Nat}, (∀ i < n, f s i = s) → upto n f s = s
  | 0, _ => rfl
  | n + 1, h => by rw [upto_succ, upto_fixed fun i hi => h i (by omega), h n (Nat.lt_succ_self n)]

/-- With no record in flight, none is voided (R283). -/
theorem voidPair_empty {s : State} (h : ∀ n < 16, ringFill (ring s n) = 0) (tag : Nat) (g : Bool) : voidPair s tag g = s :=
  upto_fixed fun n hn => by
    dsimp only
    rw [h n hn]
    rfl

theorem goneWhy_congr {s t : State} (hg : t.gone = s.gone) (ht : t.time = s.time) (hc : t.cyc = s.cyc) (tag : Nat) (g : Bool) :
    goneWhy t tag g = goneWhy s tag g := by
  have now : nowT t = nowT s := by simp only [nowT, nowSub, ht, hc]
  rw [goneWhy, hg, now, goneWhy]

theorem goneWhy_keepGone {s : State} {sfd : Int} (h : (nowT s : Int) ≤ sfd + 65536000000) (tag : Nat) (g : Bool) (why : Nat) :
    goneWhy (keepGone s tag g why sfd) tag g = some why := by
  have now : (nowT (keepGone s tag g why sfd) : Int) ≤ sfd + 65536000000 := h
  rw [goneWhy, keepGone, List.find?_cons_of_pos]
  · rfl
  · simp only [Bool.and_eq_true, decide_eq_true_eq]
    exact ⟨⟨trivial, trivial⟩, now⟩

/-- An ABORT of a held pair. -/
def abortHeld (s : State) (tag : Nat) (g : Bool) (i : Ing) : State := retire (voidPair (keepGone s tag g 6 i.sfd) tag g) i 2

theorem ingOf_abortHeld {s : State} {tag : Nat} {g : Bool} {i : Ing} (h : ingOf s tag g = some i) :
    ingOf (abortHeld s tag g i) tag g = none := by
  obtain ⟨rfl, rfl⟩ := ingOf_pair h
  rw [abortHeld, ingOf_retire, if_pos ⟨rfl, rfl⟩]

theorem goneWhy_abortHeld {s : State} {i : Ing} (h : (nowT s : Int) ≤ i.sfd + 65536000000) (tag : Nat) (g : Bool) :
    goneWhy (abortHeld s tag g i) tag g = some 6 := by
  have same : Same 141029650998288 (keepGone s tag g 6 i.sfd) (abortHeld s tag g i) :=
    ((voidPair_same ..).mono (by decide)).trans (retire_same ..)
  rw [goneWhy_congr (same.get_gone rfl) (same.get_time rfl) (same.get_cyc rfl), goneWhy_keepGone h]

theorem abortHeld_mem {s : State} {i : Ing} (tag : Nat) (g : Bool) (owed : s.owed = []) (empty : ∀ n < 16, ringFill (ring s n) = 0)
    (h : i.action.testBit 10 = false ∨ s.standby = true) : (abortHeld s tag g i).mem = s.mem := by
  rw [abortHeld, voidPair_empty (s := keepGone s tag g 6 i.sfd) empty]
  exact retire_mem 2 owed (h.imp_right .inr)

theorem exec_abort (l : LaneIx) (pil : Fin 8) (tag : BitVec 16) (g : Bool) (k : CycIx) (s : State) :
    exec (.abort l pil tag g k) s = .next (abortIn (atCyc s k) l tag.toNat g) := rfl

section
variable {l : LaneIx} {tag : Nat} {g : Bool} {s : State} (hc : ∀ y ∈ (lane s l).slots, y.open_ = false)
  (hel : (lane s l).el = true) (hf : elFenced s l = false)
include hc hel hf

/-- A lane that holds lock and is not fenced takes a message once the waiting EVENT is closed. -/
theorem closePend_takes : ¬ (¬ (lane (closePend s l) l).el ∨ elFenced (closePend s l) l) := by
  have fenced : elFenced (closePend s l) l = false := by
    rw [elFenced, srcFenced, (closePend_closed_same hc).get_fcol rfl]
    exact hf
  rw [lane_closePend_closed hc, fenced, show ({ lane s l with dropTap := false } : LaneSt).el = true from hel]
  decide

theorem abortIn_held {i : Ing} (hi : ingOf s tag g = some i) : abortIn s l tag g = abortHeld (closePend s l) tag g i := by
  unfold abortIn
  dsimp only
  rw [if_neg (closePend_takes hc hel hf), ingOf_congr ((closePend_closed_same hc).get_ingress rfl), hi]
  rfl

theorem abortIn_notHeld (hi : ingOf s tag g = none) : abortIn s l tag g = bump (closePend s l) (rEL l 0x18) := by
  unfold abortIn
  dsimp only
  rw [if_neg (closePend_takes hc hel hf), ingOf_congr ((closePend_closed_same hc).get_ingress rfl), hi]

end

section
variable {l : LaneIx} {tag : BitVec 16} {g : Bool} {s : State} (hc : ∀ y ∈ (lane s l).slots, y.open_ = false)
  (hel : (lane s l).el = true) (hf : elFenced s l = false) (pil : Fin 8) (k : CycIx)
include hc hel hf

theorem abort_retires {i : Ing} (hi : ingOf s tag.toNat g = some i) (hn : (nowT (atCyc s k) : Int) ≤ i.sfd + 65536000000) :
    ∃ t, exec (.abort l pil tag g k) s = .next t ∧ ingOf t tag.toNat g = none ∧ goneWhy t tag.toNat g = some 6 ∧
      (s.owed = [] → (∀ n < 16, ringFill (ring s n) = 0) → (i.action.testBit 10 = false ∨ s.standby = true) → MemKept s t) := by
  have same := closePend_closed_same (s := atCyc s k) hc
  refine ⟨_, exec_abort .., ?_⟩
  rw [abortIn_held (s := atCyc s k) hc hel hf hi]
  refine ⟨ingOf_abortHeld ((ingOf_congr (same.get_ingress rfl) _ _).trans hi), goneWhy_abortHeld ?_ _ _, fun owed empty h => ?_⟩
  · simpa only [nowT, nowSub, same.get_time rfl, same.get_cyc rfl] using hn
  · refine memKept_of_mem ((abortHeld_mem _ _ ((same.get_owed rfl).trans owed) (fun n hn => ?_) ?_).trans (same.get_mem rfl))
    · rw [ring_congr (same.get_rings rfl)]
      exact empty n hn
    · rwa [same.get_standby rfl]

theorem abort_notHeld (hi : ingOf s tag.toNat g = none) :
    ∃ t, exec (.abort l pil tag g k) s = .next t ∧ t.ingress = s.ingress ∧
      rn t (rEL l 0x18) = min (rn s (rEL l 0x18) + 1) (2 ^ 32 - 1) ∧ RegsKept s t [rEL l 0x18] ∧ MemKept s t := by
  have same := closePend_closed_same (s := atCyc s k) hc
  have counted := bump_same (closePend (atCyc s k) l) (rEL l 0x18) 1
  refine ⟨_, exec_abort .., ?_⟩
  rw [abortIn_notHeld (s := atCyc s k) hc hel hf hi]
  refine ⟨(counted.get_ingress rfl).trans (same.get_ingress rfl), ?_, fun o ho hk => ?_,
    memKept_of_mem ((counted.get_mem rfl).trans (same.get_mem rfl))⟩
  · rw [rn_bump_same (faultReg_rEL ..), rn_congr (same.get_regs rfl)]
    rfl
  · rw [rd_bump ho fun e => hk (List.mem_singleton.2 e), rd_congr (same.get_regs rfl)]
    rfl

end

/-! ## Age -/

theorem exec_ingressAgeRetire (tag : BitVec 16) (g : Bool) (k : CycIx) (s : State) : exec (.ingressAgeRetire tag g k) s =
    .next (if s.coreAwake then ageRetire (atCyc s k) tag.toNat g else s) := rfl

theorem ageRetire_retires {tag : BitVec 16} {g : Bool} {s : State} {i : Ing} (k : CycIx) (awake : s.coreAwake = true)
    (hi : ingOf s tag.toNat g = some i) :
    ∃ t, exec (.ingressAgeRetire tag g k) s = .next t ∧ ingOf t tag.toNat g = none ∧
      (∀ (b : Nat) (c : Bool), (b ≠ tag.toNat ∨ c ≠ g) → ingOf t b c = ingOf s b c) ∧
      (s.owed = [] → (i.action.testBit 10 = false ∨ s.fcol.safe = true ∨ s.standby = true) → MemKept s t) := by
  obtain ⟨htag, hgen⟩ := ingOf_pair hi
  have retired : ageRetire (atCyc s k) tag.toNat g = retire (atCyc s k) i 1 := by
    rw [ageRetire, ingOf_congr (s := s) (t := atCyc s k) rfl, hi]
  refine ⟨_, exec_ingressAgeRetire .., ?_⟩
  rw [if_pos awake, retired, ← htag, ← hgen]
  refine ⟨by rw [ingOf_retire, if_pos ⟨rfl, rfl⟩], fun b c other => ?_, fun owed h => memKept_of_mem (retire_mem 1 owed h)⟩
  rw [ingOf_retire, if_neg (by rw [Decidable.not_and_iff_not_or_not]; exact other)]
  rfl

theorem ageRetire_none {tag : BitVec 16} {g : Bool} {s : State} (k : CycIx) (awake : s.coreAwake = true)
    (hi : ingOf s tag.toNat g = none) : exec (.ingressAgeRetire tag g k) s = .next (atCyc s k) := by
  rw [exec_ingressAgeRetire, if_pos awake, ageRetire, ingOf_congr (s := s) (t := atCyc s k) rfl, hi]

theorem ageRetire_asleep {tag : BitVec 16} {g : Bool} {s : State} (k : CycIx) (asleep : s.coreAwake = false) :
    exec (.ingressAgeRetire tag g k) s = .next s := by
  rw [exec_ingressAgeRetire, asleep, if_neg Bool.false_ne_true]

/-! ## SLOW -/

/-- SLOW of port p, which counts an output that is slow or is not, at the instant t (R224). -/
def slowMark (slow : Bool) (t : Rat) (s : State) (p : Nat) : State :=
  let was := rbit s (rPORT p 4) 6
  if slow ∧ ¬ was then raiseAt (orBits s (rPORT p 4) 0x40) (srcEl (p / 8)) kStaleCount p (rfloor t)
  else if ¬ slow ∧ was then clrBits s (rPORT p 4) 0x40
  else s

/-- Whether output n is slow (R224). -/
def fodSlow (s : State) (n : Nat) : Bool :=
  let x := fod s n
  x.running && decide (6553600 < nomPeriod x.n x.f x.m x.o (scQ s x.sc))

theorem slowJudge_eq (s : State) (n : Nat) (t : Rat) : slowJudge s n t =
    (portsOf s n).foldl (slowMark (fodSlow s n) t) (setFod s n { fod s n with slowDue := none }) := rfl

/-- A judgement of SLOW keeps what the marking of each port keeps. -/
theorem slowJudge_keeps {β : Type} {g : State → β} {s : State} {n : Nat} {t : Rat}
    (hs : g (setFod s n { fod s n with slowDue := none }) = g s) (h : ∀ x, ∀ p < 128, g (slowMark (fodSlow s n) t x p) = g x) :
    g (slowJudge s n t) = g s := by
  rw [slowJudge_eq]
  refine List.foldlRecOn (motive := fun x => g x = g s) _ _ hs fun x hx p hp => (h x p ?_).trans hx
  exact List.mem_range.1 (List.mem_of_mem_filter hp)

theorem rbit_slowMark {b k p : Nat} (hb : b ≠ 6) (hk : faultReg k = false) (hp : p < 128) (slow : Bool) (t : Rat) (s : State) :
    rbit (slowMark slow t s p) k b = rbit s k b := by
  have other : Nat.testBit 0x40 b = false := Nat.testBit_two_pow_of_ne (n := 6) hb.symm
  unfold slowMark
  dsimp only
  split
  · rw [raiseAt, rbit_congr (rd_fileReport (show srcEl (p / 8) < 0x1000 by unfold srcEl; omega) hk), rbit_orBits_of_clear (by decide) other]
  · split
    · exact rbit_clrBits_of_clear other
    · rfl

/-- A judgement of SLOW leaves the other bits of PORT_STATUS. -/
theorem rbit_slowJudge {b k : Nat} (hb : b ≠ 6) (hk : faultReg k = false) (s : State) (n : Nat) (t : Rat) :
    rbit (slowJudge s n t) k b = rbit s k b :=
  slowJudge_keeps (g := fun x => rbit x k b) rfl fun x _ hp => rbit_slowMark hb hk hp _ t x

theorem rbit_slowSettle {b k : Nat} (hb : b ≠ 6) (hk : faultReg k = false) (s : State) (n : Nat) :
    rbit (slowSettle s n) k b = rbit s k b := by
  unfold slowSettle
  split
  · rfl
  · split
    · exact rbit_slowJudge hb hk ..
    · rfl

/-! ## BEACON -/

/-- Between two states port p shows its LINK bit as it did, and the memory holds what it held. -/
structure LinkKept (p : Nat) (s t : State) : Prop where
  link : rbit t (rPORT p 4) 0 = rbit s (rPORT p 4) 0
  mem : t.mem = s.mem

namespace LinkKept

theorem refl (p : Nat) (s : State) : LinkKept p s s := ⟨rfl, rfl⟩

theorem trans {p : Nat} {s t u : State} (h : LinkKept p s t) (g : LinkKept p t u) : LinkKept p s u :=
  ⟨g.link.trans h.link, g.mem.trans h.mem⟩

theorem of_rd {p : Nat} {s t : State} (h : rd t (rPORT p 4) = rd s (rPORT p 4)) (hm : t.mem = s.mem) : LinkKept p s t :=
  ⟨rbit_congr h 0, hm⟩

theorem orBits {p m : Nat} (hm : m < 2 ^ 32) (h : m.testBit 0 = false) (s : State) (o : Nat) : LinkKept p s (orBits s o m) :=
  ⟨rbit_orBits_of_clear hm h, rfl⟩

theorem slowSettle (p : Nat) (s : State) (n : Nat) : LinkKept p s (slowSettle s n) :=
  ⟨rbit_slowSettle (by decide) (faultReg_rPORT ..) s n, (slowSettle_same ..).get_mem rfl⟩

theorem laneTurns (p : Nat) (s : State) (l : Nat) : LinkKept p s (laneTurns s l) :=
  ⟨rbit_laneTurns (by decide) (by decide) s l _, (laneTurns_same ..).get_mem rfl⟩

theorem beaconTurn (p : Nat) (s : State) (q : Nat) (fall : Bool) : LinkKept p s (beaconTurn s q fall) := by
  unfold Machine.beaconTurn
  dsimp only
  split
  · exact (⟨rfl, rfl⟩ : LinkKept p s (turnWait s q)).trans (laneTurns ..)
  · exact laneTurns ..

/-- A sample of a reference changes nothing of the ports (R187, R190, R196). -/
theorem refSample {i : Nat} (hi : i < 144) (p : Nat) (s : State) (t e : Int) : LinkKept p s (refSample s i t e) := by
  have shown : rPORT p 4 ∉ refShown i := by
    have below {o : Nat} (ho : o < 0x100) : rREF i o < 0x400000 := by unfold rREF; split <;> omega
    have status := below (o := 4) (by decide)
    have dropped := below (o := 0x6C) (by decide)
    have jumped := below (o := 0x74) (by decide)
    simp only [refShown, rPORT, List.mem_cons, List.not_mem_nil, or_false]
    omega
  have event : rd (refEvent (pjumpCheck s i t e) i t (some e)) (rPORT p 4) = rd s (rPORT p 4) := by
    refine ((Judged.setLevel _ ⟨i, hi⟩ .los false).regs _ (faultReg_rPORT ..) shown).trans ?_
    rw [rd_wM (by unfold rREF rPORT; split <;> omega)]
    exact (Judged.pjumpCheck s ⟨i, hi⟩ t e).regs _ (faultReg_rPORT ..) shown
  exact of_rd ((rd_refFeed (by unfold rPORT; omega) ..).trans event) ((refSample_same ..).get_mem rfl)

theorem rfreq (p : Nat) (s : State) : LinkKept p s (rfreq s p) := by
  refine of_rd ?_ ((rfreq_same ..).get_mem rfl)
  unfold Machine.rfreq
  dsimp only
  split
  · rfl
  · split
    · exact rd_wM (by unfold rPORT; omega)
    · rfl

theorem setPort (p : Nat) (s : State) (q : Nat) (x : PortSt) : LinkKept p s (setPort s q x) := ⟨rfl, rfl⟩

theorem unresolved (p : Nat) (s : State) : LinkKept p s (bumpM s (rPORT p 0x84)) :=
  of_rd (rd_bumpM (faultReg_rPORT ..) (rPORT_ne p (by decide)) (rPORT_ne p (b := 0x88) (by decide))) ((bumpM_same ..).get_mem rfl)

theorem raise {l : Nat} (hl : l < 16) (p : Nat) (s : State) (kind a : Nat) : LinkKept p s (raise s (srcEl l) kind a) :=
  of_rd (rd_raise (by unfold srcEl; omega) (faultReg_rPORT ..)) ((raise_same ..).get_mem rfl)

end LinkKept

section
variable {l : LaneIx} {s : State} {b : BeaconMsg} (taken : ¬ (¬ (lane (closePend s l) l).el ∨ elFenced (closePend s l) l))
include taken

/-- What follows in a beacon that a lane takes keeps the LINK bit that it shows first (R242, R244, R247). -/
theorem beaconIn_linkKept :
    LinkKept (8 * l + b.pil) (wb (closePend s l) (rPORT (8 * l + b.pil) 4) 0 1 (b2n b.link)) (beaconIn s l b) := by
  unfold beaconIn
  extract_lets +onlyGivenNames open_ p
  rw [if_neg taken]
  extract_lets +onlyGivenNames fall linked
  split
  · exact .refl ..
  · extract_lets +onlyGivenNames turned n settled x restart
    have before : LinkKept p linked settled := (LinkKept.beaconTurn ..).trans (.slowSettle ..)
    have restarts (y : State) : LinkKept p y (restart y) := .setPort ..
    have restartsUnless (y : State) (c : Bool) : LinkKept p y (if c then y else restart y) := by
      cases c
      · exact restarts y
      · exact .refl ..
    split
    · exact before.trans (restarts _)
    · split
      · exact before.trans (restartsUnless ..)
      · extract_lets +onlyGivenNames ta w
        split
        · extract_lets +onlyGivenNames y counted kept noted
          have lost : LinkKept p linked noted := (((before.trans (.setPort ..)).trans (restartsUnless ..)).trans (.unresolved ..)).trans
            (.orBits (by decide) (by decide) _ _)
          split
          · exact (lost.trans (.orBits (by decide) (by decide) _ _)).trans (.raise l.isLt ..)
          · exact lost
        · extract_lets +onlyGivenNames old resolved
          have found : LinkKept p linked resolved := before.trans (.setPort ..)
          split
          · exact found.trans (restarts _)
          · extract_lets +onlyGivenNames y r un ui e avg sampled
            exact ((found.trans (.setPort ..)).trans (.refSample (by omega) ..)).trans (.rfreq ..)

/-- Without a valid phase code the port's samples begin anew (R247). -/
theorem beaconIn_invalid (hs : (closePend s l).fcol.safe = false) (hb : b.pivalid = false) :
    (port (beaconIn s l b) (8 * l + b.pil)).samples = [] ∧ (port (beaconIn s l b) (8 * l + b.pil)).rot = none := by
  unfold beaconIn
  extract_lets +onlyGivenNames open_ p
  rw [if_neg taken]
  extract_lets +onlyGivenNames fall linked
  have unsafe_ : ¬ linked.fcol.safe = true := by
    rw [show linked.fcol.safe = false from hs]
    exact Bool.false_ne_true
  rw [if_neg unsafe_]
  extract_lets +onlyGivenNames turned n settled x restart
  rw [hb, if_pos Bool.false_ne_true]
  have restarts : port (restart settled) p = { port settled p with samples := [], rot := none } := port_setPort_same ..
  rw [restarts]
  exact ⟨rfl, rfl⟩

end

theorem exec_beacon (l : LaneIx) (b : BeaconMsg) (k : CycIx) (s : State) :
    exec (.beacon l b k) s = .next (beaconIn (atCyc s k) l b) := rfl

theorem beacon_taken {l : LaneIx} {s : State} (hc : ∀ y ∈ (lane s l).slots, y.open_ = false) (b : BeaconMsg) (k : CycIx)
    (hel : (lane s l).el = true) (hf : elFenced s l = false) :
    ∃ t, exec (.beacon l b k) s = .next t ∧ rbit t (rPORT (8 * l + b.pil) 4) 0 = b.link ∧ MemKept s t ∧
      (b.pivalid = false → s.fcol.safe = false →
        (port t (8 * l + b.pil)).samples = [] ∧ (port t (8 * l + b.pil)).rot = none) := by
  have same := closePend_closed_same (s := atCyc s k) hc
  have taken := closePend_takes (s := atCyc s k) hc hel hf
  have kept := beaconIn_linkKept (b := b) taken
  refine ⟨_, exec_beacon .., ?_, memKept_of_mem (kept.mem.trans (same.get_mem rfl)), fun invalid safe => ?_⟩
  · rw [kept.link, rbit, rn_wb_same _ _ _ _ _ (by decide), setBits_testBit]
    cases b.link <;> rfl
  · refine beaconIn_invalid taken ?_ invalid
    rw [same.get_fcol rfl]
    exact safe

theorem beacon_notTaken {l : LaneIx} {s : State} (hc : ∀ y ∈ (lane s l).slots, y.open_ = false) (b : BeaconMsg) (k : CycIx)
    (h : (lane s l).el = false ∨ elFenced s l = true) (hd : (lane s l).dropTap = false) :
    exec (.beacon l b k) s = .next (atCyc s k) := by
  have ignored : ¬ (lane (atCyc s k) l).el ∨ elFenced (atCyc s k) l := h.imp_left fun off => by
    rw [Bool.not_eq_true]
    exact off
  rw [exec_beacon, beaconIn, closePend_idle (s := atCyc s k) hc hd]
  exact congrArg Host.Outcome.next (if_pos ignored)

/-- Settles O31: LINK is kept by all that follows it in a beacon; the retirement of an entry takes its pair from the table. -/
theorem beaconsAbortsAndAgeActOnPorts : Obligations.BeaconsAbortsAndAgeActOnPorts :=
  ⟨fun _ b k _ hc => ⟨beacon_taken hc b k, beacon_notTaken hc b k⟩,
    fun _ pil _ _ k _ _ hc hel hf hi hn => abort_retires hc hel hf pil k hi hn,
    fun _ pil _ _ k _ hc hel hf hi => abort_notHeld hc hel hf pil k hi,
    fun _ _ k _ _ awake hi => ageRetire_retires k awake hi,
    fun _ _ k _ => ⟨ageRetire_none k, ageRetire_asleep k⟩⟩

end Sys2Proof.Machine
end

section
/-!
PROOFS. O33: a correction is formed and sent, or its wait for an entry ends.
-/
namespace Sys2Proof.Machine
open Sys2Proof

/-! ## Forming and sending -/

/-- The value and the reasons of a class-0 correction whose stamps converted, of a port whose values are not adjusted (R250). -/
theorem corrForm_ok {s : State} {c : Corr} {i : Ing} {o a : Int} (hcls : c.ev.cls ≠ 1) (hi : c.ing = some i) (hv : i.verdict = 0)
    (hoff : c.stamp.off = false) (hioff : i.stamp.off = false) (ho : c.stamp.t = some o) (ha : i.stamp.t = some a)
    (hb : rbit s (rPORT i.port 0) 1 = false) : corrForm s c = (o - a, []) := by
  simp [corrForm, c0Value, hcls, hi, hv, hoff, hioff, ho, ha, hb]

/-- A correction's latency is noted where it is the longest, and raised where it is above 480 ns (R253). -/
def corrTimed (s : State) (l ns : Nat) : State :=
  let s := if rn s 0x508008 < ns then hwUpdate s 0x508008 0x50800C 1 (fun s => wr s 0x508008 ns) else s
  if 480 < ns then raise s (srcCl l) kCorrLate (rCL l 4) else s

/-- Whether a correction of a pair whose entry is i is marked DEGRADED (R252). -/
def corrDegraded (c : Corr) (i : Ing) : Bool := c.stamp.flags.testBit 0 || i.stamp.flags.testBit 0

/-- The state in which a correction has left its lane's queue. -/
def corrTaken (s : State) (l : Nat) (c : Corr) : State := setLane s l { lane s l with corrs := (lane s l).corrs.erase c }

/-- The state in which a correction of value v has gone out of the queue and on the lane's CL, and counts for its entry (R252,
R253, R281). -/
def corrGone (s : State) (l : Nat) (c : Corr) (i : Ing) (v : Int) : State :=
  noteApplied (bump (emit s (.cl l (corrWord c 0 v (corrDegraded c i)))) (rCL l 8)) i

/-- A class-0 correction that is OK goes out, or is dropped where the correction lane is down, fenced or paused (R253, R281). -/
theorem corrSend_ok {s : State} {l ns : Nat} {c : Corr} {i : Ing} {v : Int} (form : corrForm s c = (v, [])) (hcls : c.ev.cls ≠ 1)
    (hi : c.ing = some i) : corrSend s l c ns =
      if clFenced s l ∨ ¬ (lane s l).cl ∨ s.corrPause then bump s (rCL l 0x0C)
      else corrTimed (corrGone s l c i v) l ns := by
  have degraded : (c.stamp.flags.testBit 0 || (decide (c.ev.cls ≠ 1) && i.stamp.flags.testBit 0)) = corrDegraded c i := by
    rw [decide_eq_true hcls, Bool.true_and, corrDegraded]
  unfold corrSend
  rw [form, hi]
  dsimp only
  rw [degraded]
  rfl

theorem noteApplied_idle {s : State} (h : s.owed = []) (i : Ing) : Same 4194304 s (noteApplied s i) := by
  have none : (noteApplied s i).owed = s.owed := by
    unfold noteApplied
    rw [h]
    rfl
  have only : noteApplied s i = { s with ingress := (noteApplied s i).ingress } :=
    congrArg (fun o => { s with ingress := (noteApplied s i).ingress, owed := o }) none
  rw [only]
  unfold Same
  rfl

/-- Where no record is owed, what goes out changes the counters, the entries of its frame and the lane's words (R253, R281). -/
theorem corrGone_same {s : State} (h : s.owed = []) (l : Nat) (c : Corr) (i : Ing) (v : Int) :
    Same 140737492557840 s (corrGone s l c i v) := by
  have counted : Same 140737488363536 s (bump (emit s (.cl l (corrWord c 0 v (corrDegraded c i)))) (rCL l 8)) :=
    (Same.mono (by decide) (emit_same ..)).trans (Same.mono (by decide) (bump_same ..))
  exact (counted.mono (by decide)).trans ((noteApplied_idle ((counted.get_owed rfl).trans h) i).mono (by decide))

theorem corrGone_out (s : State) (l : Nat) (c : Corr) (i : Ing) (v : Int) :
    (corrGone s l c i v).out = .cl l (corrWord c 0 v (corrDegraded c i)) :: s.out :=
  ((noteApplied_same ..).get_out rfl).trans ((bump_same ..).get_out rfl)

theorem rn_corrGone (s : State) (l : Nat) (c : Corr) (i : Ing) (v : Int) :
    rn (corrGone s l c i v) (rCL l 8) = min (rn s (rCL l 8) + 1) (2 ^ 32 - 1) :=
  (rn_congr ((noteApplied_same ..).get_regs rfl) _).trans (rn_bump_same (faultReg_rCL ..))

theorem rd_corrGone {s : State} {l k : Nat} (hk : faultReg k = false) (h : k ≠ rCL l 8) (c : Corr) (i : Ing) (v : Int) :
    rd (corrGone s l c i v) k = rd s k :=
  (rd_congr ((noteApplied_same ..).get_regs rfl) k).trans (rd_bump hk h)

/-- What no owed record leaves (R281). -/
theorem owedRun_idle {s : State} (h : s.owed = []) : owedRun s = s := by
  unfold owedRun
  rw [h]
  exact congrArg (fun o => { s with owed := o }) h.symm

theorem corrDue_of {s : State} {l tag ns : Nat} {g : Bool} {c : Corr} (h : corrOf s l tag g = some c) : corrDue s l tag g ns =
    owedRun (if s.fcol.safe then corrTaken s l c else corrSend (corrTaken s l c) l c ns) := by
  unfold corrDue
  rw [h]
  rfl

theorem exec_correction (l : LaneIx) (tag : BitVec 16) (g : Bool) (ns : Nat) (s : State) :
    exec (.correction l tag g ns) s = .next (corrDue s l tag.toNat g ns) := rfl

/-- In SAFE a correction that is due goes unsent (R258). -/
theorem correction_safe {l : LaneIx} {tag : BitVec 16} {g : Bool} {c : Corr} {s : State} (ns : Nat)
    (hc : corrOf s l tag.toNat g = some c) (safe : s.fcol.safe = true) (owed : s.owed = []) :
    ∃ t, exec (.correction l tag g ns) s = .next t ∧ (lane t l).corrs = (lane s l).corrs.erase c ∧ t = { s with lanes := t.lanes } := by
  refine ⟨_, exec_correction .., ?_⟩
  rw [corrDue_of hc, if_pos safe, owedRun_idle (s := corrTaken s l c) owed, corrTaken, lane_setLane_same]
  exact ⟨rfl, rfl⟩

/-- A latency that is within its limit and that no software write of the same cycle meets changes CORR_MAX alone (R253). -/
theorem corrTimed_within {s : State} {l ns : Nat} (hn : ns ≤ 480) (free : softWrote s 0x508008 = false) :
    corrTimed s l ns = s ∨ corrTimed s l ns = wr s 0x508008 ns := by
  unfold corrTimed
  dsimp only
  rw [if_neg (Nat.not_lt.2 hn)]
  split
  · exact .inr (hwUpdate_free free)
  · exact .inl rfl

section
variable {l : LaneIx} {tag : BitVec 16} {g : Bool} {c : Corr} {i : Ing} {o a : Int} {s : State} (ns : Nat)
  (hc : corrOf s l tag.toNat g = some c) (safe : s.fcol.safe = false) (owed : s.owed = []) (hcls : c.ev.cls ≠ 1)
  (hi : c.ing = some i) (form : corrForm (corrTaken s l c) c = (o - a, []))
include hc safe owed hcls hi form

theorem correction_sent (hl : (lane s l).cl = true) (hf : clFenced s l = false) (hp : s.corrPause = false) (hn : ns ≤ 480)
    (free : softWrote s 0x508008 = false) :
    ∃ t, exec (.correction l tag g ns) s = .next t ∧ (lane t l).corrs = (lane s l).corrs.erase c ∧
      t.out = .cl l (corrWord c 0 (o - a) (corrDegraded c i)) :: s.out ∧
      rn t (rCL l 8) = min (rn s (rCL l 8) + 1) (2 ^ 32 - 1) ∧ RegsKept s t [rCL l 8, 0x508008] ∧ MemKept s t := by
  have up : ¬ (clFenced (corrTaken s l c) l ∨ ¬ (lane (corrTaken s l c) l).cl ∨ (corrTaken s l c).corrPause) := by
    rw [corrTaken, lane_setLane_same]
    rintro (fenced | down | paused)
    · exact Bool.false_ne_true (hf.symm.trans fenced)
    · exact down hl
    · exact Bool.false_ne_true (hp.symm.trans paused)
  have same := corrGone_same (s := corrTaken s l c) owed l c i (o - a)
  have owed' : (corrGone (corrTaken s l c) l c i (o - a)).owed = [] := (same.get_owed rfl).trans owed
  have free' : softWrote (corrGone (corrTaken s l c) l c i (o - a)) 0x508008 = false := by
    rw [softWrote, same.get_cycle rfl, same.get_time rfl, same.get_cyc rfl]
    exact free
  have corrs : (lane (corrGone (corrTaken s l c) l c i (o - a)) l).corrs = (lane s l).corrs.erase c := by
    rw [lane_of_same same rfl, corrTaken, lane_setLane_same]
  have other : rCL l 8 ≠ 0x508008 := by unfold rCL; omega
  have mem : (corrGone (corrTaken s l c) l c i (o - a)).mem = s.mem := same.get_mem rfl
  refine ⟨_, exec_correction .., ?_⟩
  rw [corrDue_of hc, safe, if_neg Bool.false_ne_true, corrSend_ok form hcls hi, if_neg up]
  rcases corrTimed_within (l := l) hn free' with kept | noted
  · rw [kept, owedRun_idle owed']
    refine ⟨corrs, corrGone_out .., rn_corrGone .., fun k hk but => ?_, memKept_of_mem mem⟩
    exact rd_corrGone hk (fun e => but (e ▸ List.mem_cons_self)) ..
  · rw [noted, owedRun_idle (s := wr (corrGone (corrTaken s l c) l c i (o - a)) 0x508008 ns) owed']
    refine ⟨corrs, corrGone_out .., ?_, fun k hk but => ?_, memKept_of_mem mem⟩
    · rw [rn, rd_wr_ne _ _ other]
      exact rn_corrGone ..
    · rw [List.mem_cons, List.mem_singleton, not_or] at but
      rw [rd_wr_ne _ _ but.2]
      exact rd_corrGone hk but.1 ..

theorem correction_dropped (h : (lane s l).cl = false ∨ clFenced s l = true ∨ s.corrPause = true) :
    ∃ t, exec (.correction l tag g ns) s = .next t ∧ (lane t l).corrs = (lane s l).corrs.erase c ∧ t.out = s.out ∧
      rn t (rCL l 0x0C) = min (rn s (rCL l 0x0C) + 1) (2 ^ 32 - 1) ∧ RegsKept s t [rCL l 0x0C] ∧ MemKept s t := by
  have down : clFenced (corrTaken s l c) l ∨ ¬ (lane (corrTaken s l c) l).cl ∨ (corrTaken s l c).corrPause := by
    rw [corrTaken, lane_setLane_same, Bool.not_eq_true]
    exact or_left_comm.1 h
  have counted := bump_same (corrTaken s l c) (rCL l 0x0C) 1
  refine ⟨_, exec_correction .., ?_⟩
  rw [corrDue_of hc, safe, if_neg Bool.false_ne_true, corrSend_ok form hcls hi, if_pos down,
    owedRun_idle ((counted.get_owed rfl).trans owed), lane_of_same counted rfl, corrTaken, lane_setLane_same]
  refine ⟨rfl, counted.get_out rfl, rn_bump_same (faultReg_rCL ..), fun k hk but => ?_, memKept_of_mem (counted.get_mem rfl)⟩
  exact rd_bump hk fun e => but (List.mem_singleton.2 e)

end

/-! ## Waiting for an entry -/

/-- Whether a correction waits for the entry of a pair (R251). -/
def Corr.Waits (c : Corr) (tag : Nat) (g : Bool) : Prop := c.wait = true ∧ c.ev.tag.toNat = tag ∧ c.ev.gen = g

theorem waits_iff (c : Corr) (tag : BitVec 16) (g : Bool) :
    c.Waits tag.toNat g ↔ c.wait = true ∧ c.ev.tag = tag ∧ c.ev.gen = g := by
  rw [Corr.Waits, BitVec.toNat_inj]

/-- A list with one element more, after those that stand first for a test. -/
theorem mem_insert_after {α : Type} (p : α → Bool) (l : List α) (a q : α) :
    q ∈ l.takeWhile p ++ a :: l.dropWhile p ↔ q = a ∨ q ∈ l := by
  have whole : q ∈ l ↔ q ∈ l.takeWhile p ∨ q ∈ l.dropWhile p := by
    rw [← List.mem_append, List.takeWhile_append_dropWhile]
  rw [List.mem_append, List.mem_cons, whole]
  exact or_left_comm

/-- The corrections that wait for a pair, wherever they stand (R251). -/
theorem mem_waitingFor {s : State} {tag : Nat} {g : Bool} {q : Nat × Nat × Corr} :
    q ∈ waitingFor s tag g ↔ q.1 < 16 ∧ (lane s q.1).corrs[q.2.1]? = some q.2.2 ∧ q.2.2.Waits tag g := by
  have sorted (l acc : List (Nat × Nat × Corr)) :
      q ∈ l.foldl (fun acc a => acc.takeWhile (fun b => decide (b.2.2.arrival ≤ a.2.2.arrival)) ++
        a :: acc.dropWhile (fun b => decide (b.2.2.arrival ≤ a.2.2.arrival))) acc ↔ q ∈ l ∨ q ∈ acc := by
    induction l generalizing acc with
    | nil => simp
    | cons a l ih => rw [List.foldl_cons, ih, mem_insert_after, List.mem_cons, or_left_comm, or_assoc]
  have places (l : List Corr) : l.zip (List.range l.length) = l.zipIdx := by rw [List.range_eq_range', List.zipIdx_eq_zip_range']
  obtain ⟨l, k, c⟩ := q
  unfold waitingFor
  dsimp only
  rw [sorted, or_iff_left List.not_mem_nil, List.mem_flatMap]
  simp only [List.mem_range, places, List.mem_filterMap, Prod.exists, List.mem_zipIdx_iff_getElem?, Option.ite_none_right_eq_some,
    Option.some.injEq, Prod.mk.injEq]
  constructor
  · rintro ⟨j, hj, d, n, at_, waits, rfl, rfl, rfl⟩
    exact ⟨hj, at_, waits⟩
  · rintro ⟨hl, at_, waits⟩
    exact ⟨l, hl, c, k, at_, waits, rfl, rfl, rfl⟩

theorem lset_append_cons {α : Type} (u v : List α) (a b : α) : lset (u ++ a :: v) u.length b = u ++ b :: v := by
  induction u with
  | nil => rfl
  | cons x u ih => exact congrArg (x :: ·) ih

theorem exec_pairWaitExpiry (l : LaneIx) (tag : BitVec 16) (g : Bool) (s : State) :
    exec (.pairWaitExpiry l tag g) s = .next (if s.coreAwake then waitEnd s l tag.toNat g else s) := rfl

/-- Of two parts of a list about one element, only it is of a kind: the place of one of the kind is its place. -/
theorem getElem?_only {α : Type} {u v : List α} {a b : α} {k : Nat} {P : α → Prop} (h : (u ++ a :: v)[k]? = some b) (hb : P b)
    (only : ∀ d ∈ u ++ v, ¬ P d) : k = u.length ∧ b = a := by
  have notIn {l : List α} (hl : ∀ d ∈ l, d ∈ u ++ v) (hm : b ∈ l) : k = u.length ∧ b = a := absurd hb (only b (hl b hm))
  rcases lt_trichotomy k u.length with before | rfl | after
  · rw [List.getElem?_append_left before] at h
    exact notIn (fun _ hd => List.mem_append_left v hd) (List.mem_of_getElem? h)
  · rw [List.getElem?_append_right (Nat.le_refl _), Nat.sub_self] at h
    exact ⟨rfl, (Option.some.inj h).symm⟩
  · rw [List.getElem?_append_right after.le, List.getElem?_cons, if_neg (by omega)] at h
    exact notIn (fun _ hd => List.mem_append_right u hd) (List.mem_of_getElem? h)

theorem waitEnd_only {s : State} {l : LaneIx} {tag : Nat} {g : Bool} {c : Corr} {u v : List Corr}
    (hl : (lane s l).corrs = u ++ c :: v) (hw : c.Waits tag g) (only : ∀ d ∈ u ++ v, ¬ d.Waits tag g) :
    waitEnd s l tag g = setCorr s l u.length { c with wait := false, why := 1 } := by
  have here : (l.val, u.length, c) ∈ waitingFor s tag g := mem_waitingFor.2 ⟨l.isLt, by simp [hl], hw⟩
  have first : (waitingFor s tag g).find? (fun q => decide (q.1 = l.val)) = some (l.val, u.length, c) := by
    cases hf : (waitingFor s tag g).find? (fun q => decide (q.1 = l.val)) with
    | none => exact absurd (decide_eq_true rfl) (List.find?_eq_none.1 hf _ here)
    | some q =>
      obtain ⟨-, at_, waits⟩ := mem_waitingFor.1 (List.mem_of_find?_eq_some hf)
      have lane_ : q.1 = l.val := by simpa using List.find?_some hf
      rw [lane_, hl] at at_
      obtain ⟨place, corr⟩ := getElem?_only (P := fun d => d.Waits tag g) at_ waits only
      rw [← place, ← corr, ← lane_]
  unfold waitEnd
  rw [first]

theorem waitEnd_none {s : State} {l : LaneIx} {tag : Nat} {g : Bool} (h : ∀ d ∈ (lane s l).corrs, ¬ d.Waits tag g) :
    waitEnd s l tag g = s := by
  have none : (waitingFor s tag g).find? (fun q => decide (q.1 = l.val)) = none := by
    refine List.find?_eq_none.2 fun q hq here => ?_
    obtain ⟨-, at_, waits⟩ := mem_waitingFor.1 hq
    rw [of_decide_eq_true here] at at_
    exact h _ (List.mem_of_getElem? at_) waits
  unfold waitEnd
  rw [none]

theorem pairWait_ends {s : State} {l : LaneIx} {tag : BitVec 16} {g : Bool} {c : Corr} {u v : List Corr} (awake : s.coreAwake = true)
    (hl : (lane s l).corrs = u ++ c :: v) (hw : c.Waits tag.toNat g) (only : ∀ d ∈ u ++ v, ¬ d.Waits tag.toNat g) :
    ∃ t, exec (.pairWaitExpiry l tag g) s = .next t ∧ (lane t l).corrs = u ++ { c with wait := false, why := 1 } :: v ∧
      (∀ j, j ≠ l.val → lane t j = lane s j) ∧ t = { s with lanes := t.lanes } := by
  refine ⟨_, exec_pairWaitExpiry .., ?_⟩
  rw [if_pos awake, waitEnd_only hl hw only, setCorr, lane_setLane_same, hl, lset_append_cons]
  exact ⟨rfl, fun j hj => lane_setLane_ne _ _ _ hj, rfl⟩

/-- Settles O33: the correction's form, what sending it leaves, the one correction of its pair that waits on the lane. -/
theorem correctionIsFormedAndSent : Obligations.CorrectionIsFormedAndSent := by
  refine ⟨fun l tag g ns c i o a s hc safe owed hcls hi hv hoff hioff ho ha hb => ?_,
    fun l tag g ns c s hc safe owed => correction_safe ns hc safe owed, fun l tag g c u v s => ?_, fun l tag g s h => ?_⟩
  · have form := corrForm_ok (s := corrTaken s l c) hcls hi hv hoff hioff ho ha hb
    exact ⟨correction_sent ns hc safe owed hcls hi form, correction_dropped ns hc safe owed hcls hi form⟩
  · simp only [← waits_iff]
    exact pairWait_ends
  · simp only [← waits_iff] at h
    rw [exec_pairWaitExpiry]
    rcases h with asleep | none
    · rw [asleep, if_neg Bool.false_ne_true]
    · rw [waitEnd_none none, ite_self]

end Sys2Proof.Machine
end

section
/-!
PROOFS. O34: what PORT_CMD.RESYNC, PORT_FOD, the end of a calibration and that of a numbering do.
-/
namespace Sys2Proof.Machine
open Sys2Proof

/-! ## The previous numbering -/

theorem exec_prevNumberingExpiry (f : FodIx) (s : State) :
    exec (.prevNumberingExpiry f) s = .next (if s.coreAwake then prevDrop s f else s) := rfl

theorem prevNumbering_ends {f : FodIx} {s : State} (awake : s.coreAwake = true) (driving : (fod s f).driving = true) :
    ∃ t, exec (.prevNumberingExpiry f) s = .next t ∧ fod t f = { fod s f with prev := none } ∧
      (∀ g, g ≠ f.val → fod t g = fod s g) ∧ t = { s with fods := t.fods } := by
  refine ⟨_, exec_prevNumberingExpiry .., ?_⟩
  rw [if_pos awake, prevDrop, if_pos driving, fod_setFod_same]
  exact ⟨rfl, fun g hg => fod_setFod_ne _ _ _ hg, rfl⟩

/-! ## PORT_CMD and PORT_FOD on the bus -/

/-- What the map says of a register of port p of one word. -/
def portInfo (p off : Nat) (row : RegRow) : RegInfo := ⟨.port, p, row, 0, 0, rPORT p off⟩

/-- What the map says of PORT_CMD (R259). -/
def portCmdInfo (p : Nat) : RegInfo := portInfo p 8 { off := 0x008, wm := true, sc := 1 }

/-- What the map says of PORT_FOD (R259). -/
def portFodInfo (p : Nat) : RegInfo := portInfo p 0x0C (rW 0x00C 1 7).sn

theorem regInfo_portCmd : ∀ p : PortIx, regInfo (rPORT p 8) = some (portCmdInfo p) := by decide +kernel

theorem regInfo_portFod : ∀ p : PortIx, regInfo (rPORT p 0x0C) = some (portFodInfo p) := by decide +kernel

theorem letThrough_same (s : State) (m addr off v : Nat) (i : RegInfo) (view : Nat) :
    Same 140754668236816 s (letThrough s m addr off v i view) := by
  have forwarded : Same 140754668236816 s (forwardTaken s m addr off v i view v) := (forwardTaken_same ..).mono (by decide)
  unfold letThrough
  dsimp only
  split
  · exact Same.step (by decide) (passVoidMark_same ..) forwarded
  · exact forwarded

/-- The state in which the write of a port's register acts: it has been let through, the register is written. -/
def portPut (s : State) (m v : Nat) (i : RegInfo) : State :=
  let t := letThrough s m i.base i.base v i 0
  noteWrite (wr t i.base (clr (newVal i 0 (rn t i.base) v) (hitVal i v &&& i.row.w1c))) i.base

theorem portPut_same (s : State) (m v : Nat) (i : RegInfo) : Same 140754668237328 s (portPut s m v i) :=
  Same.step (by decide) (noteWrite_same ..) (Same.step (by decide) (wr_same ..) ((letThrough_same ..).mono (by decide)))

theorem rd_portPut_unsealed {s : State} {m v k : Nat} {i : RegInfo} (hi : i.row.slm = 0) (h : k ≠ i.base) :
    rd (portPut s m v i) k = rd s k := by
  rw [portPut, rd_noteWrite, rd_wr_ne _ _ h, letThrough, if_neg (not_not_intro hi), rd_forwardTaken]

/-- A write of a port's register that nothing posts or locks is let through, and acts (R41, R259). -/
theorem regPut_port {s : State} {v : Nat} (h : BusOpen s) (m : Master) (p : PortIx) {row : RegRow} {off : Nat}
    (hi : regInfo (rPORT p off) = some (portInfo p off row)) (hoff : off < 0x100 ∧ off % 4 = 0) (hv : v < 2 ^ 32)
    (hw : row.words = 1) (hp : row.posted = false) (hk : row.lk = 0) (hc : row.cnt = false) (hr : row.rw ||| row.w1c ||| row.sc ≠ 0) :
    ∃ old new, regPut s m (rPORT p off) v = regFx (portPut s m v (portInfo p off row)) (portInfo p off row) old new
      (hitVal (portInfo p off row) v) m (some (rPORT p off, m.val)) := by
  have place : rPORT p off % 4 = 0 ∧ rPORT p off < 2 ^ 24 := by unfold rPORT; omega
  have free (x : State) : heldBits x (portInfo p off row) = 0 := rfl
  have unlocked (x : State) : lockedBits x (portInfo p off row) = 0 := if_neg fun locked => locked.1 hk
  have run := regPut_word (m := m) h.1.1 h.1.2 hi place.1 place.2 (regInfo_inMsix hi) hv hw rfl hp (decide_eq_false hr)
    Blk.noConfusion (coreTouch_awake h.2) (unlocked _) (by rw [free, Nat.zero_and])
  rw [applyVal_one hw rfl hc] at run
  exact ⟨_, _, run⟩

/-! ## RESYNC -/

theorem portFod_congr {s t : State} {p : Nat} (h : rd t (rPORT p 0x0C) = rd s (rPORT p 0x0C)) : portFod t p = portFod s p :=
  rb_congr h 0 7

theorem regFx_resync (s : State) (p old new m : Nat) (cz : Cause) : regFx s (portCmdInfo p) old new 1 m cz = resyncPort s p := by
  have run : regFx s (portCmdInfo p) old new 1 m cz = if Nat.testBit 1 0 then resyncPort s p else s := rfl
  rw [run, if_pos (by decide)]

theorem exec_resync {s : State} (h : BusOpen s) (m : Master) (p : PortIx) (k : CycIx) :
    exec (.resync m p k) s = .next (resyncPort (portPut (atCyc s k) m 0x10001 (portCmdInfo p)) p) := by
  have open_ : BusOpen (atCyc s k) := h
  have hit : ∀ p : PortIx, hitVal (portCmdInfo p) 0x10001 = 1 := by decide
  obtain ⟨old, new, run⟩ := regPut_port (v := 0x10001) open_ m p (regInfo_portCmd p) (by decide) (by decide) rfl rfl rfl rfl (by decide)
  rw [← portCmdInfo, hit, regFx_resync] at run
  exact congrArg Host.Outcome.next run

/-- COUNT_LOST and the run of unresolved beacons of a port end (R242). -/
def countFound (s : State) (p : Nat) : State := setPort (clrBits s (rPORT p 4) 0x10) p { port s p with run := 0 }

theorem rbit_countFound (s : State) (p : Nat) : rbit (countFound s p) (rPORT p 4) 4 = false := by
  have bit : Nat.testBit 0x10 4 = true := by decide
  have cleared := rbit_clrBits_same s (rPORT p 4) 0x10 4
  rwa [bit, Bool.not_true, Bool.and_false] at cleared

theorem resyncPort_eq (s : State) (p : Nat) : resyncPort s p =
    if (fod s (portFod s p)).driving then setFod (countFound s p) (portFod s p) { fod s (portFod s p) with cycleDrv := true }
    else countFound s p := rfl

/-- What RESYNC leaves is what the end of COUNT_LOST leaves, but for the output's driver. -/
theorem resyncPort_keeps {β : Type} {g : State → β} (s : State) (p : Nat) (h : ∀ x n y, g (setFod x n y) = g x) :
    g (resyncPort s p) = g (countFound s p) := by
  rw [resyncPort_eq]
  split
  · exact h ..
  · rfl

theorem fod_resyncPort {s : State} {p : Nat} (h : (fod s (portFod s p)).driving = true) :
    fod (resyncPort s p) (portFod s p) = { fod s (portFod s p) with cycleDrv := true } := by
  rw [resyncPort_eq, if_pos h, fod_setFod_same]

theorem resync_acts {s : State} (h : BusOpen s) (m : Master) (p : PortIx) (k : CycIx) :
    ∃ t, exec (.resync m p k) s = .next t ∧ rbit t (rPORT p 4) 4 = false ∧ port t p = { port s p with run := 0 } ∧
      ((fod s (portFod s p)).driving = true → fod t (portFod s p) = { fod s (portFod s p) with cycleDrv := true }) ∧
      RegsKept s t [rPORT p 4, rPORT p 8] ∧ MemKept s t := by
  refine ⟨_, exec_resync h m p k, ?_⟩
  have same := portPut_same (atCyc s k) m 0x10001 (portCmdInfo p)
  have fods := fod_congr (same.get_fods rfl)
  have ports : port (portPut (atCyc s k) m 0x10001 (portCmdInfo p)) p = port s p := port_congr (same.get_ports rfl) p
  have others {o : Nat} (h8 : o ≠ rPORT p 8) : rd (portPut (atCyc s k) m 0x10001 (portCmdInfo p)) o = rd s o :=
    rd_portPut_unsealed rfl h8
  have number := portFod_congr (others (rPORT_ne p (b := 8) (by decide)))
  have mem : (portPut (atCyc s k) m 0x10001 (portCmdInfo p)).mem = s.mem := same.get_mem rfl
  generalize portPut (atCyc s k) m 0x10001 (portCmdInfo p) = x at *
  have regs (o : Nat) : rd (resyncPort x p) o = rd (countFound x p) o :=
    resyncPort_keeps (g := fun x => rd x o) x p fun _ _ _ => rfl
  have port_ : port (resyncPort x p) p = port (countFound x p) p := resyncPort_keeps (g := fun x => port x p) x p fun _ _ _ => rfl
  refine ⟨?_, ?_, fun driving => ?_, fun o ho but => ?_, memKept_of_mem ?_⟩
  · exact (rbit_congr (regs (rPORT p 4)) 4).trans (rbit_countFound ..)
  · rw [port_, countFound, port_setPort_same, ports]
  · have runs := fod_resyncPort (s := x) (p := p)
    rw [number, fods] at runs
    exact runs driving
  · rw [List.mem_cons, List.mem_singleton, not_or] at but
    exact (regs o).trans ((rd_clrBits_ne _ _ but.1).trans (others but.2))
  · exact (resyncPort_keeps (g := State.mem) x p fun _ _ _ => rfl).trans mem

/-! ## PORT_FOD -/

theorem regFx_portFod (s : State) (p old new hit m : Nat) (cz : Cause) :
    regFx s (portFodInfo p) old new hit m cz = portFodSet s p := rfl

/-- The word that names output f, with the mask of its seven bits (R39). -/
def fodWord (f : FodIx) : Nat := 0x7F * 65536 + f % 65536

theorem exec_portFodWrite {s : State} (h : BusOpen s) (m : Master) (p : PortIx) (f : FodIx) (k : CycIx) :
    exec (.portFodWrite m p f k) s = .next (portFodSet (portPut (atCyc s k) m (fodWord f) (portFodInfo p)) p) := by
  have open_ : BusOpen (atCyc s k) := h
  have small : fodWord f < 2 ^ 32 := by unfold fodWord; omega
  obtain ⟨old, new, run⟩ := regPut_port (v := fodWord f) open_ m p (regInfo_portFod p) (by decide) small rfl rfl rfl rfl (by decide)
  rw [← portFodInfo, regFx_portFod] at run
  exact congrArg Host.Outcome.next run

/-- The value that PORT_FOD takes of the word, whatever it held: its bits from 7 on and f (R39). -/
theorem newVal_fodWord (p old : Nat) (f : FodIx) : newVal (portFodInfo p) 0 old (fodWord f) = clr old 0x7F ||| f := by
  have taken : ∀ f : FodIx, wmMask (portFodInfo 0) (fodWord f) &&& (portFodInfo 0).row.rw = 0x7F ∧ fodWord f &&& 0x7F = f := by decide
  have mask : wmMask (portFodInfo p) (fodWord f) &&& (portFodInfo p).row.rw = 0x7F := (taken f).1
  rw [newVal_wm rfl, mask, (taken f).2]

/-- PORT_FOD after the write names the output, whatever it named (R242). -/
theorem portFod_portPut (s : State) (m p : Nat) (f : FodIx) : portFod (portPut s m (fodWord f) (portFodInfo p)) p = f := by
  have named (old : Nat) : bits (clr (clr old 0x7F ||| f) 0 % 2 ^ 32) 0 7 = f := by
    refine Nat.eq_of_testBit_eq fun b => ?_
    have cleared : Nat.testBit 0x7F b = decide (b < 7) := Nat.testBit_two_pow_sub_one 7 b
    rw [bits_testBit, Nat.zero_add, Nat.testBit_mod_two_pow, clr_testBit, Nat.testBit_or, clr_testBit, cleared, Nat.zero_testBit]
    by_cases hb : b < 7
    · have inWord : b < 32 := by omega
      simp [hb, inWord]
    · have above : f.val.testBit b = false :=
        Nat.testBit_lt_two_pow (f.isLt.trans_le (Nat.pow_le_pow_right (n := 2) (i := 7) (by decide) (Nat.le_of_not_lt hb)))
      rw [decide_eq_false hb, Bool.false_and, above]
  have w1c (v : Nat) : hitVal (portFodInfo p) v &&& (portFodInfo p).row.w1c = 0 := Nat.and_zero _
  have base : (portFodInfo p).base = rPORT p 0x0C := rfl
  rw [portFod, rb, portPut, base, rn, rd_noteWrite, ← rn, rn_wr_same, newVal_fodWord, w1c]
  exact named _

/-- SLOW of the ports changes no other register but their status (R224). -/
theorem rd_slowJudge {s : State} {k : Nat} (hk : faultReg k = false) (h : ∀ p < 128, k ≠ rPORT p 4) (n : Nat) (t : Rat) :
    rd (slowJudge s n t) k = rd s k := by
  refine slowJudge_keeps (g := fun x => rd x k) rfl fun x p hp => ?_
  unfold slowMark
  dsimp only
  split
  · rw [raiseAt, rd_fileReport (show srcEl (p / 8) < 0x1000 by unfold srcEl; omega) hk, rd_orBits_ne _ _ (h p hp)]
  · split
    · exact rd_clrBits_ne _ _ (h p hp)
    · rfl

theorem slowMark_same (slow : Bool) (t : Rat) (s : State) (p : Nat) : Same 8208 s (slowMark slow t s p) := by
  unfold slowMark
  dsimp only
  split
  · exact Same.step (by decide) (raiseAt_same ..) ((orBits_same ..).mono (by decide))
  · split
    · exact (clrBits_same ..).mono (by decide)
    · exact Same.refl ..

/-- A judgement of SLOW ends the output's pending one (R224). -/
theorem fod_slowJudge (s : State) (n : Nat) (t : Rat) (g : Nat) :
    fod (slowJudge s n t) g = fod (setFod s n { fod s n with slowDue := none }) g := by
  rw [slowJudge_eq]
  exact foldl_kept (g := fun x => fod x g) (fun x p => fod_congr ((slowMark_same _ _ x p).get_fods rfl) g) _ _

/-- What a write of PORT_FOD sets of COUNT_LOST and SLOW (R224, R242). -/
theorem portFodSet_loaded {s : State} (h : s.nvsLoaded = true) (p : Nat) :
    portFodSet s p = slowJudge (orBits s (rPORT p 4) 0x10) (portFod s p) (nowR s) := if_pos h

theorem portFodWrite_acts {s : State} (h : BusOpen s) (m : Master) (p : PortIx) (f : FodIx) (k : CycIx) :
    ∃ t, exec (.portFodWrite m p f k) s = .next t ∧ portFod t p = f.val ∧ rbit t (rPORT p 4) 4 = true ∧
      fod t f = { fod s f with slowDue := none } ∧ (∀ g, g ≠ f.val → fod t g = fod s g) ∧ MemKept s t := by
  refine ⟨_, exec_portFodWrite h m p f k, ?_⟩
  have same := portPut_same (atCyc s k) m (fodWord f) (portFodInfo p)
  have number := portFod_portPut (atCyc s k) m p f
  have mem : (portPut (atCyc s k) m (fodWord f) (portFodInfo p)).mem = s.mem := same.get_mem rfl
  have fods (g : Nat) : fod (portPut (atCyc s k) m (fodWord f) (portFodInfo p)) g = fod s g := fod_congr (same.get_fods rfl) g
  rw [portFodSet_loaded ((same.get_nvsLoaded rfl).trans h.1.1), number]
  generalize portPut (atCyc s k) m (fodWord f) (portFodInfo p) = x at *
  have lost : rbit (orBits x (rPORT p 4) 0x10) (rPORT p 4) 4 = true := by
    have bit : Nat.testBit 0x10 4 = true := by decide
    rw [rbit_orBits_same _ _ _ _ (by decide), bit, Bool.or_true]
  have named : rd (slowJudge (orBits x (rPORT p 4) 0x10) f (nowR x)) (rPORT p 0x0C) = rd x (rPORT p 0x0C) := by
    rw [rd_slowJudge (faultReg_rPORT ..) fun q _ e => absurd (rPORT_inj (by decide) (by decide) e).2 (by decide),
      rd_orBits_ne _ _ (rPORT_ne p (by decide))]
  refine ⟨(portFod_congr named).trans number, ?_, ?_, fun g hg => ?_, memKept_of_mem ?_⟩
  · rw [rbit_slowJudge (by decide) (faultReg_rPORT ..), lost]
  · rw [fod_slowJudge, fod_setFod_same, ← fods]
    rfl
  · rw [fod_slowJudge, fod_setFod_ne _ _ _ hg, ← fods]
    rfl
  · exact ((slowJudge_same ..).get_mem rfl).trans mem

/-! ## The end of a calibration -/

/-- Where no port waits for its lane, none takes its turn (R389). -/
theorem laneTurns_idle {s : State} (h : ∀ q ∈ s.cal.turns, q < 128) (l : Nat) : laneTurns s l = s := by
  have none : ((List.range 8).map (fun i => 8 * l + i)).find? (fun p => s.cal.turns.contains (p + 128)) = none := by
    refine List.find?_eq_none.2 fun p _ waits => ?_
    exact absurd (h _ (List.contains_iff_mem.1 waits)) (by omega)
  refine upto_fixed fun _ _ => ?_
  unfold turnTake
  rw [none]
  exact ite_self _

theorem exec_calStopTimeout (p : PortIx) (k : CycIx) (s : State) : exec (.calStopTimeout p k) s =
    .next (laneTurns (calFinish (atCyc s k) p) (p / 8)) := rfl

/-- CALIBRATING of a port has ended and its STOP has been sent (R244, R245). -/
def calStopped (s : State) (p : Nat) : State := calReq (clrBits s (rPORT p 4) 8) p false 0

/-- A port's calibration has ended with a verdict and, where it is known, a mean (R246). -/
def calJudged (s : State) (p : Nat) (ok : Bool) (l : Option Int) (stored : Bool) : State :=
  setPort (calStopped s p) p { port s p with cal := none, calDone := some (ok, l), stored := stored }

/-- A calibration that is rejected (R246). -/
def calRejected (s : State) (p : Nat) : State :=
  raise (orBits (calJudged s p false none (port s p).stored) (rPORT p 4) 0x400) (srcEl (p / 8)) kCalImplausible p

/-- The values and the time of a calibration that is accepted stand in the port's registers (R243, R246). -/
def calStored (s : State) (p : Nat) (q : Rat) : State :=
  let sp := rb s (rPORT p 0x2C) 0 9
  let sp : Rat := ((if 256 < sp then 256 else sp : Nat) : Rat)
  let s := wM s (rPORT p 0x40) 2 (tw 32 (rfloor (q * sp / 256) + s32 s (rPORT p 0x1C)))
  let s := wM s (rPORT p 0x48) 2 (tw 32 (rfloor (q * (256 - sp) / 256) + s32 s (rPORT p 0x24)))
  let s := wM s (rPORT p 0x50) 2 (tw 32 (rfloor q))
  let t := readT s
  wM (wM (wM s (rPORT p 0xA0) 1 (tFrac t)) (rPORT p 0xA4) 2 (tNs t)) (rPORT p 0xAC) 3 (tSec t)

/-- The port's status after an accepted calibration: CALIBRATED set, DEFERRED clear (R244). -/
def calAccepted (s : State) (p : Nat) : State := wb (wb s (rPORT p 4) 1 1 1) (rPORT p 4) 2 1 0

/-- A calibration of mean q that is accepted (R246). -/
def calPassed (s : State) (p : Nat) (q : Rat) : State :=
  calAccepted (calStored (calJudged s p true (some (rfloor q)) true) p q) p

theorem rd_calStopped {s : State} {p k : Nat} (h : k ≠ rPORT p 4) : rd (calStopped s p) k = rd s k :=
  (rd_congr ((calReq_same ..).get_regs rfl) k).trans (rd_clrBits_ne _ _ h)

theorem rbit_calStopped (s : State) (p : Nat) : rbit (calStopped s p) (rPORT p 4) 3 = false := by
  have bit : Nat.testBit 8 3 = true := by decide
  rw [calStopped, rbit_congr (rd_congr ((calReq_same ..).get_regs rfl) _), rbit_clrBits_same, bit, Bool.not_true, Bool.and_false]

theorem calFinish_rejects {s : State} {p : Nat} {c : PortCal} (hc : (port s p).cal = some c) (hm : calMean c = none) :
    calFinish s p = calRejected s p := by
  unfold calFinish
  dsimp only
  rw [hc]
  dsimp only
  rw [hm]
  rfl

/-- A mean within the limit of the expected one (R246). -/
def calPlausible (s : State) (p : Nat) (q : Rat) : Prop :=
  (rM s (rPORT p 0x30) 2 : Rat) - (rM s (rPORT p 0x38) 2 : Rat) ≤ q ∧ q ≤ (rM s (rPORT p 0x30) 2 : Rat) + (rM s (rPORT p 0x38) 2 : Rat)

theorem calFinish_accepts {s : State} {p : Nat} {c : PortCal} {q : Rat} (hc : (port s p).cal = some c) (hm : calMean c = some q)
    (hq : calPlausible s p q) :
    calFinish s p = calPassed s p q := by
  obtain ⟨low, high⟩ := hq
  have word (o : Nat) (ho : 4 < o) : rM (calStopped s p) (rPORT p o) 2 = rM s (rPORT p o) 2 :=
    rM_congr fun k lo _ => rd_calStopped (by unfold rPORT at *; omega)
  have within : ¬ (rM (calStopped s p) (rPORT p 0x38) 2 : Rat) <
      (if q - (rM (calStopped s p) (rPORT p 0x30) 2 : Rat) < 0 then -(q - (rM (calStopped s p) (rPORT p 0x30) 2 : Rat))
        else q - (rM (calStopped s p) (rPORT p 0x30) 2 : Rat)) := by
    rw [word 0x38 (by decide), word 0x30 (by decide)]
    split <;> linarith
  unfold calFinish
  dsimp only
  rw [hc]
  dsimp only
  rw [hm]
  exact if_neg within

/-- The status and the configuration of a port lie below what a calibration stores. -/
theorem rd_calStored {s : State} {p k : Nat} (h : k < rPORT p 0x40) (q : Rat) : rd (calStored s p q) k = rd s k := by
  have below {o : Nat} (ho : 0x40 ≤ o) : k < rPORT p o := by unfold rPORT at *; omega
  unfold calStored
  dsimp only
  rw [rd_wM (.inl (below (by decide))), rd_wM (.inl (below (by decide))), rd_wM (.inl (below (by decide))),
    rd_wM (.inl (below (by decide))), rd_wM (.inl (below (by decide))), rd_wM (.inl (below (by decide)))]

theorem rM_calStored (s : State) (p : Nat) (q : Rat) : rM (calStored s p q) (rPORT p 0x50) 2 = tw 32 (rfloor q) := by
  have after (x : State) {o n v : Nat} (ho : 0x58 ≤ o) : rM (wM x (rPORT p o) n v) (rPORT p 0x50) 2 = rM x (rPORT p 0x50) 2 :=
    rM_congr fun k _ hi => rd_wM (.inl (by unfold rPORT at *; omega))
  unfold calStored
  dsimp only
  rw [after _ (by decide), after _ (by decide), after _ (by decide), rM_wM_two _ _ (tw_lt ..)]

theorem rd_calAccepted {s : State} {p k : Nat} (h : k ≠ rPORT p 4) : rd (calAccepted s p) k = rd s k :=
  (rd_wb_ne _ _ _ _ h).trans (rd_wb_ne _ _ _ _ h)

theorem rbit_calAccepted (s : State) (p : Nat) :
    rbit (calAccepted s p) (rPORT p 4) 1 = true ∧ rbit (calAccepted s p) (rPORT p 4) 3 = rbit s (rPORT p 4) 3 := by
  have other (x : State) {b lo : Nat} (h : lo + 1 ≤ 32) (hb : b ≠ lo) (v : Nat) :
      rbit (wb x (rPORT p 4) lo 1 v) (rPORT p 4) b = rbit x (rPORT p 4) b := rbit_wb_ne _ _ _ _ _ _ h (by omega)
  have set : rbit (wb s (rPORT p 4) 1 1 1) (rPORT p 4) 1 = true := by
    rw [rbit, rn_wb_same _ _ _ _ _ (by decide), setBits_testBit]
    rfl
  unfold calAccepted
  rw [other _ (by decide) (by decide), set, other _ (by decide) (by decide), other _ (by decide) (by decide)]
  exact ⟨rfl, rfl⟩

theorem port_calJudged (s : State) (p : Nat) (ok : Bool) (l : Option Int) (stored : Bool) :
    port (calJudged s p ok l stored) p = { port s p with cal := none, calDone := some (ok, l), stored := stored } :=
  port_setPort_same ..

theorem calJudged_same (s : State) (p : Nat) (ok : Bool) (l : Option Int) (stored : Bool) :
    Same 140737490452496 s (calJudged s p ok l stored) :=
  Same.step (by decide) (setPort_same ..) (Same.step (by decide) (calReq_same ..) ((clrBits_same ..).mono (by decide)))

theorem calRejected_same (s : State) (p : Nat) : Same 140737490460688 s (calRejected s p) :=
  Same.step (by decide) (raise_same ..) (Same.step (by decide) (orBits_same ..) ((calJudged_same ..).mono (by decide)))

/-- The report of a rejected calibration leaves what is no register of the collector. -/
theorem rd_calReported {s : State} {p k : Nat} (hp : p < 128) (hk : faultReg k = false) : rd (calRejected s p) k =
    rd (orBits (calJudged s p false none (port s p).stored) (rPORT p 4) 0x400) k := rd_raise (by unfold srcEl; omega) hk

theorem rd_calRejected {s : State} {p k : Nat} (hp : p < 128) (hk : faultReg k = false) (h : k ≠ rPORT p 4) :
    rd (calRejected s p) k = rd s k := by
  rw [rd_calReported hp hk, rd_orBits_ne _ _ h, calJudged, rd_setPort, rd_calStopped h]

theorem rbit_calRejected (s : State) {p : Nat} (hp : p < 128) :
    rbit (calRejected s p) (rPORT p 4) 10 = true ∧ rbit (calRejected s p) (rPORT p 4) 3 = false := by
  have bits : Nat.testBit 0x400 10 = true ∧ Nat.testBit 0x400 3 = false := by decide
  have shown (b : Nat) := rbit_congr (rd_calReported (s := s) hp (faultReg_rPORT p 4)) b
  have ended : rbit (calJudged s p false none (port s p).stored) (rPORT p 4) 3 = false := rbit_calStopped s p
  rw [shown, shown, rbit_orBits_same _ _ _ _ (by decide), rbit_orBits_same _ _ _ _ (by decide), bits.1, bits.2, ended]
  exact ⟨Bool.or_true _, rfl⟩

theorem calStored_same (s : State) (p : Nat) (q : Rat) : Same 16 s (calStored s p q) :=
  (wM_same ..).trans ((wM_same ..).trans ((wM_same ..).trans ((wM_same ..).trans ((wM_same ..).trans (wM_same ..)))))

theorem calAccepted_same (s : State) (p : Nat) : Same 16 s (calAccepted s p) := (wb_same ..).trans (wb_same ..)

theorem calPassed_same (s : State) (p : Nat) (q : Rat) : Same 140737490452496 s (calPassed s p q) :=
  Same.step (by decide) (calAccepted_same ..) (Same.step (by decide) (calStored_same ..) (calJudged_same ..))

theorem rbit_calPassed (s : State) (p : Nat) (q : Rat) :
    rbit (calPassed s p q) (rPORT p 4) 1 = true ∧ rbit (calPassed s p q) (rPORT p 4) 3 = false := by
  obtain ⟨calibrated, kept⟩ := rbit_calAccepted (calStored (calJudged s p true (some (rfloor q)) true) p q) p
  refine ⟨calibrated, kept.trans ?_⟩
  rw [rbit_congr (rd_calStored (by unfold rPORT; omega) q)]
  exact rbit_calStopped s p

theorem rM_calPassed (s : State) (p : Nat) (q : Rat) : rM (calPassed s p q) (rPORT p 0x50) 2 = tw 32 (rfloor q) := by
  rw [calPassed, rM_congr fun k lo _ => rd_calAccepted (k := k) (by unfold rPORT at *; omega)]
  exact rM_calStored ..

section
variable {p : PortIx} {c : PortCal} {s : State} (k : CycIx) (hc : (port s p).cal = some c) (turns : ∀ q ∈ s.cal.turns, q < 128)
include hc turns

theorem calStop_rejects (hm : calMean c = none) :
    ∃ t, exec (.calStopTimeout p k) s = .next t ∧ (port t p).cal = none ∧ (port t p).calDone = some (false, none) ∧
      rbit t (rPORT p 4) 10 = true ∧ rbit t (rPORT p 4) 3 = false ∧ RegsKept s t [rPORT p 4] ∧ MemKept s t := by
  have same := calRejected_same (atCyc s k) p
  have shown : port (calRejected (atCyc s k) p) p = { port s p with cal := none, calDone := some (false, none) } :=
    (port_congr ((raise_same ..).get_ports rfl) p).trans (port_calJudged ..)
  obtain ⟨rejected, ended⟩ := rbit_calRejected (atCyc s k) p.isLt
  refine ⟨_, exec_calStopTimeout .., ?_⟩
  rw [calFinish_rejects (s := atCyc s k) hc hm, laneTurns_idle (by rw [same.get_cal rfl]; exact turns), shown]
  exact ⟨rfl, rfl, rejected, ended, fun o ho but => rd_calRejected p.isLt ho fun e => but (List.mem_singleton.2 e),
    memKept_of_mem (same.get_mem rfl)⟩

theorem calStop_accepts {q : Rat} (hm : calMean c = some q) (hq : calPlausible s p q) :
    ∃ t, exec (.calStopTimeout p k) s = .next t ∧ (port t p).cal = none ∧ (port t p).calDone = some (true, some (rfloor q)) ∧
      rM t (rPORT p 0x50) 2 = tw 32 (rfloor q) ∧ rbit t (rPORT p 4) 1 = true ∧ rbit t (rPORT p 4) 3 = false ∧ MemKept s t := by
  have same := calPassed_same (atCyc s k) p q
  have shown : port (calPassed (atCyc s k) p q) p =
      { port s p with cal := none, calDone := some (true, some (rfloor q)), stored := true } :=
    (port_congr ((calAccepted_same ..).get_ports rfl) p).trans
      ((port_congr ((calStored_same ..).get_ports rfl) p).trans (port_calJudged ..))
  obtain ⟨calibrated, ended⟩ := rbit_calPassed (atCyc s k) p q
  refine ⟨_, exec_calStopTimeout .., ?_⟩
  rw [calFinish_accepts (s := atCyc s k) hc hm hq, laneTurns_idle (by rw [same.get_cal rfl]; exact turns), shown]
  exact ⟨rfl, rfl, rM_calPassed .., calibrated, ended, memKept_of_mem (same.get_mem rfl)⟩

end

/-- Settles O34: what the bus writes of PORT_CMD and PORT_FOD and the two verdicts on a calibration leave. -/
theorem portCommandsAndCalibration : Obligations.PortCommandsAndCalibration :=
  ⟨fun _ _ awake driving => prevNumbering_ends awake driving, fun m p k _ h => resync_acts h m p k,
    fun m p f k _ h => portFodWrite_acts h m p f k, fun _ k _ _ hc turns hm => calStop_rejects k hc turns hm,
    fun _ k _ _ _ hc turns hm low high => calStop_accepts k hc turns hm ⟨low, high⟩⟩

end Sys2Proof.Machine
end

section
/-!
PROOFS. O37: the refutation, by free-running counts of a ring beyond their 32 bits.
-/
namespace Sys2Proof.Machine
open Sys2Proof

/-- A module in RUN whose RING2 holds one record, its free-running counts standing at 2^33 and 2^33 + 1. It is an ill-formed state:
RING_WR and RING_RD have 32 bits (R275, R290). -/
def strayPointers : State :=
  { State.reset with
    nvsLoaded := true, regs := [(rPWR 4, 6)], mem := [(0x80 * 0x2000, 1)]
    rings := [(2, { ringInit with rd := 2 ^ 33, wr := 2 ^ 33 + 1, admitted := 1, inFlight := 1 })] }

theorem busOpen_strayPointers : BusOpen strayPointers := ⟨⟨rfl, rfl⟩, by decide⟩

/-- RING_RD takes what is written into its low 32 bits alone, and so passes the record. -/
theorem ringRdWrite_strayPointers :
    ∃ t, exec (.ringRdWrite 1 2 1) strayPointers = .next t ∧ (ring t (2 : RingIx).val).delivered = 1 :=
  ⟨regPut strayPointers 1 (rRING 2 0x0C) 1, rfl, by decide +kernel⟩

/-- Refutes O37 in its clause on a write of RING_RD within the fill: the statement is over every state and does not ask that a ring's
counts be of 32 bits. Where RING_RD stands at 2^33, the statement's distance from it to the count 1 is 0, so that nothing
is delivered; the write moves the pointer from 2^33 to 2^33 + 1 (R285) and delivers one record. -/
theorem not_ringCommandsActOnTheirRing : ¬ Obligations.RingCommandsActOnTheirRing := by
  rintro ⟨-, -, moves, -⟩
  obtain ⟨t, ht, -, -, delivered, -⟩ := (moves 1 2 1 0 strayPointers busOpen_strayPointers rfl).1 (Nat.zero_le _)
  obtain ⟨t', ht', one⟩ := ringRdWrite_strayPointers
  obtain rfl : t = t' := Host.Outcome.next.inj (ht.symm.trans ht')
  rw [one] at delivered
  exact absurd delivered (by decide +kernel)

end Sys2Proof.Machine
end

section
/-!
PROOFS. R284's identity of a ring, as a property of the state, and the operations that leave every ring as it is. The
lemmas about operations are equivalences, which simp carries through any nesting of operations without a side condition.
-/
namespace Sys2Proof.Machine
open Sys2Proof

/-- Ring ix keeps R284's identity in a state whose rings are those listed. -/
def BalancedIn (ix : Nat) (rings : List (Nat × RingSt)) : Prop := ringConserved (mget (fun _ => ringInit) rings ix)

/-- Ring ix keeps R284's identity. -/
def Balanced (ix : Nat) (s : State) : Prop := BalancedIn ix s.rings

theorem balanced_iff {ix : Nat} {s : State} : Balanced ix s ↔ ringConserved (ring s ix) := Iff.rfl

@[simp] theorem balancedIn_rings {ix : Nat} {s : State} : BalancedIn ix s.rings ↔ Balanced ix s := Iff.rfl

@[simp] theorem balancedIn_nil {ix : Nat} : BalancedIn ix [] := rfl

/-- An update of other fields leaves the rings. -/
@[simp] theorem balanced_mk {ix : Nat} : ∀ {a0 a1 a2 a3 a4 a5 a6 a7 a8 a9 a10 a11 a12 a13 a14 a15 a16 a17 a18 a19 a20 a21 a22 a23 a24
      a25 rings a27 a28 a29 a30 a31 a32 a33 a34 a35 a36 a37 a38 a39 a40 a41 a42 a43 a44 a45 a46 a47},
    Balanced ix ⟨a0, a1, a2, a3, a4, a5, a6, a7, a8, a9, a10, a11, a12, a13, a14, a15, a16, a17, a18, a19, a20, a21, a22, a23, a24,
      a25, rings, a27, a28, a29, a30, a31, a32, a33, a34, a35, a36, a37, a38, a39, a40, a41, a42, a43, a44, a45, a46, a47⟩ ↔
      BalancedIn ix rings := Iff.rfl

theorem balanced_congr {ix : Nat} {s t : State} (h : t.rings = s.rings) : Balanced ix t ↔ Balanced ix s := by rw [Balanced, h, Balanced]

/-- What leaves the rings leaves what they balance. -/
theorem Same.balanced {ix M : Nat} {s t : State} (h : Same M s t) (e : M.testBit 26 = false) : Balanced ix t ↔ Balanced ix s :=
  balanced_congr (h.get_rings e)

/-- A ring that is written with counts which balance where its own did keeps its balance, as every other does. -/
theorem balanced_setRing_iff {ix m : Nat} {x : RingSt} {s : State} (h : ringConserved x ↔ ringConserved (ring s m)) :
    Balanced ix (setRing s m x) ↔ Balanced ix s := by
  rw [balanced_iff, balanced_iff, ring_setRing]
  split
  next e => rw [h, e]
  next => rfl

@[simp] theorem balanced_ite {ix : Nat} {c : Prop} [Decidable c] {s t : State} :
    Balanced ix (if c then s else t) ↔ if c then Balanced ix s else Balanced ix t := by
  split <;> rfl

/-- Steps that each keep a ring's balance keep it together. -/
theorem foldl_balanced {α : Type} {ix : Nat} {f : State → α → State} (h : ∀ x a, Balanced ix (f x a) ↔ Balanced ix x)
    {l : List α} {s : State} : Balanced ix (l.foldl f s) ↔ Balanced ix s := by
  induction l generalizing s with
  | nil => rfl
  | cons a l ih => exact ih.trans (h s a)

theorem upto_balanced {ix k : Nat} {f : State → Nat → State} (h : ∀ x a, Balanced ix (f x a) ↔ Balanced ix x) {s : State} :
    Balanced ix (upto k f s) ↔ Balanced ix s := foldl_balanced h

variable {ix : Nat} {s : State}

@[simp] theorem balanced_aonAfter : Balanced ix (aonAfter s) ↔ Balanced ix s := (aonAfter_same ..).balanced rfl
@[simp] theorem balanced_aonDomains : Balanced ix (aonDomains s) ↔ Balanced ix s := (aonDomains_same ..).balanced rfl
@[simp] theorem balanced_aonInterp {slip : Bool} : Balanced ix (aonInterp s slip) ↔ Balanced ix s := (aonInterp_same ..).balanced rfl
@[simp] theorem balanced_aonRate {facts : List (Nat × Rat)} :
    Balanced ix (aonRate s facts) ↔ Balanced ix s := (aonRate_same ..).balanced rfl
@[simp] theorem balanced_aonTick : Balanced ix (aonTick s) ↔ Balanced ix s := (aonTick_same ..).balanced rfl
@[simp] theorem balanced_aonWords : Balanced ix (aonWords s) ↔ Balanced ix s := (aonWords_same ..).balanced rfl
@[simp] theorem balanced_atCyc {k : CycIx} : Balanced ix (atCyc s k) ↔ Balanced ix s := (atCyc_same ..).balanced rfl
@[simp] theorem balanced_badBlk {l : Nat} : Balanced ix (badBlk s l) ↔ Balanced ix s := (badBlk_same ..).balanced rfl
@[simp] theorem balanced_beaconTurn {p : Nat} {fall : Bool} :
    Balanced ix (beaconTurn s p fall) ↔ Balanced ix s := (beaconTurn_same ..).balanced rfl
@[simp] theorem balanced_bpDone {n : Nat} : Balanced ix (bpDone s n) ↔ Balanced ix s := (bpDone_same ..).balanced rfl
@[simp] theorem balanced_bump {off n : Nat} : Balanced ix (bump s off n) ↔ Balanced ix s := (bump_same s off n).balanced rfl
@[simp] theorem balanced_bumpM {off n : Nat} : Balanced ix (bumpM s off n) ↔ Balanced ix s := (bumpM_same s off n).balanced rfl
@[simp] theorem balanced_bumpRejected {b : Blk} {inst : Nat} :
    Balanced ix (bumpRejected s b inst) ↔ Balanced ix s := (bumpRejected_same ..).balanced rfl
@[simp] theorem balanced_busFault {kind off m : Nat} :
    Balanced ix (busFault s kind off m) ↔ Balanced ix s := (busFault_same ..).balanced rfl
@[simp] theorem balanced_calAbort : Balanced ix (calAbort s) ↔ Balanced ix s := (calAbort_same ..).balanced rfl
@[simp] theorem balanced_calDropRun : Balanced ix (calDropRun s) ↔ Balanced ix s := (calDropRun_same ..).balanced rfl
@[simp] theorem balanced_calEvent {p : Nat} {e : EventMsg} {raw : Option Rat} :
    Balanced ix (calEvent s p e raw) ↔ Balanced ix s := (calEvent_same ..).balanced rfl
@[simp] theorem balanced_calLose : Balanced ix (calLose s) ↔ Balanced ix s := (calLose_same ..).balanced rfl
@[simp] theorem balanced_calReq {p : Nat} {start : Bool} {base : Nat} :
    Balanced ix (calReq s p start base) ↔ Balanced ix s := (calReq_same ..).balanced rfl
@[simp] theorem balanced_calStart {p : Nat} : Balanced ix (calStart s p) ↔ Balanced ix s := (calStart_same ..).balanced rfl
@[simp] theorem balanced_claimAtOnce : Balanced ix (claimAtOnce s) ↔ Balanced ix s := (claimAtOnce_same ..).balanced rfl
@[simp] theorem balanced_claimRole : Balanced ix (claimRole s) ↔ Balanced ix s := (claimRole_same ..).balanced rfl
@[simp] theorem balanced_clrBits {off m : Nat} : Balanced ix (clrBits s off m) ↔ Balanced ix s := (clrBits_same ..).balanced rfl
@[simp] theorem balanced_cmdIn {m w0 w1 w2 w3 : Nat} : Balanced ix (cmdIn s m w0 w1 w2 w3) ↔ Balanced ix s := (cmdIn_same ..).balanced rfl
@[simp] theorem balanced_coreRestart {n : Nat} : Balanced ix (coreRestart s n) ↔ Balanced ix s := (coreRestart_same ..).balanced rfl
@[simp] theorem balanced_corrSend {l : Nat} {c : Corr} {ns : Nat} :
    Balanced ix (corrSend s l c ns) ↔ Balanced ix s := (corrSend_same ..).balanced rfl
@[simp] theorem balanced_curSet {c : Nat} {d : Desc} {i : Nat} :
    Balanced ix (curSet s c d i) ↔ Balanced ix s := (curSet_same ..).balanced rfl
@[simp] theorem balanced_dmaEnd {c : Nat} {d : Desc} {diff : Option Nat} :
    Balanced ix (dmaEnd s c d diff) ↔ Balanced ix s := (dmaEnd_same ..).balanced rfl
@[simp] theorem balanced_dmaFixed {d : Desc} {src dst : DmaSide} :
    Balanced ix (dmaFixed s d src dst) ↔ Balanced ix s := (dmaFixed_same ..).balanced rfl
@[simp] theorem balanced_dmaFx {c o words old hit : Nat} :
    Balanced ix (dmaFx s c o words old hit) ↔ Balanced ix s := (dmaFx_same ..).balanced rfl
@[simp] theorem balanced_dmaGrant {c : Nat} : Balanced ix (dmaGrant s c) ↔ Balanced ix s := (dmaGrant_same ..).balanced rfl
@[simp] theorem balanced_dmaPauseOn {c : Nat} : Balanced ix (dmaPauseOn s c) ↔ Balanced ix s := (dmaPauseOn_same ..).balanced rfl
@[simp] theorem balanced_dpCmdFx {d hit : Nat} : Balanced ix (dpCmdFx s d hit) ↔ Balanced ix s := (dpCmdFx_same ..).balanced rfl
@[simp] theorem balanced_drainAfter {c : Nat} : Balanced ix (drainAfter s c) ↔ Balanced ix s := (drainAfter_same ..).balanced rfl
@[simp] theorem balanced_drainEval {c : Nat} : Balanced ix (drainEval s c) ↔ Balanced ix s := (drainEval_same ..).balanced rfl
@[simp] theorem balanced_dropAct {q : QId} {a : QAct} : Balanced ix (dropAct s q a) ↔ Balanced ix s := (dropAct_same ..).balanced rfl
@[simp] theorem balanced_ecamEntFx {e o off old : Nat} {cz : Cause} :
    Balanced ix (ecamEntFx s e o off old cz) ↔ Balanced ix s := (ecamEntFx_same ..).balanced rfl
@[simp] theorem balanced_echoIn {l n fg fr : Nat} : Balanced ix (echoIn s l n fg fr) ↔ Balanced ix s := (echoIn_same ..).balanced rfl
@[simp] theorem balanced_emit {o : Out} : Balanced ix (emit s o) ↔ Balanced ix s := (emit_same ..).balanced rfl
@[simp] theorem balanced_event {b : Nat} : Balanced ix (event s b) ↔ Balanced ix s := (event_same ..).balanced rfl
@[simp] theorem balanced_evtBit {n b : Nat} : Balanced ix (evtBit s n b) ↔ Balanced ix s := (evtBit_same ..).balanced rfl
@[simp] theorem balanced_fence {src : Nat} : Balanced ix (fence s src) ↔ Balanced ix s := (fence_same ..).balanced rfl
@[simp] theorem balanced_firstError {r : Report} {sev : Nat} :
    Balanced ix (firstError s r sev).1 ↔ Balanced ix s := (firstError_same ..).balanced rfl
@[simp] theorem balanced_fodFx {n o old new hit : Nat} {cz : Cause} :
    Balanced ix (fodFx s n o old new hit cz) ↔ Balanced ix s := (fodFx_same ..).balanced rfl
@[simp] theorem balanced_fodSafe {n : Nat} : Balanced ix (fodSafe s n) ↔ Balanced ix s := (fodSafe_same ..).balanced rfl
@[simp] theorem balanced_forwardTaken {m addr off v : Nat} {i : RegInfo} {view raw : Nat} :
    Balanced ix (forwardTaken s m addr off v i view raw) ↔ Balanced ix s := (forwardTaken_same ..).balanced rfl
@[simp] theorem balanced_gangEnter {g st : Nat} {core : Option Nat} {k : ActKind} :
    Balanced ix (gangEnter s g st core k).1 ↔ Balanced ix s := (gangEnter_same ..).balanced rfl
@[simp] theorem balanced_genSwitchFx {cz : Cause} : Balanced ix (genSwitchFx s cz) ↔ Balanced ix s := (genSwitchFx_same ..).balanced rfl
@[simp] theorem balanced_groupEval : Balanced ix (groupEval s) ↔ Balanced ix s := (groupEval_same ..).balanced rfl
@[simp] theorem balanced_holdClear : Balanced ix (holdClear s) ↔ Balanced ix s := (holdClear_same ..).balanced rfl
@[simp] theorem balanced_holdoverOff : Balanced ix (holdoverOff s) ↔ Balanced ix s := (holdoverOff_same ..).balanced rfl
@[simp] theorem balanced_holdsEnd : Balanced ix (holdsEnd s) ↔ Balanced ix s := (holdsEnd_same ..).balanced rfl
@[simp] theorem balanced_hostForward {m addr off v : Nat} :
    Balanced ix (hostForward s m addr off v) ↔ Balanced ix s := (hostForward_same ..).balanced rfl
@[simp] theorem balanced_hostWrite {addr : Nat} {b : List Byte} :
    Balanced ix (hostWrite s addr b) ↔ Balanced ix s := (hostWrite_same ..).balanced rfl
@[simp] theorem balanced_imageApply {n : Nat} {b : Bank} :
    Balanced ix (imageApply s n b) ↔ Balanced ix s := (imageApply_same ..).balanced rfl
@[simp] theorem balanced_imgClear {n : Nat} : Balanced ix (imgClear s n) ↔ Balanced ix s := (imgClear_same ..).balanced rfl
@[simp] theorem balanced_injectFx {m : Nat} : Balanced ix (injectFx s m) ↔ Balanced ix s := (injectFx_same ..).balanced rfl
@[simp] theorem balanced_keepGone {tag : Nat} {g : Bool} {why : Nat} {sfd : Int} :
    Balanced ix (keepGone s tag g why sfd) ↔ Balanced ix s := (keepGone_same ..).balanced rfl
@[simp] theorem balanced_laneOff {l : Nat} {corr : Bool} :
    Balanced ix (laneOff s l corr) ↔ Balanced ix s := (laneOff_same ..).balanced rfl
@[simp] theorem balanced_laneTurns {l : Nat} : Balanced ix (laneTurns s l) ↔ Balanced ix s := (laneTurns_same ..).balanced rfl
@[simp] theorem balanced_leapFx {cz : Cause} : Balanced ix (leapFx s cz) ↔ Balanced ix s := (leapFx_same ..).balanced rfl
@[simp] theorem balanced_lineEval : Balanced ix (lineEval s) ↔ Balanced ix s := (lineEval_same ..).balanced rfl
@[simp] theorem balanced_loadReport {r : Nat} : Balanced ix (loadReport s r) ↔ Balanced ix s := (loadReport_same ..).balanced rfl
@[simp] theorem balanced_logStart : Balanced ix (logStart s) ↔ Balanced ix s := (logStart_same ..).balanced rfl
@[simp] theorem balanced_logWrite : Balanced ix (logWrite s) ↔ Balanced ix s := (logWrite_same ..).balanced rfl
@[simp] theorem balanced_masterSet {k : Nat} : Balanced ix (masterSet s k) ↔ Balanced ix s := (masterSet_same ..).balanced rfl
@[simp] theorem balanced_mateEval : Balanced ix (mateEval s) ↔ Balanced ix s := (mateEval_same ..).balanced rfl
@[simp] theorem balanced_mateMrst : Balanced ix (mateMrst s) ↔ Balanced ix s := (mateMrst_same ..).balanced rfl
@[simp] theorem balanced_mateSend {type : Nat} {fields : List Int} :
    Balanced ix (mateSend s type fields) ↔ Balanced ix s := (mateSend_same ..).balanced rfl
@[simp] theorem balanced_memoryApply {l : List ImageItem} :
    Balanced ix (memoryApply s l) ↔ Balanced ix s := (memoryApply_same ..).balanced rfl
@[simp] theorem balanced_mrstLos : Balanced ix (mrstLos s) ↔ Balanced ix s := (mrstLos_same ..).balanced rfl
@[simp] theorem balanced_msixWrite {off v : Nat} : Balanced ix (msixWrite s off v) ↔ Balanced ix s := (msixWrite_same ..).balanced rfl
@[simp] theorem balanced_noteEgress {e : EventMsg} {p : Nat} :
    Balanced ix (noteEgress s e p) ↔ Balanced ix s := (noteEgress_same ..).balanced rfl
@[simp] theorem balanced_noteFlags : Balanced ix (noteFlags s) ↔ Balanced ix s := (noteFlags_same ..).balanced rfl
@[simp] theorem balanced_noteKind {r : Report} : Balanced ix (noteKind s r) ↔ Balanced ix s := (noteKind_same ..).balanced rfl
@[simp] theorem balanced_nrEval : Balanced ix (nrEval s) ↔ Balanced ix s := (nrEval_same ..).balanced rfl
@[simp] theorem balanced_nvsShow : Balanced ix (nvsShow s) ↔ Balanced ix s := (nvsShow_same ..).balanced rfl
@[simp] theorem balanced_okUpdate : Balanced ix (okUpdate s) ↔ Balanced ix s := (okUpdate_same ..).balanced rfl
@[simp] theorem balanced_openWindow {src : Nat} : Balanced ix (openWindow s src) ↔ Balanced ix s := (openWindow_same ..).balanced rfl
@[simp] theorem balanced_orBits {off m : Nat} : Balanced ix (orBits s off m) ↔ Balanced ix s := (orBits_same ..).balanced rfl
@[simp] theorem balanced_outChange {n old new : Nat} :
    Balanced ix (outChange s n old new) ↔ Balanced ix s := (outChange_same ..).balanced rfl
@[simp] theorem balanced_outMrst : Balanced ix (outMrst s) ↔ Balanced ix s := (outMrst_same ..).balanced rfl
@[simp] theorem balanced_ownAll : Balanced ix (ownAll s) ↔ Balanced ix s := (ownAll_same ..).balanced rfl
@[simp] theorem balanced_ownDrain {a : Nat} : Balanced ix (ownDrain a s) ↔ Balanced ix s := (ownDrain_same ..).balanced rfl
@[simp] theorem balanced_ownIssue {op w : Nat} : Balanced ix (ownIssue s op w) ↔ Balanced ix s := (ownIssue_same ..).balanced rfl
@[simp] theorem balanced_passVoidMark {cz : Cause} :
    Balanced ix (passVoidMark s cz) ↔ Balanced ix s := (passVoidMark_same ..).balanced rfl
@[simp] theorem balanced_pcNext {n pc : Nat} : Balanced ix (pcNext s n pc) ↔ Balanced ix s := (pcNext_same ..).balanced rfl
@[simp] theorem balanced_pendFx {w hit : Nat} : Balanced ix (pendFx s w hit) ↔ Balanced ix s := (pendFx_same ..).balanced rfl
@[simp] theorem balanced_planCopy : Balanced ix (planCopy s) ↔ Balanced ix s := (planCopy_same ..).balanced rfl
@[simp] theorem balanced_portDlyApply {words : List (Nat × Word)} :
    Balanced ix (portDlyApply s words) ↔ Balanced ix s := (portDlyApply_same ..).balanced rfl
@[simp] theorem balanced_portFodSet {p : Nat} : Balanced ix (portFodSet s p) ↔ Balanced ix s := (portFodSet_same ..).balanced rfl
@[simp] theorem balanced_prioFx {d off : Nat} {cz : Cause} :
    Balanced ix (prioFx s d off cz) ↔ Balanced ix s := (prioFx_same ..).balanced rfl
@[simp] theorem balanced_pwrFx {o old new hit : Nat} : Balanced ix (pwrFx s o old new hit) ↔ Balanced ix s := (pwrFx_same ..).balanced rfl
@[simp] theorem balanced_raise {src kind addr master access : Nat} :
    Balanced ix (raise s src kind addr master access) ↔ Balanced ix s := (raise_same s src kind addr master access).balanced rfl
@[simp] theorem balanced_raiseC {src kind stat : Nat} {cz : Cause} :
    Balanced ix (raiseC s src kind stat cz) ↔ Balanced ix s := (raiseC_same ..).balanced rfl
@[simp] theorem balanced_raiseDma {c kind addr : Nat} :
    Balanced ix (raiseDma s c kind addr) ↔ Balanced ix s := (raiseDma_same ..).balanced rfl
@[simp] theorem balanced_readWord {m off : Nat} {low : Bool} :
    Balanced ix (readWord s m off low).1 ↔ Balanced ix s := (readWord_same ..).balanced rfl
@[simp] theorem balanced_refCtrlFx {i old new : Nat} :
    Balanced ix (refCtrlFx s i old new) ↔ Balanced ix s := (refCtrlFx_same ..).balanced rfl
@[simp] theorem balanced_refQnow {i : Nat} : Balanced ix (refQnow s i) ↔ Balanced ix s := (refQnow_same ..).balanced rfl
@[simp] theorem balanced_refRequal {i : Nat} : Balanced ix (refRequal s i) ↔ Balanced ix s := (refRequal_same ..).balanced rfl
@[simp] theorem balanced_refSample {i : Nat} {t e : Int} :
    Balanced ix (refSample s i t e) ↔ Balanced ix s := (refSample_same ..).balanced rfl
@[simp] theorem balanced_renumber {n : Nat} : Balanced ix (renumber s n) ↔ Balanced ix s := (renumber_same ..).balanced rfl
@[simp] theorem balanced_resyncPort {p : Nat} : Balanced ix (resyncPort s p) ↔ Balanced ix s := (resyncPort_same ..).balanced rfl
@[simp] theorem balanced_retuneForget {k : Nat} {x : Slot} :
    Balanced ix (retuneForget s k x) ↔ Balanced ix s := (retuneForget_same ..).balanced rfl
@[simp] theorem balanced_rfreq {p : Nat} : Balanced ix (rfreq s p) ↔ Balanced ix s := (rfreq_same ..).balanced rfl
@[simp] theorem balanced_rideStored {x : Slot} : Balanced ix (rideStored s x) ↔ Balanced ix s := (rideStored_same ..).balanced rfl
@[simp] theorem balanced_roleChange {standby : Bool} :
    Balanced ix (roleChange s standby) ↔ Balanced ix s := (roleChange_same ..).balanced rfl
@[simp] theorem balanced_rstRecord {cause state master : Nat} {kick : Bool} :
    Balanced ix (rstRecord s cause state master kick) ↔ Balanced ix s := (rstRecord_same ..).balanced rfl
@[simp] theorem balanced_rxNote {q : BitVec 8} : Balanced ix (rxNote s q) ↔ Balanced ix s := (rxNote_same ..).balanced rfl
@[simp] theorem balanced_safeRefuse {off : Nat} : Balanced ix (safeRefuse s off) ↔ Balanced ix s := (safeRefuse_same ..).balanced rfl
@[simp] theorem balanced_scCmdFx {n hit : Nat} {cz : Cause} :
    Balanced ix (scCmdFx s n hit cz) ↔ Balanced ix s := (scCmdFx_same ..).balanced rfl
@[simp] theorem balanced_scCtrlFx {n old new : Nat} {cz : Cause} :
    Balanced ix (scCtrlFx s n old new cz) ↔ Balanced ix s := (scCtrlFx_same ..).balanced rfl
@[simp] theorem balanced_scrClear : Balanced ix (scrClear s) ↔ Balanced ix s := (scrClear_same ..).balanced rfl
@[simp] theorem balanced_scrShow : Balanced ix (scrShow s) ↔ Balanced ix s := (scrShow_same ..).balanced rfl
@[simp] theorem balanced_scSafe {n : Nat} : Balanced ix (scSafe s n) ↔ Balanced ix s := (scSafe_same ..).balanced rfl
@[simp] theorem balanced_scWakeEval : Balanced ix (scWakeEval s) ↔ Balanced ix s := (scWakeEval_same ..).balanced rfl
@[simp] theorem balanced_sealCompare {crc : Nat} : Balanced ix (sealCompare s crc) ↔ Balanced ix s := (sealCompare_same ..).balanced rfl
@[simp] theorem balanced_sealCtrlFx {old new : Nat} :
    Balanced ix (sealCtrlFx s old new) ↔ Balanced ix s := (sealCtrlFx_same ..).balanced rfl
@[simp] theorem balanced_sendImage : Balanced ix (sendImage s) ↔ Balanced ix s := (sendImage_same ..).balanced rfl
@[simp] theorem balanced_sendMsix {v : Nat} : Balanced ix (sendMsix s v) ↔ Balanced ix s := (sendMsix_same ..).balanced rfl
@[simp] theorem balanced_seqFault {n : Nat} {ecc : Bool} :
    Balanced ix (seqFault s n ecc) ↔ Balanced ix s := (seqFault_same ..).balanced rfl
@[simp] theorem balanced_seqFx {n o off old hit : Nat} :
    Balanced ix (seqFx s n o off old hit) ↔ Balanced ix s := (seqFx_same ..).balanced rfl
@[simp] theorem balanced_seqHaltAs {n why : Nat} : Balanced ix (seqHaltAs s n why) ↔ Balanced ix s := (seqHaltAs_same ..).balanced rfl
@[simp] theorem balanced_seqRestart {n cause : Nat} :
    Balanced ix (seqRestart s n cause) ↔ Balanced ix s := (seqRestart_same ..).balanced rfl
@[simp] theorem balanced_seqStartCmd {n : Nat} : Balanced ix (seqStartCmd s n) ↔ Balanced ix s := (seqStartCmd_same ..).balanced rfl
@[simp] theorem balanced_seqWaitE {n pc rd ra : Nat} :
    Balanced ix (seqWaitE s n pc rd ra) ↔ Balanced ix s := (seqWaitE_same ..).balanced rfl
@[simp] theorem balanced_seqWaitT {n pc st : Nat} : Balanced ix (seqWaitT s n pc st) ↔ Balanced ix s := (seqWaitT_same ..).balanced rfl
@[simp] theorem balanced_setCorr {l k : Nat} {c : Corr} : Balanced ix (setCorr s l k c) ↔ Balanced ix s := (setCorr_same ..).balanced rfl
@[simp] theorem balanced_setDma {c : Nat} {x : DmaSt} : Balanced ix (setDma s c x) ↔ Balanced ix s := (setDma_same ..).balanced rfl
@[simp] theorem balanced_setDp {d : Nat} {x : Dp} : Balanced ix (setDp s d x) ↔ Balanced ix s := (setDp_same ..).balanced rfl
@[simp] theorem balanced_setFod {n : Nat} {x : Fod} : Balanced ix (setFod s n x) ↔ Balanced ix s := (setFod_same ..).balanced rfl
@[simp] theorem balanced_setIng {i : Ing} : Balanced ix (setIng s i) ↔ Balanced ix s := (setIng_same ..).balanced rfl
@[simp] theorem balanced_setLane {l : Nat} {x : LaneSt} : Balanced ix (setLane s l x) ↔ Balanced ix s := (setLane_same ..).balanced rfl
@[simp] theorem balanced_setMb {a : Nat} {b : Byte} : Balanced ix (setMb s a b) ↔ Balanced ix s := (setMb_same ..).balanced rfl
@[simp] theorem balanced_setMbs {a : Nat} {b : List Byte} : Balanced ix (setMbs s a b) ↔ Balanced ix s := (setMbs_same ..).balanced rfl
@[simp] theorem balanced_setPc {n v : Nat} : Balanced ix (setPc s n v) ↔ Balanced ix s := (setPc_same ..).balanced rfl
@[simp] theorem balanced_setPend {src v : Nat} : Balanced ix (setPend s src v) ↔ Balanced ix s := (setPend_same ..).balanced rfl
@[simp] theorem balanced_setPort {p : Nat} {x : PortSt} : Balanced ix (setPort s p x) ↔ Balanced ix s := (setPort_same ..).balanced rfl
@[simp] theorem balanced_setPwrState {v : Nat} : Balanced ix (setPwrState s v) ↔ Balanced ix s := (setPwrState_same ..).balanced rfl
@[simp] theorem balanced_setRef {i : Nat} {x : Ref} : Balanced ix (setRef s i x) ↔ Balanced ix s := (setRef_same ..).balanced rfl
@[simp] theorem balanced_setResult {n pc rd : Nat} {r : Word × Flg} :
    Balanced ix (setResult s n pc rd r) ↔ Balanced ix s := (setResult_same ..).balanced rfl
@[simp] theorem balanced_setRunning {k : Nat} {x : Slot} :
    Balanced ix (setRunning s k x) ↔ Balanced ix s := (setRunning_same ..).balanced rfl
@[simp] theorem balanced_setSc {n : Nat} {x : Sc} : Balanced ix (setSc s n x) ↔ Balanced ix s := (setSc_same ..).balanced rfl
@[simp] theorem balanced_setSeqc {n : Nat} {x : SeqSt} : Balanced ix (setSeqc s n x) ↔ Balanced ix s := (setSeqc_same ..).balanced rfl
@[simp] theorem balanced_setSeqState {n v : Nat} : Balanced ix (setSeqState s n v) ↔ Balanced ix s := (setSeqState_same ..).balanced rfl
@[simp] theorem balanced_setSpair {n p v : Nat} : Balanced ix (setSpair s n p v) ↔ Balanced ix s := (setSpair_same ..).balanced rfl
@[simp] theorem balanced_setSreg {n k : Nat} {v : Word} : Balanced ix (setSreg s n k v) ↔ Balanced ix s := (setSreg_same ..).balanced rfl
@[simp] theorem balanced_setStaged {m off v : Nat} : Balanced ix (setStaged s m off v) ↔ Balanced ix s := (setStaged_same ..).balanced rfl
@[simp] theorem balanced_slewHalt : Balanced ix (slewHalt s) ↔ Balanced ix s := (slewHalt_same ..).balanced rfl
@[simp] theorem balanced_slotFree {k : Nat} : Balanced ix (slotFree s k) ↔ Balanced ix s := (slotFree_same ..).balanced rfl
@[simp] theorem balanced_slowsDue : Balanced ix (slowsDue s) ↔ Balanced ix s := (slowsDue_same ..).balanced rfl
@[simp] theorem balanced_slowSettle {n : Nat} : Balanced ix (slowSettle s n) ↔ Balanced ix s := (slowSettle_same ..).balanced rfl
@[simp] theorem balanced_smbAnswer {code : Nat} {block : Bool} {b : List Byte} :
    Balanced ix (smbAnswer s code block b) ↔ Balanced ix s := (smbAnswer_same ..).balanced rfl
@[simp] theorem balanced_smbEval : Balanced ix (smbEval s) ↔ Balanced ix s := (smbEval_same ..).balanced rfl
@[simp] theorem balanced_snapActRun {a : QAct} {t : Rat} {late : Option Int} {stepped : Bool} :
    Balanced ix (snapActRun s a t late stepped) ↔ Balanced ix s := (snapActRun_same ..).balanced rfl
@[simp] theorem balanced_snapAt {info : Nat} {t : Int} : Balanced ix (snapAt s info t) ↔ Balanced ix s := (snapAt_same ..).balanced rfl
@[simp] theorem balanced_snapCmdFx {hit : Nat} {cz : Cause} :
    Balanced ix (snapCmdFx s hit cz) ↔ Balanced ix s := (snapCmdFx_same ..).balanced rfl
@[simp] theorem balanced_snapLater : Balanced ix (snapLater s) ↔ Balanced ix s := (snapLater_same ..).balanced rfl
@[simp] theorem balanced_snapTrigger {info : Nat} {t : Rat} {cz : Cause} :
    Balanced ix (snapTrigger s info t cz) ↔ Balanced ix s := (snapTrigger_same ..).balanced rfl
@[simp] theorem balanced_stampEvent {p : Nat} {e : EventMsg} :
    Balanced ix (stampEvent s p e).1 ↔ Balanced ix s := (stampEvent_same ..).balanced rfl
@[simp] theorem balanced_startCal {k : Nat} {x : Slot} : Balanced ix (startCal s k x) ↔ Balanced ix s := (startCal_same ..).balanced rfl
@[simp] theorem balanced_steerSet {k : Nat} : Balanced ix (steerSet s k) ↔ Balanced ix s := (steerSet_same ..).balanced rfl
@[simp] theorem balanced_storeBegin {r core : Nat} {b : Bank} :
    Balanced ix (storeBegin s r core b) ↔ Balanced ix s := (storeBegin_same ..).balanced rfl
@[simp] theorem balanced_storeCommit : Balanced ix (storeCommit s) ↔ Balanced ix s := (storeCommit_same ..).balanced rfl
@[simp] theorem balanced_storeDrop : Balanced ix (storeDrop s) ↔ Balanced ix s := (storeDrop_same ..).balanced rfl
@[simp] theorem balanced_storeStop {fail : Bool} : Balanced ix (storeStop s fail) ↔ Balanced ix s := (storeStop_same ..).balanced rfl
@[simp] theorem balanced_storeVal {i : RegInfo} {view raw m : Nat} :
    Balanced ix (storeVal s i view raw m).1 ↔ Balanced ix s := (storeVal_same ..).balanced rfl
@[simp] theorem balanced_swrefFx {i : Nat} : Balanced ix (swrefFx s i) ↔ Balanced ix s := (swrefFx_same ..).balanced rfl
@[simp] theorem balanced_syncDrop : Balanced ix (syncDrop s) ↔ Balanced ix s := (syncDrop_same ..).balanced rfl
@[simp] theorem balanced_timeCmdFx {hit : Nat} {cz : Cause} :
    Balanced ix (timeCmdFx s hit cz) ↔ Balanced ix s := (timeCmdFx_same ..).balanced rfl
@[simp] theorem balanced_wb {off lo n v : Nat} : Balanced ix (wb s off lo n v) ↔ Balanced ix s := (wb_same ..).balanced rfl
@[simp] theorem balanced_wL {a b c : Nat} : Balanced ix (wL s a b c) ↔ Balanced ix s := (wL_same ..).balanced rfl
@[simp] theorem balanced_wr {off v : Nat} : Balanced ix (wr s off v) ↔ Balanced ix s := (wr_same ..).balanced rfl

end Sys2Proof.Machine
end

section
/-!
PROOFS. The operations on a ring keep R284's identity (R279, R284 to R287).
-/
namespace Sys2Proof.Machine
open Sys2Proof

variable {ix : Nat} {s : State}

/-- A record that is presented adds one to ADMITTED and one to the counts on the other side, whatever its fate (R279). -/
theorem conserved_ringTake {x : RingSt} {f : RingFate} {token : Bool} : ringConserved (ringTake x f token) ↔ ringConserved x := by
  cases f <;> simp only [ringConserved, ringTake, wrap64] <;> omega

@[simp] theorem balanced_ringOver {m : Nat} : Balanced ix (ringOver s m) ↔ Balanced ix s := by
  have flag (x : State) (ov : Bool) : Balanced ix (setRing x m { ring x m with overTh := ov }) ↔ Balanced ix x :=
    balanced_setRing_iff Iff.rfl
  have drains : Balanced ix ((drainsOf s m).foldl drainEval s) ↔ Balanced ix s := foldl_balanced fun _ _ => balanced_drainEval
  simp [ringOver, flag, drains]

@[simp] theorem balanced_ringPresent {m colour : Nat} {mk : Nat → Nat → Nat → List Byte} :
    Balanced ix (ringPresent s m colour mk).1 ↔ Balanced ix s := by
  unfold ringPresent
  dsimp only
  split <;> simp [balanced_setRing_iff conserved_ringTake]

@[simp] theorem balanced_ringVoid {m k : Nat} : Balanced ix (ringVoid s m k) ↔ Balanced ix s := by
  unfold ringVoid
  dsimp only
  split
  next => rfl
  next live =>
    have flies : (ring s m).inFlight ≠ 0 := fun h => live (.inr h)
    refine (balanced_setRing_iff (s := setMb s _ _) ?_).trans balanced_setMb
    simp only [ring_setMb, ringConserved, wrap64]
    omega

@[simp] theorem balanced_ringPass1 {m : Nat} : Balanced ix (ringPass1 s m) ↔ Balanced ix s := by
  refine balanced_setRing_iff ?_
  by_cases live : slotType s (ringSlot s m (ring s m).rd) ≠ 0 ∧ (ring s m).inFlight ≠ 0
  · have flies := live.2
    simp only [ringConserved, wrap64, if_pos live]
    omega
  · simp only [ringConserved, if_neg live]

@[simp] theorem balanced_ringPass {m k : Nat} : Balanced ix (ringPass s m k) ↔ Balanced ix s := by
  induction k generalizing s with
  | zero => exact balanced_ringOver
  | succ k ih => exact ih.trans balanced_ringPass1

@[simp] theorem balanced_voidPair {tag : Nat} {g : Bool} : Balanced ix (voidPair s tag g) ↔ Balanced ix s :=
  upto_balanced fun _ _ => upto_balanced fun _ _ => by simp

@[simp] theorem balanced_ringFlush {m : Nat} : Balanced ix (ringFlush s m) ↔ Balanced ix s := by
  have voids {k rd : Nat} : Balanced ix (upto k (fun x i => ringVoid x m (rd + i)) s) ↔ Balanced ix s :=
    upto_balanced fun _ _ => balanced_ringVoid
  have passed (x : State) : Balanced ix (setRing x m { ring x m with rd := (ring x m).wr }) ↔ Balanced ix x :=
    balanced_setRing_iff Iff.rfl
  simp [ringFlush, voids, passed]

@[simp] theorem balanced_tokensAdd {m : Nat} : Balanced ix (tokensAdd s m) ↔ Balanced ix s := by
  have filled (k : Nat) : Balanced ix (setRing s m { ring s m with tokens := k }) ↔ Balanced ix s := balanced_setRing_iff Iff.rfl
  simp [tokensAdd, filled]

@[simp] theorem balanced_eccBad {slot : Nat} : Balanced ix (eccBad s slot) ↔ Balanced ix s := by
  have voids : Balanced ix (upto 16 (fun s ix => (ringHits s ix slot).foldl (fun s k => ringVoid s ix k) s) s) ↔ Balanced ix s :=
    upto_balanced fun _ _ => foldl_balanced fun _ _ => balanced_ringVoid
  simp [eccBad, voids]

@[simp] theorem balanced_drainSlot {c : Nat} : Balanced ix (drainSlot s c) ↔ Balanced ix s := by
  unfold drainSlot
  simp

end Sys2Proof.Machine
end

section
/-!
PROOFS. What the capture path leaves of the rings' identity: the table of ingress events, the slots and the pairs.
-/
namespace Sys2Proof.Machine
open Sys2Proof

variable {ix : Nat} {s : State}

@[simp] theorem balanced_hwUpdate {a b c : Nat} {f : State → State} (h : Balanced ix (f s) ↔ Balanced ix s) :
    Balanced ix (hwUpdate s a b c f) ↔ Balanced ix s := by
  unfold hwUpdate
  split
  next => exact balanced_orBits
  next => exact h

/-- A ring written back as it stood in an earlier state. -/
theorem balanced_setRing_ring {m : Nat} {t : State} (h : Balanced ix t ↔ Balanced ix s) :
    Balanced ix (setRing t m (ring s m)) ↔ Balanced ix s := by
  rw [balanced_iff, ring_setRing]
  split
  next e => rw [← e, balanced_iff]
  next => exact h

/-- RING_RD keeps the drained slots' counts, or the ring as it stood before them where software's write wins. -/
theorem balanced_ringAdvance {m : Nat} {t : State} (h : Balanced ix t ↔ Balanced ix s) :
    Balanced ix (ringAdvance t m (ring s m)) ↔ Balanced ix s := by
  have back : Balanced ix (setRing t m (ring s m)) ↔ Balanced ix s := balanced_setRing_ring h
  refine (balanced_hwUpdate ?_).trans back
  rw [back, ← h]
  exact balanced_setRing_ring (back.trans h.symm)

@[simp] theorem balanced_presentDelivery {w : Owed} : Balanced ix (presentDelivery s w) ↔ Balanced ix s := by
  simp [presentDelivery]

@[simp] theorem balanced_owedRun : Balanced ix (owedRun s) ↔ Balanced ix s := by
  simp [owedRun, foldl_balanced]

@[simp] theorem balanced_retire {i : Ing} {code : Nat} : Balanced ix (retire s i code) ↔ Balanced ix s := by
  simp [retire]

@[simp] theorem balanced_pairIng {i : Ing} {e : EventMsg} {p : Nat} : Balanced ix (pairIng s i e p) ↔ Balanced ix s := by
  simp [pairIng]

@[simp] theorem balanced_pairWaiting {i : Ing} : Balanced ix (pairWaiting s i) ↔ Balanced ix s := by
  refine foldl_balanced fun x q => ?_
  dsimp only
  split <;> simp

@[simp] theorem balanced_holdIng {i : Ing} : Balanced ix (holdIng s i) ↔ Balanced ix s := by
  simp [holdIng, foldl_balanced]

@[simp] theorem balanced_finishSlot {l : Nat} {x' : ESlot} : Balanced ix (finishSlot s l x') ↔ Balanced ix s := by
  unfold finishSlot
  extract_lets +onlyGivenNames e p put q s1
  have putting (x : State) (y : ESlot) : Balanced ix (put x y) ↔ Balanced ix x := balanced_setLane
  clear_value q put
  have counted : Balanced ix s1 ↔ Balanced ix s := by cases q <;> simp [s1]
  clear_value s1
  rw [← counted]
  split
  next => exact putting ..
  split
  next => simp [putting]
  extract_lets +onlyGivenNames g s2 act verdict
  have waiting : Balanced ix s2 ↔ Balanced ix s1 := putting ..
  clear_value s2 verdict
  rw [← waiting]
  split
  next =>
    split
    next => rfl
    next =>
      dsimp only
      split <;> simp
  next =>
    extract_lets +onlyGivenNames held add c s3
    have adding (x : State) (c : Corr) : Balanced ix (add x c) ↔ Balanced ix x := balanced_setLane
    clear_value add held
    have added : Balanced ix s3 ↔ Balanced ix s2 := by
      unfold s3
      split
      next =>
        cases held with
        | some i => exact adding ..
        | none =>
          dsimp only
          split <;> simp [adding]
      next => simp [adding]
    clear_value s3
    rw [← added]
    cases held <;> simp

@[simp] theorem balanced_closePend {l : Nat} : Balanced ix (closePend s l) ↔ Balanced ix s := by
  unfold closePend
  dsimp only
  split <;> simp

@[simp] theorem balanced_abortIn {l tag : Nat} {g : Bool} : Balanced ix (abortIn s l tag g) ↔ Balanced ix s := by
  unfold abortIn
  dsimp only
  split
  next => simp
  next => split <;> simp

@[simp] theorem balanced_ageRetire {tag : Nat} {g : Bool} : Balanced ix (ageRetire s tag g) ↔ Balanced ix s := by
  unfold ageRetire
  split <;> simp

end Sys2Proof.Machine
end

section
/-!
PROOFS. What the end of commands, the mate's role and the effects of a register write leave of the rings' identity.
-/
namespace Sys2Proof.Machine
open Sys2Proof

variable {ix : Nat} {s : State}

@[simp] theorem balanced_drainFaults : Balanced ix (drainFaults s) ↔ Balanced ix s := by
  simp [drainFaults, foldl_balanced]

@[simp] theorem balanced_startRow : Balanced ix (startRow s) ↔ Balanced ix s := by
  simp [startRow]

@[simp] theorem balanced_aonReadyRun : Balanced ix (aonReadyRun s) ↔ Balanced ix s := by
  simp [aonReadyRun]

@[simp] theorem balanced_coreWake : Balanced ix (coreWake s) ↔ Balanced ix s := by
  simp [coreWake]

@[simp] theorem balanced_snapWake : Balanced ix (snapWake s) ↔ Balanced ix s := by
  simp [snapWake]

@[simp] theorem balanced_presentInternal {kind type len time flags w10 w14 w18 w1c : Nat} {hdr : List Byte} :
    Balanced ix (presentInternal s kind type len time flags w10 w14 w18 w1c hdr) ↔ Balanced ix s := by
  simp [presentInternal]

@[simp] theorem balanced_cmdReport {k : Nat} {x : Slot} {status result : Nat} :
    Balanced ix (cmdReport s k x status result) ↔ Balanced ix s := by
  simp [cmdReport]

@[simp] theorem balanced_cmdComplete {k : Nat} {x : Slot} {status result : Nat} :
    Balanced ix (cmdComplete s k x status result) ↔ Balanced ix s := by
  simp [cmdComplete]

@[simp] theorem balanced_cmdEnd {p : Slot → Bool} {status : Nat} : Balanced ix (cmdEnd s p status) ↔ Balanced ix s := by
  simp [cmdEnd, foldl_balanced]

@[simp] theorem balanced_becomeStandby : Balanced ix (becomeStandby s) ↔ Balanced ix s := by
  simp [becomeStandby]

@[simp] theorem balanced_giveActivity : Balanced ix (giveActivity s) ↔ Balanced ix s := by
  simp [giveActivity]

@[simp] theorem balanced_mateYield : Balanced ix (mateYield s) ↔ Balanced ix s := by
  simp [mateYield]

@[simp] theorem balanced_splitCheck : Balanced ix (splitCheck s) ↔ Balanced ix s := by
  simp [splitCheck]

@[simp] theorem balanced_mateFx {o old new hit : Nat} : Balanced ix (mateFx s o old new hit) ↔ Balanced ix s := by
  simp [mateFx]

@[simp] theorem balanced_sealLockFx {old new : Nat} : Balanced ix (sealLockFx s old new) ↔ Balanced ix s := by
  simp [sealLockFx, foldl_balanced]

@[simp] theorem balanced_ringCfgFx {n old hit : Nat} {cz : Cause} : Balanced ix (ringCfgFx s n old hit cz) ↔ Balanced ix s := by
  simp [ringCfgFx]

@[simp] theorem balanced_ringRdFx {n v : Nat} {cz : Cause} : Balanced ix (ringRdFx s n v cz) ↔ Balanced ix s := by
  simp [ringRdFx]

@[simp] theorem balanced_cmdReset : Balanced ix (cmdReset s) ↔ Balanced ix s := by
  simp [cmdReset, foldl_balanced]

@[simp] theorem balanced_softReset {cause master : Nat} {kick : Bool} :
    Balanced ix (softReset s cause master kick) ↔ Balanced ix s := by
  simp [softReset, upto_balanced]

@[simp] theorem balanced_softKey {v m : Nat} : Balanced ix (softKey s v m) ↔ Balanced ix s := by
  simp [softKey]

@[simp] theorem balanced_regFx {i : RegInfo} {old new hit m : Nat} {cz : Cause} :
    Balanced ix (regFx s i old new hit m cz) ↔ Balanced ix s := by
  unfold regFx
  split <;> simp

end Sys2Proof.Machine
end

section
/-!
PROOFS. What time's boundaries, the bus, BAR2 and the DMA leave of the rings' identity.
-/
namespace Sys2Proof.Machine
open Sys2Proof

variable {ix : Nat} {s : State}

@[simp] theorem balanced_landedRun : Balanced ix (landedRun s) ↔ Balanced ix s := by
  refine (foldl_balanced fun x w => ?_).trans balanced_mk
  split <;> simp

@[simp] theorem balanced_aonStep {slip : Bool} : Balanced ix (aonStep s slip) ↔ Balanced ix s := by
  simp [aonStep, upto_balanced]

@[simp] theorem balanced_aonSteps {a : Nat} : Balanced ix (aonSteps a s) ↔ Balanced ix s := by
  induction a generalizing s with
  | zero => rfl
  | succ k ih => exact ih.trans balanced_aonStep

@[simp] theorem balanced_aonRun {n : Nat} {slip : Bool} : Balanced ix (aonRun n slip s) ↔ Balanced ix s := by
  unfold aonRun
  split <;> simp

@[simp] theorem balanced_applyMerged {m : Nat} {l : List (RegInfo × Nat × Nat × Bool)} :
    Balanced ix (applyMerged s m l) ↔ Balanced ix s := by
  simp [applyMerged, foldl_balanced]

@[simp] theorem balanced_applyVal {i : RegInfo} {view raw m : Nat} {cz : Cause} :
    Balanced ix (applyVal s i view raw m cz) ↔ Balanced ix s := by
  simp [applyVal]

@[simp] theorem balanced_badIn {l : Nat} : Balanced ix (badIn s l) ↔ Balanced ix s := by
  simp [badIn]

@[simp] theorem balanced_coreTouch {off : Nat} {read : Bool} : Balanced ix (coreTouch s off read) ↔ Balanced ix s := by
  simp [coreTouch]

@[simp] theorem balanced_bar2Bad {m a : Nat} : Balanced ix (bar2Bad s m a) ↔ Balanced ix s := by
  unfold bar2Bad
  dsimp only
  split
  next => simp
  split
  next => simp
  split
  next => simp
  split
  next => split <;> simp
  next => simp

@[simp] theorem balanced_bar2Get {a n : Nat} {skip : List Nat} : Balanced ix (bar2Get s a n skip).1 ↔ Balanced ix s := by
  simp [bar2Get, upto_balanced]

@[simp] theorem balanced_bar2Put {m a : Nat} {bs : List (Option Byte)} : Balanced ix (bar2Put s m a bs) ↔ Balanced ix s := by
  unfold bar2Put
  extract_lets s0 l on s1
  have told : Balanced ix s1 ↔ Balanced ix s := by
    refine (foldl_balanced fun x k => ?_).trans balanced_coreTouch
    split <;> simp
  refine (foldl_balanced fun x p => ?_).trans told
  split <;> simp

@[simp] theorem balanced_beaconIn {l : Nat} {b : BeaconMsg} : Balanced ix (beaconIn s l b) ↔ Balanced ix s := by
  unfold beaconIn
  extract_lets +onlyGivenNames s1 p
  have closed : Balanced ix s1 ↔ Balanced ix s := balanced_closePend
  clear_value s1
  rw [← closed]
  split
  next => rfl
  extract_lets +onlyGivenNames fall s2
  have linked : Balanced ix s2 ↔ Balanced ix s1 := balanced_wb
  clear_value s2 fall
  rw [← linked]
  split
  next => rfl
  extract_lets +onlyGivenNames s3 m s4 x restart
  have turned : Balanced ix s4 ↔ Balanced ix s2 := by simp [s4, s3]
  have restarting (y : State) : Balanced ix (restart y) ↔ Balanced ix y := balanced_setPort
  clear_value s4 restart x m
  rw [← turned]
  split
  next => exact restarting ..
  split
  next => split <;> simp [restarting]
  dsimp only
  split
  next => simp [restarting]
  next => simp [restarting]

@[simp] theorem balanced_busAccept {m off view raw' : Nat} {i : RegInfo} :
    Balanced ix (busAccept s m off view raw' i).1 ↔ Balanced ix s := by
  unfold busAccept
  extract_lets +onlyGivenNames old lb locked raw s1 held s2 raw2
  have refused : Balanced ix s2 ↔ Balanced ix s := by simp [s2, s1]
  clear_value s2
  rw [← refused]
  split
  next => rfl
  dsimp only
  split <;> simp

@[simp] theorem balanced_busRead32 {m addr bytes : Nat} : Balanced ix (busRead32 s m addr bytes).1 ↔ Balanced ix s := by
  unfold busRead32
  dsimp only
  split
  next => simp
  next => split <;> simp

@[simp] theorem balanced_busRead {m addr width : Nat} : Balanced ix (busRead s m addr width).1 ↔ Balanced ix s := by
  unfold busRead
  split <;> simp

@[simp] theorem balanced_regBytes {a b : Nat} : Balanced ix (regBytes s a b).1 ↔ Balanced ix s := by
  induction b generalizing s a with
  | zero => rfl
  | succ k ih => exact ih.trans balanced_busRead

@[simp] theorem balanced_dmaRead {loc a n : Nat} {host : List Byte} : Balanced ix (dmaRead s loc a n host).1 ↔ Balanced ix s := by
  unfold dmaRead
  split
  next => rfl
  split
  next => simp
  split <;> simp

@[simp] theorem balanced_regWrite {m addr v : Nat} : Balanced ix (regWrite s m addr v).1 ↔ Balanced ix s := by
  unfold regWrite
  dsimp only
  split
  next => split <;> simp
  split
  next => simp
  split
  next => simp
  split
  next => rfl
  split <;> simp

@[simp] theorem balanced_busWrite32 {m addr v : Nat} : Balanced ix (busWrite32 s m addr v).1 ↔ Balanced ix s := by
  unfold busWrite32
  dsimp only
  split
  next => simp
  next => split <;> simp

@[simp] theorem balanced_busWrite1 {m addr width v : Nat} : Balanced ix (busWrite1 s m addr width v).1 ↔ Balanced ix s := by
  simp only [busWrite1]
  split
  next => split <;> simp
  next => simp

@[simp] theorem balanced_busWrite {m addr width v : Nat} : Balanced ix (busWrite s m addr width v).1 ↔ Balanced ix s := by
  unfold busWrite
  split
  next => simp
  next => split <;> simp

@[simp] theorem balanced_regPutBytes {a : Nat} {b : List Byte} {c : Nat} : Balanced ix (regPutBytes s a b c).1 ↔ Balanced ix s := by
  induction c generalizing s a b with
  | zero => rfl
  | succ k ih => exact ih.trans balanced_busWrite

@[simp] theorem balanced_dmaPut {loc a : Nat} {b : List Byte} : Balanced ix (dmaPut s loc a b).1 ↔ Balanced ix s := by
  unfold dmaPut
  split
  next => simp
  next => split <;> simp

@[simp] theorem balanced_dmaStore {c : Nat} {d : Desc} {i : Nat} {b : List Byte} :
    Balanced ix (dmaStore s c d i b).1 ↔ Balanced ix s := by
  unfold dmaStore
  have stored (l : List (Nat × List Byte)) (r : State × Bool) : Balanced ix (l.foldl (fun r p =>
      ((dmaPut r.1 (dstLoc d) p.1 p.2).1, r.2 || (dmaPut r.1 (dstLoc d) p.1 p.2).2)) r).1 ↔ Balanced ix r.1 := by
    induction l generalizing r with
    | nil => rfl
    | cons p l ih => exact (ih _).trans balanced_dmaPut
  exact stored ..

@[simp] theorem balanced_dmaData {c : Nat} {d : Desc} {i j : Nat} {src dst : List Byte} :
    Balanced ix (dmaData s c d i j src dst).1 ↔ Balanced ix s := by
  unfold dmaData
  dsimp only
  split
  next => simp
  split
  next => split <;> simp
  next => simp

@[simp] theorem balanced_dmaBurst {c : Nat} {d : Desc} {i j : Nat} {src dst : List Byte} {whole : Bool} :
    Balanced ix (dmaBurst s c d i j src dst whole).1 ↔ Balanced ix s := by
  unfold dmaBurst
  dsimp only
  split <;> simp

@[simp] theorem balanced_dmaLoop {a b c : Nat} {d e : List Byte} : Balanced ix (dmaLoop a s b c d e) ↔ Balanced ix s := by
  induction a generalizing s d e with
  | zero => rfl
  | succ k ih =>
    unfold dmaLoop
    split
    next => rfl
    dsimp only
    split
    next => rfl
    split
    next => simp
    split
    next => rfl
    split <;> simp [ih]

@[simp] theorem balanced_dmaRun {c lim : Nat} {src dst : DmaSide} : Balanced ix (dmaRun s c lim src dst) ↔ Balanced ix s := by
  unfold dmaRun
  split <;> simp

@[simp] theorem balanced_readFail {c addr loc : Nat} {fetch : Bool} : Balanced ix (readFail s c addr loc fetch) ↔ Balanced ix s := by
  simp [readFail]

@[simp] theorem balanced_busErr {c addr loc : Nat} {fetch : Bool} {data : DmaData} :
    Balanced ix (busErr s c addr loc fetch data) ↔ Balanced ix s := by
  unfold busErr
  dsimp only
  split
  next => simp
  split
  next => simp
  split <;> simp

@[simp] theorem balanced_busWriteTie {m addr width v : Nat} {tie : Bool} :
    Balanced ix (busWriteTie s m addr width v tie) ↔ Balanced ix s := by
  simp [busWriteTie]

end Sys2Proof.Machine
end

section
/-!
PROOFS. What the commands' starts and ends leave of the rings' identity.
-/
namespace Sys2Proof.Machine
open Sys2Proof

variable {ix : Nat} {s : State}

@[simp] theorem balanced_calPower : Balanced ix (calPower s) ↔ Balanced ix s := by
  simp [calPower, upto_balanced]

@[simp] theorem balanced_cmdAccess {m w0 w1 w2 w3 : Nat} : Balanced ix (cmdAccess s m w0 w1 w2 w3) ↔ Balanced ix s := by
  simp [cmdAccess]

@[simp] theorem balanced_startWalk {k : Nat} {x : Slot} : Balanced ix (startWalk s k x) ↔ Balanced ix s := by
  simp [startWalk]

@[simp] theorem balanced_startQual {k : Nat} {x : Slot} : Balanced ix (startQual s k x) ↔ Balanced ix s := by
  simp [startQual]

@[simp] theorem balanced_startStore {k : Nat} {x : Slot} : Balanced ix (startStore s k x) ↔ Balanced ix s := by
  simp [startStore]

@[simp] theorem balanced_startRetune {k : Nat} {x : Slot} : Balanced ix (startRetune s k x) ↔ Balanced ix s := by
  unfold startRetune
  dsimp only
  split
  next entered => simp [(scEnter_same entered).balanced rfl]
  next => simp

@[simp] theorem balanced_startSync {k : Nat} {x : Slot} : Balanced ix (startSync s k x) ↔ Balanced ix s := by
  simp [startSync]

@[simp] theorem balanced_startLoad {k : Nat} {x : Slot} : Balanced ix (startLoad s k x) ↔ Balanced ix s := by
  simp [startLoad]

@[simp] theorem balanced_cmdBegin {k : Nat} {x : Slot} : Balanced ix (cmdBegin s k x) ↔ Balanced ix s := by
  unfold cmdBegin
  split
  case h_5 => split <;> simp
  all_goals simp

@[simp] theorem balanced_cmdExpire {k : Nat} : Balanced ix (cmdExpire s k) ↔ Balanced ix s := by
  unfold cmdExpire
  split <;> simp

@[simp] theorem balanced_endRetune {k : Nat} {x : Slot} : Balanced ix (endRetune s k x) ↔ Balanced ix s := by
  unfold endRetune
  dsimp only
  split <;> simp

@[simp] theorem balanced_endQual {k : Nat} {x : Slot} {ok : Bool} : Balanced ix (endQual s k x ok) ↔ Balanced ix s := by
  simp [endQual]

@[simp] theorem balanced_endStore {k : Nat} {x : Slot} {ok : Bool} : Balanced ix (endStore s k x ok) ↔ Balanced ix s := by
  unfold endStore
  split <;> simp

@[simp] theorem balanced_screedApply {b : Bank} : Balanced ix (screedApply s b) ↔ Balanced ix s := by
  simp [screedApply, foldl_balanced]

@[simp] theorem balanced_configApply {words : List (Nat × Word)} : Balanced ix (configApply s words) ↔ Balanced ix s := by
  simp [configApply]

@[simp] theorem balanced_regionApply {r core : Nat} {b : Bank} : Balanced ix (regionApply s r core b) ↔ Balanced ix s := by
  simp [regionApply]

@[simp] theorem balanced_endLoad {k : Nat} {x : Slot} {ok : Bool} : Balanced ix (endLoad s k x ok) ↔ Balanced ix s := by
  unfold endLoad
  split <;> simp

@[simp] theorem balanced_endPortCal {k : Nat} {x : Slot} {lost : Nat} : Balanced ix (endPortCal s k x lost) ↔ Balanced ix s := by
  unfold endPortCal
  split <;> simp

@[simp] theorem balanced_endWalk {k : Nat} {x : Slot} : Balanced ix (endWalk s k x) ↔ Balanced ix s := by
  simp [endWalk]

@[simp] theorem balanced_cmdFinish {k : Nat} {r : OpOutcome} : Balanced ix (cmdFinish s k r) ↔ Balanced ix s := by
  unfold cmdFinish
  dsimp only
  split
  next => rfl
  split
  next => rfl
  split
  case h_4 | h_10 => split <;> simp
  case h_9 => split <;> simp
  all_goals simp

@[simp] theorem balanced_cmdStart {k : Nat} : Balanced ix (cmdStart s k) ↔ Balanced ix s := by
  unfold cmdStart
  split <;> simp

end Sys2Proof.Machine
end

section
/-!
PROOFS. What the lanes, SAFE, the supply, the faults, the landings and the classifier leave of the rings' identity.
-/
namespace Sys2Proof.Machine
open Sys2Proof

variable {ix : Nat} {s : State}

@[simp] theorem balanced_corrDue {l tag : Nat} {g : Bool} {ns : Nat} : Balanced ix (corrDue s l tag g ns) ↔ Balanced ix s := by
  unfold corrDue
  dsimp only
  split
  next => simp
  next => split <;> simp

@[simp] theorem balanced_dmaExec {c : Nat} {src dst : DmaSide} : Balanced ix (dmaExec s c src dst) ↔ Balanced ix s := by
  simp [dmaExec]

@[simp] theorem balanced_dmaFetch {c : Nat} {bytes : List Byte} : Balanced ix (dmaFetch s c bytes) ↔ Balanced ix s := by
  simp [dmaFetch]

@[simp] theorem balanced_drainRun {c fixed : Nat} : Balanced ix (drainRun s c fixed) ↔ Balanced ix s := by
  unfold drainRun
  split
  next => rfl
  extract_lets +onlyGivenNames m x k s1 y s2
  have marked : Balanced ix s2 ↔ Balanced ix s := by simp [s2, s1]
  have drained : Balanced ix (upto k (fun s _ => drainSlot s c) s2) ↔ Balanced ix s :=
    (upto_balanced fun _ _ => balanced_drainSlot).trans marked
  simp [x, balanced_ringAdvance drained]

@[simp] theorem balanced_enterSafe {src kind : Nat} : Balanced ix (enterSafe s src kind) ↔ Balanced ix s := by
  unfold enterSafe
  split
  next => rfl
  extract_lets +onlyGivenNames f s1 s2 s3 s4 s5 s6 s7 s8 s9
  have stopped : Balanced ix s8 ↔ Balanced ix s := by
    simp [s8, s7, s6, s5, s4, s3, s2, s1, foldl_balanced, upto_balanced]
  have uncalibrated : Balanced ix s9 ↔ Balanced ix s8 := by
    refine upto_balanced fun x p => ?_
    split <;> simp
  rw [← stopped, ← uncalibrated]
  clear_value s9
  simp

@[simp] theorem balanced_eventIn {l : Nat} {e : EventMsg} : Balanced ix (eventIn s l e) ↔ Balanced ix s := by
  unfold eventIn
  extract_lets +onlyGivenNames s1
  have closed : Balanced ix s1 ↔ Balanced ix s := balanced_closePend
  clear_value s1
  rw [← closed]
  split
  next => rfl
  split
  next => simp
  extract_lets +onlyGivenNames x cap
  split
  next => simp
  extract_lets +onlyGivenNames p
  split
  next s2 st raw tau stamped =>
    have kept : Balanced ix s2 ↔ Balanced ix s1 := by
      change Balanced ix (s2, st, raw, tau).1 ↔ _
      rw [← stamped]
      split <;> simp
    simp [kept]

@[simp] theorem balanced_supplyRec {sub cls time flags w10 w14 number halves : Nat} :
    Balanced ix (supplyRec s sub cls time flags w10 w14 number halves) ↔ Balanced ix s := by
  simp [supplyRec]

@[simp] theorem balanced_evtEnd : Balanced ix (evtEnd s) ↔ Balanced ix s := by
  simp [evtEnd]

@[simp] theorem balanced_evtStart {cls v : Nat} : Balanced ix (evtStart s cls v) ↔ Balanced ix s := by
  simp [evtStart]

@[simp] theorem balanced_evtCheck : Balanced ix (evtCheck s) ↔ Balanced ix s := by
  simp [evtCheck]

@[simp] theorem balanced_fwdTake {i : FwdMsg} : Balanced ix (fwdTake s i) ↔ Balanced ix s := by
  unfold fwdTake
  split
  next => simp
  next => split <;> simp

@[simp] theorem balanced_handover : Balanced ix (handover s) ↔ Balanced ix s := by
  simp [handover]

@[simp] theorem balanced_imageRun : Balanced ix (imageRun s) ↔ Balanced ix s := by
  simp [imageRun, upto_balanced]

@[simp] theorem balanced_postLand {key : Nat} : Balanced ix (postLand s key) ↔ Balanced ix s := by
  unfold postLand
  split
  next => rfl
  split
  next => simp
  split <;> simp

@[simp] theorem balanced_regPut {m off v : Nat} : Balanced ix (regPut s m off v) ↔ Balanced ix s := by
  simp [regPut]

@[simp] theorem balanced_injectWrites {m src kind addr : Nat} : Balanced ix (injectWrites s m src kind addr) ↔ Balanced ix s := by
  simp [injectWrites]

@[simp] theorem balanced_presentFault {r : Report} {sev : Nat} {shadow first : Bool} {intake : Nat} :
    Balanced ix (presentFault s r sev shadow first intake) ↔ Balanced ix s := by
  simp [presentFault]

@[simp] theorem balanced_react {r : Report} {sev intake : Nat} {only : Bool} :
    Balanced ix (react s r sev intake only) ↔ Balanced ix s := by
  simp [react]

@[simp] theorem balanced_shadowReact {r : Report} {sev intake : Nat} : Balanced ix (shadowReact s r sev intake) ↔ Balanced ix s := by
  simp [shadowReact]

@[simp] theorem balanced_intake : Balanced ix (intake s) ↔ Balanced ix s := by
  simp [intake, foldl_balanced]

@[simp] theorem balanced_landAll {m : Nat} : Balanced ix (landAll s m) ↔ Balanced ix s := by
  simp [landAll, foldl_balanced]

@[simp] theorem balanced_loadDone : Balanced ix (loadDone s) ↔ Balanced ix s := by
  simp [loadDone, foldl_balanced]

@[simp] theorem balanced_presentCapture {l : Nat} {x : ESlot} {hit : Option Nat} {act : Nat} {q : Option Parsed} :
    Balanced ix (presentCapture s l x hit act q) ↔ Balanced ix s := by
  unfold presentCapture
  dsimp only
  split
  next => simp
  next => split <;> simp

@[simp] theorem balanced_lookup {l : Nat} {x : ESlot} : Balanced ix (lookup s l x) ↔ Balanced ix s := by
  unfold lookup
  extract_lets +onlyGivenNames e q hit act s1 s2 s3 s4
  clear_value hit
  have counted : Balanced ix s3 ↔ Balanced ix s := by cases hit <;> simp [s3, s2, s1]
  clear_value s3
  have held : Balanced ix s4 ↔ Balanced ix s3 := by
    unfold s4
    split <;> simp
  exact balanced_presentCapture.trans (held.trans counted)

@[simp] theorem balanced_lookupRun {l tag : Nat} {g : Bool} : Balanced ix (lookupRun s l tag g) ↔ Balanced ix s := by
  unfold lookupRun
  dsimp only
  split <;> simp

end Sys2Proof.Machine
end

section
/-!
PROOFS. What the mate, the seconds, the ride, the seal and the snapshots leave of the rings' identity.
-/
namespace Sys2Proof.Machine
open Sys2Proof

variable {ix : Nat} {s : State}

@[simp] theorem balanced_mateLine {alive level : Bool} : Balanced ix (mateLine s alive level) ↔ Balanced ix s := by
  simp [mateLine]

@[simp] theorem balanced_mrstHigh : Balanced ix (mrstHigh s) ↔ Balanced ix s := by
  simp [mrstHigh, upto_balanced]

@[simp] theorem balanced_postLandTie {key : Nat} {tie : Bool} : Balanced ix (postLandTie s key tie) ↔ Balanced ix s := by
  simp [postLandTie]

@[simp] theorem balanced_ppsEvent {sec : Nat} {repeat_ : Bool} : Balanced ix (ppsEvent s sec repeat_) ↔ Balanced ix s := by
  simp [ppsEvent, upto_balanced]

@[simp] theorem balanced_ppsNext : Balanced ix (ppsNext s) ↔ Balanced ix s := by
  unfold ppsNext
  split <;> simp

@[simp] theorem balanced_regPutM {m off mask v : Nat} : Balanced ix (regPutM s m off mask v) ↔ Balanced ix s := by
  simp [regPutM]

@[simp] theorem balanced_putHop {m n v : Nat} : Balanced ix (putHop s m n v) ↔ Balanced ix s := by
  simp [putHop, upto_balanced]

@[simp] theorem balanced_putM {a b c d : Nat} : Balanced ix (putM s a b c d) ↔ Balanced ix s := by
  induction c generalizing s b d with
  | zero => rfl
  | succ k ih => exact ih.trans balanced_regPutM

@[simp] theorem balanced_queuedTime {p : ActKind → Bool} : Balanced ix (queuedTime p s) ↔ Balanced ix s := by
  simp [queuedTime]

@[simp] theorem balanced_readOut {m addr width : Nat} : Balanced ix (readOut s m addr width) ↔ Balanced ix s := by
  simp [readOut]

@[simp] theorem balanced_rideEnter : Balanced ix (rideEnter s) ↔ Balanced ix s := by
  simp [rideEnter]

@[simp] theorem balanced_rideCheck {was : Bool} : Balanced ix (rideCheck s was) ↔ Balanced ix s := by
  simp [rideCheck]

@[simp] theorem balanced_rideHand : Balanced ix (rideHand s) ↔ Balanced ix s := by
  unfold rideHand
  split <;> simp

@[simp] theorem balanced_rideLeave : Balanced ix (rideLeave s) ↔ Balanced ix s := by
  simp [rideLeave]

@[simp] theorem balanced_rideStore {low : Bool} : Balanced ix (rideStore s low) ↔ Balanced ix s := by
  unfold rideStore
  split <;> simp

@[simp] theorem balanced_sealTake {crc : Nat} {p : Nat × Slot} : Balanced ix (sealTake s crc p) ↔ Balanced ix s := by
  unfold sealTake
  split
  next => simp
  simp [balanced_hwUpdate]

@[simp] theorem balanced_sealEnd : Balanced ix (sealEnd s) ↔ Balanced ix s := by
  simp [sealEnd, foldl_balanced]

@[simp] theorem balanced_seqRead {n addr : Nat} : Balanced ix (seqRead s n addr).1 ↔ Balanced ix s := by
  simp [seqRead]

@[simp] theorem balanced_snapDue : Balanced ix (snapDue s) ↔ Balanced ix s := by
  unfold snapDue
  split <;> simp

@[simp] theorem balanced_snapIn {t : Int} : Balanced ix (snapIn s t) ↔ Balanced ix s := by
  simp [snapIn]

@[simp] theorem balanced_snapTake {t : SnapMsg} {id : Nat} : Balanced ix (snapTake s t id) ↔ Balanced ix s := by
  simp [snapTake]

@[simp] theorem balanced_summaryRun {mean : Nat} : Balanced ix (summaryRun s mean) ↔ Balanced ix s := by
  simp [summaryRun]

@[simp] theorem balanced_supplyRun {dc : Bool} {value freq store load : Nat} {a : LoadMsg} :
    Balanced ix (supplyRun s dc value freq store load a) ↔ Balanced ix s := by
  simp [supplyRun]

@[simp] theorem balanced_swrefPut {m i tm : Nat} {theta : Int} : Balanced ix (swrefPut s m i tm theta) ↔ Balanced ix s := by
  simp [swrefPut, upto_balanced]

@[simp] theorem balanced_tapIn {l : Nat} {t : TapMsg} : Balanced ix (tapIn s l t) ↔ Balanced ix s := by
  unfold tapIn
  dsimp only
  split
  next => rfl
  split
  next => split <;> simp
  split
  next => simp
  split
  next => simp
  split <;> simp

@[simp] theorem balanced_wakeRun : Balanced ix (wakeRun s) ↔ Balanced ix s := by
  simp [wakeRun]

@[simp] theorem balanced_wdRun {kick : Bool} : Balanced ix (wdRun s kick) ↔ Balanced ix s := by
  simp [wdRun]

@[simp] theorem balanced_zeroRun {t : Int} : Balanced ix (zeroRun s t) ↔ Balanced ix s := by
  simp [zeroRun]

end Sys2Proof.Machine
end

section
/-!
PROOFS. What a reset leaves of the rings' identity.
-/
namespace Sys2Proof.Machine
open Sys2Proof

variable {ix : Nat} {s : State}

/-- The cold state has every ring at its reset value. -/
@[simp] theorem balanced_coldState {a : Nat} : Balanced ix (coldState s a) := by simp [coldState, State.reset]

@[simp] theorem balanced_powerOff : Balanced ix (powerOff s) := balanced_coldState

@[simp] theorem balanced_collapseRun : Balanced ix (collapseRun s) := balanced_powerOff

theorem balanced_porRun : Balanced ix s → Balanced ix (porRun s) := by
  unfold porRun
  split
  next => exact id
  next => simp

/-- MRST_N leaves every ring at its reset value. -/
@[simp] theorem balanced_coreMrst : Balanced ix (coreMrst s) := by simp [coreMrst]

theorem balanced_mrstLow : Balanced ix s → Balanced ix (mrstLow s) := by
  unfold mrstLow
  split
  next => exact id
  next => simp

theorem balanced_shutdownRun : Balanced ix s → Balanced ix (shutdownRun s) := by
  unfold shutdownRun
  split
  next => exact id
  next => simp

end Sys2Proof.Machine
end

section
/-!
PROOFS. Every instruction of the sequencers and every command keeps R284's identity.
-/
namespace Sys2Proof.Machine
open Sys2Proof

variable {ix : Nat} {s : State}

/-- The state that an instruction of a sequencer leaves, whether it ends or raises. -/
def SeqOut.state : SeqOut → State
  | .ok t => t
  | .exc _ t => t

theorem SameOut.balanced {M : Nat} {o : SeqOut} (h : SameOut M s o) (e : M.testBit 26 = false) :
    Balanced ix o.state ↔ Balanced ix s := by
  cases o <;> exact Same.balanced h e

theorem balanced_seqWrreg {k pc d a : Nat} : Balanced ix (seqWrreg s k pc d a).state ↔ Balanced ix s := by
  unfold seqWrreg
  dsimp only
  split <;> simp [SeqOut.state]

theorem balanced_seqPost {k pc a w code : Nat} : Balanced ix (seqPost s k pc a w code).state ↔ Balanced ix s := by
  unfold seqPost
  split <;> simp [SeqOut.state]

theorem balanced_seqSys {k pc : Nat} {op : SysOp} : Balanced ix (seqSys s k pc op).state ↔ Balanced ix s := by
  cases op <;> simp [seqSys, SeqOut.state]

/-- An instruction leaves what every ring counts balanced; only WRREG, RDREG, POST and FENCE reach a ring. -/
theorem balanced_seqDo {k pc : Nat} {ecc : Bool} {i : OInstr} : Balanced ix (seqDo s k pc ecc i).state ↔ Balanced ix s := by
  cases i
  case wrreg => exact balanced_seqWrreg
  case post => exact balanced_seqPost
  case sys => exact balanced_seqSys
  case load => exact (seqLoad_same ..).balanced rfl
  case store => exact (seqStore_same ..).balanced rfl
  case hopAt | phsFod | oenAt => exact (seqFod_same ..).balanced rfl
  case phsPlain | ratRate | ratStop => exact (seqPlain_same ..).balanced rfl
  case ratSc => exact (seqSc_same ..).balanced rfl
  case gangAt => exact (seqGang_same ..).balanced rfl
  case snapAt =>
    exact (seqEnter_same (M := 24600) _ _ _ _ _ _ _ rfl (fun _ h => Same.mono rfl (snapEnter_same h)) (Same.refl _ _)).balanced rfl
  all_goals simp [seqDo, SeqOut.state]

theorem balanced_seqAfter {k pc cycles : Nat} {stall : Option Nat} {o : SeqOut} :
    Balanced ix (seqAfter k pc cycles stall o) ↔ Balanced ix o.state := by
  have counted {t : State} {c : Nat} : Balanced ix (seqCount t k c stall) ↔ Balanced ix t := (seqCount_same ..).balanced rfl
  have ended {t : State} : Balanced ix (stepEnd t k) ↔ Balanced ix t := (stepEnd_same ..).balanced rfl
  have excepted {t : State} {c : Cause310} : Balanced ix (seqExcept t k pc c) ↔ Balanced ix t := (seqExcept_same ..).balanced rfl
  cases o <;> simp [seqAfter, SeqOut.state, counted, ended, excepted]

@[simp] theorem balanced_seqIssue {k : Nat} {want : Mn} {ecc : Bool} : Balanced ix (seqIssue s k want ecc) ↔ Balanced ix s := by
  have issued {pc cycles : Nat} {stall : Option Nat} {i : OInstr} :
      Balanced ix (seqAfter k pc cycles stall (seqDo (bpDone s k) k pc ecc i)) ↔ Balanced ix s :=
    balanced_seqAfter.trans (balanced_seqDo.trans balanced_bpDone)
  unfold seqIssue
  split
  next => split <;> simp [issued]
  next => rfl

@[simp] theorem balanced_seqOp {k : Nat} {want : Mn} : Balanced ix (seqOp s k want) ↔ Balanced ix s := balanced_seqIssue

/-- Ring ix keeps R284's identity in the state that an outcome gives. -/
def BalancedOut (ix : Nat) : Host.Outcome State Fault Refusal → Prop
  | .next t => Balanced ix t
  | _ => True

/-- A command that leaves the rings. -/
theorem balancedOut_of_same {M : Nat} {o : Host.Outcome State Fault Refusal} (k : ∃ t, o = .next t ∧ Same M s t)
    (e : M.testBit 26 = false) (h : Balanced ix s) : BalancedOut ix o := by
  obtain ⟨t, rfl, same⟩ := k
  exact (same.balanced e).2 h

theorem balanced_execNop {core : CoreIx} {ecc : Bool} (h : Balanced ix s) : BalancedOut ix (execNop core ecc s) := by
  simpa [BalancedOut, execNop] using h

theorem balanced_execSemaphoreRead {m : Master} {r : BarRead} (h : Balanced ix s) : BalancedOut ix (execSemaphoreRead m r s) := by
  unfold execSemaphoreRead
  split
  next => exact h
  next => split <;> simpa [BalancedOut] using h

theorem balanced_execTemps (h : Balanced ix s) : BalancedOut ix (execTemps s) := by
  simpa [BalancedOut, execTemps] using h

/-- Every command keeps R284's identity: it reaches a ring through the operations above alone. -/
theorem balancedOut_exec {c : Instr} (h : Balanced ix s) : BalancedOut ix (exec c s) := by
  cases c
  case addi | add | addc | sub | subc | and | or | xor | andn | shl | shr | sar | mul | mulhu | mulhs | cmp | tst | cmpi | andi | ori |
      xori | lui | shli | shri | sari | stw | sth | stb | bcc | bl | jr | jalr | waitE | sig | halt | trap | fence | coreid =>
    exact balanced_seqOp.2 h
  case rdreg | wrreg | hopAt | phsAt | ratAt | oenAt | gangAt | snapAt | tnow | waitT | post =>
    exact balanced_seqOp.2 (balanced_atCyc.2 h)
  case ldw | ldh | ldhu | ldb | ldbu =>
    exact balanced_seqIssue.2 h
  case lockWrite | sealHold | timeSet | timeStep | timeSlew | timeSlewStop | timeEnq | screedClear | ecamEntryWrite | genSwitch |
      ringCfgWrite | flush | ringRdWrite | seqStart | seqHalt | seqResume | seqStep | seqVerify | seqDoorbell | seqExcClr | dmaEnable |
      dmaPause | dmaDoorbell | dmaResume | dmaAbort | dmaHrdWrite | unfenceRequest | pendClear | firstErrorRearm | snapHold | softReset
      | watchdogKick | parkRelease =>
    exact balanced_regPut.2 h
  case snapNow | snapEnq =>
    exact balanced_regPut.2 (balanced_atCyc.2 h)
  case bandcal | requal | qnow | resel | clrhist =>
    exact balanced_regPutM.2 h
  case retune | fodInselWrite | pstep | pslew | pstop | hopGo | resync | portFodWrite =>
    exact balanced_regPutM.2 (balanced_atCyc.2 h)
  case sealCommit | nvsStore | nvsLoad | configStore | calRun | portCal | refQualify | scRetune | phaseWalk | selftest | mateSync |
      screedSave =>
    exact balanced_cmdAccess.2 h
  case queuedStep | queuedSlew | queuedRate | queuedSlewStop =>
    exact balanced_queuedTime.2 h
  case nop => exact balanced_execNop h
  case por => exact balanced_porRun h
  case mrstNAssert => exact balanced_smbEval.2 (balanced_mrstLow h)
  case orderedShutdown => exact balanced_shutdownRun h
  case temps => exact balanced_execTemps h
  case semaphoreRead => exact balanced_execSemaphoreRead h
  case supplyCollapse => exact balanced_collapseRun
  case registerWrite | shadowLatchRead | timeRead | postedWriteLand | sealPassEnd | aonBoundary | slewEnd | ppsEvent | fodDivCommit |
      hopEntryCommit | swrefSample | event | tap | beacon | abort | creditSyncEcho | badBlock | correction | ingressAgeRetire |
      ecamLookup | tokenRefill | eccUncorr | commandStart | commandComplete | commandTimeout | descFetch | descWriteBack | drainBurst |
      dmaBusError | aonReady | nvsLoadComplete | powerupCalStart | faultIntake | faultInject | queuedSnap | snapInEdge | mateLineChange
      | fwd | snap | mateSyncApply | yield | mrstNRelease | watchdogExpiry | coreWake | supplyMeasure | zeroCrossing | rideExit |
      supplySummary | rideYield | rideStores | bar2Write =>
    change Balanced ix _
    simpa using h
  case holdExpired => exact balancedOut_of_same (execHoldExpired_same ..) rfl h
  case msBoundary => exact balancedOut_of_same (execMsBoundary_same ..) rfl h
  case leapArm => exact balancedOut_of_same (execLeapArm_same ..) rfl h
  case leapApply => exact balancedOut_of_same (execLeapApply_same ..) rfl h
  case ppsPulseEnd => exact balancedOut_of_same (execPpsPulseEnd_same ..) rfl h
  case queuedRetune => exact balancedOut_of_same (execQueuedRetune_same ..) rfl h
  case scRampEnd => exact balancedOut_of_same (execScRampEnd_same ..) rfl h
  case bandCalDone => exact balancedOut_of_same (execBandCalDone_same ..) rfl h
  case lockFastSet => exact balancedOut_of_same (execLockFastSet_same ..) rfl h
  case lockFastClear => exact balancedOut_of_same (execLockFastClear_same ..) rfl h
  case lockSetRise => exact balancedOut_of_same (execLockSetRise_same ..) rfl h
  case lossOfLock => exact balancedOut_of_same (execLossOfLock_same ..) rfl h
  case lockDeadlineMiss => exact balancedOut_of_same (execLockDeadlineMiss_same ..) rfl h
  case trailEntry => exact balancedOut_of_same (execTrailEntry_same ..) rfl h
  case rehomeSwitch => exact balancedOut_of_same (execRehomeSwitch_same ..) rfl h
  case fodSlewEnd => exact balancedOut_of_same (execFodSlewEnd_same ..) rfl h
  case witnessVisit => exact balancedOut_of_same (execWitnessVisit_same ..) rfl h
  case fodStart => exact balancedOut_of_same (execFodStart_same ..) rfl h
  case fodGroupWake => exact balancedOut_of_same (execFodGroupWake_same ..) rfl h
  case outputDriverStart => exact balancedOut_of_same (execOutputDriverStart_same ..) rfl h
  case outputDisable => exact balancedOut_of_same (execOutputDisable_same ..) rfl h
  case queuedHop => exact balancedOut_of_same (execQueuedHop_same ..) rfl h
  case queuedPhaseMove => exact balancedOut_of_same (execQueuedPhaseMove_same ..) rfl h
  case queuedOen => exact balancedOut_of_same (execQueuedOen_same ..) rfl h
  case hopReloadDone => exact balancedOut_of_same (execHopReloadDone_same ..) rfl h
  case hopRateRelease => exact balancedOut_of_same (execHopRateRelease_same ..) rfl h
  case refTimeEvent => exact balancedOut_of_same (execRefTimeEvent_same ..) rfl h
  case refFreqSample => exact balancedOut_of_same (execRefFreqSample_same ..) rfl h
  case zdaSentence => exact balancedOut_of_same (execZdaSentence_same ..) rfl h
  case binaryTodFrame => exact balancedOut_of_same (execBinaryTodFrame_same ..) rfl h
  case irigInFrame => exact balancedOut_of_same (execIrigInFrame_same ..) rfl h
  case refLos => exact balancedOut_of_same (execRefLos_same ..) rfl h
  case refFreqGate => exact balancedOut_of_same (execRefFreqGate_same ..) rfl h
  case refQualTimer => exact balancedOut_of_same (execRefQualTimer_same ..) rfl h
  case refDisqTimer => exact balancedOut_of_same (execRefDisqTimer_same ..) rfl h
  case wtrExpiry => exact balancedOut_of_same (execWtrExpiry_same ..) rfl h
  case screedSample => exact balancedOut_of_same (execScreedSample_same ..) rfl h
  case screedTeUpdate => exact balancedOut_of_same (execScreedTeUpdate_same ..) rfl h
  case creditSyncMarker => exact balancedOut_of_same (execCreditSyncMarker_same ..) rfl h
  case creditAuditTimeout => exact balancedOut_of_same (execCreditAuditTimeout_same ..) rfl h
  case slotFree => exact balancedOut_of_same (execSlotFree_same ..) rfl h
  case creditLinkUp => exact balancedOut_of_same (execCreditLinkUp_same ..) rfl h
  case laneDown => exact balancedOut_of_same (execLaneDown_same ..) rfl h
  case pairWaitExpiry => exact balancedOut_of_same (execPairWaitExpiry_same ..) rfl h
  case prevNumberingExpiry => exact balancedOut_of_same (execPrevNumberingExpiry_same ..) rfl h
  case calStopTimeout => exact balancedOut_of_same (execCalStopTimeout_same ..) rfl h
  case drainComplete => exact balancedOut_of_same (execDrainComplete_same ..) rfl h
  case parity => exact balancedOut_of_same (execParity_same ..) rfl h
  case ecamSigUpdate => exact balancedOut_of_same (execEcamSigUpdate_same ..) rfl h
  case waitTResume => exact balancedOut_of_same (execWaitTResume_same ..) rfl h
  case waitEResume => exact balancedOut_of_same (execWaitEResume_same ..) rfl h
  case readTimeout => exact balancedOut_of_same (execReadTimeout_same ..) rfl h
  case breakpointHit => exact balancedOut_of_same (execBreakpointHit_same ..) rfl h
  case imageVerifyDone => exact balancedOut_of_same (execImageVerifyDone_same ..) rfl h
  case dmaPaused => exact balancedOut_of_same (execDmaPaused_same ..) rfl h
  case drainFlushTimer => exact balancedOut_of_same (execDrainFlushTimer_same ..) rfl h
  case dmaPromotion => exact balancedOut_of_same (execDmaPromotion_same ..) rfl h
  case calApply => exact balancedOut_of_same (execCalApply_same ..) rfl h
  case portCalDefer => exact balancedOut_of_same (execPortCalDefer_same ..) rfl h
  case skimMeasure => exact balancedOut_of_same (execSkimMeasure_same ..) rfl h
  case skimNaturalSwap => exact balancedOut_of_same (execSkimNaturalSwap_same ..) rfl h
  case softAge => exact balancedOut_of_same (execSoftAge_same ..) rfl h
  case skimForcedSwap => exact balancedOut_of_same (execSkimForcedSwap_same ..) rfl h
  case fenceClear => exact balancedOut_of_same (execFenceClear_same ..) rfl h
  case shadowWindowExpiry => exact balancedOut_of_same (execShadowWindowExpiry_same ..) rfl h
  case sevParityCheck => exact balancedOut_of_same (execSevParityCheck_same ..) rfl h
  case snapComplete => exact balancedOut_of_same (execSnapComplete_same ..) rfl h
  case claim => exact balancedOut_of_same (execClaim_same ..) rfl h
  case mateLaneUp => exact balancedOut_of_same (execMateLaneUp_same ..) rfl h
  case mateLaneDown => exact balancedOut_of_same (execMateLaneDown_same ..) rfl h
  case twtReqSend => exact balancedOut_of_same (execTwtReqSend_same ..) rfl h
  case twtReq l t1 t2 t3 => exact balancedOut_of_same (execTwtReq_same l t1 t2 t3 s) rfl h
  case twtResp => exact balancedOut_of_same (execTwtResp_same ..) rfl h
  case ckpt => exact balancedOut_of_same (execCkpt_same ..) rfl h
  case ckptMiss => exact balancedOut_of_same (execCkptMiss_same ..) rfl h
  case statusSend => exact balancedOut_of_same (execStatusSend_same ..) rfl h
  case status => exact balancedOut_of_same (execStatus_same ..) rfl h
  case handover => exact balancedOut_of_same (execHandover_same ..) rfl h
  case events => exact balancedOut_of_same (execEvents_same ..) rfl h
  case words => exact balancedOut_of_same (execWords_same ..) rfl h
  case ledger => exact balancedOut_of_same (execLedger_same ..) rfl h
  case image => exact balancedOut_of_same (execImage_same ..) rfl h
  case ownRefresh => exact balancedOut_of_same (execOwnRefresh_same ..) rfl h
  case coreSleep => exact balancedOut_of_same (execCoreSleep_same ..) rfl h
  case storeFull => exact balancedOut_of_same (execStoreFull_same ..) rfl h
  case chargeSlow => exact balancedOut_of_same (execChargeSlow_same ..) rfl h
  case ocxoReady => exact balancedOut_of_same (execOcxoReady_same ..) rfl h
  case notWarm => exact balancedOut_of_same (execNotWarm_same ..) rfl h
  case ovenFail => exact balancedOut_of_same (execOvenFail_same ..) rfl h
  case baseLol => exact balancedOut_of_same (execBaseLol_same ..) rfl h
  case converter => exact balancedOut_of_same (execConverter_same ..) rfl h
  case thermalAlarm => exact balancedOut_of_same (execThermalAlarm_same ..) rfl h
  case driver => exact balancedOut_of_same (execDriver_same ..) rfl h
  case ident => exact balancedOut_of_same (execIdent_same ..) rfl h
  case smbStatus => exact balancedOut_of_same (execSmbStatus_same ..) rfl h
  case supply => exact balancedOut_of_same (execSupply_same ..) rfl h
  case faults => exact balancedOut_of_same (execFaults_same ..) rfl h
  case fences => exact balancedOut_of_same (execFences_same ..) rfl h
  case alertClr => exact balancedOut_of_same (execAlertClr_same ..) rfl h
  case alertResponse => exact balancedOut_of_same (execAlertResponse_same ..) rfl h
  case perst => exact balancedOut_of_same (execPerst_same ..) rfl h
  case pcieLinkDown => exact balancedOut_of_same (execPcieLinkDown_same ..) rfl h
  case inputInRange dc => exact balancedOut_of_same (execInputInRange_same dc s) rfl h
  case blockLock => exact balancedOut_of_same (execBlockLock_same ..) rfl h
  case mateStatusStale => exact balancedOut_of_same (execMateStatusStale_same ..) rfl h
  case pcieLinkUp => exact balancedOut_of_same (execPcieLinkUp_same ..) rfl h
  case configurationRequest => exact balancedOut_of_same (execConfigurationRequest_same ..) rfl h
  case uncorr => exact balancedOut_of_same (execUncorr_same ..) rfl h

theorem balancedOut_step (h : Balanced ix s) : BalancedOut ix (step s) := by
  unfold step
  split
  next => exact h
  next => exact balancedOut_exec h

/-- Settles O4: each command keeps the identity of each ring on its own, through the operations that write the ring's counts. -/
theorem stepKeepsTheRingIdentity : Obligations.StepKeepsTheRingIdentity := by
  intro s t conserved stepped k
  have kept : BalancedOut k (step s) := balancedOut_step (balanced_iff.2 (conserved k))
  rw [stepped] at kept
  exact balanced_iff.1 kept

end Sys2Proof.Machine
end

section
/-!
PROOFS. A lookup of the classifier: what it counts, what it presents and what it leaves (R268, R270, R274, R277, R279).
-/
namespace Sys2Proof.Machine
open Sys2Proof

/-! ## The record of a lookup -/

theorem ringOf_lt (s : State) (g h : Nat) : ringOf s g h < 16 := Nat.mod_lt _ (by decide)

section
variable {s : State} {l act : Nat} {x : ESlot} {hit : Option Nat} {q : Option Parsed}

/-- An action that asks for no record presents none. -/
theorem presentCapture_none (h : act.testBit 9 = false) : presentCapture s l x hit act q = s := by
  unfold presentCapture
  rw [if_pos (.inl (by simp [h]))]

/-- A record of a lookup changes no register but those that a presented record changes. -/
theorem rd_presentCapture {o : Nat} (quiet : Quiet o) : rd (presentCapture s l x hit act q) o = rd s o := by
  have presented {r colour : Nat} {mk : Nat → Nat → Nat → List Byte} (hr : r < 16) : rd (ringPresent s r colour mk).1 o = rd s o :=
    rd_ringPresent (Nat.lt_trans hr (by decide)) quiet.fault quiet.evt (quiet.ring _ hr)
  unfold presentCapture
  split
  next => rfl
  dsimp only
  split
  next => exact presented (ringOf_lt ..)
  next => exact presented (ringOf_lt ..)

/-- An action that asks for a record of an event that is no calibration's, outside SAFE and standby, has one counted at the ring of
its group and flow hash, whatever becomes of it (R277, R279). -/
theorem admitted_presentCapture (h9 : act.testBit 9 = true) (hc : x.ev.cal = false) (hs : s.fcol.safe = false) (hb : s.standby = false) :
    (ring (presentCapture s l x hit act q) (ringOf s (bits act 5 4) (flowHash s q))).admitted =
      ((ring s (ringOf s (bits act 5 4) (flowHash s q))).admitted + 1) % 2 ^ 64 := by
  unfold presentCapture
  rw [if_neg (by simp [h9, hc, hs, hb])]
  dsimp only
  split
  next => exact admitted_ringPresent ..
  next => exact admitted_ringPresent ..

end

/-! ## What a lookup counts -/

/-- The counter of a lookup's answer: the matching entry's, or the misses'. -/
def hitCounter : Option Nat → Nat
  | some e => rENT e 0x58
  | none => 0x600024

theorem hitCounter_ne_lookups (hit : Option Nat) : hitCounter hit ≠ 0x600020 := by
  cases hit <;> simp only [hitCounter, rENT] <;> omega

theorem hitCounter_ne_stale (hit : Option Nat) : hitCounter hit ≠ 0x600030 := by
  cases hit <;> simp only [hitCounter, rENT] <;> omega

theorem hitCounter_ge (hit : Option Nat) : 0x600024 ≤ hitCounter hit := by
  cases hit <;> simp only [hitCounter, rENT] <;> omega

theorem faultReg_of_ge {o : Nat} (h : 0x38000 ≤ o) : faultReg o = false := by
  simp only [faultReg, decide_eq_false_iff_not]
  omega

/-- The matching entry is one of the 512. -/
theorem ecamFind_lt {s : State} {key : List Nat} {g e : Nat} (h : ecamFind s key g = some e) : e < 512 := by
  unfold ecamFind at h
  split at h
  next => contradiction
  next => exact List.mem_range.1 (List.mem_of_find?_eq_some h)

/-- No report, event or record changes a counter of the classifier. -/
theorem quiet_hitCounter {hit : Option Nat} (h : ∀ e, hit = some e → e < 512) : Quiet (hitCounter hit) := by
  refine quiet_of_lt (Nat.le_trans (by decide) (hitCounter_ge hit)) (.inr (Nat.le_trans (by decide) (hitCounter_ge hit))) ?_
  cases hit with
  | none => decide
  | some e =>
    have small := h e rfl
    simp only [hitCounter, rENT]
    omega

/-- The state in which a lookup of slot x is counted: as a lookup, by its answer, and where x's generation is not in force. -/
def lookupCounts (s : State) (x : ESlot) (hit : Option Nat) : State :=
  let t := bump (bump s 0x600020) (hitCounter hit)
  if genLive t x.gen then t else bump t 0x600030

/-- The action and the ring that a lookup leaves in the entry of a pair that came in. -/
def lookupTable (s : State) (x : ESlot) (act : Nat) (q : Option Parsed) : State :=
  match ingOf s x.ev.tag.toNat x.ev.gen with
  | some i => if x.ev.tx ∨ x.ev.recirc then s else setIng s { i with
      action := act, ring := ringOf s (bits act 5 4) (flowHash s q) }
  | none => s

/-- The state to which the record of a lookup is presented. -/
def lookupReady (s : State) (x : ESlot) (hit : Option Nat) : State :=
  lookupTable (lookupCounts s x hit) x (ecamAction s hit) (slotParse x.ev x.tap)

/-- A lookup is its counts, the entry of the pair, and the record of its action. -/
theorem lookup_eq {s : State} {l : Nat} {x : ESlot} {hit : Option Nat}
    (found : hit = ecamFind s (keyWords x.ev (8 * l + x.ev.pil.val) (slotParse x.ev x.tap)) x.gen) :
    lookup s l x = presentCapture (lookupReady s x hit) l x hit (ecamAction s hit) (slotParse x.ev x.tap) := by
  unfold lookup
  dsimp only
  rw [← found]
  cases hit <;> rfl

section
variable {s : State} {x : ESlot} {hit : Option Nat}

theorem lookupTable_same {act : Nat} {q : Option Parsed} : Same (2 ^ 22) s (lookupTable s x act q) := by
  unfold lookupTable
  split
  next =>
    split
    next => exact Same.refl ..
    next => exact setIng_same ..
  next => exact Same.refl ..

theorem lookupCounts_same : Same (2 ^ 13 + 2 ^ 4) s (lookupCounts s x hit) := by
  have counted : Same (2 ^ 13 + 2 ^ 4) s (bump (bump s 0x600020) (hitCounter hit)) := (bump_same ..).trans (bump_same ..)
  unfold lookupCounts
  dsimp only
  split
  next => exact counted
  next => exact counted.trans (bump_same ..)

/-- A lookup changes no register but its three counters, and those of reports. -/
theorem rd_lookupCounts {o : Nat} (hf : faultReg o = false) (h0 : o ≠ 0x600020) (hh : o ≠ hitCounter hit) (hg : o ≠ 0x600030) :
    rd (lookupCounts s x hit) o = rd s o := by
  have counted : rd (bump (bump s 0x600020) (hitCounter hit)) o = rd s o := (rd_bump hf hh).trans (rd_bump hf h0)
  unfold lookupCounts
  dsimp only
  split
  next => exact counted
  next => exact (rd_bump hf hg).trans counted

/-- The lookups' counter takes the lookup (R274). -/
theorem rn_lookupCounts_lookups : rn (lookupCounts s x hit) 0x600020 = min (rn s 0x600020 + 1) (2 ^ 32 - 1) := by
  have counted : rn (bump (bump s 0x600020) (hitCounter hit)) 0x600020 = min (rn s 0x600020 + 1) (2 ^ 32 - 1) := by
    rw [rn, rd_bump (by decide) (hitCounter_ne_lookups hit).symm]
    exact rn_bump_same (by decide)
  unfold lookupCounts
  dsimp only
  split
  next => exact counted
  next => rw [rn, rd_bump (by decide) (by decide), ← rn, counted]

/-- The answer's counter takes it (R268, R274). -/
theorem rn_lookupCounts_hit : rn (lookupCounts s x hit) (hitCounter hit) = min (rn s (hitCounter hit) + 1) (2 ^ 32 - 1) := by
  have plain : faultReg (hitCounter hit) = false := faultReg_of_ge (Nat.le_trans (by decide) (hitCounter_ge hit))
  have counted : rn (bump (bump s 0x600020) (hitCounter hit)) (hitCounter hit) = min (rn s (hitCounter hit) + 1) (2 ^ 32 - 1) := by
    rw [rn_bump_same plain, rn, rd_bump plain (hitCounter_ne_lookups hit), ← rn]
  unfold lookupCounts
  dsimp only
  split
  next => exact counted
  next => rw [rn, rd_bump plain (hitCounter_ne_stale hit), ← rn, counted]

/-- A lookup by a generation that is neither active nor draining counts as one (R274). -/
theorem rn_lookupCounts_stale (hd : ecamDraining s = false) (hg : x.gen ≠ ecamActive s) :
    rn (lookupCounts s x hit) 0x600030 = min (rn s 0x600030 + 1) (2 ^ 32 - 1) := by
  have counted {o : Nat} (hf : faultReg o = false) (h0 : o ≠ 0x600020) (hh : o ≠ hitCounter hit) :
      rd (bump (bump s 0x600020) (hitCounter hit)) o = rd s o := (rd_bump hf hh).trans (rd_bump hf h0)
  have below : (0x600004 : Nat) ≠ hitCounter hit := Nat.ne_of_lt (Nat.lt_of_lt_of_le (by decide) (hitCounter_ge hit))
  have stale : genLive (bump (bump s 0x600020) (hitCounter hit)) x.gen = false := by
    have gen := counted (o := 0x600004) (by decide) (by decide) below
    rw [genLive, ecamActive, ecamDraining, rb_congr gen, rbit_congr gen]
    simpa using ⟨hg, hd⟩
  unfold lookupCounts
  rw [if_neg (by simp [stale]), rn_bump_same (by decide), rn, counted (by decide) (by decide) (hitCounter_ne_stale hit).symm, ← rn]

theorem fcol_bumpRaw {o n : Nat} {wm : Bool} : (bumpRaw s o n wm).1.fcol = s.fcol := (bumpRaw_same ..).get_fcol rfl

/-- Reports leave SAFE as it is. -/
theorem safe_fileReport {fuel : Nat} {r : Report} : (fileReport fuel s r).fcol.safe = s.fcol.safe := by
  induction fuel generalizing s r with
  | zero => rfl
  | succ fuel ih =>
    have counted {y : State} {o : Nat} {r : Report} :
        (if (bumpRaw y o 1 false).2 then fileReport fuel (bumpRaw y o 1 false).1 r else (bumpRaw y o 1 false).1).fcol.safe =
          y.fcol.safe := by
      split
      next => rw [ih, fcol_bumpRaw]
      next => rw [fcol_bumpRaw]
    unfold fileReport
    split
    next => exact counted.trans counted
    next => rfl

theorem safe_bump {o n : Nat} : (bump s o n).fcol.safe = s.fcol.safe := by
  unfold bump
  dsimp only
  split
  next => rw [raise, safe_fileReport, fcol_bumpRaw]
  next => rw [fcol_bumpRaw]

theorem safe_lookupCounts : (lookupCounts s x hit).fcol.safe = s.fcol.safe := by
  have counted : (bump (bump s 0x600020) (hitCounter hit)).fcol.safe = s.fcol.safe := safe_bump.trans safe_bump
  unfold lookupCounts
  dsimp only
  split
  next => exact counted
  next => exact safe_bump.trans counted

end

/-! ## The slot that is looked up -/

/-- The slot of a pair that a lookup takes where it is the next: its class-0 ingress tap before its others (R270). -/
def oldestSlot (s : State) (l tag : Nat) (g : Bool) : Option ESlot :=
  ((lane s l).slots.find? (fun y => slotWaits tag g y && slotFirst y)).orElse (fun _ => (lane s l).slots.find? (slotWaits tag g))

/-- The state in which slot y of lane l waits no longer. -/
def slotTaken (s : State) (l : Nat) (y : ESlot) : State :=
  setLane s l { lane s l with slots := (lane s l).slots.map (fun w => if w = y then { w with waits := false } else w) }

section
variable {s : State} {l tag : Nat} {g : Bool} {y : ESlot}

theorem lookupRun_of_next (h : oldestSlot s l tag g = some y) (next : slotNext s l y = true) :
    lookupRun s l tag g = lookup (slotTaken s l y) l y := by
  unfold lookupRun
  dsimp only
  rw [← oldestSlot, h]
  dsimp only
  rw [if_neg (by simp [next])]
  rfl

theorem lookupRun_of_none (h : ∀ y, oldestSlot s l tag g = some y → slotNext s l y = false) : lookupRun s l tag g = s := by
  unfold lookupRun
  dsimp only
  rw [← oldestSlot]
  split
  next => rfl
  next y found => rw [if_pos (by simp [h y found])]

end

/-! ## The lookup of a slot -/

/-- The ring of a group and a flow hash is found by registers of the rings' block (R277). -/
theorem ringOf_congr {s t : State} (h : ∀ o, 0x700000 ≤ o → rd t o = rd s o) (group : Nat) (q : Option Parsed) :
    ringOf t group (flowHash t q) = ringOf s group (flowHash s q) := by
  have same {o : Nat} (ho : 0x700000 ≤ o) : rn t o = rn s o := by rw [rn, h o ho, ← rn]
  have hash : flowHash t q = flowHash s q := by rw [flowHash, same (by decide), ← flowHash]
  rw [hash, ringOf, same (by omega), ← ringOf]

section
variable {s : State} {l : Nat} {y : ESlot} {hit : Option Nat}

theorem lookupReady_same : Same (2 ^ 22 + 2 ^ 13 + 2 ^ 4) s (lookupReady s y hit) :=
  (lookupCounts_same.mono rfl).trans (lookupTable_same.mono rfl)

theorem rd_lookupReady (o : Nat) : rd (lookupReady s y hit) o = rd (lookupCounts s y hit) o := rd_congr (lookupTable_same.get_regs rfl) o

/-- The registers of the rings are none of those that a lookup counts in. -/
theorem rd_lookupReady_rings (small : ∀ e, hit = some e → e < 512) {o : Nat} (ho : 0x700000 ≤ o) :
    rd (lookupReady s y hit) o = rd s o := by
  have other : o ≠ hitCounter hit := by
    cases hit with
    | none => exact (Nat.lt_of_lt_of_le (by decide) ho).ne'
    | some e =>
      have he := small e rfl
      simp only [hitCounter, rENT]
      omega
  rw [rd_lookupReady, rd_lookupCounts (faultReg_of_ge (by omega)) (by omega) other (by omega)]

section
variable (found : hit = ecamFind s (keyWords y.ev (8 * l + y.ev.pil.val) (slotParse y.ev y.tap)) y.gen)
include found

/-- The matching entry is one of the 512. -/
theorem hit_lt : ∀ e, hit = some e → e < 512 := fun _ he => ecamFind_lt (found.symm.trans he)

/-- The registers that no report, event or record changes are those of the counts. -/
theorem rd_lookup {o : Nat} (quiet : Quiet o) : rd (lookup s l y) o = rd (lookupCounts s y hit) o := by
  rw [lookup_eq found, rd_presentCapture quiet, rd_lookupReady]

/-- A lookup whose action asks for no record leaves the counts and the entry of the pair alone. -/
theorem lookup_unrecorded (h9 : (ecamAction s hit).testBit 9 = false) : lookup s l y = lookupReady s y hit := by
  rw [lookup_eq found, presentCapture_none h9]

/-- A lookup whose action asks for a record of an event that is no calibration's, outside SAFE and standby, has one counted at its
ring (R277, R279). -/
theorem admitted_lookup (h9 : (ecamAction s hit).testBit 9 = true) (hc : y.ev.cal = false) (hs : s.fcol.safe = false)
    (hb : s.standby = false) {r : Nat} (hr : r = ringOf s (bits (ecamAction s hit) 5 4) (flowHash s (slotParse y.ev y.tap))) :
    (ring (lookup s l y) r).admitted = ((ring s r).admitted + 1) % 2 ^ 64 := by
  have ready : Same (2 ^ 22 + 2 ^ 13 + 2 ^ 4) s (lookupReady s y hit) := lookupReady_same
  have safe : (lookupReady s y hit).fcol.safe = false := by
    rw [lookupReady, lookupTable_same.get_fcol rfl, safe_lookupCounts, hs]
  have standby : (lookupReady s y hit).standby = false := by rw [ready.get_standby rfl, hb]
  have presented := admitted_presentCapture (l := l) (hit := hit) (q := slotParse y.ev y.tap) h9 hc safe standby
  rw [ringOf_congr (fun _ => rd_lookupReady_rings (hit_lt found)), ← hr, ring_congr (ready.get_rings rfl)] at presented
  rw [lookup_eq found, presented]

/-- A lookup whose action asks for no record changes no register but its counters and the reports'. -/
theorem regsKept_lookup (h9 : (ecamAction s hit).testBit 9 = false) :
    RegsKept s (lookup s l y) [0x600020, hitCounter hit, 0x600030] := by
  intro o hf ho
  simp only [List.mem_cons, List.not_mem_nil, or_false, not_or] at ho
  obtain ⟨h0, hh, hg⟩ := ho
  rw [lookup_unrecorded found h9, rd_lookupReady, rd_lookupCounts hf h0 hh hg]

end
end

theorem quiet_lookups : Quiet 0x600020 := quiet_of_lt (by decide) (by decide) (by decide)

theorem quiet_misses : Quiet 0x600024 := quiet_of_lt (by decide) (by decide) (by decide)

theorem quiet_stale : Quiet 0x600030 := quiet_of_lt (by decide) (by decide) (by decide)

/-- A lookup's answer is read from registers and fences. -/
theorem ecamFind_congr {s t : State} (hr : t.regs = s.regs) (hf : t.fcol = s.fcol) (key : List Nat) (g : Nat) :
    ecamFind t key g = ecamFind s key g := by
  simp only [ecamFind, ecamOut, srcFenced, genLive, ecamActive, ecamDraining, rb, rbit, rn, rd, hr, hf]
  congr

theorem ecamAction_congr {s t : State} (hr : t.regs = s.regs) (hit : Option Nat) : ecamAction t hit = ecamAction s hit := by
  cases hit <;> simp only [ecamAction, rn_congr hr]

/-- Settles O35: the lookup is its counts, the entry of the pair, and the record that its action asks for. -/
theorem lookupCountsAndKeepsTheRings : Obligations.LookupCountsAndKeepsTheRings := by
  intro l tag g k s oldest
  refine ⟨fun waits => congrArg Host.Outcome.next (lookupRun_of_none waits), fun y hit hy next found => ?_⟩
  have run : lookupRun (atCyc s k) l.val tag.toNat g = lookup (slotTaken (atCyc s k) l.val y) l.val y := lookupRun_of_next hy next
  refine ⟨_, congrArg Host.Outcome.next run, ?_⟩
  have slots : (lane (slotTaken (atCyc s k) l.val y) l.val).slots =
      (lane s l.val).slots.map (fun w => if w = y then { w with waits := false } else w) := by
    rw [slotTaken, lane_setLane_same]
    rfl
  have taken : Same (2 ^ 20 + 2 ^ 2) s (slotTaken (atCyc s k) l.val y) :=
    ((atCyc_same s k).mono rfl).trans ((setLane_same ..).mono rfl)
  generalize slotTaken (atCyc s k) l.val y = u at slots taken ⊢
  have regs : u.regs = s.regs := taken.get_regs rfl
  have fcol : u.fcol = s.fcol := taken.get_fcol rfl
  rw [← ecamFind_congr regs fcol] at found
  have count {o : Nat} (quiet : Quiet o) : rn (lookup u l.val y) o = rn (lookupCounts u y hit) o := by
    rw [rn, rd_lookup found quiet, ← rn]
  have answer : rn (lookup u l.val y) (hitCounter hit) = min (rn s (hitCounter hit) + 1) (2 ^ 32 - 1) := by
    rw [count (quiet_hitCounter (hit_lt found)), rn_lookupCounts_hit, rn_congr regs]
  refine ⟨?_, ?_, ?_, ?_, ?_, ?_, ?_, ?_⟩
  · rw [lane_congr ((lookup_same ..).get_lanes rfl), slots]
  · rw [count quiet_lookups, rn_lookupCounts_lookups, rn_congr regs]
  · rintro rfl
    exact answer
  · rintro e rfl
    refine ⟨answer, ?_⟩
    have other : (0x600024 : Nat) ≠ hitCounter (some e) := by simp only [hitCounter, rENT]; omega
    rw [count quiet_misses, rn, rd_lookupCounts (by decide) (by decide) other (by decide), rd_congr regs, ← rn]
  · intro still other
    have active : rd u 0x600004 = rd s 0x600004 := rd_congr regs _
    rw [count quiet_stale, rn_lookupCounts_stale ((rbit_congr active 1).trans still) (fun e => other (e.trans (rb_congr active 0 1))),
      rn_congr regs]
  · intro n conserved
    exact balanced_iff.1 (balanced_lookup.2 ((taken.balanced rfl).2 (balanced_iff.2 conserved)))
  · intro h9 hc hs hb r hr
    rw [← ecamAction_congr regs] at h9 hr
    rw [← ringOf_congr (fun o _ => rd_congr regs o)] at hr
    rw [admitted_lookup found h9 hc (by rw [fcol, hs]) (by rw [taken.get_standby rfl, hb]) hr, ring_congr (taken.get_rings rfl)]
  · intro h9
    rw [← ecamAction_congr regs] at h9
    have ready : Same (2 ^ 22 + 2 ^ 13 + 2 ^ 4) u (lookup u l.val y) := by
      rw [lookup_unrecorded found h9]
      exact lookupReady_same
    refine ⟨(ready.get_rings rfl).trans (taken.get_rings rfl), memKept_of_mem ((ready.get_mem rfl).trans (taken.get_mem rfl)), ?_⟩
    intro o hf ho
    refine (regsKept_lookup found h9 o hf fun named => ho ?_).trans (rd_congr regs o)
    cases hit <;> simpa [hitCounter, or_comm, or_left_comm] using named

end Sys2Proof.Machine
end

section
/-!
PROOFS. O3: every command keeps the memories in their canonical form (R294, R542).
-/
namespace Sys2Proof.Machine
open Sys2Proof

/-- A command that leaves the memories alone keeps their form. -/
theorem memOk_of_same {M : Nat} {s : State} {o : Host.Outcome State Fault Refusal} (k : ∃ t, o = .next t ∧ Same M s t)
    (e : M.testBit 10 = false) : ∃ t, o = .next t ∧ MemOk s t := by
  obtain ⟨t, h, same⟩ := k
  exact ⟨t, h, .ofSame e same (.refl s)⟩

/-- Every command keeps the memories in their canonical form: one that can write them by the operations through which it does, any
other by its frame. -/
theorem exec_memOk (c : Instr) (s : State) : ∃ t, exec c s = .next t ∧ MemOk s t := by
  cases c
  case addi | add | addc | sub | subc | and | or | xor | andn | shl | shr | sar | mul | mulhu | mulhs | cmp | tst | cmpi | andi
      | ori | xori | lui | shli | shri | sari | stw | sth | stb | bcc | bl | jr | jalr | waitE | sig | halt | trap | fence |
      coreid =>
    exact ⟨_, rfl, seqOp_memOk ..⟩
  case ldw | ldh | ldhu | ldb | ldbu =>
    exact ⟨_, rfl, seqIssue_memOk ..⟩
  case rdreg | wrreg | hopAt | phsAt | ratAt | oenAt | gangAt | snapAt | tnow | waitT | post =>
    exact ⟨_, rfl, .step (seqOp_memOk ..) (.ofSame rfl (atCyc_same ..) (.refl s))⟩
  case lockWrite | sealHold | timeSet | timeStep | timeSlew | timeSlewStop | timeEnq | screedClear | ecamEntryWrite | genSwitch
      | ringCfgWrite | flush | ringRdWrite | seqStart | seqHalt | seqResume | seqStep | seqVerify | seqDoorbell | seqExcClr |
      dmaEnable | dmaPause | dmaDoorbell | dmaResume | dmaAbort | dmaHrdWrite | unfenceRequest | pendClear | firstErrorRearm |
      snapHold | softReset | watchdogKick | parkRelease =>
    exact ⟨_, rfl, regPut_memOk ..⟩
  case bandcal | requal | qnow | resel | clrhist =>
    exact ⟨_, rfl, regPutM_memOk ..⟩
  case retune | fodInselWrite | pstep | pslew | pstop | hopGo | resync | portFodWrite =>
    exact ⟨_, rfl, .step (regPutM_memOk ..) (.ofSame rfl (atCyc_same ..) (.refl s))⟩
  case sealCommit | nvsStore | nvsLoad | configStore | calRun | portCal | refQualify | scRetune | phaseWalk | selftest |
      mateSync | screedSave =>
    exact ⟨_, rfl, cmdAccess_memOk ..⟩
  case queuedStep | queuedSlew | queuedRate | queuedSlewStop =>
    exact ⟨_, rfl, queuedTime_memOk ..⟩
  case registerWrite => exact execRegisterWrite_memOk ..
  case shadowLatchRead => exact execShadowLatchRead_memOk ..
  case timeRead => exact execTimeRead_memOk ..
  case postedWriteLand => exact execPostedWriteLand_memOk ..
  case sealPassEnd => exact execSealPassEnd_memOk ..
  case aonBoundary => exact execAonBoundary_memOk ..
  case slewEnd => exact execSlewEnd_memOk ..
  case ppsEvent => exact execPpsEvent_memOk ..
  case fodDivCommit => exact execFodDivCommit_memOk ..
  case hopEntryCommit => exact execHopEntryCommit_memOk ..
  case swrefSample => exact execSwrefSample_memOk ..
  case event => exact execEvent_memOk ..
  case tap => exact execTap_memOk ..
  case beacon => exact execBeacon_memOk ..
  case abort lane pil tag gen k => exact execAbort_memOk lane pil tag gen k s
  case creditSyncEcho => exact execCreditSyncEcho_memOk ..
  case badBlock => exact execBadBlock_memOk ..
  case correction => exact execCorrection_memOk ..
  case ingressAgeRetire => exact execIngressAgeRetire_memOk ..
  case ecamLookup => exact execEcamLookup_memOk ..
  case eccUncorr => exact execEccUncorr_memOk ..
  case nop => exact execNop_memOk ..
  case commandStart => exact execCommandStart_memOk ..
  case commandComplete => exact execCommandComplete_memOk ..
  case commandTimeout => exact execCommandTimeout_memOk ..
  case descFetch => exact execDescFetch_memOk ..
  case descWriteBack => exact execDescWriteBack_memOk ..
  case dmaBusError => exact execDmaBusError_memOk ..
  case aonReady => exact execAonReady_memOk ..
  case nvsLoadComplete => exact execNvsLoadComplete_memOk ..
  case powerupCalStart => exact execPowerupCalStart_memOk ..
  case calApply => exact execCalApply_memOk ..
  case faultIntake => exact execFaultIntake_memOk ..
  case faultInject => exact execFaultInject_memOk ..
  case snapNow => exact execSnapNow_memOk ..
  case snapEnq => exact execSnapEnq_memOk ..
  case queuedSnap => exact execQueuedSnap_memOk ..
  case snapInEdge => exact execSnapInEdge_memOk ..
  case mateLineChange => exact execMateLineChange_memOk ..
  case claim => exact execClaim_memOk ..
  case ckpt => exact execCkpt_memOk ..
  case fwd => exact execFwd_memOk ..
  case snap => exact execSnap_memOk ..
  case mateSyncApply => exact execMateSyncApply_memOk ..
  case yield => exact execYield_memOk ..
  case por => exact execPor_memOk ..
  case mrstNRelease => exact execMrstNRelease_memOk ..
  case watchdogExpiry => exact execWatchdogExpiry_memOk ..
  case coreWake => exact execCoreWake_memOk ..
  case supplyMeasure => exact execSupplyMeasure_memOk ..
  case zeroCrossing => exact execZeroCrossing_memOk ..
  case rideExit => exact execRideExit_memOk ..
  case supplySummary => exact execSupplySummary_memOk ..
  case rideYield => exact execRideYield_memOk ..
  case rideStores => exact execRideStores_memOk ..
  case orderedShutdown => exact execOrderedShutdown_memOk ..
  case temps => exact execTemps_memOk ..
  case bar2Write => exact execBar2Write_memOk ..
  case semaphoreRead => exact execSemaphoreRead_memOk ..
  case supplyCollapse => exact execSupplyCollapse_memOk ..
  case holdExpired => exact memOk_of_same (execHoldExpired_same ..) rfl
  case msBoundary => exact memOk_of_same (execMsBoundary_same ..) rfl
  case leapArm => exact memOk_of_same (execLeapArm_same ..) rfl
  case leapApply => exact memOk_of_same (execLeapApply_same ..) rfl
  case ppsPulseEnd => exact memOk_of_same (execPpsPulseEnd_same ..) rfl
  case queuedRetune => exact memOk_of_same (execQueuedRetune_same ..) rfl
  case scRampEnd => exact memOk_of_same (execScRampEnd_same ..) rfl
  case bandCalDone => exact memOk_of_same (execBandCalDone_same ..) rfl
  case lockFastSet => exact memOk_of_same (execLockFastSet_same ..) rfl
  case lockFastClear => exact memOk_of_same (execLockFastClear_same ..) rfl
  case lockSetRise => exact memOk_of_same (execLockSetRise_same ..) rfl
  case lossOfLock => exact memOk_of_same (execLossOfLock_same ..) rfl
  case lockDeadlineMiss => exact memOk_of_same (execLockDeadlineMiss_same ..) rfl
  case trailEntry => exact memOk_of_same (execTrailEntry_same ..) rfl
  case rehomeSwitch => exact memOk_of_same (execRehomeSwitch_same ..) rfl
  case fodSlewEnd => exact memOk_of_same (execFodSlewEnd_same ..) rfl
  case witnessVisit => exact memOk_of_same (execWitnessVisit_same ..) rfl
  case fodStart => exact memOk_of_same (execFodStart_same ..) rfl
  case fodGroupWake => exact memOk_of_same (execFodGroupWake_same ..) rfl
  case outputDriverStart => exact memOk_of_same (execOutputDriverStart_same ..) rfl
  case outputDisable => exact memOk_of_same (execOutputDisable_same ..) rfl
  case queuedHop => exact memOk_of_same (execQueuedHop_same ..) rfl
  case queuedPhaseMove => exact memOk_of_same (execQueuedPhaseMove_same ..) rfl
  case queuedOen => exact memOk_of_same (execQueuedOen_same ..) rfl
  case hopReloadDone => exact memOk_of_same (execHopReloadDone_same ..) rfl
  case hopRateRelease => exact memOk_of_same (execHopRateRelease_same ..) rfl
  case refTimeEvent => exact memOk_of_same (execRefTimeEvent_same ..) rfl
  case refFreqSample => exact memOk_of_same (execRefFreqSample_same ..) rfl
  case zdaSentence => exact memOk_of_same (execZdaSentence_same ..) rfl
  case binaryTodFrame => exact memOk_of_same (execBinaryTodFrame_same ..) rfl
  case irigInFrame => exact memOk_of_same (execIrigInFrame_same ..) rfl
  case refLos => exact memOk_of_same (execRefLos_same ..) rfl
  case refFreqGate => exact memOk_of_same (execRefFreqGate_same ..) rfl
  case refQualTimer => exact memOk_of_same (execRefQualTimer_same ..) rfl
  case refDisqTimer => exact memOk_of_same (execRefDisqTimer_same ..) rfl
  case wtrExpiry => exact memOk_of_same (execWtrExpiry_same ..) rfl
  case screedSample => exact memOk_of_same (execScreedSample_same ..) rfl
  case screedTeUpdate => exact memOk_of_same (execScreedTeUpdate_same ..) rfl
  case creditSyncMarker => exact memOk_of_same (execCreditSyncMarker_same ..) rfl
  case creditAuditTimeout => exact memOk_of_same (execCreditAuditTimeout_same ..) rfl
  case slotFree => exact memOk_of_same (execSlotFree_same ..) rfl
  case creditLinkUp => exact memOk_of_same (execCreditLinkUp_same ..) rfl
  case laneDown => exact memOk_of_same (execLaneDown_same ..) rfl
  case pairWaitExpiry => exact memOk_of_same (execPairWaitExpiry_same ..) rfl
  case prevNumberingExpiry => exact memOk_of_same (execPrevNumberingExpiry_same ..) rfl
  case calStopTimeout => exact memOk_of_same (execCalStopTimeout_same ..) rfl
  case drainComplete => exact memOk_of_same (execDrainComplete_same ..) rfl
  case tokenRefill => exact memOk_of_same (execTokenRefill_same ..) rfl
  case parity => exact memOk_of_same (execParity_same ..) rfl
  case ecamSigUpdate => exact memOk_of_same (execEcamSigUpdate_same ..) rfl
  case waitTResume => exact memOk_of_same (execWaitTResume_same ..) rfl
  case waitEResume => exact memOk_of_same (execWaitEResume_same ..) rfl
  case readTimeout => exact memOk_of_same (execReadTimeout_same ..) rfl
  case breakpointHit => exact memOk_of_same (execBreakpointHit_same ..) rfl
  case imageVerifyDone => exact memOk_of_same (execImageVerifyDone_same ..) rfl
  case dmaPaused => exact memOk_of_same (execDmaPaused_same ..) rfl
  case drainBurst => exact memOk_of_same (execDrainBurst_same ..) rfl
  case drainFlushTimer => exact memOk_of_same (execDrainFlushTimer_same ..) rfl
  case dmaPromotion => exact memOk_of_same (execDmaPromotion_same ..) rfl
  case portCalDefer => exact memOk_of_same (execPortCalDefer_same ..) rfl
  case skimMeasure => exact memOk_of_same (execSkimMeasure_same ..) rfl
  case skimNaturalSwap => exact memOk_of_same (execSkimNaturalSwap_same ..) rfl
  case softAge => exact memOk_of_same (execSoftAge_same ..) rfl
  case skimForcedSwap => exact memOk_of_same (execSkimForcedSwap_same ..) rfl
  case fenceClear => exact memOk_of_same (execFenceClear_same ..) rfl
  case shadowWindowExpiry => exact memOk_of_same (execShadowWindowExpiry_same ..) rfl
  case sevParityCheck => exact memOk_of_same (execSevParityCheck_same ..) rfl
  case snapComplete => exact memOk_of_same (execSnapComplete_same ..) rfl
  case mateLaneUp => exact memOk_of_same (execMateLaneUp_same ..) rfl
  case mateLaneDown => exact memOk_of_same (execMateLaneDown_same ..) rfl
  case twtReqSend => exact memOk_of_same (execTwtReqSend_same ..) rfl
  case twtReq l t1 t2 t3 => exact memOk_of_same (execTwtReq_same l t1 t2 t3 s) rfl
  case twtResp => exact memOk_of_same (execTwtResp_same ..) rfl
  case ckptMiss => exact memOk_of_same (execCkptMiss_same ..) rfl
  case statusSend => exact memOk_of_same (execStatusSend_same ..) rfl
  case status => exact memOk_of_same (execStatus_same ..) rfl
  case handover => exact memOk_of_same (execHandover_same ..) rfl
  case events => exact memOk_of_same (execEvents_same ..) rfl
  case words => exact memOk_of_same (execWords_same ..) rfl
  case ledger => exact memOk_of_same (execLedger_same ..) rfl
  case image => exact memOk_of_same (execImage_same ..) rfl
  case ownRefresh => exact memOk_of_same (execOwnRefresh_same ..) rfl
  case mrstNAssert => exact memOk_of_same (execMrstNAssert_same ..) rfl
  case coreSleep => exact memOk_of_same (execCoreSleep_same ..) rfl
  case storeFull => exact memOk_of_same (execStoreFull_same ..) rfl
  case chargeSlow => exact memOk_of_same (execChargeSlow_same ..) rfl
  case ocxoReady => exact memOk_of_same (execOcxoReady_same ..) rfl
  case notWarm => exact memOk_of_same (execNotWarm_same ..) rfl
  case ovenFail => exact memOk_of_same (execOvenFail_same ..) rfl
  case baseLol => exact memOk_of_same (execBaseLol_same ..) rfl
  case converter => exact memOk_of_same (execConverter_same ..) rfl
  case thermalAlarm => exact memOk_of_same (execThermalAlarm_same ..) rfl
  case driver => exact memOk_of_same (execDriver_same ..) rfl
  case ident => exact memOk_of_same (execIdent_same ..) rfl
  case smbStatus => exact memOk_of_same (execSmbStatus_same ..) rfl
  case supply => exact memOk_of_same (execSupply_same ..) rfl
  case faults => exact memOk_of_same (execFaults_same ..) rfl
  case fences => exact memOk_of_same (execFences_same ..) rfl
  case alertClr => exact memOk_of_same (execAlertClr_same ..) rfl
  case alertResponse => exact memOk_of_same (execAlertResponse_same ..) rfl
  case perst => exact memOk_of_same (execPerst_same ..) rfl
  case pcieLinkDown => exact memOk_of_same (execPcieLinkDown_same ..) rfl
  case inputInRange dc => exact memOk_of_same (execInputInRange_same dc s) rfl
  case blockLock => exact memOk_of_same (execBlockLock_same ..) rfl
  case mateStatusStale => exact memOk_of_same (execMateStatusStale_same ..) rfl
  case pcieLinkUp => exact memOk_of_same (execPcieLinkUp_same ..) rfl
  case configurationRequest => exact memOk_of_same (execConfigurationRequest_same ..) rfl
  case uncorr => exact memOk_of_same (execUncorr_same ..) rfl

/-- Settles O3: a step is a command, or idles. -/
theorem stepKeepsTheMemoriesCanonical : Obligations.StepKeepsTheMemoriesCanonical := by
  intro s t canonical stepped
  have kept : ∃ t, step s = .next t ∧ MemOk s t := by
    unfold step
    split
    next => exact ⟨s, rfl, .refl s⟩
    next c rest _ =>
      obtain ⟨u, run, mem⟩ := exec_memOk c { s with pending := rest }
      have taken : MemOk s { s with pending := rest } := .ofMem (x := s) rfl (.refl s)
      exact ⟨u, run, taken.trans mem⟩
  obtain ⟨u, run, mem⟩ := kept
  rw [run, Host.Outcome.next.injEq] at stepped
  subst stepped
  unfold MemOk at mem
  exact mem canonical

end Sys2Proof.Machine
end

section
/-!
PROOFS. O41: the exceptions of an Oarva core (R306, R310, R311).
-/
namespace Sys2Proof.Machine
open Sys2Proof

/-! ## What an exception saves -/

/-- A halt leaves the bits of SEQ_STATUS above its two fields. -/
theorem rbit_seqHaltAs (s : State) (n why : Nat) {i : Nat} (h : 7 ≤ i) :
    rbit (seqHaltAs s n why) (rSEQ n 4) i = rbit s (rSEQ n 4) i := by
  unfold seqHaltAs
  dsimp only
  rw [rbit_wb_ne _ _ _ _ _ _ (by decide) (by omega), rbit_wb_ne _ _ _ _ _ _ (by decide) (by omega)]
  rfl

theorem rbit_stepEnd (s : State) (n : Nat) {i : Nat} (h : 7 ≤ i) : rbit (stepEnd s n) (rSEQ n 4) i = rbit s (rSEQ n 4) i := by
  unfold stepEnd
  split
  · exact rbit_seqHaltAs s n 4 h
  · rfl

section
variable {s : State} {n pc : Nat} {c : Cause310}

theorem rd_excSaved {o : Nat} (hn : n < 8) (hf : faultReg o = false) (h : o ∉ excRegs n) :
    rd (excSaved s n pc c) o = rd s o := by
  simp only [excRegs, List.mem_cons, List.not_mem_nil, or_false, not_or] at h
  obtain ⟨h04, -, h14, h18, h1C, h20⟩ := h
  unfold excSaved
  dsimp only
  rw [rd_wb_ne _ _ _ _ h04, rd_wr_ne _ _ h20, rd_wr_ne _ _ h1C, rd_wr_ne _ _ h18, rd_wr_ne _ _ h14,
    rd_raise (by unfold srcSeq; omega) hf]

/-- SEQ_STATUS takes IN_EXC and nothing else. -/
theorem rn_excSaved_status (hn : n < 8) : rn (excSaved s n pc c) (rSEQ n 4) = setBits (rn s (rSEQ n 4)) 7 1 1 := by
  have ne {a : Nat} (h : 4 ≠ a) := rSEQ_ne n h
  unfold excSaved
  dsimp only
  rw [rn_wb_same _ _ _ _ _ (by decide), rn_wr_ne _ _ (ne (by decide)), rn_wr_ne _ _ (ne (by decide)),
    rn_wr_ne _ _ (ne (by decide)), rn_wr_ne _ _ (ne (by decide)), rn, rd_raise (by unfold srcSeq; omega) (faultReg_rSEQ n 4), ← rn]

theorem rb_excSaved_state (hn : n < 8) : rb (excSaved s n pc c) (rSEQ n 4) 0 3 = rb s (rSEQ n 4) 0 3 := by
  rw [rb, rn_excSaved_status hn, rb]
  apply Nat.eq_of_testBit_eq
  intro i
  rw [bits_testBit, bits_testBit, setBits_testBit]
  by_cases hi : i < 3
  · rw [if_neg (by omega)]
  · simp [hi]

theorem rbit_excSaved_inExc (hn : n < 8) : rbit (excSaved s n pc c) (rSEQ n 4) 7 = true := by
  rw [rbit, rn_excSaved_status hn, setBits_testBit]
  rfl

theorem flg_word_lt (f : Flg) : f.word < 2 ^ 32 := by
  obtain ⟨z, n, c, v⟩ := f
  cases z <;> cases n <;> cases c <;> cases v <;> decide

theorem rn_excSaved_where (hn : n < 8) : rn (excSaved s n pc c) (rSEQ n 0x1C) = c.addr % 2 ^ 24 ∧
    rn (excSaved s n pc c) (rSEQ n 0x20) = (seqFlg s n).word := by
  have ne {a b : Nat} (h : a ≠ b) := rSEQ_ne n h
  have flags : seqFlg (wr (raise s (srcSeq n) c.kind (c.addr % 2 ^ 24) (5 + n) c.access) (rSEQ n 0x14)
      ((pc + b2n c.after) % 4096)) n = seqFlg s n := by
    rw [seqFlg, rn_wr_ne _ _ (ne (by decide)), rn, rd_raise (by unfold srcSeq; omega) (faultReg_rSEQ n _), ← rn, seqFlg]
  unfold excSaved
  dsimp only
  constructor
  · rw [rn_wb_ne _ _ _ _ (ne (by decide)), rn_wr_ne _ _ (ne (by decide)), rn_wr_same]
    omega
  · rw [rn_wb_ne _ _ _ _ (ne (by decide)), rn_wr_same, flags]
    exact Nat.mod_eq_of_lt (flg_word_lt _)

/-! ## Where the core goes on -/

/-- An exception that is neither DOUBLE nor ECC leaves what it saves, but for PC and STATE. -/
theorem rn_seqExcept_saved {o : Nat} (hd : rbit s (rSEQ n 4) 7 = false) (hk : c.kind ≠ kEcc) (h4 : o ≠ rSEQ n 4)
    (hC : o ≠ rSEQ n 0x0C) : rn (seqExcept s n pc c) o = rn (excSaved s n pc c) o := by
  rw [seqExcept_saved pc hd hk]
  split
  · exact rn_wr_ne _ _ hC
  · rw [rn, rd_seqHaltAs h4, ← rn]
    exact rn_wr_ne _ _ hC

/-- With SEQ_CTRL.EXC set the core goes on at SEQ_VEC. -/
theorem seqExcept_vectors (hn : n < 8) (hd : rbit s (rSEQ n 4) 7 = false) (hk : c.kind ≠ kEcc) (hv : rbit s (rSEQ n 0) 0 = true) :
    seqExcept s n pc c = setPc (excSaved s n pc c) n (rb s (rSEQ n 0x28) 0 12) := by
  have kept {o : Nat} (h : rSEQ n o ∉ excRegs n) := rd_excSaved (s := s) (pc := pc) (c := c) hn (faultReg_rSEQ n o) h
  rw [seqExcept_saved pc hd hk, rbit_congr (kept (by simp [excRegs, rSEQ])), if_pos hv, rb_congr (kept (by simp [excRegs, rSEQ]))]

/-- A core that goes on at SEQ_VEC is in the state it was in (R311). -/
theorem seqExcept_goesOn (hn : n < 8) (hd : rbit s (rSEQ n 4) 7 = false) (hk : c.kind ≠ kEcc) (hv : rbit s (rSEQ n 0) 0 = true) :
    seqPc (seqExcept s n pc c) n = rb s (rSEQ n 0x28) 0 12 ∧
      rb (seqExcept s n pc c) (rSEQ n 4) 0 3 = rb s (rSEQ n 4) 0 3 ∧ (seqExcept s n pc c).seqs = s.seqs := by
  have wrote (x : State) (o v : Nat) : (wr x o v).seqs = x.seqs := rfl
  have saved : (excSaved s n pc c).seqs = s.seqs := by
    rw [excSaved, wb, wrote, wrote, wrote, wrote, wrote]
    exact (raise_same s _ _ _ _ _).get_seqs rfl
  rw [seqExcept_vectors hn hd hk hv, seqPc_setPc]
  refine ⟨Nat.mod_eq_of_lt (Nat.mod_lt _ (by decide)), ?_, saved⟩
  exact (rb_congr (rd_wr_ne _ _ (rSEQ_ne n (by decide))) 0 3).trans (rb_excSaved_state hn)

/-- DOUBLE, ECC and a core without a vector halt. -/
theorem seqExcept_halts (hn : n < 8) (h : rbit s (rSEQ n 4) 7 = true ∨ c.kind = kEcc ∨ rbit s (rSEQ n 0) 0 = false) :
    ∃ y, seqExcept s n pc c = seqHaltAs (setPc y n ((pc + b2n c.after) % 4096)) n 5 := by
  by_cases hd : rbit s (rSEQ n 4) 7 = true
  · exact ⟨_, by simp only [seqExcept, hd, if_true]; rfl⟩
  have hd : rbit s (rSEQ n 4) 7 = false := Bool.eq_false_iff.2 hd
  by_cases hk : c.kind = kEcc
  · exact ⟨_, by simp only [seqExcept, hd, Bool.false_eq_true, if_false, hk, if_true]; rfl⟩
  have hv : rbit s (rSEQ n 0) 0 = false := by simpa [hd, hk] using h
  refine ⟨excSaved s n pc c, ?_⟩
  rw [seqExcept_saved pc hd hk, rbit_congr (rd_excSaved hn (faultReg_rSEQ n 0) (by simp [excRegs, rSEQ])),
    if_neg (by rw [hv]; exact Bool.false_ne_true)]

/-- An exception that is neither DOUBLE nor ECC sets IN_EXC (R311). -/
theorem seqExcept_inExc (hn : n < 8) (hd : rbit s (rSEQ n 4) 7 = false) (hk : c.kind ≠ kEcc) :
    rbit (seqExcept s n pc c) (rSEQ n 4) 7 = true := by
  have moved (v : Nat) : rbit (setPc (excSaved s n pc c) n v) (rSEQ n 4) 7 = true :=
    (rbit_congr (rd_wr_ne _ _ (rSEQ_ne n (by decide))) 7).trans (rbit_excSaved_inExc hn)
  rw [seqExcept_saved pc hd hk]
  split
  · exact moved _
  · exact (rbit_seqHaltAs _ _ _ (by decide)).trans (moved _)

/-- EPC: R310's value, but for DOUBLE, which leaves it (R311). -/
theorem seqExcept_epc (hn : n < 8) : rn (seqExcept s n pc c) (rSEQ n 0x14) =
    if rbit s (rSEQ n 4) 7 = true then rn s (rSEQ n 0x14) else (pc + b2n c.after) % 4096 := by
  have ne {a b : Nat} (h : a ≠ b) := rSEQ_ne n h
  have halted (x : State) (v : Nat) : rn (seqHaltAs (setPc x n v) n 5) (rSEQ n 0x14) = rn x (rSEQ n 0x14) := by
    rw [rn, rd_seqHaltAs (ne (by decide)), ← rn, setPc, rn_wr_ne _ _ (ne (by decide))]
  by_cases hd : rbit s (rSEQ n 4) 7 = true
  · simp only [seqExcept, hd, if_true, halted]
    rw [rn, rd_raise (by unfold srcSeq; omega) (faultReg_rSEQ n _), ← rn]
  have hd : rbit s (rSEQ n 4) 7 = false := Bool.eq_false_iff.2 hd
  rw [if_neg (by rw [hd]; exact Bool.false_ne_true)]
  by_cases hk : c.kind = kEcc
  · simp only [seqExcept, hd, Bool.false_eq_true, if_false, hk, if_true, halted, rn_wr_same]
    omega
  · exact (seqExcept_saves pc hd hk).2

/-- Of the fault collector an exception changes what its fault does (R310). -/
theorem seqExcept_fcol : (seqExcept s n pc c).fcol = (raise s (srcSeq n) (if rbit s (rSEQ n 4) 7 then kDouble else c.kind)
    (c.addr % 2 ^ 24) (5 + n) c.access).fcol := by
  have wrote (x : State) (o v : Nat) : (wr x o v).fcol = x.fcol := rfl
  have halted (x : State) (v : Nat) : (seqHaltAs (setPc x n v) n 5).fcol = x.fcol := rfl
  unfold seqExcept
  dsimp only
  generalize raise s (srcSeq n) (if rbit s (rSEQ n 4) 7 then kDouble else c.kind) (c.addr % 2 ^ 24) (5 + n) c.access = r
  split
  · exact halted _ _
  · split
    · rw [halted, wrote]
    · split
      · rw [setPc, wb, wrote, wrote, wrote, wrote, wrote, wrote]
      · rw [halted, wb, wrote, wrote, wrote, wrote, wrote]

/-- The exception's fault stands in the core's intake queue, which had room (R310, R416). -/
theorem seqExcept_files (hq : queueFull s (srcSeq n) = false) :
    mkReport s (srcSeq n) (if rbit s (rSEQ n 4) 7 then kDouble else c.kind) (c.addr % 2 ^ 24) (5 + n) c.access false ∈
      intakeOf (seqExcept s n pc c) (srcSeq n) := by
  rw [intakeOf, seqExcept_fcol, ← intakeOf, raise_eq hq, intakeOf_enqueue_same (q := srcSeq n) _ rfl]
  exact List.mem_append_right _ List.mem_cons_self

end

/-! ## The instruction that an exception ends -/

theorem stepEnd_halted {s : State} {n : Nat} (h : rb s (rSEQ n 4) 0 3 ≠ 1) : stepEnd s n = s := if_neg fun hs => h hs.2

theorem stepEnd_fcol (s : State) (n : Nat) : (stepEnd s n).fcol = s.fcol := (stepEnd_same s n).get_fcol rfl

theorem intakeOf_seqCount {s : State} {n c q : Nat} {stall : Option Nat} (hq : q ≠ srcCnt) :
    intakeOf (seqCount s n c stall) q = intakeOf s q := by
  unfold seqCount
  split
  · exact intakeOf_bump hq
  · exact intakeOf_bump (s := { s with free := s.free + 1 }) hq
  · exact intakeOf_bump (s := { s with free := s.free + 1 }) hq

/-- An exception leaves the queues of the sources other than its core and the counters. -/
theorem intakeOf_seqAfter_exc {w : State} {n pc c q : Nat} {stall : Option Nat} {e : Cause310} (hs : srcSeq n ≠ q)
    (hq : q ≠ srcCnt) : intakeOf (seqAfter n pc c stall (.exc e w)) q = intakeOf w q := by
  show intakeOf (stepEnd (seqExcept (seqCount w n (c + 3) stall) n pc e) n) q = _
  rw [intakeOf_congr (stepEnd_fcol _ n), intakeOf_congr seqExcept_fcol, intakeOf_raise_ne hs hq, intakeOf_seqCount hq]

/-- An instruction that has not acted and has cause e takes the exception of e. `w` is the state in which it has not acted: the
core's registers but PC, the clock and the core's intake queue are those of `s`. -/
theorem seqAfter_excepts {s w : State} {n pc c : Nat} {stall : Option Nat} {e : Cause310} (hn : n < 8)
    (hs : rb s (rSEQ n 4) 0 3 = 1) (he : e.kind < 2 ^ 32) (hr : RegsKept s w [rSEQ n 0x0C]) (hw : w.seqs = (bpDone s n).seqs)
    (ht : w.time = s.time) (hc : w.cyc = s.cyc) (hi : intakeOf w (0xCA + n) = intakeOf s (0xCA + n))
    (hq : queueFull s (0xCA + n) = false) :
    SeqExcepted s (seqAfter n pc c stall (.exc e w)) n e.kind e.addr e.access ((pc + b2n e.after) % 4096) := by
  let x := seqCount w n (c + 3) stall
  let y := seqExcept x n pc e
  have ne {a b : Nat} (h : a ≠ b) := rSEQ_ne n h
  have src : 0xCA + n ≠ srcCnt := by unfold srcCnt; omega
  have xSame : Same 8210 w x := seqCount_same ..
  have reg {o : Nat} (hC : o ≠ 0x0C) (h50 : o ≠ 0x50) : rd x (rSEQ n o) = rd s (rSEQ n o) :=
    (rd_seqCount (faultReg_rSEQ n o) (ne h50)).trans (hr _ (faultReg_rSEQ n o) (by simpa using ne hC))
  have dbl : rbit x (rSEQ n 4) 7 = rbit s (rSEQ n 4) 7 := rbit_congr (reg (by decide) (by decide)) 7
  have ctrl : rbit x (rSEQ n 0) 0 = rbit s (rSEQ n 0) 0 := rbit_congr (reg (by decide) (by decide)) 0
  have state : rb x (rSEQ n 4) 0 3 = 1 := (rb_congr (reg (by decide) (by decide)) 0 3).trans hs
  have after {o : Nat} (h : o ≠ 4) : rn (stepEnd y n) (rSEQ n o) = rn y (rSEQ n o) := by rw [rn, rd_stepEnd (ne h), ← rn]
  show SeqExcepted s (stepEnd y n) n e.kind e.addr e.access ((pc + b2n e.after) % 4096)
  refine ⟨?_, fun hd => ?_, fun hd => ?_, fun hd hk => ?_, fun h => ?_, fun o hf ho => ?_⟩
  · have room : queueFull x (srcSeq n) = false :=
      (queueFull_of_intakeOf ((intakeOf_seqCount src).trans hi)).trans hq
    have filed := seqExcept_files (c := e) (pc := pc) room
    rw [dbl, mkReport_congr ((xSame.get_time rfl).trans ht) ((xSame.get_cyc rfl).trans hc),
      ← intakeOf_congr (stepEnd_fcol y n)] at filed
    exact filed
  · rw [rd_stepEnd (ne (by decide)), ← reg (by decide) (by decide)]
    exact BitVec.eq_of_toNat_eq ((seqExcept_epc hn).trans (if_pos (dbl.trans hd)))
  · rw [after (by decide), seqExcept_epc hn, if_neg (by rw [dbl, hd]; exact Bool.false_ne_true)]
  · have hdx := dbl.trans hd
    have kept {o : Nat} (h4 : o ≠ 4) (hC : o ≠ 0x0C) := rn_seqExcept_saved (pc := pc) hdx hk (ne h4) (ne hC)
    have flags : seqFlg x n = seqFlg s n := by rw [seqFlg, rn, reg (by decide) (by decide), ← rn, seqFlg]
    obtain ⟨address, flagsSaved⟩ := rn_excSaved_where (s := x) (pc := pc) (c := e) hn
    have kind : rn y (rSEQ n 0x18) = e.kind := (seqExcept_saves pc hdx hk).1.trans (Nat.mod_eq_of_lt he)
    refine ⟨(after (by decide)).trans kind, ?_, ?_, ?_, fun hv => ?_⟩
    · rw [after (by decide), kept (by decide) (by decide), address]
    · rw [after (by decide), kept (by decide) (by decide), flagsSaved, flags]
    · exact (rbit_stepEnd y n (by decide)).trans (seqExcept_inExc hn hdx hk)
    · obtain ⟨entry, stateKept, seqs⟩ := seqExcept_goesOn (pc := pc) hn hdx hk (ctrl.trans hv)
      have stepping : (seqc y n).stepping = (seqc s n).stepping := by
        rw [seqc_congr (seqs.trans ((xSame.get_seqs rfl).trans hw)), bpDone, seqc_setSeqc_same]
      refine ⟨?_, fun hst => ?_⟩
      · rw [seqPc_congr (rd_stepEnd (ne (by decide))), entry, rb_congr (reg (by decide) (by decide))]
      · rw [stepEnd_running (stepping.trans hst), stateKept, state]
  · obtain ⟨z, hz⟩ := seqExcept_halts (s := x) (pc := pc) (c := e) hn (by rwa [dbl, ctrl])
    have hy : y = seqHaltAs (setPc z n ((pc + b2n e.after) % 4096)) n 5 := hz
    obtain ⟨halted, why⟩ := seqHaltAs_halts (setPc z n ((pc + b2n e.after) % 4096)) n (why := 5) (by decide)
    rw [stepEnd_halted (by rw [hy, halted]; decide), hy]
    refine ⟨halted, why, ?_⟩
    rw [seqPc_congr (rd_seqHaltAs (ne (by decide))), seqPc_setPc, Nat.mod_mod]
  · simp only [List.mem_cons, List.not_mem_nil, or_false, not_or] at ho
    obtain ⟨h04, h0C, h14, h18, h1C, h20, h50⟩ := ho
    have kept : rd y o = rd x o := rd_seqExcept hn hf (by simp [excRegs, h04, h0C, h14, h18, h1C, h20])
    rw [rd_stepEnd h04, kept, rd_seqCount hf h50]
    exact hr o hf (by simpa using h0C)

/-- Core n takes the exception of e at the instruction at its PC; EPC is `epc`. -/
theorem seqAfter_bpDone_excepts {s : State} {n c epc : Nat} {stall : Option Nat} {e : Cause310} (hg : SeqGoes s n) (hn : n < 8)
    (hq : queueFull s (0xCA + n) = false) (he : e.kind < 2 ^ 32) (hp : (seqPc s n + b2n e.after) % 4096 = epc) :
    SeqExcepted s (seqAfter n (seqPc s n) c stall (.exc e (bpDone s n))) n e.kind e.addr e.access epc ∧
      MemKept s (seqAfter n (seqPc s n) c stall (.exc e (bpDone s n))) :=
  ⟨hp ▸ seqAfter_excepts hn hg.1 he (fun _ _ _ => rfl) rfl rfl rfl rfl hq,
    memKept_of_mem ((seqAfter_exc_same (bpDone s n) n _ c stall e).get_mem rfl)⟩

theorem seqPc_mod (s : State) (n : Nat) : seqPc s n % 4096 = seqPc s n := Nat.mod_eq_of_lt (Nat.mod_lt _ (by decide))

/-- A core issues the instruction at its PC where the row names it, with or without an error of its memory. -/
theorem seqIssue_issues {s : State} {n : Nat} {i : OInstr} {mn : Mn} (ecc : Bool) (hm : i.mn = mn) (h : SeqIssues s n i) :
    seqIssue s n mn ecc = seqAfter n (seqPc s n) (seqCycles s n i) (seqStallMax s n i) (seqDo (bpDone s n) n (seqPc s n) ecc i) := by
  obtain ⟨⟨-, runs⟩, fetch⟩ := h
  rw [seqIssue, if_pos runs, fetch]
  exact if_pos hm

/-! ## The data space -/

theorem wd_tw (i : Int) : wd (tw 32 i) = BitVec.ofInt 32 i := by
  apply BitVec.eq_of_toNat_eq
  rw [wd, BitVec.toNat_ofNat, BitVec.toNat_ofInt, tw]
  omega

theorem sx_eq_toInt {n : Nat} (h : 0 < n) (v : Nat) : sx n v = (BitVec.ofNat n v).toInt := by
  have pow : 2 ^ n = 2 * 2 ^ (n - 1) := by rw [← Nat.pow_succ', Nat.succ_eq_add_one, Nat.sub_add_cancel h]
  rw [sx, BitVec.toInt_eq_toNat_cond, BitVec.toNat_ofNat]
  by_cases low : v % 2 ^ n < 2 ^ (n - 1)
  · rw [if_pos low, if_pos (by omega)]
  · rw [if_neg low, if_neg (by omega)]
    norm_cast

theorem simm16_eq (v : Nat) : simm16 v = (BitVec.ofNat 16 v).signExtend 32 := by
  rw [simm16, wd_tw, sx_eq_toInt (by decide), BitVec.signExtend]

theorem memAddr_eq (s : State) (n ra v : Nat) : memAddr s n ra v = (sreg s n ra + (BitVec.ofNat 16 v).signExtend 32).toNat := by
  rw [memAddr, simm16_eq]

/-- A data address of core n within the data space and aligned lies in BAR2 (R294). -/
theorem dataAt_some {n a w : Nat} (ha : a % w = 0) (hi : a < 0x3000) :
    dataAt n a w = some (if a < 0x2000 then 0x808000 + 0x10000 * n + a else 0x87E000 + a) := by
  rw [dataAt, if_neg (by omega)]
  unfold imemBase
  split
  · exact congrArg some (by omega)
  · exact congrArg some (by omega)

theorem dataAt_none {n a w : Nat} (h : a % w ≠ 0 ∨ 0x3000 ≤ a) : dataAt n a w = none := if_pos h

section
variable {core : CoreIx} {s : State} {rd_ ra : Fin 32} {v : Fin 65536} {a : Nat}

/-- A load outside the data space or misaligned takes DMEM_BOUNDS (R294, R310). -/
theorem seqLoad_bounds {op : LoadOp} (ecc : Bool) (hg : SeqGoes s core.val) (hq : queueFull s (0xCA + core.val) = false)
    (ha : a = (sreg s core.val ra.val + (BitVec.ofNat 16 v.val).signExtend 32).toNat)
    (hf : seqFetch s core.val = some (.load op rd_ ra v)) (h : a % loadWidth op ≠ 0 ∨ 0x3000 ≤ a) :
    SeqExcepted s (seqIssue s core.val (OInstr.load op rd_ ra v).mn ecc) core.val 0x02 a 1 (seqPc s core.val) ∧
      MemKept s (seqIssue s core.val (OInstr.load op rd_ ra v).mn ecc) := by
  have address : memAddr (bpDone s core.val) core.val ra.val v.val = a := (memAddr_eq s ..).trans ha.symm
  have acts : seqDo (bpDone s core.val) core.val (seqPc s core.val) ecc (.load op rd_ ra v) =
      .exc ⟨kDmemBounds, a, 1, false⟩ (bpDone s core.val) := by
    simp only [seqDo, seqLoad, address, dataAt_none h]
  rw [seqIssue_issues ecc rfl ⟨hg, hf⟩, acts]
  exact seqAfter_bpDone_excepts hg core.isLt hq (show kDmemBounds < 2 ^ 32 by decide) (seqPc_mod s _)

/-- A load whose memory finds an uncorrectable error takes ECC (R297, R310). -/
theorem seqLoad_ecc {op : LoadOp} (hg : SeqGoes s core.val) (hq : queueFull s (0xCA + core.val) = false)
    (ha : a = (sreg s core.val ra.val + (BitVec.ofNat 16 v.val).signExtend 32).toNat)
    (hf : seqFetch s core.val = some (.load op rd_ ra v)) (hw : a % loadWidth op = 0) (hi : a < 0x3000) :
    SeqExcepted s (seqIssue s core.val (OInstr.load op rd_ ra v).mn true) core.val 0x0A (a / 4 * 4) 1 (seqPc s core.val) ∧
      MemKept s (seqIssue s core.val (OInstr.load op rd_ ra v).mn true) := by
  have address : memAddr (bpDone s core.val) core.val ra.val v.val = a := (memAddr_eq s ..).trans ha.symm
  have acts : seqDo (bpDone s core.val) core.val (seqPc s core.val) true (.load op rd_ ra v) =
      .exc ⟨kEcc, a / 4 * 4, 1, false⟩ (bpDone s core.val) := by
    simp only [seqDo, seqLoad, address, dataAt_some hw hi, if_true]
  rw [seqIssue_issues true rfl ⟨hg, hf⟩, acts]
  exact seqAfter_bpDone_excepts hg core.isLt hq (show kEcc < 2 ^ 32 by decide) (seqPc_mod s _)

/-- A store outside the data space or misaligned takes DMEM_BOUNDS (R294, R310). -/
theorem seqStore_bounds {op : StoreOp} (hg : SeqGoes s core.val) (hq : queueFull s (0xCA + core.val) = false)
    (ha : a = (sreg s core.val ra.val + (BitVec.ofNat 16 v.val).signExtend 32).toNat)
    (hf : seqFetch s core.val = some (.store op rd_ ra v)) (h : a % storeWidth op ≠ 0 ∨ 0x3000 ≤ a) :
    SeqExcepted s (seqOp s core.val (OInstr.store op rd_ ra v).mn) core.val 0x02 a 2 (seqPc s core.val) ∧
      MemKept s (seqOp s core.val (OInstr.store op rd_ ra v).mn) := by
  have address : memAddr (bpDone s core.val) core.val ra.val v.val = a := (memAddr_eq s ..).trans ha.symm
  have acts : seqDo (bpDone s core.val) core.val (seqPc s core.val) false (.store op rd_ ra v) =
      .exc ⟨kDmemBounds, a, 2, false⟩ (bpDone s core.val) := by
    simp only [seqDo, seqStore, address, dataAt_none h]
  rw [seqOp_issues rfl ⟨hg, hf⟩, acts]
  exact seqAfter_bpDone_excepts hg core.isLt hq (show kDmemBounds < 2 ^ 32 by decide) (seqPc_mod s _)

/-! ## The fetch and the register bus -/

/-- A fetch without an instruction takes ILLEGAL, one with an uncorrectable error ECC (R297, R310, R322). -/
theorem seqFault_excepts (ecc : Bool) (hg : SeqGoes s core.val) (hq : queueFull s (0xCA + core.val) = false) :
    SeqExcepted s (seqFault s core.val ecc) core.val (if ecc then kEcc else kIllegal) (seqPc s core.val * 4) 3 (seqPc s core.val) ∧
      MemKept s (seqFault s core.val ecc) :=
  seqAfter_bpDone_excepts hg core.isLt hq (e := ⟨if ecc then kEcc else kIllegal, _, 3, false⟩)
    (show (if ecc then kEcc else kIllegal) < 2 ^ 32 by cases ecc <;> decide) (seqPc_mod s _)

theorem regAddr_offset (s : State) (n ra view v : Nat) :
    regAddr s n ra view v % 2 ^ 24 = ((sreg s n ra).toNat + v) % 2 ^ 24 := by
  unfold regAddr
  omega

/-- A read that the bus does not answer raises READ_TIMEOUT and takes REGBUS (R306, R310). -/
theorem readLate_excepts {view : Fin 4} {v : Fin 16384} (hg : SeqGoes s core.val) (hq : queueFull s (0xCA + core.val) = false)
    (hf : seqFetch s core.val = some (.rdreg rd_ ra view v)) (ha : a = ((sreg s core.val ra.val).toNat + v.val) % 2 ^ 24)
    (hb : queueFull s srcBus = false) :
    SeqExcepted s (readLate s core.val) core.val 0x03 a 1 (seqPc s core.val) ∧ MemKept s (readLate s core.val) ∧
      mkReport s srcBus kReadTimeout a (5 + core.val) 1 false ∈ intakeOf (readLate s core.val) srcBus := by
  obtain ⟨n, hn⟩ := core
  let w := raise (bpDone s n) srcBus kReadTimeout a (5 + n) 1
  have wSame : Same 8208 (bpDone s n) w := raise_same _ _ _ _ _ _
  have offset : regAddr s n ra.val view.val v.val % 2 ^ 24 = a := (regAddr_offset ..).trans ha.symm
  have late : readLate s n = seqAfter n (seqPc s n) 3 none (.exc ⟨kRegBus, a, 1, false⟩ w) := by
    rw [readLate, if_pos hg.2, hf]
    dsimp only
    rw [offset]
  have raised : w = enqueue (bpDone s n) (mkReport s srcBus kReadTimeout a (5 + n) 1 false) := raise_eq (s := bpDone s n) hb
  rw [late]
  refine ⟨?_, memKept_of_mem (((seqAfter_exc_same w n _ _ _ _).get_mem rfl).trans (wSame.get_mem rfl)), ?_⟩
  · have taken := seqAfter_excepts (s := s) (w := w) (pc := seqPc s n) (c := 3) (stall := none) (e := ⟨kRegBus, a, 1, false⟩)
      hn hg.1 (show kRegBus < 2 ^ 32 by decide) (fun o hf _ => rd_raise (by decide) hf) (wSame.get_seqs rfl)
      (wSame.get_time rfl) (wSame.get_cyc rfl) (intakeOf_raise_ne (by unfold srcBus; omega) (by unfold srcCnt; omega)) hq
    have stands : (seqPc s n + b2n false) % 4096 = seqPc s n := seqPc_mod s n
    rwa [stands] at taken
  · have filed : mkReport s srcBus kReadTimeout a (5 + n) 1 false ∈ intakeOf w srcBus := by
      rw [raised, intakeOf_enqueue_same (q := srcBus) _ rfl]
      exact List.mem_append_right _ List.mem_cons_self
    rwa [intakeOf_seqAfter_exc (by unfold srcSeq srcBus; omega) (by decide)]

end

/-- Settles O41: each cause ends its instruction by `seqAfter_excepts` in a state in which the instruction has not acted. -/
theorem oarvaExceptionsAreTaken : Obligations.OarvaExceptionsAreTaken := by
  intro core s goes room
  have illegalOrEcc (ecc : Bool) (h : ecc = true ∨ seqFetch s core.val = none) :
      exec (.nop core ecc) s = .next (seqFault s core.val ecc) := congrArg Host.Outcome.next (if_pos ⟨goes.2, h⟩)
  refine ⟨fun hf => ?_, fun hf => ?_, ?_, fun k rd_ ra v a ha => ⟨fun op hf h => ?_, fun op hf h => ?_, fun op hf hw hi => ?_⟩,
    fun rd_ ra view v off hf ho hb => ?_⟩
  · refine ⟨_, rfl, ?_⟩
    rw [seqOp_issues (mn := .trap) rfl ⟨goes, hf⟩]
    exact seqAfter_bpDone_excepts goes core.isLt room (e := ⟨kTrap, _, 0, true⟩)
      (show kTrap < 2 ^ 32 by decide) rfl
  · exact ⟨_, illegalOrEcc false (.inr hf), seqFault_excepts false goes room⟩
  · exact ⟨_, illegalOrEcc true (.inl rfl), seqFault_excepts true goes room⟩
  · refine ⟨_, ?_, seqLoad_bounds false goes room ha hf h⟩
    cases op <;> rfl
  · refine ⟨_, ?_, seqStore_bounds goes room ha hf h⟩
    cases op <;> rfl
  · refine ⟨_, ?_, seqLoad_ecc goes room ha hf hw hi⟩
    cases op <;> rfl
  · have awake : s.coreAwake = true := (Bool.and_eq_true_iff.1 goes.2).1
    exact ⟨_, congrArg Host.Outcome.next (if_pos awake), readLate_excepts goes room hf ho hb⟩

end Sys2Proof.Machine
end

section
/-!
PROOFS. O40: the loads and stores of an Oarva core (R294, R296, R331).
-/
namespace Sys2Proof.Machine
open Sys2Proof

/-! ## Bytes of the memories -/

theorem mb_setMb (s : State) (a k : Nat) (b : Byte) : mb (setMb s a b) k = if k = a then b else mb s k := mget_mput ..

theorem mb_setMbs_outside {a k : Nat} {l : List Byte} (s : State) (h : k < a ∨ a + l.length ≤ k) :
    mb (setMbs s a l) k = mb s k := by
  induction l generalizing s a with
  | nil => rfl
  | cons b l ih =>
    rw [List.length_cons] at h
    exact (ih _ (by omega)).trans ((mb_setMb s a k b).trans (if_neg (by omega)))

theorem mb_setMbs_inside {a i : Nat} {l : List Byte} (s : State) (h : i < l.length) :
    mb (setMbs s a l) (a + i) = l.getD i 0 := by
  induction l generalizing s a i with
  | nil => exact absurd h (Nat.not_lt_zero i)
  | cons b l ih =>
    cases i with
    | zero => exact (mb_setMbs_outside _ (.inl (Nat.lt_succ_self a))).trans ((mb_setMb s a a b).trans (if_pos rfl))
    | succ i =>
      have next := ih (setMb s a b) (a := a + 1) (Nat.lt_of_succ_lt_succ h)
      rwa [Nat.add_right_comm] at next

theorem leBytes_getD {n i : Nat} (v : Nat) (h : i < n) : (leBytes n v).getD i 0 = BitVec.ofNat 8 (v / 256 ^ i) := by
  induction n generalizing v i with
  | zero => exact absurd h (Nat.not_lt_zero i)
  | succ n ih =>
    cases i with
    | zero => simp [leBytes]
    | succ i =>
      rw [leBytes, List.getD_cons_succ, ih _ (Nat.lt_of_succ_lt_succ h), Nat.div_div_eq_div_mul, ← Nat.pow_succ']

theorem ofNat_byte (x : Word) (j : Nat) : BitVec.ofNat 8 (x.toNat / 256 ^ j) = x.extractLsb' (8 * j) 8 := by
  apply BitVec.eq_of_toNat_eq
  rw [BitVec.toNat_ofNat, BitVec.extractLsb'_toNat, Nat.shiftRight_eq_div_pow, Nat.pow_mul]

/-! ## What a load gives -/

theorem toNat_append_byte {w : Nat} (x : BitVec w) (b : Byte) : (x ++ b).toNat = b.toNat + 256 * x.toNat := by
  rw [BitVec.toNat_append, ← Nat.shiftLeft_add_eq_or_of_lt b.isLt, Nat.shiftLeft_eq]
  omega

theorem wd_toNat {w : Nat} (x : BitVec w) : wd x.toNat = x.zeroExtend 32 := by rw [wd, BitVec.ofNat_toNat, BitVec.zeroExtend]

theorem wd_signed {w : Nat} (x : BitVec w) (h : 0 < w) : wd (tw 32 (sx w x.toNat)) = x.signExtend 32 := by
  rw [wd_tw, sx_eq_toInt h, BitVec.ofNat_toNat, BitVec.setWidth_eq, BitVec.signExtend]

theorem leNat_byte (s : State) (p : Nat) : leNat (mbs s p 1) = (mb s p).toNat := rfl

theorem leNat_half (s : State) (p : Nat) : leNat (mbs s p 2) = (mb s (p + 1) ++ mb s p).toNat := by
  rw [toNat_append_byte]
  rfl

theorem leNat_word (s : State) (p : Nat) :
    leNat (mbs s p 4) = (mb s (p + 3) ++ mb s (p + 2) ++ mb s (p + 1) ++ mb s p).toNat := by
  rw [toNat_append_byte, toNat_append_byte, toNat_append_byte]
  rfl

/-! ## The registers of the core -/

theorem rd_setSreg {s : State} {n k o : Nat} (v : Word) (h : o ∉ sregOff n k) : rd (setSreg s n k v) o = rd s o := by
  unfold sregOff at h
  unfold setSreg
  split
  · rfl
  · rename_i hk
    rw [if_neg hk, List.mem_singleton] at h
    exact rd_wr_ne _ _ h

theorem sreg_setSreg_same (s : State) (n : Nat) {k : Nat} (v : Word) (h : k ≠ 0) : sreg (setSreg s n k v) n k = v := by
  rw [sreg, if_neg h, setSreg, if_neg h, rd_wr_same, wd_toNat]
  exact BitVec.setWidth_eq v

theorem sreg_congr {s t : State} {n k : Nat} (h : rd t (rSEQ n (0x100 + 4 * k)) = rd s (rSEQ n (0x100 + 4 * k))) :
    sreg t n k = sreg s n k := by
  rw [sreg, h, sreg]

theorem rSEQ_notMem_sregOff (n k : Nat) {o : Nat} (h : o < 0x100) : rSEQ n o ∉ sregOff n k := by
  unfold sregOff
  split
  · exact List.not_mem_nil
  · exact fun hm => rSEQ_ne n (by omega) (List.mem_singleton.1 hm)

theorem sreg_pcNext (s : State) (n pc k : Nat) : sreg (pcNext s n pc) n k = sreg s n k :=
  sreg_congr (rd_wr_ne _ _ (rSEQ_ne n (by omega)))

/-- What follows an instruction leaves the S registers. -/
theorem sreg_seqAfter_ok (w : State) (n pc c : Nat) (stall : Option Nat) (k : Nat) :
    sreg (seqAfter n pc c stall (.ok w)) n k = sreg w n k :=
  sreg_congr (rd_seqAfter_ok (faultReg_rSEQ n _) (rSEQ_ne n (by omega)) (rSEQ_ne n (by omega)))

/-- A core that has written at most one S register and PC retires. -/
theorem seqAfter_setSreg_retires {s u : State} {n c k : Nat} {stall : Option Nat} {v : Word} (hs : rb s (rSEQ n 4) 0 3 = 1)
    (hr : u.regs = s.regs) (hq : u.seqs = (bpDone s n).seqs) :
    SeqRetired s (seqAfter n (seqPc s n) c stall (.ok (pcNext (setSreg u n k v) n (seqPc s n)))) n (seqPc s n + 1) (sregOff n k) := by
  have kept {o : Nat} (hC : o ≠ rSEQ n 0x0C) (h : o ∉ sregOff n k) : rd (pcNext (setSreg u n k v) n (seqPc s n)) o = rd s o :=
    (rd_wr_ne _ _ hC).trans ((rd_setSreg v h).trans (rd_congr hr o))
  refine seqAfter_retires hs (kept (rSEQ_ne n (by decide)) (rSEQ_notMem_sregOff n k (by decide))) (seqPc_setPc _ n _)
    (fun o _ ho => ?_) ?_
  · have ho : o ≠ rSEQ n 0x0C ∧ o ∉ sregOff n k := by simpa using ho
    exact kept ho.1 ho.2
  · exact ((setSreg_same u n k v).get_seqs rfl).trans hq

/-- The fields of the state that a load or a store can change. -/
theorem Same.only_core {s t : State} (h : Same 1099511637010 s t) :
    t = { s with free := t.free, regs := t.regs, mem := t.mem, fcol := t.fcol, seqs := t.seqs } := by
  unfold Same at h
  exact congrArg (fun x : State => { x with free := t.free, regs := t.regs, mem := t.mem, fcol := t.fcol, seqs := t.seqs }) h.symm

/-! ## Loads and stores -/

section
variable {core : CoreIx} {s : State} {rd_ ra : Fin 32} {v : Fin 65536} {a p : Nat}

/-- The semaphore words are those of the mailbox from 0x2FC0 on (R296). -/
theorem isSema_dataAt {n : Nat} (ha : a < 0x3000)
    (hp : p = if a < 0x2000 then 0x808000 + 0x10000 * n + a else 0x87E000 + a) : isSema p = true ↔ 0x2FC0 ≤ a := by
  rw [isSema, decide_eq_true_iff]
  split at hp <;> omega

/-- The state in which a load has acted on the memory: a 32-bit load of a semaphore word leaves 1 in it (R296). -/
def loadMem (s : State) (p : Nat) (op : LoadOp) : State :=
  if isSema p ∧ loadWidth op = 4 then setMbs s p (leBytes 4 1) else s

theorem loadMem_same (s : State) (p : Nat) (op : LoadOp) : Same 1024 s (loadMem s p op) := by
  unfold loadMem
  split
  · exact setMbs_same ..
  · exact Same.refl ..

theorem loadWidth_eq_four (op : LoadOp) : loadWidth op = 4 ↔ op = .ldw := by cases op <;> decide

theorem mb_loadMem (s : State) (op : LoadOp) (hs : isSema p = true ↔ 0x2FC0 ≤ a) (b : Nat) : mb (loadMem s p op) b =
    if op = .ldw ∧ 0x2FC0 ≤ a ∧ p ≤ b ∧ b < p + 4 then (if b = p then 1 else 0) else mb s b := by
  have taken : (isSema p = true ∧ loadWidth op = 4) ↔ op = .ldw ∧ 0x2FC0 ≤ a := by rw [hs, loadWidth_eq_four, and_comm]
  unfold loadMem
  by_cases ht : op = .ldw ∧ 0x2FC0 ≤ a
  · rw [if_pos (taken.2 ht)]
    by_cases hb : p ≤ b ∧ b < p + 4
    · rw [if_pos ⟨ht.1, ht.2, hb⟩]
      obtain ⟨i, rfl⟩ := Nat.exists_eq_add_of_le hb.1
      have hi : i < 4 := by omega
      rw [mb_setMbs_inside _ (by rwa [leBytes_length]), leBytes_getD _ hi]
      interval_cases i <;> simp
    · rw [if_neg fun h => hb h.2.2]
      exact mb_setMbs_outside s (by rw [leBytes_length]; omega)
  · rw [if_neg (mt taken.1 ht), if_neg fun h => ht ⟨h.1, h.2.1⟩]

/-- A load that is aligned and within the data space reads the memory at its width, and its core retires (R294, R331). -/
theorem seqLoad_retires {op : LoadOp} (ha : a = (sreg s core.val ra.val + (BitVec.ofNat 16 v.val).signExtend 32).toNat)
    (hi : a < 0x3000) (hp : p = if a < 0x2000 then 0x808000 + 0x10000 * core.val + a else 0x87E000 + a)
    (h : SeqIssues s core.val (.load op rd_ ra v)) (hw : a % loadWidth op = 0) :
    let t := seqIssue s core.val (OInstr.load op rd_ ra v).mn false
    (rd_.val ≠ 0 → sreg t core.val rd_.val = loadExt op (leNat (mbs s p (loadWidth op)))) ∧
    SeqRetired s t core.val (seqPc s core.val + 1) (sregOff core.val rd_.val) ∧
    (∀ b, mb t b = if op = .ldw ∧ 0x2FC0 ≤ a ∧ p ≤ b ∧ b < p + 4 then (if b = p then 1 else 0) else mb s b) ∧
    t = { s with free := t.free, regs := t.regs, mem := t.mem, fcol := t.fcol, seqs := t.seqs } := by
  obtain ⟨n, hn⟩ := core
  dsimp only at *
  let u := loadMem (bpDone s n) p op
  let x := loadExt op (leNat (mbs s p (loadWidth op)))
  let w := pcNext (setSreg u n rd_.val x) n (seqPc s n)
  have uSame : Same 1024 (bpDone s n) u := loadMem_same ..
  have wSame : Same 16 u w := (setSreg_same ..).trans (pcNext_same ..)
  have address : memAddr (bpDone s n) n ra.val v.val = a := (memAddr_eq s ..).trans ha.symm
  have acts : seqDo (bpDone s n) n (seqPc s n) false (.load op rd_ ra v) = .ok w := by
    simp only [seqDo, seqLoad, address, dataAt_some hw hi, ← hp, Bool.false_eq_true, if_false]
    rfl
  rw [seqIssue_issues false rfl h, acts]
  have after := seqAfter_ok_same w n (seqPc s n) (seqCycles s n (.load op rd_ ra v)) (seqStallMax s n (.load op rd_ ra v))
  refine ⟨fun hk => ?_, ?_, fun b => ?_, Same.only_core ?_⟩
  · rw [sreg_seqAfter_ok, sreg_pcNext, sreg_setSreg_same _ _ _ hk]
  · exact seqAfter_setSreg_retires h.1.1 (uSame.get_regs rfl) (uSame.get_seqs rfl)
  · rw [memKept_of_mem ((after.get_mem rfl).trans (wSame.get_mem rfl)) b]
    exact mb_loadMem (bpDone s n) op (isSema_dataAt hi hp) b
  · exact ((bpDone_same s n).mono rfl).trans ((uSame.mono rfl).trans ((wSame.mono rfl).trans (after.mono rfl)))

/-- A store that is aligned and within the data space writes its bytes, and its core retires (R294, R331). -/
theorem seqStore_retires {op : StoreOp} (ha : a = (sreg s core.val ra.val + (BitVec.ofNat 16 v.val).signExtend 32).toNat)
    (hi : a < 0x3000) (hp : p = if a < 0x2000 then 0x808000 + 0x10000 * core.val + a else 0x87E000 + a)
    (h : SeqIssues s core.val (.store op rd_ ra v)) (hw : a % storeWidth op = 0) :
    let t := seqOp s core.val (OInstr.store op rd_ ra v).mn
    (∀ j < storeWidth op, mb t (p + j) = (sreg s core.val rd_.val).extractLsb' (8 * j) 8) ∧
    (∀ b, b < p ∨ p + storeWidth op ≤ b → mb t b = mb s b) ∧
    SeqRetired s t core.val (seqPc s core.val + 1) [] ∧
    t = { s with free := t.free, regs := t.regs, mem := t.mem, fcol := t.fcol, seqs := t.seqs } := by
  obtain ⟨n, hn⟩ := core
  dsimp only at *
  let u := setMbs (bpDone s n) p (leBytes (storeWidth op) (sreg s n rd_.val).toNat)
  let w := pcNext u n (seqPc s n)
  have uSame : Same 1024 (bpDone s n) u := setMbs_same ..
  have wSame : Same 16 u w := pcNext_same ..
  have address : memAddr (bpDone s n) n ra.val v.val = a := (memAddr_eq s ..).trans ha.symm
  have acts : seqDo (bpDone s n) n (seqPc s n) false (.store op rd_ ra v) = .ok w := by
    simp only [seqDo, seqStore, address, dataAt_some hw hi, ← hp]
    rfl
  rw [seqOp_issues rfl h, acts]
  have after := seqAfter_ok_same w n (seqPc s n) (seqCycles s n (.store op rd_ ra v)) (seqStallMax s n (.store op rd_ ra v))
  have mem := memKept_of_mem ((after.get_mem rfl).trans (wSame.get_mem rfl))
  refine ⟨fun j hj => ?_, fun b hb => ?_, ?_, Same.only_core ?_⟩
  · rw [mem, mb_setMbs_inside _ (by rwa [leBytes_length]), leBytes_getD _ hj, ofNat_byte]
  · rw [mem, mb_setMbs_outside _ (by rwa [leBytes_length])]
    rfl
  · exact seqAfter_setSreg_retires (k := 0) (v := 0) h.1.1 (uSame.get_regs rfl) (uSame.get_seqs rfl)
  · exact ((bpDone_same s n).mono rfl).trans ((uSame.mono rfl).trans ((wSame.mono rfl).trans (after.mono rfl)))

end

/-- Settles O40: a load and a store at every width, and what the bytes read give at each sign. -/
theorem loadsAndStoresAccessTheDataSpace : Obligations.LoadsAndStoresAccessTheDataSpace := by
  intro core rd_ ra v a p s ha hi hp
  refine ⟨?_, ?_⟩
  · refine ⟨fun h hw => ?_, fun h hw => ?_, fun h hw => ?_, fun h hw => ?_, fun h hw => ?_⟩
    all_goals obtain ⟨value, effect⟩ := seqLoad_retires ha hi hp h hw
    · exact ⟨_, rfl, fun hk => (value hk).trans (by
        rw [loadExt, loadWidth, leNat_word, wd_toNat]
        exact BitVec.setWidth_eq _), effect⟩
    · exact ⟨_, rfl, fun hk => (value hk).trans (by rw [loadExt, loadWidth, leNat_half, wd_signed _ (by decide)]), effect⟩
    · exact ⟨_, rfl, fun hk => (value hk).trans (by rw [loadExt, loadWidth, leNat_half, wd_toNat]), effect⟩
    · exact ⟨_, rfl, fun hk => (value hk).trans (by rw [loadExt, loadWidth, leNat_byte, wd_signed _ (by decide)]), effect⟩
    · exact ⟨_, rfl, fun hk => (value hk).trans (by rw [loadExt, loadWidth, leNat_byte, wd_toNat]), effect⟩
  · exact ⟨fun h hw => ⟨_, rfl, seqStore_retires ha hi hp h hw⟩, fun h hw => ⟨_, rfl, seqStore_retires ha hi hp h hw⟩,
      fun h hw => ⟨_, rfl, seqStore_retires ha hi hp h hw⟩⟩

end Sys2Proof.Machine
end

section
/-!
PROOFS. The waits, signals and halts of an Oarva core (R302, R303, R305, R308, R316).
-/
namespace Sys2Proof.Machine
open Sys2Proof

/-! ## STATE -/

theorem rb_setSeqState_same (s : State) (n : Nat) {v : Nat} (h : v < 8) : rb (setSeqState s n v) (rSEQ n 4) 0 3 = v :=
  (rb_wb_same s _ 0 3 v (by decide)).trans (Nat.mod_eq_of_lt h)

theorem rd_setSeqState_ne (s : State) {n o : Nat} (v : Nat) (h : o ≠ rSEQ n 4) : rd (setSeqState s n v) o = rd s o :=
  rd_wb_ne s 0 3 v h

theorem seqc_seqHaltAs_same (s : State) (n why : Nat) :
    seqc (seqHaltAs s n why) n = { seqc s n with waitT := none, waitE := none, stepping := false } := seqc_setSeqc_same s n _

/-- The end of a step ends no wait but the core's own. -/
theorem seqc_stepEnd_waits {s : State} {n : Nat} : ((seqc s n).waitT = none → (seqc (stepEnd s n) n).waitT = none) ∧
    ((seqc s n).waitE = none → (seqc (stepEnd s n) n).waitE = none) := by
  unfold stepEnd
  split
  · rw [seqc_seqHaltAs_same]
    exact ⟨fun _ => rfl, fun _ => rfl⟩
  · exact ⟨id, id⟩

/-- A core that its instruction leaves neither RUNNING nor STALLED has ended the instruction, and no step. -/
theorem seqAfter_idle {w : State} {n pc c : Nat} {stall : Option Nat} (h1 : rb w (rSEQ n 4) 0 3 ≠ 1)
    (h4 : rb w (rSEQ n 4) 0 3 ≠ 4) : seqAfter n pc c stall (.ok w) = seqCount w n c stall := by
  refine (if_neg h4).trans (stepEnd_halted ?_)
  rwa [rb_congr (rd_seqCount (faultReg_rSEQ n 4) (rSEQ_ne n (by decide)))]

/-- A core that waits keeps its PC and all its registers but STATE and the count of its cycles (R302, R303). -/
theorem seqAfter_waits {s u : State} {n pc c v : Nat} {stall : Option Nat} {x : SeqSt} (hv : v = 2 ∨ v = 3)
    (hr : u.regs = s.regs) (hm : u.mem = s.mem) :
    let t := seqAfter n pc c stall (.ok (setSeqState (setSeqc u n x) n v))
    rb t (rSEQ n 4) 0 3 = v ∧ seqPc t n = seqPc s n ∧ seqc t n = x ∧ RegsKept s t [rSEQ n 4, rSEQ n 0x50] ∧ MemKept s t := by
  intro t
  let w := setSeqState (setSeqc u n x) n v
  have state : rb w (rSEQ n 4) 0 3 = v := rb_setSeqState_same _ n (by omega)
  have ended : t = seqCount w n c stall := seqAfter_idle (w := w) (by omega) (by omega)
  have counted : Same 8210 w t := ended ▸ seqCount_same ..
  have kept {o : Nat} (hf : faultReg o = false) (h4 : o ≠ rSEQ n 4) (h50 : o ≠ rSEQ n 0x50) : rd t o = rd s o := by
    rw [ended, rd_seqCount hf h50]
    exact (rd_setSeqState_ne _ v h4).trans (rd_congr hr o)
  refine ⟨?_, seqPc_congr (kept (faultReg_rSEQ n _) (rSEQ_ne n (by decide)) (rSEQ_ne n (by decide))), ?_, fun o hf ho => ?_,
    memKept_of_mem ((counted.get_mem rfl).trans hm)⟩
  · rw [ended, rb_congr (rd_seqCount (faultReg_rSEQ n 4) (rSEQ_ne n (by decide))), state]
  · exact (seqc_congr (counted.get_seqs rfl) n).trans (seqc_setSeqc_same u n x)
  · have ho : o ≠ rSEQ n 4 ∧ o ≠ rSEQ n 0x50 := by simpa using ho
    exact kept hf ho.1 ho.2

/-- A core that a wait's end lets go on stands RUNNING at the next instruction, or its step ends (R302, R303, R316). -/
theorem stepEnd_resumes {s z : State} {n pc : Nat} (hz : (seqc z n).stepping = (seqc s n).stepping) :
    let t := stepEnd (setSeqState (pcNext z n pc) n 1) n
    seqPc t n = (pc + 1) % 4096 ∧ ((seqc s n).stepping = false → rb t (rSEQ n 4) 0 3 = 1) ∧
      ∀ o, o ≠ rSEQ n 4 → o ≠ rSEQ n 0x0C → rd t o = rd z o := by
  have pcKept {o : Nat} (h4 : o ≠ rSEQ n 4) : rd (stepEnd (setSeqState (pcNext z n pc) n 1) n) o = rd (pcNext z n pc) o :=
    (rd_stepEnd h4).trans (rd_setSeqState_ne _ 1 h4)
  refine ⟨?_, fun hs => ?_, fun o h4 hC => (pcKept h4).trans (rd_wr_ne _ _ hC)⟩
  · exact (seqPc_congr (pcKept (rSEQ_ne n (by decide)))).trans (seqPc_setPc z n _)
  · rw [stepEnd_running (s := setSeqState (pcNext z n pc) n 1) (hz.trans hs)]
    exact rb_setSeqState_same _ n (by decide)

/-! ## Pairs and pending events -/

theorem spair_congr {s t : State} {n p : Nat} (h : ∀ k, rd t (rSEQ n (0x100 + 4 * k)) = rd s (rSEQ n (0x100 + 4 * k))) :
    spair t n p = spair s n p := by
  rw [spair, sreg_congr (h _), sreg_congr (h _), spair]

theorem sreg_setSreg_ne (s : State) (n : Nat) {j k : Nat} (v : Word) (h : k ≠ j) : sreg (setSreg s n j v) n k = sreg s n k := by
  refine sreg_congr (rd_setSreg v ?_)
  unfold sregOff
  split
  · exact List.not_mem_nil
  · exact fun hm => rSEQ_ne n (by omega) (List.mem_singleton.1 hm)

/-- The odd register of a pair takes the high word, S0 aside the even one the low word (R293, R323). -/
theorem spair_setSpair {s : State} {n p v : Nat} (hv : v < 2 ^ 64) :
    spair (setSpair s n p v) n p / 2 ^ 32 = v / 2 ^ 32 ∧ (p ≠ 0 → spair (setSpair s n p v) n p = v) := by
  have high : (sreg (setSpair s n p v) n (2 * p + 1)).toNat = v / 2 ^ 32 := by
    rw [setSpair, sreg_setSreg_same _ _ _ (by omega), wd, BitVec.toNat_ofNat]
    omega
  have low (hp : p ≠ 0) : (sreg (setSpair s n p v) n (2 * p)).toNat = v % 2 ^ 32 := by
    rw [setSpair, sreg_setSreg_ne _ _ _ (by omega), sreg_setSreg_same _ _ _ (by omega), wd, BitVec.toNat_ofNat]
  have bound := (sreg (setSpair s n p v) n (2 * p)).isLt
  rw [spair, high]
  refine ⟨by omega, fun hp => ?_⟩
  rw [low hp]
  omega

theorem rd_setSpair {s : State} {n p v o : Nat} (h : o ∉ sregOff n (2 * p) ++ sregOff n (2 * p + 1)) :
    rd (setSpair s n p v) o = rd s o := by
  rw [List.mem_append, not_or] at h
  exact (rd_setSreg _ h.2).trans (rd_setSreg _ h.1)

theorem seqPend_eq (s : State) (n : Nat) : seqPend s n = rn s (rSEQ n 0x30) + 2 ^ 32 * rn s (rSEQ n 0x34) := rfl

theorem seqPend_lt (s : State) (n : Nat) : seqPend s n < 2 ^ 64 := by
  have low := rn_lt s (rSEQ n 0x30)
  have high := rn_lt s (rSEQ n 0x34)
  rw [seqPend_eq]
  omega

/-- The registers that the end of a wait for events changes: the pending events and the pair (R303). -/
def takeRegs (n p : Nat) : List Nat := [rSEQ n 0x30, rSEQ n 0x34] ++ sregOff n (2 * p) ++ sregOff n (2 * p + 1)

theorem rd_takeEvents {s : State} {n mask p o : Nat} (h : o ∉ takeRegs n p) : rd (takeEvents s n mask p) o = rd s o := by
  simp only [takeRegs, List.mem_append, List.mem_cons, List.not_mem_nil, or_false, not_or] at h
  obtain ⟨⟨⟨h30, h34⟩, hlow⟩, hhigh⟩ := h
  refine (rd_setSpair (by simp [hlow, hhigh])).trans ?_
  exact (rd_wr_ne _ _ h34).trans (rd_wr_ne _ _ h30)

/-- The pending events within the mask leave the core's for the pair (R303). -/
theorem takeEvents_takes (s : State) (n mask p : Nat) :
    spair (takeEvents s n mask p) n p / 2 ^ 32 = (seqPend s n &&& mask) / 2 ^ 32 ∧
    (p ≠ 0 → spair (takeEvents s n mask p) n p = seqPend s n &&& mask) ∧
    seqPend (takeEvents s n mask p) n = clr (seqPend s n) mask := by
  have bound : seqPend s n &&& mask < 2 ^ 64 := lt_of_le_of_lt Nat.and_le_left (seqPend_lt s n)
  obtain ⟨high, pair⟩ := spair_setSpair (s := wL s (rSEQ n 0x30) 2 (clr (seqPend s n) (seqPend s n &&& mask))) (n := n) (p := p)
    bound
  refine ⟨high, pair, ?_⟩
  let rest := clr (seqPend s n) (seqPend s n &&& mask)
  have left : rest = clr (seqPend s n) mask := by
    show seqPend s n - (seqPend s n &&& (seqPend s n &&& mask)) = seqPend s n - (seqPend s n &&& mask)
    rw [← Nat.land_assoc, Nat.and_self]
  have fits : rest < 2 ^ 64 := lt_of_le_of_lt (Nat.sub_le _ _) (seqPend_lt s n)
  have kept {o : Nat} (h : o < 0x100) : rn (takeEvents s n mask p) (rSEQ n o) = rn (wL s (rSEQ n 0x30) 2 rest) (rSEQ n o) := by
    refine congrArg BitVec.toNat (rd_setSpair ?_)
    simp [rSEQ_notMem_sregOff n _ h]
  have low : rn (wL s (rSEQ n 0x30) 2 rest) (rSEQ n 0x30) = rest % 2 ^ 32 := by
    have word := rn_wL (s := s) (o := rSEQ n 0x30) (n := 2) (v := rest) (j := 0) (by decide)
    rwa [pow_zero, Nat.div_one] at word
  have high : rn (wL s (rSEQ n 0x30) 2 rest) (rSEQ n 0x34) = rest / 2 ^ 32 % 2 ^ 32 :=
    rn_wL (s := s) (o := rSEQ n 0x30) (n := 2) (v := rest) (j := 1) (by decide)
  rw [seqPend_eq, kept (by decide), kept (by decide), low, high, ← left]
  omega

end Sys2Proof.Machine
end

section
/-!
PROOFS. O44: the waits and their ends, SIG and HALT.
-/
namespace Sys2Proof.Machine
open Sys2Proof

section
variable {core : CoreIx} {k : CycIx} {s : State}

/-! ## WAIT.T -/

theorem waitT_passes {rt : Fin 16} (h : SeqIssues s core.val (.waitT rt))
    (hd : resolveDue (atCyc s k) (spair s core.val rt.val) ≤ nowT (atCyc s k)) :
    ∃ t, exec (.waitT core k) s = .next t ∧ SeqRetired s t core.val (seqPc s core.val + 1) [] ∧ MemKept s t := by
  let n := core.val
  let u := bpDone (atCyc s k) n
  have acts : seqDo u n (seqPc s n) false (.waitT rt) = .ok (pcNext u n (seqPc s n)) := congrArg SeqOut.ok (if_pos hd)
  have op : seqOp (atCyc s k) n .waitT = seqAfter n (seqPc s n) (seqCycles (atCyc s k) n (.waitT rt))
      (seqStallMax (atCyc s k) n (.waitT rt)) (.ok (pcNext u n (seqPc s n))) := by
    rw [seqOp_issues (s := atCyc s k) (mn := .waitT) rfl h, ← acts]
    rfl
  exact ⟨_, congrArg Host.Outcome.next op, seqAfter_setSreg_retires (u := u) (k := 0) (v := 0) h.1.1 rfl rfl,
    memKept_of_mem ((seqAfter_ok_same (pcNext u n (seqPc s n)) ..).get_mem rfl)⟩

theorem waitT_waits {rt : Fin 16} (h : SeqIssues s core.val (.waitT rt))
    (hd : (nowT (atCyc s k) : Int) < resolveDue (atCyc s k) (spair s core.val rt.val)) :
    ∃ t, exec (.waitT core k) s = .next t ∧ rb t (rSEQ core.val 4) 0 3 = 2 ∧ seqPc t core.val = seqPc s core.val ∧
      (seqc t core.val).waitT = some (resolveDue (atCyc s k) (spair s core.val rt.val)) ∧
      RegsKept s t [rSEQ core.val 4, rSEQ core.val 0x50] ∧ MemKept s t := by
  let n := core.val
  let u := bpDone (atCyc s k) n
  let x : SeqSt := { seqc u n with waitT := some (resolveDue (atCyc s k) (spair s n rt.val)) }
  have acts : seqDo u n (seqPc s n) false (.waitT rt) = .ok (setSeqState (setSeqc u n x) n 2) :=
    congrArg SeqOut.ok (if_neg (Int.not_le.2 hd))
  have op : seqOp (atCyc s k) n .waitT = seqAfter n (seqPc s n) (seqCycles (atCyc s k) n (.waitT rt))
      (seqStallMax (atCyc s k) n (.waitT rt)) (.ok (setSeqState (setSeqc u n x) n 2)) := by
    rw [seqOp_issues (s := atCyc s k) (mn := .waitT) rfl h, ← acts]
    rfl
  obtain ⟨state, pc, waits, regs, mem⟩ := seqAfter_waits (s := s) (u := u) (n := n) (pc := seqPc s n) (x := x)
    (c := seqCycles (atCyc s k) n (.waitT rt)) (stall := seqStallMax (atCyc s k) n (.waitT rt)) (.inl rfl) rfl rfl
  refine ⟨_, congrArg Host.Outcome.next op, state, pc, ?_, regs, mem⟩
  rw [waits]

theorem waitT_ends {d : Int} (ha : s.coreAwake = true) (hs : rb s (rSEQ core.val 4) 0 3 = 2)
    (hw : (seqc s core.val).waitT = some d) (hd : d ≤ nowT (atCyc s k)) :
    ∃ t, exec (.waitTResume core k) s = .next t ∧
      seqPc t core.val = (seqPc s core.val + 1) % 4096 ∧ (seqc t core.val).waitT = none ∧
      ((seqc s core.val).stepping = false → rb t (rSEQ core.val 4) 0 3 = 1) ∧
      (∀ o, o ≠ rSEQ core.val 4 → o ≠ rSEQ core.val 0x0C → rd t o = rd s o) := by
  let n := core.val
  let z := setSeqc (atCyc s k) n { seqc s n with waitT := none }
  have hw' : (seqc (atCyc s k) n).waitT = some d := hw
  have ends : waitTEnd (atCyc s k) n = stepEnd (setSeqState (pcNext z n (seqPc s n)) n 1) n := by
    rw [waitTEnd, hw']
    exact if_pos ⟨hs, hd⟩
  have zn : seqc z n = { seqc s n with waitT := none } := seqc_setSeqc_same _ n _
  obtain ⟨pc, runs, regs⟩ := stepEnd_resumes (s := s) (z := z) (pc := seqPc s n) (n := n) (by rw [zn])
  refine ⟨_, congrArg Host.Outcome.next ((if_pos ha).trans ends), pc, seqc_stepEnd_waits.1 ?_, runs, regs⟩
  show (seqc z n).waitT = none
  rw [zn]

theorem waitT_stays {d : Int} (ha : s.coreAwake = true) (hw : (seqc s core.val).waitT = some d) (hd : (nowT (atCyc s k) : Int) < d) :
    exec (.waitTResume core k) s = .next (atCyc s k) := by
  have hw' : (seqc (atCyc s k) core.val).waitT = some d := hw
  refine congrArg Host.Outcome.next ((if_pos ha).trans ?_)
  rw [waitTEnd, hw']
  exact if_neg fun h => absurd h.2 (Int.not_le.2 hd)

/-! ## WAIT.E -/

theorem waitE_takes {rd_ ra : Fin 16} (h : SeqIssues s core.val (.waitE rd_ ra))
    (hp : seqPend s core.val &&& spair s core.val ra.val ≠ 0) :
    ∃ t, exec (.waitE core) s = .next t ∧
      spair t core.val rd_.val / 2 ^ 32 = (seqPend s core.val &&& spair s core.val ra.val) / 2 ^ 32 ∧
      (rd_.val ≠ 0 → spair t core.val rd_.val = seqPend s core.val &&& spair s core.val ra.val) ∧
      seqPend t core.val = clr (seqPend s core.val) (spair s core.val ra.val) ∧
      SeqRetired s t core.val (seqPc s core.val + 1) ([rSEQ core.val 0x30, rSEQ core.val 0x34] ++
        sregOff core.val (2 * rd_.val) ++ sregOff core.val (2 * rd_.val + 1)) ∧ MemKept s t := by
  let n := core.val
  let u := bpDone s n
  let e := takeEvents u n (spair s n ra.val) rd_.val
  let w := pcNext e n (seqPc s n)
  have acts : seqDo u n (seqPc s n) false (.waitE rd_ ra) = .ok w := congrArg SeqOut.ok (if_neg hp)
  refine ⟨_, rfl, ?_⟩
  rw [seqOp_issues (mn := .waitE) rfl h, acts]
  obtain ⟨high, pair, pend⟩ := takeEvents_takes u n (spair s n ra.val) rd_.val
  have after {o : Nat} (h0C : o ≠ 0x0C) (h50 : o ≠ 0x50) (h4 : o ≠ 4) :
      rd (seqAfter n (seqPc s n) (seqCycles s n (.waitE rd_ ra)) (seqStallMax s n (.waitE rd_ ra)) (.ok w)) (rSEQ n o) =
        rd e (rSEQ n o) :=
    (rd_seqAfter_ok (faultReg_rSEQ n o) (rSEQ_ne n h50) (rSEQ_ne n h4)).trans (rd_wr_ne _ _ (rSEQ_ne n h0C))
  have pairKept := spair_congr (p := rd_.val) fun j => after (o := 0x100 + 4 * j) (by omega) (by omega) (by omega)
  have status : rSEQ n 4 ∉ takeRegs n rd_.val := by
    simp only [takeRegs, List.mem_append, List.mem_cons, List.not_mem_nil, or_false, not_or]
    exact ⟨⟨⟨rSEQ_ne n (by decide), rSEQ_ne n (by decide)⟩, rSEQ_notMem_sregOff n _ (by decide)⟩,
      rSEQ_notMem_sregOff n _ (by decide)⟩
  refine ⟨by rw [pairKept]; exact high, fun hk => by rw [pairKept]; exact pair hk, ?_, ?_, memKept_of_mem ?_⟩
  · rw [seqPend_eq, rn, after (by decide) (by decide) (by decide), rn, after (by decide) (by decide) (by decide)]
    exact pend
  · refine seqAfter_retires h.1.1 ?_ (seqPc_setPc e n _) (fun o _ ho => ?_) ((takeEvents_same u n _ _).get_seqs rfl)
    · exact (rd_wr_ne _ _ (rSEQ_ne n (by decide))).trans (rd_takeEvents status)
    · have ho : o ≠ rSEQ n 0x0C ∧ o ∉ takeRegs n rd_.val := by simpa [takeRegs] using ho
      exact (rd_wr_ne _ _ ho.1).trans (rd_takeEvents ho.2)
  · exact ((seqAfter_ok_same w ..).get_mem rfl).trans ((takeEvents_same u n _ _).get_mem rfl)

theorem waitE_waits {rd_ ra : Fin 16} (h : SeqIssues s core.val (.waitE rd_ ra))
    (hp : seqPend s core.val &&& spair s core.val ra.val = 0) :
    ∃ t, exec (.waitE core) s = .next t ∧ rb t (rSEQ core.val 4) 0 3 = 3 ∧ seqPc t core.val = seqPc s core.val ∧
      (seqc t core.val).waitE = some (spair s core.val ra.val, rd_.val) ∧
      RegsKept s t [rSEQ core.val 4, rSEQ core.val 0x50] ∧ MemKept s t := by
  let n := core.val
  let u := bpDone s n
  let x : SeqSt := { seqc u n with waitE := some (spair s n ra.val, rd_.val) }
  have acts : seqDo u n (seqPc s n) false (.waitE rd_ ra) = .ok (setSeqState (setSeqc u n x) n 3) :=
    congrArg SeqOut.ok (if_pos hp)
  have op : seqOp s n .waitE = seqAfter n (seqPc s n) (seqCycles s n (.waitE rd_ ra)) (seqStallMax s n (.waitE rd_ ra))
      (.ok (setSeqState (setSeqc u n x) n 3)) := by rw [seqOp_issues (mn := .waitE) rfl h, acts]
  obtain ⟨state, pc, waits, regs, mem⟩ := seqAfter_waits (s := s) (u := u) (n := n) (pc := seqPc s n) (x := x)
    (c := seqCycles s n (.waitE rd_ ra)) (stall := seqStallMax s n (.waitE rd_ ra)) (.inr rfl) rfl rfl
  refine ⟨_, congrArg Host.Outcome.next op, state, pc, ?_, regs, mem⟩
  rw [waits]

theorem waitE_ends {mask p : Nat} (ha : s.coreAwake = true) (hs : rb s (rSEQ core.val 4) 0 3 = 3)
    (hw : (seqc s core.val).waitE = some (mask, p)) (hp : seqPend s core.val &&& mask ≠ 0) :
    ∃ t, exec (.waitEResume core) s = .next t ∧
      (p ≠ 0 → spair t core.val p = seqPend s core.val &&& mask) ∧ seqPend t core.val = clr (seqPend s core.val) mask ∧
      seqPc t core.val = (seqPc s core.val + 1) % 4096 ∧ (seqc t core.val).waitE = none ∧
      ((seqc s core.val).stepping = false → rb t (rSEQ core.val 4) 0 3 = 1) := by
  let n := core.val
  let u := setSeqc s n { seqc s n with waitE := none }
  let z := takeEvents u n mask p
  have pcKept : seqPc z n = seqPc s n := by
    refine seqPc_congr (rd_takeEvents ?_)
    simp only [takeRegs, List.mem_append, List.mem_cons, List.not_mem_nil, or_false, not_or]
    exact ⟨⟨⟨rSEQ_ne n (by decide), rSEQ_ne n (by decide)⟩, rSEQ_notMem_sregOff n _ (by decide)⟩,
      rSEQ_notMem_sregOff n _ (by decide)⟩
  have ends : waitEEnd s n = stepEnd (setSeqState (pcNext z n (seqPc s n)) n 1) n := by
    rw [waitEEnd, hw, ← pcKept]
    exact if_pos ⟨hs, hp⟩
  have zn : seqc z n = { seqc s n with waitE := none } :=
    (seqc_congr ((takeEvents_same u n mask p).get_seqs rfl) n).trans (seqc_setSeqc_same s n _)
  obtain ⟨-, pair, pend⟩ := takeEvents_takes u n mask p
  obtain ⟨pc, runs, regs⟩ := stepEnd_resumes (s := s) (z := z) (pc := seqPc s n) (n := n) (by rw [zn])
  have kept {o : Nat} (h4 : o ≠ 4) (hC : o ≠ 0x0C) := regs (rSEQ n o) (rSEQ_ne n h4) (rSEQ_ne n hC)
  refine ⟨_, congrArg Host.Outcome.next ((if_pos ha).trans ends), fun h0 => ?_, ?_, pc, seqc_stepEnd_waits.2 ?_, runs⟩
  · exact (spair_congr fun j => kept (by omega) (by omega)).trans (pair h0)
  · rw [seqPend_eq, rn, kept (by decide) (by decide), rn, kept (by decide) (by decide)]
    exact pend
  · show (seqc z n).waitE = none
    rw [zn]

theorem waitE_stays {mask p : Nat} (ha : s.coreAwake = true) (hw : (seqc s core.val).waitE = some (mask, p))
    (hp : seqPend s core.val &&& mask = 0) : exec (.waitEResume core) s = .next s := by
  refine congrArg Host.Outcome.next ((if_pos ha).trans ?_)
  rw [waitEEnd, hw]
  exact if_neg fun h => h.2 hp

/-! ## HALT and SIG -/

theorem halt_halts (h : SeqIssues s core.val (.sys .halt)) :
    ∃ t, exec (.halt core) s = .next t ∧ rb t (rSEQ core.val 4) 0 3 = 0 ∧ rb t (rSEQ core.val 4) 4 3 = 1 ∧
      seqPc t core.val = (seqPc s core.val + 1) % 4096 ∧
      RegsKept s t [rSEQ core.val 4, rSEQ core.val 0x0C, rSEQ core.val 0x50] ∧ MemKept s t := by
  let n := core.val
  let w := seqHaltAs (pcNext (bpDone s n) n (seqPc s n)) n 1
  obtain ⟨halted, why⟩ := seqHaltAs_halts (pcNext (bpDone s n) n (seqPc s n)) n (why := 1) (by decide)
  have op : seqOp s n .halt = seqCount w n 1 (some 0) := by
    rw [seqOp_issues (mn := .halt) rfl h]
    exact seqAfter_idle (w := w) (by rw [halted]; decide) (by rw [halted]; decide)
  have counted {o : Nat} (h50 : o ≠ 0x50) : rd (seqCount w n 1 (some 0)) (rSEQ n o) = rd w (rSEQ n o) :=
    rd_seqCount (faultReg_rSEQ n o) (rSEQ_ne n h50)
  refine ⟨_, congrArg Host.Outcome.next op, ?_, ?_, ?_, fun o hf ho => ?_, memKept_of_mem ?_⟩
  · rw [rb_congr (counted (by decide)), halted]
  · rw [rb_congr (counted (by decide)), why]
  · rw [seqPc_congr (counted (by decide)), seqPc_congr (rd_seqHaltAs (rSEQ_ne n (by decide)))]
    exact seqPc_setPc _ n _
  · simp only [List.mem_cons, List.not_mem_nil, or_false, not_or] at ho
    obtain ⟨h4, hC, h50⟩ := ho
    rw [rd_seqCount hf h50, rd_seqHaltAs h4]
    exact rd_wr_ne _ _ hC
  · exact ((seqCount_same w n 1 (some 0)).get_mem rfl).trans ((seqHaltAs_same _ n 1).get_mem rfl)

/-- An event bit below 32 that is clear is set; one that is set is counted as coalesced (R305). -/
theorem evtBit_eq (x : State) (c : Nat) {b : Nat} (hb : b < 32) :
    evtBit x c b = if rbit x (rSEQ c 0x30) b then bump x (rSEQ c 0x38) else orBits x (rSEQ c 0x30) (2 ^ b) := by
  have word : b / 32 = 0 := by omega
  have bit : b % 32 = b := by omega
  rw [evtBit, word, bit]

theorem sig_sets {ra : Fin 32} {j : Fin 8} {c : Nat} (h : SeqIssues s core.val (.sig ra j))
    (hc : c = ((sreg s core.val ra.val).toNat + j.val) % 8) :
    ∃ t, exec (.sig core) s = .next t ∧ rbit t (rSEQ c 0x30) core.val = true ∧
      (rbit s (rSEQ c 0x30) core.val = false → SeqRetired s t core.val (seqPc s core.val + 1) [rSEQ c 0x30]) ∧
      (rbit s (rSEQ c 0x30) core.val = true → rn t (rSEQ c 0x38) = min (rn s (rSEQ c 0x38) + 1) (2 ^ 32 - 1) ∧
        SeqRetired s t core.val (seqPc s core.val + 1) [rSEQ c 0x38]) ∧ MemKept s t := by
  obtain ⟨n, hn⟩ := core
  let u := bpDone s n
  let e := evtBit u c n
  let w := pcNext e n (seqPc s n)
  have eSame : Same 8208 u e := evtBit_same u c n
  have hc8 : c < 8 := by omega
  have other {a b : Nat} (ha : a < 0x1000) (hb : b < 0x1000) (hab : a ≠ b) : rSEQ c a ≠ rSEQ n b := by
    unfold rSEQ
    omega
  refine ⟨_, rfl, ?_⟩
  have op : seqOp s n .sig = seqAfter n (seqPc s n) 1 (some 0) (.ok w) := by
    rw [seqOp_issues (mn := .sig) rfl h]
    subst hc
    rfl
  rw [op]
  have after {o : Nat} (hf : faultReg o = false) (h4 : o ≠ rSEQ n 4) (hC : o ≠ rSEQ n 0x0C) (h50 : o ≠ rSEQ n 0x50) :
      rd (seqAfter n (seqPc s n) 1 (some 0) (.ok w)) o = rd e o := (rd_seqAfter_ok hf h50 h4).trans (rd_wr_ne _ _ hC)
  have event {a : Nat} (ha : a < 0x1000) (h4 : a ≠ 4) (hC : a ≠ 0x0C) (h50 : a ≠ 0x50) :
      rd (seqAfter n (seqPc s n) 1 (some 0) (.ok w)) (rSEQ c a) = rd e (rSEQ c a) :=
    after (faultReg_rSEQ c a) (other ha (by decide) h4) (other ha (by decide) hC) (other ha (by decide) h50)
  have retired {b : Nat} (hb : b < 0x1000) (hb4 : b ≠ 4) (he : ∀ o, faultReg o = false → o ≠ rSEQ c b → rd e o = rd s o) :
      SeqRetired s (seqAfter n (seqPc s n) 1 (some 0) (.ok w)) n (seqPc s n + 1) [rSEQ c b] := by
    refine seqAfter_retires h.1.1 ?_ (seqPc_setPc e n _) (fun o hf ho => ?_) (eSame.get_seqs rfl)
    · exact (rd_wr_ne _ _ (rSEQ_ne n (by decide))).trans (he _ (faultReg_rSEQ n 4) (other hb (by decide) hb4).symm)
    · have ho : o ≠ rSEQ n 0x0C ∧ o ≠ rSEQ c b := by simpa using ho
      exact (rd_wr_ne _ _ ho.1).trans (he o hf ho.2)
  refine ⟨?_, fun hb => ?_, fun hb => ⟨?_, ?_⟩, memKept_of_mem ?_⟩
  · rw [rbit_congr (event (by decide) (by decide) (by decide) (by decide))]
    have sets := evtBit_sets (s := u) (n := c) (b := n) (by omega)
    rwa [show n / 32 = 0 by omega, show n % 32 = n by omega] at sets
  · have he : e = orBits u (rSEQ c 0x30) (2 ^ n) :=
      (evtBit_eq u c (b := n) (by omega)).trans (if_neg fun set => Bool.false_ne_true (hb.symm.trans set))
    exact retired (by decide) (by decide) fun o _ ho => by rw [he, rd_orBits_ne _ _ ho]; rfl
  · have he : e = bump u (rSEQ c 0x38) := (evtBit_eq u c (b := n) (by omega)).trans (if_pos hb)
    rw [rn, event (by decide) (by decide) (by decide) (by decide), ← rn, he]
    exact rn_bump_same (faultReg_rSEQ c _)
  · have he : e = bump u (rSEQ c 0x38) := (evtBit_eq u c (b := n) (by omega)).trans (if_pos hb)
    exact retired (by decide) (by decide) fun o hf ho => by rw [he, rd_bump hf ho]; rfl
  · exact ((seqAfter_ok_same w ..).get_mem rfl).trans (eSame.get_mem rfl)

end

end Sys2Proof.Machine
end

section
/-!
PROOFS. O44: FENCE and the posted writes of its core (R48, R307, R506).
-/
namespace Sys2Proof.Machine
open Sys2Proof

/-! ## The landing of a posted write -/

theorem rd_wL_notMem {s : State} {o n v k : Nat} (h : k ∉ (List.range n).map (fun j => o + 4 * j)) :
    rd (wL s o n v) k = rd s k := by
  induction n generalizing s o v with
  | zero => rfl
  | succ n ih =>
    simp only [List.mem_map, List.mem_range, not_exists, not_and] at h
    rw [wL, ih, rd_wr_ne (o := o) _ _ fun e => h 0 (Nat.succ_pos n) e.symm]
    simp only [List.mem_map, List.mem_range, not_exists, not_and]
    intro j hj e
    exact h (j + 1) (Nat.succ_lt_succ hj) (by omega)

/-- The words of a register. -/
def wordsOf (i : RegInfo) : List Nat := (List.range i.row.words).map (fun k => i.base + 4 * k)

/-- A write stores into its own words alone, and reports through `faultReg`. -/
theorem rd_storeVal {s : State} {i : RegInfo} {view raw m o : Nat} (hf : faultReg o = false) (h : o ∉ wordsOf i) :
    rd (storeVal s i view raw m).1 o = rd s o := by
  unfold storeVal
  dsimp only
  rw [rd_noteWrite]
  split
  · rfl
  · exact (rd_loadSat hf).trans (rd_wL_notMem h)

/-- The registers of the AON targets lie below those of the cores. -/
theorem aonTarget_rows : ∀ b ∈ blocks, aonTarget b.blk = true → b.base + b.stride * b.count ≤ 0x90000 ∧
    ∀ r ∈ b.rows, r.words ≤ 16 := by decide +kernel

theorem aonTarget_words {off : Nat} {i : RegInfo} (h : regInfo off = some i) (ha : aonTarget i.blk = true) (n o : Nat) :
    rSEQ n o ∉ wordsOf i := by
  have hr : i.blk ≠ .ref := by
    intro e
    rw [e] at ha
    exact Bool.false_ne_true ha
  obtain ⟨b, hm, he, hrow, -, hlt⟩ := regInfo_row h hr
  obtain ⟨hend, hwords⟩ := aonTarget_rows b hm (by rwa [he])
  obtain ⟨-, hbase⟩ := regInfo_word h
  have words := hwords _ hrow
  simp only [wordsOf, List.mem_map, List.mem_range, not_exists, not_and]
  intro j hj e
  unfold rSEQ at e
  omega

/-- The one posted write in flight lands in its AON target: its register takes it, and what follows waits for the boundary (R48). -/
theorem postLand_aon {s : State} {key : Nat} {p : Posted} {i : RegInfo} (hp : s.posted = [(key, p)]) (hk : key < 5)
    (hi : regInfo p.off = some i) (ha : aonTarget i.blk = true) :
    (postLand s key).posted = [] ∧
    (∃ old new hit, (postLand s key).landed = s.landed ++ [⟨p.off, old, new, hit, p.master⟩]) ∧
    (postLand s key).time = s.time ∧ (postLand s key).seqs = s.seqs ∧ (postLand s key).mem = s.mem ∧
    ∀ o, faultReg o = false → o ∉ wordsOf i → rd (postLand s key) o = rd s o := by
  let x : State := { s with posted := s.posted.filter (fun q => decide (q.1 ≠ key)) }
  let a := storeVal x i p.view (joinWords p.words) p.master
  have land : postLand s key = { a.1 with landed := a.1.landed ++ [⟨p.off, a.2.1, a.2.2.1, a.2.2.2, p.master⟩] } := by
    have found : s.posted.find? (fun q => decide (q.1 = key)) = some (key, p) := by simp [hp]
    have can : canLand s key = true := by simp [canLand, hk]
    simp only [postLand, found, can, not_true_eq_false, if_false, hi, ha, if_true]
    rfl
  have aSame : Same 8720 x a.1 := storeVal_same ..
  have empty : x.posted = [] := by simp [x, hp]
  rw [land]
  refine ⟨(aSame.get_posted rfl).trans empty, ⟨_, _, _, by rw [aSame.get_landed rfl]⟩, aSame.get_time rfl, aSame.get_seqs rfl,
    aSame.get_mem rfl, fun o hf ho => rd_storeVal hf ho⟩

/-- A posted write for a sleeping SC stays in flight (R506). -/
theorem postLand_asleep {s : State} {key : Nat} (hk : 5 ≤ key) (hs : (sc s (key - 5)).awake = false) : postLand s key = s := by
  have cannot : canLand s key = false := by simp [canLand, hs, Nat.not_lt.2 hk]
  unfold postLand
  split
  · rfl
  · rw [if_pos (by rw [cannot]; exact Bool.false_ne_true)]

/-- The one posted write in flight is the only one that its master's landing tries. -/
theorem landAll_one {s : State} {key m : Nat} {p : Posted} (hp : s.posted = [(key, p)]) (hm : p.master = m) :
    landAll s m = postLand s key := by
  simp [landAll, hp, hm]

theorem landAll_none {s : State} {m : Nat} (h : ∀ p ∈ s.posted, p.2.master ≠ m) : landAll s m = s := by
  have none : s.posted.filter (fun p => decide (p.2.master = m)) = [] := by
    simpa [List.filter_eq_nil_iff] using h
  simp [landAll, none]

theorem postFlies_false {s : State} {m : Nat} (h : ∀ p ∈ s.posted, p.2.master ≠ m) : postFlies s m = false := by
  simpa [postFlies] using h

/-! ## FENCE -/

/-- STATE as it was stays so. -/
theorem rd_setSeqState_kept {s : State} {n v : Nat} (h : rb s (rSEQ n 4) 0 3 = v) (o : Nat) : rd (setSeqState s n v) o = rd s o := by
  by_cases ho : o = rSEQ n 4
  · have kept : setBits (rn s (rSEQ n 4)) 0 3 v = rn s (rSEQ n 4) := by
      apply Nat.eq_of_testBit_eq
      intro i
      rw [setBits_testBit]
      split
      next hi =>
        rw [← h, rb, bits_testBit]
        simp [hi.2]
      next => rfl
    rw [ho]
    apply BitVec.eq_of_toNat_eq
    exact (rn_wb_same s (rSEQ n 4) 0 3 v (by decide)).trans kept
  · exact rd_setSeqState_ne s v ho

section
variable {core : CoreIx} {s : State}

/-- FENCE once nothing of the core is in flight in the state `l` in which its writes have landed. -/
theorem seqSys_fence_ends {u l : State} {n pc : Nat} (hl : landAll u (5 + n) = l) (hf : ∀ p ∈ l.posted, p.2.master ≠ 5 + n) :
    seqSys u n pc .fence = .ok (pcNext (setSeqState l n 1) n pc) := by
  simp only [seqSys, hl, postFlies_false hf, Bool.false_eq_true, if_false]

/-- A fence that ends retires its core; `l` is the state in which its writes have landed. -/
theorem seqAfter_fence {l : State} {n c : Nat} {stall : Option Nat} {but : List Nat} (hs : rb s (rSEQ n 4) 0 3 = 1)
    (hr : RegsKept s l but) (h4 : rSEQ n 4 ∉ but) (hq : l.seqs = (bpDone s n).seqs) :
    SeqRetired s (seqAfter n (seqPc s n) c stall (.ok (pcNext (setSeqState l n 1) n (seqPc s n)))) n (seqPc s n + 1) but := by
  have status : rd l (rSEQ n 4) = rd s (rSEQ n 4) := hr _ (faultReg_rSEQ n 4) h4
  have kept (o : Nat) : rd (setSeqState l n 1) o = rd l o := rd_setSeqState_kept ((rb_congr status 0 3).trans hs) o
  refine seqAfter_retires hs ?_ (seqPc_setPc _ n _) (fun o hf ho => ?_) (((setSeqState_same l n 1).get_seqs rfl).trans hq)
  · exact (rd_wr_ne _ _ (rSEQ_ne n (by decide))).trans ((kept _).trans status)
  · have ho : o ≠ rSEQ n 0x0C ∧ o ∉ but := by simpa using ho
    exact (rd_wr_ne _ _ ho.1).trans ((kept o).trans (hr o hf ho.2))

theorem fence_passes (h : SeqIssues s core.val (.sys .fence)) (hp : ∀ p ∈ s.posted, p.2.master ≠ 5 + core.val) :
    ∃ t, exec (.fence core) s = .next t ∧ SeqRetired s t core.val (seqPc s core.val + 1) [] ∧ t.posted = s.posted ∧
      t.time = s.time ∧ MemKept s t := by
  let n := core.val
  let u := bpDone s n
  let w := pcNext (setSeqState u n 1) n (seqPc s n)
  have op : seqOp s n .fence = seqAfter n (seqPc s n) 1 none (.ok w) := by
    rw [seqOp_issues (mn := .fence) rfl h]
    exact congrArg (seqAfter n (seqPc s n) 1 none) (seqSys_fence_ends (u := u) (landAll_none hp) hp)
  have wSame : Same 16 u w := (setSeqState_same u n 1).trans (pcNext_same ..)
  have same := seqAfter_ok_same w n (seqPc s n) 1 none
  exact ⟨_, congrArg Host.Outcome.next op, seqAfter_fence h.1.1 (fun _ _ _ => rfl) List.not_mem_nil rfl,
    (same.get_posted rfl).trans (wSame.get_posted rfl), (same.get_time rfl).trans (wSame.get_time rfl),
    memKept_of_mem ((same.get_mem rfl).trans (wSame.get_mem rfl))⟩

theorem fence_lands {key : Nat} {p : Posted} {i : RegInfo} (h : SeqIssues s core.val (.sys .fence))
    (hp : s.posted = [(key, p)]) (hm : p.master = 5 + core.val) (hk : key < 5) (hi : regInfo p.off = some i)
    (ha : aonTarget i.blk = true) :
    ∃ t old new hit, exec (.fence core) s = .next t ∧ t.posted = [] ∧
      t.landed = s.landed ++ [⟨p.off, old, new, hit, 5 + core.val⟩] ∧ t.time = s.time ∧
      SeqRetired s t core.val (seqPc s core.val + 1) (wordsOf i) ∧ MemKept s t := by
  let n := core.val
  let u := bpDone s n
  let l := postLand u key
  let w := pcNext (setSeqState l n 1) n (seqPc s n)
  obtain ⟨empty, ⟨old, new, hit, landed⟩, time, seqs, mem, regs⟩ := postLand_aon (s := u) hp hk hi ha
  have op : seqOp s n .fence = seqAfter n (seqPc s n) 1 none (.ok w) := by
    rw [seqOp_issues (mn := .fence) rfl h]
    refine congrArg (seqAfter n (seqPc s n) 1 none) (seqSys_fence_ends (u := u) (landAll_one hp hm) ?_)
    rw [empty]
    exact fun q hq => absurd hq List.not_mem_nil
  have wSame : Same 16 l w := (setSeqState_same l n 1).trans (pcNext_same ..)
  have same := seqAfter_ok_same w n (seqPc s n) 1 none
  refine ⟨_, old, new, hit, congrArg Host.Outcome.next op, ?_, ?_, ?_, ?_, memKept_of_mem ?_⟩
  · exact (same.get_posted rfl).trans ((wSame.get_posted rfl).trans empty)
  · rw [same.get_landed rfl, wSame.get_landed rfl, landed, hm]
    rfl
  · exact (same.get_time rfl).trans ((wSame.get_time rfl).trans time)
  · exact seqAfter_fence h.1.1 regs (aonTarget_words hi ha n 4) seqs
  · exact (same.get_mem rfl).trans ((wSame.get_mem rfl).trans mem)

theorem fence_stalls {key : Nat} {p : Posted} (h : SeqIssues s core.val (.sys .fence)) (hp : s.posted = [(key, p)])
    (hm : p.master = 5 + core.val) (hk : 5 ≤ key) (hs : (sc s (key - 5)).awake = false) :
    ∃ t, exec (.fence core) s = .next t ∧ rb t (rSEQ core.val 4) 0 3 = 4 ∧ seqPc t core.val = seqPc s core.val ∧
      t.posted = s.posted ∧ RegsKept s t [rSEQ core.val 4] ∧ MemKept s t := by
  let n := core.val
  let u := bpDone s n
  let w := setSeqState u n 4
  have state : rb w (rSEQ n 4) 0 3 = 4 := rb_setSeqState_same u n (by decide)
  have stays : landAll u (5 + n) = u := (landAll_one (s := u) hp hm).trans (postLand_asleep hk hs)
  have flies : postFlies u (5 + n) = true := by
    show s.posted.any _ = true
    simp [hp, hm, n]
  have op : seqOp s n .fence = w := by
    rw [seqOp_issues (mn := .fence) rfl h]
    have acts : seqSys u n (seqPc s n) .fence = .ok w := by simp only [seqSys, stays, flies, if_true, w]
    exact (congrArg (seqAfter n (seqPc s n) 1 none) acts).trans (if_pos state)
  refine ⟨_, congrArg Host.Outcome.next op, state, ?_, rfl, fun o _ ho => ?_, memKept_of_mem rfl⟩
  · exact seqPc_congr (rd_setSeqState_ne u 4 (rSEQ_ne n (by decide)))
  · exact rd_setSeqState_ne u 4 (by simpa using ho)

/-- A STALLED core whose writes have landed ends its fence (R307, R506). -/
theorem fence_resumes (ha : s.coreAwake = true) (hs : rb s (rSEQ core.val 4) 0 3 = 4)
    (hf : seqFetch s core.val = some (.sys .fence)) (hp : ∀ p ∈ s.posted, p.2.master ≠ 5 + core.val)
    (hn : (seqc s core.val).stepping = false) :
    ∃ t, exec (.fence core) s = .next t ∧ rb t (rSEQ core.val 4) 0 3 = 1 ∧
      seqPc t core.val = (seqPc s core.val + 1) % 4096 ∧ t.posted = s.posted ∧
      RegsKept s t [rSEQ core.val 4, rSEQ core.val 0x0C, rSEQ core.val 0x50] ∧ MemKept s t := by
  let n := core.val
  let u := bpDone s n
  let w := pcNext (setSeqState u n 1) n (seqPc s n)
  have runs : seqRuns s n = true := by simp [seqRuns, ha, n, hs]
  have state : rb w (rSEQ n 4) 0 3 = 1 :=
    (rb_congr (rd_wr_ne _ _ (rSEQ_ne n (by decide))) 0 3).trans (rb_setSeqState_same u n (by decide))
  have wSame : Same 16 u w := (setSeqState_same u n 1).trans (pcNext_same ..)
  have counted : Same 8210 w (seqCount w n 1 none) := seqCount_same ..
  have steps : (seqc (seqCount w n 1 none) n).stepping = false := by
    rw [seqc_congr ((counted.get_seqs rfl).trans (wSame.get_seqs rfl))]
    exact (congrArg SeqSt.stepping (seqc_setSeqc_same s n _)).trans hn
  have acts : seqOp s n .fence = seqAfter n (seqPc s n) 1 none (.ok w) := by
    rw [seqOp, seqIssue, if_pos runs, hf]
    exact congrArg (seqAfter n (seqPc s n) 1 none) (seqSys_fence_ends (u := u) (landAll_none hp) hp)
  have op : seqOp s n .fence = seqCount w n 1 none :=
    acts.trans ((if_neg (by rw [state]; decide)).trans (stepEnd_running steps))
  have kept {o : Nat} (hf : faultReg o = false) (h50 : o ≠ rSEQ n 0x50) : rd (seqCount w n 1 none) o = rd w o := rd_seqCount hf h50
  refine ⟨_, congrArg Host.Outcome.next op, ?_, ?_, (counted.get_posted rfl).trans (wSame.get_posted rfl), fun o hf ho => ?_,
    memKept_of_mem ((counted.get_mem rfl).trans (wSame.get_mem rfl))⟩
  · rw [rb_congr (kept (faultReg_rSEQ n 4) (rSEQ_ne n (by decide))), state]
  · rw [seqPc_congr (kept (faultReg_rSEQ n _) (rSEQ_ne n (by decide)))]
    exact seqPc_setPc _ n _
  · simp only [List.mem_cons, List.not_mem_nil, or_false, not_or] at ho
    obtain ⟨h4, hC, h50⟩ := ho
    rw [kept hf h50]
    exact (rd_wr_ne _ _ hC).trans (rd_setSeqState_ne u 1 h4)

end

end Sys2Proof.Machine
end

section
/-!
PROOFS. O44: POST and the ring of its records (R278, R279, R281, R309), and the obligation.
-/
namespace Sys2Proof.Machine
open Sys2Proof

/-! ## The record of a post -/

/-- A record has 128 bytes (R281). -/
theorem recBytes_length (type len ring seq time flags w10 w14 w18 w1c : Nat) (hdr : List Byte) :
    (recBytes type len ring seq time flags w10 w14 w18 w1c hdr).length = 0x80 := by
  simp [recBytes, leBytes_length]

/-- A ring's OVER_TH and its drains are no other ring's. -/
theorem ring_ringOver_ne (s : State) {n q : Nat} (h : q ≠ n) : ring (ringOver s n) q = ring s q := by
  have drains : ((drainsOf s n).foldl drainEval s).rings = s.rings :=
    foldl_kept (f := drainEval) (g := State.rings) (fun _ _ => rfl) _ s
  have kept (x : State) (r : RingSt) : ring (setRing x n r) q = ring x q := (ring_setRing ..).trans (if_neg h)
  unfold ringOver
  dsimp only
  split
  · exact ring_congr drains q
  · split
    · exact (ring_congr ((event_same _ _).get_rings rfl) q).trans ((kept _ _).trans (ring_congr drains q))
    · exact (kept _ _).trans (ring_congr drains q)

/-- A record that is presented to a ring leaves the other rings (R279). -/
theorem ring_ringPresent_ne (s : State) {n q : Nat} (colour : Nat) (mk : Nat → Nat → Nat → List Byte) (h : q ≠ n) :
    ring (ringPresent s n colour mk).1 q = ring s q := by
  have taken (r : RingSt) : ring (setRing s n r) q = ring s q := (ring_setRing ..).trans (if_neg h)
  unfold ringPresent
  dsimp only
  split
  · exact (ring_ringOver_ne _ h).trans ((ring_congr ((setMbs_same ..).get_rings rfl) q).trans (taken _))
  · exact taken _

/-- A record that is presented is written into the slot at the ring's write pointer, or nowhere (R275, R279). -/
theorem mb_ringPresent {s : State} {n colour b : Nat} {mk : Nat → Nat → Nat → List Byte} (hl : ∀ r q c, (mk r q c).length = 0x80)
    (h : b < 0x80 * ringSlot s n (ring s n).wr ∨ 0x80 * ringSlot s n (ring s n).wr + 0x80 ≤ b) :
    mb (ringPresent s n colour mk).1 b = mb s b := by
  unfold ringPresent
  dsimp only
  split
  · rw [memKept_of_mem ((ringOver_same ..).get_mem rfl) b, mb_setMbs_outside _ (by rwa [hl])]
    rfl
  · rfl

/-- The core's registers are none of those that a record of a ring changes, but for its event registers. -/
theorem quiet_rSEQ {n o : Nat} (h : o < 0x10000) (h30 : o ≠ 0x30) (h34 : o ≠ 0x34) (h38 : o ≠ 0x38) : Quiet (rSEQ n o) := by
  refine ⟨faultReg_rSEQ n o, ?_, fun r hr => ?_⟩
  · refine List.any_eq_false.2 fun m _ named => ?_
    have named : rSEQ n o = rSEQ m 0x30 ∨ rSEQ n o = rSEQ m 0x34 ∨ rSEQ n o = rSEQ m 0x38 := of_decide_eq_true named
    unfold rSEQ at named
    omega
  · unfold rSEQ rRING
    omega

section
variable {core : CoreIx} {k : CycIx} {s : State}

/-- POST of words within the DMEM presents one record to the ring of RING_ROUTE.POST and counts it (R309). -/
theorem post_presents {ra : Fin 32} {m : Fin 25} {code : Fin 256} {r : Nat} (h : SeqIssues s core.val (.post ra m code))
    (h4 : (sreg s core.val ra.val).toNat % 4 = 0) (hi : (sreg s core.val ra.val).toNat + 4 * m.val ≤ 0x2000)
    (hr : r = ringRoute s 2) :
    ∃ t, exec (.post core k) s = .next t ∧ rn t (rSEQ core.val 0x54) = min (rn s (rSEQ core.val 0x54) + 1) (2 ^ 32 - 1) ∧
      seqPc t core.val = (seqPc s core.val + 1) % 4096 ∧
      (ring t r).admitted = ((ring s r).admitted + 1) % 2 ^ 64 ∧ (∀ q, q ≠ r → ring t q = ring s q) ∧
      (ringConserved (ring s r) → ringConserved (ring t r)) ∧
      (∀ b, b < 0x80 * ringSlot s r (ring s r).wr ∨ 0x80 * ringSlot s r (ring s r).wr + 0x80 ≤ b → mb t b = mb s b) := by
  let n := core.val
  let u := bpDone (atCyc s k) n
  let a := (sreg s n ra.val).toNat
  let e := presentInternal u 2 5 (4 * m.val) (readT u) (timeFlags u + b2n u.standby * 2 ^ 9)
      (n + code.val * 2 ^ 8 + rb u (rSEQ n 0x78) 0 16 * 2 ^ 16) (seqPc s n) 0 0 (mbs u (imemBase n + 0x8000 + a) (4 * m.val))
  let c := bump e (rSEQ n 0x54)
  let w := pcNext c n (seqPc s n)
  let t := seqAfter n (seqPc s n) (seqCycles (atCyc s k) n (.post ra m code)) (seqStallMax (atCyc s k) n (.post ra m code)) (.ok w)
  have acts : seqDo u n (seqPc s n) false (.post ra m code) = .ok w :=
    if_neg fun bad => bad.elim (fun misaligned => misaligned h4) fun outside => absurd hi (Nat.not_le.2 outside)
  have op : seqOp (atCyc s k) n .post = t := by
    rw [seqOp_issues (s := atCyc s k) (mn := .post) rfl h]
    exact congrArg (seqAfter n (seqPc s n) _ _) acts
  have cSame : Same 8208 e c := bump_same ..
  have wSame : Same 16 c w := pcNext_same ..
  have tSame : Same 1099511635986 w t := seqAfter_ok_same ..
  have rings : t.rings = e.rings := (tSame.get_rings rfl).trans ((wSame.get_rings rfl).trans (cSame.get_rings rfl))
  have mem : t.mem = e.mem := (tSame.get_mem rfl).trans ((wSame.get_mem rfl).trans (cSame.get_mem rfl))
  have ringKept (q : Nat) : ring t q = ring e q := ring_congr rings q
  refine ⟨t, congrArg Host.Outcome.next op, ?_, ?_, ?_, fun q hq => ?_, fun hc => ?_, fun b hb => ?_⟩
  · rw [rn, rd_seqAfter_ok (faultReg_rSEQ n _) (rSEQ_ne n (by decide)) (rSEQ_ne n (by decide)), ← rn]
    rw [show rn w (rSEQ n 0x54) = rn c (rSEQ n 0x54) from rn_wr_ne _ _ (rSEQ_ne n (by decide)), rn_bump_same (faultReg_rSEQ n _),
      rn, rd_presentInternal (quiet_rSEQ (by decide) (by decide) (by decide) (by decide))]
    rfl
  · rw [seqPc_congr (rd_seqAfter_ok (faultReg_rSEQ n _) (rSEQ_ne n (by decide)) (rSEQ_ne n (by decide)))]
    exact seqPc_setPc c n _
  · rw [ringKept, hr]
    exact admitted_presentInternal ..
  · rw [ringKept]
    exact ring_ringPresent_ne u 0 _ (by rwa [hr] at hq)
  · rw [ringKept]
    exact balanced_iff.1 (balanced_presentInternal.2 (balanced_iff.2 hc : Balanced r u))
  · rw [memKept_of_mem mem b]
    subst hr
    exact mb_ringPresent (s := u) (fun _ _ _ => recBytes_length ..) hb

end

/-- Settles O44: each clause is one instruction of its core, by what it does and what follows it. -/
theorem waitsSignalsAndPosts : Obligations.WaitsSignalsAndPosts := by
  refine ⟨fun core k rt s h => ⟨waitT_passes h, waitT_waits h⟩, fun core rd_ ra s h => ⟨waitE_takes h, waitE_waits h⟩,
    fun core k d s ha hs hw => ⟨waitT_ends ha hs hw, waitT_stays ha hw⟩,
    fun core mask p s ha hs hw _ => ⟨waitE_ends ha hs hw, waitE_stays ha hw⟩, fun core s h => halt_halts h,
    fun core ra j c s h hc => sig_sets h hc, fun core s h => ⟨fence_passes h, ?_, ?_⟩,
    fun core s ha hs hf hp hn => fence_resumes ha hs hf hp hn, fun core k ra n code r s h h4 hi hr => post_presents h h4 hi hr⟩
  · exact fun key p i hp hm hk hi ha => fence_lands h hp hm hk hi ha
  · exact fun key p hp hm hk hs => fence_stalls h hp hm hk hs

end Sys2Proof.Machine
end

section
/-!
PROOFS. O42: the accesses of the Oarva cores to the register space (R37, R306, R317, R332, R474).
-/
namespace Sys2Proof.Machine
open Sys2Proof

/-! ## Accesses with the core domain awake -/

/-- An access with the core domain awake notes when it came, and no more (R505, R506). -/
theorem coreTouch_same_of_awake {s : State} (h : s.coreAwake = true) (off : Nat) (r : Bool) :
    Same 2199023255552 s (coreTouch s off r) := by
  unfold coreTouch
  split
  · exact Same.refl ..
  · rw [coreWake, if_pos (.inl h)]
    unfold Same
    rfl

/-- A read with the core domain awake changes the shadow of its master, and notes when it came. -/
theorem busRead_same_of_awake {s : State} (h : s.coreAwake = true) {m : Nat} (hm : m ≠ 1) (addr : Nat) :
    Same 2199023255584 s (busRead s m addr 32).1 := by
  have touched := (coreTouch_same_of_awake h (addr % 2 ^ 24 / 4 * 4) true).mono (K := 2199023255584) rfl
  show Same _ s (busRead32 s m addr 4).1
  unfold busRead32
  dsimp only
  rw [if_neg fun hx => hm hx.1]
  split
  · exact touched.trans (((readWord_same ..).mono rfl).trans ((readWord_same ..).mono rfl))
  · exact touched.trans ((readWord_same ..).mono rfl)

/-- An aligned read answers the register word at its offset, in whatever view (R36, R42). -/
theorem busRead_aligned {s : State} {m addr off : Nat} (hm : m ≠ 1) (ho : addr % 2 ^ 24 = off) (ha : off % 4 = 0) :
    (busRead s m addr 32).2 = (readWord (coreTouch s off true) m off true).2 % 2 ^ 32 := by
  have word : off / 4 * 4 = off := by omega
  show (busRead32 s m addr 4).2 = _
  unfold busRead32
  dsimp only
  rw [if_neg fun hx => hm hx.1, ho, word, ha, if_neg (by decide)]
  simp

/-- A shadowing core reads of a mirrored register the word that its mate has sent (R317, R474). -/
theorem masterVal_mirror {s : State} {n : Nat} {i : RegInfo} {x : Nat × Word} (hn : n < 8) (hw : 0 < i.row.words)
    (hm : mirrored i = true) (hs : seqShadow s n = true)
    (hx : s.mate.mirror.find? (fun p => decide (p.1 = i.base)) = some x) :
    masterVal s (5 + n) i % 2 ^ 32 = x.2.toNat := by
  obtain ⟨words, hwords⟩ := Nat.exists_eq_add_one_of_ne_zero (Nat.ne_of_gt hw)
  have reads : 5 ≤ 5 + n ∧ 5 + n ≤ 12 ∧ seqShadow s (5 + n - 5) = true ∧ mirrored i = true :=
    ⟨by omega, by omega, by rwa [Nat.add_sub_cancel_left], hm⟩
  rw [masterVal, if_pos reads, hwords, mirrorVal, hx]
  have fits := x.2.isLt
  show (x.2.toNat + 2 ^ 32 * _) % 2 ^ 32 = _
  omega

section
variable {core : CoreIx} {k : CycIx} {rd_ ra : Fin 32} {view : Fin 4} {v : Fin 16384} {off : Nat} {s : State}

theorem SeqGoes.awake {n : Nat} (h : SeqGoes s n) : s.coreAwake = true := (Bool.and_eq_true_iff.1 h.2).1

/-! ## RDREG -/

/-- RDREG writes to rd what the bus answers, and its core retires (R306, R332). -/
theorem rdreg_retires (ho : off = ((sreg s core.val ra.val).toNat + v.val) % 2 ^ 24)
    (h : SeqIssues s core.val (.rdreg rd_ ra view v)) :
    let t := seqOp (atCyc s k) core.val .rdreg
    (rd_.val ≠ 0 → sreg t core.val rd_.val =
      wd (busRead (bpDone (atCyc s k) core.val) (5 + core.val) (view.val * 2 ^ 24 + off) 32).2) ∧
    SeqRetired s t core.val (seqPc s core.val + 1) (sregOff core.val rd_.val) ∧ MemKept s t := by
  let n := core.val
  let u := bpDone (atCyc s k) n
  let q := busRead u (5 + n) (view.val * 2 ^ 24 + off) 32
  let w := pcNext (setSreg q.1 n rd_.val (wd q.2)) n (seqPc s n)
  have qSame : Same 2199023255584 u q.1 := busRead_same_of_awake (s := u) h.1.awake (by omega) _
  have wSame : Same 16 q.1 w := (setSreg_same ..).trans (pcNext_same ..)
  have op : seqOp (atCyc s k) n .rdreg = seqAfter n (seqPc s n) 3 none (.ok w) := by
    rw [seqOp_issues (s := atCyc s k) (mn := .rdreg) rfl h]
    subst ho
    rfl
  have after := seqAfter_ok_same w n (seqPc s n) 3 none
  dsimp only
  rw [op]
  refine ⟨fun hk => ?_, ?_, memKept_of_mem ?_⟩
  · rw [sreg_seqAfter_ok, sreg_pcNext, sreg_setSreg_same _ _ _ hk]
  · exact seqAfter_setSreg_retires h.1.1 (qSame.get_regs rfl) (qSame.get_seqs rfl)
  · exact (after.get_mem rfl).trans ((wSame.get_mem rfl).trans (qSame.get_mem rfl))

/-- What the bus answers a shadowing core of a mirrored register (R317, R474). -/
theorem rdreg_mirror {i : RegInfo} {x : Nat × Word} (ha : s.coreAwake = true) (hi : regInfo off = some i) (h4 : off % 4 = 0)
    (h0 : i.word = 0) (hm : mirrored i = true) (hs : seqShadow s core.val = true)
    (hx : s.mate.mirror.find? (fun p => decide (p.1 = off)) = some x) :
    wd (busRead (bpDone (atCyc s k) core.val) (5 + core.val) (view.val * 2 ^ 24 + off) 32).2 = x.2 := by
  let u := bpDone (atCyc s k) core.val
  have uTouched : Same 2199023255552 u (coreTouch u off true) := coreTouch_same_of_awake (s := u) ha off true
  obtain ⟨hword, hbase⟩ := regInfo_word hi
  have base : i.base = off := by rw [hbase, h0]; rfl
  have bound := regInfo_bound hi
  have notFlags : off ≠ rTIME 0x20 := by
    intro e
    rw [e, regInfo_timeFlags] at hi
    rw [← Option.some.inj hi] at hm
    exact absurd hm (by decide)
  have shadows : seqShadow (coreTouch u off true) core.val = true := by
    rw [seqShadow, uTouched.get_standby rfl, rbit_congr (rd_congr (uTouched.get_regs rfl) _)]
    exact hs
  have sent : (coreTouch u off true).mate.mirror.find? (fun p => decide (p.1 = i.base)) = some x := by
    rw [uTouched.get_mate rfl, base]
    exact hx
  rw [busRead_aligned (off := off) (by omega) (by omega) h4, readWord_lowest hi h0 notFlags,
    masterVal_mirror core.isLt (by omega) hm shadows sent, Nat.mod_eq_of_lt x.2.isLt, wd_toNat]
  exact BitVec.setWidth_eq _

/-! ## WRREG -/

/-- WRREG acts once PC has moved on (R306, R332). -/
theorem seqOp_wrreg (ho : off = ((sreg s core.val ra.val).toNat + v.val) % 2 ^ 24)
    (h : SeqIssues s core.val (.wrreg rd_ ra view v)) :
    let b := busWrite (pcNext (bpDone (atCyc s k) core.val) core.val (seqPc s core.val)) (5 + core.val)
      (view.val * 2 ^ 24 + off) 32 (sreg s core.val rd_.val).toNat
    seqOp (atCyc s k) core.val .wrreg = seqAfter core.val (seqPc s core.val) 1 none
      (if b.2 then .exc ⟨kRegBus, off, 2, false⟩ b.1 else .ok b.1) := by
  have low : (view.val * 2 ^ 24 + off) % 2 ^ 24 = off := by omega
  rw [seqOp_issues (s := atCyc s k) (mn := .wrreg) rfl h]
  refine congrArg (seqAfter core.val (seqPc s core.val) 1 none) ?_
  have address : regAddr (bpDone (atCyc s k) core.val) core.val ra.val view.val v.val = view.val * 2 ^ 24 + off := by
    rw [ho]
    rfl
  show seqWrreg (bpDone (atCyc s k) core.val) core.val (seqPc s core.val) rd_.val _ = _
  rw [seqWrreg, address, low]
  rfl

/-- A write without a fault is what the bus does of it, and the instruction's end (R306). -/
theorem wrreg_acts {b : State × Bool} (ho : off = ((sreg s core.val ra.val).toNat + v.val) % 2 ^ 24)
    (h : SeqIssues s core.val (.wrreg rd_ ra view v))
    (hb : b = busWrite (pcNext (bpDone (atCyc s k) core.val) core.val (seqPc s core.val)) (5 + core.val)
      (view.val * 2 ^ 24 + off) 32 (sreg s core.val rd_.val).toNat) (hf : b.2 = false) :
    seqOp (atCyc s k) core.val .wrreg = seqAfter core.val (seqPc s core.val) 1 none (.ok b.1) := by
  rw [seqOp_wrreg ho h, ← hb, hf]
  rfl

/-- The registers of CORR, LATH and the rings' shared block lie below those of the cores. -/
theorem plainBlk_below : ∀ b ∈ blocks, (b.blk = .corr ∨ b.blk = .ringWide ∨ b.blk = .lath) →
    b.base + b.stride * b.count ≤ 0x900000 := by decide +kernel

theorem plainBlk_ne_rSEQ {i : RegInfo} (hi : regInfo off = some i) (hb : PlainBlk i.blk) (n o : Nat) : rSEQ n o ≠ off := by
  have hr : i.blk ≠ .ref := by rcases hb with hb | hb | hb <;> rw [hb] <;> decide
  obtain ⟨b, hm, he, -, -, hlt⟩ := regInfo_row hi hr
  have below := plainBlk_below b hm (by rw [he]; exact hb)
  unfold rSEQ
  omega

/-- A write of a register that nothing follows from stores its word through the view (R41). -/
theorem wrreg_stores {i : RegInfo} (ho : off = ((sreg s core.val ra.val).toNat + v.val) % 2 ^ 24)
    (h : SeqIssues s core.val (.wrreg rd_ ra view v)) (hopen : BusOpen s) (h4 : off % 4 = 0) (hi : regInfo off = some i)
    (hb : PlainBlk i.blk) (hw : i.row.words = 1) (hr : allRo i = false) :
    let t := seqOp (atCyc s k) core.val .wrreg
    rd t off = wd (clr (clr (rn s off) i.row.rw |||
      (viewApply view.val (rn s off) (sreg s core.val rd_.val).toNat &&& i.row.rw))
      ((sreg s core.val rd_.val).toNat &&& i.row.w1c)) ∧
    SeqRetired s t core.val (seqPc s core.val + 1) [off, rSEAL 4, rSEAL 0x18] ∧ MemKept s t := by
  obtain ⟨⟨hn, hsafe⟩, hpwr⟩ := hopen
  obtain ⟨n, hcore⟩ := core
  dsimp only at *
  let u := pcNext (bpDone (atCyc s k) n) n (seqPc s n)
  let x := (sreg s n rd_.val).toNat
  let y := letThrough u (5 + n) (off + view.val * 2 ^ 24) off x i view.val
  let w := applyVal y i view.val x (5 + n) (some (off, 5 + n))
  have off24 : off < 2 ^ 24 := by omega
  have uSame : Same 1099511627796 s u :=
    ((atCyc_same s k).mono rfl).trans (((bpDone_same _ n).mono rfl).trans ((pcNext_same _ n _).mono rfl))
  obtain ⟨hge, -, hbase, hm, -, -⟩ := regInfo_plain hi hb hw
  obtain ⟨hvirt, -, hfx⟩ := plainBlk_fx hb
  have hg : i.blk ≠ .glb := by rcases hb with hb | hb | hb <;> rw [hb] <;> decide
  have fx (t : State) (old new hit : Nat) : regFx t i old new hit (5 + n) (some (off, 5 + n)) = t := hfx ..
  have hfault : faultReg off = false := faultReg_false_of_ge (by omega)
  have seqNe (o : Nat) : rSEQ n o ≠ off := plainBlk_ne_rSEQ hi hb n o
  have before {o : Nat} (hf : faultReg o = false) (hC : o ≠ rSEQ n 0x0C) (hs4 : o ≠ rSEAL 4) (hs8 : o ≠ rSEAL 0x18) :
      rd y o = rd s o := (rd_letThrough _ _ _ _ _ _ _ hf hs4 hs8).trans (rd_wr_ne _ _ hC)
  have applied {o : Nat} (hf : faultReg o = false) (hne : o ≠ off) : rd w o = rd y o :=
    (applyVal_word hw hvirt fx hf).trans (if_neg (by rwa [hbase]))
  have status : rd w (rSEQ n 4) = rd s (rSEQ n 4) := (applied (faultReg_rSEQ n 4) (seqNe 4)).trans
    (before (faultReg_rSEQ n 4) (rSEQ_ne n (by decide)) (by unfold rSEQ rSEAL; omega) (by unfold rSEQ rSEAL; omega))
  have powered : pwrState u ≠ 1 := by
    have kept : pwrState u = pwrState s := rb_congr (rd_wr_ne _ _ (by unfold rPWR rSEQ; omega)) 1 3
    rwa [kept]
  have bus : busWrite u (5 + n) (view.val * 2 ^ 24 + off) 32 x = (w, false) := by
    rw [Nat.add_comm (view.val * 2 ^ 24), busWrite_open ((uSame.get_nvsLoaded rfl).trans hn)
      ((congrArg FcolSt.safe (uSame.get_fcol rfl)).trans hsafe) (coreTouch_awake powered) (by omega) (by omega)
      (by rw [show (off + view.val * 2 ^ 24) % 2 ^ 24 = off by omega]; exact regInfo_inMsix hi) (sreg s n rd_.val).isLt]
    exact regWrite_plain off24 view.isLt hi hb hw hr u (5 + n)
  have op := wrreg_acts (core := ⟨n, hcore⟩) (k := k) ho h bus.symm rfl
  have wMem : w.mem = u.mem := (applyVal_mem hw hvirt fx).trans (letThrough_mem ..)
  have wSeqs : w.seqs = (bpDone s n).seqs := by
    have stored : w = (storeVal y i view.val x (5 + n)).1 := fx ..
    rw [stored, (storeVal_same ..).get_seqs rfl, (letThrough_same ..).get_seqs rfl]
    rfl
  rw [op]
  refine ⟨?_, ?_, memKept_of_mem ?_⟩
  · have old := before hfault (seqNe 0x0C).symm (by unfold rSEAL; omega) (by unfold rSEAL; omega)
    rw [rd_seqAfter_ok hfault (seqNe 0x50).symm (seqNe 4).symm]
    show rd w off = _
    rw [applyVal_word hw hvirt fx hfault, if_pos hbase.symm, newVal_word hw hm hg, hitVal_w1c hm, hbase, rn, old, rn]
  · refine seqAfter_retires h.1.1 status ?_ (fun o hf hk => ?_) wSeqs
    · have moved : rd w (rSEQ n 0x0C) = rd u (rSEQ n 0x0C) := (applied (faultReg_rSEQ n _) (seqNe _)).trans
        (rd_letThrough _ _ _ _ _ _ _ (faultReg_rSEQ n _) (by unfold rSEQ rSEAL; omega) (by unfold rSEQ rSEAL; omega))
      exact (seqPc_congr moved).trans (seqPc_setPc _ n _)
    · simp only [List.mem_append, List.mem_cons, List.not_mem_nil, or_false, not_or] at hk
      obtain ⟨hC, hoff, hs4, hs8⟩ := hk
      exact (applied hf hoff).trans (before hf hC hs4 hs8)
  · exact ((seqAfter_ok_same w ..).get_mem rfl).trans (wMem.trans (uSame.get_mem rfl))

/-- A misaligned write is the fault ACCESS_WIDTH, and the core takes REGBUS (R37, R310). -/
theorem wrreg_misaligned (ho : off = ((sreg s core.val ra.val).toNat + v.val) % 2 ^ 24)
    (h : SeqIssues s core.val (.wrreg rd_ ra view v)) (hn : s.nvsLoaded = true) (h4 : off % 4 ≠ 0)
    (hq : queueFull s srcBus = false) (hc : queueFull s (0xCA + core.val) = false) :
    let t := seqOp (atCyc s k) core.val .wrreg
    SeqExcepted (atCyc s k) t core.val 0x03 off 2 (seqPc s core.val) ∧
    mkReport (atCyc s k) srcBus kAccessWidth off (5 + core.val) 2 false ∈ intakeOf t srcBus ∧ MemKept s t := by
  obtain ⟨n, hcore⟩ := core
  dsimp only at *
  let u := pcNext (bpDone (atCyc s k) n) n (seqPc s n)
  let y := coreTouch u (off / 4 * 4) false
  let w := busFault y kAccessWidth off (5 + n)
  have low : (view.val * 2 ^ 24 + off) % 2 ^ 24 = off := by omega
  have bus : busWrite u (5 + n) (view.val * 2 ^ 24 + off) 32 (sreg s n rd_.val).toNat = (w, true) := by
    have fits : (view.val * 2 ^ 24 + off) % 2 ^ 26 = view.val * 2 ^ 24 + off := by omega
    have loaded : u.nvsLoaded = true := hn
    simp only [busWrite, fits, loaded, not_true_eq_false, if_false]
    rw [if_neg (by decide), busWrite1_misaligned (by omega) (.inl (by omega)), low]
  have op : seqOp (atCyc s k) n .wrreg = seqAfter n (seqPc s n) 1 none (.exc ⟨kRegBus, off, 2, false⟩ w) := by
    rw [seqOp_wrreg (core := ⟨n, hcore⟩) (k := k) ho h]
    show seqAfter n (seqPc s n) 1 none (if (busWrite u (5 + n) _ 32 _).2 = true then _ else _) = _
    rw [bus]
    rfl
  have awake : u.coreAwake = true := h.1.awake
  have uSame : Same 1099511627792 (atCyc s k) u := ((bpDone_same _ n).mono rfl).trans ((pcNext_same _ n _).mono rfl)
  have ySame : Same 2199023255552 u y := coreTouch_same_of_awake awake _ _
  have wSame : Same 8208 y w := raise_same _ _ _ _ _ _
  have fcol : y.fcol = s.fcol := (ySame.get_fcol rfl).trans (uSame.get_fcol rfl)
  have raised : w = enqueue y (mkReport y srcBus kAccessWidth off (5 + n) 2 false) := raise_eq ((queueFull_congr fcol srcBus).trans hq)
  have time : w.time = (atCyc s k).time := (wSame.get_time rfl).trans ((ySame.get_time rfl).trans (uSame.get_time rfl))
  have cyc : w.cyc = (atCyc s k).cyc := (wSame.get_cyc rfl).trans ((ySame.get_cyc rfl).trans (uSame.get_cyc rfl))
  rw [op]
  refine ⟨?_, ?_, memKept_of_mem ?_⟩
  · have regs : RegsKept (atCyc s k) w [rSEQ n 0x0C] := fun o hf hk =>
      (rd_raise (by decide) hf).trans ((rd_congr (ySame.get_regs rfl) o).trans (rd_wr_ne _ _ (by simpa using hk)))
    have seqs : w.seqs = (bpDone (atCyc s k) n).seqs := (wSame.get_seqs rfl).trans (ySame.get_seqs rfl)
    have queue : intakeOf w (0xCA + n) = intakeOf (atCyc s k) (0xCA + n) :=
      (intakeOf_raise_ne (by unfold srcBus; omega) (by unfold srcCnt; omega)).trans (intakeOf_congr fcol _)
    have taken := seqAfter_excepts (s := atCyc s k) (w := w) (pc := seqPc s n) (c := 1) (stall := none)
      (e := ⟨kRegBus, off, 2, false⟩) hcore h.1.1 (show kRegBus < 2 ^ 32 by decide) regs seqs time cyc queue hc
    have stands : (seqPc s n + b2n false) % 4096 = seqPc s n := seqPc_mod s n
    rwa [stands] at taken
  · rw [intakeOf_seqAfter_exc (by unfold srcSeq srcBus; omega) (by decide), raised, intakeOf_enqueue_same (q := srcBus) _ rfl,
      mkReport_congr ((ySame.get_time rfl).trans (uSame.get_time rfl)) ((ySame.get_cyc rfl).trans (uSame.get_cyc rfl))]
    exact List.mem_append_right _ List.mem_cons_self
  · exact ((seqAfter_exc_same w ..).get_mem rfl).trans ((wSame.get_mem rfl).trans ((ySame.get_mem rfl).trans (uSame.get_mem rfl)))

end

/-- Settles O42: RDREG and its mirrored words; WRREG by what the bus does of it, of a plain register and of a misaligned one. -/
theorem coresReadAndWriteRegisters : Obligations.CoresReadAndWriteRegisters := by
  intro core k rd_ ra view v off s ho
  refine ⟨fun h => ?_, fun b h hb hf hs => ⟨_, rfl, ?_⟩, fun i h hopen h4 hi hb hw hr => ⟨_, rfl, wrreg_stores ho h hopen h4 hi hb hw hr⟩,
    fun h hn h4 hq hc => ⟨_, rfl, wrreg_misaligned ho h hn h4 hq hc⟩⟩
  · obtain ⟨value, retired, mem⟩ := rdreg_retires (k := k) ho h
    exact ⟨_, rfl, value, fun i x hk hi h4 h0 hm hs hx => (value hk).trans (rdreg_mirror h.1.awake hi h4 h0 hm hs hx), retired, mem⟩
  · exact (wrreg_acts ho h hb hf).trans (if_neg hs)

end Sys2Proof.Machine
end

section
/-!
PROOFS. O45: the commands of SEQ_CMD, SEQ_EXC.CLR, breakpoints and the end of a verification (R305, R311, R313, R314, R316).
-/
namespace Sys2Proof.Machine
open Sys2Proof

/-! ## A write of command bits of a core -/

/-- What the map says of SEQ_CMD and SEQ_EXC (R319): command bits alone. -/
def seqCmdInfo (n : Nat) : RegInfo := ⟨.seq, n, { off := 0x08, sc := 0x3F }, 0, 0, rSEQ n 0x08⟩
def seqExcInfo (n : Nat) : RegInfo := ⟨.seq, n, { off := 0x24, sc := 1 }, 0, 0, rSEQ n 0x24⟩

theorem regInfo_seqCmd : ∀ n : CoreIx, regInfo (rSEQ n 0x08) = some (seqCmdInfo n) := by decide +kernel

theorem regInfo_seqExc : ∀ n : CoreIx, regInfo (rSEQ n 0x24) = some (seqExcInfo n) := by decide +kernel

/-- The state in which a command of a core acts: the host's write has been forwarded; the register holds what it held. -/
def seqCmdPut (s : State) (m v : Nat) (i : RegInfo) : State :=
  let t := forwardTaken s m i.base i.base v i 0 v
  noteWrite (wr t i.base (rn t i.base)) i.base

theorem seqCmdPut_same (s : State) (m v : Nat) (i : RegInfo) : Same 140754668225040 s (seqCmdPut s m v i) :=
  Same.step rfl (noteWrite_same _ _) (Same.step rfl (wr_same _ _ _) ((forwardTaken_same s m _ _ _ _ _ _).mono rfl))

theorem rd_seqCmdPut (s : State) (m v : Nat) (i : RegInfo) (o : Nat) : rd (seqCmdPut s m v i) o = rd s o := by
  unfold seqCmdPut
  dsimp only
  rw [rd_noteWrite, rd_wr_restored fun _ _ => rfl, rd_forwardTaken]

/-- A write of command bits of a core is what follows from them (R41). -/
theorem regPut_seqCommands {s : State} {i : RegInfo} {n m v o sc : Nat} (h : BusOpen s) (hi : regInfo (rSEQ n o) = some i)
    (he : i = ⟨.seq, n, { off := o, sc := sc }, 0, 0, rSEQ n o⟩) (hsc : sc ≠ 0) (ho : o % 4 = 0) (hv : v < 2 ^ 32) :
    regPut s m (rSEQ n o) v = seqFx (seqCmdPut s m v i) n o (rSEQ n o) (rn (seqCmdPut s m v i) (rSEQ n o)) (v &&& sc) := by
  subst he
  have bound := regInfo_bound hi
  have align : rSEQ n o % 4 = 0 := by unfold rSEQ; omega
  have writable : allRo (⟨.seq, n, { off := o, sc := sc }, 0, 0, rSEQ n o⟩ : RegInfo) = false := by simp [allRo, hsc]
  rw [regPut_word h.1.1 h.1.2 hi align (by omega) (regInfo_inMsix hi) hv rfl rfl rfl writable Blk.noConfusion
    (coreTouch_awake h.2) rfl (Nat.zero_and _), if_neg (not_not_intro rfl), applyVal,
    storeVal_commands rfl rfl rfl Blk.noConfusion rfl rfl rfl]
  have kept : rn (seqCmdPut s m v ⟨.seq, n, { off := o, sc := sc }, 0, 0, rSEQ n o⟩) (rSEQ n o) =
      rn (forwardTaken s m (rSEQ n o) (rSEQ n o) v ⟨.seq, n, { off := o, sc := sc }, 0, 0, rSEQ n o⟩ 0 v) (rSEQ n o) := by
    rw [rn, rd_seqCmdPut, rn, rd_forwardTaken]
  rw [kept]
  rfl

section
variable {m : Master} {core : CoreIx} {s : State}

/-- The state in which a write of SEQ_CMD acts. -/
def cmdPut (s : State) (m v n : Nat) : State := seqCmdPut s m v (seqCmdInfo n)

theorem regPut_seqCmd (h : BusOpen s) {v : Nat} (hv : v < 64) :
    regPut s m (rSEQ core.val 0x08) v = seqCmdFx (cmdPut s m v core.val) core.val v := by
  have hit : v &&& 0x3F = v := (Nat.and_two_pow_sub_one_eq_mod v 6).trans (Nat.mod_eq_of_lt hv)
  rw [regPut_seqCommands h (regInfo_seqCmd core) rfl (by decide) (by decide) (by omega), hit]
  rfl

/-- Each bit of SEQ_CMD is one command (R319). -/
theorem seqCmdFx_bits (x : State) (n : Nat) : seqCmdFx x n 1 = seqStartCmd x n ∧ seqCmdFx x n 2 = seqHaltCmd x n ∧
    seqCmdFx x n 4 = seqResumeCmd x n ∧ seqCmdFx x n 8 = seqStepCmd x n ∧ seqCmdFx x n 16 = seqVerifyCmd x n ∧
    seqCmdFx x n 32 = event x 10 := by
  refine ⟨rfl, rfl, rfl, rfl, rfl, rfl⟩

theorem rd_cmdPut (v n o : Nat) : rd (cmdPut s m v n) o = rd s o := rd_seqCmdPut ..

theorem cmdPut_same (v n : Nat) : Same 140754668225040 s (cmdPut s m v n) := seqCmdPut_same ..

theorem srcFenced_cmdPut (v n q : Nat) : srcFenced (cmdPut s m v n) q = srcFenced s q := by
  rw [srcFenced, (cmdPut_same v n).get_fcol rfl, srcFenced]

theorem seqHalted_cmdPut (v n : Nat) : seqHalted (cmdPut s m v n) n = decide (rb s (rSEQ n 4) 0 3 = 0) := by
  rw [seqHalted, rb_congr (rd_cmdPut v n _)]

theorem memKept_cmdPut {v n : Nat} {t : State} (h : t.mem = (cmdPut s m v n).mem) : MemKept s t :=
  memKept_of_mem (h.trans ((cmdPut_same v n).get_mem rfl))

/-- A command that changes SEQ_STATUS alone leaves the other registers. -/
theorem regsKept_cmdPut {v n : Nat} {t : State} (h : ∀ o, o ≠ rSEQ n 4 → rd t o = rd (cmdPut s m v n) o) :
    RegsKept s t [rSEQ n 4] := fun o _ ho => (h o (by simpa using ho)).trans (rd_cmdPut v n o)

/-- The bits below one that is set, and below one that is cleared. -/
theorem rb_orBits_below (x : State) (o : Nat) {j k : Nat} (hj : j < 32) (h : k ≤ j) :
    rb (orBits x o (2 ^ j)) o 0 k = rb x o 0 k := by
  rw [rb, rb, rn_orBits_same _ _ _ (Nat.pow_lt_pow_right (by decide) hj)]
  apply Nat.eq_of_testBit_eq
  intro i
  rw [bits_testBit, bits_testBit, Nat.testBit_or, Nat.zero_add, Nat.testBit_two_pow]
  by_cases hi : i < k
  · simp [show ¬ j = i by omega]
  · simp [hi]

theorem rb_clrBits_below (x : State) (o : Nat) {j k : Nat} (h : k ≤ j) : rb (clrBits x o (2 ^ j)) o 0 k = rb x o 0 k := by
  rw [rb, rb, rn_clrBits_same]
  apply Nat.eq_of_testBit_eq
  intro i
  rw [bits_testBit, bits_testBit, clr_testBit, Nat.zero_add, Nat.testBit_two_pow]
  by_cases hi : i < k
  · simp [show ¬ j = i by omega]
  · simp [hi]

/-! ## START -/

/-- S1 to S31 cleared, the first j of them. -/
def clearSregs (s : State) (n j : Nat) : State := upto j (fun s k => wr s (rSEQ n (0x104 + 4 * k)) 0) s

theorem rd_clearSregs_ne {n j o : Nat} (x : State) (h : ∀ k < j, o ≠ rSEQ n (0x104 + 4 * k)) : rd (clearSregs x n j) o = rd x o :=
  upto_kept (g := fun y => rd y o) j (fun _ k hk => rd_wr_ne _ _ (h k hk)) x

theorem rd_clearSregs {n j k : Nat} (x : State) (h : k < j) : rd (clearSregs x n j) (rSEQ n (0x104 + 4 * k)) = 0 := by
  induction j with
  | zero => exact absurd h (Nat.not_lt_zero k)
  | succ j ih =>
    rw [clearSregs, upto_succ]
    by_cases hk : k = j
    · rw [hk, rd_wr_same]
      rfl
    · rw [rd_wr_ne _ _ (rSEQ_ne n (by omega))]
      exact ih (by omega)

/-- The registers of a core as START leaves them: S1 to S31, the flags and the pending events clear, IN_EXC clear, PC at
SEQ_ENTRY (R314). -/
def startRegs (s : State) (n : Nat) : State :=
  let s := wr (wr (wr (clearSregs s n 31) (rSEQ n 0x10) 0) (rSEQ n 0x30) 0) (rSEQ n 0x34) 0
  wr (wb s (rSEQ n 4) 7 1 0) (rSEQ n 0x0C) (rb s (rSEQ n 0x2C) 0 12)

theorem seqStartCmd_starts {x : State} {n : Nat} (hh : seqHalted x n = true) (hi : rbit x (rSEQ n 4) 8 = true)
    (hf : srcFenced x (srcSeq n) = false) : ∃ q : SeqSt, seqStartCmd x n = setSeqState (setSeqc (startRegs x n) n q) n 1 := by
  refine ⟨{ seqInit with verify := (seqc (startRegs x n) n).verify }, ?_⟩
  rw [seqStartCmd, if_neg (by simp [hh, hi, hf])]
  rfl

theorem seqStartCmd_rejects {x : State} {n : Nat}
    (h : seqHalted x n = false ∨ rbit x (rSEQ n 4) 8 = false ∨ srcFenced x (srcSeq n) = true) :
    seqStartCmd x n = seqReject x n := by
  refine if_pos ?_
  rcases h with h | h | h <;> simp [h]

/-- The registers that START leaves. -/
theorem rd_startRegs_ne {x : State} {n o : Nat} (h : ∀ a, (a = 4 ∨ a = 0x0C ∨ a = 0x10 ∨ a = 0x30 ∨ a = 0x34 ∨ ∃ k < 31, a = 0x104 + 4 * k) →
    o ≠ rSEQ n a) : rd (startRegs x n) o = rd x o := by
  unfold startRegs
  dsimp only
  rw [rd_wr_ne _ _ (h 0x0C (by simp)), rd_wb_ne _ _ _ _ (h 4 (by simp)), rd_wr_ne _ _ (h 0x34 (by simp)),
    rd_wr_ne _ _ (h 0x30 (by simp)), rd_wr_ne _ _ (h 0x10 (by simp)),
    rd_clearSregs_ne x fun k hk => h (0x104 + 4 * k) (.inr (.inr (.inr (.inr (.inr ⟨k, hk, rfl⟩)))))]

/-- What START clears reads 0 (R314). -/
theorem rd_startRegs_cleared (x : State) (n : Nat) : rn (startRegs x n) (rSEQ n 0x10) = 0 ∧ rn (startRegs x n) (rSEQ n 0x30) = 0 ∧
    rn (startRegs x n) (rSEQ n 0x34) = 0 ∧ ∀ k < 31, rd (startRegs x n) (rSEQ n (0x104 + 4 * k)) = 0 := by
  have ne {a b : Nat} (h : a ≠ b) := rSEQ_ne n h
  unfold startRegs
  dsimp only
  refine ⟨?_, ?_, ?_, fun k hk => ?_⟩
  · rw [rn_wr_ne _ _ (ne (by decide)), rn_wb_ne _ _ _ _ (ne (by decide)), rn_wr_ne _ _ (ne (by decide)),
      rn_wr_ne _ _ (ne (by decide)), rn_wr_same]
    rfl
  · rw [rn_wr_ne _ _ (ne (by decide)), rn_wb_ne _ _ _ _ (ne (by decide)), rn_wr_ne _ _ (ne (by decide)), rn_wr_same]
    rfl
  · rw [rn_wr_ne _ _ (ne (by decide)), rn_wb_ne _ _ _ _ (ne (by decide)), rn_wr_same]
    rfl
  · rw [rd_wr_ne _ _ (ne (by omega)), rd_wb_ne _ _ _ _ (ne (by omega)), rd_wr_ne _ _ (ne (by omega)),
      rd_wr_ne _ _ (ne (by omega)), rd_wr_ne _ _ (ne (by omega)), rd_clearSregs x hk]

/-- START leaves the bits of SEQ_STATUS but IN_EXC, which it clears, and takes PC from SEQ_ENTRY (R314). -/
theorem startRegs_status (x : State) (n : Nat) : rbit (startRegs x n) (rSEQ n 4) 7 = false ∧
    rbit (startRegs x n) (rSEQ n 4) 8 = rbit x (rSEQ n 4) 8 ∧ seqPc (startRegs x n) n = rb x (rSEQ n 0x2C) 0 12 := by
  have ne {a b : Nat} (h : a ≠ b) := rSEQ_ne n h
  have cleared {o : Nat} (h : o < 0x104) : rd (clearSregs x n 31) (rSEQ n o) = rd x (rSEQ n o) :=
    rd_clearSregs_ne x fun k _ => ne (by omega)
  have before {o : Nat} (h : o < 0x104) (h10 : o ≠ 0x10) (h30 : o ≠ 0x30) (h34 : o ≠ 0x34) :
      rd (wr (wr (wr (clearSregs x n 31) (rSEQ n 0x10) 0) (rSEQ n 0x30) 0) (rSEQ n 0x34) 0) (rSEQ n o) = rd x (rSEQ n o) := by
    rw [rd_wr_ne _ _ (ne h34), rd_wr_ne _ _ (ne h30), rd_wr_ne _ _ (ne h10), cleared h]
  unfold startRegs
  dsimp only
  refine ⟨?_, ?_, ?_⟩
  · rw [rbit_congr (rd_wr_ne _ _ (ne (by decide))), rbit, rn_wb_same _ _ _ _ _ (by decide), setBits_testBit]
    rfl
  · rw [rbit_congr (rd_wr_ne _ _ (ne (by decide))), rbit_wb_ne _ _ _ _ _ _ (by decide) (by decide),
      rbit_congr (before (by decide) (by decide) (by decide) (by decide))]
  · rw [seqPc, rb, rn_wr_same, rb_congr (before (by decide) (by decide) (by decide) (by decide)), rb]
    show (rn x (rSEQ n 0x2C) >>> 0) % 2 ^ 12 % 2 ^ 32 % 2 ^ 12 = (rn x (rSEQ n 0x2C) >>> 0) % 2 ^ 12
    omega

/-- START of a halted core with IMG_OK, from the state in which its write acts (R314). -/
theorem seqStartCmd_effect {x : State} {n : Nat} (hh : seqHalted x n = true) (hi : rbit x (rSEQ n 4) 8 = true)
    (hf : srcFenced x (srcSeq n) = false) :
    let t := seqStartCmd x n
    rb t (rSEQ n 4) 0 3 = 1 ∧ rbit t (rSEQ n 4) 7 = false ∧ rbit t (rSEQ n 4) 8 = true ∧
      seqPc t n = rb x (rSEQ n 0x2C) 0 12 ∧ (∀ k < 32, sreg t n k = 0) ∧ rn t (rSEQ n 0x10) = 0 ∧ seqPend t n = 0 ∧
      ∀ j o, j ≠ n → o < 0x10000 → rd t (rSEQ j o) = rd x (rSEQ j o) := by
  obtain ⟨q, hq⟩ := seqStartCmd_starts hh hi hf
  dsimp only
  rw [hq]
  have kept {o : Nat} (h : o ≠ rSEQ n 4) : rd (setSeqState (setSeqc (startRegs x n) n q) n 1) o = rd (startRegs x n) o :=
    (rd_setSeqState_ne _ 1 h).trans (rd_setSeqc _ n q o)
  have own {a : Nat} (h : a ≠ 4) := kept (rSEQ_ne n h)
  have bit {j : Nat} (hj : 3 ≤ j) : rbit (setSeqState (setSeqc (startRegs x n) n q) n 1) (rSEQ n 4) j =
      rbit (startRegs x n) (rSEQ n 4) j :=
    (rbit_wb_ne _ _ 0 3 1 j (by decide) (by omega)).trans (rbit_congr (rd_setSeqc _ n q _) j)
  obtain ⟨inExc, imgOk, pc⟩ := startRegs_status x n
  obtain ⟨flags, low, high, cleared⟩ := rd_startRegs_cleared x n
  refine ⟨rb_setSeqState_same _ n (by decide), (bit (by decide)).trans inExc, (bit (by decide)).trans (imgOk.trans hi),
    (seqPc_congr (own (by decide))).trans pc, fun k hk => ?_, ?_, ?_, fun j o hne ho => ?_⟩
  · cases k with
    | zero => rw [sreg, if_pos rfl]
    | succ k => rw [sreg, if_neg (Nat.succ_ne_zero k), own (by omega), show 0x100 + 4 * (k + 1) = 0x104 + 4 * k by omega,
        cleared k (by omega)]
  · rw [rn, own (by decide), ← rn, flags]
  · rw [seqPend_eq, rn, own (by decide), ← rn, low, rn, own (by decide), ← rn, high, Nat.mul_zero]
  · have other {a : Nat} (ha : a < 0x10000) : rSEQ j o ≠ rSEQ n a := by unfold rSEQ; omega
    refine (kept (other (by decide))).trans (rd_startRegs_ne fun a ha => ?_)
    rcases ha with rfl | rfl | rfl | rfl | rfl | ⟨k, hk, rfl⟩ <;> exact other (by omega)

theorem seqStart_starts (h : BusOpen s) (hs : rb s (rSEQ core.val 4) 0 3 = 0) (hi : rbit s (rSEQ core.val 4) 8 = true)
    (hf : srcFenced s (0xCA + core.val) = false) :
    ∃ t, exec (.seqStart m core) s = .next t ∧ rb t (rSEQ core.val 4) 0 3 = 1 ∧ rbit t (rSEQ core.val 4) 7 = false ∧
      rbit t (rSEQ core.val 4) 8 = true ∧
      seqPc t core.val = rb s (rSEQ core.val 0x2C) 0 12 ∧ (∀ k < 32, sreg t core.val k = 0) ∧
      rn t (rSEQ core.val 0x10) = 0 ∧ seqPend t core.val = 0 ∧ MemKept s t ∧
      (∀ n o, n < 8 → n ≠ core.val → o < 0x10000 → rd t (rSEQ n o) = rd s (rSEQ n o)) ∧ ∀ y, queueOf t y = queueOf s y := by
  let n := core.val
  let p := cmdPut s m 1 n
  have op : regPut s m (rSEQ n 0x08) 1 = seqStartCmd p n := (regPut_seqCmd h (by decide)).trans (seqCmdFx_bits p n).1
  have tSame : Same 1099511627792 p (seqStartCmd p n) := seqStartCmd_same p n
  obtain ⟨runs, inExc, imgOk, pc, sregs, flags, pend, others⟩ := seqStartCmd_effect (x := p) (n := n)
    ((seqHalted_cmdPut 1 n).trans (decide_eq_true hs)) ((rbit_congr (rd_cmdPut 1 n _) 8).trans hi) ((srcFenced_cmdPut 1 n _).trans hf)
  exact ⟨_, congrArg Host.Outcome.next op, runs, inExc, imgOk, pc.trans (rb_congr (rd_cmdPut 1 n _) 0 12), sregs, flags, pend,
    memKept_cmdPut (v := 1) (n := n) (tSame.get_mem rfl), fun j o _ hne ho => (others j o hne ho).trans (rd_cmdPut 1 n _),
    fun y => (queueOf_of_same tSame rfl y).trans (queueOf_of_same (cmdPut_same 1 n) rfl y)⟩

theorem seqStart_rejected (h : BusOpen s)
    (hr : rb s (rSEQ core.val 4) 0 3 ≠ 0 ∨ rbit s (rSEQ core.val 4) 8 = false ∨ srcFenced s (0xCA + core.val) = true) :
    ∃ t, exec (.seqStart m core) s = .next t ∧ rbit t (rSEQ core.val 4) 17 = true ∧
      rb t (rSEQ core.val 4) 0 17 = rb s (rSEQ core.val 4) 0 17 ∧ RegsKept s t [rSEQ core.val 4] ∧ MemKept s t := by
  let n := core.val
  let p := cmdPut s m 1 n
  have refused : seqStartCmd p n = seqReject p n := by
    refine seqStartCmd_rejects ?_
    rw [seqHalted_cmdPut, rbit_congr (rd_cmdPut 1 n _), srcFenced_cmdPut]
    exact hr.imp_left decide_eq_false
  have op : regPut s m (rSEQ n 0x08) 1 = seqReject p n :=
    (regPut_seqCmd h (by decide)).trans ((seqCmdFx_bits p n).1.trans refused)
  refine ⟨_, congrArg Host.Outcome.next op, ?_, ?_, regsKept_cmdPut (v := 1) fun o ho => rd_orBits_ne _ _ ho,
    memKept_cmdPut (v := 1) (n := n) rfl⟩
  · exact (rbit_orBits_same p _ _ 17 (by decide)).trans (by rw [Bool.or_eq_true]; exact .inr (by decide))
  · exact (rb_orBits_below p (rSEQ n 4) (j := 17) (by decide) (le_refl 17)).trans (rb_congr (rd_cmdPut 1 n _) 0 17)

/-! ## HALT, RESUME, STEP and VERIFY -/

theorem seqHalt_halts (h : BusOpen s) (hs : rb s (rSEQ core.val 4) 0 3 ≠ 0) :
    ∃ t, exec (.seqHalt m core) s = .next t ∧ rb t (rSEQ core.val 4) 0 3 = 0 ∧ rb t (rSEQ core.val 4) 4 3 = 2 ∧
      (seqc t core.val).waitT = none ∧ (seqc t core.val).waitE = none ∧ RegsKept s t [rSEQ core.val 4] ∧ MemKept s t := by
  let n := core.val
  let p := cmdPut s m 2 n
  have runs : seqHalted p n = false := (seqHalted_cmdPut 2 n).trans (decide_eq_false hs)
  have op : regPut s m (rSEQ n 0x08) 2 = seqHaltAs p n 2 :=
    (regPut_seqCmd h (by decide)).trans ((seqCmdFx_bits p n).2.1.trans (if_neg (by rw [runs]; exact Bool.false_ne_true)))
  obtain ⟨halted, why⟩ := seqHaltAs_halts p n (why := 2) (by decide)
  refine ⟨_, congrArg Host.Outcome.next op, halted, why, ?_, ?_, regsKept_cmdPut (v := 2) fun o ho => rd_seqHaltAs ho,
    memKept_cmdPut (v := 2) (n := n) ((seqHaltAs_same p n 2).get_mem rfl)⟩
  · rw [seqc_seqHaltAs_same]
  · rw [seqc_seqHaltAs_same]

/-- A halted core that a command lets run (R316). -/
theorem seqCmd_runs {v : Nat} {q : SeqSt} (n : Nat)
    (op : regPut s m (rSEQ n 0x08) v = setSeqState (setSeqc (cmdPut s m v n) n q) n 1) :
    ∃ t, (Host.Outcome.next (regPut s m (rSEQ n 0x08) v) : Host.Outcome State Fault Refusal) = .next t ∧ rb t (rSEQ n 4) 0 3 = 1 ∧
      (seqc t n).stepping = q.stepping ∧ RegsKept s t [rSEQ n 4] ∧ MemKept s t := by
  let z := setSeqc (cmdPut s m v n) n q
  have seqs : seqc (setSeqState z n 1) n = q :=
    (seqc_congr ((setSeqState_same z n 1).get_seqs rfl) n).trans (seqc_setSeqc_same _ n q)
  exact ⟨_, congrArg Host.Outcome.next op, rb_setSeqState_same z n (by decide), by rw [seqs],
    regsKept_cmdPut fun o ho => rd_setSeqState_ne z 1 ho, memKept_cmdPut ((setSeqState_same z n 1).get_mem rfl)⟩

theorem seqResume_runs (h : BusOpen s) (hs : rb s (rSEQ core.val 4) 0 3 = 0) (hf : srcFenced s (0xCA + core.val) = false) :
    ∃ t, exec (.seqResume m core) s = .next t ∧ rb t (rSEQ core.val 4) 0 3 = 1 ∧ (seqc t core.val).stepping = false ∧
      RegsKept s t [rSEQ core.val 4] ∧ MemKept s t := by
  let n := core.val
  have halted : seqHalted (cmdPut s m 4 n) n = true := (seqHalted_cmdPut 4 n).trans (decide_eq_true hs)
  have fenced : srcFenced (cmdPut s m 4 n) (srcSeq n) = false := (srcFenced_cmdPut 4 n _).trans hf
  obtain ⟨-, -, resume, -⟩ := seqCmdFx_bits (cmdPut s m 4 n) n
  refine seqCmd_runs (q := { seqc (cmdPut s m 4 n) n with bpSkip := true, stepping := false }) n
    ((regPut_seqCmd h (by decide)).trans (resume.trans ?_))
  rw [seqResumeCmd, if_neg (by rw [fenced]; exact Bool.false_ne_true), if_pos halted]

theorem seqStep_runs (h : BusOpen s) (hs : rb s (rSEQ core.val 4) 0 3 = 0) :
    ∃ t, exec (.seqStep m core) s = .next t ∧ rb t (rSEQ core.val 4) 0 3 = 1 ∧ (seqc t core.val).stepping = true ∧
      RegsKept s t [rSEQ core.val 4] ∧ MemKept s t := by
  let n := core.val
  have halted : seqHalted (cmdPut s m 8 n) n = true := (seqHalted_cmdPut 8 n).trans (decide_eq_true hs)
  obtain ⟨-, -, -, step, -⟩ := seqCmdFx_bits (cmdPut s m 8 n) n
  exact seqCmd_runs (q := { seqc (cmdPut s m 8 n) n with bpSkip := true, stepping := true }) n
    ((regPut_seqCmd h (by decide)).trans (step.trans (if_pos halted)))

theorem seqVerify_begins (h : BusOpen s) :
    ∃ t, exec (.seqVerify m core) s = .next t ∧ (seqc t core.val).verify = true ∧ RegsKept s t [] ∧ MemKept s t := by
  let n := core.val
  let p := cmdPut s m 16 n
  obtain ⟨-, -, -, -, verify, -⟩ := seqCmdFx_bits p n
  have op : regPut s m (rSEQ n 0x08) 16 = seqVerifyCmd p n := (regPut_seqCmd h (by decide)).trans verify
  refine ⟨_, congrArg Host.Outcome.next op, ?_, fun o _ _ => rd_cmdPut 16 n o, memKept_cmdPut (v := 16) (n := n) rfl⟩
  rw [seqVerifyCmd, seqc_setSeqc_same]

/-! ## DOORBELL -/

/-- What an event that no core has pending leaves once the first j cores have it. -/
structure EventTo (s t : State) (b j : Nat) : Prop where
  given : ∀ n < j, rbit t (rSEQ n 0x30) b = true
  owed : ∀ n < 8, j ≤ n → rbit t (rSEQ n 0x30) b = false
  others : ∀ o, (∀ n < 8, o ≠ rSEQ n 0x30) → rd t o = rd s o
  active : t.standby = false

theorem eventTo_all {s : State} {b : Nat} (hb : b < 32) (hs : s.standby = false) (hc : ∀ n < 8, rbit s (rSEQ n 0x30) b = false)
    (j : Nat) (hj : j ≤ 8) : EventTo s (upto j (fun x n =>
      if evtMirrored b ∧ x.standby ∧ rbit x (rSEQ n 0) 3 then x else evtBit x n b) s) b j := by
  induction j with
  | zero => exact ⟨fun n hn => absurd hn (Nat.not_lt_zero n), fun n hn _ => hc n hn, fun _ _ => rfl, hs⟩
  | succ j ih =>
    obtain ⟨given, owed, others, active⟩ := ih (by omega)
    rw [upto_succ]
    generalize upto j _ s = x at given owed others active
    have clear : rbit x (rSEQ j 0x30) b = false := owed j (by omega) (le_refl j)
    rw [if_neg (by rw [active]; exact fun h => Bool.false_ne_true h.2.1), evtBit_eq x j hb,
      if_neg (by rw [clear]; exact Bool.false_ne_true)]
    have bound : 2 ^ b < 2 ^ 32 := Nat.pow_lt_pow_right (by decide) hb
    refine ⟨fun n hn => ?_, fun n hn hle => ?_, fun o ho => (rd_orBits_ne _ _ (ho j (by omega))).trans (others o ho), active⟩
    · by_cases hnj : n = j
      · rw [hnj, rbit_orBits_same _ _ _ _ bound, Nat.testBit_two_pow_self, Bool.or_true]
      · exact rbit_orBits_of_set bound (given n (by omega))
    · rw [rbit_congr (rd_orBits_ne _ _ (by unfold rSEQ; omega)), owed n hn (by omega)]

theorem seqDoorbell_rings (h : BusOpen s) (hc : ∀ n < 8, rbit s (rSEQ n 0x30) 10 = false) (hs : s.standby = false) :
    ∃ t, exec (.seqDoorbell m core) s = .next t ∧ (∀ n < 8, rbit t (rSEQ n 0x30) 10 = true) ∧
      (∀ o, faultReg o = false → (∀ n < 8, o ≠ rSEQ n 0x30) → rd t o = rd s o) ∧ MemKept s t := by
  let p := cmdPut s m 32 core.val
  obtain ⟨-, -, -, -, -, doorbell⟩ := seqCmdFx_bits p core.val
  have op : regPut s m (rSEQ core.val 0x08) 32 = event p 10 := (regPut_seqCmd h (by decide)).trans doorbell
  obtain ⟨given, -, others, -⟩ := eventTo_all (s := p) (b := 10) (by decide) (((cmdPut_same 32 core.val).get_standby rfl).trans hs)
    (fun n hn => (rbit_congr (rd_cmdPut 32 core.val _) 10).trans (hc n hn)) 8 (le_refl 8)
  have sent (o : Nat) : rd (event p 10) o = rd (upto 8 (fun x n =>
      if evtMirrored 10 ∧ x.standby ∧ rbit x (rSEQ n 0) 3 then x else evtBit x n 10) p) o := by
    unfold event
    dsimp only
    split
    · exact rd_congr ((mateSend_same _ _ _).get_regs rfl) o
    · rfl
  refine ⟨_, congrArg Host.Outcome.next op, fun n hn => ?_, fun o _ ho => ?_, memKept_cmdPut ((event_same p 10).get_mem rfl)⟩
  · exact (rbit_congr (sent _) 10).trans (given n hn)
  · exact (sent o).trans ((others o ho).trans (rd_cmdPut 32 core.val o))

/-! ## SEQ_EXC.CLR and breakpoints -/

theorem seqExcClr_clears (h : BusOpen s) :
    ∃ t, exec (.seqExcClr m core) s = .next t ∧ rbit t (rSEQ core.val 4) 7 = false ∧
      rb t (rSEQ core.val 4) 0 7 = rb s (rSEQ core.val 4) 0 7 ∧ RegsKept s t [rSEQ core.val 4] ∧ MemKept s t := by
  let n := core.val
  let p := seqCmdPut s m 1 (seqExcInfo n)
  have pSame : Same 140754668225040 s p := seqCmdPut_same ..
  have op : regPut s m (rSEQ n 0x24) 1 = clrBits p (rSEQ n 4) 0x80 :=
    regPut_seqCommands h (regInfo_seqExc core) rfl (by decide) (by decide) (by decide)
  refine ⟨_, congrArg Host.Outcome.next op, ?_, ?_, fun o _ ho => ?_, memKept_of_mem (pSame.get_mem rfl)⟩
  · rw [rbit_clrBits_same, Bool.and_eq_false_iff]
    exact .inr (by decide)
  · exact (rb_clrBits_below p (rSEQ n 4) (j := 7) (le_refl 7)).trans (rb_congr (rd_seqCmdPut s m 1 (seqExcInfo n) _) 0 7)
  · exact (rd_clrBits_ne _ _ (by simpa using ho)).trans (rd_seqCmdPut ..)

/-- The fields of the state that a breakpoint, and those that the end of a verification can change. -/
theorem Same.only_status {s t : State} (h : Same 1099511627792 s t) : t = { s with regs := t.regs, seqs := t.seqs } := by
  unfold Same at h
  exact congrArg (fun x : State => { x with regs := t.regs, seqs := t.seqs }) h.symm

theorem Same.only_image {s t : State} (h : Same 1099511635984 s t) :
    t = { s with regs := t.regs, fcol := t.fcol, seqs := t.seqs } := by
  unfold Same at h
  exact congrArg (fun x : State => { x with regs := t.regs, fcol := t.fcol, seqs := t.seqs }) h.symm

theorem breakpoint_halts (hs : rb s (rSEQ core.val 4) 0 3 = 1) (hb : seqAtBp s core.val = true) :
    ∃ t, exec (.breakpointHit core) s = .next t ∧ rb t (rSEQ core.val 4) 0 3 = 0 ∧ rb t (rSEQ core.val 4) 4 3 = 3 ∧
      rbit t (rSEQ core.val 4) 16 = true ∧ (∀ o, o ≠ rSEQ core.val 4 → rd t o = rd s o) ∧
      t = { s with regs := t.regs, seqs := t.seqs } := by
  let n := core.val
  let y := orBits s (rSEQ n 4) 0x10000
  obtain ⟨halted, why⟩ := seqHaltAs_halts y n (why := 3) (by decide)
  refine ⟨seqHaltAs y n 3, congrArg Host.Outcome.next (if_pos ⟨hs, hb⟩), halted, why, ?_,
    fun o ho => (rd_seqHaltAs ho).trans (rd_orBits_ne _ _ ho),
    Same.only_status (((orBits_same s _ _).mono rfl).trans (seqHaltAs_same y n 3))⟩
  rw [rbit_seqHaltAs y n 3 (by decide), rbit_orBits_same _ _ _ _ (by decide), Bool.or_eq_true]
  exact .inr (by decide)

/-! ## The end of a verification -/

/-- An image that passes sets IMG_OK and writes ENTRY and VECTOR; `x` has what the check reads (R312, R313). -/
theorem imgOk_writes (x : State) (n : Nat) : rbit (imgOk x n) (rSEQ n 4) 8 = true ∧
    rn (imgOk x n) (rSEQ n 0x2C) = rn x (rSEQ n 0x70) % 4096 ∧ rn (imgOk x n) (rSEQ n 0x28) = rn x (rSEQ n 0x74) % 4096 ∧
    ∀ o, o ≠ rSEQ n 4 → o ≠ rSEQ n 0x2C → o ≠ rSEQ n 0x28 → rd (imgOk x n) o = rd x o := by
  have ne {a b : Nat} (h : a ≠ b) := rSEQ_ne n h
  have entry : hdrW x n 4 = rn x (rSEQ n 0x70) := rfl
  have vector : hdrW x n 5 = rn x (rSEQ n 0x74) := rfl
  unfold imgOk
  refine ⟨?_, ?_, ?_, fun o h4 h2C h28 => ?_⟩
  · rw [rbit_congr (rd_wr_ne _ _ (ne (by decide))), rbit_congr (rd_wr_ne _ _ (ne (by decide))),
      rbit_orBits_same _ _ _ _ (by decide), Bool.or_eq_true]
    exact .inr (by decide)
  · rw [rn_wr_ne _ _ (ne (by decide)), rn_wr_same, entry]
    omega
  · rw [rn_wr_same, vector]
    omega
  · rw [rd_wr_ne _ _ h28, rd_wr_ne _ _ h2C, rd_orBits_ne _ _ h4]

theorem imageVerifyDone_ends (ha : s.coreAwake = true) (hv : (seqc s core.val).verify = true)
    (hq : queueFull s (0xCA + core.val) = false) :
    ∃ t, exec (.imageVerifyDone core) s = .next t ∧ (seqc t core.val).verify = false ∧
      rbit t (rSEQ core.val 4) 8 = imgGood s core.val ∧
      (imgGood s core.val = true → rn t (rSEQ core.val 0x2C) = rn s (rSEQ core.val 0x70) % 4096 ∧
        rn t (rSEQ core.val 0x28) = rn s (rSEQ core.val 0x74) % 4096 ∧
        (∀ o, o ≠ rSEQ core.val 4 → o ≠ rSEQ core.val 0x2C → o ≠ rSEQ core.val 0x28 → rd t o = rd s o) ∧ t.fcol = s.fcol) ∧
      (imgGood s core.val = false → (∀ o, o ≠ rSEQ core.val 4 → rd t o = rd s o) ∧
        t.fcol = (enqueue s (mkReport s (0xCA + core.val) 0x08 (rSEQ core.val 4) 0 0 false)).fcol) ∧
      t = { s with regs := t.regs, fcol := t.fcol, seqs := t.seqs } := by
  let n := core.val
  let x := setSeqc s n { seqc s n with verify := false }
  have ended : seqc x n = { seqc s n with verify := false } := seqc_setSeqc_same ..
  have frame : Same 1099511635984 s (seqVerified s n) := seqVerified_same s n
  have runs : exec (.imageVerifyDone core) s = .next (seqVerified s n) :=
    congrArg Host.Outcome.next ((if_pos ha).trans (if_pos hv))
  cases good : imgGood s n
  case true =>
    have op : seqVerified s n = imgOk x n := if_pos good
    obtain ⟨bit, entry, vector, regs⟩ := imgOk_writes x n
    refine ⟨imgOk x n, runs.trans (congrArg Host.Outcome.next op), ?_, bit, fun _ => ⟨entry, vector, regs, rfl⟩,
      (fun h => nomatch h), Same.only_image (op ▸ frame)⟩
    show (seqc x n).verify = false
    rw [ended]
  case false =>
    let y := imgClear x n
    obtain ⟨queued, filed⟩ := raise_queued (s := s) (t := y) (src := srcSeq n) (kind := kImgCrc) (addr := rSEQ n 4) (m := 0) (a := 0)
      hq rfl rfl rfl
    have op : seqVerified s n = enqueue y (mkReport y (srcSeq n) kImgCrc (rSEQ n 4) 0 0 false) :=
      (if_neg fun ok => Bool.false_ne_true (good.symm.trans ok)).trans queued
    refine ⟨_, runs.trans (congrArg Host.Outcome.next op), ?_, ?_, (fun h => nomatch h),
      fun _ => ⟨fun o ho => rd_clrBits_ne x 0x100 ho, queued ▸ filed⟩, Same.only_image (op ▸ frame)⟩
    · show (seqc x n).verify = false
      rw [ended]
    · show rbit (clrBits x (rSEQ n 4) 0x100) (rSEQ n 4) 8 = false
      rw [rbit_clrBits_same, Bool.and_eq_false_iff]
      exact .inr (by decide)

end

/-- Settles O45: each command by what SEQ_CMD's bit does, in the state in which its write has stored nothing. -/
theorem sequencerCommandsActOnTheirCore : Obligations.SequencerCommandsActOnTheirCore := by
  intro m core s h
  exact ⟨seqStart_starts h, seqStart_rejected h, seqHalt_halts h, seqResume_runs h, seqStep_runs h, seqVerify_begins h,
    seqDoorbell_rings h, seqExcClr_clears h, breakpoint_halts, imageVerifyDone_ends⟩

end Sys2Proof.Machine
end
